-- ==== Sys2Proof/Word.lean ====
section
/-!
DEFINITION. The word types of the block and nothing more: bytes, 32-bit register words, 64-bit epochs and tags.
Everything computed from them stands in Decode.lean and in the files of Machine/.
-/
namespace Sys2Proof

/-- One byte: of module memory, of Linen, of a table or of a record (R6, R12). -/
abbrev Byte := BitVec 8

/-- One BAR0 register: 32 bits (R6). -/
abbrev Word := BitVec 32

/-- A 64-bit value: a frame epoch, a user tag, a host address. -/
abbrev Wide := BitVec 64

/-- A run of bytes in ascending address order. -/
abbrev Bytes := List Byte

/-- A sparse map: pairs in strictly ascending key order, listing no key that reads as its default.
The operations on it are in Machine/Ops.lean. -/
abbrev SMap (α : Type) := List (Nat × α)

end Sys2Proof
end

