-- ==== Sys2Proof/Syntax.lean ====
section
/-!
DEFINITION. The commands of the block: one constructor of Instr for each row of spec/opcode_table.json, with the
operands that the spec's own words give the event (the table gives none). Log entry 1 says how the operands were chosen.
-/
namespace Sys2Proof

/-- The two PCI Express functions (Table 3.4). -/
inductive Fn where
  | pf0 | pf1
  deriving DecidableEq, Repr

/-- How a host read fails (R72). -/
inductive ReadFault where
  | timeout      -- Completion Timeout
  | unsupported  -- Unsupported Request
  | abort        -- Completer Abort
  | poisoned     -- a poisoned completion
  deriving DecidableEq, Repr

/-- What one host read brought back: the bytes received in ascending order, whether every byte arrived, and, where not, how
the read failed (R72). -/
structure Rd where
  bytes : Bytes
  ok : Bool
  fault : ReadFault := .timeout
  deriving DecidableEq, Repr

/-- Configuration registers of a function that no command of its own writes or reads (Tables 3.4 and 3.9). -/
inductive CfgReg where
  | id              -- Vendor ID and Device ID
  | classCode
  | deviceCapabilities -- Max Payload Size supported
  | deviceControl
  | deviceStatus
  | linkStatus      -- rate and width in force
  | linkControl     -- ASPM Control: bit 1 enables L1
  | l1PmControl     -- L1 PM Substates
  | pmControl       -- PowerState, No_Soft_Reset, PME_En
  | msixControl     -- Table Size, Function Mask, MSI-X Enable
  | rebarCapability -- BAR4 sizes offered
  | rebarControl    -- BAR4 size in force
  | ideCapability   -- selective streams and algorithm
  | capability (ext : Bool) (id : Nat) -- header of a standard or extended capability, by its identifier
  | aerUncorrectable
  | aerUncMask
  | aerUncSeverity
  | aerCorrectable
  | aerCorMask
  | aerPointer      -- First Error Pointer
  | aerHeader (i : Nat) -- Header Log, dword 0 to 3
  | serialLow
  | serialHigh
  deriving DecidableEq, Repr

/-- Where a host access of a register goes: an offset of BAR0, an offset of PF0's BAR2 (Table 3.5), there also as one 64-bit
access with the high dword of a write, or configuration space. -/
inductive RegAddr where
  | bar0 (off : Nat)
  | bar2 (off : Nat)
  | bar2Wide (off : Nat) (high : Word)
  | config (r : CfgReg)
  deriving DecidableEq, Repr

/-- A change of the link's L0p width: its new width, and whether the block itself asked for it (R60). -/
structure L0pChange where
  own : Bool
  lanes : Nat
  deriving DecidableEq, Repr

/-- A voltage at a monitor input, in microvolts (R229). -/
abbrev Microvolts := Nat

/-- A symbol error of a page that a read brings (R294): its codeword, its position there counted from 0 with the three virtual
symbols first, and the exclusive or of what was written and what is read. An error in a virtual symbol says that the page of
another number was read or written. -/
structure SymbolError where
  word : Nat
  pos : Nat
  value : Nat
  deriving DecidableEq, Repr

/-- A read of a page and its slot (R299): the page, the errors with which its codewords arrive, and the bits of the poison word
that arrive inverted. -/
structure PageRead where
  page : Nat
  errors : List SymbolError
  flips : Nat
  deriving DecidableEq, Repr

/-- What an MSI-X mask operation addresses: the function's enable bit, its function mask, or one vector (R88). -/
inductive MsixTarget where
  | enable
  | function
  | vector (v : Nat)
  deriving DecidableEq, Repr

/-- A ring that sends interrupts (R88): completion ring m of a function, or its event ring. -/
inductive IrqRing where
  | cq (fn : Fn) (m : Nat)
  | eq (fn : Fn)
  deriving DecidableEq, Repr

/-- A ring with an event-ring head doorbell: the event ring, or PF1's trace rings T1 and T2 (R79, R386). -/
inductive HeadRing where
  | event | trace1 | trace2
  deriving DecidableEq, Repr

/-- The reads of a band: the frame by the FE that its LATCHED gave, the layer and the band (R97, R103). -/
structure ReadRef where
  fe : Nat
  layer : Nat
  band : Nat
  deriving DecidableEq, Repr

/-- A band of a layer of the frame being scanned (R102). -/
structure BandRef where
  layer : Nat
  band : Nat
  deriving DecidableEq, Repr

/-- What a checker brought of the stripe it checks, by the end of the active scan (R391): the lines whose CRC-32 of step 11
codes differs from the active engine's, the lines that it finished after the weaver cut-off, the zone rows whose histograms
differ, and a digest of its own result for the three-way comparison of R392. -/
structure CheckerView where
  codes : List Nat
  late : List Nat
  rows : List Nat
  result : Nat
  deriving DecidableEq, Repr

/-- The requesters of Linen (Table 14.2). -/
inductive LinenUser where
  | host        -- PF1's commands
  | engine      -- the stripe engines, through their Linen port
  | firmware    -- the housekeeping firmware
  | security    -- the security controller and the boot ROM
  deriving DecidableEq, Repr

/-- What happens to Linen inside the die in a slot: a requester writes or reads bytes (Table 14.2, R319, R320), the security
controller sets LIN_PROT.BLOCKS (R321), or a page of a shadow bank loses its contents, so that its CRC fails (R330). -/
inductive LinenAccess where
  | write (by_ : LinenUser) (off : Nat) (data : Bytes)
  | read (by_ : LinenUser) (off n : Nat)
  | protect (blocks : Nat)
  | decay (bank page : Nat)
  deriving DecidableEq, Repr

/-- What the world supplies at a line tick: the layer table that the latch reads (R95), the lanes whose pin-echo CRC
mismatched in the slot that ends (R265), each checker's view when the active scan ends (R391), and what requesters inside the
die did with Linen in the slot that ends (R319, R321). -/
structure LineEnv where
  table : Rd
  pinEcho : List (Nat × Nat)
  checkers : List CheckerView
  linen : List LinenAccess
  deriving DecidableEq, Repr

/-- One measurement of the back-channel statistics poll (R338): amplitudes A0 to A3, skew s, offset o. -/
structure Stats where
  a0 : Int
  a1 : Int
  a2 : Int
  a3 : Int
  skew : Int
  offset : Int
  deriving DecidableEq, Repr

/-- What a calibration measurement brought (R338, R339). -/
inductive CalMeasure where
  | stats (s : Stats)                       -- a Twill lane answered its second STATS_POLL
  | taps (ctle : Int) (dfe : List Int)      -- a receiver lane's means over a committed window
  | noReply                                 -- the poll drew no reply
  | frozen                                  -- a hundred windows passed and none committed
  deriving DecidableEq, Repr

/-- Receiver window at its end (R337): transitions in 1/256 of the window, the least level share in 1/256, the pending
updates and the mean slicer error. -/
structure AdaptWindow where
  density : Nat
  balance : Nat
  ctle : Int
  dfe : List Int
  resid : Nat
  deriving DecidableEq, Repr

/-- A Gingham bring-up step that completes (R348). -/
inductive BringupStep where
  | symbolLock | deskew
  deriving DecidableEq, Repr

/-- HELLO payload (Table 16.2). -/
structure HelloMsg where
  x : Nat
  y : Nat
  fe : Nat
  timekeeper : Nat
  hops : Nat
  latency : Nat
  running : Bool
  signature : Nat
  deriving DecidableEq, Repr

/-- Why an ADC sample, wake or clock event came is given by the constructors themselves. The commands, in the order of
the opcode table. -/
inductive Instr where
  | powerOnReset
  | vinGood (braceUs : Nat)
  | bootImageVerified
  | memoryTrainingDone (patternOk : Bool)
  | bootComplete
  | damaskLoadDone (ms : Nat)
  | braceEnter (vin : Nat)
  | fall (vin : Nat)
  | fallDischargeFrame
  | fallLampsOff
  | fallReset
  | vinOvervoltageTrip
  | inputSwitchClose
  | holdupMeasurement (mJ : Nat)
  | perstAssert
  | perstDeassert
  | hotReset
  | flrPf0
  | flrPf1
  | linkDown
  | watchdogReset (reason : Nat)
  | linkTrained (speed width : Nat) (flit : Bool) (badLanes : BitVec 16)
  | l0pWidthChange (width : L0pChange)
  | l1IdleExpiry
  | l1Exit
  | pmeTurnOff
  | d3hotEntry (pmeEn : Bool)
  | d0Return (pmeEn : Bool)
  | busMasterEnableSet (fn : Fn)
  | marginingCommand (lane : Nat) (active : Bool)
  | eyeScanSweepDone (lane : Nat) (rows cols : List (List Bool))
  | hostReadCompletion (b : ReadRef) (data : Rd)
  | msixUnmask (fn : Fn) (t : MsixTarget)
  | frameTick
  | lampRepeatCycle
  | lineTick (env : LineEnv)
  | settlePoint (table : Rd)
  | bandDeadline (b : BandRef)
  | zoneRowTick (row : Nat)
  | weaverCutoff (line stripe : Nat) (plainDone historyDone : Bool)
  | evPinPulseEnd (pin : Nat)
  | descriptorFetch (fn : Fn) (data : Rd)
  | frame (sq : Nat)
  | pushHeaderCommit (slot : Nat) (header : Bytes) (stream : Option Nat)
  | pushPayloadWrite (slot offset : Nat) (data : Bytes) (stream : Option Nat)
  | bar4Read (offset length : Nat)
  | bar4Write (offset : Nat) (data : Bytes) (poisoned : Bool)
  | registerWrite (fn : Fn) (offset : RegAddr) (size : Nat) (value : Word) (poisoned : Bool)
  | sysSetupLockWrite (value : Word)
  | hifBar4BaseWrite (value : Word)
  | sysGpioOutWrite (value : Word)
  | cueSignalWrite (value : Word)
  | pwrBraceWrite (value : Word)
  | sqEnable (fn : Fn) (n : Nat) (cfg : Word)
  | sqDisable (fn : Fn) (n : Nat)
  | sqErrorClear (fn : Fn) (n : Nat)
  | cqEnable (fn : Fn) (m : Nat) (cfg : Word)
  | cqDisable (fn : Fn) (m : Nat)
  | eqEnable (fn : Fn) (cfg : Word)
  | eqDisable (fn : Fn)
  | submissionDoorbell (fn : Fn) (n : Nat) (value : Word) (poisoned : Bool)
  | completionHeadDoorbell (fn : Fn) (m : Nat) (value : Word) (poisoned : Bool)
  | eventHeadDoorbell (fn : Fn) (ring : HeadRing) (value : Word) (poisoned : Bool)
  | holdoffExpiry (ring : IrqRing)
  | setTable (sq : Nat) (data : Rd)
  | stageConfig (sq : Nat) (data : Rd)
  | armConfig (sq : Nat)
  | armConfigCancel (sq : Nat)
  | modeReq (sq : Nat)
  | dormantEntry
  | gpioWakeEdge (pin : Nat) (rising : Bool)
  | linenRead (sq : Nat)
  | linenWrite (sq : Nat) (data : Rd)
  | linenStore (sq : Nat)
  | linenBracketOpen (sq : Nat)
  | linenBracketClose (sq : Nat)
  | linenBracketAbort (sq : Nat)
  | memCopy (sq : Nat) (data : Rd)
  | memFill (sq : Nat)
  | regionUpdateDone (sq : Nat)
  | freeBuffer (sq : Nat)
  | cueLoad (sq : Nat) (data : Rd)
  | cueStart (sq : Nat)
  | cueStop (sq : Nat)
  | zoneOverride (sq : Nat) (data : Rd)
  | zoneOverrideClear (sq : Nat)
  | zoneRead (sq : Nat)
  | calRun (sq : Nat)
  | faultQuery (fn : Fn) (sq : Nat)
  | spareCommit (sq : Nat)
  | traceCfg (sq : Nat)
  | lifecycleAdvance (sq : Nat) (data : Rd)
  | debugToken (sq : Nat) (data : Rd)
  | debugRevoke (sq : Nat)
  | debugTokenExpiry
  | measExtend (sq : Nat) (data : Rd)
  | svnCommit (sq : Nat)
  | nbrMeasRead (sq : Nat)
  | nbrPin (sq : Nat) (data : Rd)
  | fwUpdate (sq : Nat) (data : Rd)
  | keyErase (sq : Nat)
  | spdmKeyExchange (authenticated : Bool)
  | spdmGetMeasurements (index : Nat)
  | keyImport (session keyId : Nat) (flags : Byte) (key : Bytes)
  | keySlotErase (session keyId : Nat)
  | ideKmKeyProg (session stream keySet : Nat) (key : Bytes)
  | ideKmKSetGo (session stream keySet : Nat)
  | ideKmKSetStop (session stream keySet : Nat)
  | ideKmQuery (session : Nat)
  | statisticsPassLine (line stripe : Nat)
  | zoneStatsMerge (row stripe fe : Nat)
  | zoneCommit
  | checkerSelfTestDone (engine : Nat) (pass : Bool)
  | spareSelfTestTimer (pass : Bool)
  | solverLockstepMismatch (pair : Nat)
  | hkLockstepMismatch (pair cause : Nat)
  | hkSelfTestDone (pair : Nat) (pass : Bool)
  | clockLoss (domain : Nat)
  | dvmSample (codes : List Microvolts)
  | powerOnStepDelay
  | powerOnStepTimeout
  | railRetryDelay
  | railRetryReset
  | panelOnDelay (ms : Nat)
  | dischargePeriodEnd
  | panelEnableRelease
  | twillTraining
  | backchannelReply (port type : Nat) (payload : Bytes) (crcOk : Bool)
  | backchannelReplyTimeout (port : Nat)
  | trainingPingTimer (port : Nat)
  | trainingPhaseTimeout (port ms : Nat)
  | trainingRetryBackoff (port : Nat)
  | statusPollTimer (port : Nat)
  | twillTestStart (value : Word)
  | twillTestStop (value : Word)
  | twillTestRead (value : Word)
  | twillErrorInject (value : Word)
  | lampReturnFrame (lane : Nat) (frame : List Nat)
  | lampAnswerTimeout (lane : Nat)
  | lampDiscovery (lane : Nat)
  | lampRediscoverTimer
  | pageCorrection (page : PageRead) (requester : Nat)
  | pageUncorrectable (page : PageRead) (requester owner : Nat)
  | pageRetire (page : Nat)
  | scrubVisit (errors : List SymbolError) (flips : Nat)
  | sramCorrection (macroIdx row word : Nat) (double : Bool)
  | sramTestWindow (failing : Option (Nat × Nat))
  | linenStoreInterval
  | linenStoreDelayExpiry
  | linenFreeze
  | linenStoreCommit (us : Nat) (failedPage : Option Nat)
  | linenMarginRead (weak0 weak1 : List Nat)
  | thermalSample (junction : Int)
  | engineClockStep
  | panelSensorPoll (readings : List (Option (Byte × Byte)))
  | adaptWindowEnd (lane : Nat) (w : AdaptWindow)
  | calMeasurementDone (lane : Nat) (m : CalMeasure)
  | ginghamPortBringup (port : Nat) (step : BringupStep)
  | ginghamBringupTimeout (port : Nat)
  | ginghamRetryTimer (port : Nat)
  | ginghamPortDown (port : Nat)
  | hello (port src : Nat) (m : HelloMsg)
  | helloTimer
  | ginghamJoinTimeout
  | latProbe (port turnaround : Nat)
  | latEcho (port roundTrip turnaround : Nat)
  | tickMarker (port : Nat)
  | digest (port src seqNo fe value : Nat)
  | ginghamArm (port src seqNo id kind slots fe : Nat) (body : Bytes)
  | armAck (port src seqNo id status cls : Nat)
  | armCommit (port src seqNo id : Nat)
  | armAbort (port src seqNo id : Nat)
  | haloTarget (port fe row : Nat) (targets : List Nat)
  | haloLevel (port fe firstRow : Nat) (levels : List (List Nat))
  | measReq (port : Nat) (nonce : Bytes)
  | meas (port : Nat) (nonce : Bytes) (lifecycle : Byte) (slots : List Bytes) (signature : Bytes)
  | ginghamWake (port : Nat)
  | registerRead (fn : Fn) (offset : RegAddr) (size : Nat)
  | vinDipBeforeRunning (vin : Nat)
  | dormantVinLoss
  | clockReturn (domain : Nat)
  | twillClockLossTimeout (group : Nat)
  | vioGtSample (mV : Nat)
  | trcEnChange (low : Bool)
  | poweredSecond
  | endSession (session : Nat)
  | busMasterEnableClear (fn : Fn)
  | bar4Resize (log2Mib : Nat)
  | msixMask (fn : Fn) (t : MsixTarget)
  deriving DecidableEq, Repr

end Sys2Proof
end

