-- ==== Sys2Proof/Decode.lean ====
section
/-!
DEFINITION. Reading a command from table bits. No row of the opcode table gives bits, so no word spells a command.
-/
namespace Sys2Proof

/-- The command that a word of the table's bits spells: none, since no row gives bits (log entry 9). -/
def decodeTableWord (_nbits _w : Nat) : Option Instr := none

end Sys2Proof
end

