-- ==== Sys2Proof/Config.lean ====
section
/-!
DEFINITION. What an implementation fixes and the spec leaves open: uninterpreted constants with no body. Nothing in
Lean can evaluate one or prove a value of it, so a theorem that mentions one holds for every value of it.
-/
namespace Sys2Proof.Config

/-- The free value number n: the block's counter `free` (Machine/State.lean) supplies n, and each use advances it.
It stands for every value that the spec leaves open after an event that goes on (log entry 3). -/
opaque freeValue : Nat → Nat

/-- Pergerel's PCI vendor identifier (Table 3.4 names it without its value). -/
opaque vendorId : Nat

/-- SHA-384 of a byte string (R354, R370, R374). The spec names the published standard (log entry 4). -/
opaque sha384 : Bytes → Bytes

/-- HMAC-SHA-384 of a key and a message (R372, R375). -/
opaque hmac384 : Bytes → Bytes → Bytes

/-- ECDSA P-384 verification: key, SHA-384 digest, signature (R367, R374, R379). -/
opaque ecdsaOk : Bytes → Bytes → Bytes → Bool

/-- ECDSA P-384 signature by a key held in fuses: key material, digest (R361, R374). -/
opaque ecdsaSign : Bytes → Bytes → Bytes

/-- AES-256-GCM opening of one unit: key, IV, additional data, ciphertext, tag; none when the tag fails (R382). -/
opaque gcmOpen : Bytes → Bytes → Bytes → Bytes → Bytes → Option Bytes

/-- The vendor key in ROM (R368). -/
opaque vendorKey : Bytes

/-- The 384-bit unique device secret in fuses (R372). -/
opaque deviceSecret : Bytes

/-- The ECDSA P-384 key pair derived from a compound device identifier: private key and public key (R372). -/
opaque keyPair : Bytes → Bytes × Bytes

/-- A certificate that a private key issues for a public key (R372). -/
opaque certificate : Bytes → Bytes → Bytes

/-- Pergerel's root and intermediate certificates and the DeviceID certificate, as they sit in the boot store (R372, R373). -/
opaque vendorChain : Bytes

/-- What an SPDM KEY_EXCHANGE response signs: the transcript, which the SPDM specification lays out (R373). -/
opaque spdmTranscript : Nat → Bytes

/-- ROM version and fuse configuration, as measured into slot 0 (R370), from the fuses that can change: COSIGN, SVN_MIN and the
owner key hash. Their layout is not given. -/
opaque romMeasure : Bool → Nat → Bytes → Bytes

/-- Type bits of a measurement block of the DMTF format, by index; the spec names the digest and the raw stream alone (R373). -/
opaque measType : Nat → Nat

/-- The security controller firmware, measured into slot 2 (R370). -/
opaque secFirmware : Bytes

/-- The engine code library, measured into slot 3 (R370). -/
opaque engineLibrary : Bytes

/-- The firmware that ships in image slots A and B (R429 says that it ships; its bytes are not given). -/
opaque shippedImage : Bytes

/-- Does an image carry a well-formed header with a vendor signature that verifies under the vendor key (R368)?
The header layout is not given. -/
opaque imageVendorOk : Bytes → Bool

/-- Does an image's owner co-signature verify against the fused owner key hash (R368)? -/
opaque imageOwnerOk : Bytes → Bytes → Bool

/-- The security version in an image's header (R368). -/
opaque imageSvn : Bytes → Nat

/-- Firmware version of an image, as SYS_FW shows it: build, major, minor (Table 20.5). -/
opaque imageFw : Bytes → Word

/-- Does the panel profile carry a valid owner signature (R371)? -/
opaque profileSigned : Bytes → Bytes → Bool

/-- The target state, serial number, owner key hash and COSIGN bit that a lifecycle authorization names, where its
signatures verify for the state it leaves: current state, owner key hash, authorization bytes (Table 17.2, R367).
The authorization's layout is not given. -/
opaque authorization : Nat → Bytes → Bytes → Option (Nat × Nat × Bytes × Bool)

/-- The owner's public key as enrolled, from its fused hash (R379). -/
opaque ownerKey : Bytes → Bytes

/-- The 32 channel blocks of a TRAINING record, "in a format of Pergerel's own" (Table 14.4): 3840 bytes. -/
opaque trainingBlocks : Nat → Bytes

/-- Die stepping fuses (SYS_ID.STEPPING, Table 20.4). -/
opaque stepping : BitVec 8

/-- The zone columns that one part of the solvers' split holds; the spec says only that the active pairs split each window
by zone columns (R156): the part, how many parts there are, the column. -/
opaque solverPairServes : Nat → Nat → Nat → Bool

/-- The first of the 64 pages whose page-state bits an SRAM word holds: macro, row, word; none for a word of another
structure. The spec does not number the macros (R314). -/
opaque bitmapWord : Nat → Nat → Nat → Option Nat

/-- Sustained ingest ceiling in MB/s at a rate code and width that Table 3.2 does not list: SPEED, width. -/
opaque ingestCeiling : Nat → Nat → Nat

end Sys2Proof.Config
end

