-- ==== Sys2Proof/Machine/State.lean ====
section
/-!
DEFINITION. Everything the block holds, as plain data, and its value at reset. Every field's docstring gives what it is,
its width, the rule that names it and its reset value. "DC 2" marks a reset value that the spec does not give and that
log entry 2 chooses. The value each field has at reset is the default written after its type.
-/
namespace Sys2Proof.Machine

/-- Reasons a step could stop the machine. There are none: the spec makes every error of the block a completion status,
an event, a counter or a fault-log record, and the block goes on. Nobody raises one (safe). -/
inductive Fault where
  deriving DecidableEq, Repr

/-- Reasons to refuse a command. -/
inductive Refusal where
  /-- The command has no meaning in this model yet: raised by Dispatch for arms not modelled (safe). -/
  | notModelled (mnemonic : String)
  deriving DecidableEq, Repr

/-- The six modes (Table 2.2). -/
inductive Mode where
  | dormant | boot | live | hold | cue | service
  deriving DecidableEq, Repr

/-- Steps of BOOT that the block's own events separate (R44). -/
inductive BootStage where
  | unpowered     -- power-on reset held, VIN not yet good (Table 19.4)
  | image         -- step 2 in progress
  | training      -- steps 3 to 5 in progress
  | loaded        -- step 6 done, steps 7 and 8 outstanding
  | recovery      -- the recovery monitor runs (R369)
  | finished      -- BOOT has ended
  deriving DecidableEq, Repr

/-- Training path of the last BOOT (Table 2.3). -/
inductive BootPath where
  | fast | full | retained
  deriving DecidableEq, Repr

/-- Steps of the fall (Table 2.8). -/
inductive FallStage where
  | idle | storing | discharge | lampsOff
  deriving DecidableEq, Repr

/-- Link power states (Table 3.3). -/
inductive LinkPower where
  | down | l0 | l1 | l2
  deriving DecidableEq, Repr

/-- Kinds of submission ring (R75); `none` is KIND 3. -/
inductive RingKind where
  | frame | cmd | cueLoad | invalid
  deriving DecidableEq, Repr

/-- Classes of change (Table 2.9). -/
inductive SeamClass where
  | seamless | seamOne | seamFull
  deriving DecidableEq, Repr

/-- What a Twill lane sends where no packet is due (R240, R255, R266): nothing; IDLE; training blocks, from a PRBS15 register;
DSK every 1024 symbols with IDLE between; DSK and IDLE in every slot; or a test pattern, from a register, with an injection
(kind, burst and rate exponent, R267). -/
inductive LaneRun where
  | off | idle
  | blocks (seed : Nat)
  | spaced | slots
  | prbs (pattern seed kind burst rate : Nat)
  deriving DecidableEq, Repr

/-- What the block sends to the world, in the order sent. -/
inductive Output where
  | hostWrite (fn : Fn) (addr : Nat) (data : Bytes)      -- posted write (R440)
  | msix (fn : Fn) (vector : Nat)                        -- MSI-X message (R88)
  | readReply (value : Word)                             -- completion of a BAR0 or BAR2 read
  | readReplyWide (low high : Word)                      -- completion of a 64-bit read of BAR2 (Table 3.5)
  | bar4Reply (data : Bytes) (poisoned : Bool)           -- completion of a BAR4 read (R65, Table 13.4)
  | pmPme                                                -- PM_PME message (R69)
  | pmeToAck                                             -- acknowledgement of PME_Turn_Off (R62)
  | aerMessage (fn : Fn)                                 -- ERR_NONFATAL message (R72)
  | aerCorrectable (fn : Fn)                             -- ERR_COR message (R72)
  | aerFatal (fn : Fn)                                   -- ERR_FATAL message (R72)
  | l0pRequest (lanes : Nat)                             -- the link is asked to widen by L0p (R60)
  | cfgReply (fn : Fn) (value : Word)                    -- completion of a configuration read
  | retryStatus (fn : Fn)                                -- Request Retry Status (R73)
  | twillPacket (port : Nat) (data : Bytes)              -- packet bytes of R241
  | twillLane (lane : Nat) (levels : List Nat)           -- its symbols on a global lane, SOP first (R238, R239)
  | twillReference (group : Nat) (on : Bool)             -- the group's reference clock starts or stops (R255, R262, R263)
  | twillRun (lane : Nat) (run : LaneRun) (symbols : List Nat) -- a lane begins a run; its first 1024 symbols (R240, R255, R266)
  | twillDsk (lanes dsk idle : List Nat)                 -- a slot's DSK on a group's lanes, then IDLE, repeated (R240)
  | twillCursors (lane : Nat) (main pre post : Int)      -- a lane driver's setting, in 1/32 of full swing (R256)
  | backchannel (group : Nat) (levels : List Bool)       -- frame of R252: the wire's level in each half bit, preamble first
  | lampChars (lane : Nat) (chars : List Nat)            -- 10-bit characters, first bit most significant (R168, R173)
  | gngFrame (port : Nat) (lanes : List (List Nat))      -- a frame's symbols on the port's two lanes, SOP first (R347)
  | gngTick (port : Nat) (levels : List Nat)             -- TICK marker (R349, R353)
  | gngRun (port : Nat) (symbols : List Nat)             -- what both lanes of a port repeat between frames; none: off (R347)
  | doeReply (data : Bytes)                              -- SPDM or IDE_KM response, body as each meaning gives it
  | traceLane (lane : Nat) (chars : List Nat)            -- 10-bit characters of a record on J9, K27.7 first (R426)
  | traceIdle (chars : List Nat)                         -- what both lanes of J9 repeat between records; none: off (R426)
  | panelEnables (pens : BitVec 8)                       -- PEN0 to PEN7 as a step of the power sequences leaves them (R230, R232)
  /-- reads of a band on an IDE stream, each an address and a length (R103, R116, R121) -/
  | surfaceReads (fe layer band : Nat) (stream : Option Nat) (reads : List (Nat × Nat))
  | gateRun (pattern : Nat) (edges : List (Nat × Nat × Bool)) -- a slot's gate edges: output, offset, level (R227)
  | evPin (pin : Nat) (level : Bool)                     -- a new level of an event pin (R218)
  | sensorRead (i3c : Bool) (addr reg : Nat)             -- a panel sensor's two bytes are read, by I3C or by I²C (R335)
  deriving DecidableEq, Repr

/-- What a text line on CON_TX is about (R425); its wording is the firmware's own. -/
inductive ConLine where
  | boot (step : Nat)                -- progress of BOOT: a step of R44 has been reached
  | record (source code : Nat)       -- a D1 record (Table 17.7)
  deriving DecidableEq, Repr

/-- An exact fraction of the configured lamp cap, num / den (R48: "equal steps"). -/
structure Frac where
  num : Nat := 1
  den : Nat := 1
  deriving DecidableEq, Repr

/-- A mode transition accepted and not complete (SYS_MODE.TARGET and TRANSIT, R39, Table 2.4). -/
structure Transit where
  target : Mode
  retain : Bool := false
  /-- HOLD turns to LIVE with the frame that latches a descriptor: a doorbell asked for it (Table 2.4) -/
  byFrame : Bool := false
  /-- a latch point has passed since acceptance (R101, R276) -/
  seen : Bool := false
  /-- progress of the entry to DORMANT (R43): 0 accepted, 1 scan-out stopped at its FT, 2 steps 3 and 4 done and the store
  requested -/
  step : Nat := 0
  deriving DecidableEq, Repr

/-- SYS_BOOT_CAUSE (Table 20.9). -/
structure BootCause where
  /-- CAUSE, 3 bits (R439); reset 0 -/
  cause : Nat := 0
  /-- WAKE_SRC, 3 bits (R439); reset 0 -/
  wakeSrc : Nat := 0
  /-- WAKE_GPIO, 3 bits (R439); reset 0 -/
  wakeGpio : Nat := 0
  /-- WAKE_PORT, 2 bits (R439); reset 0 -/
  wakePort : Nat := 0
  /-- WD_REASON, 3 bits (R439); reset 0 -/
  wdReason : Nat := 0
  /-- RETAINED, 1 bit (R439); reset 0 -/
  retained : Bool := false
  deriving DecidableEq, Repr

/-- The SYS block and the mode machine. -/
structure Sys where
  /-- SYS_MODE.MODE, 3 bits (R36, Table 2.3); reset 1, BOOT -/
  mode : Mode := .boot
  /-- SYS_MODE.TARGET and TRANSIT, 4 bits (R39, Table 2.3); reset none -/
  transit : Option Transit := none
  /-- SYS_MODE.BRACE, 1 bit (R48); reset 0 -/
  brace : Bool := false
  /-- SYS_MODE.BOOT_PATH, 2 bits (Table 2.3); reset 0, fast -/
  bootPath : BootPath := .fast
  /-- SYS_MODE.IMAGE, 1 bit (R368); reset 0, image A -/
  imageB : Bool := false
  /-- frame epoch SYS_FE, 64 bits, kept as a count (R38); reset 0 -/
  fe : Nat := 0
  /-- SYS_SETUP_LOCK.LOCK, 1 bit (R437); reset 0 -/
  lock : Bool := false
  /-- SYS_SETUP_LOCK.REJECTED, 1 bit (R437); reset 0 -/
  rejected : Bool := false
  /-- SYS_FW, 32 bits (Table 20.5); reset 0 -/
  fw : Word := 0
  /-- progress of BOOT (R44); reset: power-on reset held -/
  stage : BootStage := .unpowered
  /-- BOOT waits for VIN good at the end of the step in progress (R49); reset false -/
  bootHeld : Bool := false
  /-- the step of BOOT that ended while BOOT may not go on (R49, R334): its command, run when it may; reset none -/
  heldStep : Option Instr := none
  /-- VIN is below the warning level, since BRACE_ENTER (R48, R49); reset false -/
  vinLow : Bool := false
  /-- VIN went below the reset level in DORMANT (R50, R439); reset false -/
  vinLost : Bool := false
  /-- SYS_BOOT_CAUSE, 15 bits (R439); reset 0 -/
  cause : BootCause := {}
  /-- cause that the next BOOT will record (R439); reset 0, power-on reset -/
  nextCause : BootCause := {}
  /-- levels at the GPIO pins as inputs, 8 bits (R438); reset 0, DC 2 -/
  gpioPins : BitVec 8 := 0
  /-- high dwords latched by reads of low dwords, keyed by the high dword's offset, 32 bits each (R7); reset none -/
  hiLatch : SMap Word := []
  /-- ring service has begun (R44 step 3); reset false -/
  serving : Bool := false
  deriving DecidableEq, Repr

/-- The supply: PWR block, BRACE ramp and the fall. -/
structure Pwr where
  /-- PWR_VIN.VIN, 12 bits, 20 mV (Table 19.11); reset 0 -/
  vin : Nat := 0
  /-- PWR_VIN.VIN_MIN, 12 bits (Table 19.11); reset 0xFFF -/
  vinMin : Nat := 0xFFF
  /-- PWR_STATUS.INPUT_ON, 1 bit (R408); reset 1 -/
  inputOn : Bool := true
  /-- PWR_STATUS.OVP_SEEN, W1C, 1 bit (R408); reset 0 -/
  ovpSeen : Bool := false
  /-- the trip latch on the input side of the switch (R408); reset false -/
  ovpLatch : Bool := false
  /-- PWR_HOLDUP.ENERGY, 16 bits, mJ (R410); reset 0 -/
  holdup : Nat := 0
  /-- PWR_HOLDUP.OK, 1 bit (R410); reset 0 -/
  holdupOk : Bool := false
  /-- PWR_INPUT.POWER, 12 bits, 0.1 W (R412); reset 0 -/
  inputPower : Nat := 0
  /-- PWR_BRACE.COUNT, 16 bits, RWS (Table 2.7); reset 0 -/
  braceCount : Nat := 0
  /-- lamp cap in force as a fraction of GZ_CAP.CAP (R48, R49, R154); reset 1 -/
  capFrac : Frac := {}
  /-- the ramp descends (BRACE) or restores (R48, R49); reset restoring -/
  capDown : Bool := false
  /-- FTs left in the ramp, 0 to 8 (R48, R49); reset 0 -/
  capSteps : Nat := 0
  /-- progress of the fall (R50, Table 2.8); reset idle -/
  fall : FallStage := .idle
  deriving DecidableEq, Repr

/-- The continuous eye scan of one PCIe lane (R63). -/
structure EyeLane where
  margining : Bool := false
  /-- last complete sweep: longest error-free run of phases and of offsets (R344) -/
  sweep : Option (Nat × Nat) := none
  deriving DecidableEq, Repr

/-- Configuration registers of a function (Table 3.9). -/
structure Cfg where
  /-- Device Control, 16 bits (Table 3.9, R68, R72); reset 0x2810, PRESUMED 2 -/
  deviceControl : Word := 0x2810
  /-- Link Control, 16 bits (R61); reset 0, PRESUMED 2 -/
  linkControl : Word := 0
  /-- L1 PM Substates Control 1, 32 bits (Table 3.9); reset 0, PRESUMED 2 -/
  l1PmControl : Word := 0
  /-- Device Status, its four error bits (R72); reset 0, PRESUMED 2 -/
  deviceStatus : Word := 0
  /-- AER Uncorrectable Error Status, 32 bits (R72); reset 0, PRESUMED 2 -/
  aerUnc : Word := 0
  /-- AER Uncorrectable Error Mask, 32 bits (R72); reset 0x400000, PRESUMED 2 -/
  aerUncMask : Word := 0x400000
  /-- AER Uncorrectable Error Severity, 32 bits (R72); reset 0x462030, PRESUMED 2 -/
  aerSeverity : Word := 0x462030
  /-- AER Correctable Error Status, 32 bits (R72); reset 0, PRESUMED 2 -/
  aerCor : Word := 0
  /-- AER Correctable Error Mask, 32 bits (R72); reset 0xE000, PRESUMED 2 -/
  aerCorMask : Word := 0xE000
  /-- First Error Pointer, 5 bits (R72); reset 0, PRESUMED 2 -/
  aerFirst : Nat := 0
  /-- Header Log, 128 bits (R72); reset 0, PRESUMED 2 -/
  aerHeader : Nat := 0
  deriving DecidableEq, Repr

/-- The PCI Express attachment. -/
structure Hif where
  /-- HIF_LINK_STATUS.SPEED, 3 bits (Table 3.6); reset 0 -/
  speed : Nat := 0
  /-- HIF_LINK_STATUS.WIDTH, 5 bits (Table 3.6); reset 0 -/
  width : Nat := 0
  /-- HIF_LINK_STATUS.FLIT, 1 bit (Table 3.6); reset 0 -/
  flit : Bool := false
  /-- HIF_LINK_STATUS.L0P_WIDTH, 5 bits (Table 3.6); reset 0 -/
  l0pWidth : Nat := 0
  /-- HIF_LINK_STATUS.DEGRADED, 1 bit (R58); reset 0 -/
  degraded : Bool := false
  /-- HIF_LINK_STATUS.BAD_LANES, 16 bits (R58); reset 0 -/
  badLanes : BitVec 16 := 0
  /-- link power state (Table 3.3); reset down -/
  power : LinkPower := .down
  /-- level of PERST# is asserted (R414); reset true, DC 2 -/
  perst : Bool := true
  /-- PF0 is in D3hot (R69); reset false (D0), PRESUMED 2 -/
  d3hot : Bool := false
  /-- PF1 is in D3hot (Table 3.9); reset false (D0), PRESUMED 2 -/
  d3hot1 : Bool := false
  /-- PME_En of PF1 (Table 3.9); reset 0, PRESUMED 2 -/
  pmeEn1 : Bool := false
  /-- PME_En of PF0 (R62, R69); reset 0, PRESUMED 2 -/
  pmeEn : Bool := false
  /-- WAKE# is asserted (R62); reset false -/
  wakePin : Bool := false
  /-- Bus Master Enable of PF0 and PF1 (R440); reset 0, PRESUMED 2 -/
  bme0 : Bool := false
  /-- Bus Master Enable of PF1 (R440); reset 0, PRESUMED 2 -/
  bme1 : Bool := false
  /-- BAR4 size, log2 of bytes, 28 to 37 (R66); reset 28 -/
  bar4Log2 : Nat := 28
  /-- MSI-X Enable of PF0 (R88); reset 0, PRESUMED 2 -/
  msixOn0 : Bool := false
  /-- MSI-X Enable of PF1 (R88); reset 0, PRESUMED 2 -/
  msixOn1 : Bool := false
  /-- Function Mask of PF0 (R88); reset 0, PRESUMED 2 -/
  fmask0 : Bool := false
  /-- Function Mask of PF1 (R88); reset 0, PRESUMED 2 -/
  fmask1 : Bool := false
  /-- vectors whose Mask bit is clear, keyed 256·fn + v (R88); reset none (all masked), PRESUMED 2 -/
  unmasked : SMap Bool := []
  /-- pending bit array, keyed 256·fn + v (R88, Table 3.5); reset all 0 -/
  pba : SMap Bool := []
  /-- eye scan of each lane, keyed by lane (R63); reset not margined and no sweep -/
  eye : SMap EyeLane := []
  /-- full width was asked for at a descriptor fetch while the link was narrowed, and has not come (R60); reset false -/
  wantFull : Bool := false
  /-- configuration registers of PF0 (Table 3.9); reset as Cfg -/
  cfg0 : Cfg := {}
  /-- configuration registers of PF1 (Table 3.9); reset as Cfg -/
  cfg1 : Cfg := {}
  /-- message address and data dwords of the MSI-X table, keyed 1024·fn + dword (Table 3.5); reset 0, PRESUMED 2 -/
  msixTable : SMap Word := []
  /-- LINK_DEGRADED is due when ring service begins: new width and excluded lanes (R58, R441); reset none -/
  degradedDue : Option (Nat × Nat) := none
  /-- a doorbell has added a frame descriptor in HOLD while PF0's rings were not served (R69, Table 2.4); reset false -/
  rung : Bool := false
  deriving DecidableEq, Repr

/-- A descriptor fetched and checked, running on its ring or held back by its fence (R82, R83). -/
structure Running where
  /-- slot of the descriptor (SQ_INDEX) -/
  slot : Nat
  /-- completion ring it was fetched against, as the key 64·fn + m -/
  cq : Nat
  /-- the 64 bytes as fetched (Table 4.5) -/
  raw : Bytes
  /-- begun and waiting for an event that ends it (a store, an FT, an exchange) -/
  waiting : Bool := false
  /-- a number the waiting command keeps: the FE or instance it waits for -/
  arg : Nat := 0
  deriving DecidableEq, Repr

/-- A submission ring (Tables 4.1, 4.2). -/
structure Sq where
  /-- base address, 64 bits, 4 KiB aligned (R74); reset 0 -/
  base : Nat := 0
  /-- LOG2_SIZE, 4 to 16 (Table 4.2); reset 4 -/
  log2 : Nat := 4
  /-- KIND, 2 bits (Table 4.2); reset 1, CMD -/
  kind : RingKind := .cmd
  /-- CQ, 6 bits (Table 4.2); reset 0 -/
  cq : Nat := 0
  /-- ERROR, W1C (Table 4.2); reset 0 -/
  error : Bool := false
  /-- ENABLE (Table 4.2); reset 0 -/
  enable : Bool := false
  /-- SQ_HEAD, 16 bits (Table 4.1); reset 0 -/
  head : Nat := 0
  /-- SQ_TAIL, 16 bits (Table 4.1); reset 0 -/
  tail : Nat := 0
  /-- stopped by a fetch error (R81); reset false -/
  stopped : Bool := false
  /-- the descriptor fetched and not complete (R82); reset none -/
  running : Option Running := none
  deriving DecidableEq, Repr

/-- A completion record without its phase and its SQ_HEAD (Table 4.6). -/
structure Rec where
  type : Nat
  status : Nat
  sq : Nat
  slot : Nat
  tag : Wide
  r0 : Nat := 0
  r1 : Nat := 0
  r2 : Nat := 0
  r3 : Nat := 0
  /-- the descriptor set IRQ, or its status selects it (R88) -/
  irq : Bool := false
  deriving DecidableEq, Repr

/-- A completion ring (Tables 4.1, 4.3). -/
structure Cq where
  /-- base address, 64 bits (R74); reset 0 -/
  base : Nat := 0
  /-- LOG2_SIZE (Table 4.3); reset 4 -/
  log2 : Nat := 4
  /-- VECTOR, 8 bits (Table 4.3); reset 0 -/
  vector : Nat := 0
  /-- IRQ_MODE, 2 bits (Table 4.3); reset 0 -/
  irqMode : Nat := 0
  /-- HOLDOFF, 8 bits, µs (Table 4.3); reset 0 -/
  holdoff : Nat := 0
  /-- ENABLE (Table 4.3); reset 0 -/
  enable : Bool := false
  /-- CQ_HEAD, 16 bits (Table 4.1); reset 0 -/
  head : Nat := 0
  /-- CQ_TAIL, 16 bits (Table 4.1); reset 0 -/
  tail : Nat := 0
  /-- phase of the next record, CQ_TAIL bit 16 (R76); reset 1 -/
  phase : Bool := true
  /-- internal store of records, oldest first, 64 places (R86); reset empty -/
  store : List Rec := []
  /-- places reserved (R86); reset 0 -/
  reserved : Nat := 0
  /-- a message was sent less than HOLDOFF ago (R88); reset false -/
  hoActive : Bool := false
  /-- a record was selected during the holdoff (R88); reset false -/
  hoDue : Bool := false
  /-- a message of this ring is held in the PBA (R88); reset false -/
  held : Bool := false
  deriving DecidableEq, Repr

/-- An event as it is posted, before it is written (Table 4.9). -/
structure Ev where
  code : Nat
  sev : Nat
  fe : Nat
  p0 : Nat := 0
  p1 : Nat := 0
  p2 : Nat := 0
  deriving DecidableEq, Repr

/-- An event ring, or a trace ring of PF1 (Tables 4.1, 4.3, R386). -/
structure Eq where
  /-- base address, 64 bits (R74); reset 0 -/
  base : Nat := 0
  /-- LOG2_SIZE (Table 4.3); reset 4 -/
  log2 : Nat := 4
  /-- VECTOR, 8 bits (Table 4.3); reset 0 -/
  vector : Nat := 0
  /-- IRQ_MODE, 2 bits (Table 4.3); reset 0 -/
  irqMode : Nat := 0
  /-- HOLDOFF, 8 bits, µs (Table 4.3); reset 0 -/
  holdoff : Nat := 0
  /-- ENABLE (Table 4.3); reset 0 -/
  enable : Bool := false
  /-- EQ_HEAD, 16 bits (Table 4.1); reset 0 -/
  head : Nat := 0
  /-- EQ_TAIL, 16 bits (Table 4.1); reset 0 -/
  tail : Nat := 0
  /-- phase of the next record, EQ_TAIL bit 16 (R76); reset 1 -/
  phase : Bool := true
  /-- EQ_LOST, 32 bits, saturating (R89); reset 0 -/
  lost : Nat := 0
  /-- events dropped since the last event written (R89); reset 0 -/
  lostRun : Nat := 0
  /-- pending store of 256 events, oldest first (R441); reset empty -/
  pend : List Ev := []
  /-- events dropped because the pending store was full, not yet counted in EQ_LOST (R441); reset 0 -/
  pendLost : Nat := 0
  /-- a message was sent less than HOLDOFF ago (R88); reset false -/
  hoActive : Bool := false
  /-- a record was selected during the holdoff (R88); reset false -/
  hoDue : Bool := false
  /-- a message of this ring is held in the PBA (R88); reset false -/
  held : Bool := false
  deriving DecidableEq, Repr

/-- A trace record (R386); its CODE and its time since the FT are free values (log entry 3). -/
structure TraceRec where
  source : Nat
  level : Nat
  code : Nat
  fe : Nat
  ns : Nat := 0
  payload : Nat := 0
  deriving DecidableEq, Repr

/-- The rings of both functions. -/
structure Rings where
  /-- submission rings, keyed 64·fn + n (R74); reset each as Sq -/
  sqs : SMap Sq := []
  /-- completion rings, keyed 64·fn + m (R74); reset each as Cq -/
  cqs : SMap Cq := []
  /-- PF0 event ring (R74); reset as Eq -/
  eq0 : Eq := {}
  /-- PF1 event ring (R74); reset as Eq -/
  eq1 : Eq := {}
  /-- PF1 trace ring T1 (R386); reset as Eq -/
  t1 : Eq := {}
  /-- PF1 trace ring T2 (R386); reset as Eq -/
  t2 : Eq := {}
  /-- trace records that wait until PF1 may issue requests, oldest first (R440); reset none -/
  traceWait : List TraceRec := []
  /-- ring that the round robin of PF0's second tier serves next, 0 to 63 (R80); reset 0 -/
  rr0 : Nat := 0
  /-- ring that PF1's round robin serves next, 0 to 7 (R80); reset 0 -/
  rr1 : Nat := 0
  deriving DecidableEq, Repr

/-- A stage slot or the setup set: what is staged, beside what is in force (R91, R92). -/
structure Slot where
  /-- register entries, offset and value as written, in ascending offset (R92) -/
  regs : List (Nat × Word) := []
  /-- bytes of staged tables, keyed 2^20·identifier + offset, in ascending key (R92, R442) -/
  tbl : List (Nat × Byte) := []
  /-- FE that the slot is armed for (R92) -/
  armed : Option Nat := none
  deriving DecidableEq, Repr

/-- Configuration in force and staged. -/
structure Conf where
  /-- RWL registers in force, keyed by BAR0 offset, those that differ from their Reset column (R91); reset none -/
  regs : SMap Word := []
  /-- RW, RWS and live registers, keyed by BAR0 offset, those that differ from Reset (R434); reset none -/
  live : SMap Word := []
  /-- tables in force, keyed 2^20·identifier + offset, bytes that are not 0 (R12); reset all 0, DC 2 -/
  tables : SMap Byte := []
  /-- the setup set (R91); reset empty -/
  setup : Slot := {}
  /-- stage slots 0 to 3 (R92); reset empty -/
  slots : SMap Slot := []
  deriving DecidableEq, Repr

/-- A layer of a frame (Table 5.2, Table 6.4, Table 12.3). -/
structure Layer where
  source : Nat := 0
  format : Nat := 1
  bandLines : Nat := 1
  isProtected : Bool := false
  stream : Nat := 0
  tag : Nat := 0
  addr0 : Nat := 0
  addr1 : Nat := 0
  pitch0 : Nat := 0
  pitch1 : Nat := 0
  width : Nat := 0
  height : Nat := 0
  dstX : Nat := 0
  dstY : Nat := 0
  blend : Nat := 0
  yccMatrix : Nat := 0
  yccFull : Bool := false
  planeAlpha : Nat := 16383
  /-- SCALE of Table 12.3; 0 for host layers -/
  scale : Nat := 0
  /-- shown as fully transparent for this frame (R116, R285) -/
  transparent : Bool := false
  /-- it is transparent only because it lies outside the active area (R285) -/
  unfit : Bool := false
  deriving DecidableEq, Repr

/-- A crossfade: the outgoing layers, the frame of the fade and its length (R286). -/
structure Mix where
  old : List Layer := []
  f : Nat := 0
  x : Nat := 0
  deriving DecidableEq, Repr

/-- What a frame shows: its layers, the staging of its pulled and pushed layers (keyed 2^40·layer + byte offset) and the
crossfade that runs in it. -/
structure Content where
  layers : List Layer := []
  staging : SMap Byte := []
  /-- ranges of staging that lie in poisoned pages: first key and bytes (Table 13.4 row 3) -/
  lost : List (Nat × Nat) := []
  mix : Option Mix := none
  deriving DecidableEq, Repr

/-- State of one band of one pulled or pushed layer (R102, R103). -/
inductive BandStatus where
  | idle          -- its reads have not begun, or its push has not come
  | reading       -- the unit is at this band: its reads are issued
  | present       -- all of its bytes are in staging
  | failed        -- a read failed (R107)
  | abandoned     -- its deadline passed while reads were outstanding (R103)
  | substituted   -- judged absent at its deadline (R113)
  | shown         -- judged present at its deadline
  deriving DecidableEq, Repr

/-- A frame: latched, displayed, previous or held (R97 ff, R269). -/
structure Frame where
  /-- a host descriptor supplied it (records are due); false for cue, hold and black frames -/
  host : Bool := false
  sq : Nat := 0
  slot : Nat := 0
  cq : Nat := 0
  tag : Wide := 0
  irq : Bool := false
  /-- FE that its LATCHED gave -/
  fe : Nat := 0
  /-- FE of its last scan -/
  lastFe : Nat := 0
  /-- scans so far (Table 4.8) -/
  scans : Nat := 0
  snapshot : Bool := false
  dwellHint : Nat := 0
  /-- contents; the frame's own is entry 0 and later entries stand in for substituted lines (R113) -/
  contents : List Content := []
  /-- which entry of contents each line shows; unlisted lines show entry 0, an entry past the list is black -/
  lineFrom : SMap Nat := []
  /-- bands, keyed 65536·layer + band (R102) -/
  bands : SMap BandStatus := []
  /-- bands substituted (FRAME_DONE RESULT3) -/
  substituted : Nat := 0
  /-- RELEASED has been posted, or none is due -/
  released : Bool := false
  /-- PULL_ERROR has been posted (R107) -/
  pullError : Bool := false
  /-- FRAME_DONE has been posted, or none is due -/
  finished : Bool := false
  /-- FRAME_DONE is due when the active scan of its last scan ends (R101) -/
  lastScan : Bool := false
  /-- an active scan of it that was not a blind scan has completed (R269) -/
  onPanel : Bool := false
  deriving DecidableEq, Repr

/-- A frame descriptor held as a candidate (R96). -/
structure Cand where
  sq : Nat
  slot : Nat
  /-- completion ring it was fetched against -/
  cq : Nat
  raw : Bytes
  deriving DecidableEq, Repr

/-- A push slot (R109 to R112). -/
structure PushSlot where
  /-- the slot is not free: header accepted and not yet freed -/
  used : Bool := false
  /-- it accepts payload writes -/
  accepts : Bool := false
  layer : Nat := 0
  band : Nat := 0
  fe : Nat := 0
  len : Nat := 0
  crcEn : Bool := false
  crc : Nat := 0
  /-- payload bytes written; the bytes themselves are in module memory -/
  count : Nat := 0
  /-- selective IDE stream on which the header and every payload write came (R116) -/
  onStream : Option Nat := none
  /-- all payload arrived and its CRC passed -/
  complete : Bool := false
  /-- shown: the engines read it until they have begun this slot; none otherwise (R112) -/
  readTo : Option Nat := none
  /-- read by the engines or discarded; freed when the slot before it is (R112) -/
  spent : Bool := false
  /-- its band belongs to a protected layer (R380) -/
  guarded : Bool := false
  /-- header bytes written through BAR4 and not yet submitted, 32 bytes (R110); reset 0 -/
  hdr : Bytes := List.replicate 32 0
  deriving DecidableEq, Repr

/-- Ingest, latch and release. -/
structure Ing where
  /-- candidates in ring order, at most 8 (R96); reset none -/
  cands : List Cand := []
  /-- descriptor latched whose frame has not begun (R97); reset none -/
  coming : Option Frame := none
  /-- displayed frame (R101); reset none -/
  shown : Option Frame := none
  /-- previously displayed frame (R113); reset none -/
  prev : Option Frame := none
  /-- the frame scanned last, not in a blind scan, once another frame has replaced it (R269); reset none -/
  lastSeen : Option Frame := none
  /-- frames that left the panel while reads of theirs are outstanding, oldest first: RELEASED is due (R105); reset none -/
  owed : List Frame := []
  /-- bands substituted in the frame being scanned, and the first one (R35); reset 0 -/
  underruns : Nat := 0
  /-- index of the first substituted band within its layer (R35); reset 0 -/
  firstUnder : Nat := 0
  /-- ING_PUSH_STATUS.NEXT, 8 bits (Table 5.10); reset 0 -/
  pushNext : Nat := 0
  /-- ING_PUSH_STATUS.FREE, 8 bits (Table 5.10); reset 0 -/
  pushFree : Nat := 0
  /-- ING_PUSH_STATUS.RESYNC (Table 5.10); reset 0 -/
  resync : Bool := false
  /-- ING_PUSH_FE, 64 bits: FE of the frame whose latch point is the most recent (R110); reset 0 -/
  pushFe : Nat := 0
  /-- ING_PUSH_DROPS.STALE, 8 bits, saturating (Table 5.11); reset 0 -/
  stale : Nat := 0
  /-- ING_PUSH_DROPS.EARLY, 8 bits, saturating (Table 5.11); reset 0 -/
  early : Nat := 0
  /-- ING_PUSH_DROPS.MISPLACED, 8 bits, saturating (Table 5.11); reset 0 -/
  misplaced : Nat := 0
  /-- ING_PUSH_DROPS.LATE, 8 bits, saturating (Table 5.11); reset 0 -/
  late : Nat := 0
  /-- push slots, keyed by slot (R112); reset all free -/
  push : SMap PushSlot := []
  /-- pages of protected SOURCE 2 layers whose staging is not released (R116, R380); reset none -/
  guards : List Nat := []
  deriving DecidableEq, Repr

/-- A line that the engines have worked on and the weaver has not yet sent (R117, R136). -/
structure LineBuf where
  /-- plain codes, three per pixel (R136) -/
  plain : List Nat := []
  /-- history codes read by step 10 (R136) -/
  hist : List Nat := []
  /-- pre-dither codes (R119) -/
  pre : List Nat := []
  /-- codes to send (R132, R136) -/
  codes : List Nat := []
  /-- overdrive history to write (R18, Table 6.8); none leaves a stripe unchanged -/
  newHist : List (Option Nat) := []
  /-- some code came from a substitute (SUBST, Table 11.3), by stripe; all stripes for an underrun -/
  subst : List Nat := []
  deriving DecidableEq, Repr

/-- Pixel pipeline state. -/
structure Pix where
  /-- dither phase counters Q[k][π], 2 bits each, keyed 2k + π (R133); reset 0 -/
  q : SMap Nat := []
  /-- dither phase p of each band for the refresh in progress, keyed by band (R134); reset 0 -/
  phase : SMap Nat := []
  /-- the refresh in progress is held (R133); reset false -/
  held : Bool := false
  /-- lines between engines and weaver, keyed by line; reset none -/
  lines : SMap LineBuf := []
  /-- PIX_LITE.PLAIN, 16 bits, saturating (Table 6.12); reset 0 -/
  litePlain : Nat := 0
  /-- PIX_LITE.HISTORY, 8 bits, saturating (Table 6.12); reset 0 -/
  liteHist : Nat := 0
  /-- PIX_LITE.BLACK, 8 bits, saturating (Table 6.12); reset 0 -/
  liteBlack : Nat := 0
  /-- stripe-lines sent by the lite path in this frame, its first line and stripe (R35); reset none -/
  late : Option (Nat × Nat × Nat) := none
  /-- which stripe-lines those are, keyed 65536·stripe + line (R391); reset none -/
  lite : SMap Bool := []
  deriving DecidableEq, Repr

/-- A zone table entry (Table 7.2); 16-bit levels. -/
structure Zone where
  committed : Nat := 0
  spec : Nat := 0
  prev : Nat := 0
  /-- drive gain in force this frame, uQ1.15; reset 32768, DC 2 (recomputed from Linen at BOOT) -/
  gain : Nat := 32768
  /-- gain written through port B, in effect at the next FT (R157) -/
  gainNext : Nat := 32768
  targetPrev : Nat := 0
  /-- TARGET_PREV as it stood at the FT, which the predictor compares with (R156, R158); reset 0 -/
  targetFt : Nat := 0
  dead : Bool := false
  /-- override level, when OVERRIDE is set (R166) -/
  override : Option Nat := none
  clipped : Bool := false
  /-- 32 bits -/
  energy : Nat := 0
  deriving DecidableEq, Repr

/-- An override armed for an FE (R166). -/
structure OverrideArm where
  fe : Nat
  first : Nat
  count : Nat
  /-- levels, or none to clear -/
  levels : Option (List Nat)
  deriving DecidableEq, Repr

/-- Gauze. -/
structure Gz where
  /-- zone table, keyed by zone (R149, Table 7.2); reset each as Zone -/
  zones : SMap Zone := []
  /-- zone statistics bank: eight 16-bit bins per zone, keyed 8·zone + bin (R146); reset 0 -/
  bank : SMap Nat := []
  /-- histograms in the engines' scratchpads, not yet merged, keyed 8·(192·zone + stripe) + bin (R144); reset 0 -/
  scratch : SMap Nat := []
  /-- line that each stripe's statistics pass comes to next, keyed by stripe (R142); reset 0 -/
  progress : SMap Nat := []
  /-- FE for which the rows are open (R147); reset 0 -/
  openFe : Nat := 0
  /-- statistics are running for the frame that begins at the next FT (R142); reset false -/
  opened : Bool := false
  /-- stripes that have merged each row, keyed by row (R148); reset 0 -/
  merges : SMap Nat := []
  /-- which stripes those are, keyed 192·row + stripe (R148); reset none -/
  merged : SMap Bool := []
  /-- real target of each zone of a delivered row (R150), keyed by zone; reset none -/
  targets : SMap Nat := []
  /-- rows committed in this frame; rows 0 to done − 1 (R160); reset 0 -/
  rowsDone : Nat := 0
  /-- rows delivered before their commit in this frame, whose targets the predictor reads (R158); reset none -/
  delivered : List Nat := []
  /-- predictor in CHANGE, GZ_STATE.PREDICT (R158); reset 0 -/
  change : Bool := false
  /-- E_done: drives committed in this frame (R154); reset 0 -/
  eDone : Nat := 0
  /-- power cap in force for this frame, CAPe (R154); reset 65535 -/
  capE : Nat := 65535
  /-- reconstruction rows, keyed 512·row + column (R162); reset 0 -/
  recon : SMap Nat := []
  /-- rows of the reconstruction that wait for a neighbour's levels, each with the slot that ends the wait (R360); reset none -/
  reconDue : List (Nat × Nat) := []
  /-- rows forced in this frame, and the first (R160, R35); reset 0 -/
  forced : Nat := 0
  /-- first zone row forced in this frame (R35); reset 0 -/
  firstForced : Nat := 0
  /-- GZ_COUNTS.FORCED, 16 bits (Table 7.19); reset 0 -/
  forcedLast : Nat := 0
  /-- GZ_COUNTS.COLLIDE, 8 bits, saturating (R149); reset 0 -/
  collide : Nat := 0
  /-- GZ_COUNTS.STATS_LATE, 8 bits, saturating (R147); reset 0 -/
  statsLate : Nat := 0
  /-- clipped subpixels of the frame in progress (R163); reset 0 -/
  clip : Nat := 0
  /-- GZ_CLIP.COUNT, 32 bits (Table 7.18); reset 0 -/
  clipLast : Nat := 0
  /-- zones clipped in the frame in progress (R163); reset none -/
  clipZones : SMap Bool := []
  /-- zones reported dead (true) or alive (false) since the last FT (R164); reset none -/
  reports : SMap Bool := []
  /-- copies of ZONE_READs that PF0 has not been able to write yet, by ring: FE and bytes (R167, R440); reset none -/
  copies : SMap (Option (Nat × Bytes)) := []
  /-- overrides armed and not begun (R166); reset none -/
  arms : List OverrideArm := []
  /-- solver pairs that failed during the run in progress (R395); reset none -/
  failedPairs : List Nat := []
  /-- pairs that solve the run in progress, where one of them has failed in it (R395); reset none -/
  runPairs : Option (List Nat) := none
  /-- halo zones' targets of the frame whose statistics run, plus 1, keyed 65536·port + 8·row + column (R359); reset none -/
  haloTarget : SMap Nat := []
  /-- halo targets of the previous frame (R359); reset 0 -/
  haloTargetPrev : SMap Nat := []
  /-- halo levels of this frame (R359); reset none -/
  haloLevel : SMap Nat := []
  /-- halo levels of the previous frame (R359); reset 0 -/
  haloLevelPrev : SMap Nat := []
  deriving DecidableEq, Repr

/-- A backlight driver at a chain position (R182, R183). -/
structure Driver where
  found : Bool := false
  lost : Bool := false
  /-- consecutive frames unanswered (R183) -/
  misses : Nat := 0
  /-- driver channels reported failed (R184) -/
  failed : List Nat := []
  /-- its zones are still reported dead since it was lost: no STATUS has come since (R183) -/
  silent : Bool := false
  deriving DecidableEq, Repr

/-- A downstream frame that waits for its answer (R174, R185). -/
structure LampWait where
  pos : Nat
  /-- TYPE of the frame sent (Table 8.3) -/
  type : Nat
  frame : Bytes
  /-- sent a second time (R185) -/
  resent : Bool := false
  /-- sent to a lost position (R183) -/
  again : Bool := false
  /-- FE of the frame it belongs to -/
  fe : Nat := 0
  deriving DecidableEq, Repr

/-- Lamp links. -/
structure Lmp where
  /-- drivers, keyed 16·lane + position (R182); reset not found -/
  drivers : SMap Driver := []
  /-- answers awaited, oldest first, keyed by lane (R174); reset none -/
  waits : SMap (List LampWait) := []
  /-- chain position that discovery asks next, keyed by lane; unlisted when no discovery runs (R182); reset none -/
  probing : SMap Nat := []
  /-- position of the next STATUS_REQ, keyed by lane (R174); reset 0 -/
  statusPos : SMap Nat := []
  /-- line ticks since the cycle began (R171); reset 0 -/
  ticks : Nat := 0
  /-- the cycle in progress is DARK (R172, R226, R231, R232, R260); reset false -/
  dark : Bool := false
  /-- DARK frames left after panel-on (R231); reset 0 -/
  darkFrames : Nat := 0
  /-- LEVELS frames that went unechoed, oldest frame first: FE that they belong to, lane and position of the first, count
  (R185); reset none -/
  unechoed : List (Nat × Nat × Nat × Nat) := []
  /-- LMP_ERR.CRC_RET, 16 bits, saturating (Table 8.11); reset 0 -/
  crcRet : Nat := 0
  /-- LMP_ERR.ECHO_MISS, 16 bits, saturating (Table 8.11); reset 0 -/
  echoMiss : Nat := 0
  /-- windows that are open, keyed by zone row: line ticks left, and the columns lit at a nonzero level (R178, R180); reset
  none -/
  win : SMap (Nat × List Nat) := []
  /-- line ticks at which each zone was lit in this frame, for aging (R180), keyed by zone; reset 0 -/
  lit : SMap Nat := []
  deriving DecidableEq, Repr

/-- Damask. -/
structure Dmk where
  /-- DMK_STATUS.LOADED (Table 9.18); reset 0 -/
  loaded : Bool := false
  /-- DMK_STATUS.LOADING (Table 9.18); reset 0 -/
  loading : Bool := false
  /-- the map is in force (R46); reset false -/
  inForce : Bool := false
  /-- page of DMK_MAP_BASE that the panel profile set, where the load writes (R194); reset 0 -/
  mapBase : Nat := 0
  /-- DMK_STATUS.DUP, 8 bits, saturating (R197); reset 0 -/
  dup : Nat := 0
  /-- DMK_STATUS.BAD_LINES, 16 bits, saturating (Table 9.18); reset 0 -/
  badLines : Nat := 0
  deriving DecidableEq, Repr

/-- Overdrive. -/
structure Od where
  /-- interval record, 8 entries of 20 bits, µs (R205); reset 0, the Tmin of no timing, DC 2 -/
  intervals : List Nat := [0, 0, 0, 0, 0, 0, 0, 0]
  /-- OD_PRED.P, 20 bits (R206); reset 0 -/
  pred : Nat := 0
  /-- OD_PRED.HINT (Table 9.23); reset 0 -/
  hint : Bool := false
  /-- OD_PRED.SETTLE (Table 9.23); reset 0 -/
  settle : Bool := false
  /-- predicted dwell fixed at the latch point for the frame to come (R206); reset 0 -/
  predNext : Nat := 0
  /-- its HINT; reset 0 -/
  hintNext : Bool := false
  /-- the frame to come is a settle refresh (R210); reset false -/
  settleNext : Bool := false
  /-- overdrive is off for the first frame scanned (R200); reset true -/
  firstScan : Bool := true
  /-- overdrive is off for the frame in progress (R200); reset false -/
  offFrame : Bool := false
  /-- temperature field latched at the latch point for the frame in progress, 16 cells, sQ7.4 (R203); reset 400 -/
  theta : List Int := List.replicate 16 400
  /-- temperature field latched for the frame to come (R203); reset 400 -/
  thetaNext : List Int := List.replicate 16 400
  /-- OD_COUNTS.SETTLES, 16 bits, saturating (Table 9.24); reset 0 -/
  settles : Nat := 0
  /-- OD_COUNTS.OFF_FRAMES, 16 bits, saturating (Table 9.24); reset 0 -/
  offFrames : Nat := 0
  deriving DecidableEq, Repr

/-- Polarity and DC state of a row band (R220); reset π 1, m 0, A 0 (R223). -/
structure DcBand where
  pi : Bool := true
  mean : Nat := 0
  acc : Int := 0
  /-- sum of codes and of subpixels sent in the refresh in progress -/
  sum : Nat := 0
  count : Nat := 0
  deriving DecidableEq, Repr

/-- The timing generator and the gate sequencer. -/
structure Tmg where
  /-- ticks are issued (R216); reset false -/
  running : Bool := false
  /-- slot in progress, TMG_STATUS.SLOT (R212); reset 0 -/
  slot : Nat := 0
  /-- slot at which the next FT comes, once the start LT is found (R215); reset none -/
  nextFt : Option Nat := none
  /-- the latch point of the frame to come has passed (R98, R100); reset false -/
  latched : Bool := false
  /-- the settle point of this frame has passed (R210); reset false -/
  settled : Bool := false
  /-- no FT has come since power-on reset, the fall or DORMANT (R133); reset true -/
  fresh : Bool := true
  /-- polarity and DC state of the 64 row bands, keyed by band (R220); reset each as DcBand -/
  bands : SMap DcBand := []
  /-- a balance request is pending, TMG_STATUS.BAL_REQ (R220); reset 0 -/
  balReq : Bool := false
  /-- bands that the refresh in progress scans, 64 bits (R224); reset 0 -/
  scanned : BitVec 64 := 0
  /-- the frame in progress is a blind scan, TMG_STATUS.BLIND (R226); reset 0 -/
  blind : Bool := false
  /-- it is a partial refresh (R224); reset false -/
  isPartial : Bool := false
  /-- it is a balancing refresh (R221); reset false -/
  balancing : Bool := false
  /-- it is a seam frame (R53); reset false -/
  seam : Bool := false
  /-- no line has been emitted yet in this refresh (FIRST, Table 11.3); reset true -/
  firstLine : Bool := true
  /-- timing clocks from the FT of the last full refresh to the last FT, in HOLD and SERVICE (R271); reset 0 -/
  sinceFull : Nat := 0
  /-- the frame to come is a balancing refresh, as its start LT decided (R221); reset false -/
  balNext : Bool := false
  /-- the frame to come is a partial refresh, as its start LT decided (R275); reset false -/
  partialNext : Bool := false
  /-- SEAM_DONE of a seam-full change is due at the first frame scanned (R54); reset false -/
  seamDue : Bool := false
  /-- the frame in progress is the seam frame of a seam-one change: SEAM_DONE is due at the next FT (R53); reset false -/
  seamOne : Bool := false
  /-- EV0 to EV3 active, 4 bits (R218); reset 0 -/
  evPins : BitVec 4 := 0
  /-- TMG_EVENTS.EVPOL as the last LT took it, 4 bits (R218, R219); reset 15, as Table 10.19 gives EVPOL -/
  evPol : BitVec 4 := 15
  /-- gate pattern that the slot runs, 4 bits; none holds the idle levels (R228); reset none -/
  gatePattern : Option Nat := none
  /-- levels of GT0 to GT23 at the end of the slot, 24 bits (R227); reset 0 -/
  gateLevels : BitVec 24 := 0
  /-- VIO_GT is in a valid range, so the gate outputs drive (R421); reset false, DC 2 -/
  vioGood : Bool := false
  /-- TMG_DC_COUNTS.BALANCING, 16 bits, saturating (Table 10.21); reset 0 -/
  balCount : Nat := 0
  /-- TMG_DC_COUNTS.SLIPS, 16 bits, saturating (Table 10.21); reset 0 -/
  slips : Nat := 0
  deriving DecidableEq, Repr

/-- PNL_STATUS.STATE (Table 10.25). -/
inductive PanelState where
  | off | poweringOn | training | on | poweringOff | waiting | faultOff
  deriving DecidableEq, Repr

/-- A monitor input (R229). -/
structure Dvm where
  /-- last four samples, newest first; fewer before four were taken -/
  samples : List Nat := []
  deriving DecidableEq, Repr

/-- Panel power. -/
structure Pnl where
  /-- PNL_STATUS.STATE, 4 bits (Table 10.25); reset 0, off -/
  state : PanelState := .off
  /-- PNL_STATUS.FAULT_DVM, 4 bits (Table 10.25); reset 0 -/
  faultDvm : Nat := 0
  /-- PNL_STATUS.FAULT_STEP, 3 bits (Table 10.25); reset 0 -/
  faultStep : Nat := 0
  /-- PNL_STATUS.RETRIES, 4 bits (R233); reset 0 -/
  retries : Nat := 0
  /-- monitor inputs DVM0 to DVM11, keyed by input (R229); reset no samples -/
  dvm : SMap Dvm := []
  /-- PEN0 to PEN7 asserted, 8 bits (R230); reset 0 -/
  pens : BitVec 8 := 0
  /-- step of the power-on sequence in progress, 0 to 8 (R230); reset 0 -/
  step : Nat := 0
  /-- that step has asserted its enable and awaits its monitors (R230); reset false -/
  asserted : Bool := false
  /-- steps completed, 8 bits: their monitors are checked (R231); reset 0 -/
  checkedSteps : BitVec 8 := 0
  /-- Twill training for panel-on has ended (R231); reset false -/
  trained : Bool := false
  /-- a discharge period runs (R232); reset false -/
  discharging : Bool := false
  /-- why the power-off runs: 0 DORMANT, 1 seam-full, 2 rail fault, 3 watchdog (Table 10.9); reset 0 -/
  offReason : Nat := 0
  /-- the panel may power on: the profile ran it at BOOT, or a descriptor was latched after lock (R226); reset false -/
  wanted : Bool := false
  /-- power-on follows the power-off in progress (R54); reset false -/
  restart : Bool := false
  /-- monitors whose rail fault has been taken since the power-off in progress began, 0xFF for a step timeout (R233); reset
  none -/
  faulted : List Nat := []
  deriving DecidableEq, Repr

/-- State of a Twill port (Table 11.14); T0 to T4 are phases 0 to 4. -/
inductive PortState where
  | unused | phase (t : Nat) | active | failed | quiet | backoff | test
  deriving DecidableEq, Repr

/-- One Twill lane as training and calibration leave it (R256, Table 15.1). -/
structure TwlLane where
  pre : Int := 0
  post : Int := 0
  /-- setting requests taken in T2 (R256) -/
  budget : Nat := 0
  /-- T2 is done for the lane -/
  eqDone : Bool := false
  /-- reported bad in the last attempt (R259) -/
  bad : Bool := false
  deriving DecidableEq, Repr

/-- A Twill port (Table 11.14, R258). -/
structure Port where
  state : PortState := .unused
  /-- failed attempts since T0 first began (R258) -/
  tries : Nat := 0
  /-- the partner answered in T0 of the last attempt (R259) -/
  answered : Bool := false
  /-- the partner's PONG showed SPARE_IN -/
  spareIn : Bool := false
  /-- precoding agreed in T4 -/
  precode : Bool := true
  /-- port lanes, keyed by port lane -/
  lanes : SMap TwlLane := []
  /-- frame awaiting a reply, from its DST byte on, and repeats left (R253) -/
  wait : Option (Bytes × Nat) := none
  /-- last failure: phase and reason (TWILL_PORT_FAILED) -/
  phase : Nat := 0
  reason : Nat := 0
  /-- the training under way began at panel-on or a seam (R255), not in service (R261) -/
  initial : Bool := false
  deriving DecidableEq, Repr

/-- A Twill group (Table 11.13). -/
structure Group where
  spareUsed : Bool := false
  spareLane : Nat := 0
  /-- the lane that the spare replaced in a preventive exchange is good and can serve again (R402, DC 159); reset false -/
  laneSpare : Bool := false
  /-- the group is quiet (R262) -/
  quiet : Bool := false
  /-- the group has lost its clock (R397) -/
  noClock : Bool := false
  /-- lane marked pending (R398) -/
  pending : Option Nat := none
  /-- the forwarded reference runs (R255, R262) -/
  reference : Bool := false
  /-- the reference and the lanes stop at the next LT (R262) -/
  stopDue : Bool := false
  /-- quiet has ended since the last LT: DSK and IDLE go out from the next one (R263) -/
  restarting : Bool := false
  /-- port whose exchange holds the back-channel's wire (R252, R261) -/
  wire : Option Nat := none
  /-- ports whose frame waits for the wire, in order (R261) -/
  queue : List Nat := []
  deriving DecidableEq, Repr

/-- Twill. -/
structure Twl where
  /-- ports 0 to 95, keyed by port (Table 11.14); reset unused -/
  ports : SMap Port := []
  /-- groups 0 to 11, keyed by group (Table 11.13); reset spare unused -/
  groups : SMap Group := []
  /-- training of all enabled ports is under way (R255, R260); reset false -/
  training : Bool := false
  /-- TWL_ERR.PIN_ECHO, 16 bits, saturating (Table 11.15); reset 0 -/
  pinEcho : Nat := 0
  /-- TWL_ERR.RX_CRC, 16 bits, saturating (Table 11.15); reset 0 -/
  rxCrc : Nat := 0
  /-- TWL_ERR2.LINES_LOST, 32 bits, saturating (Table 11.15); reset 0 -/
  linesLost : Nat := 0
  /-- pin-echo mismatches of this frame: count, first lane, first line (R265); reset none -/
  echoFrame : Option (Nat × Nat × Nat) := none
  /-- lines with mismatches in this frame, keyed by global lane: count and first line (R398); reset none -/
  echoLines : SMap (Nat × Nat) := []
  /-- TWILL_PIN_ECHO has been posted in this frame (R265); reset false -/
  echoPosted : Bool := false
  /-- levels handed to the serializers of the slot in progress, keyed by global lane (R265); reset none -/
  handed : SMap (List Nat) := []
  /-- pattern that starts once PRBS_CHECK has gone out: lane, pattern and injection (R266, R267); reset none -/
  testRun : Option (Nat × Nat × Nat × Nat × Nat) := none
  /-- TWILL_RX_ERROR has been posted in this frame (R254); reset false -/
  rxPosted : Bool := false
  /-- port under test (R266); reset none -/
  testPort : Option Nat := none
  /-- TWL_TEST.DONE (Table 11.16); reset 0 -/
  testDone : Bool := false
  /-- TWL_TEST_ERR, 32 bits (Table 11.17); reset 0 -/
  testErr : Word := 0
  /-- TWL_TEST_SYM, 32 bits (Table 11.17); reset 0 -/
  testSym : Word := 0
  /-- injection selected: lane, kind, burst, rate exponent (R267); reset none -/
  inject : Option (Nat × Nat × Nat × Nat) := none
  /-- data symbols sent on the lane since a rate injection was selected (R267); reset 0 -/
  injected : Nat := 0
  /-- what each global lane sends, keyed by lane (R240, R255, R266); reset off -/
  runs : SMap LaneRun := []
  /-- slot of this frame at which quiet ended (R263); reset none -/
  restarted : Option Nat := none
  deriving DecidableEq, Repr

/-- A cue buffer (R277). -/
structure Buffer where
  page : Nat
  pages : Nat
  length : Nat
  isSealed : Bool := false
  /-- a free is deferred until its references end (R279) -/
  deferred : Bool := false
  deriving DecidableEq, Repr

/-- The step machine of a running cue (R283). -/
structure CueRun where
  list : Nat
  /-- buffers that the list names, its own included (R278) -/
  refs : List Nat
  /-- first step, while a NEED_DAMASK wait comes before any SHOW step (R291) -/
  start : Nat := 0
  /-- SHOW step being shown; none before the first -/
  step : Option Nat := none
  /-- frames it has shown, k -/
  shownFrames : Nat := 0
  /-- counters 0 to 7, keyed by counter (R283) -/
  counters : SMap Nat := []
  /-- layers of the outgoing step of the crossfade that began with this step (R286) -/
  old : List Layer := []
  /-- its length X; 0 for none (R286) -/
  fade : Nat := 0
  /-- DAMASK_WAIT (R291) -/
  damaskWait : Bool := false
  /-- the step was entered at the last step point, and the step before it -/
  entered : Bool := false
  /-- the step shown before it was entered -/
  prevStep : Nat := 0
  /-- the cue ends at the next FT toward this mode (R289) -/
  ending : Option Mode := none
  /-- it ends with CUE_FAULT (R283) -/
  fault : Bool := false
  deriving DecidableEq, Repr

/-- An armed CUE_START or CUE_STOP (R287, R288). -/
inductive CueArm where
  | start (fe list step : Nat)
  | stop (fe : Nat) (target : Mode)
  deriving DecidableEq, Repr

/-- A hold-frame region update (R273 to R275): its bands, whether HOLD still tracks it (R276), and the status and results
with which its command will complete. -/
structure Update where
  bands : BitVec 64
  tracked : Bool := true
  status : Nat := 0
  res : List Nat := []
  deriving DecidableEq, Repr

/-- Hold and cue playback. -/
structure Cue where
  /-- cue buffers, keyed by number 0 to 4095 (R277); reset none loaded -/
  buffers : SMap Buffer := []
  /-- the running cue (R283); reset none -/
  run : Option CueRun := none
  /-- the running cue as the step point decided it for the next FT (R283); reset none -/
  coming : Option CueRun := none
  /-- armed CUE_START or CUE_STOP (R288); reset none -/
  arm : Option CueArm := none
  /-- dirty bands, CUE_DIRTY, 64 bits (R274); reset 0 -/
  dirty : BitVec 64 := 0
  /-- barred bands, 64 bits (R274); reset 0 -/
  barred : BitVec 64 := 0
  /-- region updates tracked (R273, R275), keyed by the ring that runs them; reset none -/
  updates : SMap Update := []
  /-- bands of updates complete and not yet shown, each twice; the first is 0 once a refresh scans them all (R275); reset none -/
  shownDue : List (BitVec 64 × BitVec 64) := []
  /-- the power-on cue is loaded and enabled: its START_STEP (R290); reset none -/
  powerOn : Option Nat := none
  deriving DecidableEq, Repr

/-- Module memory and the on-chip banks. -/
structure Mem where
  /-- module memory as its requesters see it, keyed by module address, bytes that are not 0 (R292, R298); reset all 0 -/
  bytes : SMap Byte := []
  /-- page-state bitmap: written pages (R298); reset none -/
  written : SMap Bool := []
  /-- poison words of the pages' slots, 32 bits each, those that are not 0 (R294, R305); reset all 0 -/
  poison : SMap Nat := []
  /-- pages that a lost word of the page-state bitmap marks written and that no write has encoded (R314); reset none -/
  raw : SMap Bool := []
  /-- bitmap bits in the system area's page-state copy (R292, R303); reset none -/
  stateCopy : SMap Bool := []
  /-- pages whose uncorrectable decode has been reported (R306); reset none -/
  reported : SMap Bool := []
  /-- protected pages outside the firmware region (R380); reset none -/
  guarded : SMap Bool := []
  /-- retirement map: page to spare page (R308); reset none -/
  retired : SMap Nat := []
  /-- pages with a hard fault that await their PAGE_RETIRE (R307, R308); reset none -/
  hard : List Nat := []
  /-- pages pending a SPARE_COMMIT (R308); reset none -/
  pending : List Nat := []
  /-- watch: page and pass, 4096 entries (R307); reset empty -/
  watch : List (Nat × Nat) := []
  /-- MEM_SCRUB_STATUS.PASS, 16 bits (R311); reset 0 -/
  pass : Nat := 0
  /-- page that the scrubber visits next (R311); reset 0 -/
  scrubPage : Nat := 0
  /-- MEM_ECC.CORRECTED, 16 bits, saturating (Table 13.9); reset 0 -/
  corrected : Nat := 0
  /-- MEM_ECC.UNCORRECTABLE, 16 bits, saturating (Table 13.9); reset 0 -/
  uncorrectable : Nat := 0
  /-- MEM_RMW.COUNT, 32 bits, saturating (R300); reset 0 -/
  rmw : Nat := 0
  /-- MEM_RETIRE.EXHAUSTED (R310); reset 0 -/
  exhausted : Bool := false
  /-- MEM_WATCH.EVICTED, 16 bits, saturating (R307); reset 0 -/
  evicted : Nat := 0
  /-- MEM_LAST_ERR, 64 bits (Table 13.10); reset 0 -/
  lastErr : Nat := 0
  /-- MEM_RESERVED_ACCESS has been posted since the last FT (R293); reset false -/
  reservedPosted : Bool := false
  /-- regions that the retention record of this wake names: first page and pages (R303, R324); reset none -/
  retainedPages : List (Nat × Nat) := []
  /-- memory is in self-refresh with retained contents (R43); reset false -/
  retained : Bool := false
  /-- SRAM rows with a correction, keyed 2^16·macro + row: powered seconds then (R315); reset none -/
  sramFirst : SMap Nat := []
  /-- spare rows used per macro, keyed by macro (R315); reset 0 -/
  sramUsed : SMap Nat := []
  /-- SRAM_STATUS.CORRECTED, 16 bits, saturating (Table 13.11); reset 0 -/
  sramCorrected : Nat := 0
  /-- SRAM_STATUS.REPAIRED, 8 bits, saturating (Table 13.11); reset 0 -/
  sramRepaired : Nat := 0
  /-- macros with a failing row and no spare, SRAM_STATUS.NO_SPARE (Table 13.11); reset none -/
  sramNoSpare : SMap Bool := []
  deriving DecidableEq, Repr

/-- A cell of the commit word (R325). -/
structure CommitCell where
  bank : Nat
  seqNo : Nat
  deriving DecidableEq, Repr

/-- A store in progress (R325 to R327). -/
structure Store where
  /-- the image frozen; none before the freeze -/
  image : Option (SMap Byte) := none
  /-- bank to be written -/
  bank : Nat
  /-- rings whose LINEN_STORE it serves -/
  serves : List Nat := []
  deriving DecidableEq, Repr

/-- An open bracket (R332). -/
structure Bracket where
  id : Nat
  /-- writes held, oldest first: offset and byte -/
  writes : List (Nat × Byte) := []
  deriving DecidableEq, Repr

/-- The Linen retained store. -/
structure Lin where
  /-- Linen SRAM, 1 MiB, keyed by offset, bytes that are not 0 (R318); reset 0, before recall -/
  sram : SMap Byte := []
  /-- shadow bank 0, 1 MiB (R318); reset 0, DC 2 -/
  bank0 : SMap Byte := []
  /-- shadow bank 1, 1 MiB (R318); reset 0, DC 2 -/
  bank1 : SMap Byte := []
  /-- pages of bank 0 whose hidden CRC fails (R330); reset none, DC 2 -/
  bad0 : List Nat := []
  /-- pages of bank 1 whose hidden CRC fails (R330); reset none, DC 2 -/
  bad1 : List Nat := []
  /-- commit cell 0 (R325); reset not valid, DC 2 -/
  cell0 : Option CommitCell := none
  /-- commit cell 1 (R325); reset not valid, DC 2 -/
  cell1 : Option CommitCell := none
  /-- store in progress, LIN_STATUS.STORING (Table 14.8); reset none -/
  store : Option Store := none
  /-- requests that wait for the next store (LIN_STATUS.QUEUED): rings of LINEN_STOREs; reset none -/
  queued : Option (List Nat) := none
  /-- LINEN_STOREs delayed to 1 s after the previous commit (R329): their rings; reset none -/
  delayed : List Nat := []
  /-- less than 1 s since the previous commit (R329); reset false -/
  recent : Bool := false
  /-- LIN_STATUS.MIXED (R330); reset 0 -/
  mixed : Bool := false
  /-- LIN_STATUS.BLANK (R330); reset 0 -/
  blank : Bool := false
  /-- LIN_STATUS.LAST_US, 12 bits (Table 14.8); reset 0 -/
  lastUs : Nat := 0
  /-- LIN_WEAR_A.STORES, 20 bits (R329); reset 0 -/
  wear0 : Nat := 0
  /-- LIN_WEAR_B.STORES, 20 bits (R329); reset 0 -/
  wear1 : Nat := 0
  /-- LINEN_WEAR has been posted for bank 0 (R329); reset false -/
  worn0 : Bool := false
  /-- LINEN_WEAR has been posted for bank 1 (R329); reset false -/
  worn1 : Bool := false
  /-- LIN_PROT.BLOCKS, 2 bits (R321); reset 0 -/
  blocks : Nat := 0
  /-- LIN_PROT.LOCKED (R321); reset 0 -/
  locked : Bool := false
  /-- LIN_DENIED.HOST, 16 bits, saturating (Table 14.10); reset 0 -/
  deniedHost : Nat := 0
  /-- LIN_DENIED.ENGINE, 16 bits, saturating (Table 14.10); reset 0 -/
  deniedEngine : Nat := 0
  /-- open brackets, at most four (R332); reset none -/
  brackets : List Bracket := []
  /-- powered seconds: the running count of the OPERATING record (R399); reset 0 -/
  seconds : Nat := 0
  /-- BOOTs, falls, BRACE entries and margin refreshes counted in OPERATING (Table 14.4); reset 0 -/
  boots : Nat := 0
  /-- falls counted in OPERATING (Table 14.4); reset 0 -/
  falls : Nat := 0
  /-- BRACE entries counted in OPERATING (Table 14.4); reset 0 -/
  braces : Nat := 0
  /-- margin refreshes counted in OPERATING (Table 14.4); reset 0 -/
  margins : Nat := 0
  deriving DecidableEq, Repr

/-- Applied calibration of a Twill lane (Table 15.1); reset SKEW 32 and 0 (R340). -/
structure Taps where
  skew : Int := 32
  duty : Int := 0
  outer : Int := 0
  mid : Int := 0
  deriving DecidableEq, Repr

/-- A receiver lane (R337); reset 0 (R340). -/
structure Rx where
  ctle : Int := 0
  dfe : List Int := List.replicate 8 0
  frozen : Bool := false
  resid : Nat := 0
  deriving DecidableEq, Repr

/-- An entry of a calibration set: temperature, rate code, and the quantities in Table 15.1's order. -/
structure CalEntry where
  temp : Int
  rate : Nat := 6
  vals : List Int
  deriving DecidableEq, Repr

/-- How far a lane's measurement has come (R338, R339). -/
inductive LaneStage where
  | waiting                  -- for its goals; a receiver for its next committed window
  | polled                   -- the first STATS_POLL is out
  | carrying (packets : Nat) -- its reply is discarded; packets that the lane has carried since
  | polledAgain              -- the second STATS_POLL is out
  | got (m : CalMeasure)     -- what the polls brought
  | committed                -- a receiver's window has committed
  deriving DecidableEq, Repr

/-- A run in progress (R338, R342). -/
structure CalJob where
  /-- TARGET: 0 Twill, 1 PCIe, 2 Gingham, 3 all -/
  target : Nat
  /-- MASK of Twill groups or Gingham ports -/
  mask : Nat := 0xFFF
  /-- lanes still to be measured; found when the run starts -/
  lanes : List Nat := []
  /-- measurements A of lanes that have one, keyed by lane -/
  first : SMap (List Int) := []
  /-- the measurement in progress of each lane, keyed by lane: waiting, polled, carrying its 4096 packets, polled again, its
  means got, or committed (R338, R339) -/
  stages : SMap LaneStage := []
  /-- frozen windows that a receiver has waited through, keyed by lane (R339) -/
  windows : SMap Nat := []
  /-- lanes accepted, keyed by link 0 to 2 -/
  accepted : SMap Nat := []
  /-- lanes rejected, keyed by link -/
  rejected : SMap Nat := []
  /-- the ring whose CAL_RUN it is; none for an automatic run -/
  ring : Option Nat := none
  deriving DecidableEq, Repr

/-- Calibration. -/
structure Cal where
  /-- applied Twill taps, keyed by global lane 0 to 107 (R341); reset as Taps -/
  taps : SMap Taps := []
  /-- receivers, keyed by global calibration lane 108 to 131 (R337); reset as Rx -/
  rx : SMap Rx := []
  /-- calibration sets: entries keyed 256·set + lane (R340); reset empty -/
  sets : SMap CalEntry := []
  /-- runs in progress, no lane in two of them, CAL_STATUS.RUNNING (R342, Table 15.7); reset none -/
  jobs : List CalJob := []
  /-- runs that wait, oldest first (R342); reset none -/
  waiting : List CalJob := []
  /-- CAL_STATUS.ACCEPTED, 8 bits (Table 15.7); reset 0 -/
  accepted : Nat := 0
  /-- CAL_STATUS.REJECTED, 8 bits (Table 15.7); reset 0 -/
  rejected : Nat := 0
  /-- junction temperature at the last accepted run of links 0 to 2, keyed by link (R342); reset none -/
  lastTemp : SMap Int := []
  /-- junction temperature for which the goals stand, since an FT or an accepted run last computed them (R340); reset none -/
  goalTemp : Option Int := none
  /-- RESID of each lane's last run, keyed by lane (R344); reset 0 -/
  resid : SMap Nat := []
  /-- lanes whose last run was rejected (CAL_QUAL.REJECTED); reset none -/
  rejLanes : SMap Bool := []
  deriving DecidableEq, Repr

/-- State of a Gingham port (R348). -/
inductive GngState where
  | disabled | lock | deskew | probe | greeting | up | backoff
  deriving DecidableEq, Repr

/-- A Gingham port and what its neighbour last said. -/
structure GngPort where
  state : GngState := .disabled
  /-- GNG_LATENCY.LINK, 16 bits, 1/16 ns (R348) -/
  latency : Nat := 0
  /-- the neighbour's last HELLO and tile index -/
  hello : Option (Nat × HelloMsg) := none
  /-- halo off because of the signature (R359) -/
  haloOff : Bool := false
  /-- latest MEAS: nonce, lifecycle, slots, signature (R374) -/
  meas : Option (Bytes × Byte × List Bytes × Bytes) := none
  /-- VERIFIED, 0 to 2 (R374) -/
  verified : Nat := 2
  /-- nonce of the MEAS_REQ outstanding (R361) -/
  nonce : Option Bytes := none
  deriving DecidableEq, Repr

/-- GNG_STATUS.ROLE (Table 16.7). -/
inductive Role where
  | off | joining | timekeeper | follower | island
  deriving DecidableEq, Repr

/-- A wall arm: armed on this tile and waiting for its commit (R356, R357). -/
structure WallArm where
  /-- Id of Table 16.2, 32 bits -/
  id : Nat
  kind : Nat
  slots : Nat
  fe : Nat
  body : Bytes := []
  committed : Bool := false
  /-- this tile is the originator: the ring that waits, and acknowledgements by tile: status and class -/
  ring : Option Nat := none
  acks : List (Nat × Nat × Nat) := []
  deriving DecidableEq, Repr

/-- Gingham. -/
structure Gng where
  /-- ports N, E, S, W, keyed 0 to 3 (R345); reset disabled -/
  ports : SMap GngPort := []
  /-- GNG_STATUS.ROLE, 3 bits (Table 16.7); reset 0, off -/
  role : Role := .off
  /-- GNG_STATUS.TK, 6 bits (Table 16.7); reset 0 -/
  tk : Nat := 0
  /-- timekeeper lost when the tile became an island (R362); reset none -/
  lostTk : Option Nat := none
  /-- GNG_STATUS.UPSTREAM, 2 bits (R352); reset 0 -/
  upstream : Nat := 0
  /-- GNG_STATUS.HOPS, 4 bits (Table 16.7); reset 0 -/
  hops : Nat := 0
  /-- latency to the timekeeper, 1/16 ns (R352); reset 0 -/
  latency : Nat := 0
  /-- tiles heard from in the frame in progress, each with a port on which it is heard: GNG_STATUS.PART (Table 16.7); reset none -/
  heard : List (Nat × Nat) := []
  /-- the same of the frame before (R349, Table 16.7); reset none -/
  heardBefore : List (Nat × Nat) := []
  /-- GNG_SKEW: disagreeing tiles, 64 bits (R355); reset 0 -/
  skew : BitVec 64 := 0
  /-- GNG_HALO_LATE, 32 bits, saturating (R360); reset 0 -/
  haloLate : Nat := 0
  /-- GNG_DIGEST, 64 bits (R354); reset 0 -/
  digest : Nat := 0
  /-- own digests held, newest first: FE and digest (R355); reset none -/
  history : List (Nat × Nat) := []
  /-- last SEQ held per source and TYPE, keyed 256·type + source (R349); reset none -/
  seqs : SMap Nat := []
  /-- own SEQ per TYPE, keyed by type (Table 16.1); reset 0 -/
  mySeq : SMap Nat := []
  /-- wall arms (R356); reset none -/
  arms : List WallArm := []
  /-- Id of the next ARM this tile floods (Table 16.2); reset 0, DC 2 -/
  nextId : Nat := 0
  /-- parts meet and this tile's loses: the winner's timekeeper and FE, adopted at its first FT (R363); reset none -/
  adopt : Option (Nat × Nat) := none
  /-- a follower has its start LT from a marker (R353); reset false -/
  marked : Bool := false
  /-- the FT to come is a marker's (R353, R363); reset false -/
  byMarker : Bool := false
  /-- the tile became an island in this frame: GNG_ISLAND is due at its end (R362, DC 157); reset false -/
  islandDue : Bool := false
  deriving DecidableEq, Repr

/-- An SPDM session (R373). -/
structure Session where
  id : Nat
  authenticated : Bool
  deriving DecidableEq, Repr

/-- An IDE stream (R70, R377). -/
structure Stream where
  secure : Bool := false
  /-- keys programmed for key sets 0 and 1 -/
  key0 : Option Bytes := none
  key1 : Option Bytes := none
  /-- active key set -/
  active : Nat := 0
  deriving DecidableEq, Repr

/-- Fuses: they survive every reset and power loss. -/
structure Fuses where
  /-- SEC_STATE.LIFECYCLE, 2 bits (R365); as shipped 0, MANUFACTURE (R429) -/
  lifecycle : Nat := 0
  /-- SEC_STATE.COSIGN (Table 17.11); as shipped 0, DC 2 -/
  cosign : Bool := false
  /-- SEC_STATE.SVN_MIN, 6 bits (R371); as shipped 0, DC 2 -/
  svnMin : Nat := 0
  /-- SHA-384 of the owner's public key (Table 17.2); as shipped none -/
  ownerHash : Bytes := []
  /-- Device Serial Number, 64 bits (Table 3.9); as shipped 0, DC 2 -/
  serial : Nat := 0
  /-- SRAM rows that the fuse map names, macro and row (R315); as shipped none, DC 2 -/
  rows : List (Nat × Nat) := []
  /-- engines fused out (R389); as shipped none, DC 2 -/
  engines : List Nat := []
  deriving DecidableEq, Repr

/-- Security. -/
structure Sec where
  /-- fuses (R365); reset as Fuses -/
  fuses : Fuses := {}
  /-- SEC_STATE.LEVEL and TRC_STATUS.LEVEL, 2 bits (R384); reset 0 -/
  level : Nat := 0
  /-- TRC_STATUS.SOURCES, 11 bits (Table 17.13); reset 0 -/
  sources : BitVec 11 := 0
  /-- SEC_STATE.TOKEN: a debug token is in force (R379); reset 0 -/
  token : Bool := false
  /-- MINUTES of the token in force; 0 until revoked (R379); reset 0 -/
  tokenMinutes : Nat := 0
  /-- SEC_STATE.IMAGE_SVN, 8 bits (Table 17.11); reset 0 -/
  imageSvn : Nat := 0
  /-- the Alias certificate that DeviceID issued at this BOOT (R372); reset none -/
  aliasCert : Bytes := []
  /-- SEC_BOOT_NONCE, 64 bits (R379); reset 0 (R432: before release) -/
  nonce : Nat := 0
  /-- memory key of sealed buffers, drawn at each BOOT (R383); reset none -/
  memoryKey : Option Nat := none
  /-- content-key slots 0 to 63, keyed by slot: key and PERSIST (R375); reset none -/
  keys : SMap (Bytes × Bool) := []
  /-- measurement slots 0 to 7, 48 bytes each, keyed by slot; unlisted is 48 zero bytes (R370); reset 0 -/
  slots : SMap Bytes := []
  /-- SEC_DENIED.BAR4, 16 bits, saturating (Table 17.12); reset 0 -/
  deniedBar4 : Nat := 0
  /-- SEC_DENIED.CMD, 16 bits, saturating (Table 17.12); reset 0 -/
  deniedCmd : Nat := 0
  /-- PROTECTED_ACCESS has been posted since the last FT (R381); reset false -/
  accessPosted : Bool := false
  /-- selective IDE streams 0 to 3, keyed by stream (R70); reset insecure -/
  streams : SMap Stream := []
  /-- SPDM sessions, at most 4 (R373); reset none -/
  sessions : List Session := []
  /-- identifier of the next session; reset 0 -/
  nextSession : Nat := 0
  /-- pinned neighbour keys, keyed by port (R374); reset none -/
  pins : SMap Bytes := []
  deriving DecidableEq, Repr

/-- FLT_CHECK.STATE (Table 18.11). -/
inductive CheckState where
  | rotating | rechecking | selfTest
  deriving DecidableEq, Repr

/-- A spare engine committed for the next FT (R393): its stripe, the spare, the first mismatching line, the FE and the powered
seconds at which its fault was detected (R399), the ring that waits, and whether the engine it replaces returns to the spares
(R402). -/
structure EngineMove where
  stripe : Nat
  spare : Nat
  line : Nat := 0
  fe : Nat := 0
  seconds : Nat := 0
  ring : Option Nat := none
  exchange : Bool := false
  deriving DecidableEq, Repr

/-- Faults and spares. -/
structure Flt where
  /-- FLT_MAP: engine of each stripe, keyed by stripe, 0xFF for none (R389); reset see R389: 0 before release -/
  engineOf : SMap Nat := []
  /-- checkers in force, FLT_CHECK.CHK0 and CHK1 (R389); reset none -/
  checkers : List Nat := []
  /-- idle spares in ascending order, FLT_ENGINES.IDLE (R389); reset none -/
  idle : List Nat := []
  /-- engines retired (R400); reset none -/
  retired : List Nat := []
  /-- stripes without an engine, FLT_ENGINES.UNSERVED (R389); reset none -/
  unserved : List Nat := []
  /-- stripes pending, FLT_ENGINES.PENDING (R388); reset none -/
  pendingStripes : List Nat := []
  /-- stripes whose engine has trapped (Table 13.4); reset none -/
  trapped : List Nat := []
  /-- spare engines committed for the next FT (R393); reset none -/
  coming : List EngineMove := []
  /-- FLT_CHECK.STATE, 2 bits (Table 18.11); reset 0, rotating -/
  check : CheckState := .rotating
  /-- stripe under recheck and the line where it first failed (R392); reset none -/
  suspect : Option (Nat × Nat) := none
  /-- engines that self-test now (R392); reset none -/
  testing : List Nat := []
  /-- engine that the 10 s self-test takes next (R394); reset 0 -/
  nextTest : Nat := 0
  /-- FLT_SOLVER.RETIRED, 17 bits (Table 18.12); reset 0 -/
  solverRetired : BitVec 17 := 0
  /-- the solver pair that stands idle as the spare; FLT_SOLVER.SPARE_USED shows whether pair 16 serves (Table 18.12, R395,
  R402); reset pair 16 -/
  solverIdle : Option Nat := some 16
  /-- the pairs that split the zone columns, in the order of their parts (R156): a spare stands in its predecessor's place
  (R395); reset pairs 0 to 15 -/
  solverSplit : List Nat := List.range 16
  /-- solver pairs pending (R388); reset none -/
  pendingPairs : List Nat := []
  /-- FLT_HK.OK, 2 bits (Table 18.12); reset 0b11 -/
  hkOk : BitVec 2 := 3
  /-- each halted pair, keyed by pair: its cause, and the FE and powered seconds at its detection (R396, R399); reset none -/
  hkCause : SMap (Nat × Nat × Nat) := []
  /-- FLT_HK.TAKEOVERS, 8 bits, saturating (Table 18.12); reset 0 -/
  takeovers : Nat := 0
  /-- FLT_COUNTS.MISMATCHES, 16 bits, saturating (Table 18.12); reset 0 -/
  mismatches : Nat := 0
  /-- FLT_COUNTS.TRANSIENTS, 16 bits, saturating (Table 18.12); reset 0 -/
  transients : Nat := 0
  /-- FLT_GUARANTEE.HOLDS as last reported (R404); reset 0 -/
  holds : Bool := false
  /-- clock domains without clock (R397); reset none -/
  lostClocks : List Nat := []
  deriving DecidableEq, Repr

/-- A panel sensor (R335). -/
structure Sensor where
  valid : Bool := false
  /-- consecutive bad polls -/
  bad : Nat := 0
  /-- latest reading, sQ7.4 -/
  reading : Int := 0
  deriving DecidableEq, Repr

/-- Temperatures. -/
structure Thm where
  /-- THM_DIE.JUNCTION, 16 bits, sQ7.4 (R333); reset 0 -/
  junction : Int := 0
  /-- THM_DIE.CLOCK, 12 bits, MHz (R334); reset 1800 -/
  clock : Nat := 1800
  /-- THM_STATUS.WARN (R334); reset 0 -/
  warn : Bool := false
  /-- panel sensors, keyed by sensor (R335); reset not valid -/
  sensors : SMap Sensor := []
  /-- the 4 × 4 field, THM_FIELD, 16 cells of sQ7.4 (R336); reset 400 -/
  field : List Int := List.replicate 16 400
  deriving DecidableEq, Repr

/-- The trace unit. -/
structure Trc where
  /-- TRC_EN# is low (R426); reset false, DC 2 -/
  enLow : Bool := false
  /-- the black box: newest D1 records, newest first, 3071 (R387); reset empty -/
  box : List TraceRec := []
  /-- lines sent on CON_TX, newest first (R425; the model's own field, as `out` is); reset none -/
  console : List ConLine := []
  /-- words of TRC_PROBE0 to 3 as the frame in progress takes them, keyed by probe (R434); reset 0, as Table 17.13 gives the
  registers -/
  probes : SMap Word := []
  deriving DecidableEq, Repr

/-- The panel profile's parts that the chapters define (R290, R192); the container's own format is not given. -/
structure Profile where
  /-- register settings and tables that the profile brings, as a setup set -/
  setup : Slot := {}
  /-- owner signature over the profile -/
  signature : Bytes := []
  /-- all sections, as measured into slot 4 -/
  bytes : Bytes := []
  /-- the compressed Damask map section (Table 9.1) -/
  damask : Bytes := []
  /-- the power-on cue section (Table 12.5); none when the profile has none -/
  cue : Option Bytes := none
  deriving DecidableEq, Repr

/-- The boot store: NAND on the module. -/
structure Bst where
  /-- image slot A; none when marked invalid (R378); reset as shipped (R429) -/
  imageA : Option Bytes := some Config.shippedImage
  /-- image slot B (R378); reset as shipped (R429) -/
  imageB : Option Bytes := some Config.shippedImage
  /-- panel profile (R429: none as shipped); reset none -/
  profile : Option Profile := none
  /-- retirement log: page and spare, oldest first (R309); reset none -/
  retireLog : List (Nat × Nat) := []
  /-- key table of persistent content keys (R375), keyed by slot: key under its storage key; reset none -/
  keyTable : SMap (Bytes × Bytes) := []
  /-- certificates down to DeviceID's, written in MANUFACTURE (R372, R373); reset as shipped -/
  chain : Bytes := Config.vendorChain
  deriving DecidableEq, Repr

/-- Everything the block holds. -/
structure State where
  sys : Sys := {}
  pwr : Pwr := {}
  hif : Hif := {}
  rings : Rings := {}
  conf : Conf := {}
  ing : Ing := {}
  pix : Pix := {}
  gz : Gz := {}
  lmp : Lmp := {}
  dmk : Dmk := {}
  od : Od := {}
  tmg : Tmg := {}
  pnl : Pnl := {}
  twl : Twl := {}
  cue : Cue := {}
  mem : Mem := {}
  lin : Lin := {}
  cal : Cal := {}
  gng : Gng := {}
  sec : Sec := {}
  flt : Flt := {}
  thm : Thm := {}
  trc : Trc := {}
  bst : Bst := {}
  /-- what the block has sent to the world, newest first (the model's own field); reset nothing -/
  out : List Output := []
  /-- number of the next free value (the model's own field, log entry 3); reset 0, DESIGN CHOICE -/
  free : Nat := 0
  /-- commands that wait, first in first out (the row's cut); reset empty -/
  pending : List Instr := []
  deriving DecidableEq, Repr

/-- The block right after power-on reset begins: BOOT, VIN not yet good (Table 19.4). -/
def State.reset : State := {}

/-- A meaning's answer. -/
abbrev Answer := Host.Outcome State Fault Refusal

end Sys2Proof.Machine
end

