-- ==== Sys2Proof/Machine/Ops.lean ====
section
/-!
DEFINITION. The operations that every meaning shares: sparse maps, byte and bit fields, saturating counters, CRC-32C,
free values, and what the block sends to the host: records, events and interrupt messages (R85 to R89, R441).
-/
namespace Sys2Proof.Machine

variable {α : Type}

/-! ## Sparse maps -/

/-- Read one key; a key that is not listed reads as `d`. -/
def mget (d : α) : SMap α → Nat → α
  | [], _ => d
  | (j, v) :: r, k => if j = k then v else mget d r k

/-- Put a pair into an association list in ascending key order, replacing the key's earlier value. Unlike a sparse map,
such a list keeps a value equal to any default: being listed is what counts (staged sets, R92). -/
def aput (k : Nat) (v : α) : List (Nat × α) → List (Nat × α)
  | [] => [(k, v)]
  | (j, w) :: r => if k < j then (k, v) :: (j, w) :: r else if j = k then (k, v) :: r else (j, w) :: aput k v r

/-- Write one key, keeping the canonical form: writing `d` removes the entry. -/
def mput [DecidableEq α] (d : α) (k : Nat) (v : α) (m : SMap α) : SMap α :=
  if v = d then m.filter (fun p => p.1 ≠ k) else aput k v m

/-- Write a run of consecutive keys. -/
def mputs [DecidableEq α] (d : α) (k : Nat) : List α → SMap α → SMap α
  | [], m => m
  | v :: vs, m => mputs d (k + 1) vs (mput d k v m)

/-- Write the pairs of a list in order: a later pair replaces an earlier one. -/
def mputAll [DecidableEq α] (d : α) : List (Nat × α) → SMap α → SMap α
  | [], m => m
  | (k, v) :: r, m => mputAll d r (mput d k v m)

/-- Read n consecutive keys. -/
def mgets (d : α) (m : SMap α) (k : Nat) : Nat → List α
  | 0 => []
  | n + 1 => mget d m k :: mgets d m (k + 1) n

/-- Remove every key from `lo` up to but not including `hi`. -/
def mclear (lo hi : Nat) (m : SMap α) : SMap α := m.filter (fun p => p.1 < lo || hi ≤ p.1)

/-- Keep only the keys for which `f` holds. -/
def mkeep (f : Nat → Bool) (m : SMap α) : SMap α := m.filter (fun p => f p.1)

/-- Apply `f` to every listed value, dropping what becomes the default. -/
def mmap [DecidableEq α] (d : α) (f : Nat → α → α) : SMap α → SMap α
  | [] => []
  | (k, v) :: r => if f k v = d then mmap d f r else (k, f k v) :: mmap d f r

/-- Put the pairs of a list in order. -/
def aputAll (l : List (Nat × α)) (m : List (Nat × α)) : List (Nat × α) := l.foldl (fun a p => aput p.1 p.2 a) m

/-- Look a key up. -/
def aget (m : List (Nat × α)) (k : Nat) : Option α := (m.find? (fun p => p.1 = k)).map Prod.snd

/-- Put an element into a list in ascending order of a key, before those of equal key. -/
def insertBy (key : α → Nat) (x : α) : List α → List α
  | [] => [x]
  | y :: r => if key x ≤ key y then x :: y :: r else y :: insertBy key x r

/-- A list in ascending order of a key, elements of equal key in their order. -/
def sortBy (key : α → Nat) (l : List α) : List α := l.foldr (insertBy key) []

/-- A list of numbers in ascending order. -/
def ascending (l : List Nat) : List Nat := sortBy id l

/-- Number the elements of a list from k on. -/
def keyed (k : Nat) : List α → List (Nat × α)
  | [] => []
  | v :: r => (k, v) :: keyed (k + 1) r

/-- Keys strictly rising, every one at least `lo`. -/
def mrising : Nat → SMap α → Bool
  | _, [] => true
  | lo, (k, _) :: r => decide (lo ≤ k) && mrising (k + 1) r

/-- The canonical form: keys strictly rising and no entry equal to the default. -/
def mwf [DecidableEq α] (d : α) (m : SMap α) : Bool := mrising 0 m && m.all (fun p => p.2 ≠ d)

/-! ## Bytes, fields, counters -/

/-- Little-endian value of a run of bytes (R6). -/
def leNat : Bytes → Nat
  | [] => 0
  | b :: r => b.toNat + 256 * leNat r

/-- n bytes of a value, least significant first. -/
def toLE : Nat → Nat → Bytes
  | 0, _ => []
  | n + 1, v => BitVec.ofNat 8 v :: toLE n (v / 256)

/-- n bytes of a value, most significant first. -/
def toBE (n v : Nat) : Bytes := (toLE n v).reverse

/-- The n-byte little-endian field at byte offset `off`; bytes past the end read 0. -/
def fieldAt (b : Bytes) (off n : Nat) : Nat := leNat ((b.drop off).take n)

/-- Bits lo to lo + w − 1 of a value. -/
def bits (v lo w : Nat) : Nat := v / 2 ^ lo % 2 ^ w

/-- One bit of a value. -/
def bit (v i : Nat) : Bool := v / 2 ^ i % 2 = 1

/-- Bits of a register word. -/
def wbits (v : Word) (lo w : Nat) : Nat := bits v.toNat lo w

/-- One bit of a register word. -/
def wbit (v : Word) (i : Nat) : Bool := bit v.toNat i

/-- A Boolean as a bit. -/
def b2n (b : Bool) : Nat := if b then 1 else 0

/-- Saturating addition at `cap` (counters described as saturating). -/
def satAdd (cap a b : Nat) : Nat := min cap (a + b)

/-- Clamp an integer to a range. -/
def clampI (lo hi v : Int) : Int := max lo (min hi v)

/-- A value as an n-bit two's-complement field. -/
def sfield (w : Nat) (v : Int) : Nat := (v % (2 ^ w : Int)).toNat

/-- The integer that an n-bit two's-complement field holds (R4). -/
def signedOf (w v : Nat) : Int := if bit v (w - 1) then (v : Int) - 2 ^ w else v

/-- Round a quotient: add half of the divisor and floor (R5). -/
def roundDiv (a : Int) (d : Nat) : Int := (2 * a + d) / (2 * d : Int)

/-- Round a natural quotient (R5). -/
def roundDivN (a d : Nat) : Nat := (2 * a + d) / (2 * d)

/-- The set bits of a value below bit n, ascending. -/
def bitList (v n : Nat) : List Nat := (List.range n).filter (fun i => bit v i)

/-- The value whose set bits are those listed. -/
def ofBits (l : List Nat) : Nat := l.foldl (fun a i => if bit a i then a else a + 2 ^ i) 0

/-- One step of a reflected CRC. -/
def crcStep (poly c : Nat) : Nat := if c % 2 = 1 then (c / 2) ^^^ poly else c / 2

/-- Eight steps of a reflected CRC over one byte. -/
def crcByte (poly c : Nat) (b : Byte) : Nat := (List.range 8).foldl (fun x _ => crcStep poly x) (c ^^^ b.toNat)

/-- CRC-32C as the spec uses it: initial value and final XOR 0xFFFF_FFFF (Table 14.3). -/
def crc32c (d : Bytes) : Nat := d.foldl (crcByte 0x82F63B78) 0xFFFFFFFF ^^^ 0xFFFFFFFF

/-- Take the next free value (log entry 3). -/
def freeNow (s : State) : Nat := Config.freeValue s.free

/-- Advance the free-value counter by n. -/
def skipFree (n : Nat) (s : State) : State := { s with free := s.free + n }

/-- Append something sent to the world. -/
def emit (o : List Output) (s : State) : State := { s with out := o ++ s.out }

/-! ## Functions and their service -/

def fnIdx : Fn → Nat
  | .pf0 => 0
  | .pf1 => 1

/-- Bus Master Enable of a function (R440). -/
def busMaster (s : State) : Fn → Bool
  | .pf0 => s.hif.bme0
  | .pf1 => s.hif.bme1

/-- The link carries traffic: in L0 (Table 3.3). In L1 what the block sends stalls until the link has left it (R61). -/
def linkUp (s : State) : Bool := s.hif.power = .l0

/-- Configuration registers of a function. -/
def cfgOf (h : Hif) : Fn → Cfg
  | .pf0 => h.cfg0
  | .pf1 => h.cfg1

def setCfg (fn : Fn) (c : Cfg) (h : Hif) : Hif :=
  match fn with
  | .pf0 => { h with cfg0 := c }
  | .pf1 => { h with cfg1 := c }

/-- Bits of the AER Uncorrectable Error Status register (R72; PRESUMED 24). -/
def AER_POISONED : Nat := 12
def AER_TIMEOUT : Nat := 14

/-- Bit of the AER correctable registers: an advisory non-fatal error (R72; PRESUMED 24). -/
def AER_ADVISORY : Nat := 13

/-- Is an error of AER bit `b` an advisory one: the block deals with poisoned data and goes on, and its severity is not
fatal (R72; PRESUMED 24)? -/
def advisory (c : Cfg) (b : Nat) : Bool := b = AER_POISONED && !(wbit c.aerSeverity b)

/-- A function's error registers after an error: its status bits, and for the first unmasked one the First Error Pointer and,
where a received packet is in error, its header, which no command brings: a free value (R72; PRESUMED 24). -/
def aerNoted (b header : Nat) (c : Cfg) : Cfg :=
  let first := !(wbit c.aerUncMask b) && c.aerUnc &&& ~~~c.aerUncMask = 0
  { c with
    aerUnc := c.aerUnc ||| BitVec.ofNat 32 (2 ^ b)
    aerCor := if advisory c b then c.aerCor ||| BitVec.ofNat 32 (2 ^ AER_ADVISORY) else c.aerCor
    deviceStatus := c.deviceStatus ||| (if advisory c b then 1 else if wbit c.aerSeverity b then 4 else 2)
    aerFirst := if first then b else c.aerFirst
    aerHeader := if first && b = AER_POISONED then header % 2 ^ 128 else c.aerHeader }

/-- The message of an error, while it is not masked and Device Control enables its kind (R72; PRESUMED 24). -/
def aerReport (fn : Fn) (b : Nat) (c : Cfg) : List Output :=
  if advisory c b then (if wbit c.aerCorMask AER_ADVISORY || !(wbit c.deviceControl 0) then [] else [.aerCorrectable fn])
  else if wbit c.aerUncMask b then []
  else if wbit c.aerSeverity b then (if wbit c.deviceControl 2 then [.aerFatal fn] else [])
  else if wbit c.deviceControl 1 then [.aerMessage fn] else []

/-- An error that AER classifies as uncorrectable: its registers and its message (R72; PRESUMED 24). -/
def aer (fn : Fn) (b : Nat) (s : State) : State :=
  let c := cfgOf s.hif fn
  emit (aerReport fn b c) (skipFree 1 { s with hif := setCfg fn (aerNoted b (freeNow s) c) s.hif })

/-- A read of the block's own that has failed is reported where its requester is the function that AER charges: a timeout and
a poisoned completion (R72; PRESUMED 24). -/
def reportRead (fn : Fn) (d : Rd) (s : State) : State :=
  if d.ok then s
  else match d.fault with
    | .timeout => aer fn AER_TIMEOUT s
    | .poisoned => aer fn AER_POISONED s
    | .unsupported | .abort => s

/-- Is the ring service of a function running: begun at BOOT, link up, not in D3hot (R69, R62, R441; for PF1 PRESUMED 24)?
In the recovery monitor PF0 serves no ring (R369). -/
def served (s : State) (fn : Fn) : Bool :=
  s.sys.serving && linkUp s && (match fn with
    | .pf0 => !s.hif.d3hot && s.sys.stage ≠ .recovery
    | .pf1 => !s.hif.d3hot1)

/-- May the block issue requests for a function now (R440)? -/
def canSend (s : State) (fn : Fn) : Bool := served s fn && busMaster s fn

/-! ## What a step sends to the host -/

/-- The part of the state that sending records, events and messages may change. -/
structure Sent where
  rings : Rings
  hif : Hif
  out : List Output

def sentOf (s : State) : Sent := ⟨s.rings, s.hif, s.out⟩

def withSent (s : State) (x : Sent) : State := { s with rings := x.rings, hif := x.hif, out := x.out }

def sqOf (r : Rings) (fn : Fn) (n : Nat) : Sq := mget {} r.sqs (64 * fnIdx fn + n)

def setSq (fn : Fn) (n : Nat) (q : Sq) (r : Rings) : Rings :=
  { r with sqs := mput {} (64 * fnIdx fn + n) q r.sqs }

def cqAt (r : Rings) (key : Nat) : Cq := mget {} r.cqs key

def setCq (key : Nat) (c : Cq) (r : Rings) : Rings := { r with cqs := mput {} key c r.cqs }

def eqOf (r : Rings) : Fn → Eq
  | .pf0 => r.eq0
  | .pf1 => r.eq1

def setEq (fn : Fn) (e : Eq) (r : Rings) : Rings :=
  match fn with
  | .pf0 => { r with eq0 := e }
  | .pf1 => { r with eq1 := e }

/-- The function that owns the completion ring with a key. -/
def fnOfKey (key : Nat) : Fn := if key < 64 then .pf0 else .pf1

/-- LOG2_SIZE as it reads: 0 to 3 as 4, above 16 as 16 (Table 4.2). -/
def ringLog2 (v : Nat) : Nat := if v < 4 then 4 else if 16 < v then 16 else v

/-- MSI-X Enable of a function (R88). -/
def msixOn (h : Hif) : Fn → Bool
  | .pf0 => h.msixOn0
  | .pf1 => h.msixOn1

/-- May vector v of a function be sent now: MSI-X enabled, function and vector unmasked (R88)? -/
def vectorOpen (h : Hif) (fn : Fn) (v : Nat) : Bool :=
  msixOn h fn && !(match fn with | .pf0 => h.fmask0 | .pf1 => h.fmask1) && mget false h.unmasked (256 * fnIdx fn + v)

/-- Hold a message as its vector's pending bit (R88). -/
def holdMsix (fn : Fn) (v : Nat) (h : Hif) : Hif := { h with pba := mput false (256 * fnIdx fn + v) true h.pba }

/-- A record was selected on a completion ring: message now, or when the holdoff ends, or held while it is masked; none while
MSI-X Enable is 0. The holdoff runs from a message that was sent (R88). -/
def signalCq (key : Nat) (x : Sent) : Sent :=
  let c := cqAt x.rings key
  let fn := fnOfKey key
  if c.hoActive then { x with rings := setCq key { c with hoDue := true } x.rings }
  else if vectorOpen x.hif fn c.vector then
    { x with rings := setCq key { c with hoActive := decide (c.holdoff ≠ 0) } x.rings, out := .msix fn c.vector :: x.out }
  else if msixOn x.hif fn then { x with rings := setCq key { c with held := true } x.rings, hif := holdMsix fn c.vector x.hif }
  else x

/-- A record was selected on an event ring. -/
def signalEq (fn : Fn) (x : Sent) : Sent :=
  let e := eqOf x.rings fn
  if e.hoActive then { x with rings := setEq fn { e with hoDue := true } x.rings }
  else if vectorOpen x.hif fn e.vector then
    { x with rings := setEq fn { e with hoActive := decide (e.holdoff ≠ 0) } x.rings, out := .msix fn e.vector :: x.out }
  else if msixOn x.hif fn then { x with rings := setEq fn { e with held := true } x.rings, hif := holdMsix fn e.vector x.hif }
  else x

/-- The two posted writes of one record: bytes +0x00 to +0x1B, then the dword with the phase (R85). -/
def recordWrites (fn : Fn) (base idx : Nat) (phase : Bool) (head : Bytes) (r3 : Nat) : List Output :=
  [.hostWrite fn (base + 32 * idx + 28) (toLE 4 (r3 % 2 ^ 31 + 2 ^ 31 * b2n phase)),
   .hostWrite fn (base + 32 * idx) head]

/-- Is a completion ring full: (tail + 1) mod N equals its head (R86)? -/
def cqFull (c : Cq) : Bool := (c.tail + 1) % 2 ^ c.log2 = c.head

/-- Is an event ring full (R89)? -/
def eqFull (e : Eq) : Bool := (e.tail + 1) % 2 ^ e.log2 = e.head

/-- Statuses from 0x10 up select a record under IRQ_MODE 2 (R88). -/
def cqSelects (c : Cq) (r : Rec) : Bool :=
  c.irqMode = 1 || (c.irqMode = 2 && (r.irq || decide (0x10 ≤ r.status)))

/-- Write the oldest record of a completion ring's store to the ring (R85, R86, Table 4.6). -/
def writeRecord (key : Nat) (x : Sent) : Sent :=
  let c := cqAt x.rings key
  match c.store with
  | [] => x
  | r :: rest =>
    let fn := fnOfKey key
    let head := toLE 4 (r.type + 256 * r.status + 65536 * r.sq)
      ++ toLE 4 (r.slot % 65536 + 65536 * (sqOf x.rings fn r.sq).head)
      ++ toLE 8 r.tag.toNat ++ toLE 4 r.r0 ++ toLE 4 r.r1 ++ toLE 4 r.r2
    let t := (c.tail + 1) % 2 ^ c.log2
    let c' := { c with store := rest, tail := t, phase := if t = 0 then !c.phase else c.phase }
    let x' := { x with rings := setCq key c' x.rings
                       out := recordWrites fn c.base c.tail c.phase head r.r3 ++ x.out }
    if cqSelects c r then signalCq key x' else x'

/-- Write stored records while the ring has room (R86); at most n of them. -/
def drainCq (key : Nat) : Nat → Sent → Sent
  | 0, x => x
  | n + 1, x =>
    let c := cqAt x.rings key
    if c.enable && !c.store.isEmpty && !cqFull c then drainCq key n (writeRecord key x) else x

/-- Flush one completion ring, when its function may send. -/
def flushCq (key : Nat) (s : State) : State :=
  if canSend s (fnOfKey key) then withSent s (drainCq key (cqAt s.rings key).store.length (sentOf s)) else s

/-! ## The 8b/10b code (R168, R426)

The spec names the code and does not print it; its tables are those of the published code (PRESUMED, log entry 42). -/

/-- Control characters of the lamp links and of J9 (Table 8.1, R426), named for their K codes. -/
inductive LampK where
  | k285 | k281 | k287 | k277 | k297
  deriving DecidableEq, Repr

/-- A character before coding. -/
inductive LampChar where
  | ctl (k : LampK)
  | dat (b : Byte)
  deriving DecidableEq, Repr

/-- The 6-bit block of x at negative running disparity, first bit most significant. -/
def block6 (x : Nat) : Nat :=
  [0b100111, 0b011101, 0b101101, 0b110001, 0b110101, 0b101001, 0b011001, 0b111000,
   0b111001, 0b100101, 0b010101, 0b110100, 0b001101, 0b101100, 0b011100, 0b010111,
   0b011011, 0b100011, 0b010011, 0b110010, 0b001011, 0b101010, 0b011010, 0b111010,
   0b110011, 0b100110, 0b010110, 0b110110, 0b001110, 0b101110, 0b011110, 0b101011].getD x 0

/-- The 4-bit block of y at negative running disparity. -/
def block4 (y : Nat) : Nat := [0b1011, 0b1001, 0b0101, 0b1100, 0b1101, 0b1010, 0b0110, 0b1110].getD y 0

/-- The 4-bit block of y in a control character, at negative running disparity. -/
def controlBlock4 (y : Nat) : Nat := [0b1011, 0b0110, 0b1010, 0b1100, 0b1101, 0b0101, 0b1001, 0b0111].getD y 0

/-- Ones in the low n bits. -/
def ones (n v : Nat) : Nat := ((List.range n).filter (fun k => bit v k)).length

/-- A block at a running disparity (true is positive) and the disparity after it: an unbalanced block, and one that has two
forms, is inverted at positive disparity. -/
def balanceBlock (n : Nat) (twoForms rd : Bool) (v : Nat) : Nat × Bool :=
  let uneven := decide (2 * ones n v ≠ n)
  (if rd && (uneven || twoForms) then 2 ^ n - 1 - v else v, if uneven then !rd else rd)

/-- x and y of a control character. -/
def LampK.xy : LampK → Nat × Nat
  | .k285 => (28, 5)
  | .k281 => (28, 1)
  | .k287 => (28, 7)
  | .k277 => (27, 7)
  | .k297 => (29, 7)

/-- The 10-bit character, first bit most significant, and the running disparity after it. -/
def code10 (rd : Bool) : LampChar → Nat × Bool
  | .dat b =>
    let x := b.toNat % 32
    let y := b.toNat / 32
    let (hi, r) := balanceBlock 6 (x = 7) rd (block6 x)
    let alternate := y = 7 && (if r then [11, 13, 14].contains x else [17, 18, 20].contains x)
    let (lo, r') := balanceBlock 4 (y = 3) r (if alternate then 0b0111 else block4 y)
    (16 * hi + lo, r')
  | .ctl k =>
    let (hi, r) := balanceBlock 6 false rd (if k.xy.1 = 28 then 0b001111 else block6 k.xy.1)
    let (lo, r') := balanceBlock 4 true r (controlBlock4 k.xy.2)
    (16 * hi + lo, r')

/-- A run of characters from a running disparity. -/
def code10s : Bool → List LampChar → List Nat
  | _, [] => []
  | rd, c :: l => (code10 rd c).1 :: code10s (code10 rd c).2 l

/-! ## Trace (R384 to R387, R426) -/

/-- Trace runs: from firmware start in BOOT and in every running mode, not in DORMANT nor in the recovery monitor
(R369, Table 17.8). -/
def tracing (s : State) : Bool :=
  s.sys.mode ≠ .dormant && [BootStage.training, .loaded, .finished].contains s.sys.stage

/-- Bytes +0x00 to +0x1B of a trace record (R386). -/
def traceHead (r : TraceRec) : Bytes :=
  toLE 4 (6 + 256 * r.source + 65536 * r.level) ++ toLE 4 r.code ++ toLE 8 r.fe ++ toLE 4 r.ns ++ toLE 8 r.payload

/-- A trace record on its ring: written, or dropped and counted when the ring is full (R386, R89). -/
def traceRing (fn2 : Bool) (r : TraceRec) (x : Sent) : Sent :=
  let e := if fn2 then x.rings.t2 else x.rings.t1
  let put (e : Eq) (x : Sent) : Sent :=
    { x with rings := if fn2 then { x.rings with t2 := e } else { x.rings with t1 := e } }
  if eqFull e then put { e with lost := satAdd 0xFFFFFFFF e.lost 1 } x
  else
    let t := (e.tail + 1) % 2 ^ e.log2
    put { e with tail := t, phase := if t = 0 then !e.phase else e.phase }
      { x with out := recordWrites .pf1 e.base e.tail e.phase (traceHead r) (r.payload / 2 ^ 64) ++ x.out }

/-- A record on J9: K27.7, its 32 bytes in order, K29.7 (R426). -/
def traceFrame (d : Bytes) : List LampChar := .ctl .k277 :: d.map .dat ++ [.ctl .k297]

/-- What an idle lane of J9 sends: K28.5, at either disparity (R426). -/
def traceComma : List Nat := code10s false [.ctl .k285, .ctl .k285]

/-- The lanes of J9 start or stop with the die, while TRC_EN# is low (R415, R426). -/
def traceLanes (on : Bool) (s : State) : State :=
  if s.trc.enLow then emit [.traceIdle (if on then traceComma else [])] s else s

/-- Send a record that the grant lets out: on J9 while TRC_EN# is low, and on its ring, or held until PF1 may issue requests
(R386, R426, R440). The running disparity that the idle characters before a record leave is open (log entry 3). -/
def sendTrace (r : TraceRec) (s : State) : State :=
  let second := decide (r.level = 2)
  let e := if second then s.rings.t2 else s.rings.t1
  let bytes := traceHead r ++ toLE 4 (r.payload / 2 ^ 64 % 2 ^ 31 + 2 ^ 31 * b2n e.phase)
  let s1 := if s.trc.enLow then
      skipFree 1 (emit [.traceLane (r.level - 1) (code10s (freeNow s % 2 = 1) (traceFrame bytes))] s)
    else s
  if !e.enable then s1
  else if canSend s .pf1 then withSent s1 (traceRing second r (sentOf s1))
  else { s1 with rings := { s1.rings with traceWait := s1.rings.traceWait ++ [r] } }

/-- A trace record that waited goes on its ring where that is still enabled. -/
def traceHeld (r : TraceRec) (x : Sent) : Sent :=
  if (if r.level = 2 then x.rings.t2 else x.rings.t1).enable then traceRing (decide (r.level = 2)) r x else x

/-- Write the trace records that waited for PF1 (R440). -/
def flushTrace (s : State) : State :=
  if canSend s .pf1 then
    withSent s (s.rings.traceWait.foldl (fun x r => traceHeld r x) { sentOf s with rings := { s.rings with traceWait := [] } })
  else s

/-- A line of boot progress on CON_TX: a step of R44 is reached (R425). -/
def conBoot (step : Nat) (s : State) : State := { s with trc := { s.trc with console := .boot step :: s.trc.console } }

/-- Make one trace record of a source (Table 17.7): at D1 it enters the black box whatever is granted (R387), and CON_TX has a
line of it (R425). -/
def makeTrace (level src payload : Nat) (s : State) : State :=
  if tracing s then
    let r : TraceRec := { source := src, level, fe := s.sys.fe, code := Config.freeValue s.free % 65536
                          ns := Config.freeValue (s.free + 1) % 2 ^ 32, payload }
    let s1 := { s with free := s.free + 2
                       trc := if level = 1 then { s.trc with box := (r :: s.trc.box).take 3071
                                                             console := .record src r.code :: s.trc.console } else s.trc }
    if level ≤ s.sec.level && bit s.sec.sources.toNat src then sendTrace r s1 else s1
  else s

/-- One D1 record of a source: the payload of a D1 record is not given, so it is a free value (log entry 11). -/
def trace1 (src : Nat) (s : State) : State :=
  makeTrace 1 src (Config.freeValue s.free % 2 ^ 95) { s with free := s.free + 1 }

/-- Post a completion record: it uses one reserved place and leaves through the ring's store (R86); source 0 traces it
(Table 17.7). DESIGN CHOICE 36: its place is given back as it enters the store. -/
def postRec (key : Nat) (r : Rec) (s : State) : State :=
  let c := cqAt s.rings key
  flushCq key (trace1 0 { s with rings := setCq key { c with store := c.store ++ [r], reserved := c.reserved - 1 } s.rings })

/-- Write one event to an enabled event ring, or drop it when the ring is full (R89, Table 4.9). -/
def writeEvent (fn : Fn) (v : Ev) (x : Sent) : Sent :=
  let e := eqOf x.rings fn
  if eqFull e then
    { x with rings := setEq fn { e with lost := satAdd 0xFFFFFFFF e.lost 1, lostRun := e.lostRun + 1 } x.rings }
  else
    let head := toLE 4 (5 + 256 * v.sev + 65536 * 0x7F)
      ++ toLE 4 (v.code + 65536 * min 0xFFFF (e.lostRun + e.pendLost))
      ++ toLE 8 v.fe ++ toLE 4 v.p0 ++ toLE 4 v.p1 ++ toLE 4 v.p2
    let t := (e.tail + 1) % 2 ^ e.log2
    let e' := { e with tail := t, phase := if t = 0 then !e.phase else e.phase
                       lost := satAdd 0xFFFFFFFF e.lost e.pendLost, lostRun := 0, pendLost := 0 }
    let x' := { x with rings := setEq fn e' x.rings
                       out := recordWrites fn e.base e.tail e.phase head 0 ++ x.out }
    if e.irqMode = 1 || (e.irqMode = 2 && decide (1 ≤ v.sev)) then signalEq fn x' else x'

/-- Write held events in order while the ring has room; n bounds how many (R441). -/
def drainEq (fn : Fn) : Nat → Sent → Sent
  | 0, x => x
  | n + 1, x =>
    let e := eqOf x.rings fn
    match e.pend with
    | [] => x
    | v :: r => if eqFull e then x else drainEq fn n (writeEvent fn v { x with rings := setEq fn { e with pend := r } x.rings })

/-- May events be written to a function's event ring now (R441)? -/
def eventsFlow (s : State) (fn : Fn) : Bool := (eqOf s.rings fn).enable && canSend s fn

/-- Write a function's held events, when its ring is enabled and served. -/
def flushEq (fn : Fn) (s : State) : State :=
  if eventsFlow s fn then withSent s (drainEq fn (eqOf s.rings fn).pend.length (sentOf s)) else s

/-- Hold an event in the pending store of 256 (R441). -/
def holdEvent (v : Ev) (e : Eq) : Eq :=
  if e.pend.length < 256 then { e with pend := e.pend ++ [v] } else { e with pendLost := e.pendLost + 1 }

/-- The power-management side of posting an event of PF0: WAKE# in L2, PM_PME in D3hot (R62, R69). -/
def eventWake (fn : Fn) (x : Sent) : Sent :=
  if fn = .pf0 && x.hif.pmeEn then
    if x.hif.power = .l2 then { x with hif := { x.hif with wakePin := true } }
    else if x.hif.d3hot then { x with out := .pmPme :: x.out } else x
  else x

/-- Post an event on a function's event ring (R89, R441). From the fall on nothing is posted (Table 2.8). -/
def postTo (fn : Fn) (v : Ev) (s : State) : State :=
  if s.pwr.fall ≠ .idle then s
  else if eventsFlow s fn then withSent s (writeEvent fn v (sentOf s))
  else withSent s (eventWake fn
    { sentOf s with rings := setEq fn (holdEvent v (eqOf s.rings fn)) s.rings })

/-- Post an event of the display function with the current FE. Every event goes to PF0's event ring but those about
PF1's own rings (log entry 5). -/
def post (code sev : Nat) (p : List Nat) (s : State) : State :=
  postTo .pf0 { code, sev, fe := s.sys.fe, p0 := p.getD 0 0, p1 := p.getD 1 0, p2 := p.getD 2 0 } s

/-- Post an event that belongs to a given frame. -/
def postFe (code sev fe : Nat) (p : List Nat) (s : State) : State :=
  postTo .pf0 { code, sev, fe, p0 := p.getD 0 0, p1 := p.getD 1 0, p2 := p.getD 2 0 } s

/-- Post when a condition holds. -/
def postIf (c : Bool) (code sev : Nat) (p : List Nat) (s : State) : State := if c then post code sev p s else s

/-- A completion ring after a held message with one of the listed vectors was sent: its holdoff runs (R88). -/
def sentCq (fn : Fn) (vs : List Nat) (key : Nat) (c : Cq) : Cq :=
  if c.held && fnOfKey key = fn && vs.contains c.vector then { c with held := false, hoActive := decide (c.holdoff ≠ 0) } else c

/-- An event ring likewise. -/
def sentEq (vs : List Nat) (e : Eq) : Eq :=
  if e.held && vs.contains e.vector then { e with held := false, hoActive := decide (e.holdoff ≠ 0) } else e

/-- Send the pending vectors that have become open, in ascending order (R88). -/
def sendPending (fn : Fn) (s : State) : State :=
  let due := ((s.hif.pba.map Prod.fst).filter (fun k => k / 256 = fnIdx fn && vectorOpen s.hif fn (k % 256))).map (· % 256)
  let rings := setEq fn (sentEq due (eqOf s.rings fn)) { s.rings with cqs := mmap {} (sentCq fn due) s.rings.cqs }
  if canSend s fn then
    emit (due.map (fun v => Output.msix fn v)).reverse
      { s with rings, hif := { s.hif with pba := mkeep (fun k => !(k / 256 = fnIdx fn && due.contains (k % 256))) s.hif.pba } }
  else s

/-- Flush all rings of both functions in ascending order, then the messages held: service resumed, Bus Master Enable set, or
the link back in L0. -/
def flushAll (s : State) : State :=
  sendPending .pf1 (sendPending .pf0 (flushTrace
    (flushEq .pf1 (flushEq .pf0 ((s.rings.cqs.map Prod.fst).foldl (fun s k => flushCq k s) s)))))

/-- The link leaves L1, and what stalled resumes (R61). -/
def leaveL1 (s : State) : State :=
  if s.hif.power = .l1 then flushAll { s with hif := { s.hif with power := .l0 } } else s

/-- A host access reaches the block over the link and only there: in L1 it makes the link leave L1, and while the link is down
or in L2 it does not come (R61, Table 3.3, log entry 8). From the reset-level crossing of the fall the attachment sends nothing
and the memory controller stands, so that an access has no effect and draws no answer (R411). -/
def hostOp (f : State → State) (s : State) : Answer :=
  .next (if s.pwr.fall ≠ .idle then s else match s.hif.power with
    | .l0 => f s
    | .l1 => f (leaveL1 s)
    | .down | .l2 => s)

/-- A configuration request of the host: answered with Request Retry Status until the firmware has started (R73). -/
def cfgOp (fn : Fn) (f : State → State) (s : State) : Answer :=
  hostOp (fun s => if s.sys.stage = .unpowered || s.sys.stage = .image then emit [.retryStatus fn] s else f s) s

/-- Places free on a completion ring: the ring's free entries and the store's, less those reserved (R86). -/
def freePlaces (c : Cq) : Nat :=
  (if c.enable then 2 ^ c.log2 - 1 - (c.tail + 2 ^ c.log2 - c.head) % 2 ^ c.log2 else 0)
    + (64 - c.store.length) - c.reserved

/-- Fold an operation over a list of keys. -/
def forAll (l : List α) (f : α → State → State) (s : State) : State := l.foldl (fun s a => f a s) s

/-! ## Fractions -/

/-- Add two fractions. -/
def fracAdd (a b : Frac) : Frac := ⟨a.num * b.den + b.num * a.den, a.den * b.den⟩

/-- n·(num/den), rounded down. -/
def fracMul (f : Frac) (n : Nat) : Nat := n * f.num / f.den

end Sys2Proof.Machine
end

