-- ==== Sys2Proof/Machine/Fields.lean ====
section
/-!
DEFINITION. The fields of BAR0 that software can write, as the register tables of the spec give them: byte offset, lowest
bit, width and the reset value of the whole register. Read a field with fget (RWL, in force) or lget (live).
-/
namespace Sys2Proof.Machine

/-- One field: BAR0 offset of its register, lowest bit, width, and the register's reset value. -/
structure Fld where
  off : Nat
  lo : Nat
  w : Nat
  reset : Nat
  deriving DecidableEq, Repr

/-- A field of the configuration in force (R91). -/
def fget (c : Conf) (f : Fld) : Nat := wbits (mget (BitVec.ofNat 32 f.reset) c.regs f.off) f.lo f.w

/-- A one-bit field of the configuration in force. -/
def fbit (c : Conf) (f : Fld) : Bool := fget c f = 1

/-- A field of a live register (R434). -/
def lget (c : Conf) (f : Fld) : Nat := wbits (mget (BitVec.ofNat 32 f.reset) c.live f.off) f.lo f.w

/-- A one-bit field of a live register. -/
def lbit (c : Conf) (f : Fld) : Bool := lget c f = 1

def PWR_VIN_THRESH_WARN : Fld := ⟨0x150000, 0, 12, 0x1771a9⟩
def PWR_VIN_THRESH_RESET : Fld := ⟨0x150000, 12, 12, 0x1771a9⟩
def PWR_BRACE_CAP : Fld := ⟨0x150004, 0, 7, 0x28⟩
def PWR_BRACE_COUNT : Fld := ⟨0x150004, 8, 16, 0x28⟩
def HIF_LINK_POLICY_L0P_EN : Fld := ⟨0x010004, 0, 1, 0x10a05⟩
def HIF_LINK_POLICY_L0P_MIN : Fld := ⟨0x010004, 1, 3, 0x10a05⟩
def HIF_LINK_POLICY_ASPM_LIVE : Fld := ⟨0x010004, 4, 1, 0x10a05⟩
def HIF_LINK_POLICY_L1_IDLE : Fld := ⟨0x010004, 8, 8, 0x10a05⟩
def HIF_LINK_POLICY_EYE_EN : Fld := ⟨0x010004, 16, 1, 0x10a05⟩
def HIF_BAR4_BASE_BASE : Fld := ⟨0x010008, 0, 9, 0x0⟩
def ING_LATCH_LEAD : Fld := ⟨0x030000, 0, 10, 0x20⟩
def ING_PULL_AHEAD : Fld := ⟨0x030004, 0, 10, 0x40⟩
def ING_PUSH_BASE_BASE : Fld := ⟨0x030008, 0, 25, 0x0⟩
def ING_PUSH_CFG_SLOTS : Fld := ⟨0x03000c, 0, 9, 0x400⟩
def ING_PUSH_CFG_SLOT_PAGES : Fld := ⟨0x03000c, 9, 10, 0x400⟩
def PIX_CTRL_DEGAMMA_EN : Fld := ⟨0x040000, 0, 1, 0x0⟩
def PIX_CTRL_CSC_EN : Fld := ⟨0x040000, 1, 1, 0x0⟩
def PIX_CTRL_LUT3D_EN : Fld := ⟨0x040000, 2, 1, 0x0⟩
def PIX_CTRL_ENCODE_EN : Fld := ⟨0x040000, 3, 1, 0x0⟩
def PIX_DITHER_EN : Fld := ⟨0x040004, 0, 1, 0x3203⟩
def PIX_DITHER_TEMPORAL : Fld := ⟨0x040004, 1, 1, 0x3203⟩
def PIX_DITHER_HOLD_MS : Fld := ⟨0x040004, 8, 8, 0x3203⟩
def PIX_CSC_COEF_LO (k : Nat) : Fld := ⟨0x040010 + 4 * k, 0, 16, [0x1000, 0x0, 0x1000, 0x0, 0x1000].getD k 0⟩
def PIX_CSC_COEF_HI (k : Nat) : Fld := ⟨0x040010 + 4 * k, 16, 16, [0x1000, 0x0, 0x1000, 0x0, 0x1000].getD k 0⟩
def GZ_CTRL_EN : Fld := ⟨0x050000, 0, 1, 0x6⟩
def GZ_CTRL_PREDICT_EN : Fld := ⟨0x050000, 1, 1, 0x6⟩
def GZ_CTRL_AGING_EN : Fld := ⟨0x050000, 2, 1, 0x6⟩
def GZ_GRID_COLS : Fld := ⟨0x050004, 0, 10, 0x401⟩
def GZ_GRID_ROWS : Fld := ⟨0x050004, 10, 9, 0x401⟩
def GZ_GRID_DECIM : Fld := ⟨0x050004, 20, 2, 0x401⟩
def GZ_SOLVER_RADIUS : Fld := ⟨0x050008, 0, 3, 0x80000017⟩
def GZ_SOLVER_ITER : Fld := ⟨0x050008, 4, 2, 0x80000017⟩
def GZ_SOLVER_GAIN : Fld := ⟨0x050008, 16, 16, 0x80000017⟩
def GZ_TARGET_PCT : Fld := ⟨0x05000c, 0, 16, 0x1000feb8⟩
def GZ_TARGET_THRESH : Fld := ⟨0x05000c, 16, 16, 0x1000feb8⟩
def GZ_FILTER_A_UP : Fld := ⟨0x050010, 0, 16, 0x20008000⟩
def GZ_FILTER_A_DOWN : Fld := ⟨0x050010, 16, 16, 0x20008000⟩
def GZ_LEVEL_LMAX : Fld := ⟨0x050014, 0, 16, 0x40ffff⟩
def GZ_LEVEL_BMIN : Fld := ⟨0x050014, 16, 16, 0x40ffff⟩
def GZ_CAP_CAP : Fld := ⟨0x050018, 0, 16, 0xffff⟩
def GZ_COMMIT_MARGIN : Fld := ⟨0x05001c, 0, 8, 0x4⟩
def GZ_AGING_SHIFT : Fld := ⟨0x050020, 0, 5, 0x16⟩
def GZ_BIN_EDGE_LO (k : Nat) : Fld := ⟨0x050024 + 4 * k, 0, 14, [0x1000080, 0x4000200, 0x10000800, 0x2000].getD k 0⟩
def GZ_BIN_EDGE_HI (k : Nat) : Fld := ⟨0x050024 + 4 * k, 16, 14, [0x1000080, 0x4000200, 0x10000800, 0x2000].getD k 0⟩
def LMP_CTRL_EN : Fld := ⟨0x060000, 0, 1, 0x100⟩
def LMP_CTRL_REDISCOVER_S : Fld := ⟨0x060000, 8, 8, 0x100⟩
def LMP_LANES_EN : Fld := ⟨0x060004, 0, 32, 0x0⟩
def LMP_CYCLE_LINES : Fld := ⟨0x060008, 0, 16, 0x0⟩
def DMK_CTRL_MAP_EN : Fld := ⟨0x070000, 0, 1, 0x0⟩
def DMK_CTRL_DEFECT_EN : Fld := ⟨0x070000, 1, 1, 0x0⟩
def DMK_MAP_BASE_BASE : Fld := ⟨0x070004, 0, 25, 0x0⟩
def DMK_DEFECT_COUNT : Fld := ⟨0x070008, 0, 17, 0x0⟩
def DMK_DEFECT_GAIN_DARK : Fld := ⟨0x07000c, 0, 8, 0x804040⟩
def DMK_DEFECT_GAIN_BRIGHT : Fld := ⟨0x07000c, 8, 8, 0x804040⟩
def DMK_DEFECT_GAIN_LINE : Fld := ⟨0x07000c, 16, 8, 0x804040⟩
def DMK_KNOTA_K1 (k : Nat) : Fld := ⟨0x070010 + 12 * k, 0, 14, 0x18000800⟩
def DMK_KNOTA_K2 (k : Nat) : Fld := ⟨0x070010 + 12 * k, 16, 14, 0x18000800⟩
def DMK_KNOTB_K3 (k : Nat) : Fld := ⟨0x070014 + 12 * k, 0, 14, 0x3000⟩
def DMK_SCALE_S1 (k : Nat) : Fld := ⟨0x070018 + 12 * k, 0, 8, 0x101010⟩
def DMK_SCALE_S2 (k : Nat) : Fld := ⟨0x070018 + 12 * k, 8, 8, 0x101010⟩
def DMK_SCALE_S3 (k : Nat) : Fld := ⟨0x070018 + 12 * k, 16, 8, 0x101010⟩
def OD_CTRL_EN : Fld := ⟨0x080000, 0, 1, 0x2⟩
def OD_CTRL_SETTLE_EN : Fld := ⟨0x080000, 1, 1, 0x2⟩
def OD_HIST_BASE_BASE : Fld := ⟨0x080004, 0, 25, 0x0⟩
def OD_TSET_T0 (k : Nat) : Fld := ⟨0x080008 + 4 * k, 0, 8, [0x1e140a00, 0x463c3228].getD k 0⟩
def OD_TSET_T1 (k : Nat) : Fld := ⟨0x080008 + 4 * k, 8, 8, [0x1e140a00, 0x463c3228].getD k 0⟩
def OD_TSET_T2 (k : Nat) : Fld := ⟨0x080008 + 4 * k, 16, 8, [0x1e140a00, 0x463c3228].getD k 0⟩
def OD_TSET_T3 (k : Nat) : Fld := ⟨0x080008 + 4 * k, 24, 8, [0x1e140a00, 0x463c3228].getD k 0⟩
def OD_DWELL_C0 (k : Nat) : Fld := ⟨0x080010 + 4 * k, 0, 16, [0xc000b00, 0xf000d00].getD k 0⟩
def OD_DWELL_C1 (k : Nat) : Fld := ⟨0x080010 + 4 * k, 16, 16, [0xc000b00, 0xf000d00].getD k 0⟩
def TMG_ACTIVE_W : Fld := ⟨0x090000, 0, 16, 0x0⟩
def TMG_ACTIVE_H : Fld := ⟨0x090000, 16, 16, 0x0⟩
def TMG_LINE_PERIOD : Fld := ⟨0x090004, 0, 28, 0x0⟩
def TMG_VERT_VSYNC : Fld := ⟨0x090008, 0, 8, 0x2802404⟩
def TMG_VERT_VBP : Fld := ⟨0x090008, 8, 12, 0x2802404⟩
def TMG_VERT_VFP : Fld := ⟨0x090008, 20, 12, 0x2802404⟩
def TMG_HORIZ_HBLANK : Fld := ⟨0x09000c, 0, 12, 0x40⟩
def TMG_HORIZ_LS_OFFSET : Fld := ⟨0x09000c, 12, 16, 0x40⟩
def TMG_VRR_MAX_LINES : Fld := ⟨0x090010, 0, 20, 0x80000000⟩
def TMG_VRR_FIXED : Fld := ⟨0x090010, 31, 1, 0x80000000⟩
def TMG_FIXED_LINES : Fld := ⟨0x090014, 0, 20, 0x0⟩
def TMG_INV_MODE : Fld := ⟨0x090018, 0, 3, 0x103⟩
def TMG_INV_ROW_N : Fld := ⟨0x090018, 8, 8, 0x103⟩
def TMG_DC_LIMIT : Fld := ⟨0x09001c, 0, 16, 0x1ffff⟩
def TMG_DC_EN : Fld := ⟨0x09001c, 16, 1, 0x1ffff⟩
def TMG_GATE_MAP_VSYNC_P : Fld := ⟨0x090020, 0, 4, 0x0⟩
def TMG_GATE_MAP_VBP_P : Fld := ⟨0x090020, 4, 4, 0x0⟩
def TMG_GATE_MAP_ACT_BASE : Fld := ⟨0x090020, 8, 4, 0x0⟩
def TMG_GATE_MAP_SKIP_BASE : Fld := ⟨0x090020, 12, 4, 0x0⟩
def TMG_GATE_MAP_VFP_P : Fld := ⟨0x090020, 16, 4, 0x0⟩
def TMG_GATE_MAP_STRETCH_P : Fld := ⟨0x090020, 20, 4, 0x0⟩
def TMG_GATE_MAP_DISCH_P : Fld := ⟨0x090020, 24, 4, 0x0⟩
def TMG_GATE_MAP_CYCLE : Fld := ⟨0x090020, 28, 3, 0x0⟩
def TMG_GATE_IDLE_LEVEL : Fld := ⟨0x090024, 0, 24, 0x0⟩
def TMG_EVENTS_SOB_RING : Fld := ⟨0x090028, 0, 1, 0xaf0⟩
def TMG_EVENTS_DONE_RING : Fld := ⟨0x090028, 1, 1, 0xaf0⟩
def TMG_EVENTS_EVPOL : Fld := ⟨0x090028, 4, 4, 0xaf0⟩
def TMG_EVENTS_WIDTH : Fld := ⟨0x090028, 8, 8, 0xaf0⟩
def TMG_LMATCH_SLOT (k : Nat) : Fld := ⟨0x090030 + 4 * k, 0, 24, 0x0⟩
def TMG_LMATCH_EN (k : Nat) : Fld := ⟨0x090030 + 4 * k, 24, 1, 0x0⟩
def TMG_LMATCH_RING (k : Nat) : Fld := ⟨0x090030 + 4 * k, 25, 1, 0x0⟩
def TMG_LMATCH_PIN (k : Nat) : Fld := ⟨0x090030 + 4 * k, 26, 1, 0x0⟩
def PNL_SEQ_PEN (k : Nat) : Fld := ⟨0x0a0000 + 4 * k, 0, 3, [0x0, 0x1, 0x2, 0x3, 0x4, 0x5, 0x6, 0x7].getD k 0⟩
def PNL_SEQ_EN (k : Nat) : Fld := ⟨0x0a0000 + 4 * k, 3, 1, [0x0, 0x1, 0x2, 0x3, 0x4, 0x5, 0x6, 0x7].getD k 0⟩
def PNL_SEQ_ON_DELAY (k : Nat) : Fld := ⟨0x0a0000 + 4 * k, 4, 10, [0x0, 0x1, 0x2, 0x3, 0x4, 0x5, 0x6, 0x7].getD k 0⟩
def PNL_SEQ_TIMEOUT (k : Nat) : Fld := ⟨0x0a0000 + 4 * k, 14, 8, [0x0, 0x1, 0x2, 0x3, 0x4, 0x5, 0x6, 0x7].getD k 0⟩
def PNL_SEQ_OFF_DELAY (k : Nat) : Fld := ⟨0x0a0000 + 4 * k, 22, 10, [0x0, 0x1, 0x2, 0x3, 0x4, 0x5, 0x6, 0x7].getD k 0⟩
def PNL_DVM_LO (k : Nat) : Fld := ⟨0x0a0020 + 4 * k, 0, 12, 0xfff000⟩
def PNL_DVM_HI (k : Nat) : Fld := ⟨0x0a0020 + 4 * k, 12, 12, 0xfff000⟩
def PNL_DVM_STEP (k : Nat) : Fld := ⟨0x0a0020 + 4 * k, 24, 3, 0xfff000⟩
def PNL_DVM_EN (k : Nat) : Fld := ⟨0x0a0020 + 4 * k, 27, 1, 0xfff000⟩
def PNL_ON_DELAY : Fld := ⟨0x0a0050, 0, 12, 0x212c⟩
def PNL_ON_DARK_FRAMES : Fld := ⟨0x0a0050, 12, 4, 0x212c⟩
def PNL_DISCH_TIME : Fld := ⟨0x0a0054, 0, 12, 0x7d0⟩
def PNL_RETRY_COUNT : Fld := ⟨0x0a0058, 0, 4, 0x3203⟩
def PNL_RETRY_DELAY : Fld := ⟨0x0a0058, 8, 8, 0x3203⟩
def TWL_CTRL_EN : Fld := ⟨0x0b0000, 0, 1, 0x6a8⟩
def TWL_CTRL_RATE_M : Fld := ⟨0x0b0000, 1, 6, 0x6a8⟩
def TWL_CTRL_PACK : Fld := ⟨0x0b0000, 7, 2, 0x6a8⟩
def TWL_CTRL_PRECODE_EN : Fld := ⟨0x0b0000, 9, 1, 0x6a8⟩
def TWL_CTRL_PRESET : Fld := ⟨0x0b0000, 10, 3, 0x6a8⟩
def TWL_SPREAD_AMOUNT : Fld := ⟨0x0b0004, 0, 4, 0x10⟩
def TWL_SPREAD_FREQ : Fld := ⟨0x0b0004, 4, 2, 0x10⟩
def TWL_QUIET_EN : Fld := ⟨0x0b0008, 0, 1, 0x3e9⟩
def TWL_QUIET_MIN_US : Fld := ⟨0x0b0008, 1, 16, 0x3e9⟩
def TWL_GROUP_SPARE_EN (k : Nat) : Fld := ⟨0x0b0010 + 4 * k, 0, 1, 0x0⟩
def TWL_GROUP_SPARE_ADDR (k : Nat) : Fld := ⟨0x0b0010 + 4 * k, 1, 3, 0x0⟩
def TWL_TEST_LANE : Fld := ⟨0x0b0080, 0, 7, 0x1401000⟩
def TWL_TEST_PATTERN : Fld := ⟨0x0b0080, 8, 2, 0x1401000⟩
def TWL_TEST_INJ : Fld := ⟨0x0b0080, 10, 2, 0x1401000⟩
def TWL_TEST_BURST : Fld := ⟨0x0b0080, 12, 8, 0x1401000⟩
def TWL_TEST_RATE_K : Fld := ⟨0x0b0080, 20, 6, 0x1401000⟩
def TWL_TEST_GO : Fld := ⟨0x0b0080, 31, 1, 0x1401000⟩
def CUE_REGION_BASE_BASE : Fld := ⟨0x0c0000, 0, 25, 0x0⟩
def CUE_REGION_PAGES_PAGES : Fld := ⟨0x0c0004, 0, 25, 0x0⟩
def CUE_HOLD_INTERVAL_US : Fld := ⟨0x0c0008, 0, 20, 0x108235⟩
def CUE_HOLD_PARTIAL_EN : Fld := ⟨0x0c0008, 20, 1, 0x108235⟩
def CUE_SIGNAL_SIGNAL : Fld := ⟨0x0c000c, 0, 32, 0x0⟩
def MEM_CTRL_DEFAULT_T : Fld := ⟨0x0d0000, 0, 3, 0x9⟩
def MEM_CTRL_SCRUB_EN : Fld := ⟨0x0d0000, 3, 1, 0x9⟩
def MEM_SCRUB_PERIOD_MIN : Fld := ⟨0x0d0004, 0, 16, 0x168⟩
def MEM_SRAM_TEST_EN : Fld := ⟨0x0d0024, 0, 1, 0x640001⟩
def MEM_SRAM_TEST_INTERVAL_US : Fld := ⟨0x0d0024, 16, 16, 0x640001⟩
def LIN_CTRL_AUTO_EN : Fld := ⟨0x0e0000, 0, 1, 0x15⟩
def LIN_CTRL_INTERVAL_MIN : Fld := ⟨0x0e0000, 1, 11, 0x15⟩
def CAL_CTRL_AUTO_EN : Fld := ⟨0x0f0000, 0, 1, 0x19⟩
def CAL_CTRL_DT : Fld := ⟨0x0f0000, 1, 7, 0x19⟩
def CAL_ADAPT_WIN_LOG2 : Fld := ⟨0x0f0004, 0, 5, 0x20414⟩
def CAL_ADAPT_DENS : Fld := ⟨0x0f0004, 5, 8, 0x20414⟩
def CAL_ADAPT_BAL : Fld := ⟨0x0f0004, 13, 8, 0x20414⟩
def CAL_SETT0_T : Fld := ⟨0x0f0008, 0, 32, 0x4b321900⟩
def CAL_SETT1_T4 : Fld := ⟨0x0f000c, 0, 8, 0x64⟩
def CAL_QSEL_LANE : Fld := ⟨0x0f0014, 0, 8, 0x0⟩
def THM_LIMIT_WARN : Fld := ⟨0x140004, 0, 8, 0x6964⟩
def THM_LIMIT_THROTTLE : Fld := ⟨0x140004, 8, 8, 0x6964⟩
def THM_PANEL_DEFAULT : Fld := ⟨0x140008, 0, 16, 0x190⟩
def THM_SENSOR_ADDR (k : Nat) : Fld := ⟨0x140010 + 4 * k, 0, 7, 0x80⟩
def THM_SENSOR_BUS_I3C (k : Nat) : Fld := ⟨0x140010 + 4 * k, 7, 1, 0x80⟩
def THM_SENSOR_REG (k : Nat) : Fld := ⟨0x140010 + 4 * k, 8, 8, 0x80⟩
def THM_SENSOR_FORMAT (k : Nat) : Fld := ⟨0x140010 + 4 * k, 16, 1, 0x80⟩
def THM_SENSOR_U (k : Nat) : Fld := ⟨0x140010 + 4 * k, 17, 2, 0x80⟩
def THM_SENSOR_V (k : Nat) : Fld := ⟨0x140010 + 4 * k, 19, 2, 0x80⟩
def THM_SENSOR_EN (k : Nat) : Fld := ⟨0x140010 + 4 * k, 21, 1, 0x80⟩
def GNG_CTRL_EN : Fld := ⟨0x100000, 0, 1, 0x7c060⟩
def GNG_CTRL_PORT_EN : Fld := ⟨0x100000, 1, 4, 0x7c060⟩
def GNG_CTRL_TK_ELIGIBLE : Fld := ⟨0x100000, 5, 1, 0x7c060⟩
def GNG_CTRL_ISLAND_RUN : Fld := ⟨0x100000, 6, 1, 0x7c060⟩
def GNG_CTRL_HALO_E : Fld := ⟨0x100000, 7, 1, 0x7c060⟩
def GNG_CTRL_HALO_W : Fld := ⟨0x100000, 8, 1, 0x7c060⟩
def GNG_CTRL_WALL_SLOTS : Fld := ⟨0x100000, 9, 4, 0x7c060⟩
def GNG_CTRL_WALL_CUE : Fld := ⟨0x100000, 13, 1, 0x7c060⟩
def GNG_CTRL_WAKE_FWD : Fld := ⟨0x100000, 14, 1, 0x7c060⟩
def GNG_CTRL_MEAS_MASK : Fld := ⟨0x100000, 15, 8, 0x7c060⟩
def GNG_TILE_X : Fld := ⟨0x100004, 0, 3, 0x0⟩
def GNG_TILE_Y : Fld := ⟨0x100004, 3, 3, 0x0⟩
def GNG_JOIN_WAIT_MS : Fld := ⟨0x100008, 0, 16, 0xc8⟩
def TRC_PROBE_X (k : Nat) : Fld := ⟨0x130010 + 4 * k, 0, 16, 0x0⟩
def TRC_PROBE_Y (k : Nat) : Fld := ⟨0x130010 + 4 * k, 16, 16, 0x0⟩
def TRC_ZONE_ZONE : Fld := ⟨0x130020, 0, 17, 0x0⟩
def FLT_POLICY_ENGINE_AUTO : Fld := ⟨0x120000, 0, 1, 0x102f⟩
def FLT_POLICY_TWILL_AUTO : Fld := ⟨0x120000, 1, 1, 0x102f⟩
def FLT_POLICY_SOLVER_AUTO : Fld := ⟨0x120000, 2, 1, 0x102f⟩
def FLT_POLICY_MEM_AUTO : Fld := ⟨0x120000, 3, 1, 0x102f⟩
def FLT_POLICY_CHECKERS : Fld := ⟨0x120000, 4, 2, 0x102f⟩
def FLT_POLICY_PE_LINES : Fld := ⟨0x120000, 8, 8, 0x102f⟩
def PWR_STATUS_OVP_SEEN : Fld := ⟨0x15000c, 1, 1, 0x0⟩
def SYS_SETUP_LOCK_LOCK : Fld := ⟨0x000008, 0, 1, 0x0⟩
def SYS_GPIO_CFG_DIR : Fld := ⟨0x00001c, 0, 8, 0xff0000⟩
def SYS_GPIO_CFG_WAKE_EN : Fld := ⟨0x00001c, 8, 8, 0xff0000⟩
def SYS_GPIO_CFG_EDGE : Fld := ⟨0x00001c, 16, 8, 0xff0000⟩
def SYS_GPIO_OUT_OUT : Fld := ⟨0x000020, 0, 8, 0x0⟩

end Sys2Proof.Machine
end

