-- ==== Sys2Proof/Machine/Registers.lean ====
section
/-!
DEFINITION. The register table of BAR0 (Table 20.1 and the register tables of the chapters): which bits software can
write, their access codes and reset values, the class of a change to them (R51, R435), and the normalisations that act
when a value takes effect (R436). The tables that SET_TABLE names are listed at the end.
-/
namespace Sys2Proof.Machine

/-- A register that software can write: offset, its RWL, RW and RWS bits, its reset value, and the RWL bits whose change
is seam-full or seam-one (Table 2.9, Table 10.7, R141, R435, Tables 8.8, 11.10, 16.5, 16.6). -/
structure RegRow where
  off : Nat
  rwl : Nat
  rw : Nat
  rws : Nat
  reset : Nat
  full : Nat
  one : Nat
  deriving DecidableEq, Repr

/-- The writable registers of a block, by block index; the RING block has its own state (Table 4.1). -/
def blockRegs : Nat → List RegRow
  | 0x00 => [
      ⟨0x000008, 0x0, 0x1, 0x0, 0x0, 0x0, 0x0⟩,
      ⟨0x00001c, 0xffffff, 0x0, 0x0, 0xff0000, 0x0, 0x0⟩,
      ⟨0x000020, 0x0, 0x0, 0xff, 0x0, 0x0, 0x0⟩]  -- SYS
  | 0x01 => [
      ⟨0x010004, 0x0, 0x1ff1f, 0x0, 0x10a05, 0x0, 0x0⟩,
      ⟨0x010008, 0x0, 0x1ff, 0x0, 0x0, 0x0, 0x0⟩]  -- HIF
  | 0x03 => [
      ⟨0x030000, 0x3ff, 0x0, 0x0, 0x20, 0x0, 0x0⟩,
      ⟨0x030004, 0x3ff, 0x0, 0x0, 0x40, 0x0, 0x0⟩,
      ⟨0x030008, 0x1ffffff, 0x0, 0x0, 0x0, 0x0, 0x0⟩,
      ⟨0x03000c, 0x7ffff, 0x0, 0x0, 0x400, 0x0, 0x0⟩]  -- ING
  | 0x04 => [
      ⟨0x040000, 0xf, 0x0, 0x0, 0x0, 0x0, 0x0⟩,
      ⟨0x040004, 0xff03, 0x0, 0x0, 0x3203, 0x0, 0x0⟩,
      ⟨0x040010, 0xffffffff, 0x0, 0x0, 0x1000, 0x0, 0x0⟩,
      ⟨0x040014, 0xffffffff, 0x0, 0x0, 0x0, 0x0, 0x0⟩,
      ⟨0x040018, 0xffffffff, 0x0, 0x0, 0x1000, 0x0, 0x0⟩,
      ⟨0x04001c, 0xffffffff, 0x0, 0x0, 0x0, 0x0, 0x0⟩,
      ⟨0x040020, 0xffff, 0x0, 0x0, 0x1000, 0x0, 0x0⟩]  -- PIX
  | 0x05 => [
      ⟨0x050000, 0x7, 0x0, 0x0, 0x6, 0x0, 0x0⟩,
      ⟨0x050004, 0x37ffff, 0x0, 0x0, 0x401, 0x37ffff, 0x0⟩,
      ⟨0x050008, 0xffff0037, 0x0, 0x0, 0x80000017, 0x0, 0x0⟩,
      ⟨0x05000c, 0xffffffff, 0x0, 0x0, 0x1000feb8, 0x0, 0x0⟩,
      ⟨0x050010, 0xffffffff, 0x0, 0x0, 0x20008000, 0x0, 0x0⟩,
      ⟨0x050014, 0xffffffff, 0x0, 0x0, 0x40ffff, 0x0, 0x0⟩,
      ⟨0x050018, 0xffff, 0x0, 0x0, 0xffff, 0x0, 0x0⟩,
      ⟨0x05001c, 0xff, 0x0, 0x0, 0x4, 0x0, 0x0⟩,
      ⟨0x050020, 0x1f, 0x0, 0x0, 0x16, 0x0, 0x0⟩,
      ⟨0x050024, 0x3fff3fff, 0x0, 0x0, 0x1000080, 0x0, 0x0⟩,
      ⟨0x050028, 0x3fff3fff, 0x0, 0x0, 0x4000200, 0x0, 0x0⟩,
      ⟨0x05002c, 0x3fff3fff, 0x0, 0x0, 0x10000800, 0x0, 0x0⟩,
      ⟨0x050030, 0x3fff, 0x0, 0x0, 0x2000, 0x0, 0x0⟩]  -- GZ
  | 0x06 => [
      ⟨0x060000, 0xff01, 0x0, 0x0, 0x100, 0x1, 0x0⟩,
      ⟨0x060004, 0xffffffff, 0x0, 0x0, 0x0, 0xffffffff, 0x0⟩,
      ⟨0x060008, 0xffff, 0x0, 0x0, 0x0, 0x0, 0x0⟩]  -- LMP
  | 0x07 => [
      ⟨0x070000, 0x3, 0x0, 0x0, 0x0, 0x0, 0x0⟩,
      ⟨0x070004, 0x1ffffff, 0x0, 0x0, 0x0, 0x0, 0x0⟩,
      ⟨0x070008, 0x1ffff, 0x0, 0x0, 0x0, 0x0, 0x0⟩,
      ⟨0x07000c, 0xffffff, 0x0, 0x0, 0x804040, 0x0, 0x0⟩,
      ⟨0x070010, 0x3fff3fff, 0x0, 0x0, 0x18000800, 0x0, 0x0⟩,
      ⟨0x070014, 0x3fff, 0x0, 0x0, 0x3000, 0x0, 0x0⟩,
      ⟨0x070018, 0xffffff, 0x0, 0x0, 0x101010, 0x0, 0x0⟩,
      ⟨0x07001c, 0x3fff3fff, 0x0, 0x0, 0x18000800, 0x0, 0x0⟩,
      ⟨0x070020, 0x3fff, 0x0, 0x0, 0x3000, 0x0, 0x0⟩,
      ⟨0x070024, 0xffffff, 0x0, 0x0, 0x101010, 0x0, 0x0⟩,
      ⟨0x070028, 0x3fff3fff, 0x0, 0x0, 0x18000800, 0x0, 0x0⟩,
      ⟨0x07002c, 0x3fff, 0x0, 0x0, 0x3000, 0x0, 0x0⟩,
      ⟨0x070030, 0xffffff, 0x0, 0x0, 0x101010, 0x0, 0x0⟩]  -- DMK
  | 0x08 => [
      ⟨0x080000, 0x3, 0x0, 0x0, 0x2, 0x0, 0x0⟩,
      ⟨0x080004, 0x1ffffff, 0x0, 0x0, 0x0, 0x0, 0x0⟩,
      ⟨0x080008, 0xffffffff, 0x0, 0x0, 0x1e140a00, 0x0, 0x0⟩,
      ⟨0x08000c, 0xffffffff, 0x0, 0x0, 0x463c3228, 0x0, 0x0⟩,
      ⟨0x080010, 0xffffffff, 0x0, 0x0, 0xc000b00, 0x0, 0x0⟩,
      ⟨0x080014, 0xffffffff, 0x0, 0x0, 0xf000d00, 0x0, 0x0⟩]  -- OD
  | 0x09 => [
      ⟨0x090000, 0xffffffff, 0x0, 0x0, 0x0, 0xffffffff, 0x0⟩,
      ⟨0x090004, 0xfffffff, 0x0, 0x0, 0x0, 0x0, 0xfffffff⟩,
      ⟨0x090008, 0xffffffff, 0x0, 0x0, 0x2802404, 0x0, 0xffffffff⟩,
      ⟨0x09000c, 0xfffffff, 0x0, 0x0, 0x40, 0x0, 0xfffffff⟩,
      ⟨0x090010, 0x800fffff, 0x0, 0x0, 0x80000000, 0x0, 0x0⟩,
      ⟨0x090014, 0xfffff, 0x0, 0x0, 0x0, 0x0, 0x0⟩,
      ⟨0x090018, 0xff07, 0x0, 0x0, 0x103, 0x0, 0xff07⟩,
      ⟨0x09001c, 0x1ffff, 0x0, 0x0, 0x1ffff, 0x0, 0x0⟩,
      ⟨0x090020, 0x7fffffff, 0x0, 0x0, 0x0, 0x0, 0x7fffffff⟩,
      ⟨0x090024, 0xffffff, 0x0, 0x0, 0x0, 0x0, 0xffffff⟩,
      ⟨0x090028, 0x0, 0xfff3, 0x0, 0xaf0, 0x0, 0x0⟩,
      ⟨0x090030, 0x0, 0x7ffffff, 0x0, 0x0, 0x0, 0x0⟩,
      ⟨0x090034, 0x0, 0x7ffffff, 0x0, 0x0, 0x0, 0x0⟩,
      ⟨0x090038, 0x0, 0x7ffffff, 0x0, 0x0, 0x0, 0x0⟩,
      ⟨0x09003c, 0x0, 0x7ffffff, 0x0, 0x0, 0x0, 0x0⟩]  -- TMG
  | 0x0a => [
      ⟨0x0a0000, 0xffffffff, 0x0, 0x0, 0x0, 0x0, 0x0⟩,
      ⟨0x0a0004, 0xffffffff, 0x0, 0x0, 0x1, 0x0, 0x0⟩,
      ⟨0x0a0008, 0xffffffff, 0x0, 0x0, 0x2, 0x0, 0x0⟩,
      ⟨0x0a000c, 0xffffffff, 0x0, 0x0, 0x3, 0x0, 0x0⟩,
      ⟨0x0a0010, 0xffffffff, 0x0, 0x0, 0x4, 0x0, 0x0⟩,
      ⟨0x0a0014, 0xffffffff, 0x0, 0x0, 0x5, 0x0, 0x0⟩,
      ⟨0x0a0018, 0xffffffff, 0x0, 0x0, 0x6, 0x0, 0x0⟩,
      ⟨0x0a001c, 0xffffffff, 0x0, 0x0, 0x7, 0x0, 0x0⟩,
      ⟨0x0a0020, 0xfffffff, 0x0, 0x0, 0xfff000, 0x0, 0x0⟩,
      ⟨0x0a0024, 0xfffffff, 0x0, 0x0, 0xfff000, 0x0, 0x0⟩,
      ⟨0x0a0028, 0xfffffff, 0x0, 0x0, 0xfff000, 0x0, 0x0⟩,
      ⟨0x0a002c, 0xfffffff, 0x0, 0x0, 0xfff000, 0x0, 0x0⟩,
      ⟨0x0a0030, 0xfffffff, 0x0, 0x0, 0xfff000, 0x0, 0x0⟩,
      ⟨0x0a0034, 0xfffffff, 0x0, 0x0, 0xfff000, 0x0, 0x0⟩,
      ⟨0x0a0038, 0xfffffff, 0x0, 0x0, 0xfff000, 0x0, 0x0⟩,
      ⟨0x0a003c, 0xfffffff, 0x0, 0x0, 0xfff000, 0x0, 0x0⟩,
      ⟨0x0a0040, 0xfffffff, 0x0, 0x0, 0xfff000, 0x0, 0x0⟩,
      ⟨0x0a0044, 0xfffffff, 0x0, 0x0, 0xfff000, 0x0, 0x0⟩,
      ⟨0x0a0048, 0xfffffff, 0x0, 0x0, 0xfff000, 0x0, 0x0⟩,
      ⟨0x0a004c, 0xfffffff, 0x0, 0x0, 0xfff000, 0x0, 0x0⟩,
      ⟨0x0a0050, 0xffff, 0x0, 0x0, 0x212c, 0x0, 0x0⟩,
      ⟨0x0a0054, 0xfff, 0x0, 0x0, 0x7d0, 0x0, 0x0⟩,
      ⟨0x0a0058, 0xff0f, 0x0, 0x0, 0x3203, 0x0, 0x0⟩]  -- PNL
  | 0x0b => [
      ⟨0x0b0000, 0x1fff, 0x0, 0x0, 0x6a8, 0x1fff, 0x0⟩,
      ⟨0x0b0004, 0x3f, 0x0, 0x0, 0x10, 0x3f, 0x0⟩,
      ⟨0x0b0008, 0x1ffff, 0x0, 0x0, 0x3e9, 0x0, 0x0⟩,
      ⟨0x0b0010, 0xf, 0x0, 0x0, 0x0, 0xf, 0x0⟩,
      ⟨0x0b0014, 0xf, 0x0, 0x0, 0x0, 0xf, 0x0⟩,
      ⟨0x0b0018, 0xf, 0x0, 0x0, 0x0, 0xf, 0x0⟩,
      ⟨0x0b001c, 0xf, 0x0, 0x0, 0x0, 0xf, 0x0⟩,
      ⟨0x0b0020, 0xf, 0x0, 0x0, 0x0, 0xf, 0x0⟩,
      ⟨0x0b0024, 0xf, 0x0, 0x0, 0x0, 0xf, 0x0⟩,
      ⟨0x0b0028, 0xf, 0x0, 0x0, 0x0, 0xf, 0x0⟩,
      ⟨0x0b002c, 0xf, 0x0, 0x0, 0x0, 0xf, 0x0⟩,
      ⟨0x0b0030, 0xf, 0x0, 0x0, 0x0, 0xf, 0x0⟩,
      ⟨0x0b0034, 0xf, 0x0, 0x0, 0x0, 0xf, 0x0⟩,
      ⟨0x0b0038, 0xf, 0x0, 0x0, 0x0, 0xf, 0x0⟩,
      ⟨0x0b003c, 0xf, 0x0, 0x0, 0x0, 0xf, 0x0⟩,
      ⟨0x0b0080, 0x0, 0x3ffff7f, 0x0, 0x1401000, 0x0, 0x0⟩]  -- TWL
  | 0x0c => [
      ⟨0x0c0000, 0x1ffffff, 0x0, 0x0, 0x0, 0x0, 0x0⟩,
      ⟨0x0c0004, 0x1ffffff, 0x0, 0x0, 0x0, 0x0, 0x0⟩,
      ⟨0x0c0008, 0x1fffff, 0x0, 0x0, 0x108235, 0x0, 0x0⟩,
      ⟨0x0c000c, 0x0, 0xffffffff, 0x0, 0x0, 0x0, 0x0⟩]  -- CUE
  | 0x0d => [
      ⟨0x0d0000, 0xf, 0x0, 0x0, 0x9, 0x0, 0x0⟩,
      ⟨0x0d0004, 0xffff, 0x0, 0x0, 0x168, 0x0, 0x0⟩,
      ⟨0x0d0024, 0xffff0001, 0x0, 0x0, 0x640001, 0x0, 0x0⟩]  -- MEM
  | 0x0e => [
      ⟨0x0e0000, 0xfff, 0x0, 0x0, 0x15, 0x0, 0x0⟩]  -- LIN
  | 0x0f => [
      ⟨0x0f0000, 0xff, 0x0, 0x0, 0x19, 0x0, 0x0⟩,
      ⟨0x0f0004, 0x1fffff, 0x0, 0x0, 0x20414, 0x0, 0x0⟩,
      ⟨0x0f0008, 0xffffffff, 0x0, 0x0, 0x4b321900, 0x0, 0x0⟩,
      ⟨0x0f000c, 0xff, 0x0, 0x0, 0x64, 0x0, 0x0⟩,
      ⟨0x0f0014, 0x0, 0xff, 0x0, 0x0, 0x0, 0x0⟩]  -- CAL
  | 0x10 => [
      ⟨0x100000, 0x7fffff, 0x0, 0x0, 0x7c060, 0x1, 0x0⟩,
      ⟨0x100004, 0x3f, 0x0, 0x0, 0x0, 0x3f, 0x0⟩,
      ⟨0x100008, 0xffff, 0x0, 0x0, 0xc8, 0x0, 0x0⟩]  -- GNG
  | 0x12 => [
      ⟨0x120000, 0xff3f, 0x0, 0x0, 0x102f, 0x0, 0x0⟩]  -- FLT
  | 0x13 => [
      ⟨0x130010, 0x0, 0xffffffff, 0x0, 0x0, 0x0, 0x0⟩,
      ⟨0x130014, 0x0, 0xffffffff, 0x0, 0x0, 0x0, 0x0⟩,
      ⟨0x130018, 0x0, 0xffffffff, 0x0, 0x0, 0x0, 0x0⟩,
      ⟨0x13001c, 0x0, 0xffffffff, 0x0, 0x0, 0x0, 0x0⟩,
      ⟨0x130020, 0x0, 0x1ffff, 0x0, 0x0, 0x0, 0x0⟩]  -- TRC
  | 0x14 => [
      ⟨0x140004, 0xffff, 0x0, 0x0, 0x6964, 0x0, 0x0⟩,
      ⟨0x140008, 0xffff, 0x0, 0x0, 0x190, 0x0, 0x0⟩,
      ⟨0x140010, 0x3fffff, 0x0, 0x0, 0x80, 0x0, 0x0⟩,
      ⟨0x140014, 0x3fffff, 0x0, 0x0, 0x80, 0x0, 0x0⟩,
      ⟨0x140018, 0x3fffff, 0x0, 0x0, 0x80, 0x0, 0x0⟩,
      ⟨0x14001c, 0x3fffff, 0x0, 0x0, 0x80, 0x0, 0x0⟩,
      ⟨0x140020, 0x3fffff, 0x0, 0x0, 0x80, 0x0, 0x0⟩,
      ⟨0x140024, 0x3fffff, 0x0, 0x0, 0x80, 0x0, 0x0⟩,
      ⟨0x140028, 0x3fffff, 0x0, 0x0, 0x80, 0x0, 0x0⟩,
      ⟨0x14002c, 0x3fffff, 0x0, 0x0, 0x80, 0x0, 0x0⟩,
      ⟨0x140030, 0x3fffff, 0x0, 0x0, 0x80, 0x0, 0x0⟩,
      ⟨0x140034, 0x3fffff, 0x0, 0x0, 0x80, 0x0, 0x0⟩,
      ⟨0x140038, 0x3fffff, 0x0, 0x0, 0x80, 0x0, 0x0⟩,
      ⟨0x14003c, 0x3fffff, 0x0, 0x0, 0x80, 0x0, 0x0⟩,
      ⟨0x140040, 0x3fffff, 0x0, 0x0, 0x80, 0x0, 0x0⟩,
      ⟨0x140044, 0x3fffff, 0x0, 0x0, 0x80, 0x0, 0x0⟩,
      ⟨0x140048, 0x3fffff, 0x0, 0x0, 0x80, 0x0, 0x0⟩,
      ⟨0x14004c, 0x3fffff, 0x0, 0x0, 0x80, 0x0, 0x0⟩]  -- THM
  | 0x15 => [
      ⟨0x150000, 0xffffff, 0x0, 0x0, 0x1771a9, 0x0, 0x0⟩,
      ⟨0x150004, 0x0, 0x7f, 0x0, 0x28, 0x0, 0x0⟩]  -- PWR
  | _ => []

/-- The writable register at a BAR0 offset. -/
def rowOf (off : Nat) : Option RegRow := (blockRegs (off / 0x10000)).find? (fun r => r.off = off)

/-- Reset value of a register's writable bits. -/
def resetWord (off : Nat) : Word :=
  match rowOf off with
  | some r => BitVec.ofNat 32 r.reset
  | none => 0

/-- RWL bits of the register at an offset; 0 where there is none. -/
def rwlMask (off : Nat) : Nat := match rowOf off with | some r => r.rwl | none => 0

/-- RW and RWS bits of the register at an offset (live, R434). -/
def liveMask (off : Nat) : Nat := match rowOf off with | some r => r.rw ||| r.rws | none => 0

/-- The RWL bits of a register as in force. -/
def regNow (c : Conf) (off : Nat) : Word := mget (resetWord off) c.regs off

/-- The live bits of a register. -/
def liveNow (c : Conf) (off : Nat) : Word := mget (resetWord off &&& BitVec.ofNat 32 (liveMask off)) c.live off

/-- A byte of a table in force. -/
def tableByte (c : Conf) (id off : Nat) : Byte := mget 0 c.tables (1048576 * id + off)

/-- A little-endian field of a table in force. -/
def tableAt (c : Conf) (id off n : Nat) : Nat := leNat (mgets 0 c.tables (1048576 * id + off) n)

/-! ## The timing in force, as other rules use it (R98, R212 to R216, Table 10.3) -/

def tW (c : Conf) : Nat := fget c TMG_ACTIVE_W
def tH (c : Conf) : Nat := fget c TMG_ACTIVE_H
/-- A timing is in force (R214). -/
def hasTiming (c : Conf) : Bool := !(tW c = 0 && tH c = 0)
/-- LP in 1/4096 timing clocks; the placeholder's line is 10 µs (R216). -/
def tPeriod (c : Conf) : Nat := if hasTiming c then fget c TMG_LINE_PERIOD else 20000 * 4096
def tVstart (c : Conf) : Nat := fget c TMG_VERT_VSYNC + fget c TMG_VERT_VBP
def tVfp (c : Conf) : Nat := fget c TMG_VERT_VFP
/-- VTOTAL; 1000 slots for the placeholder (R216). -/
def tVtotal (c : Conf) : Nat := if hasTiming c then tVstart c + tH c + tVfp c else 1000
def tLead (c : Conf) : Nat := fget c ING_LATCH_LEAD
def tMargin (c : Conf) : Nat := fget c GZ_COMMIT_MARGIN
def tFixed (c : Conf) : Bool := fbit c TMG_VRR_FIXED
def tMax (c : Conf) : Nat := fget c TMG_VRR_MAX_LINES
def tFixLines (c : Conf) : Nat := fget c TMG_FIXED_LINES
/-- n line periods in µs, rounded down: a timing clock is 0.5 ns (R212). -/
def slotsUs (c : Conf) (n : Nat) : Nat := n * tPeriod c / (4096 * 2000)
/-- The fewest line periods that last at least `us` microseconds. -/
def usSlots (c : Conf) (us : Nat) : Nat := (us * 4096 * 2000 + tPeriod c - 1) / max 1 (tPeriod c)
/-- Tmin in µs: the top of the VRR window, or the frame time of a fixed timing (R205). -/
def tminUs (c : Conf) : Nat := slotsUs c (if hasTiming c && tFixed c then tFixLines c else tVtotal c)
/-- Decision slot: VSTART + H − L (R215). -/
def decisionSlot (c : Conf) : Nat := tVstart c + tH c - tLead c
/-- ES(y): the slot at whose LT the engines begin line y (R98, R159). -/
def engineSlot (c : Conf) (y : Nat) : Nat := tVstart c + y - tLead c

/-- ceil(t ÷ line time) for t in units of 0.1 µs (R161, R360). -/
def marginFloor (c : Conf) : Nat :=
  if hasTiming c then
    let t := if fbit c GNG_CTRL_HALO_E || fbit c GNG_CTRL_HALO_W then 26 else 16
    (t * 200 * 4096 + tPeriod c - 1) / max 1 (tPeriod c)
  else 0

/-! ## Normalisation (R436) -/

/-- Replace a field of a register word. -/
def setBits (w : Word) (lo n v : Nat) : Word :=
  BitVec.ofNat 32 (w.toNat - bits w.toNat lo n * 2 ^ lo + v % 2 ^ n * 2 ^ lo)

/-- Raise or lower a field into a range. -/
def clampField (lo n a b : Nat) (w : Word) : Word := setBits w lo n (max a (min b (wbits w lo n)))

/-- R47: RESET into its range, WARN to at most 2975, WARN to at least RESET + 25. -/
def normVin (w : Word) : Word :=
  let reset := max 350 (min 2900 (wbits w 12 12))
  setBits (setBits w 12 12 reset) 0 12 (max (min 2975 (wbits w 0 12)) (reset + 25))

/-- The value that a register takes in force, in the configuration `c` that takes effect with it (R436). -/
def normalise (c : Conf) (off : Nat) (w : Word) : Word :=
  if off = 0x150000 then normVin w
  else if off = 0x030000 then clampField 0 10 4 1023 w
  else if off = 0x03000c then
    let w := clampField 9 10 2 1023 w
    if wbits w 0 9 = 0 then w else clampField 0 9 4 256 w
  else if off = 0x050010 then clampField 16 16 0 32768 (clampField 0 16 0 32768 w)
  else if off = 0x050014 then clampField 16 16 1 65535 w
  else if off = 0x05001c then clampField 0 8 (marginFloor c) 255 w
  else if off = 0x050020 then clampField 0 5 8 31 w
  else if off = 0x060000 then clampField 8 8 1 255 w
  else if off = 0x070008 then clampField 0 17 0 65536 w
  else if off = 0x090010 || off = 0x090014 then clampField 0 20 (if hasTiming c then tVtotal c else 0) 0xFFFFF w
  else if off = 0x0a0054 then clampField 0 12 100 2000 w
  else if off = 0x0b0000 then clampField 1 6 10 40 w
  else if off = 0x0b0004 then clampField 0 4 0 10 w
  else if off = 0x0b0008 then clampField 1 16 100 65535 w
  else if off = 0x0c0004 then if wbits w 0 25 ≤ 16 then setBits w 0 25 0 else w
  else if off = 0x0c0008 then clampField 0 20 8333 1000000 w
  else if off = 0x0d0004 then clampField 0 16 10 65535 w
  else if off = 0x0d0024 then clampField 16 16 1 65535 w
  else if off = 0x0e0000 then clampField 1 11 1 1440 w
  else if off = 0x0f0000 then clampField 1 7 1 127 w
  else if off = 0x0f0004 then clampField 0 5 16 31 w
  else if off = 0x140004 then clampField 8 8 0 110 (clampField 0 8 0 110 w)
  else if off = 0x100008 then clampField 0 16 1 65535 w
  else if off = 0x120000 then clampField 8 8 1 255 (clampField 4 2 1 2 w)
  else w

/-- Normalisation of a live register, which acts at once (Tables 3.7, 10.19, 11.16, 15.7, 2.7). -/
def normLive (off : Nat) (w : Word) : Word :=
  if off = 0x010004 then clampField 8 8 1 255 (clampField 1 3 0 4 w)
  else if off = 0x090028 then clampField 8 8 1 255 w
  else if off = 0x0b0080 then clampField 20 6 10 40 (clampField 12 8 1 255 w)
  else if off = 0x0f0014 then clampField 0 8 0 131 w
  else if off = 0x150004 then clampField 0 7 10 100 w
  else w

/-- Write an RWL register in force. -/
def putReg (off : Nat) (w : Word) (c : Conf) : Conf := { c with regs := mput (resetWord off) off w c.regs }

/-- Write a live register. -/
def putLive (off : Nat) (w : Word) (c : Conf) : Conf :=
  { c with live := mput (resetWord off &&& BitVec.ofNat 32 (liveMask off)) off
             (normLive off (w &&& BitVec.ofNat 32 (liveMask off))) c.live }

/-! ## Tables that SET_TABLE names -/

/-- Size in bytes of a table; none for an unknown identifier (Tables 6.5, 7.1, 8.4, 9.5, 9.7, 10.6, 11.1, 13.3, 16.3). -/
def tableSize (id : Nat) : Option Nat :=
  if id = 0x0400 || id = 0x0402 then some 24576
  else if id = 0x0401 then some 39304
  else if id = 0x0500 then some 1024
  else if id = 0x0501 then some 512
  else if id = 0x0502 then some 450
  else if id = 0x0503 then some 128
  else if id = 0x0600 then some 4096
  else if id = 0x0601 then some 2048
  else if id = 0x0700 then some 524288
  else if 0x0800 ≤ id && id < 0x0820 then some 6536
  else if id = 0x0900 then some 98304
  else if id = 0x0B00 then some 768
  else if id = 0x0D00 then some 512
  else if id = 0x1000 then some 2048
  else none

/-- Class of a change to a table (R141, R175, Table 10.7, R236; all others seamless). -/
def tableClass (id : Nat) : SeamClass :=
  if id = 0x0500 || id = 0x0501 || id = 0x0600 || id = 0x0B00 then .seamFull
  else if id = 0x0900 then .seamOne else .seamless

/-! ## Building a configuration (R92) -/

/-- Put raw values of staged registers: only their RWL bits (R436). -/
def putRaw : List (Nat × Word) → Conf → Conf
  | [], c => c
  | (off, w) :: r, c => putRaw r (putReg off (w &&& BitVec.ofNat 32 (rwlMask off)) c)

/-- Registers whose normalisation depends on others: re-normalised with every change (log entry 6). -/
def dependentRegs : List Nat := [0x05001c, 0x090010, 0x090014]

/-- Normalise listed registers within the configuration that takes effect. -/
def normAll (offs : List Nat) (c : Conf) : Conf :=
  offs.foldl (fun c' off => putReg off (normalise c off (regNow c off)) c') c

/-- The configuration that a staged set makes of another (R92, R436). -/
def applySlot (sl : Slot) (c : Conf) : Conf :=
  let c1 := { putRaw sl.regs c with tables := mputAll 0 sl.tbl c.tables }
  normAll (sl.regs.map Prod.fst ++ dependentRegs) c1

/-- The union of staged sets: the later one wins on any field or byte both name (R93). -/
def mergeSlots (l : List Slot) : Slot :=
  l.foldl (fun a b => { a with regs := aputAll b.regs a.regs, tbl := aputAll b.tbl a.tbl }) {}

def slotOf (c : Conf) (i : Nat) : Slot := mget {} c.slots i

def setSlot (i : Nat) (sl : Slot) (c : Conf) : Conf := { c with slots := mput {} i sl c.slots }

/-- The staged sets armed for an FE, in ascending slot order; the setup set stands before them. -/
def armedFor (c : Conf) (fe : Nat) : List Slot :=
  ((c.setup :: (List.range 4).map (slotOf c)).filter (fun sl => sl.armed = some fe))

/-- The FEs for which something is armed, ascending and without repeats. -/
def armedFes (c : Conf) : List Nat :=
  (ascending ((c.setup :: (List.range 4).map (slotOf c)).filterMap Slot.armed)).eraseDups

/-- The configuration after every arm for an FE that satisfies `p`, in FE order (R92). -/
def confAfter (c : Conf) (p : Nat → Bool) : Conf :=
  ((armedFes c).filter p).foldl (fun a fe => applySlot (mergeSlots (armedFor c fe)) a) c

/-- The class of the change from one configuration to another, over what a staged set names (R51). -/
def classOf (before after : Conf) (sl : Slot) : SeamClass :=
  let reg (f : RegRow → Nat) := sl.regs.any (fun p => match rowOf p.1 with
    | some r => (regNow before p.1 ^^^ regNow after p.1).toNat &&& f r ≠ 0
    | none => false)
  let tab (k : SeamClass) := sl.tbl.any (fun p =>
    tableClass (p.1 / 1048576) = k && mget 0 before.tables p.1 ≠ mget 0 after.tables p.1)
  if reg RegRow.full || tab .seamFull then .seamFull
  else if reg RegRow.one || tab .seamOne then .seamOne else .seamless

/-- Class as ARM_CONFIG reports it (Table 2.9). -/
def classNum : SeamClass → Nat
  | .seamless => 0
  | .seamOne => 1
  | .seamFull => 2

end Sys2Proof.Machine
end

