-- ==== Sys2Proof/Machine/Geometry.lean ====
section
/-!
DEFINITION. What the tables in force say: zone grid (R138 to R141), zone-row ticks (R159), driver map and schedule
(R175, R179), Twill ports (Table 11.1), protection regions (R296), row bands (R220), module address space (R292).
-/
namespace Sys2Proof.Machine

/-! ## Zones -/

def gCols (c : Conf) : Nat := fget c GZ_GRID_COLS
def gRows (c : Conf) : Nat := fget c GZ_GRID_ROWS
/-- Zones of the grid in force. -/
def zoneCount (c : Conf) : Nat := gCols c * gRows c

/-- Left column of zone column j; COLS stands for the active width (R139). -/
def colLeft (c : Conf) (j : Nat) : Nat := if gCols c ≤ j then tW c else tableAt c 0x0500 (2 * j) 2

/-- Top line of zone row i; ROWS stands for the active height (R139). -/
def rowTop (c : Conf) (i : Nat) : Nat := if gRows c ≤ i then tH c else tableAt c 0x0501 (2 * i) 2

/-- Centre of zone column j (R140). -/
def zoneCx (c : Conf) (j : Nat) : Nat := (colLeft c j + colLeft c (j + 1) - 1) / 2

/-- Centre of zone row i (R140). -/
def zoneCy (c : Conf) (i : Nat) : Nat := (rowTop c i + rowTop c (i + 1) - 1) / 2

/-- Y_i of R159. -/
def rowY (c : Conf) (i : Nat) : Nat :=
  let h := fget c GZ_SOLVER_RADIUS
  if i ≤ h then 0 else zoneCy c (i - h - 1)

/-- Slot of zone row i's zone-row tick (R159). -/
def zoneTick (c : Conf) (i : Nat) : Nat := engineSlot c (rowY c i) - tMargin c

/-- Rows that commit together with row i: the first group, or the row alone (R160). -/
def runOf (c : Conf) (i : Nat) : Nat × Nat :=
  let h := fget c GZ_SOLVER_RADIUS
  if i ≤ h then (0, min h (gRows c - 1)) else (i, i)

/-- Zone row and column that hold a panel pixel. -/
def zoneRowOf (c : Conf) (y : Nat) : Nat := ((List.range (gRows c)).filter (fun i => rowTop c i ≤ y)).length - 1
def zoneColOf (c : Conf) (x : Nat) : Nat := ((List.range (gCols c)).filter (fun j => colLeft c j ≤ x)).length - 1

/-! ## Lamp tables -/

/-- An entry of DRIVER_MAP (Table 8.4). -/
structure DriverBox where
  col0 : Nat
  row0 : Nat
  cols : Nat
  rows : Nat
  present : Bool
  deriving DecidableEq, Repr

/-- Entry for a lane and a chain position. -/
def driverBox (c : Conf) (lane pos : Nat) : DriverBox :=
  let o := 8 * (16 * lane + pos)
  { col0 := tableAt c 0x0600 o 2, row0 := tableAt c 0x0600 (o + 2) 2, cols := tableAt c 0x0600 (o + 4) 1
    rows := tableAt c 0x0600 (o + 5) 1, present := bit (tableAt c 0x0600 (o + 6) 1) 0 }

/-- Every lane and position, lanes ascending. -/
def allDrivers : List (Nat × Nat) := (List.range 32).flatMap (fun l => (List.range 16).map (fun p => (l, p)))

/-- The drivers that the map places, with their rectangles. -/
def mappedDrivers (c : Conf) : List (Nat × Nat × DriverBox) :=
  allDrivers.filterMap (fun (l, p) => let b := driverBox c l p; if b.present then some (l, p, b) else none)

/-- Does a rectangle hold zone (i, j)? -/
def DriverBox.holds (b : DriverBox) (i j : Nat) : Bool :=
  b.row0 ≤ i && i < b.row0 + b.rows && b.col0 ≤ j && j < b.col0 + b.cols

/-- SCHEDULE entry of a zone row: S, N, O (Table 8.4). -/
def schedule (c : Conf) (i : Nat) : Nat × Nat × Nat :=
  (tableAt c 0x0601 (8 * i) 2, tableAt c 0x0601 (8 * i + 2) 2, tableAt c 0x0601 (8 * i + 4) 1 % 2)

/-- Channels of a rectangle in zone rows a to b: first channel and count (R177). -/
def boxChannels (b : DriverBox) (r0 r1 : Nat) : Nat × Nat :=
  let lo := max b.row0 r0
  let hi := min (b.row0 + b.rows) (r1 + 1)
  ((lo - b.row0) * b.cols, (hi - lo) * b.cols)

/-- Characters of the LEVELS frames of rows r0 to r1 on one lane (R173, R177, R179). DESIGN CHOICE 41: drivers that the map
places on a disabled lane count too. -/
def laneChars (c : Conf) (lane r0 r1 : Nat) : Nat :=
  ((mappedDrivers c).filter (fun d => d.1 = lane)).foldl (fun n d =>
    let k := (boxChannels d.2.2 r0 r1).2
    if k = 0 then n else n + 14 + 2 + 2 * k) 0

/-- D_i of R179. -/
def levelsLines (c : Conf) (i : Nat) : Nat :=
  let (r0, r1) := runOf c i
  let chars := ((List.range 32).map (fun l => laneChars c l r0 r1)).foldl max 0
  let total := chars + (chars + 55) / 56
  (total * 16 * 4096 + tPeriod c - 1) / max 1 (tPeriod c) + 2

/-! ## Twill ports -/

/-- An enabled entry of TWILL_LAYOUT (Table 11.1). -/
structure PortCfg where
  x0 : Nat
  ncol : Nat
  group : Nat
  lane0 : Nat
  width : Nat
  addr : Nat
  reverse : Bool
  deriving DecidableEq, Repr

def portCfg (c : Conf) (n : Nat) : Option PortCfg :=
  let w := tableAt c 0x0B00 (8 * n + 4) 4
  if bits w 7 2 = 0 then none
  else some { x0 := tableAt c 0x0B00 (8 * n) 2, ncol := tableAt c 0x0B00 (8 * n + 2) 2, group := bits w 0 4
              lane0 := bits w 4 3, width := [0, 1, 2, 4].getD (bits w 7 2) 0, addr := bits w 9 3, reverse := bit w 12 }

/-- Enabled ports, ascending: WIDTH nonzero and TWL_CTRL.EN set. -/
def enabledPorts (c : Conf) : List (Nat × PortCfg) :=
  if fbit c TWL_CTRL_EN then (List.range 96).filterMap (fun n => (portCfg c n).map (fun p => (n, p))) else []

/-- Bits per code: TWL_CTRL.PACK (Table 11.10). -/
def codeBits (c : Conf) : Nat := [8, 10, 12, 12].getD (fget c TWL_CTRL_PACK) 12

/-! ## Row bands (R220) -/

/-- First line of row band k; k = 64 gives the active height. -/
def bandTop (c : Conf) (k : Nat) : Nat := k * tH c / 64

/-- The row band of a line. -/
def bandOfLine (c : Conf) (y : Nat) : Nat := ((List.range 64).filter (fun k => bandTop c k ≤ y)).length - 1

/-! ## Module address space (R292, R293, R296) -/

/-- First address of the reserved space (Table 13.1). -/
def reservedBase : Nat := 0x1ED8000000

/-- Size of the module address space. -/
def moduleSize : Nat := 0x2000000000

/-- First page past the data space. -/
def dataPages : Nat := 0x1ED8000

/-- The firmware region's page range (R296). -/
def firmwarePages : Nat × Nat := (0x1ED4000, 0x4000)

/-- An entry of PROT_REGIONS: base page, pages, strength code, VALID (Table 13.3). Entry 63 is the firmware region, which the
boot ROM sets and no SET_TABLE reaches (R296); its code is that of t = 32. -/
def protEntry (c : Conf) (r : Nat) : Nat × Nat × Nat × Bool :=
  if r = 63 then (firmwarePages.1, firmwarePages.2, 4, true) else
  let w := tableAt c 0x0D00 (8 * r) 4
  (bits w 0 25, bits (tableAt c 0x0D00 (8 * r + 4) 4) 0 25, bits w 25 3, bit w 31)

/-- The entry that holds a page. -/
def regionOf (c : Conf) (p : Nat) : Option Nat :=
  (List.range 64).find? (fun r => let (b, n, _, v) := protEntry c r; v && b ≤ p && p < b + n)

/-- Strength code of a page of the data space (R296). -/
def pageCode (c : Conf) (p : Nat) : Nat :=
  match regionOf c p with
  | some r => (protEntry c r).2.2.1
  | none => fget c MEM_CTRL_DEFAULT_T

end Sys2Proof.Machine
end

