-- ==== Sys2Proof/Machine/Validate.lean ====
section
/-!
DEFINITION. Validation at arming (R92): every rule that a configuration can break, in the order in which R92 reports
them: Table 10.2, then R161, R179, R246 and R353, then block by block, registers before tables.
-/
namespace Sys2Proof.Machine

/-- A failed validation: completion status, RESULT0 and the detail (R92). -/
structure Fail where
  status : Nat
  r0 : Nat
  r1 : Nat := 0
  deriving DecidableEq, Repr

/-! Status codes (Table 4.7). -/
def SUCCESS : Nat := 0x00
def TORN : Nat := 0x01
def REPLACED : Nat := 0x02
def ABORTED : Nat := 0x03
def RESERVED_FIELD : Nat := 0x10
def BAD_OPCODE : Nat := 0x11
def BAD_RING : Nat := 0x12
def BAD_PARAM : Nat := 0x13
def TIMING_REJECTED : Nat := 0x14
def MODE_BUSY : Nat := 0x15
def MODE_INVALID : Nat := 0x16
def STAGE_ARMED : Nat := 0x17
def ARM_LATE : Nat := 0x18
def CRC_MISMATCH : Nat := 0x19
def NOT_PERMITTED : Nat := 0x1A
def RESOURCE_BUSY : Nat := 0x1B
def FETCH_ERROR : Nat := 0x20
def DMA_ERROR : Nat := 0x21
def MEM_UNCORRECTABLE : Nat := 0x22

/-- Fail with TIMING_REJECTED when a limit is broken. -/
def timingIf (broken : Bool) (r0 : Nat) (r1 : Nat := 0) : Option Fail :=
  if broken then some ⟨TIMING_REJECTED, r0, r1⟩ else none

/-- Fail with BAD_PARAM when a rule is broken. -/
def badIf (broken : Bool) (r0 : Nat) (r1 : Nat := 0) : Option Fail :=
  if broken then some ⟨BAD_PARAM, r0, r1⟩ else none

/-- Patterns that TMG_GATE_MAP can select (R227). -/
def selectable (c : Conf) : List Nat :=
  let k := fget c TMG_GATE_MAP_CYCLE + 1
  [fget c TMG_GATE_MAP_VSYNC_P, fget c TMG_GATE_MAP_VBP_P, fget c TMG_GATE_MAP_VFP_P, fget c TMG_GATE_MAP_STRETCH_P,
   fget c TMG_GATE_MAP_DISCH_P]
    ++ (List.range k).map (fun i => fget c TMG_GATE_MAP_ACT_BASE + i)
    ++ (List.range k).map (fun i => fget c TMG_GATE_MAP_SKIP_BASE + i)

/-- Edge e of output o in pattern p: offset, level, VALID (Table 10.6). -/
def gateEdge (c : Conf) (p o e : Nat) : Nat × Bool × Bool :=
  let w := tableAt c 0x0900 (4 * (1536 * p + 64 * o + e)) 4
  (bits w 0 16, bit w 16, bit w 31)

/-- The edges of an output from edge e on, up to the first invalid one: offsets and levels; n bounds them (R227). -/
def gateEdges (c : Conf) (p o : Nat) : Nat → Nat → List (Nat × Bool)
  | 0, _ => []
  | n + 1, e => let (off, lv, ok) := gateEdge c p o e
    if ok then (off, lv) :: gateEdges c p o n (e + 1) else []

/-- Offsets strictly increasing. -/
def rising : List Nat → Bool
  | a :: b :: r => a < b && rising (b :: r)
  | _ => true

/-- A pattern breaks R227: an offset not below floor(LP), or edges that do not increase. -/
def gatePatternBad (c : Conf) (p : Nat) : Bool :=
  (List.range 24).any (fun o =>
    let offs := (gateEdges c p o 64 0).map Prod.fst
    !(rising offs && offs.all (fun x => x < tPeriod c / 4096)))

/-- Table 10.2 in row order (R27, R214). -/
def timingLimits (c : Conf) : Option Fail :=
  let lp := tPeriod c
  timingIf (decide (166 * tVtotal c * lp < tW c * tH c * 81920)) 0x090000
  <|> timingIf (tW c < 192 || 15360 < tW c) 0x090000
  <|> timingIf (tH c < 64 || 8640 < tH c) 0x090000
  <|> timingIf (lp < 600 * 4096 || 64000 * 4096 < lp) 0x090004
  <|> timingIf (fget c TMG_VERT_VSYNC < 1 || tVfp c < 1) 0x090008
  <|> timingIf (decide (tVstart c < tLead c + tMargin c)) 0x090008
  <|> timingIf (decide ((tVtotal c - tH c) * lp < 8000 * 4096)) 0x090008
  <|> timingIf (decide (tMax c < tVtotal c)) 0x090010
  <|> timingIf (tFixed c && (tFixLines c < tVtotal c || tMax c < tFixLines c)) 0x090014
  <|> timingIf (lp / 4096 ≤ fget c TMG_HORIZ_HBLANK || lp / 4096 ≤ fget c TMG_HORIZ_LS_OFFSET) 0x09000c
  <|> timingIf ((selectable c).any (fun p => 15 < p)) 0x090020
  <|> ((List.range 16).find? (fun p => (selectable c).contains p && gatePatternBad c p)).map
        (fun p => ⟨TIMING_REJECTED, 0x0900, p⟩)
  <|> timingIf (decide (4 < fget c TMG_INV_MODE)) 0x090018
  <|> timingIf (fget c TMG_INV_MODE = 1 && fget c TMG_INV_ROW_N < 1) 0x090018

/-- R161: the first condition, then the first zone row that spans fewer lines than MARGIN. -/
def marginLimits (c : Conf) : Option Fail :=
  timingIf (decide (engineSlot c 0 < tMargin c)) 0x090008
  <|> ((List.range (gRows c)).find? (fun i => rowTop c (i + 1) - rowTop c i < tMargin c)).map
        (fun i => ⟨TIMING_REJECTED, 0x0501, i⟩)

/-- R179: the first zone row with O = 0 whose window opens too early. -/
def scheduleLimits (c : Conf) : Option Fail :=
  ((List.range (gRows c)).find? (fun i =>
    let (sLine, _, o) := schedule c i
    o = 0 && sLine < zoneTick c i + levelsLines c i)).map (fun i => ⟨TIMING_REJECTED, 0x0601, i⟩)

/-- R246 for one port: DSK inside horizontal blanking, and the packet's end 20 ns before the load strobe. -/
def portFits (c : Conf) (p : PortCfg) : Bool :=
  let f := fget c TWL_CTRL_RATE_M * (2000 - fget c TWL_SPREAD_AMOUNT)   -- symbols per 10 µs
  let b := 8 + 4 * ((3 * p.ncol * codeBits c + 31) / 32) + 4
  let sym := 16 + 4 * b / p.width
  144 * 10000 ≤ fget c TMG_HORIZ_HBLANK * f
    && (sym + 16) * 20000 + (fget c TMG_HORIZ_HBLANK + 40) * f ≤ fget c TMG_HORIZ_LS_OFFSET * f

/-- R246 over the enabled ports, ascending. -/
def packetLimits (c : Conf) : Option Fail :=
  ((enabledPorts c).find? (fun p => !portFits c p.2)).map (fun p => ⟨TIMING_REJECTED, 0x09000c, p.1⟩)

/-- R353: with Gingham on, L + VFP slots last at least 5 µs. -/
def leadLimit (c : Conf) : Option Fail :=
  timingIf (fbit c GNG_CTRL_EN && (tLead c + tVfp c) * tPeriod c < 10000 * 4096) 0x090008

/-- Does an area from a 4 KiB base reach the reserved space or the end of module memory (R293, R189, R198)? -/
def areaBad (basePage size : Nat) : Bool := 0 < size && reservedBase < basePage * 4096 + size

/-- Reserved bits of the byte at an offset within a table (Tables 6.5, 8.4, 9.4, 9.7, 10.6, 11.1, 13.3, 16.3). -/
def reservedBits (id off : Nat) : Nat :=
  if id = 0x0401 then (if 6 ≤ off % 8 then 0xFF else 0)
  else if id = 0x0600 then (if off % 8 = 6 then 0xFE else if off % 8 = 7 then 0xFF else 0)
  else if id = 0x0601 then (if off % 8 = 4 then 0xFE else if 5 ≤ off % 8 then 0xFF else 0)
  else if 0x0800 ≤ id && id < 0x0820 then (if 6534 ≤ off then 0xFF else 0)
  else if id = 0x0900 then (if off % 4 = 2 then 0xFE else if off % 4 = 3 then 0x7F else 0)
  else if id = 0x0B00 then (if off % 8 = 5 then 0xE0 else if 6 ≤ off % 8 then 0xFF else 0)
  else if id = 0x0D00 then (if off % 8 = 3 then 0x70 else if off % 8 = 7 then 0xFE else 0)
  else if id = 0x1000 then (if off % 8 = 3 then 0x3F else 0)
  else 0

/-- Entry size of a table whose reserved bytes are judged. -/
def entrySize (id : Nat) : Nat := if id = 0x0900 then 4 else if 0x0800 ≤ id && id < 0x0820 then 2 else 8

/-- The first entry of a table that holds a nonzero reserved bit (R442; log entry 7). -/
def reservedRule (c : Conf) (id : Nat) : Option Fail :=
  (c.tables.find? (fun p => p.1 / 1048576 = id && p.2.toNat &&& reservedBits id (p.1 % 1048576) ≠ 0)).map
    (fun p => ⟨BAD_PARAM, id, p.1 % 1048576 / entrySize id⟩)

/-- Grid rules at GZ_GRID: R138 and R145. DESIGN CHOICE 162: R145 rests on DECIM and on both boundary tables; a grid that breaks it
is named by GZ_GRID's offset, with detail 0. -/
def gridRule (c : Conf) : Option Fail :=
  let cols := gCols c
  let rows := gRows c
  let step := 2 ^ fget c GZ_GRID_DECIM
  let counted (a b : Nat) := (b + step - 1) / step - (a + step - 1) / step
  let wide := (List.range cols).foldl (fun m j => max m (counted (colLeft c j) (colLeft c (j + 1)))) 0
  let high := (List.range rows).foldl (fun m i => max m (counted (rowTop c i) (rowTop c (i + 1)))) 0
  badIf (cols < 1 || 512 < cols || rows < 1 || 256 < rows || 122880 < cols * rows || 65535 < wide * high) 0x050004

/-- R143: the edges E[1] to E[7] increase strictly from 1. -/
def edgeRule (c : Conf) : Option Fail :=
  let e (k : Nat) := if k = 0 then 0
    else if k % 2 = 1 then fget c (GZ_BIN_EDGE_LO (k / 2)) else fget c (GZ_BIN_EDGE_HI (k / 2 - 1))
  ((List.range 7).find? (fun k => e (k + 1) ≤ e k)).map (fun k => ⟨BAD_PARAM, 0x050024 + 4 * (k / 2), 0⟩)

/-- R139 on one boundary table: entry 0 is 0, and every zone spans at least 4. DESIGN CHOICE 162: the first bad entry (R141) of a
zone narrower than 4 is its far bound, and the zone's own entry where it is the last one. -/
def boundRule (id n : Nat) (e : Nat → Nat) : Option Fail :=
  badIf (e 0 ≠ 0) id
  <|> ((List.range n).find? (fun i => e (i + 1) < e i + 4)).map (fun i => ⟨BAD_PARAM, id, min (i + 1) (n - 1)⟩)

/-- R175: every zone in exactly one rectangle, every rectangle inside the grid, at most 240 channels. -/
def driverRule (c : Conf) : Option Fail :=
  let ds := mappedDrivers c
  match ds.find? (fun d => 240 < d.2.2.cols * d.2.2.rows || gCols c < d.2.2.col0 + d.2.2.cols
      || gRows c < d.2.2.row0 + d.2.2.rows) with
  | some d => some ⟨BAD_PARAM, 0x0600, 16 * d.1 + d.2.1⟩
  | none => badIf ((List.range (gRows c)).any (fun i => (List.range (gCols c)).any (fun j =>
      (ds.filter (fun d => d.2.2.holds i j)).length ≠ 1))) 0x0600

/-- R187: knots at least 256 apart, with K0 = 0 and K4 = 16383; colours R, G, B in turn. -/
def knotRule (c : Conf) : Option Fail :=
  let k (col m : Nat) := [0, fget c (DMK_KNOTA_K1 col), fget c (DMK_KNOTA_K2 col), fget c (DMK_KNOTB_K3 col), 16383].getD m 0
  ((List.range 12).find? (fun n => k (n / 4) (n % 4 + 1) < k (n / 4) (n % 4) + 256)).map
    (fun n => ⟨BAD_PARAM, (if n % 4 < 2 then 0x070010 else 0x070014) + 12 * (n / 4), 0⟩)

/-- A defect record: X, Y, KIND, CH, reserved bit, PARAM, LEN (Table 9.4). -/
structure DefectRec where
  x : Nat
  y : Nat
  kind : Nat
  ch : Nat
  spare : Bool
  param : Nat
  len : Nat
  deriving DecidableEq, Repr

def defectAt (c : Conf) (i : Nat) : DefectRec :=
  let f (o n : Nat) := tableAt c 0x0700 (8 * i + o) n
  { x := f 0 2, y := f 2 2, kind := bits (f 4 1) 0 4, ch := bits (f 4 1) 4 3, spare := bit (f 4 1) 7, param := f 5 1, len := f 6 2 }

/-- R195 for record i, given the active area. -/
def defectBad (c : Conf) (i : Nat) : Bool :=
  let d := defectAt c i
  let p := defectAt c (i - 1)
  (i ≠ 0 && (d.y < p.y || (d.y = p.y && d.x < p.x)))
  || d.kind = 0 || 5 < d.kind || d.ch = 0 || d.spare
  || (if d.kind = 3 then d.param < 128 else d.param ≠ 0)
  || (d.kind ≤ 3 && d.len ≠ 1)
  || (hasTiming c && (tW c ≤ d.x || tH c ≤ d.y || (d.kind = 4 && tW c < d.x + d.len)
      || (d.kind = 5 && tH c < d.y + d.len)))

def defectRule (c : Conf) : Option Fail :=
  ((List.range (fget c DMK_DEFECT_COUNT)).find? (defectBad c)).map (fun i => ⟨BAD_PARAM, 0x0700, i⟩)

/-- Bytes of overdrive history per pixel (R198). -/
def histBytes (c : Conf) : Nat := if fget c TWL_CTRL_PACK = 2 then 6 else 4

/-- Set temperature Ts, sQ7.0 (R202). -/
def odTemp (c : Conf) (k : Nat) : Int :=
  signedOf 8 (fget c ([OD_TSET_T0, OD_TSET_T1, OD_TSET_T2, OD_TSET_T3].getD (k % 4) OD_TSET_T0 (k / 4)))

/-- Class log-dwell Ck, uQ8.8 (R202). -/
def odDwell (c : Conf) (k : Nat) : Nat := fget c (if k % 2 = 0 then OD_DWELL_C0 (k / 2) else OD_DWELL_C1 (k / 2))

/-- R202: both series increase strictly. -/
def odRule (c : Conf) : Option Fail :=
  ((List.range 7).find? (fun k => odTemp c (k + 1) ≤ odTemp c k)).map (fun k => ⟨BAD_PARAM, 0x080008 + 4 * ((k + 1) / 4), 0⟩)
  <|> ((List.range 3).find? (fun k => odDwell c (k + 1) ≤ odDwell c k)).map
        (fun k => ⟨BAD_PARAM, 0x080010 + 4 * ((k + 1) / 2), 0⟩)

/-- Single-entry rules of R236 for one enabled port against those before it. -/
def portBad (before : List (Nat × PortCfg)) (p : PortCfg) : Bool :=
  11 < p.group || p.lane0 % p.width ≠ 0 || 8 < p.lane0 + p.width || p.ncol < 1 || 8191 < 3 * p.ncol
  || before.any (fun q => q.2.group = p.group && (q.2.addr = p.addr
      || (q.2.lane0 < p.lane0 + p.width && p.lane0 < q.2.lane0 + q.2.width)))

/-- First enabled port that breaks a single-entry rule. -/
def firstPortBad : List (Nat × PortCfg) → List (Nat × PortCfg) → Option Nat
  | _, [] => none
  | seen, (n, p) :: r => if portBad seen p then some n else firstPortBad ((n, p) :: seen) r

/-- Choose the element of a list that is best by a strict order. -/
def pick (better : Nat × PortCfg → Nat × PortCfg → Bool) : List (Nat × PortCfg) → Option (Nat × PortCfg)
  | [] => none
  | a :: r => match pick better r with
    | none => some a
    | some b => if better b a then some b else some a

/-- The coverage rule of R236: the port that the detail names at the first failing column. -/
def coverRule (c : Conf) (ps : List (Nat × PortCfg)) : Option Nat :=
  let covers (x : Nat) := ps.filter (fun p => p.2.x0 ≤ x && x < p.2.x0 + p.2.ncol)
  let top := ps.foldl (fun m p => max m (p.2.x0 + p.2.ncol)) (tW c)
  match (List.range top).find? (fun x => if x < tW c then (covers x).length ≠ 1 else !(covers x).isEmpty) with
  | none => none
  | some x =>
    let chosen :=
      if tW c ≤ x then pick (fun a b => a.1 < b.1) (covers x)
      else if (covers x).isEmpty then
        match pick (fun a b => a.2.x0 < b.2.x0) (ps.filter (fun p => x < p.2.x0)) with
        | some p => some p
        | none => pick (fun a b => b.2.x0 + b.2.ncol < a.2.x0 + a.2.ncol) ps
      else pick (fun a b => b.2.x0 < a.2.x0 || (a.2.x0 = b.2.x0 && b.1 < a.1)) (covers x)
    some ((chosen.map Prod.fst).getD 0xFFFFFFFF)

/-- R236, while Twill is enabled and a timing is in force. -/
def layoutRule (c : Conf) : Option Fail :=
  if fbit c TWL_CTRL_EN && hasTiming c then
    let ps := enabledPorts c
    (firstPortBad [] ps <|> coverRule c ps).map (fun n => ⟨BAD_PARAM, 0x0B00, n⟩)
  else none

/-- R297 on one entry of PROT_REGIONS. -/
def protBad (c : Conf) (r : Nat) : Bool :=
  let (b, n, t, v) := protEntry c r
  v && (n = 0 || dataPages < b + n || 4 < t || (List.range 64).any (fun q =>
    q ≠ r && (let (b2, n2, _, v2) := protEntry c q; v2 && b < b2 + n2 && b2 < b + n)))

/-- R297: the first written page whose strength would change from `base` to `c`, of those that lie in an entry of PROT_REGIONS
before or after the change, or of the others, which MEM_CTRL.DEFAULT_T codes. -/
def strengthRule (written : SMap Bool) (base c : Conf) (listed : Bool) : Option Fail :=
  ((written.map Prod.fst).find? (fun p => p < dataPages && pageCode base p ≠ pageCode c p
      && ((regionOf base p).isSome || (regionOf c p).isSome) = listed)).map (fun p =>
    ⟨RESOURCE_BUSY, if listed then 0x0D00 else 0x0d0000, p⟩)

/-- Nominal temperature of calibration set k, sQ7.0 (Table 15.6). -/
def calSetTemp (c : Conf) (k : Nat) : Int :=
  signedOf 8 (if k < 4 then bits (fget c CAL_SETT0_T) (8 * k) 8 else fget c CAL_SETT1_T4)

/-- Everything the validation of R92 looks at besides the configuration: pages marked written, and whether a cue buffer
is loaded (R297, R280). -/
structure World where
  written : SMap Bool
  loaded : Bool
  deriving DecidableEq, Repr

/-- The first rule that configuration `c` breaks, given the configuration `base` that would otherwise be in force (R92). -/
def validate (w : World) (base c : Conf) : Option Fail :=
  let on := hasTiming c
  let when (b : Bool) (f : Option Fail) := if b then f else none
  let area := tW c * tH c
  let slotBytes := fget c ING_PUSH_CFG_SLOTS * fget c ING_PUSH_CFG_SLOT_PAGES * 4096
  let cueMoved := regNow base 0x0c0000 ≠ regNow c 0x0c0000
  let cueSized := regNow base 0x0c0004 ≠ regNow c 0x0c0004
  when on (timingLimits c)
  <|> when on (marginLimits c)
  <|> when on (scheduleLimits c)
  <|> when on (packetLimits c)
  <|> when on (leadLimit c)
  <|> badIf (areaBad (fget c ING_PUSH_BASE_BASE) slotBytes) 0x030008
  <|> reservedRule c 0x0401
  <|> when on (gridRule c)
  <|> edgeRule c
  <|> when on (boundRule 0x0500 (gCols c) (colLeft c))
  <|> when on (boundRule 0x0501 (gRows c) (rowTop c))
  <|> reservedRule c 0x0600
  <|> when on (driverRule c)
  <|> reservedRule c 0x0601
  <|> badIf (areaBad (fget c DMK_MAP_BASE_BASE) (9 * area)) 0x070004
  <|> knotRule c
  <|> defectRule c
  <|> badIf (areaBad (fget c OD_HIST_BASE_BASE) (histBytes c * area)) 0x080004
  <|> odRule c
  <|> (List.range 32).findSome? (fun k => reservedRule c (0x0800 + k))
  <|> reservedRule c 0x0900
  <|> badIf (fget c TWL_CTRL_PACK = 3) 0x0b0000
  <|> reservedRule c 0x0B00
  <|> layoutRule c
  <|> when (w.loaded && cueMoved) (some ⟨RESOURCE_BUSY, 0x0c0000, 0⟩)
  <|> badIf (areaBad (fget c CUE_REGION_BASE_BASE) (fget c CUE_REGION_PAGES_PAGES * 4096)) 0x0c0000
  <|> when (w.loaded && cueSized) (some ⟨RESOURCE_BUSY, 0x0c0004, 0⟩)
  <|> badIf (decide (4 < fget c MEM_CTRL_DEFAULT_T)) 0x0d0000
  <|> strengthRule w.written base c false
  <|> reservedRule c 0x0D00
  <|> ((List.range 64).find? (protBad c)).map (fun r => ⟨BAD_PARAM, 0x0D00, r⟩)
  <|> strengthRule w.written base c true
  <|> ((List.range 4).find? (fun k => calSetTemp c (k + 1) ≤ calSetTemp c k)).map
        (fun k => ⟨BAD_PARAM, if k < 3 then 0x0f0008 else 0x0f000c, 0⟩)
  <|> reservedRule c 0x1000

/-- Validate the arms accepted in `conf` for FE n and later, n's own included, over what stands before them (R92). -/
def validateArm (w : World) (conf : Conf) (n : Nat) : Option Fail :=
  let step (acc : Conf × Option Fail) (fe : Nat) :=
    let c := applySlot (mergeSlots (armedFor conf fe)) acc.1
    (c, acc.2 <|> validate w acc.1 c)
  (((armedFes conf).filter (fun fe => n ≤ fe)).foldl step (confAfter conf (fun fe => fe < n), none)).2

/-- Validate every arm that a configuration still holds, in FE order: after a cancel (R92). -/
def validateRest (w : World) (conf : Conf) : Option Fail :=
  let step (acc : Conf × Option Fail) (fe : Nat) :=
    let c := applySlot (mergeSlots (armedFor conf fe)) acc.1
    (c, acc.2 <|> validate w acc.1 c)
  ((armedFes conf).foldl step (conf, none)).2

/-- The class of the whole change armed for FE n (R92, R93). -/
def armClass (conf : Conf) (n : Nat) : SeamClass :=
  let base := confAfter conf (fun fe => fe < n)
  let own := mergeSlots (armedFor conf n)
  classOf base (applySlot own base) own

end Sys2Proof.Machine
end

