-- ==== Sys2Proof/Machine/Operands.lean ====
section
/-!
DEFINITION. Descriptors: the fields of their bodies, the checks of R84 in order, and how a command on a ring is found,
begun and completed (R80 to R86).
-/
namespace Sys2Proof.Machine

/-- A field of a descriptor or table of bytes. -/
def opcode (raw : Bytes) : Nat := fieldAt raw 0 1

/-- Body fields of an opcode: byte offset, bytes, bits used; every other body byte is reserved (Tables 4.10, 5.1, 17.5). -/
def bodyFields (op : Nat) : List (Nat × Nat × Nat) :=
  let w (o : Nat) := (o, 4, 0xFFFFFFFF)
  let d (o : Nat) := (o, 8, 0xFFFFFFFFFFFFFFFF)
  match op with
  | 0x01 => [d 0x18, (0x20, 4, 0x307), w 0x24]
  | 0x10 => [(0x18, 4, 0x3FFFF), d 0x20, w 0x28, w 0x2C, w 0x30, (0x34, 4, 1)]
  | 0x11 => [(0x18, 4, 0x103), d 0x20, w 0x28]
  | 0x12 => [(0x18, 4, 0x10F), d 0x20]
  | 0x13 => [(0x18, 4, 0x107)]
  | 0x20 => [w 0x18, w 0x1C, d 0x20]
  | 0x21 => [w 0x18, w 0x1C, d 0x20, w 0x28]
  | 0x24 => [w 0x18, (0x1C, 4, 1)]
  | 0x30 => [(0x18, 4, 3), d 0x20, d 0x28, d 0x30]
  | 0x31 => [d 0x20, d 0x28, d 0x30]
  | 0x32 => [w 0x18]
  | 0x40 => [w 0x18, (0x1C, 4, 1), d 0x20, d 0x28, w 0x30]
  | 0x41 => [w 0x18, w 0x1C, d 0x20]
  | 0x42 => [(0x18, 4, 7), d 0x20]
  | 0x50 => [w 0x18, w 0x1C, d 0x20, d 0x28, (0x30, 4, 1)]
  | 0x51 => [w 0x18, w 0x1C, d 0x20, w 0x28]
  | 0x60 => [w 0x18, w 0x1C]
  | 0x70 => [w 0x18, w 0x1C, d 0x20]
  | 0x71 => [w 0x18, w 0x1C, w 0x20]
  | 0x78 => [w 0x18, w 0x1C]
  | 0x80 => [(0x18, 4, 3), d 0x20, w 0x28]
  | 0x81 => [d 0x20]
  | 0x83 => [d 0x20, w 0x28]
  | 0x85 => [w 0x18, d 0x20]
  | 0x86 => [w 0x18, d 0x20]
  | 0x87 => [(0x18, 4, 1), d 0x20, w 0x28]
  | 0x88 => [w 0x18]
  | _ => []

/-- Opcodes of Table 4.10 and Table 17.5. -/
def knownOpcode (op : Nat) : Bool :=
  [0x01, 0x10, 0x11, 0x12, 0x13, 0x20, 0x21, 0x22, 0x23, 0x24, 0x30, 0x31, 0x32, 0x40, 0x41, 0x42, 0x50, 0x51, 0x60,
   0x70, 0x71, 0x78, 0x80, 0x81, 0x82, 0x83, 0x84, 0x85, 0x86, 0x87, 0x88].contains op

/-- Does a ring of this function and kind accept the opcode (Table 4.10, column "Accepted on")? -/
def accepts (fn : Fn) (kind : RingKind) (op : Nat) : Bool :=
  match fn, kind with
  | .pf0, .frame => op = 0x01
  | .pf0, .cmd => [0x10, 0x11, 0x12, 0x13, 0x30, 0x31, 0x32, 0x41, 0x42, 0x50, 0x51, 0x60, 0x70, 0x71].contains op
  | .pf0, .cueLoad => [0x30, 0x31, 0x40].contains op
  | .pf1, .cmd => [0x20, 0x21, 0x22, 0x23, 0x24, 0x70, 0x78, 0x80, 0x81, 0x82, 0x83, 0x84, 0x85, 0x86, 0x87, 0x88].contains op
  | _, _ => false

/-- Bits of byte k that a list of fields uses. -/
def usedBits (fields : List (Nat × Nat × Nat)) (k : Nat) : Nat :=
  fields.foldl (fun a (o, n, m) => if o ≤ k && k < o + n then a ||| bits m (8 * (k - o)) 8 else a) 0

/-- The first byte from lo to hi − 1 with a reserved bit set. -/
def firstReserved (raw : Bytes) (fields : List (Nat × Nat × Nat)) (lo hi : Nat) : Option Nat :=
  ((List.range hi).filter (fun k => lo ≤ k)).find? (fun k =>
    (fieldAt raw k 1) &&& (255 - usedBits fields k) ≠ 0)

/-- Fields of the common header (Table 4.5); FENCE_FE counts as reserved while FENCE is 0 (R84 item 1). -/
def headerFields (raw : Bytes) : List (Nat × Nat × Nat) :=
  [(0, 4, 0x3FF), (8, 8, 0xFFFFFFFFFFFFFFFF)]
    ++ (if bit (fieldAt raw 0 4) 8 then [(0x10, 8, 0xFFFFFFFFFFFFFFFF)] else [])

/-- Does a module range meet the reserved space or reach past the address space (R293)? -/
def rangeBad (a n : Nat) : Bool := a ≥ moduleSize || moduleSize < a + n || (0 < n && reservedBase < a + n)

/-- A host range that reaches past 2^64 − 1 (R313). -/
def hostBad (a n : Nat) : Bool := decide (2 ^ 64 < a + n)

/-- Is an instance of a SPARE_COMMIT class out of range (Table 18.5)? -/
def instanceBad (cls inst : Nat) : Bool :=
  (cls = 0 && decide (191 < inst)) || (cls = 1 && decide (11 < inst)) || (cls = 2 && decide (16 < inst))
    || (cls = 3 && decide (dataPages ≤ inst))

/-- The first body field out of its range, as a byte offset (R84 item 5; the ranges of Table 4.10, Table 5.1, R39, R91, R166,
R167, R277, R288, R313, R320, R401, R402, R442, Table 17.5). `locked` is SYS_SETUP_LOCK, and `zones` the number of zones of the
grid in force at the fetch. -/
def rangeFault (locked : Bool) (zones : Nat) (raw : Bytes) : Option Nat :=
  let f := fieldAt raw
  let first (l : List (Bool × Nat)) : Option Nat := (l.find? Prod.fst).map Prod.snd
  let zoneFault (more : List (Bool × Nat)) : Option Nat :=
    first ([(decide (zones ≤ f 0x18 4), 0x18), (f 0x1C 4 = 0 || zones < f 0x18 4 + f 0x1C 4, 0x1C)] ++ more)
  match opcode raw with
  | 0x01 => first [(f 0x18 8 % 64 ≠ 0, 0x18), (f 0x20 4 % 8 = 0 || 4 < f 0x20 4 % 8, 0x20)]
  | 0x10 =>
    let size := tableSize (f 0x18 2)
    first [(size.isNone || (!locked && bits (f 0x18 4) 16 2 ≠ 0), 0x18),
           (f 0x34 4 = 1 && rangeBad (f 0x20 8) (f 0x28 4), 0x20),
           (f 0x28 4 = 0 || f 0x28 4 % 4 ≠ 0 || size.getD 0 < f 0x2C 4 + f 0x28 4, 0x28),
           (f 0x18 2 = 0x0D00 && 504 < f 0x2C 4 + f 0x28 4, 0x2C)]
  | 0x11 => first [(!locked, 0x18), (f 0x28 4 = 0 || 4096 < f 0x28 4, 0x28)]
  | 0x12 => first [(!locked, 0x18)]
  | 0x13 => first [(5 < f 0x18 4 % 8, 0x18)]
  | 0x20 => first [(0xFFFFF < f 0x18 4, 0x18), (f 0x1C 4 = 0 || 1024 < f 0x1C 4, 0x1C)]
  | 0x21 => first [(0xFFFFF < f 0x18 4, 0x18), (f 0x1C 4 = 0 || 1024 < f 0x1C 4, 0x1C)]
  | 0x30 =>
    let n := f 0x30 8
    let fromHost := bit (f 0x18 4) 0
    let toHost := bit (f 0x18 4) 1
    first [(fromHost && toHost, 0x18),
           (n ≠ 0 && (if fromHost then hostBad (f 0x20 8) n else rangeBad (f 0x20 8) n), 0x20),
           (n ≠ 0 && (if toHost then hostBad (f 0x28 8) n else rangeBad (f 0x28 8) n), 0x28), (n = 0, 0x30)]
  | 0x31 => first [(f 0x28 8 ≠ 0 && rangeBad (f 0x20 8) (f 0x28 8), 0x20), (f 0x28 8 = 0, 0x28)]
  | 0x32 => first [(4095 < f 0x18 4, 0x18)]
  | 0x40 => first [(4095 < f 0x18 4, 0x18), (f 0x28 8 = 0, 0x28)]
  | 0x42 => first [(f 0x18 4 % 8 ≠ 2 && f 0x18 4 % 8 ≠ 3, 0x18)]
  | 0x50 => zoneFault []
  | 0x51 => zoneFault [(2 < f 0x28 4, 0x28)]
  | 0x60 => first [(3 < f 0x18 4, 0x18)]
  | 0x70 => first [(2047 < f 0x18 4, 0x18), (f 0x1C 4 = 0 || 2048 < f 0x1C 4, 0x1C)]
  | 0x71 => first [(4 < f 0x18 4, 0x18), (instanceBad (f 0x18 4) (f 0x1C 4), 0x1C),
                   ((2 ≤ f 0x18 4 && f 0x18 4 ≤ 4 && f 0x20 4 ≠ 0) || (f 0x18 4 = 1 && 7 < f 0x20 4), 0x20)]
  | 0x78 => first [(2 < f 0x18 4, 0x18), (0x7FF < f 0x1C 4, 0x1C)]
  | 0x80 => first [(f 0x28 4 = 0 || 4096 < f 0x28 4, 0x28)]
  | 0x83 => first [(f 0x28 4 = 0 || 4096 < f 0x28 4, 0x28)]
  | 0x85 => first [(3 < f 0x18 4, 0x18)]
  | 0x86 => first [(3 < f 0x18 4, 0x18)]
  | 0x88 => first [(63 < f 0x18 4 && f 0x18 4 ≠ 0xFF, 0x18)]
  | _ => none

/-- The checks of R84, in order: the first status that applies and RESULT0. -/
def checkDescriptor (locked : Bool) (zones : Nat) (fn : Fn) (kind : RingKind) (raw : Bytes) : Option (Nat × Nat) :=
  match firstReserved raw (headerFields raw) 0 0x18 with
  | some k => some (RESERVED_FIELD, k)
  | none =>
    if !(knownOpcode (opcode raw)) then some (BAD_OPCODE, 0)
    else if !(accepts fn kind (opcode raw)) then some (BAD_RING, 0)
    else match firstReserved raw (bodyFields (opcode raw)) 0x18 0x40 with
      | some k => some (RESERVED_FIELD, k)
      | none => (rangeFault locked zones raw).map (fun o => (BAD_PARAM, o))

/-! ## The command that a ring runs -/

def userTag (raw : Bytes) : Wide := BitVec.ofNat 64 (fieldAt raw 8 8)
def hasIrq (raw : Bytes) : Bool := bit (fieldAt raw 0 4) 9
/-- FENCE_FE of a descriptor with FENCE set, else 0: it delays nothing at or below the current FE (R83). -/
def fenceFe (raw : Bytes) : Nat := if bit (fieldAt raw 0 4) 8 then fieldAt raw 0x10 8 else 0

/-- What a command addresses of the things that R82 orders: kind (0 stage slot, 1 Linen bracket, 2 cue buffer, 3 zone
range), first and number. -/
def resources (raw : Bytes) : List (Nat × Nat × Nat) :=
  let f := fieldAt raw
  match opcode raw with
  | 0x10 => [(0, bits (f 0x18 4) 16 2, 1)]
  | 0x11 => [(0, f 0x18 4 % 4, 1)]
  | 0x12 => (bitList (f 0x18 4 % 16) 4).map (fun i => (0, i, 1))
  | 0x21 => if f 0x28 4 = 0 then [] else [(1, f 0x28 4, 1)]
  | 0x24 => [(1, f 0x18 4, 1)]
  | 0x32 => [(2, f 0x18 4, 1)]
  | 0x40 => [(2, f 0x18 4, 1)]
  | 0x41 => [(2, f 0x18 4, 1)]
  | 0x50 => [(3, f 0x18 4, f 0x1C 4)]
  | 0x51 => [(3, f 0x18 4, f 0x1C 4)]
  | _ => []

/-- Do two commands address the same thing (R82)? -/
def collides (a b : Bytes) : Bool :=
  (resources a).any (fun x => (resources b).any (fun y =>
    x.1 = y.1 && decide (x.2.1 < y.2.1 + y.2.2) && decide (y.2.1 < x.2.1 + x.2.2)))

/-- A command begun earlier on another ring of the function addresses the same thing and has not completed (R82). -/
def heldBack (s : State) (fn : Fn) (n : Nat) (raw : Bytes) : Bool :=
  s.rings.sqs.any (fun p => p.1 / 64 = fnIdx fn && p.1 % 64 ≠ n && (match p.2.running with
    | some r => r.waiting && collides raw r.raw
    | none => false))

/-- The descriptor with opcode `op` that ring n of a function may run now: fetched, not begun, its fence passed, no earlier
command in its way, and its function's rings served (R82, R83, R69). A FRAME's fence delays its latch instead (R83, R99). -/
def ready (s : State) (fn : Fn) (n op : Nat) : Option Running :=
  match (sqOf s.rings fn n).running with
  | some r =>
    if opcode r.raw = op && !r.waiting && (op = 0x01 || fenceFe r.raw ≤ s.sys.fe) && served s fn && !(heldBack s fn n r.raw) then some r else none
  | none => none

/-- The command that ring n runs and that waits for an event. -/
def waitingOn (s : State) (fn : Fn) (n op : Nat) : Option Running :=
  match (sqOf s.rings fn n).running with
  | some r => if opcode r.raw = op && r.waiting then some r else none
  | none => none

/-- Change a ring's running command. -/
def setRunning (fn : Fn) (n : Nat) (r : Option Running) (s : State) : State :=
  { s with rings := setSq fn n { sqOf s.rings fn n with running := r } s.rings }

/-- Mark the running command as begun and waiting, with a number to keep. -/
def holdRunning (fn : Fn) (n : Nat) (r : Running) (arg : Nat) (s : State) : State :=
  setRunning fn n (some { r with waiting := true, arg }) s

/-- Complete a ring's running command (Table 4.6): CMD_DONE with a status and results. -/
def finish (fn : Fn) (n : Nat) (r : Running) (status : Nat) (res : List Nat) (s : State) : State :=
  postRec r.cq { type := 1, status, sq := n, slot := r.slot, tag := userTag r.raw, irq := hasIrq r.raw
                 r0 := res.getD 0 0, r1 := res.getD 1 0, r2 := res.getD 2 0, r3 := res.getD 3 0 }
    (setRunning fn n none s)

/-- A 64-bit value as its low and high words. -/
def lohi (v : Nat) : List Nat := [v % 2 ^ 32, v / 2 ^ 32 % 2 ^ 32]

/-- Run a ring's command when it is ready, else do nothing. -/
def runRing (fn : Fn) (n op : Nat) (f : Running → State → State) (s : State) : Answer :=
  match ready s fn n op with
  | some r => .next (f r s)
  | none => .next s

/-- Does a command read host memory (Tables 4.10, 17.5)? SET_TABLE and MEM_COPY may name a module source. -/
def readsHost (raw : Bytes) : Bool :=
  match opcode raw with
  | 0x10 => fieldAt raw 0x34 4 ≠ 1
  | 0x30 => bit (fieldAt raw 0x18 4) 0
  | _ => true

/-- Does a command read or write host memory (R440)? -/
def usesHost (raw : Bytes) : Bool := readsHost raw || (opcode raw = 0x30 && bit (fieldAt raw 0x18 4) 1)

/-- Run a ring's command that may access host memory: one that does waits for Bus Master Enable (R440). -/
def runHost (fn : Fn) (n op : Nat) (f : Running → State → State) (s : State) : Answer :=
  runRing fn n op (fun r s => if usesHost r.raw && !(busMaster s fn) then s else f r s) s

/-- Run a ring's command that reads host memory: a read that fails is reported (R72). -/
def runRead (fn : Fn) (n op : Nat) (data : Rd) (f : Running → State → State) (s : State) : Answer :=
  runHost fn n op (fun r s => f r (if readsHost r.raw then reportRead fn data s else s)) s

/-- Completions of commands that wait on a list of rings. -/
def finishAll (fn : Fn) (l : List Nat) (op status : Nat) (res : List Nat) (s : State) : State :=
  forAll l (fun n s => match waitingOn s fn n op with
    | some r => finish fn n r status res s
    | none => s) s

/-- The effective FE of a command that takes one (R92): 0 means F + lead; none when it is too near. -/
def armFe (f fe lead : Nat) : Option Nat := if fe = 0 then some (f + lead) else if f + lead ≤ fe then some fe else none

end Sys2Proof.Machine
end

