-- ==== Sys2Proof/Machine/Pages.lean ====
section
/-!
DEFINITION. Module memory as its requesters see it: bytes, written pages, poisoned pages and protected pages
(R292 to R302, R305, R380). Page bookkeeping is by whole 4 KiB pages.
-/
namespace Sys2Proof.Machine

/-- Read n bytes of module memory; an unwritten page reads as zero (R298). -/
def readMem (s : State) (a n : Nat) : Bytes := mgets 0 s.mem.bytes a n

/-- Pages that a range touches. -/
def pagesOf (a n : Nat) : List Nat :=
  if n = 0 then [] else (List.range ((a + n - 1) / 4096 - a / 4096 + 1)).map (fun i => a / 4096 + i)

def isWritten (s : State) (p : Nat) : Bool := mget false s.mem.written p

/-- The poison word in a page's slot (R294 item 5): 0 while the page is not poisoned (R305). -/
def poisonWord (m : Mem) (p : Nat) : Nat := mget 0 m.poison p

/-- Every read of the page is uncorrectable: 16 or more bits of its poison word are set (R305), or it was marked written but
never encoded (R314). -/
def badPage (m : Mem) (p : Nat) : Bool :=
  mget false m.raw p || (poisonWord m p ≠ 0 && 16 ≤ (bitList (poisonWord m p) 32).length)

/-- No page is poisoned. -/
def noneBad (m : Mem) : Bool := m.poison.isEmpty && m.raw.isEmpty

def isPoisoned (s : State) (p : Nat) : Bool := badPage s.mem p

/-- Is a page protected: the firmware region always, and every page marked so (R380)? -/
def isProtected (s : State) (p : Nat) : Bool :=
  (firmwarePages.1 ≤ p && p < firmwarePages.1 + firmwarePages.2) || mget false s.mem.guarded p

/-- Written pages that a range covers only in part: each is one read-modify-write (R300). -/
def rmwPages (s : State) (a n : Nat) : Nat :=
  ((pagesOf a n).filter (fun p => isWritten s p && (4096 * p < a || a + n < 4096 * p + 4096))).length

/-- Write bytes to module memory (R300): every page touched becomes written; a page written whole is no longer poisoned
(R305). -/
def writeMemOf (m : Mem) (rmw a : Nat) (d : Bytes) : Mem :=
  let ps := pagesOf a d.length
  let whole := ps.filter (fun p => a ≤ 4096 * p && 4096 * p + 4096 ≤ a + d.length)
  { m with bytes := mputs 0 a d m.bytes
           written := mputAll false (ps.map (fun p => (p, true))) m.written
           poison := mputAll 0 (whole.map (fun p => (p, 0))) m.poison
           raw := mputAll false (whole.map (fun p => (p, false))) m.raw
           reported := mputAll false (whole.map (fun p => (p, false))) m.reported
           rmw := satAdd 0xFFFFFFFF m.rmw rmw }

def writeMem (a : Nat) (d : Bytes) (s : State) : State :=
  { s with mem := writeMemOf s.mem (rmwPages s a d.length) a d }

/-- Pages are encoded again and no longer poisoned (R305, Table 13.4 row 5): a later failure is reported anew (R306). -/
def repairPages (l : List Nat) (s : State) : State :=
  { s with mem := { s.mem with poison := mkeep (fun p => !(l.contains p)) s.mem.poison
                               raw := mkeep (fun p => !(l.contains p)) s.mem.raw
                               reported := mkeep (fun p => !(l.contains p)) s.mem.reported } }

/-- Return pages to the unwritten state (R302): they read as zero and are no longer poisoned. -/
def clearPages (p n : Nat) (m : Mem) : Mem :=
  { m with bytes := mclear (4096 * p) (4096 * (p + n)) m.bytes
           written := mclear p (p + n) m.written
           poison := mclear p (p + n) m.poison
           raw := mclear p (p + n) m.raw
           reported := mclear p (p + n) m.reported }

/-- An access cut at page boundaries: address and length of each piece, in ascending order (R300). -/
def pieces (a n : Nat) : List (Nat × Nat) :=
  (pagesOf a n).map (fun p => (max a (4096 * p), min (a + n) (4096 * p + 4096) - max a (4096 * p)))

/-- Bytes of a host write that lie in poisoned pages which it covers only in part: they are dropped (Table 13.4 row 0). -/
def droppedBytes (s : State) (a n : Nat) : Nat :=
  (((pieces a n).filter (fun p => isPoisoned s (p.1 / 4096) && p.2 < 4096)).map Prod.snd).sum

/-- Mark or unmark pages as protected (R380). -/
def guardPages (p n : Nat) (v : Bool) (m : Mem) : Mem :=
  { m with guarded := if v then mputs false p (List.replicate n true) m.guarded else mclear p (p + n) m.guarded }

/-- The first protected byte of a range, as a distance from its start (R381). -/
def firstProtected (s : State) (a n : Nat) : Option Nat :=
  ((pagesOf a n).find? (isProtected s)).map (fun p => 4096 * p - a)

/-- The first byte of a range in a poisoned page, as a distance from its start (R305). -/
def firstPoisoned (s : State) (a n : Nat) : Option Nat :=
  ((pagesOf a n).find? (isPoisoned s)).map (fun p => 4096 * p - a)

/-- Results of a failed module read: RESULT2 and RESULT3 hold the address (Table 4.7). -/
def memFail (a : Nat) : List Nat := [0, 0, a % 2 ^ 32, a / 2 ^ 32]

end Sys2Proof.Machine
end

