-- ==== Sys2Proof/Machine/PageCode.lean ====
section
/-!
DEFINITION. The page code (R292, R294, R295, R305): the field GF(2^10), the four codewords of a page, the bytes of its slot,
and what a decode of a page and slot that arrive with given errors finds.
-/
namespace Sys2Proof.Machine

/-! ## GF(2^10), field polynomial x^10 + x^3 + 1 (R294 item 3) -/

/-- α times an element. -/
def gfDouble (a : Nat) : Nat := if 2 * a < 1024 then 2 * a else (2 * a) ^^^ 0x409

/-- Product over the lowest n bits of the second factor. -/
def gfMulBits : Nat → Nat → Nat → Nat
  | 0, _, _ => 0
  | n + 1, a, b => (if b % 2 = 1 then a else 0) ^^^ gfMulBits n (gfDouble a) (b / 2)

def gfMul (a b : Nat) : Nat := gfMulBits 10 a b

/-- a to the power that the lowest n bits of k spell. -/
def gfPowBits : Nat → Nat → Nat → Nat
  | 0, _, _ => 1
  | n + 1, a, k => gfMul (if k % 2 = 1 then a else 1) (gfPowBits n (gfMul a a) (k / 2))

/-- α to the power k. -/
def gfExp (k : Nat) : Nat := gfPowBits 10 2 (k % 1023)

def gfInv (a : Nat) : Nat := gfPowBits 10 a 1022

/-- Value of a polynomial, lowest coefficient first, at x. -/
def gfEval (p : List Nat) (x : Nat) : Nat := p.foldr (fun c a => c ^^^ gfMul a x) 0

/-- Sum of two polynomials. -/
def gfAdd : List Nat → List Nat → List Nat
  | [], q => q
  | p, [] => p
  | a :: p, b :: q => (a ^^^ b) :: gfAdd p q

/-! ## The codewords of a page (R294) -/

/-- t of a strength code (Table 13.2). -/
def strengthOf (code : Nat) : Nat := [0, 4, 8, 16, 32].getD code 0

/-- Data symbols of codeword c. -/
def dataSymbols (c : Nat) : Nat := if c = 0 then 820 else 819

/-- Symbols of codeword c at strength t: three virtual symbols, the data, then t/2 parity symbols (items 2 to 4). -/
def codeLength (t c : Nat) : Nat := 3 + dataSymbols c + t / 2

/-- Symbol s of a page's bytes, page bits 10s to 10s + 9 (item 1). -/
def pageSymbol (d : Nat → Byte) (s : Nat) : Nat :=
  bits (leNat ((List.range 3).map (fun k => if 10 * s / 8 + k < 4096 then d (10 * s / 8 + k) else 0))) (10 * s % 8) 10

/-- Virtual and data symbols of codeword c of page p (items 2 and 4). -/
def messageOf (p : Nat) (d : Nat → Byte) (c : Nat) : List Nat :=
  [bits p 0 10, bits p 10 10, bits p 20 10] ++ (List.range (dataSymbols c)).map (fun i => pageSymbol d (4 * i + c))

/-- The generator with roots α^0 to α^(n − 1), lowest coefficient first (item 3). -/
def generator : Nat → List Nat
  | 0 => [1]
  | n + 1 => let g := generator n; gfAdd (0 :: g) (g.map (gfMul (gfExp n)))

/-- One step of the division that encodes: parity so far, highest power first, and the next symbol. -/
def encodeStep (g : List Nat) (r : List Nat) (m : Nat) : List Nat :=
  let f := m ^^^ r.headD 0
  gfAdd (r.drop 1 ++ [0]) (g.map (gfMul f))

/-- The t/2 parity symbols of a message, highest power first. DEDUCED 44: the virtual symbols hold the highest powers and the
parity follows the data. -/
def parityOf (n : Nat) (m : List Nat) : List Nat :=
  m.foldl (encodeStep ((generator n).reverse.drop 1)) (List.replicate n 0)

/-- Symbols of ten bits, the first lowest, as one number. -/
def packTen : List Nat → Nat
  | [] => 0
  | s :: r => s + 1024 * packTen r

/-- The slot of a page (item 5): the parity symbols from byte 0, zeros, and the poison word at +0x7C. -/
def slotBytes (m : Mem) (t p : Nat) : Bytes :=
  let d (k : Nat) : Byte := mget 0 m.bytes (4096 * p + k)
  toLE 124 (packTen ((List.range 4).flatMap (fun c => parityOf (t / 2) (messageOf p d c)))) ++ toLE 4 (poisonWord m p)

/-- Module address of a page's slot (Table 13.1). -/
def pageSlotAddr (p : Nat) : Nat := 0x1F00000000 + 128 * p

/-- Channel that holds byte b of page p (R292). -/
def channelOf (p b : Nat) : Nat := (b / 128 + p) % 32

/-! ## Decoding (R294, R295) -/

/-- Syndromes S_0 to S_(n − 1) of an error pattern of positions and values in a codeword of `len` symbols: those of the
stored codeword are 0. -/
def syndromes (n len : Nat) (e : List (Nat × Nat)) : List Nat :=
  (List.range n).map (fun j => e.foldl (fun a q => a ^^^ gfMul q.2 (gfExp (j * (len - 1 - q.1)))) 0)

/-- The state of the search for the shortest recurrence (Berlekamp-Massey): C, B, L, the shift and b. -/
structure Recur where
  c : List Nat := [1]
  b : List Nat := [1]
  len : Nat := 0
  shift : Nat := 1
  last : Nat := 1

/-- The search takes syndrome n. -/
def recurStep (ss : List Nat) (n : Nat) (r : Recur) : Recur :=
  let d := (List.range (r.len + 1)).foldl (fun a i => if i ≤ n then a ^^^ gfMul (r.c.getD i 0) (ss.getD (n - i) 0) else a) 0
  if d = 0 then { r with shift := r.shift + 1 }
  else
    let c := gfAdd r.c (List.replicate r.shift 0 ++ r.b.map (gfMul (gfMul d (gfInv r.last))))
    if 2 * r.len ≤ n then { c, b := r.c, len := n + 1 - r.len, shift := 1, last := d }
    else { r with c, shift := r.shift + 1 }

/-- Powers, highest first, at which a polynomial vanishes: those below n whose α^(−power) is a root; `x` is α^(−n). -/
def rootsBelow (p : List Nat) : Nat → Nat → List Nat
  | 0, _ => []
  | n + 1, x =>
    let y := gfDouble x
    let r := rootsBelow p n y
    if gfEval p y = 0 then n :: r else r

/-- Odd coefficients as the formal derivative's, lowest first. -/
def gfDerivative (p : List Nat) : List Nat := (keyed 0 (p.drop 1)).map (fun q => if q.1 % 2 = 0 then q.2 else 0)

/-- Value of the error at a power (Forney, first root α^0): x is α^power. -/
def errorValue (ss loc : List Nat) (power : Nat) : Nat :=
  let n := ss.length
  let omega := (List.range n).map (fun k => (List.range (k + 1)).foldl (fun a i => a ^^^ gfMul (loc.getD i 0) (ss.getD (k - i) 0)) 0)
  let xi := gfExp (1023 - power % 1023)
  gfMul (gfExp power) (gfMul (gfEval omega xi) (gfInv (gfEval (gfDerivative loc) xi)))

/-- What the decoder locates in one codeword of `len` symbols with n parity symbols: positions and values; none where no
pattern of at most n/2 errors fits. -/
def locate (n len : Nat) (e : List (Nat × Nat)) : Option (List (Nat × Nat)) :=
  let ss := syndromes n len e
  if ss.all (· = 0) then some []
  else
    let r := (List.range n).foldl (fun r k => recurStep ss k r) {}
    let roots := if r.len ≤ n / 2 then rootsBelow (r.c.take (r.len + 1)) len (gfExp (1023 - len % 1023)) else []
    if r.len ≤ n / 2 && roots.length = r.len then some (roots.map (fun w => (len - 1 - w, errorValue ss (r.c.take (r.len + 1)) w)))
    else none

/-- Errors of codeword c, by position. -/
def inWord (c : Nat) (e : List SymbolError) : List (Nat × Nat) := (e.filter (fun x => x.word = c)).map (fun x => (x.pos, x.value))

/-- What a decode finds. -/
inductive Decoded where
  | clean
  | corrected (fix : List SymbolError)
  | failed
  deriving DecidableEq, Repr

/-- The decode of a page at strength t whose page and slot arrive with errors (R294, R295, R305): no pattern fits a codeword,
an error is located in a virtual symbol, or the poison word has 16 bits set, and it is uncorrectable. -/
def decode (t poison : Nat) (e : List SymbolError) (flips : Nat) : Decoded :=
  let found := (List.range 4).map (fun c => locate (t / 2) (codeLength t c) (inWord c e))
  let fix := (keyed 0 found).flatMap (fun q => (q.2.getD []).map (fun x => ({ word := q.1, pos := x.1, value := x.2 } : SymbolError)))
  if found.any Option.isNone || fix.any (fun x => x.pos < 3) || 16 ≤ (bitList (poison ^^^ flips) 32).length then .failed
  else if fix.isEmpty then .clean else .corrected fix

/-- Exclusive or of a data symbol of page p with a value; virtual and parity symbols lie outside the page. -/
def flipSymbol (p : Nat) (x : SymbolError) (m : SMap Byte) : SMap Byte :=
  if 3 ≤ x.pos && x.pos < 3 + dataSymbols x.word then
    let s := 4 * (x.pos - 3) + x.word
    let a := 10 * s / 8
    let n := min 3 (4096 - a)
    let old := mgets 0 m (4096 * p + a) n
    mputs 0 (4096 * p + a) (List.zipWith (· ^^^ ·) old (toLE n (x.value % 1024 * 2 ^ (10 * s % 8)))) m
  else m

/-- The bytes of a written page with errors, or with corrections. -/
def flipPage (p : Nat) (l : List SymbolError) (m : Mem) : Mem :=
  if mget false m.written p then { m with bytes := l.foldl (fun b x => flipSymbol p x b) m.bytes } else m

/-- What a read of page p that arrives so finds (R299, R305). -/
def decodePage (s : State) (r : PageRead) : Decoded :=
  if isPoisoned s r.page then .failed
  else decode (strengthOf (pageCode s.conf r.page)) (poisonWord s.mem r.page) r.errors r.flips

end Sys2Proof.Machine
end

