-- ==== Sys2Proof/Machine/TwillCode.lean ====
section
/-!
DEFINITION. Symbols of a Twill lane (R237 to R241, R244, R255, R266) and of a Gingham lane (R347, R349): scrambler and test
sequences, markers, frames, what a lane sends where no packet is due; and the back-channel's wire (R252).
-/
namespace Sys2Proof.Machine

/-! ## Sequences and symbols -/

/-- A shift register of n bits with the polynomial x^n + x^t + 1: its next output bit, shifted in at bit 0, and the register
after it (R238; the test sequences are read in the same way, log entry 43). -/
def shiftStep (n t r : Nat) : Nat × Nat :=
  let o := (r / 2 ^ (n - 1) + r / 2 ^ (t - 1)) % 2
  (o, (2 * r + o) % 2 ^ n)

/-- The scrambler's next output bit and register (R238). -/
def scramble (r : Nat) : Nat × Nat := shiftStep 31 28 r

/-- The next k bits of a sequence. -/
def sequenceBits (n t : Nat) : Nat → Nat → List Nat
  | 0, _ => []
  | k + 1, r => (shiftStep n t r).1 :: sequenceBits n t k (shiftStep n t r).2

/-- Gray value of a dibit (R238 step 3). -/
def grayOf (d : Nat) : Nat := [0, 1, 3, 2].getD d 0

/-- Bits two per symbol, Gray-mapped, not precoded (R255); a symbol that `hit` names has its Gray value XORed with 1 (R267). -/
def bitSymbols (hit : Nat → Bool) : Nat → List Nat → List Nat
  | i, a :: b :: l => (grayOf (a + 2 * b) ^^^ b2n (hit i)) :: bitSymbols hit (i + 1) l
  | _, _ => []

/-- No symbol is injected. -/
def noHit (_ : Nat) : Bool := false

/-- Which symbols an injection hits, counted from its selection: kind, burst and rate exponent (R267). -/
def injectHits (kind burst k i : Nat) : Bool :=
  if kind = 1 then i = 0 else if kind = 2 then decide (i < burst) else if kind = 3 then decide ((i + 1) % 2 ^ k = 0) else false

/-! ## Markers (Table 11.2) -/

def sop : List Nat := [3, 0, 0, 3, 3, 3, 0, 3, 0, 0, 0, 3, 3, 0, 3, 0]
def idlePair : List Nat := [0, 3]
def idleRun (n : Nat) : List Nat := (List.range n).map (fun i => if i % 2 = 0 then 0 else 3)
def dsk : List Nat := (sequenceBits 7 6 64 127).map (3 * ·)

/-! ## Frames on lanes (R238, R241, R244, R347) -/

/-- CRC-32 of IEEE 802.3 (R244). -/
def crc32 (d : Bytes) : Nat := d.foldl (crcByte 0xEDB88320) 0xFFFFFFFF ^^^ 0xFFFFFFFF

/-- Dibits of a byte, bits 1:0 first (R238 step 1). -/
def dibits (b : Byte) : List Nat := (List.range 4).map (fun i => bits b.toNat (2 * i) 2)

/-- Levels of a run of dibits: scrambled, mapped, injected where `hit` says (R267), precoded (R238). -/
def levelsOf (precode : Bool) (hit : Nat → Bool) : Nat → Nat → Nat → List Nat → List Nat
  | _, _, _, [] => []
  | i, r, y, d :: ds =>
    let (o0, r1) := scramble r
    let (o1, r2) := scramble r1
    let x := grayOf (d ^^^ (o0 + 2 * o1)) ^^^ b2n (hit i)
    let y' := if precode then (x + 4 - y) % 4 else x
    y' :: levelsOf precode hit (i + 1) r2 y' ds

/-- Bytes that port lane k of a w-lane port carries (R241). -/
def laneBytes (w k : Nat) (b : Bytes) : Bytes := ((keyed 0 b).filter (fun p => p.1 % w = k)).map Prod.snd

/-- Symbols of one port lane's share of a packet, SOP first. -/
def laneSymbols (precode : Bool) (hit : Nat → Bool) (w k : Nat) (b : Bytes) : List Nat :=
  sop ++ levelsOf precode hit 0 (0x7FFFFFFF ^^^ (k * 2 ^ 24)) 0 ((laneBytes w k b).flatMap dibits)

/-- The two lanes' symbols of a Gingham frame: header, padded payload and CRC-32, SOP first, always precoded (R347). -/
def gngWire (b : Bytes) : List (List Nat) := [0, 1].map (fun k => laneSymbols true noHit 2 k (b ++ toLE 4 (crc32 b)))

/-- Levels of the TICK marker (R349). -/
def tickLevels : List Nat := [3, 3, 0, 0, 3, 0, 3, 0, 0, 3, 0, 3, 3, 3, 0, 0]

/-! ## What a lane sends (R240, R255, R266) -/

/-- Length and tap of the test pattern's polynomial (R266). -/
def patternTaps (pattern : Nat) : Nat × Nat := if pattern = 1 then (7, 6) else if pattern = 2 then (15, 14) else (31, 28)

/-- The first 1024 symbols of a run: a training block is DSK and 960 symbols of the lane's PRBS15 (R255). -/
def runSymbols : LaneRun → List Nat
  | .off => []
  | .idle => idleRun 1024
  | .blocks seed => dsk ++ bitSymbols noHit 0 (sequenceBits 15 14 1920 seed)
  | .spaced => dsk ++ idleRun 960
  | .slots => dsk ++ idleRun 960
  | .prbs pattern seed kind burst k =>
    let (n, t) := patternTaps pattern
    bitSymbols (injectHits kind burst k) 0 (sequenceBits n t 2048 seed)

/-- A nonzero register of n bits that the spec leaves open. -/
def openSeed (n : Nat) (s : State) : Nat := freeNow s % (2 ^ n - 1) + 1

/-- A global lane begins a run. -/
def setRun (lane : Nat) (run : LaneRun) (s : State) : State :=
  if mget .off s.twl.runs lane = run then s
  else emit [.twillRun lane run (runSymbols run)] { s with twl := { s.twl with runs := mput .off lane run s.twl.runs } }

/-- Traffic of an ACTIVE lane: DSK in every slot, or every 1024 symbols before the first tick (R240). -/
def liveRun (s : State) : LaneRun := if s.tmg.running then .slots else .spaced

def groupAt (s : State) (g : Nat) : Group := mget {} s.twl.groups g

def setGroup (g : Nat) (v : Group) (s : State) : State :=
  { s with twl := { s.twl with groups := mput {} g v s.twl.groups } }

/-- The nine physical lanes of a group (R235). -/
def groupLanes (g : Nat) : List Nat := (List.range 9).map (9 * g + ·)

/-- The group's reference starts, and with it IDLE on its lanes (R255). -/
def startReference (g : Nat) (s : State) : State :=
  if (groupAt s g).reference then s
  else forAll ((groupLanes g).filter (fun l => mget .off s.twl.runs l = .off)) (fun l => setRun l .idle)
    (emit [.twillReference g true] (setGroup g { groupAt s g with reference := true } s))

/-- The group's reference and all its lanes stop (R262). -/
def stopReference (g : Nat) (s : State) : State :=
  forAll (groupLanes g) (fun l => setRun l .off)
    (emit [.twillReference g false] (setGroup g { groupAt s g with reference := false, stopDue := false } s))

/-- One group leaves quiet: its reference runs again, and DSK and IDLE follow from the next LT (R263). -/
def restartGroup (g : Nat) (s : State) : State :=
  let gr := groupAt s g
  let s1 := setGroup g { gr with quiet := false, stopDue := false, reference := true, restarting := !gr.reference } s
  if gr.reference then s1 else emit [.twillReference g true] s1

/-- Quiet ends: every quiet group restarts and its ports return to ACTIVE at once (R263). -/
def endQuiet (s : State) : State :=
  let gs := (s.twl.groups.filter (fun p => p.2.quiet)).map Prod.fst
  if gs.isEmpty then s
  else
    let s1 := forAll gs restartGroup s
    { s1 with twl := { s1.twl with restarted := some s1.tmg.slot
                                   ports := mmap {} (fun _ p => if p.state = .quiet then { p with state := .active } else p) s1.twl.ports } }

/-- The schedule has changed while groups are quiet: quiet ends, but with FIXED 1 only at its own LT (R263). -/
def endQuietEarly (s : State) : State := if tFixed s.conf then s else endQuiet s

/-- Levels packed four to a byte, the first in bits 1:0 (R265). -/
def packLevels : List Nat → Bytes
  | a :: b :: c :: d :: r => BitVec.ofNat 8 (a + 4 * b + 16 * c + 64 * d) :: packLevels r
  | [] => []
  | r => [BitVec.ofNat 8 (r.getD 0 0 + 4 * r.getD 1 0 + 16 * r.getD 2 0)]

/-- The CRC-32 of a packet's levels on one lane, from the first symbol of SOP to the last CRC symbol (R244, R265). -/
def levelsCrc (l : List Nat) : Nat := crc32 (packLevels l)

/-! ## The back-channel's wire (R252) -/

/-- One step of the back-channel's CRC-16. -/
def crc16Bit (c : Nat) : Nat := if 0x8000 ≤ c then (2 * c % 65536) ^^^ 0x1021 else 2 * c

/-- CRC-16 of R252. -/
def crc16 (d : Bytes) : Nat :=
  d.foldl (fun c b => (List.range 8).foldl (fun x _ => crc16Bit x) (c ^^^ (256 * b.toNat))) 0xFFFF

/-- A frame from its DST byte to its payload (R252): the Hexaz is address 8. -/
def bcBody (dst type : Nat) (payload : Bytes) : Bytes :=
  toLE 1 (dst + 16 * 8) ++ toLE 1 type ++ toLE 1 payload.length ++ payload

/-- Bits of a frame on the wire: the preamble of 16 alternating bits, then each byte least significant bit first. -/
def bcBits (body : Bytes) : List Bool :=
  (List.range 16).map (fun i => decide (i % 2 = 0))
    ++ (0xD5 :: body ++ toLE 2 (crc16 body)).flatMap (fun b => (List.range 8).map (fun i => b.getLsbD i))

/-- Manchester code: a 1 is low in the first half of its bit and high in the second, a 0 the reverse. -/
def manchester (l : List Bool) : List Bool := l.flatMap (fun b => [!b, b])

/-- A frame on the wire: its level, high or low, in each half bit. -/
def bcWire (body : Bytes) : List Bool := manchester (bcBits body)

end Sys2Proof.Machine
end

