-- ==== Sys2Proof/Machine/Staging.lean ====
section
/-!
DEFINITION. Staging and arming (R91 to R93, R436, R442), the setup lock (R437) and the live registers (R434).
-/
namespace Sys2Proof.Machine

/-- What validation looks at besides the configuration. -/
def worldOf (s : State) : World := { written := s.mem.written, loaded := !s.cue.buffers.isEmpty }

/-! ## Setup lock -/

/-- Setting LOCK (R91, R437): arm the setup set for F + 2, or reject it. -/
def lockSetup (s : State) : State :=
  let n := s.sys.fe + 2
  let conf := { s.conf with setup := { s.conf.setup with armed := some n } }
  match validateArm (worldOf s) conf n with
  | none => { s with sys := { s.sys with lock := true, rejected := false }, conf }
  | some f => post 0x0005 2 [f.status, f.r0, f.r1]
      { s with sys := { s.sys with lock := true, rejected := true }, conf := { s.conf with setup := {} } }

/-- A write to SYS_SETUP_LOCK: only a 1 while LOCK is 0 acts, and none while the recovery monitor runs (R437). -/
def writeLock (v : Word) (s : State) : State :=
  if wbit v 0 && !s.sys.lock && s.sys.stage ≠ .recovery then lockSetup s else s

/-- SYS_SETUP_LOCK_WRITE (R437). -/
def execSysSetupLockWrite (value : Word) (s : State) : Answer := hostOp (writeLock value) s

/-- HIF_BAR4_BASE_WRITE (R67): it applies to every BAR4 request received after it. -/
def execHifBar4BaseWrite (value : Word) (s : State) : Answer :=
  hostOp (fun s => { s with conf := putLive 0x010008 value s.conf }) s

/-- SYS_GPIO_OUT_WRITE (R434, R438). -/
def execSysGpioOutWrite (value : Word) (s : State) : Answer :=
  hostOp (fun s => { s with conf := putLive 0x000020 value s.conf }) s

/-- CUE_SIGNAL_WRITE (R434): a condition sees it from the next LT (R283). -/
def execCueSignalWrite (value : Word) (s : State) : Answer :=
  hostOp (fun s => { s with conf := putLive 0x0c000c value s.conf }) s

/-- A write to PWR_BRACE: CAP is live, COUNT takes the value at once (Table 2.7, Table 20.3). -/
def writeBrace (v : Word) (s : State) : State :=
  { s with conf := putLive 0x150004 v s.conf, pwr := { s.pwr with braceCount := wbits v 8 16 } }

/-- PWR_BRACE_WRITE (Table 20.3). -/
def execPwrBraceWrite (value : Word) (s : State) : Answer := hostOp (writeBrace value) s

/-! ## Commands of staging -/

/-- Slot that SET_TABLE writes: the setup set before lock, else a stage slot. -/
def stageTarget (s : State) (n : Nat) : Slot := if s.sys.lock then slotOf s.conf n else s.conf.setup

/-- Put bytes into a staged table. -/
def stageBytes (s : State) (n id off : Nat) (d : Bytes) : Conf :=
  let sl := stageTarget s n
  let sl' := { sl with tbl := aputAll (keyed (1048576 * id + off) d) sl.tbl }
  if s.sys.lock then setSlot n sl' s.conf else { s.conf with setup := sl' }

/-- Data of SET_TABLE: what was read, or a status with results (R442 steps 3 and 4). -/
def tableData (s : State) (raw : Bytes) (data : Rd) : Except (Nat × List Nat) Bytes :=
  let len := fieldAt raw 0x28 4
  let src := fieldAt raw 0x20 8
  if fieldAt raw 0x34 4 = 1 then
    if (firstProtected s src len).isSome then .error (NOT_PERMITTED, [0x20])
    else match firstPoisoned s src len with
      | some d => .error (MEM_UNCORRECTABLE, memFail (src + d))
      | none => .ok (readMem s src len)
  else if data.ok && len ≤ data.bytes.length then .ok (data.bytes.take len)
  else .error (DMA_ERROR, [min len data.bytes.length])

/-- The entries of a STAGE_CONFIG list: offset and value (R92). -/
def listEntries (d : Bytes) : Nat → List (Nat × Word)
  | 0 => []
  | n + 1 => (fieldAt d 0 4, BitVec.ofNat 32 (fieldAt d 4 4)) :: listEntries (d.drop 8) n

/-- The first entry that names no RWL register, or that takes the slot past 4096 entries (R436, R92). -/
def firstBadEntry (regs : List (Nat × Word)) : List (Nat × Word) → Nat → Option Nat
  | [], _ => none
  | (o, v) :: r, i =>
    if o % 4 ≠ 0 || rwlMask o = 0 || 4096 < (aput o v regs).length then some i
    else firstBadEntry (aput o v regs) r (i + 1)

/-- STAGE_CONFIG (R92, R436). -/
def execStageConfig (sq : Nat) (data : Rd) (s : State) : Answer :=
  runRead .pf0 sq 0x11 data (fun r s =>
    let n := fieldAt r.raw 0x18 4 % 4
    let count := fieldAt r.raw 0x28 4
    let sl := slotOf s.conf n
    if sl.armed.isSome then finish .pf0 sq r STAGE_ARMED [] s
    else if !data.ok || data.bytes.length < 8 * count then
      finish .pf0 sq r DMA_ERROR [min (8 * count) data.bytes.length] s
    else
      let base : Slot := if bit (fieldAt r.raw 0x18 4) 8 then {} else sl
      let l := listEntries data.bytes count
      match firstBadEntry base.regs l 0 with
      | some i => finish .pf0 sq r BAD_PARAM [i] s
      | none =>
        let sl' := { base with regs := aputAll l base.regs }
        finish .pf0 sq r SUCCESS [sl'.regs.length] { s with conf := setSlot n sl' s.conf }) s

/-- Arm the slots of a mask for an FE (R92). -/
def armSlots (mask : List Nat) (fe : Option Nat) (c : Conf) : Conf :=
  mask.foldl (fun c i => setSlot i { slotOf c i with armed := fe } c) c

/-- Wall slots of GNG_CTRL.WALL_SLOTS (R356). -/
def wallSlots (c : Conf) : List Nat := bitList (fget c GNG_CTRL_WALL_SLOTS) 4

/-! ## Gingham frames (Table 16.1), which a wall arm floods -/

def tileIndex (c : Conf) : Nat := 8 * fget c GNG_TILE_Y + fget c GNG_TILE_X

def gngPort (s : State) (p : Nat) : GngPort := mget {} s.gng.ports p

/-- The tile of a losing part takes the winner's timekeeper at the FT to come: one that the winner's marker made, or the first
FT of a tile that joins (R350, R363). -/
def adoptsNow (s : State) : Bool := s.gng.adopt.isSome && (s.tmg.fresh || s.gng.byMarker || !(hasTiming s.conf))

/-- The FE of the frame to come: the next one, or the one that a part's winner has (R38, R363). -/
def nextFe (s : State) : Nat :=
  match adoptsNow s, s.gng.adopt with
  | true, some (_, fe) => (match (gngPort s s.gng.upstream).hello with | some h => h.2.fe + 1 | none => fe + 1)
  | _, _ => s.sys.fe + 1

/-! ## The configuration of the frame to come -/

/-- The configuration without arms that will not take effect: a wall arm takes effect only with its commit (R356). -/
def committedConf (s : State) : Conf :=
  (s.gng.arms.filter (fun a => a.kind = 0 && !a.committed)).foldl (fun c a => armSlots (bitList a.slots 4) none c) s.conf

/-- The configuration in force for FE n (R92). -/
def confFor (s : State) (n : Nat) : Conf :=
  let c := committedConf s
  if (armedFes c).any (· ≤ n) then confAfter c (· ≤ n) else s.conf

/-- The configuration of the frame to come. -/
def comingConf (s : State) : Conf := confFor s (nextFe s)

/-- Ports that are up, in the order N, E, S, W. -/
def upPorts (s : State) : List Nat := (List.range 4).filter (fun p => (gngPort s p).state = .up)

/-- Header and payload of a frame that this tile originates. -/
def gngBytes (s : State) (type flood : Nat) (payload : Bytes) : Bytes :=
  toLE 1 type ++ toLE 1 (tileIndex s.conf) ++ toLE 1 flood ++ toLE 1 (mget 0 s.gng.mySeq type)
    ++ toLE 2 payload.length ++ toLE 2 0 ++ payload ++ List.replicate ((4 - payload.length % 4) % 4) 0

/-- Send one message of this tile's own on given ports. -/
def gngSend (ports : List Nat) (type flood : Nat) (payload : Bytes) (s : State) : State :=
  { s with out := (ports.map (fun p => Output.gngFrame p (gngWire (gngBytes s type flood payload)))).reverse ++ s.out
           gng := { s.gng with mySeq := mput 0 type ((mget 0 s.gng.mySeq type + 1) % 256) s.gng.mySeq } }

/-- Flood a message on every up port (R349). -/
def gngFlood (type : Nat) (payload : Bytes) (s : State) : State := gngSend (upPorts s) type 1 payload s

/-- ARM payload (Table 16.2). -/
def armPayload (id kind mask fe : Nat) (body : Bytes) : Bytes :=
  toLE 4 id ++ toLE 1 kind ++ toLE 1 mask ++ toLE 8 fe ++ body

/-- Id of the next ARM of this tile: its tile index above a count, so that no two tiles give the same one (log entry 17). -/
def nextArmId (s : State) : Nat := s.gng.nextId + 2 ^ 26 * tileIndex s.conf

/-- Begin a wall arm as its originator (R356 step 1): flood ARM, hold the command until the exchange ends. -/
def beginWallArm (sq : Nat) (r : Running) (kind mask fe cls : Nat) (body : Bytes) (s : State) : State :=
  let id := nextArmId s
  let a : WallArm := { id, kind, slots := mask, fe, body, ring := some sq, acks := [(tileIndex s.conf, SUCCESS, cls)] }
  holdRunning .pf0 sq r id (gngFlood 0x05 (armPayload id kind mask fe body)
    { s with gng := { s.gng with arms := s.gng.arms ++ [a], nextId := (s.gng.nextId + 1) % 2 ^ 26 } })

/-- Drop a wall arm and disarm the slots it armed (R357). -/
def dropWallArm (a : WallArm) (s : State) : State :=
  { s with gng := { s.gng with arms := s.gng.arms.filter (fun b => b.id ≠ a.id) }
           conf := if a.kind = 0 then armSlots (bitList a.slots 4) none s.conf else s.conf }

/-! ## ARM_CONFIG -/

/-- ARM_CONFIG without CANCEL (R92), and for wall slots the exchange of R356. DESIGN CHOICE 35: an arm that comes too near is
ARM_LATE whether or not it names an armed slot. -/
def armConfig (sq : Nat) (r : Running) (s : State) : State :=
  let mask := bitList (fieldAt r.raw 0x18 4 % 16) 4
  let wall := mask.filter (fun i => (wallSlots s.conf).contains i)
  let isWall := fbit s.conf GNG_CTRL_EN && !wall.isEmpty
  if isWall && wall.length ≠ mask.length then finish .pf0 sq r BAD_PARAM [0x18] s
  else match armFe s.sys.fe (fieldAt r.raw 0x20 8) (if isWall then 4 else 2) with
    | none => finish .pf0 sq r ARM_LATE [] s
    | some n =>
      if mask.any (fun i => (slotOf s.conf i).armed.isSome) then finish .pf0 sq r STAGE_ARMED [] s
      else
        let conf := armSlots mask (some n) s.conf
        match validateArm (worldOf s) conf n with
        | some f => finish .pf0 sq r f.status [f.r0, f.r1] s
        | none =>
          let cls := classNum (armClass conf n)
          if isWall then beginWallArm sq r 0 (fieldAt r.raw 0x18 4 % 16) n cls [] { s with conf }
          else finish .pf0 sq r SUCCESS (cls :: lohi n) { s with conf }

/-- Wall arms that cover an armed slot of a mask. -/
def wallArmsOf (s : State) (mask : List Nat) : List WallArm :=
  s.gng.arms.filter (fun a => a.kind = 0 && mask.any (fun i => bit a.slots i))

/-- Opcode of the command that a wall arm runs. -/
def armOpcode (a : WallArm) : Nat := if a.kind = 0 then 0x12 else if a.kind = 1 then 0x41 else 0x42

/-- Wall arms end without their commit: this tile disarms, and the command of its own exchange completes with ARM_LATE at a
tile (R357, log entry 17). -/
def endArms (l : List WallArm) (tile : Nat) (s : State) : State :=
  forAll l (fun a s => finishAll .pf0 a.ring.toList (armOpcode a) ARM_LATE [tile] (dropWallArm a s)) s

/-- ARM_CONFIG with CANCEL (R92); for armed wall slots it floods ARM_ABORT and needs n ≥ F + 3 (R357). -/
def cancelConfig (sq : Nat) (r : Running) (s : State) : State :=
  let mask := (bitList (fieldAt r.raw 0x18 4 % 16) 4).filter (fun i => (slotOf s.conf i).armed.isSome)
  let walls := wallArmsOf s mask
  let late := mask.any (fun i => match (slotOf s.conf i).armed with
    | some n => n < s.sys.fe + 2 || (walls.any (fun a => bit a.slots i) && n < s.sys.fe + 3)
    | none => false)
  let conf := armSlots (mask ++ walls.flatMap (fun a => bitList a.slots 4)) none s.conf
  if mask.isEmpty then finish .pf0 sq r SUCCESS [0] s
  else if late then finish .pf0 sq r ARM_LATE [] s
  else match validateRest (worldOf s) conf with
    | some f => finish .pf0 sq r f.status [f.r0, f.r1] s
    | none =>
      finish .pf0 sq r SUCCESS [ofBits mask]
        (walls.foldl (fun s a => gngFlood 0x08 (toLE 4 a.id) s) (endArms walls (tileIndex s.conf) { s with conf }))

/-- ARM_CONFIG_CANCEL (R92, R357). -/
def execArmConfigCancel (sq : Nat) (s : State) : Answer :=
  runRing .pf0 sq 0x12 (fun r s => if bit (fieldAt r.raw 0x18 4) 8 then cancelConfig sq r s else s) s

end Sys2Proof.Machine
end

