-- ==== Sys2Proof/Machine/Rings.lean ====
section
/-!
DEFINITION. The rings (R74 to R89, R440, R441): their registers, the doorbells, the fetch arbiter, holdoff and MSI-X.
-/
namespace Sys2Proof.Machine

/-! ## Numbers and names -/

/-- Rings of a kind that a function has (Tables 4.1, 20.2). -/
def ringCount : Fn → Nat
  | .pf0 => 64
  | .pf1 => 8

def cqKey (fn : Fn) (m : Nat) : Nat := 64 * fnIdx fn + m

def kindOf (v : Nat) : RingKind := [.frame, .cmd, .cueLoad, .invalid].getD v .invalid

def kindNum : RingKind → Nat
  | .frame => 0
  | .cmd => 1
  | .cueLoad => 2
  | .invalid => 3

/-- Completion record of a descriptor that ends outside its meaning: refused at fetch, replaced or aborted. -/
def candDone (c : Cand) (status : Nat) (res : List Nat) (s : State) : State :=
  postRec c.cq { type := 4, status, sq := c.sq, slot := c.slot, tag := userTag c.raw, irq := hasIrq c.raw
                 r0 := res.getD 0 0, r1 := res.getD 1 0, r2 := res.getD 2 0, r3 := res.getD 3 0 } s

/-- Reserve one place on a completion ring (R86). -/
def reserve (key n : Nat) (s : State) : State :=
  let c := cqAt s.rings key
  { s with rings := setCq key { c with reserved := c.reserved + n } s.rings }

/-! ## Ring registers -/

/-- The first rule that an enable breaks (R75): P1 of RING_CONFIG_ERROR. -/
def enableFault (s : State) (fn : Fn) (n : Nat) (kind : RingKind) (cq : Nat) : Option Nat :=
  let second := (List.range 64).any (fun m => m ≠ n && (sqOf s.rings .pf0 m).enable && (sqOf s.rings .pf0 m).kind = .frame)
  if kind = .invalid || (fn = .pf1 && kind ≠ .cmd) then some 3
  else if fn = .pf0 && kind = .frame && second then some 1
  else if ringCount fn ≤ cq || !(cqAt s.rings (cqKey fn cq)).enable then some 2
  else none

/-- An event about a function's own rings goes to that function's event ring (log entry 5). -/
def postFn (fn : Fn) (code sev : Nat) (p : List Nat) (s : State) : State :=
  postTo fn { code, sev, fe := s.sys.fe, p0 := p.getD 0 0, p1 := p.getD 1 0, p2 := p.getD 2 0 } s

/-- Disable a submission ring (R76): fetched frame descriptors not yet latched complete ABORTED, in ring order; a command
in progress runs on, one that an earlier kind of the ring began included; nothing further is fetched. -/
def disableSq (fn : Fn) (n : Nat) (s : State) : State :=
  let q := sqOf s.rings fn n
  let s1 := { s with rings := setSq fn n { q with enable := false, stopped := false } s.rings }
  if fn = .pf0 && q.kind = .frame then
    let mine := s1.ing.cands.filter (fun c => c.sq = n)
    let fetched := q.running.filter (fun r => opcode r.raw = 0x01)
    let last := match fetched with
      | some r => [({ sq := n, slot := r.slot, cq := r.cq, raw := r.raw } : Cand)]
      | none => []
    let s2 := { s1 with ing := { s1.ing with cands := s1.ing.cands.filter (fun c => c.sq ≠ n) } }
    forAll (mine ++ last) (fun c s => candDone c ABORTED [] s) (if fetched.isSome then setRunning fn n none s2 else s2)
  else s1

/-- A write to SQ_CFG (R75, R76, Table 4.2). -/
def writeSqCfg (fn : Fn) (n : Nat) (v : Word) (s : State) : State :=
  let q := sqOf s.rings fn n
  let q1 := { q with error := q.error && !(wbit v 30) }
  if q.enable then
    let s1 := { s with rings := setSq fn n q1 s.rings }
    if wbit v 31 then s1 else disableSq fn n s1
  else
    let q2 := { q1 with log2 := ringLog2 (wbits v 0 5), kind := kindOf (wbits v 5 2), cq := wbits v 7 6 }
    if wbit v 31 then
      match enableFault s fn n q2.kind q2.cq with
      | some p1 => postFn fn 0x0202 1 [n, p1] { s with rings := setSq fn n q2 s.rings }
      | none => { s with rings := setSq fn n { q2 with enable := true, head := 0, tail := 0, stopped := false } s.rings }
    else { s with rings := setSq fn n q2 s.rings }

/-- A write to CQ_CFG (R76, R86, Table 4.3). -/
def writeCqCfg (fn : Fn) (m : Nat) (v : Word) (s : State) : State :=
  let key := cqKey fn m
  let c := cqAt s.rings key
  if c.enable then
    if wbit v 31 then s else { s with rings := setCq key { c with enable := false } s.rings }
  else
    let c1 := { c with log2 := ringLog2 (wbits v 0 5)
                       vector := if fn = .pf1 then min 31 (wbits v 5 8) else wbits v 5 8
                       irqMode := min 2 (wbits v 13 2), holdoff := wbits v 16 8 }
    if wbit v 31 then
      flushCq key { s with rings := setCq key { c1 with enable := true, head := 0, tail := 0, phase := true, held := false } s.rings }
    else { s with rings := setCq key c1 s.rings }

/-- The event ring's registers after a write to EQ_CFG (R76, Table 4.3): its new state and whether it was just enabled. -/
def eqCfg (fn : Fn) (v : Word) (e : Eq) : Eq × Bool :=
  if e.enable then
    if wbit v 31 then (e, false) else ({ e with enable := false }, false)
  else
    let e1 := { e with log2 := ringLog2 (wbits v 0 5)
                       vector := if fn = .pf1 then min 31 (wbits v 5 8) else wbits v 5 8
                       irqMode := min 2 (wbits v 13 2), holdoff := wbits v 16 8 }
    if wbit v 31 then ({ e1 with enable := true, head := 0, tail := 0, phase := true, lost := 0, held := false }, true)
    else (e1, false)

/-- A write to EQ_CFG: enabling it writes the held events (R441). -/
def writeEqCfg (fn : Fn) (v : Word) (s : State) : State :=
  let (e, fresh) := eqCfg fn v (eqOf s.rings fn)
  let s1 := { s with rings := setEq fn e s.rings }
  if fresh then flushEq fn s1 else s1

/-- A write to the CFG register of trace ring T1 or T2, which has an event ring's layout (R386). -/
def writeTraceCfg (second : Bool) (v : Word) (s : State) : State :=
  if second then { s with rings := { s.rings with t2 := (eqCfg .pf1 v s.rings.t2).1 } }
  else { s with rings := { s.rings with t1 := (eqCfg .pf1 v s.rings.t1).1 } }

/-- A base address after a write of one of its halves: 4 KiB aligned (R74, Table 4.1). -/
def writeBase (hi : Bool) (v : Word) (b : Nat) : Nat :=
  if hi then b % 2 ^ 32 + v.toNat * 2 ^ 32 else b / 2 ^ 32 * 2 ^ 32 + v.toNat / 4096 * 4096

/-- A write to a register of the ring block, at an offset from its start (Table 4.1); RO and other offsets drop it. -/
def writeRing (fn : Fn) (off : Nat) (v : Word) (s : State) : State :=
  let r := off % 0x20
  let bw (e : Bool) (b : Nat) := if e || 4 < r then b else writeBase (r = 4) v b
  if off < 0x20 * ringCount fn then
    let n := off / 0x20
    let q := sqOf s.rings fn n
    if r = 8 then writeSqCfg fn n v s
    else { s with rings := setSq fn n { q with base := bw q.enable q.base } s.rings }
  else if 0x800 ≤ off && off < 0x800 + 0x20 * ringCount fn then
    let m := (off - 0x800) / 0x20
    let c := cqAt s.rings (cqKey fn m)
    if r = 8 then writeCqCfg fn m v s
    else { s with rings := setCq (cqKey fn m) { c with base := bw c.enable c.base } s.rings }
  else if 0x1000 ≤ off && off < 0x1020 then
    let e := eqOf s.rings fn
    if r = 8 then writeEqCfg fn v s else { s with rings := setEq fn { e with base := bw e.enable e.base } s.rings }
  else if fn = .pf1 && 0x1020 ≤ off && off < 0x1040 then
    if r = 8 then writeTraceCfg false v s
    else { s with rings := { s.rings with t1 := { s.rings.t1 with base := bw s.rings.t1.enable s.rings.t1.base } } }
  else if fn = .pf1 && 0x1040 ≤ off && off < 0x1060 then
    if r = 8 then writeTraceCfg true v s
    else { s with rings := { s.rings with t2 := { s.rings.t2 with base := bw s.rings.t2.enable s.rings.t2.base } } }
  else s

/-- SQ_CFG as it reads (Table 4.2). -/
def readSqCfg (q : Sq) : Word :=
  BitVec.ofNat 32 (q.log2 + 32 * kindNum q.kind + 128 * q.cq + 2 ^ 30 * b2n q.error + 2 ^ 31 * b2n q.enable)

/-- CQ_CFG and EQ_CFG as they read (Table 4.3). -/
def readCqCfg (log2 vector irq hold : Nat) (en : Bool) : Word :=
  BitVec.ofNat 32 (log2 + 32 * vector + 8192 * irq + 65536 * hold + 2 ^ 31 * b2n en)

/-- One register of an event ring or a trace ring. -/
def readEqReg (e : Eq) (r : Nat) : Word :=
  if r = 0 then BitVec.ofNat 32 e.base
  else if r = 4 then BitVec.ofNat 32 (e.base / 2 ^ 32)
  else if r = 8 then readCqCfg e.log2 e.vector e.irqMode e.holdoff e.enable
  else if r = 0x0C then BitVec.ofNat 32 e.head
  else if r = 0x10 then BitVec.ofNat 32 (e.tail + 65536 * b2n e.phase)
  else if r = 0x14 then BitVec.ofNat 32 e.lost
  else 0

/-- A read of a register of the ring block (Tables 4.1, 20.2). -/
def readRing (s : State) (fn : Fn) (off : Nat) : Word :=
  let r := off % 0x20
  if off < 0x20 * ringCount fn then
    let q := sqOf s.rings fn (off / 0x20)
    if r = 0 then BitVec.ofNat 32 q.base
    else if r = 4 then BitVec.ofNat 32 (q.base / 2 ^ 32)
    else if r = 8 then readSqCfg q
    else if r = 0x0C then BitVec.ofNat 32 q.head
    else if r = 0x10 then BitVec.ofNat 32 q.tail
    else 0
  else if 0x800 ≤ off && off < 0x800 + 0x20 * ringCount fn then
    let c := cqAt s.rings (cqKey fn ((off - 0x800) / 0x20))
    if r = 0 then BitVec.ofNat 32 c.base
    else if r = 4 then BitVec.ofNat 32 (c.base / 2 ^ 32)
    else if r = 8 then readCqCfg c.log2 c.vector c.irqMode c.holdoff c.enable
    else if r = 0x0C then BitVec.ofNat 32 c.head
    else if r = 0x10 then BitVec.ofNat 32 (c.tail + 65536 * b2n c.phase)
    else 0
  else if 0x1000 ≤ off && off < 0x1020 then readEqReg (eqOf s.rings fn) r
  else if fn = .pf1 && 0x1020 ≤ off && off < 0x1040 then readEqReg s.rings.t1 r
  else if fn = .pf1 && 0x1040 ≤ off && off < 0x1060 then readEqReg s.rings.t2 r
  else 0

/-! ## Commands on the ring registers -/

/-- SQ_ENABLE (R75, R76): a write of `cfg` with ENABLE set to the ring's CFG register. -/
def execSqEnable (fn : Fn) (n : Nat) (cfg : Word) (s : State) : Answer :=
  hostOp (fun s => if n < ringCount fn then writeSqCfg fn n (cfg ||| 0x80000000#32) s else s) s

/-- SQ_DISABLE (R76). -/
def execSqDisable (fn : Fn) (n : Nat) (s : State) : Answer :=
  hostOp (fun s => if n < ringCount fn && (sqOf s.rings fn n).enable then disableSq fn n s else s) s

/-- SQ_ERROR_CLEAR (R434): a write of 1 to SQ_CFG.ERROR clears it at once. -/
def execSqErrorClear (fn : Fn) (n : Nat) (s : State) : Answer :=
  hostOp (fun s =>
    let r := setSq fn n { sqOf s.rings fn n with error := false } s.rings
    if n < ringCount fn then { s with rings := r } else s) s

/-- CQ_ENABLE (R76, R86). -/
def execCqEnable (fn : Fn) (m : Nat) (cfg : Word) (s : State) : Answer :=
  hostOp (fun s => if m < ringCount fn then writeCqCfg fn m (cfg ||| 0x80000000#32) s else s) s

/-- CQ_DISABLE (R76, R86): its store and its reserved places are kept. -/
def execCqDisable (fn : Fn) (m : Nat) (s : State) : Answer :=
  hostOp (fun s =>
    let off := setCq (cqKey fn m) { cqAt s.rings (cqKey fn m) with enable := false } s.rings
    { s with rings := if m < ringCount fn then off else s.rings }) s

/-- EQ_ENABLE (R76, R441). -/
def execEqEnable (fn : Fn) (cfg : Word) (s : State) : Answer :=
  hostOp (writeEqCfg fn (cfg ||| 0x80000000#32)) s

/-- EQ_DISABLE (R76, R441): later events are held. -/
def execEqDisable (fn : Fn) (s : State) : Answer :=
  hostOp (fun s => { s with rings := setEq fn { eqOf s.rings fn with enable := false } s.rings }) s

/-! ## Doorbells -/

/-- Offset of a submission doorbell as DOORBELL_INVALID reports it (Table 4.4; in PF1, within its BAR0). -/
def doorbellOffset (fn : Fn) (off : Nat) : Nat := match fn with | .pf0 => off | .pf1 => 0x20000 + off

/-- DOORBELL_INVALID on the function's own event ring. -/
def badDoorbell (fn : Fn) (off : Nat) (v : Word) (s : State) : State :=
  postFn fn 0x0201 1 [doorbellOffset fn off, v.toNat] s

/-- Is a new tail acceptable (R78)? -/
def tailOk (q : Sq) (t : Nat) : Bool :=
  let n := 2 ^ q.log2
  decide (t < n) && decide ((q.tail + n - q.head) % n + (t + n - q.tail) % n ≤ n - 1)

/-- Accept a transition (R39): SYS_MODE.TARGET and TRANSIT. -/
def beginTransit (m : Mode) (retain : Bool) (s : State) : State :=
  { s with sys := { s.sys with transit := some { target := m, retain } } }

/-- HOLD turns to LIVE for a frame descriptor that a doorbell added (Table 2.4, R263). -/
def toLive (s : State) : State :=
  if s.sys.mode = .hold && s.sys.transit.isNone then
    endQuietEarly { s with sys := { s.sys with transit := some { target := .live, byFrame := true } } }
  else s

/-- SUBMISSION_DOORBELL (R78, R81; Table 2.4 for a frame descriptor added in HOLD: while PF0's rings are not served it acts when
their service resumes, R69; log entry 25). -/
def ringSubmission (fn : Fn) (n : Nat) (v : Word) (s : State) : State :=
  let q := sqOf s.rings fn n
  let t := v.toNat % 65536
  if v.toNat / 65536 ≠ 0 || !q.enable || !(tailOk q t) then
    badDoorbell fn (8 * n) v { s with rings := setSq fn n { q with error := q.error || q.enable } s.rings }
  else
    let s1 := { s with rings := setSq fn n { q with tail := t, stopped := false } s.rings }
    if fn = .pf0 && q.kind = .frame && t ≠ q.tail && s.sys.mode = .hold then
      if served s .pf0 then toLive s1 else { s1 with hif := { s1.hif with rung := true } }
    else s1

/-- Is h′ from the current head to the current tail, going forward (R79)? -/
def headOk (log2 head tail h : Nat) : Bool :=
  decide (h < 2 ^ log2) && decide ((h + 2 ^ log2 - head) % 2 ^ log2 ≤ (tail + 2 ^ log2 - head) % 2 ^ log2)

/-- Completion head doorbell (R79); freed entries let stored records be written (R86). -/
def ringCompletion (fn : Fn) (m : Nat) (v : Word) (s : State) : State :=
  let key := cqKey fn m
  let c := cqAt s.rings key
  if v.toNat / 65536 ≠ 0 || !c.enable || !(headOk c.log2 c.head c.tail v.toNat) then badDoorbell fn (8 * m + 4) v s
  else flushCq key { s with rings := setCq key { c with head := v.toNat } s.rings }

/-- The ring a head doorbell addresses; PF0 has only the event ring. -/
def headRingOf (r : Rings) (fn : Fn) : HeadRing → Option Eq
  | .event => some (eqOf r fn)
  | .trace1 => if fn = .pf1 then some r.t1 else none
  | .trace2 => if fn = .pf1 then some r.t2 else none

def setHeadRing (fn : Fn) (w : HeadRing) (e : Eq) (r : Rings) : Rings :=
  match w with
  | .event => setEq fn e r
  | .trace1 => { r with t1 := e }
  | .trace2 => { r with t2 := e }

/-- Offset of a head doorbell (Tables 4.4, 20.2). -/
def headOffset : HeadRing → Nat
  | .event => 0x200
  | .trace1 => 0x204
  | .trace2 => 0x208

/-- Event or trace head doorbell (R79); freed entries let held events be written (R441). -/
def ringHead (fn : Fn) (w : HeadRing) (v : Word) (s : State) : State :=
  match headRingOf s.rings fn w with
  | none => s
  | some e =>
    if v.toNat / 65536 ≠ 0 || !e.enable || !(headOk e.log2 e.head e.tail v.toNat) then badDoorbell fn (headOffset w) v s
    else
      let s1 := { s with rings := setHeadRing fn w { e with head := v.toNat } s.rings }
      if w = .event then flushEq fn s1 else s1

/-- SUBMISSION_DOORBELL: a poisoned one is dropped (R72). -/
def execSubmissionDoorbell (fn : Fn) (n : Nat) (value : Word) (poisoned : Bool) (s : State) : Answer :=
  hostOp (fun s => if poisoned then aer fn AER_POISONED s else if ringCount fn ≤ n then s
    else trace1 0 (ringSubmission fn n value s)) s

/-- COMPLETION_HEAD_DOORBELL (R79). -/
def execCompletionHeadDoorbell (fn : Fn) (m : Nat) (value : Word) (poisoned : Bool) (s : State) : Answer :=
  hostOp (fun s => if poisoned then aer fn AER_POISONED s else if ringCount fn ≤ m then s
    else trace1 0 (ringCompletion fn m value s)) s

/-- EVENT_HEAD_DOORBELL (R79, R386). -/
def execEventHeadDoorbell (fn : Fn) (ring : HeadRing) (value : Word) (poisoned : Bool) (s : State) : Answer :=
  hostOp (fun s => if poisoned then aer fn AER_POISONED s else trace1 0 (ringHead fn ring value s)) s

/-! ## The fetch arbiter -/

/-- May the arbiter fetch from ring n now (R80, R82, R86, R96)? -/
def fetchable (s : State) (fn : Fn) (n : Nat) : Bool :=
  let q := sqOf s.rings fn n
  q.enable && !q.stopped && q.head ≠ q.tail && q.running.isNone
    && 0 < freePlaces (cqAt s.rings (cqKey fn q.cq))
    && !(q.kind = .frame && 8 ≤ s.ing.cands.length)
    && !(s.sys.stage = .recovery && n ≠ 0)

/-- Turn of the round robin for a function (R80). -/
def turnOf (r : Rings) : Fn → Nat
  | .pf0 => r.rr0
  | .pf1 => r.rr1

def setTurn (fn : Fn) (n : Nat) (r : Rings) : Rings :=
  match fn with
  | .pf0 => { r with rr0 := n }
  | .pf1 => { r with rr1 := n }

/-- The ring served next (R80): the FRAME ring first, then round robin by index. -/
def arbiter (s : State) (fn : Fn) : Option Nat :=
  let all := List.range (ringCount fn)
  let order := all.map (fun i => (turnOf s.rings fn + i) % ringCount fn)
  all.find? (fun n => (sqOf s.rings fn n).kind = .frame && fetchable s fn n) <|> order.find? (fetchable s fn)

/-- Record type of a descriptor that ends at its fetch: FRAME_DONE on the FRAME ring (R81). -/
def fetchType (k : RingKind) : Nat := if k = .frame then 4 else 1

/-- The checks of a fetched descriptor: R84, and in the recovery monitor every opcode but FW_UPDATE is refused (R369). -/
def fetchCheck (s : State) (fn : Fn) (kind : RingKind) (raw : Bytes) : Option (Nat × Nat) :=
  if s.sys.stage = .recovery && opcode raw ≠ 0x87 then some (NOT_PERMITTED, 0)
  else checkDescriptor s.sys.lock (zoneCount s.conf) fn kind raw

/-- A descriptor fetch asks a link that L0p has narrowed for its full width again (R60). -/
def askFullWidth (s : State) : State :=
  if s.hif.l0pWidth < s.hif.width then emit [.l0pRequest s.hif.width] { s with hif := { s.hif with wantFull := true } } else s

/-- Fetch one descriptor from ring n (R80 to R86). -/
def fetchFrom (fn : Fn) (n : Nat) (data : Rd) (s : State) : State :=
  let q := sqOf s.rings fn n
  let key := cqKey fn q.cq
  let rings1 := if q.kind = .frame then s.rings else setTurn fn ((n + 1) % ringCount fn) s.rings
  let s1 := askFullWidth (reserve key 1 { s with rings := rings1 })
  if !data.ok || data.bytes.length < 64 then
    postRec key { type := fetchType q.kind, status := FETCH_ERROR, sq := n, slot := q.head, tag := 0 }
      { s1 with rings := setSq fn n { q with error := true, stopped := true } s1.rings }
  else
    let raw := data.bytes.take 64
    let q1 := { q with head := (q.head + 1) % 2 ^ q.log2 }
    match fetchCheck s fn q.kind raw with
    | some (st, r0) =>
      postRec key { type := fetchType q.kind, status := st, sq := n, slot := q.head, tag := userTag raw
                    irq := hasIrq raw, r0 } { s1 with rings := setSq fn n q1 s1.rings }
    | none => { s1 with rings := setSq fn n { q1 with running := some { slot := q.head, cq := key, raw } } s1.rings }

/-- DESCRIPTOR_FETCH (R80). -/
def execDescriptorFetch (fn : Fn) (data : Rd) (s : State) : Answer :=
  .next (if canSend s fn then
    match arbiter s fn with
    | some n => trace1 0 (fetchFrom fn n data (reportRead fn data s))
    | none => s
  else s)

/-- FRAME (R26, R94, R96): the fetched frame descriptor becomes a candidate and nothing else happens. -/
def execFrame (sq : Nat) (s : State) : Answer :=
  .next (match (sqOf s.rings .pf0 sq).running with
    | some r =>
      if opcode r.raw = 0x01 && s.ing.cands.length < 8 then
        setRunning .pf0 sq none
          { s with ing := { s.ing with cands := s.ing.cands ++ [{ sq, slot := r.slot, cq := r.cq, raw := r.raw }] } }
      else s
    | none => s)

/-! ## Interrupts -/

/-- A message of completion ring `key` that is due when its holdoff ends: sent, or held until the function may send again,
unless MSI-X Enable is 0 (R88, R440). -/
def dueCq (key : Nat) (s : State) : State :=
  let c := cqAt s.rings key
  let fn := fnOfKey key
  if canSend s fn then withSent s (signalCq key (sentOf s))
  else if msixOn s.hif fn then
    { s with rings := setCq key { c with held := true } s.rings, hif := holdMsix fn c.vector s.hif }
  else s

/-- A message of a function's event ring that is due when its holdoff ends. -/
def dueEq (fn : Fn) (s : State) : State :=
  let e := eqOf s.rings fn
  if canSend s fn then withSent s (signalEq fn (sentOf s))
  else if msixOn s.hif fn then
    { s with rings := setEq fn { e with held := true } s.rings, hif := holdMsix fn e.vector s.hif }
  else s

/-- HOLDOFF_EXPIRY (R88): one message covers every record selected meanwhile, and starts the next holdoff. -/
def execHoldoffExpiry (ring : IrqRing) (s : State) : Answer :=
  .next (match ring with
  | .cq fn m =>
    let key := cqKey fn m
    let c := cqAt s.rings key
    let s1 := { s with rings := setCq key { c with hoActive := false, hoDue := false } s.rings }
    if c.hoActive && c.hoDue then dueCq key s1 else s1
  | .eq fn =>
    let e := eqOf s.rings fn
    let s1 := { s with rings := setEq fn { e with hoActive := false, hoDue := false } s.rings }
    if e.hoActive && e.hoDue then dueEq fn s1 else s1)

/-- No message is held while MSI-X Enable is 0 (R88). -/
def dropHeld (fn : Fn) (s : State) : State :=
  let b := 256 * fnIdx fn
  let cqs := mmap {} (fun k c => if fnOfKey k = fn then { c with held := false } else c) s.rings.cqs
  { s with rings := setEq fn { eqOf s.rings fn with held := false } { s.rings with cqs }
           hif := { s.hif with pba := mclear b (b + 256) s.hif.pba } }

/-- Set a mask or enable bit of MSI-X (R88); `open_` is true for the operation that lets messages through. -/
def setMsix (fn : Fn) (t : MsixTarget) (openIt : Bool) (h : Hif) : Hif :=
  match t, fn with
  | .enable, .pf0 => { h with msixOn0 := openIt }
  | .enable, .pf1 => { h with msixOn1 := openIt }
  | .function, .pf0 => { h with fmask0 := !openIt }
  | .function, .pf1 => { h with fmask1 := !openIt }
  | .vector v, fn =>
    if v < (match fn with | .pf0 => 256 | .pf1 => 32) then
      { h with unmasked := mput false (256 * fnIdx fn + v) openIt h.unmasked }
    else h

/-- The enable bit and the function mask stand in configuration space, a vector's mask in the MSI-X table. -/
def msixOp (fn : Fn) (t : MsixTarget) (f : State → State) (s : State) : Answer :=
  match t with
  | .vector _ => hostOp f s
  | .enable | .function => cfgOp fn f s

/-- Let a vector's messages through. -/
def unmask (fn : Fn) (t : MsixTarget) (s : State) : State := sendPending fn { s with hif := setMsix fn t true s.hif }

/-- Stop a vector's messages; clearing the enable bit drops what is held. -/
def mask (fn : Fn) (t : MsixTarget) (s : State) : State :=
  let s1 := { s with hif := setMsix fn t false s.hif }
  if t = .enable then dropHeld fn s1 else s1

/-- MSIX_UNMASK (R88): MSI-X Enable set, or the function or vector unmasked. -/
def execMsixUnmask (fn : Fn) (t : MsixTarget) (s : State) : Answer := msixOp fn t (unmask fn t) s

/-- MSIX_MASK (R88): MSI-X Enable cleared, or the function or vector masked. -/
def execMsixMask (fn : Fn) (t : MsixTarget) (s : State) : Answer := msixOp fn t (mask fn t) s

/-- BUS_MASTER_ENABLE_SET (R440): what waited goes on. -/
def execBusMasterEnableSet (fn : Fn) (s : State) : Answer :=
  cfgOp fn (fun s => flushAll { s with hif := match fn with
    | .pf0 => { s.hif with bme0 := true }
    | .pf1 => { s.hif with bme1 := true } }) s

/-- BUS_MASTER_ENABLE_CLEAR (R440): the function issues no request until it is set again. -/
def execBusMasterEnableClear (fn : Fn) (s : State) : Answer :=
  cfgOp fn (fun s => { s with hif := match fn with
    | .pf0 => { s.hif with bme0 := false }
    | .pf1 => { s.hif with bme1 := false } }) s

end Sys2Proof.Machine
end

