-- ==== Sys2Proof/Machine/Pixels.lean ====
section
/-!
DEFINITION. Steps 1 to 6 of Table 6.1: stored pixels, upscaling, blending and the colour stages (R117 to R131, R286).
-/
namespace Sys2Proof.Machine

/-- One pixel: three colour channels and alpha, each a c14 value (R118). -/
structure Px where
  r : Nat := 0
  g : Nat := 0
  b : Nat := 0
  a : Nat := 0
  deriving DecidableEq, Repr

/-- Channel c of a pixel: 0 R, 1 G, 2 B. -/
def Px.ch (p : Px) (c : Nat) : Nat := if c = 0 then p.r else if c = 1 then p.g else p.b

/-- Saturate to c14 (R118). -/
def sat14 (v : Int) : Nat := (clampI 0 16383 v).toNat

/-- An n-bit unsigned field as c14, n = 8, 10 or 12 (R123, R199). -/
def code14 (n c : Nat) : Nat := c * 2 ^ (14 - n) + (if 14 ≤ 2 * n then c / 2 ^ (2 * n - 14) else 0)

/-- A binary16 value as c14 (R123). -/
def half14 (w : Nat) : Nat :=
  let e := bits w 10 5
  let m := bits w 0 10
  if bit w 15 then 0
  else if e = 31 then (if m = 0 then 16383 else 0)
  else if 15 ≤ e then 16383
  else if e = 0 then roundDivN (m * 16383) (2 ^ 24)
  else roundDivN ((1024 + m) * 16383) (2 ^ (25 - e))

/-- Bytes of one plane 0 sample (Table 6.2). -/
def sampleBytes (format : Nat) : Nat := if format = 3 then 8 else if format = 4 then 2 else 4

/-- Bytes of a plane 0 row (Table 6.2); a chroma row has 2 × WIDTH bytes. -/
def rowBytes (l : Layer) : Nat := sampleBytes l.format * l.width

/-- Bytes of rows r0 to r1 − 1 of a layer, packed as R109 packs a band. -/
def packedBytes (l : Layer) (r0 r1 : Nat) : Nat :=
  (r1 - r0) * rowBytes l + (if l.format = 4 then (r1 / 2 - r0 / 2) * (2 * l.width) else 0)

/-- n bytes of plane 0 (`chroma` false) or 1 of layer i of a content, from row r at byte k of the row: module memory at its
address for SOURCE 2 (R108), staging otherwise (R102). -/
def planeBytes (mem : Mem) (ct : Content) (i : Nat) (l : Layer) (chroma : Bool) (r k n : Nat) : Nat :=
  if l.source = 2 then
    leNat (mgets 0 mem.bytes ((if chroma then l.addr1 + r * l.pitch1 else l.addr0 + r * l.pitch0) + k) n)
  else
    let base := if chroma then l.height * rowBytes l + r * (2 * l.width) else r * rowBytes l
    leNat (mgets 0 ct.staging (2 ^ 40 * i + base + k) n)

/-- Table 6.3. -/
def yccCoefs (matrix : Nat) (full : Bool) : Int × Int × Int × Int × Int :=
  if matrix = 0 then (if full then (4096, 6450, 767, 1917, 7601) else (4783, 7365, 876, 2189, 8678))
  else if full then (4096, 6040, 674, 2340, 7706) else (4783, 6896, 770, 2672, 8798)

/-- Conversion of one YCbCr sample (R124). -/
def yccPixel (l : Layer) (y cb cr : Nat) : Px :=
  let (cY, cRv, cGu, cGv, cBu) := yccCoefs l.yccMatrix l.yccFull
  let yy := cY * ((y : Int) - (if l.yccFull then 0 else 64))
  let u := (cb : Int) - 512
  let v := (cr : Int) - 512
  let ten (k : Int) := code14 10 (clampI 0 1023 ((k + 2048) / 4096)).toNat
  { r := ten (yy + cRv * v), g := ten (yy - cGu * u - cGv * v), b := ten (yy + cBu * u), a := 16383 }

/-- Step 1: source pixel (x, y) of layer i (R121, R123, R124). -/
def srcPixel (mem : Mem) (ct : Content) (i : Nat) (l : Layer) (x y : Nat) : Px :=
  let w := planeBytes mem ct i l false y (sampleBytes l.format * x) (sampleBytes l.format)
  if l.format = 1 then
    { r := code14 10 (bits w 0 10), g := code14 10 (bits w 10 10), b := code14 10 (bits w 20 10), a := 5461 * bits w 30 2 }
  else if l.format = 2 then
    { r := code14 8 (bits w 16 8), g := code14 8 (bits w 8 8), b := code14 8 (bits w 0 8), a := code14 8 (bits w 24 8) }
  else if l.format = 3 then
    { r := half14 (bits w 0 16), g := half14 (bits w 16 16), b := half14 (bits w 32 16), a := half14 (bits w 48 16) }
  else
    let pair (k : Nat) := planeBytes mem ct i l true (y / 2) (4 * k) 4
    let k := x / 2
    let k1 := min (k + 1) (l.width / 2 - 1)
    let at_ (lo : Nat) := if x % 2 = 0 then bits (pair k) lo 10 else (bits (pair k) lo 10 + bits (pair k1) lo 10 + 1) / 2
    yccPixel l (bits w 6 10) (at_ 6) (at_ 22)

/-- Scale factor F of a cue layer (Table 12.3). -/
def scaleOf (l : Layer) : Nat := if l.scale = 0 then 1 else if l.scale ≤ 2 then 2 else 4

/-- Table 6.6: weights on k − 1, k and k + 1. -/
def bilinear (f m : Nat) : Nat × Nat × Nat :=
  if f = 2 then (if m = 0 then (2, 6, 0) else (0, 6, 2))
  else if m = 0 then (3, 5, 0) else if m = 1 then (1, 7, 0) else if m = 2 then (0, 7, 1) else (0, 5, 3)

/-- Step 2: output pixel (x, y) of a layer, counted within the layer (R131). -/
def layerPixel (mem : Mem) (ct : Content) (i : Nat) (l : Layer) (x y : Nat) : Px :=
  let f := scaleOf l
  if l.scale % 2 = 1 || f = 1 then srcPixel mem ct i l (x / f) (y / f)
  else
    let (wl, wc, wr) := bilinear f (x % f)
    let (ul, uc, ur) := bilinear f (y % f)
    let near (k d n : Nat) : Nat := if d = 0 then k - 1 else min (k + d - 1) (n - 1)
    let h (c : Px → Nat) (dy : Nat) : Nat :=
      let row := near (y / f) dy l.height
      let p (d : Nat) := c (srcPixel mem ct i l (near (x / f) d l.width) row)
      wl * p 0 + wc * p 1 + wr * p 2
    let out (c : Px → Nat) : Nat := (ul * h c 0 + uc * h c 1 + ur * h c 2 + 32) / 64
    { r := out Px.r, g := out Px.g, b := out Px.b, a := out Px.a }

/-- Does a layer cover panel pixel (x, y)? A layer shown as transparent covers nothing that shows (R116, R285). -/
def covers (l : Layer) (x y : Nat) : Bool :=
  !l.transparent && l.dstX ≤ x && x < l.dstX + scaleOf l * l.width && l.dstY ≤ y && y < l.dstY + scaleOf l * l.height

/-- A sample of a layer lies in a poisoned page (Table 13.4 row 3): plane 0, or a chroma pair it needs; in module memory for
SOURCE 2, else in what staging took from a poisoned page. -/
def srcLost (mem : Mem) (ct : Content) (i : Nat) (l : Layer) (x y : Nat) : Bool :=
  let k := sampleBytes l.format
  let pair := if x % 2 = 1 then 8 else 4
  if l.source = 2 then
    let c := if l.format = 4 then pagesOf (l.addr1 + y / 2 * l.pitch1 + 4 * (x / 2)) pair else []
    (pagesOf (l.addr0 + y * l.pitch0 + k * x) k ++ c).any (badPage mem)
  else
    let base := 2 ^ 40 * i
    let c := if l.format = 4 then [(base + l.height * rowBytes l + y / 2 * (2 * l.width) + 4 * (x / 2), pair)] else []
    ((base + y * rowBytes l + k * x, k) :: c).any (fun p => ct.lost.any (fun q => decide (p.1 < q.1 + q.2) && decide (q.1 < p.1 + p.2)))

/-- A read for output pixel (x, y) of a layer fails, so the layer is transparent there (Table 13.4 row 3). -/
def layerLost (mem : Mem) (ct : Content) (i : Nat) (l : Layer) (x y : Nat) : Bool :=
  let f := scaleOf l
  if (if l.source = 2 then noneBad mem else ct.lost.isEmpty) then false
  else if l.scale % 2 = 1 || f = 1 then srcLost mem ct i l (x / f) (y / f)
  else
    let used (w : Nat × Nat × Nat) : List Nat := (if w.1 = 0 then [] else [0]) ++ [1] ++ (if w.2.2 = 0 then [] else [2])
    let near (k d n : Nat) : Nat := if d = 0 then k - 1 else min (k + d - 1) (n - 1)
    (used (bilinear f (y % f))).any (fun dy => (used (bilinear f (x % f))).any (fun dx =>
      srcLost mem ct i l (near (x / f) dx l.width) (near (y / f) dy l.height)))

/-- Blend one layer over an accumulator (R126). -/
def blendLayer (l : Layer) (p acc : Px) : Px :=
  let a := ((if l.blend = 0 then 16383 else p.a) * l.planeAlpha + 8191) / 16383
  let mix (s d : Nat) : Nat :=
    if l.blend = 2 then min ((s * l.planeAlpha + d * (16383 - a) + 8191) / 16383) 16383
    else (s * a + d * (16383 - a) + 8191) / 16383
  { r := mix p.r acc.r, g := mix p.g acc.g, b := mix p.b acc.b, a := 0 }

/-- Step 3 over a list of layers with their indices (R126). -/
def blendAll (mem : Mem) (ct : Content) (ls : List (Nat × Layer)) (x y : Nat) : Px :=
  ls.foldl (fun acc (i, l) =>
    if covers l x y && !(layerLost mem ct i l (x - l.dstX) (y - l.dstY)) then blendLayer l (layerPixel mem ct i l (x - l.dstX) (y - l.dstY)) acc else acc) {}

/-- Step 3 with the crossfade of R286: the encoded pixel of a content. -/
def encodedAt (mem : Mem) (ct : Content) (x y : Nat) : Px :=
  let new := blendAll mem ct (keyed 0 ct.layers) x y
  match ct.mix with
  | none => new
  | some m =>
    let old := blendAll mem ct (keyed 0 (m.old.take (4 - ct.layers.length))) x y
    let a := (m.f + 1) * 16383 / (m.x + 1)
    let f (o n : Nat) := (o * (16383 - a) + n * a + 8191) / 16383
    { r := f old.r new.r, g := f old.g new.g, b := f old.b new.b }

/-- A 1D LUT of three tables of 4096 entries (R127). -/
def lut1d (c : Conf) (id ch v : Nat) : Nat :=
  let t (i : Nat) : Int := min 16383 (tableAt c id (2 * (4096 * ch + min i 4095)) 2)
  let i := v / 4
  sat14 (t i + ((t (i + 1) - t i) * (v % 4 : Nat) + 2) / 4)

/-- Coefficient M_rj of the matrix, sQ3.12 (R128, Table 6.11). -/
def cscCoef (c : Conf) (r j : Nat) : Int :=
  let n := 3 * r + j
  signedOf 16 (fget c (if n % 2 = 0 then PIX_CSC_COEF_LO (n / 2) else PIX_CSC_COEF_HI (n / 2)))

/-- One output channel of the matrix stage (R128). -/
def cscOut (c : Conf) (p : Px) (r : Nat) : Nat :=
  sat14 ((cscCoef c r 0 * p.r + cscCoef c r 1 * p.g + cscCoef c r 2 * p.b + 2048) / 4096)

/-- Node (r, g, b) of the 3D LUT, channel ch (Table 6.5, R129). -/
def lutNode (c : Conf) (n : Nat × Nat × Nat) (ch : Nat) : Nat :=
  min 16383 (tableAt c 0x0401 (8 * ((17 * n.1 + n.2.1) * 17 + n.2.2) + 2 * ch) 2)

/-- Advance a node by one in a channel. -/
def advance (n : Nat × Nat × Nat) (ch : Nat) : Nat × Nat × Nat :=
  if ch = 0 then (n.1 + 1, n.2.1, n.2.2) else if ch = 1 then (n.1, n.2.1 + 1, n.2.2) else (n.1, n.2.1, n.2.2 + 1)

/-- Channels by fraction, largest first, ties in the order R, G, B (R129). -/
def byFraction (fr fg fb : Nat) : List (Nat × Nat) :=
  let ins (p : Nat × Nat) (l : List (Nat × Nat)) : List (Nat × Nat) :=
    (l.takeWhile (fun q => p.1 ≤ q.1)) ++ p :: (l.dropWhile (fun q => p.1 ≤ q.1))
  ins (fb, 2) (ins (fg, 1) [(fr, 0)])

/-- The 3D LUT (R129). -/
def lut3d (c : Conf) (p : Px) (ch : Nat) : Nat :=
  let c0 := (p.r / 1024, p.g / 1024, p.b / 1024)
  match byFraction (p.r % 1024) (p.g % 1024) (p.b % 1024) with
  | [(f1, a), (f2, b), (f3, d)] =>
    let c1 := advance c0 a
    let c2 := advance c1 b
    let c3 := advance c2 d
    min 16383 ((lutNode c c0 ch * (1024 - f1) + lutNode c c1 ch * (f1 - f2) + lutNode c c2 ch * (f2 - f3)
      + lutNode c c3 ch * f3 + 512) / 1024)
  | _ => 0

/-- Steps 4 to 6 (R127 to R129). -/
def colour (c : Conf) (p : Px) : Px :=
  let p := if fbit c PIX_CTRL_DEGAMMA_EN
    then { p with r := lut1d c 0x0400 0 p.r, g := lut1d c 0x0400 1 p.g, b := lut1d c 0x0400 2 p.b } else p
  let p := if fbit c PIX_CTRL_CSC_EN then { p with r := cscOut c p 0, g := cscOut c p 1, b := cscOut c p 2 } else p
  if fbit c PIX_CTRL_LUT3D_EN then { p with r := lut3d c p 0, g := lut3d c p 1, b := lut3d c p 2 } else p

/-- The content that a frame shows at a line; none is black (R113, R120). -/
def lineContent (f : Frame) (y : Nat) : Option Content := f.contents[mget 0 f.lineFrom y]?

/-- Steps 1 to 6 at a panel pixel of a frame: the linear value that Gauze reads (R118, R120). -/
def step6 (c : Conf) (mem : Mem) (f : Frame) (x y : Nat) : Px :=
  match lineContent f y with
  | some ct => colour c (encodedAt mem ct x y)
  | none => {}

/-- Demand of a pixel (R143). -/
def demandAt (c : Conf) (mem : Mem) (f : Frame) (x y : Nat) : Nat :=
  let p := step6 c mem f x y
  max p.r (max p.g p.b)

/-! ## Stripes (R15) -/

/-- First column and width of stripe k. -/
def stripe (c : Conf) (k : Nat) : Nat × Nat :=
  let q := tW c / 192
  let r := tW c % 192
  (k * q + min k r, if k < r then q + 1 else q)

/-- Columns of stripe k. -/
def stripeCols (c : Conf) (k : Nat) : List Nat := (List.range (stripe c k).2).map (fun i => (stripe c k).1 + i)

/-- The stripe that holds column x. -/
def stripeOf (c : Conf) (x : Nat) : Nat := ((List.range 192).filter (fun k => (stripe c k).1 ≤ x && 0 < (stripe c k).2)).getLastD 0

end Sys2Proof.Machine
end

