-- ==== Sys2Proof/Machine/LampCode.lean ====
section
/-!
DEFINITION. Characters of the lamp links (R168, R173, Table 8.1): control characters, frames between SOF and EOF, in the
8b/10b code of Ops, which both directions use.
-/
namespace Sys2Proof.Machine

/-- IDLE, LT, CYC, SOF and EOF (Table 8.1). -/
def lampIdle : LampChar := .ctl .k285
def lampLt : LampChar := .ctl .k281
def lampCyc : LampChar := .ctl .k287
def lampSof : LampChar := .ctl .k277
def lampEof : LampChar := .ctl .k297

/-- A frame on the lane: SOF, header, payload and CRC, EOF (R173). -/
def frameChars (b : Bytes) : List LampChar := lampSof :: b.map .dat ++ [lampEof]

/-! ## Received characters -/

/-- Which of n blocks a received block is, at either disparity; block `two` has two forms. -/
def blockIndex (f : Nat → Nat) (n two bits v : Nat) : Option Nat :=
  (List.range n).find? (fun k => (balanceBlock bits (k = two) false (f k)).1 = v || (balanceBlock bits (k = two) true (f k)).1 = v)

/-- The character that a 10-bit code stands for at either disparity; none for a code that is none. -/
def char10 (v : Nat) : Option LampChar :=
  match [LampK.k285, .k281, .k287, .k277, .k297].find? (fun k => (code10 false (.ctl k)).1 = v || (code10 true (.ctl k)).1 = v) with
  | some k => some (.ctl k)
  | none =>
    match blockIndex block6 32 7 6 (v / 16), (if v % 16 = 0b0111 || v % 16 = 0b1000 then some 7 else blockIndex block4 8 3 4 (v % 16)) with
    | some x, some y => some (.dat (BitVec.ofNat 8 (x + 32 * y)))
    | _, _ => none

/-- The bytes of data characters; none when another character is among them. -/
def dataBytes : List LampChar → Option Bytes
  | [] => some []
  | .dat b :: l => (dataBytes l).map (b :: ·)
  | .ctl _ :: _ => none

/-- A received frame's bytes from SOF to EOF, line ticks removed first (R170, R173). -/
def frameOf (chars : List Nat) : Option Bytes :=
  match (chars.map char10).filter (· ≠ some lampLt) with
  | some (.ctl .k277) :: l =>
    if l.getLast? = some (some lampEof) && l.dropLast.all Option.isSome then dataBytes (l.dropLast.filterMap id) else none
  | _ => none

/-- Characters leave on a lane. The running disparity that the IDLE characters before them leave is open (log entry 3). -/
def lampWire (lane : Nat) (chars : List LampChar) (s : State) : State :=
  skipFree 1 (emit [.lampChars lane (code10s (freeNow s % 2 = 1) chars)] s)

/-- Several runs on their lanes, in order. -/
def lampWires (l : List (Nat × List LampChar)) (s : State) : State := forAll l (fun p => lampWire p.1 p.2) s

end Sys2Proof.Machine
end

