-- ==== Sys2Proof/Machine/Lamps.lean ====
section
/-!
DEFINITION. Frames of the lamp links (R173, Tables 8.2, 8.3) and what the block sends on its own: CYCLE, LEVELS, SCHEDULE,
OFF (R171, R176, R177, R181).
-/
namespace Sys2Proof.Machine

/-- A lane is enabled: LMP_CTRL.EN and its bit of LMP_LANES (Tables 8.7, 8.8). -/
def laneOn (c : Conf) (l : Nat) : Bool := fbit c LMP_CTRL_EN && bit (fget c LMP_LANES_EN) l

def lanesOn (c : Conf) : List Nat := (List.range 32).filter (laneOn c)

/-- The links are off: step 3 of the entry to DORMANT has been taken (R43). -/
def linksOff (s : State) : Bool := s.sys.transit.any (fun t => t.target = .dormant && t.step = 2)

/-- Lanes that send now. -/
def lanesLive (s : State) : List Nat := if linksOff s then [] else lanesOn s.conf

/-- A downstream frame: header, payload and CRC-32C (Table 8.2). -/
def lampBytes (fe : Nat) (bcast : Bool) (addr type : Nat) (payload : Bytes) : Bytes :=
  let b := toLE 1 (addr % 16 + 128 * b2n bcast) ++ toLE 1 type ++ toLE 2 payload.length ++ toLE 4 fe ++ payload
  b ++ toLE 4 (crc32c b)

/-- The last four bytes of a frame: its CRC (R173). -/
def frameCrc (b : Bytes) : Nat := leNat (b.drop (b.length - 4))

/-- Send one broadcast frame on every enabled lane. -/
def lampBroadcast (fe type : Nat) (payload : Bytes) (s : State) : State :=
  lampWires ((lanesLive s).map (fun l => (l, frameChars (lampBytes fe true 0 type payload)))) s

def driverAt (s : State) (lane pos : Nat) : Driver := mget {} s.lmp.drivers (16 * lane + pos)

def setDriver (lane pos : Nat) (d : Driver) (s : State) : State :=
  { s with lmp := { s.lmp with drivers := mput {} (16 * lane + pos) d s.lmp.drivers } }

/-- Frames on a lane that wait for their answers, oldest first (R174). -/
def waitsOn (s : State) (lane : Nat) : List LampWait := mget [] s.lmp.waits lane

def setWaits (lane : Nat) (w : List LampWait) (s : State) : State :=
  { s with lmp := { s.lmp with waits := mput [] lane w s.lmp.waits } }

/-- Send a frame to one driver and, where it draws an answer, wait for it (R174). -/
def lampSend (lane pos type : Nat) (answered : Bool) (frame : Bytes) (s : State) : State :=
  let s1 := lampWire lane (frameChars frame) s
  if answered then setWaits lane (waitsOn s lane ++ [({ pos, type, frame, fe := s.sys.fe } : LampWait)]) s1 else s1

/-- Drive of a zone: (COMMITTED × G + 16384) >> 15 (R155). -/
def driveOf (level gain : Nat) : Nat := (level * gain + 16384) / 32768

def zoneAt (g : Gz) (z : Nat) : Zone := mget {} g.zones z

/-- Drive that the lamp links carry for a zone (R155). -/
def zoneDrive (g : Gz) (z : Nat) : Nat := driveOf (zoneAt g z).committed (zoneAt g z).gain

/-- A driver that discovery found, and that is not lost. -/
def driverLive (s : State) (lane pos : Nat) : Bool := (driverAt s lane pos).found && !(driverAt s lane pos).lost

/-- Payload of a LEVELS frame for a rectangle's channels in zone rows r0 to r1 (Table 8.3, R175). -/
def levelsPayload (s : State) (b : DriverBox) (r0 r1 : Nat) : Bytes :=
  let (first, count) := boxChannels b r0 r1
  toLE 1 first ++ toLE 1 count ++ (List.range count).flatMap (fun i =>
    let ch := first + i
    toLE 2 (zoneDrive s.gz ((b.row0 + ch / b.cols) * gCols s.conf + b.col0 + ch % b.cols)))

/-- Send the LEVELS frames of a run of zone rows (R177), to each driver that discovery found, lost ones too. -/
def sendLevels (r0 r1 : Nat) (s : State) : State :=
  forAll (mappedDrivers s.conf) (fun d s =>
    let (lane, pos, b) := d
    if laneOn s.conf lane && !(linksOff s) && (driverAt s lane pos).found && 0 < (boxChannels b r0 r1).2 then
      lampSend lane pos 0x01 true (lampBytes s.sys.fe false pos 0x01 (levelsPayload s b r0 r1)) s
    else s) s

/-- Send a driver its SCHEDULE frames, one per driver-local row, tagged with an FE (R176). -/
def sendSchedule (c : Conf) (lane pos tag : Nat) (s : State) : State :=
  let b := driverBox c lane pos
  lampWires ((List.range b.rows).map (fun r =>
    let (sl, n, o) := schedule c (b.row0 + r)
    (lane, frameChars (lampBytes tag false pos 0x02 (toLE 1 r ++ toLE 2 sl ++ toLE 2 n ++ toLE 1 o))))) s

/-- Columns of a zone row whose channels a window lights at a nonzero level (R178): with O = 0 at the level of this frame, or
the newest one before the row commits; with O = 1 at the level of the frame before. -/
def litColumns (s : State) (i o : Nat) : List Nat :=
  (List.range (gCols s.conf)).filter (fun j =>
    let z := zoneAt s.gz (i * gCols s.conf + j)
    (if o = 1 && i < s.gz.rowsDone then z.prev else z.committed) ≠ 0)

/-- Windows at a line tick of a cycle (R178, R180): a window opens at tick S of the cycle for N ticks and is cut by a DARK
cycle; every tick at which a zone is lit at a nonzero level counts. -/
def countLit (s : State) : State :=
  if !(fbit s.conf LMP_CTRL_EN) || linksOff s then s
  else if s.lmp.dark then { s with lmp := { s.lmp with win := [] } }
  else
    let window (i : Nat) : Nat × List Nat :=
      let (sl, n, o) := schedule s.conf i
      let w := mget (0, []) s.lmp.win i
      if s.lmp.ticks = sl then (n, litColumns s i o) else if w.1 ≤ 1 then (0, []) else (w.1 - 1, w.2)
    let ws := (List.range (gRows s.conf)).map (fun i => (i, window i))
    let zones := ws.flatMap (fun w => if w.2.1 = 0 then [] else w.2.2.map (fun j => w.1 * gCols s.conf + j))
    { s with lmp := { s.lmp with win := mputAll (0, []) (ws.map (fun w => (w.1, if w.2.1 = 0 then (0, []) else w.2))) s.lmp.win
                                 lit := zones.foldl (fun m z => mput 0 z (mget 0 m z + 1) m) s.lmp.lit } }

/-- Open a lamp cycle: CYC, then the broadcast CYCLE frame with REPEAT and DARK (R171, R172). -/
def openCycle (isRepeat dark : Bool) (s : State) : State :=
  let f := lampBytes s.sys.fe true 0 0x05 (toLE 1 (b2n isRepeat + 2 * b2n dark))
  countLit (lampWires ((lanesLive s).map (fun l => (l, lampCyc :: frameChars f))) { s with lmp := { s.lmp with ticks := 0, dark } })

/-- CYCLE_LINES (R171): with LINES 0 the total lines of the timing; 0, no repeat cycle, while there is no timing. -/
def cycleLines (c : Conf) : Nat :=
  let n := fget c LMP_CYCLE_LINES
  if n ≠ 0 then n else if hasTiming c then tVtotal c else 0

/-- The line tick of a cycle at which a repeat cycle begins (R171). -/
def repeatDue (s : State) : Bool := decide (0 < cycleLines s.conf) && s.lmp.ticks = cycleLines s.conf

/-- OFF on every enabled lane (R181, R232). -/
def lampsOff (s : State) : State := lampBroadcast s.sys.fe 0x06 [] s

end Sys2Proof.Machine
end

