-- ==== Sys2Proof/Machine/Gauze.lean ====
section
/-!
DEFINITION. Gauze: the statistics bank, targets, the window solve, commits, the predictor, reconstruction, aging and the
zone commands (R138 to R167), with the halo of R359 and R360.
-/
namespace Sys2Proof.Machine

/-! ## Statistics (R142 to R148) -/

/-- Demand edge E[k] (R143). -/
def demandEdge (c : Conf) (k : Nat) : Nat :=
  if k = 0 then 0 else if 8 ≤ k then 16384
  else if k % 2 = 1 then fget c (GZ_BIN_EDGE_LO (k / 2)) else fget c (GZ_BIN_EDGE_HI (k / 2 - 1))

/-- Bin of a demand (R143). -/
def demandBin (c : Conf) (d : Nat) : Nat := ((List.range 8).filter (fun k => demandEdge c k ≤ d)).length - 1

def scratchKey (zone stripe bin : Nat) : Nat := 8 * (192 * zone + stripe) + bin

/-- The configuration of the frame that the open rows belong to: before its FT, that of the frame to come (R52, R142). -/
def statsConf (s : State) : Conf := if s.gz.openFe = nextFe s then comingConf s else s.conf

/-- The frame whose statistics are gathered: the one that the open rows belong to (R142, R147). -/
def statsFrame (s : State) : Option Frame :=
  if s.gz.openFe = nextFe s then s.ing.coming <|> s.ing.shown else s.ing.shown

/-- Add one stripe's counted pixels of a line to its scratchpad histograms (R143, R144). -/
def passLine (s : State) (f : Frame) (y k : Nat) : SMap Nat :=
  let c := statsConf s
  let step := 2 ^ fget c GZ_GRID_DECIM
  if y % step ≠ 0 then s.gz.scratch
  else ((stripeCols c k).filter (fun x => x % step = 0)).foldl (fun m x =>
    let key := scratchKey (zoneRowOf c y * gCols c + zoneColOf c x) k (demandBin c (demandAt c s.mem f x y))
    mput 0 key (mget 0 m key + 1) m) s.gz.scratch

/-- Stripes whose engine does not run: it has none, or it has trapped (R389, Table 13.4 row 6). -/
def idleStripes (s : State) : List Nat := s.flt.unserved ++ s.flt.trapped.filter (fun k => !(s.flt.unserved.contains k))

/-- Zone columns that a stripe meets. -/
def stripeZones (c : Conf) (k : Nat) : List Nat := ((stripeCols c k).map (zoneColOf c)).eraseDups

/-- Is a zone row open for an FE (R147)? -/
def rowOpen (s : State) (row fe : Nat) : Bool :=
  s.gz.opened && fe = s.gz.openFe && !(fe = s.sys.fe && row < s.gz.rowsDone)

/-- Counts n[0] to n[7] of a zone. -/
def zoneBins (bank : SMap Nat) (z : Nat) : List Nat := (List.range 8).map (fun k => mget 0 bank (8 * z + k))

/-- Target of a zone in level units (R150). -/
def targetOf (c : Conf) (n : List Nat) : Nat :=
  let cum (k : Nat) := (n.take k).foldl (· + ·) 0
  let r := fget c GZ_TARGET_PCT * cum 8
  if r = 0 then 0
  else match (List.range 8).find? (fun k => r ≤ 65536 * cum (k + 1)) with
    | none => 0
    | some k =>
      let phi := (r - 65536 * cum k) / max 1 (n.getD k 0)
      let t := min 16383 (demandEdge c k + ((demandEdge c (k + 1) - demandEdge c k) * phi + 32768) / 65536)
      t * 4 + t / 4096

/-! ## Halo (R359, R360) -/

/-- Ports that can carry a halo: 1 E, 3 W. -/
def haloOn (s : State) (p : Nat) : Bool :=
  (if p = 1 then fbit s.conf GNG_CTRL_HALO_E else fbit s.conf GNG_CTRL_HALO_W)
    && (gngPort s p).state = .up && !(gngPort s p).haloOff

def haloKey (p row d : Nat) : Nat := 65536 * p + 8 * row + d

/-- Value of a halo zone in column j, from the E map (columns COLS up) and the W map (columns below 0). -/
def haloValue (s : State) (m : SMap Nat) (i : Nat) (j : Int) : Option Nat :=
  let h := fget s.conf GZ_SOLVER_RADIUS
  let stored (p d : Nat) := let v := mget 0 m (haloKey p i d); if v = 0 then none else some (v - 1)
  if (gCols s.conf : Int) ≤ j then (if haloOn s 1 then stored 1 (j - gCols s.conf).toNat else none)
  else if j < 0 then (if haloOn s 3 then stored 3 (j + h).toNat else none)
  else none

/-- The h columns of a zone row that a port's neighbour takes as its halo (R359). -/
def haloColumns (c : Conf) (p : Nat) : List Nat :=
  let h := fget c GZ_SOLVER_RADIUS
  if p = 1 then (List.range h).map (fun d => gCols c - h + d) else List.range h

/-- Send HALO_TARGET for a delivered row (R359, Table 16.2). -/
def sendHaloTarget (c : Conf) (row : Nat) (s : State) : State :=
  forAll ([1, 3].filter (haloOn s)) (fun p s => gngSend [p] 0x09 0
    (toLE 8 s.gz.openFe ++ toLE 2 row ++ (haloColumns c p).flatMap (fun j => toLE 2 (mget 0 s.gz.targets (row * gCols c + j)))) s) s

/-- Send HALO_LEVEL for committed rows (R359, Table 16.2). -/
def sendHaloLevel (r0 r1 : Nat) (s : State) : State :=
  forAll ([1, 3].filter (haloOn s)) (fun p s => gngSend [p] 0x0A 0
    (toLE 8 s.sys.fe ++ toLE 2 r0 ++ toLE 1 (r1 + 1 - r0) ++ (List.range (r1 + 1 - r0)).flatMap (fun i =>
      (haloColumns s.conf p).flatMap (fun j => toLE 2 (zoneAt s.gz ((r0 + i) * gCols s.conf + j)).committed))) s) s

/-! ## The predictor (R157, R158) -/

/-- Mean real target M and mean change Δ over the rows delivered before their commit in this frame (R158); the change is
against TARGET_PREV as it stood at the FT (R156). -/
def predictorMeans (c : Conf) (g : Gz) : Nat × Nat :=
  let zs := g.delivered.flatMap (fun r => (List.range (gCols c)).map (fun j => r * gCols c + j))
  let t (z : Nat) := mget 0 g.targets z
  let diff (z : Nat) : Nat := (t z - (zoneAt g z).targetFt) + ((zoneAt g z).targetFt - t z)
  (zs.foldl (fun a z => a + t z) 0 / max 1 zs.length, zs.foldl (fun a z => a + diff z) 0 / max 1 zs.length)

/-- Set SPEC of the undelivered, uncommitted rows. -/
def setSpec (c : Conf) (g : Gz) (f : Zone → Nat) : Gz :=
  let rows := (List.range (gRows c)).filter (fun r => g.rowsDone ≤ r && !(g.delivered.contains r))
  let zs := rows.flatMap (fun r => (List.range (gCols c)).map (fun j => r * gCols c + j))
  { g with zones := zs.foldl (fun m z => mput {} z { mget {} m z with spec := f (mget {} m z) } m) g.zones }

/-- The predictor after a delivery (R158). -/
def predict (c : Conf) (g : Gz) : Gz :=
  if fbit c GZ_CTRL_PREDICT_EN && !g.delivered.isEmpty && fbit c GZ_CTRL_EN then
    let (m, d) := predictorMeans c g
    if fget c GZ_TARGET_THRESH < d then { setSpec c g (fun z => max z.committed m) with change := true }
    else if g.change then { setSpec c g Zone.committed with change := false }
    else g
  else g

/-- The real targets of a row from its histograms (R150). -/
def rowTargets (c : Conf) (g : Gz) (row : Nat) : SMap Nat :=
  mputs 0 (row * gCols c) ((List.range (gCols c)).map (fun j => targetOf c (zoneBins g.bank (row * gCols c + j)))) g.targets

/-- A row delivered (R148): its real targets, and, in the frame being scanned, the predictor and the halo. -/
def deliverRow (row : Nat) (s : State) : State :=
  let c := statsConf s
  let g := { s.gz with targets := rowTargets c s.gz row }
  sendHaloTarget c row { s with gz := if s.gz.openFe = s.sys.fe then predict c { g with delivered := g.delivered ++ [row] } else g }

/-- Merge one stripe's histograms of a row into the bank; every bin saturates (R144). -/
def mergeStripe (c : Conf) (g : Gz) (row stripe : Nat) : SMap Nat :=
  (stripeZones c stripe).foldl (fun bank j =>
    let z := row * gCols c + j
    (List.range 8).foldl (fun b k => mput 0 (8 * z + k) (satAdd 65535 (mget 0 b (8 * z + k)) (mget 0 g.scratch (scratchKey z stripe k))) b) bank)
    g.bank

/-- One stripe's histograms of a row go to the bank; with the last stripe's the row is delivered (R144, R148). -/
def mergeOpen (row stripe : Nat) (scratch : SMap Nat) (s : State) : State :=
  let n := mget 0 s.gz.merges row + 1
  let s1 := { s with gz := { s.gz with bank := mergeStripe (statsConf s) s.gz row stripe, scratch, merges := mput 0 row n s.gz.merges
                                       merged := mput false (192 * row + stripe) true s.gz.merged } }
  if n = 192 then deliverRow row s1 else s1

/-- ZONE_STATS_MERGE (R144, R147, R148): a stripe merges a row once, after its last line of the row; the bank drops a merge
whose row is not open for its FE. -/
def execZoneStatsMerge (row stripe fe : Nat) (s : State) : Answer :=
  let c := statsConf s
  let zs := stripeZones c stripe
  let scratch := mkeep (fun k => !(zs.any (fun j => k / 8 = 192 * (row * gCols c + j) + stripe))) s.gz.scratch
  .next (if gRows c ≤ row || 192 ≤ stripe || (idleStripes s).contains stripe then s
  else if rowOpen s row fe then
    if rowTop c (row + 1) ≤ mget 0 s.gz.progress stripe && !(mget false s.gz.merged (192 * row + stripe)) then
      mergeOpen row stripe scratch s
    else s
  else { s with gz := { s.gz with scratch := if fe = s.gz.openFe then scratch else s.gz.scratch
                                  statsLate := satAdd 255 s.gz.statsLate zs.length } })

/-! ## Commits (R151 to R155, R160) -/

/-- Kernel weight (Table 7.1). -/
def kernel (c : Conf) (dy dx : Int) : Nat := tableAt c 0x0502 (2 * (15 * (dy + 7) + (dx + 7)).toNat) 2

/-- −h to h. -/
def radius (h : Nat) : List Int := (List.range (2 * h + 1)).map (fun k : Nat => (k : Int) - h)

/-- Light-spread estimate (R151). -/
def spread (c : Conf) (lev : Int → Int → Nat) (i j : Int) : Nat :=
  let h := fget c GZ_SOLVER_RADIUS
  min 65535 (((radius h).foldl (fun a dy => (radius h).foldl (fun a dx => a + kernel c dy dx * lev (i + dy) (j + dx)) a) 0 + 32768) / 65536)

/-- A grid of window levels, by row from the first one. -/
abbrev Window := List (List Nat)

/-- Inputs of a window solve (R152): rows j to m. -/
structure Solve where
  j : Nat
  m : Nat
  targets : Window

/-- Target of a zone in a commit (R152): real when its row is delivered, else speculative (R157). -/
def commitTarget (s : State) (row z : Nat) : Nat :=
  if s.gz.delivered.contains row then mget 0 s.gz.targets z
  else if s.gz.change then max (zoneAt s.gz z).targetPrev (predictorMeans s.conf s.gz).1
  else (zoneAt s.gz z).targetPrev

/-- The level at which a zone is held fixed (R152): dead zones at 0, overridden zones at their level. -/
def heldLevel (z : Zone) : Option Nat := if z.dead then some 0 else z.override

/-- Level at (i, j) during a solve over rows j0 to m with window levels w (R151, R152, R359). -/
def solveLevel (s : State) (j0 m : Nat) (w : Window) (i j : Int) : Nat :=
  if i < 0 || (gRows s.conf : Int) ≤ i then 0
  else if j < 0 || (gCols s.conf : Int) ≤ j then (haloValue s s.gz.haloLevelPrev i.toNat j).getD 0
  else
    let z := i.toNat * gCols s.conf + j.toNat
    if (j0 : Int) ≤ i && i ≤ m then ((w[i.toNat - j0]?.getD [])[j.toNat]?).getD 0
    else (heldLevel (zoneAt s.gz z)).getD (if i < j0 then (zoneAt s.gz z).committed else (zoneAt s.gz z).spec)

/-- One Jacobi iteration (R152). DESIGN CHOICE 38: C is computed for window zones only, so a dead zone just outside the
window shares no residual with its neighbours inside. -/
def jacobi (s : State) (j0 m : Nat) (t w : Window) : Window :=
  let c := s.conf
  let rows := List.range (m + 1 - j0)
  let cols := List.range (gCols c)
  let lev := solveLevel s j0 m w
  let est := rows.map (fun r => cols.map (fun j : Nat => spread c lev ((j0 + r : Nat) : Int) j))
  let tc (v : Window) (r j : Nat) := ((v[r]?.getD [])[j]?).getD 0
  let lack (r j : Nat) : Nat := tc t r j - tc est r j
  rows.map (fun r => cols.map (fun j =>
    let z := zoneAt s.gz ((j0 + r) * gCols c + j)
    match heldLevel z with
    | some l => l
    | none =>
      let near := (radius 1).flatMap (fun dy => (radius 1).filterMap (fun dx =>
        let i2 := (r : Int) + dy
        let j2 := (j : Int) + dx
        if (dy = 0 && dx = 0) || i2 < 0 || (m + 1 - j0 : Nat) ≤ i2 || j2 < 0 || (gCols c : Int) ≤ j2 then none
        else if (zoneAt s.gz ((j0 + i2.toNat) * gCols c + j2.toNat)).dead then some ((lack i2.toNat j2.toNat + 4) / 8)
        else none))
      let e := lack r j + near.foldl (· + ·) 0
      min (tc w r j + (fget c GZ_SOLVER_GAIN * e + 16384) / 32768) (fget c GZ_LEVEL_LMAX)))

/-- n iterations. -/
def jacobiN (s : State) (j0 m : Nat) (t : Window) : Nat → Window → Window
  | 0, w => w
  | n + 1, w => jacobiN s j0 m t n (jacobi s j0 m t w)

/-- The temporal filter (R153 item 1). -/
def temporal (c : Conf) (p l : Nat) : Nat :=
  let a : Int := fget c (if p ≤ l then GZ_FILTER_A_UP else GZ_FILTER_A_DOWN)
  ((p : Int) + (((l : Int) - p) * a + 16384) / 32768).toNat

/-- R153: the level before the cap. -/
def filtered (c : Conf) (z : Zone) (l : Nat) : Nat :=
  let f := if z.dead then 0 else match z.override with | some o => o | none => temporal c z.committed l
  min f (65535 * 32768 / max 1 z.gain)

/-- Zones of rows a to b. -/
def zonesOf (c : Conf) (a b : Nat) : List Nat := (List.range ((b + 1 - a) * gCols c)).map (fun k => a * gCols c + k)

/-- The cap scale k (R154). -/
def capScale (budget done run rest : Nat) : Nat :=
  if run + rest = 0 then 32768 else min 32768 ((budget - done) * 32768 / (run + rest))

/-- Levels that a run commits, with the cap applied (R153, R154): zone and level. -/
def cappedLevels (s : State) (b : Nat) (fs : List (Nat × Nat)) : List (Nat × Nat) :=
  let c := s.conf
  let run := fs.foldl (fun a p => a + driveOf p.2 (zoneAt s.gz p.1).gain) 0
  let rest := (zonesOf c (b + 1) (gRows c - 1)).foldl (fun a z => a + driveOf (zoneAt s.gz z).spec (zoneAt s.gz z).gain) 0
  let k := capScale (s.gz.capE * gCols c * gRows c) s.gz.eDone run rest
  fs.map (fun p => (p.1, (p.2 * k + 16384) / 32768))

/-- Write committed levels (R155); the targets go to TARGET_PREV. -/
def writeLevels (g : Gz) (l : List (Nat × Nat × Nat)) : Gz :=
  l.foldl (fun g (z, v, t) =>
    let old := zoneAt g z
    { g with zones := mput {} z { old with committed := v, prev := old.committed, targetPrev := t } g.zones
             eDone := g.eDone + driveOf v old.gain }) g

/-- Halo rows from a to b whose level has not arrived take the previous frame's, counted by zone row (R360). -/
def fillHalo (s : State) (a b : Nat) : SMap Nat × Nat :=
  let h := fget s.conf GZ_SOLVER_RADIUS
  ((List.range (b + 1 - a)).map (a + ·)).foldl (fun (m, n) i =>
    let missing := ([1, 3].filter (haloOn s)).filter (fun p => 0 < h && mget 0 m (haloKey p i 0) = 0)
    (missing.foldl (fun m p => (List.range h).foldl (fun m d =>
        mput 0 (haloKey p i d) (max 1 (mget 0 s.gz.haloLevelPrev (haloKey p i d))) m) m) m,
     if missing.isEmpty then n else n + 1)) (s.gz.haloLevel, 0)

/-- Level at (i, j) for reconstruction (R162, R359). -/
def reconLevel (s : State) (i j : Int) : Nat :=
  if i < 0 || (gRows s.conf : Int) ≤ i then 0
  else if j < 0 || (gCols s.conf : Int) ≤ j then (haloValue s s.gz.haloLevel i.toNat j).getD 0
  else (zoneAt s.gz (i.toNat * gCols s.conf + j.toNat)).committed

/-- Reconstruction row r becomes final (R162). -/
def reconRow (r : Nat) (s : State) : State :=
  let h := fget s.conf GZ_SOLVER_RADIUS
  let (m, late) := fillHalo s (r - h) (min (r + h) (gRows s.conf - 1))
  let s1 := { s with gz := { s.gz with haloLevel := m }, gng := { s.gng with haloLate := satAdd 0xFFFFFFFF s.gng.haloLate late } }
  { s1 with gz := { s1.gz with recon := mputs 0 (512 * r) ((List.range (gCols s1.conf)).map (fun j : Nat =>
      spread s1.conf (reconLevel s1) r j)) s1.gz.recon } }

/-- Reconstruction rows whose wait is over: a neighbour's levels have had their 1 µs, or the engines begin a line that needs the
row (R162, R163, R360). -/
def runRecon (s : State) : State :=
  let needed (r : Nat) : Nat := if r = 0 then 0 else engineSlot s.conf (zoneCy s.conf (r - 1))
  let due := s.gz.reconDue.filter (fun p => p.1 ≤ s.tmg.slot || needed p.2 ≤ s.tmg.slot)
  let left := s.gz.reconDue.filter (fun p => !(p.1 ≤ s.tmg.slot || needed p.2 ≤ s.tmg.slot))
  forAll (due.map Prod.snd) reconRow { s with gz := { s.gz with reconDue := left } }

/-- Rows become final at a commit: at once, or after the extra 1 µs of MARGIN where a halo port is on (R162, R360). -/
def finalRows (rows : List Nat) (s : State) : State :=
  if [1, 3].any (haloOn s) then
    let due := s.tmg.slot + usSlots s.conf 1
    runRecon { s with gz := { s.gz with reconDue := s.gz.reconDue ++ rows.map (fun r => (due, r)) } }
  else forAll rows reconRow s

/-- Rows of the reconstruction that committing rows a to b makes final (R162). -/
def reconRows (c : Conf) (a b : Nat) : List Nat :=
  let h := fget c GZ_SOLVER_RADIUS
  let rows := gRows c
  let upTo := if b + 1 = rows then rows else b + 1 - h
  (List.range rows).filter (fun r => a ≤ r + h && r < upTo && r + h < (if b + 1 = rows then rows + h else b + 1))

/-- Solved level of a zone; where a pair that failed in this run was solving, by the split the run began with, P itself, so
that R153 step 1 gives F = P (R395). -/
def pairLevel (s : State) (j : Nat) (z : Zone) (l : Nat) : Nat :=
  let split := s.gz.runPairs.getD s.flt.solverSplit
  let served (p : Nat) := Config.solverPairServes (split.idxOf p) split.length j
  if s.gz.failedPairs.any served then z.committed else l

/-- Iterations of a solve: ITER + 1, but one when no spare pair remains (R152, R395). -/
def iterations (s : State) : Nat :=
  if 2 ≤ (bitList s.flt.solverRetired.toNat 17).length then 1 else fget s.conf GZ_SOLVER_ITER + 1

/-- Records of TRC_ZONE at its commit, at D2 (Table 17.7): bins 0 to 3 with T, then bins 4 to 7 with COMMITTED (log
entry 11). -/
def traceZone (before : State) (a b : Nat) (s : State) : State :=
  let z := lget before.conf TRC_ZONE_ZONE
  let row := z / max 1 (gCols before.conf)
  let n := zoneBins before.gz.bank z
  let pack (l : List Nat) (v : Nat) : Nat := leNat (l.flatMap (toLE 2)) + 2 ^ 64 * v
  if a ≤ row && row ≤ b then
    makeTrace 2 3 (pack (n.drop 4) (zoneAt s.gz z).committed) (makeTrace 2 3 (pack (n.take 4) (zoneAt s.gz z).targetPrev) s)
  else s

/-- Commit the run of zone rows a to b (R152 to R155, R160, R162, R177, R359). -/
def commitRun (a b : Nat) (forced : Bool) (s : State) : State :=
  let c := s.conf
  let m := min (b + fget c GZ_SOLVER_RADIUS) (gRows c - 1)
  let cols := List.range (gCols c)
  let t : Window := (List.range (m + 1 - a)).map (fun r => cols.map (fun j => commitTarget s (a + r) ((a + r) * gCols c + j)))
  let w0 : Window := (List.range (m + 1 - a)).map (fun r => cols.map (fun j =>
    (heldLevel (zoneAt s.gz ((a + r) * gCols c + j))).getD (((t[r]?.getD [])[j]?).getD 0)))
  let w := jacobiN s a m t (iterations s) w0
  let zs := zonesOf c a b
  let at_ (v : Window) (z : Nat) := ((v[z / gCols c - a]?.getD [])[z % gCols c]?).getD 0
  let fs := zs.map (fun z => (z, filtered c (zoneAt s.gz z) (pairLevel s (z % gCols c) (zoneAt s.gz z) (at_ w z))))
  let lv := cappedLevels s b fs
  let n := b + 1 - a
  let g := writeLevels s.gz (lv.map (fun p => (p.1, p.2, at_ t p.1)))
  let g1 := { g with rowsDone := b + 1, bank := mclear (8 * gCols c * a) (8 * gCols c * (b + 1)) g.bank
                     merges := mclear a (b + 1) g.merges, failedPairs := [], runPairs := none
                     forced := if forced then g.forced + n else g.forced
                     firstForced := if forced && g.forced = 0 then a else g.firstForced }
  traceZone s a b (trace1 3 (sendHaloLevel a b (sendLevels a b (finalRows (reconRows c a b) { s with gz := g1 }))))

/-- The ring of 16 reconstruction rows has room for the rows that committing rows a to b makes final: no engine still needs
a row that they overwrite (R162). Row r serves the lines above the centre of row r + 1 (R163). -/
def ringRoom (s : State) (a b : Nat) : Bool :=
  (reconRows s.conf a b).all (fun r => decide (r < 16) || decide (engineSlot s.conf (zoneCy s.conf (r - 15)) ≤ s.tmg.slot))

/-- May the next run commit on real data (R160)? -/
def commitReady (s : State) (a : Nat) : Bool :=
  let c := s.conf
  let b := (runOf c a).2
  let last := min (b + fget c GZ_SOLVER_RADIUS) (gRows c - 1)
  (List.range (last + 1)).all (fun r => r < a || s.gz.delivered.contains r)

/-- Gauze runs for the frame being scanned. -/
def gauzeOn (s : State) : Bool := fbit s.conf GZ_CTRL_EN && hasTiming s.conf && s.gz.openFe = s.sys.fe && s.gz.opened

/-- ZONE_COMMIT (R160, R162): the next run commits normally when it can. -/
def execZoneCommit (s : State) : Answer :=
  let a := s.gz.rowsDone
  let b := (runOf s.conf a).2
  .next (if gauzeOn s && a < gRows s.conf && commitReady s a && ringRoom s a b then commitRun a b false s else s)

/-- Force-commit runs up to zone row i (R160); n bounds the runs. -/
def forceUpTo (i : Nat) : Nat → State → State
  | 0, s => s
  | n + 1, s =>
    let a := s.gz.rowsDone
    if a ≤ i && a < gRows s.conf then
      forceUpTo i n (commitRun a (runOf s.conf a).2 (!(commitReady s a)) s)
    else s

/-- ZONE_ROW_TICK (R159, R160). -/
def execZoneRowTick (row : Nat) (s : State) : Answer := .next (if gauzeOn s then forceUpTo row (gRows s.conf) s else s)

/-- With GZ_CTRL.EN 0 every zone commits at LMAX through R153 steps 2 and 3 and the cap (R163). DESIGN CHOICE 39: there is no
window target, so TARGET_PREV stays; all rows commit as one run at the FT, so that the cap binds them together and a merge of
that frame counts late. -/
def commitAllMax (s : State) : State :=
  let c := s.conf
  let b := gRows c - 1
  let fs := (zonesOf c 0 b).map (fun z =>
    let zn := zoneAt s.gz z
    let f := if zn.dead then 0 else (zn.override.getD (fget c GZ_LEVEL_LMAX))
    (z, min f (65535 * 32768 / max 1 zn.gain)))
  let lv := cappedLevels s b fs
  let g := writeLevels s.gz (lv.map (fun p => (p.1, p.2, (zoneAt s.gz p.1).targetPrev)))
  sendHaloLevel 0 b (sendLevels 0 b (finalRows (List.range (gRows c))
    { s with gz := { g with rowsDone := gRows c, bank := [], merges := [], merged := [] } }))

/-! ## Backlight and compensation (R163) -/

/-- Interpolate between the centres around a position (R163). -/
def between (centres : Nat → Nat) (n : Nat) (val : Nat → Nat) (x : Nat) : Nat :=
  if x < centres 0 then val 0
  else if centres (n - 1) ≤ x then val (n - 1)
  else
    let a := ((List.range n).filter (fun k => centres k ≤ x)).length - 1
    let f := (x - centres a) * 65536 / max 1 (centres (a + 1) - centres a)
    (val a * (65536 - f) + val (a + 1) * f + 32768) / 65536

/-- The backlight B at a pixel (R163). -/
def backlight (c : Conf) (g : Gz) (x y : Nat) : Nat :=
  between (zoneCy c) (gRows c) (fun r => between (zoneCx c) (gCols c) (fun j => mget 0 g.recon (512 * r + j)) x) y

/-- Step 7 on one channel: the value and whether it clipped (R163). -/
def compensate (b bmin v : Nat) : Nat × Bool :=
  let b' := max 1 (max b bmin)
  let out := (v * 65535 + b' / 2) / b'
  (min 16383 out, decide (16383 < out))

/-! ## Zone commands (R166, R167) -/

/-- First field of a zone range out of place: 0x18 or 0x1C (R166, R167). -/
def zoneRangeBad (c : Conf) (first count : Nat) : Option Nat :=
  let n := gCols c * gRows c
  if n ≤ first then some 0x18 else if count = 0 || n < first + count then some 0x1C else none

/-- Little-endian 16-bit values of a byte string. -/
def words16 : Bytes → List Nat
  | a :: b :: r => (a.toNat + 256 * b.toNat) :: words16 r
  | _ => []

/-- The ZONE_OVERRIDE of a ring (R166). -/
def overrideZones (sq : Nat) (r : Running) (data : Rd) (s : State) : State :=
  let first := fieldAt r.raw 0x18 4
  let count := fieldAt r.raw 0x1C 4
  match zoneRangeBad s.conf first count with
  | some o => finish .pf0 sq r BAD_PARAM [o] s
  | none => match armFe s.sys.fe (fieldAt r.raw 0x28 8) 2 with
    | none => finish .pf0 sq r ARM_LATE [] s
    | some n =>
      if bit (fieldAt r.raw 0x30 4) 0 then
        finish .pf0 sq r SUCCESS [count] { s with gz := { s.gz with arms := s.gz.arms ++ [{ fe := n, first, count, levels := none }] } }
      else if !data.ok || data.bytes.length < 2 * count then
        finish .pf0 sq r DMA_ERROR [min (2 * count) data.bytes.length] s
      else finish .pf0 sq r SUCCESS [count] { s with gz := { s.gz with
        arms := s.gz.arms ++ [{ fe := n, first, count, levels := some ((words16 data.bytes).take count) }] } }

/-- ZONE_OVERRIDE with CLEAR = 0 (R166). -/
def execZoneOverride (sq : Nat) (data : Rd) (s : State) : Answer :=
  runRead .pf0 sq 0x50 data (fun r s => if bit (fieldAt r.raw 0x30 4) 0 then s else overrideZones sq r data s) s

/-- ZONE_OVERRIDE with CLEAR = 1 (R166): it reads nothing from the host. -/
def execZoneOverrideClear (sq : Nat) (s : State) : Answer :=
  runRing .pf0 sq 0x50 (fun r s => if bit (fieldAt r.raw 0x30 4) 0 then overrideZones sq r { bytes := [], ok := true } s else s) s

/-- ZONE_READ (R167): its own checks, then it waits for the first FT. -/
def execZoneRead (sq : Nat) (s : State) : Answer :=
  runRing .pf0 sq 0x51 (fun r s =>
    match zoneRangeBad s.conf (fieldAt r.raw 0x18 4) (fieldAt r.raw 0x1C 4) with
    | some o => finish .pf0 sq r BAD_PARAM [o] s
    | none =>
      if 2 < fieldAt r.raw 0x28 4 then finish .pf0 sq r BAD_PARAM [0x28] s
      else holdRunning .pf0 sq r s.sys.fe { s with gz := { s.gz with copies := mput none sq none s.gz.copies } }) s

/-- The copy of a ZONE_READ: the FE of the frame and the bytes (R167). -/
def zoneCopy (s : State) (r : Running) : Nat × Bytes :=
  let pick (z : Zone) : Nat := [z.committed, z.prev, z.gain].getD (fieldAt r.raw 0x28 4) 0
  let first := fieldAt r.raw 0x18 4
  (s.sys.fe, (List.range (fieldAt r.raw 0x1C 4)).flatMap (fun k => toLE 2 (pick (zoneAt s.gz (first + k)))))

/-- The copies of the ZONE_READs that wait, taken at the first FT before anything of the new frame; a copy that PF0 cannot
write yet goes out at a later FT (R167, R440). -/
def zoneCopies (s : State) : State :=
  forAll (List.range 64) (fun n s => match waitingOn s .pf0 n 0x51 with
    | none => s
    | some r =>
      let (fe, data) := (mget none s.gz.copies n).getD (zoneCopy s r)
      if canSend s .pf0 then
        finish .pf0 n r SUCCESS (lohi fe) (emit [.hostWrite .pf0 (fieldAt r.raw 0x20 8) data]
          { s with gz := { s.gz with copies := mput none n none s.gz.copies } })
      else { s with gz := { s.gz with copies := mput none n (some (fe, data)) s.gz.copies } }) s

/-- Overrides armed for FEs up to n take effect (R166). -/
def applyOverrides (n : Nat) (g : Gz) : Gz :=
  (g.arms.filter (fun a => a.fe ≤ n)).foldl (fun g a =>
    { g with zones := (List.range a.count).foldl (fun m k =>
        mput {} (a.first + k) { mget {} m (a.first + k) with override := (a.levels.map (fun l => l.getD k 0)) } m) g.zones })
    { g with arms := g.arms.filter (fun a => n < a.fe) }

/-- Reports of dead and alive zones take effect (R164): the new zones, and those whose DEAD changed, with its new value. -/
def applyReports (g : Gz) : Gz × List (Nat × Bool) :=
  let turned := g.reports.filter (fun p => p.2 ≠ (zoneAt g p.1).dead)
  ({ g with zones := g.reports.foldl (fun m p => mput {} p.1 { mget {} m p.1 with dead := p.2 } m) g.zones, reports := [] }, turned)

/-- Drive energy of the frame just ended (R165): lit line ticks of the zone, as microseconds. ENERGY_ACC has 32 bits
(Table 7.2); DESIGN CHOICE 32: it wraps. -/
def addEnergy (c : Conf) (lit : SMap Nat) (g : Gz) : Gz :=
  { g with zones := mmap {} (fun z zn =>
      let us := slotsUs c (mget 0 lit z)
      { zn with energy := (zn.energy + driveOf zn.committed zn.gain * us / 65536) % 2 ^ 32 }) g.zones }

/-- Zone state from zero, with DEAD and AGING_GAIN kept (R167); the statistics of the frame that begins were gathered on its
own grid (R142). -/
def resetZones (g : Gz) : Gz :=
  { zones := mmap {} (fun _ z => { gain := z.gain, gainNext := z.gainNext, dead := z.dead }) g.zones
    collide := g.collide, statsLate := g.statsLate, forcedLast := g.forcedLast, clipLast := g.clipLast
    capE := g.capE, openFe := g.openFe, opened := g.opened, reports := g.reports, bank := g.bank, merges := g.merges
    merged := g.merged, progress := g.progress, scratch := g.scratch, copies := g.copies }

end Sys2Proof.Machine
end

