-- ==== Sys2Proof/Machine/Damask.lean ====
section
/-!
DEFINITION. Steps 7 to 11 of Table 6.1 on one line: compensation, encode, Damask and defects (R186 to R197), overdrive
(R198 to R209), dither (R132 to R134), and what an engine leaves for the weaver (R117 to R119, R136).
-/
namespace Sys2Proof.Machine

/-! ## Damask (R186 to R191) -/

/-- Knot Km of colour ch (R187). -/
def knot (c : Conf) (ch m : Nat) : Nat :=
  [0, fget c (DMK_KNOTA_K1 ch), fget c (DMK_KNOTA_K2 ch), fget c (DMK_KNOTB_K3 ch), 16383].getD m 16383

/-- Scale S[ch][m] (R188). -/
def knotScale (c : Conf) (ch m : Nat) : Nat :=
  [0, fget c (DMK_SCALE_S1 ch), fget c (DMK_SCALE_S2 ch), fget c (DMK_SCALE_S3 ch), 0].getD m 0

/-- Module address of a subpixel's three offsets (R189). -/
def mapAddr (c : Conf) (x y ch : Nat) : Nat := 4096 * fget c DMK_MAP_BASE_BASE + 9 * (tW c * y + x) + 3 * ch

/-- Offset o_m of a subpixel from the map (R189); all three are 0 where the read of any is uncorrectable (R190). -/
def mapOffset (c : Conf) (mem : Mem) (x y ch m : Nat) : Int :=
  let a := mapAddr c x y ch
  if badPage mem (a / 4096) || badPage mem ((a + 2) / 4096) then 0
  else signedOf 8 (mget 0 mem.bytes (a + (m - 1))).toNat

/-- The correction of step 9 (R188). -/
def correct (c : Conf) (off : Nat → Int) (ch v : Nat) : Nat :=
  if v = 16383 then v
  else
    let d (m : Nat) : Int := if m = 0 || 4 ≤ m then 0 else (off m * knotScale c ch m + 8) / 16
    let m := ((List.range 4).filter (fun k => knot c ch k ≤ v)).length - 1
    let w := knot c ch (m + 1) - knot c ch m
    let q := (2 ^ 24 + w / 2) / max 1 w
    sat14 ((v : Int) + d m + ((d (m + 1) - d m) * ((v - knot c ch m : Nat) * q : Nat) + 2 ^ 23) / 2 ^ 24)

/-- Step 7 at a pixel: the compensated channels and the number that clipped (R163). -/
def step7 (s : State) (f : Frame) (x y : Nat) : Px × Nat :=
  let p := step6 s.conf s.mem f x y
  if fbit s.conf GZ_CTRL_EN then
    let b := backlight s.conf s.gz x y
    let k (v : Nat) := compensate b (fget s.conf GZ_LEVEL_BMIN) v
    ({ r := (k p.r).1, g := (k p.g).1, b := (k p.b).1 }, b2n (k p.r).2 + b2n (k p.g).2 + b2n (k p.b).2)
  else (p, 0)

/-- Steps 7 and 8, then the correction: vd of R196. -/
def correctedAt (s : State) (f : Frame) (x y ch : Nat) : Nat :=
  let v := (step7 s f x y).1.ch ch
  let e := if fbit s.conf PIX_CTRL_ENCODE_EN then lut1d s.conf 0x0402 ch v else v
  if fbit s.conf DMK_CTRL_MAP_EN && s.dmk.inForce then correct s.conf (mapOffset s.conf s.mem x y ch) ch e else e

/-- Subpixels of a record: is (x, y) one of them (Table 9.6)? -/
def DefectRec.holds (d : DefectRec) (x y : Nat) : Bool :=
  if d.kind = 4 then y = d.y && d.x ≤ x && x < d.x + d.len
  else if d.kind = 5 then x = d.x && d.y ≤ y && y < d.y + d.len
  else x = d.x && y = d.y

/-- The in-force records, in list order. -/
def defects (c : Conf) : List DefectRec :=
  if fbit c DMK_CTRL_DEFECT_EN then (List.range (fget c DMK_DEFECT_COUNT)).map (defectAt c) else []

/-- The record that governs a subpixel: the first in list order (R197). -/
def governing (ds : List DefectRec) (x y ch : Nat) : Option DefectRec :=
  ds.find? (fun d => bit d.ch ch && d.holds x y)

/-- Change that a defective neighbour (nx, ny) under record d makes (Table 9.6); `across` when the neighbour lies in the
same row. -/
def neighbourChange (c : Conf) (d : DefectRec) (across : Bool) (vd : Nat) : Int :=
  if d.kind = 1 then (vd * fget c DMK_DEFECT_GAIN_DARK + 128 : Nat) / 256
  else if d.kind = 2 then -(((16383 - vd) * fget c DMK_DEFECT_GAIN_BRIGHT + 128 : Nat) / 256)
  else if (d.kind = 4 && !across) || (d.kind = 5 && across) then (vd * fget c DMK_DEFECT_GAIN_LINE + 128 : Nat) / 256
  else 0

/-- Step 9: correction and defect treatment (R196, R197). -/
def step9 (s : State) (f : Frame) (x y ch : Nat) : Nat :=
  let c := s.conf
  let ds := defects c
  let v := correctedAt s f x y ch
  match governing ds x y ch with
  | some d => if d.kind = 3 then step9Sum s f ds x y ch (((v * d.param + 64) / 128 : Nat) : Int) else v
  | none => if ds.isEmpty then v else step9Sum s f ds x y ch v
where
  /-- Own value plus every change that reaches the subpixel, saturated once (R197). -/
  step9Sum (s : State) (f : Frame) (ds : List DefectRec) (x y ch : Nat) (v : Int) : Nat :=
    let near : List (Nat × Nat × Bool) :=
      (if 0 < x then [(x - 1, y, true)] else []) ++ (if x + 1 < tW s.conf then [(x + 1, y, true)] else [])
        ++ (if 0 < y then [(x, y - 1, false)] else []) ++ (if y + 1 < tH s.conf then [(x, y + 1, false)] else [])
    sat14 (near.foldl (fun a n => match governing ds n.1 n.2.1 ch with
      | some d => a + neighbourChange s.conf d n.2.2 (correctedAt s f n.1 n.2.1 ch)
      | none => a) v)

/-- Duplicate defective subpixels, by record (R197): records whose first subpixel an earlier record governs. -/
def dupDefects (c : Conf) : Nat :=
  let ds := defects c
  let sub (d : DefectRec) : List (Nat × Nat × Nat) :=
    (List.range d.len).flatMap (fun k => (bitList d.ch 3).map (fun ch =>
      if d.kind = 4 then (d.x + k, d.y, ch) else if d.kind = 5 then (d.x, d.y + k, ch) else (d.x, d.y, ch)))
  ((List.range ds.length).filter (fun i => match ds[i]? with
    | some d => (sub d).any (fun p => (ds.take i).any (fun e => bit e.ch p.2.2 && e.holds p.1 p.2.1))
    | none => false)).length

/-! ## Overdrive (R198 to R209) -/

/-- Module address of a pixel's history (R198). -/
def histAddr (c : Conf) (x y : Nat) : Nat := 4096 * fget c OD_HIST_BASE_BASE + histBytes c * (tW c * y + x)

/-- History code of a subpixel (R198). -/
def histCode (c : Conf) (mem : Mem) (x y ch : Nat) : Nat :=
  if histBytes c = 6 then leNat (mgets 0 mem.bytes (histAddr c x y + 2 * ch) 2) % 4096
  else bits (leNat (mgets 0 mem.bytes (histAddr c x y) 4)) (10 * ch) 10

/-- The history read of a pixel is uncorrectable (R201). -/
def histLost (c : Conf) (mem : Mem) (x y : Nat) : Bool :=
  (pagesOf (histAddr c x y) (histBytes c)).any (badPage mem)

/-- Bytes of a pixel's history (R198). -/
def histPixel (c : Conf) (r g b : Nat) : Bytes :=
  if histBytes c = 6 then toLE 2 r ++ toLE 2 g ++ toLE 2 b else toLE 4 (r + 1024 * g + 1048576 * b)

/-- Interpolation of the temperature field with weights of 8 bits (R203). -/
def between8 (centre : Nat → Nat) (val : Nat → Int) (x : Nat) : Int :=
  if x < centre 0 then val 0
  else if centre 3 ≤ x then val 3
  else
    let a := ((List.range 4).filter (fun k => centre k ≤ x)).length - 1
    let f : Int := ((x - centre a) * 256 / max 1 (centre (a + 1) - centre a) : Nat)
    (val a * (256 - f) + val (a + 1) * f + 128) / 256

/-- Temperature θ at a pixel, sQ7.4 (R203). -/
def theta (c : Conf) (field : List Int) (x y : Nat) : Int :=
  between8 (fun v => (2 * v + 1) * tH c / 8)
    (fun v => between8 (fun u => (2 * u + 1) * tW c / 8) (fun u => field.getD (4 * v + u) 0) x) y

/-- Temperature set and weight (R204). -/
def odSet (c : Conf) (th : Int) : Nat × Int :=
  if th ≤ 16 * odTemp c 0 then (0, 0)
  else if 16 * odTemp c 7 ≤ th then (6, 256)
  else
    let a := ((List.range 8).filter (fun k => 16 * odTemp c k ≤ th)).length - 1
    (a, (th - 16 * odTemp c a) * 256 / (16 * (odTemp c (a + 1) - odTemp c a)))

/-- Log-dwell λ of P, uQ8.8 (R207). -/
def logDwell (p : Nat) : Nat :=
  let e := Nat.log2 p
  256 * e + (p - 2 ^ e) * 256 / 2 ^ e

/-- Dwell class and weight (R207). -/
def odClass (c : Conf) (p : Nat) : Nat × Nat :=
  let l := logDwell p
  if l ≤ odDwell c 0 then (0, 0)
  else if odDwell c 3 ≤ l then (2, 256)
  else
    let b := ((List.range 4).filter (fun k => odDwell c k ≤ l)).length - 1
    (b, (l - odDwell c b) * 256 / max 1 (odDwell c (b + 1) - odDwell c b))

/-- Stored entry E_{s,k}(i, j) of a channel (R202). -/
def odEntry (c : Conf) (st k ch i j : Nat) : Nat := min 16383 (tableAt c (0x0800 + 4 * st + k) (2178 * ch + 2 * (33 * i + j)) 2)

/-- Frame table entry F_s(i, j) (R208). -/
def frameEntry (c : Conf) (p st ch i j : Nat) : Nat :=
  let (b, w) := odClass c p
  (odEntry c st b ch i j * (256 - w) + odEntry c st (b + 1) ch i j * w + 128) / 256

/-- Step 10 (R209): from history and target, dwell P and temperature. -/
def overdrive (c : Conf) (p : Nat) (th : Int) (ch h t : Nat) : Nat :=
  let (a, wt) := odSet c th
  let i := h / 512
  let fh := h % 512
  let j := t / 512
  let ft := t % 512
  let v (st : Nat) : Int :=
    let top := frameEntry c p st ch i j * (512 - ft) + frameEntry c p st ch i (j + 1) * ft
    let bottom := frameEntry c p st ch (i + 1) j * (512 - ft) + frameEntry c p st ch (i + 1) (j + 1) * ft
    ((top * (512 - fh) + bottom * fh + 8192) / 16384 : Nat)
  sat14 ((v a * (256 - wt) + v (a + 1) * wt + 2048) / 4096)

/-! ## Dither (R132 to R134) -/

/-- Threshold matrix B (Table 6.7). -/
def ditherB (y x : Nat) : Nat := [0, 8, 2, 10, 12, 4, 14, 6, 3, 11, 1, 9, 15, 7, 13, 5].getD (4 * (y % 4) + x % 4) 0

/-- Pre-dither code (R119). -/
def roundCode (n v : Nat) : Nat := min (2 ^ n - 1) (roundDivN v (2 ^ (14 - n)))

/-- Step 11 (R132). -/
def dither (c : Conf) (n p x y ch v : Nat) : Nat :=
  if fbit c PIX_DITHER_EN then
    let t := (ditherB y (x + ch) + 4 * p) % 16
    min (2 ^ n - 1) ((v + t * 2 ^ (14 - n) / 16) / 2 ^ (14 - n))
  else roundCode n v

/-! ## One line through an engine (R117, R136) -/

/-- Is a line of the frame being scanned substituted (R113)? -/
def lineSubstituted (f : Frame) (y : Nat) : Bool := mget 0 f.lineFrom y ≠ 0

/-- Overdrive passes through for the whole frame (R200). -/
def odWholeOff (s : State) : Bool := !(fbit s.conf OD_CTRL_EN) || s.od.offFrame

/-- Overdrive passes through for a line (R200); a substituted line in every scan that shows it (R114). -/
def odOff (s : State) (f : Frame) (y : Nat) : Bool := odWholeOff s || lineSubstituted f y

/-- Steps 9 to 11 of one subpixel: plain code, history code, pre-dither code and final code. -/
def subpixel (s : State) (f : Frame) (x y ch : Nat) : Nat × Nat × Nat × Nat :=
  let c := s.conf
  let n := codeBits c
  let v9 := step9 s f x y ch
  let h := histCode c s.mem x y ch
  let v10 := if odOff s f y || histLost c s.mem x y then v9
    else overdrive c s.od.pred (theta c s.od.theta x y) ch (code14 n h) v9
  (roundCode n v9, h, roundCode n v10, dither c n (mget 0 s.pix.phase (bandOfLine c y)) x y ch v10)

/-- The line buffer that the engines leave for line y (R117, R119, R136). -/
def engineLine (s : State) (f : Frame) (y : Nat) : LineBuf :=
  let l := (List.range (tW s.conf)).flatMap (fun x => (List.range 3).map (fun ch => subpixel s f x y ch))
  let pre := l.map (fun p => p.2.2.1)
  { plain := l.map (fun p => p.1), hist := l.map (fun p => p.2.1), pre, codes := l.map (fun p => p.2.2.2)
    newHist := pre.map some, subst := if lineSubstituted f y then List.range 192 else [] }

/-- Clipped subpixels of a line, and the zones they lie in (R163). -/
def lineClips (s : State) (f : Frame) (y : Nat) : Nat × List Nat :=
  let idle := idleStripes s
  ((List.range (tW s.conf)).filter (fun x => idle.all (fun k => !((stripeCols s.conf k).contains x)))).foldl (fun a x =>
    let k := (step7 s f x y).2
    if k = 0 then a else (a.1 + k, (zoneRowOf s.conf y * gCols s.conf + zoneColOf s.conf x) :: a.2)) (0, [])

/-- The position that probe k watches in this frame, as its register stood at the FT (R434). -/
def probeAt (s : State) (k : Nat) : Nat × Nat :=
  let w := mget 0 s.trc.probes k
  (wbits w 0 16, wbits w 16 16)

/-- Probe records of line y at D2 (Table 17.7): c14 of R, G, B after steps 6, 9 and 11, one record each, in that order;
a payload holds R, G and B in bits 13:0, 29:16 and 45:32 (log entry 11). -/
def probeLine (f : Frame) (y : Nat) (s : State) : State :=
  let rgb (g : Nat → Nat) : Nat := g 0 + 2 ^ 16 * g 1 + 2 ^ 32 * g 2
  let n := codeBits s.conf
  forAll ((List.range 4).filter (fun k => (probeAt s k).2 = y && (probeAt s k).1 < tW s.conf)) (fun k t =>
    let x := (probeAt s k).1
    makeTrace 2 2 (rgb (fun ch => code14 n (subpixel s f x y ch).2.2.2))
      (makeTrace 2 2 (rgb (step9 s f x y)) (makeTrace 2 2 (rgb (step6 s.conf s.mem f x y).ch) t))) s

/-- Replace one stripe's part of a list of three values per column. -/
def replaceStripe {α : Type} (c : Conf) (k : Nat) (new old : List α) : List α :=
  let (x0, w) := stripe c k
  old.take (3 * x0) ++ (new.drop (3 * x0)).take (3 * w) ++ old.drop (3 * (x0 + w))

/-- The lite path for one stripe of a line (R136, R137, Table 6.8). -/
def litePath (c : Conf) (b : LineBuf) (k : Nat) (plainDone histDone : Bool) : LineBuf :=
  let zero := b.codes.map (fun _ => 0)
  let src := if plainDone then b.plain else if histDone then b.hist else zero
  let hist := if plainDone then b.plain.map some else if histDone then b.hist.map (fun _ => none) else zero.map some
  { b with codes := replaceStripe c k src b.codes, newHist := replaceStripe c k hist b.newHist
           subst := if b.subst.contains k then b.subst else b.subst ++ [k] }

/-- A stripe of a line goes by the lite path (R136, R137, Table 6.8). -/
def sendLite (line stripe : Nat) (plainDone historyDone : Bool) (s : State) : State :=
  let b := litePath s.conf (mget {} s.pix.lines line) stripe plainDone historyDone
  let (n, l0, k0) := s.pix.late.getD (0, line, stripe)
  let pix := { s.pix with
    lines := mput {} line b s.pix.lines
    late := some (n + 1, l0, k0)
    lite := mput false (65536 * stripe + line) true s.pix.lite
    litePlain := satAdd 0xFFFF s.pix.litePlain (b2n plainDone)
    liteHist := satAdd 0xFF s.pix.liteHist (b2n (!plainDone && historyDone))
    liteBlack := satAdd 0xFF s.pix.liteBlack (b2n (!plainDone && !historyDone)) }
  trace1 2 { s with pix }

/-- A stripe whose engine does not run: code 0 where it has none (R389), else its history, where the read of it is whole
(Table 13.4 row 6, R136). -/
def sendIdle (y k : Nat) (s : State) : State :=
  sendLite y k false (!(s.flt.unserved.contains k) && (stripeCols s.conf k).all (fun x => !(histLost s.conf s.mem x y))) s

/-- The engines process line y (R117): its buffer goes to the weaver, its clips to Gauze; stripes whose engine does not run go by
the lite path. -/
def runEngines (f : Frame) (y : Nat) (s : State) : State :=
  let (n, zs) := lineClips s f y
  let pix := { s.pix with lines := mput {} y (engineLine s f y) s.pix.lines }
  let gz := { s.gz with clip := satAdd 0xFFFFFFFF s.gz.clip n
                        clipZones := zs.foldl (fun m z => mput false z true m) s.gz.clipZones }
  forAll (idleStripes s) (sendIdle y) (probeLine f y { s with pix, gz })

/-- WEAVER_CUTOFF (R32, R136, R137): the stripe's final codes for the line are not in the weaver. -/
def execWeaverCutoff (line stripe : Nat) (plainDone historyDone : Bool) (s : State) : Answer :=
  .next (if s.pwr.fall = .idle && s.pix.lines.any (fun p => p.1 = line) && stripe < 192 && !(mget false s.pix.lite (65536 * stripe + line)) then
    sendLite line stripe plainDone historyDone s
  else s)

end Sys2Proof.Machine
end

