-- ==== Sys2Proof/Machine/Linen.lean ====
section
/-!
DEFINITION. The Linen retained store (R318 to R332): records, host access, brackets, stores, recall and margin reads.
-/
namespace Sys2Proof.Machine

/-! ## Records (R322 to R324) -/

/-- Slot A, slot B and slot size of a device record TYPE (Table 14.4, R400). -/
def recordSlots (type : Nat) : Option (Nat × Nat × Nat) :=
  if type = 0x0101 then some (0x78000, 0x78040, 0x40)
  else if type = 0x0102 then some (0x78080, 0x78180, 0x100)
  else if type = 0x0103 then some (0x78400, 0x79400, 0x1000)
  else if type = 0x0104 then some (0x7A400, 0x7AC00, 0x800)
  else if type = 0x0105 then some (0x85400, 0x85800, 0x400)
  else if 0x0110 ≤ type && type ≤ 0x0114 then some (0x7B400 + 0x2000 * (type - 0x0110), 0x7C400 + 0x2000 * (type - 0x0110), 0x1000)
  else none

/-- A payload padded to a multiple of 4 bytes. -/
def pad4 (p : Bytes) : Bytes := p ++ List.replicate ((4 - p.length % 4) % 4) 0

/-- A whole record (Table 14.3). -/
def recordBytes (type seqNo : Nat) (payload : Bytes) : Bytes :=
  let h := toLE 2 type ++ toLE 2 payload.length ++ toLE 4 seqNo
  h ++ toLE 4 (crc32c (h ++ pad4 payload)) ++ pad4 payload

/-- The valid record of a TYPE in a slot: its sequence and payload (R322). -/
def recordAt (m : SMap Byte) (type off size : Nat) : Option (Nat × Bytes) :=
  let h := mgets 0 m off 12
  let len := fieldAt h 2 2
  if fieldAt h 0 2 = type && 12 + len + (4 - len % 4) % 4 ≤ size then
    let p := mgets 0 m (off + 12) (len + (4 - len % 4) % 4)
    if fieldAt h 8 4 = crc32c (h.take 8 ++ p) then some (fieldAt h 4 4, p.take len) else none
  else none

/-- Is sequence a newer than b (R322)? -/
def newer (a b : Nat) : Bool :=
  let d := (a + 2 ^ 32 - b % 2 ^ 32) % 2 ^ 32
  decide (1 ≤ d) && decide (d < 2 ^ 31)

/-- The governing record of a device TYPE: its slot (0 A, 1 B), sequence and payload. -/
def governs (m : SMap Byte) (type : Nat) : Option (Nat × Nat × Bytes) :=
  match recordSlots type with
  | none => none
  | some (a, b, size) =>
    match recordAt m type a size, recordAt m type b size with
    | none, none => none
    | some r, none => some (0, r)
    | none, some r => some (1, r)
    | some r, some q => if newer q.1 r.1 then some (1, q) else some (0, r)

/-- Payload of a device record; none when the TYPE is absent. -/
def deviceRecord (m : SMap Byte) (type : Nat) : Option Bytes := (governs m type).map (fun r => r.2.2)

/-- Write a device record (R323): the slot without the newest valid record, SEQ one higher; slot A and 1 when absent. -/
def putRecord (type : Nat) (payload : Bytes) (m : SMap Byte) : SMap Byte :=
  match recordSlots type with
  | none => m
  | some (a, b, _) =>
    match governs m type with
    | none => mputs 0 a (recordBytes type 1 payload) m
    | some (k, n, _) => mputs 0 (if k = 0 then b else a) (recordBytes type ((n + 1) % 2 ^ 32) payload) m

def setSram (m : SMap Byte) (s : State) : State := { s with lin := { s.lin with sram := m } }

/-- Write a device record of the block's own. -/
def writeDevice (type : Nat) (payload : Bytes) (s : State) : State := setSram (putRecord type payload s.lin.sram) s

/-! ## The fault log as a ring (R323, R399) -/

/-- Valid fault records: slot and sequence, in ascending slot order. -/
def faultSlots (m : SMap Byte) : List (Nat × Nat) :=
  (List.range 2048).filterMap (fun k => (recordAt m 0x0201 (0x88000 + 64 * k) 64).map (fun r => (k, r.1)))

/-- Slot and sequence of the newest fault record. -/
def newestFault (m : SMap Byte) : Option (Nat × Nat) :=
  (faultSlots m).foldl (fun a p => match a with
    | none => some p
    | some q => if newer p.2 q.2 then some p else some q) none

/-- Payload of a fault record (Table 18.3). -/
def faultPayload (cls outcome inst fe seconds : Nat) (d : List Nat) : Bytes :=
  toLE 1 cls ++ toLE 1 outcome ++ toLE 2 inst ++ toLE 8 fe ++ toLE 4 seconds
    ++ (List.range 6).flatMap (fun k => toLE 4 (d.getD k 0)) ++ List.replicate 12 0

/-- Append a record to the fault log (R323, R399). -/
def logFaultAt (fe seconds cls outcome inst : Nat) (d : List Nat) (s : State) : State :=
  let (slot, n) := match newestFault s.lin.sram with
    | none => (0, 1)
    | some (k, q) => ((k + 1) % 2048, (q + 1) % 2 ^ 32)
  setSram (mputs 0 (0x88000 + 64 * slot) (recordBytes 0x0201 n (faultPayload cls outcome inst fe seconds d)) s.lin.sram) s

/-- Write the record of a fault that is detected now. -/
def logFault (cls outcome inst : Nat) (d : List Nat) (s : State) : State :=
  logFaultAt s.sys.fe s.lin.seconds cls outcome inst d s

/-! ## Host access (R319 to R321) -/

/-- Offset of byte k of a wrapping access at o (R320). -/
def wrapAt (o k : Nat) : Nat := 1024 * (o / 1024) + (o + k) % 1024

/-- Pairs of offset and byte of a wrapping write, in order. -/
def wrapRun (o : Nat) (d : Bytes) : List (Nat × Byte) := (keyed 0 d).map (fun p => (wrapAt o p.1, p.2))

/-- May a host or an engine write this offset (Table 14.2, R318, R321)? -/
def linWritable (blocks off : Nat) : Bool :=
  0xC0000 ≤ off && off ≤ 0xFFFFF && !(1 ≤ blocks && 0xF0000 ≤ off) && !(2 ≤ blocks && 0xE0000 ≤ off) && blocks ≠ 3

/-- May a requester write an offset (Table 14.2)? -/
def mayWrite (blocks : Nat) (u : LinenUser) (off : Nat) : Bool :=
  match u with
  | .host | .engine => linWritable blocks off
  | .firmware => decide (off < 0xC0000)
  | .security => decide (off ≤ 0xFFFFF)

/-- May a requester read an offset (Table 14.2)? The engines read the user area alone. -/
def mayRead (u : LinenUser) (off : Nat) : Bool := decide (off ≤ 0xFFFFF) && (u ≠ .engine || decide (0xC0000 ≤ off))

/-- Offset of byte k of a requester's access at o: the host and the engines wrap, the others continue (R320). -/
def placeAt (u : LinenUser) (o k : Nat) : Nat :=
  match u with
  | .host | .engine => wrapAt o k
  | .firmware | .security => o + k

/-- Is a requester's access of n bytes at o refused: some byte of it may not be reached, or lies past the end (R319, R320)? -/
def linenRefused (blocks : Nat) (u : LinenUser) (writes : Bool) (o n : Nat) : Bool :=
  !((List.range n).all (fun k => if writes then mayWrite blocks u (placeAt u o k) else mayRead u (placeAt u o k)))

/-- Offset of the first byte of a write that its requester may not write (R319). -/
def firstDenied (s : State) (o n : Nat) : Option Nat :=
  ((List.range n).map (wrapAt o)).find? (fun a => !(linWritable s.lin.blocks a))

/-- LINEN_READ (R319, R320): every area reads at every level (Table 14.2, R387). -/
def execLinenRead (sq : Nat) (s : State) : Answer :=
  runHost .pf1 sq 0x20 (fun r s =>
    let n := fieldAt r.raw 0x1C 4
    let d := (List.range n).map (fun k => mget 0 s.lin.sram (placeAt .host (fieldAt r.raw 0x18 4) k))
    finish .pf1 sq r SUCCESS [n] (emit [.hostWrite .pf1 (fieldAt r.raw 0x20 8) d] s)) s

/-- A refusal under R319: counted, and traced (R381 names refusals; Table 17.7). -/
def denyHost (s : State) : State :=
  trace1 10 { s with lin := { s.lin with deniedHost := satAdd 0xFFFF s.lin.deniedHost 1 } }

/-- Bytes of a LINEN_WRITE land, in the order of R320 (R327). -/
def landBytes (o : Nat) (d : Bytes) (s : State) : State := setSram (mputAll 0 (wrapRun o d) s.lin.sram) s

/-- A refusal counts for the requester that LIN_DENIED has a field for (R319, Table 14.10), and is traced. -/
def denyLinen (u : LinenUser) (s : State) : State :=
  match u with
  | .host => denyHost s
  | .engine => trace1 10 { s with lin := { s.lin with deniedEngine := satAdd 0xFFFF s.lin.deniedEngine 1 } }
  | .firmware | .security => trace1 10 s

/-- A write of a requester: a refused one is dropped whole, else its bytes land in order (Table 14.2, R319, R320). -/
def writeLinen (u : LinenUser) (o : Nat) (d : Bytes) (s : State) : State :=
  if linenRefused s.lin.blocks u true o d.length then denyLinen u s
  else setSram (mputAll 0 ((keyed 0 d).map (fun p => (placeAt u o p.1, p.2))) s.lin.sram) s

/-- The bytes that a requester reads; none where the access is refused (Table 14.2, R319, R320). -/
def readLinen (u : LinenUser) (o n : Nat) (s : State) : Option Bytes :=
  if linenRefused s.lin.blocks u false o n then none
  else some ((List.range n).map (fun k => mget 0 s.lin.sram (placeAt u o k)))

/-- The LINEN_WRITE of a ring (R319, R320, R332): bytes received before a failed read have landed (log entry 12). -/
def linenWrite (sq : Nat) (r : Running) (data : Rd) (s : State) : State :=
  let o := fieldAt r.raw 0x18 4
  let n := fieldAt r.raw 0x1C 4
  let id := fieldAt r.raw 0x28 4
  match firstDenied s o n with
  | some a => finish .pf1 sq r NOT_PERMITTED [a] (denyHost s)
  | none =>
    let d := data.bytes.take n
    let whole := data.ok && decide (d.length = n)
    if id = 0 then
      if whole then finish .pf1 sq r SUCCESS [n] (landBytes o d s)
      else finish .pf1 sq r DMA_ERROR [d.length] (landBytes o d s)
    else match s.lin.brackets.find? (fun b => b.id = id) with
      | none => finish .pf1 sq r BAD_PARAM [0x28] s
      | some b =>
        if 256 < b.writes.length + n then finish .pf1 sq r BAD_PARAM [0x1C] s
        else if !whole then finish .pf1 sq r DMA_ERROR [d.length] s
        else
          let bs := s.lin.brackets.map (fun c => if c.id = id then { c with writes := c.writes ++ wrapRun o d } else c)
          finish .pf1 sq r SUCCESS [n] { s with lin := { s.lin with brackets := bs } }

/-- At the fall, bytes already received still land before the freeze, and nothing completes (R327, Table 14.5). -/
def fallWrite (sq : Nat) (data : Rd) (s : State) : State :=
  match (sqOf s.rings .pf1 sq).running with
  | some r =>
    let o := fieldAt r.raw 0x18 4
    let n := fieldAt r.raw 0x1C 4
    let unfrozen := match s.lin.store with | some st => st.image.isNone | none => false
    if opcode r.raw = 0x21 && !r.waiting && fieldAt r.raw 0x28 4 = 0 && unfrozen && (firstDenied s o n).isNone then
      landBytes o (data.bytes.take n) s
    else s
  | none => s

/-- LINEN_WRITE (R319, R320, R327, R332). -/
def execLinenWrite (sq : Nat) (data : Rd) (s : State) : Answer :=
  if s.pwr.fall ≠ .idle then .next (fallWrite sq data s)
  else runRead .pf1 sq 0x21 data (fun r s => linenWrite sq r data s) s

/-! ## Brackets (R332) -/

/-- An identifier that no open bracket has: which one the spec does not say, so it is the first free one from a free
value on (log entry 3). -/
def newBracketId (s : State) : Nat :=
  (((List.range 5).map (fun k => (freeNow s + k) % (2 ^ 32 - 1) + 1)).find? (fun i =>
    !(s.lin.brackets.any (fun b => b.id = i)))).getD 1

/-- LINEN_BRACKET_OPEN (R332). -/
def execLinenBracketOpen (sq : Nat) (s : State) : Answer :=
  runRing .pf1 sq 0x23 (fun r s =>
    if 4 ≤ s.lin.brackets.length then finish .pf1 sq r RESOURCE_BUSY [] s
    else
      let id := newBracketId s
      finish .pf1 sq r SUCCESS [id]
        { s with lin := { s.lin with brackets := s.lin.brackets ++ [{ id }] }, free := s.free + 1 }) s

/-- Close a bracket, applying its writes or not (R332). -/
def closeBracket (sq : Nat) (r : Running) (apply_ : Bool) (s : State) : State :=
  let id := fieldAt r.raw 0x18 4
  match s.lin.brackets.find? (fun b => b.id = id) with
  | none => finish .pf1 sq r BAD_PARAM [0x18] s
  | some b =>
    let w := if apply_ then b.writes else []
    let brackets := s.lin.brackets.filter (fun c => c.id ≠ id)
    finish .pf1 sq r SUCCESS [(w.map Prod.fst).eraseDups.length]
      { s with lin := { s.lin with brackets, sram := mputAll 0 w s.lin.sram } }

/-- LINEN_BRACKET_CLOSE (R332). -/
def execLinenBracketClose (sq : Nat) (s : State) : Answer :=
  runRing .pf1 sq 0x24 (fun r s => if bit (fieldAt r.raw 0x1C 4) 0 then s else closeBracket sq r true s) s

/-- LINEN_BRACKET_CLOSE with ABORT (R332). -/
def execLinenBracketAbort (sq : Nat) (s : State) : Answer :=
  runRing .pf1 sq 0x24 (fun r s => if bit (fieldAt r.raw 0x1C 4) 0 then closeBracket sq r false s else s) s

/-- Open brackets are discarded unapplied (R332). -/
def dropBrackets (s : State) : State := { s with lin := { s.lin with brackets := [] } }

/-! ## Stores (R325 to R329) -/

/-- AGING_GAIN of a counter K (R165); an AGING_CURVE value below 32768 is read as 32768 (Table 7.1). -/
def agingGain (c : Conf) (k : Nat) : Nat :=
  if fbit c GZ_CTRL_AGING_EN then
    let a (i : Nat) : Nat := max 32768 (tableAt c 0x0503 (2 * i) 2)
    let sh := fget c GZ_AGING_SHIFT
    let i := k / 2 ^ sh
    let f : Int := (k / 2 ^ (sh - 8) % 256 : Nat)
    if 63 ≤ i then a 63 else ((a i : Int) + (((a (i + 1) : Int) - a i) * f + 128) / 256).toNat
  else 32768

/-- Counter K of a zone (Table 14.1). -/
def zoneK (m : SMap Byte) (z : Nat) : Nat := leNat (mgets 0 m (4 * z) 4)

/-- The fold of one zone (R165): K grows by ENERGY_ACC >> 20, wrapping at 32 bits (log entry 13). -/
def foldZone (c : Conf) (z : Nat) (p : SMap Byte × SMap Zone) : SMap Byte × SMap Zone :=
  let zn := mget {} p.2 z
  let k := (zoneK p.1 z + zn.energy / 2 ^ 20) % 2 ^ 32
  (mputs 0 (4 * z) (toLE 4 k) p.1, mput {} z { zn with energy := zn.energy % 2 ^ 20, gainNext := agingGain c k } p.2)

/-- Writes through port B of the zone table may meet the solver's: COLLIDE grows by a number that the spec leaves open, and
the firmware repeats what was dropped (R149). -/
def portB (s : State) : State :=
  if gauzeOn s && s.gz.rowsDone < gRows s.conf then
    skipFree 1 { s with gz := { s.gz with collide := satAdd 255 s.gz.collide (freeNow s) } }
  else s

/-- The fold of every zone (R165). -/
def foldZones (s : State) : State :=
  let s := portB s
  let p := (List.range (gCols s.conf * gRows s.conf)).foldl (fun p z => foldZone s.conf z p) (s.lin.sram, s.gz.zones)
  { s with lin := { s.lin with sram := p.1 }, gz := { s.gz with zones := p.2 } }

/-- Payload of the OPERATING record (Table 14.4). -/
def operating (l : Lin) : Bytes :=
  toLE 4 l.seconds ++ toLE 4 l.boots ++ toLE 4 l.falls ++ toLE 4 l.braces ++ toLE 4 l.wear0 ++ toLE 4 l.wear1
    ++ toLE 4 l.margins ++ toLE 1 (l.blocks + 4 * b2n l.locked)

/-- Rewrite the OPERATING record from the running counts. -/
def putOperating (s : State) : State := writeDevice 0x0101 (operating s.lin) s

/-- The security controller sets BLOCKS, which it may do while LOCKED is 0 (R321). -/
def protectBlocks (n : Nat) (s : State) : State :=
  if s.lin.locked then s else putOperating { s with lin := { s.lin with blocks := n % 4 } }

/-- A page of a bank whose hidden CRC fails from now on (R330). -/
def decayPage (bank page : Nat) (l : Lin) : Lin :=
  let add (p : List Nat) : List Nat := if p.contains page || 1024 ≤ page then p else ascending (page :: p)
  if bank = 0 then { l with bad0 := add l.bad0 } else { l with bad1 := add l.bad1 }

/-- What happens to Linen inside the die (Table 14.2, R321, R330). What a requester reads goes to it alone. -/
def linenAccess (a : LinenAccess) (s : State) : State :=
  match a with
  | .write u o d => writeLinen u o d s
  | .read u o n => if (readLinen u o n s).isNone then denyLinen u s else s
  | .protect n => protectBlocks n s
  | .decay bank page => { s with lin := decayPage bank page s.lin }

/-- The black box in the trace log (R387): slot 0 the index of the newest record and the count, then the records, oldest
first, PHASE 0 (log entry 11). -/
def flushBox (s : State) : State :=
  let l := s.trc.box.reverse
  let slot (r : TraceRec) : Bytes := traceHead r ++ toLE 4 (r.payload / 2 ^ 64 % 2 ^ 31)
  setSram (mputs 0 0xA8000 (toLE 4 l.length ++ toLE 4 l.length ++ List.replicate 24 0 ++ l.flatMap slot) s.lin.sram) s

/-- The commit word (R325): the valid cell with the newer sequence. -/
def commitWord (l : Lin) : Option CommitCell :=
  match l.cell0, l.cell1 with
  | none, none => none
  | some a, none => some a
  | none, some b => some b
  | some a, some b => if newer b.seqNo a.seqNo then some b else some a

/-- Bank that a store writes: the one that the commit word does not name; bank 0 when no cell is valid (log entry 13). -/
def storeBank (l : Lin) : Nat := match commitWord l with | some c => 1 - c.bank | none => 0

/-- Count the store about to be made into a bank, and report wear once (R325, R329). -/
def countWear (bank : Nat) (s : State) : State :=
  let l := s.lin
  if bank = 0 then
    let n := satAdd 0xFFFFFFFF l.wear0 1
    postIf (decide (900000 ≤ n) && !l.worn0) 0x0E05 1 [0, n]
      { s with lin := { l with wear0 := n, worn0 := l.worn0 || decide (900000 ≤ n) } }
  else
    let n := satAdd 0xFFFFFFFF l.wear1 1
    postIf (decide (900000 ≤ n) && !l.worn1) 0x0E05 1 [1, n]
      { s with lin := { l with wear1 := n, worn1 := l.worn1 || decide (900000 ≤ n) } }

/-- A request that is not a LINEN_STORE's, among the requests that wait (R326). -/
def ownRequest : Nat := 64

/-- A LINEN_STORE's request whose ring a reset took: it still waits as R329 says. -/
def orphanRequest : Nat := 65

/-- LINEN_STORE_BEGIN (R325): the fold phase, serving the requests given and every delayed one (R326). -/
def beginStore (serves : List Nat) (s : State) : State :=
  let bank := storeBank s.lin
  let st : Store := { bank, serves := (serves ++ s.lin.delayed).filter (· < ownRequest) }
  trace1 9 (flushBox (putOperating (foldZones (countWear bank
    { s with lin := { s.lin with store := some st, delayed := [], queued := none } }))))

/-- A store is requested for a ring, or for the block itself (R326). -/
def requestStore (ring : Nat) (s : State) : State :=
  match s.lin.store with
  | none => beginStore [ring] s
  | some st =>
    if st.image.isNone then
      if ring < ownRequest then { s with lin := { s.lin with store := some { st with serves := st.serves ++ [ring] } } } else s
    else { s with lin := { s.lin with queued := some (s.lin.queued.getD [] ++ [ring]) } }

/-- LINEN_STORE (R326, R329): within 1 s of the previous commit it waits, unless an unfrozen store serves it. -/
def execLinenStore (sq : Nat) (s : State) : Answer :=
  runRing .pf1 sq 0x22 (fun r s =>
    let s1 := holdRunning .pf1 sq r 0 s
    if s.lin.recent && s.lin.store.isNone then { s1 with lin := { s1.lin with delayed := s1.lin.delayed ++ [sq] } }
    else requestStore sq s1) s

/-- LINEN_STORE_DELAY_EXPIRY (R329): 1 s after the previous commit, the delayed requests go ahead. -/
def execLinenStoreDelayExpiry (s : State) : Answer :=
  let s1 := { s with lin := { s.lin with recent := false } }
  .next (match s.lin.delayed with
  | [] => s1
  | _ :: _ => if s.lin.store.isNone && s.pwr.fall = .idle && s.sys.mode ≠ .dormant then beginStore [] s1 else s1)

/-- Is the block in a running mode (Table 2.2): out of reset, BOOT and DORMANT? -/
def isRunning (s : State) : Bool := s.sys.mode ≠ .dormant && s.sys.mode ≠ .boot

/-- LINEN_STORE_INTERVAL (R326): INTERVAL_MIN minutes of running have passed since the last committed store. -/
def execLinenStoreInterval (s : State) : Answer :=
  .next (if fbit s.conf LIN_CTRL_AUTO_EN && isRunning s && s.pwr.fall = .idle then requestStore ownRequest s else s)

/-- LINEN_FREEZE (R327): the image is fixed. -/
def execLinenFreeze (s : State) : Answer :=
  .next (match s.lin.store with
  | some st => if st.image.isNone then { s with lin := { s.lin with store := some { st with image := some s.lin.sram } } } else s
  | none => s)

/-- The bank as the copy phase leaves it: the image, with the page that verification found wrong twice marked (R328). -/
def programBank (bank : Nat) (image : SMap Byte) (failed : Option Nat) (l : Lin) : Lin :=
  if bank = 0 then { l with bank0 := image, bad0 := failed.toList } else { l with bank1 := image, bad1 := failed.toList }

/-- Write the commit cell that holds the older sequence (R325). -/
def writeCell (bank : Nat) (l : Lin) : Lin :=
  let n := match commitWord l with | some c => (c.seqNo + 1) % 2 ^ 32 | none => 1
  let second := match l.cell0, l.cell1 with
    | some _, none => true
    | some a, some b => newer a.seqNo b.seqNo
    | _, _ => false
  if second then { l with cell1 := some { bank, seqNo := n } } else { l with cell0 := some { bank, seqNo := n } }

/-- After a store ends, one further store serves every request that waits (R326); LINEN_STOREs alone wait 1 s more after
a commit (R329). At the fall no further store is made. -/
def nextStore (s : State) : State :=
  match s.lin.queued with
  | none => s
  | some q =>
    if s.pwr.fall ≠ .idle then { s with lin := { s.lin with queued := none } }
    else if s.lin.recent && !(q.contains ownRequest) then
      { s with lin := { s.lin with queued := none, delayed := s.lin.delayed ++ q } }
    else beginStore q s

/-- The LINEN_STOREs that a store served complete. -/
def endServed (l : List Nat) (status : Nat) (res : List Nat) (s : State) : State := finishAll .pf1 l 0x22 status res s

/-- A store ends (R325, R326, R328): the copy and verification are over, and the commit word is written, or the store
fails. -/
def commitStore (us : Nat) (failedPage : Option Nat) (s : State) : State :=
  match s.lin.store with
  | some { image := some image, bank, serves } =>
    let l := programBank bank image failedPage { s.lin with store := none }
    match failedPage with
    | some p => nextStore (endServed serves RESOURCE_BUSY [] (post 0x0E03 2 [bank, p] { s with lin := l }))
    | none => nextStore (endServed serves SUCCESS [us, bank]
        { s with lin := writeCell bank { l with lastUs := us % 4096, recent := true } })
  | _ => s

/-! ## Recall and margin reads (R330, R331) -/

/-- Pages of the bank in force whose hidden CRC fails. -/
def badPages (l : Lin) (bank : Nat) : List Nat := if bank = 0 then l.bad0 else l.bad1

/-- The SRAM after recall: the bank in force, with its bad pages taken from the other bank (R330). -/
def recalled (l : Lin) (bank : Nat) : SMap Byte :=
  let bad := badPages l bank
  let (mine, other) := if bank = 0 then (l.bank0, l.bank1) else (l.bank1, l.bank0)
  mputAll 0 (other.filter (fun p => bad.contains (p.1 / 1024))) (mkeep (fun k => !(bad.contains (k / 1024))) mine)

/-- Take the running counts and LIN_PROT from the OPERATING record; an absent one counts as zeros (log entry 13). -/
def loadOperating (l : Lin) : Lin :=
  let p := (deviceRecord l.sram 0x0101).getD []
  let w (k : Nat) := fieldAt p (4 * k) 4
  { l with seconds := w 0, boots := w 1, falls := w 2, braces := w 3
           wear0 := w 4, wear1 := w 5, margins := w 6
           worn0 := decide (900000 ≤ w 4), worn1 := decide (900000 ≤ w 5)
           blocks := fieldAt p 28 1 % 4, locked := bit (fieldAt p 28 1) 2 }

/-- Linen recall (R330). -/
def recallLinen (s : State) : State :=
  match commitWord s.lin with
  | none => post 0x0E02 2 []
      { s with lin := loadOperating { s.lin with sram := [], blank := true, mixed := false } }
  | some c =>
    let bad := badPages s.lin c.bank
    postIf (!bad.isEmpty) 0x0E01 2 [bad.length, bad.headD 0]
      { s with lin := loadOperating { s.lin with sram := recalled s.lin c.bank, blank := false, mixed := !bad.isEmpty } }

/-- Linen's SRAM is in use and a store may begin: out of DORMANT and of the fall, and recalled (R326, R330). -/
def linenLives (s : State) : Bool := s.sys.mode ≠ .dormant && s.sys.stage ≠ .unpowered && s.pwr.fall = .idle

/-- LINEN_MARGIN_READ (R331): pages weak at margin, by bank. A weak page of the bank in force requests a store. -/
def execLinenMarginRead (weak0 weak1 : List Nat) (s : State) : Answer :=
  .next (match commitWord s.lin with
  | none => s
  | some c =>
    let weak := if c.bank = 0 then weak0 else weak1
    if weak.isEmpty || s.lin.store.isSome || !(linenLives s) then s
    else
      let s1 := requestStore ownRequest { s with lin := { s.lin with margins := s.lin.margins + 1 } }
      post 0x0E04 1 [c.bank, weak.length] s1)

/-- POWERED_SECOND (R399): the running count of powered seconds. -/
def execPoweredSecond (s : State) : Answer := .next { s with lin := { s.lin with seconds := (s.lin.seconds + 1) % 2 ^ 32 } }

end Sys2Proof.Machine
end

