-- ==== Sys2Proof/Machine/Faults.lean ====
section
/-!
DEFINITION. The guarantee (R404), engines and checkers (R389 to R394), solver pairs (R395), the SPARES record (R400) and
FAULT_QUERY (R401).
-/
namespace Sys2Proof.Machine

/-! ## The guarantee (R404) -/

/-- FLT_GUARANTEE (Table 18.10). -/
def guaranteeWord (s : State) : Nat :=
  let noChecker := s.flt.checkers.isEmpty
  let scrub := !(fbit s.conf MEM_CTRL_SCRUB_EN) || decide (360 < fget s.conf MEM_SCRUB_PERIOD_MIN)
  let conditions := s.sys.vinLow || s.sys.brace || decide (1760 ≤ s.thm.junction)
  let reasons := 2 * b2n noChecker + 4 * b2n scrub + 8 * b2n conditions + 16 * b2n s.mem.exhausted
  reasons + b2n (reasons = 0)

/-- Report a change of HOLDS (R404). -/
def updateGuarantee (s : State) : State :=
  let w := guaranteeWord s
  let now := bit w 0
  if now = s.flt.holds then s
  else if now then post 0x1208 0 [] { s with flt := { s.flt with holds := true } }
  else post 0x1207 2 [w] { s with flt := { s.flt with holds := false } }

/-! ## The SPARES record (R400) -/

/-- Housekeeping pairs retired: out of service and not under self-test (R396). -/
def hkRetired (f : Flt) : Nat :=
  ofBits ((List.range 2).filter (fun p => !(f.hkOk.getLsbD p) && !(f.hkCause.any (fun c => c.1 = p))))

/-- Payload of SPARES. -/
def sparesPayload (s : State) : Bytes :=
  toLE 32 (ofBits s.flt.retired) ++ toLE 4 s.flt.solverRetired.toNat
    ++ (List.range 12).flatMap (fun g => let gr := mget {} s.twl.groups g; toLE 1 (if gr.spareUsed then gr.spareLane else 0xFF))
    ++ toLE 1 (hkRetired s.flt) ++ [0, 0, 0]

/-- Rewrite SPARES. -/
def putSpares (s : State) : State := writeDevice 0x0105 (sparesPayload s) s

/-! ## Engines (R389, R393, R394) -/

/-- Physical engine of a stripe, 0xFF for none. -/
def engineOf (s : State) (stripe : Nat) : Nat := mget 0 s.flt.engineOf stripe

/-- The good engines (R389). -/
def goodEngines (s : State) : List Nat :=
  (List.range 200).filter (fun e => !(s.sec.fuses.engines.contains e) && !(s.flt.retired.contains e))

/-- FLT_MAPk as die reset release leaves it (R389, R432). -/
def assignStripes (s : State) : State :=
  let active := (goodEngines s).take 192
  { s with flt := { s.flt with
      engineOf := mputs 0 0 (active ++ List.replicate (192 - active.length) 0xFF) []
      unserved := (List.range 192).filter (fun i => active.length ≤ i) } }

/-- The assignment of R389 from the good engines; the checkers are assigned when the firmware starts (R404). -/
def assignEngines (s : State) : State :=
  let k := fget s.conf FLT_POLICY_CHECKERS
  let rest := (goodEngines s).drop 192
  let s1 := assignStripes s
  { s1 with flt := { s1.flt with
      checkers := rest.take k, idle := rest.drop k
      pendingStripes := [], trapped := [], coming := [], check := .rotating, suspect := none, testing := [] } }

/-- Put an engine among the idle spares, ascending. -/
def addIdle (e : Nat) (l : List Nat) : List Nat := ascending (e :: l)

/-- INSTANCE of a fault record where the spec names none: a free value (log entry 3). -/
def logFree (cls outcome : Nat) (d : List Nat) (s : State) : State :=
  logFault cls outcome (freeNow s % 65536) d (skipFree 1 s)

/-- An engine leaves the checkers: it tests itself no more, and a suspect that its self-test was to judge is judged no more, so
that rotation resumes at the next FT (R392; DESIGN CHOICE 146). -/
def leaveTest (e : Nat) (f : Flt) : Flt :=
  let testing := f.testing.filter (· ≠ e)
  { f with testing, suspect := if f.check = .selfTest && f.testing.contains e && testing.isEmpty then none else f.suspect }

/-- A checker leaves; the lowest idle spare replaces it (R392). -/
def retireChecker (e : Nat) (s : State) : State :=
  let next := s.flt.idle.head?
  let checkers := match next with
    | some i => s.flt.checkers.map (fun c => if c = e then i else c)
    | none => s.flt.checkers.filter (· ≠ e)
  let s1 := { s with flt := { leaveTest e s.flt with checkers, idle := s.flt.idle.drop 1, retired := s.flt.retired ++ [e] } }
  updateGuarantee (putSpares (logFree 1 6 [e, next.getD 0xFFFFFFFF] s1))

/-- An idle spare leaves (R394). -/
def retireIdle (e : Nat) (s : State) : State :=
  putSpares (logFree 1 6 [e, 0xFFFFFFFF]
    { s with flt := { s.flt with idle := s.flt.idle.filter (· ≠ e), retired := s.flt.retired ++ [e] } })

/-- The spare that an engine fault takes: the lowest idle one, else the highest-numbered checker, checker 1 before checker 0
(R389, R394). -/
def spareEngine (f : Flt) : Option Nat :=
  match f.idle with
  | e :: _ => some e
  | [] => f.checkers.getLast?

/-- Take an engine out of the idle spares and the checkers. -/
def takeEngine (e : Nat) (f : Flt) : Flt :=
  { leaveTest e f with idle := f.idle.filter (· ≠ e), checkers := f.checkers.filter (· ≠ e) }

/-- A stripe's engine is faulty: commit a spare, or mark the stripe pending (R388, R392, R394). -/
def callEngine (stripe line : Nat) (s : State) : State :=
  if s.flt.pendingStripes.contains stripe || s.flt.coming.any (fun m => m.stripe = stripe) then s
  else if fbit s.conf FLT_POLICY_ENGINE_AUTO then
    match spareEngine s.flt with
    | some e =>
      let m : EngineMove := { stripe, spare := e, line, fe := s.sys.fe, seconds := s.lin.seconds }
      updateGuarantee { s with flt := { takeEngine e s.flt with coming := s.flt.coming ++ [m] } }
    | none => logFault 1 4 stripe [engineOf s stripe, 0xFFFFFFFF, line] s
  else
    logFault 1 3 stripe [engineOf s stripe, 0xFFFFFFFF, line] (post 0x1203 2 [0, stripe]
      { s with flt := { s.flt with pendingStripes := s.flt.pendingStripes ++ [stripe] } })

/-- One spare takes its stripe at an FT (R393); `fe` is the first frame on the spare. -/
def moveEngine (fe : Nat) (m : EngineMove) (s : State) : State :=
  let old := engineOf s m.stripe
  let f := { s.flt with engineOf := mput 0 m.stripe m.spare s.flt.engineOf
                        pendingStripes := s.flt.pendingStripes.filter (· ≠ m.stripe)
                        trapped := s.flt.trapped.filter (· ≠ m.stripe)
                        retired := if m.exchange then s.flt.retired else s.flt.retired ++ [old]
                        idle := if m.exchange then addIdle old s.flt.idle else s.flt.idle }
  let s1 := putSpares (logFaultAt m.fe m.seconds 1 2 m.stripe [old, m.spare, m.line]
    (postFe 0x1202 1 fe [m.stripe, old, m.spare] { s with flt := f }))
  match m.ring with
  | some n => finishAll .pf0 [n] 0x71 SUCCESS [m.spare] s1
  | none => s1

/-- Every spare committed takes its stripe (R393), and rotation resumes after a verdict (R392). -/
def engineFt (fe : Nat) (s : State) : State :=
  let s1 := forAll s.flt.coming (moveEngine fe) { s with flt := { s.flt with coming := [] } }
  if s1.flt.suspect.isNone then
    { s1 with flt := { s1.flt with check := if s1.flt.testing.isEmpty then .rotating else .selfTest } }
  else s1

/-- Stripe that checker c of k checks in frame `fe` (R390), or the suspect (R392). -/
def checkedStripe (s : State) (c : Nat) : Nat :=
  match s.flt.suspect with
  | some (st, _) => st
  | none => let k := s.flt.checkers.length; k * (s.sys.fe % (192 / max 1 k)) + c

/-! ## Checkers (R390 to R392) -/

/-- Lines of a stripe whose comparison failed: their CRC-32 differs, the active engine's codes went out, and the checker was in
time (R391). -/
def badLines (s : State) (stripe : Nat) (v : CheckerView) : List Nat :=
  v.codes.filter (fun y => !(mget false s.pix.lite (65536 * stripe + y)) && !(v.late.contains y))

/-- Zone rows of a stripe whose histograms differ from those that the active engine merged; an engine that has trapped merges
none (R391). -/
def badRows (s : State) (stripe : Nat) (v : CheckerView) : List Nat :=
  v.rows.filter (fun i => !(s.flt.trapped.contains stripe) && decide (i < gRows s.conf))

/-- The line of the first comparison of a stripe that failed; none when all agree (R391). DESIGN CHOICE 147: a zone row's
histograms stand at the row's first line. -/
def firstBad (s : State) (stripe : Nat) (v : CheckerView) : Option Nat :=
  match badLines s stripe v ++ (badRows s stripe v).map (rowTop s.conf) with
  | [] => none
  | y :: l => some (l.foldl min y)

/-- Does a checker agree with the active engine of a stripe (R391)? -/
def agrees (s : State) (stripe : Nat) (v : CheckerView) : Bool := (firstBad s stripe v).isNone

/-- Checkers whose comparison failed while rotating: number, stripe and first line (R391, R392). -/
def failedChecks (views : List CheckerView) (s : State) : List (Nat × Nat × Nat) :=
  (keyed 0 views).filterMap (fun v =>
    if v.1 < s.flt.checkers.length && !(s.flt.unserved.contains (checkedStripe s v.1)) then
      (firstBad s (checkedStripe s v.1) v.2).map (fun y => (v.1, checkedStripe s v.1, y))
    else none)

/-- Mismatches found while rotating (R392). -/
def rotatingMismatch (views : List CheckerView) (s : State) : State :=
  match failedChecks views s with
  | [] => s
  | (c, stripe, line) :: rest =>
    let bad := (c, stripe, line) :: rest
    let s1 := { s with flt := { s.flt with check := .rechecking, suspect := some (stripe, line)
                                           mismatches := satAdd 0xFFFF s.flt.mismatches bad.length } }
    forAll bad (fun p t => post 0x1201 3 [p.2.1, engineOf s p.2.1, p.2.2] t) s1

/-- The verdict that ends a recheck: the suspect is judged, and rotation resumes at the next FT (R392). -/
def clearSuspect (s : State) : State := { s with flt := { s.flt with suspect := none } }

/-- Begin self-tests of engines (R392). -/
def selfTest (l : List Nat) (s : State) : State := { s with flt := { s.flt with check := .selfTest, testing := l } }

/-- The verdict of frame f + 1 (R392). -/
def judge (views : List CheckerView) (stripe line : Nat) (s : State) : State :=
  let s1 := clearSuspect s
  match s.flt.checkers, views with
  | [_], v :: _ =>
    if agrees s stripe v then logFault 1 1 stripe [engineOf s stripe, 0xFFFFFFFF, line]
      { s1 with flt := { s1.flt with transients := satAdd 0xFFFF s1.flt.transients 1 } }
    else selfTest s.flt.checkers s
  | [a, b], v :: w :: _ =>
    if agrees s stripe v && agrees s stripe w then logFault 1 1 stripe [engineOf s stripe, 0xFFFFFFFF, line]
      { s1 with flt := { s1.flt with transients := satAdd 0xFFFF s1.flt.transients 1 } }
    else if agrees s stripe v then retireChecker b s1
    else if agrees s stripe w then retireChecker a s1
    else if v.result = w.result then callEngine stripe line s1
    else callEngine stripe line (selfTest s.flt.checkers s1)
  | _, _ => s1

/-- What the checkers saw, at the end of the active scan (R391, R392). -/
def checkersSaw (views : List CheckerView) (s : State) : State :=
  match s.flt.check, s.flt.suspect with
  | .rotating, _ => rotatingMismatch views s
  | .rechecking, some (stripe, line) => judge views stripe line s
  | _, _ => s

/-- CHECKER_SELF_TEST_DONE (R392). With one checker under test for a suspect stripe, a pass finds the engine faulty. -/
def execCheckerSelfTestDone (engine : Nat) (pass : Bool) (s : State) : Answer :=
  .next (if s.flt.testing.contains engine then
    let s1 := { s with flt := { s.flt with testing := s.flt.testing.filter (· ≠ engine) } }
    match s.flt.suspect with
    | some (stripe, line) =>
      if pass then callEngine stripe line (clearSuspect s1) else retireChecker engine (clearSuspect s1)
    | none => if pass then s1 else retireChecker engine s1
  else s)

/-- SPARE_SELF_TEST_TIMER (R394): the next idle spare or checker in turn has tested itself. -/
def execSpareSelfTestTimer (pass : Bool) (s : State) : Answer :=
  let l := ascending (s.flt.idle ++ s.flt.checkers)
  .next (match (l.filter (s.flt.nextTest ≤ ·)).head? <|> l.head? with
  | none => s
  | some e =>
    let s1 := { s with flt := { s.flt with nextTest := e + 1 } }
    if pass then s1 else if s.flt.checkers.contains e then retireChecker e s1 else retireIdle e s1)

/-! ## Solver pairs (R395) -/

/-- The pairs that split the zone columns once pair p leaves and k, if any, takes its columns (R395). -/
def splitWithout (p : Nat) (k : Option Nat) (l : List Nat) : List Nat :=
  match k with
  | some k => l.map (fun q => if q = p then k else q)
  | none => l.filter (· ≠ p)

/-- Pairs that serve: those neither idle nor retired. -/
def servingPairs (f : Flt) : List Nat :=
  (List.range 17).filter (fun p => f.solverIdle ≠ some p && !(f.solverRetired.getLsbD p))

/-- Pair p is retired; the idle pair takes its columns from the next run, or the rest share them (R395). -/
def retirePair (p : Nat) (f : Flt) : Flt :=
  { f with solverRetired := f.solverRetired ||| BitVec.ofNat 17 (2 ^ p), pendingPairs := f.pendingPairs.filter (· ≠ p)
           solverSplit := splitWithout p f.solverIdle f.solverSplit, solverIdle := none }

/-- SOLVER_LOCKSTEP_MISMATCH (R395, R388). -/
def execSolverLockstepMismatch (pair : Nat) (s : State) : Answer :=
  .next (if (servingPairs s.flt).contains pair then
    let row := s.gz.rowsDone
    let s1 := { s with gz := { s.gz with failedPairs := s.gz.failedPairs ++ [pair]
                                         runPairs := some (s.gz.runPairs.getD s.flt.solverSplit) } }
    if !(fbit s.conf FLT_POLICY_SOLVER_AUTO) then
      logFault 2 3 pair [row, 0xFFFFFFFF] (post 0x1203 2 [2, pair] (post 0x1204 3 [pair, 0xFF, row]
        { s1 with flt := { s1.flt with pendingPairs := if s1.flt.pendingPairs.contains pair then s1.flt.pendingPairs
                                                       else s1.flt.pendingPairs ++ [pair] } }))
    else match s.flt.solverIdle with
      | some k => putSpares (logFault 2 2 pair [row, k] (post 0x1204 3 [pair, k, row]
          { s1 with flt := retirePair pair s1.flt }))
      | none => putSpares (logFault 2 4 pair [row, 0xFFFFFFFF] (post 0x1204 3 [pair, 0xFF, row]
          { s1 with flt := retirePair pair s1.flt }))
  else s)

/-! ## FAULT_QUERY (R401) -/

/-- Slots of valid fault records, newest first. -/
def faultsNewestFirst (m : SMap Byte) : List Nat :=
  match newestFault m with
  | none => []
  | some (k, _) =>
    let valid := (faultSlots m).map Prod.fst
    ((List.range 2048).map (fun i => (k + 2048 - i) % 2048)).filter (fun j => valid.contains j)

/-- FAULT_QUERY (R401). -/
def execFaultQuery (fn : Fn) (sq : Nat) (s : State) : Answer :=
  runHost fn sq 0x70 (fun r s =>
    let slots := ((faultsNewestFirst s.lin.sram).drop (fieldAt r.raw 0x18 4)).take (fieldAt r.raw 0x1C 4)
    let data := slots.flatMap (fun k => mgets 0 s.lin.sram (0x88000 + 64 * k) 64)
    finish fn sq r SUCCESS [slots.length, guaranteeWord s] (emit [.hostWrite fn (fieldAt r.raw 0x20 8) data] s)) s

end Sys2Proof.Machine
end

