-- ==== Sys2Proof/Machine/Security.lean ====
section
/-!
DEFINITION. Lifecycle, measurements, debug tokens, observation levels, content keys, SPDM sessions and IDE streams
(R365 to R380, R384, R385). FW_UPDATE stands in Modes.lean, since it can end the recovery monitor with a reset.
-/
namespace Sys2Proof.Machine

/-! ## Measurements (R370) -/

/-- A measurement slot: 48 bytes. -/
def measSlot (s : State) (k : Nat) : Bytes := mget (List.replicate 48 0) s.sec.slots k

/-- Extend a measurement slot (R370). -/
def extendSlot (k : Nat) (d : Bytes) (s : State) : State :=
  { s with sec := { s.sec with slots := mput (List.replicate 48 0) k (Config.sha384 (measSlot s k ++ d)) s.sec.slots } }

/-! ## Keys of attestation (R372) -/

/-- CDI0, from the device secret and slot 0. -/
def cdi0 (s : State) : Bytes := Config.hmac384 Config.deviceSecret (measSlot s 0)

/-- CDI1, from CDI0 and slots 1 and 2. -/
def cdi1 (s : State) : Bytes := Config.hmac384 (cdi0 s) (measSlot s 1 ++ measSlot s 2)

/-- The DeviceID key pair, private key first: the attestation key. -/
def deviceKey (s : State) : Bytes × Bytes := Config.keyPair (cdi0 s)

/-- The Alias key pair, private key first: it signs for SPDM (Table 17.4). -/
def aliasKey (s : State) : Bytes × Bytes := Config.keyPair (cdi1 s)

/-- DeviceID issues the Alias certificate of this BOOT. -/
def issueAlias (s : State) : State :=
  { s with sec := { s.sec with aliasCert := Config.certificate (deviceKey s).1 (aliasKey s).2 } }

/-- The chain in certificate slot 0 (R373). -/
def certChain (s : State) : Bytes := s.bst.chain ++ s.sec.aliasCert

/-! ## Observation (R384, R385) -/

/-- Protected content is resident (R385): a page outside the firmware region is protected, a latched or shown frame has a
protected layer in staging, or an IDE stream is secure. -/
def resident (s : State) : Bool :=
  let held (f : Option Frame) : Bool := match f with
    | some f => f.contents.any (fun c => c.layers.any (fun l => l.isProtected && l.source ≠ 2))
    | none => false
  !s.mem.guarded.isEmpty || s.sec.streams.any (fun p => p.2.secure)
    || [s.ing.shown, s.ing.coming, s.ing.prev, s.ing.lastSeen].any held

/-- Level that Table 17.8 permits. -/
def permitted (s : State) : Nat :=
  if s.sys.stage = .recovery || s.sys.mode = .dormant then 0
  else if resident s then 1
  else if s.sec.fuses.lifecycle = 0 || s.sec.fuses.lifecycle = 3 || s.sec.token then 2
  else 1

/-- Set the level granted; a change extends slot 6 with the level as one byte (R384; log entry 14). -/
def setLevel (n : Nat) (s : State) : State :=
  if n = s.sec.level then s else extendSlot 6 (toLE 1 n) { s with sec := { s.sec with level := n } }

/-- Lower a grant of D2 to D1 (R385, R379): 0 residence, 1 token ended. -/
def downgrade (reason : Nat) (s : State) : State :=
  if s.sec.level = 2 then post 0x1301 1 [2, 1, reason] (setLevel 1 s) else s

/-- Residence lowers the grant (R385). -/
def residence (s : State) : State := if resident s then downgrade 0 s else s

/-- Revoke any debug token (R379). -/
def revokeToken (s : State) : State :=
  if s.sec.token then
    let s1 := { s with sec := { s.sec with token := false, tokenMinutes := 0 } }
    if s.sec.fuses.lifecycle = 1 || s.sec.fuses.lifecycle = 2 then downgrade 1 s1 else s1
  else s

/-- TRACE_CFG (R384, R385). -/
def execTraceCfg (sq : Nat) (s : State) : Answer :=
  runRing .pf1 sq 0x78 (fun r s =>
    let grant := min (fieldAt r.raw 0x18 4) (permitted s)
    finish .pf1 sq r SUCCESS [grant]
      (setLevel grant { s with sec := { s.sec with sources := BitVec.ofNat 11 (fieldAt r.raw 0x1C 4) } })) s

/-! ## Content keys (R375, R376, R378) -/

/-- The storage key (R375): HMAC-SHA-384 of the device secret, the lifecycle state and the owner key hash, cut to 256
bits. -/
def storageKey (f : Fuses) : Bytes := (Config.hmac384 Config.deviceSecret (toLE 1 f.lifecycle ++ f.ownerHash)).take 32

/-- Erase content keys that a test names, persistent ones included. -/
def eraseKeys (keep : Nat → Bool) (s : State) : State :=
  { s with sec := { s.sec with keys := mkeep keep s.sec.keys }
           bst := { s.bst with keyTable := mkeep keep s.bst.keyTable } }

/-- Persistent slots as recalled at BOOT (R375): those wrapped under the storage key in force. -/
def recallKeys (s : State) : State :=
  { s with sec := { s.sec with keys := mputAll ([], false) (s.bst.keyTable.filterMap (fun p =>
      if p.2.2 = storageKey s.sec.fuses then some (p.1, (p.2.1, true)) else none)) [] } }

/-- KEY_ERASE (R378): one slot, or all with 0xFF. -/
def execKeyErase (sq : Nat) (s : State) : Answer :=
  runRing .pf1 sq 0x88 (fun r s =>
    let k := fieldAt r.raw 0x18 4
    finish .pf1 sq r SUCCESS [] (eraseKeys (fun i => k ≠ 0xFF && i ≠ k) s)) s

/-! ## IDE streams (R70, R71, R377) -/

def streamOf (s : State) (g : Nat) : Stream := mget {} s.sec.streams g

def setStream (g : Nat) (x : Stream) (s : State) : State :=
  { s with sec := { s.sec with streams := mput {} g x s.sec.streams } }

/-- Change a stream's state, posting IDE_STREAM_STATE at a change (R377). -/
def streamState (g : Nat) (x : Stream) (s : State) : State :=
  let old := (streamOf s g).secure
  postIf (old != x.secure) 0x1104 1 [g, b2n x.secure] (setStream g x s)

/-- Put every stream in the insecure state and discard its keys (R71, R366). -/
def dropStreams (s : State) : State := forAll (List.range 4) (fun g t => streamState g {} t) s

/-! ## Lifecycle (R365 to R367) -/

/-- Is the transition in Table 17.2? -/
def lifecycleStep (old new : Nat) : Bool :=
  (old = 0 && new = 1) || (old = 1 && new = 2) || ((old = 1 || old = 2) && new = 3)

/-- Clear the contents of every protected page but the firmware region's, and of protected staging (R366 item 2). -/
def clearProtected (s : State) : State :=
  let wipe (f : Frame) : Frame := { f with contents := f.contents.map (fun c => { c with
    staging := mkeep (fun k => !((c.layers[k / 2 ^ 40]?.map Layer.isProtected).getD false)) c.staging }) }
  { s with mem := (s.mem.guarded.map Prod.fst).foldl (fun m p => clearPages p 1 m) s.mem
           ing := { s.ing with shown := s.ing.shown.map wipe, coming := s.ing.coming.map wipe
                               prev := s.ing.prev.map wipe, lastSeen := s.ing.lastSeen.map wipe } }

/-- Rewrite LIN_PROT.LOCKED, which lives in OPERATING (R321). -/
def setLinenLock (v : Bool) (s : State) : State := putOperating { s with lin := { s.lin with locked := v } }

/-- Entry to RETURNED (R366). -/
def enterReturned (s : State) : State :=
  let s1 := dropStreams (clearProtected (eraseKeys (fun _ => false) s))
  setLinenLock false { s1 with sec := { s1.sec with sessions := [] } }

/-- Effects at once of a transition (Table 17.2). -/
def advance_ (new : Nat) (hash : Bytes) (cosign : Bool) (s : State) : State :=
  let old := s.sec.fuses.lifecycle
  let f := { s.sec.fuses with lifecycle := new }
  let f := if new = 1 then { f with ownerHash := hash, cosign } else f
  let s1 := { s with sec := { s.sec with fuses := f } }
  let s2 := if new = 2 then setLinenLock true s1 else if new = 3 then enterReturned s1 else s1
  let s3 := if s2.sec.level = 2 && permitted s2 < 2 then setLevel 1 s2 else s2
  post 0x1101 1 [old, new] s3

/-- LIFECYCLE_ADVANCE (R365 to R367). -/
def execLifecycleAdvance (sq : Nat) (data : Rd) (s : State) : Answer :=
  runRead .pf1 sq 0x80 data (fun r s =>
    let target := fieldAt r.raw 0x18 4 % 4
    let n := fieldAt r.raw 0x28 4
    if !data.ok || data.bytes.length < n then finish .pf1 sq r DMA_ERROR [min n data.bytes.length] s
    else match Config.authorization s.sec.fuses.lifecycle s.sec.fuses.ownerHash (data.bytes.take n) with
      | none => finish .pf1 sq r NOT_PERMITTED [] s
      | some (t, serial, hash, cosign) =>
        if t = target && serial = s.sec.fuses.serial && lifecycleStep s.sec.fuses.lifecycle target then
          finish .pf1 sq r SUCCESS [target] (advance_ target hash cosign s)
        else finish .pf1 sq r NOT_PERMITTED [] s) s

/-- OWNED or FIELD: the lifecycle column of Table 17.5. -/
def inService (s : State) : Bool := s.sec.fuses.lifecycle = 1 || s.sec.fuses.lifecycle = 2

/-! ## Debug tokens (R379) -/

/-- Is a token as Table 17.6 lays it out valid for this module and BOOT? -/
def tokenOk (s : State) (d : Bytes) : Bool :=
  fieldAt d 0 1 = 1 && fieldAt d 1 1 = 2 && fieldAt d 2 2 = 0 && fieldAt d 0x18 8 = 0
    && fieldAt d 8 8 = s.sec.fuses.serial && fieldAt d 0x10 8 = s.sec.nonce
    && Config.ecdsaOk (Config.ownerKey s.sec.fuses.ownerHash) (Config.sha384 (d.take 32)) ((d.drop 32).take 96)

/-- DEBUG_TOKEN (R379): RESULT0 is the level now permitted, whatever residence withholds (Table 17.9). -/
def execDebugToken (sq : Nat) (data : Rd) (s : State) : Answer :=
  runRead .pf1 sq 0x81 data (fun r s =>
    if !(inService s) then finish .pf1 sq r NOT_PERMITTED [] s
    else if !data.ok || data.bytes.length < 128 then finish .pf1 sq r DMA_ERROR [min 128 data.bytes.length] s
    else if tokenOk s data.bytes then
      finish .pf1 sq r SUCCESS [2]
        { s with sec := { s.sec with token := true, tokenMinutes := fieldAt data.bytes 4 4 } }
    else finish .pf1 sq r NOT_PERMITTED [] s) s

/-- DEBUG_REVOKE (R379). -/
def execDebugRevoke (sq : Nat) (s : State) : Answer :=
  runRing .pf1 sq 0x82 (fun r s => finish .pf1 sq r SUCCESS [] (revokeToken s)) s

/-- DEBUG_TOKEN_EXPIRY (R379): MINUTES = 0 never runs out. -/
def execDebugTokenExpiry (s : State) : Answer := .next (if s.sec.tokenMinutes ≠ 0 then revokeToken s else s)

/-! ## Other security commands (R370, R371, R374, R378) -/

/-- MEAS_EXTEND (R370). -/
def execMeasExtend (sq : Nat) (data : Rd) (s : State) : Answer :=
  runRead .pf1 sq 0x83 data (fun r s =>
    let n := fieldAt r.raw 0x28 4
    if !(inService s) then finish .pf1 sq r NOT_PERMITTED [] s
    else if !data.ok || data.bytes.length < n then finish .pf1 sq r DMA_ERROR [min n data.bytes.length] s
    else finish .pf1 sq r SUCCESS [] (extendSlot 7 (data.bytes.take n) s)) s

/-- SVN_COMMIT (R371): SVN_MIN rises to the running image's SVN. -/
def execSvnCommit (sq : Nat) (s : State) : Answer :=
  runRing .pf1 sq 0x84 (fun r s =>
    if !(inService s) then finish .pf1 sq r NOT_PERMITTED [] s
    else
      let m := max s.sec.fuses.svnMin s.sec.imageSvn
      finish .pf1 sq r SUCCESS [m] { s with sec := { s.sec with fuses := { s.sec.fuses with svnMin := m } } }) s

/-- Payload of a MEAS message (Table 16.2). -/
def measPayload (m : Bytes × Byte × List Bytes × Bytes) : Bytes := m.1 ++ [m.2.1] ++ m.2.2.1.flatten ++ m.2.2.2

/-- NBR_MEAS_READ (R374). -/
def execNbrMeasRead (sq : Nat) (s : State) : Answer :=
  runHost .pf1 sq 0x85 (fun r s =>
    let p := gngPort s (fieldAt r.raw 0x18 4)
    match p.meas with
    | none => finish .pf1 sq r SUCCESS [0] s
    | some m =>
      let d := measPayload m ++ toLE 1 p.verified
      finish .pf1 sq r SUCCESS [d.length] (emit [.hostWrite .pf1 (fieldAt r.raw 0x20 8) d] s)) s

/-- NBR_PIN (R374). -/
def execNbrPin (sq : Nat) (data : Rd) (s : State) : Answer :=
  runRead .pf1 sq 0x86 data (fun r s =>
    if !(inService s) then finish .pf1 sq r NOT_PERMITTED [] s
    else if !data.ok || data.bytes.length < 97 then finish .pf1 sq r DMA_ERROR [min 97 data.bytes.length] s
    else finish .pf1 sq r SUCCESS []
      { s with sec := { s.sec with pins := mput [] (fieldAt r.raw 0x18 4) (data.bytes.take 97) s.sec.pins } }) s

/-! ## SPDM and IDE_KM (R373, R376, R377) -/

/-- PF1's DOE mailbox answers: firmware runs, the link is up, and the recovery monitor does not run. -/
def doeServed (s : State) : Bool := s.sys.serving && linkUp s && s.sys.stage ≠ .recovery

/-- SPDM ERROR with a code of the SPDM specification: 0x01 InvalidRequest, 0x02 InvalidSession, 0x03 Busy, 0x04
UnexpectedRequest (log entry 15). -/
def spdmError (code : Nat) (s : State) : State := emit [.doeReply [0x7F, BitVec.ofNat 8 code]] s

/-- A positive response with its data. -/
def doeOk (d : Bytes) (s : State) : State := emit [.doeReply (0 :: d)] s

def sessionOf (s : State) (id : Nat) : Option Session := s.sec.sessions.find? (fun x => x.id = id)

/-- SPDM_KEY_EXCHANGE (R373): at most four sessions. The response carries the session and Alias's signature (Table 17.4). -/
def execSpdmKeyExchange (authenticated : Bool) (s : State) : Answer :=
  .next (if !(doeServed s) then s
  else if 4 ≤ s.sec.sessions.length then spdmError 3 s
  else
    let id := s.sec.nextSession
    let sig := Config.ecdsaSign (aliasKey s).1 (Config.sha384 (Config.spdmTranscript s.free))
    doeOk (toLE 2 id ++ sig) { s with free := s.free + 1, sec := { s.sec with sessions := s.sec.sessions ++ [{ id, authenticated }], nextSession := id + 1 } })

/-- END_SESSION (R373). -/
def execEndSession (session : Nat) (s : State) : Answer :=
  .next (if !(doeServed s) then s
  else match sessionOf s session with
    | none => spdmError 2 s
    | some _ => doeOk [] { s with sec := { s.sec with sessions := s.sec.sessions.filter (fun x => x.id ≠ session) } })

/-- Value of a measurement index (R373): 1 to 8 the slots, 9 the lifecycle state and the level granted. -/
def measurement (s : State) (i : Nat) : Bytes :=
  if i = 9 then toLE 1 s.sec.fuses.lifecycle ++ toLE 1 s.sec.level else measSlot s (i - 1)

/-- A measurement block in the DMTF format (R373; its layout is PRESUMED, log entry 15): index, specification 1, size, type with
bit 7 for a raw bit stream, size of the value, the value. -/
def measBlock (s : State) (i : Nat) : Bytes :=
  let v := measurement s i
  toLE 1 i ++ [1] ++ toLE 2 (v.length + 3) ++ toLE 1 (128 * b2n (i = 9) + Config.measType i % 128) ++ toLE 2 v.length ++ v

/-- The measurement record of a MEASUREMENTS response: how many blocks, their length, the blocks (log entry 15). -/
def measRecord (s : State) (l : List Nat) : Bytes :=
  let d := l.flatMap (measBlock s)
  toLE 1 l.length ++ toLE 3 d.length ++ d

/-- SPDM_GET_MEASUREMENTS (R373): index 0 asks for their number and 0xFF for all, as SPDM defines (log entry 15). -/
def execSpdmGetMeasurements (index : Nat) (s : State) : Answer :=
  .next (if !(doeServed s) then s
  else if index = 0 then doeOk [9] s
  else if index = 0xFF then doeOk (measRecord s ((List.range 9).map (· + 1))) s
  else if 9 < index then spdmError 1 s
  else doeOk (measRecord s [index]) s)

/-- What GET_DIGESTS and GET_CERTIFICATE answer from certificate slot 0 (R373): the digest of the chain, and a part of it. No row
of the table brings these requests. -/
def chainDigest (s : State) : Bytes := Config.sha384 (certChain s)
def chainPart (s : State) (offset n : Nat) : Bytes := ((certChain s).drop offset).take n

/-- KEY_IMPORT (R376, R375). -/
def execKeyImport (session keyId : Nat) (flags : Byte) (key : Bytes) (s : State) : Answer :=
  .next (if !(doeServed s) then s
  else match sessionOf s session with
    | none => spdmError 2 s
    | some x =>
      if !(inService s) || !x.authenticated then spdmError 4 s
      else if 63 < keyId || key.length ≠ 32 then spdmError 1 s
      else
        let persist := flags.getLsbD 0
        let table := if persist then mput ([], []) keyId (key, storageKey s.sec.fuses) s.bst.keyTable
                     else mkeep (· ≠ keyId) s.bst.keyTable
        doeOk [] { s with sec := { s.sec with keys := mput ([], false) keyId (key, persist) s.sec.keys }
                          bst := { s.bst with keyTable := table } })

/-- KEY_SLOT_ERASE (R376). -/
def execKeySlotErase (session keyId : Nat) (s : State) : Answer :=
  .next (if !(doeServed s) then s
  else match sessionOf s session with
    | none => spdmError 2 s
    | some _ => if 63 < keyId then spdmError 1 s else doeOk [] (eraseKeys (· ≠ keyId) s))

/-- IDE_KM_KEY_PROG (R377): streams exist in Flit mode only (R70). -/
def execIdeKmKeyProg (session stream keySet : Nat) (key : Bytes) (s : State) : Answer :=
  .next (if !(doeServed s) then s
  else match sessionOf s session with
    | none => spdmError 2 s
    | some _ =>
      if !s.hif.flit || 3 < stream || 1 < keySet || key.length ≠ 32 then spdmError 1 s
      else
        let x := streamOf s stream
        doeOk [] (setStream stream (if keySet = 0 then { x with key0 := some key } else { x with key1 := some key }) s))

/-- IDE_KM_K_SET_GO (R377, R385). -/
def execIdeKmKSetGo (session stream keySet : Nat) (s : State) : Answer :=
  .next (if !(doeServed s) then s
  else match sessionOf s session with
    | none => spdmError 2 s
    | some _ =>
      let x := streamOf s stream
      if !s.hif.flit || 3 < stream || 1 < keySet || (if keySet = 0 then x.key0 else x.key1).isNone then spdmError 1 s
      else doeOk [] (residence (streamState stream { x with secure := true, active := keySet } s)))

/-- IDE_KM_K_SET_STOP (R377): stopping the active key set takes the stream out of the secure state. -/
def execIdeKmKSetStop (session stream keySet : Nat) (s : State) : Answer :=
  .next (if !(doeServed s) then s
  else match sessionOf s session with
    | none => spdmError 2 s
    | some _ =>
      if 3 < stream || 1 < keySet then spdmError 1 s
      else
        let x := streamOf s stream
        let y := if keySet = 0 then { x with key0 := none } else { x with key1 := none }
        doeOk [] (streamState stream { y with secure := x.secure && x.active ≠ keySet } s))

/-- IDE_KM_QUERY (R377): four selective streams; the rest of the answer is the specification's own (log entry 15). -/
def execIdeKmQuery (session : Nat) (s : State) : Answer :=
  .next (if !(doeServed s) then s
  else match sessionOf s session with
    | none => spdmError 2 s
    | some _ => doeOk (4 :: (List.range 4).map (fun g => BitVec.ofNat 8 (b2n (streamOf s g).secure))) s)

/-! ## Refusals of protected pages (R381) -/

/-- A refused access to a protected page: counted, traced, and reported at most once per FT (R381). -/
def refuseProtected (bar4 : Bool) (page requester : Nat) (write : Bool) (s : State) : State :=
  let sec := { s.sec with deniedBar4 := if bar4 then satAdd 0xFFFF s.sec.deniedBar4 1 else s.sec.deniedBar4
                          deniedCmd := if bar4 then s.sec.deniedCmd else satAdd 0xFFFF s.sec.deniedCmd 1
                          accessPosted := true }
  trace1 10 (postIf (!s.sec.accessPosted) 0x1103 1 [page, requester, b2n write] { s with sec })

end Sys2Proof.Machine
end

