-- ==== Sys2Proof/Machine/Memory.lean ====
section
/-!
DEFINITION. Errors of module memory, the watch, retirement and the scrubber (R304 to R312), SRAM errors and repair
(R314, R315, R317), MEM_COPY and MEM_FILL with hold-frame region updates (R313, R273, R274).
-/
namespace Sys2Proof.Machine

/-! ## Errors, watch, retirement (R304 to R310) -/

/-- A page takes part in the page code: written and not at t = 0 (R294). -/
def coded (s : State) (p : Nat) : Bool := isWritten s p && 0 < pageCode s.conf p

/-- An uncorrectable decode (R305, R306): the page is poisoned; the event and the fault record come once per page. The
record's OUTCOME is not given: a free value. -/
def uncorrectable (p requester : Nat) (s : State) : State :=
  let first := !(mget false s.mem.reported p)
  let m := { s.mem with poison := mput 0 p 0xFFFFFFFF s.mem.poison, raw := mput false p false s.mem.raw
                        reported := mput false p true s.mem.reported
                        uncorrectable := satAdd 0xFFFF s.mem.uncorrectable 1, lastErr := 4096 * p }
  let s1 := { s with mem := m }
  if first then
    logFault 9 (freeNow s1 % 7) requester [p]
      (skipFree 1 (post 0x0D01 2 [p, requester, (regionOf s.conf p).getD 0xFF] s1))
  else s1

/-- A host write inside one page (R300): a narrow one to a poisoned page is dropped (Table 13.4 row 0). -/
def writePage (a : Nat) (d : Bytes) (s : State) : State :=
  if isPoisoned s (a / 4096) && d.length < 4096 then uncorrectable (a / 4096) 0 s else writeMem a d s

/-- A host write, page by page. -/
def writePages (a : Nat) (d : Bytes) (s : State) : State :=
  forAll (pieces a d.length) (fun p => writePage p.1 ((d.drop (p.1 - a)).take p.2)) s

/-- Age of a watch entry (R307). -/
def watchAge (m : Mem) (e : Nat × Nat) : Nat := (m.pass + 65536 - e.2) % 65536

/-- The entry with the greatest age, the one entered first among equals (log entry 16). -/
def oldestEntry (m : Mem) : Option (Nat × Nat) :=
  m.watch.foldl (fun a e => match a with
    | none => some e
    | some b => if watchAge m b < watchAge m e then some e else some b) none

/-- A page enters the watch (R307). -/
def enterWatch (p : Nat) (m : Mem) : Mem :=
  if m.watch.length < 4096 then { m with watch := m.watch ++ [(p, m.pass)] }
  else match oldestEntry m with
    | some o => { m with watch := (m.watch.erase o) ++ [(p, m.pass)], evicted := satAdd 0xFFFF m.evicted 1 }
    | none => m

/-- What a correction does to the watch (R307): a watched page has a hard fault. -/
def watchCorrection (p : Nat) (m : Mem) : Mem :=
  if m.watch.any (fun e => e.1 = p) then
    if m.hard.contains p || m.pending.contains p then m else { m with hard := m.hard ++ [p] }
  else enterWatch p m

/-- A correction (R304). -/
def corrected (p : Nat) (s : State) : State :=
  trace1 8 { s with mem := watchCorrection p { s.mem with corrected := satAdd 0xFFFF s.mem.corrected 1 } }

/-- A decode that corrects (R304): the page as it was read, corrected, is written back. -/
def writeBack (r : PageRead) (fix : List SymbolError) (s : State) : State :=
  corrected r.page { s with mem := flipPage r.page (r.errors ++ fix) s.mem }

/-- PAGE_CORRECTION (R295, R304, R307): the decode corrects symbols; which requester read the page makes no difference. -/
def execPageCorrection (page : PageRead) (_requester : Nat) (s : State) : Answer :=
  .next (if coded s page.page && s.pwr.fall = .idle then
    match decodePage s page with
    | .corrected fix => writeBack page fix s
    | _ => s
  else s)

/-- An uncorrectable decode leaves the data as it stands (R305). -/
def badDecode (r : PageRead) (requester : Nat) (s : State) : State :=
  uncorrectable r.page requester { s with mem := flipPage r.page r.errors s.mem }

/-- Lowest free page of the spare pool (R308): spares are taken in order and none returns. -/
def nextSpare (s : State) : Option Nat :=
  let p := dataPages + s.bst.retireLog.length
  if p < 0x1F00000 then some p else none

/-- Retire a page to a spare (R308, R309, R400). Contents stay keyed by the module address, which the map redirects. -/
def retireTo (p spare : Nat) (s : State) : State :=
  let m := { s.mem with retired := mput 0 p spare s.mem.retired, hard := s.mem.hard.filter (· ≠ p)
                        pending := s.mem.pending.filter (· ≠ p), watch := s.mem.watch.filter (fun e => e.1 ≠ p) }
  putSpares (logFault 10 2 0 [p, spare] (post 0x0D02 1 [p, 1, spare]
    { s with mem := m, bst := { s.bst with retireLog := s.bst.retireLog ++ [(p, spare)] } }))

/-- The spare pool has no page for a hard fault (R310). -/
def spareExhausted (p : Nat) (s : State) : State :=
  let s1 := { s with mem := { s.mem with hard := s.mem.hard.filter (· ≠ p), exhausted := true } }
  updateGuarantee (logFault 10 4 0 [p, 0] (postIf (!s.mem.exhausted) 0x0D03 3 [p] s1))

/-- PAGE_RETIRE (R308, R310, R388). -/
def execPageRetire (page : Nat) (s : State) : Answer :=
  .next (if s.mem.hard.contains page then
    match nextSpare s with
    | none => spareExhausted page s
    | some sp =>
      if fbit s.conf FLT_POLICY_MEM_AUTO then retireTo page sp s
      else
        let m := { s.mem with hard := s.mem.hard.filter (· ≠ page), pending := s.mem.pending ++ [page] }
        logFault 10 3 0 [page, 0] (post 0x1203 2 [3, page] (post 0x0D02 1 [page, 0, 0] { s with mem := m }))
  else s)

/-! ## The scrubber (R311) -/

/-- The page that a visit concerns: a spare page stands for the page retired to it; none where the visit does nothing. -/
def scrubbed (s : State) : Option Nat :=
  let v := s.mem.scrubPage
  let p := if v < dataPages then (if s.mem.retired.any (fun r => r.1 = v) then none else some v)
           else (s.mem.retired.find? (fun r => r.2 = v)).map Prod.fst
  match p with
  | some q => if coded s q && (mget false s.mem.raw q || !(isPoisoned s q)) then some q else none
  | none => none

/-- The scrubber moves on; at the wrap a pass begins and entries of age 4 leave the watch (R307, R311). -/
def nextVisit (m : Mem) : Mem :=
  if m.scrubPage + 1 < 0x1F00000 then { m with scrubPage := m.scrubPage + 1 }
  else
    let m1 := { m with scrubPage := 0, pass := (m.pass + 1) % 65536 }
    { m1 with watch := m1.watch.filter (fun e => watchAge m1 e < 4) }

/-- The visit of a page: it is read, decoded, and written back when the decode corrected anything (R311). -/
def scrub (r : PageRead) (s : State) : State :=
  match decodePage s r with
  | .failed => badDecode r 8 s
  | .corrected fix => writeBack r fix s
  | .clean => { s with mem := flipPage r.page r.errors s.mem }

/-- SCRUB_VISIT (R311, R48): the errors with which the page that the visit concerns arrives. -/
def execScrubVisit (errors : List SymbolError) (flips : Nat) (s : State) : Answer :=
  .next (if fbit s.conf MEM_CTRL_SCRUB_EN && !s.sys.brace && s.sys.mode ≠ .dormant && s.pwr.fall = .idle then
    let s1 := match scrubbed s with
      | some page => scrub { page, errors, flips } s
      | none => s
    { s1 with mem := nextVisit s1.mem }
  else s)

/-! ## On-chip SRAM (R314, R315, R317) -/

def sramRow (macroIdx row : Nat) : Nat := 65536 * macroIdx + row

/-- Add a row to the repair list in Linen (R315, Table 14.4): at most 500 entries. -/
def addRepair (macroIdx row : Nat) (s : State) : State :=
  let p := (deviceRecord s.lin.sram 0x0104).getD (toLE 4 0)
  let n := fieldAt p 0 4
  if n < 500 then writeDevice 0x0104 (toLE 4 (n + 1) ++ (p.drop 4).take (4 * n) ++ toLE 2 macroIdx ++ toLE 2 row) s else s

/-- Switch in a spare row of a macro, of which `used` are then in use (R315, R400). -/
def switchRow (macroIdx row used : Nat) (s : State) : State :=
  let m := { s.mem with sramUsed := mput 0 macroIdx used s.mem.sramUsed, sramRepaired := satAdd 0xFF s.mem.sramRepaired 1
                        sramFirst := mput 0 (sramRow macroIdx row) 0 s.mem.sramFirst }
  putSpares (logFault 12 2 macroIdx [row, 4 - used] (post 0x0D06 1 [macroIdx, row, 4 - used] (addRepair macroIdx row { s with mem := m })))

/-- Exchange a good row for a spare one: the row replaced takes its place among the spares (R402). -/
def exchangeRow (macroIdx row : Nat) (s : State) : State := switchRow macroIdx row (mget 0 s.mem.sramUsed macroIdx) s

/-- Repair a failing row, or count its macro (R315, R400). -/
def repairRow (macroIdx row : Nat) (s : State) : State :=
  let used := mget 0 s.mem.sramUsed macroIdx
  if used < 4 then switchRow macroIdx row (used + 1) s
  else
    logFault 12 4 macroIdx [row, 0] { s with mem := { s.mem with sramNoSpare := mput false macroIdx true s.mem.sramNoSpare } }

/-- Mark n pages from p on as written; those listed were never encoded. -/
def markWritten (p n : Nat) (raw : List Nat) (m : Mem) : Mem :=
  { m with written := mputs false p (List.replicate n true) m.written, raw := mputAll false (raw.map (fun q => (q, true))) m.raw }

/-- An uncorrectable word of the page-state bitmap marks its 64 pages written (R314); a page never written whose strength is not
0 then fails its decode. -/
def bitmapLost (macroIdx row word : Nat) (s : State) : State :=
  match Config.bitmapWord macroIdx row word with
  | some p =>
    let never := ((List.range 64).map (fun i => p + i)).filter (fun q => !(isWritten s q) && 0 < pageCode s.conf q)
    { s with mem := markWritten p 64 never s.mem }
  | none => s

/-- SRAM_CORRECTION (R314, R315). First corrections are kept as powered seconds plus 1. The OUTCOME of an uncorrectable
word's record is not given: a free value. -/
def execSramCorrection (macroIdx row word : Nat) (double : Bool) (s : State) : Answer :=
  .next (if double then
    repairRow macroIdx row (bitmapLost macroIdx row word
      (logFault 11 (freeNow s % 7) macroIdx [row, word] (skipFree 1 (post 0x0D05 3 [macroIdx, row, word] s))))
  else
    let first := mget 0 s.mem.sramFirst (sramRow macroIdx row)
    let s1 := trace1 8 { s with mem := { s.mem with sramCorrected := satAdd 0xFFFF s.mem.sramCorrected 1 } }
    if first ≠ 0 && s.lin.seconds + 1 - first ≤ 86400 then repairRow macroIdx row s1
    else { s1 with mem := { s1.mem with sramFirst := mput 0 (sramRow macroIdx row) (s.lin.seconds + 1) s1.mem.sramFirst } })

/-- SRAM_TEST_WINDOW (R317): in SERVICE, and in the running modes while EN is 1. -/
def execSramTestWindow (failing : Option (Nat × Nat)) (s : State) : Answer :=
  .next (if s.sys.mode = .service || (fbit s.conf MEM_SRAM_TEST_EN && isRunning s) then
    match failing with
    | some (m, row) => repairRow m row s
    | none => s
  else s)

/-! ## MEM_COPY and MEM_FILL (R313) -/

/-- What stops a transfer: bytes done, status, the page and requester of an uncorrectable read or refused access. -/
structure Halt where
  done : Nat
  status : Nat
  addr : Nat := 0
  write : Bool := false
  deriving DecidableEq, Repr

/-- The earlier of two halts; the first wins a tie. -/
def sooner (a b : Option Halt) : Option Halt :=
  match a, b with
  | some x, some y => if y.done < x.done then some y else some x
  | some x, none => some x
  | none, y => y

/-- First byte of a write that lies in a poisoned page which it covers only in part (Table 13.4). -/
def firstNarrowPoisoned (s : State) (a n : Nat) : Option Nat :=
  ((pagesOf a n).find? (fun p => isPoisoned s p && (4096 * p < a || a + n < 4096 * p + 4096))).map (fun p => 4096 * p - a)

/-- Halts of a module read of n bytes at a. -/
def readHalt (s : State) (a n : Nat) : Option Halt :=
  sooner ((firstProtected s a n).map (fun d => ⟨d, NOT_PERMITTED, a + d, false⟩))
    ((firstPoisoned s a n).map (fun d => ⟨d, MEM_UNCORRECTABLE, a + d, false⟩))

/-- Halts of a module write of n bytes at a. -/
def writeHalt (s : State) (a n : Nat) : Option Halt :=
  sooner ((firstProtected s a n).map (fun d => ⟨d, NOT_PERMITTED, a + d, true⟩))
    ((firstNarrowPoisoned s a n).map (fun d => ⟨d, MEM_UNCORRECTABLE, a + d, true⟩))

/-- A write cut at the bytes done is judged again: its last page may be narrow now. -/
def cutHalt (s : State) (a n : Nat) (h : Option Halt) : Option Halt :=
  let k := match h with | some x => x.done | none => n
  sooner (writeHalt s a k) h

/-- The side effects of a halt: a refusal is counted (R381), an uncorrectable read reported (R306). -/
def haltEffects (h : Option Halt) (s : State) : State :=
  match h with
  | some x =>
    if x.status = NOT_PERMITTED then refuseProtected false (x.addr / 4096) 1 x.write s
    else if x.status = MEM_UNCORRECTABLE then uncorrectable (x.addr / 4096) 1 s else s
  | none => s

/-- Results of a transfer (Tables 4.7, 4.10). -/
def haltResult (n : Nat) (h : Option Halt) : Nat × List Nat :=
  match h with
  | none => (SUCCESS, lohi n)
  | some x => (x.status, lohi x.done ++ (if x.status = MEM_UNCORRECTABLE then lohi x.addr else []))

/-- A transfer's outcome before it acts: a refused command with its RESULT0, or the state after it with its status and
results. -/
inductive Transfer where
  | bad (r0 : Nat)
  | ran (s : State) (status : Nat) (res : List Nat)

/-- The state that a transfer leaves before its command completes: a refused one changes nothing. -/
def afterTransfer (s : State) : Transfer → State
  | .bad _ => s
  | .ran t _ _ => t

/-- MEM_COPY's effect (R313). -/
def memCopy (raw : Bytes) (data : Rd) (s : State) : Transfer :=
  let fromHost := bit (fieldAt raw 0x18 4) 0
  let toHost := bit (fieldAt raw 0x18 4) 1
  let src := fieldAt raw 0x20 8
  let dst := fieldAt raw 0x28 8
  let n := fieldAt raw 0x30 8
  if fromHost && toHost then .bad 0x18
  else if n = 0 then .bad 0x30
  else if (if fromHost then hostBad src n else rangeBad src n) then .bad 0x20
  else if (if toHost then hostBad dst n else rangeBad dst n) then .bad 0x28
  else
    let got := if data.ok then min n data.bytes.length else min (n - 1) data.bytes.length
    let h1 := if fromHost then (if data.ok && n ≤ data.bytes.length then none else some ⟨got, DMA_ERROR, 0, false⟩)
              else readHalt s src n
    let h := if toHost then h1 else cutHalt s dst n (sooner (writeHalt s dst n) h1)
    let k := match h with | some x => x.done | none => n
    let d := if fromHost then data.bytes.take k else readMem s src k
    let s1 := if toHost then emit (if k = 0 then [] else [.hostWrite .pf0 dst d]) s else writeMem dst d s
    let (st, res) := haltResult n h
    .ran (haltEffects h s1) st res

/-- Byte of a fill at address a (R313). -/
def fillByte (pattern a : Nat) : Byte := BitVec.ofNat 8 (pattern / 256 ^ (a % 8))

/-- Write n bytes of a fill at a (R302): pattern 0 clears the whole pages it covers instead of writing them. -/
def fillMem (a n pattern : Nat) (s : State) : State :=
  let first := (a + 4095) / 4096
  let last := (a + n) / 4096
  if pattern = 0 && first < last then
    let s1 := writeMem a (List.replicate (4096 * first - a) 0) s
    let s2 := writeMem (4096 * last) (List.replicate (a + n - 4096 * last) 0) s1
    { s2 with mem := clearPages first (last - first) s2.mem }
  else writeMem a ((List.range n).map (fun i => fillByte pattern (a + i))) s

/-- MEM_FILL's effect (R313, R302). -/
def memFill (raw : Bytes) (s : State) : Transfer :=
  let dst := fieldAt raw 0x20 8
  let n := fieldAt raw 0x28 8
  if n = 0 then .bad 0x28
  else if rangeBad dst n then .bad 0x20
  else
    let h := cutHalt s dst n (writeHalt s dst n)
    let k := match h with | some x => x.done | none => n
    let (st, res) := haltResult n h
    .ran (haltEffects h (fillMem dst k (fieldAt raw 0x30 8) s)) st res

/-! ## Hold-frame region updates (R273, R274) -/

/-- Is the memory of this layer of the hold frame yours to address (R273): SOURCE 2, which cue-buffer layers are too? -/
def addressable (l : Layer) : Bool := l.source = 2

/-- Rows of a layer that a destination range touches, in plane 0 and in the chroma plane. -/
def touchedRows (l : Layer) (a n : Nat) : List Nat :=
  let rb := rowBytes l
  let meets (lo len : Nat) : Bool := decide (lo < a + n) && decide (a < lo + len)
  (List.range l.height).filter (fun r =>
    meets (l.addr0 + r * l.pitch0) rb || (l.format = 4 && meets (l.addr1 + r / 2 * l.pitch1) (2 * l.width)))

/-- Panel lines of the region that a destination range gives (R273). -/
def regionLines (c : Conf) (ls : List Layer) (a n : Nat) : List Nat :=
  (ls.filter addressable).flatMap (fun l =>
    let f := scaleOf l
    (touchedRows l a n).flatMap (fun r =>
      ((List.range (3 * f + 2)).map (fun i => l.dstY + f * r + i)).filterMap (fun y =>
        if f + 1 ≤ y && y - (f + 1) < tH c then some (y - (f + 1)) else none)))

/-- Bands that meet a set of lines. -/
def bandsOf (c : Conf) (ys : List Nat) : BitVec 64 := BitVec.ofNat 64 (ofBits ((ys.map (bandOfLine c)).eraseDups))

/-- Layers that a frame shows, the outgoing ones that a crossfade blends included (R286). -/
def layersShown (f : Frame) : List Layer :=
  f.contents.flatMap (fun c => c.layers ++ (match c.mix with | some m => m.old.take (4 - c.layers.length) | none => []))

/-- Layers of the frame that HOLD shows, with those of the contents that stand in for its substituted lines (R113, R269). -/
def holdLayers (s : State) : List Layer :=
  match s.ing.shown with
  | some f => layersShown { f with contents := ((keyed 0 f.contents).filter (fun p => p.1 = 0 || f.lineFrom.any (fun q => q.2 = p.1))).map Prod.snd }
  | none => []

/-- The bands of a region update to module range (a, n), when the command is one (R273); the lines beside. -/
def regionUpdate (s : State) (a n : Nat) : Option (List Nat × BitVec 64) :=
  if s.sys.mode = .hold then
    let ys := regionLines s.conf (holdLayers s) a n
    if ys.isEmpty then none else some (ys, bandsOf s.conf ys)
  else none

/-- A refresh in progress has yet to begin, at the engines, some line of the region (R274). -/
def regionAhead (s : State) (ys : List Nat) : Bool :=
  s.tmg.running && ys.any (fun y => (s.tmg.blind || s.tmg.scanned.getLsbD (bandOfLine s.conf y)) && decide (s.tmg.slot < engineSlot s.conf y))

/-- Complete a transfer on its ring, or, for a region update, bar its bands until REGION_UPDATE_DONE (R274). -/
def endTransfer (sq : Nat) (r : Running) (region : Option (List Nat × BitVec 64)) (t : Transfer) (s : State) : State :=
  match t with
  | .bad r0 => finish .pf0 sq r BAD_PARAM [r0] s
  | .ran s1 st res =>
    match region with
    | none => finish .pf0 sq r st res s1
    | some (_, bands) =>
      let u : Update := { bands, status := st, res }
      holdRunning .pf0 sq r 0 { s1 with cue := { s1.cue with
        barred := s1.cue.barred ||| bands, updates := mput { bands := 0 } sq u s1.cue.updates } }

/-- MEM_COPY (R313, R273, R274): a region update waits while a refresh has yet to begin its lines. -/
def execMemCopy (sq : Nat) (data : Rd) (s : State) : Answer :=
  runRead .pf0 sq 0x30 data (fun r s =>
    let region := if bit (fieldAt r.raw 0x18 4) 1 then none
      else regionUpdate s (fieldAt r.raw 0x28 8) (fieldAt r.raw 0x30 8)
    let t := memCopy r.raw data s
    match region with
    | some (ys, _) => if regionAhead s ys then s else endTransfer sq r region t s
    | none => endTransfer sq r none t s) s

/-- MEM_FILL (R313, R302, R273, R274). -/
def execMemFill (sq : Nat) (s : State) : Answer :=
  runRing .pf0 sq 0x31 (fun r s =>
    let region := regionUpdate s (fieldAt r.raw 0x20 8) (fieldAt r.raw 0x28 8)
    let t := memFill r.raw s
    match region with
    | some (ys, _) => if regionAhead s ys then s else endTransfer sq r region t s
    | none => endTransfer sq r none t s) s

/-- Barred bands: those of the updates still tracked (R274, R276). -/
def barredBands (m : SMap Update) : BitVec 64 :=
  m.foldl (fun a p => if p.2.tracked then a ||| p.2.bands else a) 0

/-- A region update's writes have landed: its bands become dirty, while HOLD tracks it (R274). -/
def endUpdate (n : Nat) (s : State) : State :=
  let u := mget { bands := 0 } s.cue.updates n
  let updates := mput { bands := 0 } n { bands := 0 } s.cue.updates
  let c := { s.cue with updates, barred := barredBands updates }
  { s with cue := if u.tracked then { c with dirty := c.dirty ||| u.bands, shownDue := c.shownDue ++ [(u.bands, u.bands)] } else c }

/-- REGION_UPDATE_DONE (R274): the command completes. -/
def execRegionUpdateDone (sq : Nat) (s : State) : Answer :=
  let u := mget { bands := 0 } s.cue.updates sq
  let op := match (sqOf s.rings .pf0 sq).running with | some r => opcode r.raw | none => 0
  .next (match waitingOn s .pf0 sq op with
  | some r =>
    if s.pwr.fall = .idle && s.cue.updates.any (fun p => p.1 = sq) && (op = 0x30 || op = 0x31) then
      finish .pf0 sq r u.status u.res (endUpdate sq s)
    else s
  | none => s)

/-- HOLD is left: nothing tracks its updates any further (R276). -/
def untrackUpdates (s : State) : State :=
  { s with cue := { s.cue with updates := mmap { bands := 0 } (fun _ u => { u with tracked := false }) s.cue.updates
                               barred := 0, dirty := 0, shownDue := [] } }

/-! ## SET_TABLE (R442) -/

/-- The page that a SET_TABLE's read of module memory finds uncorrectable is reported as the rings' data mover does (R306; DESIGN
CHOICE 155: Table 13.4 lists MEM_COPY and MEM_FILL, requester 1, and no SET_TABLE). -/
def badSource (src len : Nat) (s : State) : State :=
  match firstPoisoned s src len with
  | some d => uncorrectable ((src + d) / 4096) 1 s
  | none => s

/-- SET_TABLE (R442). -/
def execSetTable (sq : Nat) (data : Rd) (s : State) : Answer :=
  runRead .pf0 sq 0x10 data (fun r s =>
    let slot := bits (fieldAt r.raw 0x18 4) 16 2
    if s.sys.lock && (slotOf s.conf slot).armed.isSome then finish .pf0 sq r STAGE_ARMED [] s
    else match tableData s r.raw data with
      | .error (st, res) =>
        finish .pf0 sq r st res (if st = MEM_UNCORRECTABLE then badSource (fieldAt r.raw 0x20 8) (fieldAt r.raw 0x28 4) s else s)
      | .ok d =>
        if crc32c d ≠ fieldAt r.raw 0x30 4 then finish .pf0 sq r CRC_MISMATCH [] s
        else finish .pf0 sq r SUCCESS [d.length]
          { s with conf := stageBytes s slot (fieldAt r.raw 0x18 2) (fieldAt r.raw 0x2C 4) d }) s

end Sys2Proof.Machine
end

