-- ==== Sys2Proof/Machine/Ingest.lean ====
section
/-!
DEFINITION. Ingest (R94 to R116): the layer table and its checks, the latch, bands and their deadlines, the pull path, the
push window, and the records RELEASED and FRAME_DONE.
-/
namespace Sys2Proof.Machine

/-! ## The layer table (R94, R95, Table 5.2, R121, R122, R125) -/

/-- One entry of a layer table, as a layer. -/
def parseLayer (d : Bytes) (i : Nat) : Layer :=
  let f (o n : Nat) := fieldAt d (64 * i + o) n
  { source := f 0 1 % 4, format := f 1 1, bandLines := f 2 1, isProtected := bit (f 3 1) 0, stream := bits (f 3 1) 1 2
    tag := f 4 2, addr0 := f 8 8, addr1 := f 0x10 8, pitch0 := f 0x18 4, pitch1 := f 0x1C 4
    width := f 0x20 2, height := f 0x22 2, dstX := f 0x24 2, dstY := f 0x26 2
    blend := f 0x28 1 % 4, yccMatrix := bits (f 0x28 1) 2 2, yccFull := bit (f 0x28 1) 4, planeAlpha := f 0x2A 2 % 16384 }

/-- Rules that a plane's address and pitch can break: multiples of 4, of 8 for RGBA16F plane 0 (R122); fields that must be
0 (Table 5.2). DESIGN CHOICE 31: ADDR1 and PITCH1 of a pushed YCbCr layer must be 0, as its ADDR0 and PITCH0 must. -/
def planeRules (l : Layer) : List (Bool × Nat) :=
  let align := if l.format = 3 then 8 else 4
  let ycc := l.format = 4
  let host := l.source ≠ 1
  [(if host then l.addr0 % align ≠ 0 else l.addr0 ≠ 0, 0x08),
   (if ycc && host then l.addr1 % 4 ≠ 0 else l.addr1 ≠ 0, 0x10),
   (if host then l.pitch0 % 4 ≠ 0 || l.pitch0 < rowBytes l else l.pitch0 ≠ 0, 0x18),
   (if ycc && host then l.pitch1 % 4 ≠ 0 || l.pitch1 < 2 * l.width else l.pitch1 ≠ 0, 0x1C)]

/-- The first nonzero byte of a reserved range, as a rule for the offset it has. -/
def zeroBytes (d : Bytes) (base lo n : Nat) : List (Bool × Nat) :=
  (List.range n).map (fun k => (decide (fieldAt d (base + lo + k) 1 ≠ 0), lo + k))

/-- The rules of one entry in ascending offset: broken or not, and the offset within the entry. -/
def entryRules (c : Conf) (d : Bytes) (i : Nat) : List (Bool × Nat) :=
  let b := 64 * i
  let f (o n : Nat) := fieldAt d (b + o) n
  let l := parseLayer d i
  let ycc := l.format = 4
  [(l.source = 3 || 4 ≤ f 0 1, 0x00), (l.format < 1 || 4 < l.format, 0x01),
   (l.bandLines < 1 || 64 < l.bandLines || (ycc && l.bandLines % 2 = 1), 0x02),
   ((!l.isProtected && l.stream ≠ 0) || 8 ≤ f 3 1, 0x03)]
  ++ zeroBytes d b 0x06 2 ++ planeRules l
  ++ [(l.width < 1 || (ycc && l.width % 2 = 1) || tW c < l.dstX + l.width, 0x20),
      (l.height < 1 || (ycc && l.height % 2 = 1) || tH c < l.dstY + l.height, 0x22),
      (l.blend = 3 || (if ycc then 1 < l.yccMatrix else l.yccMatrix ≠ 0 || l.yccFull) || 32 ≤ f 0x28 1, 0x28),
      (f 0x29 1 ≠ 0, 0x29), (16384 ≤ f 0x2A 2, 0x2B)]
  ++ zeroBytes d b 0x2C 4 ++ zeroBytes d b 0x30 16

/-- The lowest offset, from the start of the table, of a bad field in n entries (R95). -/
def tableFault (c : Conf) (d : Bytes) (n : Nat) : Option Nat :=
  (List.range n).findSome? (fun i => ((entryRules c d i).find? Prod.fst).map (fun p => 64 * i + p.2))

/-! ## Bands (R102) -/

/-- Layers of a frame's own content, with their indices. -/
def ownLayers (f : Frame) : List (Nat × Layer) :=
  match f.contents with
  | ct :: _ => keyed 0 ct.layers
  | [] => []

def bandKey (layer band : Nat) : Nat := 65536 * layer + band

/-- Bands of a layer. -/
def bandCount (l : Layer) : Nat := (l.height + l.bandLines - 1) / max 1 l.bandLines

/-- A layer arrives in bands: pulled or pushed, and not dropped as transparent (R102, R116). -/
def ingested (l : Layer) : Bool := l.source ≠ 2 && !l.transparent

/-- The bands of a frame: layer index, band, layer. -/
def frameBands (f : Frame) : List (Nat × Nat × Layer) :=
  ((ownLayers f).filter (fun p => ingested p.2)).flatMap (fun p => (List.range (bandCount p.2)).map (fun b => (p.1, b, p.2)))

def bandStatus (f : Frame) (layer band : Nat) : BandStatus := mget .idle f.bands (bandKey layer band)

def setBand (layer band : Nat) (v : BandStatus) (f : Frame) : Frame :=
  { f with bands := mput .idle (bandKey layer band) v f.bands }

/-- Layer rows of a band. -/
def bandRows (l : Layer) (b : Nat) : Nat × Nat := (b * l.bandLines, min ((b + 1) * l.bandLines) l.height)

/-- First panel line of a band. -/
def bandLine (l : Layer) (b : Nat) : Nat := l.dstY + b * l.bandLines

/-- Bytes of a band (R109). -/
def bandBytes (l : Layer) (b : Nat) : Nat := packedBytes l (bandRows l b).1 (bandRows l b).2

/-- Put a band's bytes, packed as R109 gives, into the staging of a content. -/
def stageBand (layer : Nat) (l : Layer) (b : Nat) (d : Bytes) (ct : Content) : Content :=
  let (r0, r1) := bandRows l b
  let plain := (r1 - r0) * rowBytes l
  let base := 2 ^ 40 * layer
  let st := mputs 0 (base + r0 * rowBytes l) (d.take plain) ct.staging
  let st := if l.format = 4
    then mputs 0 (base + l.height * rowBytes l + r0 / 2 * (2 * l.width)) ((d.drop plain).take (bandBytes l b - plain)) st
    else st
  { ct with staging := st }

/-- Change a frame's own content. -/
def onOwn (g : Content → Content) (f : Frame) : Frame :=
  match f.contents with
  | ct :: r => { f with contents := g ct :: r }
  | [] => f

/-! ## RELEASED (R105) -/

/-- A band of a SOURCE 0 layer still has reads to come or outstanding. -/
def readsLeft (f : Frame) : Bool :=
  (frameBands f).any (fun p => p.2.2.source = 0 && [BandStatus.idle, .reading, .abandoned].contains (bandStatus f p.1 p.2.1))

def releaseDue (f : Frame) : Bool := f.host && !f.released && !(readsLeft f)

/-- The RELEASED record of a frame (Table 4.8). -/
def releasedRec (f : Frame) : Rec :=
  let tag (i : Nat) : Nat := ((ownLayers f)[i]?.map (fun p => p.2.tag)).getD 0
  { type := 3, status := SUCCESS, sq := f.sq, slot := f.slot, tag := f.tag, irq := f.irq
    r0 := tag 0 + 65536 * tag 1, r1 := tag 2 + 65536 * tag 3
    r2 := ofBits (((ownLayers f).filter (fun p => p.2.source = 0)).map Prod.fst) }

/-- Mark a frame whose RELEASED is posted now. -/
def markReleased (f : Frame) : Frame := if releaseDue f then { f with released := true } else f

/-- Every frame the block holds, oldest first. -/
def framesHeld (i : Ing) : List Frame := i.owed ++ i.prev.toList ++ i.shown.toList ++ i.coming.toList

/-- Post every RELEASED that is due. -/
def postReleases (s : State) : State :=
  let due := (framesHeld s.ing).filter releaseDue
  let ing := { s.ing with owed := (s.ing.owed.map markReleased).filter (fun f => !f.released)
                          prev := s.ing.prev.map markReleased, shown := s.ing.shown.map markReleased
                          coming := s.ing.coming.map markReleased }
  forAll due (fun f => postRec f.cq (releasedRec f)) { s with ing }

/-- A frame leaves the panel: while reads of its SOURCE 0 layers are outstanding its RELEASED stays due (R105). -/
def retireFrame (f : Frame) (i : Ing) : Ing :=
  if f.host && !f.released then { i with owed := i.owed ++ [f] } else i

/-! ## FRAME_DONE (R101) -/

/-- FRAME_DONE of a frame that was scanned (Table 4.8). -/
def frameDoneRec (f : Frame) : Rec :=
  { type := 4, status := if f.substituted = 0 then SUCCESS else TORN, sq := f.sq, slot := f.slot, tag := f.tag, irq := f.irq
    r0 := f.lastFe % 2 ^ 32, r1 := f.lastFe / 2 ^ 32 % 2 ^ 32, r2 := f.scans, r3 := f.substituted }

/-- The active scan of the frame being scanned has ended. -/
def scanOver (s : State) : Bool := tVstart s.conf + tH s.conf ≤ s.tmg.slot

/-- Post the displayed frame's FRAME_DONE when its last scan is known and its active scan has ended. -/
def postDone (s : State) : State :=
  match s.ing.shown with
  | some f =>
    if f.host && f.lastScan && !f.finished && scanOver s then
      postRec f.cq (frameDoneRec f) { s with ing := { s.ing with shown := some { f with finished := true } } }
    else s
  | none => s

/-- The displayed frame's last scan becomes known. -/
def lastScanKnown (s : State) : State :=
  postDone { s with ing := { s.ing with shown := s.ing.shown.map (fun f => { f with lastScan := true }) } }

/-! ## The latch (R96 to R101, R115, R116) -/

def keepOf (raw : Bytes) : Bool := bit (fieldAt raw 0x20 4) 9
def snapshotOf (raw : Bytes) : Bool := bit (fieldAt raw 0x20 4) 8
def layersOf (raw : Bytes) : Nat := fieldAt raw 0x20 4 % 8

/-- Candidates considered: up to and including the oldest with KEEP (R97). -/
def considered : List Cand → List Cand
  | [] => []
  | c :: r => if keepOf c.raw then [c] else c :: considered r

/-- The candidate to latch for FE n: the newest latchable one (R97, R99). -/
def chosen (l : List Cand) (n : Nat) : Option Cand := (considered l).reverse.find? (fun c => fenceFe c.raw ≤ n)

/-- Some candidate is latchable for the frame to come. -/
def anyLatchable (s : State) : Bool := (chosen s.ing.cands (nextFe s)).isSome

/-- Latch points exist: in LIVE, and in HOLD once a transition to LIVE is accepted; a timing is in force, and no change that
ends LIVE at the next FT has been accepted (R101, R215). -/
def latching (s : State) : Bool :=
  let cueNext := match s.cue.arm with | some (.start n _ _) => n ≤ nextFe s | _ => false
  hasTiming s.conf && (match s.sys.mode, s.sys.transit with
    | .live, none => !cueNext
    | .hold, some t => t.target = .live
    | _, _ => false)

/-- Demand D in MB/s as a fraction: bytes of a frame at the top of the VRR window (R115). -/
def demand (c : Conf) (ls : List Layer) : Nat × Nat :=
  let bytes := (ls.filter (fun l => l.source ≠ 2)).foldl (fun a l => a + packedBytes l 0 l.height) 0
  (bytes * 2000 * 4096, max 1 (tVtotal c * tPeriod c))

/-- The ingest ceiling in MB/s (R59, Table 3.2), by the width in force; rates and widths that the table does not list have
an open ceiling. -/
def ceilingMb (h : Hif) : Nat :=
  let w := h.l0pWidth
  if h.speed = 6 then 100000 * w / 16
  else if h.speed = 5 && w = 16 then 47500
  else if h.speed = 4 && w = 16 then 23700
  else Config.ingestCeiling h.speed w

/-- A protected layer whose stream is not secure at latch is shown as transparent (R116). -/
def dropLayer (s : State) (l : Layer) : Layer :=
  { l with transparent := l.isProtected && !(streamOf s l.stream).secure }

/-- The frame that a descriptor begins at FE n. -/
def makeFrame (s : State) (c : Cand) (d : Bytes) (n : Nat) : Frame :=
  let ls := (List.range (layersOf c.raw)).map (fun i => dropLayer s (parseLayer d i))
  { host := true, sq := c.sq, slot := c.slot, cq := c.cq, tag := userTag c.raw, irq := hasIrq c.raw, fe := n
    snapshot := snapshotOf c.raw, dwellHint := fieldAt c.raw 0x24 4, contents := [{ layers := ls }] }

/-- LTs from now to the deadline of a band: `left` is the number to the LT of slot 0 of its frame, or none when the frame is
being scanned at `slot`. -/
def ltsLeft (c : Conf) (left : Option Nat) (slot : Nat) (l : Layer) (b : Nat) : Nat :=
  match left with
  | some n => n + engineSlot c (bandLine l b)
  | none => engineSlot c (bandLine l b) - slot

/-- The SOURCE 0 band of a frame that the unit reads next: of those whose start has come, the one with the earliest deadline,
and of equal deadlines the one of the lowest layer (R103, R104). A protected layer is read only while its stream is secure
(R377). -/
def nextRead (s : State) (c : Conf) (left : Option Nat) (slot : Nat) (f : Frame) : Option (Nat × Nat × Layer) :=
  let ahead := fget c ING_PULL_AHEAD
  (sortBy (fun p => ltsLeft c left slot p.2.2 p.2.1) ((frameBands f).filter (fun p =>
    p.2.2.source = 0 && bandStatus f p.1 p.2.1 = .idle && (!p.2.2.isProtected || (streamOf s p.2.2.stream).secure)
      && (ahead = 0 || f.snapshot || decide (ltsLeft c left slot p.2.2 p.2.1 ≤ ahead))))).head?

/-- Host reads of a band, row by row at the planes' pitches (R121, Table 5.2): address and length. -/
def bandReads (l : Layer) (b : Nat) : List (Nat × Nat) :=
  let (r0, r1) := bandRows l b
  let rows := (List.range (r1 - r0)).map (r0 + ·)
  rows.map (fun r => (l.addr0 + r * l.pitch0, rowBytes l))
    ++ (if l.format = 4 then (rows.filter (fun r => r % 2 = 0)).map (fun r => (l.addr1 + r / 2 * l.pitch1, 2 * l.width)) else [])

/-- Issue a band's reads, a protected layer's on its stream (R103, R116). -/
def issueReads (p : Nat × Nat × Layer) (f : Frame) (s : State) : State :=
  emit [.surfaceReads f.fe p.1 p.2.1 (if p.2.2.isProtected then some p.2.2.stream else none) (bandReads p.2.2 p.2.1)] s

/-- Slots of LTs left before the FT. -/
def slotsLeft (s : State) : Nat := s.tmg.nextFt.getD (s.tmg.slot + tLead s.conf + tVfp s.conf) - s.tmg.slot

/-- Is the unit at a band of the frame? -/
def isReading (f : Frame) : Bool := f.bands.any (fun p => p.2 = .reading)

/-- Begin the read that is due, of the frame being scanned or of the frame latched, while the function may read and no other
band is being read (R103, R440). -/
def beginReads (s : State) : State :=
  if !(canSend s .pf0) || [s.ing.shown, s.ing.coming].any (fun o => o.any isReading) then s
  else
    match s.ing.shown.bind (fun f => if f.host && f.scans = 1 then (nextRead s s.conf none s.tmg.slot f).map (fun p => (p, f)) else none) with
    | some (p, f) => issueReads p f { s with ing := { s.ing with shown := some (setBand p.1 p.2.1 .reading f) } }
    | none =>
      match s.ing.coming.bind (fun f => (nextRead s (comingConf s) (some (slotsLeft s)) 0 f).map (fun p => (p, f))) with
      | some (p, f) => issueReads p f { s with ing := { s.ing with coming := some (setBand p.1 p.2.1 .reading f) } }
      | none => s

/-- Guard the pages of push slots that hold a band of a protected layer of a frame (R380). -/
def guardSlots (f : Frame) (s : State) : State :=
  let guarded (p : PushSlot) : Bool := p.used && p.fe = f.fe && !p.guarded
    && ((ownLayers f)[p.layer]?.map (fun l => l.2.isProtected && l.2.source = 1)).getD false
  let c := s.conf
  let page (k : Nat) : Nat := fget c ING_PUSH_BASE_BASE + k * fget c ING_PUSH_CFG_SLOT_PAGES
  let hit := s.ing.push.filter (fun p => guarded p.2)
  { s with mem := hit.foldl (fun m p => guardPages (page p.1) (fget c ING_PUSH_CFG_SLOT_PAGES) true m) s.mem
           ing := { s.ing with push := mmap {} (fun _ p => if guarded p then { p with guarded := true } else p) s.ing.push } }

/-- Pages of a frame's protected SOURCE 2 layers: their planes lie in module memory (R108, R380). -/
def guardedPages (f : Frame) : List Nat :=
  (f.contents.flatMap Content.layers).flatMap (fun l =>
    if l.isProtected && l.source = 2 && !l.transparent then
      pagesOf l.addr0 ((l.height - 1) * l.pitch0 + rowBytes l)
        ++ (if l.format = 4 then pagesOf l.addr1 ((l.height / 2 - 1) * l.pitch1 + 2 * l.width) else [])
    else [])

/-- Protect the staging of a frame's protected SOURCE 2 layers from the latch on (R116, R380). -/
def guardStaging (f : Frame) (s : State) : State :=
  let ps := (guardedPages f).filter (fun p => !(isProtected s p))
  { s with mem := { s.mem with guarded := mputAll false (ps.map (fun p => (p, true))) s.mem.guarded }
           ing := { s.ing with guards := s.ing.guards ++ ps } }

/-- Release the staging that no frame shows any more: its pages are cleared before they lose their protection (R380). The
previous frame's counts as shown while the frame after it may substitute from it. -/
def releaseStaging (s : State) : State :=
  let used := ([s.ing.shown, s.ing.coming, s.ing.prev, s.ing.lastSeen].filterMap id).flatMap guardedPages
  let gone := s.ing.guards.filter (fun p => !(used.contains p))
  let mem := gone.foldl (fun m p => guardPages p 1 false (clearPages p 1 m)) s.mem
  if gone.isEmpty then s else { s with mem, ing := { s.ing with guards := s.ing.guards.filter (fun p => used.contains p) } }

/-- Post what R115 and R116 report about a frame just latched. -/
def latchEvents (c : Conf) (f : Frame) (s : State) : State :=
  let ls := (ownLayers f).map Prod.snd
  let (num, den) := demand c ls
  let top := ceilingMb s.hif
  let s1 := forAll ((ownLayers f).filter (fun p => p.2.transparent)) (fun p s =>
    postFe 0x0305 2 f.fe [p.1, p.2.stream] s) s
  if top * den < num then postFe 0x0303 1 f.fe [num / den, top] s1 else s1

/-- Latch a candidate whose table passed: its own records and effects (R97, R105, R115, R116). -/
def latchFrame (c : Cand) (d : Bytes) (s : State) : State :=
  let n := nextFe s
  let f := makeFrame s c d n
  let older := (s.ing.cands.takeWhile (fun x => x ≠ c))
  let rest := (s.ing.cands.dropWhile (fun x => x ≠ c)).drop 1
  let s1 := forAll older (fun x s => candDone x REPLACED [] s) { s with ing := { s.ing with cands := rest } }
  let s2 := postRec c.cq { type := 2, status := SUCCESS, sq := c.sq, slot := c.slot, tag := userTag c.raw, irq := hasIrq c.raw
                           r0 := n % 2 ^ 32, r1 := n / 2 ^ 32 % 2 ^ 32, r2 := 2 ^ layersOf c.raw - 1 }
    (reserve c.cq 2 { s1 with ing := { s1.ing with coming := some f } })
  let s3 := latchEvents (comingConf s) f (postReleases s2)
  residence (guardStaging f (guardSlots f (beginReads s3)))

/-- Latch point (R97, R100, R101): latch the newest latchable candidate, or nothing. -/
def latchPoint (table : Rd) (s : State) : State :=
  let n := nextFe s
  let s0 := trace1 1 s
  match chosen s.ing.cands n with
  | none => s0
  | some c =>
    let k := layersOf c.raw
    let drop_ (st : Nat) (r : List Nat) : State :=
      candDone c st r { s0 with ing := { s0.ing with cands := s0.ing.cands.filter (fun x => x ≠ c) } }
    if freePlaces (cqAt s.rings c.cq) < 2 || !(canSend s .pf0) then s0
    else if !table.ok || table.bytes.length < 64 * k then reportRead .pf0 table (drop_ DMA_ERROR [min (64 * k) table.bytes.length])
    else match tableFault (comingConf s) table.bytes k with
      | some o => drop_ BAD_PARAM [o]
      | none => lastScanKnown (latchFrame c table.bytes s0)

/-- A frame latched whose frame will not begin, since LIVE has ended (R101). -/
def dropComing (s : State) : State :=
  match s.ing.coming with
  | none => s
  | some f =>
    let stop := (frameBands f).foldl (fun f p =>
      if bandStatus f p.1 p.2.1 = .idle then setBand p.1 p.2.1 .failed f
      else if bandStatus f p.1 p.2.1 = .reading then setBand p.1 p.2.1 .abandoned f else f) f
    let s1 := { s with ing := retireFrame stop { s.ing with coming := none } }
    let done := { frameDoneRec { f with lastFe := f.fe, scans := 0 } with status := SUCCESS, r3 := 0 }
    postReleases (if f.host && !f.finished then postRec f.cq done s1 else s1)

/-! ## Push slots (R109 to R112) -/

def pushSlots (c : Conf) : Nat := fget c ING_PUSH_CFG_SLOTS
def pushPages (c : Conf) : Nat := fget c ING_PUSH_CFG_SLOT_PAGES
def pushSlotOf (s : State) (k : Nat) : PushSlot := mget {} s.ing.push k
def setPush (k : Nat) (p : PushSlot) (s : State) : State := { s with ing := { s.ing with push := mput {} k p s.ing.push } }

/-- Module address of a push slot. -/
def slotAddr (c : Conf) (k : Nat) : Nat := 4096 * (fget c ING_PUSH_BASE_BASE + k * pushPages c)

/-- Free a slot: a guarded one is cleared before its pages lose their protection (R380). A payload still arriving at it
counts as late. -/
def freeSlot (k : Nat) (s : State) : State :=
  let p := pushSlotOf s k
  let page := slotAddr s.conf k / 4096
  let s1 := if p.guarded then { s with mem := guardPages page (pushPages s.conf) false (clearPages page (pushPages s.conf) s.mem) } else s
  setPush k { p with used := false, guarded := false, spent := false, readTo := none }
    { s1 with ing := { s1.ing with pushFree := (k + 1) % max 1 (pushSlots s.conf) } }

/-- Free slots in ring order; n bounds how many. -/
def freeSlots : Nat → State → State
  | 0, s => s
  | n + 1, s =>
    let p := pushSlotOf s s.ing.pushFree
    if p.used && p.spent then freeSlots n (freeSlot s.ing.pushFree s) else s

/-- The band of a slot has been read by the engines or discarded (R112). -/
def spendSlot (k : Nat) (s : State) : State :=
  freeSlots (pushSlots s.conf) (setPush k { pushSlotOf s k with spent := true } s)

/-- A slot's band is done with at the LT in progress: the engines have read its lines, or it is for the frame being scanned,
whose descriptor has no SOURCE 1 layer at its index, and the deadline it would have met there has come (R112). -/
def slotOver (s : State) (p : PushSlot) : Bool :=
  p.used && !p.spent && (match p.readTo with
    | some n => decide (n ≤ s.tmg.slot)
    | none => match s.ing.shown with
      | some f => f.host && f.fe = p.fe && f.scans = 1 && (match (ownLayers f)[p.layer]? with
        | some l => (l.2.source ≠ 1 || l.2.transparent) && decide (engineSlot s.conf (bandLine l.2 p.band) ≤ s.tmg.slot)
        | none => false)
      | none => false)

/-- Slots whose band is done with at the LT in progress. -/
def spendSlots (s : State) : State := forAll ((s.ing.push.filter (fun p => slotOver s p.2)).map Prod.fst) spendSlot s

/-- At the end of the active scan, bands for this frame or an earlier one that had no deadline to meet are discarded (R112). -/
def discardOld (s : State) : State :=
  forAll ((s.ing.push.filter (fun p => p.2.used && p.2.fe ≤ s.sys.fe && !p.2.spent && p.2.readTo.isNone)).map Prod.fst) spendSlot s

/-- The frame latched or scanned that has an FE. -/
def frameOfFe (s : State) (fe : Nat) : Option Frame :=
  ([s.ing.coming, s.ing.shown].filterMap id).find? (fun f => f.host && f.fe = fe)

/-- The push layer at an index of the frame of an FE. -/
def pushLayer (s : State) (fe i : Nat) : Option Layer :=
  match frameOfFe s fe with
  | some f => ((ownLayers f)[i]?.map Prod.snd).bind (fun l => if l.source = 1 then some l else none)
  | none => none

/-- Does a write that came on a stream reach a band's slot (R116)? Bands of a layer that is not latched yet are judged at
their deadline. -/
def streamOk (s : State) (fe layer : Nat) (stream : Option Nat) : Bool :=
  match pushLayer s fe layer with
  | some l => !l.isProtected || stream = some l.stream
  | none => true

/-- The stream of a write, when it is secure. -/
def secureStream (s : State) (stream : Option Nat) : Option Nat :=
  match stream with
  | some g => if (streamOf s g).secure then some g else none
  | none => none

/-- Table 5.4: the counter that a dropped header counts in. -/
inductive PushDrop where
  | misplaced | stale | early
  deriving DecidableEq, Repr

/-- Table 5.4 in row order: the drop and whether resync begins, or none when the header is accepted. -/
def judgeHeader (s : State) (slot : Nat) (h : Bytes) : Option (PushDrop × Bool) :=
  let e := s.ing.pushFe
  let fe := fieldAt h 8 8
  let w := fieldAt h 0 4
  if pushSlots s.conf = 0 || slot ≠ s.ing.pushNext then some (.misplaced, false)
  else if (pushSlotOf s slot).used then some (.misplaced, false)
  else if s.ing.resync && !(fieldAt h 0 2 = 0 && (fe = e || fe = e + 1)) then some (.stale, false)
  else if fe < e then some (.stale, true)
  else if e + 1 < fe then some (.early, false)
  else if w / 2 ^ 19 ≠ 0 || fieldAt h 0x14 8 ≠ 0 || 4096 * (pushPages s.conf - 1) < fieldAt h 4 4 then some (.misplaced, false)
  else none

/-- Count a dropped header. -/
def countDrop (d : PushDrop) (i : Ing) : Ing :=
  match d with
  | .misplaced => { i with misplaced := satAdd 255 i.misplaced 1 }
  | .stale => { i with stale := satAdd 255 i.stale 1 }
  | .early => { i with early := satAdd 255 i.early 1 }

/-- The slot refuses payload writes until a header is accepted there (R111). -/
def closeSlot (slot : Nat) (s : State) : State := setPush slot { pushSlotOf s slot with accepts := false } s

/-- A slot of a protected layer is guarded from its first write (R380). -/
def guardOne (slot : Nat) (s : State) : State :=
  let p := pushSlotOf s slot
  match pushLayer s p.fe p.layer with
  | some l =>
    if l.isProtected && !p.guarded then
      residence (setPush slot { p with guarded := true }
        { s with mem := guardPages (slotAddr s.conf slot / 4096) (pushPages s.conf) true s.mem })
    else s
  | none => s

/-- Accept a header: the slot opens (Table 5.4, last row). -/
def acceptHeader (slot : Nat) (h : Bytes) (stream : Option Nat) (s : State) : State :=
  let p : PushSlot := { used := true, accepts := decide (0 < fieldAt h 4 4), layer := bits (fieldAt h 2 1) 0 2, band := fieldAt h 0 2
                        fe := fieldAt h 8 8, len := fieldAt h 4 4, crcEn := bit (fieldAt h 2 1) 2, crc := fieldAt h 0x10 4
                        onStream := stream, complete := decide (fieldAt h 4 4 = 0) }
  let s1 := setPush slot p { s with ing := { s.ing with pushNext := (slot + 1) % max 1 (pushSlots s.conf), resync := false } }
  guardOne slot (writePages (slotAddr s.conf slot) h s1)

/-- Submit a header (R110, R116, Table 5.4). -/
def commitHeader (slot : Nat) (h : Bytes) (stream0 : Option Nat) (s : State) : State :=
  let stream := secureStream s stream0
  match judgeHeader s slot h with
  | some (d, begins) =>
    let s1 := closeSlot slot { s with ing := { countDrop d s.ing with resync := s.ing.resync || begins } }
    postIf (begins && !s.ing.resync) 0x0302 1 [fieldAt h 8 4, fieldAt h 0 2, bits (fieldAt h 2 1) 0 2] s1
  | none =>
    if streamOk s (fieldAt h 8 8) (bits (fieldAt h 2 1) 0 2) stream then acceptHeader slot h stream s else closeSlot slot s

/-- PUSH_HEADER_COMMIT (R110, Table 5.4). -/
def execPushHeaderCommit (slot : Nat) (header : Bytes) (stream : Option Nat) (s : State) : Answer :=
  hostOp (commitHeader slot (header.take 32) stream) s

/-- Has the deadline of a slot's band passed (Table 5.11)? -/
def slotLate (s : State) (p : PushSlot) : Bool :=
  match s.ing.shown with
  | some f => if f.host && f.fe = p.fe then [BandStatus.substituted, .shown].contains (bandStatus f p.layer p.band)
              else decide (p.fe ≤ s.sys.fe)
  | none => decide (p.fe ≤ s.sys.fe)

/-- The pages of a staging read that are poisoned are counted and reported (R306, Table 13.4 row 3). -/
def badStaging (a n : Nat) (s : State) : State := forAll ((pagesOf a n).filter (isPoisoned s)) (fun page => uncorrectable page 3) s

/-- A band completes: its slot closes, its CRC is checked over the payload in module memory (R111); a payload that cannot be read
does not match. -/
def completeSlot (slot : Nat) (s : State) : State :=
  let p := pushSlotOf s slot
  let a := slotAddr s.conf slot + 4096
  let ok := !p.crcEn || ((firstPoisoned s a p.len).isNone && crc32c (readMem s a p.len) = p.crc)
  let s1 := if p.crcEn then badStaging a p.len s else s
  trace1 1 (setPush slot { p with accepts := false, complete := ok }
    { s1 with ing := { s1.ing with late := if slotLate s p then satAdd 255 s1.ing.late 1 else s1.ing.late } })

/-- A payload write at an offset from the slot's payload (R111, R116, R381). A write to a protected layer's band outside its
stream is dropped, and the band is not present whatever follows. -/
def pushPayload (slot off : Nat) (d0 : Bytes) (stream0 : Option Nat) (s : State) : State :=
  let p := pushSlotOf s slot
  let stream := secureStream s stream0
  if slot < pushSlots s.conf && p.accepts && off < p.len && streamOk s p.fe p.layer stream then
    let d := d0.take (p.len - off)
    let a := slotAddr s.conf slot + 4096 + off
    let p1 := { p with count := p.count + (d.length - droppedBytes s a d.length), onStream := if p.onStream = stream then stream else none }
    let s1 := if p.used then guardOne slot (setPush slot p1 (writePages a d s)) else setPush slot p1 s
    if p.len ≤ p1.count then completeSlot slot s1 else s1
  else
    let strayed := p.used && !(streamOk s p.fe p.layer stream)
    let s1 := if strayed && p.accepts && off < p.len then setPush slot { p with onStream := none } s else s
    if p.guarded && strayed then refuseProtected true ((slotAddr s.conf slot + 4096 + off) / 4096) 0 true s1 else s1

/-- PUSH_PAYLOAD_WRITE (R109, R111). -/
def execPushPayloadWrite (slot offset : Nat) (data : Bytes) (stream : Option Nat) (s : State) : Answer :=
  hostOp (pushPayload slot offset data stream) s

/-! ## Deadlines and reads (R102, R103, R107, R113) -/

/-- The content index for a substituted line: the previously displayed frame's content for it, or one past every content
when there is none, which is black (R113). -/
def substitute (prev : Option Frame) (f : Frame) (y : Nat) : Frame :=
  match prev.bind (fun p => lineContent p y) with
  | some ct =>
    match f.contents.idxOf? ct with
    | some (i + 1) => { f with lineFrom := mput 0 y (i + 1) f.lineFrom }
    | _ => { f with contents := f.contents ++ [ct], lineFrom := mput 0 y f.contents.length f.lineFrom }
  | none => { f with lineFrom := mput 0 y (2 ^ 32) f.lineFrom }

/-- Substitute every panel line of a band (R113). -/
def substituteBand (prev : Option Frame) (l : Layer) (b : Nat) (f : Frame) : Frame :=
  let (r0, r1) := bandRows l b
  ((List.range (r1 - r0)).map (fun k => l.dstY + r0 + k)).foldl (substitute prev) { f with substituted := f.substituted + 1 }

/-- The push slot that holds a band of the frame. -/
def slotFor (s : State) (f : Frame) (layer band : Nat) : Option (Nat × PushSlot) :=
  s.ing.push.find? (fun p => p.2.used && p.2.fe = f.fe && p.2.layer = layer && p.2.band = band)

/-- A slot's band can be shown: complete, of the right size, and on its stream when its layer is protected. -/
def slotPresent (l : Layer) (band : Nat) (p : PushSlot) : Bool :=
  p.complete && p.len = bandBytes l band && (!l.isProtected || p.onStream = some l.stream)

/-- Active level of an event pin: EVPOL (R218). -/
def evActive (s : State) (n : Nat) : Bool := s.tmg.evPol.getLsbD n

/-- Event pins go active (R217, R218); in DORMANT and BOOT they stay inactive. -/
def pulsePins (l : List Nat) (s : State) : State :=
  if s.sys.mode = .dormant || s.sys.mode = .boot then s
  else
    emit (l.reverse.map (fun n => .evPin n (evActive s n)))
      { s with tmg := { s.tmg with evPins := s.tmg.evPins ||| BitVec.ofNat 4 (ofBits l) } }

/-- EVPOL as written takes effect at an LT: a pin whose polarity it changes takes its new level (R218, R219). -/
def takePolarity (s : State) : State :=
  let v : BitVec 4 := BitVec.ofNat 4 (lget s.conf TMG_EVENTS_EVPOL)
  let turned := (List.range 4).filter (fun n => (s.tmg.evPol ^^^ v).getLsbD n)
  emit (turned.map (fun n => .evPin n (s.tmg.evPins.getLsbD n = v.getLsbD n))).reverse { s with tmg := { s.tmg with evPol := v } }

/-- Every event pin goes to its inactive level. -/
def clearPins (s : State) : State :=
  emit (((List.range 4).filter (fun n => s.tmg.evPins.getLsbD n)).map (fun n => .evPin n (!(evActive s n))))
    { s with tmg := { s.tmg with evPins := 0 } }

/-- Ranges of a payload of n bytes at module address a that lie in poisoned pages: offset and length. -/
def poisonedRuns (s : State) (a n : Nat) : List (Nat × Nat) :=
  ((pagesOf a n).filter (isPoisoned s)).map (fun p =>
    (max a (4096 * p) - a, min (a + n) (4096 * p + 4096) - max a (4096 * p)))

/-- The same ranges of a band in the keys of its staging: its rows, then its chroma rows (R109). -/
def lostRuns (layer : Nat) (l : Layer) (b : Nat) (runs : List (Nat × Nat)) : List (Nat × Nat) :=
  let (r0, r1) := bandRows l b
  let plain := (r1 - r0) * rowBytes l
  let base := 2 ^ 40 * layer
  runs.flatMap (fun p =>
    let below := min (p.1 + p.2) plain - p.1
    let above := p.1 + p.2 - max p.1 plain
    (if p.1 < plain then [(base + r0 * rowBytes l + p.1, below)] else [])
      ++ (if plain < p.1 + p.2 then [(base + l.height * rowBytes l + r0 / 2 * (2 * l.width) + (max p.1 plain - plain), above)] else []))

/-- A pushed band's payload goes into staging as it stands in module memory; what lies in a poisoned page is lost (R305,
Table 13.4 row 3). -/
def stagePush (a i b : Nat) (l : Layer) (s : State) (f : Frame) : Frame :=
  let n := bandBytes l b
  onOwn (fun ct =>
    let c1 := stageBand i l b (readMem s a n) ct
    { c1 with lost := ct.lost ++ lostRuns i l b (poisonedRuns s a n) }) f

/-- A band is present at its deadline: the engines show it. -/
def showBand (i b : Nat) (f : Frame) (s : State) : State :=
  trace1 1 { s with ing := { s.ing with shown := some (setBand i b .shown f) } }

/-- A band is not present at its deadline (R113, Table 10.4): reads outstanding are abandoned (R103). -/
def missBand (i b : Nat) (l : Layer) (f : Frame) (s : State) : State :=
  let st := if bandStatus f i b = .reading then BandStatus.abandoned else .substituted
  let f1 := setBand i b st (substituteBand s.ing.prev l b f)
  let ing := { s.ing with shown := some f1, underruns := s.ing.underruns + 1
                          firstUnder := if s.ing.underruns = 0 then b else s.ing.firstUnder }
  postReleases (pulsePins [3] (trace1 1 { s with ing }))

/-- Judge one band of the frame being scanned at its deadline. -/
def judgeBand (i b : Nat) (l : Layer) (f : Frame) (s : State) : State :=
  if l.source = 1 then
    match slotFor s f i b with
    | some (k, p) =>
      let a := slotAddr s.conf k + 4096
      if slotPresent l b p then
        setPush k { p with readTo := some (engineSlot s.conf (l.dstY + (bandRows l b).2)) }
          (showBand i b (stagePush a i b l s f) (badStaging a p.len s))
      else spendSlot k (missBand i b l f s)
    | none => missBand i b l f s
  else if bandStatus f i b = .present then showBand i b f s else missBand i b l f s

/-- Bands of the first scan not yet judged whose deadline is the LT of the current slot. -/
def bandsDue (s : State) (f : Frame) : List (Nat × Nat × Layer) :=
  if f.host && f.scans = 1 && s.pwr.fall = .idle then
    (frameBands f).filter (fun p => engineSlot s.conf (bandLine p.2.2 p.2.1) = s.tmg.slot
      && [BandStatus.idle, .reading, .present, .failed].contains (bandStatus f p.1 p.2.1))
  else []

/-- Judge one band when it is due. -/
def judgeDue (p : Nat × Nat × Layer) (s : State) : State :=
  match s.ing.shown with
  | some f => judgeBand p.1 p.2.1 p.2.2 f s
  | none => s

/-- BAND_DEADLINE (R102, R113): the LT at which the engines begin the band's first line. -/
def execBandDeadline (r : BandRef) (s : State) : Answer :=
  .next (match s.ing.shown with
  | some f => forAll ((bandsDue s f).filter (fun p => p.1 = r.layer && p.2.1 = r.band)) judgeDue s
  | none => s)

/-- Do a band's reads bring all of its bytes? -/
def readWhole (l : Layer) (b : Nat) (data : Rd) : Bool := data.ok && decide (bandBytes l b ≤ data.bytes.length)

/-- What the reads of a band brought: data in staging, a failed band (R107), or nothing where the band was abandoned at its
deadline (R103). -/
def bandRead (r : ReadRef) (data : Rd) (f : Frame) : Frame :=
  match (frameBands f).find? (fun p => p.1 = r.layer && p.2.1 = r.band && p.2.2.source = 0) with
  | none => f
  | some (i, b, l) =>
    let whole := readWhole l b data
    let g := if whole then f else { f with pullError := true }
    if bandStatus f i b = .abandoned then setBand i b .substituted g
    else if bandStatus f i b = .reading then
      if whole then setBand i b .present (onOwn (stageBand i l b data.bytes) g) else setBand i b .failed g
    else f

/-- Is it a frame with reads of that band outstanding? -/
def awaits (r : ReadRef) (f : Frame) : Bool :=
  f.host && f.fe = r.fe && [BandStatus.reading, .abandoned].contains (bandStatus f r.layer r.band)

/-- The frame whose reads complete, among those that left the panel, the one scanned and the one latched. -/
def awaiting (r : ReadRef) (i : Ing) : Option Frame := (i.owed ++ i.shown.toList ++ i.coming.toList).find? (awaits r)

/-- PULL_ERROR once per frame, for the first read of it that fails (R107). -/
def pullError (r : ReadRef) (before after : Frame) (s : State) : State :=
  if after.pullError && !before.pullError then postFe 0x0304 2 r.fe [r.layer, r.band, DMA_ERROR] s else s

/-- HOST_READ_COMPLETION (R72, R103, R105, R107): a band's reads complete or fail; the unit goes on with the next band, and
trace has the arrival (Table 17.7). -/
def execHostReadCompletion (r : ReadRef) (data : Rd) (s : State) : Answer :=
  .next (match (if s.pwr.fall = .idle then awaiting r s.ing else none) with
  | some f =>
    let g (x : Frame) : Frame := if awaits r x then bandRead r data x else x
    let ing := { s.ing with owed := s.ing.owed.map g, shown := s.ing.shown.map g, coming := s.ing.coming.map g }
    trace1 1 (beginReads (postReleases (pullError r f (g f) (reportRead .pf0 data { s with ing }))))
  | none => s)

/-! ## The statistics pass (R142 to R144) -/

/-- The own bands of a frame that cover panel line y, in the layers that arrive in bands: layer index, band, layer. -/
def bandsOver (f : Frame) (y : Nat) : List (Nat × Nat × Layer) :=
  ((ownLayers f).filter (fun p => ingested p.2 && decide (p.2.dstY ≤ y) && decide (y < p.2.dstY + p.2.height))).map
    (fun p => (p.1, (y - p.2.dstY) / max 1 p.2.bandLines, p.2))

/-- A pushed band whose bytes are all in its slot before its deadline (R112, R142): the slot. -/
def waitingSlot (s : State) (f : Frame) (b : Nat × Nat × Layer) : Option Nat :=
  if b.2.2.source = 1 && bandStatus f b.1 b.2.1 = .idle then
    match slotFor s f b.1 b.2.1 with
    | some (k, p) => if slotPresent b.2.2 b.2.1 p then some k else none
    | none => none
  else none

/-- Panel line y is landed for a frame (R142): every band that covers it is in staging, or has been judged at its deadline. A
dropped protected layer has no band to wait for (R116). -/
def landed (s : State) (f : Frame) (y : Nat) : Bool :=
  (bandsOver f y).all (fun b => (waitingSlot s f b).isSome
    || [BandStatus.present, .shown, .substituted, .abandoned].contains (bandStatus f b.1 b.2.1))

/-- The frame as the statistics pass reads line y: pushed bands that wait for their deadline lie in their slots (R109, R142). -/
def passFrame (s : State) (f : Frame) (y : Nat) : Frame :=
  (bandsOver f y).foldl (fun g b => match waitingSlot s f b with
    | some k => stagePush (slotAddr s.conf k + 4096) b.1 b.2.1 b.2.2 s g
    | none => g) f

/-- STATISTICS_PASS_LINE (R142 to R144): an engine takes its stripe's lines in increasing y. -/
def execStatisticsPassLine (line stripe : Nat) (s : State) : Answer :=
  .next (match statsFrame s with
  | some f =>
    if s.pwr.fall = .idle && s.gz.opened && line < tH (statsConf s) && stripe < 192 && !((idleStripes s).contains stripe)
        && mget 0 s.gz.progress stripe = line && landed s f line then
      { s with gz := { s.gz with scratch := passLine s (passFrame s f line) line stripe
                                 progress := mput 0 stripe (line + 1) s.gz.progress } }
    else s
  | none => s)

end Sys2Proof.Machine
end

