-- ==== Sys2Proof/Machine/Cues.lean ====
section
/-!
DEFINITION. Cue buffers (R277 to R280, R382), cue lists and their validation (R281, R282), the step machine (R283 to R286,
R289, R291) and CUE_START and CUE_STOP (R287, R288, R358).
-/
namespace Sys2Proof.Machine

/-! ## Buffers (R277 to R279) -/

def bufferOf (s : State) (b : Nat) : Option Buffer := aget s.cue.buffers b

/-- Does an address fall in a buffer's range (R278)? -/
def Buffer.covers (b : Buffer) (a : Nat) : Bool := 4096 * b.page ≤ a && a < 4096 * (b.page + b.pages)

/-- Bytes of a buffer from an offset. -/
def bufBytes (s : State) (b : Nat) (off n : Nat) : Bytes :=
  match bufferOf s b with
  | some u => readMem s (4096 * u.page + off) n
  | none => []

/-- A field of a list buffer. -/
def listField (s : State) (l off n : Nat) : Nat := leNat (bufBytes s l off n)

/-- Offset of step n of a list, and of its layer i (R281). -/
def stepOff (n : Nat) : Nat := 32 + 160 * n
def layerOff (n i : Nat) : Nat := stepOff n + 32 + 32 * i

def listSteps (s : State) (l : Nat) : Nat := listField s l 0 2

/-- LAYERS of a step. -/
def stepLayers (s : State) (l n : Nat) : Nat := bits (listField s l (stepOff n) 1) 3 3

/-- Buffers that a list names, its own included (R278). -/
def listRefs (s : State) (l : Nat) : List Nat :=
  (l :: (List.range (listSteps s l)).flatMap (fun n =>
    (List.range (stepLayers s l n)).map (fun i => listField s l (layerOff n i) 2 % 4096))).eraseDups

/-- Has a buffer a reference (R278)? -/
def referenced (s : State) (b : Nat) : Bool :=
  let armed := match s.cue.arm with | some (.start _ l _) => listRefs s l | _ => []
  let run (r : Option CueRun) : List Nat := match r with | some r => r.refs | none => []
  let held (f : Frame) : Bool := match bufferOf s b with
    | some u => (layersShown f).any (fun l => l.source = 2 && u.covers l.addr0)
    | none => false
  armed.contains b || (run s.cue.run).contains b || (run s.cue.coming).contains b
    || (s.ing.shown.toList ++ s.ing.coming.toList).any held

/-- Free a buffer: its pages return to the unwritten state, and a sealed one's lose their protection (R279, R380). -/
def dropBuffer (b : Nat) (s : State) : State :=
  match bufferOf s b with
  | some u =>
    let m := clearPages u.page u.pages s.mem
    { s with mem := if u.isSealed then guardPages u.page u.pages false m else m
             cue := { s.cue with buffers := s.cue.buffers.filter (fun p => p.1 ≠ b) } }
  | none => s

/-- Deferred frees whose references have ended take place (R279). -/
def settleFrees (s : State) : State :=
  forAll ((s.cue.buffers.filter (fun p => p.2.deferred)).map Prod.fst) (fun b s =>
    if referenced s b then s
    else
      let n := match bufferOf s b with | some u => u.pages | none => 0
      post 0x0C02 0 [b, n] (dropBuffer b s)) s

/-- FREE_BUFFER (R279, R82). -/
def execFreeBuffer (sq : Nat) (s : State) : Answer :=
  runRing .pf0 sq 0x32 (fun r s =>
    let b := fieldAt r.raw 0x18 4
    match bufferOf s b with
    | none => finish .pf0 sq r BAD_PARAM [0x18] s
    | some u =>
      if referenced s b then
        finish .pf0 sq r SUCCESS [0]
          { s with cue := { s.cue with buffers := aput b { u with deferred := true } s.cue.buffers } }
      else finish .pf0 sq r SUCCESS [1] (dropBuffer b s)) s

/-! ## CUE_LOAD (R277, R382) -/

/-- First page and number of pages for buffers: the cue region after its buffer table (R277). -/
def bufferArea (c : Conf) : Nat × Nat := (fget c CUE_REGION_BASE_BASE + 16, fget c CUE_REGION_PAGES_PAGES - 16)

/-- Runs of loaded pages, ascending: first page and one past the last. -/
def usedRuns (s : State) : List (Nat × Nat) :=
  sortBy Prod.fst (s.cue.buffers.map (fun p => (p.2.page, p.2.page + p.2.pages)))

/-- Free runs between used ones, from a page to the end of the area. -/
def freeRuns (at_ last : Nat) : List (Nat × Nat) → List (Nat × Nat)
  | [] => if at_ < last then [(at_, last - at_)] else []
  | (a, b) :: r => (if at_ < a then [(at_, a - at_)] else []) ++ freeRuns (max at_ b) last r

/-- Free runs of the cue region: first page and pages. -/
def cueRuns (s : State) : List (Nat × Nat) :=
  let (p, n) := bufferArea s.conf
  freeRuns p (p + n) (usedRuns s)

/-- Decrypt the units of a sealed source from unit u on, at an offset: the plain bytes, or the offset of the unit that
fails (R382). Units but the last hold 65,536 bytes; n bounds the units. -/
def openUnits (key : Bytes) (src : Bytes) (plainLen : Nat) : Nat → Nat → Nat → Bytes → Except Nat Bytes
  | 0, _, _, acc => .ok acc
  | n + 1, u, off, acc =>
    let size := min 65536 (plainLen - 65536 * u)
    if src.length < off + size + 16 then .error off
    else match Config.gcmOpen key (((src.drop 0x10).take 8) ++ toBE 4 u) (src.take 0x20) ((src.drop off).take size)
        ((src.drop (off + size)).take 16) with
      | some p => openUnits key src plainLen n (u + 1) (off + size + 16) (acc ++ p)
      | none => .error off

/-- The plain bytes of a sealed source (R382). -/
def openSealed (key src : Bytes) : Except Nat Bytes :=
  openUnits key src (fieldAt src 8 8) (fieldAt src 0 4) 0 64 []

/-- What a load of a buffer comes to: its pages and contents, or a status with results (R277). -/
def loadPlan (s : State) (b len : Nat) (isSealed : Bool) (keyId : Nat) (data : Rd) : Except (Nat × List Nat) (Nat × Nat × Bytes) :=
  let pages := (len + 4095) / 4096
  if 4095 < b || (bufferOf s b).isSome then .error (BAD_PARAM, [0x18])
  else if len = 0 then .error (BAD_PARAM, [0x28])
  else match (cueRuns s).find? (fun r => pages ≤ r.2) with
    | none => .error (BAD_PARAM, [0x28, (cueRuns s).foldl (fun m r => max m r.2) 0])
    | some (page, _) =>
      let key := if isSealed && inService s then aget s.sec.keys keyId else none
      if isSealed && key.isNone then .error (NOT_PERMITTED, [0x30])
      else if !data.ok || data.bytes.length < len then .error (DMA_ERROR, [min len data.bytes.length])
      else if isSealed then
        match openSealed ((key.getD ([], false)).1) (data.bytes.take len) with
        | .ok p => .ok (page, pages, p.take (4096 * pages))
        | .error off => .error (CRC_MISMATCH, [off])
      else .ok (page, pages, data.bytes.take len)

/-- A loaded buffer: contents in place, the rest of its pages zero, sealed pages protected (R277, R380). -/
def placeBuffer (b page pages : Nat) (isSealed : Bool) (len : Nat) (d : Bytes) (s : State) : State :=
  let s1 := writeMem (4096 * page) (d ++ List.replicate (4096 * pages - d.length) 0) s
  let m := if isSealed then guardPages page pages true s1.mem else s1.mem
  residence { s1 with mem := m, cue := { s1.cue with buffers := aput b { page, pages, length := len, isSealed } s1.cue.buffers } }

/-- CUE_LOAD (R277, R382): a load pauses in BRACE (R48). -/
def execCueLoad (sq : Nat) (data : Rd) (s : State) : Answer :=
  if s.sys.brace then .next s
  else runRead .pf0 sq 0x40 data (fun r s =>
    let b := fieldAt r.raw 0x18 4
    let isSealed := bit (fieldAt r.raw 0x1C 4) 0
    let len := fieldAt r.raw 0x28 8
    match loadPlan s b len isSealed (fieldAt r.raw 0x30 4) data with
    | .error (st, res) => finish .pf0 sq r st res s
    | .ok (page, pages, d) =>
      finish .pf0 sq r SUCCESS (lohi (4096 * page) ++ [pages]) (placeBuffer b page pages isSealed len d s)) s

/-! ## Lists (R281, R282) -/

/-- Layer i of step n of a list, as the pipeline shows it (Tables 12.3, 5.2): module memory at the buffer's address. -/
def cueLayer (s : State) (l n i : Nat) : Layer :=
  let f (o k : Nat) := listField s l (layerOff n i + o) k
  let base := match bufferOf s (f 0 2 % 4096) with | some u => 4096 * u.page | none => 0
  { source := 2, format := f 2 1, scale := bits (f 3 1) 0 3, blend := bits (f 3 1) 3 2
    planeAlpha := f 4 2 % 16384, yccMatrix := bits (f 5 1) 6 2, yccFull := bit (f 6 1) 0
    addr0 := base + 64 * f 8 4, addr1 := if f 2 1 = 4 then base + 64 * f 0xC 4 else 0
    pitch0 := f 0x10 4, pitch1 := f 0x14 4, width := f 0x18 2, height := f 0x1A 2, dstX := f 0x1C 2, dstY := f 0x1E 2 }

/-- Layers of a SHOW step. -/
def showLayers (s : State) (l n : Nat) : List Layer := (List.range (stepLayers s l n)).map (cueLayer s l n)

/-- Does a scaled layer leave the active area: in width, in height (R282, R285)? -/
def tooWide (c : Conf) (l : Layer) : Bool := tW c < l.dstX + scaleOf l * l.width
def tooHigh (c : Conf) (l : Layer) : Bool := tH c < l.dstY + scaleOf l * l.height

/-- Rules of layer i of step n in ascending offset: broken or not, and the offset within the entry (Table 12.3, R282). -/
def cueLayerRules (s : State) (l n i : Nat) : List (Bool × Nat) :=
  let f (o k : Nat) := listField s l (layerOff n i + o) k
  let y := cueLayer s l n i
  let ycc := y.format = 4
  let u := bufferOf s (f 0 2 % 4096)
  let size := match u with | some b => b.length | none => 0
  let fits (off rows pitch row : Nat) : Bool := decide (off + (rows - 1) * pitch + row ≤ size)
  [(u.isNone, 0x00), (16 ≤ f 1 1, 0x01), (y.format < 1 || 4 < y.format, 0x02),
   (4 < y.scale || y.blend = 3 || 32 ≤ f 3 1, 0x03),
   (if ycc then 1 < y.yccMatrix else y.yccMatrix ≠ 0, 0x05),
   ((!ycc && y.yccFull) || 2 ≤ f 6 1, 0x06), (f 7 1 ≠ 0, 0x07),
   (u.isSome && !(fits (64 * f 8 4) y.height y.pitch0 (rowBytes y)), 0x08),
   (if ycc then u.isSome && !(fits (64 * f 0xC 4) (y.height / 2) y.pitch1 (2 * y.width)) else f 0xC 4 ≠ 0, 0x0C),
   (y.pitch0 % 4 ≠ 0 || y.pitch0 < rowBytes y, 0x10),
   (if ycc then y.pitch1 % 4 ≠ 0 || y.pitch1 < 2 * y.width else y.pitch1 ≠ 0, 0x14),
   (y.width < 1 || (ycc && y.width % 2 = 1) || tooWide s.conf y, 0x18),
   (y.height < 1 || (ycc && y.height % 2 = 1) || tooHigh s.conf y, 0x1A)]

/-- Nonzero bytes of a reserved range of a list. -/
def listZero (s : State) (l base lo n : Nat) : List (Bool × Nat) :=
  (keyed 0 (bufBytes s l (base + lo) n)).map (fun p => (decide (p.2 ≠ 0), lo + p.1))

/-- Kinds of step (Table 12.2). -/
def KSHOW : Nat := 0
def KJUMP : Nat := 1
def KLOOP : Nat := 2
def KEND : Nat := 3

def stepKind (s : State) (l n : Nat) : Nat := listField s l (stepOff n) 1 % 8
def stepCond (s : State) (l n : Nat) : Nat := listField s l (stepOff n + 1) 1
def stepArg (s : State) (l n : Nat) : Nat := listField s l (stepOff n + 2) 1
def stepTarget (s : State) (l n : Nat) : Nat := listField s l (stepOff n + 4) 2
def stepCount (s : State) (l n : Nat) : Nat := listField s l (stepOff n + 6) 2
def stepDuration (s : State) (l n : Nat) : Nat := listField s l (stepOff n + 8) 4
def stepFade (s : State) (l n : Nat) : Nat := listField s l (stepOff n + 16) 2
def stepNeeds (s : State) (l n : Nat) : Bool := bit (listField s l (stepOff n) 1) 6
def stepNotifies (s : State) (l n : Nat) : Bool := bit (listField s l (stepOff n) 1) 7
def stepEndMode (s : State) (l n : Nat) : Nat := listField s l (stepOff n + 3) 1 % 8

/-- INTERVAL_US of a step in its range (Table 12.2). -/
def stepInterval (s : State) (l n : Nat) : Nat := max (tminUs s.conf) (min 1000000 (listField s l (stepOff n + 12) 4))

/-- Rules of step n of `steps` in ascending offset (Table 12.2, R282). -/
def stepRules (s : State) (l steps n : Nat) : List (Bool × Nat) :=
  let kind := stepKind s l n
  let layers := stepLayers s l n
  let cond := stepCond s l n
  let arg := stepArg s l n
  let last := n + 1 = steps
  let m := listField s l (stepOff n + 3) 1
  [(3 < kind || 4 < layers || (kind ≠ KSHOW && layers ≠ 0) || (last && kind = KLOOP), 0),
   (6 < cond || (1 < kind && cond ≠ 0) || (last && kind = KJUMP && cond ≠ 1), 1),
   (if cond = 2 || cond = 3 || kind = KLOOP then 7 < arg else (cond = 4 || cond = 5) && 31 < arg, 2),
   (8 ≤ m || (if kind = KEND then m ≠ 2 && m ≠ 3 else m ≠ 0), 3),
   (steps ≤ stepTarget s l n, 4), (kind = KLOOP && stepCount s l n = 0, 6),
   (last && kind = KSHOW && stepDuration s l n ≠ 0, 8)]
  ++ listZero s l (stepOff n) 0x12 14
  ++ (List.range layers).flatMap (fun i => (cueLayerRules s l n i).map (fun p => (p.1, 32 + 32 * i + p.2)))

/-- Byte offset within the list buffer of the first bad field of a loaded list (R282). -/
def listFault (s : State) (l : Nat) : Option Nat :=
  let steps := listSteps s l
  let size := match bufferOf s l with | some u => u.length | none => 0
  if steps < 1 || 4096 < steps || size < 32 + 160 * steps then some 0
  else
    let head := (listZero s l 0 2 30).find? Prod.fst
    match head with
    | some p => some p.2
    | none => (List.range steps).findSome? (fun n => ((stepRules s l steps n).find? Prod.fst).map (fun p => stepOff n + p.2))

/-! ## The step machine (R283) -/

/-- The level at every GPIO pin: outputs show what they drive (R438). -/
def gpioIn (s : State) : Nat :=
  ofBits ((List.range 8).filter (fun i =>
    if bit (fget s.conf SYS_GPIO_CFG_DIR) i then bit (lget s.conf SYS_GPIO_OUT_OUT) i else s.sys.gpioPins.getLsbD i))

/-- Conditions (Table 12.4). -/
def condHolds (s : State) (cond arg : Nat) : Bool :=
  if cond = 1 then true
  else if cond = 2 then bit (gpioIn s) arg
  else if cond = 3 then !(bit (gpioIn s) arg)
  else if cond = 4 then bit (lget s.conf CUE_SIGNAL_SIGNAL) arg
  else if cond = 5 then !(bit (lget s.conf CUE_SIGNAL_SIGNAL) arg)
  else cond = 6 && anyLatchable s

/-- Where a walk over steps that are not SHOW comes out (R283 item 2). -/
inductive Walk where
  | show_ (n : Nat) (counters : SMap Nat)
  | stop (n : Nat) (m : Mode)
  | fault (n : Nat)

/-- The walk from step n; `k` bounds the steps acted on. -/
def walk (s : State) (l : Nat) : Nat → Nat → SMap Nat → Walk
  | 0, n, m => if stepKind s l n = KSHOW then .show_ n m
               else if stepKind s l n = KEND then .stop n (if stepEndMode s l n = 2 then .live else .hold) else .fault n
  | k + 1, n, m =>
    let kind := stepKind s l n
    if kind = KSHOW then .show_ n m
    else if kind = KEND then .stop n (if stepEndMode s l n = 2 then .live else .hold)
    else if kind = KJUMP then
      walk s l k (if condHolds s (stepCond s l n) (stepArg s l n) then stepTarget s l n else n + 1) m
    else
      let c := mget 0 m (stepArg s l n)
      if c < stepCount s l n then walk s l k (stepTarget s l n) (mput 0 (stepArg s l n) (c + 1) m)
      else walk s l k (n + 1) (mput 0 (stepArg s l n) 0 m)

/-- The Damask map is ready (R291). -/
def damaskReady (s : State) : Bool := !(fbit s.conf DMK_CTRL_MAP_EN) || s.dmk.loaded

/-- Layers of the displayed frame's own content: the outgoing step of a crossfade. -/
def layersNow (s : State) : List Layer :=
  match s.ing.shown with
  | some f => match f.contents with | c :: _ => c.layers | [] => []
  | none => []

/-- The run after going to step n from a SHOW step, or from the start (R283 items 2 and 3, R286, R291). `fades` tells
whether the frame before has a step to fade from. -/
def goTo (s : State) (r : CueRun) (n : Nat) (fades : Bool) : CueRun :=
  let stay := { r with entered := false }
  match walk s r.list 64 n r.counters with
  | .show_ m counters =>
    if stepNeeds s r.list m && !(damaskReady s) then { stay with damaskWait := true, counters }
    else
      let x := if fades then stepFade s r.list m else 0
      { r with step := some m, shownFrames := 0, counters, old := if x = 0 then [] else layersNow s, fade := x
               damaskWait := false, entered := true, prevStep := r.step.getD 0 }
  | .stop _ m => { stay with ending := some m, damaskWait := false }
  | .fault m => { stay with ending := some .hold, fault := true, prevStep := m, damaskWait := false }

/-- Does the shown step's watch hold (R283 item 1)? -/
def watchHolds (s : State) (r : CueRun) : Bool :=
  match r.step with
  | some n => condHolds s (stepCond s r.list n) (stepArg s r.list n)
  | none => false

/-- The run that a step point decides for the next frame (R283). A step whose time has passed while it waits for Damask
goes on as soon as it may. -/
def nextRun (s : State) (r : CueRun) : CueRun :=
  match r.step with
  | none => goTo s r r.start false
  | some n =>
    let d := stepDuration s r.list n
    if watchHolds s r then goTo s r (stepTarget s r.list n) true
    else if d ≠ 0 && d ≤ r.shownFrames then goTo s r (n + 1) true
    else { r with entered := false, damaskWait := false }

/-- The run that CUE_START begins (R287): in CUE the step shown before fades out as for any step entry. -/
def startRun (s : State) (list step : Nat) : CueRun :=
  let r : CueRun := { list, refs := listRefs s list, start := step }
  let r1 := goTo s r step (s.sys.mode = .cue)
  { r1 with prevStep := match s.cue.run with | some q => q.step.getD 0 | none => 0 }

/-- The frame that a run shows next (R285, R286). -/
def cueFrame (s : State) (c : Conf) (r : CueRun) : Frame :=
  let fit (l : Layer) : Layer := { l with transparent := tooWide c l || tooHigh c l, unfit := tooWide c l || tooHigh c l }
  let ls := match r.step with | some n => (showLayers s r.list n).map fit | none => []
  let mix : Option Mix := if r.shownFrames < r.fade then some { old := r.old.map fit, f := r.shownFrames, x := r.fade } else none
  { contents := [{ layers := ls, mix }], released := true, finished := true }

/-- The step point of a cue frame (R283, R287 to R289): the run of the next frame and the frame itself. With target LIVE
the step point is a latch point. -/
def stepPoint (table : Rd) (s : State) : State :=
  let n := s.sys.fe + 1
  let toward (r : CueRun) (m : Mode) : State :=
    let s1 := { s with cue := { s.cue with coming := some { r with ending := some m } } }
    if m = .live then latchPoint table s1 else s1
  let showNext (r : CueRun) : State :=
    match r.ending with
    | some m => toward r m
    | none => { s with cue := { s.cue with coming := some r }, ing := { s.ing with coming := some (cueFrame s (comingConf s) r) } }
  let running := s.sys.mode = .cue
  match s.cue.arm, s.cue.run with
  | some (.start fe l st), run =>
    if fe ≤ n && (running || s.sys.mode = .live || s.sys.mode = .hold) then showNext (startRun s l st)
    else match run with
      | some r => if running then showNext (nextRun s r) else s
      | none => s
  | some (.stop fe m), some r => if running then (if fe ≤ n then toward r m else showNext (nextRun s r)) else s
  | none, some r => if running then showNext (nextRun s r) else s
  | _, none => s

/-! ## CUE_START and CUE_STOP (R287, R288, R358) -/

/-- The command body that a wall exchange carries: bytes +0x18 to +0x3F. -/
def wallBody (raw : Bytes) : Bytes := (raw.drop 0x18).take 40

/-- What a CUE_START body asks breaks: status and result (R282, R287). -/
def startFault (s : State) (body : Bytes) : Option (Nat × Nat) :=
  let l := fieldAt body 0 4
  if (bufferOf s l).isNone then some (BAD_PARAM, 0x18)
  else match listFault s l with
    | some o => some (BAD_PARAM, o)
    | none => if listSteps s l ≤ fieldAt body 4 4 then some (BAD_PARAM, 0x1C) else none

/-- What a CUE_STOP body asks breaks (R288). -/
def stopFault (s : State) (body : Bytes) : Option (Nat × Nat) :=
  let t := fieldAt body 0 4 % 8
  let armed := match s.cue.arm with | some (.start ..) => true | _ => false
  if t ≠ 2 && t ≠ 3 then some (BAD_PARAM, 0x18)
  else if s.sys.mode ≠ .cue && !armed then some (MODE_INVALID, 0)
  else none

/-- What the mode refuses of a CUE_START (R287). -/
def startMode (s : State) : Option Nat :=
  if s.sys.mode = .boot || s.sys.transit.isSome then some MODE_BUSY
  else if s.sys.mode = .service || s.sys.mode = .dormant then some MODE_INVALID else none

/-- Every check of a command that a wall exchange can carry: kind 1 CUE_START, 2 CUE_STOP. -/
def cueFault (s : State) (kind : Nat) (body : Bytes) : Option (Nat × Nat) :=
  if kind = 1 then (startMode s).map (fun st => (st, 0)) <|> startFault s body else stopFault s body

/-- The step point of the frame to come had acted on an arm that is replaced before that frame begins (R288): the frame is
decided anew, with what it had latched for LIVE dropped (R101). -/
def decideAgain (s : State) : State :=
  if s.cue.coming.isSome then
    let s1 := dropComing s
    match s1.cue.run with
    | some r =>
      let r1 := nextRun s1 r
      let s2 := { s1 with cue := { s1.cue with coming := some r1 } }
      if s1.sys.mode ≠ .cue then { s1 with cue := { s1.cue with coming := none } }
      else if r1.ending.isSome then s2
      else { s2 with ing := { s2.ing with coming := some (cueFrame s2 (comingConf s2) r1) } }
    | none => { s1 with cue := { s1.cue with coming := none } }
  else s

/-- Arm a CUE_START or CUE_STOP for an FE, replacing an armed one whose FE has not begun (R288). -/
def armCue (kind fe : Nat) (body : Bytes) (s : State) : State :=
  let a : CueArm := if kind = 1 then .start fe (fieldAt body 0 4) (fieldAt body 4 4)
    else .stop fe (if fieldAt body 0 4 % 8 = 2 then .live else .hold)
  let due := match s.cue.arm with
    | some (.start n _ _) => decide (n ≤ nextFe s)
    | some (.stop n _) => decide (n ≤ nextFe s)
    | none => false
  let s1 := if due then decideAgain s else s
  settleFrees { s1 with cue := { s1.cue with arm := some a } }

/-- CUE_START or CUE_STOP on a ring. -/
def cueCommand (sq kind : Nat) (r : Running) (s : State) : State :=
  let body := wallBody r.raw
  let wall := fbit s.conf GNG_CTRL_EN && fbit s.conf GNG_CTRL_WALL_CUE
  match cueFault s kind body with
  | some (st, r0) => finish .pf0 sq r st [r0] s
  | none => match armFe s.sys.fe (fieldAt r.raw 0x20 8) (if wall then 4 else 2) with
    | none => finish .pf0 sq r ARM_LATE [] s
    | some n => if wall then beginWallArm sq r kind 0 n 0 body s
                else finish .pf0 sq r SUCCESS (lohi n) (armCue kind n body s)

end Sys2Proof.Machine
end

