-- ==== Sys2Proof/Machine/Twill.lean ====
section
/-!
DEFINITION. Twill (chapter 11): packets and their symbols (R238 to R244), the back-channel (R252 to R254), training
(R255 to R261), the spare (R259, R398), test patterns and injection (R266 to R268), and a group's clock loss (R397).
-/
namespace Sys2Proof.Machine

/-! ## Packets -/

/-- A packet's header fields that are not the port's (Table 11.3). -/
structure PacketHead where
  line : Nat
  fe : Nat
  pol : Bool
  inv : Nat
  lsOffset : Nat
  pack : Nat
  discharge : Bool := false
  subst : Bool := false
  first : Bool := false
  deriving DecidableEq, Repr

/-- The header word (Table 11.3). -/
def headerWord (h : PacketHead) (colpar len : Nat) : Nat :=
  h.line + 2 ^ 14 * (h.fe % 16) + 2 ^ 18 * b2n h.pol + 2 ^ 19 * colpar + 2 ^ 20 * h.inv + 2 ^ 23 * h.lsOffset
    + 2 ^ 39 * len + 2 ^ 52 * h.pack + 2 ^ 54 * b2n h.discharge + 2 ^ 55 * b2n h.subst + 2 ^ 56 * b2n h.first

/-- Codes in sending order, packed n bits each, padded to 4 bytes (R243, R241). -/
def packCodes (n : Nat) (codes : List Nat) : Bytes :=
  toLE (4 * ((codes.length * n + 31) / 32)) (codes.foldr (fun c v => c % 2 ^ n + 2 ^ n * v) 0)

/-- Packet bytes: header, payload, CRC (R241, R244). -/
def packetBytes (h : PacketHead) (colpar n : Nat) (codes : List Nat) : Bytes :=
  let b := toLE 8 (headerWord h colpar codes.length) ++ packCodes n codes
  b ++ toLE 4 (crc32 b)

/-- A port's codes of a line in sending order, from the line's codes, three per pixel (R243). -/
def portCodes (p : PortCfg) (codes : List Nat) : List Nat :=
  let l := (codes.drop (3 * p.x0)).take (3 * p.ncol)
  if p.reverse then l.reverse else l

/-- COLPAR of a port: (3x + c) & 1 of its first subpixel sent (Table 11.3). -/
def colPar (p : PortCfg) : Nat := (if p.reverse then 3 * (p.x0 + p.ncol - 1) + 2 else 3 * p.x0) % 2

/-! ## Lanes -/

def portAt (s : State) (n : Nat) : Port := mget {} s.twl.ports n

def setPort (n : Nat) (p : Port) (s : State) : State :=
  { s with twl := { s.twl with ports := mput {} n p s.twl.ports } }

/-- Global lane of a group's logical lane (R235). -/
def globalLane (s : State) (g logical : Nat) : Nat :=
  9 * g + (if (groupAt s g).spareUsed && (groupAt s g).spareLane = logical then 8 else logical)

/-- Logical lane that a global lane carries now; none for one that carries nothing. -/
def logicalOf (s : State) (lane : Nat) : Option Nat :=
  let gr := groupAt s (lane / 9)
  if lane % 9 = 8 then (if gr.spareUsed then some gr.spareLane else none)
  else if gr.spareUsed && gr.spareLane = lane % 9 then none else some (lane % 9)

/-- The enabled port that carries a logical lane of a group. -/
def portOfLane (c : Conf) (g logical : Nat) : Option (Nat × PortCfg) :=
  (enabledPorts c).find? (fun p => p.2.group = g && decide (p.2.lane0 ≤ logical) && decide (logical < p.2.lane0 + p.2.width))

/-- Which data symbols of a lane's packet an injection hits (R267). -/
def hits (s : State) (lane i : Nat) : Bool :=
  match s.twl.inject with
  | some (l, kind, burst, k) => l = lane && injectHits kind burst k (s.twl.injected + i)
  | none => false

/-- Is an injection spent once n data symbols have gone by since it was selected? -/
def spent (kind burst n : Nat) : Bool := kind = 1 || (kind = 2 && decide (burst ≤ n))

/-- A packet of a port: its bytes and its symbols lane by lane (R241). A single injection, or a burst that has run out, is
then spent. -/
def sendPacket (n : Nat) (p : PortCfg) (b : Bytes) (s : State) : State :=
  let lanes := (List.range p.width).map (fun k => (k, globalLane s p.group (p.lane0 + k)))
  let outs := lanes.map (fun l => Output.twillLane l.2 (laneSymbols (portAt s n).precode (hits s l.2) p.width l.1 b))
  let twl := match s.twl.inject with
    | some (l, kind, burst, _) =>
      if lanes.any (fun x => x.2 = l) then
        let n := s.twl.injected + 4 * (b.length / p.width)
        if spent kind burst n then { s.twl with inject := none } else { s.twl with injected := n }
      else s.twl
    | none => s.twl
  let handed := lanes.foldl (fun m l =>
    mput [] l.2 (laneSymbols (portAt s n).precode (hits s l.2) p.width l.1 b) m) s.twl.handed
  emit (outs.reverse ++ [.twillPacket n b]) { s with twl := { twl with handed } }

/-! ## The back-channel (R252, R253) -/

/-- The wire of a group is free: the port that held it awaits nothing, or none held it. -/
def wireFree (s : State) (g : Nat) : Bool :=
  match (groupAt s g).wire with
  | some n => (portAt s n).wait.isNone
  | none => true

/-- The lane sends a test pattern in place of every symbol, with the injection that stands (R266, R267); where its sequence
stands is open. -/
def sendPattern (lane pattern kind burst k : Nat) (s : State) : State :=
  setRun lane (.prbs pattern (openSeed (patternTaps pattern).1 s) kind burst k) (skipFree 1 s)

/-- The pattern of a test starts once PRBS_CHECK has gone out (R266). -/
def patternDue (body : Bytes) (s : State) : State :=
  match s.twl.testRun with
  | some (lane, pattern, kind, burst, k) =>
    if fieldAt body 1 1 = 0x09 then sendPattern lane pattern kind burst k { s with twl := { s.twl with testRun := none } } else s
  | none => s

/-- The next frame that waits for a group's wire goes out once the wire is free (R261). -/
def wireNext (g : Nat) (s : State) : State :=
  let gr := groupAt s g
  if !(wireFree s g) then s
  else
    let l := gr.queue.dropWhile (fun n => (portAt s n).wait.isNone)
    match l with
    | n :: rest => match (portAt s n).wait with
      | some (b, _) => patternDue b (emit [.backchannel g (bcWire b)] (setGroup g { gr with wire := some n, queue := rest } s))
      | none => s
    | [] => if gr.wire.isSome || !gr.queue.isEmpty then setGroup g { gr with wire := none, queue := [] } s else s

/-- Send a frame to a port's partner and await its reply (R253); it goes out when the group's wire is free (R261). -/
def bcSend (n type : Nat) (payload : Bytes) (s : State) : State :=
  match portCfg s.conf n with
  | none => s
  | some c =>
    let s1 := setPort n { portAt s n with wait := some (bcBody c.addr type payload, 2) } s
    let gr := groupAt s1 c.group
    wireNext c.group (setGroup c.group { gr with wire := if gr.wire = some n then none else gr.wire
                                                 queue := gr.queue.filter (· ≠ n) ++ [n] } s1)

/-- A frame of a port is on its group's wire. -/
def onWire (s : State) (n : Nat) (c : PortCfg) : Bool := (groupAt s c.group).wire = some n

/-- The wire of a port's group goes on to the next frame. -/
def wireOf (n : Nat) (s : State) : State :=
  match portCfg s.conf n with
  | some c => wireNext c.group s
  | none => s

/-- TYPE and LEN of the reply that a frame draws (Table 11.4). -/
def replyOf (type : Nat) : Nat × Nat :=
  match type with
  | 0x01 => (0x81, 4)
  | 0x02 => (0x82, 3)
  | 0x05 => (0x85, 1)
  | 0x07 => (0x87, 3)
  | 0x08 => (0x88, 11)
  | 0x0A => (0x8A, 10)
  | _ => (0x80, 0)

/-! ## Training (R255 to R261) -/

/-- Preset cursors (Table 11.6). -/
def preset (k : Nat) : Int × Int :=
  [(0, 0), (0, -4), (0, -8), (0, -12), (-2, 0), (-2, -4), (-4, -6), (-2, -8)].getD k (0, 0)

/-- Global lanes of a port. -/
def portLanes (s : State) (c : PortCfg) : List Nat := (List.range c.width).map (fun k => globalLane s c.group (c.lane0 + k))

/-- T0 on the lanes: the group's reference and IDLE (R255). -/
def idleLanes (c : PortCfg) (s : State) : State :=
  forAll (portLanes s c) (fun l => setRun l .idle) (startReference c.group s)

/-- T1 on the lanes: training blocks on every lane of the group that still idles, in service on the port's lanes alone (R255,
R261). -/
def trainLanes (n : Nat) (c : PortCfg) (s : State) : State :=
  let ls := if (portAt s n).initial then (groupLanes c.group).filter (fun l => mget .off s.twl.runs l = .idle) else portLanes s c
  forAll ls (fun l s => setRun l (.blocks (openSeed 15 s)) (skipFree 1 s)) s

/-- Lanes of a group that carry no enabled port, or one that has FAILED: the spare, or what it has replaced, among them. -/
def freeLanes (s : State) (g : Nat) : List Nat :=
  let taken := ((enabledPorts s.conf).filter (fun p => p.2.group = g && (portAt s p.1).state ≠ .failed)).flatMap (fun p => portLanes s p.2)
  (groupLanes g).filter (fun l => !(taken.contains l))

/-- The lanes of a group that carry no port send what its ACTIVE ports' lanes do: DSK and IDLE (R240). -/
def lanesFollow (g : Nat) (s : State) : State :=
  if (enabledPorts s.conf).any (fun p => p.2.group = g && [PortState.active, .test].contains (portAt s p.1).state) then
    forAll (freeLanes s g) (fun l => setRun l (liveRun s)) s
  else s

/-- ACTIVE on the lanes: the traffic of R240, on the port's lanes and those of the group that carry no port. -/
def liveLanes (c : PortCfg) (s : State) : State :=
  lanesFollow c.group (forAll (portLanes s c) (fun l => setRun l (liveRun s)) s)

/-- The main cursor (R256). -/
def mainCursor (l : TwlLane) : Int := 32 - (l.pre.natAbs : Int) - (l.post.natAbs : Int)

/-- A port lane's driver takes its setting (R256). -/
def setCursors (c : PortCfg) (k : Nat) (l : TwlLane) (s : State) : State :=
  emit [.twillCursors (globalLane s c.group (c.lane0 + k)) (mainCursor l) l.pre l.post] s

/-- T0 begins: PING (Table 11.5). A group without its clock waits for it (R397). -/
def startT0 (n : Nat) (s : State) : State :=
  match portCfg s.conf n with
  | none => s
  | some c =>
    let p := { portAt s n with answered := false, lanes := [], wait := none, phase := 0, reason := 0 }
    if (groupAt s c.group).noClock then setPort n { p with state := .backoff } s
    else bcSend n 0x01 [] (idleLanes c (trace1 6 (setPort n { p with state := .phase 0 } s)))

/-- SPARE_MAP to the port that holds a group's spare: its port lane, 0 to 3 (Table 11.4). -/
def sendSpareMap (n lane : Nat) (s : State) : State := bcSend n 0x0C (toLE 1 lane) s

/-- T0 with the spare already in, or brought in: SPARE_MAP first, and PING after its ACK (R259, R400). -/
def startOnSpare (n : Nat) (c : PortCfg) (s : State) : State :=
  let p := { portAt s n with state := .phase 0, answered := false, lanes := [], phase := 0, reason := 0 }
  if (groupAt s c.group).noClock then setPort n { p with state := .backoff } s
  else sendSpareMap n ((groupAt s c.group).spareLane - c.lane0) (idleLanes c (trace1 6 (setPort n p s)))

/-- Does a port carry its group's spare? -/
def holdsSpare (s : State) (c : PortCfg) : Bool :=
  let gr := groupAt s c.group
  gr.spareUsed && decide (c.lane0 ≤ gr.spareLane) && decide (gr.spareLane < c.lane0 + c.width)

/-- Train a port from T0 with a fresh count of retries: at panel-on (`initial`), or in service (R261). -/
def trainPort (initial : Bool) (n : Nat) (s : State) : State :=
  match portCfg s.conf n with
  | none => s
  | some c =>
    let s1 := setPort n { portAt s n with tries := 0, initial } s
    if initial && holdsSpare s1 c then startOnSpare n c s1 else startT0 n s1

/-- Enabled ports in a state. -/
def portsIn (s : State) (st : PortState) : List Nat :=
  ((enabledPorts s.conf).map Prod.fst).filter (fun n => (portAt s n).state = st)

/-- Training ends when every enabled port is ACTIVE or FAILED (R260). `ms` is the time since it began. -/
def endTraining (ms : Option Nat) (s : State) : State :=
  if s.twl.training && (enabledPorts s.conf).all (fun p => (portAt s p.1).state = .active || (portAt s p.1).state = .failed) then
    let (v, s1) := match ms with | some m => (m, s) | none => (freeNow s % 2 ^ 32, skipFree 1 s)
    post 0x0B01 0 [(portsIn s .active).length, (portsIn s .failed).length, v]
      { s1 with twl := { s1.twl with training := false }
                pnl := if s1.pnl.state = .training then { s1.pnl with trained := true } else s1.pnl }
  else s

/-- Bring the spare in for a logical lane of a port (R259), and train it from T0 with fresh retries. -/
def useSpare (n : Nat) (c : PortCfg) (logical : Nat) (s : State) : State :=
  let gr := groupAt s c.group
  let s1 := setGroup c.group { gr with spareUsed := true, spareLane := logical, pending := none } s
  let s2 := post 0x0B03 1 [c.group, logical, n] (setPort n { portAt s1 n with tries := 0 } s1)
  putSpares (lanesFollow c.group (startOnSpare n c s2))

/-- The spare of a group is wired to a port's partner, which showed SPARE_IN (R259). -/
def spareReaches (s : State) (n : Nat) (c : PortCfg) : Bool :=
  fbit s.conf (TWL_GROUP_SPARE_EN c.group) && c.addr = fget s.conf (TWL_GROUP_SPARE_ADDR c.group) && (portAt s n).spareIn

/-- R259's conditions but the policy: the spare reaches this partner, and it is unused. -/
def spareFits (s : State) (n : Nat) (c : PortCfg) : Bool := spareReaches s n c && !(groupAt s c.group).spareUsed

/-- A lane is marked pending (R388, R398). -/
def lanePending (g logical : Nat) (s : State) : State :=
  post 0x1203 2 [1, g] (setGroup g { groupAt s g with pending := some logical } s)

/-- A port is FAILED (R258, R260). -/
def portFailed (n phase reason : Nat) (s : State) : State :=
  let s1 := setPort n { portAt s n with state := .failed, wait := none, phase, reason } s
  post 0x0B02 2 [n, phase, reason] (trace1 6 (match portCfg s.conf n with | some c => lanesFollow c.group s1 | none => s1))

/-- An attempt is the last: the spare, or FAILED (R259, R388). -/
def lastAttempt (n phase reason : Nat) (s : State) : State :=
  match portCfg s.conf n with
  | none => s
  | some c =>
    let p := portAt s n
    let bad := (List.range c.width).filter (fun k => (mget {} p.lanes k).bad)
    match p.answered, bad with
    | true, [k] =>
      let l := c.lane0 + k
      if spareFits s n c then
        if fbit s.conf FLT_POLICY_TWILL_AUTO then useSpare n c l (logFault 5 2 n [c.group, l, reason] s)
        else portFailed n phase reason (logFault 5 3 n [c.group, l, reason] (lanePending c.group l s))
      else portFailed n phase reason (logFault 5 4 n [c.group, l, reason] s)
    | _, _ => portFailed n phase reason (logFault 5 4 n [c.group, freeNow s % 2 ^ 32, reason] (skipFree 1 s))

/-- A phase timed out or failed: back off 1, 2, 4 ms and retry from T0; the fourth failure is the last (R258). -/
def failPhase (n phase reason : Nat) (s : State) : State :=
  let p := portAt s n
  if p.tries < 3 then
    trace1 6 (setPort n { p with state := .backoff, tries := p.tries + 1, wait := none, phase, reason } s)
  else lastAttempt n phase reason s

/-- Code of each lane's cursors in two's complement (Table 11.4, EQ_SET). -/
def cursorBytes (l : TwlLane) : Bytes := toLE 1 (sfield 8 l.pre) ++ toLE 1 (sfield 8 l.post)

/-- T2 goes to the first lane that is not done, or T3 begins (Table 11.5). -/
def nextLane (n : Nat) (c : PortCfg) (s : State) : State :=
  match (List.range c.width).find? (fun k => !(mget {} (portAt s n).lanes k).eqDone) with
  | some k => bcSend n 0x02 (toLE 1 k) s
  | none => trace1 6 (setPort n { portAt s n with state := .phase 3, wait := none } s)

/-- T2 begins: each lane at the preset of TWL_CTRL.PRESET (R256). -/
def startT2 (n : Nat) (c : PortCfg) (s : State) : State :=
  let (pre, post) := preset (fget s.conf TWL_CTRL_PRESET)
  let lanes := (List.range c.width).foldl (fun m k => mput {} k { pre, post } m) []
  let s1 := trace1 6 (setPort n { portAt s n with state := .phase 2, lanes } s)
  nextLane n c (forAll (List.range c.width) (fun k => setCursors c k { pre, post }) s1)

/-- T4 begins: CFG (Tables 11.4, 11.5). -/
def startT4 (n : Nat) (c : PortCfg) (s : State) : State :=
  bcSend n 0x05 (toLE 1 c.width ++ toLE 1 (codeBits s.conf) ++ toLE 2 (3 * c.ncol) ++ toLE 1 (b2n c.reverse))
    (trace1 6 (setPort n { portAt s n with state := .phase 4 } s))

/-- Does a PONG's LANE_LOCK show a port lane locked? -/
def locked (b0 k : Nat) : Bool := bit b0 (4 + k)

/-- Mark the lanes that a PONG shows not locked (R259). -/
def markBad (c : PortCfg) (b0 : Nat) (p : Port) : Port :=
  { p with lanes := (List.range c.width).foldl (fun m k => mput {} k { mget {} m k with bad := !(locked b0 k) } m) p.lanes }

/-- Capabilities of a PONG cover the port (Table 11.5, T0). -/
def covered (s : State) (c : PortCfg) (d : Bytes) : Bool :=
  decide (fget s.conf TWL_CTRL_RATE_M ≤ fieldAt d 1 1) && bit (fieldAt d 2 1) (c.width / 2)
    && bit (fieldAt d 3 1) (fget s.conf TWL_CTRL_PACK)

/-- A PONG in T0, T1 or T3. -/
def gotPong (n : Nat) (c : PortCfg) (t : Nat) (d : Bytes) (s : State) : State :=
  let b0 := fieldAt d 0 1
  let p := { portAt s n with wait := none, spareIn := bit b0 2 }
  let all := (List.range c.width).all (locked b0)
  if t = 0 then
    let s1 := setPort n { p with answered := true } s
    if !(covered s c d) then
      portFailed n 0 1 (logFault 5 4 n [c.group, freeNow s1 % 2 ^ 32, 1] (skipFree 1 s1))
    else if bit b0 0 then trainLanes n c (trace1 6 (setPort n { p with answered := true, state := .phase 1 } s)) else s1
  else if t = 1 then
    if all then startT2 n c (setPort n p s) else setPort n (markBad c b0 p) s
  else if bit b0 1 then startT4 n c (setPort n p s)
  else setPort n (markBad c b0 p) s

/-- A lane's setting after a request; none where a step would leave its range (R256). -/
def applyRequest (l : TwlLane) (op pre : Nat) : Option TwlLane :=
  if op = 1 then some { l with pre := (preset pre).1, post := (preset pre).2 }
  else
    let l1 := if op = 2 then { l with pre := l.pre + 1 } else if op = 3 then { l with pre := l.pre - 1 }
      else if op = 4 then { l with post := l.post + 1 } else { l with post := l.post - 1 }
    if -8 ≤ l1.pre && l1.pre ≤ 0 && -12 ≤ l1.post && l1.post ≤ 0 then some l1 else none

/-- An EQ_REQ in T2 (R256). -/
def gotEqReq (n : Nat) (c : PortCfg) (d : Bytes) (s : State) : State :=
  let p := portAt s n
  let k := fieldAt d 0 1
  let op := fieldAt d 1 1
  let l := mget {} p.lanes k
  let put (l : TwlLane) : State := setPort n { p with lanes := mput {} k l p.lanes, wait := none } s
  let reply (l : TwlLane) (st : Nat) : State := bcSend n 0x03 (toLE 1 k ++ cursorBytes l ++ toLE 1 st) (put l)
  if op = 0 then nextLane n c (put { l with eqDone := true })
  else if op = 6 then bcSend n 0x02 (toLE 1 k) s
  else if op = 7 then failPhase n 2 3 (put { l with bad := true })
  else if 16 ≤ l.budget then reply { l with eqDone := true } 2
  else match applyRequest l op (fieldAt d 2 1) with
    | some l1 => setCursors c k l1 (reply { l1 with budget := l.budget + 1 } 0)
    | none => reply l 1

/-- A STATUS (R254). -/
def gotStatus (n : Nat) (c : PortCfg) (d : Bytes) (s : State) : State :=
  let b0 := fieldAt d 0 1
  let failed := fieldAt d 1 1
  let s0 := setPort n { portAt s n with wait := none } s
  let s1 := { s0 with twl := { s0.twl with rxCrc := satAdd 0xFFFF s0.twl.rxCrc failed } }
  let s2 := if failed ≠ 0 && !s1.twl.rxPosted then
      post 0x0B05 2 [failed, n, b0 / 16] (trace1 6 { s1 with twl := { s1.twl with rxPosted := true } })
    else s1
  if (List.range c.width).all (locked b0) && bit b0 1 then s2 else trainPort false n s2

/-- The measurement of a lane goes on as a STATS_POLL's reply, or its absence, makes it (R338): the first reply is discarded. -/
def stageReply (x : Option Stats) : LaneStage → LaneStage
  | .polled => match x with | some _ => .carrying 0 | none => .got .noReply
  | .polledAgain => match x with | some v => .got (.stats v) | none => .got .noReply
  | st => st

/-- Change the stage of a lane in the run that covers it. -/
def setStage (lane : Nat) (f : LaneStage → LaneStage) (s : State) : State :=
  { s with cal := { s.cal with jobs := s.cal.jobs.map (fun j =>
      if j.lanes.contains lane then { j with stages := mput .waiting lane (f (mget .waiting j.stages lane)) j.stages } else j) } }

/-- A STATS payload (Table 11.4). -/
def statsOf (d : Bytes) : Stats :=
  let a (k : Nat) : Int := fieldAt d (1 + 2 * k) 2
  { a0 := a 0, a1 := a 1, a2 := a 2, a3 := a 3, offset := signedOf 8 (fieldAt d 9 1), skew := signedOf 8 (fieldAt d 10 1) }

/-- A STATS_POLL of a port lane has drawn its reply, or none (R253, R338). -/
def pollEnded (n : Nat) (c : PortCfg) (k : Nat) (x : Option Stats) (s : State) : State :=
  setStage (globalLane s c.group (c.lane0 + k)) (stageReply x) (setPort n { portAt s n with wait := none } s)

/-- A PRBS_RESULT (R268). -/
def gotPrbs (n : Nat) (d : Bytes) (s : State) : State :=
  let s1 := setPort n { portAt s n with wait := none } s
  { s1 with twl := { s1.twl with
      testErr := if fieldAt d 1 1 = 1 then BitVec.ofNat 32 (fieldAt d 2 4) else 0xFFFFFFFF#32
      testSym := BitVec.ofNat 32 (fieldAt d 6 4), testDone := true } }

/-- An ACK, by the frame that it answers. -/
def gotAck (n : Nat) (c : PortCfg) (body : Bytes) (s : State) : State :=
  let p := portAt s n
  let s1 := setPort n { p with wait := none } s
  match fieldAt body 1 1 with
  | 0x03 => if p.state = .phase 2 then
      (if (mget {} p.lanes (fieldAt body 3 1)).eqDone then nextLane n c s1 else bcSend n 0x02 (toLE 1 (fieldAt body 3 1)) s1)
      else s1
  | 0x06 => if p.state = .phase 4 then
      endTraining none (liveLanes c (trace1 6 (setPort n { p with wait := none, state := .active, tries := 0, initial := false
                                                                  precode := bit (fieldAt body 3 1) 0 } s))) else s1
  | 0x0C => if p.state = .phase 0 then bcSend n 0x01 [] s1 else s1
  | _ => s1

/-- A CFG_ACK in T4 (R257, Table 11.5). -/
def gotCfgAck (n : Nat) (d : Bytes) (s : State) : State :=
  let b0 := fieldAt d 0 1
  if bit b0 0 then bcSend n 0x06 (toLE 1 (b2n (fbit s.conf TWL_CTRL_PRECODE_EN && !(bit b0 1)))) s
  else failPhase n 4 5 s

/-- A valid reply to the frame that waits. -/
def gotReply (n : Nat) (c : PortCfg) (body d : Bytes) (s : State) : State :=
  match (portAt s n).state, fieldAt body 1 1 with
  | .phase t, 0x01 => if t = 0 || t = 1 || t = 3 then gotPong n c t d s else setPort n { portAt s n with wait := none } s
  | .phase 2, 0x02 => gotEqReq n c d s
  | .phase 4, 0x05 => gotCfgAck n d s
  | .active, 0x07 => gotStatus n c d s
  | .active, 0x08 => pollEnded n c (fieldAt d 0 1) (some (statsOf d)) s
  | .test, 0x0A => gotPrbs n d s
  | _, _ => gotAck n c body s

/-- No reply after two repeats (R253): in T2 and T4 the phase fails for its back-channel; a poll in service finds the
partner lost (R254), and one of a measurement leaves it without a result (R338). -/
def noReply (n : Nat) (c : PortCfg) (body : Bytes) (s : State) : State :=
  let s1 := setPort n { portAt s n with wait := none } s
  match (portAt s n).state with
  | .phase 2 => failPhase n 2 6 s1
  | .phase 4 => failPhase n 4 6 s1
  | .phase 0 => if fieldAt body 1 1 = 0x0C then bcSend n 0x01 [] s1 else s1
  | .active =>
    if fieldAt body 1 1 = 0x07 then trainPort false n (post 0x0B06 2 [n] s1)
    else if fieldAt body 1 1 = 0x08 then pollEnded n c (fieldAt body 3 1) none s1
    else s1
  | _ => s1

/-- No reply to the frame on the wire: repeat it up to two more times (R253). -/
def replyTimeout (n : Nat) (s : State) : State :=
  match (portAt s n).wait, portCfg s.conf n with
  | some (b, k), some c =>
    if !(onWire s n c) then s
    else if k = 0 then wireNext c.group (endTraining none (noReply n c b s))
    else emit [.backchannel c.group (bcWire b)] (setPort n { portAt s n with wait := some (b, k - 1) } s)
  | _, _ => s

/-- A reply of a partner (R253): a frame that fails its CRC, or is no reply to the frame sent, counts as no reply. -/
def partnerReply (port type : Nat) (payload : Bytes) (crcOk : Bool) (s : State) : State :=
  match (portAt s port).wait, portCfg s.conf port with
  | some (b, _), some c =>
    if !(onWire s port c) then s
    else if crcOk && (type, payload.length) = replyOf (fieldAt b 1 1)
        && !(type = 0x88 && payload.take 1 ≠ (b.drop 3).take 1)
        && !(type = 0x82 && (payload.take 1 ≠ (b.drop 3).take 1 || decide (7 < fieldAt payload 1 1)
          || (fieldAt payload 1 1 = 1 && decide (7 < fieldAt payload 2 1)))) then
      wireNext c.group (endTraining none (gotReply port c b payload s))
    else replyTimeout port s
  | _, _ => s

/-- BACKCHANNEL_REPLY_TIMEOUT (R253). -/
def execBackchannelReplyTimeout (port : Nat) (s : State) : Answer := .next (replyTimeout port s)

/-- TRAINING_PING_TIMER (Table 11.5): PING every 100 µs in T0, T1 and T3. -/
def execTrainingPingTimer (port : Nat) (s : State) : Answer :=
  .next (if [PortState.phase 0, .phase 1, .phase 3].contains (portAt s port).state then bcSend port 0x01 [] s else s)

/-- REASON of a phase that timed out (Table 11.9). -/
def timeoutReason (t : Nat) : Nat := [0, 2, 3, 4, 6].getD t 6

/-- TRAINING_PHASE_TIMEOUT (R258, R259, R260). -/
def execTrainingPhaseTimeout (port ms : Nat) (s : State) : Answer :=
  .next (match (portAt s port).state with
  | .phase t => wireOf port (endTraining (some ms) (failPhase port t (timeoutReason t) s))
  | _ => s)

/-- TRAINING_RETRY_BACKOFF (R258). -/
def execTrainingRetryBackoff (port : Nat) (s : State) : Answer :=
  .next (if (portAt s port).state = .backoff then startT0 port s else s)

/-- T0 on the lanes of a group that carry no port, so that T1 takes them with the others (R255). -/
def idleFree (g : Nat) (s : State) : State :=
  if (groupAt s g).reference then forAll (freeLanes s g) (fun l => setRun l .idle) s else s

/-- Train every enabled port at once (R255); a FAILED port stays FAILED until a seam-full change or a BOOT forgets it (R260). -/
def trainAll (s : State) : State :=
  let s1 := { s with twl := { s.twl with ports := s.twl.ports.filter (fun p => p.2.state = .failed), training := true
                                         groups := mmap {} (fun _ g => { g with wire := none, queue := [] }) s.twl.groups } }
  let s2 := forAll ((enabledPorts s.conf).map (fun p => p.2.group)).eraseDups idleFree s1
  endTraining (some 0) (forAll ((enabledPorts s.conf).filter (fun p => (portAt s p.1).state ≠ .failed)) (fun p t => trainPort true p.1 t) s2)

/-- TWILL_TRAINING (R255): step 1 of panel-on, once every enabled monitor is in window (R231). -/
def execTwillTraining (s : State) : Answer :=
  .next (if s.pnl.state = .training && !s.twl.training && !s.pnl.trained then trainAll s else s)

/-- STATUS_POLL_TIMER (R254). -/
def execStatusPollTimer (port : Nat) (s : State) : Answer :=
  .next (if (portAt s port).state = .active && (portAt s port).wait.isNone then bcSend port 0x07 [] s else s)

/-! ## Pin-echo lane faults (R398) -/

/-- A lane of a port has failed by pin-echo: the spare, or pending, or counted only. `lines` mismatched, `first` first. -/
def laneFault (lane lines first : Nat) (s : State) : State :=
  let g := lane / 9
  match logicalOf s lane with
  | none => s
  | some l =>
    match portOfLane s.conf g l with
    | none => s
    | some (n, c) =>
      if (groupAt s g).spareUsed then logFault 6 4 lane [lines, first] s
      else if spareFits s n c && fbit s.conf FLT_POLICY_TWILL_AUTO then
        useSpare n c l (logFault 6 2 lane [lines, first] (setPort n { portAt s n with initial := false } s))
      else logFault 6 3 lane [lines, first] (lanePending g l s)

/-! ## Clock loss of a group (R397) -/

/-- The group's ports leave ACTIVE and wait for the clock. -/
def groupClockLost (g : Nat) (s : State) : State :=
  forAll ((enabledPorts s.conf).filter (fun p => p.2.group = g)) (fun p t =>
    let q := portAt t p.1
    if q.state = .failed || q.state = .unused then t
    else setPort p.1 { q with state := .backoff, wait := none, tries := 0 } t)
    (setGroup g { groupAt s g with noClock := true, quiet := false, stopDue := false, wire := none, queue := [] } s)

/-- The clock returns: the ports retrain under R261. -/
def groupClockBack (g : Nat) (s : State) : State :=
  if (groupAt s g).noClock then
    forAll ((enabledPorts s.conf).filter (fun p => p.2.group = g)) (fun p t =>
      if (portAt t p.1).state = .backoff then trainPort (portAt t p.1).initial p.1 t else t)
      (setGroup g { groupAt s g with noClock := false } s)
  else s

/-- TWILL_CLOCK_LOSS_TIMEOUT (R397, R399): ports of the group still without clock are FAILED, with a record each. The spec names
no phase and no reason for them, and no lane and no outcome for the record: free values. -/
def execTwillClockLossTimeout (group : Nat) (s : State) : Answer :=
  let v (t : State) (k : Nat) : Nat := Config.freeValue (t.free + k)
  .next (if (groupAt s group).noClock then
    endTraining none (forAll ((enabledPorts s.conf).filter (fun p => p.2.group = group)) (fun p t =>
      if (portAt t p.1).state = .backoff then
        portFailed p.1 (v t 0 % 5) (v t 1 % 7) (logFault 5 (v t 2 % 7) p.1 [group, v t 3 % 2 ^ 32, v t 1 % 7] (skipFree 4 t))
      else t) s)
  else s)

/-! ## Tests and injection (R266 to R268) -/

/-- Fields of a TWL_TEST write (Table 11.16), RATE_K held to 10 to 40 and BURST 0 read as 1. -/
def testFields (v : Word) : Nat × Nat × Nat × Nat × Nat × Bool :=
  (wbits v 0 7, wbits v 8 2, wbits v 10 2, max 1 (wbits v 12 8), max 10 (min 40 (wbits v 20 6)), wbit v 31)

/-- The port whose lane is under test stops and retrains (R266). -/
def stopTest (s : State) : State :=
  match s.twl.testPort with
  | some n => trainPort false n { s with twl := { s.twl with testPort := none, testRun := none } }
  | none => s

/-- The lane runs a test pattern. -/
def inPattern (s : State) (lane : Nat) : Bool :=
  match mget .off s.twl.runs lane with
  | .prbs .. => true
  | _ => false

/-- Does a lane's pattern carry an injection? -/
def injecting (s : State) (lane : Nat) : Bool :=
  match mget .off s.twl.runs lane with
  | .prbs _ _ kind _ _ => kind ≠ 0
  | _ => false

/-- Start, or change, a pattern on a lane (R266): the lane must belong to an ACTIVE port, or to the port under test, whose other
lanes then send traffic again. -/
def startTest (lane pattern kind burst k : Nat) (s : State) : State :=
  match logicalOf s lane with
  | none => s
  | some l =>
    match portOfLane s.conf (lane / 9) l with
    | none => s
    | some (n, c) =>
      if (portAt s n).state = .active || s.twl.testPort = some n then
        let s1 := if s.twl.testPort = some n then s else stopTest s
        let s2 := forAll ((portLanes s1 c).filter (fun x => inPattern s1 x && x ≠ lane)) (fun x => setRun x (liveRun s1)) s1
        bcSend n 0x09 (toLE 1 (2 ^ (l - c.lane0)) ++ toLE 1 pattern) (setPort n { portAt s2 n with state := .test }
          { s2 with twl := { s2.twl with testPort := some n, testRun := some (lane, pattern, kind, burst, k) } })
      else s

/-- Ask for the result of the running test (R268). -/
def readTest (lane : Nat) (s : State) : State :=
  match s.twl.testPort, logicalOf s lane with
  | some n, some l =>
    match portCfg s.conf n with
    | some c => if decide (c.lane0 ≤ l) && decide (l < c.lane0 + c.width) && c.group = lane / 9 then
        bcSend n 0x0A (toLE 1 (l - c.lane0)) s else s
    | none => s
  | _, _ => s

/-- A write of TWL_TEST (R266 to R268). Outside SERVICE a write that selects injection is dropped whole, and GO does
nothing. PATTERN 0 stops the test and sends an injection into packets; another PATTERN sends it into the running pattern. -/
def writeTest (v : Word) (s : State) : State :=
  let (lane, pattern, inj, burst, k, go) := testFields v
  let before := lget s.conf TWL_TEST_PATTERN
  let sameLane := lget s.conf TWL_TEST_LANE = lane
  let live := s.sys.mode = .service
  if !live && inj ≠ 0 then s
  else
    let s1 := { s with conf := putLive 0x0b0080 v s.conf
                       twl := { s.twl with inject := if inj = 0 || pattern ≠ 0 then none else some (lane, inj, burst, k), injected := 0
                                           testDone := s.twl.testDone && !(go && live) } }
    if pattern = 0 then stopTest s1
    else
      let old := lget s.conf TWL_TEST_LANE
      let s0 := if injecting s1 old && (inj = 0 || old ≠ lane) then sendPattern old before 0 0 0 s1 else s1
      let s2 := if inPattern s0 lane && inj ≠ 0 then sendPattern lane before inj burst k s0 else s0
      if !go || !live then s2
      else if pattern = before && sameLane && s.twl.testPort.isSome then readTest lane s2
      else startTest lane pattern inj burst k s2

/-- TWILL_TEST_START (R266). -/
def execTwillTestStart (value : Word) (s : State) : Answer := hostOp (writeTest value) s

/-- TWILL_TEST_STOP (R266). -/
def execTwillTestStop (value : Word) (s : State) : Answer := hostOp (writeTest value) s

/-- TWILL_TEST_READ (R268). -/
def execTwillTestRead (value : Word) (s : State) : Answer := hostOp (writeTest value) s

/-- TWILL_ERROR_INJECT (R267). -/
def execTwillErrorInject (value : Word) (s : State) : Answer := hostOp (writeTest value) s

end Sys2Proof.Machine
end

