-- ==== Sys2Proof/Machine/LampLinks.lean ====
section
/-!
DEFINITION. What comes back on the lamp links: answers, their absence, discovery and rediscovery (R174, R182 to R185), and
the STATUS_REQ of each cycle (R174).
-/
namespace Sys2Proof.Machine

/-- Zones of a rectangle, channel by channel (R175). -/
def boxZones (c : Conf) (b : DriverBox) : List Nat :=
  (List.range (b.cols * b.rows)).map (fun k => (b.row0 + k / max 1 b.cols) * gCols c + b.col0 + k % max 1 b.cols)

/-- Report zones dead (true) or alive (R164, R182 to R184): they change at the next FT. -/
def reportZones (zs : List Nat) (v : Bool) (s : State) : State :=
  { s with gz := { s.gz with reports := zs.foldl (fun m z => aput z v m) s.gz.reports } }

/-- A frame of a given type to one position of a lane, tagged with the current FE. -/
def lampTo (s : State) (pos type : Nat) (payload : Bytes) : Bytes := lampBytes s.sys.fe false pos type payload

/-- Await an answer on a lane. -/
def await (lane : Nat) (w : LampWait) (s : State) : State := setWaits lane (waitsOn s lane ++ [w]) s

/-- A frame leaves on a lane. -/
def lampOut (lane : Nat) (frame : Bytes) (s : State) : State := lampWire lane (frameChars frame) s

/-- ASSIGN(p), a broadcast on one lane (R182). -/
def sendAssign (lane p : Nat) (again : Bool) (s : State) : State :=
  let f := lampBytes s.sys.fe true 0 0x03 (toLE 1 p)
  let s1 := await lane { pos := p, type := 0x03, frame := f, again, fe := s.sys.fe } (lampOut lane f s)
  if again then s1 else { s1 with lmp := { s1.lmp with probing := aput lane p s1.lmp.probing } }

/-- STATUS_REQ(p) (R174, R183). -/
def sendStatusReq (lane p : Nat) (again : Bool) (s : State) : State :=
  let f := lampTo s p 0x04 []
  await lane { pos := p, type := 0x04, frame := f, again, fe := s.sys.fe } (lampOut lane f s)

/-- Positions of a lane whose drivers the map places and discovery found, not lost. -/
def livePositions (s : State) (lane : Nat) : List Nat :=
  (List.range 16).filter (fun p => (driverBox s.conf lane p).present && driverLive s lane p)

/-- One STATUS_REQ per lane per cycle, rotating through the positions, except during discovery (R174). -/
def sendStatusReqs (s : State) : State :=
  forAll (lanesLive s) (fun l s =>
    if (aget s.lmp.probing l).isSome then s
    else
      let ps := livePositions s l
      let from_ := mget 0 s.lmp.statusPos l
      match ps.find? (from_ ≤ ·) <|> ps.head? with
      | some p => sendStatusReq l p false { s with lmp := { s.lmp with statusPos := mput 0 l (p + 1) s.lmp.statusPos } }
      | none => s) s

/-- Positions of a lane that discovery found. -/
def foundOn (s : State) (lane : Nat) : List Nat := (List.range 16).filter (fun p => (driverAt s lane p).found)

/-- What discovery sends a driver that it found: its SCHEDULE frames when the map places it, OFF otherwise (R176, R182).
DESIGN CHOICE 150: Table 8.3 has OFF as a broadcast; the one that R182 sends to a driver bears its address. -/
def welcome (lane p : Nat) (s : State) : State :=
  if (driverBox s.conf lane p).present then sendSchedule s.conf lane p s.sys.fe s else lampOut lane (lampTo s p 0x06 []) s

/-- Discovery of a lane ends (R182). -/
def endDiscovery (lane : Nat) (s : State) : State :=
  let found := foundOn s lane
  let s := forAll found (welcome lane) s
  let missing := (List.range 16).filter (fun p => (driverBox s.conf lane p).present && !(found.contains p))
  let s1 := reportZones (missing.flatMap (fun p => boxZones s.conf (driverBox s.conf lane p))) true
    { s with lmp := { s.lmp with probing := s.lmp.probing.filter (fun x => x.1 ≠ lane) } }
  post 0x0601 0 [lane, found.length, missing.length] (trace1 4 s1)

/-- LAMP_DISCOVERY of a lane begins (R182), at step 2 of panel-on (R231). -/
def execLampDiscovery (lane : Nat) (s : State) : Answer :=
  .next (if laneOn s.conf lane && s.pnl.state = .training && s.pnl.trained && (aget s.lmp.probing lane).isNone then
    sendAssign lane 0 false { s with lmp := { s.lmp with
      drivers := mclear (16 * lane) (16 * lane + 16) s.lmp.drivers, waits := mput [] lane [] s.lmp.waits } }
  else s)

/-- A driver takes position p in discovery (R182). -/
def driverFound (lane p : Nat) (s : State) : State :=
  let s1 := setDriver lane p { found := true } s
  if p + 1 < 16 then sendAssign lane (p + 1) false s1 else endDiscovery lane s1

/-- A driver missed or failed an answer: lost at the third in a row (R183). -/
def countMiss (lane p : Nat) (s : State) : State :=
  let d := driverAt s lane p
  if d.lost || !d.found then s
  else if 2 ≤ d.misses then
    let s1 := setDriver lane p { d with lost := true, misses := 3, silent := true } s
    let s2 := reportZones (boxZones s.conf (driverBox s.conf lane p)) true s1
    logFault 7 (freeNow s2 % 7) lane [p] (skipFree 1 (post 0x0602 2 [lane, p] (trace1 4 s2)))
  else setDriver lane p { d with misses := d.misses + 1 } s

/-- A LEVELS frame of frame `fe` went unechoed after its resend (R185). -/
def countUnechoed (fe lane p : Nat) (s : State) : State :=
  let l := s.lmp.unechoed
  let unechoed := if l.any (fun u => u.1 = fe) then l.map (fun u => if u.1 = fe then (u.1, u.2.1, u.2.2.1, u.2.2.2 + 1) else u)
    else l ++ [(fe, lane, p, 1)]
  { s with lmp := { s.lmp with unechoed } }

/-- The answer to a frame is missing or wrong: a LEVELS frame is sent once more at once (R185). ASSIGN is a broadcast, addressed
to no driver (R182, R183). -/
def missed (lane : Nat) (w : LampWait) (s : State) : State :=
  if w.type = 0x03 then s
  else if w.type = 0x01 then
    let s1 := countMiss lane w.pos { s with lmp := { s.lmp with echoMiss := satAdd 0xFFFF s.lmp.echoMiss 1 } }
    if w.resent then countUnechoed w.fe lane w.pos s1
    else await lane { w with resent := true } (lampOut lane w.frame s1)
  else countMiss lane w.pos s

/-- Take one frame off the list of those that await answers. -/
def dropWait (lane : Nat) (w : LampWait) (s : State) : State := setWaits lane ((waitsOn s lane).erase w) s

/-- LAMP_ANSWER_TIMEOUT (R174, R182, R183, R185): the oldest frame that awaits its answer has none; the ASSIGN of discovery
ends it. -/
def execLampAnswerTimeout (lane : Nat) (s : State) : Answer :=
  .next (match waitsOn s lane with
    | [] => s
    | w :: _ =>
      if w.type = 0x03 && !w.again && aget s.lmp.probing lane = some w.pos then endDiscovery lane (dropWait lane w s)
      else missed lane w (dropWait lane w s))

/-- An answered driver: its misses end. DESIGN CHOICE 151: an ECHO finds no lost driver again; R183 says so of an answer to its
ASSIGN or STATUS_REQ. -/
def answered (lane p : Nat) (s : State) : State := setDriver lane p { driverAt s lane p with misses := 0 } s

/-- A STATUS (R183 to R185): failed channels are reported dead; a lost driver is found again, and the healthy channels of one
that was lost are reported alive; a flag posts LAMP_DRIVER_FAULT. -/
def gotLampStatus (lane : Nat) (w : LampWait) (d : Bytes) (s : State) : State :=
  let zs := boxZones s.conf (driverBox s.conf lane w.pos)
  let bad := bitList (fieldAt d 2 30) 240
  let failed := bad.filter (· < zs.length)
  let pick (p : Nat → Bool) : List Nat := ((keyed 0 zs).filter (fun z => p z.1)).map Prod.snd
  let silent := (driverAt s lane w.pos).silent
  let s1 := setDriver lane w.pos { driverAt s lane w.pos with misses := 0, lost := false, silent := false, failed } s
  let s2 := reportZones (pick (fun c => failed.contains c)) true s1
  let s3 := if silent then reportZones (pick (fun c => !(failed.contains c))) false s2 else s2
  let flags := fieldAt d 0 1 % 8
  if flags ≠ 0 then post 0x0604 1 [lane, w.pos, flags] s3 else s3

/-- A return frame that passed its CRC: its TYPE, position and payload. -/
def gotReturn (lane type p : Nat) (d : Bytes) (s : State) : State :=
  let first (t : Nat) : Option LampWait := (waitsOn s lane).find? (fun w => w.type = t && w.pos = p)
  match type with
  | 0x81 =>
    match (waitsOn s lane).find? (fun w => w.type = 0x01 && w.pos = p && d.length = 4 && leNat d = frameCrc w.frame) with
    | some w => answered lane p (dropWait lane w s)
    | none => match first 0x01 with
      | some w => missed lane w (dropWait lane w s)
      | none => s
  | 0x82 => match first 0x04 with
    | some w => if d.length = 32 then gotLampStatus lane w d (dropWait lane w s) else missed lane w (dropWait lane w s)
    | none => s
  | 0x83 =>
    let s1 := match first 0x03 with | some w => dropWait lane w s | none => s
    if aget s.lmp.probing lane = some p && fieldAt d 0 1 = p then driverFound lane p s1
    else match (waitsOn s lane).find? (fun w => w.type = 0x03 && w.pos = p && w.again) with
      | some w => welcome lane p (setDriver lane p { driverAt s lane p with lost := false, misses := 0 } (dropWait lane w s))
      | none => s
  | _ => s

/-- Do a received frame's bytes pass their CRC (R173)? -/
def frameGood (b : Bytes) : Bool := decide (12 ≤ b.length) && decide (crc32c (b.take (b.length - 4)) = frameCrc b)

/-- LAMP_RETURN_FRAME (R168, R173, R174, R185): the lane's characters from SOF to EOF; a frame that fails its CRC is discarded
and counted. -/
def execLampReturnFrame (lane : Nat) (frame : List Nat) (s : State) : Answer :=
  .next (match (frameOf frame).filter frameGood with
    | none => { s with lmp := { s.lmp with crcRet := satAdd 0xFFFF s.lmp.crcRet 1 } }
    | some b =>
      let body := b.take (b.length - 4)
      gotReturn lane (fieldAt body 1 1) (fieldAt body 0 1 % 16) (body.drop 8) s)

/-- LAMP_REDISCOVER_TIMER (R183): ASSIGN and STATUS_REQ to each lost position, ascending. DESIGN CHOICE 152: they all go at the
timer, beside the one STATUS_REQ that R174 gives the lane in a cycle. -/
def execLampRediscoverTimer (s : State) : Answer :=
  .next (forAll (lanesLive s) (fun l s =>
    forAll ((List.range 16).filter (fun p => (driverAt s l p).lost)) (fun p s =>
      sendStatusReq l p true (sendAssign l p true s)) s) s)

/-- LEVELS frames of a frame still await their echoes. -/
def awaitsEchoes (s : State) (fe : Nat) : Bool := s.lmp.waits.any (fun p => p.2.any (fun w => w.type = 0x01 && w.fe = fe))

/-- Post LAMP_LEVEL_ERROR of each frame all of whose echoes have come or failed (R185). -/
def postUnechoed (s : State) : State :=
  let whole := s.lmp.unechoed.filter (fun u => !(awaitsEchoes s u.1))
  forAll whole (fun u => postFe 0x0603 2 u.1 [u.2.1, u.2.2.1, u.2.2.2])
    { s with lmp := { s.lmp with unechoed := s.lmp.unechoed.filter (fun u => awaitsEchoes s u.1) } }

end Sys2Proof.Machine
end

