-- ==== Sys2Proof/Machine/Power.lean ====
section
/-!
DEFINITION. Panel power (R229 to R233): monitors, the power-on sequence, panel-on, the power-off sequence, rail faults; the
gate supply (R421) and the event pins (R218).
-/
namespace Sys2Proof.Machine

/-! ## Monitors (R229) -/

/-- Last four samples of a monitor. -/
def samplesOf (s : State) (k : Nat) : List Nat := (mget {} s.pnl.dvm k).samples

def inside (s : State) (k v : Nat) : Bool := decide (fget s.conf (PNL_DVM_LO k) ≤ v) && decide (v ≤ fget s.conf (PNL_DVM_HI k))

/-- In window: its last four samples all lie from LO to HI. -/
def inWindow (s : State) (k : Nat) : Bool := (samplesOf s k).length = 4 && (samplesOf s k).all (inside s k)

/-- Out of window: its last four samples all lie outside that range. -/
def outOfWindow (s : State) (k : Nat) : Bool := (samplesOf s k).length = 4 && (samplesOf s k).all (fun v => !(inside s k v))

/-- Enabled monitors. -/
def monitors (s : State) : List Nat := (List.range 12).filter (fun k => fbit s.conf (PNL_DVM_EN k))

/-- Enabled monitors of a step. -/
def monitorsOf (s : State) (k : Nat) : List Nat := (monitors s).filter (fun m => fget s.conf (PNL_DVM_STEP m) = k)

/-- Monitors that are checked: those of completed steps whose enables are not released (R231). -/
def checkedMonitors (s : State) : List Nat :=
  (monitors s).filter (fun m => s.pnl.checkedSteps.getLsbD (fget s.conf (PNL_DVM_STEP m)))

/-! ## The power-on sequence (R230) and panel-on (R231) -/

/-- First used step from k on; 8 when none is left. -/
def usedStep (s : State) (k : Nat) : Nat := ((List.range 8).find? (fun i => k ≤ i && fbit s.conf (PNL_SEQ_EN i))).getD 8

/-- Every step is done and every enabled monitor is in window: panel-on begins (R231); while BOOT waits for VIN good, step 7
waits with it (R49), and no later power-on does. -/
def railsReady (s : State) : State :=
  if s.pnl.state = .poweringOn && s.pnl.step = 8 && (monitors s).all (inWindow s) && !(s.sys.mode = .boot && s.sys.bootHeld) then
    { s with pnl := { s.pnl with state := .training, trained := false } }
  else s

/-- The enable outputs take new levels (R230, R232). -/
def setPens (v : BitVec 8) (s : State) : State :=
  if v = s.pnl.pens then s else emit [.panelEnables v] { s with pnl := { s.pnl with pens := v } }

/-- Begin the power-on sequence. -/
def beginPowerOn (s : State) : State :=
  railsReady (trace1 5 (setPens 0 { s with pnl := { s.pnl with
    state := .poweringOn, step := usedStep s 0, asserted := false, checkedSteps := 0, trained := false, discharging := false
    faulted := [] } }))

/-- Complete the steps whose monitors are in window (R230 item 3). -/
def completeStep (s : State) : State :=
  let k := s.pnl.step
  if s.pnl.state = .poweringOn && s.pnl.asserted && k < 8 && (monitorsOf s k).all (inWindow s) then
    railsReady { s with pnl := { s.pnl with step := usedStep s (k + 1), asserted := false
                                            checkedSteps := s.pnl.checkedSteps ||| BitVec.ofNat 8 (2 ^ k) } }
  else railsReady s

/-- POWER_ON_STEP_DELAY (R230 items 1 and 2). -/
def execPowerOnStepDelay (s : State) : Answer :=
  .next (if s.pnl.state = .poweringOn && !s.pnl.asserted && s.pnl.step < 8 then
    let pen := fget s.conf (PNL_SEQ_PEN s.pnl.step)
    completeStep (setPens (s.pnl.pens ||| BitVec.ofNat 8 (2 ^ pen)) { s with pnl := { s.pnl with asserted := true } })
  else s)

/-- PANEL_ON_DELAY (R231 items 3 and 4): panel-on completes `ms` after the sequence began. -/
def execPanelOnDelay (ms : Nat) (s : State) : Answer :=
  .next (if s.pnl.state = .training && s.pnl.trained && s.lmp.probing.isEmpty then
    post 0x0A01 0 [ms] (trace1 5
      { s with pnl := { s.pnl with state := .on }, lmp := { s.lmp with darkFrames := fget s.conf PNL_ON_DARK_FRAMES } })
  else s)

/-! ## The power-off sequence (R232) -/

/-- The sequence begins, unless the panel is off: lamp cycles carry DARK from now on, and Twill leaves quiet, since the
discharge period drives every port. A step whose enable is asserted but which has not completed keeps its place in the order
of release. -/
def beginPowerOff (reason : Nat) (restart : Bool) (s : State) : State :=
  if s.pnl.state = .off || s.pnl.state = .waiting || s.pnl.state = .faultOff then
    { s with pnl := { s.pnl with state := .off, restart } }
  else
    let pnl := { s.pnl with state := .poweringOff, discharging := true, offReason := reason, restart, trained := false
                            faulted := [] }
    let s1 := trace1 5 (endQuiet { s with pnl, twl := { s.twl with training := false }
                                          lmp := { s.lmp with probing := [], dark := true } })
    if reason = 0 || reason = 2 then lampsOff s1 else s1

/-- P0 of PANEL_OFF: the reason, or a free value where none of the four is the reason. -/
def offCode (s : State) : Nat := if s.pnl.offReason < 4 then s.pnl.offReason else freeNow s % 2 ^ 32

/-- The sequence ends (R232 item 4): what follows depends on its reason (R54, R233); a descriptor latched while a failed
power-on cue's power-off ran starts the power-on sequence now (R226, R290). -/
def endPowerOff (s : State) : State :=
  let r := s.pnl.offReason
  let s1 := post 0x0A02 0 [offCode s] (trace1 5 (skipFree (if r < 4 then 0 else 1)
    (setPens 0 { s with pnl := { s.pnl with state := .off, checkedSteps := 0, asserted := false } })))
  if r = 2 then { s1 with pnl := { s1.pnl with state := if s.pnl.restart then .waiting else .faultOff } }
  else if (r = 1 && s.pnl.restart) || (r = 4 && s.pnl.wanted) then beginPowerOn s1
  else s1

/-- Steps whose enables are still asserted, in the order of release. -/
def releaseOrder (s : State) : List Nat :=
  ((List.range 8).filter (fun k => s.pnl.checkedSteps.getLsbD k || (s.pnl.asserted && s.pnl.step = k))).reverse

/-- A step's enable is released, and its monitors are checked no more. -/
def releaseStep (k : Nat) (s : State) : State :=
  setPens (s.pnl.pens &&& ~~~(BitVec.ofNat 8 (2 ^ fget s.conf (PNL_SEQ_PEN k))))
    { s with pnl := { s.pnl with checkedSteps := s.pnl.checkedSteps &&& ~~~(BitVec.ofNat 8 (2 ^ k))
                                 asserted := s.pnl.asserted && s.pnl.step ≠ k } }

/-- A_k is set to 0 at the end of every discharge period (R223). -/
def clearAccumulators (s : State) : State :=
  { s with tmg := { s.tmg with bands := mmap {} (fun _ b => { b with acc := 0 }) s.tmg.bands } }

/-- The discharge period ends (R232 item 2). -/
def endDischarge (s : State) : State :=
  if s.pnl.state = .poweringOff && s.pnl.discharging then
    let s1 := clearAccumulators { s with pnl := { s.pnl with discharging := false } }
    if (releaseOrder s1).isEmpty then endPowerOff s1 else s1
  else s

/-- The next enable is released, in reverse order of the power-on steps (R232 item 3). -/
def releaseEnable (s : State) : State :=
  if s.pnl.state = .poweringOff && !s.pnl.discharging then
    match releaseOrder s with
    | k :: rest => if rest.isEmpty then endPowerOff (releaseStep k s) else releaseStep k s
    | [] => endPowerOff s
  else s

/-! ## Rail faults (R233) -/

/-- The power-off of a rail fault (R232, R233): a new one, or the one in progress, whose reason it takes the place of, but for
DORMANT and a watchdog reset, which stand (log entry 28). OFF goes to the lamps where the reason in progress has not sent it. -/
def railOff (restart : Bool) (s : State) : State :=
  if s.pnl.state ≠ .poweringOff then beginPowerOff 2 restart s
  else if s.pnl.offReason = 0 then s
  else if s.pnl.offReason = 3 then (if s.pnl.faulted.isEmpty then lampsOff s else s)
  else if s.pnl.offReason = 2 then { s with pnl := { s.pnl with restart } }
  else lampsOff { s with pnl := { s.pnl with offReason := 2, restart } }

/-- A rail fault: a checked monitor, or 0xFF for a step timeout, with its last sample and its step (R233). -/
def railFault (mon sample step : Nat) (s : State) : State :=
  let restart := decide (s.pnl.retries + 1 ≤ fget s.conf PNL_RETRY_COUNT)
  let s1 := post 0x0A03 3 [mon, sample, step]
    { s with pnl := { s.pnl with faultDvm := if mon = 0xFF then 15 else mon, faultStep := step
                                 retries := if restart then s.pnl.retries + 1 else s.pnl.retries } }
  let s2 := logFault 8 (freeNow s1 % 7) mon [sample, step] (skipFree 1 s1)
  let s3 := railOff restart s2
  { s3 with pnl := { s3.pnl with faulted := s3.pnl.faulted ++ [mon] } }

/-- Monitors are checked, and a rail fault is taken: the panel is powering on, training, on, or powering off (R231 to R233). -/
def railsLive (s : State) : Bool :=
  s.pnl.state = .poweringOn || s.pnl.state = .training || s.pnl.state = .on || s.pnl.state = .poweringOff

/-- A checked monitor out of window is a rail fault, taken once until the panel powers on again (R233). -/
def checkRail (k : Nat) (s : State) : State :=
  if railsLive s && (checkedMonitors s).contains k && !(s.pnl.faulted.contains k) then
    railFault k ((samplesOf s k).headD 0) (fget s.conf (PNL_DVM_STEP k)) s
  else s

/-- The 12-bit value of an input voltage: V × 4095 ÷ 1.8, rounded (R229). -/
def dvmCode (v : Microvolts) : Nat := min 4095 ((v * 4095 + 900000) / 1800000)

/-- DVM_SAMPLE (R229, R230, R231, R233): the voltages at the twelve inputs. -/
def execDvmSample (codes : List Microvolts) (s : State) : Answer :=
  .next (let take (k : Nat) (d : Dvm) : Dvm := { samples := (dvmCode (codes.getD k 0) :: d.samples).take 4 }
    let dvm := (List.range 12).foldl (fun m k => mput {} k (take k (mget {} m k)) m) s.pnl.dvm
    let s1 := completeStep { s with pnl := { s.pnl with dvm } }
    forAll ((checkedMonitors s1).filter (outOfWindow s1)) checkRail s1)

/-- POWER_ON_STEP_TIMEOUT (R230 item 4): the last sample that PANEL_RAIL_FAULT then gives is open. -/
def execPowerOnStepTimeout (s : State) : Answer :=
  .next (if s.pnl.state = .poweringOn && s.pnl.asserted && s.pnl.step < 8
      && fget s.conf (PNL_SEQ_TIMEOUT s.pnl.step) ≠ 0 then
    railFault 0xFF (freeNow s % 4096) s.pnl.step (skipFree 1 s)
  else s)

/-- RAIL_RETRY_DELAY (R233 item 3). -/
def execRailRetryDelay (s : State) : Answer := .next (if s.pnl.state = .waiting then beginPowerOn s else s)

/-- RAIL_RETRY_RESET (R233): 60 s of scanning passed without a rail fault. -/
def execRailRetryReset (s : State) : Answer :=
  .next (if s.pnl.state = .on then { s with pnl := { s.pnl with retries := 0 } } else s)

/-! ## Gate supply and event pins -/

/-- VIO_GT_SAMPLE (R421): the gate outputs drive from 1.6 V to 2.0 V and above 3.0 V. -/
def execVioGtSample (mV : Nat) (s : State) : Answer :=
  .next { s with tmg := { s.tmg with vioGood := decide (1600 ≤ mV) && !(decide (2000 ≤ mV) && decide (mV ≤ 3000)) } }

/-- EV_PIN_PULSE_END (R218). -/
def execEvPinPulseEnd (pin : Nat) (s : State) : Answer :=
  .next (if s.tmg.evPins.getLsbD pin then
    emit [.evPin pin (!(evActive s pin))] { s with tmg := { s.tmg with evPins := s.tmg.evPins &&& ~~~(BitVec.ofNat 4 (2 ^ pin)) } }
  else s)

end Sys2Proof.Machine
end

