-- ==== Sys2Proof/Machine/Calibration.lean ====
section
/-!
DEFINITION. Temperatures (R333 to R336), receiver adaptation (R337), calibration runs and goals (R338 to R343).
-/
namespace Sys2Proof.Machine

/-! ## Goals (R340, R341) -/

/-- Link of a global calibration lane: 0 Twill, 1 PCIe, 2 Gingham. -/
def linkOf (lane : Nat) : Nat := if lane < 108 then 0 else if lane < 124 then 1 else 2

/-- Rate code under which a lane's entries count (Table 15.2). -/
def rateOf (s : State) (lane : Nat) : Nat := if linkOf lane = 1 then s.hif.speed else 6

/-- A lane's entries over the five sets, those stored at another rate left out. -/
def entriesOf (s : State) (lane : Nat) : List CalEntry :=
  (List.range 5).filterMap (fun k => (aget s.cal.sets (256 * k + lane)).filter (fun e =>
    linkOf lane = 0 || e.rate = rateOf s lane))

/-- Default of quantity q: SKEW 32, every other 0. -/
def defaultGoal (lane q : Nat) : Int := if linkOf lane = 0 && q = 0 then 32 else 0

/-- The entry of highest temperature at or below θ, and that of lowest at or above. -/
def below (l : List CalEntry) (th : Int) : Option CalEntry :=
  l.foldl (fun a e => if e.temp ≤ th then (match a with | some b => if b.temp < e.temp then some e else a | none => some e) else a) none

def above (l : List CalEntry) (th : Int) : Option CalEntry :=
  l.foldl (fun a e => if th ≤ e.temp then (match a with | some b => if e.temp < b.temp then some e else a | none => some e) else a) none

/-- Junction temperature at which the goals are: that of the last FT or accepted run, and the present one before any (R340). -/
def goalAt (s : State) : Int := s.cal.goalTemp.getD s.thm.junction

/-- Goal of quantity q of a lane (R340). -/
def goal (s : State) (lane q : Nat) : Int :=
  let l := entriesOf s lane
  let v (e : CalEntry) : Int := e.vals.getD q 0
  match below l (goalAt s), above l (goalAt s) with
  | none, none => defaultGoal lane q
  | some a, none => v a
  | none, some b => v b
  | some a, some b =>
    if b.temp ≤ a.temp then v a
    else v a + roundDiv ((v b - v a) * (goalAt s - a.temp)) (b.temp - a.temp).toNat

def tapsOf (s : State) (lane : Nat) : Taps := mget {} s.cal.taps lane

def tapList (t : Taps) : List Int := [t.skew, t.duty, t.outer, t.mid]

/-- One step toward a goal. -/
def stepTo (v g : Int) : Int := if v < g then v + 1 else if g < v then v - 1 else v

/-- The goals are computed for the present junction temperature (R340). -/
def setGoals (s : State) : State := { s with cal := { s.cal with goalTemp := some s.thm.junction } }

/-- At an FT the goals are computed (R340), and every Twill quantity moves 1 toward its own (R341). -/
def moveTaps (s0 : State) : State :=
  let s := setGoals s0
  let step (l : Nat) (t : Taps) : Taps :=
    ⟨stepTo t.skew (goal s l 0), stepTo t.duty (goal s l 1), stepTo t.outer (goal s l 2), stepTo t.mid (goal s l 3)⟩
  { s with cal := { s.cal with taps := (List.range 108).foldl (fun m l => mput {} l (step l (mget {} m l)) m) s.cal.taps } }

/-- A receiver starts from its goal values (R337, R341); it stays frozen until a window passes, and shows the error of the last
committed window (R344). -/
def startReceiver (lane : Nat) (s : State) : State :=
  let r : Rx := { mget {} s.cal.rx lane with ctle := goal s lane 0, dfe := (List.range 8).map (fun i => goal s lane (i + 1)) }
  { s with cal := { s.cal with rx := mput {} lane r s.cal.rx } }

/-! ## Runs (R338, R339, R342) -/

/-- Port and port lane of a Twill lane, when its port is ACTIVE. -/
def activeLane (s : State) (lane : Nat) : Option (Nat × PortCfg × Nat) :=
  match logicalOf s lane with
  | none => none
  | some l => match portOfLane s.conf (lane / 9) l with
    | some (n, c) => if (portAt s n).state = .active then some (n, c, l - c.lane0) else none
    | none => none

/-- Lanes that a run on a link covers. -/
def lanesOfRun (s : State) (link mask : Nat) : List Nat :=
  if link = 0 then (List.range 108).filter (fun l => bit mask (l / 9) && (activeLane s l).isSome)
  else if link = 1 then (if linkUp s then (List.range s.hif.width).map (108 + ·) else [])
  else (upPorts s).filter (fun g => bit mask g) |>.flatMap (fun g => [124 + 2 * g, 125 + 2 * g])

/-- Links of a TARGET. -/
def linksOf (target : Nat) : List Nat := if target = 3 then [0, 1, 2] else [target]

/-- The lanes of a run as it starts: CAL_RUN skips Twill lanes in HOLD, and MASK is ignored for TARGET 3. -/
def startedJob (s : State) (j : CalJob) : CalJob :=
  let mask := if j.target = 3 then 0xFFF else j.mask
  { j with lanes := (linksOf j.target).flatMap (fun l =>
      if l = 0 && s.sys.mode = .hold then [] else lanesOfRun s l mask) }

/-- A run may start now: no run in progress covers one of its lanes, and an automatic Twill run waits while the mode is HOLD
(R342). -/
def mayStart (s : State) (j : CalJob) : Bool :=
  (j.ring.isSome || j.target ≠ 0 || s.sys.mode ≠ .hold)
    && (startedJob s j).lanes.all (fun l => !(s.cal.jobs.any (fun x => x.lanes.contains l)))

/-- Sum of a per-link count. -/
def linkSum (m : SMap Nat) : Nat := m.foldl (fun a p => a + p.2) 0

/-- A run ends: CAL_DONE per link, and its CAL_RUN completes. -/
def endRun (j : CalJob) (s : State) : State :=
  let a := linkSum j.accepted
  let r := linkSum j.rejected
  let s1 := { s with cal := { s.cal with jobs := s.cal.jobs.erase j, accepted := min 255 a, rejected := min 255 r } }
  let s2 := forAll (linksOf j.target) (fun l s => post 0x0F01 0 [l, mget 0 j.accepted l, mget 0 j.rejected l] s) s1
  match j.ring with
  | some n => finishAll .pf0 [n] 0x60 SUCCESS [a, r] s2
  | none => s2

/-- Start the runs that may start, oldest first; a run with no lanes ends at once. `k` bounds how many. -/
def startRuns : Nat → State → State
  | 0, s => s
  | k + 1, s =>
    match s.cal.waiting.find? (mayStart s) with
    | some j =>
      let g := startedJob s j
      let s1 := { s with cal := { s.cal with waiting := s.cal.waiting.erase j, jobs := s.cal.jobs ++ [g] } }
      startRuns k (if g.lanes.isEmpty then endRun g s1 else s1)
    | none => s

def nextRuns (s : State) : State := startRuns s.cal.waiting.length s

/-- Ask for an automatic run on a link, unless one waits (R342). -/
def autoRun (link : Nat) (s : State) : State :=
  if fbit s.conf CAL_CTRL_AUTO_EN && !(s.cal.waiting.any (fun j => j.target = link && j.ring.isNone)) then
    nextRuns { s with cal := { s.cal with waiting := s.cal.waiting ++ [{ target := link }] } }
  else s

/-- The junction temperature calls for a run on a link, unless one runs already (R342). -/
def thermalRun (link : Nat) (s : State) : State :=
  if s.cal.jobs.any (fun j => j.target = link && j.ring.isNone) then s else autoRun link s

/-- Is a lane still on a port or link that is up (R342)? -/
def laneStays (s : State) (lane : Nat) : Bool :=
  if lane < 108 then (activeLane s lane).isSome
  else if lane < 124 then linkUp s && decide (lane < 108 + s.hif.width)
  else (upPorts s).contains ((lane - 124) / 2)

/-- End the runs that have no lane left, and start those that waited for them. -/
def settleRuns (s : State) : State :=
  let ended := s.cal.jobs.filter (fun j => j.lanes.isEmpty)
  if ended.isEmpty then s else nextRuns (forAll ended endRun s)

/-- Lanes that p does not keep leave the runs in progress with no result (R342). -/
def keepLanes (p : Nat → Bool) (s : State) : State :=
  settleRuns { s with cal := { s.cal with jobs := s.cal.jobs.map (fun j => { j with lanes := j.lanes.filter p }) } }

/-- Lanes whose port left ACTIVE, or whose link went down, end with no result. -/
def pruneRun (s : State) : State := keepLanes (laneStays s) s

/-- A seam-full change ends the runs on the Twill lanes (R54, R342). -/
def endTwillRuns (s : State) : State := keepLanes (fun l => decide (108 ≤ l)) s

/-- Targets of a Twill measurement (R338); none when it is invalid. -/
def twillTargets (t : Taps) (portLane : Nat) (m : Stats) : Option (List Int) :=
  let d1 := m.a1 - m.a0
  let d2 := m.a2 - m.a1
  let d3 := m.a3 - m.a2
  if d2 ≤ 0 || d1 + d3 ≤ 0 then none
  else some [if portLane = 0 then t.skew else t.skew - m.skew, t.duty - m.offset,
    roundDiv ((128 + t.outer) * (2 * d2)) (d1 + d3).toNat - 128,
    t.mid - roundDiv (128 * ((m.a1 + m.a2) - (m.a0 + m.a3))) d2.toNat]

/-- Range of quantity q (Table 15.1). -/
def inRange (lane q : Nat) (v : Int) : Bool :=
  let (lo, hi) : Int × Int := if linkOf lane = 0 then [((0 : Int), (63 : Int)), (-16, 15), (-32, 31), (-32, 31)].getD q (0, 0)
    else if q = 0 then (0, 31) else (-128, 127)
  decide (lo ≤ v) && decide (v ≤ hi)

/-- Values of a measurement, or why there are none: 2 invalid, 3 no reply, 4 frozen too long (Table 15.4). -/
def measured (s : State) (lane : Nat) (m : CalMeasure) : Except Nat (List Int) :=
  match m with
  | .stats v => match activeLane s lane with
    | some (_, _, k) => (match twillTargets (tapsOf s lane) k v with | some l => .ok l | none => .error 2)
    | none => .error 3
  | .taps ctle dfe => .ok (ctle :: (List.range 8).map (fun i => dfe.getD i 0))
  | .noReply => .error 3
  | .frozen => .error 4

/-- Quantity code of CAL_REJECTED. -/
def quantity (lane i : Nat) : Nat := if linkOf lane = 0 then i else 4 + i

/-- What two measurements give (R339): the results, or the reason and the quantity. -/
def compareRuns (lane : Nat) (a b : List Int) : Except (Nat × Nat) (List Int) :=
  let ps := keyed 0 (a.zip b)
  let r := ps.map (fun p => (p.1, (p.2.1 + p.2.2 + 1) / 2))
  match ps.find? (fun p => decide (2 < (p.2.1 - p.2.2).natAbs)) with
  | some p => .error (0, quantity lane p.1)
  | none => match r.find? (fun p => !(inRange lane p.1 p.2)) with
    | some p => .error (1, quantity lane p.1)
    | none => .ok (r.map Prod.snd)

/-- The set whose nominal temperature is nearest, a tie to the lower one (R340). -/
def nearestSet (c : Conf) (th : Int) : Nat :=
  (List.range 5).foldl (fun best k =>
    if (th - 16 * calSetTemp c k).natAbs < (th - 16 * calSetTemp c best).natAbs then k else best) 0

/-- Payload of the CAL record of a set (Table 15.2). -/
def calPayload (s : State) (k : Nat) : Bytes :=
  let e (l : Nat) : Option CalEntry := aget s.cal.sets (256 * k + l)
  let temp (o : Option CalEntry) : Bytes := toLE 2 (match o with | some x => sfield 16 x.temp | none => 0x8000)
  let vals (o : Option CalEntry) (n : Nat) : Bytes := (List.range n).flatMap (fun q =>
    toLE 1 (match o with | some x => sfield 8 (x.vals.getD q 0) | none => 0))
  toLE 2 (sfield 16 (16 * calSetTemp s.conf k)) ++ [0, 0]
    ++ (List.range 108).flatMap (fun l => temp (e l) ++ vals (e l) 4 ++ [0, 0])
    ++ (List.range 24).flatMap (fun r => temp (e (108 + r)) ++ toLE 1 (((e (108 + r)).map CalEntry.rate).getD 0)
        ++ vals (e (108 + r)) 9 ++ List.replicate 4 0)

/-- Entries of a CAL record's payload (R343). -/
def calEntries (d : Bytes) (k : Nat) : List (Nat × CalEntry) :=
  let signed (o : Nat) : Int := signedOf 8 (fieldAt d o 1)
  ((List.range 108).filterMap (fun l =>
    let o := 4 + 8 * l
    if fieldAt d o 2 = 0x8000 then none
    else some (256 * k + l, { temp := signedOf 16 (fieldAt d o 2), vals := (List.range 4).map (fun q => signed (o + 2 + q)) })))
  ++ ((List.range 24).filterMap (fun r =>
    let o := 0x364 + 16 * r
    if fieldAt d o 2 = 0x8000 then none
    else some (256 * k + 108 + r, { temp := signedOf 16 (fieldAt d o 2), rate := fieldAt d (o + 2) 1
                                    vals := (List.range 9).map (fun q => signed (o + 3 + q)) })))

/-- BOOT loads the sets from their records (R343). -/
def loadCalSets (s : State) : State :=
  { s with cal := { s.cal with sets := (List.range 5).foldl (fun m k =>
      match deviceRecord s.lin.sram (0x0110 + k) with | some d => aputAll (calEntries d k) m | none => m) [] } }

/-- A lane's run is accepted: its entry, its record, its link's temperature (R340, R342, R343). -/
def acceptLane (lane : Nat) (v : List Int) (s : State) : State :=
  let k := nearestSet s.conf s.thm.junction
  let e : CalEntry := { temp := s.thm.junction, rate := rateOf s lane, vals := v }
  let s1 := { s with cal := { s.cal with sets := aput (256 * k + lane) e s.cal.sets
                                         lastTemp := aput (linkOf lane) s.thm.junction s.cal.lastTemp
                                         rejLanes := mput false lane false s.cal.rejLanes } }
  setGoals (writeDevice (0x0110 + k) (calPayload s1 k) s1)

/-- The run in progress that covers a lane. -/
def jobOf (s : State) (lane : Nat) : Option CalJob := s.cal.jobs.find? (fun j => j.lanes.contains lane)

/-- Change the run in progress that covers a lane. -/
def onJob (lane : Nat) (f : CalJob → CalJob) (s : State) : State :=
  { s with cal := { s.cal with jobs := s.cal.jobs.map (fun j => if j.lanes.contains lane then f j else j) } }

/-- A lane leaves the run in progress, counted. -/
def doneLane (lane : Nat) (ok : Bool) (j : CalJob) : CalJob :=
  let l := linkOf lane
  { j with lanes := j.lanes.filter (· ≠ lane), first := mput [] lane [] j.first, stages := mput .waiting lane .waiting j.stages
           windows := mput 0 lane 0 j.windows
           accepted := if ok then mput 0 l (mget 0 j.accepted l + 1) j.accepted else j.accepted
           rejected := if ok then j.rejected else mput 0 l (mget 0 j.rejected l + 1) j.rejected }

/-- A lane's run is rejected: CAL_REJECTED; a reason that concerns no quantity leaves P2 open. -/
def rejectLane (lane reason : Nat) (q : Option Nat) (s : State) : State :=
  let s0 := onJob lane (doneLane lane false) s
  let s1 := { s0 with cal := { s0.cal with rejLanes := mput false lane true s0.cal.rejLanes } }
  match q with
  | some q => post 0x0F02 1 [lane, reason, q] s1
  | none => post 0x0F02 1 [lane, reason, freeNow s1 % 2 ^ 32] (skipFree 1 s1)

/-- The quality figure of a Twill lane's last run: the largest |target − applied| of measurement B (R344). -/
def twillResid (t : Taps) (v : List Int) : Nat := ((tapList t).zip v).foldl (fun m p => max m (p.1 - p.2).natAbs) 0

/-- One measurement of a lane of the run in progress; after the first the lane waits for its second. -/
def measureLane (lane : Nat) (m : CalMeasure) (j : CalJob) (s : State) : State :=
  match measured s lane m with
  | .error e => rejectLane lane e none s
  | .ok v => match mget [] j.first lane with
    | [] => onJob lane (fun j => { j with first := mput [] lane v j.first, stages := mput .waiting lane .waiting j.stages }) s
    | a =>
      let s1 := if lane < 108 then
          { s with cal := { s.cal with resid := mput 0 lane (twillResid (tapsOf s lane) v) s.cal.resid } } else s
      match compareRuns lane a v with
      | .ok r => acceptLane lane r (onJob lane (doneLane lane true) s1)
      | .error (reason, q) => rejectLane lane reason (some q) s1

/-- Every quantity of a Twill lane equals its goal (R338 item 1). -/
def atGoal (s : State) (lane : Nat) : Bool :=
  (List.range 4).all (fun q => (tapList (tapsOf s lane)).getD q 0 = goal s lane q)

/-- The next step of a Twill lane's measurement (R338): the first STATS_POLL once every quantity is at its goal, the second once
the lane has carried 4096 packets; a port has one frame out at a time (R253, R261). `carried` tells whether it carried one now. -/
def pollLane (carried : Bool) (lane : Nat) (s : State) : State :=
  match jobOf s lane, activeLane s lane with
  | some j, some (n, _, k) =>
    let poll (st : LaneStage) : State := bcSend n 0x08 (toLE 1 k) (setStage lane (fun _ => st) s)
    let free := (portAt s n).wait.isNone
    match mget .waiting j.stages lane with
    | .waiting => if atGoal s lane && free then poll .polled else s
    | .carrying p =>
      if 4096 ≤ p + b2n carried && free then poll .polledAgain else setStage lane (fun _ => .carrying (p + b2n carried)) s
    | _ => s
  | _, _ => s

/-- The measurements in progress on Twill lanes go on. -/
def runPolls (carried : Bool) (s : State) : State :=
  forAll ((s.cal.jobs.flatMap CalJob.lanes).filter (· < 108)) (pollLane carried) s

/-- A measurement completes: it is what the polls of a Twill lane brought, or a receiver's means over the window that has
committed, or the hundredth frozen window (R338, R339). -/
def measureDue (j : CalJob) (lane : Nat) (m : CalMeasure) : Bool :=
  match mget .waiting j.stages lane, m with
  | .got x, m => decide (m = x)
  | .committed, .taps _ _ => true
  | .waiting, .frozen => decide (108 ≤ lane) && decide (100 ≤ mget 0 j.windows lane)
  | _, _ => false

/-- CAL_MEASUREMENT_DONE (R338, R339). -/
def execCalMeasurementDone (lane : Nat) (m : CalMeasure) (s : State) : Answer :=
  .next (match jobOf s lane with
  | some j => if laneStays s lane && measureDue j lane m then settleRuns (measureLane lane m j s) else s
  | none => s)

/-- CAL_RUN (R342). -/
def execCalRun (sq : Nat) (s : State) : Answer :=
  runRing .pf0 sq 0x60 (fun r s =>
    let target := fieldAt r.raw 0x18 4
    if 3 < target then finish .pf0 sq r BAD_PARAM [0x18] s
    else
      let j : CalJob := { target, mask := fieldAt r.raw 0x1C 4, ring := some sq }
      nextRuns (holdRunning .pf0 sq r 0 { s with cal := { s.cal with waiting := s.cal.waiting ++ [j] } })) s

/-- BACKCHANNEL_REPLY (R253, R338, R342): a port that its training has just brought up calls for a run on Twill; lanes whose
port had left ACTIVE are no part of the runs in progress any more. -/
def execBackchannelReply (port type : Nat) (payload : Bytes) (crcOk : Bool) (s : State) : Answer :=
  .next (let s0 := pruneRun s
    let s1 := runPolls false (pruneRun (partnerReply port type payload crcOk s0))
    if (portAt s port).state ≠ .active && (portAt s1 port).state = .active then autoRun 0 s1 else s1)

/-! ## Receivers (R337) -/

/-- A receiver lane carries data: settings are held through L0p and L1 (R337). -/
def carriesData (s : State) (lane : Nat) : Bool :=
  if lane < 124 then linkUp s && s.hif.power = .l0 && decide (lane < 108 + s.hif.l0pWidth)
  else (upPorts s).contains ((lane - 124) / 2)

/-- What a window does to a lane's measurement (R339): the next one that commits gives it, a frozen one does not count. DESIGN
CHOICE 153: the hundred windows of "100 windows at most" are the frozen ones of the lane's run. -/
def windowSeen (lane : Nat) (good : Bool) (j : CalJob) : CalJob :=
  if mget .waiting j.stages lane ≠ .waiting then j
  else if good then { j with stages := mput .waiting lane .committed j.stages }
  else { j with windows := mput 0 lane (min 100 (mget 0 j.windows lane + 1)) j.windows }

/-- ADAPT_WINDOW_END (R337, R339, R344). -/
def execAdaptWindowEnd (lane : Nat) (w : AdaptWindow) (s : State) : Answer :=
  .next (if 108 ≤ lane && lane < 132 && carriesData s lane then
    let good := decide (fget s.conf CAL_ADAPT_DENS ≤ w.density) && decide (fget s.conf CAL_ADAPT_BAL ≤ w.balance)
    let r := mget {} s.cal.rx lane
    let r1 : Rx := if good then { ctle := w.ctle, dfe := (List.range 8).map (fun i => w.dfe.getD i 0), frozen := false, resid := w.resid }
                   else { r with frozen := true }
    onJob lane (windowSeen lane good) { s with cal := { s.cal with rx := mput {} lane r1 s.cal.rx } }
  else s)

/-! ## Temperatures (R333 to R336) -/

/-- WARN and the automatic runs at a junction sample (R334, R342). -/
def junctionSample (j : Int) (s : State) : State :=
  let limit : Int := 16 * fget s.conf THM_LIMIT_WARN
  let s1 := { s with thm := { s.thm with junction := j } }
  let s2 := if limit ≤ j && !s.thm.warn then
      post 0x1401 1 [sfield 16 j] { s1 with thm := { s1.thm with warn := true } }
    else if j ≤ limit - 80 then { s1 with thm := { s1.thm with warn := false } } else s1
  let s3 := forAll [0, 1, 2] (fun l t => match aget t.cal.lastTemp l with
    | some v => if 8 * fget t.conf CAL_CTRL_DT < (j - v).natAbs then thermalRun l t else t
    | none => t) s2
  updateGuarantee s3

/-- ENGINE_CLOCK_STEP (R334): every 10 ms, out of DORMANT (R43). -/
def execEngineClockStep (s : State) : Answer :=
  .next (if s.sys.mode = .dormant then s else
    let limit : Int := 16 * fget s.conf THM_LIMIT_THROTTLE
    let c := s.thm.clock
    let c1 := if limit ≤ s.thm.junction then max 1200 (c - 100) else if s.thm.junction < limit - 80 then min 1800 (c + 100) else c
    if c1 = c then s else post 0x1402 1 [c1, sfield 16 s.thm.junction] { s with thm := { s.thm with clock := c1 } })

/-- A panel sensor's reading in sQ7.4, saturated, and whether it lies from −40 °C to 125 °C (R335). -/
def sensorValue (s : State) (k : Nat) (hi lo : Byte) : Int × Bool :=
  let w := signedOf 16 (256 * hi.toNat + lo.toNat)
  let v := if fbit s.conf (THM_SENSOR_FORMAT k) then w / 16 else w
  (clampI (-2048) 2047 v, decide (-640 ≤ v) && decide (v ≤ 2000))

/-- One sensor's poll (R335). -/
def pollSensor (k : Nat) (d : Option (Byte × Byte)) (s : State) : State :=
  let x := mget {} s.thm.sensors k
  let put (y : Sensor) : State := { s with thm := { s.thm with sensors := mput {} k y s.thm.sensors } }
  let bad : State :=
    if x.valid && 2 ≤ x.bad then post 0x1403 1 [k, 1] (put { x with valid := false, bad := 3 }) else put { x with bad := min 3 (x.bad + 1) }
  match d with
  | none => bad
  | some (hi, lo) =>
    let (v, ok) := sensorValue s k hi lo
    if !ok then bad
    else
      let y : Sensor := { valid := true, bad := 0, reading := v }
      if x.valid then put y else post 0x1403 1 [k, 0] (put y)

/-- Mean with the division toward negative infinity. -/
def meanI (l : List Int) : Int := l.foldl (· + ·) 0 / (max 1 l.length : Int)

/-- Mean of the valid sensors of a cell; none when it holds none. -/
def cellMean (s : State) (cell : Nat) : Option Int :=
  let ks := (List.range 16).filter (fun k => (mget {} s.thm.sensors k).valid
    && 4 * fget s.conf (THM_SENSOR_V k) + fget s.conf (THM_SENSOR_U k) = cell)
  if ks.isEmpty then none else some (meanI (ks.map (fun k => (mget {} s.thm.sensors k).reading)))

/-- Manhattan distance of two cells. -/
def cellDist (a b : Nat) : Nat := ((a % 4 : Int) - (b % 4 : Int)).natAbs + ((a / 4 : Int) - (b / 4 : Int)).natAbs

/-- Value of a cell (R336). -/
def cellValue (s : State) (cell : Nat) : Int :=
  match cellMean s cell with
  | some v => v
  | none =>
    let filled := (List.range 16).filterMap (fun c => (cellMean s c).map (fun v => (cellDist cell c, v)))
    match filled with
    | [] => signedOf 16 (fget s.conf THM_PANEL_DEFAULT)
    | _ =>
      let near := filled.foldl (fun m p => min m p.1) 100
      meanI ((filled.filter (fun p => p.1 = near)).map Prod.snd)

/-- The read that polls a sensor (R335). -/
def sensorRead (c : Conf) (k : Nat) : Output :=
  .sensorRead (fbit c (THM_SENSOR_BUS_I3C k)) (fget c (THM_SENSOR_ADDR k)) (fget c (THM_SENSOR_REG k))

/-- A sensor that is not enabled is not valid; that it was is a change of its state (R335; DESIGN CHOICE 98). -/
def dropSensor (k : Nat) (s : State) : State :=
  postIf (mget {} s.thm.sensors k).valid 0x1403 1 [k, 1] { s with thm := { s.thm with sensors := mput {} k {} s.thm.sensors } }

/-- PANEL_SENSOR_POLL (R335, R336): one round of polls, then the field. -/
def execPanelSensorPoll (readings : List (Option (Byte × Byte))) (s : State) : Answer :=
  .next (if s.sys.mode = .dormant then s else
    let s1 := forAll (List.range 16) (fun k t =>
      if fbit t.conf (THM_SENSOR_EN k) then pollSensor k (readings.getD k none) (emit [sensorRead t.conf k] t)
      else dropSensor k t) s
    { s1 with thm := { s1.thm with field := (List.range 16).map (cellValue s1) } })

end Sys2Proof.Machine
end

