-- ==== Sys2Proof/Machine/Flags.lean ====
section
/-!
DEFINITION. What a read of BAR0 shows: the status fields of every register, computed from the state they describe, beside
the fields that software wrote (R6 to R8, R64, R91, R430 to R438 and the register tables of the chapters).
-/
namespace Sys2Proof.Machine

/-! ## Encodings -/

/-- SYS_MODE.MODE (Table 2.2). -/
def modeNum : Mode → Nat
  | .dormant => 0
  | .boot => 1
  | .live => 2
  | .hold => 3
  | .cue => 4
  | .service => 5

/-- BOOT_PATH (Table 2.3). -/
def pathNum : BootPath → Nat
  | .fast => 0
  | .full => 1
  | .retained => 2

/-- PNL_STATUS.STATE (Table 10.25). -/
def panelNum : PanelState → Nat
  | .off => 0
  | .poweringOn => 1
  | .training => 2
  | .on => 3
  | .poweringOff => 4
  | .waiting => 5
  | .faultOff => 6

/-- TWL_PORTSTATE (Table 11.14). -/
def portNum : PortState → Nat
  | .unused => 0
  | .phase t => t + 1
  | .active => 6
  | .failed => 7
  | .quiet => 8
  | .backoff => 9
  | .test => 10

/-- GNG_STATUS.ROLE (Table 16.7). -/
def roleNum : Role → Nat
  | .off => 0
  | .joining => 1
  | .timekeeper => 2
  | .follower => 3
  | .island => 4

/-- FLT_CHECK.STATE (Table 18.11). -/
def checkNum : CheckState → Nat
  | .rotating => 0
  | .rechecking => 1
  | .selfTest => 2

/-- Fields packed into a word: value, lowest bit, width. -/
def pack (l : List (Nat × Nat × Nat)) : Nat := l.foldl (fun a p => a + p.1 % 2 ^ p.2.2 * 2 ^ p.2.1) 0

/-! ## Status fields, block by block -/

/-- SYS (Tables 2.3, 20.4 to 20.9). -/
def sysStatus (s : State) (r : Nat) : Nat :=
  let y := s.sys
  if r = 0x00 then 0x6128 + 0x10000 * Config.stepping.toNat
  else if r = 0x04 then y.fw.toNat
  else if r = 0x08 then pack [(b2n y.lock, 0, 1), (b2n s.conf.setup.armed.isSome, 1, 1), (b2n y.rejected, 2, 1)]
  else if r = 0x10 then
    pack [(modeNum y.mode, 0, 3), (b2n y.brace, 3, 1), (modeNum ((y.transit.map Transit.target).getD y.mode), 4, 3)
         , (b2n y.transit.isSome, 7, 1), (pathNum y.bootPath, 8, 2), (b2n y.imageB, 10, 1)]
  else if r = 0x24 then gpioIn s
  else if r = 0x28 then
    pack [(y.cause.cause, 0, 3), (y.cause.wakeSrc, 3, 3), (y.cause.wakeGpio, 6, 3), (y.cause.wakePort, 9, 2)
         , (y.cause.wdReason, 11, 3), (b2n y.cause.retained, 14, 1)]
  else 0

/-- HIF (Table 3.6). -/
def hifStatus (s : State) (r : Nat) : Nat :=
  let h := s.hif
  if r = 0x00 then
    pack [(h.speed, 0, 3), (h.width, 3, 5), (b2n h.flit, 8, 1), (h.l0pWidth, 9, 5), (b2n h.degraded, 14, 1), (h.badLanes.toNat, 16, 16)]
  else 0

/-- ING (Tables 5.10, 5.11). -/
def ingStatus (s : State) (r : Nat) : Nat :=
  let i := s.ing
  if r = 0x10 then pack [(i.pushNext, 0, 8), (i.pushFree, 8, 8), (b2n i.resync, 16, 1)]
  else if r = 0x1C then pack [(i.stale, 0, 8), (i.early, 8, 8), (i.misplaced, 16, 8), (i.late, 24, 8)]
  else 0

/-- PIX (Table 6.12). -/
def pixStatus (s : State) (r : Nat) : Nat :=
  if r = 0x30 then pack [(s.pix.litePlain, 0, 16), (s.pix.liteHist, 16, 8), (s.pix.liteBlack, 24, 8)] else 0

/-- GZ (Tables 7.18 to 7.20). -/
def gzStatus (s : State) (r : Nat) : Nat :=
  let g := s.gz
  if r = 0x40 then g.clipLast
  else if r = 0x44 then pack [(g.forcedLast, 0, 16), (g.collide, 16, 8), (g.statsLate, 24, 8)]
  else if r = 0x48 then pack [(b2n g.change, 0, 1), ((g.zones.filter (fun p => p.2.dead)).length, 4, 17)]
  else 0

/-- Lanes with a lost driver (Table 8.10). -/
def lostLanes (s : State) : Nat :=
  ofBits ((List.range 32).filter (fun l => s.lmp.drivers.any (fun p => p.1 / 16 = l && p.2.lost)))

/-- LMP (Tables 8.10, 8.11). -/
def lmpStatus (s : State) (r : Nat) : Nat :=
  if r = 0x0C then lostLanes s
  else if r = 0x10 then pack [(s.lmp.crcRet, 0, 16), (s.lmp.echoMiss, 16, 16)]
  else 0

/-- DMK (Table 9.18). -/
def dmkStatus (s : State) (r : Nat) : Nat :=
  if r = 0x40 then pack [(b2n s.dmk.loaded, 0, 1), (b2n s.dmk.loading, 1, 1), (s.dmk.dup, 8, 8), (s.dmk.badLines, 16, 16)] else 0

/-- OD (Tables 9.23, 9.24). -/
def odStatus (s : State) (r : Nat) : Nat :=
  if r = 0x18 then pack [(s.od.pred, 0, 20), (b2n s.od.hint, 20, 1), (b2n s.od.settle, 21, 1)]
  else if r = 0x1C then pack [(s.od.settles, 0, 16), (s.od.offFrames, 16, 16)]
  else 0

/-- TMG (Table 10.21). -/
def tmgStatus (s : State) (r : Nat) : Nat :=
  if r = 0x40 then pack [(min 0xFFFFFF s.tmg.slot, 0, 24), (b2n s.tmg.blind, 24, 1), (b2n s.tmg.balReq, 25, 1)]
  else if r = 0x44 then pack [(s.tmg.balCount, 0, 16), (s.tmg.slips, 16, 16)]
  else 0

/-- PNL (Tables 10.25, 10.26). -/
def pnlStatus (s : State) (r : Nat) : Nat :=
  if r = 0x5C then
    pack [(panelNum s.pnl.state, 0, 4), (s.pnl.faultDvm, 4, 4), (s.pnl.faultStep, 8, 3), (s.pnl.retries, 12, 4)
         , (ofBits ((List.range 12).filter (inWindow s)), 16, 12)]
  else if 0x60 ≤ r && r < 0x78 then
    let k := (r - 0x60) / 4
    pack [((samplesOf s (2 * k)).headD 0, 0, 12), ((samplesOf s (2 * k + 1)).headD 0, 16, 12)]
  else 0

/-- TWL (Tables 11.13 to 11.17). -/
def twlStatus (s : State) (r : Nat) : Nat :=
  let t := s.twl
  if 0x10 ≤ r && r < 0x40 then
    let g := groupAt s ((r - 0x10) / 4)
    pack [(b2n g.spareUsed, 4, 1), (g.spareLane, 5, 3)]
  else if 0x40 ≤ r && r < 0x70 then
    pack ((List.range 8).map (fun i => (portNum (portAt s (8 * ((r - 0x40) / 4) + i)).state, 4 * i, 4)))
  else if r = 0x70 then pack [(t.pinEcho, 0, 16), (t.rxCrc, 16, 16)]
  else if r = 0x74 then t.linesLost
  else if r = 0x80 then pack [(b2n t.testDone, 7, 1)]
  else if r = 0x84 then t.testErr.toNat
  else if r = 0x88 then t.testSym.toNat
  else 0

/-- CUE (Tables 12.12 to 12.14). -/
def cueStatus (s : State) (r : Nat) : Nat :=
  let c := s.cue
  if r = 0x10 then
    match c.run with
    | some q =>
      if s.sys.mode = .cue then
        pack [(q.step.getD 0, 0, 16), (q.list, 16, 12), (1, 28, 1), (b2n (decide (0 < q.fade) && decide (q.shownFrames ≤ q.fade)), 29, 1), (b2n q.damaskWait, 30, 1)]
      else 0
    | none => 0
  else if r = 0x14 then pack [(c.buffers.length, 0, 13), ((c.buffers.filter (fun p => p.2.deferred)).length, 16, 13)]
  else if r = 0x18 then (cueRuns s).foldl (fun a p => a + p.2) 0
  else if r = 0x1C then c.dirty.toNat % 2 ^ 32
  else if r = 0x20 then c.dirty.toNat / 2 ^ 32
  else 0

/-- MEM (Tables 13.8 to 13.11). -/
def memStatus (s : State) (r : Nat) : Nat :=
  let m := s.mem
  if r = 0x08 then pack [(m.pass, 0, 16), (m.scrubPage * 65536 / 0x1F00000, 16, 16)]
  else if r = 0x0C then pack [(m.corrected, 0, 16), (m.uncorrectable, 16, 16)]
  else if r = 0x10 then m.rmw
  else if r = 0x14 then pack [(m.retired.length, 0, 18), (min 255 m.pending.length, 18, 8), (b2n m.exhausted, 26, 1)]
  else if r = 0x18 then pack [(m.watch.length, 0, 13), (m.evicted, 16, 16)]
  else if r = 0x28 then pack [(m.sramCorrected, 0, 16), (m.sramRepaired, 16, 8), (min 255 m.sramNoSpare.length, 24, 8)]
  else 0

/-- LIN (Tables 14.8 to 14.10). -/
def linStatus (s : State) (r : Nat) : Nat :=
  let l := s.lin
  let (bank, n) := match commitWord l with | some c => (c.bank, c.seqNo) | none => (0, 0)
  if r = 0x04 then
    pack [(bank, 0, 1), (b2n l.store.isSome, 1, 1), (b2n (l.queued.isSome || !l.delayed.isEmpty), 2, 1), (b2n l.mixed, 3, 1)
         , (b2n l.blank, 4, 1), (l.lastUs, 16, 12)]
  else if r = 0x08 then n
  else if r = 0x0C then pack [(min 0xFFFFF l.wear0, 0, 20)]
  else if r = 0x10 then pack [(min 0xFFFFF l.wear1, 0, 20)]
  else if r = 0x14 then pack [(l.blocks, 0, 2), (b2n l.locked, 2, 1)]
  else if r = 0x18 then pack [(l.deniedHost, 0, 16), (l.deniedEngine, 16, 16)]
  else 0

/-- CAL_QUAL of the lane that CAL_QSEL names (R344). Receiver lanes stand from 108 up. -/
def calQual (s : State) : Nat :=
  let lane := lget s.conf CAL_QSEL_LANE
  let rej := b2n (mget false s.cal.rejLanes lane)
  if lane < 108 then pack [(min 255 (mget 0 s.cal.resid lane), 20, 8), (rej, 29, 1)]
  else
    let x := mget {} s.cal.rx lane
    let (w, h) := ((mget {} s.hif.eye (lane - 108)).sweep).getD (0, 0)
    pack [(roundDivN (15625 * w) 1000, 0, 10), (roundDivN (625 * h) 100, 10, 10), (min 255 x.resid, 20, 8), (b2n x.frozen, 28, 1), (rej, 29, 1)]

/-- CAL (Table 15.7). -/
def calStatus (s : State) (r : Nat) : Nat :=
  if r = 0x10 then
    pack [(b2n !s.cal.jobs.isEmpty, 0, 1), (s.cal.accepted, 8, 8), (s.cal.rejected, 16, 8), ((s.cal.rx.filter (fun p => p.2.frozen)).length, 24, 8)]
  else if r = 0x18 then calQual s
  else 0

/-- Tiles of the part, this one included: those heard from since the FT before last (log entry 17). -/
def partTiles (s : State) : List Nat :=
  ascending (tileIndex s.conf :: ((s.gng.heard ++ s.gng.heardBefore).map Prod.fst).filter (· ≠ tileIndex s.conf)).eraseDups

/-- GNG (Tables 16.7, 16.8). -/
def gngStatus (s : State) (r : Nat) : Nat :=
  let g := s.gng
  if r = 0x0C then
    pack [(ofBits (upPorts s), 0, 4), (roleNum g.role, 4, 3), (g.tk, 8, 6), (g.upstream, 14, 2), (g.hops, 16, 4)
         , (if g.role = .off then 0 else (partTiles s).length, 20, 7)]
  else if r = 0x10 then g.skew.toNat % 2 ^ 32
  else if r = 0x14 then g.skew.toNat / 2 ^ 32
  else if 0x18 ≤ r && r < 0x28 then pack [((gngPort s ((r - 0x18) / 4)).latency, 0, 16)]
  else if r = 0x28 then g.haloLate
  else 0

/-- SEC (Tables 17.11, 17.12). -/
def secStatus (s : State) (r : Nat) : Nat :=
  let c := s.sec
  if r = 0x00 then
    pack [(c.fuses.lifecycle, 0, 2), (c.level, 2, 2), (b2n c.token, 4, 1), (b2n (resident s), 5, 1), (b2n c.fuses.cosign, 6, 1)
         , (b2n (decide (s.sys.stage = .recovery)), 7, 1), (c.imageSvn, 8, 8), (c.fuses.svnMin, 16, 6)]
  else if r = 0x04 then pack [(s.mem.guarded.length, 0, 25)]
  else if r = 0x08 then pack [(c.deniedBar4, 0, 16), (c.deniedCmd, 16, 16)]
  else if r = 0x14 then ofBits ((List.range 4).filter (fun g => (streamOf s g).secure))
  else if r = 0x18 then ofBits ((List.range 32).filter (fun k => (aget c.keys k).isSome))
  else if r = 0x1C then ofBits ((List.range 32).filter (fun k => (aget c.keys (32 + k)).isSome))
  else 0

/-- FLT (Tables 18.10 to 18.12). -/
def fltStatus (s : State) (r : Nat) : Nat :=
  let f := s.flt
  if r = 0x04 then guaranteeWord s
  else if r = 0x08 then
    pack [(f.checkers.getD 0 0xFF, 0, 8), (f.checkers.getD 1 0xFF, 8, 8), (checkedStripe s 0, 16, 8), (checkNum f.check, 24, 2)]
  else if r = 0x0C then
    pack [(f.idle.length, 0, 4), (f.retired.length + s.sec.fuses.engines.length, 4, 8)
         , (f.pendingStripes.foldl min 0xFF, 12, 8), (f.unserved.length, 20, 8)]
  else if r = 0x10 then pack [(f.solverRetired.toNat, 0, 17), (b2n ((servingPairs f).contains 16), 17, 1)]
  else if r = 0x14 then pack [(f.hkOk.toNat, 0, 2), (f.takeovers, 8, 8)]
  else if r = 0x18 then
    pack [(((newestFault s.lin.sram).map Prod.fst).getD 0, 0, 11), ((faultSlots s.lin.sram).length, 12, 12)]
  else if r = 0x1C then pack [(f.mismatches, 0, 16), (f.transients, 16, 16)]
  else if 0x100 ≤ r && r < 0x1C0 then
    pack ((List.range 4).map (fun i => (engineOf s (4 * ((r - 0x100) / 4) + i), 8 * i, 8)))
  else 0

/-- TRC (Table 17.13). -/
def trcStatus (s : State) (r : Nat) : Nat :=
  if r = 0x00 then pack [(s.sec.level, 0, 2), (s.sec.sources.toNat, 2, 11)] else 0

/-- THM (Tables 15.8, 15.10). -/
def thmStatus (s : State) (r : Nat) : Nat :=
  let t := s.thm
  if r = 0x00 then pack [(sfield 16 t.junction, 0, 16), (t.clock, 16, 12)]
  else if 0x50 ≤ r && r < 0x70 then
    let k := (r - 0x50) / 4
    pack [(sfield 16 (t.field.getD (2 * k) 0), 0, 16), (sfield 16 (t.field.getD (2 * k + 1) 0), 16, 16)]
  else if r = 0x70 then
    pack [(ofBits ((List.range 16).filter (fun k => (mget {} t.sensors k).valid)), 0, 16), (b2n (decide (t.clock < 1800)), 16, 1), (b2n t.warn, 17, 1)]
  else 0

/-- PWR (Tables 2.7, 19.11 to 19.13). -/
def pwrStatus (s : State) (r : Nat) : Nat :=
  let p := s.pwr
  if r = 0x04 then pack [(p.braceCount, 8, 16)]
  else if r = 0x08 then pack [(p.vin, 0, 12), (p.vinMin, 16, 12)]
  else if r = 0x0C then pack [(b2n p.inputOn, 0, 1), (b2n p.ovpSeen, 1, 1)]
  else if r = 0x10 then pack [(p.holdup, 0, 16), (b2n p.holdupOk, 16, 1)]
  else if r = 0x14 then pack [(p.inputPower, 0, 12)]
  else 0

/-- The status fields of the register at a BAR0 offset (Table 20.1). -/
def statusBits (s : State) (off : Nat) : Nat :=
  let r := off % 0x10000
  match off / 0x10000 with
  | 0x00 => sysStatus s r
  | 0x01 => hifStatus s r
  | 0x03 => ingStatus s r
  | 0x04 => pixStatus s r
  | 0x05 => gzStatus s r
  | 0x06 => lmpStatus s r
  | 0x07 => dmkStatus s r
  | 0x08 => odStatus s r
  | 0x09 => tmgStatus s r
  | 0x0A => pnlStatus s r
  | 0x0B => twlStatus s r
  | 0x0C => cueStatus s r
  | 0x0D => memStatus s r
  | 0x0E => linStatus s r
  | 0x0F => calStatus s r
  | 0x10 => gngStatus s r
  | 0x11 => secStatus s r
  | 0x12 => fltStatus s r
  | 0x13 => trcStatus s r
  | 0x14 => thmStatus s r
  | 0x15 => pwrStatus s r
  | _ => 0

/-! ## Reads -/

/-- RWL fields as a read shows them: before lock the value as written (R91, R436), after it the value in force. -/
def rwlRead (s : State) (off : Nat) : Word :=
  if s.sys.lock then regNow s.conf off else (aget s.conf.setup.regs off).getD (regNow s.conf off)

/-- A register's word with given RWL fields: its live fields and its status fields beside them. -/
def wordWith (s : State) (off : Nat) (rwl : Word) : Word :=
  (rwl &&& BitVec.ofNat 32 (rwlMask off)) ||| (liveNow s.conf off &&& BitVec.ofNat 32 (liveMask off))
    ||| BitVec.ofNat 32 (statusBits s off)

/-- A register's word as a read of it shows it, 64-bit pairs apart. -/
def regWord (s : State) (off : Nat) : Word := wordWith s off (rwlRead s off)

/-- A register's word with the configuration in force. -/
def wordInForce (s : State) (off : Nat) : Word := wordWith s off (regNow s.conf off)

/-- The 64-bit pairs: offset of the low dword and the value (R7, Table 20.1). -/
def pairs64 (s : State) : List (Nat × Nat) :=
  [(0x000014, s.sys.fe), (0x030014, s.ing.pushFe), (0x0d001c, s.mem.lastErr), (0x10002c, s.gng.digest), (0x11000c, s.sec.nonce)]

/-- The value in force of any register of PF0's BAR0, as the digest takes it (R354). -/
def valueInForce (s : State) (off : Nat) : Word :=
  match (pairs64 s).find? (fun p => p.1 = off || p.1 + 4 = off) with
  | some p => BitVec.ofNat 32 (if p.1 = off then p.2 else p.2 / 2 ^ 32)
  | none => if off / 0x10000 = 0x02 then readRing s .pf0 (off % 0x10000) else wordInForce s off

/-- BAR0 offset of PWR_INPUT (Table 19.13). -/
def offPwrInput : Nat := 0x150014

/-- A read of PWR_INPUT shows a new measurement of the input power (R412): a free value (log entries 3 and 118). -/
def measurePower (s : State) : State := skipFree 1 { s with pwr := { s.pwr with inputPower := freeNow s % 4096 } }

/-- A read of PF0's BAR0: the word and the state after it. The low dword of a pair latches the high one; a high dword
read with nothing latched is open (R7, log entry 3). -/
def readBar0 (off : Nat) (s : State) : Word × State :=
  match (pairs64 s).find? (fun p => p.1 = off), (pairs64 s).find? (fun p => p.1 + 4 = off) with
  | some p, _ =>
    (BitVec.ofNat 32 p.2, { s with sys := { s.sys with hiLatch := aput (off + 4) (BitVec.ofNat 32 (p.2 / 2 ^ 32)) s.sys.hiLatch } })
  | none, some _ => match aget s.sys.hiLatch off with
    | some w => (w, { s with sys := { s.sys with hiLatch := s.sys.hiLatch.filter (fun p => p.1 ≠ off) } })
    | none => (BitVec.ofNat 32 (freeNow s), skipFree 1 s)
  | none, none =>
    if off / 0x10000 = 0x02 then (readRing s .pf0 (off % 0x10000), s)
    else if off = offPwrInput then (regWord (measurePower s) off, measurePower s)
    else (regWord s off, s)

end Sys2Proof.Machine
end

