-- ==== Sys2Proof/Machine/Wall.lean ====
section
/-!
DEFINITION. Gingham (chapter 16): ports, HELLO and topology, the timekeeper and its TICK markers, the configuration digest,
wall arms, halo messages and neighbour measurements (R345 to R364, R374), with ARM_CONFIG, CUE_START and CUE_STOP, whose
wall forms run the exchange.
-/
namespace Sys2Proof.Machine

def setGng (p : Nat) (v : GngPort) (s : State) : State := { s with gng := { s.gng with ports := mput {} p v s.gng.ports } }

def eligible (s : State) : Bool := fbit s.conf GNG_CTRL_TK_ELIGIBLE

/-- The tile runs in a part: its role is settled. -/
def inPart (s : State) : Bool := s.gng.role = .timekeeper || s.gng.role = .follower || s.gng.role = .island

/-- The tile takes its start LTs from another tile's markers (R351, R353). -/
def follows (s : State) : Bool := (s.gng.role = .follower || s.gng.role = .island) && s.gng.tk ≠ tileIndex s.conf

/-- The tile's own triggers give its start LTs (R215, R353); not while it waits for the FT of the part it adopts (R363). -/
def ownStarts (s : State) : Bool := !(follows s) && s.gng.adopt.isNone

/-- Whole slots of a follower's latency to its timekeeper, which its start LT precedes a marker by (R352, R353). -/
def latSlots (s : State) : Nat := if ownStarts s then 0 else s.gng.latency * 512 / max 1 (tPeriod s.conf)

/-- Slot of the FT for a start LT at the slot in progress, or for a marker that arrived in it (R215, R353). It is still to come. -/
def ftOfMarker (s : State) : Nat := max (s.tmg.slot + tLead s.conf + tVfp s.conf - latSlots s) (s.tmg.slot + 2)

/-- Every frame of this island is a blind scan (R362). -/
def islandBlind (s : State) : Bool :=
  fbit s.conf GNG_CTRL_EN && s.gng.role = .island && !(fbit s.conf GNG_CTRL_ISLAND_RUN)

/-- A frame or a marker arrives at a port that is not disabled: trace has it (Table 17.7, source 7). -/
def seen (p : Nat) (s : State) : State := if (gngPort s p).state = .disabled then s else trace1 7 s

/-! ## HELLO and the link layer (R345, R348, Table 16.2) -/

/-- The grid signature (Table 16.2): first 8 bytes of the digest of TMG_ACTIVE.H, TMG_LINE, TMG_VERT, ROWS, RADIUS and
ROW_TOP; the widths of the values are DEDUCED from their fields (log entry 17). -/
def gridSignature (c : Conf) : Nat :=
  leNat ((Config.sha384 (toLE 2 (tH c) ++ toLE 4 (regNow c 0x090004).toNat ++ toLE 4 (regNow c 0x090008).toNat ++ toLE 2 (gRows c)
    ++ toLE 1 (fget c GZ_SOLVER_RADIUS) ++ (List.range (gRows c)).flatMap (fun i => toLE 2 (tableAt c 0x0501 (2 * i) 2)))).take 8)

/-- Timekeeper that this tile advertises; 0xFF for none. -/
def helloTk (s : State) : Nat :=
  if s.gng.role = .off || (s.gng.role ≠ .follower && s.gng.tk = tileIndex s.conf && !(eligible s)) then 0xFF else s.gng.tk

/-- The block runs: ticks are issued. -/
def tileRuns (s : State) : Bool := s.tmg.running && !s.tmg.fresh

def helloPayload (s : State) : Bytes :=
  toLE 1 (fget s.conf GNG_TILE_X) ++ toLE 1 (fget s.conf GNG_TILE_Y) ++ toLE 8 s.sys.fe ++ toLE 1 (helloTk s) ++ toLE 1 s.gng.hops
    ++ toLE 4 s.gng.latency ++ toLE 1 (b2n (tileRuns s)) ++ toLE 8 (gridSignature s.conf)

def sendHello (ports : List Nat) (s : State) : State :=
  forAll ports (fun p t => gngSend [p] 0x01 0 (helloPayload t) t) s

/-- The coordinates that a port faces (R345). -/
def faced (c : Conf) (p : Nat) : Int × Int :=
  let x : Int := fget c GNG_TILE_X
  let y : Int := fget c GNG_TILE_Y
  if p = 0 then (x, y - 1) else if p = 1 then (x + 1, y) else if p = 2 then (x, y + 1) else (x - 1, y)

/-- GINGHAM_PORT_BRINGUP (R348): symbol lock, then deskew; deskew begins the latency probe. -/
def execGinghamPortBringup (port : Nat) (step : BringupStep) (s : State) : Answer :=
  let q := gngPort s port
  .next (match step, q.state with
  | .symbolLock, .lock => trace1 7 (setGng port { q with state := .deskew } s)
  | .deskew, .deskew => trace1 7 (gngSend [port] 0x02 0 [] (setGng port { q with state := .probe } s))
  | _, _ => s)

/-- LAT_PROBE (R348): the answer carries the turnaround time. -/
def execLatProbe (port turnaround : Nat) (s : State) : Answer :=
  .next (seen port (if [GngState.probe, .greeting, .up].contains (gngPort s port).state then
    gngSend [port] 0x03 0 (toLE 4 turnaround) s else s))

/-- LAT_ECHO (R348): the one-way latency; HELLO exchange follows. -/
def execLatEcho (port roundTrip turnaround : Nat) (s : State) : Answer :=
  let q := gngPort s port
  .next (seen port (if q.state = .probe then
    sendHello [port] (setGng port { q with state := .greeting, latency := (roundTrip - turnaround) / 2 % 65536 } s)
  else s))

/-- GINGHAM_RETRY_TIMER (R348): 10 ms after a failure the port starts again. -/
def execGinghamRetryTimer (port : Nat) (s : State) : Answer :=
  let q := gngPort s port
  .next (if q.state = .backoff then setGng port { q with state := .lock } s else s)

/-- HELLO_TIMER (R348). -/
def execHelloTimer (s : State) : Answer :=
  .next (sendHello ((List.range 4).filter (fun p => [GngState.greeting, .up].contains (gngPort s p).state)) s)

/-! ## The part, its timekeeper and the way to it (R350 to R352, R362, R363) -/

/-- A tile of the part is heard from on a port. -/
def hearTile (tile p : Nat) (s : State) : State :=
  if tile = tileIndex s.conf || s.gng.heard.contains (tile, p) then s
  else { s with gng := { s.gng with heard := s.gng.heard ++ [(tile, p)] } }

/-- The up port whose neighbour has the fewest hops to a timekeeper, in port order (R352). A way of 64 hops or more does
not exist in a wall of 64 tiles. -/
def wayTo (s : State) (tk : Nat) : Option (Nat × HelloMsg) :=
  ((upPorts s).filterMap (fun p => (gngPort s p).hello.bind (fun h =>
    if h.2.timekeeper = tk && h.2.hops < 63 then some (p, h.2) else none))).foldl (fun best n => match best with
    | none => some n
    | some b => if n.2.hops < b.2.hops then some n else best) none

/-- Hops and latency by a way (R352): 24 ns for the neighbour's forwarding, none where the neighbour is the timekeeper. -/
def takeWay (w : Nat × HelloMsg) (s : State) : State :=
  { s with gng := { s.gng with upstream := w.1, hops := w.2.hops + 1
                               latency := w.2.latency + (gngPort s w.1).latency + (if w.2.hops = 0 then 0 else 384) } }

/-- This tile is its own timekeeper, or has none. -/
def ownTk (role : Role) (s : State) : State :=
  { s with gng := { s.gng with role, tk := tileIndex s.conf, upstream := 0, hops := 0, latency := 0 } }

/-- The part no longer contains the timekeeper: the tile is an island (R351, R362). One that was an island still waits for the
timekeeper it lost first. GNG_ISLAND comes at the frame's end, with the timekeeper that the part has elected by then (DESIGN
CHOICE 157). -/
def loseTk (s : State) : State :=
  let lost := if s.gng.role = .island then s.gng.lostTk.or (some s.gng.tk) else some s.gng.tk
  ownTk .island { s with gng := { s.gng with lostTk := lost, adopt := none, islandDue := true } }

/-- GNG_ISLAND of a tile that became an island in the frame that ends (R362). -/
def postIsland (s : State) : State :=
  if s.gng.islandDue then
    post 0x1005 2 [(partTiles s).length, s.gng.tk] { s with gng := { s.gng with islandDue := false } }
  else s

/-- Recompute the upstream port and the timekeeper (R352, R362). -/
def reroute (s : State) : State :=
  if follows s && s.gng.adopt.all (fun a => a.1 = s.gng.tk) then
    match wayTo s s.gng.tk with
    | some w => takeWay w s
    | none => loseTk s
  else s

/-- Two parts meet, and this tile's loses (R363), also against a part that it is about to adopt. -/
def partLoses (s : State) (m : HelloMsg) : Bool :=
  (s.sys.fe < m.fe || (m.fe = s.sys.fe && (m.timekeeper < s.gng.tk || helloTk s = 0xFF)))
    && s.gng.adopt.all (fun a => a.2 < m.fe || (a.2 = m.fe && m.timekeeper < a.1))

/-- Take the timekeeper that a neighbour advertises, while joining or among islands of one part (R350, R351). -/
def electFrom (p : Nat) (m : HelloMsg) (s : State) : State :=
  if m.hops < 63 && (m.timekeeper < s.gng.tk || helloTk s = 0xFF) then
    takeWay (p, m) { s with gng := { s.gng with tk := m.timekeeper } }
  else s

/-- A neighbour's FE is this tile's own, or one frame away: both are of one part. -/
def nearFe (s : State) (m : HelloMsg) : Bool := m.fe ≤ s.sys.fe + 1 && s.sys.fe ≤ m.fe + 1

/-- What a neighbour's HELLO says of the timekeeper; `before` is the timekeeper of its last HELLO, none when the port has just
come up. DESIGN CHOICE 156: an island elects among the tiles of its part, which are those on ports that were up already and
whose FE is within one of its own; it never elects the timekeeper it lost. -/
def heardTk (p : Nat) (before : Option Nat) (m : HelloMsg) (s : State) : State :=
  if m.timekeeper = 0xFF then s
  else if s.gng.role = .joining then (if m.running then s else electFrom p m s)
  else if !(inPart s) || m.timekeeper = s.gng.tk then s
  else if s.gng.role = .island && before.isSome && nearFe s m && s.gng.lostTk ≠ some m.timekeeper then electFrom p m s
  else if before ≠ some m.timekeeper && m.running && partLoses s m then
    { s with gng := { s.gng with adopt := some (m.timekeeper, m.fe), upstream := p } }
  else s

/-- The running part that a joining tile adopts: the larger FE, then the lower timekeeper (R350, R363), by the fewest hops (R352). -/
def runningPart (s : State) : Option (Nat × HelloMsg) :=
  ((upPorts s).filterMap (fun p => (gngPort s p).hello.bind (fun h =>
    if h.2.running && h.2.timekeeper ≠ 0xFF then some (p, h.2) else none))).foldl (fun best n => match best with
    | none => some n
    | some b =>
      let better := if n.2.timekeeper = b.2.timekeeper then decide (n.2.hops < b.2.hops)
        else decide (b.2.fe < n.2.fe) || (n.2.fe = b.2.fe && decide (n.2.timekeeper < b.2.timekeeper))
      if better then some n else best) none

/-- A tile that has not issued its first FT is to join a running part (R350). -/
def joinPart (w : Nat × HelloMsg) (s : State) : State :=
  takeWay w { s with gng := { s.gng with role := .follower, tk := w.2.timekeeper, adopt := some (w.2.timekeeper, w.2.fe) } }

/-- What a lost port changes of the way that this tile was about to take: a joining tile elects anew among the tiles that start
with it (R350), and the part to be adopted is reached another way or not at all (R350, R352, R363). -/
def wayLost (p : Nat) (s : State) : State :=
  if s.gng.role = .joining then
    forAll (upPorts s) (fun q s => match (gngPort s q).hello with
      | some h => heardTk q none h.2 s
      | none => s) (ownTk .joining s)
  else match s.gng.adopt with
    | none => s
    | some (tk, _) =>
      if s.gng.upstream ≠ p then s
      else match wayTo s tk, s.tmg.fresh, runningPart s with
        | some w, _, _ => { s with gng := { s.gng with upstream := w.1 } }
        | none, true, some w => joinPart w s
        | none, _, _ => { s with gng := { s.gng with adopt := none, upstream := 0 } }

/-- An up port has gone down (R362, R342). -/
def upPortLost (p : Nat) (s : State) : State :=
  let on (l : List (Nat × Nat)) := l.filter (fun t => t.2 ≠ p)
  pruneRun (reroute (wayLost p (post 0x1003 2 [p]
    { s with gng := { s.gng with heard := on s.gng.heard, heardBefore := on s.gng.heardBefore } })))

/-- Enable or disable the ports as the configuration in force says (Table 16.5); one that was up goes down (R362). -/
def enablePorts (s : State) : State :=
  forAll (List.range 4) (fun p t =>
    let on := fbit t.conf GNG_CTRL_EN && bit (fget t.conf GNG_CTRL_PORT_EN) p
    let q := gngPort t p
    if on && q.state = .disabled then emit [.gngRun p (runSymbols .spaced)] (setGng p { q with state := .lock } t)
    else if !on && q.state ≠ .disabled then
      let t1 := emit [.gngRun p []] (setGng p { q with state := .disabled, hello := none, haloOff := false, nonce := none } t)
      if q.state = .up then upPortLost p t1 else t1
    else t) s

/-- Check a halo port's grid signature against the tile's own (R359). -/
def checkHalo (p : Nat) (sig : Nat) (s : State) : State :=
  let on := (p = 1 && fbit s.conf GNG_CTRL_HALO_E) || (p = 3 && fbit s.conf GNG_CTRL_HALO_W)
  let q := gngPort s p
  let differs := on && sig ≠ gridSignature s.conf
  let s1 := setGng p { q with haloOff := differs } s
  if differs && !q.haloOff then post 0x1008 1 [p] s1 else s1

/-- Every up port's signature against the tile's own, which a change may have altered (R359). -/
def checkHalos (s : State) : State :=
  forAll (upPorts s) (fun p s => match (gngPort s p).hello with
    | some h => checkHalo p h.2.signature s
    | none => s) s

/-- 32 fresh bytes: a nonce of four free values (R361, log entry 3). -/
def freshNonce (s : State) : Bytes := (List.range 4).flatMap (fun i => toLE 8 (Config.freeValue (s.free + i)))

/-- Ask a neighbour for its measurements (R361). -/
def askMeas (p : Nat) (s : State) : State :=
  let n := freshNonce s
  gngSend [p] 0x0B 0 n (skipFree 4 (setGng p { gngPort s p with nonce := some n } s))

/-- A port comes up (R345, R361, R342). -/
def portUp (p src : Nat) (s : State) : State :=
  let lanes := [124 + 2 * p, 125 + 2 * p]
  let s1 := askMeas p (post 0x1004 0 [p, 0, src] (setGng p { gngPort s p with state := .up } s))
  autoRun 2 (forAll lanes startReceiver (hearTile src p s1))

/-- A running tile sends WAKE to a neighbour that advertises no FE (R364). -/
def wakeNeighbour (p : Nat) (runs : Bool) (m : HelloMsg) (s : State) : State :=
  if runs && fbit s.conf GNG_CTRL_WAKE_FWD && !m.running then gngSend [p] 0x0D 0 [] s else s

/-- HELLO (R345, R348, R350 to R352, R359, R362 to R364). A timekeeper that a neighbour of this part no longer reaches is lost
before another is elected; one of another part is adopted. -/
def execHello (port src : Nat) (m : HelloMsg) (s : State) : Answer :=
  let q := gngPort s port
  let known (s : State) : State := setGng port { gngPort s port with hello := some (src, m) } s
  .next (seen port (if q.state = .greeting then
    if faced s.conf port = ((m.x : Int), (m.y : Int)) then
      wakeNeighbour port (tileRuns s) m (reroute (heardTk port none m (checkHalo port m.signature (portUp port src (known s)))))
    else post 0x1004 0 [port, 1, src] (setGng port { q with state := .backoff, hello := none } s)
  else if q.state = .up then
    let before := q.hello.map (fun h => h.2.timekeeper)
    let s1 := checkHalo port m.signature (hearTile src port (known s))
    let s2 := if before ≠ some m.timekeeper && !(nearFe s m) then s1 else reroute s1
    wakeNeighbour port (tileRuns s) m (reroute (heardTk port before m s2))
  else s))

/-- A port fails or goes down (R348, R362): 10 ms later it starts again. -/
def portDown (p : Nat) (s : State) : State :=
  let q := gngPort s p
  if q.state = .disabled || q.state = .backoff then s
  else
    let s1 := setGng p { q with state := .backoff, hello := none, haloOff := false, nonce := none } s
    trace1 7 (if q.state = .up then upPortLost p s1 else s1)

/-- GINGHAM_PORT_DOWN (R348, R362). -/
def execGinghamPortDown (port : Nat) (s : State) : Answer := .next (portDown port s)

/-- GINGHAM_BRINGUP_TIMEOUT (R348): 1 ms in one step of bring-up. -/
def execGinghamBringupTimeout (port : Nat) (s : State) : Answer :=
  .next (if (gngPort s port).state = .up then s else portDown port s)

/-- Ticks begin: the first FT comes with the next line tick, or with the upstream port's next marker. -/
def startTicks (waits : Bool) (s : State) : State :=
  { s with tmg := { s.tmg with running := true, fresh := true, slot := 0, nextFt := if waits then none else some 1 } }

/-- GINGHAM_JOIN_TIMEOUT (R350, R351): WAIT_MS after BOOT, the tile takes its role and its first FT may come. -/
def execGinghamJoinTimeout (s : State) : Answer :=
  .next (if s.gng.role = .joining then
    match runningPart s with
    | some w => startTicks (hasTiming s.conf) (joinPart w s)
    | none =>
      if s.gng.tk ≠ tileIndex s.conf then
        startTicks (hasTiming s.conf) { s with gng := { s.gng with role := .follower } }
      else if eligible s then startTicks false (ownTk .timekeeper s)
      else
        let s1 := ownTk .island s
        startTicks false (post 0x1005 2 [(partTiles s1).length, s1.gng.tk] s1)
  else s)

/-- The role of a tile whose Gingham has just been turned on or off by a change (Table 16.5); a tile that changes its place
keeps its role under its new index. -/
def settleRole (old : Conf) (s : State) : State :=
  if fbit s.conf GNG_CTRL_EN then
    if s.gng.role = .off then
      if eligible s then ownTk .timekeeper s
      else
        let s1 := ownTk .island s
        post 0x1005 2 [(partTiles s1).length, s1.gng.tk] s1
    else if s.gng.tk = tileIndex old then { s with gng := { s.gng with tk := tileIndex s.conf } }
    else s
  else { s with gng := { s.gng with role := .off, tk := 0, lostTk := none, upstream := 0, hops := 0, latency := 0, heard := []
                                    heardBefore := [], skew := 0, history := [], seqs := [], adopt := none, marked := false
                                    byMarker := false, islandDue := false } }

/-! ## TICK markers (R353) -/

/-- Send a marker on given ports. -/
def sendTicks (ports : List Nat) (s : State) : State := emit (ports.map (fun p => Output.gngTick p tickLevels)).reverse s

/-- A start LT of the timekeeper: a marker on every up port. -/
def tickOwn (s : State) : State :=
  if fbit s.conf GNG_CTRL_EN && inPart s && ownStarts s && hasTiming s.conf then sendTicks (upPorts s) s else s

/-- TICK_MARKER (R353, R363): forwarded, and taken as the start LT where the active scan will have ended at its FT. -/
def execTickMarker (port : Nat) (s : State) : Answer :=
  let c := s.conf
  let mine := !(ownStarts s) && port = s.gng.upstream && (upPorts s).contains port
  .next (seen port (if mine then
    let s1 := sendTicks ((upPorts s).filter (· ≠ port)) s
    if s.tmg.nextFt.isNone && hasTiming c && (s.tmg.fresh || tVstart c + tH c ≤ ftOfMarker s) then
      { s1 with gng := { s1.gng with marked := true } }
    else s1
  else s))

/-! ## Floods (R349) -/

/-- Is a SEQ newer than the last one held? -/
def newerSeq (a b : Nat) : Bool := decide (1 ≤ (a + 256 - b % 256) % 256) && decide ((a + 256 - b % 256) % 256 ≤ 127)

/-- A frame that another tile originated, as this tile forwards it. -/
def floodBytes (type src seqNo : Nat) (payload : Bytes) : Bytes :=
  toLE 1 type ++ toLE 1 src ++ toLE 1 1 ++ toLE 1 seqNo ++ toLE 2 payload.length ++ toLE 2 0 ++ payload
    ++ List.replicate ((4 - payload.length % 4) % 4) 0

/-- Take a flooded frame: drop it, or forward it and act on it (R349). `seqs` keeps the last SEQ plus 1. A frame dropped still
tells that its source is in the part. -/
def flooded (port type src seqNo : Nat) (payload : Bytes) (act : State → State) (s : State) : State :=
  let key := 256 * type + src
  let last := mget 0 s.gng.seqs key
  if !((upPorts s).contains port) then s
  else if src = tileIndex s.conf || (last ≠ 0 && !(newerSeq seqNo (last - 1))) then hearTile src port s
  else
    let s1 := { s with gng := { s.gng with seqs := mput 0 key (seqNo % 256 + 1) s.gng.seqs } }
    act (hearTile src port (emit (((upPorts s).filter (· ≠ port)).map (fun p => Output.gngFrame p (gngWire (floodBytes type src seqNo payload)))).reverse s1))

/-! ## The digest (R354, R355) -/

/-- Bytes of a table in force. -/
def tableBytes (c : Conf) (id : Nat) : Bytes := mgets 0 c.tables (1048576 * id) ((tableSize id).getD 0)

/-- Canonical form of one entry of SHARED (R354). -/
def sharedEntry (s : State) (e : Nat) : Bytes :=
  let w := tableAt s.conf 0x1000 (8 * e) 4
  let off := bits w 0 24
  if !(bit w 30) then []
  else if bit w 31 then toLE 4 off ++ (Config.sha384 (tableBytes s.conf off)).take 8
  else toLE 4 off ++ toLE 4 ((valueInForce s off).toNat &&& tableAt s.conf 0x1000 (8 * e + 4) 4)

/-- The digest of the configuration in force (R354). -/
def digestOf (s : State) : Nat :=
  leNat ((Config.sha384 ((Config.sha384 (tableBytes s.conf 0x1000)).take 8 ++ (List.range 256).flatMap (sharedEntry s)
    ++ (bitList (fget s.conf GNG_CTRL_MEAS_MASK) 8).flatMap (measSlot s))).take 8)

/-- Build the digest of the frame that begins, and flood it (R354). The 64 newest are kept (log entry 17). -/
def buildDigest (s : State) : State :=
  if fbit s.conf GNG_CTRL_EN && inPart s then
    let d := digestOf s
    gngFlood 0x04 (toLE 8 s.sys.fe ++ toLE 8 d)
      { s with gng := { s.gng with digest := d, history := ((s.sys.fe, d) :: s.gng.history).take 64 } }
  else s

/-- Compare another tile's digest (R355, R361). -/
def compareDigest (src fe value : Nat) (s : State) : State :=
  match s.gng.history.find? (fun h => h.1 = fe) with
  | none => s
  | some h =>
    let old := s.gng.skew
    if h.2 ≠ value then
      let s1 := { s with gng := { s.gng with skew := old ||| BitVec.ofNat 64 (2 ^ src) } }
      if old = 0 then
        let asked := (upPorts s).filter (fun p => (gngPort s p).hello.any (fun n => n.1 = src))
        forAll asked askMeas (postFe 0x1001 2 fe [src, value % 2 ^ 32] s1)
      else s1
    else
      let new := old &&& ~~~(BitVec.ofNat 64 (2 ^ src))
      let s1 := { s with gng := { s.gng with skew := new } }
      if old ≠ 0 && new = 0 then post 0x1002 0 [] s1 else s1

/-- DIGEST (R354, R355). -/
def execDigest (port src seqNo fe value : Nat) (s : State) : Answer :=
  .next (seen port <| flooded port 0x04 src seqNo (toLE 8 fe ++ toLE 8 value) (compareDigest src fe value) s)

/-! ## Wall arms (R356 to R358) -/

def armWith (s : State) (id : Nat) : Option WallArm := s.gng.arms.find? (fun a => a.id = id)

def setArm (a : WallArm) (s : State) : State :=
  { s with gng := { s.gng with arms := s.gng.arms.map (fun b => if b.id = a.id then a else b) } }

/-- What this tile answers to an ARM: status and class, and the configuration with the slots armed. -/
def judgeArm (s : State) (kind slots fe : Nat) (body : Bytes) : Nat × Nat × Conf :=
  let mask := bitList slots 4
  if fe < s.sys.fe + 2 then (ARM_LATE, 0, s.conf)
  else if kind = 0 then
    if mask.any (fun i => (slotOf s.conf i).armed.isSome) then (STAGE_ARMED, 0, s.conf)
    else
      let conf := armSlots mask (some fe) s.conf
      match validateArm (worldOf s) conf fe with
      | some f => (f.status, 0, s.conf)
      | none => (SUCCESS, classNum (armClass conf fe), conf)
  else match cueFault s kind body with
    | some (st, _) => (st, 0, s.conf)
    | none => (SUCCESS, 0, s.conf)

/-- A tile takes part in another tile's exchange (R356 step 2). -/
def joinArm (id kind slots fe : Nat) (body : Bytes) (s : State) : State :=
  let (st, cls, conf) := judgeArm s kind slots fe body
  let a : WallArm := { id, kind, slots, fe, body }
  let s1 := if st = SUCCESS then { s with conf, gng := { s.gng with arms := s.gng.arms ++ [a] } } else s
  gngFlood 0x06 (toLE 4 id ++ toLE 1 st ++ toLE 1 cls) s1

/-- ARM (R356 step 2, R358). -/
def execGinghamArm (port src seqNo id kind slots fe : Nat) (body : Bytes) (s : State) : Answer :=
  .next (seen port <| flooded port 0x05 src seqNo (armPayload id kind slots fe body) (joinArm id kind slots fe body) s)

/-- The commit reaches a tile: a staged change waits for its FE, a cue command is armed (R357, R358). -/
def commitArm (a : WallArm) (s : State) : State :=
  if a.kind = 0 then setArm { a with committed := true, ring := none } s
  else armCue a.kind a.fe a.body { s with gng := { s.gng with arms := s.gng.arms.filter (fun b => b.id ≠ a.id) } }

/-- An acknowledgement of a tile, if it came: status and class. -/
def ackOf (a : WallArm) (tile : Nat) : Option (Nat × Nat) := (a.acks.find? (fun k => k.1 = tile)).map Prod.snd

/-- Complete the exchanges in which every tile of the part has acknowledged SUCCESS (R356 step 3). -/
def settleExchange (s : State) : State :=
  forAll (s.gng.arms.filter (fun a => a.ring.isSome
      && (partTiles s).all (fun t => match ackOf a t with | some (st, _) => st = SUCCESS | none => false))) (fun a s =>
    let cls := a.acks.foldl (fun m k => max m k.2.2) 0
    let s1 := commitArm a (gngFlood 0x07 (toLE 4 a.id) s)
    finishAll .pf0 a.ring.toList (armOpcode a) SUCCESS (if a.kind = 0 then cls :: lohi a.fe else lohi a.fe) s1) s

/-- ARM_ACK (R356). -/
def execArmAck (port src seqNo id status cls : Nat) (s : State) : Answer :=
  .next (seen port <| flooded port 0x06 src seqNo (toLE 4 id ++ toLE 1 status ++ toLE 1 cls) (fun s =>
    match armWith s id with
    | some a =>
      if a.ring.isSome && (ackOf a src).isNone then settleExchange (setArm { a with acks := a.acks ++ [(src, status, cls)] } s) else s
    | none => s) s)

/-- ARM_COMMIT (R357). -/
def execArmCommit (port src seqNo id : Nat) (s : State) : Answer :=
  .next (seen port <| flooded port 0x07 src seqNo (toLE 4 id) (fun s => match armWith s id with
    | some a => commitArm a s
    | none => s) s)

/-- ARM_ABORT (R357): this tile disarms what bears the id; its own exchange ends with ARM_LATE at the aborting tile (log entry
17). -/
def execArmAbort (port src seqNo id : Nat) (s : State) : Answer :=
  .next (seen port <| flooded port 0x08 src seqNo (toLE 4 id) (fun s => endArms (s.gng.arms.filter (fun a => a.id = id)) src s) s)

/-- The lowest tile that failed an exchange: its index and the status (R356). -/
def failedTile (s : State) (a : WallArm) : Nat × Nat :=
  ((partTiles s).findSome? (fun t => match ackOf a t with
    | none => some (t, ARM_LATE)
    | some (st, _) => if st = SUCCESS then none else some (t, st))).getD (tileIndex s.conf, ARM_LATE)

/-- At the originator's FT of n − 1 an exchange not committed is aborted (R356 step 3). -/
def decideArms (s : State) : State :=
  forAll (s.gng.arms.filter (fun a => a.ring.isSome && a.fe ≤ s.sys.fe + 1)) (fun a s =>
    let (t, st) := failedTile s a
    finishAll .pf0 a.ring.toList (armOpcode a) st [t] (gngFlood 0x08 (toLE 4 a.id) (dropWallArm a s))) s

/-- At FT n a tile disarms what no commit has reached; what was committed has taken effect (R357). -/
def loseArms (s : State) : State :=
  let lost := s.gng.arms.filter (fun a => !a.committed && a.fe ≤ s.sys.fe)
  let s1 := forAll lost (fun a s => post 0x1007 2 [a.id] (dropWallArm a s)) s
  { s1 with gng := { s1.gng with arms := s1.gng.arms.filter (fun a => s.sys.fe < a.fe) } }

/-- ARM_CONFIG (R92, R356). -/
def execArmConfig (sq : Nat) (s : State) : Answer :=
  runRing .pf0 sq 0x12 (fun r s => if bit (fieldAt r.raw 0x18 4) 8 then s else settleExchange (armConfig sq r s)) s

/-! ## Halo messages (R359, R360) -/

/-- Put a row of halo values, each stored as the value plus 1. -/
def putHalo (port row : Nat) (vs : List Nat) (m : SMap Nat) : SMap Nat :=
  mputs 0 (haloKey port row 0) (vs.map (fun v => v % 65536 + 1)) m

/-- HALO_TARGET (R359): of the frame whose statistics run, or of the one before it. -/
def execHaloTarget (port fe row : Nat) (targets : List Nat) (s : State) : Answer :=
  let vs := targets.take (fget s.conf GZ_SOLVER_RADIUS)
  .next (seen port (if haloOn s port && row < gRows s.conf then
    if fe = s.gz.openFe then { s with gz := { s.gz with haloTarget := putHalo port row vs s.gz.haloTarget } }
    else if fe + 1 = s.gz.openFe then { s with gz := { s.gz with haloTargetPrev := putHalo port row vs s.gz.haloTargetPrev } }
    else s
  else s))

/-- HALO_LEVEL (R359): committed levels of this frame, or of the one before it. -/
def execHaloLevel (port fe firstRow : Nat) (levels : List (List Nat)) (s : State) : Answer :=
  let h := fget s.conf GZ_SOLVER_RADIUS
  let put (m : SMap Nat) : SMap Nat := (keyed firstRow levels).foldl (fun m p =>
    if p.1 < gRows s.conf then putHalo port p.1 (p.2.take h) m else m) m
  .next (seen port (if haloOn s port then
    if fe = s.sys.fe then { s with gz := { s.gz with haloLevel := put s.gz.haloLevel } }
    else if fe + 1 = s.sys.fe then { s with gz := { s.gz with haloLevelPrev := put s.gz.haloLevelPrev } }
    else s
  else s))

/-! ## Neighbour measurements (R361, R374) -/

/-- What a MEAS message signs (R374). -/
def measDigest (nonce : Bytes) (lifecycle : Byte) (slots : List Bytes) : Bytes := Config.sha384 (nonce ++ [lifecycle] ++ slots.flatten)

/-- MEAS_REQ (R361): the security controller answers, also a neighbour whose side of the port came up first. -/
def execMeasReq (port : Nat) (nonce : Bytes) (s : State) : Answer :=
  let life : Byte := BitVec.ofNat 8 s.sec.fuses.lifecycle
  let slots := (List.range 8).map (measSlot s)
  let sig := Config.ecdsaSign (deviceKey s).1 (measDigest nonce life slots)
  let live := [GngState.greeting, .up].contains (gngPort s port).state
  .next (seen port (if live then gngSend [port] 0x0C 0 (measPayload (nonce, life, slots, sig)) s else s))

/-- MEAS (R374): a message that does not carry the nonce outstanding verifies no signature (log entry 17). -/
def execMeas (port : Nat) (nonce : Bytes) (lifecycle : Byte) (slots : List Bytes) (signature : Bytes) (s : State) : Answer :=
  let q := gngPort s port
  let pin := mget [] s.sec.pins port
  let ok := q.nonce = some nonce && Config.ecdsaOk pin (measDigest nonce lifecycle slots) signature
  let verified := if pin = [] then 2 else b2n ok
  let differ := ofBits ((bitList (fget s.conf GNG_CTRL_MEAS_MASK) 8).filter (fun k => slots.getD k [] ≠ measSlot s k))
  .next (seen port (if (upPorts s).contains port then
    let s1 := setGng port { q with meas := some (nonce, lifecycle, slots, signature), verified, nonce := none } s
    if verified = 0 || differ ≠ 0 then post 0x1105 2 [port, verified, differ] s1 else s1
  else s))

end Sys2Proof.Machine
end

