-- ==== Sys2Proof/Machine/Reset.lean ====
section
/-!
DEFINITION. Resets: of a function's host interface (R42, R71, R431, Table 3.10), of the die with loss of power (Table 19.4,
R50), of the die by the watchdog (R10, R326), and the start of BOOT (R44, R330). What ends with a watchdog reset in progress
stands here too: the end of a store and of the panel power-off sequence.
-/
namespace Sys2Proof.Machine

/-! ## The host interface (R42, R71) -/

/-- A ring number that no ring has: what waited for a ring that a reset took now waits for nothing. -/
def noRing : Nat := 65536

/-- An event ring after a reset: held events survive it (R441). -/
def resetEq (e : Eq) : Eq := { pend := e.pend, pendLost := e.pendLost }

/-- The rings of a function after a reset of its host interface (Table 4.1). -/
def resetRings (fn : Fn) (r : Rings) : Rings :=
  let b := 64 * fnIdx fn
  let r1 := { r with sqs := mclear b (b + 64) r.sqs, cqs := mclear b (b + 64) r.cqs }
  match fn with
  | .pf0 => { r1 with eq0 := resetEq r.eq0, rr0 := 0 }
  | .pf1 => { r1 with eq1 := resetEq r.eq1, t1 := {}, t2 := {}, rr1 := 0, traceWait := [] }

/-- Configuration space and the MSI-X table of a function after a reset (R66, R88, R440; PRESUMED 2). -/
def resetConfigSpace (fn : Fn) (h : Hif) : Hif :=
  let b := 256 * fnIdx fn
  let h1 := setCfg fn {} { h with unmasked := mclear b (b + 256) h.unmasked, pba := mclear b (b + 256) h.pba }
  match fn with
  | .pf0 => { h1 with bme0 := false, msixOn0 := false, fmask0 := false, d3hot := false, pmeEn := false, bar4Log2 := 28
                      wantFull := false, msixTable := [], rung := false }
  | .pf1 => { h1 with bme1 := false, msixOn1 := false, fmask1 := false, d3hot1 := false, pmeEn1 := false }

/-- A frame whose records are not posted any more: their ring is gone (R42). -/
def muteFrame (f : Frame) : Frame := { f with released := true, finished := true, pullError := true }

/-- Free every push slot, which ends any resync: a guarded one is cleared before its pages lose their protection (R112, R380,
R435). -/
def freeAllPush (s : State) : State :=
  let used := (s.ing.push.filter (fun p => p.2.used)).map Prod.fst
  let s1 := forAll used freeSlot s
  { s1 with ing := { s1.ing with push := [], pushNext := 0, pushFree := 0, resync := false } }

/-- Ingest at a reset of PF0's host interface (R42, R112): candidates are discarded, frames latched run on. -/
def resetIngest (s : State) : State :=
  let s1 := freeAllPush s
  { s1 with ing := { s1.ing with cands := [], owed := [], prev := s1.ing.prev.map muteFrame, shown := s1.ing.shown.map muteFrame
                                 coming := s1.ing.coming.map muteFrame, stale := 0, early := 0, misplaced := 0
                                 late := 0 } }

/-- Overrides are discarded (R166). -/
def dropOverrides (g : Gz) : Gz := { g with zones := mmap {} (fun _ z => { z with override := none }) g.zones, arms := [] }

/-- Configuration at a warm reset (R93, R431): every arm, stage slot and the setup set are discarded; RW fields take their
reset values and RWS ones, which SYS_GPIO_OUT alone holds among the live registers, stay. -/
def resetConf (c : Conf) : Conf := { c with setup := {}, slots := [], live := mkeep (fun off => off = 0x000020) c.live }

/-- What PF0's commands in progress still do: they run to their end, and their completions are not written (R42). -/
def orphanPf0 (s : State) : State :=
  let s1 := forAll (s.cue.updates.map Prod.fst) endUpdate s
  let arms := (s1.gng.arms.filter (fun a => a.kind ≠ 0)).map (fun a => { a with ring := a.ring.map (fun _ => noRing) })
  { s1 with gng := { s1.gng with arms }
            flt := { s1.flt with coming := s1.flt.coming.map (fun m => { m with ring := none }) }
            cal := { s1.cal with jobs := s1.cal.jobs.map (fun j => { j with ring := none })
                                 waiting := s1.cal.waiting.map (fun j => { j with ring := none }) } }

/-- The mode at a warm reset (R42): LIVE enters HOLD at the next FT; a HOLD that was to become LIVE stays. DESIGN CHOICE 34:
any other transition accepted before it stands. -/
def resetMode (s : State) : State :=
  if s.sys.mode = .live && s.sys.transit.isNone then beginTransit .hold false s
  else if s.sys.mode = .hold && s.sys.transit.any (fun t => t.target = .live) then { s with sys := { s.sys with transit := none } }
  else s

/-- A warm reset of PF0's host interface (R42, R431). -/
def warmReset (s : State) : State :=
  let s1 := stopTest (resetIngest (orphanPf0 s))
  resetMode { s1 with rings := resetRings .pf0 s1.rings, hif := resetConfigSpace .pf0 s1.hif, conf := resetConf s1.conf
                      sys := { s1.sys with lock := false }, gz := dropOverrides s1.gz, lin := { s1.lin with brackets := [] }
                      twl := { s1.twl with inject := none, injected := 0 }
                      pwr := { s1.pwr with ovpSeen := false }, mem := { s1.mem with watch := [] } }

/-- LIVE is left for HOLD at the next FT, with scan-out going on (R62, R69). -/
def leaveLive (s : State) : State :=
  if s.sys.mode = .live && s.sys.transit.isNone then lastScanKnown (beginTransit .hold false s) else s

/-- A reset of PF1 (R71, R379, R332, R386): SPDM sessions end, the debug token is revoked, the grant is 0, brackets are discarded,
and stores in progress run on unanswered. -/
def resetPf1 (s : State) : State :=
  let lin := { s.lin with brackets := [], store := s.lin.store.map (fun st => { st with serves := [] })
                          queued := s.lin.queued.map (fun l => l.map (fun n => if n = ownRequest then n else orphanRequest))
                          delayed := s.lin.delayed.map (fun _ => orphanRequest) }
  let s1 := revokeToken { s with rings := resetRings .pf1 s.rings, hif := resetConfigSpace .pf1 s.hif, lin
                                 sec := { s.sec with sessions := [] } }
  setLevel 0 { s1 with sec := { s1.sec with sources := 0 } }

/-! ## The die -/

/-- Module memory with only the pages that a predicate names: every other page is unwritten (R303). -/
def keepPages (kept : Nat → Bool) (m : Mem) : Mem :=
  { m with bytes := mkeep (fun a => kept (a / 4096)) m.bytes, written := mkeep kept m.written, poison := mkeep kept m.poison
           raw := mkeep kept m.raw, reported := mkeep kept m.reported, guarded := mkeep kept m.guarded }

/-- Module memory after self-refresh: the pages of the bitmap's copy in the system area (R303); the unit's registers reset. -/
def retainedMem (m : Mem) : Mem :=
  let k := keepPages (fun p => mget false m.stateCopy p) m
  { bytes := k.bytes, written := k.written, poison := k.poison, raw := k.raw, reported := k.reported, guarded := k.guarded
    stateCopy := m.stateCopy, retained := true }

/-- Regions of the RETENTION record in the SRAM; none where it is absent (R324, Table 14.4). -/
def retentionRegions (sram : SMap Byte) : List (Nat × Nat) :=
  match deviceRecord sram 0x0102 with
  | some d => (List.range (min 16 (fieldAt d 0 4))).map (fun i => (fieldAt d (4 + 8 * i) 4, fieldAt d (8 + 8 * i) 4))
  | none => []

/-- Does a region hold a page? -/
def inRegion (p : Nat) (r : Nat × Nat) : Bool := decide (r.1 ≤ p) && decide (p < r.1 + r.2)

/-- On a retained wake the regions that the recalled record names are restored; every other page comes back unwritten
(R303, R324). -/
def restoreRegions (s : State) : State :=
  if s.mem.retained then
    let l := retentionRegions s.lin.sram
    { s with mem := { keepPages (fun p => l.any (inRegion p)) s.mem with retainedPages := l } }
  else s

/-- Linen with its SRAM gone: banks, commit cells and bad pages stay (R318, R330). -/
def lostSram (l : Lin) : Lin :=
  { bank0 := l.bank0, bank1 := l.bank1, bad0 := l.bad0, bad1 := l.bad1, cell0 := l.cell0, cell1 := l.cell1, recent := l.recent
    worn0 := l.worn0, worn1 := l.worn1 }

/-- A bank while a store into it is cut off: pages 0 to n − 1 are new, page n fails its CRC, and the rest are old (R328). -/
def cutBank (image old : SMap Byte) (n : Nat) : SMap Byte :=
  mputAll 0 (image.filter (fun p => p.1 / 1024 < n)) (mkeep (fun k => !(decide (k / 1024 < n))) old)

/-- A store cut off by reset leaves the previous store whole (R328); how far the copy has come is a free value. -/
def cutStore (s : State) : State :=
  match s.lin.store with
  | some { image := some image, bank, serves := _ } =>
    let n := freeNow s % 1024
    let l := s.lin
    skipFree 1 { s with lin := if bank = 0 then { l with bank0 := cutBank image l.bank0 n, bad0 := [n] }
                               else { l with bank1 := cutBank image l.bank1 n, bad1 := [n] } }
  | _ => s

/-- The die after a reset that loses its power: power-on reset, the end of the fall, and the wake from DORMANT. Fuses, the
boot store, Linen's banks and the pins stay; module memory stays as far as self-refresh kept it (R298, R303, R383). DESIGN
CHOICE 37: the counts since power-on reset that lie in the die (PIX_LITE, COLLIDE, LMP_ERR) do not survive DORMANT. -/
def coldReset (s0 : State) : State :=
  let s := cutStore s0
  let keep := s.mem.retained
  { sys := { nextCause := s.sys.nextCause, cause := s.sys.cause, gpioPins := s.sys.gpioPins, vinLow := s.sys.vinLow }
    pwr := { vin := s.pwr.vin, inputOn := s.pwr.inputOn, ovpLatch := s.pwr.ovpLatch }
    hif := { perst := s.hif.perst, wakePin := s.hif.wakePin && s.sys.mode = .dormant }
    mem := if keep then retainedMem s.mem else {}
    cue := if keep then { buffers := s.cue.buffers } else {}
    tmg := { vioGood := s.tmg.vioGood }
    lin := lostSram s.lin
    sec := { fuses := s.sec.fuses, memoryKey := if keep then s.sec.memoryKey else none }
    trc := { enLow := s.trc.enLow, console := s.trc.console }
    bst := s.bst, out := s.out, free := s.free, pending := s.pending }

/-- The next BOOT's cause (R439). -/
def causeNext (c : BootCause) (s : State) : State := { s with sys := { s.sys with nextCause := c } }

/-- Rows switched in at die reset release (R315): those that the fuse map names, then the repair list's. -/
def switchRows (s : State) : State :=
  let d := (deviceRecord s.lin.sram 0x0104).getD []
  let macros := s.sec.fuses.rows.map Prod.fst ++ (List.range (min 500 (fieldAt d 0 4))).map (fun i => fieldAt d (4 + 4 * i) 2)
  { s with mem := { s.mem with sramUsed := macros.foldl (fun m k => mput 0 k (min 4 (mget 0 m k + 1)) m) [] } }

/-- The split of the zone columns after BOOT (R156, R395): pair 16 stands in the place of the first retired pair, and a
further retired pair leaves the rest to share. -/
def bootSplit (retired : List Nat) : List Nat :=
  match retired.filter (· < 16) with
  | [] => List.range 16
  | p :: ps => ((List.range 16).map (fun q => if q = p then 16 else q)).filter (fun q => !(ps.contains q) && !(retired.contains q))

/-- What the SPARES record brings back (R389, R400). -/
def recallSpares (s : State) : State :=
  match deviceRecord s.lin.sram 0x0105 with
  | none => s
  | some d =>
    let retired := fieldAt d 32 4 % 2 ^ 17
    let hk := fieldAt d 48 1 % 4
    let groups := (List.range 12).foldl (fun m g =>
      let l := fieldAt d (36 + g) 1
      if l = 0xFF then m else mput {} g { spareUsed := true, spareLane := l % 8 } m) []
    { s with
      flt := { s.flt with retired := bitList (fieldAt d 0 32) 200, solverRetired := BitVec.ofNat 17 retired
                          solverIdle := if retired = 0 then some 16 else none, hkOk := ~~~(BitVec.ofNat 2 hk)
                          solverSplit := bootSplit (bitList retired 17) }
      twl := { s.twl with groups } }

/-- Retention stands only with a TRAINING record in the recalled SRAM: without one BOOT trains fully, and memory comes up empty
(R45, R324). -/
def checkRetention (s : State) : State :=
  if s.mem.retained && (deviceRecord s.lin.sram 0x0103).isNone then
    { s with mem := {}, cue := { s.cue with buffers := [] }, sec := { s.sec with memoryKey := none } }
  else s

/-- BOOT begins (R44 step 1, R315, R330, R370, R379, R383, R389, R432, R439): Linen recall, the fields that come from the fuses
and SPARES, measurement slots at 0, a new nonce and, unless memory is retained, a new memory key. -/
def beginBoot (s : State) : State :=
  let s0 := checkRetention (recallLinen { s with
    sys := { s.sys with mode := .boot, transit := none, stage := .image, bootHeld := s.sys.vinLow, heldStep := none, brace := false
                        serving := false } })
  let cause := { s0.sys.nextCause with retained := s0.mem.retained }
  let s1 := assignStripes (recallSpares (switchRows (restoreRegions { s0 with sys := { s0.sys with cause, nextCause := {} } })))
  let key := if s1.mem.retained then s1.sec.memoryKey else some (freeNow s1)
  let s2 := skipFree 2 { s1 with sec := { s1.sec with slots := [], nonce := Config.freeValue (s1.free + 1) % 2 ^ 64
                                                      memoryKey := key } }
  traceLanes true (conBoot 1 (putOperating { s2 with lin := { s2.lin with boots := s2.lin.boots + 1 } }))

/-- Free every cue buffer. -/
def freeBuffers (s : State) : State := forAll (s.cue.buffers.map Prod.fst) dropBuffer s

/-- What a die reset does before the units' registers reset: a warm reset, the end of PF1's rings and of every stream, and
every cue buffer freed. -/
def stopUnits (s : State) : State :=
  freeBuffers (dropStreams (resetPf1 (warmReset { s with twl := { s.twl with testPort := none } })))

/-- Lose everything that the watchdog's die reset loses, beside what a warm reset of both functions does (R10, R42, R431):
frames, cues, drivers, trained ports, the wall, sessions and streams. The configuration in force, the FE, module memory
and every counter stay. Protected staging in module memory is released at the first FT after it (R380). -/
def dieReset (s : State) : State :=
  let s2 := clearPins (stopUnits s)
  { s2 with
    hif := { perst := s2.hif.perst, wakePin := s2.hif.wakePin }
    ing := { pushFe := s2.ing.pushFe, guards := s2.ing.guards }
    pix := { s2.pix with lines := [], late := none }
    lmp := { crcRet := s2.lmp.crcRet, echoMiss := s2.lmp.echoMiss }
    dmk := { dup := s2.dmk.dup }
    tmg := { s2.tmg with running := false, slot := 0, nextFt := none, latched := false, settled := false, fresh := true
                         balReq := false, balNext := false, partialNext := false, seamDue := false, seamOne := false, evPol := 15
                         gatePattern := none, gateLevels := BitVec.ofNat 24 (fget s2.conf TMG_GATE_IDLE_LEVEL) }
    pnl := { state := .off, dvm := s2.pnl.dvm }
    pwr := { s2.pwr with capFrac := {}, capDown := false, capSteps := 0 }
    twl := { pinEcho := s2.twl.pinEcho, rxCrc := s2.twl.rxCrc, linesLost := s2.twl.linesLost }
    cue := {}
    cal := { resid := s2.cal.resid, rejLanes := s2.cal.rejLanes }
    gng := {}
    flt := { mismatches := s2.flt.mismatches, transients := s2.flt.transients, takeovers := s2.flt.takeovers, holds := s2.flt.holds }
    sec := { s2.sec with keys := [], level := 0, sources := 0, pins := [] }
    trc := { enLow := s2.trc.enLow, console := s2.trc.console }
    lin := { lostSram s2.lin with deniedHost := s2.lin.deniedHost, deniedEngine := s2.lin.deniedEngine } }

/-- BOOT waits for VIN good before its first step (R41). -/
def awaitVin (s : State) : State :=
  { s with sys := { s.sys with mode := .boot, transit := none, stage := .unpowered, bootHeld := false, heldStep := none, brace := false
                               serving := false } }

/-- MODE_CHANGED on the way to BOOT (R40; log entry 29): no frame begins in BOOT, so that it carries the FE as it stands. -/
def bootEntered (old : Mode) (s : State) : State := post 0x0003 0 [modeNum old, modeNum .boot] s

/-- The die reset of a watchdog reset, and the BOOT after it (Table 2.4), at VIN good (R41). The checkers are gone until BOOT
assigns them, and the guarantee with them (R404). DESIGN CHOICE 29: a reset during BOOT posts MODE_CHANGED too, from BOOT to
BOOT. -/
def restartBoot (s : State) : State :=
  let s1 := updateGuarantee (dieReset s)
  bootEntered s.sys.mode (if s.sys.vinLow then awaitVin s1 else beginBoot s1)

/-- A watchdog reset in progress takes place once scan-out has stopped, the panel is off and the store that R326 makes has
committed; ticks run until then (R216). -/
def settleReset (s : State) : State :=
  if s.sys.transit.any (fun t => t.target = .boot && (1 ≤ t.step || !s.tmg.running)) && s.pnl.state = .off && s.lin.store.isNone
  then restartBoot s else s

/-- The die will be reset (Table 2.4, R101, R326, R399, R439): the fault record, the store, the power-off sequence at the next
FT, then BOOT. -/
def resetDie (reason : Nat) (s : State) : State :=
  let s1 := requestStore ownRequest (logFree 15 5 [reason] (causeNext { cause := 3, wdReason := reason } s))
  settleReset (beginTransit .boot false (if s1.sys.mode = .live then lastScanKnown s1 else s1))

/-- The die is out of reset, so that the fault unit watches the clocks and the pairs (R23, R396). -/
def dieRuns (s : State) : Bool := s.sys.mode ≠ .dormant && s.sys.stage ≠ .unpowered

/-- A watchdog reset, from a running mode or during BOOT (R10, Table 2.4). One already in progress stands, and in the fall none
is made. -/
def watchdog (reason : Nat) (s : State) : State :=
  if s.sys.transit.any (fun t => t.target = .boot) || !(dieRuns s) || s.pwr.fall ≠ .idle then s else resetDie reason s

/-! ## DORMANT (R43, R303) -/

/-- Runs of consecutive pages in an ascending list: first page and number. -/
def pageRuns : List Nat → List (Nat × Nat)
  | [] => []
  | p :: r => match pageRuns r with
    | (q, n) :: t => if p + 1 = q then (p, n + 1) :: t else (p, 1) :: (q, n) :: t
    | [] => [(p, 1)]

/-- The cue region and the map region in force: first page and pages. -/
def cueRegion (c : Conf) : Nat × Nat := (fget c CUE_REGION_BASE_BASE, fget c CUE_REGION_PAGES_PAGES)
def mapRegion (c : Conf) : Nat × Nat := (fget c DMK_MAP_BASE_BASE, (9 * tW c * tH c + 4095) / 4096)

/-- The regions that hold valid contents (R43 step 6): the cue region with buffers loaded, the map region with the map loaded,
then the runs of other written pages; at most 16 (Table 14.4). Which regions to name is the model's choice. -/
def retainable (s : State) : List (Nat × Nat) :=
  let named := (if s.cue.buffers.isEmpty then [] else [cueRegion s.conf]) ++ (if s.dmk.loaded then [mapRegion s.conf] else [])
  (named ++ pageRuns ((s.mem.written.map Prod.fst).filter (fun p => !(named.any (inRegion p))))).take 16

/-- Payload of RETENTION (Table 14.4). -/
def retentionPayload (l : List (Nat × Nat)) : Bytes := toLE 4 l.length ++ l.flatMap (fun r => toLE 4 r.1 ++ toLE 4 r.2)

/-- An event ring whose pending store is emptied (R441). -/
def emptyPend (e : Eq) : Eq := { e with pend := [], pendLost := 0 }

/-- Empty both pending stores (R441). -/
def emptyPends (s : State) : State := { s with rings := { s.rings with eq0 := emptyPend s.rings.eq0, eq1 := emptyPend s.rings.eq1 } }

/-- The link carries nothing: SPEED, WIDTH, FLIT and L0P_WIDTH read 0, while DEGRADED and BAD_LANES keep what the last training
gave (Table 3.6; DESIGN CHOICE 48). -/
def linkOff (h : Hif) : Hif := { h with power := .down, speed := 0, width := 0, flit := false, l0pWidth := 0 }

/-- Steps 6 and 7 of the entry to DORMANT (R43, R40, R71, R303, R441): the bitmap bits of the regions that the record names go
into the system area. -/
def fallAsleep (retain : Bool) (s : State) : State :=
  let s1 := traceLanes false (clearPins (emptyPends (dropStreams (post 0x0003 0 [modeNum s.sys.mode, 0] s))))
  { s1 with
    sys := { s1.sys with mode := .dormant, transit := none, serving := false, brace := false }
    hif := linkOff s1.hif
    tmg := { s1.tmg with running := false }
    mem := { s1.mem with
      retained := retain
      stateCopy := if retain then mkeep (fun p => (retentionRegions s1.lin.sram).any (inRegion p)) s1.mem.written else [] } }

/-- The entry to DORMANT ends once its store has ended. -/
def settleDormant (s : State) : State :=
  match s.sys.transit with
  | some t =>
    if t.target = .dormant && t.step = 2 && s.lin.store.isNone && s.lin.queued.isNone then fallAsleep t.retain s else s
  | none => s

/-- Steps 3 to 5 of the entry to DORMANT (R43, R93, R166, R332, R379): the links are off, and the store is requested; it
holds the retention record of step 6, which is written here because only a store keeps it. -/
def enterDormant (t : Transit) (s : State) : State :=
  let s1 := dropBrackets (revokeToken s)
  let s2 := { s1 with
    sys := { s1.sys with transit := some { t with step := 2 } }
    twl := { s1.twl with ports := [], training := false, testPort := none, runs := [], restarted := none
                         groups := mmap {} (fun _ g =>
                           { spareUsed := g.spareUsed, spareLane := g.spareLane, laneSpare := g.laneSpare, pending := g.pending }) s1.twl.groups }
    lmp := { s1.lmp with waits := [], probing := [], unechoed := [] }
    gng := {}, gz := dropOverrides s1.gz, conf := { s1.conf with setup := {}, slots := [] } }
  settleDormant (requestStore ownRequest (writeDevice 0x0102 (retentionPayload (if t.retain then retainable s2 else [])) s2))

/-- DORMANT_ENTRY (R43): scan-out has stopped and the panel is off. -/
def execDormantEntry (s : State) : Answer :=
  .next (match s.sys.transit with
  | some t => if t.target = .dormant && t.step = 1 && s.pnl.state = .off && s.pwr.fall = .idle then enterDormant t s else s
  | none => s)


/-- LINEN_STORE_COMMIT (R325, R326, R328): a watchdog reset or an entry to DORMANT that waits for it goes on. -/
def execLinenStoreCommit (us : Nat) (failedPage : Option Nat) (s : State) : Answer :=
  .next (settleDormant (settleReset (commitStore us failedPage s)))

/-- DISCHARGE_PERIOD_END (R232 item 2). -/
def execDischargePeriodEnd (s : State) : Answer := .next (settleReset (endDischarge s))

/-- PANEL_ENABLE_RELEASE (R232 item 3). -/
def execPanelEnableRelease (s : State) : Answer := .next (settleReset (releaseEnable s))

/-- A pair halts: the other takes over, or the watchdog resets the block (R396). Causes: 0 lockstep, 1 machine check. The pairs
run the boot ROM and the recovery monitor too. -/
def hkFault (pair cause : Nat) (s : State) : State :=
  if !(s.flt.hkOk.getLsbD pair) then s
  else
    let f := { s.flt with hkOk := s.flt.hkOk &&& ~~~(BitVec.ofNat 2 (2 ^ pair)), hkCause := aput pair (cause, s.sys.fe, s.lin.seconds) s.flt.hkCause }
    if f.hkOk = 0 then watchdog 1 (logFault 3 5 pair [cause] { s with flt := f })
    else { s with flt := { f with takeovers := satAdd 0xFF f.takeovers 1 } }

/-- The pair that serves takes a machine check (Table 13.4 row 7, R396). -/
def machineCheck (s : State) : State := hkFault (if s.flt.hkOk.getLsbD 0 then 0 else 1) 1 s

/-- The firmware reads a cue list: a poisoned page of it is an uncorrectable read of the pair's, which takes a machine check
(R306, Table 13.4 row 7). DESIGN CHOICE 154: once for each time that the list is consulted; the data is taken as it stands. -/
def listCheck (l : Nat) (s : State) : State :=
  match bufferOf s l with
  | some u => match (pagesOf (4096 * u.page) (stepOff (listSteps s l))).find? (isPoisoned s) with
    | some p => machineCheck (uncorrectable p 7 s)
    | none => s
  | none => s

end Sys2Proof.Machine
end

