-- ==== Sys2Proof/Machine/Tick.lean ====
section
/-!
DEFINITION. What happens at a line tick (chapters 2, 5, 10, 11, 12): polarity and DC balance (R220 to R223), gate patterns
(R227, R228), line packets and pin-echo (R240 to R245, R265), events (R217 to R219, R35), Twill quiet (R262, R263), latch
and step points and the start LT (R215, R283), and the commands LINE_TICK and SETTLE_POINT.
-/
namespace Sys2Proof.Machine

/-! ## Polarity and DC balance (R220, R222) -/

def dcBand (s : State) (k : Nat) : DcBand := mget {} s.tmg.bands k

/-- Does polarity phase `pi` drive the accumulator further from 0 (R220)? -/
def drivesFurther (pi : Bool) (b : DcBand) : Bool :=
  decide (0 < b.mean) && (if pi then decide (b.acc ≤ 0) else decide (0 ≤ b.acc))

/-- |A| has reached LIMIT (R220). -/
def atLimit (c : Conf) (b : DcBand) : Bool := decide (fget c TMG_DC_LIMIT * 65536 ≤ b.acc.natAbs)

/-- A slip applies at the FT (R220). -/
def slips (c : Conf) (b : DcBand) : Bool := fbit c TMG_DC_EN && atLimit c b && drivesFurther (!b.pi) b

/-- A balance request of a band at an LT (R220). -/
def wantsBalance (c : Conf) (b : DcBand) : Bool :=
  fbit c TMG_DC_EN && !(tFixed c) && atLimit c b && drivesFurther b.pi b

/-- A at an LT (R220): saturating at ±(2^39 − 1). -/
def stepAcc (b : DcBand) : DcBand :=
  { b with acc := clampI (1 - 2 ^ 39) (2 ^ 39 - 1) (b.acc + (if b.pi then -(b.mean : Int) else (b.mean : Int))) }

/-- A of every band at an LT, and the balance request that it raises. -/
def accLt (s : State) : State :=
  let bands := mmap {} (fun _ b => stepAcc b) s.tmg.bands
  let due := hasTiming s.conf && (List.range 64).any (fun k => wantsBalance s.conf (mget {} bands k))
  { s with tmg := { s.tmg with bands, balReq := s.tmg.balReq || due } }

/-- m of the band whose last emission slot ends at this LT (R220). -/
def bandMean (s : State) : State :=
  match (List.range 64).find? (fun k => s.tmg.slot = tVstart s.conf + bandTop s.conf (k + 1)) with
  | some k =>
    let b := dcBand s k
    if hasTiming s.conf && s.tmg.scanned.getLsbD k && 0 < b.count then
      { s with tmg := { s.tmg with bands := mput {} k { b with mean := b.sum / b.count, sum := 0, count := 0 } s.tmg.bands } }
    else s
  | none => s

/-- Line polarity P(y) (R222, Table 10.5). -/
def linePol (s : State) (y : Nat) : Bool :=
  let m := fget s.conf TMG_INV_MODE
  let r := if m = 1 then decide (y / max 1 (fget s.conf TMG_INV_ROW_N) % 2 = 1)
    else if m = 3 then decide (y % 2 = 1)
    else if m = 4 then decide (y / 2 % 2 = 1) else false
  xor (dcBand s (bandOfLine s.conf y)).pi r

/-! ## Gate patterns (R227, R228) -/

/-- The panel line whose emission slot a slot is. -/
def lineOfSlot (c : Conf) (j : Nat) : Option Nat :=
  if hasTiming c && tVstart c ≤ j && j < tVstart c + tH c then some (j - tVstart c) else none

/-- A line is scanned by the refresh in progress, which emits it (R224, R226, R232). -/
def emits (s : State) (y : Nat) : Bool :=
  !s.tmg.blind && s.pnl.state = .on && s.tmg.scanned.getLsbD (bandOfLine s.conf y)

/-- The pattern that the slot in progress runs; none holds the idle levels (R228). -/
def patternOf (s : State) : Option Nat :=
  let c := s.conf
  let j := s.tmg.slot
  if s.pnl.discharging then some (fget c TMG_GATE_MAP_DISCH_P)
  else if s.pnl.state ≠ .on || !(hasTiming c) then none
  else match lineOfSlot c j with
    | some y =>
      let base := if emits s y then fget c TMG_GATE_MAP_ACT_BASE else fget c TMG_GATE_MAP_SKIP_BASE
      some (base + y % (fget c TMG_GATE_MAP_CYCLE + 1))
    | none =>
      if j < fget c TMG_VERT_VSYNC then some (fget c TMG_GATE_MAP_VSYNC_P)
      else if j < tVstart c then some (fget c TMG_GATE_MAP_VBP_P)
      else if j < tVtotal c then some (fget c TMG_GATE_MAP_VFP_P)
      else some (fget c TMG_GATE_MAP_STRETCH_P)

/-- Levels of the gate outputs after a pattern has run from given levels (R227). -/
def runPattern (c : Conf) (p : Nat) (levels : BitVec 24) : BitVec 24 :=
  BitVec.ofNat 24 (ofBits ((List.range 24).filter (fun o =>
    match (gateEdges c p o 64 0).getLast? with
    | some e => e.2
    | none => levels.getLsbD o)))

/-- Edges of a pattern: output, offset in the slot, level (R227). -/
def patternEdges (c : Conf) (p : Nat) : List (Nat × Nat × Bool) :=
  (List.range 24).flatMap (fun o => (gateEdges c p o 64 0).map (fun e => (o, e.1, e.2)))

/-- Every gate output holds its idle level (R228). -/
def idleGates (s : State) : State :=
  { s with tmg := { s.tmg with gatePattern := none, gateLevels := BitVec.ofNat 24 (fget s.conf TMG_GATE_IDLE_LEVEL) } }

/-- The gate outputs in the slot in progress: its pattern runs, and its edges leave where the supply is valid (R227, R228,
R421). -/
def runGates (s : State) : State :=
  match patternOf s with
  | some k =>
    let s1 := { s with tmg := { s.tmg with gatePattern := some k, gateLevels := runPattern s.conf k s.tmg.gateLevels } }
    if s.tmg.vioGood then emit [.gateRun k (patternEdges s.conf k)] s1 else s1
  | none => idleGates s

/-! ## Packets (R240 to R245) and overdrive history (R18) -/

/-- Header fields in force for a line (Table 11.3). -/
def lineHead (s : State) (y : Nat) (subst : Bool) : PacketHead :=
  { line := y, fe := s.sys.fe, pol := linePol s y, inv := fget s.conf TMG_INV_MODE, lsOffset := fget s.conf TMG_HORIZ_LS_OFFSET
    pack := fget s.conf TWL_CTRL_PACK, subst, first := s.tmg.firstLine }

/-- Does a packet of a port hold a code of a substitute (SUBST, Table 11.3)? -/
def portSubst (c : Conf) (p : PortCfg) (b : LineBuf) : Bool :=
  b.subst.any (fun k => let (x, w) := stripe c k; decide (x < p.x0 + p.ncol) && decide (p.x0 < x + w))

/-- A line's slot at a port: the packet, or a slot lost while the port trains in service (R245, R261). -/
def portLine (y : Nat) (b : LineBuf) (p : Nat × PortCfg) (s : State) : State :=
  let q := portAt s p.1
  let lost := { s with twl := { s.twl with linesLost := satAdd 0xFFFFFFFF s.twl.linesLost 1 } }
  match q.state with
  | .active => sendPacket p.1 p.2 (packetBytes (lineHead s y (portSubst s.conf p.2 b)) (colPar p.2) (codeBits s.conf) (portCodes p.2 b.codes)) s
  | .phase _ => if q.initial then s else lost
  | .backoff => if q.initial then s else lost
  | _ => s

/-- Ports that carry a line's packets now. -/
def sendingPorts (s : State) : List (Nat × PortCfg) := (enabledPorts s.conf).filter (fun p => (portAt s p.1).state = .active)

/-- Does a column go out on Twill (R18)? -/
def columnSent (l : List (Nat × PortCfg)) (x : Nat) : Bool :=
  l.any (fun p => decide (p.2.x0 ≤ x) && decide (x < p.2.x0 + p.2.ncol))

/-- Bytes of a line's history: the codes sent on Twill, or those that stand (R18, R198, Table 6.8). -/
def historyBytes (s : State) (y : Nat) (b : LineBuf) : Bytes :=
  let l := sendingPorts s
  (List.range (tW s.conf)).flatMap (fun x =>
    let old (ch : Nat) : Nat := histCode s.conf s.mem x y ch
    let v (ch : Nat) : Nat := if columnSent l x then ((b.newHist[3 * x + ch]?.getD none)).getD (old ch) else old ch
    histPixel s.conf (v 0) (v 1) (v 2))

/-- Write a line's history, when any of it is emitted; the rewrite repairs a page whose read was uncorrectable (R18, R201,
R306). -/
def writeHistory (y : Nat) (b : LineBuf) (s : State) : State :=
  if (sendingPorts s).isEmpty then s
  else
    let a := histAddr s.conf 0 y
    let d := historyBytes s y b
    writeMem a d (repairPages (pagesOf a d.length) s)

/-- Count a line's codes for the band's mean (R220). -/
def countCodes (y : Nat) (b : LineBuf) (s : State) : State :=
  let k := bandOfLine s.conf y
  let d := dcBand s k
  { s with tmg := { s.tmg with bands := mput {} k { d with sum := d.sum + b.codes.sum, count := d.count + b.codes.length } s.tmg.bands
                               firstLine := false } }

/-- A discharge packet on every ACTIVE port (R245, R250). -/
def sendDischarge (s : State) : State :=
  let h : PacketHead := { lineHead s 0 false with line := 0x3FFF, pol := false, discharge := true, first := false }
  forAll (sendingPorts s) (fun p s =>
    sendPacket p.1 p.2 (packetBytes h 0 (codeBits s.conf) []) s) s

/-- Groups that have an ACTIVE port. -/
def activeGroups (s : State) : List Nat :=
  (((s.twl.ports.filter (fun p => p.2.state = .active)).filterMap (fun p => portCfg s.conf p.1)).map PortCfg.group).eraseDups

/-- DSK opens the slot on every lane of a group with an ACTIVE port but one that sends a test pattern, and IDLE follows it (R240,
R266); lanes that quiet had stopped take it up (R263). -/
def dskGroup (g : Nat) (s : State) : State :=
  let s1 := forAll ((groupLanes g).filter (fun l => mget .off s.twl.runs l = .off)) (fun l => setRun l .slots) s
  emit [.twillDsk ((groupLanes g).filter (fun l => !(inPattern s1 l))) dsk idlePair] s1

/-- The slot's DSK in every group with an ACTIVE port; one whose quiet has just ended sends it from the next LT (R240, R263). -/
def sendDsk (s : State) : State :=
  if s.tmg.running then
    forAll ((activeGroups s).filter (fun g => !(groupAt s g).restarting)) dskGroup
      { s with twl := { s.twl with runs := mmap .off (fun _ r => if r = .spaced then .slots else r) s.twl.runs } }
  else s

/-- A new slot begins for the groups whose quiet ended in the one before. -/
def dskFromHere (t : Twl) : Twl := { t with groups := mmap {} (fun _ g => { g with restarting := false }) t.groups }

/-- What the slot in progress emits (R240, R245). -/
def emitSlot (s : State) : State :=
  let s := sendDsk { s with twl := { s.twl with handed := [] } }
  if s.pnl.discharging then sendDischarge s
  else match lineOfSlot s.conf s.tmg.slot with
    | some y =>
      if emits s y then
        let b := mget {} s.pix.lines y
        let s1 := countCodes y b (writeHistory y b (forAll (enabledPorts s.conf) (portLine y b) s))
        { s1 with pix := { s1.pix with lines := mput {} y {} s1.pix.lines } }
      else s
    | none => s

/-- LINE of the packets that the slot in progress sends: a panel line, or a discharge packet's (R245, R265). -/
def packetLine (s : State) : Option Nat :=
  if s.pnl.discharging then some 0x3FFF
  else (lineOfSlot s.conf s.tmg.slot).filter (fun y => emits s y)

/-- Lanes whose packet's CRC over the levels at the pins differs from that over the levels handed to the serializer (R265): a
command's pairs are global lanes and the CRCs of what their pins showed. -/
def echoDiffers (s : State) (echo : List (Nat × Nat)) : List Nat :=
  (echo.filter (fun p => mget [] s.twl.handed p.1 ≠ [] && levelsCrc (mget [] s.twl.handed p.1) ≠ p.2)).map Prod.fst

/-- Pin-echo mismatches of the slot that ends (R265, R398). -/
def echoSlot (echo : List (Nat × Nat)) (s : State) : State :=
  match packetLine s with
  | some y =>
      forAll (echoDiffers s echo) (fun lane s =>
        let (n, first) := mget (0, y) s.twl.echoLines lane
        let (m, l0, y0) := s.twl.echoFrame.getD (0, lane, y)
        let twl := { s.twl with pinEcho := satAdd 0xFFFF s.twl.pinEcho 1, echoFrame := some (m + 1, l0, y0)
                                echoLines := aput lane (n + 1, first) s.twl.echoLines }
        let s1 := { s with twl }
        if n + 1 = fget s.conf FLT_POLICY_PE_LINES then laneFault lane (n + 1) first s1 else s1) s
  | none => s

/-! ## The engines' side of a slot (R102, R117, R159) -/

/-- The line that the engines begin in the slot in progress, when this frame works on it (R224, R226). -/
def engineLineNow (s : State) : Option Nat :=
  let c := s.conf
  let j := s.tmg.slot + tLead c
  if hasTiming c && tVstart c ≤ j && j < tVstart c + tH c then
    let y := j - tVstart c
    if s.tmg.blind || s.tmg.scanned.getLsbD (bandOfLine c y) then some y else none
  else none

/-- Rows of a layer that its row y of the panel reads (R131). -/
def sourceRows (l : Layer) (y : Nat) : List Nat :=
  let f := scaleOf l
  let k := (y - l.dstY) / f
  if l.scale % 2 = 1 || f = 1 then [k]
  else
    let (u0, _, u2) := bilinear f ((y - l.dstY) % f)
    (if u0 = 0 then [] else [k - 1]) ++ [k] ++ (if u2 = 0 then [] else [min (k + 1) (l.height - 1)])

/-- Pages of module memory that one row of a SOURCE 2 layer lies in. -/
def rowPages (l : Layer) (r : Nat) : List Nat :=
  pagesOf (l.addr0 + r * l.pitch0) (rowBytes l) ++ (if l.format = 4 then pagesOf (l.addr1 + r / 2 * l.pitch1) (2 * l.width) else [])

/-- Pages that the engines read for a line, with their requester (Table 13.4): SOURCE 2 layers, the map, the history. -/
def linePages (s : State) (f : Frame) (y : Nat) : List (Nat × Nat) :=
  let c := s.conf
  let read (l : Layer) : Bool := l.source = 2 && !l.transparent && l.dstY ≤ y && y < l.dstY + scaleOf l * l.height
  let layers := match lineContent f y with
    | some ct => ct.layers ++ (match ct.mix with | some m => m.old.take (4 - ct.layers.length) | none => [])
    | none => []
  let of (q : Nat) (l : List Nat) : List (Nat × Nat) := l.eraseDups.map (fun p => (p, q))
  of 3 ((layers.filter read).flatMap (fun l => (sourceRows l y).flatMap (rowPages l)))
    ++ (if fbit c DMK_CTRL_MAP_EN && s.dmk.inForce then of 4 (pagesOf (mapAddr c 0 y 0) (9 * tW c)) else [])
    ++ of 5 (pagesOf (histAddr c 0 y) (histBytes c * tW c))

/-- The engines' reads of poisoned pages for a line: each is an uncorrectable decode, counted once for the line (R305, R306). -/
def engineReads (f : Frame) (y : Nat) (s : State) : State :=
  if noneBad s.mem then s
  else forAll ((linePages s f y).filter (fun p => isPoisoned s p.1)) (fun p => uncorrectable p.1 p.2) s

/-- Zone rows whose zone-row tick has come commit (R160). -/
def zoneTicks (s : State) : State :=
  if gauzeOn s then
    match ((List.range (gRows s.conf)).filter (fun i => zoneTick s.conf i ≤ s.tmg.slot)).getLast? with
    | some i => forceUpTo i (gRows s.conf) s
    | none => s
  else s

/-- The end of the slot in progress: band deadlines and zone-row ticks that no command has brought, then the engines'
line. -/
def endSlot (s : State) : State :=
  let s1 := match s.ing.shown with
    | some f => beginReads (forAll (bandsDue s f) judgeDue s)
    | none => s
  let s2 := zoneTicks s1
  match engineLineNow s2, s2.ing.shown with
  | some y, some f => runEngines f y (engineReads f y s2)
  | _, _ => s2

/-! ## Events (R35, R217 to R219) -/

/-- Line matches of the slot that begins. -/
def lineMatches (s : State) : State :=
  forAll ((List.range 4).filter (fun k => lbit s.conf (TMG_LMATCH_EN k) && lget s.conf (TMG_LMATCH_SLOT k) = s.tmg.slot)) (fun k s =>
    let s1 := if lbit s.conf (TMG_LMATCH_PIN k) then pulsePins [1] s else s
    postIf (lbit s.conf (TMG_LMATCH_RING k)) 0x0903 0 [k, s.tmg.slot] s1) s

/-- TWILL_PIN_ECHO, at most once per frame (R265): mismatches after the active scan, in discharge packets, are reported at the
frame's end where none was before. -/
def postEcho (s : State) : State :=
  match s.twl.echoFrame with
  | some (n, lane, line) =>
    if s.twl.echoPosted then s else post 0x0B04 3 [n, lane, line] { s with twl := { s.twl with echoPosted := true } }
  | none => s

/-- Events of the frame that R35, R265 and Table 2.1 give, once its active scan has ended. -/
def frameEvents (s : State) : State :=
  let s1 := postIf (0 < s.ing.underruns) 0x0301 1 [s.ing.underruns, s.ing.firstUnder] s
  let s2 := match s1.pix.late with
    | some (n, line, k) => post 0x0401 1 [n, line, k] s1
    | none => s1
  let s3 := postIf (0 < s2.gz.forced) 0x0501 1 [s2.gz.forced, s2.gz.firstForced] s2
  postEcho s3

/-- HOLD_UPDATE_SHOWN for the updates whose every band this refresh has scanned (R275). -/
def updatesShown (s : State) : State :=
  let done := s.cue.shownDue.filter (fun p => p.1 = 0)
  let bandsIn (b : BitVec 64) : List Nat := (List.range 64).filter (fun k => b.getLsbD k)
  forAll done (fun p s => post 0x0C05 0 [(bandsIn p.2).headD 0, (bandsIn p.2).getLastD 0, b2n s.tmg.isPartial] s)
    { s with cue := { s.cue with shownDue := s.cue.shownDue.filter (fun p => p.1 ≠ 0) } }

/-- Count a frame that was scanned with step 10 passing through in every line (R200, OD_COUNTS.OFF_FRAMES). -/
def countOff (s : State) : State :=
  let c := s.conf
  let off := match s.ing.shown with
    | some f => ((List.range (tH c)).filter (fun y => s.tmg.scanned.getLsbD (bandOfLine c y))).all (odOff s f)
    | none => odWholeOff s
  if off && !s.tmg.blind then { s with od := { s.od with offFrames := satAdd 0xFFFF s.od.offFrames 1 } } else s

/-- The active scan ends (Table 10.4, R101, R112, R200, R269, R391). -/
def scanEnd (checkers : List CheckerView) (s : State) : State :=
  let seen := !s.tmg.blind && s.pnl.state = .on
  let s := countOff s
  let s0 := if seen then { s with ing := { s.ing with shown := s.ing.shown.map (fun f => { f with onPanel := true }) } } else s
  let s1 := postDone (checkersSaw checkers (frameEvents s0))
  let s2 := pulsePins [0] (postIf (lbit s1.conf TMG_EVENTS_SOB_RING) 0x0902 0 [s1.tmg.slot] s1)
  let flags := b2n s2.tmg.balancing + 2 * b2n s2.od.settle + 4 * b2n s2.tmg.blind + 8 * b2n s2.tmg.isPartial
  let scans := match s2.ing.shown with | some f => f.scans | none => 0
  updatesShown (discardOld (pulsePins [2] (postIf (lbit s2.conf TMG_EVENTS_DONE_RING) 0x0904 0 [scans, flags] s2)))

/-! ## Twill quiet (R262, R263) -/

/-- Fine units, 1/4096 timing clocks, in a number of µs. -/
def fineUs (us : Nat) : Nat := us * 2000 * 4096

/-- Fewest slots that cover a span in fine units. -/
def slotsFor (c : Conf) (fine : Nat) : Nat := (fine + tPeriod c - 1) / max 1 (tPeriod c)

/-- I of R271, in fine units. -/
def holdFine (c : Conf) : Nat := max (fineUs (fget c CUE_HOLD_INTERVAL_US)) (tVtotal c * tPeriod c)

/-- Slot of the FT that R271 schedules: the first LT at or after T + I. -/
def holdSlot (s : State) : Nat := slotsFor s.conf (holdFine s.conf - 4096 * s.tmg.sinceFull)

/-- Slot at which quiet ends, as the schedule stands (R263): dirty bands and a balance request start the next refresh at its
decision slot (R215, R275). -/
def quietEnd (s : State) : Nat :=
  let c := s.conf
  if tFixed c then tFixLines c + tVstart c - slotsFor c (fineUs 40)
  else if s.cue.dirty ≠ 0 || s.tmg.balReq then decisionSlot c
  else max (decisionSlot c) (holdSlot s - tLead c - tVfp c)

/-- Slot after the emission slot of the last line that this refresh scans. -/
def lastEmission (s : State) : Nat :=
  match ((List.range 64).filter (fun k => s.tmg.scanned.getLsbD k)).getLast? with
  | some k => tVstart s.conf + bandTop s.conf (k + 1)
  | none => tVstart s.conf

/-- Make one group quiet: QUIET, a broadcast, on its back-channel, which then stays silent; its ACTIVE ports QUIET (R262). -/
def quietGroup (g : Nat) (s : State) : State :=
  let gr := { groupAt s g with quiet := true, stopDue := true, wire := none, queue := [] }
  forAll ((enabledPorts s.conf).filter (fun p => p.2.group = g)) (fun p s =>
    let q := portAt s p.1
    setPort p.1 { q with wait := none, state := if q.state = .active then .quiet else q.state } s)
    (emit [.backchannel g (bcWire (bcBody 15 0x0B []))] (setGroup g gr s))

/-- Groups become quiet at the LT after the last line scanned (R262). -/
def enterQuiet (s : State) : State :=
  let c := s.conf
  let long := fget c TWL_QUIET_MIN_US * 2000 * 4096 < (quietEnd s - lastEmission s) * tPeriod c
  if s.sys.mode = .hold && s.sys.transit.isNone && fbit c TWL_QUIET_EN && hasTiming c && s.tmg.slot = lastEmission s
      && s.tmg.nextFt.all (fun _ => tFixed c) && !s.tmg.blind && s.pnl.state = .on && long then
    let ports (g : Nat) := (enabledPorts c).filter (fun p => p.2.group = g)
    forAll ((List.range 12).filter (fun g => !(ports g).isEmpty
      && (ports g).all (fun p => (portAt s p.1).state = .active || (portAt s p.1).state = .failed))) quietGroup s
  else s

/-- At the LT after the broadcast the references and lanes of quiet groups stop (R262). -/
def stopQuiet (s : State) : State :=
  forAll ((s.twl.groups.filter (fun p => p.2.stopDue)).map Prod.fst) stopReference s

/-- Quiet of a fixed timing ends at the last LT that lies 40 µs before line 0 of the next frame (R263); where the blanking
before line 0 is longer than that, that LT belongs to the next frame. -/
def fixedQuietEnd (s : State) : State :=
  let e := quietEnd s
  if tFixed s.conf && hasTiming s.conf && (s.tmg.slot = e || s.tmg.slot + tFixLines s.conf = e) then endQuiet s else s

/-! ## Start LT, latch point and step point (R100, R215, R283) -/

/-- A transition to DORMANT or, by a watchdog reset, to BOOT is in progress (R215). -/
def stopping (s : State) : Bool := s.sys.transit.any (fun t => t.target = .dormant || t.target = .boot)

/-- The frame to come is one of a cue, or begins or ends one: the start LT is a step point (R283, R287). -/
def cueTurn (s : State) : Bool :=
  s.sys.transit.isNone && (s.sys.mode = .cue || ((s.sys.mode = .live || s.sys.mode = .hold) && (match s.cue.arm with
    | some (.start fe _ _) => decide (fe ≤ nextFe s)
    | _ => false)))

/-- Slot of the FT that CUE schedules next (R284). -/
def cueSlot (s : State) : Nat :=
  let us := match s.cue.run with
    | some r => (match r.step with | some n => stepInterval s r.list n | none => 0)
    | none => 0
  max (tVtotal s.conf) (usSlots s.conf us)

/-- The FT that R271 or R284 schedules is due at the start LT in progress (R215). -/
def scheduleDue (s : State) : Bool :=
  let n := s.tmg.slot + tLead s.conf + tVfp s.conf
  match s.sys.mode with
  | .hold | .service => decide (holdSlot s ≤ n)
  | .cue => decide (cueSlot s ≤ n) || s.cue.run.any (watchHolds s)
  | _ => false

/-- Dirty bands ask for a refresh (R275). -/
def dirtyDue (s : State) : Bool := s.sys.mode = .hold && s.cue.dirty ≠ 0

/-- The conditions of R215 other than a balance request and the settle point. -/
def otherTrigger (s : State) : Bool :=
  (latching s && anyLatchable s) || scheduleDue s || dirtyDue s
  || (s.sys.mode = .live && tMax s.conf ≤ s.tmg.slot + tLead s.conf + tVfp s.conf)

/-- The LT in progress is the start LT of a variable timing whose markers this tile makes itself. -/
def startsHere (s : State) : Bool :=
  decide (decisionSlot s.conf ≤ s.tmg.slot) && (stopping s || otherTrigger s || s.tmg.balReq)

/-- The mode that holds from the next FT on. -/
def modeNext (s : State) : Mode :=
  match s.sys.transit with
  | some t => if t.target = .dormant || t.target = .boot then s.sys.mode else t.target
  | none => match s.cue.coming with
    | some r => r.ending.getD .cue
    | none => s.sys.mode

/-- Predicted dwell of the frame to come, in µs, and HINT (R206, R272, R284). `full` tells whether it is a full refresh. -/
def predict206 (full : Bool) (s : State) : Nat × Bool :=
  let c := comingConf s
  let cap (n : Nat) : Nat := min n 0xFFFFF
  let fixed := slotsUs c (tFixLines c)
  if !(hasTiming c) then (0, false)
  else match modeNext s with
    | .live =>
      if tFixed c then (cap fixed, false)
      else
        let hint := match s.ing.coming with | some f => f.dwellHint | none => 0
        let mean := (s.od.intervals.sum + 4) / 8
        (cap (max (slotsUs c (tVtotal c)) (min (slotsUs c (tMax c)) (if hint ≠ 0 then hint else mean))), decide (hint ≠ 0))
    | .cue =>
      let us := match s.cue.coming with
        | some r => (match r.step with | some n => stepInterval s r.list n | none => tminUs c)
        | none => tminUs c
      (cap (if tFixed c then fixed else us), false)
    | _ =>
      let i := max (fget c CUE_HOLD_INTERVAL_US) (tminUs c)
      let gone := s.tmg.sinceFull / 2000 + slotsUs s.conf (s.tmg.nextFt.getD 0)
      (cap (if tFixed c then fixed else if full then i else i - gone), false)

/-- Statistics rows open for the frame to come (R147); its passes, histograms, deliveries and halo values start from nothing. -/
def openRows (s : State) : State :=
  let g := s.gz
  let gz := { g with openFe := nextFe s, opened := true, merges := [], merged := [], progress := [], scratch := [], delivered := [], targets := [], bank := []
                     haloTargetPrev := g.haloTarget, haloTarget := [] }
  { s with gz }

/-- The panel power-on sequence begins with the first descriptor latched after setup lock (R226). -/
def wantPanel (s : State) : State :=
  if s.ing.coming.any Frame.host && s.sys.lock && !s.pnl.wanted then
    let s1 := { s with pnl := { s.pnl with wanted := true } }
    if s1.pnl.state = .off then beginPowerOn s1 else s1
  else s

/-- A latch point is passed: the frame to come is the one that push headers name (R110), and a transition to LIVE has met it
(R101, R276). -/
def markLatch (s : State) : State :=
  { s with ing := { s.ing with pushFe := nextFe s }
           sys := { s.sys with transit := s.sys.transit.map (fun t => { t with seen := true }) } }

/-- The cue list that a step point consults. -/
def stepList (s : State) : Option Nat :=
  match s.cue.arm, s.cue.run with
  | some (.start fe l _), r => if fe ≤ nextFe s then some l else r.map CueRun.list
  | _, r => r.map CueRun.list

/-- The latch point, or the step point, of the frame to come: what it will show, then what is fixed with it: predicted
dwell, temperature field (R203, R206), open rows (R147) and reads (R103). -/
def latchNow (full : Bool) (table : Rd) (s : State) : State :=
  let s0 := markLatch s
  let s1 := if stopping s then s0 else if cueTurn s then stepPoint table (match stepList s0 with | some l => listCheck l s0 | none => s0) else if latching s then latchPoint table s0 else s0
  let (p, hint) := predict206 full s1
  let s2 := { s1 with tmg := { s1.tmg with latched := true }
                      od := { s1.od with predNext := p, hintNext := hint, thetaNext := s1.thm.field } }
  beginReads (openRows (wantPanel s2))

/-- Slot of the FT for a start LT at the slot in progress: L + VFP later, or later still so that line 0 comes 40 µs after the
end of Twill quiet (R215, R263). -/
def ftAfterStart (s : State) : Nat :=
  let c := s.conf
  let n := ftOfMarker s
  match s.twl.restarted with
  | some e => max n (e + slotsFor c (fineUs 40) - tVstart c)
  | none => n

/-- The start LT of a variable timing (R215). -/
def startLt (table : Rd) (s : State) : State :=
  let c := s.conf
  let only := s.tmg.balReq && !(otherTrigger s) && !(stopping s)
  let part := dirtyDue s && s.sys.transit.isNone && !(cueTurn s) && !s.tmg.balReq && fbit c CUE_HOLD_PARTIAL_EN
    && !(fbit c GZ_CTRL_EN) && !(scheduleDue s)
  let s0 := endQuiet s
  let s1 := { s0 with tmg := { s0.tmg with nextFt := some (ftAfterStart s0) } }
  let s2 := latchNow (!part) table s1
  let fresh := s2.ing.coming.isSome && s.ing.coming.isNone && s2.cue.coming.isNone
  tickOwn { s2 with tmg := { s2.tmg with balNext := only && !fresh, partialNext := part } }

/-- Start LTs, latch points and step points at the LT in progress. A fixed timing latches at its decision slot and its FT
stands at FIX_LINES; the LT that lies L + VFP slots before it is the start LT of its marker (log entry 17). A follower
takes its start LTs from markers alone (R353). -/
def startPoints (table : Rd) (s : State) : State :=
  let c := s.conf
  if !(hasTiming c) then s
  else if !(ownStarts s) then s
  else if tFixed c then
    let s1 := if s.tmg.slot = decisionSlot c then latchNow true table s else s
    let s2 := if s.tmg.nextFt.isNone then { s1 with tmg := { s1.tmg with nextFt := some (max (tFixLines c) (s.tmg.slot + 1)) } } else s1
    if s.tmg.slot + tLead c + tVfp c = tFixLines c then tickOwn s2 else s2
  else if s.tmg.nextFt.isSome then s
  else if startsHere s then startLt table s else s

/-- A follower's start LT, which a marker gave for the LT that has just passed (R353). -/
def followMarker (table : Rd) (s : State) : State :=
  if s.gng.marked then
    let s1 := { s with gng := { s.gng with marked := false } }
    if !(hasTiming s.conf) || s.tmg.nextFt.isSome then s1
    else
      let s2 := { s1 with gng := { s1.gng with byMarker := true } }
      if tFixed s.conf then latchNow true table { s2 with tmg := { s2.tmg with nextFt := some (ftOfMarker s) } } else startLt table s2
  else s

/-! ## The line tick -/

/-- The LT at which the slot in progress begins, for a frame of the panel. -/
def slotBegins (env : LineEnv) (s : State) : State :=
  let s1 := bandMean (accLt s)
  let s2 := if hasTiming s1.conf && s1.tmg.slot = tVstart s1.conf + tH s1.conf then scanEnd env.checkers s1 else s1
  let s3 := startPoints env.table (lineMatches (takePolarity s2))
  let s4 := emitSlot (enterQuiet (fixedQuietEnd (beginReads (spendSlots (stopQuiet (runRecon s3))))))
  runPolls (packetLine s4).isSome (runGates s4)

/-- The lamp lanes' line tick (R170, R171, R178): CYC stands in for LT where a repeat cycle is due. -/
def lampTick (s : State) : State :=
  let s1 := { s with lmp := { s.lmp with ticks := s.lmp.ticks + 1 } }
  if !(fbit s.conf LMP_CTRL_EN) || repeatDue s1 then s1
  else countLit (lampWires ((lanesLive s1).map (fun l => (l, [lampLt]))) s1)

/-- Advance to the next slot; a tile that waits for its first marker only counts (R351). -/
def nextSlot (s : State) : State := { s with tmg := { s.tmg with slot := s.tmg.slot + 1 }, twl := dskFromHere s.twl }

/-- While no FT has come yet, only the slot counts; a marker places the first FT (R351, R353), or the tile itself where it no
longer follows another. -/
def freshTick (s : State) : State :=
  let s1 := if s.gng.marked then
      { s with gng := { s.gng with marked := false }, tmg := { s.tmg with nextFt := some (ftOfMarker s) } }
    else if s.tmg.nextFt.isNone && ownStarts s then { s with tmg := { s.tmg with nextFt := some (s.tmg.slot + 2) } }
    else s
  nextSlot s1

/-- LINE_TICK (R212): the slot in progress ends and the next one begins. The LT of an FT is FRAME_TICK's. -/
def execLineTick (env : LineEnv) (s : State) : Answer :=
  .next (if !s.tmg.running || s.tmg.nextFt = some (s.tmg.slot + 1) then s
  else if s.tmg.fresh then freshTick s
  else
    slotBegins env (lampTick (nextSlot (echoSlot env.pinEcho (forAll env.linen linenAccess (endSlot (followMarker env.table s)))))))

/-- SETTLE_POINT (R210, R215): the first LT at or after FT + ceil(3P ÷ 2), never earlier than the decision slot, in LIVE inside
a VRR window. When nothing is latched there, the following scan is a settle refresh. -/
def execSettlePoint (table : Rd) (s : State) : Answer :=
  let c := s.conf
  let due := max (decisionSlot c) (usSlots c ((3 * s.od.pred + 1) / 2))
  let settle := s.sys.mode = .live && !(stopping s) && s.tmg.running && !s.tmg.fresh && hasTiming c && !(tFixed c)
    && fbit c OD_CTRL_SETTLE_EN && !s.od.settle && s.tmg.nextFt.isNone && !s.tmg.settled && s.tmg.slot = due && ownStarts s
  .next (if settle then
    let s1 := startLt table { s with tmg := { s.tmg with settled := true } }
    { s1 with od := { s1.od with settleNext := s1.ing.coming.isNone && s1.cue.coming.isNone } }
  else s)

end Sys2Proof.Machine
end

