-- ==== Sys2Proof/Machine/Frame.lean ====
section
/-!
DEFINITION. What happens at a frame tick: the frame that ends is accounted for, the armed change takes effect (R51 to R56,
R92), the mode turns (R36 to R40, Table 2.4), the content of the new frame is fixed (R97, R101, R269, R285), and so are its
scan (R224, R226, R133, R220), Gauze (R157), overdrive (R200 to R206) and lamps (R171, R172). With it LAMP_REPEAT_CYCLE.
-/
namespace Sys2Proof.Machine

/-! ## The frame that ends -/

/-- Timing clocks from the last FT to this one (R212). -/
def frameClocks (s : State) : Nat := (s.tmg.slot + 1) * tPeriod s.conf / 4096

/-- CLIPPED of every zone, and the counts of the frame that ends (R163, Tables 7.18, 7.19). -/
def closeGauze (lit : SMap Nat) (c : Conf) (g : Gz) : Gz :=
  let g1 := addEnergy c lit g
  let old := g1.zones.filter (fun p => p.2.clipped)
  let off := old.foldl (fun m p => mput {} p.1 { mget {} m p.1 with clipped := false } m) g1.zones
  let zones := g1.clipZones.foldl (fun m p => mput {} p.1 { mget {} m p.1 with clipped := true } m) off
  { g1 with zones, clipZones := [], clip := 0, clipLast := g1.clip, forced := 0, forcedLast := g1.forced % 65536 }

/-- Account for the frame that ends: copies for ZONE_READ, drive energy, echoes, Gauze counts, DUP (R197), the interval
record (R205). -/
def closeFrame (s : State) : State :=
  let recon := { s with gz := { s.gz with reconDue := [] } }
  let s1 := postIsland (postEcho (postUnechoed (zoneCopies (forAll (s.gz.reconDue.map Prod.snd) reconRow recon))))
  let s2 := { s1 with gz := closeGauze s1.lmp.lit s1.conf s1.gz, lmp := { s1.lmp with lit := [] } }
  if s.tmg.fresh then s2
  else { s2 with dmk := { s2.dmk with dup := min 0xFF (dupDefects s1.conf) }
                 od := { s2.od with intervals := ((min 0xFFFFF (frameClocks s / 2000)) :: s2.od.intervals).take 8 } }

/-! ## The change that takes effect (R92, R93) -/

/-- Stage slots whose arm takes effect by frame n. -/
def dueSlots (c : Conf) (n : Nat) : List Nat := (List.range 4).filter (fun i => (slotOf c i).armed.any (· ≤ n))

/-- The setup set takes effect by frame n. -/
def setupDue (c : Conf) (n : Nat) : Bool := c.setup.armed.any (· ≤ n)

/-- The configuration from frame n on; sets that took effect are empty again. -/
def confAt (s : State) (n : Nat) : Conf :=
  let c := committedConf s
  { confAfter c (· ≤ n) with
    setup := if setupDue c n then {} else s.conf.setup
    slots := (dueSlots c n).foldl (fun m i => mput {} i {} m) s.conf.slots }

/-- Does a register or a table differ between two configurations? -/
def regDiffers (a b : Conf) (off : Nat) : Bool := regNow a off ≠ regNow b off
def tableDiffers (a b : Conf) (id : Nat) : Bool := tableBytes a id ≠ tableBytes b id

/-- FLT_POLICY.CHECKERS changes: a checker returns to the idle spares, or the lowest idle spare becomes one (R389). -/
def setCheckers (s : State) : State :=
  let k := fget s.conf FLT_POLICY_CHECKERS
  let f := s.flt
  if k < f.checkers.length then
    { s with flt := { f with checkers := f.checkers.take k, idle := (f.checkers.drop k).foldl (fun l e => addIdle e l) f.idle } }
  else
    { s with flt := { f with checkers := f.checkers ++ f.idle.take (k - f.checkers.length), idle := f.idle.drop (k - f.checkers.length) } }

/-- What follows from a new configuration, block by block (R112, R141, R167, R176, R195, R389, Table 16.5). -/
def confEffects (old : Conf) (n : Nat) (s : State) : State :=
  let c := s.conf
  let grid := regDiffers old c 0x050004 || regDiffers old c 0x090000 || tableDiffers old c 0x0500 || tableDiffers old c 0x0501
  let s1 := if grid then { s with gz := resetZones s.gz } else s
  let s3 := if wbits (regNow old 0x120000) 4 2 ≠ wbits (regNow c 0x120000) 4 2 then setCheckers s1 else s1
  let s4 := if tableDiffers old c 0x0601
    then forAll ((mappedDrivers c).filter (fun d => laneOn c d.1 && (driverAt s3 d.1 d.2.1).found)) (fun d => sendSchedule c d.1 d.2.1 n) s3
    else s3
  updateGuarantee (enablePorts (settleRole old s4))

/-- The events of a change (Table 4.11). -/
def confEvents (setup : Bool) (mask : List Nat) (cls : Nat) (s : State) : State :=
  let s1 := if setup then post 0x0004 0 [cls] s else s
  postIf (!mask.isEmpty) 0x0203 0 [ofBits mask, cls] s1

/-- The panel at the FT of a seam-full change (R54, R233): power-off, then power-on. -/
def seamPanel (s : State) : State :=
  match s.pnl.state with
  | .off => if s.pnl.wanted then beginPowerOn s else s
  | .waiting | .faultOff => beginPowerOn s
  | .poweringOff => { s with pnl := { s.pnl with offReason := 1, restart := true } }
  | _ => beginPowerOff 1 true s

/-- Polarity, dither and DC state from their start (R133, R223). -/
def resetPhases (s : State) : State := { s with pix := { s.pix with q := [] }, tmg := { s.tmg with bands := [] } }

/-- What a seam-full change does at its FT (R54, R133, R200, R205, R223, R260, R269). -/
def seamFull (s : State) : State :=
  let s1 := resetPhases (seamPanel (endTwillRuns s))
  { s1 with
    od := { s1.od with firstScan := true, intervals := List.replicate 8 (min 0xFFFFF (tminUs s1.conf)) }
    ing := { s1.ing with prev := none, lastSeen := none, shown := s1.ing.shown.map (fun f => { f with onPanel := false }) }
    twl := { s1.twl with ports := s1.twl.ports.filter (fun p => p.2.state ≠ .failed) }
    tmg := { s1.tmg with seamDue := true } }

/-- SEAM_DONE where it is due (R53, R54): at the frame after a seam-one change's seam frame, and at the first frame scanned
after a seam-full change. -/
def seamDone (one : Bool) (s : State) : State :=
  let s1 := postIf one 0x0901 0 [1] s
  if s1.tmg.seamDue && s1.pnl.state = .on then post 0x0901 0 [2] { s1 with tmg := { s1.tmg with seamDue := false } } else s1

/-- The class of a change, at its FT. -/
def seamEffects (cls : SeamClass) (s : State) : State :=
  match cls with
  | .seamless => s
  | .seamOne => { s with tmg := { s.tmg with seam := true, seamOne := true } }
  | .seamFull => seamFull s

/-- The class of the change that takes effect at the FT of frame n (R51, R92). -/
def changeClass (n : Nat) (s : State) : SeamClass :=
  let c := committedConf s
  classOf s.conf (confAt s n) (mergeSlots (((armedFes c).filter (· ≤ n)).flatMap (armedFor c)))

/-- The armed change takes effect at the FT of frame n (R52 to R56, R92, R93). -/
def applyChange (n : Nat) (s : State) : State :=
  let c := committedConf s
  let due := dueSlots c n
  let setup := setupDue c n
  if due.isEmpty && !setup then s
  else
    let conf := confAt s n
    let cls := changeClass n s
    let push := regDiffers s.conf conf 0x030008 || regDiffers s.conf conf 0x03000c
    let s1 := if push then freeAllPush s else s
    let s2 := confEffects s.conf n { s1 with conf }
    seamEffects cls (confEvents setup due (classNum cls) s2)

/-! ## The mode (R36, R40, Table 2.4, R269, R276, R287, R289) -/

/-- Black, as R113 defines it. -/
def blackFrame : Frame := { released := true, finished := true }

/-- The hold frame on entry to HOLD or SERVICE (R269): from CUE the last cue frame, else the last frame scanned, black where
none has been since BOOT or a seam-full change. -/
def holdFrame (old : Mode) (s : State) : State :=
  match s.ing.shown with
  | some f =>
    if old = .cue || f.onPanel then s
    else
      let h := (s.ing.lastSeen.getD blackFrame)
      { s with ing := retireFrame f { s.ing with shown := some h, prev := none } }
  | none => { s with ing := { s.ing with shown := some (s.ing.lastSeen.getD blackFrame) } }

/-- Turn to a mode: MODE_CHANGED with the FE of the first frame in it, and what leaving and entering a mode do. -/
def turnMode (m : Mode) (s : State) : State :=
  let old := s.sys.mode
  let s1 := if old = .hold then untrackUpdates s else s
  let s2 := if old = .live && m ≠ .live && m ≠ .cue then dropComing s1 else s1
  let s3 := if old = .cue then { s2 with cue := { s2.cue with run := none, coming := none } } else s2
  let s4 := { s3 with sys := { s3.sys with mode := m } }
  let s5 := match m with
    | .live => { s4 with od := { s4.od with intervals := List.replicate 8 (min 0xFFFFF (tminUs s4.conf)) } }
    | .hold | .service => holdFrame old { s4 with tmg := { s4.tmg with sinceFull := 0 } }
    | _ => s4
  if m = old then s5 else post 0x0003 0 [modeNum old, modeNum m] s5

/-- Arms of CUE_START and CUE_STOP whose FE has come are done (R287, R288). -/
def doneArms (n : Nat) (s : State) : State :=
  let begun := match s.cue.arm with
    | some (.start fe _ _) => decide (fe ≤ n)
    | some (.stop fe _) => decide (fe ≤ n)
    | none => false
  if begun then { s with cue := { s.cue with arm := none } } else s

/-- Layers that a change leaves outside the active area, by index (R285): events for a step, or 0xFFFF for the hold frame. -/
def droppedLayers (step : Nat) (is : List Nat) (s : State) : State := forAll is (fun i s => post 0x0C04 1 [step, i] s) s

/-- Indices of the layers of a list that a rule names. -/
def layersWhere (p : Layer → Bool) (ls : List Layer) : List Nat := ((keyed 0 ls).filter (fun q => p q.2)).map Prod.fst

/-- A cue frame begins: the run that the step point decided is in force, and its events (R283, R285, Table 12.6). -/
def cueBegins (r : CueRun) (s : State) : State :=
  let s1 := { s with cue := { s.cue with run := some { r with shownFrames := r.shownFrames + 1, entered := false }, coming := none } }
  match r.step with
  | some n =>
    if r.entered then
      let ls := match s1.ing.coming with | some f => (match f.contents with | ct :: _ => ct.layers | [] => []) | none => []
      droppedLayers n (layersWhere Layer.transparent ls) (postIf (stepNotifies s1 r.list n) 0x0C01 0 [n, r.prevStep, r.list] s1)
    else s1
  | none => s1

/-- The cue ends (R289, R283). DESIGN CHOICE 122: one whose first STEP resolves at once to an end or a fault turns the mode at its
FE to the target, with no cue frame. -/
def cueEnds (r : CueRun) (m : Mode) (s : State) : State :=
  let s1 := { s with cue := { s.cue with coming := none, run := none } }
  turnMode m (if r.fault then post 0x0C03 2 [r.prevStep, 0] s1 else s1)

/-- The power-on cue begins at the first FT after panel-on (R290, Table 2.4: BOOT to CUE). Where the walk from START_STEP meets
no SHOW step, the first frame is black and the next step point walks again. -/
def powerOnCue (step : Nat) (s : State) : State :=
  let r := startRun s 0 step
  let s1 := { s with cue := { s.cue with powerOn := none, coming := some { r with ending := none, fault := false } }
                     sys := { s.sys with stage := .finished } }
  if r.ending.isNone then { s1 with ing := { s1.ing with coming := some (cueFrame s1 s1.conf r) } } else s1

/-- Does an accepted transition between running modes turn at this FT? HOLD turns to LIVE with the frame that latches a
descriptor, or, when MODE_REQ asked and nothing was latchable, with the first frame whose latch point came after the request
(Table 2.4, R101, R276). -/
def turnsNow (s : State) (t : Transit) : Bool :=
  t.target ≠ .dormant && t.target ≠ .boot
    && !(s.sys.mode = .hold && t.target = .live && hasTiming s.conf && !(s.ing.coming.any Frame.host) && (t.byFrame || !t.seen))

/-- A test that runs in SERVICE stops where the mode leaves it (Table 2.4; DESIGN CHOICE 30: an FT is a stopping point). -/
def endTests (s : State) : State := if s.sys.mode = .service then stopTest s else s

/-- The mode turns at the FT of frame n; a LIVE that a cue or a test ends in while PF0 is in D3hot leaves for HOLD at the FT
after it (R69). -/
def modeFt (n : Nat) (s : State) : State :=
  let s0 := match s.sys.mode, s.cue.powerOn with
    | .boot, some st => powerOnCue st s
    | _, _ => s
  let goal := (s0.sys.transit.filter (turnsNow s0)).map Transit.target
  let s1 := match goal, s0.cue.coming with
    | some m, r =>
      let s := if m ≠ .live || r.isSome then dropComing s0 else s0
      turnMode m (endTests { s with sys := { s.sys with transit := none }, cue := { s.cue with coming := none } })
    | none, some r => match r.ending with
      | some m => cueEnds r m s0
      | none => cueBegins r (if s0.sys.mode = .cue then s0 else turnMode .cue s0)
    | none, none => s0
  let s2 := doneArms n s1
  if s2.hif.d3hot then leaveLive s2 else s2

/-- The frame that begins is the last of LIVE before a cue: its last scan is known (R101, R287). -/
def cueAhead (s : State) : State :=
  if s.sys.mode = .live && (match s.cue.arm with | some (.start fe _ _) => decide (fe ≤ nextFe s) | _ => false)
  then lastScanKnown s else s

/-! ## Content (R97, R101, R113, R269) -/

/-- A copy of a frame that has left the panel: its records are the retired one's. -/
def leftPanel (f : Frame) : Frame := { f with released := true, finished := true }

/-- The frame to come becomes the displayed one, or the displayed one is scanned again. -/
def turnContent (n : Nat) (s : State) : State :=
  match s.ing.coming, s.ing.shown with
  | some f, old =>
    let ing := match old with | some o => retireFrame o s.ing | none => s.ing
    let lastSeen := match old with | some o => if o.onPanel then some (leftPanel o) else s.ing.lastSeen | none => s.ing.lastSeen
    { s with ing := { ing with coming := none, prev := old.map leftPanel, lastSeen, shown := some { f with scans := 1, lastFe := n } } }
  | none, some f => { s with ing := { s.ing with shown := some { f with scans := f.scans + 1, lastFe := n } } }
  | none, none => s

/-- Is a layer outside the active area? -/
def outside (c : Conf) (l : Layer) : Bool := tooWide c l || tooHigh c l

/-- A layer of the hold frame under a changed area: transparent while it is outside, and shown again once it fits, unless its
frame showed it as transparent (R116, R269, R285). -/
def refit (c : Conf) (l : Layer) : Layer :=
  let kept := l.transparent && !l.unfit
  { l with transparent := kept || outside c l, unfit := !kept && outside c l }

/-- Layers of a hold frame that a change has left outside the area, or brought back, outgoing ones of a frozen crossfade too;
events for the layers that the change drops (R56, R285). -/
def refitHold (s : State) : State :=
  match s.ing.shown with
  | some f =>
    let contents := f.contents.map (fun ct => { ct with layers := ct.layers.map (refit s.conf)
                                                        mix := ct.mix.map (fun m => { m with old := m.old.map (refit s.conf) }) })
    let lost := layersWhere (fun l => outside s.conf l && !l.transparent) ((f.contents.headD {}).layers)
    droppedLayers 0xFFFF lost { s with ing := { s.ing with shown := some { f with contents } } }
  | none => s

/-! ## Scan, dither and polarity (R133, R220, R224, R226, R271, R274) -/

/-- The FT of a refresh that is held (R133): more than HOLD_MS after the previous FT. No command tells how long a watchdog reset
has taken, so that whether the first FT after it is held is a free value (log entry 3). -/
def isHeld (s : State) (clocks : Nat) : Bool :=
  let ms := fget s.conf PIX_DITHER_HOLD_MS
  ms ≠ 0 && (if s.tmg.fresh then s.sys.cause.cause = 3 && freeNow s % 2 = 1 else decide (ms * 2000000 < clocks))

/-- One band at the FT of a refresh that scans it: π, its slips, and the dither phase. -/
def scanBand (held : Bool) (k : Nat) (s : State) : State :=
  let b := dcBand s k
  let slip := slips s.conf b
  let b1 := { b with pi := if slip then b.pi else !b.pi, sum := 0, count := 0 }
  let key := 2 * k + b2n b1.pi
  let temporal := fbit s.conf PIX_DITHER_TEMPORAL && !held
  let p := mget 0 s.pix.q key
  { s with
    tmg := { s.tmg with bands := mput {} k b1 s.tmg.bands, slips := satAdd 0xFFFF s.tmg.slips (b2n slip) }
    pix := { s.pix with phase := mput 0 k (if temporal then p else 0) s.pix.phase
                        q := if temporal then mput 0 key ((p + 1) % 4) s.pix.q else s.pix.q } }

/-- The scan of the frame that begins; `clocks` is the length of the frame before it. -/
def scanFt (clocks : Nat) (s : State) : State :=
  let c := s.conf
  let hold := s.sys.mode = .hold || s.sys.mode = .service
  let part := s.tmg.partialNext && s.sys.mode = .hold
  let blind := s.pnl.state ≠ .on || islandBlind s
  let wanted : BitVec 64 := if hasTiming c then (if part then s.cue.dirty else BitVec.allOnes 64) else 0
  let scanned : BitVec 64 := if blind then 0 else wanted &&& ~~~(if s.sys.mode = .hold then s.cue.barred else 0)
  let balancing := s.tmg.balNext
  let tmg := { s.tmg with scanned, blind, isPartial := part, balancing, balCount := satAdd 0xFFFF s.tmg.balCount (b2n balancing)
                          sinceFull := if part then s.tmg.sinceFull + clocks else 0, balReq := false }
  let cue := { s.cue with dirty := s.cue.dirty &&& ~~~scanned
                          shownDue := s.cue.shownDue.map (fun p => if p.2 &&& ~~~scanned = 0 then (0, p.2) else p) }
  let held := isHeld s clocks
  let s1 := { skipFree (b2n s.tmg.fresh) s with tmg, cue := if hold then cue else s.cue, pix := { s.pix with held, phase := [] } }
  forAll ((List.range 64).filter (fun k => scanned.getLsbD k)) (scanBand held) s1

/-! ## Overdrive (R200, R203, R206, R210) -/

/-- Overdrive's values of the frame that begins; where no latch point came before the FT they are fixed here. -/
def overdriveFt (s : State) : State :=
  let o := s.od
  let (p, hint) := if s.tmg.latched then (o.predNext, o.hintNext) else predict206 true s
  let settle := o.settleNext
  let offFrame := settle || (o.firstScan && !s.tmg.blind)
  { s with od := { o with pred := p, hint, settle, theta := if s.tmg.latched then o.thetaNext else s.thm.field, settleNext := false
                          offFrame, firstScan := o.firstScan && s.tmg.blind, settles := satAdd 0xFFFF o.settles (b2n settle) } }

/-! ## Gauze (R154, R157, R163, R164, R166) -/

/-- The cap fraction after an FT of its ramp (R48, R49): equal steps from the cap in force to the goal. -/
def stepCap (c : Conf) (p : Pwr) (brace : Bool) : Pwr :=
  let low : Frac := { num := lget c PWR_BRACE_CAP, den := 100 }
  let goal : Frac := if p.capDown then low else {}
  if p.capSteps = 0 then (if brace then { p with capFrac := low } else p)
  else if p.capSteps = 1 then { p with capFrac := goal, capSteps := 0 }
  else
    let n := p.capSteps
    let k := p.capFrac
    { p with capFrac := { num := k.num * (n - 1) * goal.den + goal.num * k.den, den := k.den * goal.den * n }, capSteps := n - 1 }

/-- The start of Gauze's work on a frame (R157, R154). AGING_GAIN is 32768 while AGING_EN is 0 (R165). DESIGN CHOICE 40: the
rows counted as delivered at the FT are judged by one evaluation of the predictor together. -/
def gauzeStart (s : State) : State :=
  let pwr := stepCap s.conf s.pwr s.sys.brace
  let s1 := if s.gz.openFe = s.sys.fe then s else { s with gz := { (openRows s).gz with openFe := s.sys.fe } }
  let g := s1.gz
  let done := if g.opened then (g.merges.filter (fun p => p.2 = 192)).map Prod.fst else []
  let ageing := fbit s.conf GZ_CTRL_AGING_EN
  let zones := mmap {} (fun _ z =>
    let n := if ageing then z.gainNext else 32768
    { z with spec := z.committed, gain := n, gainNext := n, targetFt := z.targetPrev }) g.zones
  let targets := done.foldl (fun m r => rowTargets s.conf { g with targets := m } r) g.targets
  let g1 := { g with zones, targets, change := false, delivered := done, rowsDone := 0, eDone := 0, opened := hasTiming s.conf
                     capE := fracMul pwr.capFrac (fget s.conf GZ_CAP_CAP), haloLevelPrev := g.haloLevel, haloLevel := [] }
  let (g2, turned) := applyReports (applyOverrides s.sys.fe g1)
  forAll turned (fun p s => postIf p.2 0x0502 2 [p.1, 0]
    (logFault 13 (freeNow s % 7) (p.1 % 65536) [p.1 / 65536, b2n p.2] (skipFree 1 s))) { s1 with pwr, gz := predict s.conf g2 }

/-- With Gauze off every zone commits at LMAX at once (R163). -/
def gauzeOff (s : State) : State :=
  if hasTiming s.conf && !(fbit s.conf GZ_CTRL_EN) then commitAllMax s else s

/-! ## Lamps (R171, R172, R226, R231, R260) -/

/-- No enabled port can carry the picture (R260); with Twill off no port is enabled. -/
def portsDark (s : State) : Bool :=
  !((enabledPorts s.conf).any (fun p => [PortState.active, .quiet].contains (portAt s p.1).state))

/-- The lamp cycle of the FT. `counted` tells whether the frame that ended was a scanned one (R231). -/
def lampFt (counted : Bool) (s : State) : State :=
  let left := if counted then s.lmp.darkFrames - 1 else s.lmp.darkFrames
  let dark := s.tmg.seam || s.tmg.blind || decide (0 < left) || portsDark s
  openCycle false dark { s with lmp := { s.lmp with darkFrames := left } }

/-! ## The frame tick -/

/-- Every arm whose FE has not begun is discarded (R363). DESIGN CHOICE 158: the command of an exchange of this tile's own
completes with ARM_LATE at this tile, and a step point that acted on a discarded cue arm is decided anew. -/
def discardArms (s : State) : State :=
  let s1 := endArms s.gng.arms (tileIndex s.conf) s
  let conf := { s1.conf with setup := { s1.conf.setup with armed := none }
                             slots := mmap {} (fun _ sl => { sl with armed := none }) s1.conf.slots }
  let s2 := { s1 with conf, gng := { s1.gng with arms := [] }, gz := { s1.gz with arms := [] } }
  if s2.cue.arm.isSome then decideAgain { s2 with cue := { s2.cue with arm := none } } else s2

/-- This tile's part has lost: at the winner's FT it adopts the winner's timekeeper, its arms are discarded, and the frame is a
seam frame (R363). A tile that joins at its first FT has no part to leave (R350). An island that lost another timekeeper stays
one (R362). -/
def adoptFt (now : Bool) (old : Nat) (s : State) : State :=
  match now, s.gng.adopt with
  | true, some (tk, _) =>
    let back := s.gng.lostTk.all (· = tk)
    let s1 := { s with gng := { s.gng with adopt := none, tk, role := if back then .follower else .island
                                           lostTk := if back then none else s.gng.lostTk } }
    let s2 := match wayTo s1 tk with | some w => takeWay w s1 | none => s1
    if s.tmg.fresh then s2
    else
      let s3 := discardArms s2
      post 0x1006 1 [old % 2 ^ 32, tk] { s3 with tmg := { s3.tmg with seam := true } }
  | _, _ => s

/-- A step point that no line tick gave: placeholder frames have no decision slot. Nothing can be latched in one. -/
def lateStep (s : State) : State :=
  if !s.tmg.latched && !s.tmg.fresh && cueTurn s then
    let s1 := stepPoint { bytes := [], ok := false } { s with ing := { s.ing with cands := [] } }
    { s1 with ing := { s1.ing with cands := s.ing.cands } }
  else s

/-- Per-frame flags and counts start again; the timing of the frame that begins (R215, R216). -/
def newFrame (s : State) : State :=
  let c := s.conf
  let nextFt := if !(hasTiming c) then some 1000 else if tFixed c && ownStarts s then some (tFixLines c) else none
  let tmg := { s.tmg with slot := 0, nextFt, latched := false, settled := false, fresh := false, firstLine := true, balNext := false
                          partialNext := false }
  let twl := { dskFromHere s.twl with echoFrame := none, echoLines := [], echoPosted := false, rxPosted := false, restarted := none }
  { s with tmg, twl, ing := { s.ing with underruns := 0, firstUnder := 0 }, pix := { s.pix with late := none, lite := [], lines := [] }
           sec := { s.sec with accessPosted := false }, mem := { s.mem with reservedPosted := false }
           trc := { s.trc with probes := (List.range 4).foldl (fun m k => mput 0 k (liveNow s.conf (0x130010 + 4 * k)) m) [] }
           dmk := { s.dmk with inForce := s.dmk.loaded }
           gng := { s.gng with heard := [], heardBefore := s.gng.heard, byMarker := false } }

/-- Scan-out stops at this FT for DORMANT or a watchdog reset: the power-off sequence begins, and OFF goes to the lamps (R43, R181,
R215, R232). -/
def powerDown (s : State) : State :=
  match s.sys.transit with
  | none => s
  | some t =>
    let reason := if t.target = .dormant then 0 else 3
    if t.target ≠ .dormant && t.target ≠ .boot then s
    else
    let s := if s.sys.mode = .live then dropComing s else s
    let live := s.pnl.state = .poweringOn || s.pnl.state = .training || s.pnl.state = .on
    let s := if t.step = 0 && t.target = .dormant && !live then lampsOff s else s
    let s := { s with sys := { s.sys with transit := some { t with step := max 1 t.step } } }
    if s.pnl.state = .poweringOff then
      (if s.pnl.offReason = reason then s else { s with pnl := { s.pnl with offReason := reason, restart := false } })
    else if s.pnl.state = .off then s
    else beginPowerOff reason false s

/-- The parts of an FT that concern Twill lanes, calibration, the wall and spares. -/
def linksFt (s : State) : State :=
  loseArms (buildDigest (checkHalos (pruneRun (nextRuns (moveTaps (engineFt s.sys.fe s))))))

/-- The frame that begins: its change, mode, content, scan, overdrive, Gauze and lamps, in the order of their rules. On the lamp
lanes CYCLE goes first, then the LEVELS of a frame whose zones commit at once, then STATUS_REQ (R174, R177). -/
def beginFrame (n clocks : Nat) (s : State) : State :=
  let counted := !s.tmg.blind && !s.tmg.fresh
  let old := s.sys.fe
  let one := s.tmg.seamOne
  let adopts := adoptsNow s
  let s1 := { s with sys := { s.sys with fe := n }, tmg := { s.tmg with seam := false, seamOne := false } }
  let s0 := decideArms (adoptFt adopts old s1)
  let s2 := applyChange n s0
  let turned := turnContent n (modeFt n (powerDown s2))
  let s3 := if changeClass n s0 = .seamFull then { turned with ing := { turned.ing with prev := none } } else turned
  let s4 := if s3.sys.mode = .hold || s3.sys.mode = .service then refitHold s3 else s3
  let s5 := overdriveFt (scanFt clocks s4)
  sendStatusReqs (gauzeOff (lampFt counted (gauzeStart (seamDone one s5))))

/-- FRAME_TICK (R37, R38, R52, R215): it comes when the slot in progress is the last one before the FT. -/
def execFrameTick (s : State) : Answer :=
  .next (if s.tmg.running && s.tmg.nextFt = some (s.tmg.slot + 1) then
    let clocks := frameClocks s
    let s1 := closeFrame (lateStep (endSlot s))
    let s2 := linksFt (beginFrame (nextFe s1) clocks s1)
    let s3 := lineMatches (takePolarity (accLt (cueAhead (newFrame (trace1 5 (postReleases (releaseStaging (settleFrees s2))))))))
    settleReset (runPolls false (runGates (emitSlot (fixedQuietEnd (beginReads (stopQuiet s3))))))
  else s)

/-- LAMP_REPEAT_CYCLE (R171): CYCLE_LINES line ticks have passed without an FT. -/
def execLampRepeatCycle (s : State) : Answer :=
  .next (if s.tmg.running && !s.tmg.fresh && fbit s.conf LMP_CTRL_EN && repeatDue s then
    sendStatusReqs (openCycle true s.lmp.dark s)
  else s)

end Sys2Proof.Machine
end

