-- ==== Sys2Proof/Machine/Modes.lean ====
section
/-!
DEFINITION. Power and BOOT (R38 to R50, R184 to R194, R290, R368 to R371, R408, R410, R413, R439), MODE_REQ (R39), the wake
from DORMANT (R364, R438), and the faults that can end in a reset: the junction, clocks, housekeeping, pages (R306, R334,
R396, R397), with SPARE_COMMIT (R402) and FW_UPDATE (R378).
-/
namespace Sys2Proof.Machine

/-! ## Supply -/

/-- A sample of VIN (Table 19.11). -/
def sampleVin (v : Nat) (s : State) : State := { s with pwr := { s.pwr with vin := v % 4096, vinMin := min s.pwr.vinMin (v % 4096) } }

/-- VIN as it stands at VIN good: no command brings it, so that it is a free value, at or above the warning level plus 0.4 V
(R41, R407). -/
def vinGoodSample (s : State) : State :=
  let least := fget s.conf PWR_VIN_THRESH_WARN + 20
  sampleVin (least + freeNow s % (4096 - least % 4096)) (skipFree 1 s)

/-- POWER_ON_RESET (R413, Table 19.4): VIN first reaches 7.0 V. Nothing of the die is left; the trip latch is lost, since VIN
was below 7.0 V (R408). -/
def execPowerOnReset (s : State) : Answer :=
  let s1 := coldReset { s with mem := { s.mem with retained := false }, lin := { s.lin with recent := false }
                               hif := { s.hif with wakePin := false } }
  .next { s1 with sys := { gpioPins := s.sys.gpioPins }, pwr := {} }

/-- VIN_DIP_BEFORE_RUNNING (R49, R413): before VIN good qualification restarts, which shows nowhere; during BOOT, BOOT stops at
the end of the step in progress. -/
def execVinDipBeforeRunning (vin : Nat) (s : State) : Answer :=
  .next (if s.sys.mode = .boot && s.pwr.fall = .idle then
    let s1 := sampleVin vin s
    if s.sys.stage = .unpowered then s1
    else updateGuarantee { s1 with sys := { s1.sys with vinLow := true, bootHeld := true } }
  else s)

/-- BRACE_ENTER (R48, R49, R387). -/
def execBraceEnter (vin : Nat) (s : State) : Answer :=
  .next (if isRunning s && !s.sys.brace && s.pwr.fall = .idle then
    let s1 := sampleVin vin s
    let s2 := { s1 with
      sys := { s1.sys with brace := true, vinLow := true }
      pwr := { s1.pwr with braceCount := satAdd 0xFFFF s1.pwr.braceCount 1, capDown := true, capSteps := 2 }
      lin := { s1.lin with braces := s1.lin.braces + 1 } }
    let s3 := flushBox (putOperating (post 0x1501 1 [vin % 4096] s2))
    updateGuarantee (if s3.lin.store.isNone then requestStore ownRequest s3 else s3)
  else s)

/-- The fall begins (R50, R327, R332, R411, R441, Table 2.8): the rings and every link stop, and nothing is posted from here. -/
def beginFall (vin : Nat) (s : State) : State :=
  let s1 := emptyPends (sampleVin vin (dropBrackets s))
  let s2 := { s1 with
    sys := { s1.sys with serving := false, vinLow := true, transit := none }
    pwr := { s1.pwr with fall := .storing }
    tmg := { s1.tmg with running := false }
    twl := { s1.twl with training := false }
    gng := {}
    lin := { s1.lin with falls := s1.lin.falls + 1 } }
  requestStore ownRequest (putOperating s2)

/-- VIN falls below the reset level outside DORMANT (R50); before VIN good the rails go off and power-up restarts (R413). -/
def vinLost (vin : Nat) (s : State) : State :=
  if s.pwr.fall ≠ .idle then s
  else if s.sys.mode = .boot && s.sys.stage = .unpowered then
    coldReset (sampleVin vin { s with mem := { s.mem with retained := false } })
  else beginFall vin s

/-- In DORMANT a loss of VIN ends memory retention and no more (R50, R383). -/
def dormantLoss (s : State) : State :=
  { s with
    sys := { s.sys with vinLow := true, vinLost := true }
    mem := { s.mem with retained := false, retainedPages := [] }
    sec := { s.sec with memoryKey := none } }

/-- FALL (R50). -/
def execFall (vin : Nat) (s : State) : Answer := .next (if s.sys.mode = .dormant then s else vinLost vin s)

/-- DORMANT_VIN_LOSS (R50, R439). -/
def execDormantVinLoss (s : State) : Answer := .next (if s.sys.mode = .dormant then dormantLoss s else s)

/-- FALL_DISCHARGE_FRAME (Table 2.8, R232): the gate outputs run DISCH_P and the columns go to the common level. -/
def execFallDischargeFrame (s : State) : Answer :=
  .next (if s.pwr.fall = .storing then
    let s1 := { s with pwr := { s.pwr with fall := .discharge }, pnl := { s.pnl with discharging := true } }
    runGates (sendDischarge (clearAccumulators (endQuiet s1)))
  else s)

/-- FALL_LAMPS_OFF (Table 2.8, R181, R232): OFF on every lane and the panel enables released. Nothing is posted. -/
def execFallLampsOff (s : State) : Answer :=
  .next (if s.pwr.fall = .storing || s.pwr.fall = .discharge then
    let s1 := lampsOff { s with pwr := { s.pwr with fall := .lampsOff } }
    let s2 := forAll (releaseOrder s1) releaseStep s1
    idleGates { s2 with pnl := { s2.pnl with state := .off, discharging := false } }
  else s)

/-- FALL_RESET (R50, R439): reset, whatever the steps before it have reached (R328). -/
def execFallReset (s : State) : Answer :=
  .next (if s.pwr.fall ≠ .idle then
    coldReset (causeNext { cause := 1 } { s with mem := { s.mem with retained := false } })
  else s)

/-- VIN_OVERVOLTAGE_TRIP (R408): the bus behind the switch reads below the reset level, so that its sample is open. -/
def execVinOvervoltageTrip (s : State) : Answer :=
  let v := freeNow s % fget s.conf PWR_VIN_THRESH_RESET
  let s1 := skipFree 1 { s with pwr := { s.pwr with inputOn := false, ovpLatch := true } }
  .next (if s.sys.mode = .dormant then dormantLoss s1 else vinLost v s1)

/-- INPUT_SWITCH_CLOSE (R408). -/
def execInputSwitchClose (s : State) : Answer := .next { s with pwr := { s.pwr with inputOn := true } }

/-- Firmware runs (R44 step 3, R369, R411). -/
def firmwareRuns (s : State) : Bool :=
  s.sys.mode ≠ .dormant && s.pwr.fall = .idle && [BootStage.training, .loaded, .finished].contains s.sys.stage

/-- HOLDUP_MEASUREMENT (R410): none is started in BRACE. -/
def execHoldupMeasurement (mJ : Nat) (s : State) : Answer :=
  .next (if firmwareRuns s && !s.sys.brace then
    postIf (decide (mJ < 120)) 0x1504 2 [mJ]
      { s with pwr := { s.pwr with holdup := min 0xFFFF mJ, holdupOk := decide (120 ≤ mJ) } }
  else s)

/-! ## Firmware start (R44 steps 2 to 4) -/

/-- Why the ROM rejects an image (R368, Table 17.1): 0 signature, 1 co-signature, 2 security version. -/
def imageFault (f : Fuses) (b : Bytes) : Option Nat :=
  let owned := f.lifecycle = 1 || f.lifecycle = 2
  if !(Config.imageVendorOk b) then some 0
  else if f.cosign && owned && !(Config.imageOwnerOk b f.ownerHash) then some 1
  else if Config.imageSvn b < f.svnMin || 63 < Config.imageSvn b then some 2
  else none

/-- The image that the ROM runs, and whether it is B (R368). -/
def chosenImage (s : State) : Option (Bytes × Bool) :=
  let good (b : Option Bytes) : Option Bytes := b.filter (fun i => (imageFault s.sec.fuses i).isNone)
  match good s.bst.imageA, good s.bst.imageB with
  | some a, _ => some (a, false)
  | none, some b => some (b, true)
  | none, none => none

/-- BOOT_IMAGE_FALLBACK (R368): what was wrong with image A, and its SVN; a slot marked invalid has no signature, and its SVN
is open. -/
def imageFallback (s : State) : State :=
  let (why, svn) := match s.bst.imageA with
    | some a => ((imageFault s.sec.fuses a).getD 0, Config.imageSvn a)
    | none => (0, freeNow s)
  post 0x1102 2 [why, svn % 2 ^ 32] (skipFree 1 s)

/-- The profile is used: there is one, and COSIGN does not reject it (R371). -/
def profileUsed (s : State) : Option Profile :=
  s.bst.profile.filter (fun p => !s.sec.fuses.cosign || Config.profileSigned s.sec.fuses.ownerHash (p.bytes ++ p.signature))

/-- The profile's settings are in force from BOOT on (R192, R290). -/
def applyProfile (s : State) : State :=
  match s.bst.profile, profileUsed s with
  | some _, some p =>
    let conf := applySlot p.setup s.conf
    idleGates { s with conf, dmk := { s.dmk with mapBase := fget conf DMK_MAP_BASE_BASE } }
  | some _, none => post 0x1106 2 [] s
  | none, _ => s

/-- Dead zones of the fault log (R164): its records of class 13, oldest first; ZONE_DEAD for each zone that they leave dead. -/
def recallDead (s : State) : State :=
  let zones := (faultsNewestFirst s.lin.sram).reverse.foldl (fun m k =>
    match recordAt s.lin.sram 0x0201 (0x88000 + 64 * k) 64 with
    | some (_, d) =>
      if fieldAt d 0 1 = 13 then
        let z := fieldAt d 2 2 + 65536 * fieldAt d 16 4
        mput {} z { mget {} m z with dead := bit (fieldAt d 20 4) 0 } m
      else m
    | none => m) s.gz.zones
  forAll ((zones.filter (fun p => p.2.dead)).map Prod.fst) (fun z => post 0x0502 2 [z, 1]) { s with gz := { s.gz with zones } }

/-- Drive gains from the lifetime counters (R165). -/
def recallGains (s : State) : State :=
  let zones := (List.range (gCols s.conf * gRows s.conf)).foldl (fun m z =>
    let g := agingGain s.conf (zoneK s.lin.sram z)
    mput {} z { mget {} m z with gain := g, gainNext := g } m) s.gz.zones
  { s with gz := { s.gz with zones } }

/-- ENABLE and START_STEP of the profile's power-on cue (Table 12.5). -/
def cueEnabled (s : State) : Option Nat :=
  match (profileUsed s).bind Profile.cue with
  | some d => if bit (fieldAt d 0 4) 31 then some (fieldAt d 4 2) else none
  | none => none

/-- The panel powers on during BOOT when the profile runs the power-on cue (R44 step 4, R226). -/
def bootPanel (s : State) : State :=
  if (cueEnabled s).isSome then beginPowerOn { s with pnl := { s.pnl with wanted := true } } else s

/-- A trip that preceded this BOOT is shown (R408). -/
def showTrip (s : State) : State :=
  if s.pwr.ovpLatch then post 0x1503 3 [] { s with pwr := { s.pwr with ovpSeen := true, ovpLatch := false } } else s

/-- Ring service begins: LINK_DEGRADED of a training before it is posted, and what was held goes out (R58, R441). -/
def serveRings (s : State) : State :=
  flushAll (match s.hif.degradedDue with
    | some (w, bad) => post 0x0101 1 [w, bad] { s with hif := { s.hif with degradedDue := none } }
    | none => s)

/-- The firmware starts and ring service begins (R44 steps 3 and 4, R315, R324, R370, R375, R389, R441). -/
def startFirmware (img : Bytes) (second : Bool) (s : State) : State :=
  let s1 := { s with
    sys := { s.sys with stage := .training, serving := true, fw := Config.imageFw img, imageB := second }
    sec := { s.sec with imageSvn := Config.imageSvn img % 256 } }
  let s2 := extendSlot 3 Config.engineLibrary (issueAlias s1)
  let s3 := showTrip (if second then imageFallback s2 else s2)
  let s4 := applyProfile (recallKeys s3)
  let s5 := loadCalSets (recallGains (recallDead (updateGuarantee (assignEngines s4))))
  conBoot 3 (serveRings (bootPanel (writeDevice 0x0102 (retentionPayload []) s5)))

/-- The recovery monitor (R369): PF1's ring 0 alone is served. BOOT writes its RETENTION record here too (R324), and shows a
trip that preceded it (R408). -/
def startRecovery (s : State) : State :=
  conBoot 3 (serveRings (writeDevice 0x0102 (retentionPayload [])
    (showTrip (issueAlias { s with sys := { s.sys with stage := .recovery, serving := true } }))))

/-- The images that the ROM reads, in order: A, and B where A does not pass; a slot marked invalid is not read (R368, R378). -/
def imagesRead (s : State) : List Bytes :=
  let a := s.bst.imageA.toList
  if a.any (fun i => (imageFault s.sec.fuses i).isNone) then a else a ++ s.bst.imageB.toList

/-- What the ROM measures (Table 17.3): slot 0 before verification, slot 1 with each image as it is read (DEDUCED, log entry 160),
and slot 2, also where the recovery monitor starts. -/
def measureRom (s : State) : State :=
  let f := s.sec.fuses
  let s1 := extendSlot 0 (Config.romMeasure f.cosign f.svnMin f.ownerHash ++ toLE 1 f.lifecycle) s
  extendSlot 2 Config.secFirmware ((imagesRead s).foldl (fun t i => extendSlot 1 i t) s1)

/-- The ROM's verdict acts (R44 step 2, R368 to R370). -/
def imageVerified (s : State) : State :=
  let s1 := conBoot 2 (measureRom s)
  match chosenImage s with
  | some (img, second) => startFirmware img second s1
  | none => startRecovery s1

/-! ## Memory training and the loads of step 6 (R45, R290, R194) -/

/-- The training path (R45). A training record is for this module when its serial number matches; an absent one forces the full
path (R324). -/
def trainingPath (patternOk : Bool) (s : State) : BootPath :=
  match deviceRecord s.lin.sram 0x0103 with
  | some d =>
    let th := signedOf 16 (fieldAt d 8 2)
    if s.mem.retained then .retained
    else if fieldAt d 0 8 = s.sec.fuses.serial && (th - s.thm.junction).natAbs ≤ 240 && patternOk then .fast else .full
  | none => .full

/-- The record that a full training writes (Table 14.4): the channel blocks are Pergerel's own. -/
def saveTraining (s : State) : State :=
  let b := Config.trainingBlocks s.free
  writeDevice 0x0103 (toLE 8 s.sec.fuses.serial ++ toLE 2 (sfield 16 s.thm.junction) ++ [0, 0] ++ (List.range 3840).map (fun i => b.getD i 0))
    (skipFree 1 s)

/-- Does the retention record of this wake name a region? -/
def kept (s : State) (r : Nat × Nat) : Bool := s.mem.retained && s.mem.retainedPages.any (fun k => decide (k.1 ≤ r.1) && decide (r.1 + r.2 ≤ k.1 + k.2))

/-- Each entry of the power-on cue section loads, in order (R290), beside the buffer of the first one that failed. -/
def loadEntries (d : Bytes) : List Nat → State → Option Nat × State
  | [], s => (none, s)
  | e :: r, s =>
    let f (o n : Nat) := fieldAt d (0x10 + 16 * e + o) n
    let b := f 0 2 % 4096
    let isSealed := bit (f 2 2) 0
    let len := f 4 4
    let src := (d.drop (f 8 4)).take len
    let failed : Option Nat × State := (some b, (loadEntries d r s).2)
    if e = 0 && b ≠ 0 then failed
    else match loadPlan s b len isSealed 0 { bytes := src, ok := true } with
      | .error _ => failed
      | .ok (page, pages, p) => loadEntries d r (placeBuffer b page pages isSealed len p s)

/-- Numbers of the section's entries. -/
def cueEntries (d : Bytes) : List Nat := List.range (max 1 (min 4096 (fieldAt d 0 4 % 8192)))

/-- The load failed while ENABLE is 1 (R290): its buffers are freed, and the panel, which BOOT had powered on, is powered off
again before LIVE. -/
def cueLoadFailed (b : Nat) (d : Bytes) (s : State) : State :=
  let mine := (cueEntries d).map (fun e => fieldAt d (0x10 + 16 * e) 2 % 4096)
  let s1 := forAll mine dropBuffer s
  beginPowerOff 4 false (post 0x0C03 2 [0, 1, b] { s1 with pnl := { s1.pnl with wanted := false } })

/-- The power-on cue (R290): loaded, or kept by retention; it runs when ENABLE is 1 and every load succeeded. -/
def loadCue (s : State) : State :=
  match (profileUsed s).bind Profile.cue with
  | none => s
  | some d =>
    if kept s (cueRegion s.conf) then { s with cue := { s.cue with powerOn := if (bufferOf s 0).isSome then cueEnabled s else none } }
    else
      let s0 := { s with cue := { s.cue with buffers := [] } }
      let s1 := (loadEntries d (cueEntries d) s0).2
      match (loadEntries d (cueEntries d) s0).1 with
      | none => { s1 with cue := { s1.cue with powerOn := cueEnabled s1 } }
      | some b => if (cueEnabled s1).isSome then cueLoadFailed b d s1 else s1

/-- The map section begins to load, or is in module memory already (R44 step 6, R194). -/
def beginDamask (s : State) : State :=
  match profileUsed s with
  | none => s
  | some p =>
    if p.damask.isEmpty then s
    else if kept s (mapRegion s.conf) then { s with dmk := { s.dmk with loaded := true } }
    else { s with dmk := { s.dmk with loading := true } }

/-- Measurements of step 6 (Table 17.3): the whole profile in either case (R371), and of the cue section the entries' headers. -/
def measureProfile (s : State) : State :=
  match s.bst.profile with
  | none => s
  | some p =>
    let s1 := extendSlot 4 p.bytes s
    match (profileUsed s).bind Profile.cue with
    | some d => extendSlot 5 ((d.drop 16).take (16 * (cueEntries d).length)) s1
    | none => s1

/-- Memory is trained (R45, R303, R309) and step 6 runs. -/
def memoryTrained (patternOk : Bool) (s : State) : State :=
  let path := trainingPath patternOk s
  let s1 := { s with
    sys := { s.sys with stage := .loaded, bootPath := path }
    mem := { s.mem with retired := s.bst.retireLog.foldl (fun m p => mput 0 p.1 p.2 m) [] } }
  let s2 := if path = .full then saveTraining s1 else s1
  let s3 := beginDamask (loadCue (measureProfile s2))
  residence (conBoot 6 { s3 with mem := { s3.mem with retained := false, retainedPages := [] } })

/-! ## The end of BOOT (R44 step 8, Table 2.4, R216, R350) -/

/-- Ticks begin, or in a wall the tile listens first (R216, R350). -/
def beginTicks (s : State) : State :=
  if fbit s.conf GNG_CTRL_EN then
    { enablePorts s with gng := { (enablePorts s).gng with role := .joining, tk := tileIndex s.conf } }
  else startTicks false s

/-- BOOT ends: to CUE at the first FT after panel-on, else to LIVE at once. The first frame in LIVE has the next FE. -/
def bootDone (s : State) : State :=
  if s.cue.powerOn.isSome then (if s.pnl.state = .on then beginTicks s else s)
  else
    let s1 := { s with
      sys := { s.sys with mode := .live, stage := .finished }
      od := { s.od with intervals := List.replicate 8 (min 0xFFFFF (tminUs s.conf)) } }
    conBoot 8 (beginTicks (postFe 0x0003 0 (s.sys.fe + 1) [modeNum .boot, modeNum .live] s1))

/-- What the end of a step of BOOT does: image verification, memory training, the rest. -/
def bootStep (i : Instr) (s : State) : State :=
  match i, s.sys.stage with
  | .bootImageVerified, .image => imageVerified s
  | .memoryTrainingDone ok, .training => memoryTrained ok s
  | .bootComplete, .loaded => bootDone s
  | _, _ => s

/-- Must BOOT wait before what follows a step: for VIN good (R49), or below 100 °C before the firmware starts (R334)? -/
def bootWaits (i : Instr) (s : State) : Bool :=
  s.sys.bootHeld || (i = .bootImageVerified && decide (1600 ≤ s.thm.junction))

/-- A step of BOOT ends: what follows it runs, or waits. -/
def endBootStep (i : Instr) (s : State) : State :=
  if s.sys.mode ≠ .boot || s.pwr.fall ≠ .idle || s.sys.transit.isSome then s
  else if bootWaits i s then { s with sys := { s.sys with heldStep := some i } }
  else bootStep i s

/-- BOOT goes on with the step that it held back. -/
def resumeBoot (s : State) : State :=
  match s.sys.heldStep with
  | some i => if bootWaits i s then s else bootStep i { s with sys := { s.sys with heldStep := none } }
  | none => s

/-- BOOT_IMAGE_VERIFIED (R44, R368, R369). -/
def execBootImageVerified (s : State) : Answer := .next (endBootStep .bootImageVerified s)

/-- MEMORY_TRAINING_DONE (R45). -/
def execMemoryTrainingDone (patternOk : Bool) (s : State) : Answer := .next (endBootStep (.memoryTrainingDone patternOk) s)

/-- BOOT_COMPLETE (R44, Table 2.4). -/
def execBootComplete (s : State) : Answer := .next (endBootStep .bootComplete s)

/-! ## VIN good and wakes -/

/-- A wake from DORMANT (Table 2.4, R439): BOOT begins at once when VIN is good, else at VIN good (R41). RWS fields, which
take their reset values at power-on reset and after the fall alone, keep theirs (R10; log entry 21), and VIN_MIN counts on, as
the lowest VIN since power-on reset (Table 19.11). Of two triggers in one always-on cycle the command with the lower encoding
comes first, and the other finds no DORMANT (R439; DESIGN CHOICE 148). -/
def wake (src gpio port : Nat) (s : State) : State :=
  let s0 := coldReset (causeNext { cause := 2, wakeSrc := src, wakeGpio := gpio, wakePort := port } s)
  let s1 := { s0 with pwr := { s0.pwr with braceCount := s.pwr.braceCount, vinMin := s.pwr.vinMin }
                      conf := { s0.conf with live := mkeep (fun k => k = 0x000020) s.conf.live } }
  let s2 := bootEntered .dormant s1
  if s2.sys.vinLow then s2 else beginBoot s2

/-- Leave BRACE (R49). -/
def exitBrace (us : Nat) (s : State) : State :=
  updateGuarantee (post 0x1502 0 [min 0xFFFFFFFF us]
    { s with sys := { s.sys with brace := false }, pwr := { s.pwr with capDown := false, capSteps := 8 } })

/-- VIN_GOOD (R41, R49, R439): `braceUs` is the time spent in BRACE. -/
def execVinGood (braceUs : Nat) (s : State) : Answer :=
  .next (if s.pwr.fall ≠ .idle || !s.pwr.inputOn then s
  else
    let s0 := vinGoodSample s
    let s1 := { s0 with sys := { s0.sys with vinLow := false, bootHeld := false } }
    match s.sys.mode with
    | .dormant => if s.sys.vinLost then wake 4 0 0 s1 else s1
    | .boot =>
      if s.sys.stage = .unpowered then beginBoot s1
      else updateGuarantee (railsReady (resumeBoot s1))
    | _ => updateGuarantee (railsReady (if s.sys.brace then exitBrace braceUs s1 else s1)))

/-- GPIO_WAKE_EDGE (R438): the level that an input pin takes, and in DORMANT a wake where the pin is set for that edge. -/
def execGpioWakeEdge (pin : Nat) (rising : Bool) (s : State) : Answer :=
  let m := BitVec.ofNat 8 (2 ^ pin)
  let s1 := { s with sys := { s.sys with gpioPins := if rising then s.sys.gpioPins ||| m else s.sys.gpioPins &&& ~~~m } }
  .next (if s.sys.mode = .dormant && bit (fget s.conf SYS_GPIO_CFG_WAKE_EN) pin && !(bit (fget s.conf SYS_GPIO_CFG_DIR) pin)
      && bit (fget s.conf SYS_GPIO_CFG_EDGE) pin = rising then wake 2 pin 0 s1 else s1)

/-- GINGHAM_WAKE (R364). -/
def execGinghamWake (port : Nat) (s : State) : Answer := .next (if s.sys.mode = .dormant then wake 3 0 port s else s)

/-! ## The Damask map (R192 to R194) -/

/-- Residuals of a body (Table 9.3); none for an invalid token or a missing byte. `k` bounds the tokens. -/
def residuals : Nat → Bytes → Option (List Nat)
  | _, [] => some []
  | 0, _ :: _ => none
  | k + 1, t :: r =>
    let v := t.toNat
    if v < 0x40 then (residuals k r).map (List.replicate (v + 1) 0 ++ ·)
    else if v < 0x80 then (residuals k r).map ((v + 160) % 256 :: ·)
    else if v = 0x80 then match r with
      | b :: q => (residuals k q).map (b.toNat :: ·)
      | [] => none
    else none

/-- Bytes from residuals: each adds to the byte 9 places before (R193). `last` holds the nine bytes before, oldest first. -/
def undelta : List Nat → List Nat → Bytes
  | _, [] => []
  | last, d :: r =>
    let v := (last.headD 0 + d) % 256
    BitVec.ofNat 8 v :: undelta (last.drop 1 ++ [v]) r

/-- A line's 9W bytes, where its body decodes correctly (R193). -/
def mapLine (w crc : Nat) (body : Bytes) : Option Bytes :=
  match residuals body.length body with
  | some l =>
    let d := undelta (List.replicate 9 0) l
    if l.length = 9 * w && crc32c d = crc then some d else none
  | none => none

/-- The load so far: the last Y taken, lines written, bad lines, and the memory. -/
structure MapLoad where
  last : Option Nat := none
  bad : List Nat := []
  seen : List Nat := []
  skipped : Nat := 0
  lines : List (Nat × Bytes) := []

/-- The records of a map section (R194); `k` bounds their number. -/
def mapRecords (w h : Nat) : Nat → Bytes → MapLoad → MapLoad
  | 0, _, l => l
  | k + 1, d, l =>
    if d.length < 16 then l
    else
      let y := fieldAt d 0 2
      let n := fieldAt d 4 4
      let rest := d.drop (16 + n + (4 - n % 4) % 4)
      let stale := match l.last with | some z => decide (y ≤ z) | none => false
      if stale || h ≤ y then mapRecords w h k rest { l with skipped := l.skipped + 1, bad := l.bad ++ [y] }
      else match (if d.length < 16 + n then none else mapLine w (fieldAt d 8 4) ((d.drop 16).take n)) with
        | some b => mapRecords w h k rest { l with last := some y, seen := l.seen ++ [y], lines := l.lines ++ [(y, b)] }
        | none => mapRecords w h k rest { l with last := some y }

/-- A write of the housekeeping firmware, page by page (Table 13.4 row 7): a narrow one to a poisoned page is dropped, and the
pair takes a machine check. -/
def hkWrite (a : Nat) (d : Bytes) (s : State) : State :=
  forAll (pieces a d.length) (fun p s =>
    if isPoisoned s (p.1 / 4096) && p.2 < 4096 then machineCheck (uncorrectable (p.1 / 4096) 7 s)
    else writeMem p.1 ((d.drop (p.1 - a)).take p.2) s) s

/-- The map section decodes into the map region at the base that the panel profile set (R194): memory, lines written, bad lines, the first bad one. -/
def loadMap (d : Bytes) (s : State) : State × Nat × Nat × Nat :=
  let w := tW s.conf
  let h := tH s.conf
  if fieldAt d 0 2 ≠ w || fieldAt d 2 2 ≠ h then (s, 0, h, 0)
  else
    let l := mapRecords w h (fieldAt d 4 4) (d.drop 16) {}
    let missing := (List.range h).filter (fun y => !(l.seen.contains y))
    let base := 4096 * s.dmk.mapBase
    let s1 := forAll l.lines (fun p => hkWrite (base + 9 * w * p.1) p.2) s
    (s1, l.lines.length, missing.length + l.skipped, (missing ++ l.bad).foldl min 0xFFFFFFFF)

/-- DAMASK_LOAD_DONE (R194): `ms` is the time from the start of BOOT. -/
def execDamaskLoadDone (ms : Nat) (s : State) : Answer :=
  .next (match profileUsed s with
  | some p =>
    if s.dmk.loading && firmwareRuns s then
      let (s1, written, bad, first) := loadMap p.damask s
      let s2 := post 0x0701 0 [written, ms]
        { s1 with dmk := { s1.dmk with loaded := true, loading := false, badLines := min 0xFFFF bad } }
      postIf (decide (0 < bad)) 0x0702 2 [bad, first] s2
    else s
  | none => s)

/-! ## CUE_START and CUE_STOP on a ring (R287, R288, R306) -/

/-- CUE_START (R287, R282, R358). -/
def execCueStart (sq : Nat) (s : State) : Answer :=
  runRing .pf0 sq 0x41 (fun r s => settleExchange (cueCommand sq 1 r (listCheck (fieldAt r.raw 0x18 4) s))) s

/-- CUE_STOP (R288, R358). -/
def execCueStop (sq : Nat) (s : State) : Answer := runRing .pf0 sq 0x42 (fun r s => settleExchange (cueCommand sq 2 r s)) s

/-! ## MODE_REQ (R39, R43, Table 2.4) -/

/-- A mode by its number (Table 2.2). -/
def modeOf (n : Nat) : Mode := [Mode.dormant, .boot, .live, .hold, .cue, .service].getD n .boot

/-- Transitions that MODE_REQ may ask for (Table 2.4). -/
def mayTurn (m t : Mode) : Bool :=
  match m, t with
  | .live, .hold | .live, .service | .hold, .live | .hold, .service | .cue, .service => true
  | .service, .live | .service, .hold => true
  | .live, .dormant | .hold, .dormant | .cue, .dormant | .service, .dormant => true
  | _, _ => false

/-- An accepted request: leaving LIVE ends the displayed frame's scans (R101), and leaving HOLD ends quiet (R263). -/
def acceptMode (t : Mode) (retain : Bool) (s : State) : State :=
  let s1 := beginTransit t retain s
  if s.sys.mode = .live then lastScanKnown s1 else if s.sys.mode = .hold then endQuietEarly s1 else s1

/-- MODE_REQ (R39). DESIGN CHOICE 33: a request that meets both MODE_BUSY's clause and the one for the current mode is
MODE_BUSY. -/
def execModeReq (sq : Nat) (s : State) : Answer :=
  runRing .pf0 sq 0x13 (fun r s =>
    let f := fieldAt r.raw 0x18 4
    let t := modeOf (f % 8)
    let now := modeNum s.sys.mode
    if s.sys.transit.isSome || s.sys.mode = .boot then finish .pf0 sq r MODE_BUSY [now] s
    else if t = s.sys.mode then finish .pf0 sq r SUCCESS [now] s
    else if !(mayTurn s.sys.mode t) then finish .pf0 sq r MODE_INVALID [now] s
    else finish .pf0 sq r SUCCESS [now] (acceptMode t (bit f 8 && t = .dormant) s)) s

/-! ## Housekeeping pairs (R396) -/

/-- HK_LOCKSTEP_MISMATCH (R396). -/
def execHkLockstepMismatch (pair cause : Nat) (s : State) : Answer := .next (if dieRuns s then hkFault pair cause s else s)

/-- HK_SELF_TEST_DONE (R396, R400): the halted pair returns or is retired. -/
def execHkSelfTestDone (pair : Nat) (pass : Bool) (s : State) : Answer :=
  .next (match aget s.flt.hkCause pair with
  | none => s
  | some (cause, fe, seconds) =>
    let f := { s.flt with hkCause := s.flt.hkCause.filter (fun p => p.1 ≠ pair) }
    if pass then
      logFaultAt fe seconds 3 1 pair [cause]
        (post 0x1205 3 [pair, cause, 0] { s with flt := { f with hkOk := f.hkOk ||| BitVec.ofNat 2 (2 ^ pair) } })
    else putSpares (logFaultAt fe seconds 3 6 pair [cause] (post 0x1205 3 [pair, cause, 1] { s with flt := f })))

/-! ## Clock loss (R397) -/

/-- An engine without clock (Table 18.2): the active engine's stripe calls for a spare; a checker or idle spare is retired. The
first mismatching line of the record is open. -/
def engineClockLost (e : Nat) (s : State) : State :=
  if s.flt.checkers.contains e then retireChecker e s
  else if s.flt.idle.contains e then retireIdle e s
  else match (List.range 192).find? (fun i => engineOf s i = e && !(s.flt.unserved.contains i)) with
    | some i => callEngine i (freeNow s % 65536) (skipFree 1 s)
    | none => s

/-- What a domain's loss of clock does (Table 18.2). The cause that a housekeeping pair then reports is open. -/
def clockLost (d : Nat) (s : State) : State :=
  if d < 200 then engineClockLost d s
  else if d < 212 then pruneRun (groupClockLost (d - 200) s)
  else if d < 216 then portDown (d - 212) s
  else if d = 234 || d = 235 then hkFault (d - 234) (freeNow s % 3) (skipFree 1 s)
  else watchdog 0 s

/-- CLOCK_LOSS (R23, R397): the record's OUTCOME is not given but for a reset. In the fall, which runs to reset, a loss is still
detected and recorded. -/
def execClockLoss (domain : Nat) (s : State) : Answer :=
  .next (if 247 < domain || s.flt.lostClocks.contains domain || !(dieRuns s) then s
  else
    let s1 := post 0x1206 3 [domain] { s with flt := { s.flt with lostClocks := s.flt.lostClocks ++ [domain] } }
    let resets := decide (216 ≤ domain) && domain ≠ 234 && domain ≠ 235 && s.pwr.fall = .idle
    let s2 := if resets then logFault 4 5 domain [] s1 else logFault 4 (freeNow s1 % 7) domain [] (skipFree 1 s1)
    clockLost domain s2)

/-- CLOCK_RETURN (R397). -/
def execClockReturn (domain : Nat) (s : State) : Answer :=
  let s1 := { s with flt := { s.flt with lostClocks := s.flt.lostClocks.filter (· ≠ domain) } }
  .next (if 200 ≤ domain && domain < 212 then groupClockBack (domain - 200) s1 else s1)

/-! ## Pages and the junction -/

/-- PAGE_UNCORRECTABLE (R295, R305, R306, Table 13.4): the decode fails: `owner` is the stripe of an engine fetch and the pair of a housekeeping read. -/
def execPageUncorrectable (page : PageRead) (requester owner : Nat) (s : State) : Answer :=
  .next (if coded s page.page && s.pwr.fall = .idle && decodePage s page = .failed then
    let s1 := badDecode page requester s
    if requester = 6 && owner < 192 then
      callEngine owner (freeNow s1 % 65536) (skipFree 1 { s1 with flt := { s1.flt with
        trapped := if s1.flt.trapped.contains owner then s1.flt.trapped else s1.flt.trapped ++ [owner] } })
    else if requester = 7 then hkFault (owner % 2) 1 s1
    else s1
  else s)

/-- THERMAL_SAMPLE (R333, R334): at 112 °C a record and a watchdog reset; below 100 °C a BOOT that waits goes on. -/
def execThermalSample (junction : Int) (s : State) : Answer :=
  .next (if s.sys.mode = .dormant || s.sys.stage = .unpowered || s.pwr.fall ≠ .idle then s
  else
    let s1 := resumeBoot (junctionSample junction s)
    if 1792 ≤ junction && !(s.sys.transit.any (fun t => t.target = .boot)) then
      watchdog 2 (logFree 14 5 [sfield 16 junction % 2 ^ 32] s1)
    else s1)

/-- WATCHDOG_RESET (R10, Table 2.4). -/
def execWatchdogReset (reason : Nat) (s : State) : Answer := .next (watchdog (reason % 4) s)

/-! ## SPARE_COMMIT (R402, Table 18.5) -/

/-- An engine for a stripe: at the next FT, where the command completes. -/
def commitEngine (sq : Nat) (r : Running) (inst spare : Nat) (s : State) : State :=
  let open_ := s.flt.suspect.any (fun p => p.1 = inst) || s.flt.coming.any (fun m => m.stripe = inst)
  let pick := if spare = 0xFFFFFFFF then s.flt.idle.head? else s.flt.idle.find? (· = spare)
  if 191 < inst then finish .pf0 sq r BAD_PARAM [0x1C] s
  else if spare ≠ 0xFFFFFFFF && !(s.flt.idle.contains spare) then finish .pf0 sq r BAD_PARAM [0x20] s
  else if open_ then s
  else match pick with
    | none => finish .pf0 sq r RESOURCE_BUSY [] s
    | some e =>
      let m : EngineMove := { stripe := inst, spare := e, fe := s.sys.fe, seconds := s.lin.seconds, ring := some sq
                              exchange := !(s.flt.pendingStripes.contains inst) }
      let f := takeEngine e s.flt
      holdRunning .pf0 sq r inst { s with flt := { f with coming := f.coming ++ [m] } }

/-- A Twill lane onto its group's spare (R259, R260, R261). After a preventive exchange the lane that was replaced is the
spare. DESIGN CHOICE 159: it can serve its own logical lane alone, to which it is wired, and comes back with no SPARE_MAP. -/
def commitLane (sq : Nat) (r : Running) (g lane : Nat) (s : State) : State :=
  let gr := groupAt s g
  let back := gr.spareUsed && gr.laneSpare && gr.spareLane = lane
  match (if g ≤ 11 && lane < 8 then portOfLane s.conf g lane else none) with
  | none => finish .pf0 sq r BAD_PARAM [if 11 < g then 0x1C else 0x20] s
  | some (n, c) =>
    if !(spareReaches s n c) then finish .pf0 sq r BAD_PARAM [0x20] s
    else if gr.spareUsed && !back then finish .pf0 sq r RESOURCE_BUSY [] s
    else
      let p := portAt s n
      let reason := if p.state = .failed then p.reason else freeNow s % 7
      let s1 := logFault 5 2 n [g, lane, reason] (skipFree 1 (setPort n { p with initial := false } s))
      let s2 := if back then
          let s0 := setGroup g { groupAt s1 g with spareUsed := false, laneSpare := false, pending := none } s1
          putSpares (lanesFollow g (trainPort false n s0))
        else
          let s0 := useSpare n c lane s1
          setGroup g { groupAt s0 g with laneSpare := gr.pending ≠ some lane && p.state ≠ .failed } s0
      finish .pf0 sq r SUCCESS [n] s2

/-- A solver pair (R395): it is retired when it was pending, else it becomes the idle one. The row of the record is open. -/
def commitPair (sq : Nat) (r : Running) (p spare : Nat) (s : State) : State :=
  if !((servingPairs s.flt).contains p) then finish .pf0 sq r BAD_PARAM [0x1C] s
  else if spare ≠ 0 then finish .pf0 sq r BAD_PARAM [0x20] s
  else match s.flt.solverIdle with
    | none => finish .pf0 sq r RESOURCE_BUSY [] s
    | some k =>
      let f := if s.flt.pendingPairs.contains p then retirePair p s.flt
               else { s.flt with solverIdle := some p, solverSplit := splitWithout p (some k) s.flt.solverSplit }
      finish .pf0 sq r SUCCESS [k] (putSpares (logFault 2 2 p [freeNow s % 512, k] (skipFree 1 { s with flt := f })))

/-- A memory page (R308): retired, pending or not. -/
def commitPage (sq : Nat) (r : Running) (p spare : Nat) (s : State) : State :=
  if dataPages ≤ p then finish .pf0 sq r BAD_PARAM [0x1C] s
  else if spare ≠ 0 then finish .pf0 sq r BAD_PARAM [0x20] s
  else match nextSpare s with
    | none => finish .pf0 sq r RESOURCE_BUSY [] s
    | some k => finish .pf0 sq r SUCCESS [k] (retireTo p k s)

/-- An SRAM row (R315). A failing row is repaired at once while a spare row is left, so that the row replaced here is a good
one, which returns to the spares. -/
def commitRow (sq : Nat) (r : Running) (inst spare : Nat) (s : State) : State :=
  let m := inst / 65536
  let used := mget 0 s.mem.sramUsed m
  if spare ≠ 0 then finish .pf0 sq r BAD_PARAM [0x20] s
  else if 4 ≤ used then finish .pf0 sq r RESOURCE_BUSY [] s
  else finish .pf0 sq r SUCCESS [4 - used] (exchangeRow m (inst % 65536) s)

/-- SPARE_COMMIT (R402). -/
def execSpareCommit (sq : Nat) (s : State) : Answer :=
  runRing .pf0 sq 0x71 (fun r s =>
    let inst := fieldAt r.raw 0x1C 4
    let spare := fieldAt r.raw 0x20 4
    match fieldAt r.raw 0x18 4 with
    | 0 => commitEngine sq r inst spare s
    | 1 => commitLane sq r inst spare s
    | 2 => commitPair sq r inst spare s
    | 3 => commitPage sq r inst spare s
    | 4 => commitRow sq r inst spare s
    | _ => finish .pf0 sq r BAD_PARAM [0x18] s) s

/-! ## FW_UPDATE (R378, R369) -/

/-- Is the slot the running one? In the recovery monitor none runs. -/
def slotRuns (s : State) (second : Bool) : Bool := s.sys.stage ≠ .recovery && s.sys.imageB = second

/-- FW_UPDATE (R378): the slot is written and verified; in the recovery monitor an image that passes ends it with a watchdog
reset (R369). -/
def execFwUpdate (sq : Nat) (data : Rd) (s : State) : Answer :=
  runRead .pf1 sq 0x87 data (fun r s =>
    let second := bit (fieldAt r.raw 0x18 4) 0
    let n := fieldAt r.raw 0x28 4
    if slotRuns s second then finish .pf1 sq r RESOURCE_BUSY [] s
    else if !data.ok || data.bytes.length < n then finish .pf1 sq r DMA_ERROR [min n data.bytes.length] s
    else
      let img := data.bytes.take n
      let good := (imageFault s.sec.fuses img).isNone
      let kept := if good then some img else none
      let s1 := finish .pf1 sq r SUCCESS [b2n good]
        { s with bst := if second then { s.bst with imageB := kept } else { s.bst with imageA := kept } }
      if good && s.sys.stage = .recovery then resetDie 3 s1 else s1) s

end Sys2Proof.Machine
end

