-- ==== Sys2Proof/Machine/HostLink.lean ====
section
/-!
DEFINITION. The PCI Express link as the block sees it: resets of the host interface (Table 3.10, R42, R71), training and
power states (R58 to R62, R69), margining and the eye scan (R63), the BAR4 window's size (R66), and the trace port (R426).
-/
namespace Sys2Proof.Machine

/-! ## Resets (Table 3.10) -/

/-- What PERST# and a hot reset share: PF0's host interface and PF1 are reset, streams and keys are lost, the link is down
until it has trained (R42, R71). -/
def resetHost (s : State) : State :=
  let s1 := dropStreams (resetPf1 (warmReset s))
  { s1 with hif := linkOff s1.hif }

/-- The level of PERST#. -/
def setPerst (v : Bool) (s : State) : State := { s with hif := { s.hif with perst := v } }

/-- A link in L2 stays there while PERST# is asserted, and PME_En stays with it: it is sticky where the function keeps its
auxiliary power (Table 3.3, R62; log entry 143). -/
def keepL2 (old h : Hif) : Hif :=
  if old.power = .l2 then { h with power := .l2, pmeEn := old.pmeEn, wakePin := old.wakePin } else h

/-- PERST_ASSERT (R42). -/
def execPerstAssert (s : State) : Answer :=
  .next (if s.hif.perst then s else
    let s1 := resetHost s
    setPerst true { s1 with hif := keepL2 s.hif s1.hif })

/-- PERST_DEASSERT (R73, R62, Tables 2.4 and 3.3): WAKE# is released, and a link in L2 trains again; in DORMANT it is a wake. -/
def execPerstDeassert (s : State) : Answer :=
  .next (if !s.hif.perst then s else
    let s1 := { s with hif := { s.hif with perst := false, wakePin := false, power := if s.hif.power = .l2 then .down else s.hif.power } }
    if s.sys.mode = .dormant then wake 1 0 0 s1 else s1)

/-- HOT_RESET (R42, Table 3.10): the link retrains. -/
def execHotReset (s : State) : Answer := hostOp resetHost s

/-- FLR_PF0 (R42, R66, R71): streams and their keys stay in force. -/
def execFlrPf0 (s : State) : Answer := cfgOp .pf0 warmReset s

/-- FLR_PF1 (R71, R379). -/
def execFlrPf1 (s : State) : Answer := cfgOp .pf1 resetPf1 s

/-- LINK_DOWN (R71). -/
def execLinkDown (s : State) : Answer :=
  hostOp (fun s =>
    let s1 := dropStreams s
    { s1 with hif := linkOff s1.hif }) s

/-! ## Training and width -/

/-- May the link train: PERST# deasserted, the die's reset released, and not in L2 (R58, Table 3.3)? -/
def mayTrain (s : State) : Bool :=
  !s.hif.perst && s.sys.mode ≠ .dormant && s.sys.stage ≠ .unpowered && s.hif.power ≠ .l2

/-- The widths that a link trains at (Table 3.1). -/
def linkWidth (w : Nat) : Bool := [1, 2, 4, 8, 16].contains w

/-- The widest width that the lanes which trained support: a run from lane 0 up, or reversed from lane 15 down (R58,
Table 3.1; the two runs are PRESUMED 24). -/
def widestWidth (bad : BitVec 16) : Option Nat :=
  [16, 8, 4, 2, 1].find? (fun w =>
    (List.range w).all (fun i => !(bad.getLsbD i)) || (List.range w).all (fun i => !(bad.getLsbD (15 - i))))

/-- Width of a training: the partner's offer, no wider than the lanes support; none where the link cannot train (R58,
Table 3.1: rates 1 to 6, Flit mode at 64 GT/s). -/
def trainedWidth (speed offer : Nat) (flit : Bool) (bad : BitVec 16) : Option Nat :=
  if linkWidth offer && 1 ≤ speed && speed ≤ 6 && (flit || speed ≠ 6) then (widestWidth bad).map (min offer) else none

/-- The link's figures after training (R58, Table 3.6). -/
def trained (speed width : Nat) (flit : Bool) (badLanes : BitVec 16) (h : Hif) : Hif :=
  { h with power := .l0, speed, width, flit, l0pWidth := width, badLanes, degraded := decide (badLanes ≠ 0) }

/-- LINK_DEGRADED, or its post when ring service begins (R58, R441). -/
def linkDegraded (width : Nat) (bad : BitVec 16) (s : State) : State :=
  if bad = 0 then s
  else if s.sys.serving then post 0x0101 1 [width, bad.toNat] s
  else { s with hif := { s.hif with degradedDue := some (width, bad.toNat) } }

/-- The receivers of PCIe lanes start from their goals at a training from Detect and at a change of rate (R337). -/
def startLanes (before : Hif) (s : State) : State :=
  if before.power = .down || before.speed ≠ s.hif.speed then forAll ((List.range 16).map (108 + ·)) startReceiver s else s

/-- LINK_TRAINED (R58, R70, R337, R342): what was held for the link goes out; outside Flit mode no stream stays secure. -/
def execLinkTrained (speed width : Nat) (flit : Bool) (badLanes : BitVec 16) (s : State) : Answer :=
  .next (if mayTrain s then
    match trainedWidth speed width flit badLanes with
    | some w =>
      let s0 := pruneRun s
      let s1 := startLanes s.hif { s0 with hif := trained speed w flit badLanes s0.hif }
      autoRun 1 (flushAll (linkDegraded w badLanes (if flit then s1 else dropStreams s1)))
    | none => s
  else s)

/-- Has a band of a frame yet to arrive: its deadline is ahead and its bytes are not all in staging (R60)? -/
def awaitsBand (f : Frame) : Bool :=
  (frameBands f).any (fun p => [BandStatus.idle, .reading].contains (bandStatus f p.1 p.2.1))

/-- Is the block between its fetch of a frame descriptor and the arrival of that frame's last band (R60)? -/
def bandsAwaited (s : State) : Bool :=
  !s.ing.cands.isEmpty || (framesHeld s.ing).any (fun f => f.host && awaitsBand f)
    || s.rings.sqs.any (fun p => p.2.running.any (fun r => opcode r.raw = 0x01))

/-- May the block narrow the link to a width itself (R60)? -/
def mayNarrow (s : State) (w : Nat) : Bool :=
  lbit s.conf HIF_LINK_POLICY_L0P_EN && decide (2 ^ min 4 (lget s.conf HIF_LINK_POLICY_L0P_MIN) ≤ w)
    && !s.hif.wantFull && !(bandsAwaited s)

/-- L0P_WIDTH_CHANGE (R59, R60): a narrowing of the block's own has its conditions. The ingest ceiling follows L0P_WIDTH. -/
def execL0pWidthChange (width : L0pChange) (s : State) : Answer :=
  hostOp (fun s =>
    let w := min width.lanes s.hif.width
    if !(linkWidth width.lanes) || (width.own && w < s.hif.l0pWidth && !(mayNarrow s w)) then s
    else { s with hif := { s.hif with l0pWidth := w, wantFull := s.hif.wantFull && decide (w < s.hif.width) } }) s

/-! ## Power states -/

/-- Does a submission ring hold an unfetched descriptor, or work whose data still moves (R61)? -/
def sqBusy (q : Sq) : Bool := (q.enable && q.head ≠ q.tail) || q.running.any (fun r => !r.waiting)

/-- Is a record or a message of an event ring pending (R61)? -/
def eqBusy (e : Eq) : Bool := !e.pend.isEmpty || e.hoDue

/-- Is anything pending that needs the link (R61): an unfetched descriptor, a transfer, a command's data or a record that waits
to be written, an event or a message? -/
def linkBusy (s : State) : Bool :=
  s.gz.copies.any (fun p => p.2.isSome) || !s.rings.traceWait.isEmpty || s.rings.sqs.any (fun p => sqBusy p.2) || (framesHeld s.ing).any readsLeft
    || s.rings.cqs.any (fun p => !p.2.store.isEmpty || p.2.hoDue) || eqBusy s.rings.eq0 || eqBusy s.rings.eq1
    || !s.hif.pba.isEmpty

/-- Do the block's modes allow it to initiate L1 (R61)? -/
def l1Mode (s : State) : Bool :=
  [Mode.hold, .cue, .service].contains s.sys.mode || (s.sys.mode = .live && lbit s.conf HIF_LINK_POLICY_ASPM_LIVE)

/-- Is L1 enabled in the Link Control register: ASPM Control bit 1 of PF0 (R61; PRESUMED 24)? -/
def l1Enabled (s : State) : Bool := wbit s.hif.cfg0.linkControl 1

/-- L1_IDLE_EXPIRY (R61). -/
def execL1IdleExpiry (s : State) : Answer :=
  .next (if s.hif.power = .l0 && l1Enabled s && !(linkBusy s) && l1Mode s then { s with hif := { s.hif with power := .l1 } } else s)

/-- L1_EXIT (R61). -/
def execL1Exit (s : State) : Answer := .next (leaveL1 s)

/-- PME_TURN_OFF (R62): acknowledged, and the link reaches L2. DESIGN CHOICE 144: L2 is no link down for R71, so that streams
keep their keys until PERST#. -/
def execPmeTurnOff (s : State) : Answer :=
  hostOp (fun s => leaveLive (emit [.pmeToAck] { s with hif := { linkOff s.hif with power := .l2 } })) s

/-- A HOLD that was to become LIVE stays HOLD while PF0 is in D3hot (R69). -/
def stayInHold (s : State) : State :=
  if s.sys.mode = .hold && s.sys.transit.any (fun t => t.target = .live) then { s with sys := { s.sys with transit := none } } else s

/-- PF0 enters D3hot (R69): ring service stops with its state kept. -/
def enterD3hot (pmeEn : Bool) (s : State) : State := leaveLive (stayInHold { s with hif := { s.hif with d3hot := true, pmeEn } })

/-- D3HOT_ENTRY (R69). -/
def execD3hotEntry (pmeEn : Bool) (s : State) : Answer := cfgOp .pf0 (enterD3hot pmeEn) s

/-- A frame descriptor that a doorbell added meanwhile acts now (R69, Table 2.4; log entry 25). -/
def answerRing (s : State) : State :=
  if s.hif.rung then toLive { s with hif := { s.hif with rung := false } } else s

/-- PF0 returns to D0 (R69): ring service resumes where it stopped, and what was held is sent. -/
def returnD0 (pmeEn : Bool) (s : State) : State := answerRing (flushAll { s with hif := { s.hif with d3hot := false, pmeEn } })

/-- D0_RETURN (R69). -/
def execD0Return (pmeEn : Bool) (s : State) : Answer := cfgOp .pf0 (returnD0 pmeEn) s

/-- A write of a function's power management control: PowerState in bits 1:0, of which D0 and D3hot are offered, and PME_En
in bit 8 (Table 3.9, R69; PRESUMED 24). The state of PF1's rings stays too: No_Soft_Reset is 1. -/
def writePm (fn : Fn) (v : Word) (s : State) : State :=
  let d := wbits v 0 2
  let pme := wbit v 8
  match fn with
  | .pf0 => if d = 3 && !s.hif.d3hot then enterD3hot pme s else if d = 0 && s.hif.d3hot then returnD0 pme s
    else { s with hif := { s.hif with pmeEn := pme } }
  | .pf1 => if d = 3 || d = 0 then flushAll { s with hif := { s.hif with d3hot1 := d = 3, pmeEn1 := pme } }
    else { s with hif := { s.hif with pmeEn1 := pme } }

/-! ## Margining, the eye scan, and the rest -/

def eyeOf (s : State) (lane : Nat) : EyeLane := mget {} s.hif.eye lane

def setEye (lane : Nat) (e : EyeLane) (s : State) : State :=
  { s with hif := { s.hif with eye := mput {} lane e s.hif.eye } }

/-- MARGINING_COMMAND (R63): the scan of the lane stops while margining addresses it, and begins anew when it ends. -/
def execMarginingCommand (lane : Nat) (active : Bool) (s : State) : Answer :=
  cfgOp .pf0 (fun s => if lane < 16 then setEye lane { eyeOf s lane with margining := active } s else s) s

/-- Longest run of true (R344): the run that is going on and the best so far. -/
def longestRun : Nat → Nat → List Bool → Nat
  | _, best, [] => best
  | run, best, b :: r => if b then longestRun (run + 1) (max best (run + 1)) r else longestRun 0 best r

/-- The smallest, over the eyes, of the longest error-free run of 64 points; 0 when no eye was swept (R344). -/
def eyeFigure (l : List (List Bool)) : Nat :=
  match l.map (fun e => longestRun 0 0 (e.take 64)) with
  | [] => 0
  | a :: r => r.foldl min a

/-- Is a lane scanned: PCIe lanes 0 to 15 while the link runs and L0p does not idle them, Gingham lanes 16 to 23 (R63)?
DESIGN CHOICE 26: the lanes that L0p idles are those at and above L0P_WIDTH, whichever lanes BAD_LANES names. -/
def scans (s : State) (lane : Nat) : Bool :=
  lbit s.conf HIF_LINK_POLICY_EYE_EN && !(eyeOf s lane).margining
    && (if lane < 16 then linkUp s && decide (lane < s.hif.l0pWidth) else decide (lane < 24))

/-- EYE_SCAN_SWEEP_DONE (R63, R344): per eye, the error-free points of the centre offset row and of the centre phase
column. -/
def execEyeScanSweepDone (lane : Nat) (rows cols : List (List Bool)) (s : State) : Answer :=
  .next (if scans s lane then setEye lane { eyeOf s lane with sweep := some (eyeFigure rows, eyeFigure cols) } s else s)

/-- The BAR4 window takes a size (R66): 2^log2Mib MiB, from 256 MiB to 128 GiB. -/
def resizeBar4 (log2Mib : Nat) (s : State) : State :=
  if 8 ≤ log2Mib && log2Mib ≤ 17 then { s with hif := { s.hif with bar4Log2 := 20 + log2Mib } } else s

/-- BAR4_RESIZE (R66). -/
def execBar4Resize (log2Mib : Nat) (s : State) : Answer := cfgOp .pf0 (resizeBar4 log2Mib) s

/-- TRC_EN_CHANGE (R426): the trace lanes of J9 run while TRC_EN# is low, and send K28.5 when idle; in DORMANT and before the
die's reset is released they are undriven (Table 19.5). -/
def execTrcEnChange (low : Bool) (s : State) : Answer :=
  let runs := s.sys.mode ≠ .dormant && s.sys.stage ≠ .unpowered
  .next ((if runs && low ≠ s.trc.enLow then emit [.traceIdle (if low then traceComma else [])] else id)
    { s with trc := { s.trc with enLow := low } })

end Sys2Proof.Machine
end

