-- ==== Sys2Proof/Machine/HostAccess.lean ====
section
/-!
DEFINITION. Host accesses to module memory through BAR4 (R65, R72, R109 to R116, R293, R300, R306, R381) and to the
registers of BAR0 (R6 to R11, R64, R91, R431 to R437).
-/
namespace Sys2Proof.Machine

/-! ## BAR4 -/

/-- Module address of a BAR4 offset (R65): HIF_BAR4_BASE with the bits below the window's size cleared, plus the offset. -/
def bar4Addr (s : State) (off : Nat) : Nat :=
  let w := 2 ^ s.hif.bar4Log2
  lget s.conf HIF_BAR4_BASE_BASE * 2 ^ 28 / w * w + off

/-- The host's accesses to the reserved space are reported at most once per FT (R293). -/
def refuseReserved (a : Nat) (write : Bool) (s : State) : State :=
  postIf (!s.mem.reservedPosted) 0x0D04 1 [a % 2 ^ 32, a / 2 ^ 32, b2n write] { s with mem := { s.mem with reservedPosted := true } }

/-- The push window in force: first byte and bytes; empty when SLOTS is 0 (R109). -/
def pushWindow (c : Conf) : Nat × Nat := (4096 * fget c ING_PUSH_BASE_BASE, 4096 * pushSlots c * pushPages c)

/-- Does an address lie in the push window? -/
def inPush (c : Conf) (a : Nat) : Bool := decide ((pushWindow c).1 ≤ a) && decide (a < (pushWindow c).1 + (pushWindow c).2)

/-- What a host access meets at a page: the reserved space, the push window, a protected page, or plain memory. -/
inductive Reach where
  | reserved | push | guarded | plain
  deriving DecidableEq, Repr

/-- The kind of a page for a host access (R293, R111, R381). A BAR4 write comes on no IDE stream, so that R116 accepts none
to a protected page of the push window. -/
def reachOf (s : State) (p : Nat) : Reach :=
  if reservedBase ≤ 4096 * p then .reserved
  else if isProtected s p then .guarded
  else if inPush s.conf (4096 * p) then .push else .plain

/-- One piece of a BAR4 read: the bytes so far and whether any are poisoned. -/
def readPiece (p : Nat × Nat) (acc : Bytes × Bool × State) : Bytes × Bool × State :=
  let (d, bad, s) := acc
  let page := p.1 / 4096
  let zeros := List.replicate p.2 0
  match reachOf s page with
  | .reserved => (d ++ zeros, bad, refuseReserved p.1 false s)
  | .push => (d ++ zeros, bad, s)
  | .guarded => (d ++ zeros, bad, refuseProtected true page 0 false s)
  | .plain =>
    if isPoisoned s page then (d ++ readMem s p.1 p.2, true, uncorrectable page 0 s) else (d ++ readMem s p.1 p.2, bad, s)

/-- The pieces of a read, in address order. -/
def readPieces : List (Nat × Nat) → Bytes × Bool × State → Bytes × Bool × State
  | [], acc => acc
  | p :: l, acc => readPieces l (readPiece p acc)

/-- A read of n bytes at module address a. -/
def readBar4 (a n : Nat) (s : State) : State :=
  let r := readPieces (pieces a n) ([], false, s)
  emit [.bar4Reply r.1 r.2.1] r.2.2

/-- BAR4_READ (R65, R298, R306, R381). A read that leaves the window is not a BAR4 access (log entry 8). -/
def execBar4Read (offset length : Nat) (s : State) : Answer :=
  hostOp (fun s => if offset + length ≤ 2 ^ s.hif.bar4Log2 then readBar4 (bar4Addr s offset) length s else s) s

/-- A write of bytes to the header page of a push slot: bytes wait in `hdr` until the COMMIT dword is written whole, which
submits the header (R110). Bytes of the page past the header hold nothing. -/
def pushHeaderBytes (slot off : Nat) (d : Bytes) (s : State) : State :=
  let h := ((keyed off d).filter (fun p => p.1 < 32)).foldl (fun h p => h.set p.1 p.2) ((mget {} s.ing.push slot).hdr)
  let s1 := setPush slot { pushSlotOf s slot with hdr := h } s
  if off ≤ 0x1C && 0x20 ≤ off + d.length then commitHeader slot h none s1 else s1

/-- One piece of a write to the push window. -/
def writePush (a : Nat) (d : Bytes) (s : State) : State :=
  let o := a - (pushWindow s.conf).1
  let size := 4096 * pushPages s.conf
  let slot := o / max 1 size
  let off := o % max 1 size
  if off < 4096 then pushHeaderBytes slot off d s else pushPayload slot (off - 4096) d none s

/-- One piece of a BAR4 write (R293, R300, R306, R381): a narrow write to a poisoned page is dropped. -/
def writePiece (a : Nat) (d : Bytes) (s : State) : State :=
  match reachOf s (a / 4096) with
  | .reserved => refuseReserved a true s
  | .push => writePush a d s
  | .guarded => refuseProtected true (a / 4096) 0 true s
  | .plain => writePage a d s

/-- A write of bytes at module address a, page by page. -/
def writeBar4 (a : Nat) (d : Bytes) (s : State) : State :=
  forAll (pieces a d.length) (fun p s => writePiece p.1 ((d.drop (p.1 - a)).take p.2) s) s

/-- BAR4_WRITE (R65, R72): a poisoned write is dropped. -/
def execBar4Write (offset : Nat) (data : Bytes) (poisoned : Bool) (s : State) : Answer :=
  hostOp (fun s => if poisoned then aer .pf0 AER_POISONED s else if 2 ^ s.hif.bar4Log2 < offset + data.length then s
    else writeBar4 (bar4Addr s offset) data s) s

/-! ## Registers -/

/-- A naturally aligned 32-bit access (R6). -/
def dwordAccess (off size : Nat) : Bool := off % 4 = 0 && size = 4

/-- ACCESS_SIZE (R6, Table 4.11), on the event ring of the function whose BAR0 it is (log entry 5). -/
def badSize (fn : Fn) (off size : Nat) (write : Bool) (s : State) : State := postFn fn 0x0001 1 [off, size, b2n write] s

/-- A write to the RWL fields of a register (R11, R91, R433): into the setup set before lock, dropped after it. -/
def writeRwl (off : Nat) (v : Word) (s : State) : State :=
  if s.sys.lock then post 0x0002 1 [off, v.toNat] s
  else
    let regs := aput off (v &&& BitVec.ofNat 32 (rwlMask off)) s.conf.setup.regs
    { s with conf := { s.conf with setup := { s.conf.setup with regs } } }

/-- A write to the live fields of a register (R434). -/
def writeLive (off : Nat) (v : Word) (s : State) : State :=
  if off = 0x0b0080 then writeTest v s
  else if off = 0x150004 then writeBrace v s
  else { s with conf := putLive off v s.conf }

/-- A write of PWR_STATUS: OVP_SEEN is cleared by a 1 (R434, Table 0.3). -/
def writePwrStatus (v : Word) (s : State) : State := { s with pwr := { s.pwr with ovpSeen := s.pwr.ovpSeen && !(wbit v 1) } }

/-- A write to a register of PF0's BAR0; other offsets drop it (R64). -/
def writeReg (off : Nat) (v : Word) (s : State) : State :=
  if off / 0x10000 = 0x02 then writeRing .pf0 (off % 0x10000) v s
  else if off = 0x000008 then writeLock v s
  else if off = 0x15000c then writePwrStatus v s
  else
    let s1 := if rwlMask off = 0 then s else writeRwl off v s
    if liveMask off = 0 then s1 else writeLive off v s1

/-- A write to PF1's BAR0 (Table 20.2): ring registers and doorbells. -/
def writePf1 (off : Nat) (v : Word) (s : State) : State :=
  if off < 0x20000 then writeRing .pf1 off v s
  else
    let d := off - 0x20000
    if d < 64 then trace1 0 (if d % 8 = 0 then ringSubmission .pf1 (d / 8) v s else ringCompletion .pf1 (d / 8) v s)
    else if d = 0x200 then trace1 0 (ringHead .pf1 .event v s)
    else if d = 0x204 then trace1 0 (ringHead .pf1 .trace1 v s)
    else if d = 0x208 then trace1 0 (ringHead .pf1 .trace2 v s)
    else s

/-- A write to BAR0 of a function. -/
def writeBar0 (fn : Fn) (off : Nat) (v : Word) (s : State) : State :=
  match fn with
  | .pf0 => writeReg off v s
  | .pf1 => writePf1 off v s

/-! ## BAR2 (Table 3.5) -/

/-- Dword of the MSI-X table at a BAR2 offset: the message dwords as written, and Vector Control with the Mask bit (R88). -/
def readMsix (s : State) (off : Nat) : Word :=
  let d := (off - 0x8000) / 4
  if d % 4 = 3 then (if mget false s.hif.unmasked (d / 4) then 0 else 1) else mget 0 s.hif.msixTable d

/-- Dword of the pending bit array. -/
def readPba (s : State) (off : Nat) : Word :=
  let d := (off - 0x9000) / 4
  BitVec.ofNat 32 (ofBits ((List.range 32).filter (fun i => mget false s.hif.pba (32 * d + i))))

/-- A read of BAR2: doorbells and reserved offsets read 0. -/
def readBar2 (s : State) (off : Nat) : Word :=
  if 0x8000 ≤ off && off < 0x9000 then readMsix s off
  else if 0x9000 ≤ off && off < 0x9020 then readPba s off else 0

/-- A write of the MSI-X table: the Mask bit acts as MSIX_MASK and MSIX_UNMASK do (R88). -/
def writeMsix (off : Nat) (v : Word) (s : State) : State :=
  let d := (off - 0x8000) / 4
  if d % 4 = 3 then (if wbit v 0 then mask .pf0 (.vector (d / 4)) s else unmask .pf0 (.vector (d / 4)) s)
  else { s with hif := { s.hif with msixTable := mput 0 d v s.hif.msixTable } }

/-- A write of BAR2 (Tables 3.5, 4.4): a doorbell, or a dword of the MSI-X table; other writes are dropped. -/
def writeBar2 (off : Nat) (v : Word) (s : State) : State :=
  if off < 0x200 then (if off % 8 = 0 then ringSubmission .pf0 (off / 8) v s else ringCompletion .pf0 (off / 8) v s)
  else if off = 0x200 then ringHead .pf0 .event v s
  else if 0x8000 ≤ off && off < 0x9000 then writeMsix off v s else s

/-! ## Configuration space (Tables 3.1, 3.4, 3.9; bit places PRESUMED 24) -/

/-- Identifiers of the capabilities of a function, standard and extended (Table 3.9). -/
def capabilities (fn : Fn) (ext : Bool) : List Nat :=
  match ext, fn with
  | false, _ => [0x01, 0x10, 0x11]
  | true, .pf0 => [0x0001, 0x0003, 0x0015, 0x0019, 0x001E, 0x0025, 0x0026, 0x0027, 0x002A, 0x0030, 0x0031]
  | true, .pf1 => [0x0001, 0x0003, 0x002E]

/-- Power management control and status: PowerState, No_Soft_Reset 1, PME_En (Table 3.9, R69). -/
def readPm (h : Hif) (fn : Fn) : Nat :=
  let (d3, pme) := match fn with | .pf0 => (h.d3hot, h.pmeEn) | .pf1 => (h.d3hot1, h.pmeEn1)
  pack [(if d3 then 3 else 0, 0, 2), (1, 3, 1), (b2n pme, 8, 1)]

/-- MSI-X control: Table Size less 1, Function Mask, MSI-X Enable (Table 3.4, R88). -/
def readMsixControl (h : Hif) (fn : Fn) : Nat :=
  let (size, mask, on) := match fn with
    | .pf0 => (255, h.fmask0, h.msixOn0)
    | .pf1 => (31, h.fmask1, h.msixOn1)
  pack [(size, 0, 11), (b2n mask, 14, 1), (b2n on, 15, 1)]

/-- A configuration register as it reads; a capability that the function lacks reads 0. -/
def readCfg (s : State) (fn : Fn) : CfgReg → Word
  | .id => BitVec.ofNat 32 (Config.vendorId % 65536 + 65536 * (match fn with | .pf0 => 0x6128 | .pf1 => 0x6129))
  | .classCode => match fn with | .pf0 => 0x038000 | .pf1 => 0x088000
  | .deviceCapabilities => 0x10008022
  | .deviceControl => (cfgOf s.hif fn).deviceControl
  | .deviceStatus => (cfgOf s.hif fn).deviceStatus
  | .linkStatus => BitVec.ofNat 32 (s.hif.speed % 16 + 16 * (s.hif.width % 64))
  | .linkControl => (cfgOf s.hif fn).linkControl
  | .l1PmControl => (cfgOf s.hif fn).l1PmControl
  | .pmControl => BitVec.ofNat 32 (readPm s.hif fn)
  | .msixControl => BitVec.ofNat 32 (readMsixControl s.hif fn)
  | .rebarCapability => match fn with | .pf0 => 0x3FF000 | .pf1 => 0
  | .rebarControl => match fn with | .pf0 => BitVec.ofNat 32 (pack [(4, 0, 3), (1, 5, 3), (s.hif.bar4Log2 - 20, 8, 6)]) | .pf1 => 0
  | .ideCapability => match fn with | .pf0 => 0x30042 | .pf1 => 0
  | .capability ext id => if (capabilities fn ext).contains id then BitVec.ofNat 32 id else 0
  | .aerUncorrectable => (cfgOf s.hif fn).aerUnc
  | .aerUncMask => (cfgOf s.hif fn).aerUncMask
  | .aerUncSeverity => (cfgOf s.hif fn).aerSeverity
  | .aerCorrectable => (cfgOf s.hif fn).aerCor
  | .aerCorMask => (cfgOf s.hif fn).aerCorMask
  | .aerPointer => BitVec.ofNat 32 (cfgOf s.hif fn).aerFirst
  | .aerHeader i => BitVec.ofNat 32 ((cfgOf s.hif fn).aerHeader / 2 ^ (32 * (3 - min 3 i)))
  | .serialLow => BitVec.ofNat 32 s.sec.fuses.serial
  | .serialHigh => BitVec.ofNat 32 (s.sec.fuses.serial / 2 ^ 32)

/-- Device Control takes a value: a Max Payload Size above 512 bytes, or a Max Read Request Size above 4096, is not taken and
its field keeps the one before (Table 3.1). -/
def newDeviceControl (old v : Word) : Word :=
  let v1 := if 2 < wbits v 5 3 then setBits v 5 3 (wbits old 5 3) else v
  (if 5 < wbits v 12 3 then setBits v1 12 3 (wbits old 12 3) else v1) &&& 0x7FFF

/-- A write of a register that only holds what it is given, or clears the bits written 1 of a status; the rest is read only. L1 PM
Substates is PF0's alone. -/
def writeHeld (fn : Fn) (r : CfgReg) (v : Word) (c : Cfg) : Cfg :=
  match r with
  | .deviceControl => { c with deviceControl := newDeviceControl c.deviceControl v }
  | .deviceStatus => { c with deviceStatus := c.deviceStatus &&& ~~~v }
  | .linkControl => { c with linkControl := v &&& 0xFFFF }
  | .l1PmControl => if fn = .pf0 then { c with l1PmControl := v } else c
  | .aerUncorrectable => { c with aerUnc := c.aerUnc &&& ~~~v }
  | .aerUncMask => { c with aerUncMask := v }
  | .aerUncSeverity => { c with aerSeverity := v }
  | .aerCorrectable => { c with aerCor := c.aerCor &&& ~~~v }
  | .aerCorMask => { c with aerCorMask := v }
  | _ => c

/-- A configuration write. Power management, MSI-X control and Resizable BAR act as the commands of their own do. -/
def writeCfg (fn : Fn) (r : CfgReg) (v : Word) (s : State) : State :=
  match r with
  | .pmControl => writePm fn v s
  | .msixControl =>
    let s1 := (if wbit v 14 then mask fn .function else unmask fn .function) s
    (if wbit v 15 then unmask fn .enable else mask fn .enable) s1
  | .rebarControl => if fn = .pf0 then resizeBar4 (wbits v 8 6) s else s
  | _ => { s with hif := setCfg fn (writeHeld fn r v (cfgOf s.hif fn)) s.hif }

/-! ## The two commands -/

/-- A register access of a memory window: a poisoned write is dropped and reported before its size is looked at (R72;
DESIGN CHOICE 27), and a wrong size or alignment drops a write (R6, Table 3.5). -/
def windowWrite (fn : Fn) (off size : Nat) (poisoned : Bool) (f : State → State) (s : State) : State :=
  if poisoned then aer fn AER_POISONED s
  else if !(dwordAccess off size) then badSize fn off size true s else f s

/-- A write of PF0's BAR2 (R72, Table 3.5): R6 governs the doorbells; the MSI-X table takes dwords, and past it nothing is
stored. DESIGN CHOICE 145: an access of the MSI-X table of a size or alignment that its specification leaves undefined is dropped. -/
def bar2Write (off size : Nat) (v : Word) (poisoned : Bool) (s : State) : State :=
  if poisoned then aer .pf0 AER_POISONED s
  else if dwordAccess off size then writeBar2 off v s
  else if off < 0x8000 then badSize .pf0 off size true s else s

/-- Is an offset of BAR2 that of a qword outside the doorbells? -/
def qwordAccess (off : Nat) : Bool := off % 8 = 0 && decide (0x8000 ≤ off)

/-- A 64-bit write of PF0's BAR2: two dwords of the MSI-X table, the lower first. -/
def bar2WriteWide (off : Nat) (low high : Word) (poisoned : Bool) (s : State) : State :=
  if poisoned then aer .pf0 AER_POISONED s
  else if off < 0x8000 then badSize .pf0 off 8 true s
  else if qwordAccess off then writeBar2 (off + 4) high (writeBar2 off low s) else s

/-- REGISTER_WRITE (R6, R11, R64, R72, Table 3.5): BAR0, PF0's BAR2 or configuration space. -/
def execRegisterWrite (fn : Fn) (offset : RegAddr) (size : Nat) (value : Word) (poisoned : Bool) (s : State) : Answer :=
  match offset with
  | .bar0 o => hostOp (windowWrite fn o size poisoned (writeBar0 fn o value)) s
  | .bar2 o => hostOp (fun s => if fn = .pf0 then bar2Write o size value poisoned s else s) s
  | .bar2Wide o high => hostOp (fun s => if fn = .pf0 then bar2WriteWide o value high poisoned s else s) s
  | .config r => cfgOp fn (writeCfg fn r value) s

/-- A register read of a memory window: a wrong size or alignment reads 0 (R6). -/
def windowRead (fn : Fn) (off size : Nat) (f : State → State) (s : State) : State :=
  if !(dwordAccess off size) then emit [.readReply 0] (badSize fn off size false s) else f s

/-- A read of BAR0 of a function. -/
def replyBar0 (fn : Fn) (off : Nat) (s : State) : State :=
  match fn with
  | .pf0 => emit [.readReply (readBar0 off s).1] (readBar0 off s).2
  | .pf1 => emit [.readReply (readRing s .pf1 off)] s

/-- A read of PF0's BAR2 (Table 3.5): R6 governs the doorbells, which read 0; past them an access that is no aligned dword reads
0 (DESIGN CHOICE 145). -/
def bar2Read (off size : Nat) (s : State) : State :=
  if dwordAccess off size then emit [.readReply (readBar2 s off)] s
  else emit [.readReply 0] (if off < 0x8000 then badSize .pf0 off size false s else s)

/-- A 64-bit read of PF0's BAR2. -/
def bar2ReadWide (off : Nat) (s : State) : State :=
  if off < 0x8000 then emit [.readReplyWide 0 0] (badSize .pf0 off 8 false s)
  else emit [if qwordAccess off then .readReplyWide (readBar2 s off) (readBar2 s (off + 4)) else .readReplyWide 0 0] s

/-- REGISTER_READ (R6, R7, R64, Table 3.5): the reply carries the value. -/
def execRegisterRead (fn : Fn) (offset : RegAddr) (size : Nat) (s : State) : Answer :=
  match offset with
  | .bar0 o => hostOp (windowRead fn o size (replyBar0 fn o)) s
  | .bar2 o => hostOp (fun s => if fn = .pf0 then bar2Read o size s else s) s
  | .bar2Wide o _ => hostOp (fun s => if fn = .pf0 then bar2ReadWide o s else s) s
  | .config r => cfgOp fn (fun s => emit [.cfgReply fn (readCfg s fn r)] s) s

end Sys2Proof.Machine
end

