-- ==== Sys2Proof/Machine/Dispatch.lean ====
section
/-!
DEFINITION. One arm for each command, in the order of the opcode table.
-/
namespace Sys2Proof.Machine

def exec (i : Instr) (s : State) : Host.Outcome State Fault Refusal :=
  match i with
  | .powerOnReset => Sys2Proof.Machine.execPowerOnReset s
  | .vinGood braceUs => Sys2Proof.Machine.execVinGood braceUs s
  | .bootImageVerified => Sys2Proof.Machine.execBootImageVerified s
  | .memoryTrainingDone patternOk => Sys2Proof.Machine.execMemoryTrainingDone patternOk s
  | .bootComplete => Sys2Proof.Machine.execBootComplete s
  | .damaskLoadDone ms => Sys2Proof.Machine.execDamaskLoadDone ms s
  | .braceEnter vin => Sys2Proof.Machine.execBraceEnter vin s
  | .fall vin => Sys2Proof.Machine.execFall vin s
  | .fallDischargeFrame => Sys2Proof.Machine.execFallDischargeFrame s
  | .fallLampsOff => Sys2Proof.Machine.execFallLampsOff s
  | .fallReset => Sys2Proof.Machine.execFallReset s
  | .vinOvervoltageTrip => Sys2Proof.Machine.execVinOvervoltageTrip s
  | .inputSwitchClose => Sys2Proof.Machine.execInputSwitchClose s
  | .holdupMeasurement mJ => Sys2Proof.Machine.execHoldupMeasurement mJ s
  | .perstAssert => Sys2Proof.Machine.execPerstAssert s
  | .perstDeassert => Sys2Proof.Machine.execPerstDeassert s
  | .hotReset => Sys2Proof.Machine.execHotReset s
  | .flrPf0 => Sys2Proof.Machine.execFlrPf0 s
  | .flrPf1 => Sys2Proof.Machine.execFlrPf1 s
  | .linkDown => Sys2Proof.Machine.execLinkDown s
  | .watchdogReset reason => Sys2Proof.Machine.execWatchdogReset reason s
  | .linkTrained speed width flit badLanes => Sys2Proof.Machine.execLinkTrained speed width flit badLanes s
  | .l0pWidthChange width => Sys2Proof.Machine.execL0pWidthChange width s
  | .l1IdleExpiry => Sys2Proof.Machine.execL1IdleExpiry s
  | .l1Exit => Sys2Proof.Machine.execL1Exit s
  | .pmeTurnOff => Sys2Proof.Machine.execPmeTurnOff s
  | .d3hotEntry pmeEn => Sys2Proof.Machine.execD3hotEntry pmeEn s
  | .d0Return pmeEn => Sys2Proof.Machine.execD0Return pmeEn s
  | .busMasterEnableSet fn => Sys2Proof.Machine.execBusMasterEnableSet fn s
  | .marginingCommand lane active => Sys2Proof.Machine.execMarginingCommand lane active s
  | .eyeScanSweepDone lane rows cols => Sys2Proof.Machine.execEyeScanSweepDone lane rows cols s
  | .hostReadCompletion b data => Sys2Proof.Machine.execHostReadCompletion b data s
  | .msixUnmask fn t => Sys2Proof.Machine.execMsixUnmask fn t s
  | .frameTick => Sys2Proof.Machine.execFrameTick s
  | .lampRepeatCycle => Sys2Proof.Machine.execLampRepeatCycle s
  | .lineTick env => Sys2Proof.Machine.execLineTick env s
  | .settlePoint table => Sys2Proof.Machine.execSettlePoint table s
  | .bandDeadline b => Sys2Proof.Machine.execBandDeadline b s
  | .zoneRowTick row => Sys2Proof.Machine.execZoneRowTick row s
  | .weaverCutoff line stripe plainDone historyDone => Sys2Proof.Machine.execWeaverCutoff line stripe plainDone historyDone s
  | .evPinPulseEnd pin => Sys2Proof.Machine.execEvPinPulseEnd pin s
  | .descriptorFetch fn data => Sys2Proof.Machine.execDescriptorFetch fn data s
  | .frame sq => Sys2Proof.Machine.execFrame sq s
  | .pushHeaderCommit slot header stream => Sys2Proof.Machine.execPushHeaderCommit slot header stream s
  | .pushPayloadWrite slot offset data stream => Sys2Proof.Machine.execPushPayloadWrite slot offset data stream s
  | .bar4Read offset length => Sys2Proof.Machine.execBar4Read offset length s
  | .bar4Write offset data poisoned => Sys2Proof.Machine.execBar4Write offset data poisoned s
  | .registerWrite fn offset size value poisoned => Sys2Proof.Machine.execRegisterWrite fn offset size value poisoned s
  | .sysSetupLockWrite value => Sys2Proof.Machine.execSysSetupLockWrite value s
  | .hifBar4BaseWrite value => Sys2Proof.Machine.execHifBar4BaseWrite value s
  | .sysGpioOutWrite value => Sys2Proof.Machine.execSysGpioOutWrite value s
  | .cueSignalWrite value => Sys2Proof.Machine.execCueSignalWrite value s
  | .pwrBraceWrite value => Sys2Proof.Machine.execPwrBraceWrite value s
  | .sqEnable fn n cfg => Sys2Proof.Machine.execSqEnable fn n cfg s
  | .sqDisable fn n => Sys2Proof.Machine.execSqDisable fn n s
  | .sqErrorClear fn n => Sys2Proof.Machine.execSqErrorClear fn n s
  | .cqEnable fn m cfg => Sys2Proof.Machine.execCqEnable fn m cfg s
  | .cqDisable fn m => Sys2Proof.Machine.execCqDisable fn m s
  | .eqEnable fn cfg => Sys2Proof.Machine.execEqEnable fn cfg s
  | .eqDisable fn => Sys2Proof.Machine.execEqDisable fn s
  | .submissionDoorbell fn n value poisoned => Sys2Proof.Machine.execSubmissionDoorbell fn n value poisoned s
  | .completionHeadDoorbell fn m value poisoned => Sys2Proof.Machine.execCompletionHeadDoorbell fn m value poisoned s
  | .eventHeadDoorbell fn ring value poisoned => Sys2Proof.Machine.execEventHeadDoorbell fn ring value poisoned s
  | .holdoffExpiry ring => Sys2Proof.Machine.execHoldoffExpiry ring s
  | .setTable sq data => Sys2Proof.Machine.execSetTable sq data s
  | .stageConfig sq data => Sys2Proof.Machine.execStageConfig sq data s
  | .armConfig sq => Sys2Proof.Machine.execArmConfig sq s
  | .armConfigCancel sq => Sys2Proof.Machine.execArmConfigCancel sq s
  | .modeReq sq => Sys2Proof.Machine.execModeReq sq s
  | .dormantEntry => Sys2Proof.Machine.execDormantEntry s
  | .gpioWakeEdge pin rising => Sys2Proof.Machine.execGpioWakeEdge pin rising s
  | .linenRead sq => Sys2Proof.Machine.execLinenRead sq s
  | .linenWrite sq data => Sys2Proof.Machine.execLinenWrite sq data s
  | .linenStore sq => Sys2Proof.Machine.execLinenStore sq s
  | .linenBracketOpen sq => Sys2Proof.Machine.execLinenBracketOpen sq s
  | .linenBracketClose sq => Sys2Proof.Machine.execLinenBracketClose sq s
  | .linenBracketAbort sq => Sys2Proof.Machine.execLinenBracketAbort sq s
  | .memCopy sq data => Sys2Proof.Machine.execMemCopy sq data s
  | .memFill sq => Sys2Proof.Machine.execMemFill sq s
  | .regionUpdateDone sq => Sys2Proof.Machine.execRegionUpdateDone sq s
  | .freeBuffer sq => Sys2Proof.Machine.execFreeBuffer sq s
  | .cueLoad sq data => Sys2Proof.Machine.execCueLoad sq data s
  | .cueStart sq => Sys2Proof.Machine.execCueStart sq s
  | .cueStop sq => Sys2Proof.Machine.execCueStop sq s
  | .zoneOverride sq data => Sys2Proof.Machine.execZoneOverride sq data s
  | .zoneOverrideClear sq => Sys2Proof.Machine.execZoneOverrideClear sq s
  | .zoneRead sq => Sys2Proof.Machine.execZoneRead sq s
  | .calRun sq => Sys2Proof.Machine.execCalRun sq s
  | .faultQuery fn sq => Sys2Proof.Machine.execFaultQuery fn sq s
  | .spareCommit sq => Sys2Proof.Machine.execSpareCommit sq s
  | .traceCfg sq => Sys2Proof.Machine.execTraceCfg sq s
  | .lifecycleAdvance sq data => Sys2Proof.Machine.execLifecycleAdvance sq data s
  | .debugToken sq data => Sys2Proof.Machine.execDebugToken sq data s
  | .debugRevoke sq => Sys2Proof.Machine.execDebugRevoke sq s
  | .debugTokenExpiry => Sys2Proof.Machine.execDebugTokenExpiry s
  | .measExtend sq data => Sys2Proof.Machine.execMeasExtend sq data s
  | .svnCommit sq => Sys2Proof.Machine.execSvnCommit sq s
  | .nbrMeasRead sq => Sys2Proof.Machine.execNbrMeasRead sq s
  | .nbrPin sq data => Sys2Proof.Machine.execNbrPin sq data s
  | .fwUpdate sq data => Sys2Proof.Machine.execFwUpdate sq data s
  | .keyErase sq => Sys2Proof.Machine.execKeyErase sq s
  | .spdmKeyExchange authenticated => Sys2Proof.Machine.execSpdmKeyExchange authenticated s
  | .spdmGetMeasurements index => Sys2Proof.Machine.execSpdmGetMeasurements index s
  | .keyImport session keyId flags key => Sys2Proof.Machine.execKeyImport session keyId flags key s
  | .keySlotErase session keyId => Sys2Proof.Machine.execKeySlotErase session keyId s
  | .ideKmKeyProg session stream keySet key => Sys2Proof.Machine.execIdeKmKeyProg session stream keySet key s
  | .ideKmKSetGo session stream keySet => Sys2Proof.Machine.execIdeKmKSetGo session stream keySet s
  | .ideKmKSetStop session stream keySet => Sys2Proof.Machine.execIdeKmKSetStop session stream keySet s
  | .ideKmQuery session => Sys2Proof.Machine.execIdeKmQuery session s
  | .statisticsPassLine line stripe => Sys2Proof.Machine.execStatisticsPassLine line stripe s
  | .zoneStatsMerge row stripe fe => Sys2Proof.Machine.execZoneStatsMerge row stripe fe s
  | .zoneCommit => Sys2Proof.Machine.execZoneCommit s
  | .checkerSelfTestDone engine pass => Sys2Proof.Machine.execCheckerSelfTestDone engine pass s
  | .spareSelfTestTimer pass => Sys2Proof.Machine.execSpareSelfTestTimer pass s
  | .solverLockstepMismatch pair => Sys2Proof.Machine.execSolverLockstepMismatch pair s
  | .hkLockstepMismatch pair cause => Sys2Proof.Machine.execHkLockstepMismatch pair cause s
  | .hkSelfTestDone pair pass => Sys2Proof.Machine.execHkSelfTestDone pair pass s
  | .clockLoss domain => Sys2Proof.Machine.execClockLoss domain s
  | .dvmSample codes => Sys2Proof.Machine.execDvmSample codes s
  | .powerOnStepDelay => Sys2Proof.Machine.execPowerOnStepDelay s
  | .powerOnStepTimeout => Sys2Proof.Machine.execPowerOnStepTimeout s
  | .railRetryDelay => Sys2Proof.Machine.execRailRetryDelay s
  | .railRetryReset => Sys2Proof.Machine.execRailRetryReset s
  | .panelOnDelay ms => Sys2Proof.Machine.execPanelOnDelay ms s
  | .dischargePeriodEnd => Sys2Proof.Machine.execDischargePeriodEnd s
  | .panelEnableRelease => Sys2Proof.Machine.execPanelEnableRelease s
  | .twillTraining => Sys2Proof.Machine.execTwillTraining s
  | .backchannelReply port type payload crcOk => Sys2Proof.Machine.execBackchannelReply port type payload crcOk s
  | .backchannelReplyTimeout port => Sys2Proof.Machine.execBackchannelReplyTimeout port s
  | .trainingPingTimer port => Sys2Proof.Machine.execTrainingPingTimer port s
  | .trainingPhaseTimeout port ms => Sys2Proof.Machine.execTrainingPhaseTimeout port ms s
  | .trainingRetryBackoff port => Sys2Proof.Machine.execTrainingRetryBackoff port s
  | .statusPollTimer port => Sys2Proof.Machine.execStatusPollTimer port s
  | .twillTestStart value => Sys2Proof.Machine.execTwillTestStart value s
  | .twillTestStop value => Sys2Proof.Machine.execTwillTestStop value s
  | .twillTestRead value => Sys2Proof.Machine.execTwillTestRead value s
  | .twillErrorInject value => Sys2Proof.Machine.execTwillErrorInject value s
  | .lampReturnFrame lane frame => Sys2Proof.Machine.execLampReturnFrame lane frame s
  | .lampAnswerTimeout lane => Sys2Proof.Machine.execLampAnswerTimeout lane s
  | .lampDiscovery lane => Sys2Proof.Machine.execLampDiscovery lane s
  | .lampRediscoverTimer => Sys2Proof.Machine.execLampRediscoverTimer s
  | .pageCorrection page requester => Sys2Proof.Machine.execPageCorrection page requester s
  | .pageUncorrectable page requester owner => Sys2Proof.Machine.execPageUncorrectable page requester owner s
  | .pageRetire page => Sys2Proof.Machine.execPageRetire page s
  | .scrubVisit corrected uncorrectable => Sys2Proof.Machine.execScrubVisit corrected uncorrectable s
  | .sramCorrection macroIdx row word double => Sys2Proof.Machine.execSramCorrection macroIdx row word double s
  | .sramTestWindow failing => Sys2Proof.Machine.execSramTestWindow failing s
  | .linenStoreInterval => Sys2Proof.Machine.execLinenStoreInterval s
  | .linenStoreDelayExpiry => Sys2Proof.Machine.execLinenStoreDelayExpiry s
  | .linenFreeze => Sys2Proof.Machine.execLinenFreeze s
  | .linenStoreCommit us failedPage => Sys2Proof.Machine.execLinenStoreCommit us failedPage s
  | .linenMarginRead weak0 weak1 => Sys2Proof.Machine.execLinenMarginRead weak0 weak1 s
  | .thermalSample junction => Sys2Proof.Machine.execThermalSample junction s
  | .engineClockStep => Sys2Proof.Machine.execEngineClockStep s
  | .panelSensorPoll readings => Sys2Proof.Machine.execPanelSensorPoll readings s
  | .adaptWindowEnd lane w => Sys2Proof.Machine.execAdaptWindowEnd lane w s
  | .calMeasurementDone lane m => Sys2Proof.Machine.execCalMeasurementDone lane m s
  | .ginghamPortBringup port step => Sys2Proof.Machine.execGinghamPortBringup port step s
  | .ginghamBringupTimeout port => Sys2Proof.Machine.execGinghamBringupTimeout port s
  | .ginghamRetryTimer port => Sys2Proof.Machine.execGinghamRetryTimer port s
  | .ginghamPortDown port => Sys2Proof.Machine.execGinghamPortDown port s
  | .hello port src m => Sys2Proof.Machine.execHello port src m s
  | .helloTimer => Sys2Proof.Machine.execHelloTimer s
  | .ginghamJoinTimeout => Sys2Proof.Machine.execGinghamJoinTimeout s
  | .latProbe port turnaround => Sys2Proof.Machine.execLatProbe port turnaround s
  | .latEcho port roundTrip turnaround => Sys2Proof.Machine.execLatEcho port roundTrip turnaround s
  | .tickMarker port => Sys2Proof.Machine.execTickMarker port s
  | .digest port src seqNo fe value => Sys2Proof.Machine.execDigest port src seqNo fe value s
  | .ginghamArm port src seqNo id kind slots fe body => Sys2Proof.Machine.execGinghamArm port src seqNo id kind slots fe body s
  | .armAck port src seqNo id status cls => Sys2Proof.Machine.execArmAck port src seqNo id status cls s
  | .armCommit port src seqNo id => Sys2Proof.Machine.execArmCommit port src seqNo id s
  | .armAbort port src seqNo id => Sys2Proof.Machine.execArmAbort port src seqNo id s
  | .haloTarget port fe row targets => Sys2Proof.Machine.execHaloTarget port fe row targets s
  | .haloLevel port fe firstRow levels => Sys2Proof.Machine.execHaloLevel port fe firstRow levels s
  | .measReq port nonce => Sys2Proof.Machine.execMeasReq port nonce s
  | .meas port nonce lifecycle slots signature => Sys2Proof.Machine.execMeas port nonce lifecycle slots signature s
  | .ginghamWake port => Sys2Proof.Machine.execGinghamWake port s
  | .registerRead fn offset size => Sys2Proof.Machine.execRegisterRead fn offset size s
  | .vinDipBeforeRunning vin => Sys2Proof.Machine.execVinDipBeforeRunning vin s
  | .dormantVinLoss => Sys2Proof.Machine.execDormantVinLoss s
  | .clockReturn domain => Sys2Proof.Machine.execClockReturn domain s
  | .twillClockLossTimeout group => Sys2Proof.Machine.execTwillClockLossTimeout group s
  | .vioGtSample mV => Sys2Proof.Machine.execVioGtSample mV s
  | .trcEnChange low => Sys2Proof.Machine.execTrcEnChange low s
  | .poweredSecond => Sys2Proof.Machine.execPoweredSecond s
  | .endSession session => Sys2Proof.Machine.execEndSession session s
  | .busMasterEnableClear fn => Sys2Proof.Machine.execBusMasterEnableClear fn s
  | .bar4Resize log2Mib => Sys2Proof.Machine.execBar4Resize log2Mib s
  | .msixMask fn t => Sys2Proof.Machine.execMsixMask fn t s

end Sys2Proof.Machine
end

