-- ==== Sys2Proof/Safety.lean ====
section
/-!
DEFINITION. What counts as a sound state, and the words in which statements are made: the parts of the state, what a
command leaves alone, and how the fuses may change.
-/
namespace Sys2Proof
open Sys2Proof.Machine

/-- The parts of the state: its top-level fields. -/
inductive Part where
  | sys | pwr | hif | rings | conf | ing | pix | gz | lmp | dmk | od | tmg | pnl | twl | cue | mem | lin | cal | gng
  | sec | flt | thm | trc | bst | out | free | pending
  deriving DecidableEq, Repr

/-- A part is the same in two states. -/
def Part.same (s t : State) : Part → Prop
  | .sys => t.sys = s.sys
  | .pwr => t.pwr = s.pwr
  | .hif => t.hif = s.hif
  | .rings => t.rings = s.rings
  | .conf => t.conf = s.conf
  | .ing => t.ing = s.ing
  | .pix => t.pix = s.pix
  | .gz => t.gz = s.gz
  | .lmp => t.lmp = s.lmp
  | .dmk => t.dmk = s.dmk
  | .od => t.od = s.od
  | .tmg => t.tmg = s.tmg
  | .pnl => t.pnl = s.pnl
  | .twl => t.twl = s.twl
  | .cue => t.cue = s.cue
  | .mem => t.mem = s.mem
  | .lin => t.lin = s.lin
  | .cal => t.cal = s.cal
  | .gng => t.gng = s.gng
  | .sec => t.sec = s.sec
  | .flt => t.flt = s.flt
  | .thm => t.thm = s.thm
  | .trc => t.trc = s.trc
  | .bst => t.bst = s.bst
  | .out => t.out = s.out
  | .free => t.free = s.free
  | .pending => t.pending = s.pending

/-- Between two states nothing has changed outside the listed parts. -/
def Only (ps : List Part) (s t : State) : Prop := ∀ p : Part, p ∉ ps → p.same s t

/-- The pages of module memory are kept as R298 says: both maps are canonical, and every byte that does not read as zero
lies in a written page, so that every unwritten page reads as zero. -/
def PagesSound (bytes : SMap Byte) (written : SMap Bool) : Prop :=
  mwf 0 bytes = true ∧ mwf false written = true ∧ ∀ p ∈ bytes, mget false written (p.1 / 4096) = true

/-- Module memory is sound. -/
def MemSound (s : State) : Prop := PagesSound s.mem.bytes s.mem.written

/-- Fuses only go forward (R365, R371): the lifecycle state and the minimum security version never fall. -/
def FusesForward (a b : Fuses) : Prop := a.lifecycle ≤ b.lifecycle ∧ a.svnMin ≤ b.svnMin

/-- CMD_DONE of the command that ring n ran (Table 4.6). -/
def cmdDone (n : Nat) (r : Running) (status : Nat) (res : List Nat) : Rec :=
  { type := 1, status, sq := n, slot := r.slot, tag := userTag r.raw, irq := hasIrq r.raw
    r0 := res.getD 0 0, r1 := res.getD 1 0, r2 := res.getD 2 0, r3 := res.getD 3 0 }

/-- FRAME_DONE of a candidate that ends before it is latched (Table 4.6). -/
def frameDone (status : Nat) (res : List Nat) (c : Cand) : Rec :=
  { type := 4, status, sq := c.sq, slot := c.slot, tag := userTag c.raw, irq := hasIrq c.raw
    r0 := res.getD 0 0, r1 := res.getD 1 0, r2 := res.getD 2 0, r3 := res.getD 3 0 }

/-- Between two states ring n's command has completed with a status and results: the ring runs nothing, and CMD_DONE is the
newest record held for its completion ring, which is seen while that ring is disabled and so writes nothing out (R86). -/
def Completed (s t : State) (fn : Fn) (n : Nat) (r : Running) (status : Nat) (res : List Nat) : Prop :=
  (sqOf t.rings fn n).running = none ∧ ((cqAt s.rings r.cq).enable = false →
    (cqAt t.rings r.cq).store = (cqAt s.rings r.cq).store ++ [cmdDone n r status res])

/-- Ring n's command has begun and waits for an event, keeping a number. -/
def Waits (t : State) (fn : Fn) (n : Nat) (r : Running) (arg : Nat) : Prop :=
  (sqOf t.rings fn n).running = some { r with waiting := true, arg }

/-- An event of the frame in progress (Table 4.9). -/
def event (s : State) (code sev : Nat) (p : List Nat) : Ev :=
  { code, sev, fe := s.sys.fe, p0 := p.getD 0 0, p1 := p.getD 1 0, p2 := p.getD 2 0 }

/-- Between two states the listed events, and no others, were posted to PF0's event ring, which is seen while that ring
cannot be written and holds them (R441); in the fall none is (Table 2.8). -/
def Posts (s t : State) (l : List Ev) : Prop :=
  s.pwr.fall = .idle → eventsFlow s .pf0 = false → (eqOf s.rings .pf0).pend.length + l.length ≤ 256 →
    (eqOf t.rings .pf0).pend = (eqOf s.rings .pf0).pend ++ l

/-- Between two states one fault record was added to the fault log, and nothing else of the Linen store changed (R399). -/
def Logs (s t : State) (cls outcome inst : Nat) (d : List Nat) : Prop := t.lin = (logFault cls outcome inst d s).lin

/-- Between two states one fault record was added and SPARES rewritten for what is retired now (R399, R400). -/
def LogsSpares (s t : State) (cls outcome inst : Nat) (d : List Nat) : Prop :=
  t.lin = (putSpares { logFault cls outcome inst d s with flt := t.flt, twl := t.twl }).lin

/-- The parts that a command may change; it leaves every other part as it was. -/
def touches : Instr → List Part
  | .powerOnReset => [.sys, .pwr, .hif, .rings, .conf, .ing, .pix, .gz, .lmp, .dmk, .od, .tmg, .pnl, .twl, .cue, .mem, .lin, .cal, .gng, .sec, .flt, .thm, .trc, .free]
  | .vinGood .. => [.sys, .pwr, .hif, .rings, .conf, .ing, .pix, .gz, .lmp, .dmk, .od, .tmg, .pnl, .twl, .cue, .mem, .lin, .cal, .gng, .sec, .flt, .thm, .trc, .out, .free]
  | .bootImageVerified => [.sys, .pwr, .hif, .rings, .conf, .gz, .lmp, .dmk, .od, .tmg, .pnl, .twl, .cue, .mem, .lin, .cal, .gng, .sec, .flt, .trc, .out, .free]
  | .memoryTrainingDone .. => [.sys, .pwr, .hif, .rings, .conf, .gz, .lmp, .dmk, .od, .tmg, .pnl, .twl, .cue, .mem, .lin, .cal, .gng, .sec, .flt, .trc, .out, .free]
  | .bootComplete => [.sys, .pwr, .hif, .rings, .conf, .gz, .lmp, .dmk, .od, .tmg, .pnl, .twl, .cue, .mem, .lin, .cal, .gng, .sec, .flt, .trc, .out, .free]
  | .damaskLoadDone .. => [.sys, .pwr, .hif, .rings, .conf, .ing, .pix, .gz, .lmp, .dmk, .tmg, .pnl, .twl, .cue, .mem, .lin, .cal, .gng, .sec, .flt, .trc, .out, .free]
  | .braceEnter .. => [.sys, .pwr, .hif, .rings, .gz, .lin, .flt, .trc, .out, .free]
  | .fall .. => [.sys, .pwr, .hif, .rings, .conf, .ing, .pix, .gz, .lmp, .dmk, .od, .tmg, .pnl, .twl, .cue, .mem, .lin, .cal, .gng, .sec, .flt, .thm, .trc, .out, .free]
  | .fallDischargeFrame => [.pwr, .tmg, .pnl, .twl, .out]
  | .fallLampsOff => [.pwr, .tmg, .pnl, .out, .free]
  | .fallReset => [.sys, .pwr, .hif, .rings, .conf, .ing, .pix, .gz, .lmp, .dmk, .od, .tmg, .pnl, .twl, .cue, .mem, .lin, .cal, .gng, .sec, .flt, .thm, .trc, .free]
  | .vinOvervoltageTrip => [.sys, .pwr, .hif, .rings, .conf, .ing, .pix, .gz, .lmp, .dmk, .od, .tmg, .pnl, .twl, .cue, .mem, .lin, .cal, .gng, .sec, .flt, .thm, .trc, .out, .free]
  | .inputSwitchClose => [.pwr]
  | .holdupMeasurement .. => [.pwr, .hif, .rings, .out]
  | .perstAssert => [.sys, .pwr, .hif, .rings, .conf, .ing, .gz, .twl, .cue, .mem, .lin, .cal, .gng, .sec, .flt, .trc, .out, .free]
  | .perstDeassert => [.sys, .pwr, .hif, .rings, .conf, .ing, .pix, .gz, .lmp, .dmk, .od, .tmg, .pnl, .twl, .cue, .mem, .lin, .cal, .gng, .sec, .flt, .thm, .trc, .out, .free]
  | .hotReset => [.sys, .pwr, .hif, .rings, .conf, .ing, .gz, .twl, .cue, .mem, .lin, .cal, .gng, .sec, .flt, .trc, .out, .free]
  | .flrPf0 => [.sys, .pwr, .hif, .rings, .conf, .ing, .gz, .twl, .cue, .mem, .lin, .cal, .gng, .flt, .trc, .out, .free]
  | .flrPf1 => [.hif, .rings, .lin, .sec, .out]
  | .linkDown => [.hif, .rings, .sec, .out]
  | .watchdogReset .. => [.sys, .pwr, .hif, .rings, .conf, .ing, .pix, .gz, .lmp, .dmk, .tmg, .pnl, .twl, .cue, .mem, .lin, .cal, .gng, .sec, .flt, .trc, .out, .free]
  | .linkTrained .. => [.hif, .rings, .cal, .sec, .trc, .out, .free]
  | .l0pWidthChange .. => [.hif, .rings, .out]
  | .l1IdleExpiry => [.hif]
  | .l1Exit => [.hif, .rings, .out]
  | .pmeTurnOff => [.sys, .hif, .rings, .ing, .trc, .out, .free]
  | .d3hotEntry .. => [.sys, .hif, .rings, .ing, .trc, .out, .free]
  | .d0Return .. => [.sys, .hif, .rings, .twl, .out]
  | .busMasterEnableSet .. => [.hif, .rings, .out]
  | .marginingCommand .. => [.hif, .rings, .out]
  | .eyeScanSweepDone .. => [.hif]
  | .hostReadCompletion .. => [.hif, .rings, .ing, .trc, .out, .free]
  | .msixUnmask .. => [.hif, .rings, .out]
  | .frameTick => [.sys, .pwr, .hif, .rings, .conf, .ing, .pix, .gz, .lmp, .dmk, .od, .tmg, .pnl, .twl, .cue, .mem, .lin, .cal, .gng, .sec, .flt, .trc, .out, .free]
  | .lampRepeatCycle => [.lmp, .out, .free]
  | .lineTick .. => [.sys, .pwr, .hif, .rings, .conf, .ing, .pix, .gz, .lmp, .dmk, .od, .tmg, .pnl, .twl, .cue, .mem, .lin, .cal, .gng, .sec, .flt, .trc, .out, .free]
  | .settlePoint .. => [.sys, .pwr, .hif, .rings, .conf, .ing, .pix, .gz, .lmp, .dmk, .od, .tmg, .pnl, .twl, .cue, .mem, .lin, .cal, .gng, .sec, .flt, .trc, .out, .free]
  | .bandDeadline .. => [.hif, .rings, .ing, .tmg, .mem, .lin, .trc, .out, .free]
  | .zoneRowTick .. => [.hif, .rings, .gz, .lmp, .gng, .trc, .out, .free]
  | .weaverCutoff .. => [.hif, .rings, .pix, .trc, .out, .free]
  | .evPinPulseEnd .. => [.tmg, .out]
  | .descriptorFetch .. => [.hif, .rings, .trc, .out, .free]
  | .frame .. => [.rings, .ing]
  | .pushHeaderCommit .. => [.hif, .rings, .ing, .mem, .lin, .sec, .out, .free]
  | .pushPayloadWrite .. => [.hif, .rings, .ing, .mem, .lin, .sec, .trc, .out, .free]
  | .bar4Read .. => [.hif, .rings, .mem, .lin, .sec, .trc, .out, .free]
  | .bar4Write .. => [.hif, .rings, .ing, .mem, .lin, .sec, .trc, .out, .free]
  | .registerWrite .. => [.sys, .pwr, .hif, .rings, .conf, .ing, .twl, .trc, .out, .free]
  | .sysSetupLockWrite .. => [.sys, .hif, .rings, .conf, .out]
  | .hifBar4BaseWrite .. => [.hif, .rings, .conf, .out]
  | .sysGpioOutWrite .. => [.hif, .rings, .conf, .out]
  | .cueSignalWrite .. => [.hif, .rings, .conf, .out]
  | .pwrBraceWrite .. => [.pwr, .hif, .rings, .conf, .out]
  | .sqEnable .. => [.hif, .rings, .ing, .trc, .out, .free]
  | .sqDisable .. => [.hif, .rings, .ing, .trc, .out, .free]
  | .sqErrorClear .. => [.hif, .rings, .out]
  | .cqEnable .. => [.hif, .rings, .out]
  | .cqDisable .. => [.hif, .rings, .out]
  | .eqEnable .. => [.hif, .rings, .out]
  | .eqDisable .. => [.hif, .rings, .out]
  | .submissionDoorbell .. => [.sys, .hif, .rings, .twl, .trc, .out, .free]
  | .completionHeadDoorbell .. => [.hif, .rings, .trc, .out, .free]
  | .eventHeadDoorbell .. => [.hif, .rings, .trc, .out, .free]
  | .holdoffExpiry .. => [.hif, .rings, .out]
  | .setTable .. => [.hif, .rings, .conf, .mem, .lin, .trc, .out, .free]
  | .stageConfig .. => [.hif, .rings, .conf, .trc, .out, .free]
  | .armConfig .. => [.hif, .rings, .conf, .ing, .cue, .mem, .gng, .trc, .out, .free]
  | .armConfigCancel .. => [.hif, .rings, .conf, .gng, .trc, .out, .free]
  | .modeReq .. => [.sys, .hif, .rings, .ing, .twl, .trc, .out, .free]
  | .dormantEntry => [.sys, .hif, .rings, .conf, .gz, .lmp, .tmg, .twl, .mem, .lin, .gng, .sec, .trc, .out, .free]
  | .gpioWakeEdge .. => [.sys, .pwr, .hif, .rings, .conf, .ing, .pix, .gz, .lmp, .dmk, .od, .tmg, .pnl, .twl, .cue, .mem, .lin, .cal, .gng, .sec, .flt, .thm, .trc, .out, .free]
  | .linenRead .. => [.hif, .rings, .trc, .out, .free]
  | .linenWrite .. => [.hif, .rings, .lin, .trc, .out, .free]
  | .linenStore .. => [.hif, .rings, .gz, .lin, .trc, .out, .free]
  | .linenBracketOpen .. => [.hif, .rings, .lin, .trc, .out, .free]
  | .linenBracketClose .. => [.hif, .rings, .lin, .trc, .out, .free]
  | .linenBracketAbort .. => [.hif, .rings, .lin, .trc, .out, .free]
  | .memCopy .. => [.hif, .rings, .cue, .mem, .lin, .sec, .trc, .out, .free]
  | .memFill .. => [.hif, .rings, .cue, .mem, .lin, .sec, .trc, .out, .free]
  | .regionUpdateDone .. => [.hif, .rings, .cue, .trc, .out, .free]
  | .freeBuffer .. => [.hif, .rings, .cue, .mem, .trc, .out, .free]
  | .cueLoad .. => [.hif, .rings, .cue, .mem, .sec, .trc, .out, .free]
  | .cueStart .. => [.sys, .pwr, .hif, .rings, .conf, .ing, .pix, .gz, .lmp, .dmk, .tmg, .pnl, .twl, .cue, .mem, .lin, .cal, .gng, .sec, .flt, .trc, .out, .free]
  | .cueStop .. => [.hif, .rings, .ing, .cue, .mem, .gng, .trc, .out, .free]
  | .zoneOverride .. => [.hif, .rings, .gz, .trc, .out, .free]
  | .zoneOverrideClear .. => [.hif, .rings, .gz, .trc, .out, .free]
  | .zoneRead .. => [.hif, .rings, .gz, .trc, .out, .free]
  | .calRun .. => [.hif, .rings, .cal, .trc, .out, .free]
  | .faultQuery .. => [.hif, .rings, .trc, .out, .free]
  | .spareCommit .. => [.hif, .rings, .twl, .mem, .lin, .flt, .trc, .bst, .out, .free]
  | .traceCfg .. => [.hif, .rings, .sec, .trc, .out, .free]
  | .lifecycleAdvance .. => [.hif, .rings, .ing, .mem, .lin, .sec, .trc, .bst, .out, .free]
  | .debugToken .. => [.hif, .rings, .sec, .trc, .out, .free]
  | .debugRevoke .. => [.hif, .rings, .sec, .trc, .out, .free]
  | .debugTokenExpiry => [.hif, .rings, .sec, .out]
  | .measExtend .. => [.hif, .rings, .sec, .trc, .out, .free]
  | .svnCommit .. => [.hif, .rings, .sec, .trc, .out, .free]
  | .nbrMeasRead .. => [.hif, .rings, .trc, .out, .free]
  | .nbrPin .. => [.hif, .rings, .sec, .trc, .out, .free]
  | .fwUpdate .. => [.sys, .pwr, .hif, .rings, .conf, .ing, .pix, .gz, .lmp, .dmk, .tmg, .pnl, .twl, .cue, .mem, .lin, .cal, .gng, .sec, .flt, .trc, .bst, .out, .free]
  | .keyErase .. => [.hif, .rings, .sec, .trc, .bst, .out, .free]
  | .spdmKeyExchange .. => [.sec, .out, .free]
  | .spdmGetMeasurements .. => [.out]
  | .keyImport .. => [.sec, .bst, .out]
  | .keySlotErase .. => [.sec, .bst, .out]
  | .ideKmKeyProg .. => [.sec, .out]
  | .ideKmKSetGo .. => [.hif, .rings, .sec, .out]
  | .ideKmKSetStop .. => [.hif, .rings, .sec, .out]
  | .ideKmQuery .. => [.out]
  | .statisticsPassLine .. => [.gz]
  | .zoneStatsMerge .. => [.gz, .gng, .out]
  | .zoneCommit => [.hif, .rings, .gz, .lmp, .gng, .trc, .out, .free]
  | .checkerSelfTestDone .. => [.hif, .rings, .lin, .flt, .out, .free]
  | .spareSelfTestTimer .. => [.hif, .rings, .lin, .flt, .out, .free]
  | .solverLockstepMismatch .. => [.hif, .rings, .gz, .lin, .flt, .out]
  | .hkLockstepMismatch .. => [.sys, .pwr, .hif, .rings, .conf, .ing, .pix, .gz, .lmp, .dmk, .tmg, .pnl, .twl, .cue, .mem, .lin, .cal, .gng, .sec, .flt, .trc, .out, .free]
  | .hkSelfTestDone .. => [.hif, .rings, .lin, .flt, .out]
  | .clockLoss .. => [.sys, .pwr, .hif, .rings, .conf, .ing, .pix, .gz, .lmp, .dmk, .tmg, .pnl, .twl, .cue, .mem, .lin, .cal, .gng, .sec, .flt, .trc, .out, .free]
  | .dvmSample .. => [.hif, .rings, .lmp, .pnl, .twl, .lin, .trc, .out, .free]
  | .powerOnStepDelay => [.pnl, .out]
  | .powerOnStepTimeout => [.hif, .rings, .lmp, .pnl, .twl, .lin, .trc, .out, .free]
  | .railRetryDelay => [.hif, .rings, .pnl, .trc, .out, .free]
  | .railRetryReset => [.pnl]
  | .panelOnDelay .. => [.hif, .rings, .lmp, .pnl, .trc, .out, .free]
  | .dischargePeriodEnd => [.sys, .pwr, .hif, .rings, .conf, .ing, .pix, .gz, .lmp, .dmk, .tmg, .pnl, .twl, .cue, .mem, .lin, .cal, .gng, .sec, .flt, .trc, .out, .free]
  | .panelEnableRelease => [.sys, .pwr, .hif, .rings, .conf, .ing, .pix, .gz, .lmp, .dmk, .tmg, .pnl, .twl, .cue, .mem, .lin, .cal, .gng, .sec, .flt, .trc, .out, .free]
  | .twillTraining => [.hif, .rings, .pnl, .twl, .trc, .out, .free]
  | .backchannelReply .. => [.hif, .rings, .pnl, .twl, .lin, .cal, .trc, .out, .free]
  | .backchannelReplyTimeout .. => [.hif, .rings, .pnl, .twl, .lin, .cal, .trc, .out, .free]
  | .trainingPingTimer .. => [.twl, .out, .free]
  | .trainingPhaseTimeout .. => [.hif, .rings, .pnl, .twl, .lin, .trc, .out, .free]
  | .trainingRetryBackoff .. => [.hif, .rings, .twl, .trc, .out, .free]
  | .statusPollTimer .. => [.twl, .out, .free]
  | .twillTestStart .. => [.hif, .rings, .conf, .twl, .trc, .out, .free]
  | .twillTestStop .. => [.hif, .rings, .conf, .twl, .trc, .out, .free]
  | .twillTestRead .. => [.hif, .rings, .conf, .twl, .trc, .out, .free]
  | .twillErrorInject .. => [.hif, .rings, .conf, .twl, .trc, .out, .free]
  | .lampReturnFrame .. => [.hif, .rings, .gz, .lmp, .lin, .trc, .out, .free]
  | .lampAnswerTimeout .. => [.hif, .rings, .gz, .lmp, .lin, .trc, .out, .free]
  | .lampDiscovery .. => [.lmp, .out, .free]
  | .lampRediscoverTimer => [.lmp, .out, .free]
  | .pageCorrection .. => [.hif, .rings, .mem, .trc, .out, .free]
  | .pageUncorrectable .. => [.sys, .pwr, .hif, .rings, .conf, .ing, .pix, .gz, .lmp, .dmk, .tmg, .pnl, .twl, .cue, .mem, .lin, .cal, .gng, .sec, .flt, .trc, .out, .free]
  | .pageRetire .. => [.hif, .rings, .mem, .lin, .flt, .bst, .out]
  | .scrubVisit .. => [.hif, .rings, .mem, .lin, .trc, .out, .free]
  | .sramCorrection .. => [.hif, .rings, .mem, .lin, .trc, .out, .free]
  | .sramTestWindow .. => [.hif, .rings, .mem, .lin, .out]
  | .linenStoreInterval => [.hif, .rings, .gz, .lin, .trc, .out, .free]
  | .linenStoreDelayExpiry => [.hif, .rings, .gz, .lin, .trc, .out, .free]
  | .linenFreeze => [.lin]
  | .linenStoreCommit .. => [.sys, .pwr, .hif, .rings, .conf, .ing, .pix, .gz, .lmp, .dmk, .tmg, .pnl, .twl, .cue, .mem, .lin, .cal, .gng, .sec, .flt, .trc, .out, .free]
  | .linenMarginRead .. => [.hif, .rings, .gz, .lin, .trc, .out, .free]
  | .thermalSample .. => [.sys, .pwr, .hif, .rings, .conf, .ing, .pix, .gz, .lmp, .dmk, .od, .tmg, .pnl, .twl, .cue, .mem, .lin, .cal, .gng, .sec, .flt, .thm, .trc, .out, .free]
  | .engineClockStep => [.hif, .rings, .thm, .out]
  | .panelSensorPoll .. => [.hif, .rings, .thm, .out]
  | .adaptWindowEnd .. => [.cal]
  | .calMeasurementDone .. => [.hif, .rings, .lin, .cal, .trc, .out, .free]
  | .ginghamPortBringup .. => [.hif, .rings, .gng, .trc, .out, .free]
  | .ginghamBringupTimeout .. => [.hif, .rings, .cal, .gng, .trc, .out, .free]
  | .ginghamRetryTimer .. => [.gng]
  | .ginghamPortDown .. => [.hif, .rings, .cal, .gng, .trc, .out, .free]
  | .hello .. => [.hif, .rings, .cal, .gng, .trc, .out, .free]
  | .helloTimer => [.gng, .out]
  | .ginghamJoinTimeout => [.hif, .rings, .tmg, .gng, .out]
  | .latProbe .. => [.hif, .rings, .gng, .trc, .out, .free]
  | .latEcho .. => [.hif, .rings, .gng, .trc, .out, .free]
  | .tickMarker .. => [.hif, .rings, .gng, .trc, .out, .free]
  | .digest .. => [.hif, .rings, .gng, .trc, .out, .free]
  | .ginghamArm .. => [.hif, .rings, .conf, .gng, .trc, .out, .free]
  | .armAck .. => [.hif, .rings, .ing, .cue, .mem, .gng, .trc, .out, .free]
  | .armCommit .. => [.hif, .rings, .ing, .cue, .mem, .gng, .trc, .out, .free]
  | .armAbort .. => [.hif, .rings, .conf, .gng, .trc, .out, .free]
  | .haloTarget .. => [.hif, .rings, .gz, .trc, .out, .free]
  | .haloLevel .. => [.hif, .rings, .gz, .trc, .out, .free]
  | .measReq .. => [.hif, .rings, .gng, .trc, .out, .free]
  | .meas .. => [.hif, .rings, .gng, .trc, .out, .free]
  | .ginghamWake .. => [.sys, .pwr, .hif, .rings, .conf, .ing, .pix, .gz, .lmp, .dmk, .od, .tmg, .pnl, .twl, .cue, .mem, .lin, .cal, .gng, .sec, .flt, .thm, .trc, .out, .free]
  | .registerRead .. => [.sys, .pwr, .hif, .rings, .out, .free]
  | .vinDipBeforeRunning .. => [.sys, .pwr, .hif, .rings, .flt, .out]
  | .dormantVinLoss => [.sys, .pwr, .hif, .rings, .conf, .ing, .pix, .gz, .lmp, .dmk, .od, .tmg, .pnl, .twl, .cue, .mem, .lin, .cal, .gng, .sec, .flt, .thm, .trc, .out, .free]
  | .clockReturn .. => [.hif, .rings, .twl, .flt, .trc, .out, .free]
  | .twillClockLossTimeout .. => [.hif, .rings, .pnl, .twl, .lin, .trc, .out, .free]
  | .vioGtSample .. => [.tmg]
  | .trcEnChange .. => [.trc, .out]
  | .poweredSecond => [.lin]
  | .endSession .. => [.sec, .out]
  | .busMasterEnableClear .. => [.hif, .rings, .out]
  | .bar4Resize .. => [.hif, .rings, .out]
  | .msixMask .. => [.hif, .rings, .out]

/-- Does a command reach the block over the PCI Express link, as an access or a message of the host or its partner (Table 3.3)? -/
def overLink : Instr → Bool
  | .hotReset | .flrPf0 | .flrPf1 | .linkDown | .l0pWidthChange .. | .pmeTurnOff | .d3hotEntry .. | .d0Return ..
  | .busMasterEnableSet .. | .busMasterEnableClear .. | .bar4Resize .. | .marginingCommand .. | .msixMask .. | .msixUnmask ..
  | .registerRead .. | .registerWrite .. | .bar4Read .. | .bar4Write .. | .pushHeaderCommit .. | .pushPayloadWrite ..
  | .sysSetupLockWrite .. | .hifBar4BaseWrite .. | .sysGpioOutWrite .. | .cueSignalWrite .. | .pwrBraceWrite ..
  | .sqEnable .. | .sqDisable .. | .sqErrorClear .. | .cqEnable .. | .cqDisable .. | .eqEnable .. | .eqDisable ..
  | .submissionDoorbell .. | .completionHeadDoorbell .. | .eventHeadDoorbell .. | .twillTestStart .. | .twillTestStop ..
  | .twillTestRead .. | .twillErrorInject .. => true
  | _ => false

/-- A host access has its effect: the link carries traffic, and no fall is in progress (R61, R411). -/
def hostUp (s : State) : Bool := linkUp s && decide (s.pwr.fall = .idle)

/-- The host's configuration requests are answered: the link is up and firmware or the recovery monitor has started (R73). -/
def configurable (s : State) : Bool := hostUp s && s.sys.stage ≠ .unpowered && s.sys.stage ≠ .image

/-- The next frame tick begins a frame of this tile's own count: a watchdog reset does not wait for it, and no other part's FE
is adopted at it (R38, R216, R363). -/
def ownFrameTick (s : State) : Bool :=
  s.tmg.running && decide (s.tmg.nextFt = some (s.tmg.slot + 1)) && s.gng.adopt.isNone
    && !(s.sys.transit.any (fun w => w.target = .boot))

/-- An armed change takes effect at the next frame tick (R92). -/
def changeDue (s : State) : Bool := !(dueSlots s.conf (s.sys.fe + 1)).isEmpty || setupDue s.conf (s.sys.fe + 1)

/-- A line tick inside a frame of a variable timing whose next FT is fixed already, with nothing from outside in its slot: no
start LT, latch point or marker comes with it (R215, R353). -/
def steadyTick (env : LineEnv) (s : State) : Bool :=
  s.tmg.running && !s.tmg.fresh && s.tmg.nextFt.isSome && decide (s.tmg.nextFt ≠ some (s.tmg.slot + 1)) && hasTiming s.conf
    && !(tFixed s.conf) && !s.gng.marked && env.pinEcho.isEmpty && env.checkers.isEmpty && env.linen.isEmpty

end Sys2Proof
end

