-- ==== Sys2Proof/Certificates/Slice0/Obligations.lean ====
section
/-!
DEFINITION. The statements for the provers. Each docstring names the rules of the spec that it formalises, or says what it
is derived from.
-/
open Sys2Proof Sys2Proof.Machine

/-! ## The whole machine -/

/-- The row's cut: a step takes the command at the front of the queue and runs it with the queue's rest. With no command
waiting a step changes nothing, which is the model's choice (log entry 10). -/
def Obligations.StepRunsTheFrontCommand : Prop :=
  (∀ (c : Instr) (rest : List Instr) (s : State), step { s with pending := c :: rest } = exec c { s with pending := rest }) ∧
  (∀ s : State, s.pending = [] → step s = .next s)

/-- No command stops the block: each answers a next state in every state, since the spec makes every error of the block a
completion status, an event, a counter or a record (R8, R87, R89, R387). Log entry 8: a command that comes at a time for
which no event is described changes nothing. -/
def Obligations.EveryCommandAnswersANextState : Prop := ∀ (i : Instr) (s : State), ∃ t, exec i s = .next t

/-- The frame of every command: what it may change is in its row of `touches`, which never names the queue, and every other
part of the block stays. -/
def Obligations.CommandsStayInTheirParts : Prop :=
  ∀ (i : Instr) (s t : State), exec i s = .next t → Only (touches i) s t ∧ t.pending = s.pending

/-- R298: every step keeps module memory in its canonical form with unwritten pages reading as zero. -/
def Obligations.StepsKeepMemorySound : Prop :=
  ∀ s t : State, MemSound s → step s = .next t → MemSound t

/-- Module memory is sound at reset, when no page has been written. -/
def Obligations.ResetMemoryIsSound : Prop :=
  MemSound State.reset ∧ ∀ a n : Nat, readMem State.reset a n = List.replicate n 0

/-- R365, R371: no step takes the lifecycle state or the minimum security version back. -/
def Obligations.FusesNeverGoBack : Prop :=
  ∀ s t : State, step s = .next t → FusesForward s.sec.fuses t.sec.fuses

/-- R38: FE changes only at a frame tick and where a power-on reset, a fall or an exit from DORMANT sets it to zero, which begins
BOOT. -/
def Obligations.EpochChangesOnlyAtFrameTicks : Prop :=
  ∀ (i : Instr) (s t : State), exec i s = .next t → i ≠ .frameTick → t.sys.fe = s.sys.fe ∨
    (t.sys.fe = 0 ∧ t.sys.mode = .boot ∧ (t.sys.stage = .unpowered ∨ t.sys.stage = .image))

/-- R36, R39, R42, Table 2.4: between LIVE, HOLD, CUE and SERVICE the mode changes only at a frame tick; every other command that
changes it enters or leaves BOOT or DORMANT. -/
def Obligations.RunningModesTurnOnlyAtFrameTicks : Prop :=
  ∀ (i : Instr) (s t : State), exec i s = .next t → i ≠ .frameTick → isRunning s = true → isRunning t = true →
    t.sys.mode = s.sys.mode

/-! ## Rings, doorbells and interrupts -/

/-- R75, R76, R86, R441, Tables 4.2 and 4.3: enabling a ring that is disabled takes every field of the register as written, a
reserved code of one at the nearest that is legal (log entries 4 and 5), keeps its base, and starts it with head and tail 0 and,
on a completion or event ring, phase 1; EQ_LOST is cleared. A submission ring is enabled only where no rule of R75 is broken. The other submission rings, and for SQ_ENABLE every other
part of the block, stay. Where the function may write host memory, what was held goes out at once, so that only tail, phase and
what is held may move. -/
def Obligations.EnablingARingStartsItEmpty : Prop :=
  (∀ (fn : Fn) (n : Nat) (cfg : Word) (s : State), n < ringCount fn → hostUp s = true → (sqOf s.rings fn n).enable = false →
    enableFault s fn n (kindOf (wbits cfg 5 2)) (wbits cfg 7 6) = none →
    ∃ t, exec (.sqEnable fn n cfg) s = .next t ∧
      sqOf t.rings fn n = { sqOf s.rings fn n with
        enable := true, head := 0, tail := 0, stopped := false, log2 := ringLog2 (wbits cfg 0 5), kind := kindOf (wbits cfg 5 2)
        cq := wbits cfg 7 6, error := (sqOf s.rings fn n).error && !(wbit cfg 30) } ∧
      (∀ g m, 64 * fnIdx g + m ≠ 64 * fnIdx fn + n → sqOf t.rings g m = sqOf s.rings g m) ∧
      t.rings.cqs = s.rings.cqs ∧ t.rings.eq0 = s.rings.eq0 ∧ t.rings.eq1 = s.rings.eq1 ∧ Only [.rings] s t) ∧
  (∀ (fn : Fn) (m : Nat) (cfg : Word) (s : State), m < ringCount fn → hostUp s = true → (cqAt s.rings (cqKey fn m)).enable = false →
    ∃ t, exec (.cqEnable fn m cfg) s = .next t ∧ (cqAt t.rings (cqKey fn m)).enable = true ∧ (cqAt t.rings (cqKey fn m)).head = 0 ∧
      (cqAt t.rings (cqKey fn m)).base = (cqAt s.rings (cqKey fn m)).base ∧
      (cqAt t.rings (cqKey fn m)).log2 = ringLog2 (wbits cfg 0 5) ∧
      (cqAt t.rings (cqKey fn m)).vector = (if fn = .pf1 then min 31 (wbits cfg 5 8) else wbits cfg 5 8) ∧
      (cqAt t.rings (cqKey fn m)).irqMode = min 2 (wbits cfg 13 2) ∧ (cqAt t.rings (cqKey fn m)).holdoff = wbits cfg 16 8 ∧
      (canSend s fn = false → (cqAt t.rings (cqKey fn m)).tail = 0 ∧ (cqAt t.rings (cqKey fn m)).phase = true ∧
        (cqAt t.rings (cqKey fn m)).store = (cqAt s.rings (cqKey fn m)).store) ∧
      (cqAt t.rings (cqKey fn m)).reserved = (cqAt s.rings (cqKey fn m)).reserved ∧ t.rings.sqs = s.rings.sqs ∧
      Only [.rings, .hif, .out] s t) ∧
  (∀ (fn : Fn) (cfg : Word) (s : State), hostUp s = true → (eqOf s.rings fn).enable = false →
    ∃ t, exec (.eqEnable fn cfg) s = .next t ∧ (eqOf t.rings fn).enable = true ∧ (eqOf t.rings fn).head = 0 ∧
      (eqOf t.rings fn).base = (eqOf s.rings fn).base ∧ (eqOf t.rings fn).log2 = ringLog2 (wbits cfg 0 5) ∧
      (eqOf t.rings fn).vector = (if fn = .pf1 then min 31 (wbits cfg 5 8) else wbits cfg 5 8) ∧
      (eqOf t.rings fn).irqMode = min 2 (wbits cfg 13 2) ∧ (eqOf t.rings fn).holdoff = wbits cfg 16 8 ∧
      (canSend s fn = false → (eqOf t.rings fn).tail = 0 ∧ (eqOf t.rings fn).phase = true ∧ (eqOf t.rings fn).lost = 0 ∧
        (eqOf t.rings fn).pend = (eqOf s.rings fn).pend) ∧
      t.rings.sqs = s.rings.sqs ∧ t.rings.cqs = s.rings.cqs ∧ Only [.rings, .hif, .out] s t) ∧
  (∀ (fn : Fn) (n p1 : Nat) (cfg : Word) (s : State), n < ringCount fn → hostUp s = true → (sqOf s.rings fn n).enable = false →
    enableFault s fn n (kindOf (wbits cfg 5 2)) (wbits cfg 7 6) = some p1 →
    canSend s fn = false → (eqOf s.rings fn).pend.length < 256 →
    ∃ t, exec (.sqEnable fn n cfg) s = .next t ∧ (sqOf t.rings fn n).enable = false ∧
      (eqOf t.rings fn).pend = (eqOf s.rings fn).pend ++ [{ code := 0x0202, sev := 1, fe := s.sys.fe, p0 := n, p1, p2 := 0 }])

/-- R76, R434: disabling a ring. A command ring's command runs on; the FRAME ring's candidates complete with ABORTED in ring order
and are gone; a completion ring keeps its stored records and reserved places; SQ_CFG.ERROR is cleared by a write of 1 and by
nothing else here. -/
def Obligations.DisablingARingKeepsItsWork : Prop :=
  (∀ (fn : Fn) (n : Nat) (s : State), n < ringCount fn → hostUp s = true → (sqOf s.rings fn n).enable = true →
    (fn = .pf1 ∨ (sqOf s.rings fn n).kind ≠ .frame) →
    ∃ t, exec (.sqDisable fn n) s = .next t ∧ sqOf t.rings fn n = { sqOf s.rings fn n with enable := false, stopped := false } ∧
      (∀ g m, 64 * fnIdx g + m ≠ 64 * fnIdx fn + n → sqOf t.rings g m = sqOf s.rings g m) ∧ Only [.rings] s t) ∧
  (∀ (n k : Nat) (s : State), n < 64 → hostUp s = true → (sqOf s.rings .pf0 n).enable = true → (sqOf s.rings .pf0 n).kind = .frame →
    (sqOf s.rings .pf0 n).running = none → (∀ c ∈ s.ing.cands, c.sq = n → c.cq = k) → (cqAt s.rings k).enable = false →
    ∃ t, exec (.sqDisable .pf0 n) s = .next t ∧ sqOf t.rings .pf0 n = { sqOf s.rings .pf0 n with enable := false, stopped := false } ∧
      t.ing = { s.ing with cands := s.ing.cands.filter (fun c => c.sq ≠ n) } ∧
      (cqAt t.rings k).store = (cqAt s.rings k).store ++ (s.ing.cands.filter (fun c => c.sq = n)).map (frameDone ABORTED []) ∧
      (∀ g m, 64 * fnIdx g + m ≠ n → sqOf t.rings g m = sqOf s.rings g m) ∧ Only [.rings, .hif, .ing, .trc, .out, .free] s t) ∧
  (∀ (fn : Fn) (n : Nat) (s : State), n < ringCount fn → hostUp s = true →
    ∃ t, exec (.sqErrorClear fn n) s = .next t ∧ sqOf t.rings fn n = { sqOf s.rings fn n with error := false } ∧
      (∀ g m, 64 * fnIdx g + m ≠ 64 * fnIdx fn + n → sqOf t.rings g m = sqOf s.rings g m) ∧ t.rings.cqs = s.rings.cqs ∧ Only [.rings] s t) ∧
  (∀ (fn : Fn) (m : Nat) (s : State), m < ringCount fn → hostUp s = true →
    ∃ t, exec (.cqDisable fn m) s = .next t ∧ cqAt t.rings (cqKey fn m) = { cqAt s.rings (cqKey fn m) with enable := false } ∧
      (∀ k, k ≠ cqKey fn m → cqAt t.rings k = cqAt s.rings k) ∧ t.rings.sqs = s.rings.sqs ∧ Only [.rings] s t) ∧
  (∀ (fn : Fn) (s : State), hostUp s = true →
    ∃ t, exec (.eqDisable fn) s = .next t ∧ eqOf t.rings fn = { eqOf s.rings fn with enable := false } ∧
      t.rings.sqs = s.rings.sqs ∧ t.rings.cqs = s.rings.cqs ∧ Only [.rings] s t)

/-- R78, R79, R386: a doorbell with an acceptable value moves the tail, or the head, of its ring and of no other; a submission
doorbell of an enabled ring with any other value moves nothing, marks the ring and posts DOORBELL_INVALID. Log entries: 25 (a
doorbell of a function not served), 5 (the ring of an event). -/
def Obligations.DoorbellsMoveTheirRing : Prop :=
  (∀ (fn : Fn) (n : Nat) (v : Word) (s : State), n < ringCount fn → hostUp s = true → (sqOf s.rings fn n).enable = true →
    v.toNat < 65536 → tailOk (sqOf s.rings fn n) v.toNat = true →
    ∃ t, exec (.submissionDoorbell fn n v false) s = .next t ∧
      sqOf t.rings fn n = { sqOf s.rings fn n with tail := v.toNat, stopped := false } ∧
      (∀ g m, 64 * fnIdx g + m ≠ 64 * fnIdx fn + n → sqOf t.rings g m = sqOf s.rings g m) ∧
      Only [.rings, .hif, .sys, .twl, .out, .free, .trc] s t) ∧
  (∀ (fn : Fn) (m : Nat) (v : Word) (s : State), m < ringCount fn → hostUp s = true →
    (cqAt s.rings (cqKey fn m)).enable = true → v.toNat < 65536 →
    headOk (cqAt s.rings (cqKey fn m)).log2 (cqAt s.rings (cqKey fn m)).head (cqAt s.rings (cqKey fn m)).tail v.toNat = true →
    ∃ t, exec (.completionHeadDoorbell fn m v false) s = .next t ∧ (cqAt t.rings (cqKey fn m)).head = v.toNat ∧
      (∀ k, k ≠ cqKey fn m → cqAt t.rings k = cqAt s.rings k) ∧ t.rings.sqs = s.rings.sqs ∧
      Only [.rings, .hif, .out, .free, .trc] s t) ∧
  (∀ (v : Word) (s : State), hostUp s = true → v.toNat < 65536 → (eqOf s.rings .pf0).enable = true →
    headOk (eqOf s.rings .pf0).log2 (eqOf s.rings .pf0).head (eqOf s.rings .pf0).tail v.toNat = true →
    ∃ t, exec (.eventHeadDoorbell .pf0 .event v false) s = .next t ∧
      (eqOf t.rings .pf0).head = v.toNat ∧ t.rings.sqs = s.rings.sqs ∧ t.rings.cqs = s.rings.cqs ∧
      Only [.rings, .hif, .out, .free, .trc] s t) ∧
  (∀ (w : HeadRing) (v : Word) (e : Eq) (s : State), hostUp s = true → v.toNat < 65536 → headRingOf s.rings .pf1 w = some e →
    e.enable = true → headOk e.log2 e.head e.tail v.toNat = true →
    ∃ (t : State) (f : Eq), exec (.eventHeadDoorbell .pf1 w v false) s = .next t ∧ headRingOf t.rings .pf1 w = some f ∧
      f.head = v.toNat ∧ t.rings.sqs = s.rings.sqs ∧ t.rings.cqs = s.rings.cqs ∧ Only [.rings, .hif, .out, .free, .trc] s t) ∧
  (∀ (fn : Fn) (n : Nat) (v : Word) (s : State), n < ringCount fn → hostUp s = true → (sqOf s.rings fn n).enable = true →
    (65536 ≤ v.toNat ∨ tailOk (sqOf s.rings fn n) v.toNat = false) → canSend s fn = false → (eqOf s.rings fn).pend.length < 256 →
    ∃ t, exec (.submissionDoorbell fn n v false) s = .next t ∧ sqOf t.rings fn n = { sqOf s.rings fn n with error := true } ∧
      (∀ g m, 64 * fnIdx g + m ≠ 64 * fnIdx fn + n → sqOf t.rings g m = sqOf s.rings g m) ∧
      (eqOf t.rings fn).pend = (eqOf s.rings fn).pend ++
        [{ code := 0x0201, sev := 1, fe := s.sys.fe, p0 := doorbellOffset fn (8 * n), p1 := v.toNat, p2 := 0 }])

/-! ## Security -/

/-- R365 to R367, R371, R370: lifecycle, minimum version and measurement commands in OWNED or FIELD. A lifecycle transition of
Table 17.2 with an authorization that holds for this module takes the state it names, and any other is refused; SVN_COMMIT
raises the minimum version to the running image's; MEAS_EXTEND changes slot 7 and no other slot. Outside OWNED and FIELD the
last two are refused with NOT_PERMITTED and the security unit stays as it was. Log entry 4: the authorizations are opaque. -/
def Obligations.SecurityCommandsInService : Prop :=
  (∀ (sq target n : Nat) (data : Rd) (r : Running) (s : State), busMaster s .pf1 = true → ready s .pf1 sq 0x80 = some r →
    fieldAt r.raw 0x18 4 % 4 = target → fieldAt r.raw 0x28 4 = n → data.ok = true → n ≤ data.bytes.length →
    ∃ t, exec (.lifecycleAdvance sq data) s = .next t ∧
      (∀ hash cosign, Config.authorization s.sec.fuses.lifecycle s.sec.fuses.ownerHash (data.bytes.take n) =
          some (target, s.sec.fuses.serial, hash, cosign) → lifecycleStep s.sec.fuses.lifecycle target = true →
        t.sec.fuses.lifecycle = target ∧ t.sec.fuses.svnMin = s.sec.fuses.svnMin ∧ t.sec.fuses.serial = s.sec.fuses.serial ∧
        (target = 1 → t.sec.fuses.ownerHash = hash ∧ t.sec.fuses.cosign = cosign) ∧
        (target ≠ 1 → t.sec.fuses.ownerHash = s.sec.fuses.ownerHash ∧ t.sec.fuses.cosign = s.sec.fuses.cosign) ∧
        (target = 3 → t.sec.sessions = [] ∧ ∀ k, mget ([], false) t.sec.keys k = ([], false)) ∧
        Completed s t .pf1 sq r SUCCESS [target]) ∧
      ((∀ hash cosign, Config.authorization s.sec.fuses.lifecycle s.sec.fuses.ownerHash (data.bytes.take n) ≠
          some (target, s.sec.fuses.serial, hash, cosign)) ∨ lifecycleStep s.sec.fuses.lifecycle target = false →
        Completed s t .pf1 sq r NOT_PERMITTED [] ∧ t.sec = s.sec ∧ t.bst = s.bst) ∧
      Only [.hif, .rings, .ing, .mem, .lin, .sec, .trc, .bst, .out, .free] s t) ∧
  (∀ (sq : Nat) (r : Running) (s : State), ready s .pf1 sq 0x84 = some r → inService s = true →
    ∃ t, exec (.svnCommit sq) s = .next t ∧
      t.sec = { s.sec with fuses := { s.sec.fuses with svnMin := max s.sec.fuses.svnMin s.sec.imageSvn } } ∧
      (sqOf t.rings .pf1 sq).running = none ∧ Only [.rings, .hif, .sec, .trc, .out, .free] s t) ∧
  (∀ (sq : Nat) (data : Rd) (r : Running) (s : State), busMaster s .pf1 = true → ready s .pf1 sq 0x83 = some r →
    inService s = true → data.ok = true → fieldAt r.raw 0x28 4 ≤ data.bytes.length →
    ∃ t, exec (.measExtend sq data) s = .next t ∧
      measSlot t 7 = Config.sha384 (measSlot s 7 ++ data.bytes.take (fieldAt r.raw 0x28 4)) ∧
      (∀ k, k ≠ 7 → measSlot t k = measSlot s k) ∧ t.sec.fuses = s.sec.fuses ∧ (sqOf t.rings .pf1 sq).running = none ∧
      Only [.rings, .hif, .sec, .trc, .out, .free] s t) ∧
  (∀ (sq : Nat) (r : Running) (s : State), ready s .pf1 sq 0x84 = some r → inService s = false →
    ∃ t, exec (.svnCommit sq) s = .next t ∧ Completed s t .pf1 sq r NOT_PERMITTED [] ∧ Only [.rings, .hif, .trc, .out, .free] s t) ∧
  (∀ (sq : Nat) (data : Rd) (r : Running) (s : State), busMaster s .pf1 = true → ready s .pf1 sq 0x83 = some r →
    inService s = false →
    ∃ t, exec (.measExtend sq data) s = .next t ∧ Completed s t .pf1 sq r NOT_PERMITTED [] ∧
      Only [.rings, .hif, .trc, .out, .free] s t)

/-- R379: DEBUG_TOKEN with a valid token in OWNED or FIELD puts it in force, one that is not valid is refused, DEBUG_REVOKE ends
it, and so does its expiry when MINUTES is not 0. None of them changes a fuse. Log entry 4: what a token signs is opaque. -/
def Obligations.DebugTokensComeAndGo : Prop :=
  (∀ (sq : Nat) (data : Rd) (r : Running) (s : State), busMaster s .pf1 = true → ready s .pf1 sq 0x81 = some r →
    inService s = true → data.ok = true → 128 ≤ data.bytes.length →
    ∃ t, exec (.debugToken sq data) s = .next t ∧
      (tokenOk s data.bytes = true → t.sec = { s.sec with token := true, tokenMinutes := fieldAt data.bytes 4 4 } ∧
        Completed s t .pf1 sq r SUCCESS [2]) ∧
      (tokenOk s data.bytes = false → t.sec = s.sec ∧ Completed s t .pf1 sq r NOT_PERMITTED []) ∧
      Only [.rings, .hif, .sec, .trc, .out, .free] s t) ∧
  (∀ (sq : Nat) (r : Running) (s : State), ready s .pf1 sq 0x82 = some r →
    ∃ t, exec (.debugRevoke sq) s = .next t ∧ t.sec.token = false ∧ t.sec.fuses = s.sec.fuses ∧
      (sqOf t.rings .pf1 sq).running = none ∧ Only [.rings, .hif, .sec, .trc, .out, .free] s t) ∧
  (∀ s : State, s.sec.tokenMinutes ≠ 0 →
    ∃ t, exec .debugTokenExpiry s = .next t ∧ t.sec.token = false ∧ t.sec.fuses = s.sec.fuses ∧
      Only [.rings, .hif, .sec, .out] s t)

/-- R375, R376, R378: KEY_IMPORT in an authenticated session of an OWNED or FIELD module writes one key slot, and its copy in
the key table when PERSIST is set, and without PERSIST it removes that copy (the model's choice, log entry 161); KEY_SLOT_ERASE and KEY_ERASE empty a slot and its copy, KEY_ERASE with 0xFF every one. -/
def Obligations.KeySlotsAreWrittenAndErased : Prop :=
  (∀ (session keyId : Nat) (flags : Byte) (key : Bytes) (s : State), doeServed s = true →
    sessionOf s session = some ⟨session, true⟩ → inService s = true → keyId < 64 → key.length = 32 →
    ∃ t, exec (.keyImport session keyId flags key) s = .next t ∧
      mget ([], false) t.sec.keys keyId = (key, flags.getLsbD 0) ∧
      (∀ k, k ≠ keyId → mget ([], false) t.sec.keys k = mget ([], false) s.sec.keys k) ∧
      (flags.getLsbD 0 = true → mget ([], []) t.bst.keyTable keyId = (key, storageKey s.sec.fuses)) ∧
      (flags.getLsbD 0 = false → mget ([], []) t.bst.keyTable keyId = ([], [])) ∧ Only [.sec, .bst, .out] s t) ∧
  (∀ (session keyId : Nat) (a : Bool) (s : State), doeServed s = true → sessionOf s session = some ⟨session, a⟩ → keyId < 64 →
    ∃ t, exec (.keySlotErase session keyId) s = .next t ∧ mget ([], false) t.sec.keys keyId = ([], false) ∧
      mget ([], []) t.bst.keyTable keyId = ([], []) ∧
      (∀ k, k ≠ keyId → mget ([], false) t.sec.keys k = mget ([], false) s.sec.keys k) ∧ Only [.sec, .bst, .out] s t) ∧
  (∀ (sq : Nat) (r : Running) (s : State), ready s .pf1 sq 0x88 = some r →
    ∃ t, exec (.keyErase sq) s = .next t ∧
      (∀ k, mget ([], false) t.sec.keys k = if fieldAt r.raw 0x18 4 = 0xFF ∨ k = fieldAt r.raw 0x18 4 then ([], false)
        else mget ([], false) s.sec.keys k) ∧
      (sqOf t.rings .pf1 sq).running = none ∧ Only [.rings, .hif, .sec, .bst, .trc, .out, .free] s t)

/-- R373, R70, R377: sessions begin with an identifier of their own, counted up, and end (the identifiers and the form of the
replies are the model's, log entry 15); in an open session an IDE key is programmed,
in either key set, K_SET_GO puts a stream whose key is programmed into the secure state with that key set, and K_SET_STOP of
the active key set takes it out. -/
def Obligations.SessionsAndStreams : Prop :=
  (∀ (a : Bool) (s : State), doeServed s = true → s.sec.sessions.length < 4 →
    ∃ (t : State) (signature : Bytes), exec (.spdmKeyExchange a) s = .next t ∧
      t.sec = { s.sec with sessions := s.sec.sessions ++ [⟨s.sec.nextSession, a⟩], nextSession := s.sec.nextSession + 1 } ∧
      t.out = .doeReply (0 :: (toLE 2 s.sec.nextSession ++ signature)) :: s.out ∧ Only [.sec, .out, .free] s t) ∧
  (∀ (session : Nat) (a : Bool) (s : State), doeServed s = true → sessionOf s session = some ⟨session, a⟩ →
    ∃ t, exec (.endSession session) s = .next t ∧ sessionOf t session = none ∧ Only [.sec, .out] s t) ∧
  (∀ (session stream : Nat) (a : Bool) (key : Bytes) (s : State), doeServed s = true →
    sessionOf s session = some ⟨session, a⟩ → s.hif.flit = true → stream < 4 → key.length = 32 →
    ∃ t u, exec (.ideKmKeyProg session stream 0 key) s = .next t ∧ exec (.ideKmKeyProg session stream 1 key) s = .next u ∧
      streamOf t stream = { streamOf s stream with key0 := some key } ∧
      streamOf u stream = { streamOf s stream with key1 := some key } ∧ (∀ g, g ≠ stream → streamOf u g = streamOf s g) ∧
      Only [.sec, .out] s u ∧
      (∀ g, g ≠ stream → streamOf t g = streamOf s g) ∧ Only [.sec, .out] s t) ∧
  (∀ (session stream set : Nat) (a : Bool) (key : Bytes) (s : State), doeServed s = true →
    sessionOf s session = some ⟨session, a⟩ → s.hif.flit = true → stream < 4 → set < 2 →
    (if set = 0 then (streamOf s stream).key0 else (streamOf s stream).key1) = some key →
    ∃ t, exec (.ideKmKSetGo session stream set) s = .next t ∧
      streamOf t stream = { streamOf s stream with secure := true, active := set } ∧ (∀ g, g ≠ stream → streamOf t g = streamOf s g) ∧ Only [.rings, .hif, .sec, .out] s t) ∧
  (∀ (session stream set : Nat) (a : Bool) (s : State), doeServed s = true → sessionOf s session = some ⟨session, a⟩ →
    stream < 4 → set < 2 →
    ∃ t, exec (.ideKmKSetStop session stream set) s = .next t ∧
      (streamOf t stream).secure = ((streamOf s stream).secure && (streamOf s stream).active ≠ set) ∧
      (streamOf t stream).key0 = (if set = 0 then none else (streamOf s stream).key0) ∧
      (streamOf t stream).key1 = (if set = 0 then (streamOf s stream).key1 else none) ∧ (∀ g, g ≠ stream → streamOf t g = streamOf s g) ∧ Only [.rings, .hif, .sec, .out] s t)

/-- R373, R377, R374: what a read of the security unit answers: a measurement slot, the lifecycle state and level granted,
the stream states, and the last MEAS of a neighbour with its verdict, written to host memory (RESULT0 0 and nothing written
where there is none). None of them changes what the unit holds; NBR_PIN writes one neighbour's pin. The headers of a MEASUREMENTS
answer and the form of the IDE_KM one are the model's (log entry 15). -/
def Obligations.SecurityReadsAnswer : Prop :=
  (∀ (index : Nat) (s : State), doeServed s = true → 1 ≤ index → index ≤ 8 →
    ∃ header : Bytes, header.length = 11 ∧ exec (.spdmGetMeasurements index) s =
      .next { s with out := .doeReply (0 :: (header ++ measSlot s (index - 1))) :: s.out }) ∧
  (∀ s : State, doeServed s = true →
    ∃ header : Bytes, header.length = 11 ∧ exec (.spdmGetMeasurements 9) s =
      .next { s with out := .doeReply (0 :: (header ++ toLE 1 s.sec.fuses.lifecycle ++ toLE 1 s.sec.level)) :: s.out }) ∧
  (∀ s : State, doeServed s = true →
    exec (.spdmGetMeasurements 0) s = .next { s with out := .doeReply [0, 9] :: s.out } ∧
    exec (.spdmGetMeasurements 0xFF) s =
      .next { s with out := .doeReply (0 :: measRecord s ((List.range 9).map (· + 1))) :: s.out }) ∧
  (∀ (session : Nat) (a : Bool) (s : State), doeServed s = true → sessionOf s session = some ⟨session, a⟩ →
    exec (.ideKmQuery session) s = .next { s with
      out := .doeReply (0 :: 4 :: (List.range 4).map (fun g => BitVec.ofNat 8 (b2n (streamOf s g).secure))) :: s.out }) ∧
  (∀ (sq : Nat) (r : Running) (s : State), busMaster s .pf1 = true → ready s .pf1 sq 0x85 = some r →
    (gngPort s (fieldAt r.raw 0x18 4)).meas = none →
    ∃ t, exec (.nbrMeasRead sq) s = .next t ∧ Completed s t .pf1 sq r SUCCESS [0] ∧ Only [.rings, .hif, .trc, .out, .free] s t) ∧
  (∀ (sq : Nat) (r : Running) (m : Bytes × Byte × List Bytes × Bytes) (s : State), busMaster s .pf1 = true →
    ready s .pf1 sq 0x85 = some r → (gngPort s (fieldAt r.raw 0x18 4)).meas = some m →
    ∃ t, exec (.nbrMeasRead sq) s = .next t ∧
      .hostWrite .pf1 (fieldAt r.raw 0x20 8) (measPayload m ++ toLE 1 (gngPort s (fieldAt r.raw 0x18 4)).verified) ∈ t.out ∧
      (sqOf t.rings .pf1 sq).running = none ∧ Only [.rings, .hif, .trc, .out, .free] s t) ∧
  (∀ (sq : Nat) (data : Rd) (r : Running) (s : State), busMaster s .pf1 = true → ready s .pf1 sq 0x86 = some r →
    inService s = true → data.ok = true → 97 ≤ data.bytes.length →
    ∃ t, exec (.nbrPin sq data) s = .next t ∧ mget [] t.sec.pins (fieldAt r.raw 0x18 4) = data.bytes.take 97 ∧
      (∀ k, k ≠ fieldAt r.raw 0x18 4 → mget [] t.sec.pins k = mget [] s.sec.pins k) ∧
      (sqOf t.rings .pf1 sq).running = none ∧ Only [.rings, .hif, .sec, .trc, .out, .free] s t)

/-! ## Registers and configuration -/

/-- R434, R438, R67, Table 20.3: a write of a live register takes effect at once in its live bits, leaves every other live
register and all of the configuration in force alone; PWR_BRACE.CAP takes the nearest value from 10 to 100, and COUNT bits
23:8. Log entry 6: registers clamped against others. -/
def Obligations.LiveRegistersChangeAtOnce : Prop :=
  (∀ (v : Word) (s : State), hostUp s = true →
    ∃ t, exec (.hifBar4BaseWrite v) s = .next t ∧ lget t.conf HIF_BAR4_BASE_BASE = wbits v 0 9 ∧
      (∀ off, off ≠ 0x010008 → liveNow t.conf off = liveNow s.conf off) ∧
      t.conf.regs = s.conf.regs ∧ t.conf.tables = s.conf.tables ∧ Only [.conf] s t) ∧
  (∀ (v : Word) (s : State), hostUp s = true →
    ∃ t, exec (.sysGpioOutWrite v) s = .next t ∧ lget t.conf SYS_GPIO_OUT_OUT = wbits v 0 8 ∧
      (∀ off, off ≠ 0x000020 → liveNow t.conf off = liveNow s.conf off) ∧
      t.conf.regs = s.conf.regs ∧ t.conf.tables = s.conf.tables ∧ Only [.conf] s t) ∧
  (∀ (v : Word) (s : State), hostUp s = true →
    ∃ t, exec (.cueSignalWrite v) s = .next t ∧ lget t.conf CUE_SIGNAL_SIGNAL = v.toNat ∧
      (∀ off, off ≠ 0x0c000c → liveNow t.conf off = liveNow s.conf off) ∧
      t.conf.regs = s.conf.regs ∧ t.conf.tables = s.conf.tables ∧ Only [.conf] s t) ∧
  (∀ (v : Word) (s : State), hostUp s = true →
    ∃ t, exec (.pwrBraceWrite v) s = .next t ∧ lget t.conf PWR_BRACE_CAP = max 10 (min 100 (wbits v 0 7)) ∧ t.pwr.braceCount = wbits v 8 16 ∧
      (∀ off, off ≠ 0x150004 → liveNow t.conf off = liveNow s.conf off) ∧
      t.conf.regs = s.conf.regs ∧ t.conf.tables = s.conf.tables ∧ Only [.conf, .pwr] s t)

/-- R6, R64, R411, Table 3.5: an access to BAR0, or to a doorbell of PF0's BAR2, that is not one naturally aligned 32-bit access
changes no register, answers 0 where it is a read, and posts ACCESS_SIZE with the offset, on the event ring of the function
(log entry 5). Past the MSI-X structures BAR2 reads 0 and drops a write with no event. In the fall no access has an effect or
an answer. (Of a poisoned write this says nothing: it is dropped first, see `TheSetupIsStagedUntilLock`.) Log entries: 27 (a
poisoned write is dropped before its size is judged), 145 (odd accesses to the MSI-X structures), 8 (an access while the link
is down). -/
def Obligations.AccessesOfTheWrongSizeAreReported : Prop :=
  (∀ (fn : Fn) (off size : Nat) (v : Word) (s : State), hostUp s = true → dwordAccess off size = false →
    exec (.registerWrite fn (.bar0 off) size v false) s =
      .next (postTo fn { code := 0x0001, sev := 1, fe := s.sys.fe, p0 := off, p1 := size, p2 := 1 } s)) ∧
  (∀ (fn : Fn) (off size : Nat) (s : State), hostUp s = true → dwordAccess off size = false →
    exec (.registerRead fn (.bar0 off) size) s = .next (emit [.readReply 0]
      (postTo fn { code := 0x0001, sev := 1, fe := s.sys.fe, p0 := off, p1 := size, p2 := 0 } s))) ∧
  (∀ (off size : Nat) (v : Word) (s : State), hostUp s = true → dwordAccess off size = false → off < 0x8000 →
    exec (.registerWrite .pf0 (.bar2 off) size v false) s =
      .next (postTo .pf0 { code := 0x0001, sev := 1, fe := s.sys.fe, p0 := off, p1 := size, p2 := 1 } s) ∧
    exec (.registerRead .pf0 (.bar2 off) size) s = .next (emit [.readReply 0]
      (postTo .pf0 { code := 0x0001, sev := 1, fe := s.sys.fe, p0 := off, p1 := size, p2 := 0 } s))) ∧
  (∀ (off size : Nat) (v : Word) (s : State), hostUp s = true → 0x9020 ≤ off →
    exec (.registerWrite .pf0 (.bar2 off) size v false) s = .next s ∧
    exec (.registerRead .pf0 (.bar2 off) size) s = .next (emit [.readReply 0] s)) ∧
  (∀ (fn : Fn) (at_ : RegAddr) (size : Nat) (v : Word) (poisoned : Bool) (s : State), s.pwr.fall ≠ .idle →
    exec (.registerWrite fn at_ size v poisoned) s = .next s ∧ exec (.registerRead fn at_ size) s = .next s) ∧
  (∀ (fn : Fn) (v : Ev) (s : State), Only [.rings, .hif, .out] s (postTo fn v s) ∧
    (postTo fn v s).rings.sqs = s.rings.sqs ∧ (postTo fn v s).rings.cqs = s.rings.cqs) ∧
  (∀ off size : Nat, dwordAccess off size = true ↔ off % 4 = 0 ∧ size = 4)

/-- R11: after SYS_SETUP_LOCK is set, a write to a register of RWL fields is dropped, in force and staged alike, and
SETUP_LOCKED_WRITE is posted with the offset and the value. No register has RWL fields beside live ones, and none of the
registers that the hypotheses leave out has any. -/
def Obligations.LockedRwlWritesAreDropped : Prop :=
  ∀ (off : Nat) (v : Word) (s : State), hostUp s = true → dwordAccess off 4 = true → off / 0x10000 ≠ 0x02 →
    off ≠ 0x000008 → off ≠ 0x15000c → rwlMask off ≠ 0 → liveMask off = 0 → s.sys.lock = true →
    ∃ t, exec (.registerWrite .pf0 (.bar0 off) 4 v false) s = .next t ∧ Posts s t [event s 0x0002 1 [off, v.toNat]] ∧
      Only [.rings, .hif, .out] s t

/-- R6, R7, R64, R434, R73, R412, Tables 3.4 and 3.5: a read of BAR0 answers the register's word, which is made of the RWL fields
as R91 shows them, the live fields and the status fields, and changes nothing but that PWR_INPUT shows a new measurement (a
free value, log entry 118); a read of the low dword of FE latches the high dword, which the next read of it gives. In BAR2
the doorbells and the reserved offsets read 0, and the pending bit array shows what MSI-X holds. A configuration request
reads its register, or is answered with Request Retry Status until the firmware has started. Log entries: 49 (Request Retry
Status until firmware begins), 24 (the layout of configuration space). -/
def Obligations.RegisterReadsAnswer : Prop :=
  (∀ (off : Nat) (s : State), hostUp s = true → dwordAccess off 4 = true → off / 0x10000 ≠ 0x02 →
    off ≠ 0x150014 → (pairs64 s).find? (fun p => p.1 = off) = none → (pairs64 s).find? (fun p => p.1 + 4 = off) = none →
    exec (.registerRead .pf0 (.bar0 off) 4) s = .next { s with out := .readReply (regWord s off) :: s.out }) ∧
  (∀ s : State, hostUp s = true →
    ∃ t, exec (.registerRead .pf0 (.bar0 0x150014) 4) s = .next t ∧ t.out = .readReply (regWord (measurePower s) 0x150014) :: s.out ∧
      t.pwr = { s.pwr with inputPower := t.pwr.inputPower } ∧ t.pwr.inputPower < 4096 ∧ Only [.pwr, .out, .free] s t) ∧
  (∀ s : State, hostUp s = true →
    ∃ t, exec (.registerRead .pf0 (.bar0 0x14) 4) s = .next t ∧ t.out = .readReply (BitVec.ofNat 32 s.sys.fe) :: s.out ∧
      Only [.sys, .out] s t ∧ t.sys.fe = s.sys.fe ∧ t.sys.mode = s.sys.mode ∧
      ∃ u, exec (.registerRead .pf0 (.bar0 0x18) 4) t = .next u ∧
        u.out = .readReply (BitVec.ofNat 32 (s.sys.fe / 2 ^ 32)) :: t.out ∧ Only [.sys, .out] s u) ∧
  (∀ (off : Nat) (s : State), hostUp s = true → dwordAccess off 4 = true → off / 0x10000 = 0x02 →
    exec (.registerRead .pf0 (.bar0 off) 4) s = .next { s with out := .readReply (readRing s .pf0 (off % 0x10000)) :: s.out }) ∧
  (∀ (off : Nat) (s : State), hostUp s = true → dwordAccess off 4 = true →
    exec (.registerRead .pf1 (.bar0 off) 4) s = .next { s with out := .readReply (readRing s .pf1 off) :: s.out }) ∧
  (∀ (off : Nat) (s : State), hostUp s = true → dwordAccess off 4 = true → off < 0x8000 ∨ 0x9020 ≤ off →
    exec (.registerRead .pf0 (.bar2 off) 4) s = .next { s with out := .readReply 0 :: s.out }) ∧
  (∀ (d : Nat) (s : State), hostUp s = true → d < 8 →
    ∃ w : Word, exec (.registerRead .pf0 (.bar2 (0x9000 + 4 * d)) 4) s = .next { s with out := .readReply w :: s.out } ∧
      ∀ i : Nat, i < 32 → w.getLsbD i = mget false s.hif.pba (32 * d + i)) ∧
  (∀ (fn : Fn) (r : CfgReg) (size : Nat) (s : State), hostUp s = true → s.sys.stage ≠ .unpowered → s.sys.stage ≠ .image →
    exec (.registerRead fn (.config r) size) s = .next { s with out := .cfgReply fn (readCfg s fn r) :: s.out }) ∧
  (∀ (fn : Fn) (r : CfgReg) (size : Nat) (v : Word) (s : State), hostUp s = true → s.sys.stage = .unpowered ∨ s.sys.stage = .image →
    exec (.registerRead fn (.config r) size) s = .next { s with out := .retryStatus fn :: s.out } ∧
    exec (.registerWrite fn (.config r) size v false) s = .next { s with out := .retryStatus fn :: s.out })

/-- R91, R433, R437, R72: before lock a write to RWL fields goes into the setup set, with only its RWL bits, and nothing in force
changes. A write of 1 to LOCK locks the setup: the setup set is armed for F + 2 when it passes the checks, else it is emptied
with REJECTED and SETUP_REJECTED; a write of 1 while LOCK is 1, and any while the recovery monitor runs, changes nothing. A
poisoned register write is dropped, whatever its size: the function reports it through AER and nothing else changes. Log
entries: 27 and 138 (poisoned writes), 7 (reserved bits of tables). -/
def Obligations.TheSetupIsStagedUntilLock : Prop :=
  (∀ (off : Nat) (v : Word) (s : State), hostUp s = true → dwordAccess off 4 = true → off / 0x10000 ≠ 0x02 →
    off ≠ 0x000008 → off ≠ 0x15000c → rwlMask off ≠ 0 → liveMask off = 0 → s.sys.lock = false →
    ∃ t, exec (.registerWrite .pf0 (.bar0 off) 4 v false) s = .next t ∧
      aget t.conf.setup.regs off = some (v &&& BitVec.ofNat 32 (rwlMask off)) ∧
      t.conf.regs = s.conf.regs ∧ t.conf.live = s.conf.live ∧ t.conf.slots = s.conf.slots ∧ Only [.conf] s t) ∧
  (∀ (v : Word) (s : State), hostUp s = true → wbit v 0 = true → s.sys.lock = false → s.sys.stage ≠ .recovery →
    validateArm (worldOf s) { s.conf with setup := { s.conf.setup with armed := some (s.sys.fe + 2) } } (s.sys.fe + 2) = none →
    exec (.sysSetupLockWrite v) s = .next { s with
      sys := { s.sys with lock := true, rejected := false }
      conf := { s.conf with setup := { s.conf.setup with armed := some (s.sys.fe + 2) } } }) ∧
  (∀ (v : Word) (f : Fail) (s : State), hostUp s = true → wbit v 0 = true → s.sys.lock = false → s.sys.stage ≠ .recovery →
    validateArm (worldOf s) { s.conf with setup := { s.conf.setup with armed := some (s.sys.fe + 2) } } (s.sys.fe + 2) = some f →
    ∃ t, exec (.sysSetupLockWrite v) s = .next t ∧ Posts s t [event s 0x0005 2 [f.status, f.r0, f.r1]] ∧ t.sys.lock = true ∧ t.sys.rejected = true ∧ t.conf.setup = {} ∧
      t.conf.regs = s.conf.regs ∧ Only [.sys, .conf, .rings, .hif, .out] s t) ∧
  (∀ (v : Word) (s : State), hostUp s = true → wbit v 0 = false ∨ s.sys.lock = true ∨ s.sys.stage = .recovery →
    exec (.sysSetupLockWrite v) s = .next s) ∧
  (∀ (fn : Fn) (off size : Nat) (v : Word) (s : State), hostUp s = true →
    exec (.registerWrite fn (.bar0 off) size v true) s = .next (aer fn AER_POISONED s) ∧
    (fn = .pf0 → exec (.registerWrite fn (.bar2 off) size v true) s = .next (aer fn AER_POISONED s)) ∧
    Only [.hif, .out, .free] s (aer fn AER_POISONED s) ∧ (cfgOf (aer fn AER_POISONED s).hif fn).aerUnc.getLsbD AER_POISONED = true)

/-! ## The Linen store -/

/-- R319, R320, Table 14.2: LINEN_READ writes the bytes of its 1024-byte row run to host memory; LINEN_WRITE without a bracket
writes them, in order and wrapping within the row, and no other byte of the store; a write that touches a byte the host may
not write changes none, is counted, and completes with NOT_PERMITTED and that byte's offset. Log entries: 12 (bytes before a
failed read have landed), 155 (whose requester SET_TABLE is). -/
def Obligations.LinenBytesAreReadAndWritten : Prop :=
  (∀ (sq : Nat) (r : Running) (s : State), busMaster s .pf1 = true → ready s .pf1 sq 0x20 = some r →
    ∃ t, exec (.linenRead sq) s = .next t ∧ Completed s t .pf1 sq r SUCCESS [fieldAt r.raw 0x1C 4] ∧
      .hostWrite .pf1 (fieldAt r.raw 0x20 8) ((List.range (fieldAt r.raw 0x1C 4)).map
        (fun k => mget 0 s.lin.sram (wrapAt (fieldAt r.raw 0x18 4) k))) ∈ t.out ∧ Only [.rings, .hif, .trc, .out, .free] s t) ∧
  (∀ (sq : Nat) (data : Rd) (r : Running) (s : State), s.pwr.fall = .idle → busMaster s .pf1 = true →
    ready s .pf1 sq 0x21 = some r → fieldAt r.raw 0x28 4 = 0 → firstDenied s (fieldAt r.raw 0x18 4) (fieldAt r.raw 0x1C 4) = none →
    data.ok = true → fieldAt r.raw 0x1C 4 ≤ data.bytes.length → fieldAt r.raw 0x1C 4 ≤ 1024 →
    ∃ t, exec (.linenWrite sq data) s = .next t ∧ Completed s t .pf1 sq r SUCCESS [fieldAt r.raw 0x1C 4] ∧
      (∀ k < fieldAt r.raw 0x1C 4, mget 0 t.lin.sram (wrapAt (fieldAt r.raw 0x18 4) k) = data.bytes.getD k 0) ∧
      (∀ a, (∀ k < fieldAt r.raw 0x1C 4, a ≠ wrapAt (fieldAt r.raw 0x18 4) k) → mget 0 t.lin.sram a = mget 0 s.lin.sram a) ∧
      t.lin = { s.lin with sram := t.lin.sram } ∧ Only [.rings, .hif, .lin, .trc, .out, .free] s t) ∧
  (∀ (sq a : Nat) (data : Rd) (r : Running) (s : State), s.pwr.fall = .idle → busMaster s .pf1 = true →
    ready s .pf1 sq 0x21 = some r → firstDenied s (fieldAt r.raw 0x18 4) (fieldAt r.raw 0x1C 4) = some a →
    ∃ t, exec (.linenWrite sq data) s = .next t ∧ Completed s t .pf1 sq r NOT_PERMITTED [a] ∧
      t.lin = { s.lin with deniedHost := satAdd 0xFFFF s.lin.deniedHost 1 } ∧ Only [.rings, .hif, .lin, .trc, .out, .free] s t)

/-- R332: a bracket opens under an identifier that is not 0 and that no open bracket has, while fewer than four are open;
writes into it are held; closing it writes all of them in order, and aborting it writes none. Either way it is gone and the
other brackets stay. -/
def Obligations.BracketsApplyTogether : Prop :=
  (∀ (sq : Nat) (r : Running) (s : State), ready s .pf1 sq 0x23 = some r → s.lin.brackets.length < 4 →
    ∃ (t : State) (id : Nat), exec (.linenBracketOpen sq) s = .next t ∧ Completed s t .pf1 sq r SUCCESS [id] ∧
      id ≠ 0 ∧ (∀ b ∈ s.lin.brackets, b.id ≠ id) ∧ t.lin = { s.lin with brackets := s.lin.brackets ++ [{ id }] } ∧
      Only [.rings, .hif, .lin, .trc, .out, .free] s t) ∧
  (∀ (sq : Nat) (data : Rd) (r : Running) (b : Bracket) (s : State), s.pwr.fall = .idle → busMaster s .pf1 = true →
    ready s .pf1 sq 0x21 = some r → fieldAt r.raw 0x28 4 ≠ 0 → firstDenied s (fieldAt r.raw 0x18 4) (fieldAt r.raw 0x1C 4) = none →
    s.lin.brackets.find? (fun c => c.id = fieldAt r.raw 0x28 4) = some b → b.writes.length + fieldAt r.raw 0x1C 4 ≤ 256 →
    data.ok = true → fieldAt r.raw 0x1C 4 ≤ data.bytes.length →
    ∃ t, exec (.linenWrite sq data) s = .next t ∧ Completed s t .pf1 sq r SUCCESS [fieldAt r.raw 0x1C 4] ∧ t.lin.sram = s.lin.sram ∧
      t.lin.brackets = s.lin.brackets.map (fun c => if c.id = fieldAt r.raw 0x28 4 then
        { c with writes := c.writes ++ wrapRun (fieldAt r.raw 0x18 4) (data.bytes.take (fieldAt r.raw 0x1C 4)) } else c) ∧
      Only [.rings, .hif, .lin, .trc, .out, .free] s t) ∧
  (∀ (sq : Nat) (r : Running) (b : Bracket) (s : State), ready s .pf1 sq 0x24 = some r → bit (fieldAt r.raw 0x1C 4) 0 = false →
    s.lin.brackets.find? (fun c => c.id = fieldAt r.raw 0x18 4) = some b →
    ∃ t, exec (.linenBracketClose sq) s = .next t ∧
      Completed s t .pf1 sq r SUCCESS [(b.writes.map Prod.fst).eraseDups.length] ∧
      t.lin = { s.lin with brackets := s.lin.brackets.filter (fun c => c.id ≠ fieldAt r.raw 0x18 4)
                           sram := mputAll 0 b.writes s.lin.sram } ∧
      Only [.rings, .hif, .lin, .trc, .out, .free] s t) ∧
  (∀ (sq : Nat) (r : Running) (b : Bracket) (s : State), ready s .pf1 sq 0x24 = some r → bit (fieldAt r.raw 0x1C 4) 0 = true →
    s.lin.brackets.find? (fun c => c.id = fieldAt r.raw 0x18 4) = some b →
    ∃ t, exec (.linenBracketAbort sq) s = .next t ∧ Completed s t .pf1 sq r SUCCESS [0] ∧
      t.lin = { s.lin with brackets := s.lin.brackets.filter (fun c => c.id ≠ fieldAt r.raw 0x18 4) } ∧
      Only [.rings, .hif, .lin, .trc, .out, .free] s t)

/-- R325 to R327, R329, R331, R399: a store begins with its fold at once when none is in progress and 1 s has passed since the
last commit, at the delay's expiry, at the interval while AUTO_EN is set in a running mode, and for a weak page of the bank
in force; it writes the bank that the commit word does not name. A request met by an unfrozen store joins it. The freeze
fixes the image and nothing else; a request met by a frozen store waits for its end. A powered second is counted. Log
entries: 13 (the width of K, the first bank), 119 (the RETENTION record). -/
def Obligations.StoresBeginAndFreeze : Prop :=
  (∀ (sq : Nat) (r : Running) (s : State), ready s .pf1 sq 0x22 = some r → sq < 8 → s.lin.recent = false → s.lin.store = none →
    ∃ t, exec (.linenStore sq) s = .next t ∧ Waits t .pf1 sq r 0 ∧
      t.lin.store = some { bank := storeBank s.lin, serves := sq :: s.lin.delayed.filter (· < 64) } ∧ t.lin.delayed = [] ∧
      Only [.rings, .hif, .gz, .lin, .trc, .out, .free] s t) ∧
  (∀ (sq : Nat) (r : Running) (s : State), ready s .pf1 sq 0x22 = some r → s.lin.recent = true → s.lin.store = none →
    ∃ t, exec (.linenStore sq) s = .next t ∧ Waits t .pf1 sq r 0 ∧ t.lin = { s.lin with delayed := s.lin.delayed ++ [sq] } ∧
      Only [.rings, .lin] s t) ∧
  (∀ (sq : Nat) (r : Running) (st : Store) (s : State), ready s .pf1 sq 0x22 = some r → sq < 8 → s.lin.store = some st →
    st.image = none →
    ∃ t, exec (.linenStore sq) s = .next t ∧ Waits t .pf1 sq r 0 ∧
      t.lin = { s.lin with store := some { st with serves := st.serves ++ [sq] } } ∧ Only [.rings, .lin] s t) ∧
  (∀ (sq : Nat) (r : Running) (st : Store) (image : SMap Byte) (s : State), ready s .pf1 sq 0x22 = some r → s.lin.store = some st →
    st.image = some image →
    ∃ t, exec (.linenStore sq) s = .next t ∧ Waits t .pf1 sq r 0 ∧
      t.lin = { s.lin with queued := some (s.lin.queued.getD [] ++ [sq]) } ∧ Only [.rings, .lin] s t) ∧
  (∀ s : State, s.lin.delayed ≠ [] → s.lin.store = none → s.pwr.fall = .idle → s.sys.mode ≠ .dormant →
    ∃ t, exec .linenStoreDelayExpiry s = .next t ∧ t.lin.recent = false ∧
      t.lin.store = some { bank := storeBank s.lin, serves := s.lin.delayed.filter (· < 64) } ∧ t.lin.delayed = [] ∧
      Only [.rings, .hif, .gz, .lin, .trc, .out, .free] s t) ∧
  (∀ s : State, fbit s.conf LIN_CTRL_AUTO_EN = true → isRunning s = true → s.pwr.fall = .idle → s.lin.store = none →
    ∃ t, exec .linenStoreInterval s = .next t ∧
      t.lin.store = some { bank := storeBank s.lin, serves := s.lin.delayed.filter (· < 64) } ∧
      Only [.rings, .hif, .gz, .lin, .trc, .out, .free] s t) ∧
  (∀ (st : Store) (s : State), s.lin.store = some st → st.image = none →
    exec .linenFreeze s = .next { s with lin := { s.lin with store := some { st with image := some s.lin.sram } } }) ∧
  (∀ (w0 w1 : List Nat) (c : CommitCell) (s : State), commitWord s.lin = some c →
    (if c.bank = 0 then w0 else w1) ≠ [] → s.lin.store = none → linenLives s = true →
    ∃ t, exec (.linenMarginRead w0 w1) s = .next t ∧ t.lin.margins = s.lin.margins + 1 ∧
      t.lin.store = some { bank := storeBank s.lin, serves := s.lin.delayed.filter (· < 64) } ∧
      Only [.rings, .hif, .gz, .lin, .trc, .out, .free] s t) ∧
  (∀ s : State, exec .poweredSecond s = .next { s with lin := { s.lin with seconds := (s.lin.seconds + 1) % 2 ^ 32 } })

/-- R325, R326, R328: a store that ends well leaves its image in its bank, with no page marked, the commit word then names that
bank with the next sequence number, and the LINEN_STORE it served completes with the duration and the bank; one that fails
leaves the commit word as it was, posts LINEN_STORE_FAILED and completes it with RESOURCE_BUSY. The other bank stays in both.
Log entries: 13 (banks and sequence numbers), 111 (pages programmed by a cut). -/
def Obligations.StoresCommitWhole : Prop :=
  (∀ (us bank : Nat) (image : SMap Byte) (serves : List Nat) (s : State), s.lin.store = some { image := some image, bank, serves } →
    bank < 2 → s.lin.queued = none → s.sys.transit = none →
    (∀ a b, s.lin.cell0 = some a → s.lin.cell1 = some b →
      newer a.seqNo b.seqNo = true ∨ newer b.seqNo a.seqNo = true ∨ a.seqNo = b.seqNo) →
    ∃ t, exec (.linenStoreCommit us none) s = .next t ∧ t.lin.store = none ∧
      commitWord t.lin = some { bank, seqNo := match commitWord s.lin with | some c => (c.seqNo + 1) % 2 ^ 32 | none => 1 } ∧
      (bank = 0 → t.lin.bank0 = image ∧ t.lin.bad0 = [] ∧ t.lin.bank1 = s.lin.bank1) ∧
      (bank = 1 → t.lin.bank1 = image ∧ t.lin.bad1 = [] ∧ t.lin.bank0 = s.lin.bank0) ∧ t.lin.sram = s.lin.sram ∧
      (∀ (n : Nat) (r : Running), serves = [n] → waitingOn s .pf1 n 0x22 = some r → Completed s t .pf1 n r SUCCESS [us, bank]) ∧
      Only [.rings, .hif, .lin, .trc, .out, .free] s t) ∧
  (∀ (us bank p : Nat) (image : SMap Byte) (serves : List Nat) (s : State), s.lin.store = some { image := some image, bank, serves } →
    bank < 2 → s.lin.queued = none → s.sys.transit = none →
    ∃ t, exec (.linenStoreCommit us (some p)) s = .next t ∧ t.lin.store = none ∧ commitWord t.lin = commitWord s.lin ∧
      (bank = 0 → t.lin.bank1 = s.lin.bank1) ∧ (bank = 1 → t.lin.bank0 = s.lin.bank0) ∧ t.lin.sram = s.lin.sram ∧
      Posts s t [event s 0x0E03 2 [bank, p]] ∧
      (∀ (n : Nat) (r : Running), serves = [n] → waitingOn s .pf1 n 0x22 = some r → Completed s t .pf1 n r RESOURCE_BUSY []) ∧
      Only [.rings, .hif, .lin, .trc, .out, .free] s t)

/-! ## Staging and arming -/

/-- R92, R442, R436, R440: SET_TABLE puts the bytes it read into the staged table at its offset, before lock in the setup set and after
it in the slot it names, which is not armed; STAGE_CONFIG puts the entries of its list into its slot, the later one of two
for a register winning, and with CLEAR into an empty slot. A CRC that differs stages nothing. Nothing in force changes. A
module source needs no Bus Master Enable (R440). -/
def Obligations.StagingChangesOneSet : Prop :=
  (∀ (sq : Nat) (data : Rd) (r : Running) (d : Bytes) (s : State), ready s .pf0 sq 0x10 = some r →
    (busMaster s .pf0 = true ∨ fieldAt r.raw 0x34 4 = 1) →
    (s.sys.lock = true → (slotOf s.conf (bits (fieldAt r.raw 0x18 4) 16 2)).armed = none) → tableData s r.raw data = .ok d →
    crc32c d = fieldAt r.raw 0x30 4 →
    ∃ (t : State) (tbl : List (Nat × Byte)), exec (.setTable sq data) s = .next t ∧ Completed s t .pf0 sq r SUCCESS [d.length] ∧
      (∀ j, aget tbl j = if 1048576 * fieldAt r.raw 0x18 2 + fieldAt r.raw 0x2C 4 ≤ j then
          (d[j - (1048576 * fieldAt r.raw 0x18 2 + fieldAt r.raw 0x2C 4)]?).or
            (aget (stageTarget s (bits (fieldAt r.raw 0x18 4) 16 2)).tbl j)
        else aget (stageTarget s (bits (fieldAt r.raw 0x18 4) 16 2)).tbl j) ∧
      (s.sys.lock = false → t.conf = { s.conf with setup := { s.conf.setup with tbl } }) ∧
      (s.sys.lock = true → t.conf = setSlot (bits (fieldAt r.raw 0x18 4) 16 2)
        { slotOf s.conf (bits (fieldAt r.raw 0x18 4) 16 2) with tbl } s.conf) ∧
      Only [.rings, .hif, .conf, .trc, .out, .free] s t) ∧
  (∀ (sq : Nat) (data : Rd) (r : Running) (d : Bytes) (s : State), ready s .pf0 sq 0x10 = some r →
    (busMaster s .pf0 = true ∨ fieldAt r.raw 0x34 4 = 1) →
    (s.sys.lock = true → (slotOf s.conf (bits (fieldAt r.raw 0x18 4) 16 2)).armed = none) → tableData s r.raw data = .ok d →
    crc32c d ≠ fieldAt r.raw 0x30 4 →
    ∃ t, exec (.setTable sq data) s = .next t ∧ Completed s t .pf0 sq r CRC_MISMATCH [] ∧ Only [.rings, .hif, .trc, .out, .free] s t) ∧
  (∀ (sq : Nat) (data : Rd) (r : Running) (base : Slot) (s : State), busMaster s .pf0 = true → ready s .pf0 sq 0x11 = some r →
    (slotOf s.conf (fieldAt r.raw 0x18 4 % 4)).armed = none → data.ok = true → 8 * fieldAt r.raw 0x28 4 ≤ data.bytes.length →
    base = (if bit (fieldAt r.raw 0x18 4) 8 then {} else slotOf s.conf (fieldAt r.raw 0x18 4 % 4)) →
    firstBadEntry base.regs (listEntries data.bytes (fieldAt r.raw 0x28 4)) 0 = none →
    ∃ t, exec (.stageConfig sq data) s = .next t ∧
      Completed s t .pf0 sq r SUCCESS [(aputAll (listEntries data.bytes (fieldAt r.raw 0x28 4)) base.regs).length] ∧
      t.conf = setSlot (fieldAt r.raw 0x18 4 % 4)
        { base with regs := aputAll (listEntries data.bytes (fieldAt r.raw 0x28 4)) base.regs } s.conf ∧
      Only [.rings, .hif, .conf, .trc, .out, .free] s t)

/-- R92, R93: ARM_CONFIG of slots outside a wall that are not armed, for an FE not before F + 2, arms them when the whole passes
validation and gives the class and the FE; one for an earlier FE is ARM_LATE; a cancel in time of slots that no wall arm covers disarms those that were
armed. Slots outside the mask and everything in force stay. The frame tick that begins an armed set's FE puts it in force and
empties its slot, and one at which nothing is due leaves the configuration. Log entry 35: ARM_LATE is judged before STAGE_ARMED. -/
def Obligations.ArmsAndCancels : Prop :=
  (∀ (sq n : Nat) (mask : List Nat) (r : Running) (s : State), ready s .pf0 sq 0x12 = some r →
    mask = bitList (fieldAt r.raw 0x18 4 % 16) 4 → bit (fieldAt r.raw 0x18 4) 8 = false →
    (fbit s.conf GNG_CTRL_EN = false ∨ ∀ i ∈ mask, i ∉ wallSlots s.conf) → (∀ a ∈ s.gng.arms, a.ring = none) → armFe s.sys.fe (fieldAt r.raw 0x20 8) 2 = some n →
    (∀ i ∈ mask, (slotOf s.conf i).armed = none) → validateArm (worldOf s) (armSlots mask (some n) s.conf) n = none →
    ∃ t, exec (.armConfig sq) s = .next t ∧
      Completed s t .pf0 sq r SUCCESS (classNum (armClass (armSlots mask (some n) s.conf) n) :: lohi n) ∧
      (∀ i ∈ mask, slotOf t.conf i = { slotOf s.conf i with armed := some n }) ∧
      (∀ i, i ∉ mask → slotOf t.conf i = slotOf s.conf i) ∧ t.conf.regs = s.conf.regs ∧ t.conf.tables = s.conf.tables ∧
      t.conf.live = s.conf.live ∧ t.conf.setup = s.conf.setup ∧ Only [.rings, .hif, .conf, .trc, .out, .free] s t) ∧
  (∀ (sq : Nat) (r : Running) (s : State), ready s .pf0 sq 0x12 = some r → bit (fieldAt r.raw 0x18 4) 8 = false →
    (fbit s.conf GNG_CTRL_EN = false ∨ ∀ i ∈ bitList (fieldAt r.raw 0x18 4 % 16) 4, i ∉ wallSlots s.conf) →
    (∀ a ∈ s.gng.arms, a.ring = none) → fieldAt r.raw 0x20 8 ≠ 0 →
    fieldAt r.raw 0x20 8 < s.sys.fe + 2 →
    ∃ t, exec (.armConfig sq) s = .next t ∧ Completed s t .pf0 sq r ARM_LATE [] ∧ Only [.rings, .hif, .trc, .out, .free] s t) ∧
  (∀ (sq : Nat) (mask : List Nat) (r : Running) (s : State), ready s .pf0 sq 0x12 = some r → bit (fieldAt r.raw 0x18 4) 8 = true →
    mask = (bitList (fieldAt r.raw 0x18 4 % 16) 4).filter (fun i => (slotOf s.conf i).armed.isSome) → s.gng.arms = [] →
    (∀ i ∈ mask, ∀ n, (slotOf s.conf i).armed = some n → s.sys.fe + 2 ≤ n) →
    validateRest (worldOf s) (armSlots mask none s.conf) = none →
    ∃ t, exec (.armConfigCancel sq) s = .next t ∧ Completed s t .pf0 sq r SUCCESS [ofBits mask] ∧
      (∀ i ∈ mask, slotOf t.conf i = { slotOf s.conf i with armed := none }) ∧
      (∀ i, i ∉ mask → slotOf t.conf i = slotOf s.conf i) ∧ t.conf.regs = s.conf.regs ∧ t.conf.tables = s.conf.tables ∧
      t.conf.live = s.conf.live ∧ t.conf.setup = s.conf.setup ∧ Only [.rings, .hif, .conf, .gng, .trc, .out, .free] s t) ∧
  (∀ s : State, ownFrameTick s = true → s.gng.arms = [] →
    ∃ t, exec .frameTick s = .next t ∧ t.sys.fe = s.sys.fe + 1 ∧
      (changeDue s = true → t.conf = confAt s (s.sys.fe + 1) ∧
        ∀ i < 4, (slotOf s.conf i).armed.any (· ≤ s.sys.fe + 1) = true → slotOf t.conf i = {}) ∧
      (changeDue s = false → t.conf = s.conf))

/-- R356, R357, R349: the wall exchange. An ARM_CONFIG of wall slots arms them, floods ARM on every up port and waits; a tile that
hears an ARM from another arms what it can, holds the arm, forwards the ARM on every other up port and acknowledges; the
last SUCCESS acknowledgement floods ARM_COMMIT and completes the command; a tile that hears the commit or the abort marks or
drops the arm. A source's first message of a type is never dropped. (How an originator
numbers its arms, and which tiles it waits for, are the model's choices, log entry 17.) -/
def Obligations.WallArmsExchange : Prop :=
  (∀ (sq n : Nat) (mask : List Nat) (r : Running) (s : State), ready s .pf0 sq 0x12 = some r →
    mask = bitList (fieldAt r.raw 0x18 4 % 16) 4 → mask ≠ [] → bit (fieldAt r.raw 0x18 4) 8 = false →
    fbit s.conf GNG_CTRL_EN = true → (∀ i ∈ mask, i ∈ wallSlots s.conf) → s.gng.arms = [] →
    (∃ k ∈ partTiles s, k ≠ tileIndex s.conf) → armFe s.sys.fe (fieldAt r.raw 0x20 8) 4 = some n →
    (∀ i ∈ mask, (slotOf s.conf i).armed = none) → validateArm (worldOf s) (armSlots mask (some n) s.conf) n = none →
    ∃ t, exec (.armConfig sq) s = .next t ∧ Waits t .pf0 sq r (nextArmId s) ∧
      t.conf = armSlots mask (some n) s.conf ∧ t.gng.nextId = (s.gng.nextId + 1) % 2 ^ 26 ∧
      (∀ p ∈ upPorts s, .gngFrame p (gngWire (gngBytes s 0x05 1
        (armPayload (nextArmId s) 0 (fieldAt r.raw 0x18 4 % 16) n []))) ∈ t.out) ∧ Only [.rings, .conf, .gng, .out] s t) ∧
  (∀ (port src q id kind slots fe cls : Nat) (body : Bytes) (conf : Conf) (s : State), port ∈ upPorts s →
    src ≠ tileIndex s.conf → mget 0 s.gng.seqs (256 * 5 + src) = 0 → judgeArm s kind slots fe body = (SUCCESS, cls, conf) →
    ∃ t, exec (.ginghamArm port src q id kind slots fe body) s = .next t ∧ t.conf = conf ∧
      t.gng.arms = s.gng.arms ++ [{ id := id, kind, slots, fe, body }] ∧
      (∀ p ∈ upPorts s, p ≠ port → .gngFrame p (gngWire (floodBytes 0x05 src q (armPayload id kind slots fe body))) ∈ t.out) ∧
      (∀ p ∈ upPorts s, .gngFrame p (gngWire (gngBytes s 0x06 1 (toLE 4 id ++ toLE 1 SUCCESS ++ toLE 1 cls))) ∈ t.out) ∧
      Only [.rings, .hif, .conf, .gng, .trc, .out, .free] s t) ∧
  (∀ (port src q id cls sq : Nat) (a : WallArm) (r : Running) (s : State), port ∈ upPorts s → src ≠ tileIndex s.conf →
    mget 0 s.gng.seqs (256 * 6 + src) = 0 → s.gng.arms = [a] → a.id = id → a.kind = 0 →
    a.ring = some sq → waitingOn s .pf0 sq 0x12 = some r → a.acks = [(tileIndex s.conf, SUCCESS, cls)] →
    (∀ k ∈ partTiles s, k = src ∨ k = tileIndex s.conf) →
    ∃ t, exec (.armAck port src q id SUCCESS cls) s = .next t ∧ Completed s t .pf0 sq r SUCCESS (cls :: lohi a.fe) ∧
      (∀ b ∈ t.gng.arms, b.committed = true) ∧ (∀ p ∈ upPorts s, .gngFrame p (gngWire (gngBytes s 0x07 1 (toLE 4 a.id))) ∈ t.out) ∧
      t.conf = s.conf) ∧
  (∀ (port src q id : Nat) (a : WallArm) (s : State), port ∈ upPorts s → src ≠ tileIndex s.conf →
    mget 0 s.gng.seqs (256 * 7 + src) = 0 → armWith s id = some a → a.kind = 0 →
    ∃ t, exec (.armCommit port src q id) s = .next t ∧
      t.gng.arms = s.gng.arms.map (fun b => if b.id = a.id then { a with committed := true, ring := none } else b) ∧
      Only [.rings, .hif, .gng, .trc, .out, .free] s t) ∧
  (∀ (port src q id : Nat) (a : WallArm) (s : State), port ∈ upPorts s → src ≠ tileIndex s.conf →
    mget 0 s.gng.seqs (256 * 8 + src) = 0 → a ∈ s.gng.arms → a.id = id →
    (∀ b ∈ s.gng.arms, b.id = id → b = a) → a.kind = 0 → a.ring = none →
    ∃ t, exec (.armAbort port src q id) s = .next t ∧ t.gng.arms = s.gng.arms.filter (fun b => b.id ≠ a.id) ∧
      t.conf = armSlots (bitList a.slots 4) none s.conf ∧
      Only [.rings, .hif, .conf, .gng, .trc, .out, .free] s t)

/-! ## Power, BOOT and modes -/

/-- R41, R44, R413, R368, R369, R45, R49, R192, R194, R216, R350, Table 2.4: power-on reset leaves BOOT waiting for VIN
with FE 0 and keeps the fuses, the boot store and Linen's commit cells, and with no store in progress its banks; VIN good
begins BOOT with the measurement slots cleared; the image that the ROM accepts runs and ring service begins, or the recovery
monitor runs when there is none (image measurements are the model's reading, log entry 160); memory training records its
path; BOOT without a power-on cue ends in LIVE with ticks running, in a wall by listening first, and BOOT with one has its
ticks begin once the panel is on; the map load that a step of BOOT began ends. A step that ends while BOOT waits for VIN good
is held, and the end of a step that is not in progress changes nothing. Log entries: 117 (what BOOT holds back), 123 (the FE
of MODE_CHANGED to LIVE), 122 (the power-on cue), 120 (signatures), 58 (BOOT_PATH), 29 (the FE of a change to BOOT). -/
def Obligations.BootGoesStepByStep : Prop :=
  (∀ s : State,
    ∃ t, exec .powerOnReset s = .next t ∧ t.sys.mode = .boot ∧ t.sys.stage = .unpowered ∧ t.sys.fe = 0 ∧ t.sys.lock = false ∧
      t.mem.bytes = [] ∧ t.conf = {} ∧ t.sec.fuses = s.sec.fuses ∧
      (s.lin.store = none → t.lin.bank0 = s.lin.bank0 ∧ t.lin.bank1 = s.lin.bank1) ∧
      t.lin.cell0 = s.lin.cell0 ∧ t.lin.cell1 = s.lin.cell1 ∧ t.bst = s.bst ∧ t.out = s.out) ∧
  (∀ (us : Nat) (s : State), s.sys.mode = .boot → s.sys.stage = .unpowered → s.pwr.fall = .idle → s.pwr.inputOn = true →
    ∃ t, exec (.vinGood us) s = .next t ∧ t.sys.mode = .boot ∧ t.sys.stage = .image ∧
      t.sys.cause = { s.sys.nextCause with retained := t.mem.retained } ∧
      t.mem.retained = (s.mem.retained && (deviceRecord (recallLinen s).lin.sram 0x0103).isSome) ∧ (∀ k, measSlot t k = List.replicate 48 0) ∧
      (s.mem.retained = false → t.sec.memoryKey.isSome = true) ∧ t.sec.fuses = s.sec.fuses ∧ t.bst = s.bst) ∧
  (∀ s : State, s.sys.mode = .boot → s.sys.stage = .image → s.pwr.fall = .idle →
    s.sys.transit = none → s.sys.bootHeld = false → s.thm.junction < 1600 →
    ∃ t, exec .bootImageVerified s = .next t ∧ t.sys.serving = true ∧ t.bst = s.bst ∧
      (∀ img second, chosenImage s = some (img, second) →
        t.sys.stage = .training ∧ t.sys.fw = Config.imageFw img ∧ t.sys.imageB = second ∧ t.sec.imageSvn = Config.imageSvn img % 256 ∧
        measSlot t 1 = (imagesRead s).foldl (fun m i => Config.sha384 (m ++ i)) (measSlot s 1) ∧
        t.sec.fuses = s.sec.fuses) ∧
      (chosenImage s = none → t.sys.stage = .recovery ∧ t.conf = s.conf)) ∧
  (∀ (ok : Bool) (s : State), s.sys.mode = .boot → s.sys.stage = .training → s.pwr.fall = .idle → s.sys.transit = none →
    s.sys.bootHeld = false →
    ∃ t, exec (.memoryTrainingDone ok) s = .next t ∧ t.sys.stage = .loaded ∧ t.sys.bootPath = trainingPath ok s ∧
      t.mem.retained = false ∧ t.mem.retired = s.bst.retireLog.foldl (fun m p => mput 0 p.1 p.2 m) [] ∧ t.bst = s.bst) ∧
  (∀ s : State, s.sys.mode = .boot → s.sys.stage = .loaded → s.pwr.fall = .idle → s.sys.transit = none →
    s.sys.bootHeld = false → s.cue.powerOn = none → fbit s.conf GNG_CTRL_EN = false →
    ∃ t, exec .bootComplete s = .next t ∧ t.sys.mode = .live ∧ t.sys.stage = .finished ∧ t.sys.fe = s.sys.fe ∧ t.tmg.running = true ∧
      t.conf = s.conf ∧ t.mem = s.mem ∧ Posts s t [{ event s 0x0003 0 [1, 2] with fe := s.sys.fe + 1 }]) ∧
  (∀ s : State, s.sys.mode = .boot → s.sys.stage = .loaded → s.pwr.fall = .idle → s.sys.transit = none →
    s.sys.bootHeld = false → s.cue.powerOn = none → fbit s.conf GNG_CTRL_EN = true →
    ∃ t, exec .bootComplete s = .next t ∧ t.sys.mode = .live ∧ t.sys.stage = .finished ∧ t.sys.fe = s.sys.fe ∧
      t.gng.role = .joining ∧ t.tmg = s.tmg ∧ t.conf = s.conf ∧ t.mem = s.mem) ∧
  (∀ s : State, s.sys.mode = .boot → s.sys.stage = .loaded → s.pwr.fall = .idle → s.sys.transit = none →
    s.sys.bootHeld = false → s.cue.powerOn.isSome = true → s.pnl.state = .on → fbit s.conf GNG_CTRL_EN = false →
    ∃ t, exec .bootComplete s = .next t ∧ t.tmg.running = true ∧ t.tmg.nextFt = some 1 ∧ Only [.tmg] s t) ∧
  (∀ (ms : Nat) (p : Profile) (s : State), profileUsed s = some p → s.dmk.loading = true → firmwareRuns s = true →
    (∀ k, isPoisoned s k = false) →
    ∃ t, exec (.damaskLoadDone ms) s = .next t ∧ t.dmk.loaded = true ∧ t.dmk.loading = false ∧ t.conf = s.conf ∧
      Only [.rings, .hif, .mem, .dmk, .out] s t) ∧
  (∀ (ok : Bool) (s : State), s.sys.mode = .boot → s.pwr.fall = .idle → s.sys.transit = none → s.sys.bootHeld = true →
    exec .bootImageVerified s = .next { s with sys := { s.sys with heldStep := some .bootImageVerified } } ∧
    exec (.memoryTrainingDone ok) s = .next { s with sys := { s.sys with heldStep := some (.memoryTrainingDone ok) } } ∧
    exec .bootComplete s = .next { s with sys := { s.sys with heldStep := some .bootComplete } }) ∧
  (∀ (ok : Bool) (s : State), s.sys.bootHeld = false → s.thm.junction < 1600 →
    (s.sys.stage ≠ .image → exec .bootImageVerified s = .next s) ∧
    (s.sys.stage ≠ .training → exec (.memoryTrainingDone ok) s = .next s) ∧
    (s.sys.stage ≠ .loaded → exec .bootComplete s = .next s)) ∧
  (∀ (ms : Nat) (s : State), s.dmk.loading = false → exec (.damaskLoadDone ms) s = .next s)

/-- R48 to R50, R181, R232, R327, R332, Table 2.7, Table 2.8: BRACE counts its entry, begins the lamp ramp down and has a store
under way; VIN good ends it and begins the ramp back. The fall stops ring service, ticks and every link's work and has a
store under way; its steps follow, with the enables of the panel's steps released with the lamps; its reset leaves power-on
reset's state with cause 1. Log entries: 97 (a watchdog reset in BRACE), 124 (frames of the fall), 96 (gate supply). -/
def Obligations.BraceAndFall : Prop :=
  (∀ (vin : Nat) (s : State), isRunning s = true → s.sys.brace = false → s.pwr.fall = .idle →
    ∃ t, exec (.braceEnter vin) s = .next t ∧ t.sys.brace = true ∧ t.sys.vinLow = true ∧ t.sys.mode = s.sys.mode ∧
      t.pwr.vin = vin % 4096 ∧ t.pwr.braceCount = satAdd 0xFFFF s.pwr.braceCount 1 ∧ t.pwr.capDown = true ∧ t.pwr.capSteps = 2 ∧
      t.lin.store.isSome = true ∧ t.conf = s.conf ∧ t.mem = s.mem) ∧
  (∀ (us : Nat) (s : State), isRunning s = true → s.sys.brace = true → s.pwr.fall = .idle → s.pwr.inputOn = true →
    ∃ t, exec (.vinGood us) s = .next t ∧ t.sys.brace = false ∧ t.sys.vinLow = false ∧ t.sys.mode = s.sys.mode ∧
      t.sys.bootHeld = false ∧
      t.pwr.capDown = false ∧ t.pwr.capSteps = 8 ∧ t.lin = s.lin ∧ Only [.sys, .pwr, .flt, .rings, .hif, .pnl, .out, .free] s t) ∧
  (∀ (vin : Nat) (s : State), s.sys.mode ≠ .dormant → s.sys.mode ≠ .boot ∨ s.sys.stage ≠ .unpowered → s.pwr.fall = .idle →
    ∃ t, exec (.fall vin) s = .next t ∧ t.pwr.fall = .storing ∧ t.sys.serving = false ∧ t.sys.transit = none ∧
      t.tmg.running = false ∧ t.sys.mode = s.sys.mode ∧ t.twl.training = false ∧ t.gng = {} ∧ t.lin.brackets = [] ∧ t.lin.store.isSome = true ∧
      t.conf = s.conf ∧ t.mem = s.mem ∧ t.sec = s.sec) ∧
  (∀ s : State, s.pwr.fall = .storing →
    ∃ t, exec .fallDischargeFrame s = .next t ∧ t.pwr.fall = .discharge ∧ t.pnl.discharging = true ∧
      Only [.pwr, .tmg, .pnl, .twl, .out] s t) ∧
  (∀ s : State, s.pwr.fall = .storing ∨ s.pwr.fall = .discharge →
    ∃ t, exec .fallLampsOff s = .next t ∧ t.pwr.fall = .lampsOff ∧ t.pnl.state = .off ∧ t.pnl.checkedSteps = 0 ∧
      (∀ k ∈ releaseOrder s, t.pnl.pens.getLsbD (fget s.conf (PNL_SEQ_PEN k)) = false) ∧
      Only [.pwr, .tmg, .pnl, .out, .free] s t) ∧
  (∀ s : State, s.pwr.fall ≠ .idle →
    ∃ t, exec .fallReset s = .next t ∧ t.pwr.fall = .idle ∧ t.sys.mode = .boot ∧ t.sys.stage = .unpowered ∧
      t.sys.nextCause = { cause := 1 } ∧ t.mem.bytes = [] ∧ t.conf = {} ∧ t.sec.fuses = s.sec.fuses ∧ t.bst = s.bst ∧ t.out = s.out)

/-- R408, R410, R49, R50, R383, R413: the supply. A trip opens the input switch, latches, and in a running mode begins the fall;
the switch closes again; a measurement of the hold-up energy outside BRACE is shown, and reported when it is below 120 mJ; a
dip during BOOT holds the next step; a loss of VIN in DORMANT ends memory retention and the memory key, and no more. Log
entries: 118 (PWR_VIN shows what a command gave), 2 (values of power-up). -/
def Obligations.TheSupplyIsWatched : Prop :=
  (∀ s : State, isRunning s = true → s.pwr.fall = .idle →
    ∃ t, exec .vinOvervoltageTrip s = .next t ∧ t.pwr.inputOn = false ∧ t.pwr.ovpLatch = true ∧ t.pwr.fall = .storing ∧
      t.sys.serving = false ∧ t.conf = s.conf) ∧
  (∀ s : State, exec .inputSwitchClose s = .next { s with pwr := { s.pwr with inputOn := true } }) ∧
  (∀ (mJ : Nat) (s : State), firmwareRuns s = true → s.sys.brace = false →
    ∃ t, exec (.holdupMeasurement mJ) s = .next t ∧
      t.pwr = { s.pwr with holdup := min 0xFFFF mJ, holdupOk := decide (120 ≤ mJ) } ∧
      Posts s t (if mJ < 120 then [event s 0x1504 2 [mJ]] else []) ∧ Only [.pwr, .rings, .hif, .out] s t) ∧
  (∀ (vin : Nat) (s : State), s.sys.mode = .boot → s.sys.stage ≠ .unpowered → s.pwr.fall = .idle →
    ∃ t, exec (.vinDipBeforeRunning vin) s = .next t ∧ t.sys.bootHeld = true ∧ t.sys.vinLow = true ∧ t.sys.stage = s.sys.stage ∧
      t.sys.mode = .boot ∧ t.pwr.vin = vin % 4096 ∧ Only [.sys, .pwr, .flt, .rings, .hif, .out] s t) ∧
  (∀ s : State, s.sys.mode = .dormant → exec .dormantVinLoss s = .next { s with
      sys := { s.sys with vinLow := true, vinLost := true }, mem := { s.mem with retained := false, retainedPages := [] }
      sec := { s.sec with memoryKey := none } })

/-- R39: a MODE_REQ of no mode is refused with BAD_PARAM and 0x18 before anything else; while a transition is under way, or in BOOT,
the answer is MODE_BUSY; the current mode succeeds with no effect; BOOT, or a transition that Table 2.4 does not have, is
MODE_INVALID. (That a request naming the current mode while a transition is under way is answered MODE_BUSY, and one naming BOOT
in BOOT too, is the model's choice, log entry 33.) -/
def Obligations.ModeRequestsAreAnswered : Prop :=
  (∀ (locked : Bool) (zones : Nat) (raw : Bytes), firstReserved raw (headerFields raw) 0 0x18 = none → opcode raw = 0x13 →
    firstReserved raw (bodyFields 0x13) 0x18 0x40 = none → 5 < fieldAt raw 0x18 4 % 8 →
    checkDescriptor locked zones .pf0 .cmd raw = some (BAD_PARAM, 0x18)) ∧
  (∀ (sq : Nat) (r : Running) (s : State), ready s .pf0 sq 0x13 = some r → s.sys.transit = none → s.sys.mode ≠ .boot →
    modeOf (fieldAt r.raw 0x18 4 % 8) = s.sys.mode →
    ∃ t, exec (.modeReq sq) s = .next t ∧ Completed s t .pf0 sq r SUCCESS [modeNum s.sys.mode] ∧
      Only [.rings, .hif, .trc, .out, .free] s t) ∧
  (∀ (sq : Nat) (r : Running) (s : State), ready s .pf0 sq 0x13 = some r → s.sys.transit = none → s.sys.mode ≠ .boot →
    modeOf (fieldAt r.raw 0x18 4 % 8) ≠ s.sys.mode → mayTurn s.sys.mode (modeOf (fieldAt r.raw 0x18 4 % 8)) = false →
    ∃ t, exec (.modeReq sq) s = .next t ∧ Completed s t .pf0 sq r MODE_INVALID [modeNum s.sys.mode] ∧
      Only [.rings, .hif, .trc, .out, .free] s t) ∧
  (∀ (sq : Nat) (r : Running) (s : State), ready s .pf0 sq 0x13 = some r → s.sys.transit.isSome = true ∨ s.sys.mode = .boot →
    ∃ t, exec (.modeReq sq) s = .next t ∧ Completed s t .pf0 sq r MODE_BUSY [modeNum s.sys.mode] ∧
      Only [.rings, .hif, .trc, .out, .free] s t) ∧
  (∀ m : Mode, mayTurn m .boot = false) ∧
  (∀ m n : Mode, mayTurn m n = true → (m, n) ∈ [(Mode.live, Mode.hold), (.live, .service), (.hold, .live), (.hold, .service),
    (.cue, .service), (.service, .live), (.service, .hold), (.live, .dormant), (.hold, .dormant), (.cue, .dormant), (.service, .dormant)])

/-- R43, R438, R439, R364, Table 2.4: MODE_REQ is accepted for a transition of the table, and the mode then waits for its FT,
where it turns; HOLD turns to LIVE with a frame that was latched. DORMANT is entered with brackets, staged sets, the debug
token and the wall gone and a store under way. In DORMANT an enabled edge and a neighbour's wake begin a BOOT that records
them; in another mode an edge sets the pin's level and nothing else. Log entries: 128 (a GPIO edge), 148 (two wake triggers),
57 (HOLD to LIVE), 112 (regions retained). -/
def Obligations.ModesTurnAsTheTableSays : Prop :=
  (∀ (sq : Nat) (m : Mode) (r : Running) (s : State), ready s .pf0 sq 0x13 = some r → s.sys.transit = none → s.sys.mode ≠ .boot →
    m = modeOf (fieldAt r.raw 0x18 4 % 8) → m ≠ s.sys.mode → mayTurn s.sys.mode m = true →
    ∃ t, exec (.modeReq sq) s = .next t ∧ (sqOf t.rings .pf0 sq).running = none ∧ ((cqAt s.rings r.cq).enable = false →
        cmdDone sq r SUCCESS [modeNum s.sys.mode] ∈ (cqAt t.rings r.cq).store) ∧
      t.sys = { s.sys with transit := some { target := m, retain := bit (fieldAt r.raw 0x18 4) 8 && m = .dormant } }) ∧
  (∀ (w : Transit) (s : State), ownFrameTick s = true → s.sys.transit = some w → w.target ≠ .dormant →
    (s.sys.mode = .hold → w.target = .live → s.ing.coming.any Frame.host = true) →
    ∃ t, exec .frameTick s = .next t ∧ t.sys.mode = w.target ∧ t.sys.fe = s.sys.fe + 1) ∧
  (∀ (x : Transit) (s : State), s.sys.transit = some x → x.target = .dormant → x.step = 1 → s.pnl.state = .off →
    s.pwr.fall = .idle →
    ∃ t, exec .dormantEntry s = .next t ∧ t.sys.transit = some { x with step := 2 } ∧ t.sys.mode = s.sys.mode ∧
      t.lin.brackets = [] ∧ t.lin.store.isSome = true ∧ t.sec.token = false ∧ t.gng = {} ∧ t.conf.setup = {} ∧ t.conf.slots = [] ∧
      t.conf.regs = s.conf.regs ∧ t.conf.tables = s.conf.tables) ∧
  (∀ (pin : Nat) (rising : Bool) (s : State), s.sys.mode ≠ .dormant → pin < 8 →
    ∃ t, exec (.gpioWakeEdge pin rising) s = .next t ∧ t = { s with sys := { s.sys with gpioPins := t.sys.gpioPins } } ∧
      ∀ i : Nat, t.sys.gpioPins.getLsbD i = if i = pin then rising else s.sys.gpioPins.getLsbD i) ∧
  (∀ (pin : Nat) (rising : Bool) (s : State), s.sys.mode = .dormant → pin < 8 →
    bit (fget s.conf SYS_GPIO_CFG_WAKE_EN) pin = true → bit (fget s.conf SYS_GPIO_CFG_DIR) pin = false →
    bit (fget s.conf SYS_GPIO_CFG_EDGE) pin = rising → s.sys.vinLow = false →
    ∃ t, exec (.gpioWakeEdge pin rising) s = .next t ∧ t.sys.mode = .boot ∧ t.sys.stage = .image ∧
      t.sys.cause = { cause := 2, wakeSrc := 2, wakeGpio := pin, retained := t.mem.retained } ∧
      (t.mem.retained = true → s.mem.retained = true) ∧ t.sec.fuses = s.sec.fuses ∧
      t.bst = s.bst) ∧
  (∀ (port : Nat) (s : State), s.sys.mode = .dormant → s.sys.vinLow = false →
    ∃ t, exec (.ginghamWake port) s = .next t ∧ t.sys.mode = .boot ∧ t.sys.stage = .image ∧
      t.sys.cause = { cause := 2, wakeSrc := 3, wakePort := port, retained := t.mem.retained } ∧
      (t.mem.retained = true → s.mem.retained = true) ∧ t.sec.fuses = s.sec.fuses ∧
      t.bst = s.bst)

/-! ## The link and the host interface -/

/-- R10, R42, R71, R73, R332, R379, R431, R439, Table 3.10: PERST#, a hot reset and a function-level reset of PF0 leave its
rings, its candidates, the setup and the staged sets as after power-on and the configuration in force as it was; PERST# and a
hot reset also take PF1, its sessions, the debug token and every stream, and the link, but a link in L2 stays there with
PME_En (log entry 143); a reset of PF1 takes PF1's alone; a link that goes down loses the streams and its figures. PERST#
released in DORMANT is a wake, and does nothing else in another mode. A watchdog reset in a running mode begins the way to
BOOT with its cause and has a store under way. Log entries: 107 (what a watchdog reset keeps), 48 (the link that is down), 24
(what PCI Express resets), 51 (MSI-X), 34 and 108 to 110 (transitions, push slots, commands and arms at a warm reset). -/
def Obligations.HostResetsTakeWhatTheySay : Prop :=
  (∀ s : State, s.hif.perst = false →
    ∃ t, exec .perstAssert s = .next t ∧ t.hif.perst = true ∧ (s.hif.power ≠ .l2 → t.hif.power = .down) ∧ t.hif.speed = 0 ∧
      (s.hif.power = .l2 → t.hif.power = .l2 ∧ t.hif.pmeEn = s.hif.pmeEn) ∧
      (∀ n < 64, sqOf t.rings .pf0 n = {}) ∧ (∀ n < 8, sqOf t.rings .pf1 n = {}) ∧ t.sys.lock = false ∧
      t.ing.cands = [] ∧ t.conf.setup = {} ∧ t.conf.slots = [] ∧ t.conf.regs = s.conf.regs ∧ t.conf.tables = s.conf.tables ∧
      t.sec.sessions = [] ∧ t.sec.token = false ∧ t.lin.brackets = [] ∧ (∀ g < 4, (streamOf t g).secure = false) ∧
      t.sec.fuses = s.sec.fuses ∧ t.sys.fe = s.sys.fe ∧ t.sys.mode = s.sys.mode) ∧
  (∀ s : State, hostUp s = true →
    ∃ t, exec .hotReset s = .next t ∧ t.hif.power = .down ∧ t.hif.perst = s.hif.perst ∧
      (∀ n < 64, sqOf t.rings .pf0 n = {}) ∧ (∀ n < 8, sqOf t.rings .pf1 n = {}) ∧ t.sys.lock = false ∧ t.ing.cands = [] ∧
      t.conf.setup = {} ∧ t.conf.slots = [] ∧ t.conf.regs = s.conf.regs ∧ t.conf.tables = s.conf.tables ∧
      t.sec.sessions = [] ∧ t.sec.token = false ∧ (∀ g < 4, (streamOf t g).secure = false) ∧ t.sys.mode = s.sys.mode) ∧
  (∀ s : State, configurable s = true →
    ∃ t, exec .flrPf0 s = .next t ∧ t.hif.power = s.hif.power ∧ t.hif.bme0 = false ∧ t.hif.bar4Log2 = 28 ∧
      (∀ n < 64, sqOf t.rings .pf0 n = {}) ∧ t.sys.lock = false ∧ t.ing.cands = [] ∧ t.conf.setup = {} ∧ t.conf.slots = [] ∧
      t.conf.regs = s.conf.regs ∧ t.conf.tables = s.conf.tables ∧ t.sec = s.sec ∧
      (s.sys.mode = .live → s.sys.transit = none → t.sys.transit = some { target := .hold }) ∧ t.sys.mode = s.sys.mode) ∧
  (∀ s : State, configurable s = true →
    ∃ t, exec .flrPf1 s = .next t ∧ (∀ n < 8, sqOf t.rings .pf1 n = {}) ∧ (∀ n < 64, sqOf t.rings .pf0 n = sqOf s.rings .pf0 n) ∧
      t.sec.sessions = [] ∧ t.sec.token = false ∧ t.sec.fuses = s.sec.fuses ∧ t.lin.brackets = [] ∧ t.lin.sram = s.lin.sram ∧
      Only [.rings, .hif, .lin, .sec, .out] s t) ∧
  (∀ s : State, hostUp s = true →
    ∃ t, exec .linkDown s = .next t ∧ t.hif.power = .down ∧ t.hif.speed = 0 ∧ t.hif.width = 0 ∧
      (∀ g < 4, (streamOf t g).secure = false) ∧ t.rings.sqs = s.rings.sqs ∧ t.sec.sessions = s.sec.sessions ∧
      Only [.rings, .hif, .sec, .out] s t) ∧
  (∀ s : State, s.hif.perst = true → s.sys.mode ≠ .dormant →
    exec .perstDeassert s = .next { s with hif := { s.hif with
      perst := false
      wakePin := false
      power := if s.hif.power = .l2 then .down else s.hif.power } }) ∧
  (∀ s : State, s.hif.perst = true → s.sys.mode = .dormant → s.sys.vinLow = false →
    ∃ t, exec .perstDeassert s = .next t ∧ t.hif.perst = false ∧ t.sys.mode = .boot ∧ t.sys.stage = .image ∧
      t.sys.cause = { cause := 2, wakeSrc := 1, retained := t.mem.retained } ∧ (t.mem.retained = true → s.mem.retained = true)) ∧
  (∀ (reason : Nat) (s : State), isRunning s = true → s.sys.stage ≠ .unpowered → s.pwr.fall = .idle → s.sys.transit = none →
    ∃ t, exec (.watchdogReset reason) s = .next t ∧ t.sys.transit = some { target := .boot } ∧
      t.sys.nextCause = { cause := 3, wdReason := reason % 4 } ∧ t.sys.mode = s.sys.mode ∧ t.lin.store.isSome = true ∧
      t.conf = s.conf ∧ t.mem = s.mem)

/-- R58 to R62, R69, R70, R73, Tables 3.1, 3.3 and 3.6: the link's figures after training, which marks the lanes that failed and
takes no more width than they leave, and outside Flit mode leaves no stream secure; the width that L0p leaves, where the
block's own narrowing has its conditions; L1 while nothing is pending and its end; L2, which is acknowledged and clears the
figures, and D3hot, in either of which LIVE is left for HOLD; and the return to D0. The rings' registers stay through all of
it. What comes over the link ends L1, and does not come while the link is down or in L2, nor during the fall. (Which lanes a
width takes is PRESUMED, log entry 24; that L2 keeps the streams' keys is the model's choice, log entry 144.) Log entries: 48
(figures of a link that is down), 54 (training of a link that is up), 46 and 47 (L1 and the busy link). -/
def Obligations.LinkStatesFollowTheHost : Prop :=
  (∀ (speed offer w : Nat) (flit : Bool) (bad : BitVec 16) (s : State), mayTrain s = true →
    trainedWidth speed offer flit bad = some w →
    ∃ t, exec (.linkTrained speed offer flit bad) s = .next t ∧ t.hif.power = .l0 ∧ t.hif.speed = speed ∧ t.hif.width = w ∧
      t.hif.flit = flit ∧ t.hif.l0pWidth = w ∧ t.hif.badLanes = bad ∧ t.hif.degraded = decide (bad ≠ 0) ∧
      (s.cal.jobs = [] → s.cal.waiting = [] → t.rings.sqs = s.rings.sqs) ∧ (flit = true → t.sec = s.sec) ∧ (flit = false → ∀ g < 4, (streamOf t g).secure = false) ∧
      Only [.hif, .rings, .cal, .sec, .trc, .out, .free] s t) ∧
  (∀ (speed offer w : Nat) (flit : Bool) (bad : BitVec 16), trainedWidth speed offer flit bad = some w ↔
    linkWidth offer = true ∧ 1 ≤ speed ∧ speed ≤ 6 ∧ (flit = true ∨ speed ≠ 6) ∧
      ∃ v, widestWidth bad = some v ∧ w = min offer v) ∧
  (∀ (w : L0pChange) (s : State), hostUp s = true → linkWidth w.lanes = true →
    (w.own = false ∨ s.hif.l0pWidth ≤ min w.lanes s.hif.width ∨ mayNarrow s (min w.lanes s.hif.width) = true) →
    ∃ t, exec (.l0pWidthChange w) s = .next t ∧ t.hif.l0pWidth = min w.lanes s.hif.width ∧
      t.hif.wantFull = (s.hif.wantFull && decide (min w.lanes s.hif.width < s.hif.width)) ∧ t.hif.width = s.hif.width ∧
      t.hif.power = s.hif.power ∧ Only [.hif] s t) ∧
  (∀ (w : L0pChange) (s : State), hostUp s = true → w.own = true → min w.lanes s.hif.width < s.hif.l0pWidth →
    mayNarrow s (min w.lanes s.hif.width) = false → exec (.l0pWidthChange w) s = .next s) ∧
  (∀ s : State, s.hif.power = .l0 → l1Enabled s = true → linkBusy s = false → l1Mode s = true →
    exec .l1IdleExpiry s = .next { s with hif := { s.hif with power := .l1 } }) ∧
  (∀ s : State, s.hif.power = .l1 →
    ∃ t, exec .l1Exit s = .next t ∧ t.hif.power = .l0 ∧ t.rings.sqs = s.rings.sqs ∧ Only [.hif, .rings, .out] s t) ∧
  (∀ s : State, hostUp s = true →
    ∃ t, exec .pmeTurnOff s = .next t ∧ .pmeToAck ∈ t.out ∧ t.hif.power = .l2 ∧ t.hif.speed = 0 ∧ t.hif.width = 0 ∧ t.rings.sqs = s.rings.sqs ∧
      (s.sys.mode = .live → s.sys.transit = none → t.sys.transit = some { target := .hold }) ∧ t.sys.mode = s.sys.mode) ∧
  (∀ (pme : Bool) (s : State), configurable s = true →
    ∃ t, exec (.d3hotEntry pme) s = .next t ∧ t.hif.d3hot = true ∧ t.hif.pmeEn = pme ∧ t.rings.sqs = s.rings.sqs ∧
      (s.sys.mode = .hold → (∀ x, s.sys.transit = some x → x.target = .live) → t.sys.transit = none) ∧
      (s.sys.mode = .live → s.sys.transit = none → t.sys.transit = some { target := .hold }) ∧ t.sys.mode = s.sys.mode) ∧
  (∀ (pme : Bool) (s : State), configurable s = true →
    ∃ t, exec (.d0Return pme) s = .next t ∧ t.hif.d3hot = false ∧ t.hif.pmeEn = pme ∧ t.rings.sqs = s.rings.sqs ∧
      (s.hif.rung = false → Only [.hif, .rings, .out] s t) ∧ Only [.sys, .hif, .rings, .twl, .out] s t) ∧
  (∀ (i : Instr) (s : State), overLink i = true → s.pwr.fall = .idle → s.hif.power = .l1 → exec i s = exec i (leaveL1 s)) ∧
  (∀ s : State, s.hif.power = .l1 → linkUp (leaveL1 s) = true ∧ (leaveL1 s).rings.sqs = s.rings.sqs ∧
    Only [.hif, .rings, .out] s (leaveL1 s)) ∧
  (∀ (i : Instr) (s : State), overLink i = true → s.hif.power = .down ∨ s.hif.power = .l2 ∨ s.pwr.fall ≠ .idle →
    exec i s = .next s)

/-- R63, R66, R88, R344, R440: what the host's configuration writes do. Bus mastering, MSI-X Enable and the MSI-X masks change
their bit alone; while MSI-X Enable is 0 no message is held, and a pending vector that an unmasking opens is sent; BAR4 takes
a size from 256 MiB to 128 GiB; margining stops a lane's eye scan, whose sweep is kept while it is scanned; a holdoff that
ends with a record selected sends one message. (Device Control and the error status have the model's PRESUMED layout, log
entry 24.) Log entries: 49 (requests before firmware), 50 (a message while Bus Master Enable is 0), 55 (margining addresses 0
to 15), 26 (idle lanes), 56 (an empty sweep). -/
def Obligations.ConfigurationSpaceWrites : Prop :=
  (∀ s : State, configurable s = true →
    ∃ t, exec (.busMasterEnableSet .pf0) s = .next t ∧ t.hif.bme0 = true ∧ t.hif.bme1 = s.hif.bme1 ∧ t.rings.sqs = s.rings.sqs ∧
      Only [.hif, .rings, .out] s t) ∧
  (∀ s : State, configurable s = true →
    ∃ t, exec (.busMasterEnableSet .pf1) s = .next t ∧ t.hif.bme1 = true ∧ t.hif.bme0 = s.hif.bme0 ∧ t.rings.sqs = s.rings.sqs ∧
      Only [.hif, .rings, .out] s t) ∧
  (∀ s : State, configurable s = true →
    exec (.busMasterEnableClear .pf0) s = .next { s with hif := { s.hif with bme0 := false } } ∧
    exec (.busMasterEnableClear .pf1) s = .next { s with hif := { s.hif with bme1 := false } }) ∧
  (∀ (fn : Fn) (v : Nat) (s : State), hostUp s = true → v < (match fn with | .pf0 => 256 | .pf1 => 32) →
    ∃ t, exec (.msixMask fn (.vector v)) s = .next t ∧ mget false t.hif.unmasked (256 * fnIdx fn + v) = false ∧
      (∀ k, k ≠ 256 * fnIdx fn + v → mget false t.hif.unmasked k = mget false s.hif.unmasked k) ∧ Only [.hif] s t) ∧
  (∀ (fn : Fn) (s : State), configurable s = true →
    ∃ t, exec (.msixMask fn .function) s = .next t ∧ (match fn with | .pf0 => t.hif.fmask0 | .pf1 => t.hif.fmask1) = true ∧
      t.hif.unmasked = s.hif.unmasked ∧ t.hif.pba = s.hif.pba ∧ Only [.hif] s t) ∧
  (∀ (fn : Fn) (s : State), configurable s = true →
    ∃ t, exec (.msixMask fn .enable) s = .next t ∧ msixOn t.hif fn = false ∧ t.hif.unmasked = s.hif.unmasked ∧
      (∀ v < 256, mget false t.hif.pba (256 * fnIdx fn + v) = false) ∧ Only [.hif, .rings] s t) ∧
  (∀ (fn : Fn) (v : Nat) (s : State), hostUp s = true → canSend s fn = true → v < (match fn with | .pf0 => 256 | .pf1 => 32) →
    msixOn s.hif fn = true → (match fn with | .pf0 => s.hif.fmask0 | .pf1 => s.hif.fmask1) = false →
    mget false s.hif.pba (256 * fnIdx fn + v) = true →
    ∃ t, exec (.msixUnmask fn (.vector v)) s = .next t ∧ mget false t.hif.unmasked (256 * fnIdx fn + v) = true ∧
      .msix fn v ∈ t.out ∧ mget false t.hif.pba (256 * fnIdx fn + v) = false ∧ t.rings.sqs = s.rings.sqs ∧
      Only [.hif, .rings, .out] s t) ∧
  (∀ (fn : Fn) (s : State), configurable s = true →
    ∃ t u, exec (.msixUnmask fn .enable) s = .next t ∧ msixOn t.hif fn = true ∧ Only [.hif, .rings, .out] s t ∧
      exec (.msixUnmask fn .function) s = .next u ∧ (match fn with | .pf0 => u.hif.fmask0 | .pf1 => u.hif.fmask1) = false ∧
      t.hif.unmasked = s.hif.unmasked ∧ u.hif.unmasked = s.hif.unmasked ∧ Only [.hif, .rings, .out] s u) ∧
  (∀ (fn : Fn) (size : Nat) (v : Word) (s : State), configurable s = true →
    ∃ t u, exec (.registerWrite fn (.config .deviceControl) size v false) s = .next t ∧
      (cfgOf t.hif fn).deviceControl = newDeviceControl (cfgOf s.hif fn).deviceControl v ∧ Only [.hif] s t ∧
      exec (.registerWrite fn (.config .aerUncorrectable) size v false) s = .next u ∧
      (cfgOf u.hif fn).aerUnc = (cfgOf s.hif fn).aerUnc &&& ~~~v ∧ Only [.hif] s u) ∧
  (∀ (n : Nat) (s : State), configurable s = true → 8 ≤ n → n ≤ 17 →
    exec (.bar4Resize n) s = .next { s with hif := { s.hif with bar4Log2 := 20 + n } }) ∧
  (∀ (lane : Nat) (active : Bool) (s : State), configurable s = true → lane < 16 →
    ∃ t, exec (.marginingCommand lane active) s = .next t ∧ eyeOf t lane = { eyeOf s lane with margining := active } ∧
      (∀ k, k ≠ lane → eyeOf t k = eyeOf s k) ∧ Only [.hif] s t) ∧
  (∀ (lane : Nat) (rows cols : List (List Bool)) (s : State), scans s lane = true →
    ∃ t, exec (.eyeScanSweepDone lane rows cols) s = .next t ∧
      eyeOf t lane = { eyeOf s lane with sweep := some (eyeFigure rows, eyeFigure cols) } ∧
      (∀ k, k ≠ lane → eyeOf t k = eyeOf s k) ∧ Only [.hif] s t) ∧
  (∀ (fn : Fn) (m : Nat) (s : State), m < ringCount fn → (cqAt s.rings (cqKey fn m)).hoDue = false →
    ∃ t, exec (.holdoffExpiry (.cq fn m)) s = .next t ∧ cqAt t.rings (cqKey fn m) = { cqAt s.rings (cqKey fn m) with hoActive := false } ∧
      t.out = s.out ∧ Only [.rings] s t) ∧
  (∀ (m : Nat) (s : State), m < 64 → canSend s .pf0 = true → (cqAt s.rings m).hoActive = true → (cqAt s.rings m).hoDue = true →
    vectorOpen s.hif .pf0 (cqAt s.rings m).vector = true →
    ∃ t, exec (.holdoffExpiry (.cq .pf0 m)) s = .next t ∧ t.out = .msix .pf0 (cqAt s.rings m).vector :: s.out ∧
      (cqAt t.rings m).hoDue = false ∧ (cqAt t.rings m).hoActive = decide ((cqAt s.rings m).holdoff ≠ 0) ∧ Only [.rings, .out] s t)

/-- R26, R80 to R86, R94, R96: a fetch of a good descriptor from the ring that the arbiter chooses advances that ring's head,
reserves a place on its completion ring and leaves the descriptor as the ring's command; one that does not arrive whole marks
and stops the ring and completes with FETCH_ERROR; one that a check of R84 refuses completes with that check's status. A
fetched frame becomes the newest candidate. A record that its completion ring can take is written at its tail as two writes,
the phase last, with its ring's head in SQ_HEAD; the tail advances and the phase turns where it wraps; where the ring is full
the record stays in the store (R85, R86). Log entries: 36 (a place is given back as its record enters the store), 70 (the
recovery monitor refuses before ranges are judged), 24 (AER of a failed fetch). -/
def Obligations.DescriptorsAreFetchedAndRecordsWritten : Prop :=
  (∀ (fn : Fn) (n : Nat) (data : Rd) (q : Sq) (s : State), canSend s fn = true → arbiter s fn = some n → q = sqOf s.rings fn n →
    data.ok = true → 64 ≤ data.bytes.length → fetchCheck s fn q.kind (data.bytes.take 64) = none →
    ∃ t, exec (.descriptorFetch fn data) s = .next t ∧
      sqOf t.rings fn n = { q with
        head := (q.head + 1) % 2 ^ q.log2
        running := some { slot := q.head, cq := cqKey fn q.cq, raw := data.bytes.take 64 } } ∧
      cqAt t.rings (cqKey fn q.cq) = { cqAt s.rings (cqKey fn q.cq) with reserved := (cqAt s.rings (cqKey fn q.cq)).reserved + 1 } ∧
      Only [.rings, .hif, .trc, .out, .free] s t) ∧
  (∀ (fn : Fn) (n : Nat) (data : Rd) (q : Sq) (s : State), canSend s fn = true → arbiter s fn = some n → q = sqOf s.rings fn n →
    data.ok = false ∨ data.bytes.length < 64 →
    ∃ t, exec (.descriptorFetch fn data) s = .next t ∧ sqOf t.rings fn n = { q with error := true, stopped := true } ∧
      ((cqAt s.rings (cqKey fn q.cq)).enable = false → (cqAt t.rings (cqKey fn q.cq)).store = (cqAt s.rings (cqKey fn q.cq)).store ++
        [{ type := fetchType q.kind, status := FETCH_ERROR, sq := n, slot := q.head, tag := 0 }]) ∧
      Only [.rings, .hif, .trc, .out, .free] s t) ∧
  (∀ (fn : Fn) (n st r0 : Nat) (data : Rd) (q : Sq) (s : State), canSend s fn = true → arbiter s fn = some n → q = sqOf s.rings fn n →
    data.ok = true → 64 ≤ data.bytes.length → fetchCheck s fn q.kind (data.bytes.take 64) = some (st, r0) →
    ∃ t, exec (.descriptorFetch fn data) s = .next t ∧ sqOf t.rings fn n = { q with head := (q.head + 1) % 2 ^ q.log2 } ∧
      ((cqAt s.rings (cqKey fn q.cq)).enable = false → (cqAt t.rings (cqKey fn q.cq)).store = (cqAt s.rings (cqKey fn q.cq)).store ++
        [{ type := fetchType q.kind, status := st, sq := n, slot := q.head, tag := userTag (data.bytes.take 64),
           irq := hasIrq (data.bytes.take 64), r0 }]) ∧
      Only [.rings, .hif, .trc, .out, .free] s t) ∧
  (∀ (sq : Nat) (r : Running) (s : State), (sqOf s.rings .pf0 sq).running = some r → opcode r.raw = 1 → s.ing.cands.length < 8 →
    ∃ t, exec (.frame sq) s = .next t ∧ sqOf t.rings .pf0 sq = { sqOf s.rings .pf0 sq with running := none } ∧
      t.ing = { s.ing with cands := s.ing.cands ++ [{ sq, slot := r.slot, cq := r.cq, raw := r.raw }] } ∧ Only [.rings, .ing] s t) ∧
  (∀ (fn : Fn) (m : Nat) (c : Cq) (r : Rec) (x : Sent), m < ringCount fn → c = cqAt x.rings (cqKey fn m) → c.store = [r] →
    c.enable = true → cqFull c = false → cqSelects c r = false →
    cqAt (drainCq (cqKey fn m) 1 x).rings (cqKey fn m) = { c with
        store := [], tail := (c.tail + 1) % 2 ^ c.log2, phase := if (c.tail + 1) % 2 ^ c.log2 = 0 then !c.phase else c.phase } ∧
      (drainCq (cqKey fn m) 1 x).out = [.hostWrite fn (c.base + 32 * c.tail + 28) (toLE 4 (r.r3 % 2 ^ 31 + 2 ^ 31 * b2n c.phase)),
        .hostWrite fn (c.base + 32 * c.tail) (toLE 4 (r.type + 256 * r.status + 65536 * r.sq)
          ++ toLE 4 (r.slot % 65536 + 65536 * (sqOf x.rings fn r.sq).head) ++ toLE 8 r.tag.toNat ++ toLE 4 r.r0 ++ toLE 4 r.r1
          ++ toLE 4 r.r2)] ++ x.out) ∧
  (∀ (k n : Nat) (x : Sent), cqFull (cqAt x.rings k) = true → drainCq k n x = x) ∧
  (∀ (sq m : Nat) (r : Running) (c : Cq) (s : State), ready s .pf0 sq 0x13 = some r → s.sys.transit = none → s.sys.mode ≠ .boot →
    modeOf (fieldAt r.raw 0x18 4 % 8) = s.sys.mode → canSend s .pf0 = true → m < 64 → r.cq = m → c = cqAt s.rings m →
    c.store = [] → c.enable = true → cqFull c = false →
    ∃ t, exec (.modeReq sq) s = .next t ∧ (sqOf t.rings .pf0 sq).running = none ∧ (cqAt t.rings m).store = [] ∧
      (cqAt t.rings m).tail = (c.tail + 1) % 2 ^ c.log2 ∧
      .hostWrite .pf0 (c.base + 32 * c.tail + 28) (toLE 4 (2 ^ 31 * b2n c.phase)) ∈ t.out ∧
      .hostWrite .pf0 (c.base + 32 * c.tail) (toLE 4 (1 + 256 * SUCCESS + 65536 * sq)
        ++ toLE 4 (r.slot % 65536 + 65536 * (sqOf s.rings .pf0 sq).head) ++ toLE 8 (userTag r.raw).toNat
        ++ toLE 4 (modeNum s.sys.mode) ++ toLE 4 0 ++ toLE 4 0) ∈ t.out) ∧
  (∀ (fn : Fn) (n m st : Nat) (res : List Nat) (r : Running) (c : Cq) (s : State), canSend s fn = true → m < ringCount fn →
    r.cq = cqKey fn m → c = cqAt s.rings (cqKey fn m) → c.store = [] → c.enable = true → cqFull c = false →
    (cqAt (finish fn n r st res s).rings (cqKey fn m)).store = [] ∧
      (cqAt (finish fn n r st res s).rings (cqKey fn m)).tail = (c.tail + 1) % 2 ^ c.log2 ∧
      .hostWrite fn (c.base + 32 * c.tail) (toLE 4 (1 + 256 * st + 65536 * n)
        ++ toLE 4 (r.slot % 65536 + 65536 * (sqOf s.rings fn n).head) ++ toLE 8 (userTag r.raw).toNat
        ++ toLE 4 (res.getD 0 0) ++ toLE 4 (res.getD 1 0) ++ toLE 4 (res.getD 2 0)) ∈ (finish fn n r st res s).out) ∧
  (∀ (n : Nat) (s : State), arbiter s .pf0 = some n →
    fetchable s .pf0 n = true ∧ n < 64 ∧
      ((sqOf s.rings .pf0 n).kind ≠ .frame → ∀ k < 64, fetchable s .pf0 k = true → (sqOf s.rings .pf0 k).kind ≠ .frame ∧
        (n + 64 - s.rings.rr0 % 64) % 64 ≤ (k + 64 - s.rings.rr0 % 64) % 64)) ∧
  (∀ (fn : Fn) (n : Nat) (s : State), fetchable s fn n = true → n < ringCount fn → (arbiter s fn).isSome = true)

/-- R89: the event ring is full when (tail + 1) mod N equals its head; while it is full each new event is dropped and counted in
EQ_LOST; the next event written carries in LOST the number dropped since the last one written. (The lost events of R441 count
with them, and so does the hold of an event whose ring cannot be written, which the fourth clause adds; the last one is Table
2.8's, by which nothing is posted in the fall.) Log entries: 5 (the ring of an event), 29 (the FE in BOOT). -/
def Obligations.EventsAreWrittenHeldOrCounted : Prop :=
  (∀ e : Eq, eqFull e = true ↔ (e.tail + 1) % 2 ^ e.log2 = e.head) ∧
  (∀ (fn : Fn) (v : Ev) (e : Eq) (s : State), s.pwr.fall = .idle → e = eqOf s.rings fn → eventsFlow s fn = true → eqFull e = false →
    (eqOf (postTo fn v s).rings fn).tail = (e.tail + 1) % 2 ^ e.log2 ∧ (eqOf (postTo fn v s).rings fn).lostRun = 0 ∧
      (eqOf (postTo fn v s).rings fn).phase = (if (e.tail + 1) % 2 ^ e.log2 = 0 then !e.phase else e.phase) ∧
      .hostWrite fn (e.base + 32 * e.tail + 28) (toLE 4 (2 ^ 31 * b2n e.phase)) ∈ (postTo fn v s).out ∧
      .hostWrite fn (e.base + 32 * e.tail) (toLE 4 (5 + 256 * v.sev + 65536 * 0x7F)
        ++ toLE 4 (v.code + 65536 * min 0xFFFF (e.lostRun + e.pendLost)) ++ toLE 8 v.fe ++ toLE 4 v.p0 ++ toLE 4 v.p1
        ++ toLE 4 v.p2) ∈ (postTo fn v s).out) ∧
  (∀ (fn : Fn) (v : Ev) (e : Eq) (s : State), s.pwr.fall = .idle → e = eqOf s.rings fn → eventsFlow s fn = true → eqFull e = true →
    eqOf (postTo fn v s).rings fn = { e with lost := satAdd 0xFFFFFFFF e.lost 1, lostRun := e.lostRun + 1 } ∧
      (postTo fn v s).out = s.out) ∧
  (∀ (fn : Fn) (v : Ev) (e : Eq) (s : State), s.pwr.fall = .idle → e = eqOf s.rings fn → eventsFlow s fn = false → s.hif.pmeEn = false →
    eqOf (postTo fn v s).rings fn = (if e.pend.length < 256 then { e with pend := e.pend ++ [v] }
        else { e with pendLost := e.pendLost + 1 }) ∧ (postTo fn v s).out = s.out) ∧
  (∀ (fn : Fn) (v : Ev) (s : State), s.pwr.fall ≠ .idle → postTo fn v s = s)

/-! ## Module memory -/

/-- R313, R300, R302, R273, R274: a MEM_COPY or MEM_FILL that no protected or poisoned page stops moves every byte it names and
changes no other byte of module memory, or sends the bytes to the host; it completes with the length, but where it writes the
memory of the hold frame, it waits, with the region's bands barred, until REGION_UPDATE_DONE completes it and makes the bands
dirty; it does not begin while a refresh has yet to begin the region's lines. A copy from the host to the host, and a length
of 0, is BAD_PARAM. Log entries: 45 (which commands wait for Bus Master Enable), 71 (region updates while engines scan), 24
(AER). -/
def Obligations.CopiesAndFillsMoveTheirBytes : Prop :=
  (∀ (sq : Nat) (data : Rd) (r : Running) (s : State), ready s .pf0 sq 0x30 = some r →
    bit (fieldAt r.raw 0x18 4) 0 = false → bit (fieldAt r.raw 0x18 4) 1 = false → fieldAt r.raw 0x30 8 ≠ 0 →
    rangeBad (fieldAt r.raw 0x20 8) (fieldAt r.raw 0x30 8) = false → rangeBad (fieldAt r.raw 0x28 8) (fieldAt r.raw 0x30 8) = false →
    readHalt s (fieldAt r.raw 0x20 8) (fieldAt r.raw 0x30 8) = none → writeHalt s (fieldAt r.raw 0x28 8) (fieldAt r.raw 0x30 8) = none →
    regionUpdate s (fieldAt r.raw 0x28 8) (fieldAt r.raw 0x30 8) = none →
    ∃ t, exec (.memCopy sq data) s = .next t ∧ Completed s t .pf0 sq r SUCCESS (lohi (fieldAt r.raw 0x30 8)) ∧
      (∀ k < fieldAt r.raw 0x30 8, mget 0 t.mem.bytes (fieldAt r.raw 0x28 8 + k) = mget 0 s.mem.bytes (fieldAt r.raw 0x20 8 + k)) ∧
      (∀ a, a < fieldAt r.raw 0x28 8 ∨ fieldAt r.raw 0x28 8 + fieldAt r.raw 0x30 8 ≤ a → mget 0 t.mem.bytes a = mget 0 s.mem.bytes a) ∧
      Only [.rings, .hif, .mem, .trc, .out, .free] s t) ∧
  (∀ (sq : Nat) (data : Rd) (r : Running) (s : State), ready s .pf0 sq 0x30 = some r → busMaster s .pf0 = true →
    bit (fieldAt r.raw 0x18 4) 0 = true → bit (fieldAt r.raw 0x18 4) 1 = false → fieldAt r.raw 0x30 8 ≠ 0 →
    fieldAt r.raw 0x20 8 + fieldAt r.raw 0x30 8 ≤ 2 ^ 64 → rangeBad (fieldAt r.raw 0x28 8) (fieldAt r.raw 0x30 8) = false →
    data.ok = true → fieldAt r.raw 0x30 8 ≤ data.bytes.length → writeHalt s (fieldAt r.raw 0x28 8) (fieldAt r.raw 0x30 8) = none →
    regionUpdate s (fieldAt r.raw 0x28 8) (fieldAt r.raw 0x30 8) = none →
    ∃ t, exec (.memCopy sq data) s = .next t ∧ Completed s t .pf0 sq r SUCCESS (lohi (fieldAt r.raw 0x30 8)) ∧
      (∀ k < fieldAt r.raw 0x30 8, mget 0 t.mem.bytes (fieldAt r.raw 0x28 8 + k) = data.bytes.getD k 0) ∧
      (∀ a, a < fieldAt r.raw 0x28 8 ∨ fieldAt r.raw 0x28 8 + fieldAt r.raw 0x30 8 ≤ a → mget 0 t.mem.bytes a = mget 0 s.mem.bytes a) ∧
      Only [.rings, .hif, .mem, .trc, .out, .free] s t) ∧
  (∀ (sq : Nat) (data : Rd) (r : Running) (s : State), ready s .pf0 sq 0x30 = some r → busMaster s .pf0 = true →
    bit (fieldAt r.raw 0x18 4) 0 = false → bit (fieldAt r.raw 0x18 4) 1 = true → fieldAt r.raw 0x30 8 ≠ 0 →
    fieldAt r.raw 0x28 8 + fieldAt r.raw 0x30 8 ≤ 2 ^ 64 → rangeBad (fieldAt r.raw 0x20 8) (fieldAt r.raw 0x30 8) = false →
    readHalt s (fieldAt r.raw 0x20 8) (fieldAt r.raw 0x30 8) = none →
    ∃ t, exec (.memCopy sq data) s = .next t ∧ Completed s t .pf0 sq r SUCCESS (lohi (fieldAt r.raw 0x30 8)) ∧
      .hostWrite .pf0 (fieldAt r.raw 0x28 8) (readMem s (fieldAt r.raw 0x20 8) (fieldAt r.raw 0x30 8)) ∈ t.out ∧
      Only [.rings, .hif, .trc, .out, .free] s t) ∧
  (∀ (sq : Nat) (r : Running) (s : State), ready s .pf0 sq 0x31 = some r → fieldAt r.raw 0x28 8 ≠ 0 →
    rangeBad (fieldAt r.raw 0x20 8) (fieldAt r.raw 0x28 8) = false → writeHalt s (fieldAt r.raw 0x20 8) (fieldAt r.raw 0x28 8) = none →
    regionUpdate s (fieldAt r.raw 0x20 8) (fieldAt r.raw 0x28 8) = none →
    ∃ t, exec (.memFill sq) s = .next t ∧ Completed s t .pf0 sq r SUCCESS (lohi (fieldAt r.raw 0x28 8)) ∧
      (∀ a, fieldAt r.raw 0x20 8 ≤ a → a < fieldAt r.raw 0x20 8 + fieldAt r.raw 0x28 8 →
        mget 0 t.mem.bytes a = BitVec.ofNat 8 (fieldAt r.raw 0x30 8 / 256 ^ (a % 8))) ∧
      (∀ a, a < fieldAt r.raw 0x20 8 ∨ fieldAt r.raw 0x20 8 + fieldAt r.raw 0x28 8 ≤ a → mget 0 t.mem.bytes a = mget 0 s.mem.bytes a) ∧
      Only [.rings, .hif, .mem, .trc, .out, .free] s t) ∧
  (∀ (sq : Nat) (r : Running) (ys : List Nat) (bands : BitVec 64) (s : State), ready s .pf0 sq 0x31 = some r →
    fieldAt r.raw 0x28 8 ≠ 0 → rangeBad (fieldAt r.raw 0x20 8) (fieldAt r.raw 0x28 8) = false →
    writeHalt s (fieldAt r.raw 0x20 8) (fieldAt r.raw 0x28 8) = none →
    regionUpdate s (fieldAt r.raw 0x20 8) (fieldAt r.raw 0x28 8) = some (ys, bands) → regionAhead s ys = false →
    ∃ t, exec (.memFill sq) s = .next t ∧ Waits t .pf0 sq r 0 ∧ t.cue.barred = s.cue.barred ||| bands ∧ t.cue.dirty = s.cue.dirty ∧
      (∀ a, fieldAt r.raw 0x20 8 ≤ a → a < fieldAt r.raw 0x20 8 + fieldAt r.raw 0x28 8 →
        mget 0 t.mem.bytes a = BitVec.ofNat 8 (fieldAt r.raw 0x30 8 / 256 ^ (a % 8))) ∧ Only [.rings, .mem, .cue] s t) ∧
  (∀ (sq : Nat) (data : Rd) (r : Running) (ys : List Nat) (bands : BitVec 64) (s : State), ready s .pf0 sq 0x30 = some r →
    bit (fieldAt r.raw 0x18 4) 0 = false → bit (fieldAt r.raw 0x18 4) 1 = false → fieldAt r.raw 0x30 8 ≠ 0 →
    rangeBad (fieldAt r.raw 0x20 8) (fieldAt r.raw 0x30 8) = false → rangeBad (fieldAt r.raw 0x28 8) (fieldAt r.raw 0x30 8) = false →
    readHalt s (fieldAt r.raw 0x20 8) (fieldAt r.raw 0x30 8) = none → writeHalt s (fieldAt r.raw 0x28 8) (fieldAt r.raw 0x30 8) = none →
    regionUpdate s (fieldAt r.raw 0x28 8) (fieldAt r.raw 0x30 8) = some (ys, bands) → regionAhead s ys = false →
    ∃ t, exec (.memCopy sq data) s = .next t ∧ Waits t .pf0 sq r 0 ∧ t.cue.barred = s.cue.barred ||| bands ∧ t.cue.dirty = s.cue.dirty ∧
      (∀ k < fieldAt r.raw 0x30 8, mget 0 t.mem.bytes (fieldAt r.raw 0x28 8 + k) = mget 0 s.mem.bytes (fieldAt r.raw 0x20 8 + k)) ∧
      (∀ a, a < fieldAt r.raw 0x28 8 ∨ fieldAt r.raw 0x28 8 + fieldAt r.raw 0x30 8 ≤ a → mget 0 t.mem.bytes a = mget 0 s.mem.bytes a) ∧
      Only [.rings, .mem, .cue] s t) ∧
  (∀ (sq : Nat) (r : Running) (ys : List Nat) (bands : BitVec 64) (s : State), ready s .pf0 sq 0x31 = some r →
    regionUpdate s (fieldAt r.raw 0x20 8) (fieldAt r.raw 0x28 8) = some (ys, bands) → regionAhead s ys = true →
    exec (.memFill sq) s = .next s) ∧
  (∀ (sq : Nat) (data : Rd) (r : Running) (ys : List Nat) (bands : BitVec 64) (s : State), ready s .pf0 sq 0x30 = some r →
    bit (fieldAt r.raw 0x18 4) 0 = false → bit (fieldAt r.raw 0x18 4) 1 = false →
    regionUpdate s (fieldAt r.raw 0x28 8) (fieldAt r.raw 0x30 8) = some (ys, bands) → regionAhead s ys = true →
    exec (.memCopy sq data) s = .next s) ∧
  (∀ (sq : Nat) (data : Rd) (r : Running) (s : State), ready s .pf0 sq 0x30 = some r → busMaster s .pf0 = true → data.ok = true →
    bit (fieldAt r.raw 0x18 4) 0 = true → bit (fieldAt r.raw 0x18 4) 1 = true →
    ∃ t, exec (.memCopy sq data) s = .next t ∧ Completed s t .pf0 sq r BAD_PARAM [0x18] ∧ Only [.rings, .hif, .trc, .out, .free] s t) ∧
  (∀ (sq : Nat) (data : Rd) (r : Running) (s : State), ready s .pf0 sq 0x30 = some r → bit (fieldAt r.raw 0x18 4) 0 = false →
    bit (fieldAt r.raw 0x18 4) 1 = false → fieldAt r.raw 0x30 8 = 0 →
    regionUpdate s (fieldAt r.raw 0x28 8) (fieldAt r.raw 0x30 8) = none →
    ∃ t, exec (.memCopy sq data) s = .next t ∧ Completed s t .pf0 sq r BAD_PARAM [0x30] ∧ Only [.rings, .hif, .trc, .out, .free] s t) ∧
  (∀ (sq : Nat) (r : Running) (s : State), ready s .pf0 sq 0x31 = some r → fieldAt r.raw 0x28 8 = 0 →
    regionUpdate s (fieldAt r.raw 0x20 8) (fieldAt r.raw 0x28 8) = none →
    ∃ t, exec (.memFill sq) s = .next t ∧ Completed s t .pf0 sq r BAD_PARAM [0x28] ∧ Only [.rings, .hif, .trc, .out, .free] s t) ∧
  (∀ (sq op : Nat) (r : Running) (s : State), waitingOn s .pf0 sq op = some r → op = 0x30 ∨ op = 0x31 → s.pwr.fall = .idle →
    s.cue.updates.any (fun p => p.1 = sq) = true →
    ∃ t, exec (.regionUpdateDone sq) s = .next t ∧
      Completed s t .pf0 sq r (mget { bands := 0 } s.cue.updates sq).status (mget { bands := 0 } s.cue.updates sq).res ∧
      t.cue.dirty = (if (mget { bands := 0 } s.cue.updates sq).tracked then
        s.cue.dirty ||| (mget { bands := 0 } s.cue.updates sq).bands else s.cue.dirty) ∧
      Only [.rings, .hif, .cue, .trc, .out, .free] s t)

/-- R295, R304 to R310, R388, R394, R396, Table 13.4: a decode that corrects is counted, writes the page back corrected and puts
it in the watch, while there is room, where a second one is a hard fault; an uncorrectable decode poisons its page, leaves
its data as it stands and reports it once, and traps the engine or fails the housekeeping pair that read it; a page with a
hard fault is retired to the lowest free spare, with its contents, or waits for the host where MEM_AUTO is 0, or finds the
pool exhausted. Log entries: 16 (the watch evicts by entry), 73 (the page of the last error), 130 (decodes counted), 132 (cue
lists on poisoned pages), 44 (place of the virtual symbols). -/
def Obligations.PagesAreWatchedPoisonedAndRetired : Prop :=
  (∀ (p : PageRead) (fix : List SymbolError) (q : Nat) (s : State), s.pwr.fall = .idle → coded s p.page = true → decodePage s p = .corrected fix →
    s.mem.watch.any (fun e => e.1 = p.page) = false → s.mem.watch.length < 4096 →
    ∃ t, exec (.pageCorrection p q) s = .next t ∧ t.mem = { flipPage p.page (p.errors ++ fix) s.mem with
        corrected := satAdd 0xFFFF s.mem.corrected 1
        watch := s.mem.watch ++ [(p.page, s.mem.pass)] } ∧ Only [.mem, .trc, .rings, .hif, .out, .free] s t) ∧
  (∀ (p : PageRead) (fix : List SymbolError) (q : Nat) (s : State), s.pwr.fall = .idle → coded s p.page = true → decodePage s p = .corrected fix →
    s.mem.watch.any (fun e => e.1 = p.page) = true → s.mem.hard.contains p.page = false → s.mem.pending.contains p.page = false →
    ∃ t, exec (.pageCorrection p q) s = .next t ∧ t.mem = { flipPage p.page (p.errors ++ fix) s.mem with
        corrected := satAdd 0xFFFF s.mem.corrected 1
        hard := s.mem.hard ++ [p.page] } ∧ Only [.mem, .trc, .rings, .hif, .out, .free] s t) ∧
  (∀ (p : PageRead) (q owner : Nat) (s : State), s.pwr.fall = .idle → coded s p.page = true → decodePage s p = .failed → q ≠ 6 → q ≠ 7 →
    mget false s.mem.reported p.page = false →
    ∃ (t : State) (outcome : Nat), exec (.pageUncorrectable p q owner) s = .next t ∧ isPoisoned t p.page = true ∧
      (∀ p', p' ≠ p.page → isPoisoned t p' = isPoisoned s p') ∧ t.mem.bytes = (flipPage p.page p.errors s.mem).bytes ∧
      t.mem.lastErr = 4096 * p.page ∧ t.mem.uncorrectable = satAdd 0xFFFF s.mem.uncorrectable 1 ∧
      Posts s t [event s 0x0D01 2 [p.page, q, (regionOf s.conf p.page).getD 0xFF]] ∧ Logs s t 9 outcome q [p.page] ∧
      Only [.mem, .lin, .rings, .hif, .out, .free] s t) ∧
  (∀ (p : PageRead) (q owner : Nat) (s : State), s.pwr.fall = .idle → coded s p.page = true → decodePage s p = .failed → q ≠ 6 → q ≠ 7 →
    mget false s.mem.reported p.page = true →
    ∃ t, exec (.pageUncorrectable p q owner) s = .next t ∧ isPoisoned t p.page = true ∧
      t.mem.uncorrectable = satAdd 0xFFFF s.mem.uncorrectable 1 ∧ Only [.mem] s t) ∧
  (∀ (p : PageRead) (owner : Nat) (s : State), s.pwr.fall = .idle → coded s p.page = true → decodePage s p = .failed → owner < 192 →
    ∃ t, exec (.pageUncorrectable p 6 owner) s = .next t ∧ isPoisoned t p.page = true ∧ owner ∈ t.flt.trapped ∧
      t.mem.uncorrectable = satAdd 0xFFFF s.mem.uncorrectable 1 ∧ Only [.mem, .lin, .flt, .rings, .hif, .out, .free] s t) ∧
  (∀ (p : PageRead) (owner : Nat) (s : State), s.pwr.fall = .idle → coded s p.page = true → decodePage s p = .failed → s.flt.hkOk = 3 →
    ∃ t, exec (.pageUncorrectable p 7 owner) s = .next t ∧ isPoisoned t p.page = true ∧ t.flt.hkOk.getLsbD (owner % 2) = false ∧
      t.flt.takeovers = satAdd 0xFF s.flt.takeovers 1 ∧ t.mem.uncorrectable = satAdd 0xFFFF s.mem.uncorrectable 1 ∧
      Only [.mem, .lin, .flt, .rings, .hif, .out, .free] s t) ∧
  (∀ (p sp : Nat) (s : State), s.mem.hard.contains p = true → nextSpare s = some sp → fbit s.conf FLT_POLICY_MEM_AUTO = true →
    ∃ t, exec (.pageRetire p) s = .next t ∧ t.bst = { s.bst with retireLog := s.bst.retireLog ++ [(p, sp)] } ∧
      t.mem.bytes = s.mem.bytes ∧ t.mem.retired = mput 0 p sp s.mem.retired ∧ t.mem.hard = s.mem.hard.filter (· ≠ p) ∧
      Posts s t [event s 0x0D02 1 [p, 1, sp]] ∧ LogsSpares s t 10 2 0 [p, sp] ∧ Only [.mem, .bst, .lin, .rings, .hif, .out] s t) ∧
  (∀ (p sp : Nat) (s : State), s.mem.hard.contains p = true → nextSpare s = some sp → fbit s.conf FLT_POLICY_MEM_AUTO = false →
    ∃ t, exec (.pageRetire p) s = .next t ∧ t.mem = { s.mem with
        hard := s.mem.hard.filter (· ≠ p)
        pending := s.mem.pending ++ [p] } ∧
      Posts s t [event s 0x0D02 1 [p, 0, 0], event s 0x1203 2 [3, p]] ∧ Logs s t 10 3 0 [p, 0] ∧
      Only [.mem, .lin, .rings, .hif, .out] s t) ∧
  (∀ (p : Nat) (s : State), s.mem.hard.contains p = true → nextSpare s = none →
    ∃ t, exec (.pageRetire p) s = .next t ∧ t.mem = { s.mem with hard := s.mem.hard.filter (· ≠ p), exhausted := true } ∧
      Logs s t 10 4 0 [p, 0] ∧ Only [.mem, .lin, .flt, .rings, .hif, .out] s t)

/-- R311, R307, R48, R314, R315, R317: the scrubber visits one page after the other and takes what its read finds, and a pass
ends after the last page; SRAM corrections are counted, an uncorrectable word is reported and its row repaired, and so is a
row that corrects twice within a day or fails its test, while its macro has a spare row. Log entries: 88 (progress of a
pass), 130 (decodes), 67 (fields of records that Table 18.4 leaves). -/
def Obligations.TheScrubberAndSramRepair : Prop :=
  (∀ (e : List SymbolError) (flips : Nat) (s : State), fbit s.conf MEM_CTRL_SCRUB_EN = true → s.sys.brace = false →
    s.sys.mode ≠ .dormant → s.pwr.fall = .idle → scrubbed s = none → s.mem.scrubPage + 1 < 0x1F00000 →
    ∃ t, exec (.scrubVisit e flips) s = .next t ∧ t.mem = { s.mem with scrubPage := s.mem.scrubPage + 1 } ∧ Only [.mem] s t) ∧
  (∀ (e : List SymbolError) (flips : Nat) (s : State), fbit s.conf MEM_CTRL_SCRUB_EN = true → s.sys.brace = false →
    s.sys.mode ≠ .dormant → s.pwr.fall = .idle → scrubbed s = none → 0x1F00000 ≤ s.mem.scrubPage + 1 →
    ∃ t, exec (.scrubVisit e flips) s = .next t ∧ t.mem.scrubPage = 0 ∧ t.mem.pass = (s.mem.pass + 1) % 65536 ∧
      (∀ w ∈ t.mem.watch, w ∈ s.mem.watch ∧ (t.mem.pass + 65536 - w.2) % 65536 < 4) ∧ t.mem.bytes = s.mem.bytes ∧ Only [.mem] s t) ∧
  (∀ (e : List SymbolError) (flips : Nat) (s : State), fbit s.conf MEM_CTRL_SCRUB_EN = false ∨ s.sys.brace = true ∨ s.pwr.fall ≠ .idle →
    exec (.scrubVisit e flips) s = .next s) ∧
  (∀ (e fix : List SymbolError) (flips p : Nat) (s : State), fbit s.conf MEM_CTRL_SCRUB_EN = true → s.sys.brace = false →
    s.sys.mode ≠ .dormant → s.pwr.fall = .idle → s.mem.scrubPage + 1 < 0x1F00000 → scrubbed s = some p → decodePage s ⟨p, e, flips⟩ = .corrected fix →
    s.mem.watch.any (fun w => w.1 = p) = false → s.mem.watch.length < 4096 →
    ∃ t, exec (.scrubVisit e flips) s = .next t ∧ t.mem = { flipPage p (e ++ fix) s.mem with
        scrubPage := s.mem.scrubPage + 1
        corrected := satAdd 0xFFFF s.mem.corrected 1
        watch := s.mem.watch ++ [(p, s.mem.pass)] } ∧ Only [.mem, .trc, .rings, .hif, .out, .free] s t) ∧
  (∀ (e : List SymbolError) (flips p : Nat) (s : State), fbit s.conf MEM_CTRL_SCRUB_EN = true → s.sys.brace = false →
    s.sys.mode ≠ .dormant → s.pwr.fall = .idle → s.mem.scrubPage + 1 < 0x1F00000 → scrubbed s = some p → decodePage s ⟨p, e, flips⟩ = .failed →
    mget false s.mem.reported p = false →
    ∃ (t : State) (outcome : Nat), exec (.scrubVisit e flips) s = .next t ∧ isPoisoned t p = true ∧
      t.mem.scrubPage = s.mem.scrubPage + 1 ∧ Posts s t [event s 0x0D01 2 [p, 8, (regionOf s.conf p).getD 0xFF]] ∧
      Logs s t 9 outcome 8 [p] ∧ Only [.mem, .lin, .rings, .hif, .out, .free] s t) ∧
  (∀ (m row w : Nat) (s : State), mget 0 s.mem.sramFirst (sramRow m row) = 0 ∨
    86400 < s.lin.seconds + 1 - mget 0 s.mem.sramFirst (sramRow m row) →
    ∃ t, exec (.sramCorrection m row w false) s = .next t ∧ t.mem = { s.mem with
        sramCorrected := satAdd 0xFFFF s.mem.sramCorrected 1
        sramFirst := mput 0 (sramRow m row) (s.lin.seconds + 1) s.mem.sramFirst } ∧ Only [.mem, .trc, .rings, .hif, .out, .free] s t) ∧
  (∀ (m row w : Nat) (s : State), mget 0 s.mem.sramFirst (sramRow m row) ≠ 0 →
    s.lin.seconds + 1 - mget 0 s.mem.sramFirst (sramRow m row) ≤ 86400 → mget 0 s.mem.sramUsed m < 4 →
    ∃ t, exec (.sramCorrection m row w false) s = .next t ∧ mget 0 t.mem.sramUsed m = mget 0 s.mem.sramUsed m + 1 ∧
      t.mem.sramRepaired = satAdd 0xFF s.mem.sramRepaired 1 ∧ t.mem.bytes = s.mem.bytes ∧ t.mem.written = s.mem.written ∧
      Posts s t [event s 0x0D06 1 [m, row, 3 - mget 0 s.mem.sramUsed m]] ∧ Only [.mem, .lin, .trc, .rings, .hif, .out, .free] s t) ∧
  (∀ (m row w : Nat) (s : State), mget 0 s.mem.sramUsed m < 4 →
    ∃ t, exec (.sramCorrection m row w true) s = .next t ∧ mget 0 t.mem.sramUsed m = mget 0 s.mem.sramUsed m + 1 ∧
      t.mem.bytes = s.mem.bytes ∧
      Posts s t [event s 0x0D05 3 [m, row, w], event s 0x0D06 1 [m, row, 3 - mget 0 s.mem.sramUsed m]] ∧
      Only [.mem, .lin, .rings, .hif, .out, .free] s t) ∧
  (∀ (m row : Nat) (s : State), s.sys.mode = .service ∨ (fbit s.conf MEM_SRAM_TEST_EN = true ∧ isRunning s = true) →
    mget 0 s.mem.sramUsed m < 4 →
    ∃ t, exec (.sramTestWindow (some (m, row))) s = .next t ∧ mget 0 t.mem.sramUsed m = mget 0 s.mem.sramUsed m + 1 ∧
      t.mem.bytes = s.mem.bytes ∧ Posts s t [event s 0x0D06 1 [m, row, 3 - mget 0 s.mem.sramUsed m]] ∧
      Only [.mem, .lin, .rings, .hif, .out] s t) ∧
  (∀ (m row : Nat) (s : State), s.sys.mode = .service ∨ (fbit s.conf MEM_SRAM_TEST_EN = true ∧ isRunning s = true) →
    4 ≤ mget 0 s.mem.sramUsed m →
    ∃ t, exec (.sramTestWindow (some (m, row))) s = .next t ∧
      t.mem = { s.mem with sramNoSpare := mput false m true s.mem.sramNoSpare } ∧ Logs s t 12 4 m [row, 0] ∧ Only [.mem, .lin] s t) ∧
  (∀ s : State, exec (.sramTestWindow none) s = .next s)

/-! ## Cues -/

/-- R277 to R279, R382, R48, R287, R288, R358: a cue buffer is loaded into the first free run that fits, zero beyond its
contents, but not in BRACE, and a sealed source's plain bytes go to protected pages; it is freed at once while nothing refers
to it, and else when its last reference ends; CUE_START and CUE_STOP, outside a wall, arm for a frame at least two ahead, and
nothing is shown by them before; in a wall they begin the exchange and wait (log entry 17). The modes and targets that refuse
them do so with the status the rules name. Log entries: 80 to 84 (cue lists and buffers), 122 (failures of loads), 154 (one
machine check for a consultation). -/
def Obligations.CuesLoadStartAndStop : Prop :=
  (∀ (sq : Nat) (data : Rd) (r : Running) (page pages : Nat) (s : State), s.sys.brace = false → ready s .pf0 sq 0x40 = some r →
    busMaster s .pf0 = true → bit (fieldAt r.raw 0x1C 4) 0 = false → fieldAt r.raw 0x18 4 ≤ 4095 →
    bufferOf s (fieldAt r.raw 0x18 4) = none → fieldAt r.raw 0x28 8 ≠ 0 → pages = (fieldAt r.raw 0x28 8 + 4095) / 4096 →
    ((cueRuns s).find? (fun x => pages ≤ x.2)).map Prod.fst = some page → data.ok = true → fieldAt r.raw 0x28 8 ≤ data.bytes.length →
    ∃ t, exec (.cueLoad sq data) s = .next t ∧ Completed s t .pf0 sq r SUCCESS (lohi (4096 * page) ++ [pages]) ∧
      bufferOf t (fieldAt r.raw 0x18 4) = some { page, pages, length := fieldAt r.raw 0x28 8, isSealed := false } ∧
      (∀ k < 4096 * pages, mget 0 t.mem.bytes (4096 * page + k) = (data.bytes.take (fieldAt r.raw 0x28 8)).getD k 0) ∧
      (∀ a, a < 4096 * page ∨ 4096 * (page + pages) ≤ a → mget 0 t.mem.bytes a = mget 0 s.mem.bytes a) ∧
      Only [.rings, .hif, .mem, .cue, .sec, .trc, .out, .free] s t) ∧
  (∀ (sq : Nat) (data : Rd) (r : Running) (page pages : Nat) (key d : Bytes) (x : Bool) (s : State), s.sys.brace = false →
    ready s .pf0 sq 0x40 = some r → busMaster s .pf0 = true → bit (fieldAt r.raw 0x1C 4) 0 = true → fieldAt r.raw 0x18 4 ≤ 4095 →
    bufferOf s (fieldAt r.raw 0x18 4) = none → fieldAt r.raw 0x28 8 ≠ 0 → pages = (fieldAt r.raw 0x28 8 + 4095) / 4096 →
    ((cueRuns s).find? (fun x => pages ≤ x.2)).map Prod.fst = some page → data.ok = true → fieldAt r.raw 0x28 8 ≤ data.bytes.length →
    inService s = true → aget s.sec.keys (fieldAt r.raw 0x30 4) = some (key, x) →
    openSealed key (data.bytes.take (fieldAt r.raw 0x28 8)) = .ok d → d.length ≤ 4096 * pages →
    ∃ t, exec (.cueLoad sq data) s = .next t ∧ Completed s t .pf0 sq r SUCCESS (lohi (4096 * page) ++ [pages]) ∧
      bufferOf t (fieldAt r.raw 0x18 4) = some { page, pages, length := fieldAt r.raw 0x28 8, isSealed := true } ∧
      (∀ k < 4096 * pages, mget 0 t.mem.bytes (4096 * page + k) = d.getD k 0) ∧
      (∀ p, page ≤ p → p < page + pages → isProtected t p = true) ∧
      Only [.rings, .hif, .mem, .cue, .sec, .trc, .out, .free] s t) ∧
  (∀ (sq : Nat) (data : Rd) (s : State), s.sys.brace = true → exec (.cueLoad sq data) s = .next s) ∧
  (∀ (sq : Nat) (r : Running) (b : Buffer) (s : State), ready s .pf0 sq 0x32 = some r → bufferOf s (fieldAt r.raw 0x18 4) = some b →
    referenced s (fieldAt r.raw 0x18 4) = false →
    ∃ t, exec (.freeBuffer sq) s = .next t ∧ Completed s t .pf0 sq r SUCCESS [1] ∧ bufferOf t (fieldAt r.raw 0x18 4) = none ∧
      (∀ a, 4096 * b.page ≤ a → a < 4096 * (b.page + b.pages) → mget 0 t.mem.bytes a = 0) ∧
      (∀ a, a < 4096 * b.page ∨ 4096 * (b.page + b.pages) ≤ a → mget 0 t.mem.bytes a = mget 0 s.mem.bytes a) ∧
      Only [.rings, .hif, .mem, .cue, .trc, .out, .free] s t) ∧
  (∀ (sq : Nat) (r : Running) (b : Buffer) (s : State), ready s .pf0 sq 0x32 = some r → bufferOf s (fieldAt r.raw 0x18 4) = some b →
    referenced s (fieldAt r.raw 0x18 4) = true →
    ∃ t, exec (.freeBuffer sq) s = .next t ∧ Completed s t .pf0 sq r SUCCESS [0] ∧
      bufferOf t (fieldAt r.raw 0x18 4) = some { b with deferred := true } ∧ Only [.rings, .hif, .cue, .trc, .out, .free] s t) ∧
  (∀ (sq fe : Nat) (r : Running) (s : State), ready s .pf0 sq 0x41 = some r → (fbit s.conf GNG_CTRL_EN && fbit s.conf GNG_CTRL_WALL_CUE) = false →
    (∀ k, isPoisoned s k = false) → startMode s = none → startFault s ((r.raw.drop 0x18).take 40) = none → armFe s.sys.fe (fieldAt r.raw 0x20 8) 2 = some fe →
    (∀ a ∈ s.gng.arms, a.ring = none) →
    ∃ t, exec (.cueStart sq) s = .next t ∧ (sqOf t.rings .pf0 sq).running = none ∧ t.cue.run = s.cue.run ∧
      t.cue.arm = some (.start fe (fieldAt ((r.raw.drop 0x18).take 40) 0 4) (fieldAt ((r.raw.drop 0x18).take 40) 4 4)) ∧
      (s.cue.coming = none → Completed s t .pf0 sq r SUCCESS (lohi fe) ∧ Only [.rings, .hif, .cue, .mem, .gng, .trc, .out, .free] s t)) ∧
  (∀ (sq fe : Nat) (r : Running) (s : State), ready s .pf0 sq 0x42 = some r → (fbit s.conf GNG_CTRL_EN && fbit s.conf GNG_CTRL_WALL_CUE) = false →
    stopFault s ((r.raw.drop 0x18).take 40) = none → armFe s.sys.fe (fieldAt r.raw 0x20 8) 2 = some fe →
    (∀ a ∈ s.gng.arms, a.ring = none) →
    ∃ t, exec (.cueStop sq) s = .next t ∧ (sqOf t.rings .pf0 sq).running = none ∧ t.cue.run = s.cue.run ∧
      t.cue.arm = some (.stop fe (if fieldAt ((r.raw.drop 0x18).take 40) 0 4 % 8 = 2 then .live else .hold)) ∧
      (s.cue.coming = none → Completed s t .pf0 sq r SUCCESS (lohi fe) ∧ Only [.rings, .hif, .cue, .mem, .gng, .trc, .out, .free] s t)) ∧
  (∀ (sq fe : Nat) (r : Running) (s : State), ready s .pf0 sq 0x41 = some r → (fbit s.conf GNG_CTRL_EN && fbit s.conf GNG_CTRL_WALL_CUE) = true →
    (∀ k, isPoisoned s k = false) → startMode s = none → startFault s ((r.raw.drop 0x18).take 40) = none → armFe s.sys.fe (fieldAt r.raw 0x20 8) 4 = some fe →
    s.gng.arms = [] → (∃ k ∈ partTiles s, k ≠ tileIndex s.conf) →
    ∃ t, exec (.cueStart sq) s = .next t ∧ Waits t .pf0 sq r (nextArmId s) ∧ t.cue = s.cue ∧
      (∀ p ∈ upPorts s, .gngFrame p (gngWire (gngBytes s 0x05 1 (armPayload (nextArmId s) 1 0 fe
        ((r.raw.drop 0x18).take 40)))) ∈ t.out) ∧ Only [.rings, .gng, .out] s t) ∧
  (∀ (sq fe : Nat) (r : Running) (s : State), ready s .pf0 sq 0x42 = some r → (fbit s.conf GNG_CTRL_EN && fbit s.conf GNG_CTRL_WALL_CUE) = true →
    stopFault s ((r.raw.drop 0x18).take 40) = none → armFe s.sys.fe (fieldAt r.raw 0x20 8) 4 = some fe →
    s.gng.arms = [] → (∃ k ∈ partTiles s, k ≠ tileIndex s.conf) →
    ∃ t, exec (.cueStop sq) s = .next t ∧ Waits t .pf0 sq r (nextArmId s) ∧ t.cue = s.cue ∧
      (∀ p ∈ upPorts s, .gngFrame p (gngWire (gngBytes s 0x05 1 (armPayload (nextArmId s) 2 0 fe
        ((r.raw.drop 0x18).take 40)))) ∈ t.out) ∧ Only [.rings, .gng, .out] s t) ∧
  (∀ (sq : Nat) (r : Running) (s : State), ready s .pf0 sq 0x41 = some r → (∀ k, isPoisoned s k = false) →
    (∀ a ∈ s.gng.arms, a.ring = none) →
    (s.sys.mode = .boot ∨ s.sys.transit.isSome = true →
      ∃ t, exec (.cueStart sq) s = .next t ∧ Completed s t .pf0 sq r MODE_BUSY [0] ∧ Only [.rings, .hif, .trc, .out, .free] s t) ∧
    (s.sys.transit = none → s.sys.mode = .service ∨ s.sys.mode = .dormant →
      ∃ t, exec (.cueStart sq) s = .next t ∧ Completed s t .pf0 sq r MODE_INVALID [0] ∧ Only [.rings, .hif, .trc, .out, .free] s t)) ∧
  (∀ (sq : Nat) (r : Running) (s : State), ready s .pf0 sq 0x42 = some r → (∀ a ∈ s.gng.arms, a.ring = none) →
    fieldAt ((r.raw.drop 0x18).take 40) 0 4 % 8 = 2 ∨ fieldAt ((r.raw.drop 0x18).take 40) 0 4 % 8 = 3 → s.sys.mode ≠ .cue → s.cue.arm = none →
    ∃ t, exec (.cueStop sq) s = .next t ∧ Completed s t .pf0 sq r MODE_INVALID [0] ∧ Only [.rings, .hif, .trc, .out, .free] s t)

/-! ## Faults and spares -/

/-- R402, R388, R393, R395, R308, R315, R259, Table 18.5: SPARE_COMMIT. An engine for a stripe waits for the next FT; a Twill
lane goes onto its group's spare, a solver pair is replaced by the idle one, a page is retired and an SRAM row repaired at
once. Where no spare is left, RESOURCE_BUSY; a class above 4 is BAD_PARAM, and so is a resource out of range or a SPARE that
cannot serve. A working resource that is exchanged takes its place among the spares. (That a Twill lane replaced so serves
its own logical lane alone is the model's choice, log entry 159, and so is the order of the checks of classes 2 to 4, log
entry 161.) Log entry 126: what SPARE_COMMIT waits for. -/
def Obligations.SparesAreCommitted : Prop :=
  (∀ (sq e : Nat) (r : Running) (s : State), ready s .pf0 sq 0x71 = some r → fieldAt r.raw 0x18 4 = 0 →
    fieldAt r.raw 0x1C 4 ≤ 191 →
    (fieldAt r.raw 0x20 4 = 0xFFFFFFFF ∧ s.flt.idle.head? = some e) ∨
      (fieldAt r.raw 0x20 4 = e ∧ e ≠ 0xFFFFFFFF ∧ s.flt.idle.contains e = true) →
    s.flt.suspect.any (fun p => p.1 = fieldAt r.raw 0x1C 4) = false → s.flt.coming.any (fun m => m.stripe = fieldAt r.raw 0x1C 4) = false →
    ∃ t, exec (.spareCommit sq) s = .next t ∧ Waits t .pf0 sq r (fieldAt r.raw 0x1C 4) ∧ t.flt.idle = s.flt.idle.filter (· ≠ e) ∧
      t.flt.coming = s.flt.coming ++ [{ stripe := fieldAt r.raw 0x1C 4, spare := e, fe := s.sys.fe, seconds := s.lin.seconds, ring := some sq
                                        exchange := !(s.flt.pendingStripes.contains (fieldAt r.raw 0x1C 4)) }] ∧
      t.flt.engineOf = s.flt.engineOf ∧ Only [.rings, .flt] s t) ∧
  (∀ (sq : Nat) (r : Running) (s : State), ready s .pf0 sq 0x71 = some r → fieldAt r.raw 0x18 4 = 0 → fieldAt r.raw 0x1C 4 ≤ 191 →
    fieldAt r.raw 0x20 4 = 0xFFFFFFFF → s.flt.idle = [] → s.flt.suspect.any (fun p => p.1 = fieldAt r.raw 0x1C 4) = false →
    s.flt.coming.any (fun m => m.stripe = fieldAt r.raw 0x1C 4) = false →
    ∃ t, exec (.spareCommit sq) s = .next t ∧ Completed s t .pf0 sq r RESOURCE_BUSY [] ∧ Only [.rings, .hif, .trc, .out, .free] s t) ∧
  (∀ (sq : Nat) (r : Running) (s : State), ready s .pf0 sq 0x71 = some r →
    (fieldAt r.raw 0x18 4 = 1 ∧ fieldAt r.raw 0x1C 4 ≤ 11 ∧ fieldAt r.raw 0x20 4 < 8 ∧
      (groupAt s (fieldAt r.raw 0x1C 4)).spareUsed = true ∧ (groupAt s (fieldAt r.raw 0x1C 4)).laneSpare = false ∧
      ∃ q, portOfLane s.conf (fieldAt r.raw 0x1C 4) (fieldAt r.raw 0x20 4) = some q ∧ spareReaches s q.1 q.2 = true) ∨
    (fieldAt r.raw 0x18 4 = 2 ∧ (servingPairs s.flt).contains (fieldAt r.raw 0x1C 4) = true ∧ fieldAt r.raw 0x20 4 = 0 ∧
      s.flt.solverIdle = none) ∨
    (fieldAt r.raw 0x18 4 = 3 ∧ fieldAt r.raw 0x1C 4 < dataPages ∧ fieldAt r.raw 0x20 4 = 0 ∧ nextSpare s = none) ∨
    (fieldAt r.raw 0x18 4 = 4 ∧ fieldAt r.raw 0x20 4 = 0 ∧ 4 ≤ mget 0 s.mem.sramUsed (fieldAt r.raw 0x1C 4 / 65536)) →
    ∃ t, exec (.spareCommit sq) s = .next t ∧ Completed s t .pf0 sq r RESOURCE_BUSY [] ∧ Only [.rings, .hif, .trc, .out, .free] s t) ∧
  (∀ (sq : Nat) (r : Running) (s : State), ready s .pf0 sq 0x71 = some r →
    (fieldAt r.raw 0x18 4 = 0 ∧ 191 < fieldAt r.raw 0x1C 4) ∨ (fieldAt r.raw 0x18 4 = 1 ∧ 11 < fieldAt r.raw 0x1C 4) ∨
    (fieldAt r.raw 0x18 4 = 2 ∧ (servingPairs s.flt).contains (fieldAt r.raw 0x1C 4) = false) ∨
    (fieldAt r.raw 0x18 4 = 3 ∧ dataPages ≤ fieldAt r.raw 0x1C 4) →
    ∃ t, exec (.spareCommit sq) s = .next t ∧ Completed s t .pf0 sq r BAD_PARAM [0x1C] ∧ Only [.rings, .hif, .trc, .out, .free] s t) ∧
  (∀ (sq : Nat) (r : Running) (s : State), ready s .pf0 sq 0x71 = some r →
    (fieldAt r.raw 0x18 4 = 0 ∧ fieldAt r.raw 0x1C 4 ≤ 191 ∧ fieldAt r.raw 0x20 4 ≠ 0xFFFFFFFF ∧
      s.flt.idle.contains (fieldAt r.raw 0x20 4) = false) ∨
    (fieldAt r.raw 0x18 4 = 1 ∧ fieldAt r.raw 0x1C 4 ≤ 11 ∧ (7 < fieldAt r.raw 0x20 4 ∨
      portOfLane s.conf (fieldAt r.raw 0x1C 4) (fieldAt r.raw 0x20 4) = none ∨
      ∃ q, portOfLane s.conf (fieldAt r.raw 0x1C 4) (fieldAt r.raw 0x20 4) = some q ∧ spareReaches s q.1 q.2 = false)) ∨
    (fieldAt r.raw 0x18 4 = 2 ∧ (servingPairs s.flt).contains (fieldAt r.raw 0x1C 4) = true ∧ fieldAt r.raw 0x20 4 ≠ 0) ∨
    (fieldAt r.raw 0x18 4 = 3 ∧ fieldAt r.raw 0x1C 4 < dataPages ∧ fieldAt r.raw 0x20 4 ≠ 0) ∨
    (fieldAt r.raw 0x18 4 = 4 ∧ fieldAt r.raw 0x20 4 ≠ 0) →
    ∃ t, exec (.spareCommit sq) s = .next t ∧ Completed s t .pf0 sq r BAD_PARAM [0x20] ∧ Only [.rings, .hif, .trc, .out, .free] s t) ∧
  (∀ (sq n : Nat) (c : PortCfg) (r : Running) (s : State), ready s .pf0 sq 0x71 = some r → fieldAt r.raw 0x18 4 = 1 →
    fieldAt r.raw 0x1C 4 ≤ 11 → fieldAt r.raw 0x20 4 < 8 → portOfLane s.conf (fieldAt r.raw 0x1C 4) (fieldAt r.raw 0x20 4) = some (n, c) →
    c.group = fieldAt r.raw 0x1C 4 → spareFits s n c = true →
    ∃ t, exec (.spareCommit sq) s = .next t ∧ Completed s t .pf0 sq r SUCCESS [n] ∧ (groupAt t (fieldAt r.raw 0x1C 4)).spareUsed = true ∧
      (groupAt t (fieldAt r.raw 0x1C 4)).spareLane = fieldAt r.raw 0x20 4 ∧
      (groupAt t (fieldAt r.raw 0x1C 4)).laneSpare = (decide ((groupAt s (fieldAt r.raw 0x1C 4)).pending ≠ some (fieldAt r.raw 0x20 4))
        && decide ((portAt s n).state ≠ .failed)) ∧
      (∀ g, g ≠ fieldAt r.raw 0x1C 4 → groupAt t g = groupAt s g) ∧ (∀ m, m ≠ n → portAt t m = portAt s m) ∧
      Only [.rings, .hif, .lin, .twl, .trc, .out, .free] s t) ∧
  (∀ (sq n : Nat) (c : PortCfg) (r : Running) (s : State), ready s .pf0 sq 0x71 = some r → fieldAt r.raw 0x18 4 = 1 →
    fieldAt r.raw 0x1C 4 ≤ 11 → fieldAt r.raw 0x20 4 < 8 → portOfLane s.conf (fieldAt r.raw 0x1C 4) (fieldAt r.raw 0x20 4) = some (n, c) →
    spareReaches s n c = true → (groupAt s (fieldAt r.raw 0x1C 4)).spareUsed = true →
    (groupAt s (fieldAt r.raw 0x1C 4)).laneSpare = true → (groupAt s (fieldAt r.raw 0x1C 4)).spareLane = fieldAt r.raw 0x20 4 →
    ∃ t, exec (.spareCommit sq) s = .next t ∧ Completed s t .pf0 sq r SUCCESS [n] ∧
      (groupAt t (fieldAt r.raw 0x1C 4)).spareUsed = false ∧ (groupAt t (fieldAt r.raw 0x1C 4)).laneSpare = false ∧
      (∀ m, m ≠ n → portAt t m = portAt s m) ∧ Only [.rings, .hif, .lin, .twl, .trc, .out, .free] s t) ∧
  (∀ (sq k : Nat) (r : Running) (s : State), ready s .pf0 sq 0x71 = some r → fieldAt r.raw 0x18 4 = 2 →
    (servingPairs s.flt).contains (fieldAt r.raw 0x1C 4) = true → fieldAt r.raw 0x20 4 = 0 → s.flt.solverIdle = some k →
    ∃ t, exec (.spareCommit sq) s = .next t ∧ Completed s t .pf0 sq r SUCCESS [k] ∧
      t.flt.solverIdle = (if s.flt.pendingPairs.contains (fieldAt r.raw 0x1C 4) then none else some (fieldAt r.raw 0x1C 4)) ∧
      Only [.rings, .hif, .lin, .flt, .trc, .out, .free] s t) ∧
  (∀ (sq k : Nat) (r : Running) (s : State), ready s .pf0 sq 0x71 = some r → fieldAt r.raw 0x18 4 = 3 →
    fieldAt r.raw 0x1C 4 < dataPages → fieldAt r.raw 0x20 4 = 0 → nextSpare s = some k →
    ∃ t, exec (.spareCommit sq) s = .next t ∧ Completed s t .pf0 sq r SUCCESS [k] ∧
      t.bst = { s.bst with retireLog := s.bst.retireLog ++ [(fieldAt r.raw 0x1C 4, k)] } ∧ t.mem.bytes = s.mem.bytes ∧
      t.mem.retired = mput 0 (fieldAt r.raw 0x1C 4) k s.mem.retired ∧ Only [.rings, .hif, .mem, .lin, .bst, .trc, .out, .free] s t) ∧
  (∀ (sq : Nat) (r : Running) (s : State), ready s .pf0 sq 0x71 = some r → fieldAt r.raw 0x18 4 = 4 → fieldAt r.raw 0x20 4 = 0 →
    mget 0 s.mem.sramUsed (fieldAt r.raw 0x1C 4 / 65536) < 4 →
    ∃ t, exec (.spareCommit sq) s = .next t ∧
      Completed s t .pf0 sq r SUCCESS [4 - mget 0 s.mem.sramUsed (fieldAt r.raw 0x1C 4 / 65536)] ∧
      mget 0 t.mem.sramUsed (fieldAt r.raw 0x1C 4 / 65536) = mget 0 s.mem.sramUsed (fieldAt r.raw 0x1C 4 / 65536) ∧
      t.mem.bytes = s.mem.bytes ∧ Only [.rings, .hif, .mem, .lin, .trc, .out, .free] s t) ∧
  (∀ (sq : Nat) (r : Running) (s : State), ready s .pf0 sq 0x71 = some r → 4 < fieldAt r.raw 0x18 4 →
    ∃ t, exec (.spareCommit sq) s = .next t ∧ Completed s t .pf0 sq r BAD_PARAM [0x18] ∧ Only [.rings, .hif, .trc, .out, .free] s t)

/-- R392, R394, R395, R388, R400, R401: a checker that passes its self-test stays, and where it had found a stripe's engine
faulty that engine's spare is committed, while the policy lets the block do so; one that fails leaves; an idle spare or a
checker that fails its own test is retired; a solver pair that mismatches is replaced by the idle pair at once, leaves where
none is idle, or waits for the host; FAULT_QUERY gives the fault records, newest first. Log entries: 67 (fields of records
that Table 18.4 leaves), 68 (two mismatches in a frame), 69 (the comparison is the command's), 134 (idle stripes). -/
def Obligations.EnginesAndSolversAreChecked : Prop :=
  (∀ (e : Nat) (s : State), s.flt.testing.contains e = true → s.flt.suspect = none →
    ∃ t, exec (.checkerSelfTestDone e true) s = .next t ∧ t.flt = { s.flt with testing := s.flt.testing.filter (· ≠ e) } ∧
      Only [.flt] s t) ∧
  (∀ (e stripe line sp : Nat) (s : State), s.flt.testing.contains e = true → s.flt.suspect = some (stripe, line) →
    s.flt.pendingStripes.contains stripe = false → s.flt.coming.any (fun m => m.stripe = stripe) = false →
    fbit s.conf FLT_POLICY_ENGINE_AUTO = true → spareEngine s.flt = some sp →
    ∃ t, exec (.checkerSelfTestDone e true) s = .next t ∧ t.flt.suspect = none ∧
      t.flt.coming = s.flt.coming ++ [{ stripe, spare := sp, line, fe := s.sys.fe, seconds := s.lin.seconds }] ∧ t.flt.engineOf = s.flt.engineOf ∧
      Only [.flt, .rings, .hif, .out] s t) ∧
  (∀ (e : Nat) (s : State), s.flt.testing.contains e = true →
    ∃ (t : State) (inst next : Nat), exec (.checkerSelfTestDone e false) s = .next t ∧ t.flt.retired = s.flt.retired ++ [e] ∧
      t.flt.idle = s.flt.idle.drop 1 ∧ t.flt.suspect = none ∧ t.flt.coming = s.flt.coming ∧ next = s.flt.idle.head?.getD 0xFFFFFFFF ∧
      LogsSpares s t 1 6 inst [e, next] ∧ Only [.flt, .lin, .rings, .hif, .out, .free] s t) ∧
  (∀ (e : Nat) (s : State),
    (((ascending (s.flt.idle ++ s.flt.checkers)).filter (s.flt.nextTest ≤ ·)).head? <|> (ascending (s.flt.idle ++ s.flt.checkers)).head?)
      = some e →
    exec (.spareSelfTestTimer true) s = .next { s with flt := { s.flt with nextTest := e + 1 } }) ∧
  (∀ (e : Nat) (s : State),
    (((ascending (s.flt.idle ++ s.flt.checkers)).filter (s.flt.nextTest ≤ ·)).head? <|> (ascending (s.flt.idle ++ s.flt.checkers)).head?)
      = some e → s.flt.checkers.contains e = false →
    ∃ (t : State) (inst : Nat), exec (.spareSelfTestTimer false) s = .next t ∧ t.flt.retired = s.flt.retired ++ [e] ∧
      t.flt.idle = s.flt.idle.filter (· ≠ e) ∧ t.flt.checkers = s.flt.checkers ∧ LogsSpares s t 1 6 inst [e, 0xFFFFFFFF] ∧
      Only [.flt, .lin, .free] s t) ∧
  (∀ (e : Nat) (s : State),
    (((ascending (s.flt.idle ++ s.flt.checkers)).filter (s.flt.nextTest ≤ ·)).head? <|> (ascending (s.flt.idle ++ s.flt.checkers)).head?)
      = some e → s.flt.checkers.contains e = true →
    ∃ (t : State) (inst next : Nat), exec (.spareSelfTestTimer false) s = .next t ∧ t.flt.retired = s.flt.retired ++ [e] ∧
      t.flt.idle = s.flt.idle.drop 1 ∧ next = s.flt.idle.head?.getD 0xFFFFFFFF ∧ LogsSpares s t 1 6 inst [e, next] ∧
      Only [.flt, .lin, .rings, .hif, .out, .free] s t) ∧
  (∀ (p k : Nat) (s : State), (servingPairs s.flt).contains p = true → fbit s.conf FLT_POLICY_SOLVER_AUTO = true → s.flt.solverIdle = some k →
    ∃ t, exec (.solverLockstepMismatch p) s = .next t ∧ t.flt = { retirePair p s.flt with solverIdle := none } ∧
      t.gz = { s.gz with
        failedPairs := s.gz.failedPairs ++ [p]
        runPairs := some (s.gz.runPairs.getD s.flt.solverSplit) } ∧ Posts s t [event s 0x1204 3 [p, k, s.gz.rowsDone]] ∧
      LogsSpares s t 2 2 p [s.gz.rowsDone, k] ∧ Only [.flt, .gz, .lin, .rings, .hif, .out] s t) ∧
  (∀ (p : Nat) (s : State), (servingPairs s.flt).contains p = true → fbit s.conf FLT_POLICY_SOLVER_AUTO = true → s.flt.solverIdle = none →
    ∃ t, exec (.solverLockstepMismatch p) s = .next t ∧ t.flt = retirePair p s.flt ∧
      t.gz = { s.gz with
        failedPairs := s.gz.failedPairs ++ [p]
        runPairs := some (s.gz.runPairs.getD s.flt.solverSplit) } ∧ Posts s t [event s 0x1204 3 [p, 0xFF, s.gz.rowsDone]] ∧
      LogsSpares s t 2 4 p [s.gz.rowsDone, 0xFFFFFFFF] ∧ Only [.flt, .gz, .lin, .rings, .hif, .out] s t) ∧
  (∀ (p : Nat) (s : State), (servingPairs s.flt).contains p = true → fbit s.conf FLT_POLICY_SOLVER_AUTO = false →
    s.flt.pendingPairs.contains p = false →
    ∃ t, exec (.solverLockstepMismatch p) s = .next t ∧ t.flt = { s.flt with pendingPairs := s.flt.pendingPairs ++ [p] } ∧
      t.gz = { s.gz with
        failedPairs := s.gz.failedPairs ++ [p]
        runPairs := some (s.gz.runPairs.getD s.flt.solverSplit) } ∧
      Posts s t [event s 0x1204 3 [p, 0xFF, s.gz.rowsDone], event s 0x1203 2 [2, p]] ∧ Logs s t 2 3 p [s.gz.rowsDone, 0xFFFFFFFF] ∧
      Only [.flt, .gz, .lin, .rings, .hif, .out] s t) ∧
  (∀ (fn : Fn) (sq : Nat) (slots : List Nat) (r : Running) (s : State), busMaster s fn = true → ready s fn sq 0x70 = some r →
    slots = ((faultsNewestFirst s.lin.sram).drop (fieldAt r.raw 0x18 4)).take (fieldAt r.raw 0x1C 4) →
    ∃ t, exec (.faultQuery fn sq) s = .next t ∧ Completed s t fn sq r SUCCESS [slots.length, guaranteeWord s] ∧
      .hostWrite fn (fieldAt r.raw 0x20 8) (slots.flatMap (fun k => mgets 0 s.lin.sram (0x88000 + 64 * k) 64)) ∈ t.out ∧
      Only [.rings, .hif, .trc, .out, .free] s t)

/-- R396, R397, R23, R400, Table 18.2: a housekeeping pair halts and the other takes over, or, when none is left, a watchdog
reset with reason 1 begins; the halted pair's self-test returns or retires it. A clock domain that stops is reported once; of
a Twill group its ports wait for the clock and are FAILED when it stays away; a checker or an idle spare is retired; one that
nothing can replace begins a watchdog reset with reason 0. A domain that already lost its clock changes nothing. Log entries:
127 (causes and times of records), 107 (what a watchdog reset keeps), 89 (ports of a group without its clock). -/
def Obligations.PairsAndClocksFailSafe : Prop :=
  (∀ (p cause : Nat) (s : State), firmwareRuns s = true → p < 2 → s.flt.hkOk = 3 →
    ∃ t, exec (.hkLockstepMismatch p cause) s = .next t ∧ t.flt = { s.flt with
        hkOk := BitVec.ofNat 2 (2 ^ (1 - p))
        hkCause := aput p (cause, s.sys.fe, s.lin.seconds) s.flt.hkCause
        takeovers := satAdd 0xFF s.flt.takeovers 1 } ∧ Only [.flt] s t) ∧
  (∀ (p cause : Nat) (s : State), s.pwr.fall = .idle → s.sys.transit.any (fun x => x.target = .boot) = false →
    firmwareRuns s = true → p < 2 → s.flt.hkOk = BitVec.ofNat 2 (2 ^ p) →
    ∃ t, exec (.hkLockstepMismatch p cause) s = .next t ∧ t.sys.nextCause = { cause := 3, wdReason := 1 } ∧ t.sys.mode = s.sys.mode ∧
      t.sys.transit.any (fun x => x.target = .boot) = true ∧ t.lin.store.isSome = true ∧ t.conf = s.conf ∧ t.mem.bytes = s.mem.bytes) ∧
  (∀ (p cause fe seconds : Nat) (s : State), aget s.flt.hkCause p = some (cause, fe, seconds) →
    ∃ t, exec (.hkSelfTestDone p true) s = .next t ∧ t.flt = { s.flt with
        hkCause := s.flt.hkCause.filter (fun x => x.1 ≠ p)
        hkOk := s.flt.hkOk ||| BitVec.ofNat 2 (2 ^ p) } ∧
      Posts s t [event s 0x1205 3 [p, cause, 0]] ∧ t.lin = (logFaultAt fe seconds 3 1 p [cause] s).lin ∧ Only [.flt, .lin, .rings, .hif, .out] s t) ∧
  (∀ (p cause fe seconds : Nat) (s : State), aget s.flt.hkCause p = some (cause, fe, seconds) →
    ∃ t, exec (.hkSelfTestDone p false) s = .next t ∧ t.flt = { s.flt with hkCause := s.flt.hkCause.filter (fun x => x.1 ≠ p) } ∧
      Posts s t [event s 0x1205 3 [p, cause, 1]] ∧
      t.lin = (putSpares { logFaultAt fe seconds 3 6 p [cause] s with flt := t.flt }).lin ∧ Only [.flt, .lin, .rings, .hif, .out] s t) ∧
  (∀ (g : Nat) (s : State), g < 12 → dieRuns s = true → s.flt.lostClocks.contains (200 + g) = false → s.cal.jobs = [] →
    ∃ (t : State) (outcome : Nat), exec (.clockLoss (200 + g)) s = .next t ∧
      t.flt = { s.flt with lostClocks := s.flt.lostClocks ++ [200 + g] } ∧ (groupAt t g).noClock = true ∧
      (∀ q ∈ enabledPorts s.conf, q.2.group = g → (portAt s q.1).state = .active → (portAt t q.1).state = .backoff) ∧
      Posts s t [event s 0x1206 3 [200 + g]] ∧ Logs s t 4 outcome (200 + g) [] ∧
      Only [.flt, .lin, .twl, .rings, .hif, .out, .free] s t) ∧
  (∀ (d : Nat) (s : State), 216 ≤ d → d ≤ 247 → d ≠ 234 → d ≠ 235 → s.pwr.fall = .idle → dieRuns s = true →
    s.sys.transit.any (fun x => x.target = .boot) = false → s.flt.lostClocks.contains d = false →
    ∃ t, exec (.clockLoss d) s = .next t ∧ t.sys.nextCause = { cause := 3, wdReason := 0 } ∧ t.sys.mode = s.sys.mode ∧
      t.sys.transit.any (fun x => x.target = .boot) = true ∧ t.lin.store.isSome = true ∧ t.conf = s.conf ∧ t.mem.bytes = s.mem.bytes) ∧
  (∀ (d : Nat) (s : State), d < 200 → dieRuns s = true → s.flt.lostClocks.contains d = false →
    (s.flt.idle.contains d = true ∨ s.flt.checkers.contains d = true →
      ∃ t, exec (.clockLoss d) s = .next t ∧ t.flt.retired = s.flt.retired ++ [d] ∧
        t.flt.lostClocks = s.flt.lostClocks ++ [d] ∧ Only [.flt, .lin, .rings, .hif, .out, .free] s t) ∧
    (∀ i sp, s.flt.idle.contains d = false → s.flt.checkers.contains d = false →
      (List.range 192).find? (fun i => engineOf s i = d && !(s.flt.unserved.contains i)) = some i →
      s.flt.pendingStripes.contains i = false → s.flt.coming.any (fun m => m.stripe = i) = false →
      fbit s.conf FLT_POLICY_ENGINE_AUTO = true → spareEngine s.flt = some sp →
      ∃ (t : State) (line : Nat), exec (.clockLoss d) s = .next t ∧
        t.flt.coming = s.flt.coming ++ [{ stripe := i, spare := sp, line, fe := s.sys.fe, seconds := s.lin.seconds }] ∧
        t.flt.lostClocks = s.flt.lostClocks ++ [d] ∧ Only [.flt, .lin, .rings, .hif, .out, .free] s t)) ∧
  (∀ (p : Nat) (s : State), p < 2 → dieRuns s = true → s.flt.lostClocks.contains (234 + p) = false → s.flt.hkOk = 3 →
    ∃ t, exec (.clockLoss (234 + p)) s = .next t ∧ t.flt.hkOk = BitVec.ofNat 2 (2 ^ (1 - p)) ∧
      t.flt.takeovers = satAdd 0xFF s.flt.takeovers 1 ∧ Only [.flt, .lin, .rings, .hif, .out, .free] s t) ∧
  (∀ (p : Nat) (s : State), p < 4 → dieRuns s = true → s.flt.lostClocks.contains (212 + p) = false → (gngPort s p).state = .up →
    ∃ t, exec (.clockLoss (212 + p)) s = .next t ∧ (gngPort t p).state = .backoff ∧ t.flt.lostClocks = s.flt.lostClocks ++ [212 + p]) ∧
  (∀ (d : Nat) (s : State), s.flt.lostClocks.contains d = true → exec (.clockLoss d) s = .next s) ∧
  (∀ (d : Nat) (s : State), d < 200 ∨ 212 ≤ d ∨ (groupAt s (d - 200)).noClock = false →
    exec (.clockReturn d) s = .next { s with flt := { s.flt with lostClocks := s.flt.lostClocks.filter (· ≠ d) } }) ∧
  (∀ (g : Nat) (s : State), g < 12 → (groupAt s g).noClock = true →
    ∃ t, exec (.clockReturn (200 + g)) s = .next t ∧ (groupAt t g).noClock = false ∧
      t.flt = { s.flt with lostClocks := s.flt.lostClocks.filter (· ≠ 200 + g) } ∧
      Only [.flt, .twl, .trc, .rings, .hif, .lmp, .out, .free] s t) ∧
  (∀ (g : Nat) (s : State), (groupAt s g).noClock = true →
    ∃ t, exec (.twillClockLossTimeout g) s = .next t ∧ (groupAt t g).noClock = true ∧
      (∀ q ∈ enabledPorts s.conf, q.2.group = g → (portAt s q.1).state = .backoff → (portAt t q.1).state = .failed) ∧
      (∀ m, (portAt s m).state ≠ .backoff → portAt t m = portAt s m) ∧ Only [.twl, .pnl, .lin, .trc, .rings, .hif, .out, .free] s t)

/-! ## Panel power, gate supply and event pins -/

/-- R229 to R231, R233, R49: a sample, as its 12-bit code, joins the last four of its monitor; a step's enable is asserted after
its delay, and the step is done once its monitors are in window; with the last step done and every monitor in window panel-on
begins, unless BOOT waits for VIN good, and it completes with its dark frames. A checked monitor out of window, or a step
that takes too long, is a rail fault: it is reported, each monitor once, and the power-off sequence begins, or goes on.
(Which reason a power-off in progress keeps is the model's choice, log entry 28.) Log entry 96: skipped steps and thresholds. -/
def Obligations.RailsRiseInOrderAndAreWatched : Prop :=
  (∀ (codes : List Microvolts) (s : State), s.pnl.state = .on →
    (∀ k ∈ checkedMonitors s, inside s k (dvmCode (codes.getD k 0)) = true) →
    ∃ t, exec (.dvmSample codes) s = .next t ∧ t.pnl = { s.pnl with dvm := t.pnl.dvm } ∧
      (∀ k < 12, samplesOf t k = (dvmCode (codes.getD k 0) :: samplesOf s k).take 4) ∧ Only [.pnl] s t) ∧
  (∀ (codes : List Microvolts) (k : Nat) (s : State), s.pnl.state = .on → s.pnl.faulted.contains k = false →
    (checkedMonitors s).filter (fun m => ((dvmCode (codes.getD m 0) :: samplesOf s m).take 4).length = 4
      && ((dvmCode (codes.getD m 0) :: samplesOf s m).take 4).all (fun v => !(inside s m v))) = [k] →
    ∃ t, exec (.dvmSample codes) s = .next t ∧ t.pnl.state = .poweringOff ∧ t.pnl.faulted = [k] ∧ t.pnl.discharging = true ∧ t.pnl.offReason = 2 ∧
      t.pnl.faultDvm = k ∧ t.pnl.faultStep = fget s.conf (PNL_DVM_STEP k) ∧
      t.pnl.restart = decide (s.pnl.retries + 1 ≤ fget s.conf PNL_RETRY_COUNT) ∧
      Posts s t [event s 0x0A03 3 [k, dvmCode (codes.getD k 0), fget s.conf (PNL_DVM_STEP k)]] ∧
      Only [.hif, .rings, .lmp, .pnl, .twl, .lin, .trc, .out, .free] s t) ∧
  (∀ (codes : List Microvolts) (ks : List Nat) (s : State), s.pnl.state = .poweringOff → (∀ k ∈ ks, s.pnl.faulted.contains k = false) →
    (checkedMonitors s).filter (fun m => ((dvmCode (codes.getD m 0) :: samplesOf s m).take 4).length = 4
      && ((dvmCode (codes.getD m 0) :: samplesOf s m).take 4).all (fun v => !(inside s m v))) = ks →
    ∃ t, exec (.dvmSample codes) s = .next t ∧ t.pnl.state = .poweringOff ∧ t.pnl.faulted = s.pnl.faulted ++ ks ∧
      (∀ k, ks.getLast? = some k → t.pnl.faultDvm = k ∧ t.pnl.faultStep = fget s.conf (PNL_DVM_STEP k)) ∧
      Posts s t (ks.map (fun k => event s 0x0A03 3 [k, dvmCode (codes.getD k 0), fget s.conf (PNL_DVM_STEP k)])) ∧
      Only [.hif, .rings, .pnl, .lin, .lmp, .out, .free] s t) ∧
  (∀ s : State, s.pnl.state = .poweringOn → s.pnl.asserted = false → s.pnl.step < 8 →
    (monitorsOf s s.pnl.step).all (inWindow s) = false →
    ∃ t, exec .powerOnStepDelay s = .next t ∧ t.pnl = { s.pnl with
        asserted := true
        pens := s.pnl.pens ||| BitVec.ofNat 8 (2 ^ fget s.conf (PNL_SEQ_PEN s.pnl.step)) } ∧ Only [.pnl, .out] s t) ∧
  (∀ s : State, s.pnl.state = .poweringOn → s.pnl.asserted = false → s.pnl.step < 8 →
    (monitorsOf s s.pnl.step).all (inWindow s) = true → usedStep s (s.pnl.step + 1) < 8 →
    ∃ t, exec .powerOnStepDelay s = .next t ∧ t.pnl = { s.pnl with
        step := usedStep s (s.pnl.step + 1)
        pens := s.pnl.pens ||| BitVec.ofNat 8 (2 ^ fget s.conf (PNL_SEQ_PEN s.pnl.step))
        checkedSteps := s.pnl.checkedSteps ||| BitVec.ofNat 8 (2 ^ s.pnl.step) } ∧ Only [.pnl, .out] s t) ∧
  (∀ s : State, s.pnl.state = .poweringOn → s.pnl.asserted = false → s.pnl.step < 8 → (monitors s).all (inWindow s) = true →
    usedStep s (s.pnl.step + 1) = 8 →
    ∃ t, exec .powerOnStepDelay s = .next t ∧ t.pnl.state = (if s.sys.mode = .boot ∧ s.sys.bootHeld = true then .poweringOn else .training) ∧
      t.pnl.step = 8 ∧ Only [.pnl, .out] s t) ∧
  (∀ s : State, s.pnl.state = .poweringOn → s.pnl.asserted = true → s.pnl.step < 8 → fget s.conf (PNL_SEQ_TIMEOUT s.pnl.step) ≠ 0 →
    ∃ (t : State) (sample : Nat), exec .powerOnStepTimeout s = .next t ∧ t.pnl.state = .poweringOff ∧ t.pnl.offReason = 2 ∧
      t.pnl.faultStep = s.pnl.step ∧ Posts s t [event s 0x0A03 3 [0xFF, sample, s.pnl.step]] ∧
      Only [.hif, .rings, .lmp, .pnl, .twl, .lin, .trc, .out, .free] s t) ∧
  (∀ (ms : Nat) (s : State), s.pnl.state = .training → s.pnl.trained = true → s.lmp.probing = [] →
    ∃ t, exec (.panelOnDelay ms) s = .next t ∧ t.pnl = { s.pnl with state := .on } ∧
      t.lmp = { s.lmp with darkFrames := fget s.conf PNL_ON_DARK_FRAMES } ∧ Posts s t [event s 0x0A01 0 [ms]] ∧
      Only [.pnl, .lmp, .trc, .rings, .hif, .out, .free] s t)

/-- R232, R233, R54, R223, R421, R218: the power-off sequence ends its discharge period with every accumulator at 0, releases the
enables in reverse order, and ends with the panel off, reported with its reason; a rail fault's retry then waits and powers
on again, unless the retries are spent, a seam's power-off goes on to the power-on sequence, and 60 s of scanning clear the
count of retries. The gate supply drives outside 2.0 V to 3.0 V, from 1.6 V on; a pulse of an event pin ends alone, at the
pin's inactive level. Log entries: 96 (power corners), 106 (a power-off in progress serves both). -/
def Obligations.RailsFallInReverse : Prop :=
  (∀ s : State, s.pnl.state = .poweringOff → s.pnl.discharging = true → s.sys.transit = none → releaseOrder s ≠ [] →
    ∃ t, exec .dischargePeriodEnd s = .next t ∧ t.pnl = { s.pnl with discharging := false } ∧
      (∀ k, (mget {} t.tmg.bands k).acc = 0) ∧ Only [.pnl, .tmg] s t) ∧
  (∀ (k : Nat) (rest : List Nat) (s : State), s.pnl.state = .poweringOff → s.pnl.discharging = false → s.sys.transit = none →
    releaseOrder s = k :: rest → rest ≠ [] →
    ∃ t, exec .panelEnableRelease s = .next t ∧ t.pnl = { s.pnl with
        pens := s.pnl.pens &&& ~~~(BitVec.ofNat 8 (2 ^ fget s.conf (PNL_SEQ_PEN k)))
        checkedSteps := s.pnl.checkedSteps &&& ~~~(BitVec.ofNat 8 (2 ^ k))
        asserted := s.pnl.asserted && s.pnl.step ≠ k } ∧ Only [.pnl, .out] s t) ∧
  (∀ (k : Nat) (s : State), s.pnl.state = .poweringOff → s.pnl.discharging = false → s.sys.transit = none → releaseOrder s = [k] →
    s.pnl.offReason = 0 ∨ s.pnl.offReason = 2 ∨ s.pnl.offReason = 3 →
    ∃ t, exec .panelEnableRelease s = .next t ∧
      t.pnl.state = (if s.pnl.offReason = 2 then (if s.pnl.restart then .waiting else .faultOff) else .off) ∧ t.pnl.pens = 0 ∧
      t.pnl.checkedSteps = 0 ∧ Posts s t [event s 0x0A02 0 [s.pnl.offReason]] ∧ Only [.pnl, .trc, .rings, .hif, .out, .free] s t) ∧
  (∀ (k : Nat) (s : State), s.pnl.state = .poweringOff → s.pnl.discharging = false → s.sys.transit = none → releaseOrder s = [k] →
    s.pnl.offReason = 1 → s.pnl.restart = true → usedStep s 0 < 8 →
    ∃ t, exec .panelEnableRelease s = .next t ∧ t.pnl.state = .poweringOn ∧ t.pnl.step = usedStep s 0 ∧ t.pnl.pens = 0 ∧
      t.pnl.checkedSteps = 0 ∧ Posts s t [event s 0x0A02 0 [1]] ∧ Only [.pnl, .trc, .rings, .hif, .out, .free] s t) ∧
  (∀ s : State, s.pnl.state = .waiting → usedStep s 0 < 8 →
    ∃ t, exec .railRetryDelay s = .next t ∧ t.pnl.state = .poweringOn ∧ t.pnl.step = usedStep s 0 ∧ t.pnl.pens = 0 ∧
      t.pnl.asserted = false ∧ t.pnl.retries = s.pnl.retries ∧ Only [.pnl, .trc, .rings, .hif, .out, .free] s t) ∧
  (∀ s : State, s.pnl.state = .on → exec .railRetryReset s = .next { s with pnl := { s.pnl with retries := 0 } }) ∧
  (∀ (mV : Nat) (s : State), ∃ t, exec (.vioGtSample mV) s = .next t ∧
      (t.tmg.vioGood = true ↔ (1600 ≤ mV ∧ mV < 2000) ∨ 3000 < mV) ∧ t.tmg = { s.tmg with vioGood := t.tmg.vioGood } ∧
      Only [.tmg] s t) ∧
  (∀ (pin : Nat) (s : State), pin < 4 → ∃ t, exec (.evPinPulseEnd pin) s = .next t ∧
      (∀ i < 4, t.tmg.evPins.getLsbD i = (s.tmg.evPins.getLsbD i && i ≠ pin)) ∧ t.tmg = { s.tmg with evPins := t.tmg.evPins } ∧
      (s.tmg.evPins.getLsbD pin = true → .evPin pin (!(s.tmg.evPol.getLsbD pin)) ∈ t.out) ∧ Only [.tmg, .out] s t)

/-! ## Twill -/

/-- R253, R255, R256, R258 to R261, R254, Tables 11.5, 11.4: panel-on trains every enabled port that is not FAILED at once, from
a PING, or from SPARE_MAP where the port holds its group's spare. A partner's reply takes the port on; a frame without a
valid reply is sent twice more; a phase that times out backs off and begins again, and the fourth failure is the last: the
port is FAILED, or its one bad lane goes onto the spare. A frame goes out once its group's wire is free. A port in service is
polled, and trains again when its partner no longer answers. Log entries: 89 (corners of training), 92 (one wire for a
group), 93 (P2 of TWILL_TRAINED), 90 (pin-echo). -/
def Obligations.TwillPortsTrain : Prop :=
  (∀ s : State, s.pnl.state = .training → s.twl.training = false → s.pnl.trained = false → mwf {} s.twl.groups = true →
    (∃ q ∈ enabledPorts s.conf, (portAt s q.1).state ≠ .failed) →
    (∀ q ∈ enabledPorts s.conf, (groupAt s q.2.group).noClock = false) →
    ∃ t, exec .twillTraining s = .next t ∧ t.twl.training = true ∧
      (∀ q ∈ enabledPorts s.conf, (portAt s q.1).state ≠ .failed → (portAt t q.1).state = .phase 0 ∧
        (portAt t q.1).wait = some (if holdsSpare s q.2 then
          bcBody q.2.addr 0x0C (toLE 1 ((groupAt s q.2.group).spareLane - q.2.lane0)) else bcBody q.2.addr 0x01 [], 2)) ∧
      (∀ q ∈ enabledPorts s.conf, (portAt s q.1).state = .failed → portAt t q.1 = portAt s q.1) ∧
      Only [.twl, .trc, .rings, .hif, .out, .free] s t) ∧
  (∀ (n k : Nat) (b d : Bytes) (c : PortCfg) (s : State), (portAt s n).state = .phase 0 → (portAt s n).wait = some (b, k) →
    fieldAt b 1 1 = 0x01 → portCfg s.conf n = some c → (groupAt s c.group).wire = some n → s.cal.jobs = [] → d.length = 4 → covered s c d = true →
    bit (fieldAt d 0 1) 0 = true →
    ∃ t, exec (.backchannelReply n 0x81 d true) s = .next t ∧ portAt t n = { portAt s n with
        wait := none
        spareIn := bit (fieldAt d 0 1) 2
        answered := true
        state := .phase 1 } ∧
      (∀ m, m ≠ n → portAt t m = portAt s m) ∧ Only [.rings, .hif, .pnl, .twl, .lin, .cal, .trc, .out, .free] s t) ∧
  (∀ (n k : Nat) (b d : Bytes) (c : PortCfg) (s : State), (portAt s n).state = .phase 4 → (portAt s n).wait = some (b, k) →
    fieldAt b 1 1 = 0x06 → portCfg s.conf n = some c → (groupAt s c.group).wire = some n → s.cal.jobs = [] → d.length = 0 →
    ∃ t, exec (.backchannelReply n 0x80 d true) s = .next t ∧ portAt t n = { portAt s n with
        wait := none
        state := .active
        tries := 0
        initial := false
        precode := bit (fieldAt b 3 1) 0 } ∧
      (∀ m, m ≠ n → portAt t m = portAt s m) ∧ Only [.rings, .hif, .pnl, .twl, .lin, .cal, .trc, .out, .free] s t) ∧
  (∀ (n k ty : Nat) (ok : Bool) (b d : Bytes) (c : PortCfg) (s : State), (portAt s n).wait = some (b, k + 1) → portCfg s.conf n = some c →
    (groupAt s c.group).wire = some n → s.cal.jobs = [] → ok = false ∨ (ty, d.length) ≠ replyOf (fieldAt b 1 1) →
    exec (.backchannelReply n ty d ok) s = exec (.backchannelReplyTimeout n) s) ∧
  (∀ (n k : Nat) (b : Bytes) (c : PortCfg) (s : State), (portAt s n).wait = some (b, k + 1) → portCfg s.conf n = some c →
    (groupAt s c.group).wire = some n →
    ∃ t, exec (.backchannelReplyTimeout n) s = .next t ∧ portAt t n = { portAt s n with wait := some (b, k) } ∧
      t.out = .backchannel c.group (bcWire b) :: s.out ∧ (∀ m, m ≠ n → portAt t m = portAt s m) ∧ Only [.twl, .out] s t) ∧
  (∀ (n : Nat) (b : Bytes) (c : PortCfg) (s : State), (portAt s n).state = .active → (portAt s n).wait = some (b, 0) →
    fieldAt b 1 1 = 0x07 → portCfg s.conf n = some c → (groupAt s c.group).wire = some n → (groupAt s c.group).noClock = false →
    ∃ t, exec (.backchannelReplyTimeout n) s = .next t ∧ (portAt t n).state = .phase 0 ∧ (portAt t n).tries = 0 ∧
      (portAt t n).initial = false ∧ (portAt t n).wait = some (bcBody c.addr 0x01 [], 2) ∧ (∀ m, m ≠ n → portAt t m = portAt s m) ∧
      (s.twl.training = false → Posts s t [event s 0x0B06 2 [n]]) ∧ Only [.rings, .hif, .pnl, .twl, .trc, .out, .free] s t) ∧
  (∀ (n : Nat) (c : PortCfg) (s : State), (portAt s n).state ∈ [PortState.phase 0, .phase 1, .phase 3] → portCfg s.conf n = some c →
    ∃ t, exec (.trainingPingTimer n) s = .next t ∧ portAt t n = { portAt s n with wait := some (bcBody c.addr 0x01 [], 2) } ∧
      (∀ m, m ≠ n → portAt t m = portAt s m) ∧
      ((groupAt s c.group).wire = none → (groupAt s c.group).queue = [] →
        t.out = .backchannel c.group (bcWire (bcBody c.addr 0x01 [])) :: s.out) ∧
      (∀ m, m ≠ n → (groupAt s c.group).wire = some m → (portAt s m).wait.isSome = true → t.out = s.out) ∧ Only [.twl, .out, .free] s t) ∧
  (∀ (n p ms : Nat) (s : State), (portAt s n).state = .phase p → (portAt s n).tries < 3 →
    ∃ t, exec (.trainingPhaseTimeout n ms) s = .next t ∧ (portAt t n).state = .backoff ∧ (portAt t n).tries = (portAt s n).tries + 1 ∧
      (portAt t n).wait = none ∧ (portAt t n).phase = p ∧ (portAt t n).reason = timeoutReason p ∧
      (∀ m, m ≠ n → portAt t m = portAt s m) ∧ Only [.rings, .hif, .pnl, .twl, .trc, .out, .free] s t) ∧
  (∀ (n p ms : Nat) (c : PortCfg) (s : State), (portAt s n).state = .phase p → ¬ (portAt s n).tries < 3 → (portAt s n).answered = false →
    portCfg s.conf n = some c → s.twl.training = false →
    ∃ (t : State) (lane : Nat), exec (.trainingPhaseTimeout n ms) s = .next t ∧ (portAt t n).state = .failed ∧
      Posts s t [event s 0x0B02 2 [n, p, timeoutReason p]] ∧ Logs s t 5 4 n [c.group, lane, timeoutReason p] ∧
      (∀ m, m ≠ n → portAt t m = portAt s m) ∧ Only [.rings, .hif, .lin, .twl, .trc, .out, .free] s t) ∧
  (∀ (n p k ms : Nat) (c : PortCfg) (s : State), (portAt s n).state = .phase p → ¬ (portAt s n).tries < 3 → (portAt s n).answered = true →
    portCfg s.conf n = some c → (List.range c.width).filter (fun k => (mget {} (portAt s n).lanes k).bad) = [k] →
    spareFits s n c = true → fbit s.conf FLT_POLICY_TWILL_AUTO = true → (groupAt s c.group).noClock = false → s.twl.training = false →
    ∃ t, exec (.trainingPhaseTimeout n ms) s = .next t ∧ (portAt t n).state = .phase 0 ∧ (portAt t n).tries = 0 ∧
      (portAt t n).wait = some (bcBody c.addr 0x0C (toLE 1 k), 2) ∧ (groupAt t c.group).spareUsed = true ∧
      (groupAt t c.group).spareLane = c.lane0 + k ∧ Posts s t [event s 0x0B03 1 [c.group, c.lane0 + k, n]] ∧
      LogsSpares s t 5 2 n [c.group, c.lane0 + k, timeoutReason p] ∧ (∀ m, m ≠ n → portAt t m = portAt s m) ∧
      Only [.rings, .hif, .lin, .twl, .trc, .out, .free] s t) ∧
  (∀ (n : Nat) (c : PortCfg) (s : State), (portAt s n).state = .backoff → portCfg s.conf n = some c → (groupAt s c.group).noClock = false →
    ∃ t, exec (.trainingRetryBackoff n) s = .next t ∧ (portAt t n).state = .phase 0 ∧ (portAt t n).tries = (portAt s n).tries ∧
      (portAt t n).wait = some (bcBody c.addr 0x01 [], 2) ∧ (∀ m, m ≠ n → portAt t m = portAt s m) ∧
      Only [.rings, .hif, .twl, .trc, .out, .free] s t) ∧
  (∀ (n : Nat) (c : PortCfg) (s : State), (portAt s n).state = .active → (portAt s n).wait = none → portCfg s.conf n = some c →
    ∃ t, exec (.statusPollTimer n) s = .next t ∧ portAt t n = { portAt s n with wait := some (bcBody c.addr 0x07 [], 2) } ∧
      (∀ m, m ≠ n → portAt t m = portAt s m) ∧
      ((groupAt s c.group).wire = none → (groupAt s c.group).queue = [] →
        t.out = .backchannel c.group (bcWire (bcBody c.addr 0x07 [])) :: s.out) ∧ Only [.twl, .out, .free] s t)

/-- R266 to R268, Table 11.16: a write of TWL_TEST in SERVICE selects an injection into the packets, or into the pattern that its
lane runs, starts a pattern on a lane of an ACTIVE port once PRBS_CHECK has gone out, or asks for its result; PATTERN 0 stops
the test, with which the port trains again; outside SERVICE a write that selects injection is dropped whole. Log entries: 91
(test corners), 92 (the wire), 146 (a test that leaves its lane). -/
def Obligations.TwillTestsRunInService : Prop :=
  (∀ (v : Word) (s : State), hostUp s = true → s.sys.mode = .service → wbits v 8 2 = 0 → wbits v 10 2 ≠ 0 → wbit v 31 = false →
    s.twl.testPort = none →
    ∃ t, exec (.twillErrorInject v) s = .next t ∧
      t.twl = { s.twl with
        inject := some (wbits v 0 7, wbits v 10 2, max 1 (wbits v 12 8), max 10 (min 40 (wbits v 20 6)))
        injected := 0 } ∧ t.conf = putLive 0x0b0080 v s.conf ∧ Only [.conf, .twl] s t) ∧
  (∀ (v : Word) (s : State), hostUp s = true → s.sys.mode = .service → wbits v 8 2 ≠ 0 → wbits v 10 2 ≠ 0 → wbit v 31 = false →
    inPattern s (wbits v 0 7) = true →
    ∃ (t : State) (seed : Nat), exec (.twillErrorInject v) s = .next t ∧ t.twl.inject = none ∧
      mget .off t.twl.runs (wbits v 0 7) = .prbs (lget s.conf TWL_TEST_PATTERN) seed (wbits v 10 2) (max 1 (wbits v 12 8))
        (max 10 (min 40 (wbits v 20 6))) ∧
      t.twl.testPort = s.twl.testPort ∧ t.conf = putLive 0x0b0080 v s.conf ∧ Only [.conf, .twl, .out, .free] s t) ∧
  (∀ (v : Word) (s : State), hostUp s = true → s.sys.mode ≠ .service → wbits v 10 2 ≠ 0 → exec (.twillErrorInject v) s = .next s) ∧
  (∀ (v : Word) (l n : Nat) (c : PortCfg) (s : State), hostUp s = true → s.sys.mode = .service → wbits v 10 2 = 0 → wbit v 31 = true →
    wbits v 8 2 ≠ 0 → s.twl.testPort = none → logicalOf s (wbits v 0 7) = some l → portOfLane s.conf (wbits v 0 7 / 9) l = some (n, c) →
    portCfg s.conf n = some c → (portAt s n).state = .active →
    ∃ (t : State) (seed : Nat), exec (.twillTestStart v) s = .next t ∧ t.twl.testPort = some n ∧ t.twl.inject = none ∧
      t.twl.testDone = false ∧
      ((groupAt s c.group).wire = none → (groupAt s c.group).queue = [] → t.twl.testRun = none ∧
        mget .off t.twl.runs (wbits v 0 7) = .prbs (wbits v 8 2) seed 0 (max 1 (wbits v 12 8)) (max 10 (min 40 (wbits v 20 6)))) ∧
      (wireFree s c.group = false →
        t.twl.testRun = some (wbits v 0 7, wbits v 8 2, 0, max 1 (wbits v 12 8), max 10 (min 40 (wbits v 20 6)))) ∧
      portAt t n = { portAt s n with
        state := .test
        wait := some (bcBody c.addr 0x09 (toLE 1 (2 ^ (l - c.lane0)) ++ toLE 1 (wbits v 8 2)), 2) } ∧
      (∀ m, m ≠ n → portAt t m = portAt s m) ∧ t.conf = putLive 0x0b0080 v s.conf ∧ Only [.conf, .twl, .out, .free] s t) ∧
  (∀ (v : Word) (l n : Nat) (c : PortCfg) (s : State), hostUp s = true → s.sys.mode = .service → wbits v 10 2 = 0 → wbit v 31 = true →
    wbits v 8 2 ≠ 0 → wbits v 8 2 = lget s.conf TWL_TEST_PATTERN → wbits v 0 7 = lget s.conf TWL_TEST_LANE → s.twl.testPort = some n →
    logicalOf s (wbits v 0 7) = some l → portCfg s.conf n = some c → c.lane0 ≤ l → l < c.lane0 + c.width → c.group = wbits v 0 7 / 9 →
    ∃ t, exec (.twillTestRead v) s = .next t ∧ t.twl.testPort = some n ∧ t.twl.testDone = false ∧
      portAt t n = { portAt s n with wait := some (bcBody c.addr 0x0A (toLE 1 (l - c.lane0)), 2) } ∧
      t.conf = putLive 0x0b0080 v s.conf ∧ Only [.conf, .twl, .out, .free] s t) ∧
  (∀ (v : Word) (n : Nat) (c : PortCfg) (s : State), hostUp s = true → wbits v 10 2 = 0 → wbits v 8 2 = 0 → s.twl.testPort = some n →
    portCfg s.conf n = some c → (groupAt s c.group).noClock = false →
    ∃ t, exec (.twillTestStop v) s = .next t ∧ t.twl.testPort = none ∧ t.twl.inject = none ∧ (portAt t n).state = .phase 0 ∧
      (portAt t n).wait = some (bcBody c.addr 0x01 [], 2) ∧ t.conf = putLive 0x0b0080 v s.conf ∧
      Only [.conf, .twl, .rings, .hif, .trc, .out, .free] s t)

/-! ## Lamp links -/

/-- R168, R173, R174, R182 to R185: discovery of a lane begins with ASSIGN(0), takes one driver after the other, and ends when
none answers, which reports the missing ones' zones dead; a return frame that fails its CRC is counted and nothing else; a
LEVELS frame's right echo, told from the others awaited by its CRC, ends its driver's misses; one that does not come, or that
bears no awaited frame's CRC, is counted and the frame sent once more, and then counts against its frame's FE; the third
answer in a row that fails to come loses the driver; lost positions are asked again, and one that answers is found: its
STATUS reports failed channels dead and, after a loss, the others alive. Frames leave as 8b/10b characters between SOF and
EOF. Log entries that it rests on: 150 (OFF to a driver outside the map bears its address), 151 (an ECHO finds no lost
driver), 152 (rediscovery asks every lost position at the timer), 3 (the free disparity). Log entries 64 (a driver found
again gets its SCHEDULE) and 94 (corners of answers) too. -/
def Obligations.LampDriversAnswerOrAreLost : Prop :=
  (∀ (l : Nat) (s : State), laneOn s.conf l = true → s.pnl.state = .training → s.pnl.trained = true → aget s.lmp.probing l = none →
    ∃ (t : State) (rd : Bool), exec (.lampDiscovery l) s = .next t ∧ aget t.lmp.probing l = some 0 ∧ (∀ p < 16, driverAt t l p = {}) ∧
      waitsOn t l = [{ pos := 0, type := 0x03, frame := lampBytes s.sys.fe true 0 0x03 (toLE 1 0), fe := s.sys.fe }] ∧
      (∀ m p, m ≠ l → p < 16 → driverAt t m p = driverAt s m p) ∧
      t.out = .lampChars l (code10s rd (frameChars (lampBytes s.sys.fe true 0 0x03 (toLE 1 0)))) :: s.out ∧
      Only [.lmp, .out, .free] s t) ∧
  (∀ (l : Nat) (cs : List Nat) (s : State), (frameOf cs).filter frameGood = none →
    exec (.lampReturnFrame l cs) s = .next { s with lmp := { s.lmp with crcRet := satAdd 0xFFFF s.lmp.crcRet 1 } }) ∧
  (∀ (l : Nat) (cs : List Nat) (f : Bytes) (w : LampWait) (s : State), frameOf cs = some f → frameGood f = true →
    fieldAt (f.take (f.length - 4)) 1 1 = 0x81 →
    (waitsOn s l).find? (fun x => x.type = 0x01 && x.pos = fieldAt (f.take (f.length - 4)) 0 1 % 16 &&
      ((f.take (f.length - 4)).drop 8).length = 4 && leNat ((f.take (f.length - 4)).drop 8) = frameCrc x.frame) = some w →
    ∃ t, exec (.lampReturnFrame l cs) s = .next t ∧ waitsOn t l = (waitsOn s l).erase w ∧
      driverAt t l w.pos = { driverAt s l w.pos with misses := 0 } ∧ t.lmp.echoMiss = s.lmp.echoMiss ∧ Only [.lmp] s t) ∧
  (∀ (l : Nat) (cs : List Nat) (f : Bytes) (w : LampWait) (s : State), frameOf cs = some f → frameGood f = true →
    fieldAt (f.take (f.length - 4)) 1 1 = 0x81 → (∀ x ∈ waitsOn s l, x.type = 0x01 → x.pos = w.pos →
      leNat ((f.take (f.length - 4)).drop 8) ≠ frameCrc x.frame) → fieldAt (f.take (f.length - 4)) 0 1 % 16 = w.pos →
    (waitsOn s l).find? (fun x => x.type = 0x01 && x.pos = w.pos) = some w → w.resent = false →
    ∃ (t : State) (rd : Bool), exec (.lampReturnFrame l cs) s = .next t ∧ t.lmp.echoMiss = satAdd 0xFFFF s.lmp.echoMiss 1 ∧
      waitsOn t l = (waitsOn s l).erase w ++ [{ w with resent := true }] ∧
      .lampChars l (code10s rd (frameChars w.frame)) ∈ t.out ∧
      Only [.lmp, .gz, .lin, .rings, .hif, .trc, .out, .free] s t) ∧
  (∀ (l p : Nat) (cs : List Nat) (f : Bytes) (w : LampWait) (s : State), frameOf cs = some f → frameGood f = true →
    fieldAt (f.take (f.length - 4)) 1 1 = 0x82 → fieldAt (f.take (f.length - 4)) 0 1 % 16 = p →
    (waitsOn s l).find? (fun x => x.type = 0x04 && x.pos = p) = some w → ((f.take (f.length - 4)).drop 8).length = 32 →
    ∃ t, exec (.lampReturnFrame l cs) s = .next t ∧ (driverAt t l p).lost = false ∧ (driverAt t l p).misses = 0 ∧
      (driverAt t l p).silent = false ∧ waitsOn t l = (waitsOn s l).erase w ∧
      (∀ c < (boxZones s.conf (driverBox s.conf l p)).length, (boxZones s.conf (driverBox s.conf l p)).Nodup →
        (bit (fieldAt ((f.take (f.length - 4)).drop 8) 2 30) c = true →
          aget t.gz.reports ((boxZones s.conf (driverBox s.conf l p)).getD c 0) = some true) ∧
        (bit (fieldAt ((f.take (f.length - 4)).drop 8) 2 30) c = false → (driverAt s l p).silent = true →
          aget t.gz.reports ((boxZones s.conf (driverBox s.conf l p)).getD c 0) = some false)) ∧
      Posts s t (if fieldAt ((f.take (f.length - 4)).drop 8) 0 1 % 8 = 0 then []
        else [event s 0x0604 1 [l, p, fieldAt ((f.take (f.length - 4)).drop 8) 0 1 % 8]]) ∧
      Only [.lmp, .gz, .rings, .hif, .out] s t) ∧
  (∀ (l p : Nat) (cs : List Nat) (f : Bytes) (s : State), frameOf cs = some f → frameGood f = true →
    fieldAt (f.take (f.length - 4)) 1 1 = 0x83 → fieldAt (f.take (f.length - 4)) 0 1 % 16 = p → aget s.lmp.probing l = some p →
    fieldAt ((f.take (f.length - 4)).drop 8) 0 1 = p → p + 1 < 16 →
    ∃ (t : State) (rd : Bool), exec (.lampReturnFrame l cs) s = .next t ∧ (driverAt t l p).found = true ∧
      aget t.lmp.probing l = some (p + 1) ∧
      .lampChars l (code10s rd (frameChars (lampBytes s.sys.fe true 0 0x03 (toLE 1 (p + 1))))) ∈ t.out ∧
      Only [.lmp, .out, .free] s t) ∧
  (∀ (l p : Nat) (cs : List Nat) (f : Bytes) (w : LampWait) (s : State), frameOf cs = some f → frameGood f = true →
    fieldAt (f.take (f.length - 4)) 1 1 = 0x83 → fieldAt (f.take (f.length - 4)) 0 1 % 16 = p → aget s.lmp.probing l = none →
    (waitsOn s l).find? (fun x => x.type = 0x03 && x.pos = p && x.again) = some w →
    ∃ t, exec (.lampReturnFrame l cs) s = .next t ∧ driverAt t l p = { driverAt s l p with lost := false, misses := 0 } ∧
      waitsOn t l = (waitsOn s l).erase w ∧ ((driverBox s.conf l p).present = false →
        ∃ rd, .lampChars l (code10s rd (frameChars (lampBytes s.sys.fe false p 0x06 []))) ∈ t.out) ∧ Only [.lmp, .out, .free] s t) ∧
  (∀ (l : Nat) (w : LampWait) (rest : List LampWait) (s : State), waitsOn s l = w :: rest → w.type = 0x01 → w.resent = false → driverLive s l w.pos = true → (driverAt s l w.pos).misses < 2 →
    ∃ (t : State) (rd : Bool), exec (.lampAnswerTimeout l) s = .next t ∧ t.lmp.echoMiss = satAdd 0xFFFF s.lmp.echoMiss 1 ∧
      (driverAt t l w.pos).misses = (driverAt s l w.pos).misses + 1 ∧ waitsOn t l = rest ++ [{ w with resent := true }] ∧
      t.out = .lampChars l (code10s rd (frameChars w.frame)) :: s.out ∧ Only [.lmp, .out, .free] s t) ∧
  (∀ (l : Nat) (w : LampWait) (rest : List LampWait) (s : State), waitsOn s l = w :: rest → w.type = 0x01 → w.resent = true →
    ∃ t, exec (.lampAnswerTimeout l) s = .next t ∧ t.lmp.echoMiss = satAdd 0xFFFF s.lmp.echoMiss 1 ∧ waitsOn t l = rest ∧
      (∃ u ∈ t.lmp.unechoed, u.1 = w.fe) ∧ Only [.lmp, .gz, .lin, .rings, .hif, .trc, .out, .free] s t) ∧
  (∀ (l : Nat) (w : LampWait) (rest : List LampWait) (s : State), waitsOn s l = w :: rest → w.type = 0x04 → driverLive s l w.pos = true → 2 ≤ (driverAt s l w.pos).misses →
    ∃ (t : State) (outcome : Nat), exec (.lampAnswerTimeout l) s = .next t ∧ (driverAt t l w.pos).lost = true ∧ waitsOn t l = rest ∧
      (∀ z ∈ boxZones s.conf (driverBox s.conf l w.pos), aget t.gz.reports z = some true) ∧
      Posts s t [event s 0x0602 2 [l, w.pos]] ∧ Logs s t 7 outcome l [w.pos] ∧
      Only [.lmp, .gz, .lin, .rings, .hif, .trc, .out, .free] s t) ∧
  (∀ (l : Nat) (w : LampWait) (rest : List LampWait) (s : State), waitsOn s l = w :: rest → w.type = 0x03 → w.again = false →
    aget s.lmp.probing l = some w.pos →
    ∃ t, exec (.lampAnswerTimeout l) s = .next t ∧ aget t.lmp.probing l = none ∧
      (∀ p < 16, (driverBox s.conf l p).present = true → (driverAt s l p).found = false →
        ∀ z ∈ boxZones s.conf (driverBox s.conf l p), aget t.gz.reports z = some true) ∧
      Posts s t [event s 0x0601 0 [l, (foundOn s l).length,
        ((List.range 16).filter (fun p => (driverBox s.conf l p).present && !((foundOn s l).contains p))).length]] ∧
      Only [.lmp, .gz, .rings, .hif, .trc, .out, .free] s t) ∧
  (∀ (l p : Nat) (s : State), l ∈ lanesLive s → p < 16 → (driverAt s l p).lost = true →
    ∃ t, exec .lampRediscoverTimer s = .next t ∧
      (∃ rd, .lampChars l (code10s rd (frameChars (lampBytes s.sys.fe true 0 0x03 (toLE 1 p)))) ∈ t.out) ∧
      (∃ rd, .lampChars l (code10s rd (frameChars (lampBytes s.sys.fe false p 0x04 []))) ∈ t.out) ∧
      (∃ w ∈ waitsOn t l, w.type = 0x04 ∧ w.pos = p ∧ w.again = true) ∧ Only [.lmp, .out, .free] s t)

/-! ## Temperatures and calibration -/

/-- R333 to R336, R404: a junction sample is kept, and at the warning limit reported once, until it is 5 °C below; at 112 °C a
watchdog reset begins; the engine clock steps down at the throttle limit and up again 5 °C below it; a panel sensor that is
enabled is read, its good reading makes it valid, a third bad poll invalid, and the field's cells follow the readings. In DORMANT neither
the clock nor the sensors act. Log entry 98: a sensor that is not enabled is not valid, which is posted as any change is. -/
def Obligations.TemperaturesAreFollowed : Prop :=
  (∀ (j : Int) (s : State), isRunning s = true → s.sys.stage ≠ .unpowered → s.pwr.fall = .idle → s.sys.heldStep = none → j < 1792 →
    ∃ t, exec (.thermalSample j) s = .next t ∧ t.thm = { s.thm with
        junction := j
        warn := decide (16 * (fget s.conf THM_LIMIT_WARN : Int) ≤ j)
          || (s.thm.warn && decide (16 * (fget s.conf THM_LIMIT_WARN : Int) - 80 < j)) } ∧
      ((∀ l v, aget s.cal.lastTemp l = some v → (j - v).natAbs ≤ 8 * fget s.conf CAL_CTRL_DT) →
        bit (guaranteeWord { s with thm := { s.thm with junction := j } }) 0 = s.flt.holds →
        Posts s t (if 16 * (fget s.conf THM_LIMIT_WARN : Int) ≤ j ∧ s.thm.warn = false then [event s 0x1401 1 [sfield 16 j]] else []) ∧
        Only [.thm, .rings, .hif, .out] s t) ∧
      Only [.thm, .cal, .flt, .rings, .hif, .trc, .out, .free] s t) ∧
  (∀ (j : Int) (s : State), isRunning s = true → s.sys.stage ≠ .unpowered → s.pwr.fall = .idle → s.sys.heldStep = none →
    s.sys.transit = none → 1792 ≤ j →
    ∃ t, exec (.thermalSample j) s = .next t ∧ t.sys.nextCause = { cause := 3, wdReason := 2 } ∧
      t.sys.transit.any (fun x => x.target = .boot) = true ∧ t.lin.store.isSome = true ∧ t.conf = s.conf) ∧
  (∀ s : State, s.sys.mode ≠ .dormant → 16 * (fget s.conf THM_LIMIT_THROTTLE : Int) ≤ s.thm.junction → 1200 < s.thm.clock →
    ∃ t, exec .engineClockStep s = .next t ∧ t.thm = { s.thm with clock := max 1200 (s.thm.clock - 100) } ∧
      Posts s t [event s 0x1402 1 [max 1200 (s.thm.clock - 100), sfield 16 s.thm.junction]] ∧ Only [.thm, .rings, .hif, .out] s t) ∧
  (∀ s : State, s.sys.mode ≠ .dormant → s.thm.junction < 16 * (fget s.conf THM_LIMIT_THROTTLE : Int) - 80 → s.thm.clock < 1800 →
    ∃ t, exec .engineClockStep s = .next t ∧ t.thm = { s.thm with clock := min 1800 (s.thm.clock + 100) } ∧
      Posts s t [event s 0x1402 1 [min 1800 (s.thm.clock + 100), sfield 16 s.thm.junction]] ∧ Only [.thm, .rings, .hif, .out] s t) ∧
  (∀ s : State, 16 * (fget s.conf THM_LIMIT_THROTTLE : Int) - 80 ≤ s.thm.junction →
    s.thm.junction < 16 * (fget s.conf THM_LIMIT_THROTTLE : Int) → exec .engineClockStep s = .next s) ∧
  (∀ (rs : List (Option (Byte × Byte))) (s : State), s.sys.mode ≠ .dormant → ∃ t, exec (.panelSensorPoll rs) s = .next t ∧
    (∀ k < 16, fbit s.conf (THM_SENSOR_EN k) = false → mget {} t.thm.sensors k = {}) ∧
    ((∀ k < 16, fbit s.conf (THM_SENSOR_EN k) = false) → Posts s t (((List.range 16).filter
      (fun k => (mget {} s.thm.sensors k).valid)).map (fun k => event s 0x1403 1 [k, 1]))) ∧
    (∀ k < 16, fbit s.conf (THM_SENSOR_EN k) = true → sensorRead s.conf k ∈ t.out) ∧
    (∀ k < 16, ∀ hi lo, fbit s.conf (THM_SENSOR_EN k) = true → rs.getD k none = some (hi, lo) → (sensorValue s k hi lo).2 = true →
      mget {} t.thm.sensors k = { valid := true, bad := 0, reading := (sensorValue s k hi lo).1 }) ∧
    (∀ k < 16, fbit s.conf (THM_SENSOR_EN k) = true →
      (rs.getD k none = none ∨ ∃ hi lo, rs.getD k none = some (hi, lo) ∧ (sensorValue s k hi lo).2 = false) →
      mget {} t.thm.sensors k = { mget {} s.thm.sensors k with
        valid := (mget {} s.thm.sensors k).valid && decide ((mget {} s.thm.sensors k).bad < 2)
        bad := min 3 ((mget {} s.thm.sensors k).bad + 1) }) ∧
    t.thm.field = (List.range 16).map (cellValue t) ∧ t.thm.junction = s.thm.junction ∧ Only [.thm, .rings, .hif, .out] s t) ∧
  (∀ (rs : List (Option (Byte × Byte))) (s : State), s.sys.mode = .dormant →
    exec .engineClockStep s = .next s ∧ exec (.panelSensorPoll rs) s = .next s)

/-- R337 to R340, R342, Tables 15.1 and 15.4: CAL_RUN begins on the lanes of its link, or waits while a run in progress covers
one of them; a lane's first measurement is kept, the second makes an entry of the nearest set where the two agree and lie in
range, and else rejects the lane, as a measurement without a result does; an accepted lane sets the goals anew; a run whose
lanes are done completes with what it accepted and rejected; a receiver that carries data adapts in a window that is dense and
balanced, which gives its measurement, and stays frozen in any other, which counts. Log entries: 98 (what the rules leave open
of runs) and 153 (the hundred windows are frozen ones). -/
def Obligations.CalibrationMeasuresTwice : Prop :=
  (∀ (sq : Nat) (r : Running) (j : CalJob) (s : State), ready s .pf0 sq 0x60 = some r → fieldAt r.raw 0x18 4 ≤ 3 → s.cal.waiting = [] →
    mayStart s { target := fieldAt r.raw 0x18 4, mask := fieldAt r.raw 0x1C 4, ring := some sq } = true →
    j = startedJob s { target := fieldAt r.raw 0x18 4, mask := fieldAt r.raw 0x1C 4, ring := some sq } → j.lanes ≠ [] →
    ∃ t, exec (.calRun sq) s = .next t ∧ Waits t .pf0 sq r 0 ∧ t.cal = { s.cal with jobs := s.cal.jobs ++ [j] } ∧
      Only [.rings, .cal] s t) ∧
  (∀ (sq : Nat) (r : Running) (s : State), ready s .pf0 sq 0x60 = some r → fieldAt r.raw 0x18 4 ≤ 3 → s.cal.jobs = [] →
    s.cal.waiting = [] → (startedJob s { target := fieldAt r.raw 0x18 4, mask := fieldAt r.raw 0x1C 4, ring := some sq }).lanes = [] →
    ∃ t, exec (.calRun sq) s = .next t ∧ Completed s t .pf0 sq r SUCCESS [0, 0] ∧ t.cal.jobs = [] ∧ t.cal.sets = s.cal.sets ∧
      Only [.rings, .hif, .cal, .trc, .out, .free] s t) ∧
  (∀ (sq : Nat) (r : Running) (j : CalJob) (s : State), ready s .pf0 sq 0x60 = some r → fieldAt r.raw 0x18 4 ≤ 3 →
    j = { target := fieldAt r.raw 0x18 4, mask := fieldAt r.raw 0x1C 4, ring := some sq } →
    (∀ x ∈ s.cal.waiting ++ [j], mayStart s x = false) →
    ∃ t, exec (.calRun sq) s = .next t ∧ Waits t .pf0 sq r 0 ∧ t.cal = { s.cal with waiting := s.cal.waiting ++ [j] } ∧
      Only [.rings, .cal] s t) ∧
  (∀ (lane : Nat) (m : CalMeasure) (j : CalJob) (v : List Int) (s : State), jobOf s lane = some j → laneStays s lane = true →
    measureDue j lane m = true → measured s lane m = .ok v → mget [] j.first lane = [] → (∀ x ∈ s.cal.jobs, x.lanes ≠ []) →
    ∃ t, exec (.calMeasurementDone lane m) s = .next t ∧
      t.cal = { s.cal with jobs := s.cal.jobs.map (fun x => if x.lanes.contains lane then
        { x with first := mput [] lane v x.first, stages := mput .waiting lane .waiting x.stages } else x) } ∧ Only [.cal] s t) ∧
  (∀ (lane : Nat) (m : CalMeasure) (j : CalJob) (a v r : List Int) (s : State), jobOf s lane = some j → laneStays s lane = true →
    measureDue j lane m = true → measured s lane m = .ok v → mget [] j.first lane = a → a ≠ [] → compareRuns lane a v = .ok r →
    (∀ x ∈ s.cal.jobs, x.lanes.filter (· ≠ lane) ≠ []) →
    ∃ t, exec (.calMeasurementDone lane m) s = .next t ∧
      t.cal.jobs = s.cal.jobs.map (fun x => if x.lanes.contains lane then doneLane lane true x else x) ∧
      t.cal.sets = aput (256 * nearestSet s.conf s.thm.junction + lane)
        { temp := s.thm.junction, rate := rateOf s lane, vals := r } s.cal.sets ∧
      t.cal.lastTemp = aput (linkOf lane) s.thm.junction s.cal.lastTemp ∧ t.cal.goalTemp = some s.thm.junction ∧
      t.cal.rejLanes = mput false lane false s.cal.rejLanes ∧ t.cal.taps = s.cal.taps ∧ Only [.cal, .lin, .out] s t) ∧
  (∀ (lane : Nat) (m : CalMeasure) (j : CalJob) (a v : List Int) (reason q : Nat) (s : State), jobOf s lane = some j →
    laneStays s lane = true → measureDue j lane m = true → measured s lane m = .ok v → mget [] j.first lane = a → a ≠ [] →
    compareRuns lane a v = .error (reason, q) → (∀ x ∈ s.cal.jobs, x.lanes.filter (· ≠ lane) ≠ []) →
    ∃ t, exec (.calMeasurementDone lane m) s = .next t ∧
      t.cal.jobs = s.cal.jobs.map (fun x => if x.lanes.contains lane then doneLane lane false x else x) ∧
      t.cal.sets = s.cal.sets ∧ mget false t.cal.rejLanes lane = true ∧ Posts s t [event s 0x0F02 1 [lane, reason, q]] ∧
      Only [.cal, .rings, .hif, .out] s t) ∧
  (∀ (lane e : Nat) (m : CalMeasure) (j : CalJob) (s : State), jobOf s lane = some j → laneStays s lane = true →
    measureDue j lane m = true → measured s lane m = .error e → (∀ x ∈ s.cal.jobs, x.lanes.filter (· ≠ lane) ≠ []) →
    ∃ (t : State) (q : Nat), exec (.calMeasurementDone lane m) s = .next t ∧
      t.cal.jobs = s.cal.jobs.map (fun x => if x.lanes.contains lane then doneLane lane false x else x) ∧
      t.cal.sets = s.cal.sets ∧ mget false t.cal.rejLanes lane = true ∧ Posts s t [event s 0x0F02 1 [lane, e, q]] ∧
      Only [.cal, .rings, .hif, .out, .free] s t) ∧
  (∀ (lane n : Nat) (m : CalMeasure) (j : CalJob) (rr : Running) (a v r : List Int) (s : State), s.cal.jobs = [j] →
    j.lanes.contains lane = true → laneStays s lane = true → measureDue j lane m = true → measured s lane m = .ok v →
    mget [] j.first lane = a → a ≠ [] → compareRuns lane a v = .ok r → j.lanes.filter (· ≠ lane) = [] → j.ring = some n →
    waitingOn s .pf0 n 0x60 = some rr → s.cal.waiting = [] →
    ∃ t, exec (.calMeasurementDone lane m) s = .next t ∧ t.cal.jobs = [] ∧
      Completed s t .pf0 n rr SUCCESS [linkSum (doneLane lane true j).accepted, linkSum (doneLane lane true j).rejected] ∧
      t.cal.sets = aput (256 * nearestSet s.conf s.thm.junction + lane)
        { temp := s.thm.junction, rate := rateOf s lane, vals := r } s.cal.sets ∧
      Only [.cal, .lin, .rings, .hif, .trc, .out, .free] s t) ∧
  (∀ (lane : Nat) (w : AdaptWindow) (s : State), 108 ≤ lane → lane < 132 → carriesData s lane = true →
    fget s.conf CAL_ADAPT_DENS ≤ w.density → fget s.conf CAL_ADAPT_BAL ≤ w.balance →
    ∃ t, exec (.adaptWindowEnd lane w) s = .next t ∧ mget {} t.cal.rx lane =
        { ctle := w.ctle, dfe := (List.range 8).map (fun i => w.dfe.getD i 0), frozen := false, resid := w.resid } ∧
      (∀ l, l ≠ lane → mget {} t.cal.rx l = mget {} s.cal.rx l) ∧
      t.cal = { s.cal with
        rx := t.cal.rx
        jobs := s.cal.jobs.map (fun x => if x.lanes.contains lane then
          if mget .waiting x.stages lane = .waiting then { x with stages := mput .waiting lane .committed x.stages } else x
          else x) } ∧
      Only [.cal] s t) ∧
  (∀ (lane : Nat) (w : AdaptWindow) (s : State), 108 ≤ lane → lane < 132 → carriesData s lane = true →
    w.density < fget s.conf CAL_ADAPT_DENS ∨ w.balance < fget s.conf CAL_ADAPT_BAL →
    ∃ t, exec (.adaptWindowEnd lane w) s = .next t ∧ mget {} t.cal.rx lane = { mget {} s.cal.rx lane with frozen := true } ∧
      (∀ l, l ≠ lane → mget {} t.cal.rx l = mget {} s.cal.rx l) ∧
      t.cal = { s.cal with
        rx := t.cal.rx
        jobs := s.cal.jobs.map (fun x => if x.lanes.contains lane then
          if mget .waiting x.stages lane = .waiting then
            { x with windows := mput 0 lane (min 100 (mget 0 x.windows lane + 1)) x.windows } else x
          else x) } ∧
      Only [.cal] s t) ∧
  (∀ (lane : Nat) (w : AdaptWindow) (s : State), carriesData s lane = false → exec (.adaptWindowEnd lane w) s = .next s)

/-! ## Gauze -/

/-- R142 to R144, R147, R148, R150, R359, R389: an engine takes its stripe's landed lines in order, and a line's pass counts each
pixel of the decimated grid in the bin of its demand, in its zone and stripe and nowhere else; a stripe that has passed every
line of a row merges it once, which adds its bins to the bank of an open row, saturating; the last stripe's merge gives the row
its targets; a merge of a row that is closed is dropped, counted; an engine that does not run does neither; halo messages fill
the rows of the frame they name. Log entries: 65 (a merge out of turn), 66 (rows that have not come), 11 (the trace of a halo
message's arrival). -/
def Obligations.StatisticsAreGathered : Prop :=
  (∀ (y k : Nat) (f : Frame) (c : Conf) (s : State), c = statsConf s → statsFrame s = some f → s.gz.opened = true → y < tH c → k < 192 →
    (idleStripes s).contains k = false → mget 0 s.gz.progress k = y → landed s f y = true → s.pwr.fall = .idle →
    ∃ t, exec (.statisticsPassLine y k) s = .next t ∧
      (∀ z st b, st < 192 → st ≠ k → b < 8 → mget 0 t.gz.scratch (scratchKey z st b) = mget 0 s.gz.scratch (scratchKey z st b)) ∧
      (y % 2 ^ fget c GZ_GRID_DECIM ≠ 0 → t.gz.scratch = s.gz.scratch) ∧
      (y % 2 ^ fget c GZ_GRID_DECIM = 0 → ∀ z b, b < 8 → mget 0 t.gz.scratch (scratchKey z k b) =
        mget 0 s.gz.scratch (scratchKey z k b) + ((stripeCols c k).filter (fun x => x % 2 ^ fget c GZ_GRID_DECIM = 0
          && zoneRowOf c y * gCols c + zoneColOf c x = z && demandBin c (demandAt c s.mem (passFrame s f y) x y) = b)).length) ∧
      t.gz = { s.gz with scratch := t.gz.scratch, progress := mput 0 k (y + 1) s.gz.progress } ∧ Only [.gz] s t) ∧
  (∀ (y k : Nat) (s : State), (idleStripes s).contains k = true ∨ mget 0 s.gz.progress k ≠ y →
    exec (.statisticsPassLine y k) s = .next s) ∧
  (∀ (row k fe : Nat) (c : Conf) (s : State), c = statsConf s → row < gRows c → k < 192 → (idleStripes s).contains k = false →
    rowOpen s row fe = true → rowTop c (row + 1) ≤ mget 0 s.gz.progress k → mget false s.gz.merged (192 * row + k) = false →
    mget 0 s.gz.merges row + 1 ≠ 192 →
    ∃ t, exec (.zoneStatsMerge row k fe) s = .next t ∧ mget 0 t.gz.merges row = mget 0 s.gz.merges row + 1 ∧
      mget false t.gz.merged (192 * row + k) = true ∧
      (∀ j ∈ stripeZones c k, ∀ b < 8, mget 0 t.gz.bank (8 * (row * gCols c + j) + b) =
        min 65535 (mget 0 s.gz.bank (8 * (row * gCols c + j) + b) + mget 0 s.gz.scratch (scratchKey (row * gCols c + j) k b))) ∧
      (∀ z b, b < 8 → (∀ j ∈ stripeZones c k, z ≠ row * gCols c + j) →
        mget 0 t.gz.bank (8 * z + b) = mget 0 s.gz.bank (8 * z + b)) ∧
      (∀ j ∈ stripeZones c k, ∀ b < 8, mget 0 t.gz.scratch (scratchKey (row * gCols c + j) k b) = 0) ∧
      t.gz.targets = s.gz.targets ∧ t.gz.statsLate = s.gz.statsLate ∧ Only [.gz] s t) ∧
  (∀ (row k fe : Nat) (c : Conf) (s : State), c = statsConf s → row < gRows c → k < 192 → (idleStripes s).contains k = false →
    rowOpen s row fe = true → rowTop c (row + 1) ≤ mget 0 s.gz.progress k → mget false s.gz.merged (192 * row + k) = false →
    mget 0 s.gz.merges row + 1 = 192 →
    ∃ t, exec (.zoneStatsMerge row k fe) s = .next t ∧
      (∀ j < gCols c, mget 0 t.gz.targets (row * gCols c + j) = targetOf c (zoneBins t.gz.bank (row * gCols c + j))) ∧
      (∀ z, z < row * gCols c ∨ (row + 1) * gCols c ≤ z → mget 0 t.gz.targets z = mget 0 s.gz.targets z) ∧
      t.gz.statsLate = s.gz.statsLate ∧ Only [.gz, .gng, .out] s t) ∧
  (∀ (row k fe : Nat) (s : State), row < gRows (statsConf s) → k < 192 → (idleStripes s).contains k = false → rowOpen s row fe = false →
    ∃ t, exec (.zoneStatsMerge row k fe) s = .next t ∧ t.gz.bank = s.gz.bank ∧ t.gz.merges = s.gz.merges ∧
      t.gz.statsLate = satAdd 255 s.gz.statsLate (stripeZones (statsConf s) k).length ∧ Only [.gz] s t) ∧
  (∀ (row k fe : Nat) (s : State), (idleStripes s).contains k = true ∨ (rowOpen s row fe = true ∧
      (mget 0 s.gz.progress k < rowTop (statsConf s) (row + 1) ∨ mget false s.gz.merged (192 * row + k) = true)) →
    exec (.zoneStatsMerge row k fe) s = .next s) ∧
  (∀ (p row : Nat) (ts : List Nat) (s : State), haloOn s p = true → row < gRows s.conf →
    ∃ t, exec (.haloTarget p s.gz.openFe row ts) s = .next t ∧
      (∀ d < (ts.take (fget s.conf GZ_SOLVER_RADIUS)).length, mget 0 t.gz.haloTarget (haloKey p row d) = ts.getD d 0 % 65536 + 1) ∧
      t.gz = { s.gz with haloTarget := t.gz.haloTarget } ∧ Only [.gz, .rings, .hif, .trc, .out, .free] s t) ∧
  (∀ (p fe row : Nat) (ts : List Nat) (s : State), haloOn s p = true → row < gRows s.conf → fe + 1 = s.gz.openFe →
    ∃ t, exec (.haloTarget p fe row ts) s = .next t ∧
      (∀ d < (ts.take (fget s.conf GZ_SOLVER_RADIUS)).length, mget 0 t.gz.haloTargetPrev (haloKey p row d) = ts.getD d 0 % 65536 + 1) ∧
      t.gz = { s.gz with haloTargetPrev := t.gz.haloTargetPrev } ∧ Only [.gz, .rings, .hif, .trc, .out, .free] s t) ∧
  (∀ (p row : Nat) (ls : List Nat) (s : State), haloOn s p = true → row < gRows s.conf →
    ∃ t, exec (.haloLevel p s.sys.fe row [ls]) s = .next t ∧
      (∀ d < (ls.take (fget s.conf GZ_SOLVER_RADIUS)).length, mget 0 t.gz.haloLevel (haloKey p row d) = ls.getD d 0 % 65536 + 1) ∧
      t.gz = { s.gz with haloLevel := t.gz.haloLevel } ∧ Only [.gz, .rings, .hif, .trc, .out, .free] s t) ∧
  (∀ (p fe row : Nat) (ls : List Nat) (s : State), haloOn s p = true → row < gRows s.conf → fe + 1 = s.sys.fe →
    ∃ t, exec (.haloLevel p fe row [ls]) s = .next t ∧
      (∀ d < (ls.take (fget s.conf GZ_SOLVER_RADIUS)).length, mget 0 t.gz.haloLevelPrev (haloKey p row d) = ls.getD d 0 % 65536 + 1) ∧
      t.gz = { s.gz with haloLevelPrev := t.gz.haloLevelPrev } ∧ Only [.gz, .rings, .hif, .trc, .out, .free] s t)

/-- R152, R153, R155, R159, R160, R162, R166, R167: a run of zone rows commits once its rows are delivered and the reconstruction
ring has room, each zone's level before becoming its previous one and dead zones dark, and no other row changes; at a zone
row's tick every row up to it is committed; overrides arm for a frame two ahead, with their levels or without; ZONE_READ waits
for the next frame tick; an armed override takes effect at the frame tick of its FE, and of its zones alone; a range past the grid, and a SELECT above 2, is BAD_PARAM. Log entries: 38 (residual of a dead zone
outside the window), 40 (rows delivered together), 62 (LEVELS to lost drivers). -/
def Obligations.ZonesCommitAndTakeOverrides : Prop :=
  (∀ s : State, gauzeOn s = true → s.gz.rowsDone < gRows s.conf → commitReady s s.gz.rowsDone = true →
    ringRoom s s.gz.rowsDone (runOf s.conf s.gz.rowsDone).2 = true →
    ∃ t, exec .zoneCommit s = .next t ∧ t.gz.rowsDone = (runOf s.conf s.gz.rowsDone).2 + 1 ∧ t.gz.forced = s.gz.forced ∧
      (∀ z ∈ zonesOf s.conf s.gz.rowsDone (runOf s.conf s.gz.rowsDone).2, (zoneAt t.gz z).prev = (zoneAt s.gz z).committed ∧
        (zoneAt t.gz z).gain = (zoneAt s.gz z).gain ∧ ((zoneAt s.gz z).dead = true → (zoneAt t.gz z).committed = 0)) ∧
      (∀ z, z ∉ zonesOf s.conf s.gz.rowsDone (runOf s.conf s.gz.rowsDone).2 → zoneAt t.gz z = zoneAt s.gz z) ∧
      Only [.gz, .lmp, .gng, .trc, .rings, .hif, .out, .free] s t) ∧
  (∀ (row : Nat) (s : State), gauzeOn s = true → row < gRows s.conf →
    ∃ t, exec (.zoneRowTick row) s = .next t ∧ row < t.gz.rowsDone ∧ s.gz.rowsDone ≤ t.gz.rowsDone ∧
      Only [.gz, .lmp, .gng, .trc, .rings, .hif, .out, .free] s t) ∧
  (∀ (row : Nat) (s : State), row < s.gz.rowsDone → exec (.zoneRowTick row) s = .next s) ∧
  (∀ (sq fe : Nat) (data : Rd) (r : Running) (s : State), ready s .pf0 sq 0x50 = some r → busMaster s .pf0 = true →
    bit (fieldAt r.raw 0x30 4) 0 = false → zoneRangeBad s.conf (fieldAt r.raw 0x18 4) (fieldAt r.raw 0x1C 4) = none →
    armFe s.sys.fe (fieldAt r.raw 0x28 8) 2 = some fe → data.ok = true → 2 * fieldAt r.raw 0x1C 4 ≤ data.bytes.length →
    ∃ t, exec (.zoneOverride sq data) s = .next t ∧ Completed s t .pf0 sq r SUCCESS [fieldAt r.raw 0x1C 4] ∧
      t.gz = { s.gz with arms := s.gz.arms ++ [{ fe, first := fieldAt r.raw 0x18 4, count := fieldAt r.raw 0x1C 4
                                                 levels := some ((words16 data.bytes).take (fieldAt r.raw 0x1C 4)) }] } ∧
      Only [.gz, .rings, .hif, .trc, .out, .free] s t) ∧
  (∀ (sq fe : Nat) (r : Running) (s : State), ready s .pf0 sq 0x50 = some r → bit (fieldAt r.raw 0x30 4) 0 = true →
    zoneRangeBad s.conf (fieldAt r.raw 0x18 4) (fieldAt r.raw 0x1C 4) = none → armFe s.sys.fe (fieldAt r.raw 0x28 8) 2 = some fe →
    ∃ t, exec (.zoneOverrideClear sq) s = .next t ∧ Completed s t .pf0 sq r SUCCESS [fieldAt r.raw 0x1C 4] ∧
      t.gz = { s.gz with arms := s.gz.arms ++ [{ fe, first := fieldAt r.raw 0x18 4, count := fieldAt r.raw 0x1C 4, levels := none }] } ∧
      Only [.gz, .rings, .hif, .trc, .out, .free] s t) ∧
  (∀ (sq : Nat) (data : Rd) (r : Running) (s : State), ready s .pf0 sq 0x50 = some r → busMaster s .pf0 = true →
    bit (fieldAt r.raw 0x30 4) 0 = false → zoneRangeBad s.conf (fieldAt r.raw 0x18 4) (fieldAt r.raw 0x1C 4) = none →
    armFe s.sys.fe (fieldAt r.raw 0x28 8) 2 = none → data.ok = true →
    ∃ t, exec (.zoneOverride sq data) s = .next t ∧ Completed s t .pf0 sq r ARM_LATE [] ∧ Only [.rings, .hif, .trc, .out, .free] s t) ∧
  (∀ (sq : Nat) (r : Running) (s : State), ready s .pf0 sq 0x51 = some r →
    zoneRangeBad s.conf (fieldAt r.raw 0x18 4) (fieldAt r.raw 0x1C 4) = none → fieldAt r.raw 0x28 4 ≤ 2 →
    ∃ t, exec (.zoneRead sq) s = .next t ∧ Waits t .pf0 sq r s.sys.fe ∧
      t.gz = { s.gz with copies := mput none sq none s.gz.copies } ∧ Only [.rings, .gz] s t) ∧
  (∀ (sq o : Nat) (data : Rd) (r : Running) (s : State), zoneRangeBad s.conf (fieldAt r.raw 0x18 4) (fieldAt r.raw 0x1C 4) = some o →
    (ready s .pf0 sq 0x51 = some r →
      ∃ t, exec (.zoneRead sq) s = .next t ∧ Completed s t .pf0 sq r BAD_PARAM [o] ∧ Only [.rings, .hif, .trc, .out, .free] s t) ∧
    (ready s .pf0 sq 0x50 = some r → bit (fieldAt r.raw 0x30 4) 0 = true →
      ∃ t, exec (.zoneOverrideClear sq) s = .next t ∧ Completed s t .pf0 sq r BAD_PARAM [o] ∧ Only [.rings, .hif, .trc, .out, .free] s t) ∧
    (ready s .pf0 sq 0x50 = some r → bit (fieldAt r.raw 0x30 4) 0 = false → busMaster s .pf0 = true → data.ok = true →
      ∃ t, exec (.zoneOverride sq data) s = .next t ∧ Completed s t .pf0 sq r BAD_PARAM [o] ∧ Only [.rings, .hif, .trc, .out, .free] s t)) ∧
  (∀ (sq : Nat) (r : Running) (s : State), ready s .pf0 sq 0x51 = some r →
    zoneRangeBad s.conf (fieldAt r.raw 0x18 4) (fieldAt r.raw 0x1C 4) = none → 2 < fieldAt r.raw 0x28 4 →
    ∃ t, exec (.zoneRead sq) s = .next t ∧ Completed s t .pf0 sq r BAD_PARAM [0x28] ∧ Only [.rings, .hif, .trc, .out, .free] s t) ∧
  (∀ (a : OverrideArm) (s : State), ownFrameTick s = true → changeDue s = false → s.gng.arms = [] → s.gz.arms = [a] →
    a.fe ≤ s.sys.fe + 1 →
    ∃ t, exec .frameTick s = .next t ∧ t.gz.arms = [] ∧
      (∀ k < a.count, (zoneAt t.gz (a.first + k)).override = a.levels.map (fun l => l.getD k 0)) ∧
      (∀ z, z < a.first ∨ a.first + a.count ≤ z → (zoneAt t.gz z).override = (zoneAt s.gz z).override)) ∧
  (∀ (a : OverrideArm) (s : State), ownFrameTick s = true → changeDue s = false → s.gng.arms = [] → s.gz.arms = [a] →
    s.sys.fe + 1 < a.fe →
    ∃ t, exec .frameTick s = .next t ∧ t.gz.arms = [a] ∧ ∀ z, (zoneAt t.gz z).override = (zoneAt s.gz z).override)

/-! ## Ingest -/

/-- R109 to R112, R102, R103, R105, R107, R113, Tables 5.4, 5.11: a header that Table 5.4 accepts opens its slot and no other, and
one that it drops is counted and closes the slot; payload bytes that the slot accepts land behind the header and complete the band
when as many have come as the header says, present unless its CRC or its memory fails, and other payload changes no memory; the
data of a band read are in staging, or fail with one PULL_ERROR for each frame, or are discarded where the band was abandoned, and
RELEASED is posted when no read is left; at its deadline a band that is present is shown and one that is not is substituted line
by line from the frame before. Log entries: 52 and 53 (header bytes and guarded slots), 60 (bands without a layer), 76 (a
payload length that is not the band's), 77 (the stream of a band not latched yet), 131 (the CRC is of module memory), 24 (AER
of a failed read), 11 (trace). -/
def Obligations.BandsArePushedReadAndJudged : Prop :=
  (∀ (slot : Nat) (h : Bytes) (stream : Option Nat) (s : State), hostUp s = true → judgeHeader s slot (h.take 32) = none →
    streamOk s (fieldAt (h.take 32) 8 8) (bits (fieldAt (h.take 32) 2 1) 0 2) (secureStream s stream) = true →
    isPoisoned s (slotAddr s.conf slot / 4096) = false →
    ∃ t, exec (.pushHeaderCommit slot h stream) s = .next t ∧ (pushSlotOf t slot).used = true ∧
      (pushSlotOf t slot).accepts = decide (0 < fieldAt (h.take 32) 4 4) ∧ (pushSlotOf t slot).count = 0 ∧
      (pushSlotOf t slot).complete = decide (fieldAt (h.take 32) 4 4 = 0) ∧
      (pushSlotOf t slot).layer = bits (fieldAt (h.take 32) 2 1) 0 2 ∧ (pushSlotOf t slot).band = fieldAt (h.take 32) 0 2 ∧
      (pushSlotOf t slot).fe = fieldAt (h.take 32) 8 8 ∧ (pushSlotOf t slot).len = fieldAt (h.take 32) 4 4 ∧
      (pushSlotOf t slot).crcEn = bit (fieldAt (h.take 32) 2 1) 2 ∧ (pushSlotOf t slot).crc = fieldAt (h.take 32) 0x10 4 ∧
      t.ing = { s.ing with
        pushNext := (slot + 1) % max 1 (pushSlots s.conf)
        resync := false
        push := t.ing.push } ∧
      (∀ k, k ≠ slot → pushSlotOf t k = pushSlotOf s k) ∧
      (∀ k < (h.take 32).length, mget 0 t.mem.bytes (slotAddr s.conf slot + k) = (h.take 32).getD k 0) ∧
      (∀ a, a < slotAddr s.conf slot ∨ slotAddr s.conf slot + (h.take 32).length ≤ a →
        mget 0 t.mem.bytes a = mget 0 s.mem.bytes a) ∧
      Only [.hif, .rings, .ing, .mem, .lin, .sec, .out, .free] s t) ∧
  (∀ (slot : Nat) (h : Bytes) (stream : Option Nat) (s : State), hostUp s = true → judgeHeader s slot (h.take 32) = none →
    streamOk s (fieldAt (h.take 32) 8 8) (bits (fieldAt (h.take 32) 2 1) 0 2) (secureStream s stream) = false →
    exec (.pushHeaderCommit slot h stream) s = .next (setPush slot { pushSlotOf s slot with accepts := false } s)) ∧
  (∀ (slot : Nat) (h : Bytes) (stream : Option Nat) (d : PushDrop) (begins : Bool) (s : State), hostUp s = true →
    judgeHeader s slot (h.take 32) = some (d, begins) →
    ∃ t, exec (.pushHeaderCommit slot h stream) s = .next t ∧ pushSlotOf t slot = { pushSlotOf s slot with accepts := false } ∧
      (∀ k, k ≠ slot → pushSlotOf t k = pushSlotOf s k) ∧
      t.ing = { countDrop d s.ing with
        resync := s.ing.resync || begins
        push := t.ing.push } ∧
      Posts s t (if begins && !s.ing.resync then [event s 0x0302 1
        [fieldAt (h.take 32) 8 4, fieldAt (h.take 32) 0 2, bits (fieldAt (h.take 32) 2 1) 0 2]] else []) ∧
      Only [.ing, .rings, .hif, .out] s t) ∧
  (∀ (slot off : Nat) (d : Bytes) (stream : Option Nat) (s : State), hostUp s = true → slot < pushSlots s.conf →
    (pushSlotOf s slot).used = true → (pushSlotOf s slot).accepts = true → off < (pushSlotOf s slot).len →
    d.length ≤ (pushSlotOf s slot).len - off →
    streamOk s (pushSlotOf s slot).fe (pushSlotOf s slot).layer (secureStream s stream) = true →
    (∀ p ∈ pagesOf (slotAddr s.conf slot + 4096 + off) d.length, isPoisoned s p = false) →
    ∃ t, exec (.pushPayloadWrite slot off d stream) s = .next t ∧ (pushSlotOf t slot).used = true ∧
      (pushSlotOf t slot).count = (pushSlotOf s slot).count + d.length ∧
      ((pushSlotOf s slot).count + d.length < (pushSlotOf s slot).len → (pushSlotOf t slot).accepts = true ∧
        (pushSlotOf t slot).complete = (pushSlotOf s slot).complete) ∧
      ((pushSlotOf s slot).len ≤ (pushSlotOf s slot).count + d.length → (pushSlotOf t slot).accepts = false ∧
        ((pushSlotOf t slot).complete = true ↔ (pushSlotOf s slot).crcEn = false ∨
          (firstPoisoned s (slotAddr s.conf slot + 4096) (pushSlotOf s slot).len = none ∧
            crc32c (readMem t (slotAddr s.conf slot + 4096) (pushSlotOf s slot).len) = (pushSlotOf s slot).crc))) ∧
      (∀ k < d.length, mget 0 t.mem.bytes (slotAddr s.conf slot + 4096 + off + k) = d.getD k 0) ∧
      (∀ a, a < slotAddr s.conf slot + 4096 + off ∨ slotAddr s.conf slot + 4096 + off + d.length ≤ a →
        mget 0 t.mem.bytes a = mget 0 s.mem.bytes a) ∧
      (∀ k, k ≠ slot → pushSlotOf t k = pushSlotOf s k) ∧ Only [.hif, .rings, .ing, .mem, .lin, .sec, .trc, .out, .free] s t) ∧
  (∀ (slot off : Nat) (d : Bytes) (stream : Option Nat) (s : State), hostUp s = true →
    (pushSlots s.conf ≤ slot ∨ (pushSlotOf s slot).accepts = false ∨ (pushSlotOf s slot).len ≤ off ∨
      streamOk s (pushSlotOf s slot).fe (pushSlotOf s slot).layer (secureStream s stream) = false) →
    ∃ t, exec (.pushPayloadWrite slot off d stream) s = .next t ∧ t.ing = { s.ing with push := t.ing.push } ∧
      (∀ k, pushSlotOf t k = { pushSlotOf s k with onStream := (pushSlotOf t k).onStream }) ∧
      Only [.hif, .rings, .ing, .sec, .trc, .out, .free] s t) ∧
  (∀ (r : ReadRef) (data : Rd) (f : Frame) (l : Layer) (s : State), s.pwr.fall = .idle → s.ing.owed.any (awaits r) = false →
    s.ing.shown = some f →
    f.host = true → f.fe = r.fe →
    (frameBands f).find? (fun p => p.1 = r.layer && p.2.1 = r.band && p.2.2.source = 0) = some (r.layer, r.band, l) →
    bandStatus f r.layer r.band = .reading → readWhole l r.band data = true →
    ∃ (t : State) (g : Frame), exec (.hostReadCompletion r data) s = .next t ∧ t.ing.shown = some g ∧
      bandStatus g r.layer r.band = .present ∧ g.contents = (onOwn (stageBand r.layer l r.band data.bytes) f).contents ∧
      g.substituted = f.substituted ∧ (f.released = false → (g.released = true ↔ readsLeft g = false)) ∧
      Posts s t [] ∧ Only [.ing, .rings, .hif, .trc, .out, .free] s t) ∧
  (∀ (r : ReadRef) (data : Rd) (f : Frame) (l : Layer) (s : State), s.pwr.fall = .idle → s.ing.owed.any (awaits r) = false →
    s.ing.shown = some f →
    f.host = true → f.fe = r.fe →
    (frameBands f).find? (fun p => p.1 = r.layer && p.2.1 = r.band && p.2.2.source = 0) = some (r.layer, r.band, l) →
    bandStatus f r.layer r.band = .reading → readWhole l r.band data = false →
    ∃ (t : State) (g : Frame), exec (.hostReadCompletion r data) s = .next t ∧ t.ing.shown = some g ∧
      bandStatus g r.layer r.band = .failed ∧ g.contents = f.contents ∧ g.substituted = f.substituted ∧
      (f.released = false → (g.released = true ↔ readsLeft g = false)) ∧
      Posts s t (if f.pullError then [] else [{ event s 0x0304 2 [r.layer, r.band, DMA_ERROR] with fe := r.fe }]) ∧
      Only [.ing, .rings, .hif, .trc, .out, .free] s t) ∧
  (∀ (r : ReadRef) (data : Rd) (f : Frame) (l : Layer) (s : State), s.pwr.fall = .idle → s.ing.owed.any (awaits r) = false →
    s.ing.shown = some f →
    f.host = true → f.fe = r.fe →
    (frameBands f).find? (fun p => p.1 = r.layer && p.2.1 = r.band && p.2.2.source = 0) = some (r.layer, r.band, l) →
    bandStatus f r.layer r.band = .abandoned →
    ∃ (t : State) (g : Frame), exec (.hostReadCompletion r data) s = .next t ∧ t.ing.shown = some g ∧
      bandStatus g r.layer r.band = .substituted ∧ g.contents = f.contents ∧ g.substituted = f.substituted ∧
      (f.released = false → (g.released = true ↔ readsLeft g = false)) ∧ Only [.ing, .rings, .hif, .trc, .out, .free] s t) ∧
  (∀ (r : BandRef) (f : Frame) (l : Layer) (s : State), s.ing.shown = some f →
    (bandsDue s f).filter (fun p => p.1 = r.layer && p.2.1 = r.band) = [(r.layer, r.band, l)] → l.source ≠ 1 →
    bandStatus f r.layer r.band = .present →
    ∃ (t : State) (g : Frame), exec (.bandDeadline r) s = .next t ∧ t.ing.shown = some g ∧ bandStatus g r.layer r.band = .shown ∧
      g = { f with bands := g.bands } ∧ t.ing = { s.ing with shown := some g } ∧ Only [.ing, .rings, .hif, .trc, .out, .free] s t) ∧
  (∀ (r : BandRef) (f : Frame) (l : Layer) (k : Nat) (p : PushSlot) (s : State), s.ing.shown = some f →
    (bandsDue s f).filter (fun p => p.1 = r.layer && p.2.1 = r.band) = [(r.layer, r.band, l)] → l.source = 1 →
    slotFor s f r.layer r.band = some (k, p) → slotPresent l r.band p = true →
    ∃ (t : State) (g : Frame), exec (.bandDeadline r) s = .next t ∧ t.ing.shown = some g ∧ bandStatus g r.layer r.band = .shown ∧
      g.contents = (stagePush (slotAddr s.conf k + 4096) r.layer r.band l s f).contents ∧ g.substituted = f.substituted ∧
      t.ing.underruns = s.ing.underruns ∧
      pushSlotOf t k = { p with readTo := some (engineSlot s.conf (l.dstY + (bandRows l r.band).2)) } ∧
      (∀ j, j ≠ k → pushSlotOf t j = pushSlotOf s j) ∧ t.mem.bytes = s.mem.bytes ∧
      Only [.ing, .mem, .lin, .rings, .hif, .trc, .out, .free] s t) ∧
  (∀ (r : BandRef) (f : Frame) (l : Layer) (s : State), s.ing.shown = some f →
    (bandsDue s f).filter (fun p => p.1 = r.layer && p.2.1 = r.band) = [(r.layer, r.band, l)] →
    (l.source ≠ 1 → bandStatus f r.layer r.band ≠ .present) →
    (l.source = 1 → ∀ k p, slotFor s f r.layer r.band = some (k, p) → slotPresent l r.band p = false) →
    ∃ (t : State) (g : Frame), exec (.bandDeadline r) s = .next t ∧ t.ing.shown = some g ∧
      bandStatus g r.layer r.band = (if bandStatus f r.layer r.band = .reading then .abandoned else .substituted) ∧
      (∀ y, l.dstY + (bandRows l r.band).1 ≤ y → y < l.dstY + (bandRows l r.band).2 →
        (∀ ct, s.ing.prev.bind (fun q => lineContent q y) = some ct → lineContent g y = some ct) ∧
        (s.ing.prev.bind (fun q => lineContent q y) = none → mget 0 g.lineFrom y = 2 ^ 32)) ∧
      (∀ y, y < l.dstY + (bandRows l r.band).1 ∨ l.dstY + (bandRows l r.band).2 ≤ y →
        mget 0 g.lineFrom y = mget 0 f.lineFrom y) ∧
      g.substituted = f.substituted + 1 ∧ t.ing.underruns = s.ing.underruns + 1 ∧
      t.ing.firstUnder = (if s.ing.underruns = 0 then r.band else s.ing.firstUnder) ∧ 
      (s.sys.mode ≠ .dormant → s.sys.mode ≠ .boot → t.tmg.evPins.getLsbD 3 = true) ∧
      Only [.hif, .rings, .ing, .tmg, .mem, .lin, .trc, .out, .free] s t) ∧
  (∀ (r : BandRef) (s : State),
    (∀ f, s.ing.shown = some f → (bandsDue s f).filter (fun p => p.1 = r.layer && p.2.1 = r.band) = []) →
    exec (.bandDeadline r) s = .next s)

/-- R65, R72, R111, R293, R298, R300, R306, R381: BAR4 reaches plain module memory: a read answers its bytes, unwritten pages
as zero, and changes nothing else, and a write changes the bytes it names and no other; a protected page, the reserved space and
the push window read as zeros, and the first two refuse a write; a read that meets a poisoned page answers its data poisoned; a
poisoned write is dropped and reported through AER. Log entries: 24 (AER), 53 (guarded slots), 73 (byte-wise error pages), 8 (an
access outside the window). -/
def Obligations.Bar4ReachesModuleMemory : Prop :=
  (∀ (off n : Nat) (s : State), hostUp s = true → off + n ≤ 2 ^ s.hif.bar4Log2 →
    (∀ p ∈ pagesOf (bar4Addr s off) n, reachOf s p = .plain ∧ isPoisoned s p = false) →
    exec (.bar4Read off n) s = .next (emit [.bar4Reply (readMem s (bar4Addr s off) n) false] s)) ∧
  (∀ (off n : Nat) (s : State), hostUp s = true → off + n ≤ 2 ^ s.hif.bar4Log2 →
    (∀ p ∈ pagesOf (bar4Addr s off) n, reachOf s p ≠ .plain) →
    ∃ t, exec (.bar4Read off n) s = .next t ∧ t.out.head? = some (.bar4Reply (List.replicate n 0) false) ∧
      t.mem = { s.mem with reservedPosted := t.mem.reservedPosted } ∧
      Only [.hif, .rings, .mem, .sec, .trc, .out, .free] s t) ∧
  (∀ (off n : Nat) (s : State), hostUp s = true → off + n ≤ 2 ^ s.hif.bar4Log2 →
    (∃ p ∈ pagesOf (bar4Addr s off) n, reachOf s p = .plain ∧ isPoisoned s p = true) →
    ∃ (t : State) (d : Bytes), exec (.bar4Read off n) s = .next t ∧ t.out.head? = some (.bar4Reply d true) ∧ d.length = n ∧
      t.mem.bytes = s.mem.bytes ∧ Only [.hif, .rings, .mem, .lin, .sec, .trc, .out, .free] s t) ∧
  (∀ (off : Nat) (d : Bytes) (s : State), hostUp s = true → off + d.length ≤ 2 ^ s.hif.bar4Log2 →
    (∀ p ∈ pagesOf (bar4Addr s off) d.length, reachOf s p = .plain ∧ isPoisoned s p = false) →
    ∃ t, exec (.bar4Write off d false) s = .next t ∧
      (∀ k < d.length, mget 0 t.mem.bytes (bar4Addr s off + k) = d.getD k 0) ∧
      (∀ a, a < bar4Addr s off ∨ bar4Addr s off + d.length ≤ a → mget 0 t.mem.bytes a = mget 0 s.mem.bytes a) ∧
      (∀ p ∈ pagesOf (bar4Addr s off) d.length, isWritten t p = true) ∧ Only [.mem] s t) ∧
  (∀ (off : Nat) (d : Bytes) (s : State), hostUp s = true → off + d.length ≤ 2 ^ s.hif.bar4Log2 →
    (∀ p ∈ pagesOf (bar4Addr s off) d.length, reachOf s p = .reserved ∨ reachOf s p = .guarded) →
    ∃ t, exec (.bar4Write off d false) s = .next t ∧ t.mem = { s.mem with reservedPosted := t.mem.reservedPosted } ∧
      Only [.hif, .rings, .mem, .sec, .trc, .out, .free] s t) ∧
  (∀ (off : Nat) (d : Bytes) (s : State), hostUp s = true →
    ∃ t, exec (.bar4Write off d true) s = .next t ∧ t.hif.cfg0.aerUnc = s.hif.cfg0.aerUnc ||| BitVec.ofNat 32 (2 ^ 12) ∧
      Only [.hif, .out, .free] s t) ∧
  (∀ (off n : Nat) (d : Bytes) (s : State), hostUp s = true →
    (2 ^ s.hif.bar4Log2 < off + n → exec (.bar4Read off n) s = .next s) ∧
    (2 ^ s.hif.bar4Log2 < off + d.length → exec (.bar4Write off d false) s = .next s))

/-! ## The scan -/

/-- R38, R212, R215, R171, R136, R117, R133, R198, R220, R245, Table 6.8: a frame tick begins the next frame at slot 0 with FE one higher
(a tile that adopts another part's FE apart, R363); a line tick that is no frame tick begins the next slot of the same frame; a
settle point fixes the next FT, and the scan after it is a settle refresh unless something was latched; a lamp cycle repeats, with
CYC and CYCLE on every lane, when CYCLE_LINES ticks have passed; a stripe that misses the weaver goes by the lite path and is
counted. On the pixel path, the engines leave the line of their slot with its plain, history, pre-dither and final codes; the
emission slot of a line sends its packet on every ACTIVE port, writes its overdrive history and adds its codes to its band's DC
sums; a full refresh turns each band's polarity, slips apart, and takes its dither phase. Log entries: 116 (what a line tick
handles of its own), 101 (frames without a decision slot), 99 (DC sums), 3 (disparity on the lamp lanes), 11 (trace). -/
def Obligations.TicksMoveTheScan : Prop :=
  (∀ s : State, ownFrameTick s = true →
    ∃ t, exec .frameTick s = .next t ∧ t.sys.fe = s.sys.fe + 1 ∧ t.tmg.slot = 0 ∧ t.tmg.fresh = false ∧ t.tmg.running = true) ∧
  (∀ s : State, s.tmg.running = false ∨ s.tmg.nextFt ≠ some (s.tmg.slot + 1) → exec .frameTick s = .next s) ∧
  (∀ (env : LineEnv) (s : State), s.tmg.running = true → s.tmg.fresh = false → s.tmg.nextFt ≠ some (s.tmg.slot + 1) →
    ∃ t, exec (.lineTick env) s = .next t ∧ t.tmg.slot = s.tmg.slot + 1 ∧ t.tmg.running = true ∧ t.sys.fe = s.sys.fe ∧
      t.sys.mode = s.sys.mode ∧
      Only [.sys, .hif, .rings, .ing, .pix, .gz, .lmp, .od, .tmg, .pnl, .twl, .cue, .mem, .lin, .cal, .gng, .sec, .flt, .trc, .out, .free] s t) ∧
  (∀ (env : LineEnv) (s : State), s.tmg.running = true → s.tmg.fresh = true → s.tmg.nextFt ≠ some (s.tmg.slot + 1) →
    ∃ t, exec (.lineTick env) s = .next t ∧ t.tmg.slot = s.tmg.slot + 1 ∧ t.tmg.running = true ∧ Only [.tmg, .twl, .gng] s t) ∧
  (∀ (env : LineEnv) (s : State), s.tmg.running = false ∨ s.tmg.nextFt = some (s.tmg.slot + 1) → exec (.lineTick env) s = .next s) ∧
  (∀ (table : Rd) (s : State), s.sys.mode = .live → stopping s = false → s.tmg.running = true → s.tmg.fresh = false →
    hasTiming s.conf = true → tFixed s.conf = false → fbit s.conf OD_CTRL_SETTLE_EN = true → s.od.settle = false →
    s.tmg.nextFt = none → s.tmg.settled = false → s.tmg.slot = max (decisionSlot s.conf) (usSlots s.conf ((3 * s.od.pred + 1) / 2)) →
    ownStarts s = true →
    ∃ t, exec (.settlePoint table) s = .next t ∧ t.tmg.settled = true ∧ t.tmg.latched = true ∧
      t.od.settleNext = (t.ing.coming.isNone && t.cue.coming.isNone) ∧
      (s.ing.cands = [] → s.ing.coming = none → s.cue.coming = none → s.cue.arm = none → t.od.settleNext = true) ∧
      t.tmg.nextFt = some (ftAfterStart (endQuiet s)) ∧ t.tmg.slot = s.tmg.slot ∧ t.sys.mode = s.sys.mode) ∧
  (∀ (table : Rd) (s : State), s.sys.mode ≠ .live ∨ s.tmg.running = false ∨ s.tmg.fresh = true ∨ tFixed s.conf = true ∨
    fbit s.conf OD_CTRL_SETTLE_EN = false ∨ s.od.settle = true ∨ s.tmg.nextFt ≠ none ∨ s.tmg.settled = true ∨ ownStarts s = false ∨
    s.tmg.slot ≠ max (decisionSlot s.conf) (usSlots s.conf ((3 * s.od.pred + 1) / 2)) →
    exec (.settlePoint table) s = .next s) ∧
  (∀ s : State, s.tmg.running = true → s.tmg.fresh = false → fbit s.conf LMP_CTRL_EN = true → 0 < cycleLines s.conf →
    s.lmp.ticks = cycleLines s.conf →
    ∃ t, exec .lampRepeatCycle s = .next t ∧ t.lmp.ticks = 0 ∧ t.lmp.dark = s.lmp.dark ∧
      (∀ l ∈ lanesLive s, ∃ rd, .lampChars l (code10s rd (lampCyc ::
        frameChars (lampBytes s.sys.fe true 0 0x05 (toLE 1 (1 + 2 * b2n s.lmp.dark))))) ∈ t.out) ∧
      Only [.lmp, .out, .free] s t) ∧
  (∀ s : State, s.tmg.running = false ∨ s.tmg.fresh = true ∨ fbit s.conf LMP_CTRL_EN = false ∨ cycleLines s.conf = 0 ∨
    s.lmp.ticks ≠ cycleLines s.conf → exec .lampRepeatCycle s = .next s) ∧
  (∀ (y k : Nat) (pd hd : Bool) (s : State), s.pwr.fall = .idle → s.pix.lines.any (fun p => p.1 = y) = true → k < 192 →
    mget false s.pix.lite (65536 * k + y) = false →
    ∃ t, exec (.weaverCutoff y k pd hd) s = .next t ∧
      mget {} t.pix.lines y = litePath s.conf (mget {} s.pix.lines y) k pd hd ∧ (mget {} t.pix.lines y).subst.contains k = true ∧
      (∀ z, z ≠ y → mget {} t.pix.lines z = mget {} s.pix.lines z) ∧
      t.pix.late = some (match s.pix.late with | some (n, l0, k0) => (n + 1, l0, k0) | none => (1, y, k)) ∧
      t.pix.litePlain = satAdd 0xFFFF s.pix.litePlain (b2n pd) ∧ t.pix.liteHist = satAdd 0xFF s.pix.liteHist (b2n (!pd && hd)) ∧
      t.pix.liteBlack = satAdd 0xFF s.pix.liteBlack (b2n (!pd && !hd)) ∧ Only [.pix, .trc, .rings, .hif, .out, .free] s t) ∧
  (∀ (y k : Nat) (pd hd : Bool) (s : State), s.pwr.fall ≠ .idle ∨ s.pix.lines.any (fun p => p.1 = y) = false ∨ 192 ≤ k ∨
      mget false s.pix.lite (65536 * k + y) = true →
    exec (.weaverCutoff y k pd hd) s = .next s) ∧
  (∀ (env : LineEnv) (y : Nat) (f : Frame) (s : State), steadyTick env s = true → s.ing.shown = some f → bandsDue s f = [] →
    engineLineNow s = some y → lineOfSlot s.conf (s.tmg.slot + 1) ≠ some y → fbit s.conf GZ_CTRL_EN = false →
    noneBad s.mem = true → idleStripes s = [] →
    ∃ t, exec (.lineTick env) s = .next t ∧ mget {} t.pix.lines y = engineLine s f y) ∧
  (∀ (env : LineEnv) (y k : Nat) (b : LineBuf) (s : State), steadyTick env s = true →
    (∀ f, s.ing.shown = some f → bandsDue s f = []) →
    (engineLineNow s = none ∨ (noneBad s.mem = true ∧ idleStripes s = [] ∧ engineLineNow s ≠ some y)) → s.ing.push = [] →
    s.pnl.discharging = false → fbit s.conf GZ_CTRL_EN = false → lineOfSlot s.conf (s.tmg.slot + 1) = some y → emits s y = true → b = mget {} s.pix.lines y →
    k = bandOfLine s.conf y → (∀ j < 64, bandTop s.conf (j + 1) ≠ y) →
    ∃ t, exec (.lineTick env) s = .next t ∧ mget {} t.pix.lines y = {} ∧
      (∀ p ∈ sendingPorts s, .twillPacket p.1 (packetBytes (lineHead s y (portSubst s.conf p.2 b)) (colPar p.2) (codeBits s.conf)
        (portCodes p.2 b.codes)) ∈ t.out) ∧
      (sendingPorts s ≠ [] →
        readMem t (histAddr s.conf 0 y) (historyBytes s y b).length = historyBytes s y b) ∧
      dcBand t k = { stepAcc (dcBand s k) with
        sum := (dcBand s k).sum + b.codes.sum
        count := (dcBand s k).count + b.codes.length }) ∧
  (∀ (k : Nat) (pi temporal : Bool) (s : State), ownFrameTick s = true → changeDue s = false → s.gng.arms = [] →
    s.sys.mode = .live → s.sys.transit = none → s.cue.coming = none → s.cue.arm = none → s.tmg.latched = true →
    s.tmg.fresh = false → s.pnl.state = .on → islandBlind s = false → hasTiming s.conf = true → 0 < tVstart s.conf → k < 64 →
    pi = (if slips s.conf (dcBand s k) then (dcBand s k).pi else !(dcBand s k).pi) →
    temporal = (fbit s.conf PIX_DITHER_TEMPORAL && !(isHeld s (frameClocks s))) →
    ∃ t, exec .frameTick s = .next t ∧
      dcBand t k = { stepAcc { dcBand s k with pi := pi } with
        sum := 0
        count := 0 } ∧
      mget 0 t.pix.phase k = (if temporal then mget 0 s.pix.q (2 * k + b2n pi) else 0) ∧
      mget 0 t.pix.q (2 * k + b2n pi) = (if temporal then (mget 0 s.pix.q (2 * k + b2n pi) + 1) % 4 else mget 0 s.pix.q (2 * k + b2n pi)))

/-! ## Gingham -/

/-- R345, R348, R362, Table 16.2: a port locks, deskews, probes its latency and greets, each step in its turn; HELLO with the
coordinates it faces brings it up and asks for measurements, and others send it to wait 10 ms; a port that fails or goes down
waits as well and then starts again, and a follower that loses its last way to its timekeeper is an island; HELLO is repeated on
every port that greets or is up. Log entries: 17 (what chapter 16 leaves open), 156 and 157 (islands), 11 (trace). -/
def Obligations.WallPortsComeUp : Prop :=
  (∀ (p : Nat) (s : State), (gngPort s p).state = .lock →
    ∃ t, exec (.ginghamPortBringup p .symbolLock) s = .next t ∧ gngPort t p = { gngPort s p with state := .deskew } ∧
      (∀ q, q ≠ p → gngPort t q = gngPort s q) ∧ Only [.gng, .rings, .hif, .trc, .out, .free] s t) ∧
  (∀ (p : Nat) (s : State), (gngPort s p).state = .deskew →
    ∃ t, exec (.ginghamPortBringup p .deskew) s = .next t ∧ gngPort t p = { gngPort s p with state := .probe } ∧
      .gngFrame p (gngWire (gngBytes s 0x02 0 [])) ∈ t.out ∧ (∀ q, q ≠ p → gngPort t q = gngPort s q) ∧
      Only [.gng, .rings, .hif, .trc, .out, .free] s t) ∧
  (∀ (p : Nat) (s : State),
    ((gngPort s p).state ≠ .lock → exec (.ginghamPortBringup p .symbolLock) s = .next s) ∧
    ((gngPort s p).state ≠ .deskew → exec (.ginghamPortBringup p .deskew) s = .next s)) ∧
  (∀ (p us : Nat) (s : State), (gngPort s p).state = .probe ∨ (gngPort s p).state = .greeting ∨ (gngPort s p).state = .up →
    ∃ t, exec (.latProbe p us) s = .next t ∧ .gngFrame p (gngWire (gngBytes s 0x03 0 (toLE 4 us))) ∈ t.out ∧
      (∀ q, gngPort t q = gngPort s q) ∧ Only [.gng, .rings, .hif, .trc, .out, .free] s t) ∧
  (∀ (p rt turn : Nat) (s : State), (gngPort s p).state = .probe →
    ∃ t, exec (.latEcho p rt turn) s = .next t ∧ gngPort t p = { gngPort s p with
        state := .greeting
        latency := (rt - turn) / 2 % 65536 } ∧
      .gngFrame p (gngWire (gngBytes s 0x01 0 (helloPayload s))) ∈ t.out ∧ (∀ q, q ≠ p → gngPort t q = gngPort s q) ∧
      Only [.gng, .rings, .hif, .trc, .out, .free] s t) ∧
  (∀ (p rt turn : Nat) (s : State), (gngPort s p).state ≠ .probe → exec (.latEcho p rt turn) s = .next (seen p s)) ∧
  (∀ (p src : Nat) (m : HelloMsg) (s : State), (gngPort s p).state = .greeting → faced s.conf p = ((m.x : Int), (m.y : Int)) →
    ∃ t, exec (.hello p src m) s = .next t ∧ (gngPort t p).state = .up ∧ (gngPort t p).hello = some (src, m) ∧
      (gngPort t p).nonce.isSome = true ∧ (∀ q, q ≠ p → gngPort t q = gngPort s q) ∧
      (s.pwr.fall = .idle → eventsFlow s .pf0 = false → (eqOf s.rings .pf0).pend.length < 256 →
        event s 0x1004 0 [p, 0, src] ∈ (eqOf t.rings .pf0).pend) ∧ Only [.gng, .cal, .rings, .hif, .trc, .out, .free] s t) ∧
  (∀ (p src : Nat) (m : HelloMsg) (s : State), (gngPort s p).state = .greeting → faced s.conf p ≠ ((m.x : Int), (m.y : Int)) →
    ∃ t, exec (.hello p src m) s = .next t ∧ gngPort t p = { gngPort s p with
        state := .backoff
        hello := none } ∧
      (∀ q, q ≠ p → gngPort t q = gngPort s q) ∧ Posts s t [event s 0x1004 0 [p, 1, src]] ∧ Only [.gng, .rings, .hif, .trc, .out, .free] s t) ∧
  (∀ (p src : Nat) (m : HelloMsg) (s : State), (gngPort s p).state = .up →
    ∃ t, exec (.hello p src m) s = .next t ∧ (gngPort t p).state = .up ∧ (gngPort t p).hello = some (src, m) ∧
      (∀ q, q ≠ p → gngPort t q = gngPort s q) ∧ Only [.gng, .cal, .rings, .hif, .trc, .out, .free] s t) ∧
  (∀ (p src : Nat) (m : HelloMsg) (s : State), (gngPort s p).state ≠ .greeting → (gngPort s p).state ≠ .up →
    exec (.hello p src m) s = .next (seen p s)) ∧
  (∀ s : State, ∃ t, exec .helloTimer s = .next t ∧
    (∀ p < 4, (gngPort s p).state = .greeting ∨ (gngPort s p).state = .up →
      ∃ b, .gngFrame p (gngWire b) ∈ t.out ∧ fieldAt b 0 1 = 0x01 ∧ (b.drop 8).take 25 = helloPayload s) ∧
    (∀ q, gngPort t q = gngPort s q) ∧ Only [.gng, .out] s t) ∧
  (∀ (p : Nat) (s : State), (gngPort s p).state ≠ .up → (gngPort s p).state ≠ .disabled → (gngPort s p).state ≠ .backoff →
    ∃ t, exec (.ginghamBringupTimeout p) s = .next t ∧ (gngPort t p).state = .backoff ∧
      (∀ q, q ≠ p → gngPort t q = gngPort s q) ∧ Only [.gng, .rings, .hif, .trc, .out, .free] s t) ∧
  (∀ (p : Nat) (s : State), (gngPort s p).state = .up →
    exec (.ginghamBringupTimeout p) s = .next s ∧
    ∃ t, exec (.ginghamPortDown p) s = .next t ∧ (gngPort t p).state = .backoff ∧ (gngPort t p).hello = none ∧
      (∀ q, q ≠ p → gngPort t q = gngPort s q) ∧
      (s.pwr.fall = .idle → eventsFlow s .pf0 = false → (eqOf s.rings .pf0).pend.length < 256 → event s 0x1003 2 [p] ∈ (eqOf t.rings .pf0).pend) ∧
      (follows s = true → s.gng.adopt = none → (∀ q ∈ upPorts s, q ≠ p → ∀ h, (gngPort s q).hello = some h →
        h.2.timekeeper ≠ s.gng.tk ∨ 63 ≤ h.2.hops) →
        t.gng.role = .island ∧ t.gng.tk = tileIndex s.conf ∧ t.gng.islandDue = true ∧
        t.gng.lostTk = (if s.gng.role = .island then s.gng.lostTk.or (some s.gng.tk) else some s.gng.tk)) ∧
      (follows s = false → s.gng.role ≠ .joining → s.gng.adopt = none → t.gng.role = s.gng.role ∧ t.gng.tk = s.gng.tk) ∧
      (s.gng.role = .joining → t.gng.role = .joining ∧ ((∀ q ∈ upPorts s, q = p) → t.gng.tk = tileIndex s.conf)) ∧
      Only [.gng, .cal, .rings, .hif, .trc, .out, .free] s t) ∧
  (∀ (p : Nat) (s : State), (gngPort s p).state = .backoff →
    ∃ t, exec (.ginghamRetryTimer p) s = .next t ∧ gngPort t p = { gngPort s p with state := .lock } ∧
      (∀ q, q ≠ p → gngPort t q = gngPort s q) ∧ Only [.gng] s t) ∧
  (∀ (p : Nat) (s : State), (gngPort s p).state ≠ .backoff → exec (.ginghamRetryTimer p) s = .next s)

/-- R349 to R351, R353, R355, R361, R374, Table 16.2: when its wait ends, a tile that hears a running part follows it, one whose
neighbours elected another timekeeper follows that, and else an eligible tile is its own timekeeper and one that is not an island;
a follower forwards its upstream marker to its other ports and takes it, and no other; a new digest is forwarded, one that differs
sets its tile's SKEW bit and one that agrees clears it, and the first and the last are reported; measurements are answered, signed,
under the nonce asked with, and judged by the pinned key and the named slots. Log entries: 17 (the history of digests, a MEAS
without the nonce outstanding), 11 (trace of what arrives). -/
def Obligations.TheWallKeepsTimeAndTrust : Prop :=
  (∀ (p : Nat) (m : HelloMsg) (s : State), s.gng.role = .joining → runningPart s = some (p, m) →
    ∃ t, exec .ginghamJoinTimeout s = .next t ∧ t.gng.role = .follower ∧ t.gng.tk = m.timekeeper ∧ t.gng.upstream = p ∧
      t.gng.hops = m.hops + 1 ∧ t.gng.adopt = some (m.timekeeper, m.fe) ∧ t.tmg = { s.tmg with
        running := true
        fresh := true
        slot := 0
        nextFt := if hasTiming s.conf then none else some 1 } ∧ Only [.gng, .tmg] s t) ∧
  (∀ s : State, s.gng.role = .joining → runningPart s = none → s.gng.tk ≠ tileIndex s.conf →
    ∃ t, exec .ginghamJoinTimeout s = .next t ∧ t.gng = { s.gng with role := .follower } ∧ t.tmg = { s.tmg with
        running := true
        fresh := true
        slot := 0
        nextFt := if hasTiming s.conf then none else some 1 } ∧ Only [.gng, .tmg] s t) ∧
  (∀ s : State, s.gng.role = .joining → runningPart s = none → s.gng.tk = tileIndex s.conf → eligible s = true →
    ∃ t, exec .ginghamJoinTimeout s = .next t ∧ t.gng = { s.gng with
        role := .timekeeper
        upstream := 0
        hops := 0
        latency := 0 } ∧
      t.tmg = { s.tmg with
        running := true
        fresh := true
        slot := 0
        nextFt := some 1 } ∧ Only [.gng, .tmg] s t) ∧
  (∀ s : State, s.gng.role = .joining → runningPart s = none → s.gng.tk = tileIndex s.conf → eligible s = false →
    ∃ t, exec .ginghamJoinTimeout s = .next t ∧ t.gng.role = .island ∧ t.tmg.running = true ∧ t.tmg.nextFt = some 1 ∧
      Posts s t [event s 0x1005 2 [(partTiles s).length, tileIndex s.conf]] ∧ Only [.gng, .tmg, .rings, .hif, .out] s t) ∧
  (∀ s : State, s.gng.role ≠ .joining → exec .ginghamJoinTimeout s = .next s) ∧
  (∀ (p : Nat) (s : State), (follows s = true ∨ s.gng.adopt ≠ none) → p = s.gng.upstream → (upPorts s).contains p = true →
    ∃ t, exec (.tickMarker p) s = .next t ∧
      (∀ q ∈ upPorts s, q ≠ p → .gngTick q tickLevels ∈ t.out) ∧
      (s.tmg.nextFt = none → hasTiming s.conf = true →
        (s.tmg.fresh = true ∨ tVstart s.conf + tH s.conf ≤ ftOfMarker s) → t.gng.marked = true) ∧
      t.gng = { s.gng with marked := t.gng.marked } ∧ Only [.gng, .rings, .hif, .trc, .out, .free] s t) ∧
  (∀ (p : Nat) (s : State), p ≠ s.gng.upstream ∨ (upPorts s).contains p = false ∨ (follows s = false ∧ s.gng.adopt = none) →
    exec (.tickMarker p) s = .next (seen p s)) ∧
  (∀ (p src n fe v d : Nat) (s : State), (upPorts s).contains p = true → src ≠ tileIndex s.conf →
    (mget 0 s.gng.seqs (256 * 0x04 + src) = 0 ∨ newerSeq n (mget 0 s.gng.seqs (256 * 0x04 + src) - 1) = true) →
    s.gng.history.find? (fun h => h.1 = fe) = some (fe, d) → d ≠ v →
    ∃ t, exec (.digest p src n fe v) s = .next t ∧ t.gng.skew = s.gng.skew ||| BitVec.ofNat 64 (2 ^ src) ∧ t.gng.arms = s.gng.arms ∧
      (∀ q ∈ upPorts s, q ≠ p → .gngFrame q (gngWire (floodBytes 0x04 src n (toLE 8 fe ++ toLE 8 v))) ∈ t.out) ∧
      (s.gng.skew = 0 → ∀ q ∈ upPorts s, (gngPort s q).hello.any (fun h => h.1 = src) = true → (gngPort t q).nonce.isSome = true) ∧
      (∀ q, gngPort t q = { gngPort s q with nonce := (gngPort t q).nonce }) ∧
      Posts s t (if s.gng.skew = 0 then [{ event s 0x1001 2 [src, v % 2 ^ 32] with fe }] else []) ∧
      Only [.gng, .rings, .hif, .trc, .out, .free] s t) ∧
  (∀ (p src n fe v : Nat) (s : State), (upPorts s).contains p = true → src ≠ tileIndex s.conf →
    (mget 0 s.gng.seqs (256 * 0x04 + src) = 0 ∨ newerSeq n (mget 0 s.gng.seqs (256 * 0x04 + src) - 1) = true) →
    s.gng.history.find? (fun h => h.1 = fe) = some (fe, v) →
    ∃ t, exec (.digest p src n fe v) s = .next t ∧ t.gng.skew = s.gng.skew &&& ~~~(BitVec.ofNat 64 (2 ^ src)) ∧
      t.gng.arms = s.gng.arms ∧ (∀ q, gngPort t q = gngPort s q) ∧
      Posts s t (if s.gng.skew ≠ 0 ∧ t.gng.skew = 0 then [event s 0x1002 0 []] else []) ∧ Only [.gng, .rings, .hif, .trc, .out, .free] s t) ∧
  (∀ (p src n fe v : Nat) (s : State), (upPorts s).contains p = true → src ≠ tileIndex s.conf →
    (mget 0 s.gng.seqs (256 * 0x04 + src) = 0 ∨ newerSeq n (mget 0 s.gng.seqs (256 * 0x04 + src) - 1) = true) →
    s.gng.history.find? (fun h => h.1 = fe) = none →
    ∃ t, exec (.digest p src n fe v) s = .next t ∧ t.gng.skew = s.gng.skew ∧ (∀ q, gngPort t q = gngPort s q) ∧
      (∀ q ∈ upPorts s, q ≠ p → .gngFrame q (gngWire (floodBytes 0x04 src n (toLE 8 fe ++ toLE 8 v))) ∈ t.out) ∧
      Only [.gng, .rings, .hif, .trc, .out, .free] s t) ∧
  (∀ (p src n fe v : Nat) (s : State), (upPorts s).contains p = true → (src = tileIndex s.conf ∨
    (mget 0 s.gng.seqs (256 * 0x04 + src) ≠ 0 ∧ newerSeq n (mget 0 s.gng.seqs (256 * 0x04 + src) - 1) = false)) →
    exec (.digest p src n fe v) s = .next (seen p (hearTile src p s))) ∧
  (∀ (p src n fe v : Nat) (s : State), (upPorts s).contains p = false → exec (.digest p src n fe v) s = .next (seen p s)) ∧
  (∀ (p : Nat) (nonce : Bytes) (s : State), (gngPort s p).state = .up ∨ (gngPort s p).state = .greeting →
    ∃ t, exec (.measReq p nonce) s = .next t ∧ .gngFrame p (gngWire (gngBytes s 0x0C 0
        (measPayload (nonce, BitVec.ofNat 8 s.sec.fuses.lifecycle, (List.range 8).map (measSlot s),
          Config.ecdsaSign (deviceKey s).1 (measDigest nonce (BitVec.ofNat 8 s.sec.fuses.lifecycle)
            ((List.range 8).map (measSlot s))))))) ∈ t.out ∧
      (∀ q, gngPort t q = gngPort s q) ∧ Only [.gng, .rings, .hif, .trc, .out, .free] s t) ∧
  (∀ (p : Nat) (nonce sig : Bytes) (life : Byte) (slots : List Bytes) (verified differ : Nat) (s : State),
    (upPorts s).contains p = true →
    verified = (if mget [] s.sec.pins p = [] then 2
      else b2n ((gngPort s p).nonce = some nonce && Config.ecdsaOk (mget [] s.sec.pins p) (measDigest nonce life slots) sig)) →
    differ = ofBits ((bitList (fget s.conf GNG_CTRL_MEAS_MASK) 8).filter (fun k => slots.getD k [] ≠ measSlot s k)) →
    ∃ t, exec (.meas p nonce life slots sig) s = .next t ∧ gngPort t p = { gngPort s p with
        meas := some (nonce, life, slots, sig)
        verified := verified
        nonce := none } ∧
      (∀ q, q ≠ p → gngPort t q = gngPort s q) ∧
      Posts s t (if verified = 0 ∨ differ ≠ 0 then [event s 0x1105 2 [p, verified, differ]] else []) ∧
      Only [.gng, .rings, .hif, .trc, .out, .free] s t) ∧
  (∀ (p : Nat) (nonce sig : Bytes) (life : Byte) (slots : List Bytes) (s : State),
    ((upPorts s).contains p = false → exec (.meas p nonce life slots sig) s = .next (seen p s)) ∧
    ((gngPort s p).state ≠ .up → (gngPort s p).state ≠ .greeting → exec (.measReq p nonce) s = .next (seen p s)))

/-! ## Trace and firmware -/

/-- R384, R369, R426, R378, Table 17.8: TRACE_CFG grants the level asked for up to the one permitted now, with its sources, and a
change of level extends slot 6; TRC_EN# starts and stops the commas of the trace lanes and nothing else; FW_UPDATE keeps an image that verifies in the slot
it names, marks the slot invalid otherwise, and leaves the other slot alone; the running slot is busy; data that cannot be read
change neither; in the recovery monitor an image that verifies ends it with a watchdog reset. Log entries: 14 (one byte extends slot 6), 125 (a read that fails leaves the slot; the reset's
reason). -/
def Obligations.TraceIsGrantedAndFirmwareKept : Prop :=
  (∀ (sq grant : Nat) (r : Running) (s : State), ready s .pf1 sq 0x78 = some r → grant = min (fieldAt r.raw 0x18 4) (permitted s) →
    ∃ t, exec (.traceCfg sq) s = .next t ∧ Completed s t .pf1 sq r SUCCESS [grant] ∧
      t.sec = { s.sec with
        level := grant
        sources := BitVec.ofNat 11 (fieldAt r.raw 0x1C 4)
        slots := t.sec.slots } ∧
      (∀ k, k ≠ 6 → measSlot t k = measSlot s k) ∧
      measSlot t 6 = (if grant = s.sec.level then measSlot s 6 else Config.sha384 (measSlot s 6 ++ toLE 1 grant)) ∧
      Only [.sec, .rings, .hif, .trc, .out, .free] s t) ∧
  (∀ (low : Bool) (s : State), s.sys.mode ≠ .dormant → s.sys.stage ≠ .unpowered → low ≠ s.trc.enLow →
    exec (.trcEnChange low) s = .next { s with
      trc := { s.trc with enLow := low }
      out := .traceIdle (if low then traceComma else []) :: s.out }) ∧
  (∀ (low : Bool) (s : State), s.sys.mode = .dormant ∨ s.sys.stage = .unpowered ∨ low = s.trc.enLow →
    exec (.trcEnChange low) s = .next { s with trc := { s.trc with enLow := low } }) ∧
  (∀ (sq : Nat) (data : Rd) (r : Running) (img : Bytes) (s : State), ready s .pf1 sq 0x87 = some r → busMaster s .pf1 = true →
    s.sys.stage ≠ .recovery → s.sys.imageB ≠ bit (fieldAt r.raw 0x18 4) 0 → data.ok = true →
    fieldAt r.raw 0x28 4 ≤ data.bytes.length → img = data.bytes.take (fieldAt r.raw 0x28 4) →
    ∃ t, exec (.fwUpdate sq data) s = .next t ∧ Completed s t .pf1 sq r SUCCESS [b2n (imageFault s.sec.fuses img).isNone] ∧
      (if bit (fieldAt r.raw 0x18 4) 0 then t.bst.imageB else t.bst.imageA) =
        (if (imageFault s.sec.fuses img).isNone then some img else none) ∧
      (if bit (fieldAt r.raw 0x18 4) 0 then t.bst.imageA = s.bst.imageA else t.bst.imageB = s.bst.imageB) ∧
      t.bst.retireLog = s.bst.retireLog ∧ Only [.bst, .rings, .hif, .trc, .out, .free] s t) ∧
  (∀ (sq : Nat) (data : Rd) (r : Running) (img : Bytes) (s : State), ready s .pf1 sq 0x87 = some r → busMaster s .pf1 = true →
    s.sys.stage = .recovery → data.ok = true → fieldAt r.raw 0x28 4 ≤ data.bytes.length →
    img = data.bytes.take (fieldAt r.raw 0x28 4) →
    ∃ t, exec (.fwUpdate sq data) s = .next t ∧
      (if bit (fieldAt r.raw 0x18 4) 0 then t.bst.imageB else t.bst.imageA) =
        (if (imageFault s.sec.fuses img).isNone then some img else none) ∧
      (if bit (fieldAt r.raw 0x18 4) 0 then t.bst.imageA = s.bst.imageA else t.bst.imageB = s.bst.imageB) ∧
      (imageFault s.sec.fuses img = none → t.sys.nextCause.cause = 3 ∨ t.sys.cause.cause = 3) ∧
      (imageFault s.sec.fuses img ≠ none → Completed s t .pf1 sq r SUCCESS [0] ∧ Only [.bst, .rings, .hif, .trc, .out, .free] s t)) ∧
  (∀ (sq : Nat) (data : Rd) (r : Running) (s : State), ready s .pf1 sq 0x87 = some r → busMaster s .pf1 = true →
    s.sys.stage ≠ .recovery → s.sys.imageB = bit (fieldAt r.raw 0x18 4) 0 →
    ∃ t, exec (.fwUpdate sq data) s = .next t ∧ Completed s t .pf1 sq r RESOURCE_BUSY [] ∧
      Only [.rings, .hif, .trc, .out, .free] s t) ∧
  (∀ (sq n : Nat) (data : Rd) (r : Running) (s : State), ready s .pf1 sq 0x87 = some r → busMaster s .pf1 = true →
    slotRuns s (bit (fieldAt r.raw 0x18 4) 0) = false → n = fieldAt r.raw 0x28 4 → data.ok = false ∨ data.bytes.length < n →
    ∃ t, exec (.fwUpdate sq data) s = .next t ∧ Completed s t .pf1 sq r DMA_ERROR [min n data.bytes.length] ∧
      Only [.rings, .hif, .trc, .out, .free] s t)
end

