-- ==== Sys2Proof/Laws/Maps.lean ====
section
/-!
SUPPORT. The laws of sparse maps: what a read after a write gives, and that every operation keeps the canonical form
(keys strictly rising, no entry equal to the default).
-/
namespace Sys2Proof.Laws
open Sys2Proof.Machine

variable {α : Type}

/-! ## Reading after writing -/

theorem mget_aput (d : α) (k j : Nat) (v : α) (m : SMap α) : mget d (aput k v m) j = if j = k then v else mget d m j := by
  induction m with
  | nil =>
    simp only [aput, mget]
    by_cases h : j = k
    · subst h; simp
    · have h' : ¬ k = j := fun e => h e.symm
      simp [h, h']
  | cons p r ih =>
    obtain ⟨i, w⟩ := p
    simp only [aput]
    split
    · simp only [mget]
      by_cases h : j = k
      · subst h; simp
      · have h' : ¬ k = j := fun e => h e.symm
        simp [h, h']
    · split
      · rename_i h2; subst h2; simp only [mget]
        by_cases h : j = i
        · subst h; simp
        · have h' : ¬ i = j := fun e => h e.symm
          simp [h, h']
      · rename_i h2; simp only [mget, ih]
        by_cases h : j = k
        · subst h; simp [h2]
        · simp [h]

/-- A map with entries struck out by key reads the default there and as before elsewhere. -/
theorem mget_filter (d : α) (f : Nat → Bool) (m : SMap α) (k : Nat) :
    mget d (m.filter (fun p => f p.1)) k = if f k then mget d m k else d := by
  induction m with
  | nil => simp [mget]
  | cons p r ih =>
    obtain ⟨j, w⟩ := p
    simp only [List.filter_cons]
    split
    · rename_i hf; simp only [mget, ih]
      by_cases h : j = k
      · subst h; simp [hf]
      · simp [h]
    · rename_i hf; rw [ih]; simp only [mget]
      by_cases h : j = k
      · subst h; simp [hf]
      · simp [h]

/-- What a key reads as after a write. -/
theorem mget_mput [DecidableEq α] (d : α) (k j : Nat) (v : α) (m : SMap α) :
    mget d (mput d k v m) j = if j = k then v else mget d m j := by
  unfold mput
  split
  · rename_i h; subst h
    have := mget_filter v (fun i => decide (i ≠ k)) m j
    rw [this]; by_cases hj : j = k <;> simp [hj]
  · exact mget_aput d k j v m

@[simp] theorem mget_mput_same [DecidableEq α] (d : α) (k : Nat) (v : α) (m : SMap α) : mget d (mput d k v m) k = v := by
  simp [mget_mput]

theorem mget_mput_other [DecidableEq α] (d : α) {k j : Nat} (v : α) (m : SMap α) (h : j ≠ k) :
    mget d (mput d k v m) j = mget d m j := by
  simp [mget_mput, h]

/-- Writing a run and reading one key. -/
theorem mget_mputs [DecidableEq α] (d : α) (k : Nat) (l : List α) (m : SMap α) (j : Nat) :
    mget d (mputs d k l m) j = if k ≤ j ∧ j < k + l.length then l.getD (j - k) d else mget d m j := by
  induction l generalizing k m with
  | nil => simp only [mputs, List.length_nil]; rw [if_neg (by omega)]
  | cons v l ih =>
    simp only [mputs, List.length_cons]
    rw [ih]
    by_cases hj : j = k
    · subst hj
      rw [if_neg (by omega), if_pos (by omega), mget_mput_same]; simp
    · rw [mget_mput_other d v m hj]
      by_cases h2 : k + 1 ≤ j ∧ j < k + 1 + l.length
      · rw [if_pos h2, if_pos (by omega)]
        obtain ⟨i, rfl⟩ : ∃ i, j = k + 1 + i := ⟨j - (k + 1), by omega⟩
        have e1 : k + 1 + i - (k + 1) = i := by omega
        have e2 : k + 1 + i - k = i + 1 := by omega
        rw [e1, e2]; rfl
      · rw [if_neg h2, if_neg (by omega)]

/-- Writing the same value under every key of a list. -/
theorem mget_mputAll_const [DecidableEq α] (d v : α) (l : List Nat) (m : SMap α) (j : Nat) :
    mget d (mputAll d (l.map (fun p => (p, v))) m) j = if j ∈ l then v else mget d m j := by
  induction l generalizing m with
  | nil => simp [mputAll]
  | cons k l ih =>
    simp only [List.map_cons, mputAll]
    rw [ih]
    by_cases hj : j = k
    · subst hj; simp
    · simp [mget_mput_other d v m hj, hj]

theorem mget_mclear (d : α) (lo hi : Nat) (m : SMap α) (k : Nat) :
    mget d (mclear lo hi m) k = if lo ≤ k ∧ k < hi then d else mget d m k := by
  have h := mget_filter d (fun j => decide (j < lo) || decide (hi ≤ j)) m k
  unfold mclear
  rw [h]
  by_cases hk : lo ≤ k ∧ k < hi
  · rw [if_neg, if_pos hk]; simp only [Bool.or_eq_true, decide_eq_true_eq]; omega
  · rw [if_pos, if_neg hk]; simp only [Bool.or_eq_true, decide_eq_true_eq]; omega

theorem mget_mkeep (d : α) (f : Nat → Bool) (m : SMap α) (k : Nat) :
    mget d (mkeep f m) k = if f k then mget d m k else d := mget_filter d f m k

theorem mget_mmap [DecidableEq α] (d : α) (f : Nat → α → α) (m : SMap α) (k : Nat) (hd : ∀ i, f i d = d) (hm : mrising 0 m = true) :
    mget d (mmap d f m) k = f k (mget d m k) := by
  have gen : ∀ lo, mrising lo m = true → mget d (mmap d f m) k = f k (mget d m k) ∧ (k < lo → mget d (mmap d f m) k = d) := by
    clear hm
    induction m with
    | nil => intro lo _; simp [mmap, mget, hd]
    | cons p r ih =>
      obtain ⟨j, w⟩ := p
      intro lo hm
      simp only [mrising, Bool.and_eq_true, decide_eq_true_eq] at hm
      have h := ih (j + 1) hm.2
      simp only [mmap]
      by_cases hjk : j = k
      · subst hjk
        have hb := h.2 (by omega)
        split
        · rename_i he; exact ⟨by rw [hb]; simp [mget, he], fun hlt => by omega⟩
        · simp only [mget, ↓reduceIte]; exact ⟨trivial, fun hlt => by omega⟩
      · split
        · refine ⟨by rw [h.1]; simp [mget, hjk], fun hlt => h.2 (by omega)⟩
        · simp only [mget, hjk, ↓reduceIte]; exact ⟨h.1, fun hlt => h.2 (by omega)⟩
  exact (gen 0 hm).1

/-! ## The canonical form -/

theorem mrising_mono {lo hi : Nat} (h : lo ≤ hi) {m : SMap α} (hm : mrising hi m = true) : mrising lo m = true := by
  cases m with
  | nil => rfl
  | cons p r => simp only [mrising, Bool.and_eq_true, decide_eq_true_eq] at hm ⊢; exact ⟨by omega, hm.2⟩

theorem mrising_filter (f : Nat × α → Bool) {lo : Nat} {m : SMap α} (hm : mrising lo m = true) :
    mrising lo (m.filter f) = true := by
  induction m generalizing lo with
  | nil => rfl
  | cons p r ih =>
    obtain ⟨j, w⟩ := p
    simp only [mrising, Bool.and_eq_true, decide_eq_true_eq] at hm
    simp only [List.filter_cons]
    split
    · simp only [mrising, Bool.and_eq_true, decide_eq_true_eq]; exact ⟨hm.1, ih hm.2⟩
    · exact mrising_mono (by omega) (ih hm.2)

theorem mrising_aput {lo k : Nat} (v : α) {m : SMap α} (hk : lo ≤ k) (hm : mrising lo m = true) :
    mrising lo (aput k v m) = true := by
  induction m generalizing lo with
  | nil => simp [aput, mrising, hk]
  | cons p r ih =>
    obtain ⟨j, w⟩ := p
    simp only [mrising, Bool.and_eq_true, decide_eq_true_eq] at hm
    simp only [aput]
    split
    · simp only [mrising, Bool.and_eq_true, decide_eq_true_eq]; exact ⟨hk, by omega, hm.2⟩
    · split
      · subst_vars; simp only [mrising, Bool.and_eq_true, decide_eq_true_eq]; exact ⟨hk, hm.2⟩
      · simp only [mrising, Bool.and_eq_true, decide_eq_true_eq]; exact ⟨hm.1, ih (by omega) hm.2⟩

theorem mem_aput {k : Nat} {v : α} {m : SMap α} {p : Nat × α} (h : p ∈ aput k v m) : p = (k, v) ∨ p ∈ m := by
  induction m with
  | nil => simp only [aput] at h; simp_all
  | cons q r ih =>
    obtain ⟨j, w⟩ := q
    simp only [aput] at h
    split at h
    · simp_all
    · split at h
      · simp only [List.mem_cons] at h ⊢; rcases h with h | h <;> simp_all
      · simp only [List.mem_cons] at h ⊢
        rcases h with h | h
        · simp_all
        · rcases ih h with h | h <;> simp_all

theorem mem_mput [DecidableEq α] (d : α) (k : Nat) (v : α) (m : SMap α) (p : Nat × α) (h : p ∈ mput d k v m) :
    p = (k, v) ∧ v ≠ d ∨ p ∈ m := by
  unfold mput at h
  split at h
  · exact .inr (List.mem_filter.mp h).1
  · rcases mem_aput h with h | h
    · exact .inl ⟨h, ‹_›⟩
    · exact .inr h

theorem mwf_rising [DecidableEq α] (d : α) {m : SMap α} (hm : mwf d m = true) : mrising 0 m = true := by
  simp only [mwf, Bool.and_eq_true] at hm; exact hm.1

theorem mwf_mput [DecidableEq α] (d : α) (k : Nat) (v : α) {m : SMap α} (hm : mwf d m = true) : mwf d (mput d k v m) = true := by
  simp only [mwf, Bool.and_eq_true, List.all_eq_true, decide_eq_true_eq] at hm ⊢
  refine ⟨?_, fun p hp => ?_⟩
  · unfold mput; split
    · exact mrising_filter _ hm.1
    · exact mrising_aput v (Nat.zero_le _) hm.1
  · rcases mem_mput d k v m p hp with ⟨rfl, h⟩ | h
    · exact h
    · exact hm.2 p h

theorem mwf_mputs [DecidableEq α] (d : α) (k : Nat) (l : List α) {m : SMap α} (hm : mwf d m = true) : mwf d (mputs d k l m) = true := by
  induction l generalizing k m with
  | nil => exact hm
  | cons v l ih => exact ih _ (mwf_mput d k v hm)

theorem mwf_mputAll [DecidableEq α] (d : α) (l : List (Nat × α)) {m : SMap α} (hm : mwf d m = true) :
    mwf d (mputAll d l m) = true := by
  induction l generalizing m with
  | nil => exact hm
  | cons p l ih => exact ih (mwf_mput d p.1 p.2 hm)

theorem mwf_filter [DecidableEq α] (d : α) (f : Nat × α → Bool) {m : SMap α} (hm : mwf d m = true) :
    mwf d (m.filter f) = true := by
  simp only [mwf, Bool.and_eq_true, List.all_eq_true, decide_eq_true_eq] at hm ⊢
  exact ⟨mrising_filter f hm.1, fun p hp => hm.2 p (List.mem_filter.mp hp).1⟩

theorem mwf_mclear [DecidableEq α] (d : α) (lo hi : Nat) {m : SMap α} (hm : mwf d m = true) : mwf d (mclear lo hi m) = true :=
  mwf_filter d _ hm

theorem mwf_mkeep [DecidableEq α] (d : α) (f : Nat → Bool) {m : SMap α} (hm : mwf d m = true) : mwf d (mkeep f m) = true :=
  mwf_filter d _ hm

theorem mem_mputs [DecidableEq α] (d : α) (k : Nat) (l : List α) (m : SMap α) (p : Nat × α) (h : p ∈ mputs d k l m) :
    (k ≤ p.1 ∧ p.1 < k + l.length ∧ p.2 ≠ d) ∨ p ∈ m := by
  induction l generalizing k m with
  | nil => exact .inr h
  | cons v l ih =>
    simp only [List.length_cons]
    rcases ih _ _ h with h | h
    · exact .inl ⟨by omega, by omega, h.2.2⟩
    · rcases mem_mput d k v m p h with ⟨rfl, hv⟩ | h
      · exact .inl ⟨Nat.le_refl _, by simp only []; omega, hv⟩
      · exact .inr h

@[simp] theorem length_mgets {α : Type} (d : α) (m : SMap α) (k n : Nat) : (mgets d m k n).length = n := by
  induction n generalizing k with
  | zero => rfl
  | succ n ih => simp [mgets, ih]

@[simp] theorem length_toLE (n v : Nat) : (toLE n v).length = n := by
  induction n generalizing v with
  | zero => rfl
  | succ n ih => simp [toLE, ih]

end Sys2Proof.Laws
end

