-- ==== Sys2Proof/Laws/Memory.lean ====
section
/-!
SUPPORT. Module memory: reading after writing, and that each operation on it keeps its canonical form and R298.
-/
namespace Sys2Proof.Laws
open Sys2Proof.Machine

/-- The pages of a range are those that hold one of its bytes. -/
theorem mem_pagesOf {a n p : Nat} : p ∈ pagesOf a n ↔ ∃ b, a ≤ b ∧ b < a + n ∧ b / 4096 = p := by
  unfold pagesOf
  split
  · rename_i h; subst h
    constructor
    · intro h; cases h
    · rintro ⟨b, h1, h2, -⟩; omega
  · rename_i h
    simp only [List.mem_map, List.mem_range]
    constructor
    · rintro ⟨i, hi, rfl⟩
      refine ⟨max a (4096 * (a / 4096 + i)), by omega, ?_, ?_⟩
      · have : (a + n - 1) / 4096 * 4096 ≤ a + n - 1 := Nat.div_mul_le_self _ _
        omega
      · omega
    · rintro ⟨b, h1, h2, rfl⟩
      refine ⟨b / 4096 - a / 4096, ?_, ?_⟩
      · have : b / 4096 ≤ (a + n - 1) / 4096 := Nat.div_le_div_right (by omega)
        omega
      · have : a / 4096 ≤ b / 4096 := Nat.div_le_div_right h1
        omega

@[simp] theorem writeMemOf_sound (rmw a : Nat) (d : Bytes) {m : Mem} (h : PagesSound m.bytes m.written) :
    PagesSound (writeMemOf m rmw a d).bytes (writeMemOf m rmw a d).written := by
  obtain ⟨h1, h2, h3⟩ := h
  refine ⟨mwf_mputs 0 a d h1, mwf_mputAll false _ h2, fun p hp => ?_⟩
  show mget false (mputAll false ((pagesOf a d.length).map (fun p => (p, true))) m.written) (p.1 / 4096) = true
  rw [mget_mputAll_const false true]
  split
  · rfl
  · rename_i hno
    rcases mem_mputs 0 a d m.bytes p hp with ⟨hlo, hhi, -⟩ | hp
    · exact absurd (mem_pagesOf.mpr ⟨p.1, hlo, hhi, rfl⟩) hno
    · exact h3 p hp

/-- A byte of module memory after a write (R300). -/
theorem writeMem_byte (a : Nat) (d : Bytes) (s : State) (b : Nat) :
    mget 0 (writeMem a d s).mem.bytes b = if a ≤ b ∧ b < a + d.length then d.getD (b - a) 0 else mget 0 s.mem.bytes b :=
  mget_mputs 0 a d s.mem.bytes b

@[simp] theorem clearPages_sound (p n : Nat) {m : Mem} (h : PagesSound m.bytes m.written) :
    PagesSound (clearPages p n m).bytes (clearPages p n m).written := by
  obtain ⟨h1, h2, h3⟩ := h
  refine ⟨mwf_mclear 0 _ _ h1, mwf_mclear false _ _ h2, fun q hq => ?_⟩
  have hq2 := List.mem_filter.mp hq
  show mget false (mclear p (p + n) m.written) (q.1 / 4096) = true
  rw [mget_mclear, if_neg]
  · exact h3 q hq2.1
  · have : q.1 < 4096 * p ∨ 4096 * (p + n) ≤ q.1 := by simpa using hq2.2
    omega

/-- Cleared pages read as zero and are unwritten (R302). -/
theorem clearPages_byte (p n : Nat) (m : Mem) (b : Nat) :
    mget 0 (clearPages p n m).bytes b = if 4096 * p ≤ b ∧ b < 4096 * (p + n) then 0 else mget 0 m.bytes b :=
  mget_mclear 0 _ _ m.bytes b

@[simp] theorem keepPages_sound (f : Nat → Bool) {m : Mem} (h : PagesSound m.bytes m.written) :
    PagesSound (keepPages f m).bytes (keepPages f m).written := by
  obtain ⟨h1, h2, h3⟩ := h
  refine ⟨mwf_mkeep 0 (fun a => f (a / 4096)) h1, mwf_mkeep false f h2, fun q hq => ?_⟩
  have hq2 := List.mem_filter.mp hq
  exact (mget_mkeep false f m.written (q.1 / 4096)).trans ((if_pos hq2.2).trans (h3 q hq2.1))

@[simp] theorem retainedMem_sound {m : Mem} (h : PagesSound m.bytes m.written) :
    PagesSound (retainedMem m).bytes (retainedMem m).written := keepPages_sound _ h

/-- A symbol of page p lies in the page: flipping it changes no byte of another page. -/
theorem flipSymbol_sound (p : Nat) (x : SymbolError) {b : SMap Byte} {w : SMap Bool} (h : PagesSound b w)
    (hp : mget false w p = true) : PagesSound (flipSymbol p x b) w := by
  unfold flipSymbol
  split
  · rename_i hx
    dsimp only
    refine ⟨mwf_mputs 0 _ _ h.1, h.2.1, fun q hq => ?_⟩
    rcases mem_mputs 0 _ _ _ q hq with ⟨hlo, hhi, -⟩ | hq
    · have hl : q.1 / 4096 = p := by
        have : q.1 < 4096 * p + 4096 := by
          simp only [List.length_zipWith, length_mgets, length_toLE] at hhi
          omega
        omega
      rw [hl]; exact hp
    · exact h.2.2 q hq
  · exact h

/-- The errors of a page, and their correction, keep memory sound. -/
@[simp] theorem flipPage_sound (p : Nat) (l : List SymbolError) {m : Mem} (h : PagesSound m.bytes m.written) :
    PagesSound (flipPage p l m).bytes (flipPage p l m).written := by
  unfold flipPage
  split
  · rename_i hp
    show PagesSound (l.foldl (fun b x => flipSymbol p x b) m.bytes) m.written
    generalize m.bytes = b at h ⊢
    induction l generalizing b with
    | nil => exact h
    | cons x l ih => exact ih _ (flipSymbol_sound p x h hp)
  · exact h

@[simp] theorem empty_sound : PagesSound [] [] := ⟨rfl, rfl, by simp⟩

/-- Marking more pages as written keeps memory sound (R314). -/
@[simp] theorem mark_sound (p : Nat) (n : Nat) (raw : List Nat) {m : Mem} (h : PagesSound m.bytes m.written) :
    PagesSound (markWritten p n raw m).bytes (markWritten p n raw m).written := by
  refine ⟨h.1, mwf_mputs false p _ h.2.1, fun q hq => ?_⟩
  show mget false (mputs false p (List.replicate n true) m.written) (q.1 / 4096) = true
  rw [mget_mputs]
  split
  · rename_i hr
    rw [List.length_replicate] at hr
    rw [List.getD_eq_getElem?_getD, List.getElem?_replicate]
    rw [if_pos (by omega)]; rfl
  · exact h.2.2 q hq

end Sys2Proof.Laws
end

