-- ==== Sys2Proof/Laws/Parts.lean ====
section
/-!
SUPPORT. The part of the state that the folds and conditionals of the meanings leave alone: one rewrite for each part, so
that a frame is read off by simp.
-/
namespace Sys2Proof.Laws
open Sys2Proof.Machine

@[simp] theorem ite_sys (c : Prop) [Decidable c] (s t : State) : (if c then s else t).sys = if c then s.sys else t.sys := by
  split <;> rfl
@[simp] theorem forAll_sys {α : Type} (l : List α) (f : α → State → State) (s : State) (h : ∀ a s, (f a s).sys = s.sys) :
    (forAll l f s).sys = s.sys := by
  unfold forAll; induction l generalizing s with
  | nil => rfl
  | cons a l ih => rw [List.foldl_cons, ih, h]
@[simp] theorem foldl_sys {α : Type} (l : List α) (f : State → α → State) (s : State) (h : ∀ s a, (f s a).sys = s.sys) :
    (l.foldl f s).sys = s.sys := by
  induction l generalizing s with
  | nil => rfl
  | cons a l ih => rw [List.foldl_cons, ih, h]
@[simp] theorem ite_pwr (c : Prop) [Decidable c] (s t : State) : (if c then s else t).pwr = if c then s.pwr else t.pwr := by
  split <;> rfl
@[simp] theorem forAll_pwr {α : Type} (l : List α) (f : α → State → State) (s : State) (h : ∀ a s, (f a s).pwr = s.pwr) :
    (forAll l f s).pwr = s.pwr := by
  unfold forAll; induction l generalizing s with
  | nil => rfl
  | cons a l ih => rw [List.foldl_cons, ih, h]
@[simp] theorem foldl_pwr {α : Type} (l : List α) (f : State → α → State) (s : State) (h : ∀ s a, (f s a).pwr = s.pwr) :
    (l.foldl f s).pwr = s.pwr := by
  induction l generalizing s with
  | nil => rfl
  | cons a l ih => rw [List.foldl_cons, ih, h]
@[simp] theorem ite_hif (c : Prop) [Decidable c] (s t : State) : (if c then s else t).hif = if c then s.hif else t.hif := by
  split <;> rfl
@[simp] theorem forAll_hif {α : Type} (l : List α) (f : α → State → State) (s : State) (h : ∀ a s, (f a s).hif = s.hif) :
    (forAll l f s).hif = s.hif := by
  unfold forAll; induction l generalizing s with
  | nil => rfl
  | cons a l ih => rw [List.foldl_cons, ih, h]
@[simp] theorem foldl_hif {α : Type} (l : List α) (f : State → α → State) (s : State) (h : ∀ s a, (f s a).hif = s.hif) :
    (l.foldl f s).hif = s.hif := by
  induction l generalizing s with
  | nil => rfl
  | cons a l ih => rw [List.foldl_cons, ih, h]
@[simp] theorem ite_rings (c : Prop) [Decidable c] (s t : State) : (if c then s else t).rings = if c then s.rings else t.rings := by
  split <;> rfl
@[simp] theorem forAll_rings {α : Type} (l : List α) (f : α → State → State) (s : State) (h : ∀ a s, (f a s).rings = s.rings) :
    (forAll l f s).rings = s.rings := by
  unfold forAll; induction l generalizing s with
  | nil => rfl
  | cons a l ih => rw [List.foldl_cons, ih, h]
@[simp] theorem foldl_rings {α : Type} (l : List α) (f : State → α → State) (s : State) (h : ∀ s a, (f s a).rings = s.rings) :
    (l.foldl f s).rings = s.rings := by
  induction l generalizing s with
  | nil => rfl
  | cons a l ih => rw [List.foldl_cons, ih, h]
@[simp] theorem ite_conf (c : Prop) [Decidable c] (s t : State) : (if c then s else t).conf = if c then s.conf else t.conf := by
  split <;> rfl
@[simp] theorem forAll_conf {α : Type} (l : List α) (f : α → State → State) (s : State) (h : ∀ a s, (f a s).conf = s.conf) :
    (forAll l f s).conf = s.conf := by
  unfold forAll; induction l generalizing s with
  | nil => rfl
  | cons a l ih => rw [List.foldl_cons, ih, h]
@[simp] theorem foldl_conf {α : Type} (l : List α) (f : State → α → State) (s : State) (h : ∀ s a, (f s a).conf = s.conf) :
    (l.foldl f s).conf = s.conf := by
  induction l generalizing s with
  | nil => rfl
  | cons a l ih => rw [List.foldl_cons, ih, h]
@[simp] theorem ite_ing (c : Prop) [Decidable c] (s t : State) : (if c then s else t).ing = if c then s.ing else t.ing := by
  split <;> rfl
@[simp] theorem forAll_ing {α : Type} (l : List α) (f : α → State → State) (s : State) (h : ∀ a s, (f a s).ing = s.ing) :
    (forAll l f s).ing = s.ing := by
  unfold forAll; induction l generalizing s with
  | nil => rfl
  | cons a l ih => rw [List.foldl_cons, ih, h]
@[simp] theorem foldl_ing {α : Type} (l : List α) (f : State → α → State) (s : State) (h : ∀ s a, (f s a).ing = s.ing) :
    (l.foldl f s).ing = s.ing := by
  induction l generalizing s with
  | nil => rfl
  | cons a l ih => rw [List.foldl_cons, ih, h]
@[simp] theorem ite_pix (c : Prop) [Decidable c] (s t : State) : (if c then s else t).pix = if c then s.pix else t.pix := by
  split <;> rfl
@[simp] theorem forAll_pix {α : Type} (l : List α) (f : α → State → State) (s : State) (h : ∀ a s, (f a s).pix = s.pix) :
    (forAll l f s).pix = s.pix := by
  unfold forAll; induction l generalizing s with
  | nil => rfl
  | cons a l ih => rw [List.foldl_cons, ih, h]
@[simp] theorem foldl_pix {α : Type} (l : List α) (f : State → α → State) (s : State) (h : ∀ s a, (f s a).pix = s.pix) :
    (l.foldl f s).pix = s.pix := by
  induction l generalizing s with
  | nil => rfl
  | cons a l ih => rw [List.foldl_cons, ih, h]
@[simp] theorem ite_gz (c : Prop) [Decidable c] (s t : State) : (if c then s else t).gz = if c then s.gz else t.gz := by
  split <;> rfl
@[simp] theorem forAll_gz {α : Type} (l : List α) (f : α → State → State) (s : State) (h : ∀ a s, (f a s).gz = s.gz) :
    (forAll l f s).gz = s.gz := by
  unfold forAll; induction l generalizing s with
  | nil => rfl
  | cons a l ih => rw [List.foldl_cons, ih, h]
@[simp] theorem foldl_gz {α : Type} (l : List α) (f : State → α → State) (s : State) (h : ∀ s a, (f s a).gz = s.gz) :
    (l.foldl f s).gz = s.gz := by
  induction l generalizing s with
  | nil => rfl
  | cons a l ih => rw [List.foldl_cons, ih, h]
@[simp] theorem ite_lmp (c : Prop) [Decidable c] (s t : State) : (if c then s else t).lmp = if c then s.lmp else t.lmp := by
  split <;> rfl
@[simp] theorem forAll_lmp {α : Type} (l : List α) (f : α → State → State) (s : State) (h : ∀ a s, (f a s).lmp = s.lmp) :
    (forAll l f s).lmp = s.lmp := by
  unfold forAll; induction l generalizing s with
  | nil => rfl
  | cons a l ih => rw [List.foldl_cons, ih, h]
@[simp] theorem foldl_lmp {α : Type} (l : List α) (f : State → α → State) (s : State) (h : ∀ s a, (f s a).lmp = s.lmp) :
    (l.foldl f s).lmp = s.lmp := by
  induction l generalizing s with
  | nil => rfl
  | cons a l ih => rw [List.foldl_cons, ih, h]
@[simp] theorem ite_dmk (c : Prop) [Decidable c] (s t : State) : (if c then s else t).dmk = if c then s.dmk else t.dmk := by
  split <;> rfl
@[simp] theorem forAll_dmk {α : Type} (l : List α) (f : α → State → State) (s : State) (h : ∀ a s, (f a s).dmk = s.dmk) :
    (forAll l f s).dmk = s.dmk := by
  unfold forAll; induction l generalizing s with
  | nil => rfl
  | cons a l ih => rw [List.foldl_cons, ih, h]
@[simp] theorem foldl_dmk {α : Type} (l : List α) (f : State → α → State) (s : State) (h : ∀ s a, (f s a).dmk = s.dmk) :
    (l.foldl f s).dmk = s.dmk := by
  induction l generalizing s with
  | nil => rfl
  | cons a l ih => rw [List.foldl_cons, ih, h]
@[simp] theorem ite_od (c : Prop) [Decidable c] (s t : State) : (if c then s else t).od = if c then s.od else t.od := by
  split <;> rfl
@[simp] theorem forAll_od {α : Type} (l : List α) (f : α → State → State) (s : State) (h : ∀ a s, (f a s).od = s.od) :
    (forAll l f s).od = s.od := by
  unfold forAll; induction l generalizing s with
  | nil => rfl
  | cons a l ih => rw [List.foldl_cons, ih, h]
@[simp] theorem foldl_od {α : Type} (l : List α) (f : State → α → State) (s : State) (h : ∀ s a, (f s a).od = s.od) :
    (l.foldl f s).od = s.od := by
  induction l generalizing s with
  | nil => rfl
  | cons a l ih => rw [List.foldl_cons, ih, h]
@[simp] theorem ite_tmg (c : Prop) [Decidable c] (s t : State) : (if c then s else t).tmg = if c then s.tmg else t.tmg := by
  split <;> rfl
@[simp] theorem forAll_tmg {α : Type} (l : List α) (f : α → State → State) (s : State) (h : ∀ a s, (f a s).tmg = s.tmg) :
    (forAll l f s).tmg = s.tmg := by
  unfold forAll; induction l generalizing s with
  | nil => rfl
  | cons a l ih => rw [List.foldl_cons, ih, h]
@[simp] theorem foldl_tmg {α : Type} (l : List α) (f : State → α → State) (s : State) (h : ∀ s a, (f s a).tmg = s.tmg) :
    (l.foldl f s).tmg = s.tmg := by
  induction l generalizing s with
  | nil => rfl
  | cons a l ih => rw [List.foldl_cons, ih, h]
@[simp] theorem ite_pnl (c : Prop) [Decidable c] (s t : State) : (if c then s else t).pnl = if c then s.pnl else t.pnl := by
  split <;> rfl
@[simp] theorem forAll_pnl {α : Type} (l : List α) (f : α → State → State) (s : State) (h : ∀ a s, (f a s).pnl = s.pnl) :
    (forAll l f s).pnl = s.pnl := by
  unfold forAll; induction l generalizing s with
  | nil => rfl
  | cons a l ih => rw [List.foldl_cons, ih, h]
@[simp] theorem foldl_pnl {α : Type} (l : List α) (f : State → α → State) (s : State) (h : ∀ s a, (f s a).pnl = s.pnl) :
    (l.foldl f s).pnl = s.pnl := by
  induction l generalizing s with
  | nil => rfl
  | cons a l ih => rw [List.foldl_cons, ih, h]
@[simp] theorem ite_twl (c : Prop) [Decidable c] (s t : State) : (if c then s else t).twl = if c then s.twl else t.twl := by
  split <;> rfl
@[simp] theorem forAll_twl {α : Type} (l : List α) (f : α → State → State) (s : State) (h : ∀ a s, (f a s).twl = s.twl) :
    (forAll l f s).twl = s.twl := by
  unfold forAll; induction l generalizing s with
  | nil => rfl
  | cons a l ih => rw [List.foldl_cons, ih, h]
@[simp] theorem foldl_twl {α : Type} (l : List α) (f : State → α → State) (s : State) (h : ∀ s a, (f s a).twl = s.twl) :
    (l.foldl f s).twl = s.twl := by
  induction l generalizing s with
  | nil => rfl
  | cons a l ih => rw [List.foldl_cons, ih, h]
@[simp] theorem ite_cue (c : Prop) [Decidable c] (s t : State) : (if c then s else t).cue = if c then s.cue else t.cue := by
  split <;> rfl
@[simp] theorem forAll_cue {α : Type} (l : List α) (f : α → State → State) (s : State) (h : ∀ a s, (f a s).cue = s.cue) :
    (forAll l f s).cue = s.cue := by
  unfold forAll; induction l generalizing s with
  | nil => rfl
  | cons a l ih => rw [List.foldl_cons, ih, h]
@[simp] theorem foldl_cue {α : Type} (l : List α) (f : State → α → State) (s : State) (h : ∀ s a, (f s a).cue = s.cue) :
    (l.foldl f s).cue = s.cue := by
  induction l generalizing s with
  | nil => rfl
  | cons a l ih => rw [List.foldl_cons, ih, h]
@[simp] theorem ite_mem (c : Prop) [Decidable c] (s t : State) : (if c then s else t).mem = if c then s.mem else t.mem := by
  split <;> rfl
@[simp] theorem forAll_mem {α : Type} (l : List α) (f : α → State → State) (s : State) (h : ∀ a s, (f a s).mem = s.mem) :
    (forAll l f s).mem = s.mem := by
  unfold forAll; induction l generalizing s with
  | nil => rfl
  | cons a l ih => rw [List.foldl_cons, ih, h]
@[simp] theorem foldl_mem {α : Type} (l : List α) (f : State → α → State) (s : State) (h : ∀ s a, (f s a).mem = s.mem) :
    (l.foldl f s).mem = s.mem := by
  induction l generalizing s with
  | nil => rfl
  | cons a l ih => rw [List.foldl_cons, ih, h]
@[simp] theorem ite_lin (c : Prop) [Decidable c] (s t : State) : (if c then s else t).lin = if c then s.lin else t.lin := by
  split <;> rfl
@[simp] theorem forAll_lin {α : Type} (l : List α) (f : α → State → State) (s : State) (h : ∀ a s, (f a s).lin = s.lin) :
    (forAll l f s).lin = s.lin := by
  unfold forAll; induction l generalizing s with
  | nil => rfl
  | cons a l ih => rw [List.foldl_cons, ih, h]
@[simp] theorem foldl_lin {α : Type} (l : List α) (f : State → α → State) (s : State) (h : ∀ s a, (f s a).lin = s.lin) :
    (l.foldl f s).lin = s.lin := by
  induction l generalizing s with
  | nil => rfl
  | cons a l ih => rw [List.foldl_cons, ih, h]
@[simp] theorem ite_cal (c : Prop) [Decidable c] (s t : State) : (if c then s else t).cal = if c then s.cal else t.cal := by
  split <;> rfl
@[simp] theorem forAll_cal {α : Type} (l : List α) (f : α → State → State) (s : State) (h : ∀ a s, (f a s).cal = s.cal) :
    (forAll l f s).cal = s.cal := by
  unfold forAll; induction l generalizing s with
  | nil => rfl
  | cons a l ih => rw [List.foldl_cons, ih, h]
@[simp] theorem foldl_cal {α : Type} (l : List α) (f : State → α → State) (s : State) (h : ∀ s a, (f s a).cal = s.cal) :
    (l.foldl f s).cal = s.cal := by
  induction l generalizing s with
  | nil => rfl
  | cons a l ih => rw [List.foldl_cons, ih, h]
@[simp] theorem ite_gng (c : Prop) [Decidable c] (s t : State) : (if c then s else t).gng = if c then s.gng else t.gng := by
  split <;> rfl
@[simp] theorem forAll_gng {α : Type} (l : List α) (f : α → State → State) (s : State) (h : ∀ a s, (f a s).gng = s.gng) :
    (forAll l f s).gng = s.gng := by
  unfold forAll; induction l generalizing s with
  | nil => rfl
  | cons a l ih => rw [List.foldl_cons, ih, h]
@[simp] theorem foldl_gng {α : Type} (l : List α) (f : State → α → State) (s : State) (h : ∀ s a, (f s a).gng = s.gng) :
    (l.foldl f s).gng = s.gng := by
  induction l generalizing s with
  | nil => rfl
  | cons a l ih => rw [List.foldl_cons, ih, h]
@[simp] theorem ite_sec (c : Prop) [Decidable c] (s t : State) : (if c then s else t).sec = if c then s.sec else t.sec := by
  split <;> rfl
@[simp] theorem forAll_sec {α : Type} (l : List α) (f : α → State → State) (s : State) (h : ∀ a s, (f a s).sec = s.sec) :
    (forAll l f s).sec = s.sec := by
  unfold forAll; induction l generalizing s with
  | nil => rfl
  | cons a l ih => rw [List.foldl_cons, ih, h]
@[simp] theorem foldl_sec {α : Type} (l : List α) (f : State → α → State) (s : State) (h : ∀ s a, (f s a).sec = s.sec) :
    (l.foldl f s).sec = s.sec := by
  induction l generalizing s with
  | nil => rfl
  | cons a l ih => rw [List.foldl_cons, ih, h]
@[simp] theorem ite_flt (c : Prop) [Decidable c] (s t : State) : (if c then s else t).flt = if c then s.flt else t.flt := by
  split <;> rfl
@[simp] theorem forAll_flt {α : Type} (l : List α) (f : α → State → State) (s : State) (h : ∀ a s, (f a s).flt = s.flt) :
    (forAll l f s).flt = s.flt := by
  unfold forAll; induction l generalizing s with
  | nil => rfl
  | cons a l ih => rw [List.foldl_cons, ih, h]
@[simp] theorem foldl_flt {α : Type} (l : List α) (f : State → α → State) (s : State) (h : ∀ s a, (f s a).flt = s.flt) :
    (l.foldl f s).flt = s.flt := by
  induction l generalizing s with
  | nil => rfl
  | cons a l ih => rw [List.foldl_cons, ih, h]
@[simp] theorem ite_thm (c : Prop) [Decidable c] (s t : State) : (if c then s else t).thm = if c then s.thm else t.thm := by
  split <;> rfl
@[simp] theorem forAll_thm {α : Type} (l : List α) (f : α → State → State) (s : State) (h : ∀ a s, (f a s).thm = s.thm) :
    (forAll l f s).thm = s.thm := by
  unfold forAll; induction l generalizing s with
  | nil => rfl
  | cons a l ih => rw [List.foldl_cons, ih, h]
@[simp] theorem foldl_thm {α : Type} (l : List α) (f : State → α → State) (s : State) (h : ∀ s a, (f s a).thm = s.thm) :
    (l.foldl f s).thm = s.thm := by
  induction l generalizing s with
  | nil => rfl
  | cons a l ih => rw [List.foldl_cons, ih, h]
@[simp] theorem ite_trc (c : Prop) [Decidable c] (s t : State) : (if c then s else t).trc = if c then s.trc else t.trc := by
  split <;> rfl
@[simp] theorem forAll_trc {α : Type} (l : List α) (f : α → State → State) (s : State) (h : ∀ a s, (f a s).trc = s.trc) :
    (forAll l f s).trc = s.trc := by
  unfold forAll; induction l generalizing s with
  | nil => rfl
  | cons a l ih => rw [List.foldl_cons, ih, h]
@[simp] theorem foldl_trc {α : Type} (l : List α) (f : State → α → State) (s : State) (h : ∀ s a, (f s a).trc = s.trc) :
    (l.foldl f s).trc = s.trc := by
  induction l generalizing s with
  | nil => rfl
  | cons a l ih => rw [List.foldl_cons, ih, h]
@[simp] theorem ite_bst (c : Prop) [Decidable c] (s t : State) : (if c then s else t).bst = if c then s.bst else t.bst := by
  split <;> rfl
@[simp] theorem forAll_bst {α : Type} (l : List α) (f : α → State → State) (s : State) (h : ∀ a s, (f a s).bst = s.bst) :
    (forAll l f s).bst = s.bst := by
  unfold forAll; induction l generalizing s with
  | nil => rfl
  | cons a l ih => rw [List.foldl_cons, ih, h]
@[simp] theorem foldl_bst {α : Type} (l : List α) (f : State → α → State) (s : State) (h : ∀ s a, (f s a).bst = s.bst) :
    (l.foldl f s).bst = s.bst := by
  induction l generalizing s with
  | nil => rfl
  | cons a l ih => rw [List.foldl_cons, ih, h]
@[simp] theorem ite_out (c : Prop) [Decidable c] (s t : State) : (if c then s else t).out = if c then s.out else t.out := by
  split <;> rfl
@[simp] theorem forAll_out {α : Type} (l : List α) (f : α → State → State) (s : State) (h : ∀ a s, (f a s).out = s.out) :
    (forAll l f s).out = s.out := by
  unfold forAll; induction l generalizing s with
  | nil => rfl
  | cons a l ih => rw [List.foldl_cons, ih, h]
@[simp] theorem foldl_out {α : Type} (l : List α) (f : State → α → State) (s : State) (h : ∀ s a, (f s a).out = s.out) :
    (l.foldl f s).out = s.out := by
  induction l generalizing s with
  | nil => rfl
  | cons a l ih => rw [List.foldl_cons, ih, h]
@[simp] theorem ite_free (c : Prop) [Decidable c] (s t : State) : (if c then s else t).free = if c then s.free else t.free := by
  split <;> rfl
@[simp] theorem forAll_free {α : Type} (l : List α) (f : α → State → State) (s : State) (h : ∀ a s, (f a s).free = s.free) :
    (forAll l f s).free = s.free := by
  unfold forAll; induction l generalizing s with
  | nil => rfl
  | cons a l ih => rw [List.foldl_cons, ih, h]
@[simp] theorem foldl_free {α : Type} (l : List α) (f : State → α → State) (s : State) (h : ∀ s a, (f s a).free = s.free) :
    (l.foldl f s).free = s.free := by
  induction l generalizing s with
  | nil => rfl
  | cons a l ih => rw [List.foldl_cons, ih, h]
@[simp] theorem ite_pending (c : Prop) [Decidable c] (s t : State) : (if c then s else t).pending = if c then s.pending else t.pending := by
  split <;> rfl
@[simp] theorem forAll_pending {α : Type} (l : List α) (f : α → State → State) (s : State) (h : ∀ a s, (f a s).pending = s.pending) :
    (forAll l f s).pending = s.pending := by
  unfold forAll; induction l generalizing s with
  | nil => rfl
  | cons a l ih => rw [List.foldl_cons, ih, h]
@[simp] theorem foldl_pending {α : Type} (l : List α) (f : State → α → State) (s : State) (h : ∀ s a, (f s a).pending = s.pending) :
    (l.foldl f s).pending = s.pending := by
  induction l generalizing s with
  | nil => rfl
  | cons a l ih => rw [List.foldl_cons, ih, h]
@[simp] theorem ite_sys_mode (c : Prop) [Decidable c] (s t : State) : (if c then s else t).sys.mode = if c then s.sys.mode else t.sys.mode := by
  split <;> rfl
@[simp] theorem forAll_sys_mode {α : Type} (l : List α) (f : α → State → State) (s : State) (h : ∀ a s, (f a s).sys.mode = s.sys.mode) :
    (forAll l f s).sys.mode = s.sys.mode := by
  unfold forAll; induction l generalizing s with
  | nil => rfl
  | cons a l ih => rw [List.foldl_cons, ih, h]
@[simp] theorem foldl_sys_mode {α : Type} (l : List α) (f : State → α → State) (s : State) (h : ∀ s a, (f s a).sys.mode = s.sys.mode) :
    (l.foldl f s).sys.mode = s.sys.mode := by
  induction l generalizing s with
  | nil => rfl
  | cons a l ih => rw [List.foldl_cons, ih, h]
@[simp] theorem ite_sys_fe (c : Prop) [Decidable c] (s t : State) : (if c then s else t).sys.fe = if c then s.sys.fe else t.sys.fe := by
  split <;> rfl
@[simp] theorem forAll_sys_fe {α : Type} (l : List α) (f : α → State → State) (s : State) (h : ∀ a s, (f a s).sys.fe = s.sys.fe) :
    (forAll l f s).sys.fe = s.sys.fe := by
  unfold forAll; induction l generalizing s with
  | nil => rfl
  | cons a l ih => rw [List.foldl_cons, ih, h]
@[simp] theorem foldl_sys_fe {α : Type} (l : List α) (f : State → α → State) (s : State) (h : ∀ s a, (f s a).sys.fe = s.sys.fe) :
    (l.foldl f s).sys.fe = s.sys.fe := by
  induction l generalizing s with
  | nil => rfl
  | cons a l ih => rw [List.foldl_cons, ih, h]
@[simp] theorem ite_sys_transit (c : Prop) [Decidable c] (s t : State) : (if c then s else t).sys.transit = if c then s.sys.transit else t.sys.transit := by
  split <;> rfl
@[simp] theorem forAll_sys_transit {α : Type} (l : List α) (f : α → State → State) (s : State) (h : ∀ a s, (f a s).sys.transit = s.sys.transit) :
    (forAll l f s).sys.transit = s.sys.transit := by
  unfold forAll; induction l generalizing s with
  | nil => rfl
  | cons a l ih => rw [List.foldl_cons, ih, h]
@[simp] theorem foldl_sys_transit {α : Type} (l : List α) (f : State → α → State) (s : State) (h : ∀ s a, (f s a).sys.transit = s.sys.transit) :
    (l.foldl f s).sys.transit = s.sys.transit := by
  induction l generalizing s with
  | nil => rfl
  | cons a l ih => rw [List.foldl_cons, ih, h]
@[simp] theorem ite_sys_lock (c : Prop) [Decidable c] (s t : State) : (if c then s else t).sys.lock = if c then s.sys.lock else t.sys.lock := by
  split <;> rfl
@[simp] theorem forAll_sys_lock {α : Type} (l : List α) (f : α → State → State) (s : State) (h : ∀ a s, (f a s).sys.lock = s.sys.lock) :
    (forAll l f s).sys.lock = s.sys.lock := by
  unfold forAll; induction l generalizing s with
  | nil => rfl
  | cons a l ih => rw [List.foldl_cons, ih, h]
@[simp] theorem foldl_sys_lock {α : Type} (l : List α) (f : State → α → State) (s : State) (h : ∀ s a, (f s a).sys.lock = s.sys.lock) :
    (l.foldl f s).sys.lock = s.sys.lock := by
  induction l generalizing s with
  | nil => rfl
  | cons a l ih => rw [List.foldl_cons, ih, h]
@[simp] theorem ite_conf_regs (c : Prop) [Decidable c] (s t : State) : (if c then s else t).conf.regs = if c then s.conf.regs else t.conf.regs := by
  split <;> rfl
@[simp] theorem forAll_conf_regs {α : Type} (l : List α) (f : α → State → State) (s : State) (h : ∀ a s, (f a s).conf.regs = s.conf.regs) :
    (forAll l f s).conf.regs = s.conf.regs := by
  unfold forAll; induction l generalizing s with
  | nil => rfl
  | cons a l ih => rw [List.foldl_cons, ih, h]
@[simp] theorem foldl_conf_regs {α : Type} (l : List α) (f : State → α → State) (s : State) (h : ∀ s a, (f s a).conf.regs = s.conf.regs) :
    (l.foldl f s).conf.regs = s.conf.regs := by
  induction l generalizing s with
  | nil => rfl
  | cons a l ih => rw [List.foldl_cons, ih, h]
@[simp] theorem ite_conf_tables (c : Prop) [Decidable c] (s t : State) : (if c then s else t).conf.tables = if c then s.conf.tables else t.conf.tables := by
  split <;> rfl
@[simp] theorem forAll_conf_tables {α : Type} (l : List α) (f : α → State → State) (s : State) (h : ∀ a s, (f a s).conf.tables = s.conf.tables) :
    (forAll l f s).conf.tables = s.conf.tables := by
  unfold forAll; induction l generalizing s with
  | nil => rfl
  | cons a l ih => rw [List.foldl_cons, ih, h]
@[simp] theorem foldl_conf_tables {α : Type} (l : List α) (f : State → α → State) (s : State) (h : ∀ s a, (f s a).conf.tables = s.conf.tables) :
    (l.foldl f s).conf.tables = s.conf.tables := by
  induction l generalizing s with
  | nil => rfl
  | cons a l ih => rw [List.foldl_cons, ih, h]
@[simp] theorem ite_mem_bytes (c : Prop) [Decidable c] (s t : State) : (if c then s else t).mem.bytes = if c then s.mem.bytes else t.mem.bytes := by
  split <;> rfl
@[simp] theorem forAll_mem_bytes {α : Type} (l : List α) (f : α → State → State) (s : State) (h : ∀ a s, (f a s).mem.bytes = s.mem.bytes) :
    (forAll l f s).mem.bytes = s.mem.bytes := by
  unfold forAll; induction l generalizing s with
  | nil => rfl
  | cons a l ih => rw [List.foldl_cons, ih, h]
@[simp] theorem foldl_mem_bytes {α : Type} (l : List α) (f : State → α → State) (s : State) (h : ∀ s a, (f s a).mem.bytes = s.mem.bytes) :
    (l.foldl f s).mem.bytes = s.mem.bytes := by
  induction l generalizing s with
  | nil => rfl
  | cons a l ih => rw [List.foldl_cons, ih, h]
@[simp] theorem ite_mem_written (c : Prop) [Decidable c] (s t : State) : (if c then s else t).mem.written = if c then s.mem.written else t.mem.written := by
  split <;> rfl
@[simp] theorem forAll_mem_written {α : Type} (l : List α) (f : α → State → State) (s : State) (h : ∀ a s, (f a s).mem.written = s.mem.written) :
    (forAll l f s).mem.written = s.mem.written := by
  unfold forAll; induction l generalizing s with
  | nil => rfl
  | cons a l ih => rw [List.foldl_cons, ih, h]
@[simp] theorem foldl_mem_written {α : Type} (l : List α) (f : State → α → State) (s : State) (h : ∀ s a, (f s a).mem.written = s.mem.written) :
    (l.foldl f s).mem.written = s.mem.written := by
  induction l generalizing s with
  | nil => rfl
  | cons a l ih => rw [List.foldl_cons, ih, h]
@[simp] theorem ite_sec_fuses (c : Prop) [Decidable c] (s t : State) : (if c then s else t).sec.fuses = if c then s.sec.fuses else t.sec.fuses := by
  split <;> rfl
@[simp] theorem forAll_sec_fuses {α : Type} (l : List α) (f : α → State → State) (s : State) (h : ∀ a s, (f a s).sec.fuses = s.sec.fuses) :
    (forAll l f s).sec.fuses = s.sec.fuses := by
  unfold forAll; induction l generalizing s with
  | nil => rfl
  | cons a l ih => rw [List.foldl_cons, ih, h]
@[simp] theorem foldl_sec_fuses {α : Type} (l : List α) (f : State → α → State) (s : State) (h : ∀ s a, (f s a).sec.fuses = s.sec.fuses) :
    (l.foldl f s).sec.fuses = s.sec.fuses := by
  induction l generalizing s with
  | nil => rfl
  | cons a l ih => rw [List.foldl_cons, ih, h]
@[simp] theorem ite_hif_power (c : Prop) [Decidable c] (s t : State) : (if c then s else t).hif.power = if c then s.hif.power else t.hif.power := by
  split <;> rfl
@[simp] theorem forAll_hif_power {α : Type} (l : List α) (f : α → State → State) (s : State) (h : ∀ a s, (f a s).hif.power = s.hif.power) :
    (forAll l f s).hif.power = s.hif.power := by
  unfold forAll; induction l generalizing s with
  | nil => rfl
  | cons a l ih => rw [List.foldl_cons, ih, h]
@[simp] theorem foldl_hif_power {α : Type} (l : List α) (f : State → α → State) (s : State) (h : ∀ s a, (f s a).hif.power = s.hif.power) :
    (l.foldl f s).hif.power = s.hif.power := by
  induction l generalizing s with
  | nil => rfl
  | cons a l ih => rw [List.foldl_cons, ih, h]
@[simp] theorem ite_pwr_fall (c : Prop) [Decidable c] (s t : State) : (if c then s else t).pwr.fall = if c then s.pwr.fall else t.pwr.fall := by
  split <;> rfl
@[simp] theorem forAll_pwr_fall {α : Type} (l : List α) (f : α → State → State) (s : State) (h : ∀ a s, (f a s).pwr.fall = s.pwr.fall) :
    (forAll l f s).pwr.fall = s.pwr.fall := by
  unfold forAll; induction l generalizing s with
  | nil => rfl
  | cons a l ih => rw [List.foldl_cons, ih, h]
@[simp] theorem foldl_pwr_fall {α : Type} (l : List α) (f : State → α → State) (s : State) (h : ∀ s a, (f s a).pwr.fall = s.pwr.fall) :
    (l.foldl f s).pwr.fall = s.pwr.fall := by
  induction l generalizing s with
  | nil => rfl
  | cons a l ih => rw [List.foldl_cons, ih, h]
@[simp] theorem ite_tmg_running (c : Prop) [Decidable c] (s t : State) : (if c then s else t).tmg.running = if c then s.tmg.running else t.tmg.running := by
  split <;> rfl
@[simp] theorem forAll_tmg_running {α : Type} (l : List α) (f : α → State → State) (s : State) (h : ∀ a s, (f a s).tmg.running = s.tmg.running) :
    (forAll l f s).tmg.running = s.tmg.running := by
  unfold forAll; induction l generalizing s with
  | nil => rfl
  | cons a l ih => rw [List.foldl_cons, ih, h]
@[simp] theorem foldl_tmg_running {α : Type} (l : List α) (f : State → α → State) (s : State) (h : ∀ s a, (f s a).tmg.running = s.tmg.running) :
    (l.foldl f s).tmg.running = s.tmg.running := by
  induction l generalizing s with
  | nil => rfl
  | cons a l ih => rw [List.foldl_cons, ih, h]
@[simp] theorem ite_pnl_state (c : Prop) [Decidable c] (s t : State) : (if c then s else t).pnl.state = if c then s.pnl.state else t.pnl.state := by
  split <;> rfl
@[simp] theorem forAll_pnl_state {α : Type} (l : List α) (f : α → State → State) (s : State) (h : ∀ a s, (f a s).pnl.state = s.pnl.state) :
    (forAll l f s).pnl.state = s.pnl.state := by
  unfold forAll; induction l generalizing s with
  | nil => rfl
  | cons a l ih => rw [List.foldl_cons, ih, h]
@[simp] theorem foldl_pnl_state {α : Type} (l : List α) (f : State → α → State) (s : State) (h : ∀ s a, (f s a).pnl.state = s.pnl.state) :
    (l.foldl f s).pnl.state = s.pnl.state := by
  induction l generalizing s with
  | nil => rfl
  | cons a l ih => rw [List.foldl_cons, ih, h]
@[simp] theorem ite_rings_sqs (c : Prop) [Decidable c] (s t : State) : (if c then s else t).rings.sqs = if c then s.rings.sqs else t.rings.sqs := by
  split <;> rfl
@[simp] theorem forAll_rings_sqs {α : Type} (l : List α) (f : α → State → State) (s : State) (h : ∀ a s, (f a s).rings.sqs = s.rings.sqs) :
    (forAll l f s).rings.sqs = s.rings.sqs := by
  unfold forAll; induction l generalizing s with
  | nil => rfl
  | cons a l ih => rw [List.foldl_cons, ih, h]
@[simp] theorem foldl_rings_sqs {α : Type} (l : List α) (f : State → α → State) (s : State) (h : ∀ s a, (f s a).rings.sqs = s.rings.sqs) :
    (l.foldl f s).rings.sqs = s.rings.sqs := by
  induction l generalizing s with
  | nil => rfl
  | cons a l ih => rw [List.foldl_cons, ih, h]
@[simp] theorem ite_rings_cqs (c : Prop) [Decidable c] (s t : State) : (if c then s else t).rings.cqs = if c then s.rings.cqs else t.rings.cqs := by
  split <;> rfl
@[simp] theorem forAll_rings_cqs {α : Type} (l : List α) (f : α → State → State) (s : State) (h : ∀ a s, (f a s).rings.cqs = s.rings.cqs) :
    (forAll l f s).rings.cqs = s.rings.cqs := by
  unfold forAll; induction l generalizing s with
  | nil => rfl
  | cons a l ih => rw [List.foldl_cons, ih, h]
@[simp] theorem foldl_rings_cqs {α : Type} (l : List α) (f : State → α → State) (s : State) (h : ∀ s a, (f s a).rings.cqs = s.rings.cqs) :
    (l.foldl f s).rings.cqs = s.rings.cqs := by
  induction l generalizing s with
  | nil => rfl
  | cons a l ih => rw [List.foldl_cons, ih, h]
@[simp] theorem ite_rings_eq0 (c : Prop) [Decidable c] (s t : State) : (if c then s else t).rings.eq0 = if c then s.rings.eq0 else t.rings.eq0 := by
  split <;> rfl
@[simp] theorem forAll_rings_eq0 {α : Type} (l : List α) (f : α → State → State) (s : State) (h : ∀ a s, (f a s).rings.eq0 = s.rings.eq0) :
    (forAll l f s).rings.eq0 = s.rings.eq0 := by
  unfold forAll; induction l generalizing s with
  | nil => rfl
  | cons a l ih => rw [List.foldl_cons, ih, h]
@[simp] theorem foldl_rings_eq0 {α : Type} (l : List α) (f : State → α → State) (s : State) (h : ∀ s a, (f s a).rings.eq0 = s.rings.eq0) :
    (l.foldl f s).rings.eq0 = s.rings.eq0 := by
  induction l generalizing s with
  | nil => rfl
  | cons a l ih => rw [List.foldl_cons, ih, h]
@[simp] theorem ite_rings_eq1 (c : Prop) [Decidable c] (s t : State) : (if c then s else t).rings.eq1 = if c then s.rings.eq1 else t.rings.eq1 := by
  split <;> rfl
@[simp] theorem forAll_rings_eq1 {α : Type} (l : List α) (f : α → State → State) (s : State) (h : ∀ a s, (f a s).rings.eq1 = s.rings.eq1) :
    (forAll l f s).rings.eq1 = s.rings.eq1 := by
  unfold forAll; induction l generalizing s with
  | nil => rfl
  | cons a l ih => rw [List.foldl_cons, ih, h]
@[simp] theorem foldl_rings_eq1 {α : Type} (l : List α) (f : State → α → State) (s : State) (h : ∀ s a, (f s a).rings.eq1 = s.rings.eq1) :
    (l.foldl f s).rings.eq1 = s.rings.eq1 := by
  induction l generalizing s with
  | nil => rfl
  | cons a l ih => rw [List.foldl_cons, ih, h]
@[simp] theorem ite_lin_sram (c : Prop) [Decidable c] (s t : State) : (if c then s else t).lin.sram = if c then s.lin.sram else t.lin.sram := by
  split <;> rfl
@[simp] theorem forAll_lin_sram {α : Type} (l : List α) (f : α → State → State) (s : State) (h : ∀ a s, (f a s).lin.sram = s.lin.sram) :
    (forAll l f s).lin.sram = s.lin.sram := by
  unfold forAll; induction l generalizing s with
  | nil => rfl
  | cons a l ih => rw [List.foldl_cons, ih, h]
@[simp] theorem foldl_lin_sram {α : Type} (l : List α) (f : State → α → State) (s : State) (h : ∀ s a, (f s a).lin.sram = s.lin.sram) :
    (l.foldl f s).lin.sram = s.lin.sram := by
  induction l generalizing s with
  | nil => rfl
  | cons a l ih => rw [List.foldl_cons, ih, h]
@[simp] theorem ite_sys_serving (c : Prop) [Decidable c] (s t : State) : (if c then s else t).sys.serving = if c then s.sys.serving else t.sys.serving := by
  split <;> rfl
@[simp] theorem forAll_sys_serving {α : Type} (l : List α) (f : α → State → State) (s : State) (h : ∀ a s, (f a s).sys.serving = s.sys.serving) :
    (forAll l f s).sys.serving = s.sys.serving := by
  unfold forAll; induction l generalizing s with
  | nil => rfl
  | cons a l ih => rw [List.foldl_cons, ih, h]
@[simp] theorem foldl_sys_serving {α : Type} (l : List α) (f : State → α → State) (s : State) (h : ∀ s a, (f s a).sys.serving = s.sys.serving) :
    (l.foldl f s).sys.serving = s.sys.serving := by
  induction l generalizing s with
  | nil => rfl
  | cons a l ih => rw [List.foldl_cons, ih, h]
@[simp] theorem ite_hif_bme0 (c : Prop) [Decidable c] (s t : State) : (if c then s else t).hif.bme0 = if c then s.hif.bme0 else t.hif.bme0 := by
  split <;> rfl
@[simp] theorem forAll_hif_bme0 {α : Type} (l : List α) (f : α → State → State) (s : State) (h : ∀ a s, (f a s).hif.bme0 = s.hif.bme0) :
    (forAll l f s).hif.bme0 = s.hif.bme0 := by
  unfold forAll; induction l generalizing s with
  | nil => rfl
  | cons a l ih => rw [List.foldl_cons, ih, h]
@[simp] theorem foldl_hif_bme0 {α : Type} (l : List α) (f : State → α → State) (s : State) (h : ∀ s a, (f s a).hif.bme0 = s.hif.bme0) :
    (l.foldl f s).hif.bme0 = s.hif.bme0 := by
  induction l generalizing s with
  | nil => rfl
  | cons a l ih => rw [List.foldl_cons, ih, h]
@[simp] theorem ite_hif_bme1 (c : Prop) [Decidable c] (s t : State) : (if c then s else t).hif.bme1 = if c then s.hif.bme1 else t.hif.bme1 := by
  split <;> rfl
@[simp] theorem forAll_hif_bme1 {α : Type} (l : List α) (f : α → State → State) (s : State) (h : ∀ a s, (f a s).hif.bme1 = s.hif.bme1) :
    (forAll l f s).hif.bme1 = s.hif.bme1 := by
  unfold forAll; induction l generalizing s with
  | nil => rfl
  | cons a l ih => rw [List.foldl_cons, ih, h]
@[simp] theorem foldl_hif_bme1 {α : Type} (l : List α) (f : State → α → State) (s : State) (h : ∀ s a, (f s a).hif.bme1 = s.hif.bme1) :
    (l.foldl f s).hif.bme1 = s.hif.bme1 := by
  induction l generalizing s with
  | nil => rfl
  | cons a l ih => rw [List.foldl_cons, ih, h]
@[simp] theorem ite_hif_d3hot (c : Prop) [Decidable c] (s t : State) : (if c then s else t).hif.d3hot = if c then s.hif.d3hot else t.hif.d3hot := by
  split <;> rfl
@[simp] theorem forAll_hif_d3hot {α : Type} (l : List α) (f : α → State → State) (s : State) (h : ∀ a s, (f a s).hif.d3hot = s.hif.d3hot) :
    (forAll l f s).hif.d3hot = s.hif.d3hot := by
  unfold forAll; induction l generalizing s with
  | nil => rfl
  | cons a l ih => rw [List.foldl_cons, ih, h]
@[simp] theorem foldl_hif_d3hot {α : Type} (l : List α) (f : State → α → State) (s : State) (h : ∀ s a, (f s a).hif.d3hot = s.hif.d3hot) :
    (l.foldl f s).hif.d3hot = s.hif.d3hot := by
  induction l generalizing s with
  | nil => rfl
  | cons a l ih => rw [List.foldl_cons, ih, h]
@[simp] theorem ite_conf_setup (c : Prop) [Decidable c] (s t : State) : (if c then s else t).conf.setup = if c then s.conf.setup else t.conf.setup := by
  split <;> rfl
@[simp] theorem forAll_conf_setup {α : Type} (l : List α) (f : α → State → State) (s : State) (h : ∀ a s, (f a s).conf.setup = s.conf.setup) :
    (forAll l f s).conf.setup = s.conf.setup := by
  unfold forAll; induction l generalizing s with
  | nil => rfl
  | cons a l ih => rw [List.foldl_cons, ih, h]
@[simp] theorem foldl_conf_setup {α : Type} (l : List α) (f : State → α → State) (s : State) (h : ∀ s a, (f s a).conf.setup = s.conf.setup) :
    (l.foldl f s).conf.setup = s.conf.setup := by
  induction l generalizing s with
  | nil => rfl
  | cons a l ih => rw [List.foldl_cons, ih, h]
@[simp] theorem ite_conf_slots (c : Prop) [Decidable c] (s t : State) : (if c then s else t).conf.slots = if c then s.conf.slots else t.conf.slots := by
  split <;> rfl
@[simp] theorem forAll_conf_slots {α : Type} (l : List α) (f : α → State → State) (s : State) (h : ∀ a s, (f a s).conf.slots = s.conf.slots) :
    (forAll l f s).conf.slots = s.conf.slots := by
  unfold forAll; induction l generalizing s with
  | nil => rfl
  | cons a l ih => rw [List.foldl_cons, ih, h]
@[simp] theorem foldl_conf_slots {α : Type} (l : List α) (f : State → α → State) (s : State) (h : ∀ s a, (f s a).conf.slots = s.conf.slots) :
    (l.foldl f s).conf.slots = s.conf.slots := by
  induction l generalizing s with
  | nil => rfl
  | cons a l ih => rw [List.foldl_cons, ih, h]
@[simp] theorem ite_conf_live (c : Prop) [Decidable c] (s t : State) : (if c then s else t).conf.live = if c then s.conf.live else t.conf.live := by
  split <;> rfl
@[simp] theorem forAll_conf_live {α : Type} (l : List α) (f : α → State → State) (s : State) (h : ∀ a s, (f a s).conf.live = s.conf.live) :
    (forAll l f s).conf.live = s.conf.live := by
  unfold forAll; induction l generalizing s with
  | nil => rfl
  | cons a l ih => rw [List.foldl_cons, ih, h]
@[simp] theorem foldl_conf_live {α : Type} (l : List α) (f : State → α → State) (s : State) (h : ∀ s a, (f s a).conf.live = s.conf.live) :
    (l.foldl f s).conf.live = s.conf.live := by
  induction l generalizing s with
  | nil => rfl
  | cons a l ih => rw [List.foldl_cons, ih, h]
@[simp] theorem ite_sys_stage (c : Prop) [Decidable c] (s t : State) : (if c then s else t).sys.stage = if c then s.sys.stage else t.sys.stage := by
  split <;> rfl
@[simp] theorem forAll_sys_stage {α : Type} (l : List α) (f : α → State → State) (s : State) (h : ∀ a s, (f a s).sys.stage = s.sys.stage) :
    (forAll l f s).sys.stage = s.sys.stage := by
  unfold forAll; induction l generalizing s with
  | nil => rfl
  | cons a l ih => rw [List.foldl_cons, ih, h]
@[simp] theorem foldl_sys_stage {α : Type} (l : List α) (f : State → α → State) (s : State) (h : ∀ s a, (f s a).sys.stage = s.sys.stage) :
    (l.foldl f s).sys.stage = s.sys.stage := by
  induction l generalizing s with
  | nil => rfl
  | cons a l ih => rw [List.foldl_cons, ih, h]

end Sys2Proof.Laws
end

