-- ==== Sys2Proof/Laws/State.lean ====
section
/-!
SUPPORT. The named updates of the state and what each leaves alone; the helpers over one part of the state; and when a
ring's command or a host access acts.
-/
namespace Sys2Proof.Laws
open Sys2Proof.Machine

/-! ## Named updates -/

@[simp] theorem skipFree_free (n : Nat) (s : State) : (skipFree n s).free = s.free + n := rfl
@[simp] theorem emit_out (o : List Output) (s : State) : (emit o s).out = o ++ s.out := rfl
@[simp] theorem setSq_parts (fn : Fn) (n : Nat) (q : Sq) (r : Rings) : (setSq fn n q r).cqs = r.cqs ∧ (setSq fn n q r).eq0 = r.eq0 ∧
    (setSq fn n q r).eq1 = r.eq1 ∧ (setSq fn n q r).t1 = r.t1 ∧ (setSq fn n q r).t2 = r.t2 ∧ (setSq fn n q r).rr0 = r.rr0 ∧
    (setSq fn n q r).rr1 = r.rr1 := ⟨rfl, rfl, rfl, rfl, rfl, rfl, rfl⟩
@[simp] theorem setCq_parts (k : Nat) (c : Cq) (r : Rings) : (setCq k c r).sqs = r.sqs ∧ (setCq k c r).eq0 = r.eq0 ∧
    (setCq k c r).eq1 = r.eq1 ∧ (setCq k c r).t1 = r.t1 ∧ (setCq k c r).t2 = r.t2 ∧ (setCq k c r).rr0 = r.rr0 ∧
    (setCq k c r).rr1 = r.rr1 := ⟨rfl, rfl, rfl, rfl, rfl, rfl, rfl⟩
@[simp] theorem setEq_parts (fn : Fn) (e : Eq) (r : Rings) : (setEq fn e r).sqs = r.sqs ∧ (setEq fn e r).cqs = r.cqs ∧
    (setEq fn e r).t1 = r.t1 ∧ (setEq fn e r).t2 = r.t2 ∧ (setEq fn e r).rr0 = r.rr0 ∧ (setEq fn e r).rr1 = r.rr1 := by
  cases fn <;> exact ⟨rfl, rfl, rfl, rfl, rfl, rfl⟩
@[simp] theorem eqOf_setEq (fn : Fn) (e : Eq) (r : Rings) : eqOf (setEq fn e r) fn = e := by cases fn <;> rfl
@[simp] theorem eqOf_setSq (fn g : Fn) (n : Nat) (q : Sq) (r : Rings) : eqOf (setSq fn n q r) g = eqOf r g := by cases g <;> rfl
@[simp] theorem eqOf_setCq (g : Fn) (k : Nat) (c : Cq) (r : Rings) : eqOf (setCq k c r) g = eqOf r g := by cases g <;> rfl
@[simp] theorem sqOf_setCq (g : Fn) (n k : Nat) (c : Cq) (r : Rings) : sqOf (setCq k c r) g n = sqOf r g n := rfl
@[simp] theorem sqOf_setEq (g fn : Fn) (n : Nat) (e : Eq) (r : Rings) : sqOf (setEq fn e r) g n = sqOf r g n := by
  cases fn <;> rfl
@[simp] theorem cqAt_setSq (fn : Fn) (n k : Nat) (q : Sq) (r : Rings) : cqAt (setSq fn n q r) k = cqAt r k := rfl
@[simp] theorem cqAt_setEq (fn : Fn) (k : Nat) (e : Eq) (r : Rings) : cqAt (setEq fn e r) k = cqAt r k := by cases fn <;> rfl

/-- A submission ring as read after one is written. -/
theorem sqOf_setSq (fn g : Fn) (n m : Nat) (q : Sq) (r : Rings) :
    sqOf (setSq fn n q r) g m = if 64 * fnIdx g + m = 64 * fnIdx fn + n then q else sqOf r g m :=
  mget_mput ({} : Sq) _ _ q r.sqs
@[simp] theorem sqOf_setSq_same (fn : Fn) (n : Nat) (q : Sq) (r : Rings) : sqOf (setSq fn n q r) fn n = q := by simp [sqOf_setSq]
/-- A completion ring as read after one is written. -/
theorem cqAt_setCq (k j : Nat) (c : Cq) (r : Rings) : cqAt (setCq k c r) j = if j = k then c else cqAt r j :=
  mget_mput ({} : Cq) _ _ c r.cqs
@[simp] theorem cqAt_setCq_same (k : Nat) (c : Cq) (r : Rings) : cqAt (setCq k c r) k = c := by simp [cqAt_setCq]

@[simp] theorem withSent_frame (s : State) (x : Sent) : (withSent s x).sys = s.sys ∧ (withSent s x).pwr = s.pwr ∧ (withSent s x).conf = s.conf ∧ (withSent s x).ing = s.ing ∧ (withSent s x).pix = s.pix ∧ (withSent s x).gz = s.gz ∧ (withSent s x).lmp = s.lmp ∧ (withSent s x).dmk = s.dmk ∧ (withSent s x).od = s.od ∧ (withSent s x).tmg = s.tmg ∧ (withSent s x).pnl = s.pnl ∧ (withSent s x).twl = s.twl ∧ (withSent s x).cue = s.cue ∧ (withSent s x).mem = s.mem ∧ (withSent s x).lin = s.lin ∧ (withSent s x).cal = s.cal ∧ (withSent s x).gng = s.gng ∧ (withSent s x).sec = s.sec ∧ (withSent s x).flt = s.flt ∧ (withSent s x).thm = s.thm ∧ (withSent s x).trc = s.trc ∧ (withSent s x).bst = s.bst ∧ (withSent s x).free = s.free ∧ (withSent s x).pending = s.pending := by
  simp [withSent]
@[simp] theorem withSent_rings (s : State) (x : Sent) : (withSent s x).rings = x.rings ∧ (withSent s x).hif = x.hif ∧ (withSent s x).out = x.out := by
  simp [withSent]
@[simp] theorem sentOf_parts (s : State) : (sentOf s).rings = s.rings ∧ (sentOf s).hif = s.hif ∧ (sentOf s).out = s.out := by
  simp [sentOf]
@[simp] theorem holdMsix_keeps (fn : Fn) (v : Nat) (h : Hif) : (holdMsix fn v h).power = h.power ∧ (holdMsix fn v h).bme0 = h.bme0 ∧
    (holdMsix fn v h).bme1 = h.bme1 ∧ (holdMsix fn v h).d3hot = h.d3hot := ⟨rfl, rfl, rfl, rfl⟩
@[simp] theorem signalCq_keeps (k : Nat) (x : Sent) :
    (signalCq k x).hif.power = x.hif.power ∧ (signalCq k x).hif.bme0 = x.hif.bme0 ∧ (signalCq k x).hif.bme1 = x.hif.bme1 ∧ (signalCq k x).hif.d3hot = x.hif.d3hot ∧ (signalCq k x).rings.sqs = x.rings.sqs := by unfold signalCq; dsimp only; (repeat' split) <;> simp
@[simp] theorem signalEq_keeps (fn : Fn) (x : Sent) :
    (signalEq fn x).hif.power = x.hif.power ∧ (signalEq fn x).hif.bme0 = x.hif.bme0 ∧ (signalEq fn x).hif.bme1 = x.hif.bme1 ∧ (signalEq fn x).hif.d3hot = x.hif.d3hot ∧ (signalEq fn x).rings.sqs = x.rings.sqs := by unfold signalEq; dsimp only; (repeat' split) <;> simp
@[simp] theorem writeRecord_keeps (k : Nat) (x : Sent) :
    (writeRecord k x).hif.power = x.hif.power ∧ (writeRecord k x).hif.bme0 = x.hif.bme0 ∧ (writeRecord k x).hif.bme1 = x.hif.bme1 ∧ (writeRecord k x).hif.d3hot = x.hif.d3hot ∧ (writeRecord k x).rings.sqs = x.rings.sqs := by unfold writeRecord; dsimp only; (repeat' split) <;> simp
@[simp] theorem drainCq_keeps (k n : Nat) (x : Sent) :
    (drainCq k n x).hif.power = x.hif.power ∧ (drainCq k n x).hif.bme0 = x.hif.bme0 ∧ (drainCq k n x).hif.bme1 = x.hif.bme1 ∧ (drainCq k n x).hif.d3hot = x.hif.d3hot ∧ (drainCq k n x).rings.sqs = x.rings.sqs := by
  induction n generalizing x with
  | zero => simp [drainCq]
  | succ n ih => unfold drainCq; dsimp only; split <;> simp [ih]
@[simp] theorem traceRing_keeps (b : Bool) (r : TraceRec) (x : Sent) :
    (traceRing b r x).hif = x.hif ∧ (traceRing b r x).rings.sqs = x.rings.sqs := by unfold traceRing; dsimp only; (repeat' split) <;> simp
@[simp] theorem writeEvent_keeps (fn : Fn) (v : Ev) (x : Sent) :
    (writeEvent fn v x).hif.power = x.hif.power ∧ (writeEvent fn v x).hif.bme0 = x.hif.bme0 ∧ (writeEvent fn v x).hif.bme1 = x.hif.bme1 ∧ (writeEvent fn v x).hif.d3hot = x.hif.d3hot ∧ (writeEvent fn v x).rings.sqs = x.rings.sqs := by unfold writeEvent; dsimp only; (repeat' split) <;> simp
@[simp] theorem drainEq_keeps (fn : Fn) (n : Nat) (x : Sent) :
    (drainEq fn n x).hif.power = x.hif.power ∧ (drainEq fn n x).hif.bme0 = x.hif.bme0 ∧ (drainEq fn n x).hif.bme1 = x.hif.bme1 ∧ (drainEq fn n x).hif.d3hot = x.hif.d3hot ∧ (drainEq fn n x).rings.sqs = x.rings.sqs := by
  induction n generalizing x with
  | zero => simp [drainEq]
  | succ n ih => unfold drainEq; dsimp only; (repeat' split) <;> simp [ih]
@[simp] theorem eventWake_keeps (fn : Fn) (x : Sent) :
    (eventWake fn x).hif.power = x.hif.power ∧ (eventWake fn x).hif.bme0 = x.hif.bme0 ∧ (eventWake fn x).hif.bme1 = x.hif.bme1 ∧ (eventWake fn x).hif.d3hot = x.hif.d3hot ∧ (eventWake fn x).rings.sqs = x.rings.sqs := by unfold eventWake; dsimp only; (repeat' split) <;> simp
/-! ## What sending leaves alone in the rings (R85 to R89) -/

/-- The registers of a completion ring that writing a record leaves alone. -/
theorem signalCq_ring (k j : Nat) (x : Sent) : (cqAt (signalCq k x).rings j).enable = (cqAt x.rings j).enable ∧
    (cqAt (signalCq k x).rings j).head = (cqAt x.rings j).head ∧ (cqAt (signalCq k x).rings j).reserved = (cqAt x.rings j).reserved ∧
    (cqAt (signalCq k x).rings j).store = (cqAt x.rings j).store ∧ (j ≠ k → cqAt (signalCq k x).rings j = cqAt x.rings j) := by
  unfold signalCq; dsimp only
  (repeat' split) <;> simp only [cqAt_setCq] <;> by_cases h : j = k <;> simp [h]

theorem writeRecord_ring (k j : Nat) (x : Sent) : (cqAt (writeRecord k x).rings j).enable = (cqAt x.rings j).enable ∧
    (cqAt (writeRecord k x).rings j).head = (cqAt x.rings j).head ∧ (cqAt (writeRecord k x).rings j).reserved = (cqAt x.rings j).reserved ∧
    (j ≠ k → cqAt (writeRecord k x).rings j = cqAt x.rings j) := by
  unfold writeRecord; dsimp only
  split
  · simp
  · split
    · have h := signalCq_ring k j
      simp only [h, cqAt_setCq]
      by_cases hj : j = k <;> simp [hj]
      rw [(h _).2.2.2.2 hj]; simp [cqAt_setCq, hj]
    · simp only [cqAt_setCq]; by_cases hj : j = k <;> simp [hj]

@[simp] theorem drainCq_enable (k n j : Nat) (x : Sent) : (cqAt (drainCq k n x).rings j).enable = (cqAt x.rings j).enable ∧
    (cqAt (drainCq k n x).rings j).head = (cqAt x.rings j).head ∧
    (cqAt (drainCq k n x).rings j).reserved = (cqAt x.rings j).reserved := by
  induction n generalizing x with
  | zero => simp [drainCq]
  | succ n ih => unfold drainCq; dsimp only; split <;> simp [ih, writeRecord_ring]

/-- Draining one completion ring leaves every other one alone. -/
theorem drainCq_other (k n : Nat) {j : Nat} (hj : j ≠ k) (x : Sent) : cqAt (drainCq k n x).rings j = cqAt x.rings j := by
  induction n generalizing x with
  | zero => simp [drainCq]
  | succ n ih => unfold drainCq; dsimp only; split <;> simp [ih, (writeRecord_ring k j _).2.2.2 hj]

@[simp] theorem signalEq_ring (fn : Fn) (x : Sent) : (signalEq fn x).rings.cqs = x.rings.cqs ∧
    (eqOf (signalEq fn x).rings fn).enable = (eqOf x.rings fn).enable ∧ (eqOf (signalEq fn x).rings fn).head = (eqOf x.rings fn).head ∧
    (eqOf (signalEq fn x).rings fn).pend = (eqOf x.rings fn).pend := by
  unfold signalEq; dsimp only; (repeat' split) <;> simp

@[simp] theorem writeEvent_ring (fn : Fn) (v : Ev) (x : Sent) : (writeEvent fn v x).rings.cqs = x.rings.cqs ∧
    (eqOf (writeEvent fn v x).rings fn).enable = (eqOf x.rings fn).enable ∧
    (eqOf (writeEvent fn v x).rings fn).head = (eqOf x.rings fn).head ∧
    (eqOf (writeEvent fn v x).rings fn).pend = (eqOf x.rings fn).pend := by
  unfold writeEvent; dsimp only; (repeat' split) <;> simp

@[simp] theorem drainEq_ring (fn : Fn) (n : Nat) (x : Sent) : (drainEq fn n x).rings.cqs = x.rings.cqs ∧
    (eqOf (drainEq fn n x).rings fn).enable = (eqOf x.rings fn).enable ∧
    (eqOf (drainEq fn n x).rings fn).head = (eqOf x.rings fn).head := by
  induction n generalizing x with
  | zero => simp [drainEq]
  | succ n ih => unfold drainEq; dsimp only; (repeat' split) <;> simp [ih]

@[simp] theorem traceRing_ring (b : Bool) (r : TraceRec) (x : Sent) : (traceRing b r x).rings.cqs = x.rings.cqs ∧
    (traceRing b r x).rings.eq0 = x.rings.eq0 ∧ (traceRing b r x).rings.eq1 = x.rings.eq1 := by
  unfold traceRing; dsimp only; (repeat' split) <;> simp

@[simp] theorem traceHeld_keeps (r : TraceRec) (x : Sent) : (traceHeld r x).hif = x.hif ∧ (traceHeld r x).rings.sqs = x.rings.sqs ∧
    (traceHeld r x).rings.cqs = x.rings.cqs ∧ (traceHeld r x).rings.eq0 = x.rings.eq0 ∧ (traceHeld r x).rings.eq1 = x.rings.eq1 := by
  unfold traceHeld
  generalize (if r.level = 2 then x.rings.t2 else x.rings.t1) = e
  by_cases h : e.enable = true <;> simp [h]

/-- The trace records that waited touch neither the link nor a command, completion or event ring. -/
@[simp] theorem traceFold_keeps (l : List TraceRec) (x : Sent) : (l.foldl (fun x r => traceHeld r x) x).hif = x.hif ∧
    (l.foldl (fun x r => traceHeld r x) x).rings.sqs = x.rings.sqs ∧ (l.foldl (fun x r => traceHeld r x) x).rings.cqs = x.rings.cqs ∧
    (l.foldl (fun x r => traceHeld r x) x).rings.eq0 = x.rings.eq0 ∧ (l.foldl (fun x r => traceHeld r x) x).rings.eq1 = x.rings.eq1 := by
  induction l generalizing x with
  | nil => simp
  | cons r l ih => simp [ih]

@[simp] theorem putLive_keeps (off : Nat) (w : Word) (c : Conf) : (putLive off w c).regs = c.regs ∧ (putLive off w c).tables = c.tables := by
  simp [putLive]
@[simp] theorem setSlot_keeps (i : Nat) (sl : Slot) (c : Conf) : (setSlot i sl c).regs = c.regs ∧ (setSlot i sl c).tables = c.tables := by
  simp [setSlot]
@[simp] theorem resetConf_keeps (c : Conf) : (resetConf c).regs = c.regs ∧ (resetConf c).tables = c.tables := by simp [resetConf]
@[simp] theorem stageBytes_keeps (s : State) (n id off : Nat) (d : Bytes) : (stageBytes s n id off d).regs = s.conf.regs ∧ (stageBytes s n id off d).tables = s.conf.tables := by
  unfold stageBytes; (try dsimp only); (repeat' split) <;> simp
@[simp] theorem armSlots_keeps (mask : List Nat) (fe : Option Nat) (c : Conf) : (armSlots mask fe c).regs = c.regs ∧ (armSlots mask fe c).tables = c.tables := by
  unfold armSlots
  induction mask generalizing c with
  | nil => simp
  | cons a l ih => simp [ih]
@[simp] theorem enterWatch_keeps (p : Nat) (m : Mem) : (enterWatch p m).bytes = m.bytes ∧ (enterWatch p m).written = m.written := by
  unfold enterWatch; (repeat' split) <;> simp
@[simp] theorem watchCorrection_keeps (p : Nat) (m : Mem) : (watchCorrection p m).bytes = m.bytes ∧ (watchCorrection p m).written = m.written := by
  unfold watchCorrection; (repeat' split) <;> simp
@[simp] theorem nextVisit_keeps (m : Mem) : (nextVisit m).bytes = m.bytes ∧ (nextVisit m).written = m.written := by
  unfold nextVisit; dsimp only; (repeat' split) <;> simp
@[simp] theorem guardPages_keeps (p n : Nat) (v : Bool) (m : Mem) : (guardPages p n v m).bytes = m.bytes ∧ (guardPages p n v m).written = m.written := by
  simp [guardPages]
@[simp] theorem setCfg_keeps (fn : Fn) (c : Cfg) (h : Hif) : (setCfg fn c h).power = h.power ∧ (setCfg fn c h).bme0 = h.bme0 ∧
    (setCfg fn c h).bme1 = h.bme1 ∧ (setCfg fn c h).d3hot = h.d3hot := by
  cases fn <;> exact ⟨rfl, rfl, rfl, rfl⟩
@[simp] theorem resetConfigSpace_power (fn : Fn) (h : Hif) : (resetConfigSpace fn h).power = h.power := by
  cases fn <;> simp [resetConfigSpace]
@[simp] theorem setMsix_keeps (fn : Fn) (t : MsixTarget) (b : Bool) (h : Hif) : (setMsix fn t b h).power = h.power ∧
    (setMsix fn t b h).bme0 = h.bme0 ∧ (setMsix fn t b h).bme1 = h.bme1 ∧ (setMsix fn t b h).d3hot = h.d3hot := by
  cases t <;> cases fn <;> simp only [setMsix] <;> (repeat' split) <;> simp
theorem afterTransfer_ite (s : State) (c : Prop) [Decidable c] (a b : Transfer) :
    afterTransfer s (if c then a else b) = if c then afterTransfer s a else afterTransfer s b := by
  split <;> rfl
theorem afterTransfer_bad (s : State) (r : Nat) : afterTransfer s (.bad r) = s := rfl
theorem afterTransfer_ran (s t : State) (st : Nat) (res : List Nat) : afterTransfer s (.ran t st res) = t := rfl
@[simp] theorem markWritten_bytes (p n : Nat) (raw : List Nat) (m : Mem) : (markWritten p n raw m).bytes = m.bytes := rfl
@[simp] theorem guardFold_keeps {β : Type} (l : List β) (g : β → Nat) (n : Nat) (v : Bool) (m : Mem) :
    (l.foldl (fun m p => guardPages (g p) n v m) m).bytes = m.bytes ∧ (l.foldl (fun m p => guardPages (g p) n v m) m).written = m.written := by
  induction l generalizing m with
  | nil => exact ⟨rfl, rfl⟩
  | cons a l ih => simp [ih]

/-! ## Running a ring's command (R82, R83) -/

/-- A ready command runs. -/
theorem runRing_ready {fn : Fn} {n op : Nat} {f : Running → State → State} {s : State} {r : Running}
    (h : ready s fn n op = some r) : runRing fn n op f s = .next (f r s) := by simp [runRing, h]
/-- A command that is not ready changes nothing. -/
theorem runRing_idle {fn : Fn} {n op : Nat} {f : Running → State → State} {s : State} (h : ready s fn n op = none) :
    runRing fn n op f s = .next s := by simp [runRing, h]
/-- A host access over a link that carries traffic acts. -/
theorem hostOp_up {f : State → State} {s : State} (h : linkUp s = true) (hf : s.pwr.fall = .idle) : hostOp f s = .next (f s) := by
  simp only [linkUp, decide_eq_true_eq] at h
  simp [hostOp, h, hf]
/-- A host access in L1 makes the link leave L1 and then acts (R61). -/
theorem hostOp_l1 {f : State → State} {s : State} (h : s.hif.power = .l1) (hf : s.pwr.fall = .idle) :
    hostOp f s = .next (f (leaveL1 s)) := by
  simp [hostOp, h, hf]
/-- While the link is down or in L2 nothing comes from the host. -/
theorem hostOp_down {f : State → State} {s : State} (h : s.hif.power = .down ∨ s.hif.power = .l2) : hostOp f s = .next s := by
  rcases h with h | h <;> simp [hostOp, h]
/-- Nothing comes from the host in the fall (R411). -/
theorem hostOp_fall {f : State → State} {s : State} (h : s.pwr.fall ≠ .idle) : hostOp f s = .next s := by simp [hostOp, h]

end Sys2Proof.Laws
end

