-- ==== Sys2Proof/Laws/FramesA.lean ====
section
/-!
SUPPORT. What each function of a group leaves alone: the shared operations, the rings, Gauze, Damask, Linen, the faults, security and module memory. One lemma a function: every part of the state that it does not
touch, and the fields of a touched part that it keeps; `_sound` says that it keeps module memory sound.
-/
namespace Sys2Proof.Laws
open Sys2Proof.Machine


@[simp] theorem forAll_sound {α : Type} (l : List α) (f : α → State → State) (s : State)
    (h : ∀ a s, PagesSound s.mem.bytes s.mem.written → PagesSound (f a s).mem.bytes (f a s).mem.written)
    (hs : PagesSound s.mem.bytes s.mem.written) : PagesSound (forAll l f s).mem.bytes (forAll l f s).mem.written := by
  unfold forAll
  induction l generalizing s with
  | nil => exact hs
  | cons a l ih => exact ih _ (h a s hs)

@[simp] theorem foldl_sound {α : Type} (l : List α) (f : State → α → State) (s : State)
    (h : ∀ s a, PagesSound s.mem.bytes s.mem.written → PagesSound (f s a).mem.bytes (f s a).mem.written)
    (hs : PagesSound s.mem.bytes s.mem.written) : PagesSound (l.foldl f s).mem.bytes (l.foldl f s).mem.written := by
  induction l generalizing s with
  | nil => exact hs
  | cons a l ih => exact ih _ (h s a hs)

@[simp] theorem ite_sound (c : Prop) [Decidable c] (a b : State) (ha : PagesSound a.mem.bytes a.mem.written)
    (hb : PagesSound b.mem.bytes b.mem.written) :
    PagesSound (if c then a.mem.bytes else b.mem.bytes) (if c then a.mem.written else b.mem.written) := by
  split <;> assumption

theorem ite_state_sound (c : Prop) [Decidable c] (a b : State) (ha : PagesSound a.mem.bytes a.mem.written)
    (hb : PagesSound b.mem.bytes b.mem.written) :
    PagesSound (if c then a else b).mem.bytes (if c then a else b).mem.written := by
  split <;> assumption

theorem clearFold_sound (l : List Nat) (m : Mem) (h : PagesSound m.bytes m.written) :
    PagesSound (l.foldl (fun m p => clearPages p 1 m) m).bytes (l.foldl (fun m p => clearPages p 1 m) m).written := by
  induction l generalizing m with
  | nil => exact h
  | cons p l ih => exact ih _ (clearPages_sound p 1 h)

theorem releaseFold_sound (l : List Nat) (m : Mem) (h : PagesSound m.bytes m.written) :
    PagesSound (l.foldl (fun m p => guardPages p 1 false (clearPages p 1 m)) m).bytes
      (l.foldl (fun m p => guardPages p 1 false (clearPages p 1 m)) m).written := by
  induction l generalizing m with
  | nil => exact h
  | cons p l ih => exact ih _ (by simpa using clearPages_sound p 1 h)


@[simp] theorem skipFree_frame (n : Nat) (s : State) :
    (skipFree n s).sys = s.sys ∧ (skipFree n s).pwr = s.pwr ∧ (skipFree n s).hif = s.hif ∧ (skipFree n s).rings = s.rings ∧ (skipFree n s).conf = s.conf ∧ (skipFree n s).ing = s.ing ∧ (skipFree n s).pix = s.pix ∧ (skipFree n s).gz = s.gz ∧ (skipFree n s).lmp = s.lmp ∧ (skipFree n s).dmk = s.dmk ∧ (skipFree n s).od = s.od ∧ (skipFree n s).tmg = s.tmg ∧ (skipFree n s).pnl = s.pnl ∧ (skipFree n s).twl = s.twl ∧ (skipFree n s).cue = s.cue ∧ (skipFree n s).mem = s.mem ∧ (skipFree n s).lin = s.lin ∧ (skipFree n s).cal = s.cal ∧ (skipFree n s).gng = s.gng ∧ (skipFree n s).sec = s.sec ∧ (skipFree n s).flt = s.flt ∧ (skipFree n s).thm = s.thm ∧ (skipFree n s).trc = s.trc ∧ (skipFree n s).bst = s.bst ∧ (skipFree n s).out = s.out ∧ (skipFree n s).pending = s.pending := by
  unfold skipFree
  (try dsimp only)
  (repeat' split) <;> (try simp)

@[simp] theorem emit_frame (o : List Output) (s : State) :
    (emit o s).sys = s.sys ∧ (emit o s).pwr = s.pwr ∧ (emit o s).hif = s.hif ∧ (emit o s).rings = s.rings ∧ (emit o s).conf = s.conf ∧ (emit o s).ing = s.ing ∧ (emit o s).pix = s.pix ∧ (emit o s).gz = s.gz ∧ (emit o s).lmp = s.lmp ∧ (emit o s).dmk = s.dmk ∧ (emit o s).od = s.od ∧ (emit o s).tmg = s.tmg ∧ (emit o s).pnl = s.pnl ∧ (emit o s).twl = s.twl ∧ (emit o s).cue = s.cue ∧ (emit o s).mem = s.mem ∧ (emit o s).lin = s.lin ∧ (emit o s).cal = s.cal ∧ (emit o s).gng = s.gng ∧ (emit o s).sec = s.sec ∧ (emit o s).flt = s.flt ∧ (emit o s).thm = s.thm ∧ (emit o s).trc = s.trc ∧ (emit o s).bst = s.bst ∧ (emit o s).free = s.free ∧ (emit o s).pending = s.pending := by
  unfold emit
  (try dsimp only)
  (repeat' split) <;> (try simp)

@[simp] theorem aer_frame (fn : Fn) (b : Nat) (s : State) :
    (aer fn b s).sys = s.sys ∧ (aer fn b s).pwr = s.pwr ∧ (aer fn b s).rings = s.rings ∧ (aer fn b s).conf = s.conf ∧ (aer fn b s).ing = s.ing ∧ (aer fn b s).pix = s.pix ∧ (aer fn b s).gz = s.gz ∧ (aer fn b s).lmp = s.lmp ∧ (aer fn b s).dmk = s.dmk ∧ (aer fn b s).od = s.od ∧ (aer fn b s).tmg = s.tmg ∧ (aer fn b s).pnl = s.pnl ∧ (aer fn b s).twl = s.twl ∧ (aer fn b s).cue = s.cue ∧ (aer fn b s).mem = s.mem ∧ (aer fn b s).lin = s.lin ∧ (aer fn b s).cal = s.cal ∧ (aer fn b s).gng = s.gng ∧ (aer fn b s).sec = s.sec ∧ (aer fn b s).flt = s.flt ∧ (aer fn b s).thm = s.thm ∧ (aer fn b s).trc = s.trc ∧ (aer fn b s).bst = s.bst ∧ (aer fn b s).pending = s.pending ∧ (aer fn b s).hif.power = s.hif.power ∧ (aer fn b s).hif.bme0 = s.hif.bme0 ∧ (aer fn b s).hif.bme1 = s.hif.bme1 ∧ (aer fn b s).hif.d3hot = s.hif.d3hot := by
  unfold aer
  (try dsimp only)
  (repeat' split) <;> (try simp)

@[simp] theorem reportRead_frame (fn : Fn) (d : Rd) (s : State) :
    (reportRead fn d s).sys = s.sys ∧ (reportRead fn d s).pwr = s.pwr ∧ (reportRead fn d s).rings = s.rings ∧ (reportRead fn d s).conf = s.conf ∧ (reportRead fn d s).ing = s.ing ∧ (reportRead fn d s).pix = s.pix ∧ (reportRead fn d s).gz = s.gz ∧ (reportRead fn d s).lmp = s.lmp ∧ (reportRead fn d s).dmk = s.dmk ∧ (reportRead fn d s).od = s.od ∧ (reportRead fn d s).tmg = s.tmg ∧ (reportRead fn d s).pnl = s.pnl ∧ (reportRead fn d s).twl = s.twl ∧ (reportRead fn d s).cue = s.cue ∧ (reportRead fn d s).mem = s.mem ∧ (reportRead fn d s).lin = s.lin ∧ (reportRead fn d s).cal = s.cal ∧ (reportRead fn d s).gng = s.gng ∧ (reportRead fn d s).sec = s.sec ∧ (reportRead fn d s).flt = s.flt ∧ (reportRead fn d s).thm = s.thm ∧ (reportRead fn d s).trc = s.trc ∧ (reportRead fn d s).bst = s.bst ∧ (reportRead fn d s).pending = s.pending ∧ (reportRead fn d s).hif.power = s.hif.power ∧ (reportRead fn d s).hif.bme0 = s.hif.bme0 ∧ (reportRead fn d s).hif.bme1 = s.hif.bme1 ∧ (reportRead fn d s).hif.d3hot = s.hif.d3hot := by
  unfold reportRead
  (try simp)
  (repeat' split) <;> (try simp)

@[simp] theorem flushCq_frame (key : Nat) (s : State) :
    (flushCq key s).sys = s.sys ∧ (flushCq key s).pwr = s.pwr ∧ (flushCq key s).conf = s.conf ∧ (flushCq key s).ing = s.ing ∧ (flushCq key s).pix = s.pix ∧ (flushCq key s).gz = s.gz ∧ (flushCq key s).lmp = s.lmp ∧ (flushCq key s).dmk = s.dmk ∧ (flushCq key s).od = s.od ∧ (flushCq key s).tmg = s.tmg ∧ (flushCq key s).pnl = s.pnl ∧ (flushCq key s).twl = s.twl ∧ (flushCq key s).cue = s.cue ∧ (flushCq key s).mem = s.mem ∧ (flushCq key s).lin = s.lin ∧ (flushCq key s).cal = s.cal ∧ (flushCq key s).gng = s.gng ∧ (flushCq key s).sec = s.sec ∧ (flushCq key s).flt = s.flt ∧ (flushCq key s).thm = s.thm ∧ (flushCq key s).trc = s.trc ∧ (flushCq key s).bst = s.bst ∧ (flushCq key s).free = s.free ∧ (flushCq key s).pending = s.pending ∧ (flushCq key s).hif.power = s.hif.power ∧ (flushCq key s).hif.bme0 = s.hif.bme0 ∧ (flushCq key s).hif.bme1 = s.hif.bme1 ∧ (flushCq key s).hif.d3hot = s.hif.d3hot ∧ (flushCq key s).rings.sqs = s.rings.sqs := by
  unfold flushCq
  (try simp)
  (repeat' split) <;> (try simp)

@[simp] theorem traceLanes_frame (on : Bool) (s : State) :
    (traceLanes on s).sys = s.sys ∧ (traceLanes on s).pwr = s.pwr ∧ (traceLanes on s).hif = s.hif ∧ (traceLanes on s).rings = s.rings ∧ (traceLanes on s).conf = s.conf ∧ (traceLanes on s).ing = s.ing ∧ (traceLanes on s).pix = s.pix ∧ (traceLanes on s).gz = s.gz ∧ (traceLanes on s).lmp = s.lmp ∧ (traceLanes on s).dmk = s.dmk ∧ (traceLanes on s).od = s.od ∧ (traceLanes on s).tmg = s.tmg ∧ (traceLanes on s).pnl = s.pnl ∧ (traceLanes on s).twl = s.twl ∧ (traceLanes on s).cue = s.cue ∧ (traceLanes on s).mem = s.mem ∧ (traceLanes on s).lin = s.lin ∧ (traceLanes on s).cal = s.cal ∧ (traceLanes on s).gng = s.gng ∧ (traceLanes on s).sec = s.sec ∧ (traceLanes on s).flt = s.flt ∧ (traceLanes on s).thm = s.thm ∧ (traceLanes on s).trc = s.trc ∧ (traceLanes on s).bst = s.bst ∧ (traceLanes on s).free = s.free ∧ (traceLanes on s).pending = s.pending := by
  unfold traceLanes
  (repeat' split) <;> (try simp)

@[simp] theorem sendTrace_frame (r : TraceRec) (s : State) :
    (sendTrace r s).sys = s.sys ∧ (sendTrace r s).pwr = s.pwr ∧ (sendTrace r s).conf = s.conf ∧ (sendTrace r s).ing = s.ing ∧ (sendTrace r s).pix = s.pix ∧ (sendTrace r s).gz = s.gz ∧ (sendTrace r s).lmp = s.lmp ∧ (sendTrace r s).dmk = s.dmk ∧ (sendTrace r s).od = s.od ∧ (sendTrace r s).tmg = s.tmg ∧ (sendTrace r s).pnl = s.pnl ∧ (sendTrace r s).twl = s.twl ∧ (sendTrace r s).cue = s.cue ∧ (sendTrace r s).mem = s.mem ∧ (sendTrace r s).lin = s.lin ∧ (sendTrace r s).cal = s.cal ∧ (sendTrace r s).gng = s.gng ∧ (sendTrace r s).sec = s.sec ∧ (sendTrace r s).flt = s.flt ∧ (sendTrace r s).thm = s.thm ∧ (sendTrace r s).trc = s.trc ∧ (sendTrace r s).bst = s.bst ∧ (sendTrace r s).pending = s.pending ∧ (sendTrace r s).hif.power = s.hif.power ∧ (sendTrace r s).hif.bme0 = s.hif.bme0 ∧ (sendTrace r s).hif.bme1 = s.hif.bme1 ∧ (sendTrace r s).hif.d3hot = s.hif.d3hot ∧ (sendTrace r s).rings.sqs = s.rings.sqs ∧ (sendTrace r s).rings.cqs = s.rings.cqs ∧ (sendTrace r s).rings.eq0 = s.rings.eq0 ∧ (sendTrace r s).rings.eq1 = s.rings.eq1 := by
  unfold sendTrace
  (try simp)
  (repeat' split) <;> (try simp)

@[simp] theorem flushTrace_frame (s : State) :
    (flushTrace s).sys = s.sys ∧ (flushTrace s).pwr = s.pwr ∧ (flushTrace s).conf = s.conf ∧ (flushTrace s).ing = s.ing ∧ (flushTrace s).pix = s.pix ∧ (flushTrace s).gz = s.gz ∧ (flushTrace s).lmp = s.lmp ∧ (flushTrace s).dmk = s.dmk ∧ (flushTrace s).od = s.od ∧ (flushTrace s).tmg = s.tmg ∧ (flushTrace s).pnl = s.pnl ∧ (flushTrace s).twl = s.twl ∧ (flushTrace s).cue = s.cue ∧ (flushTrace s).mem = s.mem ∧ (flushTrace s).lin = s.lin ∧ (flushTrace s).cal = s.cal ∧ (flushTrace s).gng = s.gng ∧ (flushTrace s).sec = s.sec ∧ (flushTrace s).flt = s.flt ∧ (flushTrace s).thm = s.thm ∧ (flushTrace s).trc = s.trc ∧ (flushTrace s).bst = s.bst ∧ (flushTrace s).free = s.free ∧ (flushTrace s).pending = s.pending ∧ (flushTrace s).hif.power = s.hif.power ∧ (flushTrace s).hif.bme0 = s.hif.bme0 ∧ (flushTrace s).hif.bme1 = s.hif.bme1 ∧ (flushTrace s).hif.d3hot = s.hif.d3hot ∧ (flushTrace s).rings.sqs = s.rings.sqs ∧ (flushTrace s).rings.cqs = s.rings.cqs ∧ (flushTrace s).rings.eq0 = s.rings.eq0 ∧ (flushTrace s).rings.eq1 = s.rings.eq1 := by
  unfold flushTrace
  (try simp)
  (repeat' split) <;> (try simp)

@[simp] theorem conBoot_frame (step : Nat) (s : State) :
    (conBoot step s).sys = s.sys ∧ (conBoot step s).pwr = s.pwr ∧ (conBoot step s).hif = s.hif ∧ (conBoot step s).rings = s.rings ∧ (conBoot step s).conf = s.conf ∧ (conBoot step s).ing = s.ing ∧ (conBoot step s).pix = s.pix ∧ (conBoot step s).gz = s.gz ∧ (conBoot step s).lmp = s.lmp ∧ (conBoot step s).dmk = s.dmk ∧ (conBoot step s).od = s.od ∧ (conBoot step s).tmg = s.tmg ∧ (conBoot step s).pnl = s.pnl ∧ (conBoot step s).twl = s.twl ∧ (conBoot step s).cue = s.cue ∧ (conBoot step s).mem = s.mem ∧ (conBoot step s).lin = s.lin ∧ (conBoot step s).cal = s.cal ∧ (conBoot step s).gng = s.gng ∧ (conBoot step s).sec = s.sec ∧ (conBoot step s).flt = s.flt ∧ (conBoot step s).thm = s.thm ∧ (conBoot step s).bst = s.bst ∧ (conBoot step s).out = s.out ∧ (conBoot step s).free = s.free ∧ (conBoot step s).pending = s.pending := by
  unfold conBoot
  (try dsimp only)
  (repeat' split) <;> (try simp)

@[simp] theorem makeTrace_frame (level src payload : Nat) (s : State) :
    (makeTrace level src payload s).sys = s.sys ∧ (makeTrace level src payload s).pwr = s.pwr ∧ (makeTrace level src payload s).conf = s.conf ∧ (makeTrace level src payload s).ing = s.ing ∧ (makeTrace level src payload s).pix = s.pix ∧ (makeTrace level src payload s).gz = s.gz ∧ (makeTrace level src payload s).lmp = s.lmp ∧ (makeTrace level src payload s).dmk = s.dmk ∧ (makeTrace level src payload s).od = s.od ∧ (makeTrace level src payload s).tmg = s.tmg ∧ (makeTrace level src payload s).pnl = s.pnl ∧ (makeTrace level src payload s).twl = s.twl ∧ (makeTrace level src payload s).cue = s.cue ∧ (makeTrace level src payload s).mem = s.mem ∧ (makeTrace level src payload s).lin = s.lin ∧ (makeTrace level src payload s).cal = s.cal ∧ (makeTrace level src payload s).gng = s.gng ∧ (makeTrace level src payload s).sec = s.sec ∧ (makeTrace level src payload s).flt = s.flt ∧ (makeTrace level src payload s).thm = s.thm ∧ (makeTrace level src payload s).bst = s.bst ∧ (makeTrace level src payload s).pending = s.pending ∧ (makeTrace level src payload s).hif.power = s.hif.power ∧ (makeTrace level src payload s).hif.bme0 = s.hif.bme0 ∧ (makeTrace level src payload s).hif.bme1 = s.hif.bme1 ∧ (makeTrace level src payload s).hif.d3hot = s.hif.d3hot ∧ (makeTrace level src payload s).rings.sqs = s.rings.sqs ∧ (makeTrace level src payload s).rings.cqs = s.rings.cqs ∧ (makeTrace level src payload s).rings.eq0 = s.rings.eq0 ∧ (makeTrace level src payload s).rings.eq1 = s.rings.eq1 := by
  unfold makeTrace
  (try simp)
  (repeat' split) <;> (try simp)

@[simp] theorem trace1_frame (src : Nat) (s : State) :
    (trace1 src s).sys = s.sys ∧ (trace1 src s).pwr = s.pwr ∧ (trace1 src s).conf = s.conf ∧ (trace1 src s).ing = s.ing ∧ (trace1 src s).pix = s.pix ∧ (trace1 src s).gz = s.gz ∧ (trace1 src s).lmp = s.lmp ∧ (trace1 src s).dmk = s.dmk ∧ (trace1 src s).od = s.od ∧ (trace1 src s).tmg = s.tmg ∧ (trace1 src s).pnl = s.pnl ∧ (trace1 src s).twl = s.twl ∧ (trace1 src s).cue = s.cue ∧ (trace1 src s).mem = s.mem ∧ (trace1 src s).lin = s.lin ∧ (trace1 src s).cal = s.cal ∧ (trace1 src s).gng = s.gng ∧ (trace1 src s).sec = s.sec ∧ (trace1 src s).flt = s.flt ∧ (trace1 src s).thm = s.thm ∧ (trace1 src s).bst = s.bst ∧ (trace1 src s).pending = s.pending ∧ (trace1 src s).hif.power = s.hif.power ∧ (trace1 src s).hif.bme0 = s.hif.bme0 ∧ (trace1 src s).hif.bme1 = s.hif.bme1 ∧ (trace1 src s).hif.d3hot = s.hif.d3hot ∧ (trace1 src s).rings.sqs = s.rings.sqs ∧ (trace1 src s).rings.cqs = s.rings.cqs ∧ (trace1 src s).rings.eq0 = s.rings.eq0 ∧ (trace1 src s).rings.eq1 = s.rings.eq1 := by
  unfold trace1
  (repeat' split) <;> (try simp)

@[simp] theorem postRec_frame (key : Nat) (r : Rec) (s : State) :
    (postRec key r s).sys = s.sys ∧ (postRec key r s).pwr = s.pwr ∧ (postRec key r s).conf = s.conf ∧ (postRec key r s).ing = s.ing ∧ (postRec key r s).pix = s.pix ∧ (postRec key r s).gz = s.gz ∧ (postRec key r s).lmp = s.lmp ∧ (postRec key r s).dmk = s.dmk ∧ (postRec key r s).od = s.od ∧ (postRec key r s).tmg = s.tmg ∧ (postRec key r s).pnl = s.pnl ∧ (postRec key r s).twl = s.twl ∧ (postRec key r s).cue = s.cue ∧ (postRec key r s).mem = s.mem ∧ (postRec key r s).lin = s.lin ∧ (postRec key r s).cal = s.cal ∧ (postRec key r s).gng = s.gng ∧ (postRec key r s).sec = s.sec ∧ (postRec key r s).flt = s.flt ∧ (postRec key r s).thm = s.thm ∧ (postRec key r s).bst = s.bst ∧ (postRec key r s).pending = s.pending ∧ (postRec key r s).hif.power = s.hif.power ∧ (postRec key r s).hif.bme0 = s.hif.bme0 ∧ (postRec key r s).hif.bme1 = s.hif.bme1 ∧ (postRec key r s).hif.d3hot = s.hif.d3hot ∧ (postRec key r s).rings.sqs = s.rings.sqs := by
  unfold postRec
  (try dsimp only)
  (repeat' split) <;> (try simp)

@[simp] theorem flushEq_frame (fn : Fn) (s : State) :
    (flushEq fn s).sys = s.sys ∧ (flushEq fn s).pwr = s.pwr ∧ (flushEq fn s).conf = s.conf ∧ (flushEq fn s).ing = s.ing ∧ (flushEq fn s).pix = s.pix ∧ (flushEq fn s).gz = s.gz ∧ (flushEq fn s).lmp = s.lmp ∧ (flushEq fn s).dmk = s.dmk ∧ (flushEq fn s).od = s.od ∧ (flushEq fn s).tmg = s.tmg ∧ (flushEq fn s).pnl = s.pnl ∧ (flushEq fn s).twl = s.twl ∧ (flushEq fn s).cue = s.cue ∧ (flushEq fn s).mem = s.mem ∧ (flushEq fn s).lin = s.lin ∧ (flushEq fn s).cal = s.cal ∧ (flushEq fn s).gng = s.gng ∧ (flushEq fn s).sec = s.sec ∧ (flushEq fn s).flt = s.flt ∧ (flushEq fn s).thm = s.thm ∧ (flushEq fn s).trc = s.trc ∧ (flushEq fn s).bst = s.bst ∧ (flushEq fn s).free = s.free ∧ (flushEq fn s).pending = s.pending ∧ (flushEq fn s).hif.power = s.hif.power ∧ (flushEq fn s).hif.bme0 = s.hif.bme0 ∧ (flushEq fn s).hif.bme1 = s.hif.bme1 ∧ (flushEq fn s).hif.d3hot = s.hif.d3hot ∧ (flushEq fn s).rings.sqs = s.rings.sqs ∧ (flushEq fn s).rings.cqs = s.rings.cqs := by
  unfold flushEq
  (try simp)
  (repeat' split) <;> (try simp)

@[simp] theorem postTo_frame (fn : Fn) (v : Ev) (s : State) :
    (postTo fn v s).sys = s.sys ∧ (postTo fn v s).pwr = s.pwr ∧ (postTo fn v s).conf = s.conf ∧ (postTo fn v s).ing = s.ing ∧ (postTo fn v s).pix = s.pix ∧ (postTo fn v s).gz = s.gz ∧ (postTo fn v s).lmp = s.lmp ∧ (postTo fn v s).dmk = s.dmk ∧ (postTo fn v s).od = s.od ∧ (postTo fn v s).tmg = s.tmg ∧ (postTo fn v s).pnl = s.pnl ∧ (postTo fn v s).twl = s.twl ∧ (postTo fn v s).cue = s.cue ∧ (postTo fn v s).mem = s.mem ∧ (postTo fn v s).lin = s.lin ∧ (postTo fn v s).cal = s.cal ∧ (postTo fn v s).gng = s.gng ∧ (postTo fn v s).sec = s.sec ∧ (postTo fn v s).flt = s.flt ∧ (postTo fn v s).thm = s.thm ∧ (postTo fn v s).trc = s.trc ∧ (postTo fn v s).bst = s.bst ∧ (postTo fn v s).free = s.free ∧ (postTo fn v s).pending = s.pending ∧ (postTo fn v s).hif.power = s.hif.power ∧ (postTo fn v s).hif.bme0 = s.hif.bme0 ∧ (postTo fn v s).hif.bme1 = s.hif.bme1 ∧ (postTo fn v s).hif.d3hot = s.hif.d3hot ∧ (postTo fn v s).rings.sqs = s.rings.sqs := by
  unfold postTo
  (try simp)
  (repeat' split) <;> (try simp)

@[simp] theorem post_frame (code sev : Nat) (p : List Nat) (s : State) :
    (post code sev p s).sys = s.sys ∧ (post code sev p s).pwr = s.pwr ∧ (post code sev p s).conf = s.conf ∧ (post code sev p s).ing = s.ing ∧ (post code sev p s).pix = s.pix ∧ (post code sev p s).gz = s.gz ∧ (post code sev p s).lmp = s.lmp ∧ (post code sev p s).dmk = s.dmk ∧ (post code sev p s).od = s.od ∧ (post code sev p s).tmg = s.tmg ∧ (post code sev p s).pnl = s.pnl ∧ (post code sev p s).twl = s.twl ∧ (post code sev p s).cue = s.cue ∧ (post code sev p s).mem = s.mem ∧ (post code sev p s).lin = s.lin ∧ (post code sev p s).cal = s.cal ∧ (post code sev p s).gng = s.gng ∧ (post code sev p s).sec = s.sec ∧ (post code sev p s).flt = s.flt ∧ (post code sev p s).thm = s.thm ∧ (post code sev p s).trc = s.trc ∧ (post code sev p s).bst = s.bst ∧ (post code sev p s).free = s.free ∧ (post code sev p s).pending = s.pending ∧ (post code sev p s).hif.power = s.hif.power ∧ (post code sev p s).hif.bme0 = s.hif.bme0 ∧ (post code sev p s).hif.bme1 = s.hif.bme1 ∧ (post code sev p s).hif.d3hot = s.hif.d3hot ∧ (post code sev p s).rings.sqs = s.rings.sqs := by
  unfold post
  (repeat' split) <;> (try simp)

@[simp] theorem postFe_frame (code sev fe : Nat) (p : List Nat) (s : State) :
    (postFe code sev fe p s).sys = s.sys ∧ (postFe code sev fe p s).pwr = s.pwr ∧ (postFe code sev fe p s).conf = s.conf ∧ (postFe code sev fe p s).ing = s.ing ∧ (postFe code sev fe p s).pix = s.pix ∧ (postFe code sev fe p s).gz = s.gz ∧ (postFe code sev fe p s).lmp = s.lmp ∧ (postFe code sev fe p s).dmk = s.dmk ∧ (postFe code sev fe p s).od = s.od ∧ (postFe code sev fe p s).tmg = s.tmg ∧ (postFe code sev fe p s).pnl = s.pnl ∧ (postFe code sev fe p s).twl = s.twl ∧ (postFe code sev fe p s).cue = s.cue ∧ (postFe code sev fe p s).mem = s.mem ∧ (postFe code sev fe p s).lin = s.lin ∧ (postFe code sev fe p s).cal = s.cal ∧ (postFe code sev fe p s).gng = s.gng ∧ (postFe code sev fe p s).sec = s.sec ∧ (postFe code sev fe p s).flt = s.flt ∧ (postFe code sev fe p s).thm = s.thm ∧ (postFe code sev fe p s).trc = s.trc ∧ (postFe code sev fe p s).bst = s.bst ∧ (postFe code sev fe p s).free = s.free ∧ (postFe code sev fe p s).pending = s.pending ∧ (postFe code sev fe p s).hif.power = s.hif.power ∧ (postFe code sev fe p s).hif.bme0 = s.hif.bme0 ∧ (postFe code sev fe p s).hif.bme1 = s.hif.bme1 ∧ (postFe code sev fe p s).hif.d3hot = s.hif.d3hot ∧ (postFe code sev fe p s).rings.sqs = s.rings.sqs := by
  unfold postFe
  (repeat' split) <;> (try simp)

@[simp] theorem postIf_frame (c : Bool) (code sev : Nat) (p : List Nat) (s : State) :
    (postIf c code sev p s).sys = s.sys ∧ (postIf c code sev p s).pwr = s.pwr ∧ (postIf c code sev p s).conf = s.conf ∧ (postIf c code sev p s).ing = s.ing ∧ (postIf c code sev p s).pix = s.pix ∧ (postIf c code sev p s).gz = s.gz ∧ (postIf c code sev p s).lmp = s.lmp ∧ (postIf c code sev p s).dmk = s.dmk ∧ (postIf c code sev p s).od = s.od ∧ (postIf c code sev p s).tmg = s.tmg ∧ (postIf c code sev p s).pnl = s.pnl ∧ (postIf c code sev p s).twl = s.twl ∧ (postIf c code sev p s).cue = s.cue ∧ (postIf c code sev p s).mem = s.mem ∧ (postIf c code sev p s).lin = s.lin ∧ (postIf c code sev p s).cal = s.cal ∧ (postIf c code sev p s).gng = s.gng ∧ (postIf c code sev p s).sec = s.sec ∧ (postIf c code sev p s).flt = s.flt ∧ (postIf c code sev p s).thm = s.thm ∧ (postIf c code sev p s).trc = s.trc ∧ (postIf c code sev p s).bst = s.bst ∧ (postIf c code sev p s).free = s.free ∧ (postIf c code sev p s).pending = s.pending ∧ (postIf c code sev p s).hif.power = s.hif.power ∧ (postIf c code sev p s).hif.bme0 = s.hif.bme0 ∧ (postIf c code sev p s).hif.bme1 = s.hif.bme1 ∧ (postIf c code sev p s).hif.d3hot = s.hif.d3hot ∧ (postIf c code sev p s).rings.sqs = s.rings.sqs := by
  unfold postIf
  (try simp)
  (repeat' split) <;> (try simp)

@[simp] theorem sendPending_frame (fn : Fn) (s : State) :
    (sendPending fn s).sys = s.sys ∧ (sendPending fn s).pwr = s.pwr ∧ (sendPending fn s).conf = s.conf ∧ (sendPending fn s).ing = s.ing ∧ (sendPending fn s).pix = s.pix ∧ (sendPending fn s).gz = s.gz ∧ (sendPending fn s).lmp = s.lmp ∧ (sendPending fn s).dmk = s.dmk ∧ (sendPending fn s).od = s.od ∧ (sendPending fn s).tmg = s.tmg ∧ (sendPending fn s).pnl = s.pnl ∧ (sendPending fn s).twl = s.twl ∧ (sendPending fn s).cue = s.cue ∧ (sendPending fn s).mem = s.mem ∧ (sendPending fn s).lin = s.lin ∧ (sendPending fn s).cal = s.cal ∧ (sendPending fn s).gng = s.gng ∧ (sendPending fn s).sec = s.sec ∧ (sendPending fn s).flt = s.flt ∧ (sendPending fn s).thm = s.thm ∧ (sendPending fn s).trc = s.trc ∧ (sendPending fn s).bst = s.bst ∧ (sendPending fn s).free = s.free ∧ (sendPending fn s).pending = s.pending ∧ (sendPending fn s).hif.power = s.hif.power ∧ (sendPending fn s).hif.bme0 = s.hif.bme0 ∧ (sendPending fn s).hif.bme1 = s.hif.bme1 ∧ (sendPending fn s).hif.d3hot = s.hif.d3hot ∧ (sendPending fn s).rings.sqs = s.rings.sqs := by
  unfold sendPending
  (try simp)
  (repeat' split) <;> (try simp)

@[simp] theorem flushAll_frame (s : State) :
    (flushAll s).sys = s.sys ∧ (flushAll s).pwr = s.pwr ∧ (flushAll s).conf = s.conf ∧ (flushAll s).ing = s.ing ∧ (flushAll s).pix = s.pix ∧ (flushAll s).gz = s.gz ∧ (flushAll s).lmp = s.lmp ∧ (flushAll s).dmk = s.dmk ∧ (flushAll s).od = s.od ∧ (flushAll s).tmg = s.tmg ∧ (flushAll s).pnl = s.pnl ∧ (flushAll s).twl = s.twl ∧ (flushAll s).cue = s.cue ∧ (flushAll s).mem = s.mem ∧ (flushAll s).lin = s.lin ∧ (flushAll s).cal = s.cal ∧ (flushAll s).gng = s.gng ∧ (flushAll s).sec = s.sec ∧ (flushAll s).flt = s.flt ∧ (flushAll s).thm = s.thm ∧ (flushAll s).trc = s.trc ∧ (flushAll s).bst = s.bst ∧ (flushAll s).free = s.free ∧ (flushAll s).pending = s.pending ∧ (flushAll s).hif.power = s.hif.power ∧ (flushAll s).hif.d3hot = s.hif.d3hot ∧ (flushAll s).rings.sqs = s.rings.sqs := by
  unfold flushAll
  (repeat' split) <;> (try simp)

@[simp] theorem leaveL1_frame (s : State) :
    (leaveL1 s).sys = s.sys ∧ (leaveL1 s).pwr = s.pwr ∧ (leaveL1 s).conf = s.conf ∧ (leaveL1 s).ing = s.ing ∧ (leaveL1 s).pix = s.pix ∧ (leaveL1 s).gz = s.gz ∧ (leaveL1 s).lmp = s.lmp ∧ (leaveL1 s).dmk = s.dmk ∧ (leaveL1 s).od = s.od ∧ (leaveL1 s).tmg = s.tmg ∧ (leaveL1 s).pnl = s.pnl ∧ (leaveL1 s).twl = s.twl ∧ (leaveL1 s).cue = s.cue ∧ (leaveL1 s).mem = s.mem ∧ (leaveL1 s).lin = s.lin ∧ (leaveL1 s).cal = s.cal ∧ (leaveL1 s).gng = s.gng ∧ (leaveL1 s).sec = s.sec ∧ (leaveL1 s).flt = s.flt ∧ (leaveL1 s).thm = s.thm ∧ (leaveL1 s).trc = s.trc ∧ (leaveL1 s).bst = s.bst ∧ (leaveL1 s).free = s.free ∧ (leaveL1 s).pending = s.pending ∧ (leaveL1 s).hif.d3hot = s.hif.d3hot ∧ (leaveL1 s).rings.sqs = s.rings.sqs := by
  unfold leaveL1
  (try simp)
  (repeat' split) <;> (try simp)

@[simp] theorem setRunning_frame (fn : Fn) (n : Nat) (r : Option Running) (s : State) :
    (setRunning fn n r s).sys = s.sys ∧ (setRunning fn n r s).pwr = s.pwr ∧ (setRunning fn n r s).hif = s.hif ∧ (setRunning fn n r s).conf = s.conf ∧ (setRunning fn n r s).ing = s.ing ∧ (setRunning fn n r s).pix = s.pix ∧ (setRunning fn n r s).gz = s.gz ∧ (setRunning fn n r s).lmp = s.lmp ∧ (setRunning fn n r s).dmk = s.dmk ∧ (setRunning fn n r s).od = s.od ∧ (setRunning fn n r s).tmg = s.tmg ∧ (setRunning fn n r s).pnl = s.pnl ∧ (setRunning fn n r s).twl = s.twl ∧ (setRunning fn n r s).cue = s.cue ∧ (setRunning fn n r s).mem = s.mem ∧ (setRunning fn n r s).lin = s.lin ∧ (setRunning fn n r s).cal = s.cal ∧ (setRunning fn n r s).gng = s.gng ∧ (setRunning fn n r s).sec = s.sec ∧ (setRunning fn n r s).flt = s.flt ∧ (setRunning fn n r s).thm = s.thm ∧ (setRunning fn n r s).trc = s.trc ∧ (setRunning fn n r s).bst = s.bst ∧ (setRunning fn n r s).out = s.out ∧ (setRunning fn n r s).free = s.free ∧ (setRunning fn n r s).pending = s.pending ∧ (setRunning fn n r s).rings.cqs = s.rings.cqs ∧ (setRunning fn n r s).rings.eq0 = s.rings.eq0 ∧ (setRunning fn n r s).rings.eq1 = s.rings.eq1 := by
  unfold setRunning
  (try dsimp only)
  (repeat' split) <;> (try simp)

@[simp] theorem holdRunning_frame (fn : Fn) (n : Nat) (r : Running) (arg : Nat) (s : State) :
    (holdRunning fn n r arg s).sys = s.sys ∧ (holdRunning fn n r arg s).pwr = s.pwr ∧ (holdRunning fn n r arg s).hif = s.hif ∧ (holdRunning fn n r arg s).conf = s.conf ∧ (holdRunning fn n r arg s).ing = s.ing ∧ (holdRunning fn n r arg s).pix = s.pix ∧ (holdRunning fn n r arg s).gz = s.gz ∧ (holdRunning fn n r arg s).lmp = s.lmp ∧ (holdRunning fn n r arg s).dmk = s.dmk ∧ (holdRunning fn n r arg s).od = s.od ∧ (holdRunning fn n r arg s).tmg = s.tmg ∧ (holdRunning fn n r arg s).pnl = s.pnl ∧ (holdRunning fn n r arg s).twl = s.twl ∧ (holdRunning fn n r arg s).cue = s.cue ∧ (holdRunning fn n r arg s).mem = s.mem ∧ (holdRunning fn n r arg s).lin = s.lin ∧ (holdRunning fn n r arg s).cal = s.cal ∧ (holdRunning fn n r arg s).gng = s.gng ∧ (holdRunning fn n r arg s).sec = s.sec ∧ (holdRunning fn n r arg s).flt = s.flt ∧ (holdRunning fn n r arg s).thm = s.thm ∧ (holdRunning fn n r arg s).trc = s.trc ∧ (holdRunning fn n r arg s).bst = s.bst ∧ (holdRunning fn n r arg s).out = s.out ∧ (holdRunning fn n r arg s).free = s.free ∧ (holdRunning fn n r arg s).pending = s.pending ∧ (holdRunning fn n r arg s).rings.cqs = s.rings.cqs ∧ (holdRunning fn n r arg s).rings.eq0 = s.rings.eq0 ∧ (holdRunning fn n r arg s).rings.eq1 = s.rings.eq1 := by
  unfold holdRunning
  (repeat' split) <;> (try simp)

@[simp] theorem finish_frame (fn : Fn) (n : Nat) (r : Running) (status : Nat) (res : List Nat) (s : State) :
    (finish fn n r status res s).sys = s.sys ∧ (finish fn n r status res s).pwr = s.pwr ∧ (finish fn n r status res s).conf = s.conf ∧ (finish fn n r status res s).ing = s.ing ∧ (finish fn n r status res s).pix = s.pix ∧ (finish fn n r status res s).gz = s.gz ∧ (finish fn n r status res s).lmp = s.lmp ∧ (finish fn n r status res s).dmk = s.dmk ∧ (finish fn n r status res s).od = s.od ∧ (finish fn n r status res s).tmg = s.tmg ∧ (finish fn n r status res s).pnl = s.pnl ∧ (finish fn n r status res s).twl = s.twl ∧ (finish fn n r status res s).cue = s.cue ∧ (finish fn n r status res s).mem = s.mem ∧ (finish fn n r status res s).lin = s.lin ∧ (finish fn n r status res s).cal = s.cal ∧ (finish fn n r status res s).gng = s.gng ∧ (finish fn n r status res s).sec = s.sec ∧ (finish fn n r status res s).flt = s.flt ∧ (finish fn n r status res s).thm = s.thm ∧ (finish fn n r status res s).bst = s.bst ∧ (finish fn n r status res s).pending = s.pending ∧ (finish fn n r status res s).hif.power = s.hif.power ∧ (finish fn n r status res s).hif.bme0 = s.hif.bme0 ∧ (finish fn n r status res s).hif.bme1 = s.hif.bme1 ∧ (finish fn n r status res s).hif.d3hot = s.hif.d3hot := by
  unfold finish
  (repeat' split) <;> (try simp)

@[simp] theorem finishAll_frame (fn : Fn) (l : List Nat) (op status : Nat) (res : List Nat) (s : State) :
    (finishAll fn l op status res s).sys = s.sys ∧ (finishAll fn l op status res s).pwr = s.pwr ∧ (finishAll fn l op status res s).conf = s.conf ∧ (finishAll fn l op status res s).ing = s.ing ∧ (finishAll fn l op status res s).pix = s.pix ∧ (finishAll fn l op status res s).gz = s.gz ∧ (finishAll fn l op status res s).lmp = s.lmp ∧ (finishAll fn l op status res s).dmk = s.dmk ∧ (finishAll fn l op status res s).od = s.od ∧ (finishAll fn l op status res s).tmg = s.tmg ∧ (finishAll fn l op status res s).pnl = s.pnl ∧ (finishAll fn l op status res s).twl = s.twl ∧ (finishAll fn l op status res s).cue = s.cue ∧ (finishAll fn l op status res s).mem = s.mem ∧ (finishAll fn l op status res s).lin = s.lin ∧ (finishAll fn l op status res s).cal = s.cal ∧ (finishAll fn l op status res s).gng = s.gng ∧ (finishAll fn l op status res s).sec = s.sec ∧ (finishAll fn l op status res s).flt = s.flt ∧ (finishAll fn l op status res s).thm = s.thm ∧ (finishAll fn l op status res s).bst = s.bst ∧ (finishAll fn l op status res s).pending = s.pending ∧ (finishAll fn l op status res s).hif.power = s.hif.power ∧ (finishAll fn l op status res s).hif.d3hot = s.hif.d3hot := by
  unfold finishAll
  (repeat' split) <;> (try simp (disch := (intros; (repeat' split) <;> (try simp))))

@[simp] theorem writeMem_frame (a : Nat) (d : Bytes) (s : State) :
    (writeMem a d s).sys = s.sys ∧ (writeMem a d s).pwr = s.pwr ∧ (writeMem a d s).hif = s.hif ∧ (writeMem a d s).rings = s.rings ∧ (writeMem a d s).conf = s.conf ∧ (writeMem a d s).ing = s.ing ∧ (writeMem a d s).pix = s.pix ∧ (writeMem a d s).gz = s.gz ∧ (writeMem a d s).lmp = s.lmp ∧ (writeMem a d s).dmk = s.dmk ∧ (writeMem a d s).od = s.od ∧ (writeMem a d s).tmg = s.tmg ∧ (writeMem a d s).pnl = s.pnl ∧ (writeMem a d s).twl = s.twl ∧ (writeMem a d s).cue = s.cue ∧ (writeMem a d s).lin = s.lin ∧ (writeMem a d s).cal = s.cal ∧ (writeMem a d s).gng = s.gng ∧ (writeMem a d s).sec = s.sec ∧ (writeMem a d s).flt = s.flt ∧ (writeMem a d s).thm = s.thm ∧ (writeMem a d s).trc = s.trc ∧ (writeMem a d s).bst = s.bst ∧ (writeMem a d s).out = s.out ∧ (writeMem a d s).free = s.free ∧ (writeMem a d s).pending = s.pending := by
  unfold writeMem
  (try dsimp only)
  (repeat' split) <;> (try simp)

@[simp] theorem writeMem_sound (a : Nat) (d : Bytes) (s : State) (hs : PagesSound s.mem.bytes s.mem.written) :
    PagesSound (writeMem a d s).mem.bytes (writeMem a d s).mem.written := by
  unfold writeMem
  (try dsimp only)
  (repeat' split) <;> (try simp [hs])

@[simp] theorem repairPages_frame (l : List Nat) (s : State) :
    (repairPages l s).sys = s.sys ∧ (repairPages l s).pwr = s.pwr ∧ (repairPages l s).hif = s.hif ∧ (repairPages l s).rings = s.rings ∧ (repairPages l s).conf = s.conf ∧ (repairPages l s).ing = s.ing ∧ (repairPages l s).pix = s.pix ∧ (repairPages l s).gz = s.gz ∧ (repairPages l s).lmp = s.lmp ∧ (repairPages l s).dmk = s.dmk ∧ (repairPages l s).od = s.od ∧ (repairPages l s).tmg = s.tmg ∧ (repairPages l s).pnl = s.pnl ∧ (repairPages l s).twl = s.twl ∧ (repairPages l s).cue = s.cue ∧ (repairPages l s).lin = s.lin ∧ (repairPages l s).cal = s.cal ∧ (repairPages l s).gng = s.gng ∧ (repairPages l s).sec = s.sec ∧ (repairPages l s).flt = s.flt ∧ (repairPages l s).thm = s.thm ∧ (repairPages l s).trc = s.trc ∧ (repairPages l s).bst = s.bst ∧ (repairPages l s).out = s.out ∧ (repairPages l s).free = s.free ∧ (repairPages l s).pending = s.pending ∧ (repairPages l s).mem.bytes = s.mem.bytes ∧ (repairPages l s).mem.written = s.mem.written := by
  unfold repairPages
  (try dsimp only)
  (repeat' split) <;> (try simp)

@[simp] theorem setRun_frame (lane : Nat) (run : LaneRun) (s : State) :
    (setRun lane run s).sys = s.sys ∧ (setRun lane run s).pwr = s.pwr ∧ (setRun lane run s).hif = s.hif ∧ (setRun lane run s).rings = s.rings ∧ (setRun lane run s).conf = s.conf ∧ (setRun lane run s).ing = s.ing ∧ (setRun lane run s).pix = s.pix ∧ (setRun lane run s).gz = s.gz ∧ (setRun lane run s).lmp = s.lmp ∧ (setRun lane run s).dmk = s.dmk ∧ (setRun lane run s).od = s.od ∧ (setRun lane run s).tmg = s.tmg ∧ (setRun lane run s).pnl = s.pnl ∧ (setRun lane run s).cue = s.cue ∧ (setRun lane run s).mem = s.mem ∧ (setRun lane run s).lin = s.lin ∧ (setRun lane run s).cal = s.cal ∧ (setRun lane run s).gng = s.gng ∧ (setRun lane run s).sec = s.sec ∧ (setRun lane run s).flt = s.flt ∧ (setRun lane run s).thm = s.thm ∧ (setRun lane run s).trc = s.trc ∧ (setRun lane run s).bst = s.bst ∧ (setRun lane run s).free = s.free ∧ (setRun lane run s).pending = s.pending := by
  unfold setRun
  (try dsimp only)
  (repeat' split) <;> (try simp)

@[simp] theorem setGroup_frame (g : Nat) (v : Group) (s : State) :
    (setGroup g v s).sys = s.sys ∧ (setGroup g v s).pwr = s.pwr ∧ (setGroup g v s).hif = s.hif ∧ (setGroup g v s).rings = s.rings ∧ (setGroup g v s).conf = s.conf ∧ (setGroup g v s).ing = s.ing ∧ (setGroup g v s).pix = s.pix ∧ (setGroup g v s).gz = s.gz ∧ (setGroup g v s).lmp = s.lmp ∧ (setGroup g v s).dmk = s.dmk ∧ (setGroup g v s).od = s.od ∧ (setGroup g v s).tmg = s.tmg ∧ (setGroup g v s).pnl = s.pnl ∧ (setGroup g v s).cue = s.cue ∧ (setGroup g v s).mem = s.mem ∧ (setGroup g v s).lin = s.lin ∧ (setGroup g v s).cal = s.cal ∧ (setGroup g v s).gng = s.gng ∧ (setGroup g v s).sec = s.sec ∧ (setGroup g v s).flt = s.flt ∧ (setGroup g v s).thm = s.thm ∧ (setGroup g v s).trc = s.trc ∧ (setGroup g v s).bst = s.bst ∧ (setGroup g v s).out = s.out ∧ (setGroup g v s).free = s.free ∧ (setGroup g v s).pending = s.pending := by
  unfold setGroup
  (try dsimp only)
  (repeat' split) <;> (try simp)

@[simp] theorem startReference_frame (g : Nat) (s : State) :
    (startReference g s).sys = s.sys ∧ (startReference g s).pwr = s.pwr ∧ (startReference g s).hif = s.hif ∧ (startReference g s).rings = s.rings ∧ (startReference g s).conf = s.conf ∧ (startReference g s).ing = s.ing ∧ (startReference g s).pix = s.pix ∧ (startReference g s).gz = s.gz ∧ (startReference g s).lmp = s.lmp ∧ (startReference g s).dmk = s.dmk ∧ (startReference g s).od = s.od ∧ (startReference g s).tmg = s.tmg ∧ (startReference g s).pnl = s.pnl ∧ (startReference g s).cue = s.cue ∧ (startReference g s).mem = s.mem ∧ (startReference g s).lin = s.lin ∧ (startReference g s).cal = s.cal ∧ (startReference g s).gng = s.gng ∧ (startReference g s).sec = s.sec ∧ (startReference g s).flt = s.flt ∧ (startReference g s).thm = s.thm ∧ (startReference g s).trc = s.trc ∧ (startReference g s).bst = s.bst ∧ (startReference g s).free = s.free ∧ (startReference g s).pending = s.pending := by
  unfold startReference
  (try dsimp only)
  (repeat' split) <;> (try simp)

@[simp] theorem stopReference_frame (g : Nat) (s : State) :
    (stopReference g s).sys = s.sys ∧ (stopReference g s).pwr = s.pwr ∧ (stopReference g s).hif = s.hif ∧ (stopReference g s).rings = s.rings ∧ (stopReference g s).conf = s.conf ∧ (stopReference g s).ing = s.ing ∧ (stopReference g s).pix = s.pix ∧ (stopReference g s).gz = s.gz ∧ (stopReference g s).lmp = s.lmp ∧ (stopReference g s).dmk = s.dmk ∧ (stopReference g s).od = s.od ∧ (stopReference g s).tmg = s.tmg ∧ (stopReference g s).pnl = s.pnl ∧ (stopReference g s).cue = s.cue ∧ (stopReference g s).mem = s.mem ∧ (stopReference g s).lin = s.lin ∧ (stopReference g s).cal = s.cal ∧ (stopReference g s).gng = s.gng ∧ (stopReference g s).sec = s.sec ∧ (stopReference g s).flt = s.flt ∧ (stopReference g s).thm = s.thm ∧ (stopReference g s).trc = s.trc ∧ (stopReference g s).bst = s.bst ∧ (stopReference g s).free = s.free ∧ (stopReference g s).pending = s.pending := by
  unfold stopReference
  (try dsimp only)
  (repeat' split) <;> (try simp)

@[simp] theorem restartGroup_frame (g : Nat) (s : State) :
    (restartGroup g s).sys = s.sys ∧ (restartGroup g s).pwr = s.pwr ∧ (restartGroup g s).hif = s.hif ∧ (restartGroup g s).rings = s.rings ∧ (restartGroup g s).conf = s.conf ∧ (restartGroup g s).ing = s.ing ∧ (restartGroup g s).pix = s.pix ∧ (restartGroup g s).gz = s.gz ∧ (restartGroup g s).lmp = s.lmp ∧ (restartGroup g s).dmk = s.dmk ∧ (restartGroup g s).od = s.od ∧ (restartGroup g s).tmg = s.tmg ∧ (restartGroup g s).pnl = s.pnl ∧ (restartGroup g s).cue = s.cue ∧ (restartGroup g s).mem = s.mem ∧ (restartGroup g s).lin = s.lin ∧ (restartGroup g s).cal = s.cal ∧ (restartGroup g s).gng = s.gng ∧ (restartGroup g s).sec = s.sec ∧ (restartGroup g s).flt = s.flt ∧ (restartGroup g s).thm = s.thm ∧ (restartGroup g s).trc = s.trc ∧ (restartGroup g s).bst = s.bst ∧ (restartGroup g s).free = s.free ∧ (restartGroup g s).pending = s.pending := by
  unfold restartGroup
  (try dsimp only)
  (repeat' split) <;> (try simp)

@[simp] theorem endQuiet_frame (s : State) :
    (endQuiet s).sys = s.sys ∧ (endQuiet s).pwr = s.pwr ∧ (endQuiet s).hif = s.hif ∧ (endQuiet s).rings = s.rings ∧ (endQuiet s).conf = s.conf ∧ (endQuiet s).ing = s.ing ∧ (endQuiet s).pix = s.pix ∧ (endQuiet s).gz = s.gz ∧ (endQuiet s).lmp = s.lmp ∧ (endQuiet s).dmk = s.dmk ∧ (endQuiet s).od = s.od ∧ (endQuiet s).tmg = s.tmg ∧ (endQuiet s).pnl = s.pnl ∧ (endQuiet s).cue = s.cue ∧ (endQuiet s).mem = s.mem ∧ (endQuiet s).lin = s.lin ∧ (endQuiet s).cal = s.cal ∧ (endQuiet s).gng = s.gng ∧ (endQuiet s).sec = s.sec ∧ (endQuiet s).flt = s.flt ∧ (endQuiet s).thm = s.thm ∧ (endQuiet s).trc = s.trc ∧ (endQuiet s).bst = s.bst ∧ (endQuiet s).free = s.free ∧ (endQuiet s).pending = s.pending := by
  unfold endQuiet
  (try dsimp only)
  (repeat' split) <;> (try simp)

@[simp] theorem endQuietEarly_frame (s : State) :
    (endQuietEarly s).sys = s.sys ∧ (endQuietEarly s).pwr = s.pwr ∧ (endQuietEarly s).hif = s.hif ∧ (endQuietEarly s).rings = s.rings ∧ (endQuietEarly s).conf = s.conf ∧ (endQuietEarly s).ing = s.ing ∧ (endQuietEarly s).pix = s.pix ∧ (endQuietEarly s).gz = s.gz ∧ (endQuietEarly s).lmp = s.lmp ∧ (endQuietEarly s).dmk = s.dmk ∧ (endQuietEarly s).od = s.od ∧ (endQuietEarly s).tmg = s.tmg ∧ (endQuietEarly s).pnl = s.pnl ∧ (endQuietEarly s).cue = s.cue ∧ (endQuietEarly s).mem = s.mem ∧ (endQuietEarly s).lin = s.lin ∧ (endQuietEarly s).cal = s.cal ∧ (endQuietEarly s).gng = s.gng ∧ (endQuietEarly s).sec = s.sec ∧ (endQuietEarly s).flt = s.flt ∧ (endQuietEarly s).thm = s.thm ∧ (endQuietEarly s).trc = s.trc ∧ (endQuietEarly s).bst = s.bst ∧ (endQuietEarly s).free = s.free ∧ (endQuietEarly s).pending = s.pending := by
  unfold endQuietEarly
  (repeat' split) <;> (try simp)

@[simp] theorem lockSetup_frame (s : State) :
    (lockSetup s).pwr = s.pwr ∧ (lockSetup s).ing = s.ing ∧ (lockSetup s).pix = s.pix ∧ (lockSetup s).gz = s.gz ∧ (lockSetup s).lmp = s.lmp ∧ (lockSetup s).dmk = s.dmk ∧ (lockSetup s).od = s.od ∧ (lockSetup s).tmg = s.tmg ∧ (lockSetup s).pnl = s.pnl ∧ (lockSetup s).twl = s.twl ∧ (lockSetup s).cue = s.cue ∧ (lockSetup s).mem = s.mem ∧ (lockSetup s).lin = s.lin ∧ (lockSetup s).cal = s.cal ∧ (lockSetup s).gng = s.gng ∧ (lockSetup s).sec = s.sec ∧ (lockSetup s).flt = s.flt ∧ (lockSetup s).thm = s.thm ∧ (lockSetup s).trc = s.trc ∧ (lockSetup s).bst = s.bst ∧ (lockSetup s).free = s.free ∧ (lockSetup s).pending = s.pending ∧ (lockSetup s).sys.mode = s.sys.mode ∧ (lockSetup s).sys.fe = s.sys.fe ∧ (lockSetup s).sys.transit = s.sys.transit ∧ (lockSetup s).sys.serving = s.sys.serving ∧ (lockSetup s).sys.stage = s.sys.stage ∧ (lockSetup s).conf.regs = s.conf.regs ∧ (lockSetup s).conf.tables = s.conf.tables ∧ (lockSetup s).conf.slots = s.conf.slots ∧ (lockSetup s).conf.live = s.conf.live ∧ (lockSetup s).hif.power = s.hif.power ∧ (lockSetup s).hif.bme0 = s.hif.bme0 ∧ (lockSetup s).hif.bme1 = s.hif.bme1 ∧ (lockSetup s).hif.d3hot = s.hif.d3hot ∧ (lockSetup s).rings.sqs = s.rings.sqs := by
  unfold lockSetup
  (try simp)
  (repeat' split) <;> (try simp)

@[simp] theorem writeLock_frame (v : Word) (s : State) :
    (writeLock v s).pwr = s.pwr ∧ (writeLock v s).ing = s.ing ∧ (writeLock v s).pix = s.pix ∧ (writeLock v s).gz = s.gz ∧ (writeLock v s).lmp = s.lmp ∧ (writeLock v s).dmk = s.dmk ∧ (writeLock v s).od = s.od ∧ (writeLock v s).tmg = s.tmg ∧ (writeLock v s).pnl = s.pnl ∧ (writeLock v s).twl = s.twl ∧ (writeLock v s).cue = s.cue ∧ (writeLock v s).mem = s.mem ∧ (writeLock v s).lin = s.lin ∧ (writeLock v s).cal = s.cal ∧ (writeLock v s).gng = s.gng ∧ (writeLock v s).sec = s.sec ∧ (writeLock v s).flt = s.flt ∧ (writeLock v s).thm = s.thm ∧ (writeLock v s).trc = s.trc ∧ (writeLock v s).bst = s.bst ∧ (writeLock v s).free = s.free ∧ (writeLock v s).pending = s.pending ∧ (writeLock v s).sys.mode = s.sys.mode ∧ (writeLock v s).sys.fe = s.sys.fe ∧ (writeLock v s).sys.transit = s.sys.transit ∧ (writeLock v s).sys.serving = s.sys.serving ∧ (writeLock v s).sys.stage = s.sys.stage ∧ (writeLock v s).conf.regs = s.conf.regs ∧ (writeLock v s).conf.tables = s.conf.tables ∧ (writeLock v s).conf.slots = s.conf.slots ∧ (writeLock v s).conf.live = s.conf.live ∧ (writeLock v s).hif.power = s.hif.power ∧ (writeLock v s).hif.bme0 = s.hif.bme0 ∧ (writeLock v s).hif.bme1 = s.hif.bme1 ∧ (writeLock v s).hif.d3hot = s.hif.d3hot ∧ (writeLock v s).rings.sqs = s.rings.sqs := by
  unfold writeLock
  (try simp)
  (repeat' split) <;> (try simp)

@[simp] theorem writeBrace_frame (v : Word) (s : State) :
    (writeBrace v s).sys = s.sys ∧ (writeBrace v s).hif = s.hif ∧ (writeBrace v s).rings = s.rings ∧ (writeBrace v s).ing = s.ing ∧ (writeBrace v s).pix = s.pix ∧ (writeBrace v s).gz = s.gz ∧ (writeBrace v s).lmp = s.lmp ∧ (writeBrace v s).dmk = s.dmk ∧ (writeBrace v s).od = s.od ∧ (writeBrace v s).tmg = s.tmg ∧ (writeBrace v s).pnl = s.pnl ∧ (writeBrace v s).twl = s.twl ∧ (writeBrace v s).cue = s.cue ∧ (writeBrace v s).mem = s.mem ∧ (writeBrace v s).lin = s.lin ∧ (writeBrace v s).cal = s.cal ∧ (writeBrace v s).gng = s.gng ∧ (writeBrace v s).sec = s.sec ∧ (writeBrace v s).flt = s.flt ∧ (writeBrace v s).thm = s.thm ∧ (writeBrace v s).trc = s.trc ∧ (writeBrace v s).bst = s.bst ∧ (writeBrace v s).out = s.out ∧ (writeBrace v s).free = s.free ∧ (writeBrace v s).pending = s.pending ∧ (writeBrace v s).conf.regs = s.conf.regs ∧ (writeBrace v s).conf.tables = s.conf.tables ∧ (writeBrace v s).pwr.fall = s.pwr.fall := by
  unfold writeBrace
  (try dsimp only)
  (repeat' split) <;> (try simp)

@[simp] theorem gngSend_frame (ports : List Nat) (type flood : Nat) (payload : Bytes) (s : State) :
    (gngSend ports type flood payload s).sys = s.sys ∧ (gngSend ports type flood payload s).pwr = s.pwr ∧ (gngSend ports type flood payload s).hif = s.hif ∧ (gngSend ports type flood payload s).rings = s.rings ∧ (gngSend ports type flood payload s).conf = s.conf ∧ (gngSend ports type flood payload s).ing = s.ing ∧ (gngSend ports type flood payload s).pix = s.pix ∧ (gngSend ports type flood payload s).gz = s.gz ∧ (gngSend ports type flood payload s).lmp = s.lmp ∧ (gngSend ports type flood payload s).dmk = s.dmk ∧ (gngSend ports type flood payload s).od = s.od ∧ (gngSend ports type flood payload s).tmg = s.tmg ∧ (gngSend ports type flood payload s).pnl = s.pnl ∧ (gngSend ports type flood payload s).twl = s.twl ∧ (gngSend ports type flood payload s).cue = s.cue ∧ (gngSend ports type flood payload s).mem = s.mem ∧ (gngSend ports type flood payload s).lin = s.lin ∧ (gngSend ports type flood payload s).cal = s.cal ∧ (gngSend ports type flood payload s).sec = s.sec ∧ (gngSend ports type flood payload s).flt = s.flt ∧ (gngSend ports type flood payload s).thm = s.thm ∧ (gngSend ports type flood payload s).trc = s.trc ∧ (gngSend ports type flood payload s).bst = s.bst ∧ (gngSend ports type flood payload s).free = s.free ∧ (gngSend ports type flood payload s).pending = s.pending := by
  unfold gngSend
  (try dsimp only)
  (repeat' split) <;> (try simp)

@[simp] theorem gngFlood_frame (type : Nat) (payload : Bytes) (s : State) :
    (gngFlood type payload s).sys = s.sys ∧ (gngFlood type payload s).pwr = s.pwr ∧ (gngFlood type payload s).hif = s.hif ∧ (gngFlood type payload s).rings = s.rings ∧ (gngFlood type payload s).conf = s.conf ∧ (gngFlood type payload s).ing = s.ing ∧ (gngFlood type payload s).pix = s.pix ∧ (gngFlood type payload s).gz = s.gz ∧ (gngFlood type payload s).lmp = s.lmp ∧ (gngFlood type payload s).dmk = s.dmk ∧ (gngFlood type payload s).od = s.od ∧ (gngFlood type payload s).tmg = s.tmg ∧ (gngFlood type payload s).pnl = s.pnl ∧ (gngFlood type payload s).twl = s.twl ∧ (gngFlood type payload s).cue = s.cue ∧ (gngFlood type payload s).mem = s.mem ∧ (gngFlood type payload s).lin = s.lin ∧ (gngFlood type payload s).cal = s.cal ∧ (gngFlood type payload s).sec = s.sec ∧ (gngFlood type payload s).flt = s.flt ∧ (gngFlood type payload s).thm = s.thm ∧ (gngFlood type payload s).trc = s.trc ∧ (gngFlood type payload s).bst = s.bst ∧ (gngFlood type payload s).free = s.free ∧ (gngFlood type payload s).pending = s.pending := by
  unfold gngFlood
  (repeat' split) <;> (try simp)

@[simp] theorem beginWallArm_frame (sq : Nat) (r : Running) (kind mask fe cls : Nat) (body : Bytes) (s : State) :
    (beginWallArm sq r kind mask fe cls body s).sys = s.sys ∧ (beginWallArm sq r kind mask fe cls body s).pwr = s.pwr ∧ (beginWallArm sq r kind mask fe cls body s).conf = s.conf ∧ (beginWallArm sq r kind mask fe cls body s).ing = s.ing ∧ (beginWallArm sq r kind mask fe cls body s).pix = s.pix ∧ (beginWallArm sq r kind mask fe cls body s).gz = s.gz ∧ (beginWallArm sq r kind mask fe cls body s).lmp = s.lmp ∧ (beginWallArm sq r kind mask fe cls body s).dmk = s.dmk ∧ (beginWallArm sq r kind mask fe cls body s).od = s.od ∧ (beginWallArm sq r kind mask fe cls body s).tmg = s.tmg ∧ (beginWallArm sq r kind mask fe cls body s).pnl = s.pnl ∧ (beginWallArm sq r kind mask fe cls body s).twl = s.twl ∧ (beginWallArm sq r kind mask fe cls body s).cue = s.cue ∧ (beginWallArm sq r kind mask fe cls body s).mem = s.mem ∧ (beginWallArm sq r kind mask fe cls body s).lin = s.lin ∧ (beginWallArm sq r kind mask fe cls body s).cal = s.cal ∧ (beginWallArm sq r kind mask fe cls body s).sec = s.sec ∧ (beginWallArm sq r kind mask fe cls body s).flt = s.flt ∧ (beginWallArm sq r kind mask fe cls body s).thm = s.thm ∧ (beginWallArm sq r kind mask fe cls body s).trc = s.trc ∧ (beginWallArm sq r kind mask fe cls body s).bst = s.bst ∧ (beginWallArm sq r kind mask fe cls body s).free = s.free ∧ (beginWallArm sq r kind mask fe cls body s).pending = s.pending ∧ (beginWallArm sq r kind mask fe cls body s).hif.power = s.hif.power ∧ (beginWallArm sq r kind mask fe cls body s).hif.bme0 = s.hif.bme0 ∧ (beginWallArm sq r kind mask fe cls body s).hif.bme1 = s.hif.bme1 ∧ (beginWallArm sq r kind mask fe cls body s).hif.d3hot = s.hif.d3hot ∧ (beginWallArm sq r kind mask fe cls body s).rings.cqs = s.rings.cqs ∧ (beginWallArm sq r kind mask fe cls body s).rings.eq0 = s.rings.eq0 ∧ (beginWallArm sq r kind mask fe cls body s).rings.eq1 = s.rings.eq1 := by
  unfold beginWallArm
  (try dsimp only)
  (repeat' split) <;> (try simp)

@[simp] theorem dropWallArm_frame (a : WallArm) (s : State) :
    (dropWallArm a s).sys = s.sys ∧ (dropWallArm a s).pwr = s.pwr ∧ (dropWallArm a s).hif = s.hif ∧ (dropWallArm a s).rings = s.rings ∧ (dropWallArm a s).ing = s.ing ∧ (dropWallArm a s).pix = s.pix ∧ (dropWallArm a s).gz = s.gz ∧ (dropWallArm a s).lmp = s.lmp ∧ (dropWallArm a s).dmk = s.dmk ∧ (dropWallArm a s).od = s.od ∧ (dropWallArm a s).tmg = s.tmg ∧ (dropWallArm a s).pnl = s.pnl ∧ (dropWallArm a s).twl = s.twl ∧ (dropWallArm a s).cue = s.cue ∧ (dropWallArm a s).mem = s.mem ∧ (dropWallArm a s).lin = s.lin ∧ (dropWallArm a s).cal = s.cal ∧ (dropWallArm a s).sec = s.sec ∧ (dropWallArm a s).flt = s.flt ∧ (dropWallArm a s).thm = s.thm ∧ (dropWallArm a s).trc = s.trc ∧ (dropWallArm a s).bst = s.bst ∧ (dropWallArm a s).out = s.out ∧ (dropWallArm a s).free = s.free ∧ (dropWallArm a s).pending = s.pending ∧ (dropWallArm a s).conf.regs = s.conf.regs ∧ (dropWallArm a s).conf.tables = s.conf.tables := by
  unfold dropWallArm
  (try simp)
  (repeat' split) <;> (try simp)

@[simp] theorem armConfig_frame (sq : Nat) (r : Running) (s : State) :
    (armConfig sq r s).sys = s.sys ∧ (armConfig sq r s).pwr = s.pwr ∧ (armConfig sq r s).ing = s.ing ∧ (armConfig sq r s).pix = s.pix ∧ (armConfig sq r s).gz = s.gz ∧ (armConfig sq r s).lmp = s.lmp ∧ (armConfig sq r s).dmk = s.dmk ∧ (armConfig sq r s).od = s.od ∧ (armConfig sq r s).tmg = s.tmg ∧ (armConfig sq r s).pnl = s.pnl ∧ (armConfig sq r s).twl = s.twl ∧ (armConfig sq r s).cue = s.cue ∧ (armConfig sq r s).mem = s.mem ∧ (armConfig sq r s).lin = s.lin ∧ (armConfig sq r s).cal = s.cal ∧ (armConfig sq r s).sec = s.sec ∧ (armConfig sq r s).flt = s.flt ∧ (armConfig sq r s).thm = s.thm ∧ (armConfig sq r s).bst = s.bst ∧ (armConfig sq r s).pending = s.pending ∧ (armConfig sq r s).conf.regs = s.conf.regs ∧ (armConfig sq r s).conf.tables = s.conf.tables ∧ (armConfig sq r s).hif.power = s.hif.power ∧ (armConfig sq r s).hif.bme0 = s.hif.bme0 ∧ (armConfig sq r s).hif.bme1 = s.hif.bme1 ∧ (armConfig sq r s).hif.d3hot = s.hif.d3hot := by
  unfold armConfig
  (try simp)
  (repeat' split) <;> (try simp)

@[simp] theorem endArms_frame (l : List WallArm) (tile : Nat) (s : State) :
    (endArms l tile s).sys = s.sys ∧ (endArms l tile s).pwr = s.pwr ∧ (endArms l tile s).ing = s.ing ∧ (endArms l tile s).pix = s.pix ∧ (endArms l tile s).gz = s.gz ∧ (endArms l tile s).lmp = s.lmp ∧ (endArms l tile s).dmk = s.dmk ∧ (endArms l tile s).od = s.od ∧ (endArms l tile s).tmg = s.tmg ∧ (endArms l tile s).pnl = s.pnl ∧ (endArms l tile s).twl = s.twl ∧ (endArms l tile s).cue = s.cue ∧ (endArms l tile s).mem = s.mem ∧ (endArms l tile s).lin = s.lin ∧ (endArms l tile s).cal = s.cal ∧ (endArms l tile s).sec = s.sec ∧ (endArms l tile s).flt = s.flt ∧ (endArms l tile s).thm = s.thm ∧ (endArms l tile s).bst = s.bst ∧ (endArms l tile s).pending = s.pending ∧ (endArms l tile s).conf.regs = s.conf.regs ∧ (endArms l tile s).conf.tables = s.conf.tables ∧ (endArms l tile s).hif.power = s.hif.power ∧ (endArms l tile s).hif.d3hot = s.hif.d3hot := by
  unfold endArms
  (repeat' split) <;> (try simp)

@[simp] theorem cancelConfig_frame (sq : Nat) (r : Running) (s : State) :
    (cancelConfig sq r s).sys = s.sys ∧ (cancelConfig sq r s).pwr = s.pwr ∧ (cancelConfig sq r s).ing = s.ing ∧ (cancelConfig sq r s).pix = s.pix ∧ (cancelConfig sq r s).gz = s.gz ∧ (cancelConfig sq r s).lmp = s.lmp ∧ (cancelConfig sq r s).dmk = s.dmk ∧ (cancelConfig sq r s).od = s.od ∧ (cancelConfig sq r s).tmg = s.tmg ∧ (cancelConfig sq r s).pnl = s.pnl ∧ (cancelConfig sq r s).twl = s.twl ∧ (cancelConfig sq r s).cue = s.cue ∧ (cancelConfig sq r s).mem = s.mem ∧ (cancelConfig sq r s).lin = s.lin ∧ (cancelConfig sq r s).cal = s.cal ∧ (cancelConfig sq r s).sec = s.sec ∧ (cancelConfig sq r s).flt = s.flt ∧ (cancelConfig sq r s).thm = s.thm ∧ (cancelConfig sq r s).bst = s.bst ∧ (cancelConfig sq r s).pending = s.pending ∧ (cancelConfig sq r s).conf.regs = s.conf.regs ∧ (cancelConfig sq r s).conf.tables = s.conf.tables ∧ (cancelConfig sq r s).hif.power = s.hif.power ∧ (cancelConfig sq r s).hif.d3hot = s.hif.d3hot := by
  unfold cancelConfig
  (try simp)
  (repeat' split) <;> (try simp)

@[simp] theorem candDone_frame (c : Cand) (status : Nat) (res : List Nat) (s : State) :
    (candDone c status res s).sys = s.sys ∧ (candDone c status res s).pwr = s.pwr ∧ (candDone c status res s).conf = s.conf ∧ (candDone c status res s).ing = s.ing ∧ (candDone c status res s).pix = s.pix ∧ (candDone c status res s).gz = s.gz ∧ (candDone c status res s).lmp = s.lmp ∧ (candDone c status res s).dmk = s.dmk ∧ (candDone c status res s).od = s.od ∧ (candDone c status res s).tmg = s.tmg ∧ (candDone c status res s).pnl = s.pnl ∧ (candDone c status res s).twl = s.twl ∧ (candDone c status res s).cue = s.cue ∧ (candDone c status res s).mem = s.mem ∧ (candDone c status res s).lin = s.lin ∧ (candDone c status res s).cal = s.cal ∧ (candDone c status res s).gng = s.gng ∧ (candDone c status res s).sec = s.sec ∧ (candDone c status res s).flt = s.flt ∧ (candDone c status res s).thm = s.thm ∧ (candDone c status res s).bst = s.bst ∧ (candDone c status res s).pending = s.pending ∧ (candDone c status res s).hif.power = s.hif.power ∧ (candDone c status res s).hif.bme0 = s.hif.bme0 ∧ (candDone c status res s).hif.bme1 = s.hif.bme1 ∧ (candDone c status res s).hif.d3hot = s.hif.d3hot ∧ (candDone c status res s).rings.sqs = s.rings.sqs := by
  unfold candDone
  (repeat' split) <;> (try simp)

@[simp] theorem reserve_frame (key n : Nat) (s : State) :
    (reserve key n s).sys = s.sys ∧ (reserve key n s).pwr = s.pwr ∧ (reserve key n s).hif = s.hif ∧ (reserve key n s).conf = s.conf ∧ (reserve key n s).ing = s.ing ∧ (reserve key n s).pix = s.pix ∧ (reserve key n s).gz = s.gz ∧ (reserve key n s).lmp = s.lmp ∧ (reserve key n s).dmk = s.dmk ∧ (reserve key n s).od = s.od ∧ (reserve key n s).tmg = s.tmg ∧ (reserve key n s).pnl = s.pnl ∧ (reserve key n s).twl = s.twl ∧ (reserve key n s).cue = s.cue ∧ (reserve key n s).mem = s.mem ∧ (reserve key n s).lin = s.lin ∧ (reserve key n s).cal = s.cal ∧ (reserve key n s).gng = s.gng ∧ (reserve key n s).sec = s.sec ∧ (reserve key n s).flt = s.flt ∧ (reserve key n s).thm = s.thm ∧ (reserve key n s).trc = s.trc ∧ (reserve key n s).bst = s.bst ∧ (reserve key n s).out = s.out ∧ (reserve key n s).free = s.free ∧ (reserve key n s).pending = s.pending ∧ (reserve key n s).rings.sqs = s.rings.sqs ∧ (reserve key n s).rings.eq0 = s.rings.eq0 ∧ (reserve key n s).rings.eq1 = s.rings.eq1 := by
  unfold reserve
  (try dsimp only)
  (repeat' split) <;> (try simp)

@[simp] theorem postFn_frame (fn : Fn) (code sev : Nat) (p : List Nat) (s : State) :
    (postFn fn code sev p s).sys = s.sys ∧ (postFn fn code sev p s).pwr = s.pwr ∧ (postFn fn code sev p s).conf = s.conf ∧ (postFn fn code sev p s).ing = s.ing ∧ (postFn fn code sev p s).pix = s.pix ∧ (postFn fn code sev p s).gz = s.gz ∧ (postFn fn code sev p s).lmp = s.lmp ∧ (postFn fn code sev p s).dmk = s.dmk ∧ (postFn fn code sev p s).od = s.od ∧ (postFn fn code sev p s).tmg = s.tmg ∧ (postFn fn code sev p s).pnl = s.pnl ∧ (postFn fn code sev p s).twl = s.twl ∧ (postFn fn code sev p s).cue = s.cue ∧ (postFn fn code sev p s).mem = s.mem ∧ (postFn fn code sev p s).lin = s.lin ∧ (postFn fn code sev p s).cal = s.cal ∧ (postFn fn code sev p s).gng = s.gng ∧ (postFn fn code sev p s).sec = s.sec ∧ (postFn fn code sev p s).flt = s.flt ∧ (postFn fn code sev p s).thm = s.thm ∧ (postFn fn code sev p s).trc = s.trc ∧ (postFn fn code sev p s).bst = s.bst ∧ (postFn fn code sev p s).free = s.free ∧ (postFn fn code sev p s).pending = s.pending ∧ (postFn fn code sev p s).hif.power = s.hif.power ∧ (postFn fn code sev p s).hif.bme0 = s.hif.bme0 ∧ (postFn fn code sev p s).hif.bme1 = s.hif.bme1 ∧ (postFn fn code sev p s).hif.d3hot = s.hif.d3hot ∧ (postFn fn code sev p s).rings.sqs = s.rings.sqs := by
  unfold postFn
  (repeat' split) <;> (try simp)

@[simp] theorem disableSq_frame (fn : Fn) (n : Nat) (s : State) :
    (disableSq fn n s).sys = s.sys ∧ (disableSq fn n s).pwr = s.pwr ∧ (disableSq fn n s).conf = s.conf ∧ (disableSq fn n s).pix = s.pix ∧ (disableSq fn n s).gz = s.gz ∧ (disableSq fn n s).lmp = s.lmp ∧ (disableSq fn n s).dmk = s.dmk ∧ (disableSq fn n s).od = s.od ∧ (disableSq fn n s).tmg = s.tmg ∧ (disableSq fn n s).pnl = s.pnl ∧ (disableSq fn n s).twl = s.twl ∧ (disableSq fn n s).cue = s.cue ∧ (disableSq fn n s).mem = s.mem ∧ (disableSq fn n s).lin = s.lin ∧ (disableSq fn n s).cal = s.cal ∧ (disableSq fn n s).gng = s.gng ∧ (disableSq fn n s).sec = s.sec ∧ (disableSq fn n s).flt = s.flt ∧ (disableSq fn n s).thm = s.thm ∧ (disableSq fn n s).bst = s.bst ∧ (disableSq fn n s).pending = s.pending ∧ (disableSq fn n s).hif.power = s.hif.power ∧ (disableSq fn n s).hif.d3hot = s.hif.d3hot := by
  unfold disableSq
  (try simp)
  (repeat' split) <;> (try simp)

@[simp] theorem writeSqCfg_frame (fn : Fn) (n : Nat) (v : Word) (s : State) :
    (writeSqCfg fn n v s).sys = s.sys ∧ (writeSqCfg fn n v s).pwr = s.pwr ∧ (writeSqCfg fn n v s).conf = s.conf ∧ (writeSqCfg fn n v s).pix = s.pix ∧ (writeSqCfg fn n v s).gz = s.gz ∧ (writeSqCfg fn n v s).lmp = s.lmp ∧ (writeSqCfg fn n v s).dmk = s.dmk ∧ (writeSqCfg fn n v s).od = s.od ∧ (writeSqCfg fn n v s).tmg = s.tmg ∧ (writeSqCfg fn n v s).pnl = s.pnl ∧ (writeSqCfg fn n v s).twl = s.twl ∧ (writeSqCfg fn n v s).cue = s.cue ∧ (writeSqCfg fn n v s).mem = s.mem ∧ (writeSqCfg fn n v s).lin = s.lin ∧ (writeSqCfg fn n v s).cal = s.cal ∧ (writeSqCfg fn n v s).gng = s.gng ∧ (writeSqCfg fn n v s).sec = s.sec ∧ (writeSqCfg fn n v s).flt = s.flt ∧ (writeSqCfg fn n v s).thm = s.thm ∧ (writeSqCfg fn n v s).bst = s.bst ∧ (writeSqCfg fn n v s).pending = s.pending ∧ (writeSqCfg fn n v s).hif.power = s.hif.power ∧ (writeSqCfg fn n v s).hif.d3hot = s.hif.d3hot := by
  unfold writeSqCfg
  (try simp)
  (repeat' split) <;> (try simp)

@[simp] theorem writeCqCfg_frame (fn : Fn) (m : Nat) (v : Word) (s : State) :
    (writeCqCfg fn m v s).sys = s.sys ∧ (writeCqCfg fn m v s).pwr = s.pwr ∧ (writeCqCfg fn m v s).conf = s.conf ∧ (writeCqCfg fn m v s).ing = s.ing ∧ (writeCqCfg fn m v s).pix = s.pix ∧ (writeCqCfg fn m v s).gz = s.gz ∧ (writeCqCfg fn m v s).lmp = s.lmp ∧ (writeCqCfg fn m v s).dmk = s.dmk ∧ (writeCqCfg fn m v s).od = s.od ∧ (writeCqCfg fn m v s).tmg = s.tmg ∧ (writeCqCfg fn m v s).pnl = s.pnl ∧ (writeCqCfg fn m v s).twl = s.twl ∧ (writeCqCfg fn m v s).cue = s.cue ∧ (writeCqCfg fn m v s).mem = s.mem ∧ (writeCqCfg fn m v s).lin = s.lin ∧ (writeCqCfg fn m v s).cal = s.cal ∧ (writeCqCfg fn m v s).gng = s.gng ∧ (writeCqCfg fn m v s).sec = s.sec ∧ (writeCqCfg fn m v s).flt = s.flt ∧ (writeCqCfg fn m v s).thm = s.thm ∧ (writeCqCfg fn m v s).trc = s.trc ∧ (writeCqCfg fn m v s).bst = s.bst ∧ (writeCqCfg fn m v s).free = s.free ∧ (writeCqCfg fn m v s).pending = s.pending ∧ (writeCqCfg fn m v s).hif.power = s.hif.power ∧ (writeCqCfg fn m v s).hif.bme0 = s.hif.bme0 ∧ (writeCqCfg fn m v s).hif.bme1 = s.hif.bme1 ∧ (writeCqCfg fn m v s).hif.d3hot = s.hif.d3hot ∧ (writeCqCfg fn m v s).rings.sqs = s.rings.sqs := by
  unfold writeCqCfg
  (try simp)
  (repeat' split) <;> (try simp)

@[simp] theorem writeEqCfg_frame (fn : Fn) (v : Word) (s : State) :
    (writeEqCfg fn v s).sys = s.sys ∧ (writeEqCfg fn v s).pwr = s.pwr ∧ (writeEqCfg fn v s).conf = s.conf ∧ (writeEqCfg fn v s).ing = s.ing ∧ (writeEqCfg fn v s).pix = s.pix ∧ (writeEqCfg fn v s).gz = s.gz ∧ (writeEqCfg fn v s).lmp = s.lmp ∧ (writeEqCfg fn v s).dmk = s.dmk ∧ (writeEqCfg fn v s).od = s.od ∧ (writeEqCfg fn v s).tmg = s.tmg ∧ (writeEqCfg fn v s).pnl = s.pnl ∧ (writeEqCfg fn v s).twl = s.twl ∧ (writeEqCfg fn v s).cue = s.cue ∧ (writeEqCfg fn v s).mem = s.mem ∧ (writeEqCfg fn v s).lin = s.lin ∧ (writeEqCfg fn v s).cal = s.cal ∧ (writeEqCfg fn v s).gng = s.gng ∧ (writeEqCfg fn v s).sec = s.sec ∧ (writeEqCfg fn v s).flt = s.flt ∧ (writeEqCfg fn v s).thm = s.thm ∧ (writeEqCfg fn v s).trc = s.trc ∧ (writeEqCfg fn v s).bst = s.bst ∧ (writeEqCfg fn v s).free = s.free ∧ (writeEqCfg fn v s).pending = s.pending ∧ (writeEqCfg fn v s).hif.power = s.hif.power ∧ (writeEqCfg fn v s).hif.bme0 = s.hif.bme0 ∧ (writeEqCfg fn v s).hif.bme1 = s.hif.bme1 ∧ (writeEqCfg fn v s).hif.d3hot = s.hif.d3hot ∧ (writeEqCfg fn v s).rings.sqs = s.rings.sqs ∧ (writeEqCfg fn v s).rings.cqs = s.rings.cqs := by
  unfold writeEqCfg
  (try simp)
  (repeat' split) <;> (try simp)

@[simp] theorem writeTraceCfg_frame (second : Bool) (v : Word) (s : State) :
    (writeTraceCfg second v s).sys = s.sys ∧ (writeTraceCfg second v s).pwr = s.pwr ∧ (writeTraceCfg second v s).hif = s.hif ∧ (writeTraceCfg second v s).conf = s.conf ∧ (writeTraceCfg second v s).ing = s.ing ∧ (writeTraceCfg second v s).pix = s.pix ∧ (writeTraceCfg second v s).gz = s.gz ∧ (writeTraceCfg second v s).lmp = s.lmp ∧ (writeTraceCfg second v s).dmk = s.dmk ∧ (writeTraceCfg second v s).od = s.od ∧ (writeTraceCfg second v s).tmg = s.tmg ∧ (writeTraceCfg second v s).pnl = s.pnl ∧ (writeTraceCfg second v s).twl = s.twl ∧ (writeTraceCfg second v s).cue = s.cue ∧ (writeTraceCfg second v s).mem = s.mem ∧ (writeTraceCfg second v s).lin = s.lin ∧ (writeTraceCfg second v s).cal = s.cal ∧ (writeTraceCfg second v s).gng = s.gng ∧ (writeTraceCfg second v s).sec = s.sec ∧ (writeTraceCfg second v s).flt = s.flt ∧ (writeTraceCfg second v s).thm = s.thm ∧ (writeTraceCfg second v s).trc = s.trc ∧ (writeTraceCfg second v s).bst = s.bst ∧ (writeTraceCfg second v s).out = s.out ∧ (writeTraceCfg second v s).free = s.free ∧ (writeTraceCfg second v s).pending = s.pending ∧ (writeTraceCfg second v s).rings.sqs = s.rings.sqs ∧ (writeTraceCfg second v s).rings.cqs = s.rings.cqs ∧ (writeTraceCfg second v s).rings.eq0 = s.rings.eq0 ∧ (writeTraceCfg second v s).rings.eq1 = s.rings.eq1 := by
  unfold writeTraceCfg
  (try simp)
  (repeat' split) <;> (try simp)

@[simp] theorem writeRing_frame (fn : Fn) (off : Nat) (v : Word) (s : State) :
    (writeRing fn off v s).sys = s.sys ∧ (writeRing fn off v s).pwr = s.pwr ∧ (writeRing fn off v s).conf = s.conf ∧ (writeRing fn off v s).pix = s.pix ∧ (writeRing fn off v s).gz = s.gz ∧ (writeRing fn off v s).lmp = s.lmp ∧ (writeRing fn off v s).dmk = s.dmk ∧ (writeRing fn off v s).od = s.od ∧ (writeRing fn off v s).tmg = s.tmg ∧ (writeRing fn off v s).pnl = s.pnl ∧ (writeRing fn off v s).twl = s.twl ∧ (writeRing fn off v s).cue = s.cue ∧ (writeRing fn off v s).mem = s.mem ∧ (writeRing fn off v s).lin = s.lin ∧ (writeRing fn off v s).cal = s.cal ∧ (writeRing fn off v s).gng = s.gng ∧ (writeRing fn off v s).sec = s.sec ∧ (writeRing fn off v s).flt = s.flt ∧ (writeRing fn off v s).thm = s.thm ∧ (writeRing fn off v s).bst = s.bst ∧ (writeRing fn off v s).pending = s.pending ∧ (writeRing fn off v s).hif.power = s.hif.power ∧ (writeRing fn off v s).hif.d3hot = s.hif.d3hot := by
  unfold writeRing
  (try simp)
  (repeat' split) <;> (try simp)

@[simp] theorem badDoorbell_frame (fn : Fn) (off : Nat) (v : Word) (s : State) :
    (badDoorbell fn off v s).sys = s.sys ∧ (badDoorbell fn off v s).pwr = s.pwr ∧ (badDoorbell fn off v s).conf = s.conf ∧ (badDoorbell fn off v s).ing = s.ing ∧ (badDoorbell fn off v s).pix = s.pix ∧ (badDoorbell fn off v s).gz = s.gz ∧ (badDoorbell fn off v s).lmp = s.lmp ∧ (badDoorbell fn off v s).dmk = s.dmk ∧ (badDoorbell fn off v s).od = s.od ∧ (badDoorbell fn off v s).tmg = s.tmg ∧ (badDoorbell fn off v s).pnl = s.pnl ∧ (badDoorbell fn off v s).twl = s.twl ∧ (badDoorbell fn off v s).cue = s.cue ∧ (badDoorbell fn off v s).mem = s.mem ∧ (badDoorbell fn off v s).lin = s.lin ∧ (badDoorbell fn off v s).cal = s.cal ∧ (badDoorbell fn off v s).gng = s.gng ∧ (badDoorbell fn off v s).sec = s.sec ∧ (badDoorbell fn off v s).flt = s.flt ∧ (badDoorbell fn off v s).thm = s.thm ∧ (badDoorbell fn off v s).trc = s.trc ∧ (badDoorbell fn off v s).bst = s.bst ∧ (badDoorbell fn off v s).free = s.free ∧ (badDoorbell fn off v s).pending = s.pending ∧ (badDoorbell fn off v s).hif.power = s.hif.power ∧ (badDoorbell fn off v s).hif.bme0 = s.hif.bme0 ∧ (badDoorbell fn off v s).hif.bme1 = s.hif.bme1 ∧ (badDoorbell fn off v s).hif.d3hot = s.hif.d3hot ∧ (badDoorbell fn off v s).rings.sqs = s.rings.sqs := by
  unfold badDoorbell
  (repeat' split) <;> (try simp)

@[simp] theorem beginTransit_frame (m : Mode) (retain : Bool) (s : State) :
    (beginTransit m retain s).pwr = s.pwr ∧ (beginTransit m retain s).hif = s.hif ∧ (beginTransit m retain s).rings = s.rings ∧ (beginTransit m retain s).conf = s.conf ∧ (beginTransit m retain s).ing = s.ing ∧ (beginTransit m retain s).pix = s.pix ∧ (beginTransit m retain s).gz = s.gz ∧ (beginTransit m retain s).lmp = s.lmp ∧ (beginTransit m retain s).dmk = s.dmk ∧ (beginTransit m retain s).od = s.od ∧ (beginTransit m retain s).tmg = s.tmg ∧ (beginTransit m retain s).pnl = s.pnl ∧ (beginTransit m retain s).twl = s.twl ∧ (beginTransit m retain s).cue = s.cue ∧ (beginTransit m retain s).mem = s.mem ∧ (beginTransit m retain s).lin = s.lin ∧ (beginTransit m retain s).cal = s.cal ∧ (beginTransit m retain s).gng = s.gng ∧ (beginTransit m retain s).sec = s.sec ∧ (beginTransit m retain s).flt = s.flt ∧ (beginTransit m retain s).thm = s.thm ∧ (beginTransit m retain s).trc = s.trc ∧ (beginTransit m retain s).bst = s.bst ∧ (beginTransit m retain s).out = s.out ∧ (beginTransit m retain s).free = s.free ∧ (beginTransit m retain s).pending = s.pending ∧ (beginTransit m retain s).sys.mode = s.sys.mode ∧ (beginTransit m retain s).sys.fe = s.sys.fe ∧ (beginTransit m retain s).sys.lock = s.sys.lock ∧ (beginTransit m retain s).sys.serving = s.sys.serving ∧ (beginTransit m retain s).sys.stage = s.sys.stage := by
  unfold beginTransit
  (try dsimp only)
  (repeat' split) <;> (try simp)

@[simp] theorem toLive_frame (s : State) :
    (toLive s).pwr = s.pwr ∧ (toLive s).hif = s.hif ∧ (toLive s).rings = s.rings ∧ (toLive s).conf = s.conf ∧ (toLive s).ing = s.ing ∧ (toLive s).pix = s.pix ∧ (toLive s).gz = s.gz ∧ (toLive s).lmp = s.lmp ∧ (toLive s).dmk = s.dmk ∧ (toLive s).od = s.od ∧ (toLive s).tmg = s.tmg ∧ (toLive s).pnl = s.pnl ∧ (toLive s).cue = s.cue ∧ (toLive s).mem = s.mem ∧ (toLive s).lin = s.lin ∧ (toLive s).cal = s.cal ∧ (toLive s).gng = s.gng ∧ (toLive s).sec = s.sec ∧ (toLive s).flt = s.flt ∧ (toLive s).thm = s.thm ∧ (toLive s).trc = s.trc ∧ (toLive s).bst = s.bst ∧ (toLive s).free = s.free ∧ (toLive s).pending = s.pending ∧ (toLive s).sys.mode = s.sys.mode ∧ (toLive s).sys.fe = s.sys.fe ∧ (toLive s).sys.lock = s.sys.lock ∧ (toLive s).sys.serving = s.sys.serving ∧ (toLive s).sys.stage = s.sys.stage := by
  unfold toLive
  (try simp)
  (repeat' split) <;> (try simp)

@[simp] theorem ringSubmission_frame (fn : Fn) (n : Nat) (v : Word) (s : State) :
    (ringSubmission fn n v s).pwr = s.pwr ∧ (ringSubmission fn n v s).conf = s.conf ∧ (ringSubmission fn n v s).ing = s.ing ∧ (ringSubmission fn n v s).pix = s.pix ∧ (ringSubmission fn n v s).gz = s.gz ∧ (ringSubmission fn n v s).lmp = s.lmp ∧ (ringSubmission fn n v s).dmk = s.dmk ∧ (ringSubmission fn n v s).od = s.od ∧ (ringSubmission fn n v s).tmg = s.tmg ∧ (ringSubmission fn n v s).pnl = s.pnl ∧ (ringSubmission fn n v s).cue = s.cue ∧ (ringSubmission fn n v s).mem = s.mem ∧ (ringSubmission fn n v s).lin = s.lin ∧ (ringSubmission fn n v s).cal = s.cal ∧ (ringSubmission fn n v s).gng = s.gng ∧ (ringSubmission fn n v s).sec = s.sec ∧ (ringSubmission fn n v s).flt = s.flt ∧ (ringSubmission fn n v s).thm = s.thm ∧ (ringSubmission fn n v s).trc = s.trc ∧ (ringSubmission fn n v s).bst = s.bst ∧ (ringSubmission fn n v s).free = s.free ∧ (ringSubmission fn n v s).pending = s.pending ∧ (ringSubmission fn n v s).sys.mode = s.sys.mode ∧ (ringSubmission fn n v s).sys.fe = s.sys.fe ∧ (ringSubmission fn n v s).sys.lock = s.sys.lock ∧ (ringSubmission fn n v s).sys.serving = s.sys.serving ∧ (ringSubmission fn n v s).sys.stage = s.sys.stage ∧ (ringSubmission fn n v s).hif.power = s.hif.power ∧ (ringSubmission fn n v s).hif.bme0 = s.hif.bme0 ∧ (ringSubmission fn n v s).hif.bme1 = s.hif.bme1 ∧ (ringSubmission fn n v s).hif.d3hot = s.hif.d3hot := by
  unfold ringSubmission
  (try simp)
  (repeat' split) <;> (try simp)

@[simp] theorem ringCompletion_frame (fn : Fn) (m : Nat) (v : Word) (s : State) :
    (ringCompletion fn m v s).sys = s.sys ∧ (ringCompletion fn m v s).pwr = s.pwr ∧ (ringCompletion fn m v s).conf = s.conf ∧ (ringCompletion fn m v s).ing = s.ing ∧ (ringCompletion fn m v s).pix = s.pix ∧ (ringCompletion fn m v s).gz = s.gz ∧ (ringCompletion fn m v s).lmp = s.lmp ∧ (ringCompletion fn m v s).dmk = s.dmk ∧ (ringCompletion fn m v s).od = s.od ∧ (ringCompletion fn m v s).tmg = s.tmg ∧ (ringCompletion fn m v s).pnl = s.pnl ∧ (ringCompletion fn m v s).twl = s.twl ∧ (ringCompletion fn m v s).cue = s.cue ∧ (ringCompletion fn m v s).mem = s.mem ∧ (ringCompletion fn m v s).lin = s.lin ∧ (ringCompletion fn m v s).cal = s.cal ∧ (ringCompletion fn m v s).gng = s.gng ∧ (ringCompletion fn m v s).sec = s.sec ∧ (ringCompletion fn m v s).flt = s.flt ∧ (ringCompletion fn m v s).thm = s.thm ∧ (ringCompletion fn m v s).trc = s.trc ∧ (ringCompletion fn m v s).bst = s.bst ∧ (ringCompletion fn m v s).free = s.free ∧ (ringCompletion fn m v s).pending = s.pending ∧ (ringCompletion fn m v s).hif.power = s.hif.power ∧ (ringCompletion fn m v s).hif.bme0 = s.hif.bme0 ∧ (ringCompletion fn m v s).hif.bme1 = s.hif.bme1 ∧ (ringCompletion fn m v s).hif.d3hot = s.hif.d3hot ∧ (ringCompletion fn m v s).rings.sqs = s.rings.sqs := by
  unfold ringCompletion
  (try simp)
  (repeat' split) <;> (try simp)

@[simp] theorem ringHead_frame (fn : Fn) (w : HeadRing) (v : Word) (s : State) :
    (ringHead fn w v s).sys = s.sys ∧ (ringHead fn w v s).pwr = s.pwr ∧ (ringHead fn w v s).conf = s.conf ∧ (ringHead fn w v s).ing = s.ing ∧ (ringHead fn w v s).pix = s.pix ∧ (ringHead fn w v s).gz = s.gz ∧ (ringHead fn w v s).lmp = s.lmp ∧ (ringHead fn w v s).dmk = s.dmk ∧ (ringHead fn w v s).od = s.od ∧ (ringHead fn w v s).tmg = s.tmg ∧ (ringHead fn w v s).pnl = s.pnl ∧ (ringHead fn w v s).twl = s.twl ∧ (ringHead fn w v s).cue = s.cue ∧ (ringHead fn w v s).mem = s.mem ∧ (ringHead fn w v s).lin = s.lin ∧ (ringHead fn w v s).cal = s.cal ∧ (ringHead fn w v s).gng = s.gng ∧ (ringHead fn w v s).sec = s.sec ∧ (ringHead fn w v s).flt = s.flt ∧ (ringHead fn w v s).thm = s.thm ∧ (ringHead fn w v s).trc = s.trc ∧ (ringHead fn w v s).bst = s.bst ∧ (ringHead fn w v s).free = s.free ∧ (ringHead fn w v s).pending = s.pending ∧ (ringHead fn w v s).hif.power = s.hif.power ∧ (ringHead fn w v s).hif.bme0 = s.hif.bme0 ∧ (ringHead fn w v s).hif.bme1 = s.hif.bme1 ∧ (ringHead fn w v s).hif.d3hot = s.hif.d3hot := by
  unfold ringHead
  (try simp)
  (repeat' split) <;> (try simp)

@[simp] theorem askFullWidth_frame (s : State) :
    (askFullWidth s).sys = s.sys ∧ (askFullWidth s).pwr = s.pwr ∧ (askFullWidth s).rings = s.rings ∧ (askFullWidth s).conf = s.conf ∧ (askFullWidth s).ing = s.ing ∧ (askFullWidth s).pix = s.pix ∧ (askFullWidth s).gz = s.gz ∧ (askFullWidth s).lmp = s.lmp ∧ (askFullWidth s).dmk = s.dmk ∧ (askFullWidth s).od = s.od ∧ (askFullWidth s).tmg = s.tmg ∧ (askFullWidth s).pnl = s.pnl ∧ (askFullWidth s).twl = s.twl ∧ (askFullWidth s).cue = s.cue ∧ (askFullWidth s).mem = s.mem ∧ (askFullWidth s).lin = s.lin ∧ (askFullWidth s).cal = s.cal ∧ (askFullWidth s).gng = s.gng ∧ (askFullWidth s).sec = s.sec ∧ (askFullWidth s).flt = s.flt ∧ (askFullWidth s).thm = s.thm ∧ (askFullWidth s).trc = s.trc ∧ (askFullWidth s).bst = s.bst ∧ (askFullWidth s).free = s.free ∧ (askFullWidth s).pending = s.pending ∧ (askFullWidth s).hif.power = s.hif.power ∧ (askFullWidth s).hif.bme0 = s.hif.bme0 ∧ (askFullWidth s).hif.bme1 = s.hif.bme1 ∧ (askFullWidth s).hif.d3hot = s.hif.d3hot := by
  unfold askFullWidth
  (try simp)
  (repeat' split) <;> (try simp)

@[simp] theorem fetchFrom_frame (fn : Fn) (n : Nat) (data : Rd) (s : State) :
    (fetchFrom fn n data s).sys = s.sys ∧ (fetchFrom fn n data s).pwr = s.pwr ∧ (fetchFrom fn n data s).conf = s.conf ∧ (fetchFrom fn n data s).ing = s.ing ∧ (fetchFrom fn n data s).pix = s.pix ∧ (fetchFrom fn n data s).gz = s.gz ∧ (fetchFrom fn n data s).lmp = s.lmp ∧ (fetchFrom fn n data s).dmk = s.dmk ∧ (fetchFrom fn n data s).od = s.od ∧ (fetchFrom fn n data s).tmg = s.tmg ∧ (fetchFrom fn n data s).pnl = s.pnl ∧ (fetchFrom fn n data s).twl = s.twl ∧ (fetchFrom fn n data s).cue = s.cue ∧ (fetchFrom fn n data s).mem = s.mem ∧ (fetchFrom fn n data s).lin = s.lin ∧ (fetchFrom fn n data s).cal = s.cal ∧ (fetchFrom fn n data s).gng = s.gng ∧ (fetchFrom fn n data s).sec = s.sec ∧ (fetchFrom fn n data s).flt = s.flt ∧ (fetchFrom fn n data s).thm = s.thm ∧ (fetchFrom fn n data s).bst = s.bst ∧ (fetchFrom fn n data s).pending = s.pending ∧ (fetchFrom fn n data s).hif.power = s.hif.power ∧ (fetchFrom fn n data s).hif.bme0 = s.hif.bme0 ∧ (fetchFrom fn n data s).hif.bme1 = s.hif.bme1 ∧ (fetchFrom fn n data s).hif.d3hot = s.hif.d3hot := by
  unfold fetchFrom
  (try simp)
  (repeat' split) <;> (try simp)

@[simp] theorem dueCq_frame (key : Nat) (s : State) :
    (dueCq key s).sys = s.sys ∧ (dueCq key s).pwr = s.pwr ∧ (dueCq key s).conf = s.conf ∧ (dueCq key s).ing = s.ing ∧ (dueCq key s).pix = s.pix ∧ (dueCq key s).gz = s.gz ∧ (dueCq key s).lmp = s.lmp ∧ (dueCq key s).dmk = s.dmk ∧ (dueCq key s).od = s.od ∧ (dueCq key s).tmg = s.tmg ∧ (dueCq key s).pnl = s.pnl ∧ (dueCq key s).twl = s.twl ∧ (dueCq key s).cue = s.cue ∧ (dueCq key s).mem = s.mem ∧ (dueCq key s).lin = s.lin ∧ (dueCq key s).cal = s.cal ∧ (dueCq key s).gng = s.gng ∧ (dueCq key s).sec = s.sec ∧ (dueCq key s).flt = s.flt ∧ (dueCq key s).thm = s.thm ∧ (dueCq key s).trc = s.trc ∧ (dueCq key s).bst = s.bst ∧ (dueCq key s).free = s.free ∧ (dueCq key s).pending = s.pending ∧ (dueCq key s).hif.power = s.hif.power ∧ (dueCq key s).hif.bme0 = s.hif.bme0 ∧ (dueCq key s).hif.bme1 = s.hif.bme1 ∧ (dueCq key s).hif.d3hot = s.hif.d3hot ∧ (dueCq key s).rings.sqs = s.rings.sqs := by
  unfold dueCq
  (try simp)
  (repeat' split) <;> (try simp)

@[simp] theorem dueEq_frame (fn : Fn) (s : State) :
    (dueEq fn s).sys = s.sys ∧ (dueEq fn s).pwr = s.pwr ∧ (dueEq fn s).conf = s.conf ∧ (dueEq fn s).ing = s.ing ∧ (dueEq fn s).pix = s.pix ∧ (dueEq fn s).gz = s.gz ∧ (dueEq fn s).lmp = s.lmp ∧ (dueEq fn s).dmk = s.dmk ∧ (dueEq fn s).od = s.od ∧ (dueEq fn s).tmg = s.tmg ∧ (dueEq fn s).pnl = s.pnl ∧ (dueEq fn s).twl = s.twl ∧ (dueEq fn s).cue = s.cue ∧ (dueEq fn s).mem = s.mem ∧ (dueEq fn s).lin = s.lin ∧ (dueEq fn s).cal = s.cal ∧ (dueEq fn s).gng = s.gng ∧ (dueEq fn s).sec = s.sec ∧ (dueEq fn s).flt = s.flt ∧ (dueEq fn s).thm = s.thm ∧ (dueEq fn s).trc = s.trc ∧ (dueEq fn s).bst = s.bst ∧ (dueEq fn s).free = s.free ∧ (dueEq fn s).pending = s.pending ∧ (dueEq fn s).hif.power = s.hif.power ∧ (dueEq fn s).hif.bme0 = s.hif.bme0 ∧ (dueEq fn s).hif.bme1 = s.hif.bme1 ∧ (dueEq fn s).hif.d3hot = s.hif.d3hot ∧ (dueEq fn s).rings.sqs = s.rings.sqs ∧ (dueEq fn s).rings.cqs = s.rings.cqs := by
  unfold dueEq
  (try simp)
  (repeat' split) <;> (try simp)

@[simp] theorem dropHeld_frame (fn : Fn) (s : State) :
    (dropHeld fn s).sys = s.sys ∧ (dropHeld fn s).pwr = s.pwr ∧ (dropHeld fn s).conf = s.conf ∧ (dropHeld fn s).ing = s.ing ∧ (dropHeld fn s).pix = s.pix ∧ (dropHeld fn s).gz = s.gz ∧ (dropHeld fn s).lmp = s.lmp ∧ (dropHeld fn s).dmk = s.dmk ∧ (dropHeld fn s).od = s.od ∧ (dropHeld fn s).tmg = s.tmg ∧ (dropHeld fn s).pnl = s.pnl ∧ (dropHeld fn s).twl = s.twl ∧ (dropHeld fn s).cue = s.cue ∧ (dropHeld fn s).mem = s.mem ∧ (dropHeld fn s).lin = s.lin ∧ (dropHeld fn s).cal = s.cal ∧ (dropHeld fn s).gng = s.gng ∧ (dropHeld fn s).sec = s.sec ∧ (dropHeld fn s).flt = s.flt ∧ (dropHeld fn s).thm = s.thm ∧ (dropHeld fn s).trc = s.trc ∧ (dropHeld fn s).bst = s.bst ∧ (dropHeld fn s).out = s.out ∧ (dropHeld fn s).free = s.free ∧ (dropHeld fn s).pending = s.pending ∧ (dropHeld fn s).hif.power = s.hif.power ∧ (dropHeld fn s).hif.bme0 = s.hif.bme0 ∧ (dropHeld fn s).hif.bme1 = s.hif.bme1 ∧ (dropHeld fn s).hif.d3hot = s.hif.d3hot ∧ (dropHeld fn s).rings.sqs = s.rings.sqs := by
  unfold dropHeld
  (try dsimp only)
  (repeat' split) <;> (try simp)

@[simp] theorem unmask_frame (fn : Fn) (t : MsixTarget) (s : State) :
    (unmask fn t s).sys = s.sys ∧ (unmask fn t s).pwr = s.pwr ∧ (unmask fn t s).conf = s.conf ∧ (unmask fn t s).ing = s.ing ∧ (unmask fn t s).pix = s.pix ∧ (unmask fn t s).gz = s.gz ∧ (unmask fn t s).lmp = s.lmp ∧ (unmask fn t s).dmk = s.dmk ∧ (unmask fn t s).od = s.od ∧ (unmask fn t s).tmg = s.tmg ∧ (unmask fn t s).pnl = s.pnl ∧ (unmask fn t s).twl = s.twl ∧ (unmask fn t s).cue = s.cue ∧ (unmask fn t s).mem = s.mem ∧ (unmask fn t s).lin = s.lin ∧ (unmask fn t s).cal = s.cal ∧ (unmask fn t s).gng = s.gng ∧ (unmask fn t s).sec = s.sec ∧ (unmask fn t s).flt = s.flt ∧ (unmask fn t s).thm = s.thm ∧ (unmask fn t s).trc = s.trc ∧ (unmask fn t s).bst = s.bst ∧ (unmask fn t s).free = s.free ∧ (unmask fn t s).pending = s.pending ∧ (unmask fn t s).hif.power = s.hif.power ∧ (unmask fn t s).hif.bme0 = s.hif.bme0 ∧ (unmask fn t s).hif.bme1 = s.hif.bme1 ∧ (unmask fn t s).hif.d3hot = s.hif.d3hot ∧ (unmask fn t s).rings.sqs = s.rings.sqs := by
  unfold unmask
  (repeat' split) <;> (try simp)

@[simp] theorem mask_frame (fn : Fn) (t : MsixTarget) (s : State) :
    (mask fn t s).sys = s.sys ∧ (mask fn t s).pwr = s.pwr ∧ (mask fn t s).conf = s.conf ∧ (mask fn t s).ing = s.ing ∧ (mask fn t s).pix = s.pix ∧ (mask fn t s).gz = s.gz ∧ (mask fn t s).lmp = s.lmp ∧ (mask fn t s).dmk = s.dmk ∧ (mask fn t s).od = s.od ∧ (mask fn t s).tmg = s.tmg ∧ (mask fn t s).pnl = s.pnl ∧ (mask fn t s).twl = s.twl ∧ (mask fn t s).cue = s.cue ∧ (mask fn t s).mem = s.mem ∧ (mask fn t s).lin = s.lin ∧ (mask fn t s).cal = s.cal ∧ (mask fn t s).gng = s.gng ∧ (mask fn t s).sec = s.sec ∧ (mask fn t s).flt = s.flt ∧ (mask fn t s).thm = s.thm ∧ (mask fn t s).trc = s.trc ∧ (mask fn t s).bst = s.bst ∧ (mask fn t s).out = s.out ∧ (mask fn t s).free = s.free ∧ (mask fn t s).pending = s.pending ∧ (mask fn t s).hif.power = s.hif.power ∧ (mask fn t s).hif.bme0 = s.hif.bme0 ∧ (mask fn t s).hif.bme1 = s.hif.bme1 ∧ (mask fn t s).hif.d3hot = s.hif.d3hot ∧ (mask fn t s).rings.sqs = s.rings.sqs := by
  unfold mask
  (try simp)
  (repeat' split) <;> (try simp)

@[simp] theorem lampWire_frame (lane : Nat) (chars : List LampChar) (s : State) :
    (lampWire lane chars s).sys = s.sys ∧ (lampWire lane chars s).pwr = s.pwr ∧ (lampWire lane chars s).hif = s.hif ∧ (lampWire lane chars s).rings = s.rings ∧ (lampWire lane chars s).conf = s.conf ∧ (lampWire lane chars s).ing = s.ing ∧ (lampWire lane chars s).pix = s.pix ∧ (lampWire lane chars s).gz = s.gz ∧ (lampWire lane chars s).lmp = s.lmp ∧ (lampWire lane chars s).dmk = s.dmk ∧ (lampWire lane chars s).od = s.od ∧ (lampWire lane chars s).tmg = s.tmg ∧ (lampWire lane chars s).pnl = s.pnl ∧ (lampWire lane chars s).twl = s.twl ∧ (lampWire lane chars s).cue = s.cue ∧ (lampWire lane chars s).mem = s.mem ∧ (lampWire lane chars s).lin = s.lin ∧ (lampWire lane chars s).cal = s.cal ∧ (lampWire lane chars s).gng = s.gng ∧ (lampWire lane chars s).sec = s.sec ∧ (lampWire lane chars s).flt = s.flt ∧ (lampWire lane chars s).thm = s.thm ∧ (lampWire lane chars s).trc = s.trc ∧ (lampWire lane chars s).bst = s.bst ∧ (lampWire lane chars s).pending = s.pending := by
  unfold lampWire
  (repeat' split) <;> (try simp)

@[simp] theorem lampWires_frame (l : List (Nat × List LampChar)) (s : State) :
    (lampWires l s).sys = s.sys ∧ (lampWires l s).pwr = s.pwr ∧ (lampWires l s).hif = s.hif ∧ (lampWires l s).rings = s.rings ∧ (lampWires l s).conf = s.conf ∧ (lampWires l s).ing = s.ing ∧ (lampWires l s).pix = s.pix ∧ (lampWires l s).gz = s.gz ∧ (lampWires l s).lmp = s.lmp ∧ (lampWires l s).dmk = s.dmk ∧ (lampWires l s).od = s.od ∧ (lampWires l s).tmg = s.tmg ∧ (lampWires l s).pnl = s.pnl ∧ (lampWires l s).twl = s.twl ∧ (lampWires l s).cue = s.cue ∧ (lampWires l s).mem = s.mem ∧ (lampWires l s).lin = s.lin ∧ (lampWires l s).cal = s.cal ∧ (lampWires l s).gng = s.gng ∧ (lampWires l s).sec = s.sec ∧ (lampWires l s).flt = s.flt ∧ (lampWires l s).thm = s.thm ∧ (lampWires l s).trc = s.trc ∧ (lampWires l s).bst = s.bst ∧ (lampWires l s).pending = s.pending := by
  unfold lampWires
  (repeat' split) <;> (try simp)

@[simp] theorem lampBroadcast_frame (fe type : Nat) (payload : Bytes) (s : State) :
    (lampBroadcast fe type payload s).sys = s.sys ∧ (lampBroadcast fe type payload s).pwr = s.pwr ∧ (lampBroadcast fe type payload s).hif = s.hif ∧ (lampBroadcast fe type payload s).rings = s.rings ∧ (lampBroadcast fe type payload s).conf = s.conf ∧ (lampBroadcast fe type payload s).ing = s.ing ∧ (lampBroadcast fe type payload s).pix = s.pix ∧ (lampBroadcast fe type payload s).gz = s.gz ∧ (lampBroadcast fe type payload s).lmp = s.lmp ∧ (lampBroadcast fe type payload s).dmk = s.dmk ∧ (lampBroadcast fe type payload s).od = s.od ∧ (lampBroadcast fe type payload s).tmg = s.tmg ∧ (lampBroadcast fe type payload s).pnl = s.pnl ∧ (lampBroadcast fe type payload s).twl = s.twl ∧ (lampBroadcast fe type payload s).cue = s.cue ∧ (lampBroadcast fe type payload s).mem = s.mem ∧ (lampBroadcast fe type payload s).lin = s.lin ∧ (lampBroadcast fe type payload s).cal = s.cal ∧ (lampBroadcast fe type payload s).gng = s.gng ∧ (lampBroadcast fe type payload s).sec = s.sec ∧ (lampBroadcast fe type payload s).flt = s.flt ∧ (lampBroadcast fe type payload s).thm = s.thm ∧ (lampBroadcast fe type payload s).trc = s.trc ∧ (lampBroadcast fe type payload s).bst = s.bst ∧ (lampBroadcast fe type payload s).pending = s.pending := by
  unfold lampBroadcast
  (repeat' split) <;> (try simp)

@[simp] theorem setDriver_frame (lane pos : Nat) (d : Driver) (s : State) :
    (setDriver lane pos d s).sys = s.sys ∧ (setDriver lane pos d s).pwr = s.pwr ∧ (setDriver lane pos d s).hif = s.hif ∧ (setDriver lane pos d s).rings = s.rings ∧ (setDriver lane pos d s).conf = s.conf ∧ (setDriver lane pos d s).ing = s.ing ∧ (setDriver lane pos d s).pix = s.pix ∧ (setDriver lane pos d s).gz = s.gz ∧ (setDriver lane pos d s).dmk = s.dmk ∧ (setDriver lane pos d s).od = s.od ∧ (setDriver lane pos d s).tmg = s.tmg ∧ (setDriver lane pos d s).pnl = s.pnl ∧ (setDriver lane pos d s).twl = s.twl ∧ (setDriver lane pos d s).cue = s.cue ∧ (setDriver lane pos d s).mem = s.mem ∧ (setDriver lane pos d s).lin = s.lin ∧ (setDriver lane pos d s).cal = s.cal ∧ (setDriver lane pos d s).gng = s.gng ∧ (setDriver lane pos d s).sec = s.sec ∧ (setDriver lane pos d s).flt = s.flt ∧ (setDriver lane pos d s).thm = s.thm ∧ (setDriver lane pos d s).trc = s.trc ∧ (setDriver lane pos d s).bst = s.bst ∧ (setDriver lane pos d s).out = s.out ∧ (setDriver lane pos d s).free = s.free ∧ (setDriver lane pos d s).pending = s.pending := by
  unfold setDriver
  (try dsimp only)
  (repeat' split) <;> (try simp)

@[simp] theorem setWaits_frame (lane : Nat) (w : List LampWait) (s : State) :
    (setWaits lane w s).sys = s.sys ∧ (setWaits lane w s).pwr = s.pwr ∧ (setWaits lane w s).hif = s.hif ∧ (setWaits lane w s).rings = s.rings ∧ (setWaits lane w s).conf = s.conf ∧ (setWaits lane w s).ing = s.ing ∧ (setWaits lane w s).pix = s.pix ∧ (setWaits lane w s).gz = s.gz ∧ (setWaits lane w s).dmk = s.dmk ∧ (setWaits lane w s).od = s.od ∧ (setWaits lane w s).tmg = s.tmg ∧ (setWaits lane w s).pnl = s.pnl ∧ (setWaits lane w s).twl = s.twl ∧ (setWaits lane w s).cue = s.cue ∧ (setWaits lane w s).mem = s.mem ∧ (setWaits lane w s).lin = s.lin ∧ (setWaits lane w s).cal = s.cal ∧ (setWaits lane w s).gng = s.gng ∧ (setWaits lane w s).sec = s.sec ∧ (setWaits lane w s).flt = s.flt ∧ (setWaits lane w s).thm = s.thm ∧ (setWaits lane w s).trc = s.trc ∧ (setWaits lane w s).bst = s.bst ∧ (setWaits lane w s).out = s.out ∧ (setWaits lane w s).free = s.free ∧ (setWaits lane w s).pending = s.pending := by
  unfold setWaits
  (try dsimp only)
  (repeat' split) <;> (try simp)

@[simp] theorem lampSend_frame (lane pos type : Nat) (answered : Bool) (frame : Bytes) (s : State) :
    (lampSend lane pos type answered frame s).sys = s.sys ∧ (lampSend lane pos type answered frame s).pwr = s.pwr ∧ (lampSend lane pos type answered frame s).hif = s.hif ∧ (lampSend lane pos type answered frame s).rings = s.rings ∧ (lampSend lane pos type answered frame s).conf = s.conf ∧ (lampSend lane pos type answered frame s).ing = s.ing ∧ (lampSend lane pos type answered frame s).pix = s.pix ∧ (lampSend lane pos type answered frame s).gz = s.gz ∧ (lampSend lane pos type answered frame s).dmk = s.dmk ∧ (lampSend lane pos type answered frame s).od = s.od ∧ (lampSend lane pos type answered frame s).tmg = s.tmg ∧ (lampSend lane pos type answered frame s).pnl = s.pnl ∧ (lampSend lane pos type answered frame s).twl = s.twl ∧ (lampSend lane pos type answered frame s).cue = s.cue ∧ (lampSend lane pos type answered frame s).mem = s.mem ∧ (lampSend lane pos type answered frame s).lin = s.lin ∧ (lampSend lane pos type answered frame s).cal = s.cal ∧ (lampSend lane pos type answered frame s).gng = s.gng ∧ (lampSend lane pos type answered frame s).sec = s.sec ∧ (lampSend lane pos type answered frame s).flt = s.flt ∧ (lampSend lane pos type answered frame s).thm = s.thm ∧ (lampSend lane pos type answered frame s).trc = s.trc ∧ (lampSend lane pos type answered frame s).bst = s.bst ∧ (lampSend lane pos type answered frame s).pending = s.pending := by
  unfold lampSend
  (try dsimp only)
  (repeat' split) <;> (try simp)

@[simp] theorem sendLevels_frame (r0 r1 : Nat) (s : State) :
    (sendLevels r0 r1 s).sys = s.sys ∧ (sendLevels r0 r1 s).pwr = s.pwr ∧ (sendLevels r0 r1 s).hif = s.hif ∧ (sendLevels r0 r1 s).rings = s.rings ∧ (sendLevels r0 r1 s).conf = s.conf ∧ (sendLevels r0 r1 s).ing = s.ing ∧ (sendLevels r0 r1 s).pix = s.pix ∧ (sendLevels r0 r1 s).gz = s.gz ∧ (sendLevels r0 r1 s).dmk = s.dmk ∧ (sendLevels r0 r1 s).od = s.od ∧ (sendLevels r0 r1 s).tmg = s.tmg ∧ (sendLevels r0 r1 s).pnl = s.pnl ∧ (sendLevels r0 r1 s).twl = s.twl ∧ (sendLevels r0 r1 s).cue = s.cue ∧ (sendLevels r0 r1 s).mem = s.mem ∧ (sendLevels r0 r1 s).lin = s.lin ∧ (sendLevels r0 r1 s).cal = s.cal ∧ (sendLevels r0 r1 s).gng = s.gng ∧ (sendLevels r0 r1 s).sec = s.sec ∧ (sendLevels r0 r1 s).flt = s.flt ∧ (sendLevels r0 r1 s).thm = s.thm ∧ (sendLevels r0 r1 s).trc = s.trc ∧ (sendLevels r0 r1 s).bst = s.bst ∧ (sendLevels r0 r1 s).pending = s.pending := by
  unfold sendLevels
  (try dsimp only)
  (repeat' split) <;> (try simp)

@[simp] theorem sendSchedule_frame (c : Conf) (lane pos tag : Nat) (s : State) :
    (sendSchedule c lane pos tag s).sys = s.sys ∧ (sendSchedule c lane pos tag s).pwr = s.pwr ∧ (sendSchedule c lane pos tag s).hif = s.hif ∧ (sendSchedule c lane pos tag s).rings = s.rings ∧ (sendSchedule c lane pos tag s).conf = s.conf ∧ (sendSchedule c lane pos tag s).ing = s.ing ∧ (sendSchedule c lane pos tag s).pix = s.pix ∧ (sendSchedule c lane pos tag s).gz = s.gz ∧ (sendSchedule c lane pos tag s).lmp = s.lmp ∧ (sendSchedule c lane pos tag s).dmk = s.dmk ∧ (sendSchedule c lane pos tag s).od = s.od ∧ (sendSchedule c lane pos tag s).tmg = s.tmg ∧ (sendSchedule c lane pos tag s).pnl = s.pnl ∧ (sendSchedule c lane pos tag s).twl = s.twl ∧ (sendSchedule c lane pos tag s).cue = s.cue ∧ (sendSchedule c lane pos tag s).mem = s.mem ∧ (sendSchedule c lane pos tag s).lin = s.lin ∧ (sendSchedule c lane pos tag s).cal = s.cal ∧ (sendSchedule c lane pos tag s).gng = s.gng ∧ (sendSchedule c lane pos tag s).sec = s.sec ∧ (sendSchedule c lane pos tag s).flt = s.flt ∧ (sendSchedule c lane pos tag s).thm = s.thm ∧ (sendSchedule c lane pos tag s).trc = s.trc ∧ (sendSchedule c lane pos tag s).bst = s.bst ∧ (sendSchedule c lane pos tag s).pending = s.pending := by
  unfold sendSchedule
  (try dsimp only)
  (repeat' split) <;> (try simp)

@[simp] theorem countLit_frame (s : State) :
    (countLit s).sys = s.sys ∧ (countLit s).pwr = s.pwr ∧ (countLit s).hif = s.hif ∧ (countLit s).rings = s.rings ∧ (countLit s).conf = s.conf ∧ (countLit s).ing = s.ing ∧ (countLit s).pix = s.pix ∧ (countLit s).gz = s.gz ∧ (countLit s).dmk = s.dmk ∧ (countLit s).od = s.od ∧ (countLit s).tmg = s.tmg ∧ (countLit s).pnl = s.pnl ∧ (countLit s).twl = s.twl ∧ (countLit s).cue = s.cue ∧ (countLit s).mem = s.mem ∧ (countLit s).lin = s.lin ∧ (countLit s).cal = s.cal ∧ (countLit s).gng = s.gng ∧ (countLit s).sec = s.sec ∧ (countLit s).flt = s.flt ∧ (countLit s).thm = s.thm ∧ (countLit s).trc = s.trc ∧ (countLit s).bst = s.bst ∧ (countLit s).out = s.out ∧ (countLit s).free = s.free ∧ (countLit s).pending = s.pending := by
  unfold countLit
  (try dsimp only)
  (repeat' split) <;> (try simp)

@[simp] theorem openCycle_frame (isRepeat dark : Bool) (s : State) :
    (openCycle isRepeat dark s).sys = s.sys ∧ (openCycle isRepeat dark s).pwr = s.pwr ∧ (openCycle isRepeat dark s).hif = s.hif ∧ (openCycle isRepeat dark s).rings = s.rings ∧ (openCycle isRepeat dark s).conf = s.conf ∧ (openCycle isRepeat dark s).ing = s.ing ∧ (openCycle isRepeat dark s).pix = s.pix ∧ (openCycle isRepeat dark s).gz = s.gz ∧ (openCycle isRepeat dark s).dmk = s.dmk ∧ (openCycle isRepeat dark s).od = s.od ∧ (openCycle isRepeat dark s).tmg = s.tmg ∧ (openCycle isRepeat dark s).pnl = s.pnl ∧ (openCycle isRepeat dark s).twl = s.twl ∧ (openCycle isRepeat dark s).cue = s.cue ∧ (openCycle isRepeat dark s).mem = s.mem ∧ (openCycle isRepeat dark s).lin = s.lin ∧ (openCycle isRepeat dark s).cal = s.cal ∧ (openCycle isRepeat dark s).gng = s.gng ∧ (openCycle isRepeat dark s).sec = s.sec ∧ (openCycle isRepeat dark s).flt = s.flt ∧ (openCycle isRepeat dark s).thm = s.thm ∧ (openCycle isRepeat dark s).trc = s.trc ∧ (openCycle isRepeat dark s).bst = s.bst ∧ (openCycle isRepeat dark s).pending = s.pending := by
  unfold openCycle
  (try dsimp only)
  (repeat' split) <;> (try simp)

@[simp] theorem lampsOff_frame (s : State) :
    (lampsOff s).sys = s.sys ∧ (lampsOff s).pwr = s.pwr ∧ (lampsOff s).hif = s.hif ∧ (lampsOff s).rings = s.rings ∧ (lampsOff s).conf = s.conf ∧ (lampsOff s).ing = s.ing ∧ (lampsOff s).pix = s.pix ∧ (lampsOff s).gz = s.gz ∧ (lampsOff s).lmp = s.lmp ∧ (lampsOff s).dmk = s.dmk ∧ (lampsOff s).od = s.od ∧ (lampsOff s).tmg = s.tmg ∧ (lampsOff s).pnl = s.pnl ∧ (lampsOff s).twl = s.twl ∧ (lampsOff s).cue = s.cue ∧ (lampsOff s).mem = s.mem ∧ (lampsOff s).lin = s.lin ∧ (lampsOff s).cal = s.cal ∧ (lampsOff s).gng = s.gng ∧ (lampsOff s).sec = s.sec ∧ (lampsOff s).flt = s.flt ∧ (lampsOff s).thm = s.thm ∧ (lampsOff s).trc = s.trc ∧ (lampsOff s).bst = s.bst ∧ (lampsOff s).pending = s.pending := by
  unfold lampsOff
  (repeat' split) <;> (try simp)

@[simp] theorem sendHaloTarget_frame (c : Conf) (row : Nat) (s : State) :
    (sendHaloTarget c row s).sys = s.sys ∧ (sendHaloTarget c row s).pwr = s.pwr ∧ (sendHaloTarget c row s).hif = s.hif ∧ (sendHaloTarget c row s).rings = s.rings ∧ (sendHaloTarget c row s).conf = s.conf ∧ (sendHaloTarget c row s).ing = s.ing ∧ (sendHaloTarget c row s).pix = s.pix ∧ (sendHaloTarget c row s).gz = s.gz ∧ (sendHaloTarget c row s).lmp = s.lmp ∧ (sendHaloTarget c row s).dmk = s.dmk ∧ (sendHaloTarget c row s).od = s.od ∧ (sendHaloTarget c row s).tmg = s.tmg ∧ (sendHaloTarget c row s).pnl = s.pnl ∧ (sendHaloTarget c row s).twl = s.twl ∧ (sendHaloTarget c row s).cue = s.cue ∧ (sendHaloTarget c row s).mem = s.mem ∧ (sendHaloTarget c row s).lin = s.lin ∧ (sendHaloTarget c row s).cal = s.cal ∧ (sendHaloTarget c row s).sec = s.sec ∧ (sendHaloTarget c row s).flt = s.flt ∧ (sendHaloTarget c row s).thm = s.thm ∧ (sendHaloTarget c row s).trc = s.trc ∧ (sendHaloTarget c row s).bst = s.bst ∧ (sendHaloTarget c row s).free = s.free ∧ (sendHaloTarget c row s).pending = s.pending := by
  unfold sendHaloTarget
  (repeat' split) <;> (try simp)

@[simp] theorem sendHaloLevel_frame (r0 r1 : Nat) (s : State) :
    (sendHaloLevel r0 r1 s).sys = s.sys ∧ (sendHaloLevel r0 r1 s).pwr = s.pwr ∧ (sendHaloLevel r0 r1 s).hif = s.hif ∧ (sendHaloLevel r0 r1 s).rings = s.rings ∧ (sendHaloLevel r0 r1 s).conf = s.conf ∧ (sendHaloLevel r0 r1 s).ing = s.ing ∧ (sendHaloLevel r0 r1 s).pix = s.pix ∧ (sendHaloLevel r0 r1 s).gz = s.gz ∧ (sendHaloLevel r0 r1 s).lmp = s.lmp ∧ (sendHaloLevel r0 r1 s).dmk = s.dmk ∧ (sendHaloLevel r0 r1 s).od = s.od ∧ (sendHaloLevel r0 r1 s).tmg = s.tmg ∧ (sendHaloLevel r0 r1 s).pnl = s.pnl ∧ (sendHaloLevel r0 r1 s).twl = s.twl ∧ (sendHaloLevel r0 r1 s).cue = s.cue ∧ (sendHaloLevel r0 r1 s).mem = s.mem ∧ (sendHaloLevel r0 r1 s).lin = s.lin ∧ (sendHaloLevel r0 r1 s).cal = s.cal ∧ (sendHaloLevel r0 r1 s).sec = s.sec ∧ (sendHaloLevel r0 r1 s).flt = s.flt ∧ (sendHaloLevel r0 r1 s).thm = s.thm ∧ (sendHaloLevel r0 r1 s).trc = s.trc ∧ (sendHaloLevel r0 r1 s).bst = s.bst ∧ (sendHaloLevel r0 r1 s).free = s.free ∧ (sendHaloLevel r0 r1 s).pending = s.pending := by
  unfold sendHaloLevel
  (repeat' split) <;> (try simp)

@[simp] theorem deliverRow_frame (row : Nat) (s : State) :
    (deliverRow row s).sys = s.sys ∧ (deliverRow row s).pwr = s.pwr ∧ (deliverRow row s).hif = s.hif ∧ (deliverRow row s).rings = s.rings ∧ (deliverRow row s).conf = s.conf ∧ (deliverRow row s).ing = s.ing ∧ (deliverRow row s).pix = s.pix ∧ (deliverRow row s).lmp = s.lmp ∧ (deliverRow row s).dmk = s.dmk ∧ (deliverRow row s).od = s.od ∧ (deliverRow row s).tmg = s.tmg ∧ (deliverRow row s).pnl = s.pnl ∧ (deliverRow row s).twl = s.twl ∧ (deliverRow row s).cue = s.cue ∧ (deliverRow row s).mem = s.mem ∧ (deliverRow row s).lin = s.lin ∧ (deliverRow row s).cal = s.cal ∧ (deliverRow row s).sec = s.sec ∧ (deliverRow row s).flt = s.flt ∧ (deliverRow row s).thm = s.thm ∧ (deliverRow row s).trc = s.trc ∧ (deliverRow row s).bst = s.bst ∧ (deliverRow row s).free = s.free ∧ (deliverRow row s).pending = s.pending := by
  unfold deliverRow
  (try dsimp only)
  (repeat' split) <;> (try simp)

@[simp] theorem mergeOpen_frame (row stripe : Nat) (scratch : SMap Nat) (s : State) :
    (mergeOpen row stripe scratch s).sys = s.sys ∧ (mergeOpen row stripe scratch s).pwr = s.pwr ∧ (mergeOpen row stripe scratch s).hif = s.hif ∧ (mergeOpen row stripe scratch s).rings = s.rings ∧ (mergeOpen row stripe scratch s).conf = s.conf ∧ (mergeOpen row stripe scratch s).ing = s.ing ∧ (mergeOpen row stripe scratch s).pix = s.pix ∧ (mergeOpen row stripe scratch s).lmp = s.lmp ∧ (mergeOpen row stripe scratch s).dmk = s.dmk ∧ (mergeOpen row stripe scratch s).od = s.od ∧ (mergeOpen row stripe scratch s).tmg = s.tmg ∧ (mergeOpen row stripe scratch s).pnl = s.pnl ∧ (mergeOpen row stripe scratch s).twl = s.twl ∧ (mergeOpen row stripe scratch s).cue = s.cue ∧ (mergeOpen row stripe scratch s).mem = s.mem ∧ (mergeOpen row stripe scratch s).lin = s.lin ∧ (mergeOpen row stripe scratch s).cal = s.cal ∧ (mergeOpen row stripe scratch s).sec = s.sec ∧ (mergeOpen row stripe scratch s).flt = s.flt ∧ (mergeOpen row stripe scratch s).thm = s.thm ∧ (mergeOpen row stripe scratch s).trc = s.trc ∧ (mergeOpen row stripe scratch s).bst = s.bst ∧ (mergeOpen row stripe scratch s).free = s.free ∧ (mergeOpen row stripe scratch s).pending = s.pending := by
  unfold mergeOpen
  (try dsimp only)
  (repeat' split) <;> (try simp)

@[simp] theorem reconRow_frame (r : Nat) (s : State) :
    (reconRow r s).sys = s.sys ∧ (reconRow r s).pwr = s.pwr ∧ (reconRow r s).hif = s.hif ∧ (reconRow r s).rings = s.rings ∧ (reconRow r s).conf = s.conf ∧ (reconRow r s).ing = s.ing ∧ (reconRow r s).pix = s.pix ∧ (reconRow r s).lmp = s.lmp ∧ (reconRow r s).dmk = s.dmk ∧ (reconRow r s).od = s.od ∧ (reconRow r s).tmg = s.tmg ∧ (reconRow r s).pnl = s.pnl ∧ (reconRow r s).twl = s.twl ∧ (reconRow r s).cue = s.cue ∧ (reconRow r s).mem = s.mem ∧ (reconRow r s).lin = s.lin ∧ (reconRow r s).cal = s.cal ∧ (reconRow r s).sec = s.sec ∧ (reconRow r s).flt = s.flt ∧ (reconRow r s).thm = s.thm ∧ (reconRow r s).trc = s.trc ∧ (reconRow r s).bst = s.bst ∧ (reconRow r s).out = s.out ∧ (reconRow r s).free = s.free ∧ (reconRow r s).pending = s.pending := by
  unfold reconRow
  (try dsimp only)
  (repeat' split) <;> (try simp)

@[simp] theorem runRecon_frame (s : State) :
    (runRecon s).sys = s.sys ∧ (runRecon s).pwr = s.pwr ∧ (runRecon s).hif = s.hif ∧ (runRecon s).rings = s.rings ∧ (runRecon s).conf = s.conf ∧ (runRecon s).ing = s.ing ∧ (runRecon s).pix = s.pix ∧ (runRecon s).lmp = s.lmp ∧ (runRecon s).dmk = s.dmk ∧ (runRecon s).od = s.od ∧ (runRecon s).tmg = s.tmg ∧ (runRecon s).pnl = s.pnl ∧ (runRecon s).twl = s.twl ∧ (runRecon s).cue = s.cue ∧ (runRecon s).mem = s.mem ∧ (runRecon s).lin = s.lin ∧ (runRecon s).cal = s.cal ∧ (runRecon s).sec = s.sec ∧ (runRecon s).flt = s.flt ∧ (runRecon s).thm = s.thm ∧ (runRecon s).trc = s.trc ∧ (runRecon s).bst = s.bst ∧ (runRecon s).out = s.out ∧ (runRecon s).free = s.free ∧ (runRecon s).pending = s.pending := by
  unfold runRecon
  (try dsimp only)
  (repeat' split) <;> (try simp)

@[simp] theorem finalRows_frame (rows : List Nat) (s : State) :
    (finalRows rows s).sys = s.sys ∧ (finalRows rows s).pwr = s.pwr ∧ (finalRows rows s).hif = s.hif ∧ (finalRows rows s).rings = s.rings ∧ (finalRows rows s).conf = s.conf ∧ (finalRows rows s).ing = s.ing ∧ (finalRows rows s).pix = s.pix ∧ (finalRows rows s).lmp = s.lmp ∧ (finalRows rows s).dmk = s.dmk ∧ (finalRows rows s).od = s.od ∧ (finalRows rows s).tmg = s.tmg ∧ (finalRows rows s).pnl = s.pnl ∧ (finalRows rows s).twl = s.twl ∧ (finalRows rows s).cue = s.cue ∧ (finalRows rows s).mem = s.mem ∧ (finalRows rows s).lin = s.lin ∧ (finalRows rows s).cal = s.cal ∧ (finalRows rows s).sec = s.sec ∧ (finalRows rows s).flt = s.flt ∧ (finalRows rows s).thm = s.thm ∧ (finalRows rows s).trc = s.trc ∧ (finalRows rows s).bst = s.bst ∧ (finalRows rows s).out = s.out ∧ (finalRows rows s).free = s.free ∧ (finalRows rows s).pending = s.pending := by
  unfold finalRows
  (try dsimp only)
  (repeat' split) <;> (try simp)

@[simp] theorem traceZone_frame (before : State) (a b : Nat) (s : State) :
    (traceZone before a b s).sys = s.sys ∧ (traceZone before a b s).pwr = s.pwr ∧ (traceZone before a b s).conf = s.conf ∧ (traceZone before a b s).ing = s.ing ∧ (traceZone before a b s).pix = s.pix ∧ (traceZone before a b s).gz = s.gz ∧ (traceZone before a b s).lmp = s.lmp ∧ (traceZone before a b s).dmk = s.dmk ∧ (traceZone before a b s).od = s.od ∧ (traceZone before a b s).tmg = s.tmg ∧ (traceZone before a b s).pnl = s.pnl ∧ (traceZone before a b s).twl = s.twl ∧ (traceZone before a b s).cue = s.cue ∧ (traceZone before a b s).mem = s.mem ∧ (traceZone before a b s).lin = s.lin ∧ (traceZone before a b s).cal = s.cal ∧ (traceZone before a b s).gng = s.gng ∧ (traceZone before a b s).sec = s.sec ∧ (traceZone before a b s).flt = s.flt ∧ (traceZone before a b s).thm = s.thm ∧ (traceZone before a b s).bst = s.bst ∧ (traceZone before a b s).pending = s.pending ∧ (traceZone before a b s).hif.power = s.hif.power ∧ (traceZone before a b s).hif.bme0 = s.hif.bme0 ∧ (traceZone before a b s).hif.bme1 = s.hif.bme1 ∧ (traceZone before a b s).hif.d3hot = s.hif.d3hot ∧ (traceZone before a b s).rings.sqs = s.rings.sqs ∧ (traceZone before a b s).rings.cqs = s.rings.cqs ∧ (traceZone before a b s).rings.eq0 = s.rings.eq0 ∧ (traceZone before a b s).rings.eq1 = s.rings.eq1 := by
  unfold traceZone
  (try simp)
  (repeat' split) <;> (try simp)

@[simp] theorem commitRun_frame (a b : Nat) (forced : Bool) (s : State) :
    (commitRun a b forced s).sys = s.sys ∧ (commitRun a b forced s).pwr = s.pwr ∧ (commitRun a b forced s).conf = s.conf ∧ (commitRun a b forced s).ing = s.ing ∧ (commitRun a b forced s).pix = s.pix ∧ (commitRun a b forced s).dmk = s.dmk ∧ (commitRun a b forced s).od = s.od ∧ (commitRun a b forced s).tmg = s.tmg ∧ (commitRun a b forced s).pnl = s.pnl ∧ (commitRun a b forced s).twl = s.twl ∧ (commitRun a b forced s).cue = s.cue ∧ (commitRun a b forced s).mem = s.mem ∧ (commitRun a b forced s).lin = s.lin ∧ (commitRun a b forced s).cal = s.cal ∧ (commitRun a b forced s).sec = s.sec ∧ (commitRun a b forced s).flt = s.flt ∧ (commitRun a b forced s).thm = s.thm ∧ (commitRun a b forced s).bst = s.bst ∧ (commitRun a b forced s).pending = s.pending ∧ (commitRun a b forced s).hif.power = s.hif.power ∧ (commitRun a b forced s).hif.bme0 = s.hif.bme0 ∧ (commitRun a b forced s).hif.bme1 = s.hif.bme1 ∧ (commitRun a b forced s).hif.d3hot = s.hif.d3hot ∧ (commitRun a b forced s).rings.sqs = s.rings.sqs ∧ (commitRun a b forced s).rings.cqs = s.rings.cqs ∧ (commitRun a b forced s).rings.eq0 = s.rings.eq0 ∧ (commitRun a b forced s).rings.eq1 = s.rings.eq1 := by
  unfold commitRun
  (try dsimp only)
  (repeat' split) <;> (try simp)

@[simp] theorem forceUpTo_frame (i n : Nat) (s : State) :
    (forceUpTo i n s).sys = s.sys ∧ (forceUpTo i n s).pwr = s.pwr ∧ (forceUpTo i n s).conf = s.conf ∧ (forceUpTo i n s).ing = s.ing ∧ (forceUpTo i n s).pix = s.pix ∧ (forceUpTo i n s).dmk = s.dmk ∧ (forceUpTo i n s).od = s.od ∧ (forceUpTo i n s).tmg = s.tmg ∧ (forceUpTo i n s).pnl = s.pnl ∧ (forceUpTo i n s).twl = s.twl ∧ (forceUpTo i n s).cue = s.cue ∧ (forceUpTo i n s).mem = s.mem ∧ (forceUpTo i n s).lin = s.lin ∧ (forceUpTo i n s).cal = s.cal ∧ (forceUpTo i n s).sec = s.sec ∧ (forceUpTo i n s).flt = s.flt ∧ (forceUpTo i n s).thm = s.thm ∧ (forceUpTo i n s).bst = s.bst ∧ (forceUpTo i n s).pending = s.pending ∧ (forceUpTo i n s).hif.power = s.hif.power ∧ (forceUpTo i n s).hif.bme0 = s.hif.bme0 ∧ (forceUpTo i n s).hif.bme1 = s.hif.bme1 ∧ (forceUpTo i n s).hif.d3hot = s.hif.d3hot ∧ (forceUpTo i n s).rings.sqs = s.rings.sqs ∧ (forceUpTo i n s).rings.cqs = s.rings.cqs ∧ (forceUpTo i n s).rings.eq0 = s.rings.eq0 ∧ (forceUpTo i n s).rings.eq1 = s.rings.eq1 := by
  induction n generalizing s with
  | zero => simp [forceUpTo]
  | succ n ih => unfold forceUpTo; dsimp only; (repeat' split) <;> simp [ih]

@[simp] theorem commitAllMax_frame (s : State) :
    (commitAllMax s).sys = s.sys ∧ (commitAllMax s).pwr = s.pwr ∧ (commitAllMax s).hif = s.hif ∧ (commitAllMax s).rings = s.rings ∧ (commitAllMax s).conf = s.conf ∧ (commitAllMax s).ing = s.ing ∧ (commitAllMax s).pix = s.pix ∧ (commitAllMax s).dmk = s.dmk ∧ (commitAllMax s).od = s.od ∧ (commitAllMax s).tmg = s.tmg ∧ (commitAllMax s).pnl = s.pnl ∧ (commitAllMax s).twl = s.twl ∧ (commitAllMax s).cue = s.cue ∧ (commitAllMax s).mem = s.mem ∧ (commitAllMax s).lin = s.lin ∧ (commitAllMax s).cal = s.cal ∧ (commitAllMax s).sec = s.sec ∧ (commitAllMax s).flt = s.flt ∧ (commitAllMax s).thm = s.thm ∧ (commitAllMax s).trc = s.trc ∧ (commitAllMax s).bst = s.bst ∧ (commitAllMax s).pending = s.pending := by
  unfold commitAllMax
  (try dsimp only)
  (repeat' split) <;> (try simp)

@[simp] theorem overrideZones_frame (sq : Nat) (r : Running) (data : Rd) (s : State) :
    (overrideZones sq r data s).sys = s.sys ∧ (overrideZones sq r data s).pwr = s.pwr ∧ (overrideZones sq r data s).conf = s.conf ∧ (overrideZones sq r data s).ing = s.ing ∧ (overrideZones sq r data s).pix = s.pix ∧ (overrideZones sq r data s).lmp = s.lmp ∧ (overrideZones sq r data s).dmk = s.dmk ∧ (overrideZones sq r data s).od = s.od ∧ (overrideZones sq r data s).tmg = s.tmg ∧ (overrideZones sq r data s).pnl = s.pnl ∧ (overrideZones sq r data s).twl = s.twl ∧ (overrideZones sq r data s).cue = s.cue ∧ (overrideZones sq r data s).mem = s.mem ∧ (overrideZones sq r data s).lin = s.lin ∧ (overrideZones sq r data s).cal = s.cal ∧ (overrideZones sq r data s).gng = s.gng ∧ (overrideZones sq r data s).sec = s.sec ∧ (overrideZones sq r data s).flt = s.flt ∧ (overrideZones sq r data s).thm = s.thm ∧ (overrideZones sq r data s).bst = s.bst ∧ (overrideZones sq r data s).pending = s.pending ∧ (overrideZones sq r data s).hif.power = s.hif.power ∧ (overrideZones sq r data s).hif.bme0 = s.hif.bme0 ∧ (overrideZones sq r data s).hif.bme1 = s.hif.bme1 ∧ (overrideZones sq r data s).hif.d3hot = s.hif.d3hot := by
  unfold overrideZones
  (try simp)
  (repeat' split) <;> (try simp)

@[simp] theorem zoneCopies_frame (s : State) :
    (zoneCopies s).sys = s.sys ∧ (zoneCopies s).pwr = s.pwr ∧ (zoneCopies s).conf = s.conf ∧ (zoneCopies s).ing = s.ing ∧ (zoneCopies s).pix = s.pix ∧ (zoneCopies s).lmp = s.lmp ∧ (zoneCopies s).dmk = s.dmk ∧ (zoneCopies s).od = s.od ∧ (zoneCopies s).tmg = s.tmg ∧ (zoneCopies s).pnl = s.pnl ∧ (zoneCopies s).twl = s.twl ∧ (zoneCopies s).cue = s.cue ∧ (zoneCopies s).mem = s.mem ∧ (zoneCopies s).lin = s.lin ∧ (zoneCopies s).cal = s.cal ∧ (zoneCopies s).gng = s.gng ∧ (zoneCopies s).sec = s.sec ∧ (zoneCopies s).flt = s.flt ∧ (zoneCopies s).thm = s.thm ∧ (zoneCopies s).bst = s.bst ∧ (zoneCopies s).pending = s.pending ∧ (zoneCopies s).hif.power = s.hif.power ∧ (zoneCopies s).hif.d3hot = s.hif.d3hot := by
  unfold zoneCopies
  (try dsimp only)
  (repeat' split) <;> (try simp (disch := (intros; (repeat' split) <;> (try simp))))

@[simp] theorem probeLine_frame (f : Frame) (y : Nat) (s : State) :
    (probeLine f y s).sys = s.sys ∧ (probeLine f y s).pwr = s.pwr ∧ (probeLine f y s).conf = s.conf ∧ (probeLine f y s).ing = s.ing ∧ (probeLine f y s).pix = s.pix ∧ (probeLine f y s).gz = s.gz ∧ (probeLine f y s).lmp = s.lmp ∧ (probeLine f y s).dmk = s.dmk ∧ (probeLine f y s).od = s.od ∧ (probeLine f y s).tmg = s.tmg ∧ (probeLine f y s).pnl = s.pnl ∧ (probeLine f y s).twl = s.twl ∧ (probeLine f y s).cue = s.cue ∧ (probeLine f y s).mem = s.mem ∧ (probeLine f y s).lin = s.lin ∧ (probeLine f y s).cal = s.cal ∧ (probeLine f y s).gng = s.gng ∧ (probeLine f y s).sec = s.sec ∧ (probeLine f y s).flt = s.flt ∧ (probeLine f y s).thm = s.thm ∧ (probeLine f y s).bst = s.bst ∧ (probeLine f y s).pending = s.pending ∧ (probeLine f y s).hif.power = s.hif.power ∧ (probeLine f y s).hif.d3hot = s.hif.d3hot ∧ (probeLine f y s).rings.sqs = s.rings.sqs ∧ (probeLine f y s).rings.cqs = s.rings.cqs ∧ (probeLine f y s).rings.eq0 = s.rings.eq0 ∧ (probeLine f y s).rings.eq1 = s.rings.eq1 := by
  unfold probeLine
  (try dsimp only)
  (repeat' split) <;> (try simp)

@[simp] theorem sendLite_frame (line stripe : Nat) (plainDone historyDone : Bool) (s : State) :
    (sendLite line stripe plainDone historyDone s).sys = s.sys ∧ (sendLite line stripe plainDone historyDone s).pwr = s.pwr ∧ (sendLite line stripe plainDone historyDone s).conf = s.conf ∧ (sendLite line stripe plainDone historyDone s).ing = s.ing ∧ (sendLite line stripe plainDone historyDone s).gz = s.gz ∧ (sendLite line stripe plainDone historyDone s).lmp = s.lmp ∧ (sendLite line stripe plainDone historyDone s).dmk = s.dmk ∧ (sendLite line stripe plainDone historyDone s).od = s.od ∧ (sendLite line stripe plainDone historyDone s).tmg = s.tmg ∧ (sendLite line stripe plainDone historyDone s).pnl = s.pnl ∧ (sendLite line stripe plainDone historyDone s).twl = s.twl ∧ (sendLite line stripe plainDone historyDone s).cue = s.cue ∧ (sendLite line stripe plainDone historyDone s).mem = s.mem ∧ (sendLite line stripe plainDone historyDone s).lin = s.lin ∧ (sendLite line stripe plainDone historyDone s).cal = s.cal ∧ (sendLite line stripe plainDone historyDone s).gng = s.gng ∧ (sendLite line stripe plainDone historyDone s).sec = s.sec ∧ (sendLite line stripe plainDone historyDone s).flt = s.flt ∧ (sendLite line stripe plainDone historyDone s).thm = s.thm ∧ (sendLite line stripe plainDone historyDone s).bst = s.bst ∧ (sendLite line stripe plainDone historyDone s).pending = s.pending ∧ (sendLite line stripe plainDone historyDone s).hif.power = s.hif.power ∧ (sendLite line stripe plainDone historyDone s).hif.bme0 = s.hif.bme0 ∧ (sendLite line stripe plainDone historyDone s).hif.bme1 = s.hif.bme1 ∧ (sendLite line stripe plainDone historyDone s).hif.d3hot = s.hif.d3hot ∧ (sendLite line stripe plainDone historyDone s).rings.sqs = s.rings.sqs ∧ (sendLite line stripe plainDone historyDone s).rings.cqs = s.rings.cqs ∧ (sendLite line stripe plainDone historyDone s).rings.eq0 = s.rings.eq0 ∧ (sendLite line stripe plainDone historyDone s).rings.eq1 = s.rings.eq1 := by
  unfold sendLite
  (try dsimp only)
  (repeat' split) <;> (try simp)

@[simp] theorem sendIdle_frame (y k : Nat) (s : State) :
    (sendIdle y k s).sys = s.sys ∧ (sendIdle y k s).pwr = s.pwr ∧ (sendIdle y k s).conf = s.conf ∧ (sendIdle y k s).ing = s.ing ∧ (sendIdle y k s).gz = s.gz ∧ (sendIdle y k s).lmp = s.lmp ∧ (sendIdle y k s).dmk = s.dmk ∧ (sendIdle y k s).od = s.od ∧ (sendIdle y k s).tmg = s.tmg ∧ (sendIdle y k s).pnl = s.pnl ∧ (sendIdle y k s).twl = s.twl ∧ (sendIdle y k s).cue = s.cue ∧ (sendIdle y k s).mem = s.mem ∧ (sendIdle y k s).lin = s.lin ∧ (sendIdle y k s).cal = s.cal ∧ (sendIdle y k s).gng = s.gng ∧ (sendIdle y k s).sec = s.sec ∧ (sendIdle y k s).flt = s.flt ∧ (sendIdle y k s).thm = s.thm ∧ (sendIdle y k s).bst = s.bst ∧ (sendIdle y k s).pending = s.pending ∧ (sendIdle y k s).hif.power = s.hif.power ∧ (sendIdle y k s).hif.bme0 = s.hif.bme0 ∧ (sendIdle y k s).hif.bme1 = s.hif.bme1 ∧ (sendIdle y k s).hif.d3hot = s.hif.d3hot ∧ (sendIdle y k s).rings.sqs = s.rings.sqs ∧ (sendIdle y k s).rings.cqs = s.rings.cqs ∧ (sendIdle y k s).rings.eq0 = s.rings.eq0 ∧ (sendIdle y k s).rings.eq1 = s.rings.eq1 := by
  unfold sendIdle
  (repeat' split) <;> (try simp)

@[simp] theorem runEngines_frame (f : Frame) (y : Nat) (s : State) :
    (runEngines f y s).sys = s.sys ∧ (runEngines f y s).pwr = s.pwr ∧ (runEngines f y s).conf = s.conf ∧ (runEngines f y s).ing = s.ing ∧ (runEngines f y s).lmp = s.lmp ∧ (runEngines f y s).dmk = s.dmk ∧ (runEngines f y s).od = s.od ∧ (runEngines f y s).tmg = s.tmg ∧ (runEngines f y s).pnl = s.pnl ∧ (runEngines f y s).twl = s.twl ∧ (runEngines f y s).cue = s.cue ∧ (runEngines f y s).mem = s.mem ∧ (runEngines f y s).lin = s.lin ∧ (runEngines f y s).cal = s.cal ∧ (runEngines f y s).gng = s.gng ∧ (runEngines f y s).sec = s.sec ∧ (runEngines f y s).flt = s.flt ∧ (runEngines f y s).thm = s.thm ∧ (runEngines f y s).bst = s.bst ∧ (runEngines f y s).pending = s.pending ∧ (runEngines f y s).hif.power = s.hif.power ∧ (runEngines f y s).hif.d3hot = s.hif.d3hot ∧ (runEngines f y s).rings.sqs = s.rings.sqs ∧ (runEngines f y s).rings.cqs = s.rings.cqs ∧ (runEngines f y s).rings.eq0 = s.rings.eq0 ∧ (runEngines f y s).rings.eq1 = s.rings.eq1 := by
  unfold runEngines
  (try dsimp only)
  (repeat' split) <;> (try simp)

@[simp] theorem setSram_frame (m : SMap Byte) (s : State) :
    (setSram m s).sys = s.sys ∧ (setSram m s).pwr = s.pwr ∧ (setSram m s).hif = s.hif ∧ (setSram m s).rings = s.rings ∧ (setSram m s).conf = s.conf ∧ (setSram m s).ing = s.ing ∧ (setSram m s).pix = s.pix ∧ (setSram m s).gz = s.gz ∧ (setSram m s).lmp = s.lmp ∧ (setSram m s).dmk = s.dmk ∧ (setSram m s).od = s.od ∧ (setSram m s).tmg = s.tmg ∧ (setSram m s).pnl = s.pnl ∧ (setSram m s).twl = s.twl ∧ (setSram m s).cue = s.cue ∧ (setSram m s).mem = s.mem ∧ (setSram m s).cal = s.cal ∧ (setSram m s).gng = s.gng ∧ (setSram m s).sec = s.sec ∧ (setSram m s).flt = s.flt ∧ (setSram m s).thm = s.thm ∧ (setSram m s).trc = s.trc ∧ (setSram m s).bst = s.bst ∧ (setSram m s).out = s.out ∧ (setSram m s).free = s.free ∧ (setSram m s).pending = s.pending := by
  unfold setSram
  (try dsimp only)
  (repeat' split) <;> (try simp)

@[simp] theorem writeDevice_frame (type : Nat) (payload : Bytes) (s : State) :
    (writeDevice type payload s).sys = s.sys ∧ (writeDevice type payload s).pwr = s.pwr ∧ (writeDevice type payload s).hif = s.hif ∧ (writeDevice type payload s).rings = s.rings ∧ (writeDevice type payload s).conf = s.conf ∧ (writeDevice type payload s).ing = s.ing ∧ (writeDevice type payload s).pix = s.pix ∧ (writeDevice type payload s).gz = s.gz ∧ (writeDevice type payload s).lmp = s.lmp ∧ (writeDevice type payload s).dmk = s.dmk ∧ (writeDevice type payload s).od = s.od ∧ (writeDevice type payload s).tmg = s.tmg ∧ (writeDevice type payload s).pnl = s.pnl ∧ (writeDevice type payload s).twl = s.twl ∧ (writeDevice type payload s).cue = s.cue ∧ (writeDevice type payload s).mem = s.mem ∧ (writeDevice type payload s).cal = s.cal ∧ (writeDevice type payload s).gng = s.gng ∧ (writeDevice type payload s).sec = s.sec ∧ (writeDevice type payload s).flt = s.flt ∧ (writeDevice type payload s).thm = s.thm ∧ (writeDevice type payload s).trc = s.trc ∧ (writeDevice type payload s).bst = s.bst ∧ (writeDevice type payload s).out = s.out ∧ (writeDevice type payload s).free = s.free ∧ (writeDevice type payload s).pending = s.pending := by
  unfold writeDevice
  (repeat' split) <;> (try simp)

@[simp] theorem logFaultAt_frame (fe seconds cls outcome inst : Nat) (d : List Nat) (s : State) :
    (logFaultAt fe seconds cls outcome inst d s).sys = s.sys ∧ (logFaultAt fe seconds cls outcome inst d s).pwr = s.pwr ∧ (logFaultAt fe seconds cls outcome inst d s).hif = s.hif ∧ (logFaultAt fe seconds cls outcome inst d s).rings = s.rings ∧ (logFaultAt fe seconds cls outcome inst d s).conf = s.conf ∧ (logFaultAt fe seconds cls outcome inst d s).ing = s.ing ∧ (logFaultAt fe seconds cls outcome inst d s).pix = s.pix ∧ (logFaultAt fe seconds cls outcome inst d s).gz = s.gz ∧ (logFaultAt fe seconds cls outcome inst d s).lmp = s.lmp ∧ (logFaultAt fe seconds cls outcome inst d s).dmk = s.dmk ∧ (logFaultAt fe seconds cls outcome inst d s).od = s.od ∧ (logFaultAt fe seconds cls outcome inst d s).tmg = s.tmg ∧ (logFaultAt fe seconds cls outcome inst d s).pnl = s.pnl ∧ (logFaultAt fe seconds cls outcome inst d s).twl = s.twl ∧ (logFaultAt fe seconds cls outcome inst d s).cue = s.cue ∧ (logFaultAt fe seconds cls outcome inst d s).mem = s.mem ∧ (logFaultAt fe seconds cls outcome inst d s).cal = s.cal ∧ (logFaultAt fe seconds cls outcome inst d s).gng = s.gng ∧ (logFaultAt fe seconds cls outcome inst d s).sec = s.sec ∧ (logFaultAt fe seconds cls outcome inst d s).flt = s.flt ∧ (logFaultAt fe seconds cls outcome inst d s).thm = s.thm ∧ (logFaultAt fe seconds cls outcome inst d s).trc = s.trc ∧ (logFaultAt fe seconds cls outcome inst d s).bst = s.bst ∧ (logFaultAt fe seconds cls outcome inst d s).out = s.out ∧ (logFaultAt fe seconds cls outcome inst d s).free = s.free ∧ (logFaultAt fe seconds cls outcome inst d s).pending = s.pending := by
  unfold logFaultAt
  (try dsimp only)
  (repeat' split) <;> (try simp)

@[simp] theorem logFault_frame (cls outcome inst : Nat) (d : List Nat) (s : State) :
    (logFault cls outcome inst d s).sys = s.sys ∧ (logFault cls outcome inst d s).pwr = s.pwr ∧ (logFault cls outcome inst d s).hif = s.hif ∧ (logFault cls outcome inst d s).rings = s.rings ∧ (logFault cls outcome inst d s).conf = s.conf ∧ (logFault cls outcome inst d s).ing = s.ing ∧ (logFault cls outcome inst d s).pix = s.pix ∧ (logFault cls outcome inst d s).gz = s.gz ∧ (logFault cls outcome inst d s).lmp = s.lmp ∧ (logFault cls outcome inst d s).dmk = s.dmk ∧ (logFault cls outcome inst d s).od = s.od ∧ (logFault cls outcome inst d s).tmg = s.tmg ∧ (logFault cls outcome inst d s).pnl = s.pnl ∧ (logFault cls outcome inst d s).twl = s.twl ∧ (logFault cls outcome inst d s).cue = s.cue ∧ (logFault cls outcome inst d s).mem = s.mem ∧ (logFault cls outcome inst d s).cal = s.cal ∧ (logFault cls outcome inst d s).gng = s.gng ∧ (logFault cls outcome inst d s).sec = s.sec ∧ (logFault cls outcome inst d s).flt = s.flt ∧ (logFault cls outcome inst d s).thm = s.thm ∧ (logFault cls outcome inst d s).trc = s.trc ∧ (logFault cls outcome inst d s).bst = s.bst ∧ (logFault cls outcome inst d s).out = s.out ∧ (logFault cls outcome inst d s).free = s.free ∧ (logFault cls outcome inst d s).pending = s.pending := by
  unfold logFault
  (repeat' split) <;> (try simp)

@[simp] theorem denyHost_frame (s : State) :
    (denyHost s).sys = s.sys ∧ (denyHost s).pwr = s.pwr ∧ (denyHost s).conf = s.conf ∧ (denyHost s).ing = s.ing ∧ (denyHost s).pix = s.pix ∧ (denyHost s).gz = s.gz ∧ (denyHost s).lmp = s.lmp ∧ (denyHost s).dmk = s.dmk ∧ (denyHost s).od = s.od ∧ (denyHost s).tmg = s.tmg ∧ (denyHost s).pnl = s.pnl ∧ (denyHost s).twl = s.twl ∧ (denyHost s).cue = s.cue ∧ (denyHost s).mem = s.mem ∧ (denyHost s).cal = s.cal ∧ (denyHost s).gng = s.gng ∧ (denyHost s).sec = s.sec ∧ (denyHost s).flt = s.flt ∧ (denyHost s).thm = s.thm ∧ (denyHost s).bst = s.bst ∧ (denyHost s).pending = s.pending ∧ (denyHost s).hif.power = s.hif.power ∧ (denyHost s).hif.bme0 = s.hif.bme0 ∧ (denyHost s).hif.bme1 = s.hif.bme1 ∧ (denyHost s).hif.d3hot = s.hif.d3hot ∧ (denyHost s).rings.sqs = s.rings.sqs ∧ (denyHost s).rings.cqs = s.rings.cqs ∧ (denyHost s).rings.eq0 = s.rings.eq0 ∧ (denyHost s).rings.eq1 = s.rings.eq1 ∧ (denyHost s).lin.sram = s.lin.sram := by
  unfold denyHost
  (try dsimp only)
  (repeat' split) <;> (try simp)

@[simp] theorem landBytes_frame (o : Nat) (d : Bytes) (s : State) :
    (landBytes o d s).sys = s.sys ∧ (landBytes o d s).pwr = s.pwr ∧ (landBytes o d s).hif = s.hif ∧ (landBytes o d s).rings = s.rings ∧ (landBytes o d s).conf = s.conf ∧ (landBytes o d s).ing = s.ing ∧ (landBytes o d s).pix = s.pix ∧ (landBytes o d s).gz = s.gz ∧ (landBytes o d s).lmp = s.lmp ∧ (landBytes o d s).dmk = s.dmk ∧ (landBytes o d s).od = s.od ∧ (landBytes o d s).tmg = s.tmg ∧ (landBytes o d s).pnl = s.pnl ∧ (landBytes o d s).twl = s.twl ∧ (landBytes o d s).cue = s.cue ∧ (landBytes o d s).mem = s.mem ∧ (landBytes o d s).cal = s.cal ∧ (landBytes o d s).gng = s.gng ∧ (landBytes o d s).sec = s.sec ∧ (landBytes o d s).flt = s.flt ∧ (landBytes o d s).thm = s.thm ∧ (landBytes o d s).trc = s.trc ∧ (landBytes o d s).bst = s.bst ∧ (landBytes o d s).out = s.out ∧ (landBytes o d s).free = s.free ∧ (landBytes o d s).pending = s.pending := by
  unfold landBytes
  (repeat' split) <;> (try simp)

@[simp] theorem denyLinen_frame (u : LinenUser) (s : State) :
    (denyLinen u s).sys = s.sys ∧ (denyLinen u s).pwr = s.pwr ∧ (denyLinen u s).conf = s.conf ∧ (denyLinen u s).ing = s.ing ∧ (denyLinen u s).pix = s.pix ∧ (denyLinen u s).gz = s.gz ∧ (denyLinen u s).lmp = s.lmp ∧ (denyLinen u s).dmk = s.dmk ∧ (denyLinen u s).od = s.od ∧ (denyLinen u s).tmg = s.tmg ∧ (denyLinen u s).pnl = s.pnl ∧ (denyLinen u s).twl = s.twl ∧ (denyLinen u s).cue = s.cue ∧ (denyLinen u s).mem = s.mem ∧ (denyLinen u s).cal = s.cal ∧ (denyLinen u s).gng = s.gng ∧ (denyLinen u s).sec = s.sec ∧ (denyLinen u s).flt = s.flt ∧ (denyLinen u s).thm = s.thm ∧ (denyLinen u s).bst = s.bst ∧ (denyLinen u s).pending = s.pending ∧ (denyLinen u s).hif.power = s.hif.power ∧ (denyLinen u s).hif.bme0 = s.hif.bme0 ∧ (denyLinen u s).hif.bme1 = s.hif.bme1 ∧ (denyLinen u s).hif.d3hot = s.hif.d3hot ∧ (denyLinen u s).rings.sqs = s.rings.sqs ∧ (denyLinen u s).rings.cqs = s.rings.cqs ∧ (denyLinen u s).rings.eq0 = s.rings.eq0 ∧ (denyLinen u s).rings.eq1 = s.rings.eq1 ∧ (denyLinen u s).lin.sram = s.lin.sram := by
  unfold denyLinen
  (try simp)
  (repeat' split) <;> (try simp)

@[simp] theorem writeLinen_frame (u : LinenUser) (o : Nat) (d : Bytes) (s : State) :
    (writeLinen u o d s).sys = s.sys ∧ (writeLinen u o d s).pwr = s.pwr ∧ (writeLinen u o d s).conf = s.conf ∧ (writeLinen u o d s).ing = s.ing ∧ (writeLinen u o d s).pix = s.pix ∧ (writeLinen u o d s).gz = s.gz ∧ (writeLinen u o d s).lmp = s.lmp ∧ (writeLinen u o d s).dmk = s.dmk ∧ (writeLinen u o d s).od = s.od ∧ (writeLinen u o d s).tmg = s.tmg ∧ (writeLinen u o d s).pnl = s.pnl ∧ (writeLinen u o d s).twl = s.twl ∧ (writeLinen u o d s).cue = s.cue ∧ (writeLinen u o d s).mem = s.mem ∧ (writeLinen u o d s).cal = s.cal ∧ (writeLinen u o d s).gng = s.gng ∧ (writeLinen u o d s).sec = s.sec ∧ (writeLinen u o d s).flt = s.flt ∧ (writeLinen u o d s).thm = s.thm ∧ (writeLinen u o d s).bst = s.bst ∧ (writeLinen u o d s).pending = s.pending ∧ (writeLinen u o d s).hif.power = s.hif.power ∧ (writeLinen u o d s).hif.bme0 = s.hif.bme0 ∧ (writeLinen u o d s).hif.bme1 = s.hif.bme1 ∧ (writeLinen u o d s).hif.d3hot = s.hif.d3hot ∧ (writeLinen u o d s).rings.sqs = s.rings.sqs ∧ (writeLinen u o d s).rings.cqs = s.rings.cqs ∧ (writeLinen u o d s).rings.eq0 = s.rings.eq0 ∧ (writeLinen u o d s).rings.eq1 = s.rings.eq1 := by
  unfold writeLinen
  (try simp)
  (repeat' split) <;> (try simp)

@[simp] theorem linenWrite_frame (sq : Nat) (r : Running) (data : Rd) (s : State) :
    (linenWrite sq r data s).sys = s.sys ∧ (linenWrite sq r data s).pwr = s.pwr ∧ (linenWrite sq r data s).conf = s.conf ∧ (linenWrite sq r data s).ing = s.ing ∧ (linenWrite sq r data s).pix = s.pix ∧ (linenWrite sq r data s).gz = s.gz ∧ (linenWrite sq r data s).lmp = s.lmp ∧ (linenWrite sq r data s).dmk = s.dmk ∧ (linenWrite sq r data s).od = s.od ∧ (linenWrite sq r data s).tmg = s.tmg ∧ (linenWrite sq r data s).pnl = s.pnl ∧ (linenWrite sq r data s).twl = s.twl ∧ (linenWrite sq r data s).cue = s.cue ∧ (linenWrite sq r data s).mem = s.mem ∧ (linenWrite sq r data s).cal = s.cal ∧ (linenWrite sq r data s).gng = s.gng ∧ (linenWrite sq r data s).sec = s.sec ∧ (linenWrite sq r data s).flt = s.flt ∧ (linenWrite sq r data s).thm = s.thm ∧ (linenWrite sq r data s).bst = s.bst ∧ (linenWrite sq r data s).pending = s.pending ∧ (linenWrite sq r data s).hif.power = s.hif.power ∧ (linenWrite sq r data s).hif.bme0 = s.hif.bme0 ∧ (linenWrite sq r data s).hif.bme1 = s.hif.bme1 ∧ (linenWrite sq r data s).hif.d3hot = s.hif.d3hot := by
  unfold linenWrite
  (try simp)
  (repeat' split) <;> (try simp)

@[simp] theorem fallWrite_frame (sq : Nat) (data : Rd) (s : State) :
    (fallWrite sq data s).sys = s.sys ∧ (fallWrite sq data s).pwr = s.pwr ∧ (fallWrite sq data s).hif = s.hif ∧ (fallWrite sq data s).rings = s.rings ∧ (fallWrite sq data s).conf = s.conf ∧ (fallWrite sq data s).ing = s.ing ∧ (fallWrite sq data s).pix = s.pix ∧ (fallWrite sq data s).gz = s.gz ∧ (fallWrite sq data s).lmp = s.lmp ∧ (fallWrite sq data s).dmk = s.dmk ∧ (fallWrite sq data s).od = s.od ∧ (fallWrite sq data s).tmg = s.tmg ∧ (fallWrite sq data s).pnl = s.pnl ∧ (fallWrite sq data s).twl = s.twl ∧ (fallWrite sq data s).cue = s.cue ∧ (fallWrite sq data s).mem = s.mem ∧ (fallWrite sq data s).cal = s.cal ∧ (fallWrite sq data s).gng = s.gng ∧ (fallWrite sq data s).sec = s.sec ∧ (fallWrite sq data s).flt = s.flt ∧ (fallWrite sq data s).thm = s.thm ∧ (fallWrite sq data s).trc = s.trc ∧ (fallWrite sq data s).bst = s.bst ∧ (fallWrite sq data s).out = s.out ∧ (fallWrite sq data s).free = s.free ∧ (fallWrite sq data s).pending = s.pending := by
  unfold fallWrite
  (try simp)
  (repeat' split) <;> (try simp)

@[simp] theorem closeBracket_frame (sq : Nat) (r : Running) (apply_ : Bool) (s : State) :
    (closeBracket sq r apply_ s).sys = s.sys ∧ (closeBracket sq r apply_ s).pwr = s.pwr ∧ (closeBracket sq r apply_ s).conf = s.conf ∧ (closeBracket sq r apply_ s).ing = s.ing ∧ (closeBracket sq r apply_ s).pix = s.pix ∧ (closeBracket sq r apply_ s).gz = s.gz ∧ (closeBracket sq r apply_ s).lmp = s.lmp ∧ (closeBracket sq r apply_ s).dmk = s.dmk ∧ (closeBracket sq r apply_ s).od = s.od ∧ (closeBracket sq r apply_ s).tmg = s.tmg ∧ (closeBracket sq r apply_ s).pnl = s.pnl ∧ (closeBracket sq r apply_ s).twl = s.twl ∧ (closeBracket sq r apply_ s).cue = s.cue ∧ (closeBracket sq r apply_ s).mem = s.mem ∧ (closeBracket sq r apply_ s).cal = s.cal ∧ (closeBracket sq r apply_ s).gng = s.gng ∧ (closeBracket sq r apply_ s).sec = s.sec ∧ (closeBracket sq r apply_ s).flt = s.flt ∧ (closeBracket sq r apply_ s).thm = s.thm ∧ (closeBracket sq r apply_ s).bst = s.bst ∧ (closeBracket sq r apply_ s).pending = s.pending ∧ (closeBracket sq r apply_ s).hif.power = s.hif.power ∧ (closeBracket sq r apply_ s).hif.bme0 = s.hif.bme0 ∧ (closeBracket sq r apply_ s).hif.bme1 = s.hif.bme1 ∧ (closeBracket sq r apply_ s).hif.d3hot = s.hif.d3hot := by
  unfold closeBracket
  (try simp)
  (repeat' split) <;> (try simp)

@[simp] theorem dropBrackets_frame (s : State) :
    (dropBrackets s).sys = s.sys ∧ (dropBrackets s).pwr = s.pwr ∧ (dropBrackets s).hif = s.hif ∧ (dropBrackets s).rings = s.rings ∧ (dropBrackets s).conf = s.conf ∧ (dropBrackets s).ing = s.ing ∧ (dropBrackets s).pix = s.pix ∧ (dropBrackets s).gz = s.gz ∧ (dropBrackets s).lmp = s.lmp ∧ (dropBrackets s).dmk = s.dmk ∧ (dropBrackets s).od = s.od ∧ (dropBrackets s).tmg = s.tmg ∧ (dropBrackets s).pnl = s.pnl ∧ (dropBrackets s).twl = s.twl ∧ (dropBrackets s).cue = s.cue ∧ (dropBrackets s).mem = s.mem ∧ (dropBrackets s).cal = s.cal ∧ (dropBrackets s).gng = s.gng ∧ (dropBrackets s).sec = s.sec ∧ (dropBrackets s).flt = s.flt ∧ (dropBrackets s).thm = s.thm ∧ (dropBrackets s).trc = s.trc ∧ (dropBrackets s).bst = s.bst ∧ (dropBrackets s).out = s.out ∧ (dropBrackets s).free = s.free ∧ (dropBrackets s).pending = s.pending ∧ (dropBrackets s).lin.sram = s.lin.sram := by
  unfold dropBrackets
  (try dsimp only)
  (repeat' split) <;> (try simp)

@[simp] theorem portB_frame (s : State) :
    (portB s).sys = s.sys ∧ (portB s).pwr = s.pwr ∧ (portB s).hif = s.hif ∧ (portB s).rings = s.rings ∧ (portB s).conf = s.conf ∧ (portB s).ing = s.ing ∧ (portB s).pix = s.pix ∧ (portB s).lmp = s.lmp ∧ (portB s).dmk = s.dmk ∧ (portB s).od = s.od ∧ (portB s).tmg = s.tmg ∧ (portB s).pnl = s.pnl ∧ (portB s).twl = s.twl ∧ (portB s).cue = s.cue ∧ (portB s).mem = s.mem ∧ (portB s).lin = s.lin ∧ (portB s).cal = s.cal ∧ (portB s).gng = s.gng ∧ (portB s).sec = s.sec ∧ (portB s).flt = s.flt ∧ (portB s).thm = s.thm ∧ (portB s).trc = s.trc ∧ (portB s).bst = s.bst ∧ (portB s).out = s.out ∧ (portB s).pending = s.pending := by
  unfold portB
  (try dsimp only)
  (repeat' split) <;> (try simp)

@[simp] theorem foldZones_frame (s : State) :
    (foldZones s).sys = s.sys ∧ (foldZones s).pwr = s.pwr ∧ (foldZones s).hif = s.hif ∧ (foldZones s).rings = s.rings ∧ (foldZones s).conf = s.conf ∧ (foldZones s).ing = s.ing ∧ (foldZones s).pix = s.pix ∧ (foldZones s).lmp = s.lmp ∧ (foldZones s).dmk = s.dmk ∧ (foldZones s).od = s.od ∧ (foldZones s).tmg = s.tmg ∧ (foldZones s).pnl = s.pnl ∧ (foldZones s).twl = s.twl ∧ (foldZones s).cue = s.cue ∧ (foldZones s).mem = s.mem ∧ (foldZones s).cal = s.cal ∧ (foldZones s).gng = s.gng ∧ (foldZones s).sec = s.sec ∧ (foldZones s).flt = s.flt ∧ (foldZones s).thm = s.thm ∧ (foldZones s).trc = s.trc ∧ (foldZones s).bst = s.bst ∧ (foldZones s).out = s.out ∧ (foldZones s).pending = s.pending := by
  unfold foldZones
  (try dsimp only)
  (repeat' split) <;> (try simp)

@[simp] theorem putOperating_frame (s : State) :
    (putOperating s).sys = s.sys ∧ (putOperating s).pwr = s.pwr ∧ (putOperating s).hif = s.hif ∧ (putOperating s).rings = s.rings ∧ (putOperating s).conf = s.conf ∧ (putOperating s).ing = s.ing ∧ (putOperating s).pix = s.pix ∧ (putOperating s).gz = s.gz ∧ (putOperating s).lmp = s.lmp ∧ (putOperating s).dmk = s.dmk ∧ (putOperating s).od = s.od ∧ (putOperating s).tmg = s.tmg ∧ (putOperating s).pnl = s.pnl ∧ (putOperating s).twl = s.twl ∧ (putOperating s).cue = s.cue ∧ (putOperating s).mem = s.mem ∧ (putOperating s).cal = s.cal ∧ (putOperating s).gng = s.gng ∧ (putOperating s).sec = s.sec ∧ (putOperating s).flt = s.flt ∧ (putOperating s).thm = s.thm ∧ (putOperating s).trc = s.trc ∧ (putOperating s).bst = s.bst ∧ (putOperating s).out = s.out ∧ (putOperating s).free = s.free ∧ (putOperating s).pending = s.pending := by
  unfold putOperating
  (repeat' split) <;> (try simp)

@[simp] theorem protectBlocks_frame (n : Nat) (s : State) :
    (protectBlocks n s).sys = s.sys ∧ (protectBlocks n s).pwr = s.pwr ∧ (protectBlocks n s).hif = s.hif ∧ (protectBlocks n s).rings = s.rings ∧ (protectBlocks n s).conf = s.conf ∧ (protectBlocks n s).ing = s.ing ∧ (protectBlocks n s).pix = s.pix ∧ (protectBlocks n s).gz = s.gz ∧ (protectBlocks n s).lmp = s.lmp ∧ (protectBlocks n s).dmk = s.dmk ∧ (protectBlocks n s).od = s.od ∧ (protectBlocks n s).tmg = s.tmg ∧ (protectBlocks n s).pnl = s.pnl ∧ (protectBlocks n s).twl = s.twl ∧ (protectBlocks n s).cue = s.cue ∧ (protectBlocks n s).mem = s.mem ∧ (protectBlocks n s).cal = s.cal ∧ (protectBlocks n s).gng = s.gng ∧ (protectBlocks n s).sec = s.sec ∧ (protectBlocks n s).flt = s.flt ∧ (protectBlocks n s).thm = s.thm ∧ (protectBlocks n s).trc = s.trc ∧ (protectBlocks n s).bst = s.bst ∧ (protectBlocks n s).out = s.out ∧ (protectBlocks n s).free = s.free ∧ (protectBlocks n s).pending = s.pending := by
  unfold protectBlocks
  (try dsimp only)
  (repeat' split) <;> (try simp)

@[simp] theorem linenAccess_frame (a : LinenAccess) (s : State) :
    (linenAccess a s).sys = s.sys ∧ (linenAccess a s).pwr = s.pwr ∧ (linenAccess a s).conf = s.conf ∧ (linenAccess a s).ing = s.ing ∧ (linenAccess a s).pix = s.pix ∧ (linenAccess a s).gz = s.gz ∧ (linenAccess a s).lmp = s.lmp ∧ (linenAccess a s).dmk = s.dmk ∧ (linenAccess a s).od = s.od ∧ (linenAccess a s).tmg = s.tmg ∧ (linenAccess a s).pnl = s.pnl ∧ (linenAccess a s).twl = s.twl ∧ (linenAccess a s).cue = s.cue ∧ (linenAccess a s).mem = s.mem ∧ (linenAccess a s).cal = s.cal ∧ (linenAccess a s).gng = s.gng ∧ (linenAccess a s).sec = s.sec ∧ (linenAccess a s).flt = s.flt ∧ (linenAccess a s).thm = s.thm ∧ (linenAccess a s).bst = s.bst ∧ (linenAccess a s).pending = s.pending ∧ (linenAccess a s).hif.power = s.hif.power ∧ (linenAccess a s).hif.bme0 = s.hif.bme0 ∧ (linenAccess a s).hif.bme1 = s.hif.bme1 ∧ (linenAccess a s).hif.d3hot = s.hif.d3hot ∧ (linenAccess a s).rings.sqs = s.rings.sqs ∧ (linenAccess a s).rings.cqs = s.rings.cqs ∧ (linenAccess a s).rings.eq0 = s.rings.eq0 ∧ (linenAccess a s).rings.eq1 = s.rings.eq1 := by
  unfold linenAccess
  (try simp)
  (repeat' split) <;> (try simp)

@[simp] theorem flushBox_frame (s : State) :
    (flushBox s).sys = s.sys ∧ (flushBox s).pwr = s.pwr ∧ (flushBox s).hif = s.hif ∧ (flushBox s).rings = s.rings ∧ (flushBox s).conf = s.conf ∧ (flushBox s).ing = s.ing ∧ (flushBox s).pix = s.pix ∧ (flushBox s).gz = s.gz ∧ (flushBox s).lmp = s.lmp ∧ (flushBox s).dmk = s.dmk ∧ (flushBox s).od = s.od ∧ (flushBox s).tmg = s.tmg ∧ (flushBox s).pnl = s.pnl ∧ (flushBox s).twl = s.twl ∧ (flushBox s).cue = s.cue ∧ (flushBox s).mem = s.mem ∧ (flushBox s).cal = s.cal ∧ (flushBox s).gng = s.gng ∧ (flushBox s).sec = s.sec ∧ (flushBox s).flt = s.flt ∧ (flushBox s).thm = s.thm ∧ (flushBox s).trc = s.trc ∧ (flushBox s).bst = s.bst ∧ (flushBox s).out = s.out ∧ (flushBox s).free = s.free ∧ (flushBox s).pending = s.pending := by
  unfold flushBox
  (try dsimp only)
  (repeat' split) <;> (try simp)

@[simp] theorem countWear_frame (bank : Nat) (s : State) :
    (countWear bank s).sys = s.sys ∧ (countWear bank s).pwr = s.pwr ∧ (countWear bank s).conf = s.conf ∧ (countWear bank s).ing = s.ing ∧ (countWear bank s).pix = s.pix ∧ (countWear bank s).gz = s.gz ∧ (countWear bank s).lmp = s.lmp ∧ (countWear bank s).dmk = s.dmk ∧ (countWear bank s).od = s.od ∧ (countWear bank s).tmg = s.tmg ∧ (countWear bank s).pnl = s.pnl ∧ (countWear bank s).twl = s.twl ∧ (countWear bank s).cue = s.cue ∧ (countWear bank s).mem = s.mem ∧ (countWear bank s).cal = s.cal ∧ (countWear bank s).gng = s.gng ∧ (countWear bank s).sec = s.sec ∧ (countWear bank s).flt = s.flt ∧ (countWear bank s).thm = s.thm ∧ (countWear bank s).trc = s.trc ∧ (countWear bank s).bst = s.bst ∧ (countWear bank s).free = s.free ∧ (countWear bank s).pending = s.pending ∧ (countWear bank s).hif.power = s.hif.power ∧ (countWear bank s).hif.bme0 = s.hif.bme0 ∧ (countWear bank s).hif.bme1 = s.hif.bme1 ∧ (countWear bank s).hif.d3hot = s.hif.d3hot ∧ (countWear bank s).rings.sqs = s.rings.sqs ∧ (countWear bank s).lin.sram = s.lin.sram := by
  unfold countWear
  (try simp)
  (repeat' split) <;> (try simp)

@[simp] theorem beginStore_frame (serves : List Nat) (s : State) :
    (beginStore serves s).sys = s.sys ∧ (beginStore serves s).pwr = s.pwr ∧ (beginStore serves s).conf = s.conf ∧ (beginStore serves s).ing = s.ing ∧ (beginStore serves s).pix = s.pix ∧ (beginStore serves s).lmp = s.lmp ∧ (beginStore serves s).dmk = s.dmk ∧ (beginStore serves s).od = s.od ∧ (beginStore serves s).tmg = s.tmg ∧ (beginStore serves s).pnl = s.pnl ∧ (beginStore serves s).twl = s.twl ∧ (beginStore serves s).cue = s.cue ∧ (beginStore serves s).mem = s.mem ∧ (beginStore serves s).cal = s.cal ∧ (beginStore serves s).gng = s.gng ∧ (beginStore serves s).sec = s.sec ∧ (beginStore serves s).flt = s.flt ∧ (beginStore serves s).thm = s.thm ∧ (beginStore serves s).bst = s.bst ∧ (beginStore serves s).pending = s.pending ∧ (beginStore serves s).hif.power = s.hif.power ∧ (beginStore serves s).hif.bme0 = s.hif.bme0 ∧ (beginStore serves s).hif.bme1 = s.hif.bme1 ∧ (beginStore serves s).hif.d3hot = s.hif.d3hot ∧ (beginStore serves s).rings.sqs = s.rings.sqs := by
  unfold beginStore
  (try dsimp only)
  (repeat' split) <;> (try simp)

@[simp] theorem requestStore_frame (ring : Nat) (s : State) :
    (requestStore ring s).sys = s.sys ∧ (requestStore ring s).pwr = s.pwr ∧ (requestStore ring s).conf = s.conf ∧ (requestStore ring s).ing = s.ing ∧ (requestStore ring s).pix = s.pix ∧ (requestStore ring s).lmp = s.lmp ∧ (requestStore ring s).dmk = s.dmk ∧ (requestStore ring s).od = s.od ∧ (requestStore ring s).tmg = s.tmg ∧ (requestStore ring s).pnl = s.pnl ∧ (requestStore ring s).twl = s.twl ∧ (requestStore ring s).cue = s.cue ∧ (requestStore ring s).mem = s.mem ∧ (requestStore ring s).cal = s.cal ∧ (requestStore ring s).gng = s.gng ∧ (requestStore ring s).sec = s.sec ∧ (requestStore ring s).flt = s.flt ∧ (requestStore ring s).thm = s.thm ∧ (requestStore ring s).bst = s.bst ∧ (requestStore ring s).pending = s.pending ∧ (requestStore ring s).hif.power = s.hif.power ∧ (requestStore ring s).hif.bme0 = s.hif.bme0 ∧ (requestStore ring s).hif.bme1 = s.hif.bme1 ∧ (requestStore ring s).hif.d3hot = s.hif.d3hot ∧ (requestStore ring s).rings.sqs = s.rings.sqs := by
  unfold requestStore
  (try simp)
  (repeat' split) <;> (try simp)

@[simp] theorem nextStore_frame (s : State) :
    (nextStore s).sys = s.sys ∧ (nextStore s).pwr = s.pwr ∧ (nextStore s).conf = s.conf ∧ (nextStore s).ing = s.ing ∧ (nextStore s).pix = s.pix ∧ (nextStore s).lmp = s.lmp ∧ (nextStore s).dmk = s.dmk ∧ (nextStore s).od = s.od ∧ (nextStore s).tmg = s.tmg ∧ (nextStore s).pnl = s.pnl ∧ (nextStore s).twl = s.twl ∧ (nextStore s).cue = s.cue ∧ (nextStore s).mem = s.mem ∧ (nextStore s).cal = s.cal ∧ (nextStore s).gng = s.gng ∧ (nextStore s).sec = s.sec ∧ (nextStore s).flt = s.flt ∧ (nextStore s).thm = s.thm ∧ (nextStore s).bst = s.bst ∧ (nextStore s).pending = s.pending ∧ (nextStore s).hif.power = s.hif.power ∧ (nextStore s).hif.bme0 = s.hif.bme0 ∧ (nextStore s).hif.bme1 = s.hif.bme1 ∧ (nextStore s).hif.d3hot = s.hif.d3hot ∧ (nextStore s).rings.sqs = s.rings.sqs := by
  unfold nextStore
  (try simp)
  (repeat' split) <;> (try simp)

@[simp] theorem endServed_frame (l : List Nat) (status : Nat) (res : List Nat) (s : State) :
    (endServed l status res s).sys = s.sys ∧ (endServed l status res s).pwr = s.pwr ∧ (endServed l status res s).conf = s.conf ∧ (endServed l status res s).ing = s.ing ∧ (endServed l status res s).pix = s.pix ∧ (endServed l status res s).gz = s.gz ∧ (endServed l status res s).lmp = s.lmp ∧ (endServed l status res s).dmk = s.dmk ∧ (endServed l status res s).od = s.od ∧ (endServed l status res s).tmg = s.tmg ∧ (endServed l status res s).pnl = s.pnl ∧ (endServed l status res s).twl = s.twl ∧ (endServed l status res s).cue = s.cue ∧ (endServed l status res s).mem = s.mem ∧ (endServed l status res s).lin = s.lin ∧ (endServed l status res s).cal = s.cal ∧ (endServed l status res s).gng = s.gng ∧ (endServed l status res s).sec = s.sec ∧ (endServed l status res s).flt = s.flt ∧ (endServed l status res s).thm = s.thm ∧ (endServed l status res s).bst = s.bst ∧ (endServed l status res s).pending = s.pending ∧ (endServed l status res s).hif.power = s.hif.power ∧ (endServed l status res s).hif.d3hot = s.hif.d3hot := by
  unfold endServed
  (repeat' split) <;> (try simp)

@[simp] theorem commitStore_frame (us : Nat) (failedPage : Option Nat) (s : State) :
    (commitStore us failedPage s).sys = s.sys ∧ (commitStore us failedPage s).pwr = s.pwr ∧ (commitStore us failedPage s).conf = s.conf ∧ (commitStore us failedPage s).ing = s.ing ∧ (commitStore us failedPage s).pix = s.pix ∧ (commitStore us failedPage s).lmp = s.lmp ∧ (commitStore us failedPage s).dmk = s.dmk ∧ (commitStore us failedPage s).od = s.od ∧ (commitStore us failedPage s).tmg = s.tmg ∧ (commitStore us failedPage s).pnl = s.pnl ∧ (commitStore us failedPage s).twl = s.twl ∧ (commitStore us failedPage s).cue = s.cue ∧ (commitStore us failedPage s).mem = s.mem ∧ (commitStore us failedPage s).cal = s.cal ∧ (commitStore us failedPage s).gng = s.gng ∧ (commitStore us failedPage s).sec = s.sec ∧ (commitStore us failedPage s).flt = s.flt ∧ (commitStore us failedPage s).thm = s.thm ∧ (commitStore us failedPage s).bst = s.bst ∧ (commitStore us failedPage s).pending = s.pending ∧ (commitStore us failedPage s).hif.power = s.hif.power ∧ (commitStore us failedPage s).hif.d3hot = s.hif.d3hot := by
  unfold commitStore
  (try simp)
  (repeat' split) <;> (try simp)

@[simp] theorem recallLinen_frame (s : State) :
    (recallLinen s).sys = s.sys ∧ (recallLinen s).pwr = s.pwr ∧ (recallLinen s).conf = s.conf ∧ (recallLinen s).ing = s.ing ∧ (recallLinen s).pix = s.pix ∧ (recallLinen s).gz = s.gz ∧ (recallLinen s).lmp = s.lmp ∧ (recallLinen s).dmk = s.dmk ∧ (recallLinen s).od = s.od ∧ (recallLinen s).tmg = s.tmg ∧ (recallLinen s).pnl = s.pnl ∧ (recallLinen s).twl = s.twl ∧ (recallLinen s).cue = s.cue ∧ (recallLinen s).mem = s.mem ∧ (recallLinen s).cal = s.cal ∧ (recallLinen s).gng = s.gng ∧ (recallLinen s).sec = s.sec ∧ (recallLinen s).flt = s.flt ∧ (recallLinen s).thm = s.thm ∧ (recallLinen s).trc = s.trc ∧ (recallLinen s).bst = s.bst ∧ (recallLinen s).free = s.free ∧ (recallLinen s).pending = s.pending ∧ (recallLinen s).hif.power = s.hif.power ∧ (recallLinen s).hif.bme0 = s.hif.bme0 ∧ (recallLinen s).hif.bme1 = s.hif.bme1 ∧ (recallLinen s).hif.d3hot = s.hif.d3hot ∧ (recallLinen s).rings.sqs = s.rings.sqs := by
  unfold recallLinen
  (try simp)
  (repeat' split) <;> (try simp)

@[simp] theorem updateGuarantee_frame (s : State) :
    (updateGuarantee s).sys = s.sys ∧ (updateGuarantee s).pwr = s.pwr ∧ (updateGuarantee s).conf = s.conf ∧ (updateGuarantee s).ing = s.ing ∧ (updateGuarantee s).pix = s.pix ∧ (updateGuarantee s).gz = s.gz ∧ (updateGuarantee s).lmp = s.lmp ∧ (updateGuarantee s).dmk = s.dmk ∧ (updateGuarantee s).od = s.od ∧ (updateGuarantee s).tmg = s.tmg ∧ (updateGuarantee s).pnl = s.pnl ∧ (updateGuarantee s).twl = s.twl ∧ (updateGuarantee s).cue = s.cue ∧ (updateGuarantee s).mem = s.mem ∧ (updateGuarantee s).lin = s.lin ∧ (updateGuarantee s).cal = s.cal ∧ (updateGuarantee s).gng = s.gng ∧ (updateGuarantee s).sec = s.sec ∧ (updateGuarantee s).thm = s.thm ∧ (updateGuarantee s).trc = s.trc ∧ (updateGuarantee s).bst = s.bst ∧ (updateGuarantee s).free = s.free ∧ (updateGuarantee s).pending = s.pending ∧ (updateGuarantee s).hif.power = s.hif.power ∧ (updateGuarantee s).hif.bme0 = s.hif.bme0 ∧ (updateGuarantee s).hif.bme1 = s.hif.bme1 ∧ (updateGuarantee s).hif.d3hot = s.hif.d3hot ∧ (updateGuarantee s).rings.sqs = s.rings.sqs := by
  unfold updateGuarantee
  (try simp)
  (repeat' split) <;> (try simp)

@[simp] theorem putSpares_frame (s : State) :
    (putSpares s).sys = s.sys ∧ (putSpares s).pwr = s.pwr ∧ (putSpares s).hif = s.hif ∧ (putSpares s).rings = s.rings ∧ (putSpares s).conf = s.conf ∧ (putSpares s).ing = s.ing ∧ (putSpares s).pix = s.pix ∧ (putSpares s).gz = s.gz ∧ (putSpares s).lmp = s.lmp ∧ (putSpares s).dmk = s.dmk ∧ (putSpares s).od = s.od ∧ (putSpares s).tmg = s.tmg ∧ (putSpares s).pnl = s.pnl ∧ (putSpares s).twl = s.twl ∧ (putSpares s).cue = s.cue ∧ (putSpares s).mem = s.mem ∧ (putSpares s).cal = s.cal ∧ (putSpares s).gng = s.gng ∧ (putSpares s).sec = s.sec ∧ (putSpares s).flt = s.flt ∧ (putSpares s).thm = s.thm ∧ (putSpares s).trc = s.trc ∧ (putSpares s).bst = s.bst ∧ (putSpares s).out = s.out ∧ (putSpares s).free = s.free ∧ (putSpares s).pending = s.pending := by
  unfold putSpares
  (repeat' split) <;> (try simp)

@[simp] theorem assignStripes_frame (s : State) :
    (assignStripes s).sys = s.sys ∧ (assignStripes s).pwr = s.pwr ∧ (assignStripes s).hif = s.hif ∧ (assignStripes s).rings = s.rings ∧ (assignStripes s).conf = s.conf ∧ (assignStripes s).ing = s.ing ∧ (assignStripes s).pix = s.pix ∧ (assignStripes s).gz = s.gz ∧ (assignStripes s).lmp = s.lmp ∧ (assignStripes s).dmk = s.dmk ∧ (assignStripes s).od = s.od ∧ (assignStripes s).tmg = s.tmg ∧ (assignStripes s).pnl = s.pnl ∧ (assignStripes s).twl = s.twl ∧ (assignStripes s).cue = s.cue ∧ (assignStripes s).mem = s.mem ∧ (assignStripes s).lin = s.lin ∧ (assignStripes s).cal = s.cal ∧ (assignStripes s).gng = s.gng ∧ (assignStripes s).sec = s.sec ∧ (assignStripes s).thm = s.thm ∧ (assignStripes s).trc = s.trc ∧ (assignStripes s).bst = s.bst ∧ (assignStripes s).out = s.out ∧ (assignStripes s).free = s.free ∧ (assignStripes s).pending = s.pending := by
  unfold assignStripes
  (try dsimp only)
  (repeat' split) <;> (try simp)

@[simp] theorem assignEngines_frame (s : State) :
    (assignEngines s).sys = s.sys ∧ (assignEngines s).pwr = s.pwr ∧ (assignEngines s).hif = s.hif ∧ (assignEngines s).rings = s.rings ∧ (assignEngines s).conf = s.conf ∧ (assignEngines s).ing = s.ing ∧ (assignEngines s).pix = s.pix ∧ (assignEngines s).gz = s.gz ∧ (assignEngines s).lmp = s.lmp ∧ (assignEngines s).dmk = s.dmk ∧ (assignEngines s).od = s.od ∧ (assignEngines s).tmg = s.tmg ∧ (assignEngines s).pnl = s.pnl ∧ (assignEngines s).twl = s.twl ∧ (assignEngines s).cue = s.cue ∧ (assignEngines s).mem = s.mem ∧ (assignEngines s).lin = s.lin ∧ (assignEngines s).cal = s.cal ∧ (assignEngines s).gng = s.gng ∧ (assignEngines s).sec = s.sec ∧ (assignEngines s).thm = s.thm ∧ (assignEngines s).trc = s.trc ∧ (assignEngines s).bst = s.bst ∧ (assignEngines s).out = s.out ∧ (assignEngines s).free = s.free ∧ (assignEngines s).pending = s.pending := by
  unfold assignEngines
  (try dsimp only)
  (repeat' split) <;> (try simp)

@[simp] theorem logFree_frame (cls outcome : Nat) (d : List Nat) (s : State) :
    (logFree cls outcome d s).sys = s.sys ∧ (logFree cls outcome d s).pwr = s.pwr ∧ (logFree cls outcome d s).hif = s.hif ∧ (logFree cls outcome d s).rings = s.rings ∧ (logFree cls outcome d s).conf = s.conf ∧ (logFree cls outcome d s).ing = s.ing ∧ (logFree cls outcome d s).pix = s.pix ∧ (logFree cls outcome d s).gz = s.gz ∧ (logFree cls outcome d s).lmp = s.lmp ∧ (logFree cls outcome d s).dmk = s.dmk ∧ (logFree cls outcome d s).od = s.od ∧ (logFree cls outcome d s).tmg = s.tmg ∧ (logFree cls outcome d s).pnl = s.pnl ∧ (logFree cls outcome d s).twl = s.twl ∧ (logFree cls outcome d s).cue = s.cue ∧ (logFree cls outcome d s).mem = s.mem ∧ (logFree cls outcome d s).cal = s.cal ∧ (logFree cls outcome d s).gng = s.gng ∧ (logFree cls outcome d s).sec = s.sec ∧ (logFree cls outcome d s).flt = s.flt ∧ (logFree cls outcome d s).thm = s.thm ∧ (logFree cls outcome d s).trc = s.trc ∧ (logFree cls outcome d s).bst = s.bst ∧ (logFree cls outcome d s).out = s.out ∧ (logFree cls outcome d s).pending = s.pending := by
  unfold logFree
  (repeat' split) <;> (try simp)

@[simp] theorem retireChecker_frame (e : Nat) (s : State) :
    (retireChecker e s).sys = s.sys ∧ (retireChecker e s).pwr = s.pwr ∧ (retireChecker e s).conf = s.conf ∧ (retireChecker e s).ing = s.ing ∧ (retireChecker e s).pix = s.pix ∧ (retireChecker e s).gz = s.gz ∧ (retireChecker e s).lmp = s.lmp ∧ (retireChecker e s).dmk = s.dmk ∧ (retireChecker e s).od = s.od ∧ (retireChecker e s).tmg = s.tmg ∧ (retireChecker e s).pnl = s.pnl ∧ (retireChecker e s).twl = s.twl ∧ (retireChecker e s).cue = s.cue ∧ (retireChecker e s).mem = s.mem ∧ (retireChecker e s).cal = s.cal ∧ (retireChecker e s).gng = s.gng ∧ (retireChecker e s).sec = s.sec ∧ (retireChecker e s).thm = s.thm ∧ (retireChecker e s).trc = s.trc ∧ (retireChecker e s).bst = s.bst ∧ (retireChecker e s).pending = s.pending ∧ (retireChecker e s).hif.power = s.hif.power ∧ (retireChecker e s).hif.bme0 = s.hif.bme0 ∧ (retireChecker e s).hif.bme1 = s.hif.bme1 ∧ (retireChecker e s).hif.d3hot = s.hif.d3hot ∧ (retireChecker e s).rings.sqs = s.rings.sqs := by
  unfold retireChecker
  (try dsimp only)
  (repeat' split) <;> (try simp)

@[simp] theorem retireIdle_frame (e : Nat) (s : State) :
    (retireIdle e s).sys = s.sys ∧ (retireIdle e s).pwr = s.pwr ∧ (retireIdle e s).hif = s.hif ∧ (retireIdle e s).rings = s.rings ∧ (retireIdle e s).conf = s.conf ∧ (retireIdle e s).ing = s.ing ∧ (retireIdle e s).pix = s.pix ∧ (retireIdle e s).gz = s.gz ∧ (retireIdle e s).lmp = s.lmp ∧ (retireIdle e s).dmk = s.dmk ∧ (retireIdle e s).od = s.od ∧ (retireIdle e s).tmg = s.tmg ∧ (retireIdle e s).pnl = s.pnl ∧ (retireIdle e s).twl = s.twl ∧ (retireIdle e s).cue = s.cue ∧ (retireIdle e s).mem = s.mem ∧ (retireIdle e s).cal = s.cal ∧ (retireIdle e s).gng = s.gng ∧ (retireIdle e s).sec = s.sec ∧ (retireIdle e s).thm = s.thm ∧ (retireIdle e s).trc = s.trc ∧ (retireIdle e s).bst = s.bst ∧ (retireIdle e s).out = s.out ∧ (retireIdle e s).pending = s.pending := by
  unfold retireIdle
  (try dsimp only)
  (repeat' split) <;> (try simp)

@[simp] theorem callEngine_frame (stripe line : Nat) (s : State) :
    (callEngine stripe line s).sys = s.sys ∧ (callEngine stripe line s).pwr = s.pwr ∧ (callEngine stripe line s).conf = s.conf ∧ (callEngine stripe line s).ing = s.ing ∧ (callEngine stripe line s).pix = s.pix ∧ (callEngine stripe line s).gz = s.gz ∧ (callEngine stripe line s).lmp = s.lmp ∧ (callEngine stripe line s).dmk = s.dmk ∧ (callEngine stripe line s).od = s.od ∧ (callEngine stripe line s).tmg = s.tmg ∧ (callEngine stripe line s).pnl = s.pnl ∧ (callEngine stripe line s).twl = s.twl ∧ (callEngine stripe line s).cue = s.cue ∧ (callEngine stripe line s).mem = s.mem ∧ (callEngine stripe line s).cal = s.cal ∧ (callEngine stripe line s).gng = s.gng ∧ (callEngine stripe line s).sec = s.sec ∧ (callEngine stripe line s).thm = s.thm ∧ (callEngine stripe line s).trc = s.trc ∧ (callEngine stripe line s).bst = s.bst ∧ (callEngine stripe line s).free = s.free ∧ (callEngine stripe line s).pending = s.pending ∧ (callEngine stripe line s).hif.power = s.hif.power ∧ (callEngine stripe line s).hif.bme0 = s.hif.bme0 ∧ (callEngine stripe line s).hif.bme1 = s.hif.bme1 ∧ (callEngine stripe line s).hif.d3hot = s.hif.d3hot ∧ (callEngine stripe line s).rings.sqs = s.rings.sqs := by
  unfold callEngine
  (try simp)
  (repeat' split) <;> (try simp)

@[simp] theorem moveEngine_frame (fe : Nat) (m : EngineMove) (s : State) :
    (moveEngine fe m s).sys = s.sys ∧ (moveEngine fe m s).pwr = s.pwr ∧ (moveEngine fe m s).conf = s.conf ∧ (moveEngine fe m s).ing = s.ing ∧ (moveEngine fe m s).pix = s.pix ∧ (moveEngine fe m s).gz = s.gz ∧ (moveEngine fe m s).lmp = s.lmp ∧ (moveEngine fe m s).dmk = s.dmk ∧ (moveEngine fe m s).od = s.od ∧ (moveEngine fe m s).tmg = s.tmg ∧ (moveEngine fe m s).pnl = s.pnl ∧ (moveEngine fe m s).twl = s.twl ∧ (moveEngine fe m s).cue = s.cue ∧ (moveEngine fe m s).mem = s.mem ∧ (moveEngine fe m s).cal = s.cal ∧ (moveEngine fe m s).gng = s.gng ∧ (moveEngine fe m s).sec = s.sec ∧ (moveEngine fe m s).thm = s.thm ∧ (moveEngine fe m s).bst = s.bst ∧ (moveEngine fe m s).pending = s.pending ∧ (moveEngine fe m s).hif.power = s.hif.power ∧ (moveEngine fe m s).hif.d3hot = s.hif.d3hot := by
  unfold moveEngine
  (try simp)
  (repeat' split) <;> (try simp)

@[simp] theorem engineFt_frame (fe : Nat) (s : State) :
    (engineFt fe s).sys = s.sys ∧ (engineFt fe s).pwr = s.pwr ∧ (engineFt fe s).conf = s.conf ∧ (engineFt fe s).ing = s.ing ∧ (engineFt fe s).pix = s.pix ∧ (engineFt fe s).gz = s.gz ∧ (engineFt fe s).lmp = s.lmp ∧ (engineFt fe s).dmk = s.dmk ∧ (engineFt fe s).od = s.od ∧ (engineFt fe s).tmg = s.tmg ∧ (engineFt fe s).pnl = s.pnl ∧ (engineFt fe s).twl = s.twl ∧ (engineFt fe s).cue = s.cue ∧ (engineFt fe s).mem = s.mem ∧ (engineFt fe s).cal = s.cal ∧ (engineFt fe s).gng = s.gng ∧ (engineFt fe s).sec = s.sec ∧ (engineFt fe s).thm = s.thm ∧ (engineFt fe s).bst = s.bst ∧ (engineFt fe s).pending = s.pending ∧ (engineFt fe s).hif.power = s.hif.power ∧ (engineFt fe s).hif.d3hot = s.hif.d3hot := by
  unfold engineFt
  (try dsimp only)
  (repeat' split) <;> (try simp)

@[simp] theorem rotatingMismatch_frame (views : List CheckerView) (s : State) :
    (rotatingMismatch views s).sys = s.sys ∧ (rotatingMismatch views s).pwr = s.pwr ∧ (rotatingMismatch views s).conf = s.conf ∧ (rotatingMismatch views s).ing = s.ing ∧ (rotatingMismatch views s).pix = s.pix ∧ (rotatingMismatch views s).gz = s.gz ∧ (rotatingMismatch views s).lmp = s.lmp ∧ (rotatingMismatch views s).dmk = s.dmk ∧ (rotatingMismatch views s).od = s.od ∧ (rotatingMismatch views s).tmg = s.tmg ∧ (rotatingMismatch views s).pnl = s.pnl ∧ (rotatingMismatch views s).twl = s.twl ∧ (rotatingMismatch views s).cue = s.cue ∧ (rotatingMismatch views s).mem = s.mem ∧ (rotatingMismatch views s).lin = s.lin ∧ (rotatingMismatch views s).cal = s.cal ∧ (rotatingMismatch views s).gng = s.gng ∧ (rotatingMismatch views s).sec = s.sec ∧ (rotatingMismatch views s).thm = s.thm ∧ (rotatingMismatch views s).trc = s.trc ∧ (rotatingMismatch views s).bst = s.bst ∧ (rotatingMismatch views s).free = s.free ∧ (rotatingMismatch views s).pending = s.pending ∧ (rotatingMismatch views s).hif.power = s.hif.power ∧ (rotatingMismatch views s).hif.d3hot = s.hif.d3hot ∧ (rotatingMismatch views s).rings.sqs = s.rings.sqs := by
  unfold rotatingMismatch
  (try simp)
  (repeat' split) <;> (try simp)

@[simp] theorem clearSuspect_frame (s : State) :
    (clearSuspect s).sys = s.sys ∧ (clearSuspect s).pwr = s.pwr ∧ (clearSuspect s).hif = s.hif ∧ (clearSuspect s).rings = s.rings ∧ (clearSuspect s).conf = s.conf ∧ (clearSuspect s).ing = s.ing ∧ (clearSuspect s).pix = s.pix ∧ (clearSuspect s).gz = s.gz ∧ (clearSuspect s).lmp = s.lmp ∧ (clearSuspect s).dmk = s.dmk ∧ (clearSuspect s).od = s.od ∧ (clearSuspect s).tmg = s.tmg ∧ (clearSuspect s).pnl = s.pnl ∧ (clearSuspect s).twl = s.twl ∧ (clearSuspect s).cue = s.cue ∧ (clearSuspect s).mem = s.mem ∧ (clearSuspect s).lin = s.lin ∧ (clearSuspect s).cal = s.cal ∧ (clearSuspect s).gng = s.gng ∧ (clearSuspect s).sec = s.sec ∧ (clearSuspect s).thm = s.thm ∧ (clearSuspect s).trc = s.trc ∧ (clearSuspect s).bst = s.bst ∧ (clearSuspect s).out = s.out ∧ (clearSuspect s).free = s.free ∧ (clearSuspect s).pending = s.pending := by
  unfold clearSuspect
  (try dsimp only)
  (repeat' split) <;> (try simp)

@[simp] theorem selfTest_frame (l : List Nat) (s : State) :
    (selfTest l s).sys = s.sys ∧ (selfTest l s).pwr = s.pwr ∧ (selfTest l s).hif = s.hif ∧ (selfTest l s).rings = s.rings ∧ (selfTest l s).conf = s.conf ∧ (selfTest l s).ing = s.ing ∧ (selfTest l s).pix = s.pix ∧ (selfTest l s).gz = s.gz ∧ (selfTest l s).lmp = s.lmp ∧ (selfTest l s).dmk = s.dmk ∧ (selfTest l s).od = s.od ∧ (selfTest l s).tmg = s.tmg ∧ (selfTest l s).pnl = s.pnl ∧ (selfTest l s).twl = s.twl ∧ (selfTest l s).cue = s.cue ∧ (selfTest l s).mem = s.mem ∧ (selfTest l s).lin = s.lin ∧ (selfTest l s).cal = s.cal ∧ (selfTest l s).gng = s.gng ∧ (selfTest l s).sec = s.sec ∧ (selfTest l s).thm = s.thm ∧ (selfTest l s).trc = s.trc ∧ (selfTest l s).bst = s.bst ∧ (selfTest l s).out = s.out ∧ (selfTest l s).free = s.free ∧ (selfTest l s).pending = s.pending := by
  unfold selfTest
  (try dsimp only)
  (repeat' split) <;> (try simp)

@[simp] theorem judge_frame (views : List CheckerView) (stripe line : Nat) (s : State) :
    (judge views stripe line s).sys = s.sys ∧ (judge views stripe line s).pwr = s.pwr ∧ (judge views stripe line s).conf = s.conf ∧ (judge views stripe line s).ing = s.ing ∧ (judge views stripe line s).pix = s.pix ∧ (judge views stripe line s).gz = s.gz ∧ (judge views stripe line s).lmp = s.lmp ∧ (judge views stripe line s).dmk = s.dmk ∧ (judge views stripe line s).od = s.od ∧ (judge views stripe line s).tmg = s.tmg ∧ (judge views stripe line s).pnl = s.pnl ∧ (judge views stripe line s).twl = s.twl ∧ (judge views stripe line s).cue = s.cue ∧ (judge views stripe line s).mem = s.mem ∧ (judge views stripe line s).cal = s.cal ∧ (judge views stripe line s).gng = s.gng ∧ (judge views stripe line s).sec = s.sec ∧ (judge views stripe line s).thm = s.thm ∧ (judge views stripe line s).trc = s.trc ∧ (judge views stripe line s).bst = s.bst ∧ (judge views stripe line s).pending = s.pending ∧ (judge views stripe line s).hif.power = s.hif.power ∧ (judge views stripe line s).hif.bme0 = s.hif.bme0 ∧ (judge views stripe line s).hif.bme1 = s.hif.bme1 ∧ (judge views stripe line s).hif.d3hot = s.hif.d3hot ∧ (judge views stripe line s).rings.sqs = s.rings.sqs := by
  unfold judge
  (try simp)
  (repeat' split) <;> (try simp)

@[simp] theorem checkersSaw_frame (views : List CheckerView) (s : State) :
    (checkersSaw views s).sys = s.sys ∧ (checkersSaw views s).pwr = s.pwr ∧ (checkersSaw views s).conf = s.conf ∧ (checkersSaw views s).ing = s.ing ∧ (checkersSaw views s).pix = s.pix ∧ (checkersSaw views s).gz = s.gz ∧ (checkersSaw views s).lmp = s.lmp ∧ (checkersSaw views s).dmk = s.dmk ∧ (checkersSaw views s).od = s.od ∧ (checkersSaw views s).tmg = s.tmg ∧ (checkersSaw views s).pnl = s.pnl ∧ (checkersSaw views s).twl = s.twl ∧ (checkersSaw views s).cue = s.cue ∧ (checkersSaw views s).mem = s.mem ∧ (checkersSaw views s).cal = s.cal ∧ (checkersSaw views s).gng = s.gng ∧ (checkersSaw views s).sec = s.sec ∧ (checkersSaw views s).thm = s.thm ∧ (checkersSaw views s).trc = s.trc ∧ (checkersSaw views s).bst = s.bst ∧ (checkersSaw views s).pending = s.pending ∧ (checkersSaw views s).hif.power = s.hif.power ∧ (checkersSaw views s).hif.d3hot = s.hif.d3hot ∧ (checkersSaw views s).rings.sqs = s.rings.sqs := by
  unfold checkersSaw
  (repeat' split) <;> (try simp)

@[simp] theorem extendSlot_frame (k : Nat) (d : Bytes) (s : State) :
    (extendSlot k d s).sys = s.sys ∧ (extendSlot k d s).pwr = s.pwr ∧ (extendSlot k d s).hif = s.hif ∧ (extendSlot k d s).rings = s.rings ∧ (extendSlot k d s).conf = s.conf ∧ (extendSlot k d s).ing = s.ing ∧ (extendSlot k d s).pix = s.pix ∧ (extendSlot k d s).gz = s.gz ∧ (extendSlot k d s).lmp = s.lmp ∧ (extendSlot k d s).dmk = s.dmk ∧ (extendSlot k d s).od = s.od ∧ (extendSlot k d s).tmg = s.tmg ∧ (extendSlot k d s).pnl = s.pnl ∧ (extendSlot k d s).twl = s.twl ∧ (extendSlot k d s).cue = s.cue ∧ (extendSlot k d s).mem = s.mem ∧ (extendSlot k d s).lin = s.lin ∧ (extendSlot k d s).cal = s.cal ∧ (extendSlot k d s).gng = s.gng ∧ (extendSlot k d s).flt = s.flt ∧ (extendSlot k d s).thm = s.thm ∧ (extendSlot k d s).trc = s.trc ∧ (extendSlot k d s).bst = s.bst ∧ (extendSlot k d s).out = s.out ∧ (extendSlot k d s).free = s.free ∧ (extendSlot k d s).pending = s.pending ∧ (extendSlot k d s).sec.fuses = s.sec.fuses := by
  unfold extendSlot
  (try dsimp only)
  (repeat' split) <;> (try simp)

@[simp] theorem issueAlias_frame (s : State) :
    (issueAlias s).sys = s.sys ∧ (issueAlias s).pwr = s.pwr ∧ (issueAlias s).hif = s.hif ∧ (issueAlias s).rings = s.rings ∧ (issueAlias s).conf = s.conf ∧ (issueAlias s).ing = s.ing ∧ (issueAlias s).pix = s.pix ∧ (issueAlias s).gz = s.gz ∧ (issueAlias s).lmp = s.lmp ∧ (issueAlias s).dmk = s.dmk ∧ (issueAlias s).od = s.od ∧ (issueAlias s).tmg = s.tmg ∧ (issueAlias s).pnl = s.pnl ∧ (issueAlias s).twl = s.twl ∧ (issueAlias s).cue = s.cue ∧ (issueAlias s).mem = s.mem ∧ (issueAlias s).lin = s.lin ∧ (issueAlias s).cal = s.cal ∧ (issueAlias s).gng = s.gng ∧ (issueAlias s).flt = s.flt ∧ (issueAlias s).thm = s.thm ∧ (issueAlias s).trc = s.trc ∧ (issueAlias s).bst = s.bst ∧ (issueAlias s).out = s.out ∧ (issueAlias s).free = s.free ∧ (issueAlias s).pending = s.pending ∧ (issueAlias s).sec.fuses = s.sec.fuses := by
  unfold issueAlias
  (try dsimp only)
  (repeat' split) <;> (try simp)

@[simp] theorem setLevel_frame (n : Nat) (s : State) :
    (setLevel n s).sys = s.sys ∧ (setLevel n s).pwr = s.pwr ∧ (setLevel n s).hif = s.hif ∧ (setLevel n s).rings = s.rings ∧ (setLevel n s).conf = s.conf ∧ (setLevel n s).ing = s.ing ∧ (setLevel n s).pix = s.pix ∧ (setLevel n s).gz = s.gz ∧ (setLevel n s).lmp = s.lmp ∧ (setLevel n s).dmk = s.dmk ∧ (setLevel n s).od = s.od ∧ (setLevel n s).tmg = s.tmg ∧ (setLevel n s).pnl = s.pnl ∧ (setLevel n s).twl = s.twl ∧ (setLevel n s).cue = s.cue ∧ (setLevel n s).mem = s.mem ∧ (setLevel n s).lin = s.lin ∧ (setLevel n s).cal = s.cal ∧ (setLevel n s).gng = s.gng ∧ (setLevel n s).flt = s.flt ∧ (setLevel n s).thm = s.thm ∧ (setLevel n s).trc = s.trc ∧ (setLevel n s).bst = s.bst ∧ (setLevel n s).out = s.out ∧ (setLevel n s).free = s.free ∧ (setLevel n s).pending = s.pending ∧ (setLevel n s).sec.fuses = s.sec.fuses := by
  unfold setLevel
  (try simp)
  (repeat' split) <;> (try simp)

@[simp] theorem downgrade_frame (reason : Nat) (s : State) :
    (downgrade reason s).sys = s.sys ∧ (downgrade reason s).pwr = s.pwr ∧ (downgrade reason s).conf = s.conf ∧ (downgrade reason s).ing = s.ing ∧ (downgrade reason s).pix = s.pix ∧ (downgrade reason s).gz = s.gz ∧ (downgrade reason s).lmp = s.lmp ∧ (downgrade reason s).dmk = s.dmk ∧ (downgrade reason s).od = s.od ∧ (downgrade reason s).tmg = s.tmg ∧ (downgrade reason s).pnl = s.pnl ∧ (downgrade reason s).twl = s.twl ∧ (downgrade reason s).cue = s.cue ∧ (downgrade reason s).mem = s.mem ∧ (downgrade reason s).lin = s.lin ∧ (downgrade reason s).cal = s.cal ∧ (downgrade reason s).gng = s.gng ∧ (downgrade reason s).flt = s.flt ∧ (downgrade reason s).thm = s.thm ∧ (downgrade reason s).trc = s.trc ∧ (downgrade reason s).bst = s.bst ∧ (downgrade reason s).free = s.free ∧ (downgrade reason s).pending = s.pending ∧ (downgrade reason s).sec.fuses = s.sec.fuses ∧ (downgrade reason s).hif.power = s.hif.power ∧ (downgrade reason s).hif.bme0 = s.hif.bme0 ∧ (downgrade reason s).hif.bme1 = s.hif.bme1 ∧ (downgrade reason s).hif.d3hot = s.hif.d3hot ∧ (downgrade reason s).rings.sqs = s.rings.sqs := by
  unfold downgrade
  (try simp)
  (repeat' split) <;> (try simp)

@[simp] theorem residence_frame (s : State) :
    (residence s).sys = s.sys ∧ (residence s).pwr = s.pwr ∧ (residence s).conf = s.conf ∧ (residence s).ing = s.ing ∧ (residence s).pix = s.pix ∧ (residence s).gz = s.gz ∧ (residence s).lmp = s.lmp ∧ (residence s).dmk = s.dmk ∧ (residence s).od = s.od ∧ (residence s).tmg = s.tmg ∧ (residence s).pnl = s.pnl ∧ (residence s).twl = s.twl ∧ (residence s).cue = s.cue ∧ (residence s).mem = s.mem ∧ (residence s).lin = s.lin ∧ (residence s).cal = s.cal ∧ (residence s).gng = s.gng ∧ (residence s).flt = s.flt ∧ (residence s).thm = s.thm ∧ (residence s).trc = s.trc ∧ (residence s).bst = s.bst ∧ (residence s).free = s.free ∧ (residence s).pending = s.pending ∧ (residence s).sec.fuses = s.sec.fuses ∧ (residence s).hif.power = s.hif.power ∧ (residence s).hif.bme0 = s.hif.bme0 ∧ (residence s).hif.bme1 = s.hif.bme1 ∧ (residence s).hif.d3hot = s.hif.d3hot ∧ (residence s).rings.sqs = s.rings.sqs := by
  unfold residence
  (try simp)
  (repeat' split) <;> (try simp)

@[simp] theorem revokeToken_frame (s : State) :
    (revokeToken s).sys = s.sys ∧ (revokeToken s).pwr = s.pwr ∧ (revokeToken s).conf = s.conf ∧ (revokeToken s).ing = s.ing ∧ (revokeToken s).pix = s.pix ∧ (revokeToken s).gz = s.gz ∧ (revokeToken s).lmp = s.lmp ∧ (revokeToken s).dmk = s.dmk ∧ (revokeToken s).od = s.od ∧ (revokeToken s).tmg = s.tmg ∧ (revokeToken s).pnl = s.pnl ∧ (revokeToken s).twl = s.twl ∧ (revokeToken s).cue = s.cue ∧ (revokeToken s).mem = s.mem ∧ (revokeToken s).lin = s.lin ∧ (revokeToken s).cal = s.cal ∧ (revokeToken s).gng = s.gng ∧ (revokeToken s).flt = s.flt ∧ (revokeToken s).thm = s.thm ∧ (revokeToken s).trc = s.trc ∧ (revokeToken s).bst = s.bst ∧ (revokeToken s).free = s.free ∧ (revokeToken s).pending = s.pending ∧ (revokeToken s).sec.fuses = s.sec.fuses ∧ (revokeToken s).hif.power = s.hif.power ∧ (revokeToken s).hif.bme0 = s.hif.bme0 ∧ (revokeToken s).hif.bme1 = s.hif.bme1 ∧ (revokeToken s).hif.d3hot = s.hif.d3hot ∧ (revokeToken s).rings.sqs = s.rings.sqs := by
  unfold revokeToken
  (try simp)
  (repeat' split) <;> (try simp)

@[simp] theorem eraseKeys_frame (keep : Nat → Bool) (s : State) :
    (eraseKeys keep s).sys = s.sys ∧ (eraseKeys keep s).pwr = s.pwr ∧ (eraseKeys keep s).hif = s.hif ∧ (eraseKeys keep s).rings = s.rings ∧ (eraseKeys keep s).conf = s.conf ∧ (eraseKeys keep s).ing = s.ing ∧ (eraseKeys keep s).pix = s.pix ∧ (eraseKeys keep s).gz = s.gz ∧ (eraseKeys keep s).lmp = s.lmp ∧ (eraseKeys keep s).dmk = s.dmk ∧ (eraseKeys keep s).od = s.od ∧ (eraseKeys keep s).tmg = s.tmg ∧ (eraseKeys keep s).pnl = s.pnl ∧ (eraseKeys keep s).twl = s.twl ∧ (eraseKeys keep s).cue = s.cue ∧ (eraseKeys keep s).mem = s.mem ∧ (eraseKeys keep s).lin = s.lin ∧ (eraseKeys keep s).cal = s.cal ∧ (eraseKeys keep s).gng = s.gng ∧ (eraseKeys keep s).flt = s.flt ∧ (eraseKeys keep s).thm = s.thm ∧ (eraseKeys keep s).trc = s.trc ∧ (eraseKeys keep s).out = s.out ∧ (eraseKeys keep s).free = s.free ∧ (eraseKeys keep s).pending = s.pending ∧ (eraseKeys keep s).sec.fuses = s.sec.fuses := by
  unfold eraseKeys
  (try dsimp only)
  (repeat' split) <;> (try simp)

@[simp] theorem recallKeys_frame (s : State) :
    (recallKeys s).sys = s.sys ∧ (recallKeys s).pwr = s.pwr ∧ (recallKeys s).hif = s.hif ∧ (recallKeys s).rings = s.rings ∧ (recallKeys s).conf = s.conf ∧ (recallKeys s).ing = s.ing ∧ (recallKeys s).pix = s.pix ∧ (recallKeys s).gz = s.gz ∧ (recallKeys s).lmp = s.lmp ∧ (recallKeys s).dmk = s.dmk ∧ (recallKeys s).od = s.od ∧ (recallKeys s).tmg = s.tmg ∧ (recallKeys s).pnl = s.pnl ∧ (recallKeys s).twl = s.twl ∧ (recallKeys s).cue = s.cue ∧ (recallKeys s).mem = s.mem ∧ (recallKeys s).lin = s.lin ∧ (recallKeys s).cal = s.cal ∧ (recallKeys s).gng = s.gng ∧ (recallKeys s).flt = s.flt ∧ (recallKeys s).thm = s.thm ∧ (recallKeys s).trc = s.trc ∧ (recallKeys s).bst = s.bst ∧ (recallKeys s).out = s.out ∧ (recallKeys s).free = s.free ∧ (recallKeys s).pending = s.pending ∧ (recallKeys s).sec.fuses = s.sec.fuses := by
  unfold recallKeys
  (try dsimp only)
  (repeat' split) <;> (try simp)

@[simp] theorem setStream_frame (g : Nat) (x : Stream) (s : State) :
    (setStream g x s).sys = s.sys ∧ (setStream g x s).pwr = s.pwr ∧ (setStream g x s).hif = s.hif ∧ (setStream g x s).rings = s.rings ∧ (setStream g x s).conf = s.conf ∧ (setStream g x s).ing = s.ing ∧ (setStream g x s).pix = s.pix ∧ (setStream g x s).gz = s.gz ∧ (setStream g x s).lmp = s.lmp ∧ (setStream g x s).dmk = s.dmk ∧ (setStream g x s).od = s.od ∧ (setStream g x s).tmg = s.tmg ∧ (setStream g x s).pnl = s.pnl ∧ (setStream g x s).twl = s.twl ∧ (setStream g x s).cue = s.cue ∧ (setStream g x s).mem = s.mem ∧ (setStream g x s).lin = s.lin ∧ (setStream g x s).cal = s.cal ∧ (setStream g x s).gng = s.gng ∧ (setStream g x s).flt = s.flt ∧ (setStream g x s).thm = s.thm ∧ (setStream g x s).trc = s.trc ∧ (setStream g x s).bst = s.bst ∧ (setStream g x s).out = s.out ∧ (setStream g x s).free = s.free ∧ (setStream g x s).pending = s.pending ∧ (setStream g x s).sec.fuses = s.sec.fuses := by
  unfold setStream
  (try dsimp only)
  (repeat' split) <;> (try simp)

@[simp] theorem streamState_frame (g : Nat) (x : Stream) (s : State) :
    (streamState g x s).sys = s.sys ∧ (streamState g x s).pwr = s.pwr ∧ (streamState g x s).conf = s.conf ∧ (streamState g x s).ing = s.ing ∧ (streamState g x s).pix = s.pix ∧ (streamState g x s).gz = s.gz ∧ (streamState g x s).lmp = s.lmp ∧ (streamState g x s).dmk = s.dmk ∧ (streamState g x s).od = s.od ∧ (streamState g x s).tmg = s.tmg ∧ (streamState g x s).pnl = s.pnl ∧ (streamState g x s).twl = s.twl ∧ (streamState g x s).cue = s.cue ∧ (streamState g x s).mem = s.mem ∧ (streamState g x s).lin = s.lin ∧ (streamState g x s).cal = s.cal ∧ (streamState g x s).gng = s.gng ∧ (streamState g x s).flt = s.flt ∧ (streamState g x s).thm = s.thm ∧ (streamState g x s).trc = s.trc ∧ (streamState g x s).bst = s.bst ∧ (streamState g x s).free = s.free ∧ (streamState g x s).pending = s.pending ∧ (streamState g x s).sec.fuses = s.sec.fuses ∧ (streamState g x s).hif.power = s.hif.power ∧ (streamState g x s).hif.bme0 = s.hif.bme0 ∧ (streamState g x s).hif.bme1 = s.hif.bme1 ∧ (streamState g x s).hif.d3hot = s.hif.d3hot ∧ (streamState g x s).rings.sqs = s.rings.sqs := by
  unfold streamState
  (try dsimp only)
  (repeat' split) <;> (try simp)

@[simp] theorem dropStreams_frame (s : State) :
    (dropStreams s).sys = s.sys ∧ (dropStreams s).pwr = s.pwr ∧ (dropStreams s).conf = s.conf ∧ (dropStreams s).ing = s.ing ∧ (dropStreams s).pix = s.pix ∧ (dropStreams s).gz = s.gz ∧ (dropStreams s).lmp = s.lmp ∧ (dropStreams s).dmk = s.dmk ∧ (dropStreams s).od = s.od ∧ (dropStreams s).tmg = s.tmg ∧ (dropStreams s).pnl = s.pnl ∧ (dropStreams s).twl = s.twl ∧ (dropStreams s).cue = s.cue ∧ (dropStreams s).mem = s.mem ∧ (dropStreams s).lin = s.lin ∧ (dropStreams s).cal = s.cal ∧ (dropStreams s).gng = s.gng ∧ (dropStreams s).flt = s.flt ∧ (dropStreams s).thm = s.thm ∧ (dropStreams s).trc = s.trc ∧ (dropStreams s).bst = s.bst ∧ (dropStreams s).free = s.free ∧ (dropStreams s).pending = s.pending ∧ (dropStreams s).sec.fuses = s.sec.fuses ∧ (dropStreams s).hif.power = s.hif.power ∧ (dropStreams s).hif.d3hot = s.hif.d3hot ∧ (dropStreams s).rings.sqs = s.rings.sqs := by
  unfold dropStreams
  (repeat' split) <;> (try simp)

@[simp] theorem clearProtected_frame (s : State) :
    (clearProtected s).sys = s.sys ∧ (clearProtected s).pwr = s.pwr ∧ (clearProtected s).hif = s.hif ∧ (clearProtected s).rings = s.rings ∧ (clearProtected s).conf = s.conf ∧ (clearProtected s).pix = s.pix ∧ (clearProtected s).gz = s.gz ∧ (clearProtected s).lmp = s.lmp ∧ (clearProtected s).dmk = s.dmk ∧ (clearProtected s).od = s.od ∧ (clearProtected s).tmg = s.tmg ∧ (clearProtected s).pnl = s.pnl ∧ (clearProtected s).twl = s.twl ∧ (clearProtected s).cue = s.cue ∧ (clearProtected s).lin = s.lin ∧ (clearProtected s).cal = s.cal ∧ (clearProtected s).gng = s.gng ∧ (clearProtected s).sec = s.sec ∧ (clearProtected s).flt = s.flt ∧ (clearProtected s).thm = s.thm ∧ (clearProtected s).trc = s.trc ∧ (clearProtected s).bst = s.bst ∧ (clearProtected s).out = s.out ∧ (clearProtected s).free = s.free ∧ (clearProtected s).pending = s.pending := by
  unfold clearProtected
  (try dsimp only)
  (repeat' split) <;> (try simp)

@[simp] theorem clearProtected_sound (s : State) (hs : PagesSound s.mem.bytes s.mem.written) :
    PagesSound (clearProtected s).mem.bytes (clearProtected s).mem.written := by
  exact clearFold_sound _ _ hs

@[simp] theorem setLinenLock_frame (v : Bool) (s : State) :
    (setLinenLock v s).sys = s.sys ∧ (setLinenLock v s).pwr = s.pwr ∧ (setLinenLock v s).hif = s.hif ∧ (setLinenLock v s).rings = s.rings ∧ (setLinenLock v s).conf = s.conf ∧ (setLinenLock v s).ing = s.ing ∧ (setLinenLock v s).pix = s.pix ∧ (setLinenLock v s).gz = s.gz ∧ (setLinenLock v s).lmp = s.lmp ∧ (setLinenLock v s).dmk = s.dmk ∧ (setLinenLock v s).od = s.od ∧ (setLinenLock v s).tmg = s.tmg ∧ (setLinenLock v s).pnl = s.pnl ∧ (setLinenLock v s).twl = s.twl ∧ (setLinenLock v s).cue = s.cue ∧ (setLinenLock v s).mem = s.mem ∧ (setLinenLock v s).cal = s.cal ∧ (setLinenLock v s).gng = s.gng ∧ (setLinenLock v s).sec = s.sec ∧ (setLinenLock v s).flt = s.flt ∧ (setLinenLock v s).thm = s.thm ∧ (setLinenLock v s).trc = s.trc ∧ (setLinenLock v s).bst = s.bst ∧ (setLinenLock v s).out = s.out ∧ (setLinenLock v s).free = s.free ∧ (setLinenLock v s).pending = s.pending := by
  unfold setLinenLock
  (try dsimp only)
  (repeat' split) <;> (try simp)

@[simp] theorem enterReturned_frame (s : State) :
    (enterReturned s).sys = s.sys ∧ (enterReturned s).pwr = s.pwr ∧ (enterReturned s).conf = s.conf ∧ (enterReturned s).pix = s.pix ∧ (enterReturned s).gz = s.gz ∧ (enterReturned s).lmp = s.lmp ∧ (enterReturned s).dmk = s.dmk ∧ (enterReturned s).od = s.od ∧ (enterReturned s).tmg = s.tmg ∧ (enterReturned s).pnl = s.pnl ∧ (enterReturned s).twl = s.twl ∧ (enterReturned s).cue = s.cue ∧ (enterReturned s).cal = s.cal ∧ (enterReturned s).gng = s.gng ∧ (enterReturned s).flt = s.flt ∧ (enterReturned s).thm = s.thm ∧ (enterReturned s).trc = s.trc ∧ (enterReturned s).free = s.free ∧ (enterReturned s).pending = s.pending ∧ (enterReturned s).sec.fuses = s.sec.fuses ∧ (enterReturned s).hif.power = s.hif.power ∧ (enterReturned s).hif.d3hot = s.hif.d3hot ∧ (enterReturned s).rings.sqs = s.rings.sqs := by
  unfold enterReturned
  (try dsimp only)
  (repeat' split) <;> (try simp)

@[simp] theorem enterReturned_sound (s : State) (hs : PagesSound s.mem.bytes s.mem.written) :
    PagesSound (enterReturned s).mem.bytes (enterReturned s).mem.written := by
  unfold enterReturned
  (try dsimp only)
  (repeat' split) <;> (try simp [hs])

@[simp] theorem advance__frame (new : Nat) (hash : Bytes) (cosign : Bool) (s : State) :
    (advance_ new hash cosign s).sys = s.sys ∧ (advance_ new hash cosign s).pwr = s.pwr ∧ (advance_ new hash cosign s).conf = s.conf ∧ (advance_ new hash cosign s).pix = s.pix ∧ (advance_ new hash cosign s).gz = s.gz ∧ (advance_ new hash cosign s).lmp = s.lmp ∧ (advance_ new hash cosign s).dmk = s.dmk ∧ (advance_ new hash cosign s).od = s.od ∧ (advance_ new hash cosign s).tmg = s.tmg ∧ (advance_ new hash cosign s).pnl = s.pnl ∧ (advance_ new hash cosign s).twl = s.twl ∧ (advance_ new hash cosign s).cue = s.cue ∧ (advance_ new hash cosign s).cal = s.cal ∧ (advance_ new hash cosign s).gng = s.gng ∧ (advance_ new hash cosign s).flt = s.flt ∧ (advance_ new hash cosign s).thm = s.thm ∧ (advance_ new hash cosign s).trc = s.trc ∧ (advance_ new hash cosign s).free = s.free ∧ (advance_ new hash cosign s).pending = s.pending ∧ (advance_ new hash cosign s).hif.power = s.hif.power ∧ (advance_ new hash cosign s).hif.d3hot = s.hif.d3hot ∧ (advance_ new hash cosign s).rings.sqs = s.rings.sqs := by
  unfold advance_
  (try simp)
  (repeat' split) <;> (try simp)

@[simp] theorem advance__sound (new : Nat) (hash : Bytes) (cosign : Bool) (s : State) (hs : PagesSound s.mem.bytes s.mem.written) :
    PagesSound (advance_ new hash cosign s).mem.bytes (advance_ new hash cosign s).mem.written := by
  unfold advance_
  (try simp [hs])
  (repeat' split) <;> (try simp [hs])

@[simp] theorem spdmError_frame (code : Nat) (s : State) :
    (spdmError code s).sys = s.sys ∧ (spdmError code s).pwr = s.pwr ∧ (spdmError code s).hif = s.hif ∧ (spdmError code s).rings = s.rings ∧ (spdmError code s).conf = s.conf ∧ (spdmError code s).ing = s.ing ∧ (spdmError code s).pix = s.pix ∧ (spdmError code s).gz = s.gz ∧ (spdmError code s).lmp = s.lmp ∧ (spdmError code s).dmk = s.dmk ∧ (spdmError code s).od = s.od ∧ (spdmError code s).tmg = s.tmg ∧ (spdmError code s).pnl = s.pnl ∧ (spdmError code s).twl = s.twl ∧ (spdmError code s).cue = s.cue ∧ (spdmError code s).mem = s.mem ∧ (spdmError code s).lin = s.lin ∧ (spdmError code s).cal = s.cal ∧ (spdmError code s).gng = s.gng ∧ (spdmError code s).sec = s.sec ∧ (spdmError code s).flt = s.flt ∧ (spdmError code s).thm = s.thm ∧ (spdmError code s).trc = s.trc ∧ (spdmError code s).bst = s.bst ∧ (spdmError code s).free = s.free ∧ (spdmError code s).pending = s.pending := by
  unfold spdmError
  (repeat' split) <;> (try simp)

@[simp] theorem doeOk_frame (d : Bytes) (s : State) :
    (doeOk d s).sys = s.sys ∧ (doeOk d s).pwr = s.pwr ∧ (doeOk d s).hif = s.hif ∧ (doeOk d s).rings = s.rings ∧ (doeOk d s).conf = s.conf ∧ (doeOk d s).ing = s.ing ∧ (doeOk d s).pix = s.pix ∧ (doeOk d s).gz = s.gz ∧ (doeOk d s).lmp = s.lmp ∧ (doeOk d s).dmk = s.dmk ∧ (doeOk d s).od = s.od ∧ (doeOk d s).tmg = s.tmg ∧ (doeOk d s).pnl = s.pnl ∧ (doeOk d s).twl = s.twl ∧ (doeOk d s).cue = s.cue ∧ (doeOk d s).mem = s.mem ∧ (doeOk d s).lin = s.lin ∧ (doeOk d s).cal = s.cal ∧ (doeOk d s).gng = s.gng ∧ (doeOk d s).sec = s.sec ∧ (doeOk d s).flt = s.flt ∧ (doeOk d s).thm = s.thm ∧ (doeOk d s).trc = s.trc ∧ (doeOk d s).bst = s.bst ∧ (doeOk d s).free = s.free ∧ (doeOk d s).pending = s.pending := by
  unfold doeOk
  (repeat' split) <;> (try simp)

@[simp] theorem refuseProtected_frame (bar4 : Bool) (page requester : Nat) (write : Bool) (s : State) :
    (refuseProtected bar4 page requester write s).sys = s.sys ∧ (refuseProtected bar4 page requester write s).pwr = s.pwr ∧ (refuseProtected bar4 page requester write s).conf = s.conf ∧ (refuseProtected bar4 page requester write s).ing = s.ing ∧ (refuseProtected bar4 page requester write s).pix = s.pix ∧ (refuseProtected bar4 page requester write s).gz = s.gz ∧ (refuseProtected bar4 page requester write s).lmp = s.lmp ∧ (refuseProtected bar4 page requester write s).dmk = s.dmk ∧ (refuseProtected bar4 page requester write s).od = s.od ∧ (refuseProtected bar4 page requester write s).tmg = s.tmg ∧ (refuseProtected bar4 page requester write s).pnl = s.pnl ∧ (refuseProtected bar4 page requester write s).twl = s.twl ∧ (refuseProtected bar4 page requester write s).cue = s.cue ∧ (refuseProtected bar4 page requester write s).mem = s.mem ∧ (refuseProtected bar4 page requester write s).lin = s.lin ∧ (refuseProtected bar4 page requester write s).cal = s.cal ∧ (refuseProtected bar4 page requester write s).gng = s.gng ∧ (refuseProtected bar4 page requester write s).flt = s.flt ∧ (refuseProtected bar4 page requester write s).thm = s.thm ∧ (refuseProtected bar4 page requester write s).bst = s.bst ∧ (refuseProtected bar4 page requester write s).pending = s.pending ∧ (refuseProtected bar4 page requester write s).sec.fuses = s.sec.fuses ∧ (refuseProtected bar4 page requester write s).hif.power = s.hif.power ∧ (refuseProtected bar4 page requester write s).hif.bme0 = s.hif.bme0 ∧ (refuseProtected bar4 page requester write s).hif.bme1 = s.hif.bme1 ∧ (refuseProtected bar4 page requester write s).hif.d3hot = s.hif.d3hot ∧ (refuseProtected bar4 page requester write s).rings.sqs = s.rings.sqs := by
  unfold refuseProtected
  (try dsimp only)
  (repeat' split) <;> (try simp)

@[simp] theorem uncorrectable_frame (p requester : Nat) (s : State) :
    (uncorrectable p requester s).sys = s.sys ∧ (uncorrectable p requester s).pwr = s.pwr ∧ (uncorrectable p requester s).conf = s.conf ∧ (uncorrectable p requester s).ing = s.ing ∧ (uncorrectable p requester s).pix = s.pix ∧ (uncorrectable p requester s).gz = s.gz ∧ (uncorrectable p requester s).lmp = s.lmp ∧ (uncorrectable p requester s).dmk = s.dmk ∧ (uncorrectable p requester s).od = s.od ∧ (uncorrectable p requester s).tmg = s.tmg ∧ (uncorrectable p requester s).pnl = s.pnl ∧ (uncorrectable p requester s).twl = s.twl ∧ (uncorrectable p requester s).cue = s.cue ∧ (uncorrectable p requester s).cal = s.cal ∧ (uncorrectable p requester s).gng = s.gng ∧ (uncorrectable p requester s).sec = s.sec ∧ (uncorrectable p requester s).flt = s.flt ∧ (uncorrectable p requester s).thm = s.thm ∧ (uncorrectable p requester s).trc = s.trc ∧ (uncorrectable p requester s).bst = s.bst ∧ (uncorrectable p requester s).pending = s.pending ∧ (uncorrectable p requester s).mem.bytes = s.mem.bytes ∧ (uncorrectable p requester s).mem.written = s.mem.written ∧ (uncorrectable p requester s).hif.power = s.hif.power ∧ (uncorrectable p requester s).hif.bme0 = s.hif.bme0 ∧ (uncorrectable p requester s).hif.bme1 = s.hif.bme1 ∧ (uncorrectable p requester s).hif.d3hot = s.hif.d3hot ∧ (uncorrectable p requester s).rings.sqs = s.rings.sqs := by
  unfold uncorrectable
  (try simp)
  (repeat' split) <;> (try simp)

@[simp] theorem writePage_frame (a : Nat) (d : Bytes) (s : State) :
    (writePage a d s).sys = s.sys ∧ (writePage a d s).pwr = s.pwr ∧ (writePage a d s).conf = s.conf ∧ (writePage a d s).ing = s.ing ∧ (writePage a d s).pix = s.pix ∧ (writePage a d s).gz = s.gz ∧ (writePage a d s).lmp = s.lmp ∧ (writePage a d s).dmk = s.dmk ∧ (writePage a d s).od = s.od ∧ (writePage a d s).tmg = s.tmg ∧ (writePage a d s).pnl = s.pnl ∧ (writePage a d s).twl = s.twl ∧ (writePage a d s).cue = s.cue ∧ (writePage a d s).cal = s.cal ∧ (writePage a d s).gng = s.gng ∧ (writePage a d s).sec = s.sec ∧ (writePage a d s).flt = s.flt ∧ (writePage a d s).thm = s.thm ∧ (writePage a d s).trc = s.trc ∧ (writePage a d s).bst = s.bst ∧ (writePage a d s).pending = s.pending ∧ (writePage a d s).hif.power = s.hif.power ∧ (writePage a d s).hif.bme0 = s.hif.bme0 ∧ (writePage a d s).hif.bme1 = s.hif.bme1 ∧ (writePage a d s).hif.d3hot = s.hif.d3hot ∧ (writePage a d s).rings.sqs = s.rings.sqs := by
  unfold writePage
  (try simp)
  (repeat' split) <;> (try simp)

@[simp] theorem writePage_sound (a : Nat) (d : Bytes) (s : State) (hs : PagesSound s.mem.bytes s.mem.written) :
    PagesSound (writePage a d s).mem.bytes (writePage a d s).mem.written := by
  unfold writePage
  (try simp [hs])
  (repeat' split) <;> (try simp [hs])

@[simp] theorem writePages_frame (a : Nat) (d : Bytes) (s : State) :
    (writePages a d s).sys = s.sys ∧ (writePages a d s).pwr = s.pwr ∧ (writePages a d s).conf = s.conf ∧ (writePages a d s).ing = s.ing ∧ (writePages a d s).pix = s.pix ∧ (writePages a d s).gz = s.gz ∧ (writePages a d s).lmp = s.lmp ∧ (writePages a d s).dmk = s.dmk ∧ (writePages a d s).od = s.od ∧ (writePages a d s).tmg = s.tmg ∧ (writePages a d s).pnl = s.pnl ∧ (writePages a d s).twl = s.twl ∧ (writePages a d s).cue = s.cue ∧ (writePages a d s).cal = s.cal ∧ (writePages a d s).gng = s.gng ∧ (writePages a d s).sec = s.sec ∧ (writePages a d s).flt = s.flt ∧ (writePages a d s).thm = s.thm ∧ (writePages a d s).trc = s.trc ∧ (writePages a d s).bst = s.bst ∧ (writePages a d s).pending = s.pending ∧ (writePages a d s).hif.power = s.hif.power ∧ (writePages a d s).hif.d3hot = s.hif.d3hot ∧ (writePages a d s).rings.sqs = s.rings.sqs := by
  unfold writePages
  (repeat' split) <;> (try simp)

@[simp] theorem writePages_sound (a : Nat) (d : Bytes) (s : State) (hs : PagesSound s.mem.bytes s.mem.written) :
    PagesSound (writePages a d s).mem.bytes (writePages a d s).mem.written := by
  unfold writePages
  (repeat' split) <;> (repeat' (first | assumption | with_reducible apply writePage_sound | with_reducible apply writeMemOf_sound | with_reducible apply clearPages_sound | with_reducible apply empty_sound | with_reducible apply forAll_sound | with_reducible apply foldl_sound | (intro _) | split | simp))

@[simp] theorem corrected_frame (p : Nat) (s : State) :
    (corrected p s).sys = s.sys ∧ (corrected p s).pwr = s.pwr ∧ (corrected p s).conf = s.conf ∧ (corrected p s).ing = s.ing ∧ (corrected p s).pix = s.pix ∧ (corrected p s).gz = s.gz ∧ (corrected p s).lmp = s.lmp ∧ (corrected p s).dmk = s.dmk ∧ (corrected p s).od = s.od ∧ (corrected p s).tmg = s.tmg ∧ (corrected p s).pnl = s.pnl ∧ (corrected p s).twl = s.twl ∧ (corrected p s).cue = s.cue ∧ (corrected p s).lin = s.lin ∧ (corrected p s).cal = s.cal ∧ (corrected p s).gng = s.gng ∧ (corrected p s).sec = s.sec ∧ (corrected p s).flt = s.flt ∧ (corrected p s).thm = s.thm ∧ (corrected p s).bst = s.bst ∧ (corrected p s).pending = s.pending ∧ (corrected p s).mem.bytes = s.mem.bytes ∧ (corrected p s).mem.written = s.mem.written ∧ (corrected p s).hif.power = s.hif.power ∧ (corrected p s).hif.bme0 = s.hif.bme0 ∧ (corrected p s).hif.bme1 = s.hif.bme1 ∧ (corrected p s).hif.d3hot = s.hif.d3hot ∧ (corrected p s).rings.sqs = s.rings.sqs ∧ (corrected p s).rings.cqs = s.rings.cqs ∧ (corrected p s).rings.eq0 = s.rings.eq0 ∧ (corrected p s).rings.eq1 = s.rings.eq1 := by
  unfold corrected
  (try dsimp only)
  (repeat' split) <;> (try simp)

@[simp] theorem writeBack_frame (r : PageRead) (fix : List SymbolError) (s : State) :
    (writeBack r fix s).sys = s.sys ∧ (writeBack r fix s).pwr = s.pwr ∧ (writeBack r fix s).conf = s.conf ∧ (writeBack r fix s).ing = s.ing ∧ (writeBack r fix s).pix = s.pix ∧ (writeBack r fix s).gz = s.gz ∧ (writeBack r fix s).lmp = s.lmp ∧ (writeBack r fix s).dmk = s.dmk ∧ (writeBack r fix s).od = s.od ∧ (writeBack r fix s).tmg = s.tmg ∧ (writeBack r fix s).pnl = s.pnl ∧ (writeBack r fix s).twl = s.twl ∧ (writeBack r fix s).cue = s.cue ∧ (writeBack r fix s).lin = s.lin ∧ (writeBack r fix s).cal = s.cal ∧ (writeBack r fix s).gng = s.gng ∧ (writeBack r fix s).sec = s.sec ∧ (writeBack r fix s).flt = s.flt ∧ (writeBack r fix s).thm = s.thm ∧ (writeBack r fix s).bst = s.bst ∧ (writeBack r fix s).pending = s.pending ∧ (writeBack r fix s).hif.power = s.hif.power ∧ (writeBack r fix s).hif.bme0 = s.hif.bme0 ∧ (writeBack r fix s).hif.bme1 = s.hif.bme1 ∧ (writeBack r fix s).hif.d3hot = s.hif.d3hot ∧ (writeBack r fix s).rings.sqs = s.rings.sqs ∧ (writeBack r fix s).rings.cqs = s.rings.cqs ∧ (writeBack r fix s).rings.eq0 = s.rings.eq0 ∧ (writeBack r fix s).rings.eq1 = s.rings.eq1 := by
  unfold writeBack
  (repeat' split) <;> (try simp)

@[simp] theorem writeBack_sound (r : PageRead) (fix : List SymbolError) (s : State) (hs : PagesSound s.mem.bytes s.mem.written) :
    PagesSound (writeBack r fix s).mem.bytes (writeBack r fix s).mem.written := by
  unfold writeBack
  (repeat' split) <;> (try simp [hs])

@[simp] theorem badDecode_frame (r : PageRead) (requester : Nat) (s : State) :
    (badDecode r requester s).sys = s.sys ∧ (badDecode r requester s).pwr = s.pwr ∧ (badDecode r requester s).conf = s.conf ∧ (badDecode r requester s).ing = s.ing ∧ (badDecode r requester s).pix = s.pix ∧ (badDecode r requester s).gz = s.gz ∧ (badDecode r requester s).lmp = s.lmp ∧ (badDecode r requester s).dmk = s.dmk ∧ (badDecode r requester s).od = s.od ∧ (badDecode r requester s).tmg = s.tmg ∧ (badDecode r requester s).pnl = s.pnl ∧ (badDecode r requester s).twl = s.twl ∧ (badDecode r requester s).cue = s.cue ∧ (badDecode r requester s).cal = s.cal ∧ (badDecode r requester s).gng = s.gng ∧ (badDecode r requester s).sec = s.sec ∧ (badDecode r requester s).flt = s.flt ∧ (badDecode r requester s).thm = s.thm ∧ (badDecode r requester s).trc = s.trc ∧ (badDecode r requester s).bst = s.bst ∧ (badDecode r requester s).pending = s.pending ∧ (badDecode r requester s).hif.power = s.hif.power ∧ (badDecode r requester s).hif.bme0 = s.hif.bme0 ∧ (badDecode r requester s).hif.bme1 = s.hif.bme1 ∧ (badDecode r requester s).hif.d3hot = s.hif.d3hot ∧ (badDecode r requester s).rings.sqs = s.rings.sqs := by
  unfold badDecode
  (repeat' split) <;> (try simp)

@[simp] theorem badDecode_sound (r : PageRead) (requester : Nat) (s : State) (hs : PagesSound s.mem.bytes s.mem.written) :
    PagesSound (badDecode r requester s).mem.bytes (badDecode r requester s).mem.written := by
  unfold badDecode
  (repeat' split) <;> (try simp [hs])

@[simp] theorem retireTo_frame (p spare : Nat) (s : State) :
    (retireTo p spare s).sys = s.sys ∧ (retireTo p spare s).pwr = s.pwr ∧ (retireTo p spare s).conf = s.conf ∧ (retireTo p spare s).ing = s.ing ∧ (retireTo p spare s).pix = s.pix ∧ (retireTo p spare s).gz = s.gz ∧ (retireTo p spare s).lmp = s.lmp ∧ (retireTo p spare s).dmk = s.dmk ∧ (retireTo p spare s).od = s.od ∧ (retireTo p spare s).tmg = s.tmg ∧ (retireTo p spare s).pnl = s.pnl ∧ (retireTo p spare s).twl = s.twl ∧ (retireTo p spare s).cue = s.cue ∧ (retireTo p spare s).cal = s.cal ∧ (retireTo p spare s).gng = s.gng ∧ (retireTo p spare s).sec = s.sec ∧ (retireTo p spare s).flt = s.flt ∧ (retireTo p spare s).thm = s.thm ∧ (retireTo p spare s).trc = s.trc ∧ (retireTo p spare s).free = s.free ∧ (retireTo p spare s).pending = s.pending ∧ (retireTo p spare s).mem.bytes = s.mem.bytes ∧ (retireTo p spare s).mem.written = s.mem.written ∧ (retireTo p spare s).hif.power = s.hif.power ∧ (retireTo p spare s).hif.bme0 = s.hif.bme0 ∧ (retireTo p spare s).hif.bme1 = s.hif.bme1 ∧ (retireTo p spare s).hif.d3hot = s.hif.d3hot ∧ (retireTo p spare s).rings.sqs = s.rings.sqs := by
  unfold retireTo
  (try dsimp only)
  (repeat' split) <;> (try simp)

@[simp] theorem spareExhausted_frame (p : Nat) (s : State) :
    (spareExhausted p s).sys = s.sys ∧ (spareExhausted p s).pwr = s.pwr ∧ (spareExhausted p s).conf = s.conf ∧ (spareExhausted p s).ing = s.ing ∧ (spareExhausted p s).pix = s.pix ∧ (spareExhausted p s).gz = s.gz ∧ (spareExhausted p s).lmp = s.lmp ∧ (spareExhausted p s).dmk = s.dmk ∧ (spareExhausted p s).od = s.od ∧ (spareExhausted p s).tmg = s.tmg ∧ (spareExhausted p s).pnl = s.pnl ∧ (spareExhausted p s).twl = s.twl ∧ (spareExhausted p s).cue = s.cue ∧ (spareExhausted p s).cal = s.cal ∧ (spareExhausted p s).gng = s.gng ∧ (spareExhausted p s).sec = s.sec ∧ (spareExhausted p s).thm = s.thm ∧ (spareExhausted p s).trc = s.trc ∧ (spareExhausted p s).bst = s.bst ∧ (spareExhausted p s).free = s.free ∧ (spareExhausted p s).pending = s.pending ∧ (spareExhausted p s).mem.bytes = s.mem.bytes ∧ (spareExhausted p s).mem.written = s.mem.written ∧ (spareExhausted p s).hif.power = s.hif.power ∧ (spareExhausted p s).hif.bme0 = s.hif.bme0 ∧ (spareExhausted p s).hif.bme1 = s.hif.bme1 ∧ (spareExhausted p s).hif.d3hot = s.hif.d3hot ∧ (spareExhausted p s).rings.sqs = s.rings.sqs := by
  unfold spareExhausted
  (try dsimp only)
  (repeat' split) <;> (try simp)

@[simp] theorem scrub_frame (r : PageRead) (s : State) :
    (scrub r s).sys = s.sys ∧ (scrub r s).pwr = s.pwr ∧ (scrub r s).conf = s.conf ∧ (scrub r s).ing = s.ing ∧ (scrub r s).pix = s.pix ∧ (scrub r s).gz = s.gz ∧ (scrub r s).lmp = s.lmp ∧ (scrub r s).dmk = s.dmk ∧ (scrub r s).od = s.od ∧ (scrub r s).tmg = s.tmg ∧ (scrub r s).pnl = s.pnl ∧ (scrub r s).twl = s.twl ∧ (scrub r s).cue = s.cue ∧ (scrub r s).cal = s.cal ∧ (scrub r s).gng = s.gng ∧ (scrub r s).sec = s.sec ∧ (scrub r s).flt = s.flt ∧ (scrub r s).thm = s.thm ∧ (scrub r s).bst = s.bst ∧ (scrub r s).pending = s.pending ∧ (scrub r s).hif.power = s.hif.power ∧ (scrub r s).hif.bme0 = s.hif.bme0 ∧ (scrub r s).hif.bme1 = s.hif.bme1 ∧ (scrub r s).hif.d3hot = s.hif.d3hot ∧ (scrub r s).rings.sqs = s.rings.sqs := by
  unfold scrub
  (repeat' split) <;> (try simp)

@[simp] theorem scrub_sound (r : PageRead) (s : State) (hs : PagesSound s.mem.bytes s.mem.written) :
    PagesSound (scrub r s).mem.bytes (scrub r s).mem.written := by
  unfold scrub
  (repeat' split) <;> (try simp [hs])

@[simp] theorem addRepair_frame (macroIdx row : Nat) (s : State) :
    (addRepair macroIdx row s).sys = s.sys ∧ (addRepair macroIdx row s).pwr = s.pwr ∧ (addRepair macroIdx row s).hif = s.hif ∧ (addRepair macroIdx row s).rings = s.rings ∧ (addRepair macroIdx row s).conf = s.conf ∧ (addRepair macroIdx row s).ing = s.ing ∧ (addRepair macroIdx row s).pix = s.pix ∧ (addRepair macroIdx row s).gz = s.gz ∧ (addRepair macroIdx row s).lmp = s.lmp ∧ (addRepair macroIdx row s).dmk = s.dmk ∧ (addRepair macroIdx row s).od = s.od ∧ (addRepair macroIdx row s).tmg = s.tmg ∧ (addRepair macroIdx row s).pnl = s.pnl ∧ (addRepair macroIdx row s).twl = s.twl ∧ (addRepair macroIdx row s).cue = s.cue ∧ (addRepair macroIdx row s).mem = s.mem ∧ (addRepair macroIdx row s).cal = s.cal ∧ (addRepair macroIdx row s).gng = s.gng ∧ (addRepair macroIdx row s).sec = s.sec ∧ (addRepair macroIdx row s).flt = s.flt ∧ (addRepair macroIdx row s).thm = s.thm ∧ (addRepair macroIdx row s).trc = s.trc ∧ (addRepair macroIdx row s).bst = s.bst ∧ (addRepair macroIdx row s).out = s.out ∧ (addRepair macroIdx row s).free = s.free ∧ (addRepair macroIdx row s).pending = s.pending := by
  unfold addRepair
  (try dsimp only)
  (repeat' split) <;> (try simp)

@[simp] theorem switchRow_frame (macroIdx row used : Nat) (s : State) :
    (switchRow macroIdx row used s).sys = s.sys ∧ (switchRow macroIdx row used s).pwr = s.pwr ∧ (switchRow macroIdx row used s).conf = s.conf ∧ (switchRow macroIdx row used s).ing = s.ing ∧ (switchRow macroIdx row used s).pix = s.pix ∧ (switchRow macroIdx row used s).gz = s.gz ∧ (switchRow macroIdx row used s).lmp = s.lmp ∧ (switchRow macroIdx row used s).dmk = s.dmk ∧ (switchRow macroIdx row used s).od = s.od ∧ (switchRow macroIdx row used s).tmg = s.tmg ∧ (switchRow macroIdx row used s).pnl = s.pnl ∧ (switchRow macroIdx row used s).twl = s.twl ∧ (switchRow macroIdx row used s).cue = s.cue ∧ (switchRow macroIdx row used s).cal = s.cal ∧ (switchRow macroIdx row used s).gng = s.gng ∧ (switchRow macroIdx row used s).sec = s.sec ∧ (switchRow macroIdx row used s).flt = s.flt ∧ (switchRow macroIdx row used s).thm = s.thm ∧ (switchRow macroIdx row used s).trc = s.trc ∧ (switchRow macroIdx row used s).bst = s.bst ∧ (switchRow macroIdx row used s).free = s.free ∧ (switchRow macroIdx row used s).pending = s.pending ∧ (switchRow macroIdx row used s).mem.bytes = s.mem.bytes ∧ (switchRow macroIdx row used s).mem.written = s.mem.written ∧ (switchRow macroIdx row used s).hif.power = s.hif.power ∧ (switchRow macroIdx row used s).hif.bme0 = s.hif.bme0 ∧ (switchRow macroIdx row used s).hif.bme1 = s.hif.bme1 ∧ (switchRow macroIdx row used s).hif.d3hot = s.hif.d3hot ∧ (switchRow macroIdx row used s).rings.sqs = s.rings.sqs := by
  unfold switchRow
  (try dsimp only)
  (repeat' split) <;> (try simp)

@[simp] theorem exchangeRow_frame (macroIdx row : Nat) (s : State) :
    (exchangeRow macroIdx row s).sys = s.sys ∧ (exchangeRow macroIdx row s).pwr = s.pwr ∧ (exchangeRow macroIdx row s).conf = s.conf ∧ (exchangeRow macroIdx row s).ing = s.ing ∧ (exchangeRow macroIdx row s).pix = s.pix ∧ (exchangeRow macroIdx row s).gz = s.gz ∧ (exchangeRow macroIdx row s).lmp = s.lmp ∧ (exchangeRow macroIdx row s).dmk = s.dmk ∧ (exchangeRow macroIdx row s).od = s.od ∧ (exchangeRow macroIdx row s).tmg = s.tmg ∧ (exchangeRow macroIdx row s).pnl = s.pnl ∧ (exchangeRow macroIdx row s).twl = s.twl ∧ (exchangeRow macroIdx row s).cue = s.cue ∧ (exchangeRow macroIdx row s).cal = s.cal ∧ (exchangeRow macroIdx row s).gng = s.gng ∧ (exchangeRow macroIdx row s).sec = s.sec ∧ (exchangeRow macroIdx row s).flt = s.flt ∧ (exchangeRow macroIdx row s).thm = s.thm ∧ (exchangeRow macroIdx row s).trc = s.trc ∧ (exchangeRow macroIdx row s).bst = s.bst ∧ (exchangeRow macroIdx row s).free = s.free ∧ (exchangeRow macroIdx row s).pending = s.pending ∧ (exchangeRow macroIdx row s).mem.bytes = s.mem.bytes ∧ (exchangeRow macroIdx row s).mem.written = s.mem.written ∧ (exchangeRow macroIdx row s).hif.power = s.hif.power ∧ (exchangeRow macroIdx row s).hif.bme0 = s.hif.bme0 ∧ (exchangeRow macroIdx row s).hif.bme1 = s.hif.bme1 ∧ (exchangeRow macroIdx row s).hif.d3hot = s.hif.d3hot ∧ (exchangeRow macroIdx row s).rings.sqs = s.rings.sqs := by
  unfold exchangeRow
  (repeat' split) <;> (try simp)

@[simp] theorem repairRow_frame (macroIdx row : Nat) (s : State) :
    (repairRow macroIdx row s).sys = s.sys ∧ (repairRow macroIdx row s).pwr = s.pwr ∧ (repairRow macroIdx row s).conf = s.conf ∧ (repairRow macroIdx row s).ing = s.ing ∧ (repairRow macroIdx row s).pix = s.pix ∧ (repairRow macroIdx row s).gz = s.gz ∧ (repairRow macroIdx row s).lmp = s.lmp ∧ (repairRow macroIdx row s).dmk = s.dmk ∧ (repairRow macroIdx row s).od = s.od ∧ (repairRow macroIdx row s).tmg = s.tmg ∧ (repairRow macroIdx row s).pnl = s.pnl ∧ (repairRow macroIdx row s).twl = s.twl ∧ (repairRow macroIdx row s).cue = s.cue ∧ (repairRow macroIdx row s).cal = s.cal ∧ (repairRow macroIdx row s).gng = s.gng ∧ (repairRow macroIdx row s).sec = s.sec ∧ (repairRow macroIdx row s).flt = s.flt ∧ (repairRow macroIdx row s).thm = s.thm ∧ (repairRow macroIdx row s).trc = s.trc ∧ (repairRow macroIdx row s).bst = s.bst ∧ (repairRow macroIdx row s).free = s.free ∧ (repairRow macroIdx row s).pending = s.pending ∧ (repairRow macroIdx row s).mem.bytes = s.mem.bytes ∧ (repairRow macroIdx row s).mem.written = s.mem.written ∧ (repairRow macroIdx row s).hif.power = s.hif.power ∧ (repairRow macroIdx row s).hif.bme0 = s.hif.bme0 ∧ (repairRow macroIdx row s).hif.bme1 = s.hif.bme1 ∧ (repairRow macroIdx row s).hif.d3hot = s.hif.d3hot ∧ (repairRow macroIdx row s).rings.sqs = s.rings.sqs := by
  unfold repairRow
  (try simp)
  (repeat' split) <;> (try simp)

@[simp] theorem bitmapLost_frame (macroIdx row word : Nat) (s : State) :
    (bitmapLost macroIdx row word s).sys = s.sys ∧ (bitmapLost macroIdx row word s).pwr = s.pwr ∧ (bitmapLost macroIdx row word s).hif = s.hif ∧ (bitmapLost macroIdx row word s).rings = s.rings ∧ (bitmapLost macroIdx row word s).conf = s.conf ∧ (bitmapLost macroIdx row word s).ing = s.ing ∧ (bitmapLost macroIdx row word s).pix = s.pix ∧ (bitmapLost macroIdx row word s).gz = s.gz ∧ (bitmapLost macroIdx row word s).lmp = s.lmp ∧ (bitmapLost macroIdx row word s).dmk = s.dmk ∧ (bitmapLost macroIdx row word s).od = s.od ∧ (bitmapLost macroIdx row word s).tmg = s.tmg ∧ (bitmapLost macroIdx row word s).pnl = s.pnl ∧ (bitmapLost macroIdx row word s).twl = s.twl ∧ (bitmapLost macroIdx row word s).cue = s.cue ∧ (bitmapLost macroIdx row word s).lin = s.lin ∧ (bitmapLost macroIdx row word s).cal = s.cal ∧ (bitmapLost macroIdx row word s).gng = s.gng ∧ (bitmapLost macroIdx row word s).sec = s.sec ∧ (bitmapLost macroIdx row word s).flt = s.flt ∧ (bitmapLost macroIdx row word s).thm = s.thm ∧ (bitmapLost macroIdx row word s).trc = s.trc ∧ (bitmapLost macroIdx row word s).bst = s.bst ∧ (bitmapLost macroIdx row word s).out = s.out ∧ (bitmapLost macroIdx row word s).free = s.free ∧ (bitmapLost macroIdx row word s).pending = s.pending := by
  unfold bitmapLost
  (try simp)
  (repeat' split) <;> (try simp)

@[simp] theorem bitmapLost_sound (macroIdx row word : Nat) (s : State) (hs : PagesSound s.mem.bytes s.mem.written) :
    PagesSound (bitmapLost macroIdx row word s).mem.bytes (bitmapLost macroIdx row word s).mem.written := by
  unfold bitmapLost
  cases Config.bitmapWord macroIdx row word with
  | none => exact hs
  | some p => exact mark_sound p 64 _ hs

@[simp] theorem haltEffects_frame (h : Option Halt) (s : State) :
    (haltEffects h s).sys = s.sys ∧ (haltEffects h s).pwr = s.pwr ∧ (haltEffects h s).conf = s.conf ∧ (haltEffects h s).ing = s.ing ∧ (haltEffects h s).pix = s.pix ∧ (haltEffects h s).gz = s.gz ∧ (haltEffects h s).lmp = s.lmp ∧ (haltEffects h s).dmk = s.dmk ∧ (haltEffects h s).od = s.od ∧ (haltEffects h s).tmg = s.tmg ∧ (haltEffects h s).pnl = s.pnl ∧ (haltEffects h s).twl = s.twl ∧ (haltEffects h s).cue = s.cue ∧ (haltEffects h s).cal = s.cal ∧ (haltEffects h s).gng = s.gng ∧ (haltEffects h s).flt = s.flt ∧ (haltEffects h s).thm = s.thm ∧ (haltEffects h s).bst = s.bst ∧ (haltEffects h s).pending = s.pending ∧ (haltEffects h s).mem.bytes = s.mem.bytes ∧ (haltEffects h s).mem.written = s.mem.written ∧ (haltEffects h s).sec.fuses = s.sec.fuses ∧ (haltEffects h s).hif.power = s.hif.power ∧ (haltEffects h s).hif.bme0 = s.hif.bme0 ∧ (haltEffects h s).hif.bme1 = s.hif.bme1 ∧ (haltEffects h s).hif.d3hot = s.hif.d3hot ∧ (haltEffects h s).rings.sqs = s.rings.sqs := by
  unfold haltEffects
  (repeat' split) <;> (try simp)

@[simp] theorem memCopy_frame (raw : Bytes) (data : Rd) (s : State) :
    (afterTransfer s (memCopy raw data s)).sys = s.sys ∧ (afterTransfer s (memCopy raw data s)).pwr = s.pwr ∧ (afterTransfer s (memCopy raw data s)).conf = s.conf ∧ (afterTransfer s (memCopy raw data s)).ing = s.ing ∧ (afterTransfer s (memCopy raw data s)).pix = s.pix ∧ (afterTransfer s (memCopy raw data s)).gz = s.gz ∧ (afterTransfer s (memCopy raw data s)).lmp = s.lmp ∧ (afterTransfer s (memCopy raw data s)).dmk = s.dmk ∧ (afterTransfer s (memCopy raw data s)).od = s.od ∧ (afterTransfer s (memCopy raw data s)).tmg = s.tmg ∧ (afterTransfer s (memCopy raw data s)).pnl = s.pnl ∧ (afterTransfer s (memCopy raw data s)).twl = s.twl ∧ (afterTransfer s (memCopy raw data s)).cue = s.cue ∧ (afterTransfer s (memCopy raw data s)).cal = s.cal ∧ (afterTransfer s (memCopy raw data s)).gng = s.gng ∧ (afterTransfer s (memCopy raw data s)).flt = s.flt ∧ (afterTransfer s (memCopy raw data s)).thm = s.thm ∧ (afterTransfer s (memCopy raw data s)).bst = s.bst ∧ (afterTransfer s (memCopy raw data s)).pending = s.pending := by
  unfold memCopy; simp only [afterTransfer_ite, afterTransfer_bad, afterTransfer_ran]; simp

@[simp] theorem memCopy_sound (raw : Bytes) (data : Rd) (s : State) (hs : PagesSound s.mem.bytes s.mem.written) :
    PagesSound (afterTransfer s (memCopy raw data s)).mem.bytes (afterTransfer s (memCopy raw data s)).mem.written := by
  unfold memCopy; simp only [afterTransfer_ite, afterTransfer_bad, afterTransfer_ran]
  repeat' (first | exact hs | apply ite_state_sound)
  simp only [haltEffects_frame]
  repeat' (first | exact hs | apply ite_state_sound | exact writeMem_sound _ _ _ hs)

@[simp] theorem fillMem_frame (a n pattern : Nat) (s : State) :
    (fillMem a n pattern s).sys = s.sys ∧ (fillMem a n pattern s).pwr = s.pwr ∧ (fillMem a n pattern s).hif = s.hif ∧ (fillMem a n pattern s).rings = s.rings ∧ (fillMem a n pattern s).conf = s.conf ∧ (fillMem a n pattern s).ing = s.ing ∧ (fillMem a n pattern s).pix = s.pix ∧ (fillMem a n pattern s).gz = s.gz ∧ (fillMem a n pattern s).lmp = s.lmp ∧ (fillMem a n pattern s).dmk = s.dmk ∧ (fillMem a n pattern s).od = s.od ∧ (fillMem a n pattern s).tmg = s.tmg ∧ (fillMem a n pattern s).pnl = s.pnl ∧ (fillMem a n pattern s).twl = s.twl ∧ (fillMem a n pattern s).cue = s.cue ∧ (fillMem a n pattern s).lin = s.lin ∧ (fillMem a n pattern s).cal = s.cal ∧ (fillMem a n pattern s).gng = s.gng ∧ (fillMem a n pattern s).sec = s.sec ∧ (fillMem a n pattern s).flt = s.flt ∧ (fillMem a n pattern s).thm = s.thm ∧ (fillMem a n pattern s).trc = s.trc ∧ (fillMem a n pattern s).bst = s.bst ∧ (fillMem a n pattern s).out = s.out ∧ (fillMem a n pattern s).free = s.free ∧ (fillMem a n pattern s).pending = s.pending := by
  unfold fillMem
  (try dsimp only)
  (repeat' split) <;> (try simp)

@[simp] theorem fillMem_sound (a n pattern : Nat) (s : State) (hs : PagesSound s.mem.bytes s.mem.written) :
    PagesSound (fillMem a n pattern s).mem.bytes (fillMem a n pattern s).mem.written := by
  unfold fillMem
  (try dsimp only)
  (repeat' split) <;> (repeat' (first | assumption | with_reducible apply writeMem_sound | with_reducible apply writeMemOf_sound | with_reducible apply clearPages_sound | with_reducible apply empty_sound | with_reducible apply forAll_sound | with_reducible apply foldl_sound | (intro _) | split | simp))

@[simp] theorem memFill_frame (raw : Bytes) (s : State) :
    (afterTransfer s (memFill raw s)).sys = s.sys ∧ (afterTransfer s (memFill raw s)).pwr = s.pwr ∧ (afterTransfer s (memFill raw s)).conf = s.conf ∧ (afterTransfer s (memFill raw s)).ing = s.ing ∧ (afterTransfer s (memFill raw s)).pix = s.pix ∧ (afterTransfer s (memFill raw s)).gz = s.gz ∧ (afterTransfer s (memFill raw s)).lmp = s.lmp ∧ (afterTransfer s (memFill raw s)).dmk = s.dmk ∧ (afterTransfer s (memFill raw s)).od = s.od ∧ (afterTransfer s (memFill raw s)).tmg = s.tmg ∧ (afterTransfer s (memFill raw s)).pnl = s.pnl ∧ (afterTransfer s (memFill raw s)).twl = s.twl ∧ (afterTransfer s (memFill raw s)).cue = s.cue ∧ (afterTransfer s (memFill raw s)).cal = s.cal ∧ (afterTransfer s (memFill raw s)).gng = s.gng ∧ (afterTransfer s (memFill raw s)).flt = s.flt ∧ (afterTransfer s (memFill raw s)).thm = s.thm ∧ (afterTransfer s (memFill raw s)).bst = s.bst ∧ (afterTransfer s (memFill raw s)).pending = s.pending ∧ (afterTransfer s (memFill raw s)).sec.fuses = s.sec.fuses ∧ (afterTransfer s (memFill raw s)).hif.power = s.hif.power ∧ (afterTransfer s (memFill raw s)).hif.bme0 = s.hif.bme0 ∧ (afterTransfer s (memFill raw s)).hif.bme1 = s.hif.bme1 ∧ (afterTransfer s (memFill raw s)).hif.d3hot = s.hif.d3hot ∧ (afterTransfer s (memFill raw s)).rings.sqs = s.rings.sqs := by
  unfold memFill; dsimp only; (repeat' split) <;> simp [afterTransfer]

@[simp] theorem memFill_sound (raw : Bytes) (s : State) (hs : PagesSound s.mem.bytes s.mem.written) :
    PagesSound (afterTransfer s (memFill raw s)).mem.bytes (afterTransfer s (memFill raw s)).mem.written := by
  unfold memFill; simp only [afterTransfer_ite, afterTransfer_bad, afterTransfer_ran]; (repeat' split) <;> (repeat' (first | assumption | with_reducible apply fillMem_sound | with_reducible apply writeMemOf_sound | with_reducible apply clearPages_sound | with_reducible apply empty_sound | with_reducible apply forAll_sound | with_reducible apply foldl_sound | (intro _) | split | simp))

@[simp] theorem endTransfer_frame (sq : Nat) (r : Running) (region : Option (List Nat × BitVec 64)) (x : Transfer) (s : State) :
    (endTransfer sq r region x s).sys = (afterTransfer s x).sys ∧ (endTransfer sq r region x s).pwr = (afterTransfer s x).pwr ∧ (endTransfer sq r region x s).conf = (afterTransfer s x).conf ∧ (endTransfer sq r region x s).ing = (afterTransfer s x).ing ∧ (endTransfer sq r region x s).pix = (afterTransfer s x).pix ∧ (endTransfer sq r region x s).gz = (afterTransfer s x).gz ∧ (endTransfer sq r region x s).lmp = (afterTransfer s x).lmp ∧ (endTransfer sq r region x s).dmk = (afterTransfer s x).dmk ∧ (endTransfer sq r region x s).od = (afterTransfer s x).od ∧ (endTransfer sq r region x s).tmg = (afterTransfer s x).tmg ∧ (endTransfer sq r region x s).pnl = (afterTransfer s x).pnl ∧ (endTransfer sq r region x s).twl = (afterTransfer s x).twl ∧ (endTransfer sq r region x s).mem = (afterTransfer s x).mem ∧ (endTransfer sq r region x s).lin = (afterTransfer s x).lin ∧ (endTransfer sq r region x s).cal = (afterTransfer s x).cal ∧ (endTransfer sq r region x s).gng = (afterTransfer s x).gng ∧ (endTransfer sq r region x s).sec = (afterTransfer s x).sec ∧ (endTransfer sq r region x s).flt = (afterTransfer s x).flt ∧ (endTransfer sq r region x s).thm = (afterTransfer s x).thm ∧ (endTransfer sq r region x s).bst = (afterTransfer s x).bst ∧ (endTransfer sq r region x s).pending = (afterTransfer s x).pending ∧ (endTransfer sq r region x s).hif.power = (afterTransfer s x).hif.power ∧ (endTransfer sq r region x s).hif.bme0 = (afterTransfer s x).hif.bme0 ∧ (endTransfer sq r region x s).hif.bme1 = (afterTransfer s x).hif.bme1 ∧ (endTransfer sq r region x s).hif.d3hot = (afterTransfer s x).hif.d3hot := by
  unfold endTransfer; (repeat' split) <;> simp [afterTransfer]

@[simp] theorem endUpdate_frame (n : Nat) (s : State) :
    (endUpdate n s).sys = s.sys ∧ (endUpdate n s).pwr = s.pwr ∧ (endUpdate n s).hif = s.hif ∧ (endUpdate n s).rings = s.rings ∧ (endUpdate n s).conf = s.conf ∧ (endUpdate n s).ing = s.ing ∧ (endUpdate n s).pix = s.pix ∧ (endUpdate n s).gz = s.gz ∧ (endUpdate n s).lmp = s.lmp ∧ (endUpdate n s).dmk = s.dmk ∧ (endUpdate n s).od = s.od ∧ (endUpdate n s).tmg = s.tmg ∧ (endUpdate n s).pnl = s.pnl ∧ (endUpdate n s).twl = s.twl ∧ (endUpdate n s).mem = s.mem ∧ (endUpdate n s).lin = s.lin ∧ (endUpdate n s).cal = s.cal ∧ (endUpdate n s).gng = s.gng ∧ (endUpdate n s).sec = s.sec ∧ (endUpdate n s).flt = s.flt ∧ (endUpdate n s).thm = s.thm ∧ (endUpdate n s).trc = s.trc ∧ (endUpdate n s).bst = s.bst ∧ (endUpdate n s).out = s.out ∧ (endUpdate n s).free = s.free ∧ (endUpdate n s).pending = s.pending := by
  unfold endUpdate
  (try dsimp only)
  (repeat' split) <;> (try simp)

@[simp] theorem untrackUpdates_frame (s : State) :
    (untrackUpdates s).sys = s.sys ∧ (untrackUpdates s).pwr = s.pwr ∧ (untrackUpdates s).hif = s.hif ∧ (untrackUpdates s).rings = s.rings ∧ (untrackUpdates s).conf = s.conf ∧ (untrackUpdates s).ing = s.ing ∧ (untrackUpdates s).pix = s.pix ∧ (untrackUpdates s).gz = s.gz ∧ (untrackUpdates s).lmp = s.lmp ∧ (untrackUpdates s).dmk = s.dmk ∧ (untrackUpdates s).od = s.od ∧ (untrackUpdates s).tmg = s.tmg ∧ (untrackUpdates s).pnl = s.pnl ∧ (untrackUpdates s).twl = s.twl ∧ (untrackUpdates s).mem = s.mem ∧ (untrackUpdates s).lin = s.lin ∧ (untrackUpdates s).cal = s.cal ∧ (untrackUpdates s).gng = s.gng ∧ (untrackUpdates s).sec = s.sec ∧ (untrackUpdates s).flt = s.flt ∧ (untrackUpdates s).thm = s.thm ∧ (untrackUpdates s).trc = s.trc ∧ (untrackUpdates s).bst = s.bst ∧ (untrackUpdates s).out = s.out ∧ (untrackUpdates s).free = s.free ∧ (untrackUpdates s).pending = s.pending := by
  unfold untrackUpdates
  (try dsimp only)
  (repeat' split) <;> (try simp)

@[simp] theorem badSource_frame (src len : Nat) (s : State) :
    (badSource src len s).sys = s.sys ∧ (badSource src len s).pwr = s.pwr ∧ (badSource src len s).conf = s.conf ∧ (badSource src len s).ing = s.ing ∧ (badSource src len s).pix = s.pix ∧ (badSource src len s).gz = s.gz ∧ (badSource src len s).lmp = s.lmp ∧ (badSource src len s).dmk = s.dmk ∧ (badSource src len s).od = s.od ∧ (badSource src len s).tmg = s.tmg ∧ (badSource src len s).pnl = s.pnl ∧ (badSource src len s).twl = s.twl ∧ (badSource src len s).cue = s.cue ∧ (badSource src len s).cal = s.cal ∧ (badSource src len s).gng = s.gng ∧ (badSource src len s).sec = s.sec ∧ (badSource src len s).flt = s.flt ∧ (badSource src len s).thm = s.thm ∧ (badSource src len s).trc = s.trc ∧ (badSource src len s).bst = s.bst ∧ (badSource src len s).pending = s.pending ∧ (badSource src len s).mem.bytes = s.mem.bytes ∧ (badSource src len s).mem.written = s.mem.written ∧ (badSource src len s).hif.power = s.hif.power ∧ (badSource src len s).hif.bme0 = s.hif.bme0 ∧ (badSource src len s).hif.bme1 = s.hif.bme1 ∧ (badSource src len s).hif.d3hot = s.hif.d3hot ∧ (badSource src len s).rings.sqs = s.rings.sqs := by
  unfold badSource
  (repeat' split) <;> (try simp)

end Sys2Proof.Laws
end

