-- ==== Sys2Proof/Laws/Commands.lean ====
section
/-!
SUPPORT. How a command ends: its completion record, the events it posts, and what those leave alone.
-/
namespace Sys2Proof.Laws
open Sys2Proof Sys2Proof.Machine

/-- A ring's entry is read through the map of its kind alone. -/
theorem sqOf_congr {r r' : Rings} (h : r'.sqs = r.sqs) (fn : Fn) (n : Nat) : sqOf r' fn n = sqOf r fn n := by simp [sqOf, h]
theorem cqAt_congr {r r' : Rings} (h : r'.cqs = r.cqs) (k : Nat) : cqAt r' k = cqAt r k := by simp [cqAt, h]

@[simp] theorem drainCq_eqs (k n : Nat) (x : Sent) :
    (drainCq k n x).rings.eq0 = x.rings.eq0 ∧ (drainCq k n x).rings.eq1 = x.rings.eq1 := by
  induction n generalizing x with
  | zero => simp [drainCq]
  | succ n ih =>
    have hw : (writeRecord k x).rings.eq0 = x.rings.eq0 ∧ (writeRecord k x).rings.eq1 = x.rings.eq1 := by
      unfold writeRecord signalCq; dsimp only; (repeat' split) <;> simp
    unfold drainCq; dsimp only; split <;> simp [ih, hw]

@[simp] theorem flushCq_eqs (k : Nat) (s : State) :
    (flushCq k s).rings.eq0 = s.rings.eq0 ∧ (flushCq k s).rings.eq1 = s.rings.eq1 := by
  unfold flushCq; split <;> simp
@[simp] theorem postRec_eqs (k : Nat) (r : Rec) (s : State) :
    (postRec k r s).rings.eq0 = s.rings.eq0 ∧ (postRec k r s).rings.eq1 = s.rings.eq1 := by simp [postRec]
@[simp] theorem finish_eqs (fn : Fn) (n : Nat) (r : Running) (st : Nat) (res : List Nat) (s : State) :
    (finish fn n r st res s).rings.eq0 = s.rings.eq0 ∧ (finish fn n r st res s).rings.eq1 = s.rings.eq1 := by simp [finish]
@[simp] theorem postTo_cqs (fn : Fn) (v : Ev) (s : State) : (postTo fn v s).rings.cqs = s.rings.cqs := by
  unfold postTo eventWake; (repeat' split) <;> simp
@[simp] theorem post_cqs (c v : Nat) (p : List Nat) (s : State) : (post c v p s).rings.cqs = s.rings.cqs := by simp [post]
@[simp] theorem postIf_cqs (b : Bool) (c v : Nat) (p : List Nat) (s : State) : (postIf b c v p s).rings.cqs = s.rings.cqs := by
  unfold postIf; split <;> simp

/-! ## What has been sent stays sent -/

section
variable {l : List Output}
theorem signalCq_out {k : Nat} {x : Sent} (h : l <:+ x.out) : l <:+ (signalCq k x).out := by
  unfold signalCq; dsimp only; (repeat' split) <;> first | exact h | exact h.trans (List.suffix_cons _ _)
theorem signalEq_out {fn : Fn} {x : Sent} (h : l <:+ x.out) : l <:+ (signalEq fn x).out := by
  unfold signalEq; dsimp only; (repeat' split) <;> first | exact h | exact h.trans (List.suffix_cons _ _)
theorem writeRecord_out {k : Nat} {x : Sent} (h : l <:+ x.out) : l <:+ (writeRecord k x).out := by
  unfold writeRecord; dsimp only; split
  · exact h
  · split
    · exact signalCq_out (h.trans (List.suffix_append _ _))
    · exact h.trans (List.suffix_append _ _)
theorem drainCq_out {k n : Nat} {x : Sent} (h : l <:+ x.out) : l <:+ (drainCq k n x).out := by
  induction n generalizing x with
  | zero => exact h
  | succ n ih =>
    unfold drainCq; dsimp only; split
    · exact ih (writeRecord_out h)
    · exact h
theorem traceRing_out {b : Bool} {r : TraceRec} {x : Sent} (h : l <:+ x.out) : l <:+ (traceRing b r x).out := by
  unfold traceRing; dsimp only; (repeat' split) <;> first | exact h | exact h.trans (List.suffix_append _ _)
theorem withSent_out {s : State} {x : Sent} (h : l <:+ x.out) : l <:+ (withSent s x).out := h
theorem sendTrace_out {r : TraceRec} {s : State} (h : l <:+ s.out) : l <:+ (sendTrace r s).out := by
  unfold sendTrace
  dsimp only
  generalize (if decide (r.level = 2) = true then s.rings.t2 else s.rings.t1) = e
  have key : ∀ s1 : State, l <:+ s1.out → l <:+ (if (!e.enable) = true then s1 else if canSend s .pf1 = true then
      withSent s1 (traceRing (decide (r.level = 2)) r (sentOf s1)) else
      { s1 with rings := { s1.rings with traceWait := s1.rings.traceWait ++ [r] } }).out := by
    intro s1 h1
    split
    · exact h1
    · split
      · exact withSent_out (traceRing_out h1)
      · exact h1
  apply key
  split
  · exact h.trans (List.suffix_append _ _)
  · exact h
theorem makeTrace_out {v src p : Nat} {s : State} (h : l <:+ s.out) : l <:+ (makeTrace v src p s).out := by
  unfold makeTrace; dsimp only; split
  · split
    · exact sendTrace_out h
    · exact h
  · exact h
theorem trace1_out {src : Nat} {s : State} (h : l <:+ s.out) : l <:+ (trace1 src s).out := by
  unfold trace1; exact makeTrace_out h
theorem flushCq_out {k : Nat} {s : State} (h : l <:+ s.out) : l <:+ (flushCq k s).out := by
  unfold flushCq; split
  · exact withSent_out (drainCq_out h)
  · exact h
theorem postRec_out {k : Nat} {r : Rec} {s : State} (h : l <:+ s.out) : l <:+ (postRec k r s).out := by
  unfold postRec; exact flushCq_out (trace1_out h)
theorem finish_out {fn : Fn} {n : Nat} {r : Running} {st : Nat} {res : List Nat} {s : State} (h : l <:+ s.out) :
    l <:+ (finish fn n r st res s).out := by
  unfold finish; exact postRec_out (s := setRunning fn n none s) h
theorem writeEvent_out {fn : Fn} {v : Ev} {x : Sent} (h : l <:+ x.out) : l <:+ (writeEvent fn v x).out := by
  unfold writeEvent; dsimp only; split
  · exact h
  · split
    · exact signalEq_out (h.trans (List.suffix_append _ _))
    · exact h.trans (List.suffix_append _ _)
theorem postTo_out {fn : Fn} {v : Ev} {s : State} (h : l <:+ s.out) : l <:+ (postTo fn v s).out := by
  unfold postTo; split
  · exact h
  · split
    · exact withSent_out (writeEvent_out h)
    · refine withSent_out ?_
      unfold eventWake; (repeat' split) <;> first | exact h | exact h.trans (List.suffix_cons _ _)
theorem post_out {c v : Nat} {p : List Nat} {s : State} (h : l <:+ s.out) : l <:+ (post c v p s).out := by
  unfold post; exact postTo_out h
theorem emit_suffix {o : List Output} {s : State} (h : l <:+ s.out) : l <:+ (emit o s).out := h.trans (List.suffix_append _ _)
end

/-! ## A ring's command -/

/-- Reading one ring's running command after it is set. -/
@[simp] theorem setRunning_running (fn : Fn) (n : Nat) (r : Option Running) (s : State) :
    (sqOf (setRunning fn n r s).rings fn n).running = r := by simp [setRunning]
@[simp] theorem holdRunning_running (fn : Fn) (n : Nat) (r : Running) (a : Nat) (s : State) :
    (sqOf (holdRunning fn n r a s).rings fn n).running = some { r with waiting := true, arg := a } := by simp [holdRunning]

/-- A record posted to a disabled completion ring stays in its store. -/
theorem postRec_held (k : Nat) (r : Rec) {s : State} (h : (cqAt s.rings k).enable = false) :
    (cqAt (postRec k r s).rings k).store = (cqAt s.rings k).store ++ [r] := by
  have hd : ∀ (n : Nat) (x : Sent), (cqAt x.rings k).enable = false → drainCq k n x = x := by
    intro n x hx; cases n <;> simp [drainCq, hx]
  simp only [postRec, flushCq]
  have e : ∀ (t : State), cqAt (trace1 0 t).rings k = cqAt t.rings k := fun t => cqAt_congr (by simp) k
  split
  · rw [hd _ _ (by simp [e, h])]; simp [e]
  · simp [e]

/-- A command that finishes has completed. -/
theorem finish_completed {s u : State} (fn : Fn) (n : Nat) (r : Running) (st : Nat) (res : List Nat)
    (h : u.rings.cqs = s.rings.cqs) : Completed s (finish fn n r st res u) fn n r st res := by
  refine ⟨?_, ?_⟩
  · simp only [finish]
    rw [sqOf_congr (r := (setRunning fn n none u).rings) (by simp)]; simp
  · intro he
    have e : ∀ k, cqAt (setRunning fn n none u).rings k = cqAt s.rings k := fun k => cqAt_congr (by simp [h]) k
    simp only [finish]
    rw [postRec_held _ _ (by rw [e, he]), e]; rfl

/-- A ring whose command finishes runs nothing. -/
@[simp] theorem finish_running (fn : Fn) (n : Nat) (r : Running) (st : Nat) (res : List Nat) (s : State) :
    (sqOf (finish fn n r st res s).rings fn n).running = none := (finish_completed (s := s) (u := s) fn n r st res rfl).1

/-- A command that reads host memory, with the read answered. -/
theorem runRead_ready {fn : Fn} {n op : Nat} {d : Rd} {f : Running → State → State} {s : State} {r : Running}
    (hb : busMaster s fn = true) (h : ready s fn n op = some r) (hd : d.ok = true) :
    runRead fn n op d f s = .next (f r s) := by simp [runRead, runHost, hb, runRing, h, reportRead, hd]
/-- A command that reads host memory, whatever the read answers. -/
theorem runRead_any {fn : Fn} {n op : Nat} {d : Rd} {f : Running → State → State} {s : State} {r : Running}
    (hb : busMaster s fn = true) (h : ready s fn n op = some r) :
    runRead fn n op d f s = .next (f r (if readsHost r.raw then reportRead fn d s else s)) := by
  simp [runRead, runHost, hb, runRing, h]
/-- A command that needs no access to host memory runs without Bus Master Enable. -/
theorem runRead_module {fn : Fn} {n op : Nat} {d : Rd} {f : Running → State → State} {s : State} {r : Running}
    (h : ready s fn n op = some r) (hu : usesHost r.raw = false) : runRead fn n op d f s = .next (f r s) := by
  have hr : readsHost r.raw = false := by simp [usesHost] at hu; exact hu.1
  simp [runRead, runHost, runRing, h, hu, hr]
/-- A command that accesses host memory, with Bus Master Enable. -/
theorem runHost_ready {fn : Fn} {n op : Nat} {f : Running → State → State} {s : State} {r : Running}
    (hb : busMaster s fn = true) (h : ready s fn n op = some r) : runHost fn n op f s = .next (f r s) := by
  simp [runHost, hb, runRing, h]

/-- What happens after a command completes and leaves its rings alone does not undo that. -/
theorem Completed.after {s t u : State} {fn : Fn} {n : Nat} {r : Running} {st : Nat} {res : List Nat}
    (h : Completed s t fn n r st res) (hs : u.rings.sqs = t.rings.sqs) (hc : u.rings.cqs = t.rings.cqs) :
    Completed s u fn n r st res :=
  ⟨by rw [sqOf_congr hs]; exact h.1, fun he => by rw [cqAt_congr hc]; exact h.2 he⟩

/-- An event posted while the event ring cannot be written is held last. -/
theorem post_held (c v : Nat) (p : List Nat) {s : State} (hp : s.pwr.fall = .idle) (h : eventsFlow s .pf0 = false)
    (hl : (eqOf s.rings .pf0).pend.length < 256) :
    (eqOf (post c v p s).rings .pf0).pend = (eqOf s.rings .pf0).pend ++ [event s c v p] := by
  simp only [post, postTo, hp, ne_eq, not_true_eq_false, h, Bool.false_eq_true, if_false, sentOf, holdEvent, hl, if_true, eventWake]
  (repeat' split) <;> simp [event]

theorem posts_post {s u : State} (c v : Nat) (p : List Nat) (hq : u.pwr.fall = s.pwr.fall) (hf : eventsFlow u .pf0 = eventsFlow s .pf0)
    (he : eqOf u.rings .pf0 = eqOf s.rings .pf0) (hy : u.sys.fe = s.sys.fe) : Posts s (post c v p u) [event s c v p] := by
  intro hp h hl
  rw [post_held c v p (by rw [hq, hp]) (by rw [hf, h]) (by rw [he]; simp at hl; omega), he]
  simp [event, hy]

theorem posts_nil {s t : State} (h : eqOf t.rings .pf0 = eqOf s.rings .pf0) : Posts s t [] := by
  intro _ _ _; simp [h]

/-! ## What a flush changes in a ring -/

/-- While its function may not send, flushing a completion ring changes nothing (R440). -/
theorem flushCq_off {k : Nat} {s : State} (h : canSend s (fnOfKey k) = false) : flushCq k s = s := by simp [flushCq, h]
/-- While events cannot be written, flushing an event ring changes nothing (R441). -/
theorem flushEq_off {fn : Fn} {s : State} (h : eventsFlow s fn = false) : flushEq fn s = s := by simp [flushEq, h]
/-- Events do not flow while the function may not send. -/
theorem eventsFlow_off {fn : Fn} {s : State} (h : canSend s fn = false) : eventsFlow s fn = false := by simp [eventsFlow, h]

@[simp] theorem flushCq_cq (k j : Nat) (s : State) : (cqAt (flushCq k s).rings j).enable = (cqAt s.rings j).enable ∧
    (cqAt (flushCq k s).rings j).head = (cqAt s.rings j).head ∧
    (cqAt (flushCq k s).rings j).reserved = (cqAt s.rings j).reserved := by
  unfold flushCq; split <;> simp
/-- Flushing one completion ring leaves every other one alone. -/
theorem flushCq_other (k : Nat) {j : Nat} (hj : j ≠ k) (s : State) : cqAt (flushCq k s).rings j = cqAt s.rings j := by
  unfold flushCq; split
  · simp [drainCq_other _ _ hj]
  · rfl
@[simp] theorem flushEq_eq (fn : Fn) (s : State) : (eqOf (flushEq fn s).rings fn).enable = (eqOf s.rings fn).enable ∧
    (eqOf (flushEq fn s).rings fn).head = (eqOf s.rings fn).head ∧ (flushEq fn s).rings.cqs = s.rings.cqs := by
  unfold flushEq; split <;> simp

/-- An event posted on a ring that cannot be written is held last (R441). -/
theorem postTo_held {fn : Fn} (v : Ev) {s : State} (hp : s.pwr.fall = .idle) (h : eventsFlow s fn = false) (hl : (eqOf s.rings fn).pend.length < 256) :
    (eqOf (postTo fn v s).rings fn).pend = (eqOf s.rings fn).pend ++ [v] := by
  simp only [postTo, hp, ne_eq, not_true_eq_false, h, Bool.false_eq_true, if_false, sentOf, holdEvent, hl, if_true, eventWake]
  (repeat' split) <;> simp

/-- Candidates that complete on one disabled completion ring leave their records in its store, in order (R76, R86). -/
theorem forAll_postRec_held (k : Nat) (f : Cand → Rec) (l : List Cand) (s : State) (h : ∀ c ∈ l, c.cq = k)
    (he : (cqAt s.rings k).enable = false) :
    (cqAt (forAll l (fun c s => postRec c.cq (f c) s) s).rings k).store = (cqAt s.rings k).store ++ l.map f := by
  induction l generalizing s with
  | nil => simp [forAll]
  | cons c l ih =>
    have hc : c.cq = k := h c (by simp)
    have hen : (cqAt (postRec c.cq (f c) s).rings k).enable = false := by
      rw [hc]; simp only [postRec, flushCq_cq]
      rw [cqAt_congr (r := (setCq k { cqAt s.rings k with store := (cqAt s.rings k).store ++ [f c], reserved := (cqAt s.rings k).reserved - 1 } s.rings)) (by simp)]
      simpa using he
    show (cqAt (forAll l (fun c s => postRec c.cq (f c) s) (postRec c.cq (f c) s)).rings k).store = _
    rw [ih _ (fun x hx => h x (by simp [hx])) hen, hc, postRec_held k _ he]; simp

end Sys2Proof.Laws
end

