-- ==== Sys2Proof/Laws/FramesB.lean ====
section
/-!
SUPPORT. What each function of a group leaves alone: ingest, cues, Twill, the lamp links, panel power, calibration, the registers as read, and Gingham. One lemma a function: every part of the state that it does not
touch, and the fields of a touched part that it keeps; `_sound` says that it keeps module memory sound.
-/
namespace Sys2Proof.Laws
open Sys2Proof.Machine

@[simp] theorem postReleases_frame (s : State) :
    (postReleases s).sys = s.sys ∧ (postReleases s).pwr = s.pwr ∧ (postReleases s).conf = s.conf ∧ (postReleases s).pix = s.pix ∧ (postReleases s).gz = s.gz ∧ (postReleases s).lmp = s.lmp ∧ (postReleases s).dmk = s.dmk ∧ (postReleases s).od = s.od ∧ (postReleases s).tmg = s.tmg ∧ (postReleases s).pnl = s.pnl ∧ (postReleases s).twl = s.twl ∧ (postReleases s).cue = s.cue ∧ (postReleases s).mem = s.mem ∧ (postReleases s).lin = s.lin ∧ (postReleases s).cal = s.cal ∧ (postReleases s).gng = s.gng ∧ (postReleases s).sec = s.sec ∧ (postReleases s).flt = s.flt ∧ (postReleases s).thm = s.thm ∧ (postReleases s).bst = s.bst ∧ (postReleases s).pending = s.pending ∧ (postReleases s).hif.power = s.hif.power ∧ (postReleases s).hif.d3hot = s.hif.d3hot ∧ (postReleases s).rings.sqs = s.rings.sqs := by
  unfold postReleases
  (try dsimp only)
  (repeat' split) <;> (try simp)

@[simp] theorem postDone_frame (s : State) :
    (postDone s).sys = s.sys ∧ (postDone s).pwr = s.pwr ∧ (postDone s).conf = s.conf ∧ (postDone s).pix = s.pix ∧ (postDone s).gz = s.gz ∧ (postDone s).lmp = s.lmp ∧ (postDone s).dmk = s.dmk ∧ (postDone s).od = s.od ∧ (postDone s).tmg = s.tmg ∧ (postDone s).pnl = s.pnl ∧ (postDone s).twl = s.twl ∧ (postDone s).cue = s.cue ∧ (postDone s).mem = s.mem ∧ (postDone s).lin = s.lin ∧ (postDone s).cal = s.cal ∧ (postDone s).gng = s.gng ∧ (postDone s).sec = s.sec ∧ (postDone s).flt = s.flt ∧ (postDone s).thm = s.thm ∧ (postDone s).bst = s.bst ∧ (postDone s).pending = s.pending ∧ (postDone s).hif.power = s.hif.power ∧ (postDone s).hif.bme0 = s.hif.bme0 ∧ (postDone s).hif.bme1 = s.hif.bme1 ∧ (postDone s).hif.d3hot = s.hif.d3hot ∧ (postDone s).rings.sqs = s.rings.sqs := by
  unfold postDone
  (try simp)
  (repeat' split) <;> (try simp)

@[simp] theorem lastScanKnown_frame (s : State) :
    (lastScanKnown s).sys = s.sys ∧ (lastScanKnown s).pwr = s.pwr ∧ (lastScanKnown s).conf = s.conf ∧ (lastScanKnown s).pix = s.pix ∧ (lastScanKnown s).gz = s.gz ∧ (lastScanKnown s).lmp = s.lmp ∧ (lastScanKnown s).dmk = s.dmk ∧ (lastScanKnown s).od = s.od ∧ (lastScanKnown s).tmg = s.tmg ∧ (lastScanKnown s).pnl = s.pnl ∧ (lastScanKnown s).twl = s.twl ∧ (lastScanKnown s).cue = s.cue ∧ (lastScanKnown s).mem = s.mem ∧ (lastScanKnown s).lin = s.lin ∧ (lastScanKnown s).cal = s.cal ∧ (lastScanKnown s).gng = s.gng ∧ (lastScanKnown s).sec = s.sec ∧ (lastScanKnown s).flt = s.flt ∧ (lastScanKnown s).thm = s.thm ∧ (lastScanKnown s).bst = s.bst ∧ (lastScanKnown s).pending = s.pending ∧ (lastScanKnown s).hif.power = s.hif.power ∧ (lastScanKnown s).hif.bme0 = s.hif.bme0 ∧ (lastScanKnown s).hif.bme1 = s.hif.bme1 ∧ (lastScanKnown s).hif.d3hot = s.hif.d3hot ∧ (lastScanKnown s).rings.sqs = s.rings.sqs := by
  unfold lastScanKnown
  (try dsimp only)
  (repeat' split) <;> (try simp)

@[simp] theorem issueReads_frame (p : Nat × Nat × Layer) (f : Frame) (s : State) :
    (issueReads p f s).sys = s.sys ∧ (issueReads p f s).pwr = s.pwr ∧ (issueReads p f s).hif = s.hif ∧ (issueReads p f s).rings = s.rings ∧ (issueReads p f s).conf = s.conf ∧ (issueReads p f s).ing = s.ing ∧ (issueReads p f s).pix = s.pix ∧ (issueReads p f s).gz = s.gz ∧ (issueReads p f s).lmp = s.lmp ∧ (issueReads p f s).dmk = s.dmk ∧ (issueReads p f s).od = s.od ∧ (issueReads p f s).tmg = s.tmg ∧ (issueReads p f s).pnl = s.pnl ∧ (issueReads p f s).twl = s.twl ∧ (issueReads p f s).cue = s.cue ∧ (issueReads p f s).mem = s.mem ∧ (issueReads p f s).lin = s.lin ∧ (issueReads p f s).cal = s.cal ∧ (issueReads p f s).gng = s.gng ∧ (issueReads p f s).sec = s.sec ∧ (issueReads p f s).flt = s.flt ∧ (issueReads p f s).thm = s.thm ∧ (issueReads p f s).trc = s.trc ∧ (issueReads p f s).bst = s.bst ∧ (issueReads p f s).free = s.free ∧ (issueReads p f s).pending = s.pending := by
  unfold issueReads
  (repeat' split) <;> (try simp)

@[simp] theorem beginReads_frame (s : State) :
    (beginReads s).sys = s.sys ∧ (beginReads s).pwr = s.pwr ∧ (beginReads s).hif = s.hif ∧ (beginReads s).rings = s.rings ∧ (beginReads s).conf = s.conf ∧ (beginReads s).pix = s.pix ∧ (beginReads s).gz = s.gz ∧ (beginReads s).lmp = s.lmp ∧ (beginReads s).dmk = s.dmk ∧ (beginReads s).od = s.od ∧ (beginReads s).tmg = s.tmg ∧ (beginReads s).pnl = s.pnl ∧ (beginReads s).twl = s.twl ∧ (beginReads s).cue = s.cue ∧ (beginReads s).mem = s.mem ∧ (beginReads s).lin = s.lin ∧ (beginReads s).cal = s.cal ∧ (beginReads s).gng = s.gng ∧ (beginReads s).sec = s.sec ∧ (beginReads s).flt = s.flt ∧ (beginReads s).thm = s.thm ∧ (beginReads s).trc = s.trc ∧ (beginReads s).bst = s.bst ∧ (beginReads s).free = s.free ∧ (beginReads s).pending = s.pending := by
  unfold beginReads
  (try simp)
  (repeat' split) <;> (try simp)

@[simp] theorem guardSlots_frame (f : Frame) (s : State) :
    (guardSlots f s).sys = s.sys ∧ (guardSlots f s).pwr = s.pwr ∧ (guardSlots f s).hif = s.hif ∧ (guardSlots f s).rings = s.rings ∧ (guardSlots f s).conf = s.conf ∧ (guardSlots f s).pix = s.pix ∧ (guardSlots f s).gz = s.gz ∧ (guardSlots f s).lmp = s.lmp ∧ (guardSlots f s).dmk = s.dmk ∧ (guardSlots f s).od = s.od ∧ (guardSlots f s).tmg = s.tmg ∧ (guardSlots f s).pnl = s.pnl ∧ (guardSlots f s).twl = s.twl ∧ (guardSlots f s).cue = s.cue ∧ (guardSlots f s).lin = s.lin ∧ (guardSlots f s).cal = s.cal ∧ (guardSlots f s).gng = s.gng ∧ (guardSlots f s).sec = s.sec ∧ (guardSlots f s).flt = s.flt ∧ (guardSlots f s).thm = s.thm ∧ (guardSlots f s).trc = s.trc ∧ (guardSlots f s).bst = s.bst ∧ (guardSlots f s).out = s.out ∧ (guardSlots f s).free = s.free ∧ (guardSlots f s).pending = s.pending ∧ (guardSlots f s).mem.bytes = s.mem.bytes ∧ (guardSlots f s).mem.written = s.mem.written := by
  unfold guardSlots
  (try dsimp only)
  (repeat' split) <;> (try simp)

@[simp] theorem guardStaging_frame (f : Frame) (s : State) :
    (guardStaging f s).sys = s.sys ∧ (guardStaging f s).pwr = s.pwr ∧ (guardStaging f s).hif = s.hif ∧ (guardStaging f s).rings = s.rings ∧ (guardStaging f s).conf = s.conf ∧ (guardStaging f s).pix = s.pix ∧ (guardStaging f s).gz = s.gz ∧ (guardStaging f s).lmp = s.lmp ∧ (guardStaging f s).dmk = s.dmk ∧ (guardStaging f s).od = s.od ∧ (guardStaging f s).tmg = s.tmg ∧ (guardStaging f s).pnl = s.pnl ∧ (guardStaging f s).twl = s.twl ∧ (guardStaging f s).cue = s.cue ∧ (guardStaging f s).lin = s.lin ∧ (guardStaging f s).cal = s.cal ∧ (guardStaging f s).gng = s.gng ∧ (guardStaging f s).sec = s.sec ∧ (guardStaging f s).flt = s.flt ∧ (guardStaging f s).thm = s.thm ∧ (guardStaging f s).trc = s.trc ∧ (guardStaging f s).bst = s.bst ∧ (guardStaging f s).out = s.out ∧ (guardStaging f s).free = s.free ∧ (guardStaging f s).pending = s.pending ∧ (guardStaging f s).mem.bytes = s.mem.bytes ∧ (guardStaging f s).mem.written = s.mem.written := by
  unfold guardStaging
  (try dsimp only)
  (repeat' split) <;> (try simp)

@[simp] theorem releaseStaging_frame (s : State) :
    (releaseStaging s).sys = s.sys ∧ (releaseStaging s).pwr = s.pwr ∧ (releaseStaging s).hif = s.hif ∧ (releaseStaging s).rings = s.rings ∧ (releaseStaging s).conf = s.conf ∧ (releaseStaging s).pix = s.pix ∧ (releaseStaging s).gz = s.gz ∧ (releaseStaging s).lmp = s.lmp ∧ (releaseStaging s).dmk = s.dmk ∧ (releaseStaging s).od = s.od ∧ (releaseStaging s).tmg = s.tmg ∧ (releaseStaging s).pnl = s.pnl ∧ (releaseStaging s).twl = s.twl ∧ (releaseStaging s).cue = s.cue ∧ (releaseStaging s).lin = s.lin ∧ (releaseStaging s).cal = s.cal ∧ (releaseStaging s).gng = s.gng ∧ (releaseStaging s).sec = s.sec ∧ (releaseStaging s).flt = s.flt ∧ (releaseStaging s).thm = s.thm ∧ (releaseStaging s).trc = s.trc ∧ (releaseStaging s).bst = s.bst ∧ (releaseStaging s).out = s.out ∧ (releaseStaging s).free = s.free ∧ (releaseStaging s).pending = s.pending := by
  unfold releaseStaging
  (try dsimp only)
  (repeat' split) <;> (try simp)

@[simp] theorem releaseStaging_sound (s : State) (hs : PagesSound s.mem.bytes s.mem.written) :
    PagesSound (releaseStaging s).mem.bytes (releaseStaging s).mem.written := by
  unfold releaseStaging; dsimp only; split
  · exact hs
  · exact releaseFold_sound _ _ hs

@[simp] theorem latchEvents_frame (c : Conf) (f : Frame) (s : State) :
    (latchEvents c f s).sys = s.sys ∧ (latchEvents c f s).pwr = s.pwr ∧ (latchEvents c f s).conf = s.conf ∧ (latchEvents c f s).ing = s.ing ∧ (latchEvents c f s).pix = s.pix ∧ (latchEvents c f s).gz = s.gz ∧ (latchEvents c f s).lmp = s.lmp ∧ (latchEvents c f s).dmk = s.dmk ∧ (latchEvents c f s).od = s.od ∧ (latchEvents c f s).tmg = s.tmg ∧ (latchEvents c f s).pnl = s.pnl ∧ (latchEvents c f s).twl = s.twl ∧ (latchEvents c f s).cue = s.cue ∧ (latchEvents c f s).mem = s.mem ∧ (latchEvents c f s).lin = s.lin ∧ (latchEvents c f s).cal = s.cal ∧ (latchEvents c f s).gng = s.gng ∧ (latchEvents c f s).sec = s.sec ∧ (latchEvents c f s).flt = s.flt ∧ (latchEvents c f s).thm = s.thm ∧ (latchEvents c f s).trc = s.trc ∧ (latchEvents c f s).bst = s.bst ∧ (latchEvents c f s).free = s.free ∧ (latchEvents c f s).pending = s.pending ∧ (latchEvents c f s).hif.power = s.hif.power ∧ (latchEvents c f s).hif.d3hot = s.hif.d3hot ∧ (latchEvents c f s).rings.sqs = s.rings.sqs := by
  unfold latchEvents
  (try simp)
  (repeat' split) <;> (try simp)

@[simp] theorem latchFrame_frame (c : Cand) (d : Bytes) (s : State) :
    (latchFrame c d s).sys = s.sys ∧ (latchFrame c d s).pwr = s.pwr ∧ (latchFrame c d s).conf = s.conf ∧ (latchFrame c d s).pix = s.pix ∧ (latchFrame c d s).gz = s.gz ∧ (latchFrame c d s).lmp = s.lmp ∧ (latchFrame c d s).dmk = s.dmk ∧ (latchFrame c d s).od = s.od ∧ (latchFrame c d s).tmg = s.tmg ∧ (latchFrame c d s).pnl = s.pnl ∧ (latchFrame c d s).twl = s.twl ∧ (latchFrame c d s).cue = s.cue ∧ (latchFrame c d s).lin = s.lin ∧ (latchFrame c d s).cal = s.cal ∧ (latchFrame c d s).gng = s.gng ∧ (latchFrame c d s).flt = s.flt ∧ (latchFrame c d s).thm = s.thm ∧ (latchFrame c d s).bst = s.bst ∧ (latchFrame c d s).pending = s.pending ∧ (latchFrame c d s).mem.bytes = s.mem.bytes ∧ (latchFrame c d s).mem.written = s.mem.written ∧ (latchFrame c d s).sec.fuses = s.sec.fuses ∧ (latchFrame c d s).hif.power = s.hif.power ∧ (latchFrame c d s).hif.d3hot = s.hif.d3hot ∧ (latchFrame c d s).rings.sqs = s.rings.sqs := by
  unfold latchFrame
  (try dsimp only)
  (repeat' split) <;> (try simp)

@[simp] theorem latchPoint_frame (table : Rd) (s : State) :
    (latchPoint table s).sys = s.sys ∧ (latchPoint table s).pwr = s.pwr ∧ (latchPoint table s).conf = s.conf ∧ (latchPoint table s).pix = s.pix ∧ (latchPoint table s).gz = s.gz ∧ (latchPoint table s).lmp = s.lmp ∧ (latchPoint table s).dmk = s.dmk ∧ (latchPoint table s).od = s.od ∧ (latchPoint table s).tmg = s.tmg ∧ (latchPoint table s).pnl = s.pnl ∧ (latchPoint table s).twl = s.twl ∧ (latchPoint table s).cue = s.cue ∧ (latchPoint table s).lin = s.lin ∧ (latchPoint table s).cal = s.cal ∧ (latchPoint table s).gng = s.gng ∧ (latchPoint table s).flt = s.flt ∧ (latchPoint table s).thm = s.thm ∧ (latchPoint table s).bst = s.bst ∧ (latchPoint table s).pending = s.pending ∧ (latchPoint table s).mem.bytes = s.mem.bytes ∧ (latchPoint table s).mem.written = s.mem.written ∧ (latchPoint table s).sec.fuses = s.sec.fuses ∧ (latchPoint table s).hif.power = s.hif.power ∧ (latchPoint table s).hif.d3hot = s.hif.d3hot ∧ (latchPoint table s).rings.sqs = s.rings.sqs := by
  unfold latchPoint
  (try simp)
  (repeat' split) <;> (try simp)

@[simp] theorem dropComing_frame (s : State) :
    (dropComing s).sys = s.sys ∧ (dropComing s).pwr = s.pwr ∧ (dropComing s).conf = s.conf ∧ (dropComing s).pix = s.pix ∧ (dropComing s).gz = s.gz ∧ (dropComing s).lmp = s.lmp ∧ (dropComing s).dmk = s.dmk ∧ (dropComing s).od = s.od ∧ (dropComing s).tmg = s.tmg ∧ (dropComing s).pnl = s.pnl ∧ (dropComing s).twl = s.twl ∧ (dropComing s).cue = s.cue ∧ (dropComing s).mem = s.mem ∧ (dropComing s).lin = s.lin ∧ (dropComing s).cal = s.cal ∧ (dropComing s).gng = s.gng ∧ (dropComing s).sec = s.sec ∧ (dropComing s).flt = s.flt ∧ (dropComing s).thm = s.thm ∧ (dropComing s).bst = s.bst ∧ (dropComing s).pending = s.pending ∧ (dropComing s).hif.power = s.hif.power ∧ (dropComing s).hif.d3hot = s.hif.d3hot ∧ (dropComing s).rings.sqs = s.rings.sqs := by
  unfold dropComing
  (try simp)
  (repeat' split) <;> (try simp)

@[simp] theorem setPush_frame (k : Nat) (p : PushSlot) (s : State) :
    (setPush k p s).sys = s.sys ∧ (setPush k p s).pwr = s.pwr ∧ (setPush k p s).hif = s.hif ∧ (setPush k p s).rings = s.rings ∧ (setPush k p s).conf = s.conf ∧ (setPush k p s).pix = s.pix ∧ (setPush k p s).gz = s.gz ∧ (setPush k p s).lmp = s.lmp ∧ (setPush k p s).dmk = s.dmk ∧ (setPush k p s).od = s.od ∧ (setPush k p s).tmg = s.tmg ∧ (setPush k p s).pnl = s.pnl ∧ (setPush k p s).twl = s.twl ∧ (setPush k p s).cue = s.cue ∧ (setPush k p s).mem = s.mem ∧ (setPush k p s).lin = s.lin ∧ (setPush k p s).cal = s.cal ∧ (setPush k p s).gng = s.gng ∧ (setPush k p s).sec = s.sec ∧ (setPush k p s).flt = s.flt ∧ (setPush k p s).thm = s.thm ∧ (setPush k p s).trc = s.trc ∧ (setPush k p s).bst = s.bst ∧ (setPush k p s).out = s.out ∧ (setPush k p s).free = s.free ∧ (setPush k p s).pending = s.pending := by
  unfold setPush
  (try dsimp only)
  (repeat' split) <;> (try simp)

@[simp] theorem freeSlot_frame (k : Nat) (s : State) :
    (freeSlot k s).sys = s.sys ∧ (freeSlot k s).pwr = s.pwr ∧ (freeSlot k s).hif = s.hif ∧ (freeSlot k s).rings = s.rings ∧ (freeSlot k s).conf = s.conf ∧ (freeSlot k s).pix = s.pix ∧ (freeSlot k s).gz = s.gz ∧ (freeSlot k s).lmp = s.lmp ∧ (freeSlot k s).dmk = s.dmk ∧ (freeSlot k s).od = s.od ∧ (freeSlot k s).tmg = s.tmg ∧ (freeSlot k s).pnl = s.pnl ∧ (freeSlot k s).twl = s.twl ∧ (freeSlot k s).cue = s.cue ∧ (freeSlot k s).lin = s.lin ∧ (freeSlot k s).cal = s.cal ∧ (freeSlot k s).gng = s.gng ∧ (freeSlot k s).sec = s.sec ∧ (freeSlot k s).flt = s.flt ∧ (freeSlot k s).thm = s.thm ∧ (freeSlot k s).trc = s.trc ∧ (freeSlot k s).bst = s.bst ∧ (freeSlot k s).out = s.out ∧ (freeSlot k s).free = s.free ∧ (freeSlot k s).pending = s.pending := by
  unfold freeSlot
  (try dsimp only)
  (repeat' split) <;> (try simp)

@[simp] theorem freeSlot_sound (k : Nat) (s : State) (hs : PagesSound s.mem.bytes s.mem.written) :
    PagesSound (freeSlot k s).mem.bytes (freeSlot k s).mem.written := by
  unfold freeSlot
  (try simp [hs])
  (repeat' split) <;> (try simp [hs])

@[simp] theorem freeSlots_frame (n : Nat) (s : State) :
    (freeSlots n s).sys = s.sys ∧ (freeSlots n s).pwr = s.pwr ∧ (freeSlots n s).hif = s.hif ∧ (freeSlots n s).rings = s.rings ∧ (freeSlots n s).conf = s.conf ∧ (freeSlots n s).pix = s.pix ∧ (freeSlots n s).gz = s.gz ∧ (freeSlots n s).lmp = s.lmp ∧ (freeSlots n s).dmk = s.dmk ∧ (freeSlots n s).od = s.od ∧ (freeSlots n s).tmg = s.tmg ∧ (freeSlots n s).pnl = s.pnl ∧ (freeSlots n s).twl = s.twl ∧ (freeSlots n s).cue = s.cue ∧ (freeSlots n s).lin = s.lin ∧ (freeSlots n s).cal = s.cal ∧ (freeSlots n s).gng = s.gng ∧ (freeSlots n s).sec = s.sec ∧ (freeSlots n s).flt = s.flt ∧ (freeSlots n s).thm = s.thm ∧ (freeSlots n s).trc = s.trc ∧ (freeSlots n s).bst = s.bst ∧ (freeSlots n s).out = s.out ∧ (freeSlots n s).free = s.free ∧ (freeSlots n s).pending = s.pending := by
  induction n generalizing s with
  | zero => simp [freeSlots]
  | succ n ih => unfold freeSlots; dsimp only; (repeat' split) <;> simp [ih]

@[simp] theorem freeSlots_sound (n : Nat) (s : State) (hs : PagesSound s.mem.bytes s.mem.written) :
    PagesSound (freeSlots n s).mem.bytes (freeSlots n s).mem.written := by
  induction n generalizing s with
  | zero => simpa [freeSlots] using hs
  | succ n ih => unfold freeSlots; dsimp only; (repeat' split) <;> simp [hs, ih]

@[simp] theorem spendSlot_frame (k : Nat) (s : State) :
    (spendSlot k s).sys = s.sys ∧ (spendSlot k s).pwr = s.pwr ∧ (spendSlot k s).hif = s.hif ∧ (spendSlot k s).rings = s.rings ∧ (spendSlot k s).conf = s.conf ∧ (spendSlot k s).pix = s.pix ∧ (spendSlot k s).gz = s.gz ∧ (spendSlot k s).lmp = s.lmp ∧ (spendSlot k s).dmk = s.dmk ∧ (spendSlot k s).od = s.od ∧ (spendSlot k s).tmg = s.tmg ∧ (spendSlot k s).pnl = s.pnl ∧ (spendSlot k s).twl = s.twl ∧ (spendSlot k s).cue = s.cue ∧ (spendSlot k s).lin = s.lin ∧ (spendSlot k s).cal = s.cal ∧ (spendSlot k s).gng = s.gng ∧ (spendSlot k s).sec = s.sec ∧ (spendSlot k s).flt = s.flt ∧ (spendSlot k s).thm = s.thm ∧ (spendSlot k s).trc = s.trc ∧ (spendSlot k s).bst = s.bst ∧ (spendSlot k s).out = s.out ∧ (spendSlot k s).free = s.free ∧ (spendSlot k s).pending = s.pending := by
  unfold spendSlot
  (try dsimp only)
  (repeat' split) <;> (try simp)

@[simp] theorem spendSlot_sound (k : Nat) (s : State) (hs : PagesSound s.mem.bytes s.mem.written) :
    PagesSound (spendSlot k s).mem.bytes (spendSlot k s).mem.written := by
  unfold spendSlot
  (try dsimp only)
  (repeat' split) <;> (try simp [hs])

@[simp] theorem spendSlots_frame (s : State) :
    (spendSlots s).sys = s.sys ∧ (spendSlots s).pwr = s.pwr ∧ (spendSlots s).hif = s.hif ∧ (spendSlots s).rings = s.rings ∧ (spendSlots s).conf = s.conf ∧ (spendSlots s).pix = s.pix ∧ (spendSlots s).gz = s.gz ∧ (spendSlots s).lmp = s.lmp ∧ (spendSlots s).dmk = s.dmk ∧ (spendSlots s).od = s.od ∧ (spendSlots s).tmg = s.tmg ∧ (spendSlots s).pnl = s.pnl ∧ (spendSlots s).twl = s.twl ∧ (spendSlots s).cue = s.cue ∧ (spendSlots s).lin = s.lin ∧ (spendSlots s).cal = s.cal ∧ (spendSlots s).gng = s.gng ∧ (spendSlots s).sec = s.sec ∧ (spendSlots s).flt = s.flt ∧ (spendSlots s).thm = s.thm ∧ (spendSlots s).trc = s.trc ∧ (spendSlots s).bst = s.bst ∧ (spendSlots s).out = s.out ∧ (spendSlots s).free = s.free ∧ (spendSlots s).pending = s.pending := by
  unfold spendSlots
  (repeat' split) <;> (try simp)

@[simp] theorem spendSlots_sound (s : State) (hs : PagesSound s.mem.bytes s.mem.written) :
    PagesSound (spendSlots s).mem.bytes (spendSlots s).mem.written := by
  unfold spendSlots
  (repeat' split) <;> (repeat' (first | assumption | with_reducible apply spendSlot_sound | with_reducible apply writeMemOf_sound | with_reducible apply clearPages_sound | with_reducible apply empty_sound | with_reducible apply forAll_sound | with_reducible apply foldl_sound | (intro _) | split | simp))

@[simp] theorem discardOld_frame (s : State) :
    (discardOld s).sys = s.sys ∧ (discardOld s).pwr = s.pwr ∧ (discardOld s).hif = s.hif ∧ (discardOld s).rings = s.rings ∧ (discardOld s).conf = s.conf ∧ (discardOld s).pix = s.pix ∧ (discardOld s).gz = s.gz ∧ (discardOld s).lmp = s.lmp ∧ (discardOld s).dmk = s.dmk ∧ (discardOld s).od = s.od ∧ (discardOld s).tmg = s.tmg ∧ (discardOld s).pnl = s.pnl ∧ (discardOld s).twl = s.twl ∧ (discardOld s).cue = s.cue ∧ (discardOld s).lin = s.lin ∧ (discardOld s).cal = s.cal ∧ (discardOld s).gng = s.gng ∧ (discardOld s).sec = s.sec ∧ (discardOld s).flt = s.flt ∧ (discardOld s).thm = s.thm ∧ (discardOld s).trc = s.trc ∧ (discardOld s).bst = s.bst ∧ (discardOld s).out = s.out ∧ (discardOld s).free = s.free ∧ (discardOld s).pending = s.pending := by
  unfold discardOld
  (repeat' split) <;> (try simp)

@[simp] theorem discardOld_sound (s : State) (hs : PagesSound s.mem.bytes s.mem.written) :
    PagesSound (discardOld s).mem.bytes (discardOld s).mem.written := by
  unfold discardOld
  (repeat' split) <;> (repeat' (first | assumption | with_reducible apply spendSlot_sound | with_reducible apply writeMemOf_sound | with_reducible apply clearPages_sound | with_reducible apply empty_sound | with_reducible apply forAll_sound | with_reducible apply foldl_sound | (intro _) | split | simp))

@[simp] theorem closeSlot_frame (slot : Nat) (s : State) :
    (closeSlot slot s).sys = s.sys ∧ (closeSlot slot s).pwr = s.pwr ∧ (closeSlot slot s).hif = s.hif ∧ (closeSlot slot s).rings = s.rings ∧ (closeSlot slot s).conf = s.conf ∧ (closeSlot slot s).pix = s.pix ∧ (closeSlot slot s).gz = s.gz ∧ (closeSlot slot s).lmp = s.lmp ∧ (closeSlot slot s).dmk = s.dmk ∧ (closeSlot slot s).od = s.od ∧ (closeSlot slot s).tmg = s.tmg ∧ (closeSlot slot s).pnl = s.pnl ∧ (closeSlot slot s).twl = s.twl ∧ (closeSlot slot s).cue = s.cue ∧ (closeSlot slot s).mem = s.mem ∧ (closeSlot slot s).lin = s.lin ∧ (closeSlot slot s).cal = s.cal ∧ (closeSlot slot s).gng = s.gng ∧ (closeSlot slot s).sec = s.sec ∧ (closeSlot slot s).flt = s.flt ∧ (closeSlot slot s).thm = s.thm ∧ (closeSlot slot s).trc = s.trc ∧ (closeSlot slot s).bst = s.bst ∧ (closeSlot slot s).out = s.out ∧ (closeSlot slot s).free = s.free ∧ (closeSlot slot s).pending = s.pending := by
  unfold closeSlot
  (try dsimp only)
  (repeat' split) <;> (try simp)

@[simp] theorem guardOne_frame (slot : Nat) (s : State) :
    (guardOne slot s).sys = s.sys ∧ (guardOne slot s).pwr = s.pwr ∧ (guardOne slot s).conf = s.conf ∧ (guardOne slot s).pix = s.pix ∧ (guardOne slot s).gz = s.gz ∧ (guardOne slot s).lmp = s.lmp ∧ (guardOne slot s).dmk = s.dmk ∧ (guardOne slot s).od = s.od ∧ (guardOne slot s).tmg = s.tmg ∧ (guardOne slot s).pnl = s.pnl ∧ (guardOne slot s).twl = s.twl ∧ (guardOne slot s).cue = s.cue ∧ (guardOne slot s).lin = s.lin ∧ (guardOne slot s).cal = s.cal ∧ (guardOne slot s).gng = s.gng ∧ (guardOne slot s).flt = s.flt ∧ (guardOne slot s).thm = s.thm ∧ (guardOne slot s).trc = s.trc ∧ (guardOne slot s).bst = s.bst ∧ (guardOne slot s).free = s.free ∧ (guardOne slot s).pending = s.pending ∧ (guardOne slot s).mem.bytes = s.mem.bytes ∧ (guardOne slot s).mem.written = s.mem.written ∧ (guardOne slot s).sec.fuses = s.sec.fuses ∧ (guardOne slot s).hif.power = s.hif.power ∧ (guardOne slot s).hif.bme0 = s.hif.bme0 ∧ (guardOne slot s).hif.bme1 = s.hif.bme1 ∧ (guardOne slot s).hif.d3hot = s.hif.d3hot ∧ (guardOne slot s).rings.sqs = s.rings.sqs := by
  unfold guardOne
  (try simp)
  (repeat' split) <;> (try simp)

@[simp] theorem acceptHeader_frame (slot : Nat) (h : Bytes) (stream : Option Nat) (s : State) :
    (acceptHeader slot h stream s).sys = s.sys ∧ (acceptHeader slot h stream s).pwr = s.pwr ∧ (acceptHeader slot h stream s).conf = s.conf ∧ (acceptHeader slot h stream s).pix = s.pix ∧ (acceptHeader slot h stream s).gz = s.gz ∧ (acceptHeader slot h stream s).lmp = s.lmp ∧ (acceptHeader slot h stream s).dmk = s.dmk ∧ (acceptHeader slot h stream s).od = s.od ∧ (acceptHeader slot h stream s).tmg = s.tmg ∧ (acceptHeader slot h stream s).pnl = s.pnl ∧ (acceptHeader slot h stream s).twl = s.twl ∧ (acceptHeader slot h stream s).cue = s.cue ∧ (acceptHeader slot h stream s).cal = s.cal ∧ (acceptHeader slot h stream s).gng = s.gng ∧ (acceptHeader slot h stream s).flt = s.flt ∧ (acceptHeader slot h stream s).thm = s.thm ∧ (acceptHeader slot h stream s).trc = s.trc ∧ (acceptHeader slot h stream s).bst = s.bst ∧ (acceptHeader slot h stream s).pending = s.pending ∧ (acceptHeader slot h stream s).sec.fuses = s.sec.fuses ∧ (acceptHeader slot h stream s).hif.power = s.hif.power ∧ (acceptHeader slot h stream s).hif.d3hot = s.hif.d3hot ∧ (acceptHeader slot h stream s).rings.sqs = s.rings.sqs := by
  unfold acceptHeader
  (try dsimp only)
  (repeat' split) <;> (try simp)

@[simp] theorem acceptHeader_sound (slot : Nat) (h : Bytes) (stream : Option Nat) (s : State) (hs : PagesSound s.mem.bytes s.mem.written) :
    PagesSound (acceptHeader slot h stream s).mem.bytes (acceptHeader slot h stream s).mem.written := by
  unfold acceptHeader
  (try dsimp only)
  (repeat' split) <;> (try simp [hs])

@[simp] theorem commitHeader_frame (slot : Nat) (h : Bytes) (stream0 : Option Nat) (s : State) :
    (commitHeader slot h stream0 s).sys = s.sys ∧ (commitHeader slot h stream0 s).pwr = s.pwr ∧ (commitHeader slot h stream0 s).conf = s.conf ∧ (commitHeader slot h stream0 s).pix = s.pix ∧ (commitHeader slot h stream0 s).gz = s.gz ∧ (commitHeader slot h stream0 s).lmp = s.lmp ∧ (commitHeader slot h stream0 s).dmk = s.dmk ∧ (commitHeader slot h stream0 s).od = s.od ∧ (commitHeader slot h stream0 s).tmg = s.tmg ∧ (commitHeader slot h stream0 s).pnl = s.pnl ∧ (commitHeader slot h stream0 s).twl = s.twl ∧ (commitHeader slot h stream0 s).cue = s.cue ∧ (commitHeader slot h stream0 s).cal = s.cal ∧ (commitHeader slot h stream0 s).gng = s.gng ∧ (commitHeader slot h stream0 s).flt = s.flt ∧ (commitHeader slot h stream0 s).thm = s.thm ∧ (commitHeader slot h stream0 s).trc = s.trc ∧ (commitHeader slot h stream0 s).bst = s.bst ∧ (commitHeader slot h stream0 s).pending = s.pending ∧ (commitHeader slot h stream0 s).sec.fuses = s.sec.fuses ∧ (commitHeader slot h stream0 s).hif.power = s.hif.power ∧ (commitHeader slot h stream0 s).hif.d3hot = s.hif.d3hot ∧ (commitHeader slot h stream0 s).rings.sqs = s.rings.sqs := by
  unfold commitHeader
  (try simp)
  (repeat' split) <;> (try simp)

@[simp] theorem commitHeader_sound (slot : Nat) (h : Bytes) (stream0 : Option Nat) (s : State) (hs : PagesSound s.mem.bytes s.mem.written) :
    PagesSound (commitHeader slot h stream0 s).mem.bytes (commitHeader slot h stream0 s).mem.written := by
  unfold commitHeader
  (try simp [hs])
  (repeat' split) <;> (try simp [hs])

@[simp] theorem badStaging_frame (a n : Nat) (s : State) :
    (badStaging a n s).sys = s.sys ∧ (badStaging a n s).pwr = s.pwr ∧ (badStaging a n s).conf = s.conf ∧ (badStaging a n s).ing = s.ing ∧ (badStaging a n s).pix = s.pix ∧ (badStaging a n s).gz = s.gz ∧ (badStaging a n s).lmp = s.lmp ∧ (badStaging a n s).dmk = s.dmk ∧ (badStaging a n s).od = s.od ∧ (badStaging a n s).tmg = s.tmg ∧ (badStaging a n s).pnl = s.pnl ∧ (badStaging a n s).twl = s.twl ∧ (badStaging a n s).cue = s.cue ∧ (badStaging a n s).cal = s.cal ∧ (badStaging a n s).gng = s.gng ∧ (badStaging a n s).sec = s.sec ∧ (badStaging a n s).flt = s.flt ∧ (badStaging a n s).thm = s.thm ∧ (badStaging a n s).trc = s.trc ∧ (badStaging a n s).bst = s.bst ∧ (badStaging a n s).pending = s.pending ∧ (badStaging a n s).mem.bytes = s.mem.bytes ∧ (badStaging a n s).mem.written = s.mem.written ∧ (badStaging a n s).hif.power = s.hif.power ∧ (badStaging a n s).hif.d3hot = s.hif.d3hot ∧ (badStaging a n s).rings.sqs = s.rings.sqs := by
  unfold badStaging
  (repeat' split) <;> (try simp)

@[simp] theorem completeSlot_frame (slot : Nat) (s : State) :
    (completeSlot slot s).sys = s.sys ∧ (completeSlot slot s).pwr = s.pwr ∧ (completeSlot slot s).conf = s.conf ∧ (completeSlot slot s).pix = s.pix ∧ (completeSlot slot s).gz = s.gz ∧ (completeSlot slot s).lmp = s.lmp ∧ (completeSlot slot s).dmk = s.dmk ∧ (completeSlot slot s).od = s.od ∧ (completeSlot slot s).tmg = s.tmg ∧ (completeSlot slot s).pnl = s.pnl ∧ (completeSlot slot s).twl = s.twl ∧ (completeSlot slot s).cue = s.cue ∧ (completeSlot slot s).cal = s.cal ∧ (completeSlot slot s).gng = s.gng ∧ (completeSlot slot s).sec = s.sec ∧ (completeSlot slot s).flt = s.flt ∧ (completeSlot slot s).thm = s.thm ∧ (completeSlot slot s).bst = s.bst ∧ (completeSlot slot s).pending = s.pending ∧ (completeSlot slot s).mem.bytes = s.mem.bytes ∧ (completeSlot slot s).mem.written = s.mem.written ∧ (completeSlot slot s).hif.power = s.hif.power ∧ (completeSlot slot s).hif.d3hot = s.hif.d3hot ∧ (completeSlot slot s).rings.sqs = s.rings.sqs := by
  unfold completeSlot
  (try simp)
  (repeat' split) <;> (try simp)

@[simp] theorem pushPayload_frame (slot off : Nat) (d0 : Bytes) (stream0 : Option Nat) (s : State) :
    (pushPayload slot off d0 stream0 s).sys = s.sys ∧ (pushPayload slot off d0 stream0 s).pwr = s.pwr ∧ (pushPayload slot off d0 stream0 s).conf = s.conf ∧ (pushPayload slot off d0 stream0 s).pix = s.pix ∧ (pushPayload slot off d0 stream0 s).gz = s.gz ∧ (pushPayload slot off d0 stream0 s).lmp = s.lmp ∧ (pushPayload slot off d0 stream0 s).dmk = s.dmk ∧ (pushPayload slot off d0 stream0 s).od = s.od ∧ (pushPayload slot off d0 stream0 s).tmg = s.tmg ∧ (pushPayload slot off d0 stream0 s).pnl = s.pnl ∧ (pushPayload slot off d0 stream0 s).twl = s.twl ∧ (pushPayload slot off d0 stream0 s).cue = s.cue ∧ (pushPayload slot off d0 stream0 s).cal = s.cal ∧ (pushPayload slot off d0 stream0 s).gng = s.gng ∧ (pushPayload slot off d0 stream0 s).flt = s.flt ∧ (pushPayload slot off d0 stream0 s).thm = s.thm ∧ (pushPayload slot off d0 stream0 s).bst = s.bst ∧ (pushPayload slot off d0 stream0 s).pending = s.pending ∧ (pushPayload slot off d0 stream0 s).sec.fuses = s.sec.fuses ∧ (pushPayload slot off d0 stream0 s).hif.power = s.hif.power ∧ (pushPayload slot off d0 stream0 s).hif.d3hot = s.hif.d3hot ∧ (pushPayload slot off d0 stream0 s).rings.sqs = s.rings.sqs := by
  unfold pushPayload
  (try simp)
  (repeat' split) <;> (try simp)

@[simp] theorem pushPayload_sound (slot off : Nat) (d0 : Bytes) (stream0 : Option Nat) (s : State) (hs : PagesSound s.mem.bytes s.mem.written) :
    PagesSound (pushPayload slot off d0 stream0 s).mem.bytes (pushPayload slot off d0 stream0 s).mem.written := by
  unfold pushPayload
  (try simp [hs])
  (repeat' split) <;> (try simp [hs])

@[simp] theorem pulsePins_frame (l : List Nat) (s : State) :
    (pulsePins l s).sys = s.sys ∧ (pulsePins l s).pwr = s.pwr ∧ (pulsePins l s).hif = s.hif ∧ (pulsePins l s).rings = s.rings ∧ (pulsePins l s).conf = s.conf ∧ (pulsePins l s).ing = s.ing ∧ (pulsePins l s).pix = s.pix ∧ (pulsePins l s).gz = s.gz ∧ (pulsePins l s).lmp = s.lmp ∧ (pulsePins l s).dmk = s.dmk ∧ (pulsePins l s).od = s.od ∧ (pulsePins l s).pnl = s.pnl ∧ (pulsePins l s).twl = s.twl ∧ (pulsePins l s).cue = s.cue ∧ (pulsePins l s).mem = s.mem ∧ (pulsePins l s).lin = s.lin ∧ (pulsePins l s).cal = s.cal ∧ (pulsePins l s).gng = s.gng ∧ (pulsePins l s).sec = s.sec ∧ (pulsePins l s).flt = s.flt ∧ (pulsePins l s).thm = s.thm ∧ (pulsePins l s).trc = s.trc ∧ (pulsePins l s).bst = s.bst ∧ (pulsePins l s).free = s.free ∧ (pulsePins l s).pending = s.pending ∧ (pulsePins l s).tmg.running = s.tmg.running := by
  unfold pulsePins
  (try simp)
  (repeat' split) <;> (try simp)

@[simp] theorem takePolarity_frame (s : State) :
    (takePolarity s).sys = s.sys ∧ (takePolarity s).pwr = s.pwr ∧ (takePolarity s).hif = s.hif ∧ (takePolarity s).rings = s.rings ∧ (takePolarity s).conf = s.conf ∧ (takePolarity s).ing = s.ing ∧ (takePolarity s).pix = s.pix ∧ (takePolarity s).gz = s.gz ∧ (takePolarity s).lmp = s.lmp ∧ (takePolarity s).dmk = s.dmk ∧ (takePolarity s).od = s.od ∧ (takePolarity s).pnl = s.pnl ∧ (takePolarity s).twl = s.twl ∧ (takePolarity s).cue = s.cue ∧ (takePolarity s).mem = s.mem ∧ (takePolarity s).lin = s.lin ∧ (takePolarity s).cal = s.cal ∧ (takePolarity s).gng = s.gng ∧ (takePolarity s).sec = s.sec ∧ (takePolarity s).flt = s.flt ∧ (takePolarity s).thm = s.thm ∧ (takePolarity s).trc = s.trc ∧ (takePolarity s).bst = s.bst ∧ (takePolarity s).free = s.free ∧ (takePolarity s).pending = s.pending ∧ (takePolarity s).tmg.running = s.tmg.running := by
  unfold takePolarity
  (try dsimp only)
  (repeat' split) <;> (try simp)

@[simp] theorem clearPins_frame (s : State) :
    (clearPins s).sys = s.sys ∧ (clearPins s).pwr = s.pwr ∧ (clearPins s).hif = s.hif ∧ (clearPins s).rings = s.rings ∧ (clearPins s).conf = s.conf ∧ (clearPins s).ing = s.ing ∧ (clearPins s).pix = s.pix ∧ (clearPins s).gz = s.gz ∧ (clearPins s).lmp = s.lmp ∧ (clearPins s).dmk = s.dmk ∧ (clearPins s).od = s.od ∧ (clearPins s).pnl = s.pnl ∧ (clearPins s).twl = s.twl ∧ (clearPins s).cue = s.cue ∧ (clearPins s).mem = s.mem ∧ (clearPins s).lin = s.lin ∧ (clearPins s).cal = s.cal ∧ (clearPins s).gng = s.gng ∧ (clearPins s).sec = s.sec ∧ (clearPins s).flt = s.flt ∧ (clearPins s).thm = s.thm ∧ (clearPins s).trc = s.trc ∧ (clearPins s).bst = s.bst ∧ (clearPins s).free = s.free ∧ (clearPins s).pending = s.pending ∧ (clearPins s).tmg.running = s.tmg.running := by
  unfold clearPins
  (try dsimp only)
  (repeat' split) <;> (try simp)

@[simp] theorem showBand_frame (i b : Nat) (f : Frame) (s : State) :
    (showBand i b f s).sys = s.sys ∧ (showBand i b f s).pwr = s.pwr ∧ (showBand i b f s).conf = s.conf ∧ (showBand i b f s).pix = s.pix ∧ (showBand i b f s).gz = s.gz ∧ (showBand i b f s).lmp = s.lmp ∧ (showBand i b f s).dmk = s.dmk ∧ (showBand i b f s).od = s.od ∧ (showBand i b f s).tmg = s.tmg ∧ (showBand i b f s).pnl = s.pnl ∧ (showBand i b f s).twl = s.twl ∧ (showBand i b f s).cue = s.cue ∧ (showBand i b f s).mem = s.mem ∧ (showBand i b f s).lin = s.lin ∧ (showBand i b f s).cal = s.cal ∧ (showBand i b f s).gng = s.gng ∧ (showBand i b f s).sec = s.sec ∧ (showBand i b f s).flt = s.flt ∧ (showBand i b f s).thm = s.thm ∧ (showBand i b f s).bst = s.bst ∧ (showBand i b f s).pending = s.pending ∧ (showBand i b f s).hif.power = s.hif.power ∧ (showBand i b f s).hif.bme0 = s.hif.bme0 ∧ (showBand i b f s).hif.bme1 = s.hif.bme1 ∧ (showBand i b f s).hif.d3hot = s.hif.d3hot ∧ (showBand i b f s).rings.sqs = s.rings.sqs ∧ (showBand i b f s).rings.cqs = s.rings.cqs ∧ (showBand i b f s).rings.eq0 = s.rings.eq0 ∧ (showBand i b f s).rings.eq1 = s.rings.eq1 := by
  unfold showBand
  (try dsimp only)
  (repeat' split) <;> (try simp)

@[simp] theorem missBand_frame (i b : Nat) (l : Layer) (f : Frame) (s : State) :
    (missBand i b l f s).sys = s.sys ∧ (missBand i b l f s).pwr = s.pwr ∧ (missBand i b l f s).conf = s.conf ∧ (missBand i b l f s).pix = s.pix ∧ (missBand i b l f s).gz = s.gz ∧ (missBand i b l f s).lmp = s.lmp ∧ (missBand i b l f s).dmk = s.dmk ∧ (missBand i b l f s).od = s.od ∧ (missBand i b l f s).pnl = s.pnl ∧ (missBand i b l f s).twl = s.twl ∧ (missBand i b l f s).cue = s.cue ∧ (missBand i b l f s).mem = s.mem ∧ (missBand i b l f s).lin = s.lin ∧ (missBand i b l f s).cal = s.cal ∧ (missBand i b l f s).gng = s.gng ∧ (missBand i b l f s).sec = s.sec ∧ (missBand i b l f s).flt = s.flt ∧ (missBand i b l f s).thm = s.thm ∧ (missBand i b l f s).bst = s.bst ∧ (missBand i b l f s).pending = s.pending ∧ (missBand i b l f s).hif.power = s.hif.power ∧ (missBand i b l f s).hif.d3hot = s.hif.d3hot ∧ (missBand i b l f s).tmg.running = s.tmg.running ∧ (missBand i b l f s).rings.sqs = s.rings.sqs := by
  unfold missBand
  (try dsimp only)
  (repeat' split) <;> (try simp)

@[simp] theorem judgeBand_frame (i b : Nat) (l : Layer) (f : Frame) (s : State) :
    (judgeBand i b l f s).sys = s.sys ∧ (judgeBand i b l f s).pwr = s.pwr ∧ (judgeBand i b l f s).conf = s.conf ∧ (judgeBand i b l f s).pix = s.pix ∧ (judgeBand i b l f s).gz = s.gz ∧ (judgeBand i b l f s).lmp = s.lmp ∧ (judgeBand i b l f s).dmk = s.dmk ∧ (judgeBand i b l f s).od = s.od ∧ (judgeBand i b l f s).pnl = s.pnl ∧ (judgeBand i b l f s).twl = s.twl ∧ (judgeBand i b l f s).cue = s.cue ∧ (judgeBand i b l f s).cal = s.cal ∧ (judgeBand i b l f s).gng = s.gng ∧ (judgeBand i b l f s).sec = s.sec ∧ (judgeBand i b l f s).flt = s.flt ∧ (judgeBand i b l f s).thm = s.thm ∧ (judgeBand i b l f s).bst = s.bst ∧ (judgeBand i b l f s).pending = s.pending ∧ (judgeBand i b l f s).hif.power = s.hif.power ∧ (judgeBand i b l f s).hif.d3hot = s.hif.d3hot ∧ (judgeBand i b l f s).tmg.running = s.tmg.running ∧ (judgeBand i b l f s).rings.sqs = s.rings.sqs := by
  unfold judgeBand
  (try simp)
  (repeat' split) <;> (try simp)

@[simp] theorem judgeBand_sound (i b : Nat) (l : Layer) (f : Frame) (s : State) (hs : PagesSound s.mem.bytes s.mem.written) :
    PagesSound (judgeBand i b l f s).mem.bytes (judgeBand i b l f s).mem.written := by
  unfold judgeBand
  (try simp [hs])
  (repeat' split) <;> (try simp [hs])

@[simp] theorem judgeDue_frame (p : Nat × Nat × Layer) (s : State) :
    (judgeDue p s).sys = s.sys ∧ (judgeDue p s).pwr = s.pwr ∧ (judgeDue p s).conf = s.conf ∧ (judgeDue p s).pix = s.pix ∧ (judgeDue p s).gz = s.gz ∧ (judgeDue p s).lmp = s.lmp ∧ (judgeDue p s).dmk = s.dmk ∧ (judgeDue p s).od = s.od ∧ (judgeDue p s).pnl = s.pnl ∧ (judgeDue p s).twl = s.twl ∧ (judgeDue p s).cue = s.cue ∧ (judgeDue p s).cal = s.cal ∧ (judgeDue p s).gng = s.gng ∧ (judgeDue p s).sec = s.sec ∧ (judgeDue p s).flt = s.flt ∧ (judgeDue p s).thm = s.thm ∧ (judgeDue p s).bst = s.bst ∧ (judgeDue p s).pending = s.pending ∧ (judgeDue p s).hif.power = s.hif.power ∧ (judgeDue p s).hif.d3hot = s.hif.d3hot ∧ (judgeDue p s).tmg.running = s.tmg.running ∧ (judgeDue p s).rings.sqs = s.rings.sqs := by
  unfold judgeDue
  (repeat' split) <;> (try simp)

@[simp] theorem judgeDue_sound (p : Nat × Nat × Layer) (s : State) (hs : PagesSound s.mem.bytes s.mem.written) :
    PagesSound (judgeDue p s).mem.bytes (judgeDue p s).mem.written := by
  unfold judgeDue
  (repeat' split) <;> (try simp [hs])

@[simp] theorem pullError_frame (r : ReadRef) (before after : Frame) (s : State) :
    (pullError r before after s).sys = s.sys ∧ (pullError r before after s).pwr = s.pwr ∧ (pullError r before after s).conf = s.conf ∧ (pullError r before after s).ing = s.ing ∧ (pullError r before after s).pix = s.pix ∧ (pullError r before after s).gz = s.gz ∧ (pullError r before after s).lmp = s.lmp ∧ (pullError r before after s).dmk = s.dmk ∧ (pullError r before after s).od = s.od ∧ (pullError r before after s).tmg = s.tmg ∧ (pullError r before after s).pnl = s.pnl ∧ (pullError r before after s).twl = s.twl ∧ (pullError r before after s).cue = s.cue ∧ (pullError r before after s).mem = s.mem ∧ (pullError r before after s).lin = s.lin ∧ (pullError r before after s).cal = s.cal ∧ (pullError r before after s).gng = s.gng ∧ (pullError r before after s).sec = s.sec ∧ (pullError r before after s).flt = s.flt ∧ (pullError r before after s).thm = s.thm ∧ (pullError r before after s).trc = s.trc ∧ (pullError r before after s).bst = s.bst ∧ (pullError r before after s).free = s.free ∧ (pullError r before after s).pending = s.pending ∧ (pullError r before after s).hif.power = s.hif.power ∧ (pullError r before after s).hif.bme0 = s.hif.bme0 ∧ (pullError r before after s).hif.bme1 = s.hif.bme1 ∧ (pullError r before after s).hif.d3hot = s.hif.d3hot ∧ (pullError r before after s).rings.sqs = s.rings.sqs := by
  unfold pullError
  (try simp)
  (repeat' split) <;> (try simp)

@[simp] theorem dropBuffer_frame (b : Nat) (s : State) :
    (dropBuffer b s).sys = s.sys ∧ (dropBuffer b s).pwr = s.pwr ∧ (dropBuffer b s).hif = s.hif ∧ (dropBuffer b s).rings = s.rings ∧ (dropBuffer b s).conf = s.conf ∧ (dropBuffer b s).ing = s.ing ∧ (dropBuffer b s).pix = s.pix ∧ (dropBuffer b s).gz = s.gz ∧ (dropBuffer b s).lmp = s.lmp ∧ (dropBuffer b s).dmk = s.dmk ∧ (dropBuffer b s).od = s.od ∧ (dropBuffer b s).tmg = s.tmg ∧ (dropBuffer b s).pnl = s.pnl ∧ (dropBuffer b s).twl = s.twl ∧ (dropBuffer b s).lin = s.lin ∧ (dropBuffer b s).cal = s.cal ∧ (dropBuffer b s).gng = s.gng ∧ (dropBuffer b s).sec = s.sec ∧ (dropBuffer b s).flt = s.flt ∧ (dropBuffer b s).thm = s.thm ∧ (dropBuffer b s).trc = s.trc ∧ (dropBuffer b s).bst = s.bst ∧ (dropBuffer b s).out = s.out ∧ (dropBuffer b s).free = s.free ∧ (dropBuffer b s).pending = s.pending := by
  unfold dropBuffer
  (try simp)
  (repeat' split) <;> (try simp)

@[simp] theorem dropBuffer_sound (b : Nat) (s : State) (hs : PagesSound s.mem.bytes s.mem.written) :
    PagesSound (dropBuffer b s).mem.bytes (dropBuffer b s).mem.written := by
  unfold dropBuffer
  (try simp [hs])
  (repeat' split) <;> (try simp [hs])

@[simp] theorem settleFrees_frame (s : State) :
    (settleFrees s).sys = s.sys ∧ (settleFrees s).pwr = s.pwr ∧ (settleFrees s).conf = s.conf ∧ (settleFrees s).ing = s.ing ∧ (settleFrees s).pix = s.pix ∧ (settleFrees s).gz = s.gz ∧ (settleFrees s).lmp = s.lmp ∧ (settleFrees s).dmk = s.dmk ∧ (settleFrees s).od = s.od ∧ (settleFrees s).tmg = s.tmg ∧ (settleFrees s).pnl = s.pnl ∧ (settleFrees s).twl = s.twl ∧ (settleFrees s).lin = s.lin ∧ (settleFrees s).cal = s.cal ∧ (settleFrees s).gng = s.gng ∧ (settleFrees s).sec = s.sec ∧ (settleFrees s).flt = s.flt ∧ (settleFrees s).thm = s.thm ∧ (settleFrees s).trc = s.trc ∧ (settleFrees s).bst = s.bst ∧ (settleFrees s).free = s.free ∧ (settleFrees s).pending = s.pending ∧ (settleFrees s).hif.power = s.hif.power ∧ (settleFrees s).hif.d3hot = s.hif.d3hot ∧ (settleFrees s).rings.sqs = s.rings.sqs := by
  unfold settleFrees
  (try dsimp only)
  (repeat' split) <;> (try simp (disch := (intros; (repeat' split) <;> (try simp))))

@[simp] theorem settleFrees_sound (s : State) (hs : PagesSound s.mem.bytes s.mem.written) :
    PagesSound (settleFrees s).mem.bytes (settleFrees s).mem.written := by
  unfold settleFrees
  (try dsimp only)
  (repeat' split) <;> (repeat' (first | assumption | with_reducible apply dropBuffer_sound | with_reducible apply writeMemOf_sound | with_reducible apply clearPages_sound | with_reducible apply empty_sound | with_reducible apply forAll_sound | with_reducible apply foldl_sound | (intro _) | split | simp))

@[simp] theorem placeBuffer_frame (b page pages : Nat) (isSealed : Bool) (len : Nat) (d : Bytes) (s : State) :
    (placeBuffer b page pages isSealed len d s).sys = s.sys ∧ (placeBuffer b page pages isSealed len d s).pwr = s.pwr ∧ (placeBuffer b page pages isSealed len d s).conf = s.conf ∧ (placeBuffer b page pages isSealed len d s).ing = s.ing ∧ (placeBuffer b page pages isSealed len d s).pix = s.pix ∧ (placeBuffer b page pages isSealed len d s).gz = s.gz ∧ (placeBuffer b page pages isSealed len d s).lmp = s.lmp ∧ (placeBuffer b page pages isSealed len d s).dmk = s.dmk ∧ (placeBuffer b page pages isSealed len d s).od = s.od ∧ (placeBuffer b page pages isSealed len d s).tmg = s.tmg ∧ (placeBuffer b page pages isSealed len d s).pnl = s.pnl ∧ (placeBuffer b page pages isSealed len d s).twl = s.twl ∧ (placeBuffer b page pages isSealed len d s).lin = s.lin ∧ (placeBuffer b page pages isSealed len d s).cal = s.cal ∧ (placeBuffer b page pages isSealed len d s).gng = s.gng ∧ (placeBuffer b page pages isSealed len d s).flt = s.flt ∧ (placeBuffer b page pages isSealed len d s).thm = s.thm ∧ (placeBuffer b page pages isSealed len d s).trc = s.trc ∧ (placeBuffer b page pages isSealed len d s).bst = s.bst ∧ (placeBuffer b page pages isSealed len d s).free = s.free ∧ (placeBuffer b page pages isSealed len d s).pending = s.pending ∧ (placeBuffer b page pages isSealed len d s).sec.fuses = s.sec.fuses ∧ (placeBuffer b page pages isSealed len d s).hif.power = s.hif.power ∧ (placeBuffer b page pages isSealed len d s).hif.bme0 = s.hif.bme0 ∧ (placeBuffer b page pages isSealed len d s).hif.bme1 = s.hif.bme1 ∧ (placeBuffer b page pages isSealed len d s).hif.d3hot = s.hif.d3hot ∧ (placeBuffer b page pages isSealed len d s).rings.sqs = s.rings.sqs := by
  unfold placeBuffer
  (try dsimp only)
  (repeat' split) <;> (try simp)

@[simp] theorem placeBuffer_sound (b page pages : Nat) (isSealed : Bool) (len : Nat) (d : Bytes) (s : State) (hs : PagesSound s.mem.bytes s.mem.written) :
    PagesSound (placeBuffer b page pages isSealed len d s).mem.bytes (placeBuffer b page pages isSealed len d s).mem.written := by
  unfold placeBuffer
  (try simp [hs])
  (repeat' split) <;> (try simp [hs])

@[simp] theorem stepPoint_frame (table : Rd) (s : State) :
    (stepPoint table s).sys = s.sys ∧ (stepPoint table s).pwr = s.pwr ∧ (stepPoint table s).conf = s.conf ∧ (stepPoint table s).pix = s.pix ∧ (stepPoint table s).gz = s.gz ∧ (stepPoint table s).lmp = s.lmp ∧ (stepPoint table s).dmk = s.dmk ∧ (stepPoint table s).od = s.od ∧ (stepPoint table s).tmg = s.tmg ∧ (stepPoint table s).pnl = s.pnl ∧ (stepPoint table s).twl = s.twl ∧ (stepPoint table s).lin = s.lin ∧ (stepPoint table s).cal = s.cal ∧ (stepPoint table s).gng = s.gng ∧ (stepPoint table s).flt = s.flt ∧ (stepPoint table s).thm = s.thm ∧ (stepPoint table s).bst = s.bst ∧ (stepPoint table s).pending = s.pending ∧ (stepPoint table s).mem.bytes = s.mem.bytes ∧ (stepPoint table s).mem.written = s.mem.written ∧ (stepPoint table s).sec.fuses = s.sec.fuses ∧ (stepPoint table s).hif.power = s.hif.power ∧ (stepPoint table s).hif.d3hot = s.hif.d3hot ∧ (stepPoint table s).rings.sqs = s.rings.sqs := by
  unfold stepPoint
  (try simp)
  (repeat' split) <;> (try simp)

@[simp] theorem decideAgain_frame (s : State) :
    (decideAgain s).sys = s.sys ∧ (decideAgain s).pwr = s.pwr ∧ (decideAgain s).conf = s.conf ∧ (decideAgain s).pix = s.pix ∧ (decideAgain s).gz = s.gz ∧ (decideAgain s).lmp = s.lmp ∧ (decideAgain s).dmk = s.dmk ∧ (decideAgain s).od = s.od ∧ (decideAgain s).tmg = s.tmg ∧ (decideAgain s).pnl = s.pnl ∧ (decideAgain s).twl = s.twl ∧ (decideAgain s).mem = s.mem ∧ (decideAgain s).lin = s.lin ∧ (decideAgain s).cal = s.cal ∧ (decideAgain s).gng = s.gng ∧ (decideAgain s).sec = s.sec ∧ (decideAgain s).flt = s.flt ∧ (decideAgain s).thm = s.thm ∧ (decideAgain s).bst = s.bst ∧ (decideAgain s).pending = s.pending ∧ (decideAgain s).hif.power = s.hif.power ∧ (decideAgain s).hif.d3hot = s.hif.d3hot ∧ (decideAgain s).rings.sqs = s.rings.sqs := by
  unfold decideAgain
  (try simp)
  (repeat' split) <;> (try simp)

@[simp] theorem armCue_frame (kind fe : Nat) (body : Bytes) (s : State) :
    (armCue kind fe body s).sys = s.sys ∧ (armCue kind fe body s).pwr = s.pwr ∧ (armCue kind fe body s).conf = s.conf ∧ (armCue kind fe body s).pix = s.pix ∧ (armCue kind fe body s).gz = s.gz ∧ (armCue kind fe body s).lmp = s.lmp ∧ (armCue kind fe body s).dmk = s.dmk ∧ (armCue kind fe body s).od = s.od ∧ (armCue kind fe body s).tmg = s.tmg ∧ (armCue kind fe body s).pnl = s.pnl ∧ (armCue kind fe body s).twl = s.twl ∧ (armCue kind fe body s).lin = s.lin ∧ (armCue kind fe body s).cal = s.cal ∧ (armCue kind fe body s).gng = s.gng ∧ (armCue kind fe body s).sec = s.sec ∧ (armCue kind fe body s).flt = s.flt ∧ (armCue kind fe body s).thm = s.thm ∧ (armCue kind fe body s).bst = s.bst ∧ (armCue kind fe body s).pending = s.pending ∧ (armCue kind fe body s).hif.power = s.hif.power ∧ (armCue kind fe body s).hif.d3hot = s.hif.d3hot ∧ (armCue kind fe body s).rings.sqs = s.rings.sqs := by
  unfold armCue
  (try simp)
  (repeat' split) <;> (try simp)

@[simp] theorem armCue_sound (kind fe : Nat) (body : Bytes) (s : State) (hs : PagesSound s.mem.bytes s.mem.written) :
    PagesSound (armCue kind fe body s).mem.bytes (armCue kind fe body s).mem.written := by
  unfold armCue
  (try dsimp only)
  (repeat' split) <;> (try simp [hs])

@[simp] theorem cueCommand_frame (sq kind : Nat) (r : Running) (s : State) :
    (cueCommand sq kind r s).sys = s.sys ∧ (cueCommand sq kind r s).pwr = s.pwr ∧ (cueCommand sq kind r s).conf = s.conf ∧ (cueCommand sq kind r s).pix = s.pix ∧ (cueCommand sq kind r s).gz = s.gz ∧ (cueCommand sq kind r s).lmp = s.lmp ∧ (cueCommand sq kind r s).dmk = s.dmk ∧ (cueCommand sq kind r s).od = s.od ∧ (cueCommand sq kind r s).tmg = s.tmg ∧ (cueCommand sq kind r s).pnl = s.pnl ∧ (cueCommand sq kind r s).twl = s.twl ∧ (cueCommand sq kind r s).lin = s.lin ∧ (cueCommand sq kind r s).cal = s.cal ∧ (cueCommand sq kind r s).sec = s.sec ∧ (cueCommand sq kind r s).flt = s.flt ∧ (cueCommand sq kind r s).thm = s.thm ∧ (cueCommand sq kind r s).bst = s.bst ∧ (cueCommand sq kind r s).pending = s.pending ∧ (cueCommand sq kind r s).hif.power = s.hif.power ∧ (cueCommand sq kind r s).hif.d3hot = s.hif.d3hot := by
  unfold cueCommand
  (try simp)
  (repeat' split) <;> (try simp)

@[simp] theorem cueCommand_sound (sq kind : Nat) (r : Running) (s : State) (hs : PagesSound s.mem.bytes s.mem.written) :
    PagesSound (cueCommand sq kind r s).mem.bytes (cueCommand sq kind r s).mem.written := by
  unfold cueCommand
  (try simp [hs])
  (repeat' split) <;> (try simp [hs])

@[simp] theorem setPort_frame (n : Nat) (p : Port) (s : State) :
    (setPort n p s).sys = s.sys ∧ (setPort n p s).pwr = s.pwr ∧ (setPort n p s).hif = s.hif ∧ (setPort n p s).rings = s.rings ∧ (setPort n p s).conf = s.conf ∧ (setPort n p s).ing = s.ing ∧ (setPort n p s).pix = s.pix ∧ (setPort n p s).gz = s.gz ∧ (setPort n p s).lmp = s.lmp ∧ (setPort n p s).dmk = s.dmk ∧ (setPort n p s).od = s.od ∧ (setPort n p s).tmg = s.tmg ∧ (setPort n p s).pnl = s.pnl ∧ (setPort n p s).cue = s.cue ∧ (setPort n p s).mem = s.mem ∧ (setPort n p s).lin = s.lin ∧ (setPort n p s).cal = s.cal ∧ (setPort n p s).gng = s.gng ∧ (setPort n p s).sec = s.sec ∧ (setPort n p s).flt = s.flt ∧ (setPort n p s).thm = s.thm ∧ (setPort n p s).trc = s.trc ∧ (setPort n p s).bst = s.bst ∧ (setPort n p s).out = s.out ∧ (setPort n p s).free = s.free ∧ (setPort n p s).pending = s.pending := by
  unfold setPort
  (try dsimp only)
  (repeat' split) <;> (try simp)

@[simp] theorem sendPacket_frame (n : Nat) (p : PortCfg) (b : Bytes) (s : State) :
    (sendPacket n p b s).sys = s.sys ∧ (sendPacket n p b s).pwr = s.pwr ∧ (sendPacket n p b s).hif = s.hif ∧ (sendPacket n p b s).rings = s.rings ∧ (sendPacket n p b s).conf = s.conf ∧ (sendPacket n p b s).ing = s.ing ∧ (sendPacket n p b s).pix = s.pix ∧ (sendPacket n p b s).gz = s.gz ∧ (sendPacket n p b s).lmp = s.lmp ∧ (sendPacket n p b s).dmk = s.dmk ∧ (sendPacket n p b s).od = s.od ∧ (sendPacket n p b s).tmg = s.tmg ∧ (sendPacket n p b s).pnl = s.pnl ∧ (sendPacket n p b s).cue = s.cue ∧ (sendPacket n p b s).mem = s.mem ∧ (sendPacket n p b s).lin = s.lin ∧ (sendPacket n p b s).cal = s.cal ∧ (sendPacket n p b s).gng = s.gng ∧ (sendPacket n p b s).sec = s.sec ∧ (sendPacket n p b s).flt = s.flt ∧ (sendPacket n p b s).thm = s.thm ∧ (sendPacket n p b s).trc = s.trc ∧ (sendPacket n p b s).bst = s.bst ∧ (sendPacket n p b s).free = s.free ∧ (sendPacket n p b s).pending = s.pending := by
  unfold sendPacket
  (try dsimp only)
  (repeat' split) <;> (try simp)

@[simp] theorem sendPattern_frame (lane pattern kind burst k : Nat) (s : State) :
    (sendPattern lane pattern kind burst k s).sys = s.sys ∧ (sendPattern lane pattern kind burst k s).pwr = s.pwr ∧ (sendPattern lane pattern kind burst k s).hif = s.hif ∧ (sendPattern lane pattern kind burst k s).rings = s.rings ∧ (sendPattern lane pattern kind burst k s).conf = s.conf ∧ (sendPattern lane pattern kind burst k s).ing = s.ing ∧ (sendPattern lane pattern kind burst k s).pix = s.pix ∧ (sendPattern lane pattern kind burst k s).gz = s.gz ∧ (sendPattern lane pattern kind burst k s).lmp = s.lmp ∧ (sendPattern lane pattern kind burst k s).dmk = s.dmk ∧ (sendPattern lane pattern kind burst k s).od = s.od ∧ (sendPattern lane pattern kind burst k s).tmg = s.tmg ∧ (sendPattern lane pattern kind burst k s).pnl = s.pnl ∧ (sendPattern lane pattern kind burst k s).cue = s.cue ∧ (sendPattern lane pattern kind burst k s).mem = s.mem ∧ (sendPattern lane pattern kind burst k s).lin = s.lin ∧ (sendPattern lane pattern kind burst k s).cal = s.cal ∧ (sendPattern lane pattern kind burst k s).gng = s.gng ∧ (sendPattern lane pattern kind burst k s).sec = s.sec ∧ (sendPattern lane pattern kind burst k s).flt = s.flt ∧ (sendPattern lane pattern kind burst k s).thm = s.thm ∧ (sendPattern lane pattern kind burst k s).trc = s.trc ∧ (sendPattern lane pattern kind burst k s).bst = s.bst ∧ (sendPattern lane pattern kind burst k s).pending = s.pending := by
  unfold sendPattern
  (repeat' split) <;> (try simp)

@[simp] theorem patternDue_frame (body : Bytes) (s : State) :
    (patternDue body s).sys = s.sys ∧ (patternDue body s).pwr = s.pwr ∧ (patternDue body s).hif = s.hif ∧ (patternDue body s).rings = s.rings ∧ (patternDue body s).conf = s.conf ∧ (patternDue body s).ing = s.ing ∧ (patternDue body s).pix = s.pix ∧ (patternDue body s).gz = s.gz ∧ (patternDue body s).lmp = s.lmp ∧ (patternDue body s).dmk = s.dmk ∧ (patternDue body s).od = s.od ∧ (patternDue body s).tmg = s.tmg ∧ (patternDue body s).pnl = s.pnl ∧ (patternDue body s).cue = s.cue ∧ (patternDue body s).mem = s.mem ∧ (patternDue body s).lin = s.lin ∧ (patternDue body s).cal = s.cal ∧ (patternDue body s).gng = s.gng ∧ (patternDue body s).sec = s.sec ∧ (patternDue body s).flt = s.flt ∧ (patternDue body s).thm = s.thm ∧ (patternDue body s).trc = s.trc ∧ (patternDue body s).bst = s.bst ∧ (patternDue body s).pending = s.pending := by
  unfold patternDue
  (try simp)
  (repeat' split) <;> (try simp)

@[simp] theorem wireNext_frame (g : Nat) (s : State) :
    (wireNext g s).sys = s.sys ∧ (wireNext g s).pwr = s.pwr ∧ (wireNext g s).hif = s.hif ∧ (wireNext g s).rings = s.rings ∧ (wireNext g s).conf = s.conf ∧ (wireNext g s).ing = s.ing ∧ (wireNext g s).pix = s.pix ∧ (wireNext g s).gz = s.gz ∧ (wireNext g s).lmp = s.lmp ∧ (wireNext g s).dmk = s.dmk ∧ (wireNext g s).od = s.od ∧ (wireNext g s).tmg = s.tmg ∧ (wireNext g s).pnl = s.pnl ∧ (wireNext g s).cue = s.cue ∧ (wireNext g s).mem = s.mem ∧ (wireNext g s).lin = s.lin ∧ (wireNext g s).cal = s.cal ∧ (wireNext g s).gng = s.gng ∧ (wireNext g s).sec = s.sec ∧ (wireNext g s).flt = s.flt ∧ (wireNext g s).thm = s.thm ∧ (wireNext g s).trc = s.trc ∧ (wireNext g s).bst = s.bst ∧ (wireNext g s).pending = s.pending := by
  unfold wireNext
  (try simp)
  (repeat' split) <;> (try simp)

@[simp] theorem bcSend_frame (n type : Nat) (payload : Bytes) (s : State) :
    (bcSend n type payload s).sys = s.sys ∧ (bcSend n type payload s).pwr = s.pwr ∧ (bcSend n type payload s).hif = s.hif ∧ (bcSend n type payload s).rings = s.rings ∧ (bcSend n type payload s).conf = s.conf ∧ (bcSend n type payload s).ing = s.ing ∧ (bcSend n type payload s).pix = s.pix ∧ (bcSend n type payload s).gz = s.gz ∧ (bcSend n type payload s).lmp = s.lmp ∧ (bcSend n type payload s).dmk = s.dmk ∧ (bcSend n type payload s).od = s.od ∧ (bcSend n type payload s).tmg = s.tmg ∧ (bcSend n type payload s).pnl = s.pnl ∧ (bcSend n type payload s).cue = s.cue ∧ (bcSend n type payload s).mem = s.mem ∧ (bcSend n type payload s).lin = s.lin ∧ (bcSend n type payload s).cal = s.cal ∧ (bcSend n type payload s).gng = s.gng ∧ (bcSend n type payload s).sec = s.sec ∧ (bcSend n type payload s).flt = s.flt ∧ (bcSend n type payload s).thm = s.thm ∧ (bcSend n type payload s).trc = s.trc ∧ (bcSend n type payload s).bst = s.bst ∧ (bcSend n type payload s).pending = s.pending := by
  unfold bcSend
  (try simp)
  (repeat' split) <;> (try simp)

@[simp] theorem wireOf_frame (n : Nat) (s : State) :
    (wireOf n s).sys = s.sys ∧ (wireOf n s).pwr = s.pwr ∧ (wireOf n s).hif = s.hif ∧ (wireOf n s).rings = s.rings ∧ (wireOf n s).conf = s.conf ∧ (wireOf n s).ing = s.ing ∧ (wireOf n s).pix = s.pix ∧ (wireOf n s).gz = s.gz ∧ (wireOf n s).lmp = s.lmp ∧ (wireOf n s).dmk = s.dmk ∧ (wireOf n s).od = s.od ∧ (wireOf n s).tmg = s.tmg ∧ (wireOf n s).pnl = s.pnl ∧ (wireOf n s).cue = s.cue ∧ (wireOf n s).mem = s.mem ∧ (wireOf n s).lin = s.lin ∧ (wireOf n s).cal = s.cal ∧ (wireOf n s).gng = s.gng ∧ (wireOf n s).sec = s.sec ∧ (wireOf n s).flt = s.flt ∧ (wireOf n s).thm = s.thm ∧ (wireOf n s).trc = s.trc ∧ (wireOf n s).bst = s.bst ∧ (wireOf n s).pending = s.pending := by
  unfold wireOf
  (repeat' split) <;> (try simp)

@[simp] theorem idleLanes_frame (c : PortCfg) (s : State) :
    (idleLanes c s).sys = s.sys ∧ (idleLanes c s).pwr = s.pwr ∧ (idleLanes c s).hif = s.hif ∧ (idleLanes c s).rings = s.rings ∧ (idleLanes c s).conf = s.conf ∧ (idleLanes c s).ing = s.ing ∧ (idleLanes c s).pix = s.pix ∧ (idleLanes c s).gz = s.gz ∧ (idleLanes c s).lmp = s.lmp ∧ (idleLanes c s).dmk = s.dmk ∧ (idleLanes c s).od = s.od ∧ (idleLanes c s).tmg = s.tmg ∧ (idleLanes c s).pnl = s.pnl ∧ (idleLanes c s).cue = s.cue ∧ (idleLanes c s).mem = s.mem ∧ (idleLanes c s).lin = s.lin ∧ (idleLanes c s).cal = s.cal ∧ (idleLanes c s).gng = s.gng ∧ (idleLanes c s).sec = s.sec ∧ (idleLanes c s).flt = s.flt ∧ (idleLanes c s).thm = s.thm ∧ (idleLanes c s).trc = s.trc ∧ (idleLanes c s).bst = s.bst ∧ (idleLanes c s).free = s.free ∧ (idleLanes c s).pending = s.pending := by
  unfold idleLanes
  (repeat' split) <;> (try simp)

@[simp] theorem trainLanes_frame (n : Nat) (c : PortCfg) (s : State) :
    (trainLanes n c s).sys = s.sys ∧ (trainLanes n c s).pwr = s.pwr ∧ (trainLanes n c s).hif = s.hif ∧ (trainLanes n c s).rings = s.rings ∧ (trainLanes n c s).conf = s.conf ∧ (trainLanes n c s).ing = s.ing ∧ (trainLanes n c s).pix = s.pix ∧ (trainLanes n c s).gz = s.gz ∧ (trainLanes n c s).lmp = s.lmp ∧ (trainLanes n c s).dmk = s.dmk ∧ (trainLanes n c s).od = s.od ∧ (trainLanes n c s).tmg = s.tmg ∧ (trainLanes n c s).pnl = s.pnl ∧ (trainLanes n c s).cue = s.cue ∧ (trainLanes n c s).mem = s.mem ∧ (trainLanes n c s).lin = s.lin ∧ (trainLanes n c s).cal = s.cal ∧ (trainLanes n c s).gng = s.gng ∧ (trainLanes n c s).sec = s.sec ∧ (trainLanes n c s).flt = s.flt ∧ (trainLanes n c s).thm = s.thm ∧ (trainLanes n c s).trc = s.trc ∧ (trainLanes n c s).bst = s.bst ∧ (trainLanes n c s).pending = s.pending := by
  unfold trainLanes
  (try dsimp only)
  (repeat' split) <;> (try simp)

@[simp] theorem lanesFollow_frame (g : Nat) (s : State) :
    (lanesFollow g s).sys = s.sys ∧ (lanesFollow g s).pwr = s.pwr ∧ (lanesFollow g s).hif = s.hif ∧ (lanesFollow g s).rings = s.rings ∧ (lanesFollow g s).conf = s.conf ∧ (lanesFollow g s).ing = s.ing ∧ (lanesFollow g s).pix = s.pix ∧ (lanesFollow g s).gz = s.gz ∧ (lanesFollow g s).lmp = s.lmp ∧ (lanesFollow g s).dmk = s.dmk ∧ (lanesFollow g s).od = s.od ∧ (lanesFollow g s).tmg = s.tmg ∧ (lanesFollow g s).pnl = s.pnl ∧ (lanesFollow g s).cue = s.cue ∧ (lanesFollow g s).mem = s.mem ∧ (lanesFollow g s).lin = s.lin ∧ (lanesFollow g s).cal = s.cal ∧ (lanesFollow g s).gng = s.gng ∧ (lanesFollow g s).sec = s.sec ∧ (lanesFollow g s).flt = s.flt ∧ (lanesFollow g s).thm = s.thm ∧ (lanesFollow g s).trc = s.trc ∧ (lanesFollow g s).bst = s.bst ∧ (lanesFollow g s).free = s.free ∧ (lanesFollow g s).pending = s.pending := by
  unfold lanesFollow
  (repeat' split) <;> (try simp)

@[simp] theorem liveLanes_frame (c : PortCfg) (s : State) :
    (liveLanes c s).sys = s.sys ∧ (liveLanes c s).pwr = s.pwr ∧ (liveLanes c s).hif = s.hif ∧ (liveLanes c s).rings = s.rings ∧ (liveLanes c s).conf = s.conf ∧ (liveLanes c s).ing = s.ing ∧ (liveLanes c s).pix = s.pix ∧ (liveLanes c s).gz = s.gz ∧ (liveLanes c s).lmp = s.lmp ∧ (liveLanes c s).dmk = s.dmk ∧ (liveLanes c s).od = s.od ∧ (liveLanes c s).tmg = s.tmg ∧ (liveLanes c s).pnl = s.pnl ∧ (liveLanes c s).cue = s.cue ∧ (liveLanes c s).mem = s.mem ∧ (liveLanes c s).lin = s.lin ∧ (liveLanes c s).cal = s.cal ∧ (liveLanes c s).gng = s.gng ∧ (liveLanes c s).sec = s.sec ∧ (liveLanes c s).flt = s.flt ∧ (liveLanes c s).thm = s.thm ∧ (liveLanes c s).trc = s.trc ∧ (liveLanes c s).bst = s.bst ∧ (liveLanes c s).free = s.free ∧ (liveLanes c s).pending = s.pending := by
  unfold liveLanes
  (repeat' split) <;> (try simp)

@[simp] theorem setCursors_frame (c : PortCfg) (k : Nat) (l : TwlLane) (s : State) :
    (setCursors c k l s).sys = s.sys ∧ (setCursors c k l s).pwr = s.pwr ∧ (setCursors c k l s).hif = s.hif ∧ (setCursors c k l s).rings = s.rings ∧ (setCursors c k l s).conf = s.conf ∧ (setCursors c k l s).ing = s.ing ∧ (setCursors c k l s).pix = s.pix ∧ (setCursors c k l s).gz = s.gz ∧ (setCursors c k l s).lmp = s.lmp ∧ (setCursors c k l s).dmk = s.dmk ∧ (setCursors c k l s).od = s.od ∧ (setCursors c k l s).tmg = s.tmg ∧ (setCursors c k l s).pnl = s.pnl ∧ (setCursors c k l s).twl = s.twl ∧ (setCursors c k l s).cue = s.cue ∧ (setCursors c k l s).mem = s.mem ∧ (setCursors c k l s).lin = s.lin ∧ (setCursors c k l s).cal = s.cal ∧ (setCursors c k l s).gng = s.gng ∧ (setCursors c k l s).sec = s.sec ∧ (setCursors c k l s).flt = s.flt ∧ (setCursors c k l s).thm = s.thm ∧ (setCursors c k l s).trc = s.trc ∧ (setCursors c k l s).bst = s.bst ∧ (setCursors c k l s).free = s.free ∧ (setCursors c k l s).pending = s.pending := by
  unfold setCursors
  (repeat' split) <;> (try simp)

@[simp] theorem startT0_frame (n : Nat) (s : State) :
    (startT0 n s).sys = s.sys ∧ (startT0 n s).pwr = s.pwr ∧ (startT0 n s).conf = s.conf ∧ (startT0 n s).ing = s.ing ∧ (startT0 n s).pix = s.pix ∧ (startT0 n s).gz = s.gz ∧ (startT0 n s).lmp = s.lmp ∧ (startT0 n s).dmk = s.dmk ∧ (startT0 n s).od = s.od ∧ (startT0 n s).tmg = s.tmg ∧ (startT0 n s).pnl = s.pnl ∧ (startT0 n s).cue = s.cue ∧ (startT0 n s).mem = s.mem ∧ (startT0 n s).lin = s.lin ∧ (startT0 n s).cal = s.cal ∧ (startT0 n s).gng = s.gng ∧ (startT0 n s).sec = s.sec ∧ (startT0 n s).flt = s.flt ∧ (startT0 n s).thm = s.thm ∧ (startT0 n s).bst = s.bst ∧ (startT0 n s).pending = s.pending ∧ (startT0 n s).hif.power = s.hif.power ∧ (startT0 n s).hif.bme0 = s.hif.bme0 ∧ (startT0 n s).hif.bme1 = s.hif.bme1 ∧ (startT0 n s).hif.d3hot = s.hif.d3hot ∧ (startT0 n s).rings.sqs = s.rings.sqs ∧ (startT0 n s).rings.cqs = s.rings.cqs ∧ (startT0 n s).rings.eq0 = s.rings.eq0 ∧ (startT0 n s).rings.eq1 = s.rings.eq1 := by
  unfold startT0
  (try simp)
  (repeat' split) <;> (try simp)

@[simp] theorem sendSpareMap_frame (n lane : Nat) (s : State) :
    (sendSpareMap n lane s).sys = s.sys ∧ (sendSpareMap n lane s).pwr = s.pwr ∧ (sendSpareMap n lane s).hif = s.hif ∧ (sendSpareMap n lane s).rings = s.rings ∧ (sendSpareMap n lane s).conf = s.conf ∧ (sendSpareMap n lane s).ing = s.ing ∧ (sendSpareMap n lane s).pix = s.pix ∧ (sendSpareMap n lane s).gz = s.gz ∧ (sendSpareMap n lane s).lmp = s.lmp ∧ (sendSpareMap n lane s).dmk = s.dmk ∧ (sendSpareMap n lane s).od = s.od ∧ (sendSpareMap n lane s).tmg = s.tmg ∧ (sendSpareMap n lane s).pnl = s.pnl ∧ (sendSpareMap n lane s).cue = s.cue ∧ (sendSpareMap n lane s).mem = s.mem ∧ (sendSpareMap n lane s).lin = s.lin ∧ (sendSpareMap n lane s).cal = s.cal ∧ (sendSpareMap n lane s).gng = s.gng ∧ (sendSpareMap n lane s).sec = s.sec ∧ (sendSpareMap n lane s).flt = s.flt ∧ (sendSpareMap n lane s).thm = s.thm ∧ (sendSpareMap n lane s).trc = s.trc ∧ (sendSpareMap n lane s).bst = s.bst ∧ (sendSpareMap n lane s).pending = s.pending := by
  unfold sendSpareMap
  (repeat' split) <;> (try simp)

@[simp] theorem startOnSpare_frame (n : Nat) (c : PortCfg) (s : State) :
    (startOnSpare n c s).sys = s.sys ∧ (startOnSpare n c s).pwr = s.pwr ∧ (startOnSpare n c s).conf = s.conf ∧ (startOnSpare n c s).ing = s.ing ∧ (startOnSpare n c s).pix = s.pix ∧ (startOnSpare n c s).gz = s.gz ∧ (startOnSpare n c s).lmp = s.lmp ∧ (startOnSpare n c s).dmk = s.dmk ∧ (startOnSpare n c s).od = s.od ∧ (startOnSpare n c s).tmg = s.tmg ∧ (startOnSpare n c s).pnl = s.pnl ∧ (startOnSpare n c s).cue = s.cue ∧ (startOnSpare n c s).mem = s.mem ∧ (startOnSpare n c s).lin = s.lin ∧ (startOnSpare n c s).cal = s.cal ∧ (startOnSpare n c s).gng = s.gng ∧ (startOnSpare n c s).sec = s.sec ∧ (startOnSpare n c s).flt = s.flt ∧ (startOnSpare n c s).thm = s.thm ∧ (startOnSpare n c s).bst = s.bst ∧ (startOnSpare n c s).pending = s.pending ∧ (startOnSpare n c s).hif.power = s.hif.power ∧ (startOnSpare n c s).hif.bme0 = s.hif.bme0 ∧ (startOnSpare n c s).hif.bme1 = s.hif.bme1 ∧ (startOnSpare n c s).hif.d3hot = s.hif.d3hot ∧ (startOnSpare n c s).rings.sqs = s.rings.sqs ∧ (startOnSpare n c s).rings.cqs = s.rings.cqs ∧ (startOnSpare n c s).rings.eq0 = s.rings.eq0 ∧ (startOnSpare n c s).rings.eq1 = s.rings.eq1 := by
  unfold startOnSpare
  (try simp)
  (repeat' split) <;> (try simp)

@[simp] theorem trainPort_frame (initial : Bool) (n : Nat) (s : State) :
    (trainPort initial n s).sys = s.sys ∧ (trainPort initial n s).pwr = s.pwr ∧ (trainPort initial n s).conf = s.conf ∧ (trainPort initial n s).ing = s.ing ∧ (trainPort initial n s).pix = s.pix ∧ (trainPort initial n s).gz = s.gz ∧ (trainPort initial n s).lmp = s.lmp ∧ (trainPort initial n s).dmk = s.dmk ∧ (trainPort initial n s).od = s.od ∧ (trainPort initial n s).tmg = s.tmg ∧ (trainPort initial n s).pnl = s.pnl ∧ (trainPort initial n s).cue = s.cue ∧ (trainPort initial n s).mem = s.mem ∧ (trainPort initial n s).lin = s.lin ∧ (trainPort initial n s).cal = s.cal ∧ (trainPort initial n s).gng = s.gng ∧ (trainPort initial n s).sec = s.sec ∧ (trainPort initial n s).flt = s.flt ∧ (trainPort initial n s).thm = s.thm ∧ (trainPort initial n s).bst = s.bst ∧ (trainPort initial n s).pending = s.pending ∧ (trainPort initial n s).hif.power = s.hif.power ∧ (trainPort initial n s).hif.bme0 = s.hif.bme0 ∧ (trainPort initial n s).hif.bme1 = s.hif.bme1 ∧ (trainPort initial n s).hif.d3hot = s.hif.d3hot ∧ (trainPort initial n s).rings.sqs = s.rings.sqs ∧ (trainPort initial n s).rings.cqs = s.rings.cqs ∧ (trainPort initial n s).rings.eq0 = s.rings.eq0 ∧ (trainPort initial n s).rings.eq1 = s.rings.eq1 := by
  unfold trainPort
  (try simp)
  (repeat' split) <;> (try simp)

@[simp] theorem endTraining_frame (ms : Option Nat) (s : State) :
    (endTraining ms s).sys = s.sys ∧ (endTraining ms s).pwr = s.pwr ∧ (endTraining ms s).conf = s.conf ∧ (endTraining ms s).ing = s.ing ∧ (endTraining ms s).pix = s.pix ∧ (endTraining ms s).gz = s.gz ∧ (endTraining ms s).lmp = s.lmp ∧ (endTraining ms s).dmk = s.dmk ∧ (endTraining ms s).od = s.od ∧ (endTraining ms s).tmg = s.tmg ∧ (endTraining ms s).cue = s.cue ∧ (endTraining ms s).mem = s.mem ∧ (endTraining ms s).lin = s.lin ∧ (endTraining ms s).cal = s.cal ∧ (endTraining ms s).gng = s.gng ∧ (endTraining ms s).sec = s.sec ∧ (endTraining ms s).flt = s.flt ∧ (endTraining ms s).thm = s.thm ∧ (endTraining ms s).trc = s.trc ∧ (endTraining ms s).bst = s.bst ∧ (endTraining ms s).pending = s.pending ∧ (endTraining ms s).hif.power = s.hif.power ∧ (endTraining ms s).hif.bme0 = s.hif.bme0 ∧ (endTraining ms s).hif.bme1 = s.hif.bme1 ∧ (endTraining ms s).hif.d3hot = s.hif.d3hot ∧ (endTraining ms s).pnl.state = s.pnl.state ∧ (endTraining ms s).rings.sqs = s.rings.sqs := by
  unfold endTraining
  (try simp)
  (repeat' split) <;> (try simp)

@[simp] theorem useSpare_frame (n : Nat) (c : PortCfg) (logical : Nat) (s : State) :
    (useSpare n c logical s).sys = s.sys ∧ (useSpare n c logical s).pwr = s.pwr ∧ (useSpare n c logical s).conf = s.conf ∧ (useSpare n c logical s).ing = s.ing ∧ (useSpare n c logical s).pix = s.pix ∧ (useSpare n c logical s).gz = s.gz ∧ (useSpare n c logical s).lmp = s.lmp ∧ (useSpare n c logical s).dmk = s.dmk ∧ (useSpare n c logical s).od = s.od ∧ (useSpare n c logical s).tmg = s.tmg ∧ (useSpare n c logical s).pnl = s.pnl ∧ (useSpare n c logical s).cue = s.cue ∧ (useSpare n c logical s).mem = s.mem ∧ (useSpare n c logical s).cal = s.cal ∧ (useSpare n c logical s).gng = s.gng ∧ (useSpare n c logical s).sec = s.sec ∧ (useSpare n c logical s).flt = s.flt ∧ (useSpare n c logical s).thm = s.thm ∧ (useSpare n c logical s).bst = s.bst ∧ (useSpare n c logical s).pending = s.pending ∧ (useSpare n c logical s).hif.power = s.hif.power ∧ (useSpare n c logical s).hif.bme0 = s.hif.bme0 ∧ (useSpare n c logical s).hif.bme1 = s.hif.bme1 ∧ (useSpare n c logical s).hif.d3hot = s.hif.d3hot ∧ (useSpare n c logical s).rings.sqs = s.rings.sqs := by
  unfold useSpare
  (try dsimp only)
  (repeat' split) <;> (try simp)

@[simp] theorem lanePending_frame (g logical : Nat) (s : State) :
    (lanePending g logical s).sys = s.sys ∧ (lanePending g logical s).pwr = s.pwr ∧ (lanePending g logical s).conf = s.conf ∧ (lanePending g logical s).ing = s.ing ∧ (lanePending g logical s).pix = s.pix ∧ (lanePending g logical s).gz = s.gz ∧ (lanePending g logical s).lmp = s.lmp ∧ (lanePending g logical s).dmk = s.dmk ∧ (lanePending g logical s).od = s.od ∧ (lanePending g logical s).tmg = s.tmg ∧ (lanePending g logical s).pnl = s.pnl ∧ (lanePending g logical s).cue = s.cue ∧ (lanePending g logical s).mem = s.mem ∧ (lanePending g logical s).lin = s.lin ∧ (lanePending g logical s).cal = s.cal ∧ (lanePending g logical s).gng = s.gng ∧ (lanePending g logical s).sec = s.sec ∧ (lanePending g logical s).flt = s.flt ∧ (lanePending g logical s).thm = s.thm ∧ (lanePending g logical s).trc = s.trc ∧ (lanePending g logical s).bst = s.bst ∧ (lanePending g logical s).free = s.free ∧ (lanePending g logical s).pending = s.pending ∧ (lanePending g logical s).hif.power = s.hif.power ∧ (lanePending g logical s).hif.bme0 = s.hif.bme0 ∧ (lanePending g logical s).hif.bme1 = s.hif.bme1 ∧ (lanePending g logical s).hif.d3hot = s.hif.d3hot ∧ (lanePending g logical s).rings.sqs = s.rings.sqs := by
  unfold lanePending
  (try dsimp only)
  (repeat' split) <;> (try simp)

@[simp] theorem portFailed_frame (n phase reason : Nat) (s : State) :
    (portFailed n phase reason s).sys = s.sys ∧ (portFailed n phase reason s).pwr = s.pwr ∧ (portFailed n phase reason s).conf = s.conf ∧ (portFailed n phase reason s).ing = s.ing ∧ (portFailed n phase reason s).pix = s.pix ∧ (portFailed n phase reason s).gz = s.gz ∧ (portFailed n phase reason s).lmp = s.lmp ∧ (portFailed n phase reason s).dmk = s.dmk ∧ (portFailed n phase reason s).od = s.od ∧ (portFailed n phase reason s).tmg = s.tmg ∧ (portFailed n phase reason s).pnl = s.pnl ∧ (portFailed n phase reason s).cue = s.cue ∧ (portFailed n phase reason s).mem = s.mem ∧ (portFailed n phase reason s).lin = s.lin ∧ (portFailed n phase reason s).cal = s.cal ∧ (portFailed n phase reason s).gng = s.gng ∧ (portFailed n phase reason s).sec = s.sec ∧ (portFailed n phase reason s).flt = s.flt ∧ (portFailed n phase reason s).thm = s.thm ∧ (portFailed n phase reason s).bst = s.bst ∧ (portFailed n phase reason s).pending = s.pending ∧ (portFailed n phase reason s).hif.power = s.hif.power ∧ (portFailed n phase reason s).hif.bme0 = s.hif.bme0 ∧ (portFailed n phase reason s).hif.bme1 = s.hif.bme1 ∧ (portFailed n phase reason s).hif.d3hot = s.hif.d3hot ∧ (portFailed n phase reason s).rings.sqs = s.rings.sqs := by
  unfold portFailed
  (try simp)
  (repeat' split) <;> (try simp)

@[simp] theorem lastAttempt_frame (n phase reason : Nat) (s : State) :
    (lastAttempt n phase reason s).sys = s.sys ∧ (lastAttempt n phase reason s).pwr = s.pwr ∧ (lastAttempt n phase reason s).conf = s.conf ∧ (lastAttempt n phase reason s).ing = s.ing ∧ (lastAttempt n phase reason s).pix = s.pix ∧ (lastAttempt n phase reason s).gz = s.gz ∧ (lastAttempt n phase reason s).lmp = s.lmp ∧ (lastAttempt n phase reason s).dmk = s.dmk ∧ (lastAttempt n phase reason s).od = s.od ∧ (lastAttempt n phase reason s).tmg = s.tmg ∧ (lastAttempt n phase reason s).pnl = s.pnl ∧ (lastAttempt n phase reason s).cue = s.cue ∧ (lastAttempt n phase reason s).mem = s.mem ∧ (lastAttempt n phase reason s).cal = s.cal ∧ (lastAttempt n phase reason s).gng = s.gng ∧ (lastAttempt n phase reason s).sec = s.sec ∧ (lastAttempt n phase reason s).flt = s.flt ∧ (lastAttempt n phase reason s).thm = s.thm ∧ (lastAttempt n phase reason s).bst = s.bst ∧ (lastAttempt n phase reason s).pending = s.pending ∧ (lastAttempt n phase reason s).hif.power = s.hif.power ∧ (lastAttempt n phase reason s).hif.bme0 = s.hif.bme0 ∧ (lastAttempt n phase reason s).hif.bme1 = s.hif.bme1 ∧ (lastAttempt n phase reason s).hif.d3hot = s.hif.d3hot ∧ (lastAttempt n phase reason s).rings.sqs = s.rings.sqs := by
  unfold lastAttempt
  (try simp)
  (repeat' split) <;> (try simp)

@[simp] theorem failPhase_frame (n phase reason : Nat) (s : State) :
    (failPhase n phase reason s).sys = s.sys ∧ (failPhase n phase reason s).pwr = s.pwr ∧ (failPhase n phase reason s).conf = s.conf ∧ (failPhase n phase reason s).ing = s.ing ∧ (failPhase n phase reason s).pix = s.pix ∧ (failPhase n phase reason s).gz = s.gz ∧ (failPhase n phase reason s).lmp = s.lmp ∧ (failPhase n phase reason s).dmk = s.dmk ∧ (failPhase n phase reason s).od = s.od ∧ (failPhase n phase reason s).tmg = s.tmg ∧ (failPhase n phase reason s).pnl = s.pnl ∧ (failPhase n phase reason s).cue = s.cue ∧ (failPhase n phase reason s).mem = s.mem ∧ (failPhase n phase reason s).cal = s.cal ∧ (failPhase n phase reason s).gng = s.gng ∧ (failPhase n phase reason s).sec = s.sec ∧ (failPhase n phase reason s).flt = s.flt ∧ (failPhase n phase reason s).thm = s.thm ∧ (failPhase n phase reason s).bst = s.bst ∧ (failPhase n phase reason s).pending = s.pending ∧ (failPhase n phase reason s).hif.power = s.hif.power ∧ (failPhase n phase reason s).hif.bme0 = s.hif.bme0 ∧ (failPhase n phase reason s).hif.bme1 = s.hif.bme1 ∧ (failPhase n phase reason s).hif.d3hot = s.hif.d3hot ∧ (failPhase n phase reason s).rings.sqs = s.rings.sqs := by
  unfold failPhase
  (try simp)
  (repeat' split) <;> (try simp)

@[simp] theorem nextLane_frame (n : Nat) (c : PortCfg) (s : State) :
    (nextLane n c s).sys = s.sys ∧ (nextLane n c s).pwr = s.pwr ∧ (nextLane n c s).conf = s.conf ∧ (nextLane n c s).ing = s.ing ∧ (nextLane n c s).pix = s.pix ∧ (nextLane n c s).gz = s.gz ∧ (nextLane n c s).lmp = s.lmp ∧ (nextLane n c s).dmk = s.dmk ∧ (nextLane n c s).od = s.od ∧ (nextLane n c s).tmg = s.tmg ∧ (nextLane n c s).pnl = s.pnl ∧ (nextLane n c s).cue = s.cue ∧ (nextLane n c s).mem = s.mem ∧ (nextLane n c s).lin = s.lin ∧ (nextLane n c s).cal = s.cal ∧ (nextLane n c s).gng = s.gng ∧ (nextLane n c s).sec = s.sec ∧ (nextLane n c s).flt = s.flt ∧ (nextLane n c s).thm = s.thm ∧ (nextLane n c s).bst = s.bst ∧ (nextLane n c s).pending = s.pending ∧ (nextLane n c s).hif.power = s.hif.power ∧ (nextLane n c s).hif.bme0 = s.hif.bme0 ∧ (nextLane n c s).hif.bme1 = s.hif.bme1 ∧ (nextLane n c s).hif.d3hot = s.hif.d3hot ∧ (nextLane n c s).rings.sqs = s.rings.sqs ∧ (nextLane n c s).rings.cqs = s.rings.cqs ∧ (nextLane n c s).rings.eq0 = s.rings.eq0 ∧ (nextLane n c s).rings.eq1 = s.rings.eq1 := by
  unfold nextLane
  (try simp)
  (repeat' split) <;> (try simp)

@[simp] theorem startT2_frame (n : Nat) (c : PortCfg) (s : State) :
    (startT2 n c s).sys = s.sys ∧ (startT2 n c s).pwr = s.pwr ∧ (startT2 n c s).conf = s.conf ∧ (startT2 n c s).ing = s.ing ∧ (startT2 n c s).pix = s.pix ∧ (startT2 n c s).gz = s.gz ∧ (startT2 n c s).lmp = s.lmp ∧ (startT2 n c s).dmk = s.dmk ∧ (startT2 n c s).od = s.od ∧ (startT2 n c s).tmg = s.tmg ∧ (startT2 n c s).pnl = s.pnl ∧ (startT2 n c s).cue = s.cue ∧ (startT2 n c s).mem = s.mem ∧ (startT2 n c s).lin = s.lin ∧ (startT2 n c s).cal = s.cal ∧ (startT2 n c s).gng = s.gng ∧ (startT2 n c s).sec = s.sec ∧ (startT2 n c s).flt = s.flt ∧ (startT2 n c s).thm = s.thm ∧ (startT2 n c s).bst = s.bst ∧ (startT2 n c s).pending = s.pending ∧ (startT2 n c s).hif.power = s.hif.power ∧ (startT2 n c s).hif.bme0 = s.hif.bme0 ∧ (startT2 n c s).hif.bme1 = s.hif.bme1 ∧ (startT2 n c s).hif.d3hot = s.hif.d3hot ∧ (startT2 n c s).rings.sqs = s.rings.sqs := by
  unfold startT2
  (try dsimp only)
  (repeat' split) <;> (try simp)

@[simp] theorem startT4_frame (n : Nat) (c : PortCfg) (s : State) :
    (startT4 n c s).sys = s.sys ∧ (startT4 n c s).pwr = s.pwr ∧ (startT4 n c s).conf = s.conf ∧ (startT4 n c s).ing = s.ing ∧ (startT4 n c s).pix = s.pix ∧ (startT4 n c s).gz = s.gz ∧ (startT4 n c s).lmp = s.lmp ∧ (startT4 n c s).dmk = s.dmk ∧ (startT4 n c s).od = s.od ∧ (startT4 n c s).tmg = s.tmg ∧ (startT4 n c s).pnl = s.pnl ∧ (startT4 n c s).cue = s.cue ∧ (startT4 n c s).mem = s.mem ∧ (startT4 n c s).lin = s.lin ∧ (startT4 n c s).cal = s.cal ∧ (startT4 n c s).gng = s.gng ∧ (startT4 n c s).sec = s.sec ∧ (startT4 n c s).flt = s.flt ∧ (startT4 n c s).thm = s.thm ∧ (startT4 n c s).bst = s.bst ∧ (startT4 n c s).pending = s.pending ∧ (startT4 n c s).hif.power = s.hif.power ∧ (startT4 n c s).hif.bme0 = s.hif.bme0 ∧ (startT4 n c s).hif.bme1 = s.hif.bme1 ∧ (startT4 n c s).hif.d3hot = s.hif.d3hot ∧ (startT4 n c s).rings.sqs = s.rings.sqs ∧ (startT4 n c s).rings.cqs = s.rings.cqs ∧ (startT4 n c s).rings.eq0 = s.rings.eq0 ∧ (startT4 n c s).rings.eq1 = s.rings.eq1 := by
  unfold startT4
  (try dsimp only)
  (repeat' split) <;> (try simp)

@[simp] theorem gotPong_frame (n : Nat) (c : PortCfg) (t : Nat) (d : Bytes) (s : State) :
    (gotPong n c t d s).sys = s.sys ∧ (gotPong n c t d s).pwr = s.pwr ∧ (gotPong n c t d s).conf = s.conf ∧ (gotPong n c t d s).ing = s.ing ∧ (gotPong n c t d s).pix = s.pix ∧ (gotPong n c t d s).gz = s.gz ∧ (gotPong n c t d s).lmp = s.lmp ∧ (gotPong n c t d s).dmk = s.dmk ∧ (gotPong n c t d s).od = s.od ∧ (gotPong n c t d s).tmg = s.tmg ∧ (gotPong n c t d s).pnl = s.pnl ∧ (gotPong n c t d s).cue = s.cue ∧ (gotPong n c t d s).mem = s.mem ∧ (gotPong n c t d s).cal = s.cal ∧ (gotPong n c t d s).gng = s.gng ∧ (gotPong n c t d s).sec = s.sec ∧ (gotPong n c t d s).flt = s.flt ∧ (gotPong n c t d s).thm = s.thm ∧ (gotPong n c t d s).bst = s.bst ∧ (gotPong n c t d s).pending = s.pending ∧ (gotPong n c t d s).hif.power = s.hif.power ∧ (gotPong n c t d s).hif.bme0 = s.hif.bme0 ∧ (gotPong n c t d s).hif.bme1 = s.hif.bme1 ∧ (gotPong n c t d s).hif.d3hot = s.hif.d3hot ∧ (gotPong n c t d s).rings.sqs = s.rings.sqs := by
  unfold gotPong
  (try simp)
  (repeat' split) <;> (try simp)

@[simp] theorem gotEqReq_frame (n : Nat) (c : PortCfg) (d : Bytes) (s : State) :
    (gotEqReq n c d s).sys = s.sys ∧ (gotEqReq n c d s).pwr = s.pwr ∧ (gotEqReq n c d s).conf = s.conf ∧ (gotEqReq n c d s).ing = s.ing ∧ (gotEqReq n c d s).pix = s.pix ∧ (gotEqReq n c d s).gz = s.gz ∧ (gotEqReq n c d s).lmp = s.lmp ∧ (gotEqReq n c d s).dmk = s.dmk ∧ (gotEqReq n c d s).od = s.od ∧ (gotEqReq n c d s).tmg = s.tmg ∧ (gotEqReq n c d s).pnl = s.pnl ∧ (gotEqReq n c d s).cue = s.cue ∧ (gotEqReq n c d s).mem = s.mem ∧ (gotEqReq n c d s).cal = s.cal ∧ (gotEqReq n c d s).gng = s.gng ∧ (gotEqReq n c d s).sec = s.sec ∧ (gotEqReq n c d s).flt = s.flt ∧ (gotEqReq n c d s).thm = s.thm ∧ (gotEqReq n c d s).bst = s.bst ∧ (gotEqReq n c d s).pending = s.pending ∧ (gotEqReq n c d s).hif.power = s.hif.power ∧ (gotEqReq n c d s).hif.bme0 = s.hif.bme0 ∧ (gotEqReq n c d s).hif.bme1 = s.hif.bme1 ∧ (gotEqReq n c d s).hif.d3hot = s.hif.d3hot ∧ (gotEqReq n c d s).rings.sqs = s.rings.sqs := by
  unfold gotEqReq
  (try simp)
  (repeat' split) <;> (try simp)

@[simp] theorem gotStatus_frame (n : Nat) (c : PortCfg) (d : Bytes) (s : State) :
    (gotStatus n c d s).sys = s.sys ∧ (gotStatus n c d s).pwr = s.pwr ∧ (gotStatus n c d s).conf = s.conf ∧ (gotStatus n c d s).ing = s.ing ∧ (gotStatus n c d s).pix = s.pix ∧ (gotStatus n c d s).gz = s.gz ∧ (gotStatus n c d s).lmp = s.lmp ∧ (gotStatus n c d s).dmk = s.dmk ∧ (gotStatus n c d s).od = s.od ∧ (gotStatus n c d s).tmg = s.tmg ∧ (gotStatus n c d s).pnl = s.pnl ∧ (gotStatus n c d s).cue = s.cue ∧ (gotStatus n c d s).mem = s.mem ∧ (gotStatus n c d s).lin = s.lin ∧ (gotStatus n c d s).cal = s.cal ∧ (gotStatus n c d s).gng = s.gng ∧ (gotStatus n c d s).sec = s.sec ∧ (gotStatus n c d s).flt = s.flt ∧ (gotStatus n c d s).thm = s.thm ∧ (gotStatus n c d s).bst = s.bst ∧ (gotStatus n c d s).pending = s.pending ∧ (gotStatus n c d s).hif.power = s.hif.power ∧ (gotStatus n c d s).hif.bme0 = s.hif.bme0 ∧ (gotStatus n c d s).hif.bme1 = s.hif.bme1 ∧ (gotStatus n c d s).hif.d3hot = s.hif.d3hot ∧ (gotStatus n c d s).rings.sqs = s.rings.sqs := by
  unfold gotStatus
  (try simp)
  (repeat' split) <;> (try simp)

@[simp] theorem setStage_frame (lane : Nat) (f : LaneStage → LaneStage) (s : State) :
    (setStage lane f s).sys = s.sys ∧ (setStage lane f s).pwr = s.pwr ∧ (setStage lane f s).hif = s.hif ∧ (setStage lane f s).rings = s.rings ∧ (setStage lane f s).conf = s.conf ∧ (setStage lane f s).ing = s.ing ∧ (setStage lane f s).pix = s.pix ∧ (setStage lane f s).gz = s.gz ∧ (setStage lane f s).lmp = s.lmp ∧ (setStage lane f s).dmk = s.dmk ∧ (setStage lane f s).od = s.od ∧ (setStage lane f s).tmg = s.tmg ∧ (setStage lane f s).pnl = s.pnl ∧ (setStage lane f s).twl = s.twl ∧ (setStage lane f s).cue = s.cue ∧ (setStage lane f s).mem = s.mem ∧ (setStage lane f s).lin = s.lin ∧ (setStage lane f s).gng = s.gng ∧ (setStage lane f s).sec = s.sec ∧ (setStage lane f s).flt = s.flt ∧ (setStage lane f s).thm = s.thm ∧ (setStage lane f s).trc = s.trc ∧ (setStage lane f s).bst = s.bst ∧ (setStage lane f s).out = s.out ∧ (setStage lane f s).free = s.free ∧ (setStage lane f s).pending = s.pending := by
  unfold setStage
  (try dsimp only)
  (repeat' split) <;> (try simp)

@[simp] theorem pollEnded_frame (n : Nat) (c : PortCfg) (k : Nat) (x : Option Stats) (s : State) :
    (pollEnded n c k x s).sys = s.sys ∧ (pollEnded n c k x s).pwr = s.pwr ∧ (pollEnded n c k x s).hif = s.hif ∧ (pollEnded n c k x s).rings = s.rings ∧ (pollEnded n c k x s).conf = s.conf ∧ (pollEnded n c k x s).ing = s.ing ∧ (pollEnded n c k x s).pix = s.pix ∧ (pollEnded n c k x s).gz = s.gz ∧ (pollEnded n c k x s).lmp = s.lmp ∧ (pollEnded n c k x s).dmk = s.dmk ∧ (pollEnded n c k x s).od = s.od ∧ (pollEnded n c k x s).tmg = s.tmg ∧ (pollEnded n c k x s).pnl = s.pnl ∧ (pollEnded n c k x s).cue = s.cue ∧ (pollEnded n c k x s).mem = s.mem ∧ (pollEnded n c k x s).lin = s.lin ∧ (pollEnded n c k x s).gng = s.gng ∧ (pollEnded n c k x s).sec = s.sec ∧ (pollEnded n c k x s).flt = s.flt ∧ (pollEnded n c k x s).thm = s.thm ∧ (pollEnded n c k x s).trc = s.trc ∧ (pollEnded n c k x s).bst = s.bst ∧ (pollEnded n c k x s).out = s.out ∧ (pollEnded n c k x s).free = s.free ∧ (pollEnded n c k x s).pending = s.pending := by
  unfold pollEnded
  (try dsimp only)
  (repeat' split) <;> (try simp)

@[simp] theorem gotPrbs_frame (n : Nat) (d : Bytes) (s : State) :
    (gotPrbs n d s).sys = s.sys ∧ (gotPrbs n d s).pwr = s.pwr ∧ (gotPrbs n d s).hif = s.hif ∧ (gotPrbs n d s).rings = s.rings ∧ (gotPrbs n d s).conf = s.conf ∧ (gotPrbs n d s).ing = s.ing ∧ (gotPrbs n d s).pix = s.pix ∧ (gotPrbs n d s).gz = s.gz ∧ (gotPrbs n d s).lmp = s.lmp ∧ (gotPrbs n d s).dmk = s.dmk ∧ (gotPrbs n d s).od = s.od ∧ (gotPrbs n d s).tmg = s.tmg ∧ (gotPrbs n d s).pnl = s.pnl ∧ (gotPrbs n d s).cue = s.cue ∧ (gotPrbs n d s).mem = s.mem ∧ (gotPrbs n d s).lin = s.lin ∧ (gotPrbs n d s).cal = s.cal ∧ (gotPrbs n d s).gng = s.gng ∧ (gotPrbs n d s).sec = s.sec ∧ (gotPrbs n d s).flt = s.flt ∧ (gotPrbs n d s).thm = s.thm ∧ (gotPrbs n d s).trc = s.trc ∧ (gotPrbs n d s).bst = s.bst ∧ (gotPrbs n d s).out = s.out ∧ (gotPrbs n d s).free = s.free ∧ (gotPrbs n d s).pending = s.pending := by
  unfold gotPrbs
  (try dsimp only)
  (repeat' split) <;> (try simp)

@[simp] theorem gotAck_frame (n : Nat) (c : PortCfg) (body : Bytes) (s : State) :
    (gotAck n c body s).sys = s.sys ∧ (gotAck n c body s).pwr = s.pwr ∧ (gotAck n c body s).conf = s.conf ∧ (gotAck n c body s).ing = s.ing ∧ (gotAck n c body s).pix = s.pix ∧ (gotAck n c body s).gz = s.gz ∧ (gotAck n c body s).lmp = s.lmp ∧ (gotAck n c body s).dmk = s.dmk ∧ (gotAck n c body s).od = s.od ∧ (gotAck n c body s).tmg = s.tmg ∧ (gotAck n c body s).cue = s.cue ∧ (gotAck n c body s).mem = s.mem ∧ (gotAck n c body s).lin = s.lin ∧ (gotAck n c body s).cal = s.cal ∧ (gotAck n c body s).gng = s.gng ∧ (gotAck n c body s).sec = s.sec ∧ (gotAck n c body s).flt = s.flt ∧ (gotAck n c body s).thm = s.thm ∧ (gotAck n c body s).bst = s.bst ∧ (gotAck n c body s).pending = s.pending ∧ (gotAck n c body s).hif.power = s.hif.power ∧ (gotAck n c body s).hif.bme0 = s.hif.bme0 ∧ (gotAck n c body s).hif.bme1 = s.hif.bme1 ∧ (gotAck n c body s).hif.d3hot = s.hif.d3hot ∧ (gotAck n c body s).pnl.state = s.pnl.state ∧ (gotAck n c body s).rings.sqs = s.rings.sqs := by
  unfold gotAck
  (try simp)
  (repeat' split) <;> (try simp)

@[simp] theorem gotCfgAck_frame (n : Nat) (d : Bytes) (s : State) :
    (gotCfgAck n d s).sys = s.sys ∧ (gotCfgAck n d s).pwr = s.pwr ∧ (gotCfgAck n d s).conf = s.conf ∧ (gotCfgAck n d s).ing = s.ing ∧ (gotCfgAck n d s).pix = s.pix ∧ (gotCfgAck n d s).gz = s.gz ∧ (gotCfgAck n d s).lmp = s.lmp ∧ (gotCfgAck n d s).dmk = s.dmk ∧ (gotCfgAck n d s).od = s.od ∧ (gotCfgAck n d s).tmg = s.tmg ∧ (gotCfgAck n d s).pnl = s.pnl ∧ (gotCfgAck n d s).cue = s.cue ∧ (gotCfgAck n d s).mem = s.mem ∧ (gotCfgAck n d s).cal = s.cal ∧ (gotCfgAck n d s).gng = s.gng ∧ (gotCfgAck n d s).sec = s.sec ∧ (gotCfgAck n d s).flt = s.flt ∧ (gotCfgAck n d s).thm = s.thm ∧ (gotCfgAck n d s).bst = s.bst ∧ (gotCfgAck n d s).pending = s.pending ∧ (gotCfgAck n d s).hif.power = s.hif.power ∧ (gotCfgAck n d s).hif.bme0 = s.hif.bme0 ∧ (gotCfgAck n d s).hif.bme1 = s.hif.bme1 ∧ (gotCfgAck n d s).hif.d3hot = s.hif.d3hot ∧ (gotCfgAck n d s).rings.sqs = s.rings.sqs := by
  unfold gotCfgAck
  (try simp)
  (repeat' split) <;> (try simp)

@[simp] theorem gotReply_frame (n : Nat) (c : PortCfg) (body d : Bytes) (s : State) :
    (gotReply n c body d s).sys = s.sys ∧ (gotReply n c body d s).pwr = s.pwr ∧ (gotReply n c body d s).conf = s.conf ∧ (gotReply n c body d s).ing = s.ing ∧ (gotReply n c body d s).pix = s.pix ∧ (gotReply n c body d s).gz = s.gz ∧ (gotReply n c body d s).lmp = s.lmp ∧ (gotReply n c body d s).dmk = s.dmk ∧ (gotReply n c body d s).od = s.od ∧ (gotReply n c body d s).tmg = s.tmg ∧ (gotReply n c body d s).cue = s.cue ∧ (gotReply n c body d s).mem = s.mem ∧ (gotReply n c body d s).gng = s.gng ∧ (gotReply n c body d s).sec = s.sec ∧ (gotReply n c body d s).flt = s.flt ∧ (gotReply n c body d s).thm = s.thm ∧ (gotReply n c body d s).bst = s.bst ∧ (gotReply n c body d s).pending = s.pending ∧ (gotReply n c body d s).hif.power = s.hif.power ∧ (gotReply n c body d s).hif.bme0 = s.hif.bme0 ∧ (gotReply n c body d s).hif.bme1 = s.hif.bme1 ∧ (gotReply n c body d s).hif.d3hot = s.hif.d3hot ∧ (gotReply n c body d s).pnl.state = s.pnl.state ∧ (gotReply n c body d s).rings.sqs = s.rings.sqs := by
  unfold gotReply
  (try simp)
  (repeat' split) <;> (try simp)

@[simp] theorem noReply_frame (n : Nat) (c : PortCfg) (body : Bytes) (s : State) :
    (noReply n c body s).sys = s.sys ∧ (noReply n c body s).pwr = s.pwr ∧ (noReply n c body s).conf = s.conf ∧ (noReply n c body s).ing = s.ing ∧ (noReply n c body s).pix = s.pix ∧ (noReply n c body s).gz = s.gz ∧ (noReply n c body s).lmp = s.lmp ∧ (noReply n c body s).dmk = s.dmk ∧ (noReply n c body s).od = s.od ∧ (noReply n c body s).tmg = s.tmg ∧ (noReply n c body s).pnl = s.pnl ∧ (noReply n c body s).cue = s.cue ∧ (noReply n c body s).mem = s.mem ∧ (noReply n c body s).gng = s.gng ∧ (noReply n c body s).sec = s.sec ∧ (noReply n c body s).flt = s.flt ∧ (noReply n c body s).thm = s.thm ∧ (noReply n c body s).bst = s.bst ∧ (noReply n c body s).pending = s.pending ∧ (noReply n c body s).hif.power = s.hif.power ∧ (noReply n c body s).hif.bme0 = s.hif.bme0 ∧ (noReply n c body s).hif.bme1 = s.hif.bme1 ∧ (noReply n c body s).hif.d3hot = s.hif.d3hot ∧ (noReply n c body s).rings.sqs = s.rings.sqs := by
  unfold noReply
  (try simp)
  (repeat' split) <;> (try simp)

@[simp] theorem replyTimeout_frame (n : Nat) (s : State) :
    (replyTimeout n s).sys = s.sys ∧ (replyTimeout n s).pwr = s.pwr ∧ (replyTimeout n s).conf = s.conf ∧ (replyTimeout n s).ing = s.ing ∧ (replyTimeout n s).pix = s.pix ∧ (replyTimeout n s).gz = s.gz ∧ (replyTimeout n s).lmp = s.lmp ∧ (replyTimeout n s).dmk = s.dmk ∧ (replyTimeout n s).od = s.od ∧ (replyTimeout n s).tmg = s.tmg ∧ (replyTimeout n s).cue = s.cue ∧ (replyTimeout n s).mem = s.mem ∧ (replyTimeout n s).gng = s.gng ∧ (replyTimeout n s).sec = s.sec ∧ (replyTimeout n s).flt = s.flt ∧ (replyTimeout n s).thm = s.thm ∧ (replyTimeout n s).bst = s.bst ∧ (replyTimeout n s).pending = s.pending ∧ (replyTimeout n s).hif.power = s.hif.power ∧ (replyTimeout n s).hif.bme0 = s.hif.bme0 ∧ (replyTimeout n s).hif.bme1 = s.hif.bme1 ∧ (replyTimeout n s).hif.d3hot = s.hif.d3hot ∧ (replyTimeout n s).pnl.state = s.pnl.state ∧ (replyTimeout n s).rings.sqs = s.rings.sqs := by
  unfold replyTimeout
  (try simp)
  (repeat' split) <;> (try simp)

@[simp] theorem partnerReply_frame (port type : Nat) (payload : Bytes) (crcOk : Bool) (s : State) :
    (partnerReply port type payload crcOk s).sys = s.sys ∧ (partnerReply port type payload crcOk s).pwr = s.pwr ∧ (partnerReply port type payload crcOk s).conf = s.conf ∧ (partnerReply port type payload crcOk s).ing = s.ing ∧ (partnerReply port type payload crcOk s).pix = s.pix ∧ (partnerReply port type payload crcOk s).gz = s.gz ∧ (partnerReply port type payload crcOk s).lmp = s.lmp ∧ (partnerReply port type payload crcOk s).dmk = s.dmk ∧ (partnerReply port type payload crcOk s).od = s.od ∧ (partnerReply port type payload crcOk s).tmg = s.tmg ∧ (partnerReply port type payload crcOk s).cue = s.cue ∧ (partnerReply port type payload crcOk s).mem = s.mem ∧ (partnerReply port type payload crcOk s).gng = s.gng ∧ (partnerReply port type payload crcOk s).sec = s.sec ∧ (partnerReply port type payload crcOk s).flt = s.flt ∧ (partnerReply port type payload crcOk s).thm = s.thm ∧ (partnerReply port type payload crcOk s).bst = s.bst ∧ (partnerReply port type payload crcOk s).pending = s.pending ∧ (partnerReply port type payload crcOk s).hif.power = s.hif.power ∧ (partnerReply port type payload crcOk s).hif.bme0 = s.hif.bme0 ∧ (partnerReply port type payload crcOk s).hif.bme1 = s.hif.bme1 ∧ (partnerReply port type payload crcOk s).hif.d3hot = s.hif.d3hot ∧ (partnerReply port type payload crcOk s).pnl.state = s.pnl.state ∧ (partnerReply port type payload crcOk s).rings.sqs = s.rings.sqs := by
  unfold partnerReply
  (try simp)
  (repeat' split) <;> (try simp)

@[simp] theorem idleFree_frame (g : Nat) (s : State) :
    (idleFree g s).sys = s.sys ∧ (idleFree g s).pwr = s.pwr ∧ (idleFree g s).hif = s.hif ∧ (idleFree g s).rings = s.rings ∧ (idleFree g s).conf = s.conf ∧ (idleFree g s).ing = s.ing ∧ (idleFree g s).pix = s.pix ∧ (idleFree g s).gz = s.gz ∧ (idleFree g s).lmp = s.lmp ∧ (idleFree g s).dmk = s.dmk ∧ (idleFree g s).od = s.od ∧ (idleFree g s).tmg = s.tmg ∧ (idleFree g s).pnl = s.pnl ∧ (idleFree g s).cue = s.cue ∧ (idleFree g s).mem = s.mem ∧ (idleFree g s).lin = s.lin ∧ (idleFree g s).cal = s.cal ∧ (idleFree g s).gng = s.gng ∧ (idleFree g s).sec = s.sec ∧ (idleFree g s).flt = s.flt ∧ (idleFree g s).thm = s.thm ∧ (idleFree g s).trc = s.trc ∧ (idleFree g s).bst = s.bst ∧ (idleFree g s).free = s.free ∧ (idleFree g s).pending = s.pending := by
  unfold idleFree
  (repeat' split) <;> (try simp)

@[simp] theorem trainAll_frame (s : State) :
    (trainAll s).sys = s.sys ∧ (trainAll s).pwr = s.pwr ∧ (trainAll s).conf = s.conf ∧ (trainAll s).ing = s.ing ∧ (trainAll s).pix = s.pix ∧ (trainAll s).gz = s.gz ∧ (trainAll s).lmp = s.lmp ∧ (trainAll s).dmk = s.dmk ∧ (trainAll s).od = s.od ∧ (trainAll s).tmg = s.tmg ∧ (trainAll s).cue = s.cue ∧ (trainAll s).mem = s.mem ∧ (trainAll s).lin = s.lin ∧ (trainAll s).cal = s.cal ∧ (trainAll s).gng = s.gng ∧ (trainAll s).sec = s.sec ∧ (trainAll s).flt = s.flt ∧ (trainAll s).thm = s.thm ∧ (trainAll s).bst = s.bst ∧ (trainAll s).pending = s.pending ∧ (trainAll s).hif.power = s.hif.power ∧ (trainAll s).hif.d3hot = s.hif.d3hot ∧ (trainAll s).pnl.state = s.pnl.state ∧ (trainAll s).rings.sqs = s.rings.sqs := by
  unfold trainAll
  (try dsimp only)
  (repeat' split) <;> (try simp)

@[simp] theorem laneFault_frame (lane lines first : Nat) (s : State) :
    (laneFault lane lines first s).sys = s.sys ∧ (laneFault lane lines first s).pwr = s.pwr ∧ (laneFault lane lines first s).conf = s.conf ∧ (laneFault lane lines first s).ing = s.ing ∧ (laneFault lane lines first s).pix = s.pix ∧ (laneFault lane lines first s).gz = s.gz ∧ (laneFault lane lines first s).lmp = s.lmp ∧ (laneFault lane lines first s).dmk = s.dmk ∧ (laneFault lane lines first s).od = s.od ∧ (laneFault lane lines first s).tmg = s.tmg ∧ (laneFault lane lines first s).pnl = s.pnl ∧ (laneFault lane lines first s).cue = s.cue ∧ (laneFault lane lines first s).mem = s.mem ∧ (laneFault lane lines first s).cal = s.cal ∧ (laneFault lane lines first s).gng = s.gng ∧ (laneFault lane lines first s).sec = s.sec ∧ (laneFault lane lines first s).flt = s.flt ∧ (laneFault lane lines first s).thm = s.thm ∧ (laneFault lane lines first s).bst = s.bst ∧ (laneFault lane lines first s).pending = s.pending ∧ (laneFault lane lines first s).hif.power = s.hif.power ∧ (laneFault lane lines first s).hif.bme0 = s.hif.bme0 ∧ (laneFault lane lines first s).hif.bme1 = s.hif.bme1 ∧ (laneFault lane lines first s).hif.d3hot = s.hif.d3hot ∧ (laneFault lane lines first s).rings.sqs = s.rings.sqs := by
  unfold laneFault
  (try simp)
  (repeat' split) <;> (try simp)

@[simp] theorem groupClockLost_frame (g : Nat) (s : State) :
    (groupClockLost g s).sys = s.sys ∧ (groupClockLost g s).pwr = s.pwr ∧ (groupClockLost g s).hif = s.hif ∧ (groupClockLost g s).rings = s.rings ∧ (groupClockLost g s).conf = s.conf ∧ (groupClockLost g s).ing = s.ing ∧ (groupClockLost g s).pix = s.pix ∧ (groupClockLost g s).gz = s.gz ∧ (groupClockLost g s).lmp = s.lmp ∧ (groupClockLost g s).dmk = s.dmk ∧ (groupClockLost g s).od = s.od ∧ (groupClockLost g s).tmg = s.tmg ∧ (groupClockLost g s).pnl = s.pnl ∧ (groupClockLost g s).cue = s.cue ∧ (groupClockLost g s).mem = s.mem ∧ (groupClockLost g s).lin = s.lin ∧ (groupClockLost g s).cal = s.cal ∧ (groupClockLost g s).gng = s.gng ∧ (groupClockLost g s).sec = s.sec ∧ (groupClockLost g s).flt = s.flt ∧ (groupClockLost g s).thm = s.thm ∧ (groupClockLost g s).trc = s.trc ∧ (groupClockLost g s).bst = s.bst ∧ (groupClockLost g s).out = s.out ∧ (groupClockLost g s).free = s.free ∧ (groupClockLost g s).pending = s.pending := by
  unfold groupClockLost
  (try dsimp only)
  (repeat' split) <;> (try simp)

@[simp] theorem groupClockBack_frame (g : Nat) (s : State) :
    (groupClockBack g s).sys = s.sys ∧ (groupClockBack g s).pwr = s.pwr ∧ (groupClockBack g s).conf = s.conf ∧ (groupClockBack g s).ing = s.ing ∧ (groupClockBack g s).pix = s.pix ∧ (groupClockBack g s).gz = s.gz ∧ (groupClockBack g s).lmp = s.lmp ∧ (groupClockBack g s).dmk = s.dmk ∧ (groupClockBack g s).od = s.od ∧ (groupClockBack g s).tmg = s.tmg ∧ (groupClockBack g s).pnl = s.pnl ∧ (groupClockBack g s).cue = s.cue ∧ (groupClockBack g s).mem = s.mem ∧ (groupClockBack g s).lin = s.lin ∧ (groupClockBack g s).cal = s.cal ∧ (groupClockBack g s).gng = s.gng ∧ (groupClockBack g s).sec = s.sec ∧ (groupClockBack g s).flt = s.flt ∧ (groupClockBack g s).thm = s.thm ∧ (groupClockBack g s).bst = s.bst ∧ (groupClockBack g s).pending = s.pending ∧ (groupClockBack g s).hif.power = s.hif.power ∧ (groupClockBack g s).hif.d3hot = s.hif.d3hot ∧ (groupClockBack g s).rings.sqs = s.rings.sqs ∧ (groupClockBack g s).rings.cqs = s.rings.cqs ∧ (groupClockBack g s).rings.eq0 = s.rings.eq0 ∧ (groupClockBack g s).rings.eq1 = s.rings.eq1 := by
  unfold groupClockBack
  (try dsimp only)
  (repeat' split) <;> (try simp (disch := (intros; (repeat' split) <;> (try simp))))

@[simp] theorem stopTest_frame (s : State) :
    (stopTest s).sys = s.sys ∧ (stopTest s).pwr = s.pwr ∧ (stopTest s).conf = s.conf ∧ (stopTest s).ing = s.ing ∧ (stopTest s).pix = s.pix ∧ (stopTest s).gz = s.gz ∧ (stopTest s).lmp = s.lmp ∧ (stopTest s).dmk = s.dmk ∧ (stopTest s).od = s.od ∧ (stopTest s).tmg = s.tmg ∧ (stopTest s).pnl = s.pnl ∧ (stopTest s).cue = s.cue ∧ (stopTest s).mem = s.mem ∧ (stopTest s).lin = s.lin ∧ (stopTest s).cal = s.cal ∧ (stopTest s).gng = s.gng ∧ (stopTest s).sec = s.sec ∧ (stopTest s).flt = s.flt ∧ (stopTest s).thm = s.thm ∧ (stopTest s).bst = s.bst ∧ (stopTest s).pending = s.pending ∧ (stopTest s).hif.power = s.hif.power ∧ (stopTest s).hif.bme0 = s.hif.bme0 ∧ (stopTest s).hif.bme1 = s.hif.bme1 ∧ (stopTest s).hif.d3hot = s.hif.d3hot ∧ (stopTest s).rings.sqs = s.rings.sqs ∧ (stopTest s).rings.cqs = s.rings.cqs ∧ (stopTest s).rings.eq0 = s.rings.eq0 ∧ (stopTest s).rings.eq1 = s.rings.eq1 := by
  unfold stopTest
  (try simp)
  (repeat' split) <;> (try simp)

@[simp] theorem startTest_frame (lane pattern kind burst k : Nat) (s : State) :
    (startTest lane pattern kind burst k s).sys = s.sys ∧ (startTest lane pattern kind burst k s).pwr = s.pwr ∧ (startTest lane pattern kind burst k s).conf = s.conf ∧ (startTest lane pattern kind burst k s).ing = s.ing ∧ (startTest lane pattern kind burst k s).pix = s.pix ∧ (startTest lane pattern kind burst k s).gz = s.gz ∧ (startTest lane pattern kind burst k s).lmp = s.lmp ∧ (startTest lane pattern kind burst k s).dmk = s.dmk ∧ (startTest lane pattern kind burst k s).od = s.od ∧ (startTest lane pattern kind burst k s).tmg = s.tmg ∧ (startTest lane pattern kind burst k s).pnl = s.pnl ∧ (startTest lane pattern kind burst k s).cue = s.cue ∧ (startTest lane pattern kind burst k s).mem = s.mem ∧ (startTest lane pattern kind burst k s).lin = s.lin ∧ (startTest lane pattern kind burst k s).cal = s.cal ∧ (startTest lane pattern kind burst k s).gng = s.gng ∧ (startTest lane pattern kind burst k s).sec = s.sec ∧ (startTest lane pattern kind burst k s).flt = s.flt ∧ (startTest lane pattern kind burst k s).thm = s.thm ∧ (startTest lane pattern kind burst k s).bst = s.bst ∧ (startTest lane pattern kind burst k s).pending = s.pending ∧ (startTest lane pattern kind burst k s).hif.power = s.hif.power ∧ (startTest lane pattern kind burst k s).hif.bme0 = s.hif.bme0 ∧ (startTest lane pattern kind burst k s).hif.bme1 = s.hif.bme1 ∧ (startTest lane pattern kind burst k s).hif.d3hot = s.hif.d3hot ∧ (startTest lane pattern kind burst k s).rings.sqs = s.rings.sqs ∧ (startTest lane pattern kind burst k s).rings.cqs = s.rings.cqs ∧ (startTest lane pattern kind burst k s).rings.eq0 = s.rings.eq0 ∧ (startTest lane pattern kind burst k s).rings.eq1 = s.rings.eq1 := by
  unfold startTest
  (try simp)
  (repeat' split) <;> (try simp)

@[simp] theorem readTest_frame (lane : Nat) (s : State) :
    (readTest lane s).sys = s.sys ∧ (readTest lane s).pwr = s.pwr ∧ (readTest lane s).hif = s.hif ∧ (readTest lane s).rings = s.rings ∧ (readTest lane s).conf = s.conf ∧ (readTest lane s).ing = s.ing ∧ (readTest lane s).pix = s.pix ∧ (readTest lane s).gz = s.gz ∧ (readTest lane s).lmp = s.lmp ∧ (readTest lane s).dmk = s.dmk ∧ (readTest lane s).od = s.od ∧ (readTest lane s).tmg = s.tmg ∧ (readTest lane s).pnl = s.pnl ∧ (readTest lane s).cue = s.cue ∧ (readTest lane s).mem = s.mem ∧ (readTest lane s).lin = s.lin ∧ (readTest lane s).cal = s.cal ∧ (readTest lane s).gng = s.gng ∧ (readTest lane s).sec = s.sec ∧ (readTest lane s).flt = s.flt ∧ (readTest lane s).thm = s.thm ∧ (readTest lane s).trc = s.trc ∧ (readTest lane s).bst = s.bst ∧ (readTest lane s).pending = s.pending := by
  unfold readTest
  (try simp)
  (repeat' split) <;> (try simp)

@[simp] theorem writeTest_frame (v : Word) (s : State) :
    (writeTest v s).sys = s.sys ∧ (writeTest v s).pwr = s.pwr ∧ (writeTest v s).ing = s.ing ∧ (writeTest v s).pix = s.pix ∧ (writeTest v s).gz = s.gz ∧ (writeTest v s).lmp = s.lmp ∧ (writeTest v s).dmk = s.dmk ∧ (writeTest v s).od = s.od ∧ (writeTest v s).tmg = s.tmg ∧ (writeTest v s).pnl = s.pnl ∧ (writeTest v s).cue = s.cue ∧ (writeTest v s).mem = s.mem ∧ (writeTest v s).lin = s.lin ∧ (writeTest v s).cal = s.cal ∧ (writeTest v s).gng = s.gng ∧ (writeTest v s).sec = s.sec ∧ (writeTest v s).flt = s.flt ∧ (writeTest v s).thm = s.thm ∧ (writeTest v s).bst = s.bst ∧ (writeTest v s).pending = s.pending ∧ (writeTest v s).conf.regs = s.conf.regs ∧ (writeTest v s).conf.tables = s.conf.tables ∧ (writeTest v s).hif.power = s.hif.power ∧ (writeTest v s).hif.bme0 = s.hif.bme0 ∧ (writeTest v s).hif.bme1 = s.hif.bme1 ∧ (writeTest v s).hif.d3hot = s.hif.d3hot ∧ (writeTest v s).rings.sqs = s.rings.sqs ∧ (writeTest v s).rings.cqs = s.rings.cqs ∧ (writeTest v s).rings.eq0 = s.rings.eq0 ∧ (writeTest v s).rings.eq1 = s.rings.eq1 := by
  unfold writeTest
  (try simp)
  (repeat' split) <;> (try simp)

@[simp] theorem reportZones_frame (zs : List Nat) (v : Bool) (s : State) :
    (reportZones zs v s).sys = s.sys ∧ (reportZones zs v s).pwr = s.pwr ∧ (reportZones zs v s).hif = s.hif ∧ (reportZones zs v s).rings = s.rings ∧ (reportZones zs v s).conf = s.conf ∧ (reportZones zs v s).ing = s.ing ∧ (reportZones zs v s).pix = s.pix ∧ (reportZones zs v s).lmp = s.lmp ∧ (reportZones zs v s).dmk = s.dmk ∧ (reportZones zs v s).od = s.od ∧ (reportZones zs v s).tmg = s.tmg ∧ (reportZones zs v s).pnl = s.pnl ∧ (reportZones zs v s).twl = s.twl ∧ (reportZones zs v s).cue = s.cue ∧ (reportZones zs v s).mem = s.mem ∧ (reportZones zs v s).lin = s.lin ∧ (reportZones zs v s).cal = s.cal ∧ (reportZones zs v s).gng = s.gng ∧ (reportZones zs v s).sec = s.sec ∧ (reportZones zs v s).flt = s.flt ∧ (reportZones zs v s).thm = s.thm ∧ (reportZones zs v s).trc = s.trc ∧ (reportZones zs v s).bst = s.bst ∧ (reportZones zs v s).out = s.out ∧ (reportZones zs v s).free = s.free ∧ (reportZones zs v s).pending = s.pending := by
  unfold reportZones
  (try dsimp only)
  (repeat' split) <;> (try simp)

@[simp] theorem await_frame (lane : Nat) (w : LampWait) (s : State) :
    (await lane w s).sys = s.sys ∧ (await lane w s).pwr = s.pwr ∧ (await lane w s).hif = s.hif ∧ (await lane w s).rings = s.rings ∧ (await lane w s).conf = s.conf ∧ (await lane w s).ing = s.ing ∧ (await lane w s).pix = s.pix ∧ (await lane w s).gz = s.gz ∧ (await lane w s).dmk = s.dmk ∧ (await lane w s).od = s.od ∧ (await lane w s).tmg = s.tmg ∧ (await lane w s).pnl = s.pnl ∧ (await lane w s).twl = s.twl ∧ (await lane w s).cue = s.cue ∧ (await lane w s).mem = s.mem ∧ (await lane w s).lin = s.lin ∧ (await lane w s).cal = s.cal ∧ (await lane w s).gng = s.gng ∧ (await lane w s).sec = s.sec ∧ (await lane w s).flt = s.flt ∧ (await lane w s).thm = s.thm ∧ (await lane w s).trc = s.trc ∧ (await lane w s).bst = s.bst ∧ (await lane w s).out = s.out ∧ (await lane w s).free = s.free ∧ (await lane w s).pending = s.pending := by
  unfold await
  (repeat' split) <;> (try simp)

@[simp] theorem lampOut_frame (lane : Nat) (frame : Bytes) (s : State) :
    (lampOut lane frame s).sys = s.sys ∧ (lampOut lane frame s).pwr = s.pwr ∧ (lampOut lane frame s).hif = s.hif ∧ (lampOut lane frame s).rings = s.rings ∧ (lampOut lane frame s).conf = s.conf ∧ (lampOut lane frame s).ing = s.ing ∧ (lampOut lane frame s).pix = s.pix ∧ (lampOut lane frame s).gz = s.gz ∧ (lampOut lane frame s).lmp = s.lmp ∧ (lampOut lane frame s).dmk = s.dmk ∧ (lampOut lane frame s).od = s.od ∧ (lampOut lane frame s).tmg = s.tmg ∧ (lampOut lane frame s).pnl = s.pnl ∧ (lampOut lane frame s).twl = s.twl ∧ (lampOut lane frame s).cue = s.cue ∧ (lampOut lane frame s).mem = s.mem ∧ (lampOut lane frame s).lin = s.lin ∧ (lampOut lane frame s).cal = s.cal ∧ (lampOut lane frame s).gng = s.gng ∧ (lampOut lane frame s).sec = s.sec ∧ (lampOut lane frame s).flt = s.flt ∧ (lampOut lane frame s).thm = s.thm ∧ (lampOut lane frame s).trc = s.trc ∧ (lampOut lane frame s).bst = s.bst ∧ (lampOut lane frame s).pending = s.pending := by
  unfold lampOut
  (repeat' split) <;> (try simp)

@[simp] theorem sendAssign_frame (lane p : Nat) (again : Bool) (s : State) :
    (sendAssign lane p again s).sys = s.sys ∧ (sendAssign lane p again s).pwr = s.pwr ∧ (sendAssign lane p again s).hif = s.hif ∧ (sendAssign lane p again s).rings = s.rings ∧ (sendAssign lane p again s).conf = s.conf ∧ (sendAssign lane p again s).ing = s.ing ∧ (sendAssign lane p again s).pix = s.pix ∧ (sendAssign lane p again s).gz = s.gz ∧ (sendAssign lane p again s).dmk = s.dmk ∧ (sendAssign lane p again s).od = s.od ∧ (sendAssign lane p again s).tmg = s.tmg ∧ (sendAssign lane p again s).pnl = s.pnl ∧ (sendAssign lane p again s).twl = s.twl ∧ (sendAssign lane p again s).cue = s.cue ∧ (sendAssign lane p again s).mem = s.mem ∧ (sendAssign lane p again s).lin = s.lin ∧ (sendAssign lane p again s).cal = s.cal ∧ (sendAssign lane p again s).gng = s.gng ∧ (sendAssign lane p again s).sec = s.sec ∧ (sendAssign lane p again s).flt = s.flt ∧ (sendAssign lane p again s).thm = s.thm ∧ (sendAssign lane p again s).trc = s.trc ∧ (sendAssign lane p again s).bst = s.bst ∧ (sendAssign lane p again s).pending = s.pending := by
  unfold sendAssign
  (try dsimp only)
  (repeat' split) <;> (try simp)

@[simp] theorem sendStatusReq_frame (lane p : Nat) (again : Bool) (s : State) :
    (sendStatusReq lane p again s).sys = s.sys ∧ (sendStatusReq lane p again s).pwr = s.pwr ∧ (sendStatusReq lane p again s).hif = s.hif ∧ (sendStatusReq lane p again s).rings = s.rings ∧ (sendStatusReq lane p again s).conf = s.conf ∧ (sendStatusReq lane p again s).ing = s.ing ∧ (sendStatusReq lane p again s).pix = s.pix ∧ (sendStatusReq lane p again s).gz = s.gz ∧ (sendStatusReq lane p again s).dmk = s.dmk ∧ (sendStatusReq lane p again s).od = s.od ∧ (sendStatusReq lane p again s).tmg = s.tmg ∧ (sendStatusReq lane p again s).pnl = s.pnl ∧ (sendStatusReq lane p again s).twl = s.twl ∧ (sendStatusReq lane p again s).cue = s.cue ∧ (sendStatusReq lane p again s).mem = s.mem ∧ (sendStatusReq lane p again s).lin = s.lin ∧ (sendStatusReq lane p again s).cal = s.cal ∧ (sendStatusReq lane p again s).gng = s.gng ∧ (sendStatusReq lane p again s).sec = s.sec ∧ (sendStatusReq lane p again s).flt = s.flt ∧ (sendStatusReq lane p again s).thm = s.thm ∧ (sendStatusReq lane p again s).trc = s.trc ∧ (sendStatusReq lane p again s).bst = s.bst ∧ (sendStatusReq lane p again s).pending = s.pending := by
  unfold sendStatusReq
  (try dsimp only)
  (repeat' split) <;> (try simp)

@[simp] theorem sendStatusReqs_frame (s : State) :
    (sendStatusReqs s).sys = s.sys ∧ (sendStatusReqs s).pwr = s.pwr ∧ (sendStatusReqs s).hif = s.hif ∧ (sendStatusReqs s).rings = s.rings ∧ (sendStatusReqs s).conf = s.conf ∧ (sendStatusReqs s).ing = s.ing ∧ (sendStatusReqs s).pix = s.pix ∧ (sendStatusReqs s).gz = s.gz ∧ (sendStatusReqs s).dmk = s.dmk ∧ (sendStatusReqs s).od = s.od ∧ (sendStatusReqs s).tmg = s.tmg ∧ (sendStatusReqs s).pnl = s.pnl ∧ (sendStatusReqs s).twl = s.twl ∧ (sendStatusReqs s).cue = s.cue ∧ (sendStatusReqs s).mem = s.mem ∧ (sendStatusReqs s).lin = s.lin ∧ (sendStatusReqs s).cal = s.cal ∧ (sendStatusReqs s).gng = s.gng ∧ (sendStatusReqs s).sec = s.sec ∧ (sendStatusReqs s).flt = s.flt ∧ (sendStatusReqs s).thm = s.thm ∧ (sendStatusReqs s).trc = s.trc ∧ (sendStatusReqs s).bst = s.bst ∧ (sendStatusReqs s).pending = s.pending := by
  unfold sendStatusReqs
  (try dsimp only)
  (repeat' split) <;> (try simp (disch := (intros; (repeat' split) <;> (try simp))))

@[simp] theorem welcome_frame (lane p : Nat) (s : State) :
    (welcome lane p s).sys = s.sys ∧ (welcome lane p s).pwr = s.pwr ∧ (welcome lane p s).hif = s.hif ∧ (welcome lane p s).rings = s.rings ∧ (welcome lane p s).conf = s.conf ∧ (welcome lane p s).ing = s.ing ∧ (welcome lane p s).pix = s.pix ∧ (welcome lane p s).gz = s.gz ∧ (welcome lane p s).lmp = s.lmp ∧ (welcome lane p s).dmk = s.dmk ∧ (welcome lane p s).od = s.od ∧ (welcome lane p s).tmg = s.tmg ∧ (welcome lane p s).pnl = s.pnl ∧ (welcome lane p s).twl = s.twl ∧ (welcome lane p s).cue = s.cue ∧ (welcome lane p s).mem = s.mem ∧ (welcome lane p s).lin = s.lin ∧ (welcome lane p s).cal = s.cal ∧ (welcome lane p s).gng = s.gng ∧ (welcome lane p s).sec = s.sec ∧ (welcome lane p s).flt = s.flt ∧ (welcome lane p s).thm = s.thm ∧ (welcome lane p s).trc = s.trc ∧ (welcome lane p s).bst = s.bst ∧ (welcome lane p s).pending = s.pending := by
  unfold welcome
  (repeat' split) <;> (try simp)

@[simp] theorem endDiscovery_frame (lane : Nat) (s : State) :
    (endDiscovery lane s).sys = s.sys ∧ (endDiscovery lane s).pwr = s.pwr ∧ (endDiscovery lane s).conf = s.conf ∧ (endDiscovery lane s).ing = s.ing ∧ (endDiscovery lane s).pix = s.pix ∧ (endDiscovery lane s).dmk = s.dmk ∧ (endDiscovery lane s).od = s.od ∧ (endDiscovery lane s).tmg = s.tmg ∧ (endDiscovery lane s).pnl = s.pnl ∧ (endDiscovery lane s).twl = s.twl ∧ (endDiscovery lane s).cue = s.cue ∧ (endDiscovery lane s).mem = s.mem ∧ (endDiscovery lane s).lin = s.lin ∧ (endDiscovery lane s).cal = s.cal ∧ (endDiscovery lane s).gng = s.gng ∧ (endDiscovery lane s).sec = s.sec ∧ (endDiscovery lane s).flt = s.flt ∧ (endDiscovery lane s).thm = s.thm ∧ (endDiscovery lane s).bst = s.bst ∧ (endDiscovery lane s).pending = s.pending ∧ (endDiscovery lane s).hif.power = s.hif.power ∧ (endDiscovery lane s).hif.bme0 = s.hif.bme0 ∧ (endDiscovery lane s).hif.bme1 = s.hif.bme1 ∧ (endDiscovery lane s).hif.d3hot = s.hif.d3hot ∧ (endDiscovery lane s).rings.sqs = s.rings.sqs := by
  unfold endDiscovery
  (try dsimp only)
  (repeat' split) <;> (try simp)

@[simp] theorem driverFound_frame (lane p : Nat) (s : State) :
    (driverFound lane p s).sys = s.sys ∧ (driverFound lane p s).pwr = s.pwr ∧ (driverFound lane p s).conf = s.conf ∧ (driverFound lane p s).ing = s.ing ∧ (driverFound lane p s).pix = s.pix ∧ (driverFound lane p s).dmk = s.dmk ∧ (driverFound lane p s).od = s.od ∧ (driverFound lane p s).tmg = s.tmg ∧ (driverFound lane p s).pnl = s.pnl ∧ (driverFound lane p s).twl = s.twl ∧ (driverFound lane p s).cue = s.cue ∧ (driverFound lane p s).mem = s.mem ∧ (driverFound lane p s).lin = s.lin ∧ (driverFound lane p s).cal = s.cal ∧ (driverFound lane p s).gng = s.gng ∧ (driverFound lane p s).sec = s.sec ∧ (driverFound lane p s).flt = s.flt ∧ (driverFound lane p s).thm = s.thm ∧ (driverFound lane p s).bst = s.bst ∧ (driverFound lane p s).pending = s.pending ∧ (driverFound lane p s).hif.power = s.hif.power ∧ (driverFound lane p s).hif.bme0 = s.hif.bme0 ∧ (driverFound lane p s).hif.bme1 = s.hif.bme1 ∧ (driverFound lane p s).hif.d3hot = s.hif.d3hot ∧ (driverFound lane p s).rings.sqs = s.rings.sqs := by
  unfold driverFound
  (try simp)
  (repeat' split) <;> (try simp)

@[simp] theorem countMiss_frame (lane p : Nat) (s : State) :
    (countMiss lane p s).sys = s.sys ∧ (countMiss lane p s).pwr = s.pwr ∧ (countMiss lane p s).conf = s.conf ∧ (countMiss lane p s).ing = s.ing ∧ (countMiss lane p s).pix = s.pix ∧ (countMiss lane p s).dmk = s.dmk ∧ (countMiss lane p s).od = s.od ∧ (countMiss lane p s).tmg = s.tmg ∧ (countMiss lane p s).pnl = s.pnl ∧ (countMiss lane p s).twl = s.twl ∧ (countMiss lane p s).cue = s.cue ∧ (countMiss lane p s).mem = s.mem ∧ (countMiss lane p s).cal = s.cal ∧ (countMiss lane p s).gng = s.gng ∧ (countMiss lane p s).sec = s.sec ∧ (countMiss lane p s).flt = s.flt ∧ (countMiss lane p s).thm = s.thm ∧ (countMiss lane p s).bst = s.bst ∧ (countMiss lane p s).pending = s.pending ∧ (countMiss lane p s).hif.power = s.hif.power ∧ (countMiss lane p s).hif.bme0 = s.hif.bme0 ∧ (countMiss lane p s).hif.bme1 = s.hif.bme1 ∧ (countMiss lane p s).hif.d3hot = s.hif.d3hot ∧ (countMiss lane p s).rings.sqs = s.rings.sqs := by
  unfold countMiss
  (try simp)
  (repeat' split) <;> (try simp)

@[simp] theorem countUnechoed_frame (fe lane p : Nat) (s : State) :
    (countUnechoed fe lane p s).sys = s.sys ∧ (countUnechoed fe lane p s).pwr = s.pwr ∧ (countUnechoed fe lane p s).hif = s.hif ∧ (countUnechoed fe lane p s).rings = s.rings ∧ (countUnechoed fe lane p s).conf = s.conf ∧ (countUnechoed fe lane p s).ing = s.ing ∧ (countUnechoed fe lane p s).pix = s.pix ∧ (countUnechoed fe lane p s).gz = s.gz ∧ (countUnechoed fe lane p s).dmk = s.dmk ∧ (countUnechoed fe lane p s).od = s.od ∧ (countUnechoed fe lane p s).tmg = s.tmg ∧ (countUnechoed fe lane p s).pnl = s.pnl ∧ (countUnechoed fe lane p s).twl = s.twl ∧ (countUnechoed fe lane p s).cue = s.cue ∧ (countUnechoed fe lane p s).mem = s.mem ∧ (countUnechoed fe lane p s).lin = s.lin ∧ (countUnechoed fe lane p s).cal = s.cal ∧ (countUnechoed fe lane p s).gng = s.gng ∧ (countUnechoed fe lane p s).sec = s.sec ∧ (countUnechoed fe lane p s).flt = s.flt ∧ (countUnechoed fe lane p s).thm = s.thm ∧ (countUnechoed fe lane p s).trc = s.trc ∧ (countUnechoed fe lane p s).bst = s.bst ∧ (countUnechoed fe lane p s).out = s.out ∧ (countUnechoed fe lane p s).free = s.free ∧ (countUnechoed fe lane p s).pending = s.pending := by
  unfold countUnechoed
  (try dsimp only)
  (repeat' split) <;> (try simp)

@[simp] theorem missed_frame (lane : Nat) (w : LampWait) (s : State) :
    (missed lane w s).sys = s.sys ∧ (missed lane w s).pwr = s.pwr ∧ (missed lane w s).conf = s.conf ∧ (missed lane w s).ing = s.ing ∧ (missed lane w s).pix = s.pix ∧ (missed lane w s).dmk = s.dmk ∧ (missed lane w s).od = s.od ∧ (missed lane w s).tmg = s.tmg ∧ (missed lane w s).pnl = s.pnl ∧ (missed lane w s).twl = s.twl ∧ (missed lane w s).cue = s.cue ∧ (missed lane w s).mem = s.mem ∧ (missed lane w s).cal = s.cal ∧ (missed lane w s).gng = s.gng ∧ (missed lane w s).sec = s.sec ∧ (missed lane w s).flt = s.flt ∧ (missed lane w s).thm = s.thm ∧ (missed lane w s).bst = s.bst ∧ (missed lane w s).pending = s.pending ∧ (missed lane w s).hif.power = s.hif.power ∧ (missed lane w s).hif.bme0 = s.hif.bme0 ∧ (missed lane w s).hif.bme1 = s.hif.bme1 ∧ (missed lane w s).hif.d3hot = s.hif.d3hot ∧ (missed lane w s).rings.sqs = s.rings.sqs := by
  unfold missed
  (try simp)
  (repeat' split) <;> (try simp)

@[simp] theorem dropWait_frame (lane : Nat) (w : LampWait) (s : State) :
    (dropWait lane w s).sys = s.sys ∧ (dropWait lane w s).pwr = s.pwr ∧ (dropWait lane w s).hif = s.hif ∧ (dropWait lane w s).rings = s.rings ∧ (dropWait lane w s).conf = s.conf ∧ (dropWait lane w s).ing = s.ing ∧ (dropWait lane w s).pix = s.pix ∧ (dropWait lane w s).gz = s.gz ∧ (dropWait lane w s).dmk = s.dmk ∧ (dropWait lane w s).od = s.od ∧ (dropWait lane w s).tmg = s.tmg ∧ (dropWait lane w s).pnl = s.pnl ∧ (dropWait lane w s).twl = s.twl ∧ (dropWait lane w s).cue = s.cue ∧ (dropWait lane w s).mem = s.mem ∧ (dropWait lane w s).lin = s.lin ∧ (dropWait lane w s).cal = s.cal ∧ (dropWait lane w s).gng = s.gng ∧ (dropWait lane w s).sec = s.sec ∧ (dropWait lane w s).flt = s.flt ∧ (dropWait lane w s).thm = s.thm ∧ (dropWait lane w s).trc = s.trc ∧ (dropWait lane w s).bst = s.bst ∧ (dropWait lane w s).out = s.out ∧ (dropWait lane w s).free = s.free ∧ (dropWait lane w s).pending = s.pending := by
  unfold dropWait
  (repeat' split) <;> (try simp)

@[simp] theorem answered_frame (lane p : Nat) (s : State) :
    (answered lane p s).sys = s.sys ∧ (answered lane p s).pwr = s.pwr ∧ (answered lane p s).hif = s.hif ∧ (answered lane p s).rings = s.rings ∧ (answered lane p s).conf = s.conf ∧ (answered lane p s).ing = s.ing ∧ (answered lane p s).pix = s.pix ∧ (answered lane p s).gz = s.gz ∧ (answered lane p s).dmk = s.dmk ∧ (answered lane p s).od = s.od ∧ (answered lane p s).tmg = s.tmg ∧ (answered lane p s).pnl = s.pnl ∧ (answered lane p s).twl = s.twl ∧ (answered lane p s).cue = s.cue ∧ (answered lane p s).mem = s.mem ∧ (answered lane p s).lin = s.lin ∧ (answered lane p s).cal = s.cal ∧ (answered lane p s).gng = s.gng ∧ (answered lane p s).sec = s.sec ∧ (answered lane p s).flt = s.flt ∧ (answered lane p s).thm = s.thm ∧ (answered lane p s).trc = s.trc ∧ (answered lane p s).bst = s.bst ∧ (answered lane p s).out = s.out ∧ (answered lane p s).free = s.free ∧ (answered lane p s).pending = s.pending := by
  unfold answered
  (try dsimp only)
  (repeat' split) <;> (try simp)

@[simp] theorem gotLampStatus_frame (lane : Nat) (w : LampWait) (d : Bytes) (s : State) :
    (gotLampStatus lane w d s).sys = s.sys ∧ (gotLampStatus lane w d s).pwr = s.pwr ∧ (gotLampStatus lane w d s).conf = s.conf ∧ (gotLampStatus lane w d s).ing = s.ing ∧ (gotLampStatus lane w d s).pix = s.pix ∧ (gotLampStatus lane w d s).dmk = s.dmk ∧ (gotLampStatus lane w d s).od = s.od ∧ (gotLampStatus lane w d s).tmg = s.tmg ∧ (gotLampStatus lane w d s).pnl = s.pnl ∧ (gotLampStatus lane w d s).twl = s.twl ∧ (gotLampStatus lane w d s).cue = s.cue ∧ (gotLampStatus lane w d s).mem = s.mem ∧ (gotLampStatus lane w d s).lin = s.lin ∧ (gotLampStatus lane w d s).cal = s.cal ∧ (gotLampStatus lane w d s).gng = s.gng ∧ (gotLampStatus lane w d s).sec = s.sec ∧ (gotLampStatus lane w d s).flt = s.flt ∧ (gotLampStatus lane w d s).thm = s.thm ∧ (gotLampStatus lane w d s).trc = s.trc ∧ (gotLampStatus lane w d s).bst = s.bst ∧ (gotLampStatus lane w d s).free = s.free ∧ (gotLampStatus lane w d s).pending = s.pending ∧ (gotLampStatus lane w d s).hif.power = s.hif.power ∧ (gotLampStatus lane w d s).hif.bme0 = s.hif.bme0 ∧ (gotLampStatus lane w d s).hif.bme1 = s.hif.bme1 ∧ (gotLampStatus lane w d s).hif.d3hot = s.hif.d3hot ∧ (gotLampStatus lane w d s).rings.sqs = s.rings.sqs := by
  unfold gotLampStatus
  (try simp)
  (repeat' split) <;> (try simp)

@[simp] theorem gotReturn_frame (lane type p : Nat) (d : Bytes) (s : State) :
    (gotReturn lane type p d s).sys = s.sys ∧ (gotReturn lane type p d s).pwr = s.pwr ∧ (gotReturn lane type p d s).conf = s.conf ∧ (gotReturn lane type p d s).ing = s.ing ∧ (gotReturn lane type p d s).pix = s.pix ∧ (gotReturn lane type p d s).dmk = s.dmk ∧ (gotReturn lane type p d s).od = s.od ∧ (gotReturn lane type p d s).tmg = s.tmg ∧ (gotReturn lane type p d s).pnl = s.pnl ∧ (gotReturn lane type p d s).twl = s.twl ∧ (gotReturn lane type p d s).cue = s.cue ∧ (gotReturn lane type p d s).mem = s.mem ∧ (gotReturn lane type p d s).cal = s.cal ∧ (gotReturn lane type p d s).gng = s.gng ∧ (gotReturn lane type p d s).sec = s.sec ∧ (gotReturn lane type p d s).flt = s.flt ∧ (gotReturn lane type p d s).thm = s.thm ∧ (gotReturn lane type p d s).bst = s.bst ∧ (gotReturn lane type p d s).pending = s.pending ∧ (gotReturn lane type p d s).hif.power = s.hif.power ∧ (gotReturn lane type p d s).hif.bme0 = s.hif.bme0 ∧ (gotReturn lane type p d s).hif.bme1 = s.hif.bme1 ∧ (gotReturn lane type p d s).hif.d3hot = s.hif.d3hot ∧ (gotReturn lane type p d s).rings.sqs = s.rings.sqs := by
  unfold gotReturn
  (try simp)
  (repeat' split) <;> (try simp)

@[simp] theorem postUnechoed_frame (s : State) :
    (postUnechoed s).sys = s.sys ∧ (postUnechoed s).pwr = s.pwr ∧ (postUnechoed s).conf = s.conf ∧ (postUnechoed s).ing = s.ing ∧ (postUnechoed s).pix = s.pix ∧ (postUnechoed s).gz = s.gz ∧ (postUnechoed s).dmk = s.dmk ∧ (postUnechoed s).od = s.od ∧ (postUnechoed s).tmg = s.tmg ∧ (postUnechoed s).pnl = s.pnl ∧ (postUnechoed s).twl = s.twl ∧ (postUnechoed s).cue = s.cue ∧ (postUnechoed s).mem = s.mem ∧ (postUnechoed s).lin = s.lin ∧ (postUnechoed s).cal = s.cal ∧ (postUnechoed s).gng = s.gng ∧ (postUnechoed s).sec = s.sec ∧ (postUnechoed s).flt = s.flt ∧ (postUnechoed s).thm = s.thm ∧ (postUnechoed s).trc = s.trc ∧ (postUnechoed s).bst = s.bst ∧ (postUnechoed s).free = s.free ∧ (postUnechoed s).pending = s.pending ∧ (postUnechoed s).hif.power = s.hif.power ∧ (postUnechoed s).hif.d3hot = s.hif.d3hot ∧ (postUnechoed s).rings.sqs = s.rings.sqs := by
  unfold postUnechoed
  (try dsimp only)
  (repeat' split) <;> (try simp)

@[simp] theorem railsReady_frame (s : State) :
    (railsReady s).sys = s.sys ∧ (railsReady s).pwr = s.pwr ∧ (railsReady s).hif = s.hif ∧ (railsReady s).rings = s.rings ∧ (railsReady s).conf = s.conf ∧ (railsReady s).ing = s.ing ∧ (railsReady s).pix = s.pix ∧ (railsReady s).gz = s.gz ∧ (railsReady s).lmp = s.lmp ∧ (railsReady s).dmk = s.dmk ∧ (railsReady s).od = s.od ∧ (railsReady s).tmg = s.tmg ∧ (railsReady s).twl = s.twl ∧ (railsReady s).cue = s.cue ∧ (railsReady s).mem = s.mem ∧ (railsReady s).lin = s.lin ∧ (railsReady s).cal = s.cal ∧ (railsReady s).gng = s.gng ∧ (railsReady s).sec = s.sec ∧ (railsReady s).flt = s.flt ∧ (railsReady s).thm = s.thm ∧ (railsReady s).trc = s.trc ∧ (railsReady s).bst = s.bst ∧ (railsReady s).out = s.out ∧ (railsReady s).free = s.free ∧ (railsReady s).pending = s.pending := by
  unfold railsReady
  (try dsimp only)
  (repeat' split) <;> (try simp)

@[simp] theorem setPens_frame (v : BitVec 8) (s : State) :
    (setPens v s).sys = s.sys ∧ (setPens v s).pwr = s.pwr ∧ (setPens v s).hif = s.hif ∧ (setPens v s).rings = s.rings ∧ (setPens v s).conf = s.conf ∧ (setPens v s).ing = s.ing ∧ (setPens v s).pix = s.pix ∧ (setPens v s).gz = s.gz ∧ (setPens v s).lmp = s.lmp ∧ (setPens v s).dmk = s.dmk ∧ (setPens v s).od = s.od ∧ (setPens v s).tmg = s.tmg ∧ (setPens v s).twl = s.twl ∧ (setPens v s).cue = s.cue ∧ (setPens v s).mem = s.mem ∧ (setPens v s).lin = s.lin ∧ (setPens v s).cal = s.cal ∧ (setPens v s).gng = s.gng ∧ (setPens v s).sec = s.sec ∧ (setPens v s).flt = s.flt ∧ (setPens v s).thm = s.thm ∧ (setPens v s).trc = s.trc ∧ (setPens v s).bst = s.bst ∧ (setPens v s).free = s.free ∧ (setPens v s).pending = s.pending ∧ (setPens v s).pnl.state = s.pnl.state := by
  unfold setPens
  (try simp)
  (repeat' split) <;> (try simp)

@[simp] theorem beginPowerOn_frame (s : State) :
    (beginPowerOn s).sys = s.sys ∧ (beginPowerOn s).pwr = s.pwr ∧ (beginPowerOn s).conf = s.conf ∧ (beginPowerOn s).ing = s.ing ∧ (beginPowerOn s).pix = s.pix ∧ (beginPowerOn s).gz = s.gz ∧ (beginPowerOn s).lmp = s.lmp ∧ (beginPowerOn s).dmk = s.dmk ∧ (beginPowerOn s).od = s.od ∧ (beginPowerOn s).tmg = s.tmg ∧ (beginPowerOn s).twl = s.twl ∧ (beginPowerOn s).cue = s.cue ∧ (beginPowerOn s).mem = s.mem ∧ (beginPowerOn s).lin = s.lin ∧ (beginPowerOn s).cal = s.cal ∧ (beginPowerOn s).gng = s.gng ∧ (beginPowerOn s).sec = s.sec ∧ (beginPowerOn s).flt = s.flt ∧ (beginPowerOn s).thm = s.thm ∧ (beginPowerOn s).bst = s.bst ∧ (beginPowerOn s).pending = s.pending ∧ (beginPowerOn s).hif.power = s.hif.power ∧ (beginPowerOn s).hif.bme0 = s.hif.bme0 ∧ (beginPowerOn s).hif.bme1 = s.hif.bme1 ∧ (beginPowerOn s).hif.d3hot = s.hif.d3hot ∧ (beginPowerOn s).rings.sqs = s.rings.sqs ∧ (beginPowerOn s).rings.cqs = s.rings.cqs ∧ (beginPowerOn s).rings.eq0 = s.rings.eq0 ∧ (beginPowerOn s).rings.eq1 = s.rings.eq1 := by
  unfold beginPowerOn
  (try dsimp only)
  (repeat' split) <;> (try simp)

@[simp] theorem completeStep_frame (s : State) :
    (completeStep s).sys = s.sys ∧ (completeStep s).pwr = s.pwr ∧ (completeStep s).hif = s.hif ∧ (completeStep s).rings = s.rings ∧ (completeStep s).conf = s.conf ∧ (completeStep s).ing = s.ing ∧ (completeStep s).pix = s.pix ∧ (completeStep s).gz = s.gz ∧ (completeStep s).lmp = s.lmp ∧ (completeStep s).dmk = s.dmk ∧ (completeStep s).od = s.od ∧ (completeStep s).tmg = s.tmg ∧ (completeStep s).twl = s.twl ∧ (completeStep s).cue = s.cue ∧ (completeStep s).mem = s.mem ∧ (completeStep s).lin = s.lin ∧ (completeStep s).cal = s.cal ∧ (completeStep s).gng = s.gng ∧ (completeStep s).sec = s.sec ∧ (completeStep s).flt = s.flt ∧ (completeStep s).thm = s.thm ∧ (completeStep s).trc = s.trc ∧ (completeStep s).bst = s.bst ∧ (completeStep s).out = s.out ∧ (completeStep s).free = s.free ∧ (completeStep s).pending = s.pending := by
  unfold completeStep
  (try dsimp only)
  (repeat' split) <;> (try simp)

@[simp] theorem beginPowerOff_frame (reason : Nat) (restart : Bool) (s : State) :
    (beginPowerOff reason restart s).sys = s.sys ∧ (beginPowerOff reason restart s).pwr = s.pwr ∧ (beginPowerOff reason restart s).conf = s.conf ∧ (beginPowerOff reason restart s).ing = s.ing ∧ (beginPowerOff reason restart s).pix = s.pix ∧ (beginPowerOff reason restart s).gz = s.gz ∧ (beginPowerOff reason restart s).dmk = s.dmk ∧ (beginPowerOff reason restart s).od = s.od ∧ (beginPowerOff reason restart s).tmg = s.tmg ∧ (beginPowerOff reason restart s).cue = s.cue ∧ (beginPowerOff reason restart s).mem = s.mem ∧ (beginPowerOff reason restart s).lin = s.lin ∧ (beginPowerOff reason restart s).cal = s.cal ∧ (beginPowerOff reason restart s).gng = s.gng ∧ (beginPowerOff reason restart s).sec = s.sec ∧ (beginPowerOff reason restart s).flt = s.flt ∧ (beginPowerOff reason restart s).thm = s.thm ∧ (beginPowerOff reason restart s).bst = s.bst ∧ (beginPowerOff reason restart s).pending = s.pending ∧ (beginPowerOff reason restart s).hif.power = s.hif.power ∧ (beginPowerOff reason restart s).hif.bme0 = s.hif.bme0 ∧ (beginPowerOff reason restart s).hif.bme1 = s.hif.bme1 ∧ (beginPowerOff reason restart s).hif.d3hot = s.hif.d3hot ∧ (beginPowerOff reason restart s).rings.sqs = s.rings.sqs ∧ (beginPowerOff reason restart s).rings.cqs = s.rings.cqs ∧ (beginPowerOff reason restart s).rings.eq0 = s.rings.eq0 ∧ (beginPowerOff reason restart s).rings.eq1 = s.rings.eq1 := by
  unfold beginPowerOff
  (try simp)
  (repeat' split) <;> (try simp)

@[simp] theorem endPowerOff_frame (s : State) :
    (endPowerOff s).sys = s.sys ∧ (endPowerOff s).pwr = s.pwr ∧ (endPowerOff s).conf = s.conf ∧ (endPowerOff s).ing = s.ing ∧ (endPowerOff s).pix = s.pix ∧ (endPowerOff s).gz = s.gz ∧ (endPowerOff s).lmp = s.lmp ∧ (endPowerOff s).dmk = s.dmk ∧ (endPowerOff s).od = s.od ∧ (endPowerOff s).tmg = s.tmg ∧ (endPowerOff s).twl = s.twl ∧ (endPowerOff s).cue = s.cue ∧ (endPowerOff s).mem = s.mem ∧ (endPowerOff s).lin = s.lin ∧ (endPowerOff s).cal = s.cal ∧ (endPowerOff s).gng = s.gng ∧ (endPowerOff s).sec = s.sec ∧ (endPowerOff s).flt = s.flt ∧ (endPowerOff s).thm = s.thm ∧ (endPowerOff s).bst = s.bst ∧ (endPowerOff s).pending = s.pending ∧ (endPowerOff s).hif.power = s.hif.power ∧ (endPowerOff s).hif.bme0 = s.hif.bme0 ∧ (endPowerOff s).hif.bme1 = s.hif.bme1 ∧ (endPowerOff s).hif.d3hot = s.hif.d3hot ∧ (endPowerOff s).rings.sqs = s.rings.sqs := by
  unfold endPowerOff
  (try simp)
  (repeat' split) <;> (try simp)

@[simp] theorem releaseStep_frame (k : Nat) (s : State) :
    (releaseStep k s).sys = s.sys ∧ (releaseStep k s).pwr = s.pwr ∧ (releaseStep k s).hif = s.hif ∧ (releaseStep k s).rings = s.rings ∧ (releaseStep k s).conf = s.conf ∧ (releaseStep k s).ing = s.ing ∧ (releaseStep k s).pix = s.pix ∧ (releaseStep k s).gz = s.gz ∧ (releaseStep k s).lmp = s.lmp ∧ (releaseStep k s).dmk = s.dmk ∧ (releaseStep k s).od = s.od ∧ (releaseStep k s).tmg = s.tmg ∧ (releaseStep k s).twl = s.twl ∧ (releaseStep k s).cue = s.cue ∧ (releaseStep k s).mem = s.mem ∧ (releaseStep k s).lin = s.lin ∧ (releaseStep k s).cal = s.cal ∧ (releaseStep k s).gng = s.gng ∧ (releaseStep k s).sec = s.sec ∧ (releaseStep k s).flt = s.flt ∧ (releaseStep k s).thm = s.thm ∧ (releaseStep k s).trc = s.trc ∧ (releaseStep k s).bst = s.bst ∧ (releaseStep k s).free = s.free ∧ (releaseStep k s).pending = s.pending ∧ (releaseStep k s).pnl.state = s.pnl.state := by
  unfold releaseStep
  (try dsimp only)
  (repeat' split) <;> (try simp)

@[simp] theorem clearAccumulators_frame (s : State) :
    (clearAccumulators s).sys = s.sys ∧ (clearAccumulators s).pwr = s.pwr ∧ (clearAccumulators s).hif = s.hif ∧ (clearAccumulators s).rings = s.rings ∧ (clearAccumulators s).conf = s.conf ∧ (clearAccumulators s).ing = s.ing ∧ (clearAccumulators s).pix = s.pix ∧ (clearAccumulators s).gz = s.gz ∧ (clearAccumulators s).lmp = s.lmp ∧ (clearAccumulators s).dmk = s.dmk ∧ (clearAccumulators s).od = s.od ∧ (clearAccumulators s).pnl = s.pnl ∧ (clearAccumulators s).twl = s.twl ∧ (clearAccumulators s).cue = s.cue ∧ (clearAccumulators s).mem = s.mem ∧ (clearAccumulators s).lin = s.lin ∧ (clearAccumulators s).cal = s.cal ∧ (clearAccumulators s).gng = s.gng ∧ (clearAccumulators s).sec = s.sec ∧ (clearAccumulators s).flt = s.flt ∧ (clearAccumulators s).thm = s.thm ∧ (clearAccumulators s).trc = s.trc ∧ (clearAccumulators s).bst = s.bst ∧ (clearAccumulators s).out = s.out ∧ (clearAccumulators s).free = s.free ∧ (clearAccumulators s).pending = s.pending ∧ (clearAccumulators s).tmg.running = s.tmg.running := by
  unfold clearAccumulators
  (try dsimp only)
  (repeat' split) <;> (try simp)

@[simp] theorem endDischarge_frame (s : State) :
    (endDischarge s).sys = s.sys ∧ (endDischarge s).pwr = s.pwr ∧ (endDischarge s).conf = s.conf ∧ (endDischarge s).ing = s.ing ∧ (endDischarge s).pix = s.pix ∧ (endDischarge s).gz = s.gz ∧ (endDischarge s).lmp = s.lmp ∧ (endDischarge s).dmk = s.dmk ∧ (endDischarge s).od = s.od ∧ (endDischarge s).twl = s.twl ∧ (endDischarge s).cue = s.cue ∧ (endDischarge s).mem = s.mem ∧ (endDischarge s).lin = s.lin ∧ (endDischarge s).cal = s.cal ∧ (endDischarge s).gng = s.gng ∧ (endDischarge s).sec = s.sec ∧ (endDischarge s).flt = s.flt ∧ (endDischarge s).thm = s.thm ∧ (endDischarge s).bst = s.bst ∧ (endDischarge s).pending = s.pending ∧ (endDischarge s).hif.power = s.hif.power ∧ (endDischarge s).hif.bme0 = s.hif.bme0 ∧ (endDischarge s).hif.bme1 = s.hif.bme1 ∧ (endDischarge s).hif.d3hot = s.hif.d3hot ∧ (endDischarge s).tmg.running = s.tmg.running ∧ (endDischarge s).rings.sqs = s.rings.sqs := by
  unfold endDischarge
  (try simp)
  (repeat' split) <;> (try simp)

@[simp] theorem releaseEnable_frame (s : State) :
    (releaseEnable s).sys = s.sys ∧ (releaseEnable s).pwr = s.pwr ∧ (releaseEnable s).conf = s.conf ∧ (releaseEnable s).ing = s.ing ∧ (releaseEnable s).pix = s.pix ∧ (releaseEnable s).gz = s.gz ∧ (releaseEnable s).lmp = s.lmp ∧ (releaseEnable s).dmk = s.dmk ∧ (releaseEnable s).od = s.od ∧ (releaseEnable s).tmg = s.tmg ∧ (releaseEnable s).twl = s.twl ∧ (releaseEnable s).cue = s.cue ∧ (releaseEnable s).mem = s.mem ∧ (releaseEnable s).lin = s.lin ∧ (releaseEnable s).cal = s.cal ∧ (releaseEnable s).gng = s.gng ∧ (releaseEnable s).sec = s.sec ∧ (releaseEnable s).flt = s.flt ∧ (releaseEnable s).thm = s.thm ∧ (releaseEnable s).bst = s.bst ∧ (releaseEnable s).pending = s.pending ∧ (releaseEnable s).hif.power = s.hif.power ∧ (releaseEnable s).hif.bme0 = s.hif.bme0 ∧ (releaseEnable s).hif.bme1 = s.hif.bme1 ∧ (releaseEnable s).hif.d3hot = s.hif.d3hot ∧ (releaseEnable s).rings.sqs = s.rings.sqs := by
  unfold releaseEnable
  (try simp)
  (repeat' split) <;> (try simp)

@[simp] theorem railOff_frame (restart : Bool) (s : State) :
    (railOff restart s).sys = s.sys ∧ (railOff restart s).pwr = s.pwr ∧ (railOff restart s).conf = s.conf ∧ (railOff restart s).ing = s.ing ∧ (railOff restart s).pix = s.pix ∧ (railOff restart s).gz = s.gz ∧ (railOff restart s).dmk = s.dmk ∧ (railOff restart s).od = s.od ∧ (railOff restart s).tmg = s.tmg ∧ (railOff restart s).cue = s.cue ∧ (railOff restart s).mem = s.mem ∧ (railOff restart s).lin = s.lin ∧ (railOff restart s).cal = s.cal ∧ (railOff restart s).gng = s.gng ∧ (railOff restart s).sec = s.sec ∧ (railOff restart s).flt = s.flt ∧ (railOff restart s).thm = s.thm ∧ (railOff restart s).bst = s.bst ∧ (railOff restart s).pending = s.pending ∧ (railOff restart s).hif.power = s.hif.power ∧ (railOff restart s).hif.bme0 = s.hif.bme0 ∧ (railOff restart s).hif.bme1 = s.hif.bme1 ∧ (railOff restart s).hif.d3hot = s.hif.d3hot ∧ (railOff restart s).rings.sqs = s.rings.sqs ∧ (railOff restart s).rings.cqs = s.rings.cqs ∧ (railOff restart s).rings.eq0 = s.rings.eq0 ∧ (railOff restart s).rings.eq1 = s.rings.eq1 := by
  unfold railOff
  (try simp)
  (repeat' split) <;> (try simp)

@[simp] theorem railFault_frame (mon sample step : Nat) (s : State) :
    (railFault mon sample step s).sys = s.sys ∧ (railFault mon sample step s).pwr = s.pwr ∧ (railFault mon sample step s).conf = s.conf ∧ (railFault mon sample step s).ing = s.ing ∧ (railFault mon sample step s).pix = s.pix ∧ (railFault mon sample step s).gz = s.gz ∧ (railFault mon sample step s).dmk = s.dmk ∧ (railFault mon sample step s).od = s.od ∧ (railFault mon sample step s).tmg = s.tmg ∧ (railFault mon sample step s).cue = s.cue ∧ (railFault mon sample step s).mem = s.mem ∧ (railFault mon sample step s).cal = s.cal ∧ (railFault mon sample step s).gng = s.gng ∧ (railFault mon sample step s).sec = s.sec ∧ (railFault mon sample step s).flt = s.flt ∧ (railFault mon sample step s).thm = s.thm ∧ (railFault mon sample step s).bst = s.bst ∧ (railFault mon sample step s).pending = s.pending ∧ (railFault mon sample step s).hif.power = s.hif.power ∧ (railFault mon sample step s).hif.bme0 = s.hif.bme0 ∧ (railFault mon sample step s).hif.bme1 = s.hif.bme1 ∧ (railFault mon sample step s).hif.d3hot = s.hif.d3hot ∧ (railFault mon sample step s).rings.sqs = s.rings.sqs := by
  unfold railFault
  (try dsimp only)
  (repeat' split) <;> (try simp)

@[simp] theorem checkRail_frame (k : Nat) (s : State) :
    (checkRail k s).sys = s.sys ∧ (checkRail k s).pwr = s.pwr ∧ (checkRail k s).conf = s.conf ∧ (checkRail k s).ing = s.ing ∧ (checkRail k s).pix = s.pix ∧ (checkRail k s).gz = s.gz ∧ (checkRail k s).dmk = s.dmk ∧ (checkRail k s).od = s.od ∧ (checkRail k s).tmg = s.tmg ∧ (checkRail k s).cue = s.cue ∧ (checkRail k s).mem = s.mem ∧ (checkRail k s).cal = s.cal ∧ (checkRail k s).gng = s.gng ∧ (checkRail k s).sec = s.sec ∧ (checkRail k s).flt = s.flt ∧ (checkRail k s).thm = s.thm ∧ (checkRail k s).bst = s.bst ∧ (checkRail k s).pending = s.pending ∧ (checkRail k s).hif.power = s.hif.power ∧ (checkRail k s).hif.bme0 = s.hif.bme0 ∧ (checkRail k s).hif.bme1 = s.hif.bme1 ∧ (checkRail k s).hif.d3hot = s.hif.d3hot ∧ (checkRail k s).rings.sqs = s.rings.sqs := by
  unfold checkRail
  (try simp)
  (repeat' split) <;> (try simp)

@[simp] theorem setGoals_frame (s : State) :
    (setGoals s).sys = s.sys ∧ (setGoals s).pwr = s.pwr ∧ (setGoals s).hif = s.hif ∧ (setGoals s).rings = s.rings ∧ (setGoals s).conf = s.conf ∧ (setGoals s).ing = s.ing ∧ (setGoals s).pix = s.pix ∧ (setGoals s).gz = s.gz ∧ (setGoals s).lmp = s.lmp ∧ (setGoals s).dmk = s.dmk ∧ (setGoals s).od = s.od ∧ (setGoals s).tmg = s.tmg ∧ (setGoals s).pnl = s.pnl ∧ (setGoals s).twl = s.twl ∧ (setGoals s).cue = s.cue ∧ (setGoals s).mem = s.mem ∧ (setGoals s).lin = s.lin ∧ (setGoals s).gng = s.gng ∧ (setGoals s).sec = s.sec ∧ (setGoals s).flt = s.flt ∧ (setGoals s).thm = s.thm ∧ (setGoals s).trc = s.trc ∧ (setGoals s).bst = s.bst ∧ (setGoals s).out = s.out ∧ (setGoals s).free = s.free ∧ (setGoals s).pending = s.pending := by
  unfold setGoals
  (try dsimp only)
  (repeat' split) <;> (try simp)

@[simp] theorem moveTaps_frame (s0 : State) :
    (moveTaps s0).sys = s0.sys ∧ (moveTaps s0).pwr = s0.pwr ∧ (moveTaps s0).hif = s0.hif ∧ (moveTaps s0).rings = s0.rings ∧ (moveTaps s0).conf = s0.conf ∧ (moveTaps s0).ing = s0.ing ∧ (moveTaps s0).pix = s0.pix ∧ (moveTaps s0).gz = s0.gz ∧ (moveTaps s0).lmp = s0.lmp ∧ (moveTaps s0).dmk = s0.dmk ∧ (moveTaps s0).od = s0.od ∧ (moveTaps s0).tmg = s0.tmg ∧ (moveTaps s0).pnl = s0.pnl ∧ (moveTaps s0).twl = s0.twl ∧ (moveTaps s0).cue = s0.cue ∧ (moveTaps s0).mem = s0.mem ∧ (moveTaps s0).lin = s0.lin ∧ (moveTaps s0).gng = s0.gng ∧ (moveTaps s0).sec = s0.sec ∧ (moveTaps s0).flt = s0.flt ∧ (moveTaps s0).thm = s0.thm ∧ (moveTaps s0).trc = s0.trc ∧ (moveTaps s0).bst = s0.bst ∧ (moveTaps s0).out = s0.out ∧ (moveTaps s0).free = s0.free ∧ (moveTaps s0).pending = s0.pending := by
  unfold moveTaps
  (try dsimp only)
  (repeat' split) <;> (try simp)

@[simp] theorem startReceiver_frame (lane : Nat) (s : State) :
    (startReceiver lane s).sys = s.sys ∧ (startReceiver lane s).pwr = s.pwr ∧ (startReceiver lane s).hif = s.hif ∧ (startReceiver lane s).rings = s.rings ∧ (startReceiver lane s).conf = s.conf ∧ (startReceiver lane s).ing = s.ing ∧ (startReceiver lane s).pix = s.pix ∧ (startReceiver lane s).gz = s.gz ∧ (startReceiver lane s).lmp = s.lmp ∧ (startReceiver lane s).dmk = s.dmk ∧ (startReceiver lane s).od = s.od ∧ (startReceiver lane s).tmg = s.tmg ∧ (startReceiver lane s).pnl = s.pnl ∧ (startReceiver lane s).twl = s.twl ∧ (startReceiver lane s).cue = s.cue ∧ (startReceiver lane s).mem = s.mem ∧ (startReceiver lane s).lin = s.lin ∧ (startReceiver lane s).gng = s.gng ∧ (startReceiver lane s).sec = s.sec ∧ (startReceiver lane s).flt = s.flt ∧ (startReceiver lane s).thm = s.thm ∧ (startReceiver lane s).trc = s.trc ∧ (startReceiver lane s).bst = s.bst ∧ (startReceiver lane s).out = s.out ∧ (startReceiver lane s).free = s.free ∧ (startReceiver lane s).pending = s.pending := by
  unfold startReceiver
  (try dsimp only)
  (repeat' split) <;> (try simp)

@[simp] theorem endRun_frame (j : CalJob) (s : State) :
    (endRun j s).sys = s.sys ∧ (endRun j s).pwr = s.pwr ∧ (endRun j s).conf = s.conf ∧ (endRun j s).ing = s.ing ∧ (endRun j s).pix = s.pix ∧ (endRun j s).gz = s.gz ∧ (endRun j s).lmp = s.lmp ∧ (endRun j s).dmk = s.dmk ∧ (endRun j s).od = s.od ∧ (endRun j s).tmg = s.tmg ∧ (endRun j s).pnl = s.pnl ∧ (endRun j s).twl = s.twl ∧ (endRun j s).cue = s.cue ∧ (endRun j s).mem = s.mem ∧ (endRun j s).lin = s.lin ∧ (endRun j s).gng = s.gng ∧ (endRun j s).sec = s.sec ∧ (endRun j s).flt = s.flt ∧ (endRun j s).thm = s.thm ∧ (endRun j s).bst = s.bst ∧ (endRun j s).pending = s.pending ∧ (endRun j s).hif.power = s.hif.power ∧ (endRun j s).hif.d3hot = s.hif.d3hot := by
  unfold endRun
  (try simp)
  (repeat' split) <;> (try simp)

@[simp] theorem startRuns_frame (n : Nat) (s : State) :
    (startRuns n s).sys = s.sys ∧ (startRuns n s).pwr = s.pwr ∧ (startRuns n s).conf = s.conf ∧ (startRuns n s).ing = s.ing ∧ (startRuns n s).pix = s.pix ∧ (startRuns n s).gz = s.gz ∧ (startRuns n s).lmp = s.lmp ∧ (startRuns n s).dmk = s.dmk ∧ (startRuns n s).od = s.od ∧ (startRuns n s).tmg = s.tmg ∧ (startRuns n s).pnl = s.pnl ∧ (startRuns n s).twl = s.twl ∧ (startRuns n s).cue = s.cue ∧ (startRuns n s).mem = s.mem ∧ (startRuns n s).lin = s.lin ∧ (startRuns n s).gng = s.gng ∧ (startRuns n s).sec = s.sec ∧ (startRuns n s).flt = s.flt ∧ (startRuns n s).thm = s.thm ∧ (startRuns n s).bst = s.bst ∧ (startRuns n s).pending = s.pending ∧ (startRuns n s).hif.power = s.hif.power ∧ (startRuns n s).hif.d3hot = s.hif.d3hot := by
  induction n generalizing s with
  | zero => simp [startRuns]
  | succ n ih => unfold startRuns; dsimp only; (repeat' split) <;> simp [ih]

@[simp] theorem nextRuns_frame (s : State) :
    (nextRuns s).sys = s.sys ∧ (nextRuns s).pwr = s.pwr ∧ (nextRuns s).conf = s.conf ∧ (nextRuns s).ing = s.ing ∧ (nextRuns s).pix = s.pix ∧ (nextRuns s).gz = s.gz ∧ (nextRuns s).lmp = s.lmp ∧ (nextRuns s).dmk = s.dmk ∧ (nextRuns s).od = s.od ∧ (nextRuns s).tmg = s.tmg ∧ (nextRuns s).pnl = s.pnl ∧ (nextRuns s).twl = s.twl ∧ (nextRuns s).cue = s.cue ∧ (nextRuns s).mem = s.mem ∧ (nextRuns s).lin = s.lin ∧ (nextRuns s).gng = s.gng ∧ (nextRuns s).sec = s.sec ∧ (nextRuns s).flt = s.flt ∧ (nextRuns s).thm = s.thm ∧ (nextRuns s).bst = s.bst ∧ (nextRuns s).pending = s.pending ∧ (nextRuns s).hif.power = s.hif.power ∧ (nextRuns s).hif.d3hot = s.hif.d3hot := by
  unfold nextRuns
  (repeat' split) <;> (try simp)

@[simp] theorem autoRun_frame (link : Nat) (s : State) :
    (autoRun link s).sys = s.sys ∧ (autoRun link s).pwr = s.pwr ∧ (autoRun link s).conf = s.conf ∧ (autoRun link s).ing = s.ing ∧ (autoRun link s).pix = s.pix ∧ (autoRun link s).gz = s.gz ∧ (autoRun link s).lmp = s.lmp ∧ (autoRun link s).dmk = s.dmk ∧ (autoRun link s).od = s.od ∧ (autoRun link s).tmg = s.tmg ∧ (autoRun link s).pnl = s.pnl ∧ (autoRun link s).twl = s.twl ∧ (autoRun link s).cue = s.cue ∧ (autoRun link s).mem = s.mem ∧ (autoRun link s).lin = s.lin ∧ (autoRun link s).gng = s.gng ∧ (autoRun link s).sec = s.sec ∧ (autoRun link s).flt = s.flt ∧ (autoRun link s).thm = s.thm ∧ (autoRun link s).bst = s.bst ∧ (autoRun link s).pending = s.pending ∧ (autoRun link s).hif.power = s.hif.power ∧ (autoRun link s).hif.d3hot = s.hif.d3hot := by
  unfold autoRun
  (try simp)
  (repeat' split) <;> (try simp)

@[simp] theorem thermalRun_frame (link : Nat) (s : State) :
    (thermalRun link s).sys = s.sys ∧ (thermalRun link s).pwr = s.pwr ∧ (thermalRun link s).conf = s.conf ∧ (thermalRun link s).ing = s.ing ∧ (thermalRun link s).pix = s.pix ∧ (thermalRun link s).gz = s.gz ∧ (thermalRun link s).lmp = s.lmp ∧ (thermalRun link s).dmk = s.dmk ∧ (thermalRun link s).od = s.od ∧ (thermalRun link s).tmg = s.tmg ∧ (thermalRun link s).pnl = s.pnl ∧ (thermalRun link s).twl = s.twl ∧ (thermalRun link s).cue = s.cue ∧ (thermalRun link s).mem = s.mem ∧ (thermalRun link s).lin = s.lin ∧ (thermalRun link s).gng = s.gng ∧ (thermalRun link s).sec = s.sec ∧ (thermalRun link s).flt = s.flt ∧ (thermalRun link s).thm = s.thm ∧ (thermalRun link s).bst = s.bst ∧ (thermalRun link s).pending = s.pending ∧ (thermalRun link s).hif.power = s.hif.power ∧ (thermalRun link s).hif.d3hot = s.hif.d3hot := by
  unfold thermalRun
  (try simp)
  (repeat' split) <;> (try simp)

@[simp] theorem settleRuns_frame (s : State) :
    (settleRuns s).sys = s.sys ∧ (settleRuns s).pwr = s.pwr ∧ (settleRuns s).conf = s.conf ∧ (settleRuns s).ing = s.ing ∧ (settleRuns s).pix = s.pix ∧ (settleRuns s).gz = s.gz ∧ (settleRuns s).lmp = s.lmp ∧ (settleRuns s).dmk = s.dmk ∧ (settleRuns s).od = s.od ∧ (settleRuns s).tmg = s.tmg ∧ (settleRuns s).pnl = s.pnl ∧ (settleRuns s).twl = s.twl ∧ (settleRuns s).cue = s.cue ∧ (settleRuns s).mem = s.mem ∧ (settleRuns s).lin = s.lin ∧ (settleRuns s).gng = s.gng ∧ (settleRuns s).sec = s.sec ∧ (settleRuns s).flt = s.flt ∧ (settleRuns s).thm = s.thm ∧ (settleRuns s).bst = s.bst ∧ (settleRuns s).pending = s.pending ∧ (settleRuns s).hif.power = s.hif.power ∧ (settleRuns s).hif.d3hot = s.hif.d3hot := by
  unfold settleRuns
  (try simp)
  (repeat' split) <;> (try simp)

@[simp] theorem keepLanes_frame (p : Nat → Bool) (s : State) :
    (keepLanes p s).sys = s.sys ∧ (keepLanes p s).pwr = s.pwr ∧ (keepLanes p s).conf = s.conf ∧ (keepLanes p s).ing = s.ing ∧ (keepLanes p s).pix = s.pix ∧ (keepLanes p s).gz = s.gz ∧ (keepLanes p s).lmp = s.lmp ∧ (keepLanes p s).dmk = s.dmk ∧ (keepLanes p s).od = s.od ∧ (keepLanes p s).tmg = s.tmg ∧ (keepLanes p s).pnl = s.pnl ∧ (keepLanes p s).twl = s.twl ∧ (keepLanes p s).cue = s.cue ∧ (keepLanes p s).mem = s.mem ∧ (keepLanes p s).lin = s.lin ∧ (keepLanes p s).gng = s.gng ∧ (keepLanes p s).sec = s.sec ∧ (keepLanes p s).flt = s.flt ∧ (keepLanes p s).thm = s.thm ∧ (keepLanes p s).bst = s.bst ∧ (keepLanes p s).pending = s.pending ∧ (keepLanes p s).hif.power = s.hif.power ∧ (keepLanes p s).hif.d3hot = s.hif.d3hot := by
  unfold keepLanes
  (try dsimp only)
  (repeat' split) <;> (try simp)

@[simp] theorem pruneRun_frame (s : State) :
    (pruneRun s).sys = s.sys ∧ (pruneRun s).pwr = s.pwr ∧ (pruneRun s).conf = s.conf ∧ (pruneRun s).ing = s.ing ∧ (pruneRun s).pix = s.pix ∧ (pruneRun s).gz = s.gz ∧ (pruneRun s).lmp = s.lmp ∧ (pruneRun s).dmk = s.dmk ∧ (pruneRun s).od = s.od ∧ (pruneRun s).tmg = s.tmg ∧ (pruneRun s).pnl = s.pnl ∧ (pruneRun s).twl = s.twl ∧ (pruneRun s).cue = s.cue ∧ (pruneRun s).mem = s.mem ∧ (pruneRun s).lin = s.lin ∧ (pruneRun s).gng = s.gng ∧ (pruneRun s).sec = s.sec ∧ (pruneRun s).flt = s.flt ∧ (pruneRun s).thm = s.thm ∧ (pruneRun s).bst = s.bst ∧ (pruneRun s).pending = s.pending ∧ (pruneRun s).hif.power = s.hif.power ∧ (pruneRun s).hif.d3hot = s.hif.d3hot := by
  unfold pruneRun
  (repeat' split) <;> (try simp)

@[simp] theorem endTwillRuns_frame (s : State) :
    (endTwillRuns s).sys = s.sys ∧ (endTwillRuns s).pwr = s.pwr ∧ (endTwillRuns s).conf = s.conf ∧ (endTwillRuns s).ing = s.ing ∧ (endTwillRuns s).pix = s.pix ∧ (endTwillRuns s).gz = s.gz ∧ (endTwillRuns s).lmp = s.lmp ∧ (endTwillRuns s).dmk = s.dmk ∧ (endTwillRuns s).od = s.od ∧ (endTwillRuns s).tmg = s.tmg ∧ (endTwillRuns s).pnl = s.pnl ∧ (endTwillRuns s).twl = s.twl ∧ (endTwillRuns s).cue = s.cue ∧ (endTwillRuns s).mem = s.mem ∧ (endTwillRuns s).lin = s.lin ∧ (endTwillRuns s).gng = s.gng ∧ (endTwillRuns s).sec = s.sec ∧ (endTwillRuns s).flt = s.flt ∧ (endTwillRuns s).thm = s.thm ∧ (endTwillRuns s).bst = s.bst ∧ (endTwillRuns s).pending = s.pending ∧ (endTwillRuns s).hif.power = s.hif.power ∧ (endTwillRuns s).hif.d3hot = s.hif.d3hot := by
  unfold endTwillRuns
  (repeat' split) <;> (try simp)

@[simp] theorem loadCalSets_frame (s : State) :
    (loadCalSets s).sys = s.sys ∧ (loadCalSets s).pwr = s.pwr ∧ (loadCalSets s).hif = s.hif ∧ (loadCalSets s).rings = s.rings ∧ (loadCalSets s).conf = s.conf ∧ (loadCalSets s).ing = s.ing ∧ (loadCalSets s).pix = s.pix ∧ (loadCalSets s).gz = s.gz ∧ (loadCalSets s).lmp = s.lmp ∧ (loadCalSets s).dmk = s.dmk ∧ (loadCalSets s).od = s.od ∧ (loadCalSets s).tmg = s.tmg ∧ (loadCalSets s).pnl = s.pnl ∧ (loadCalSets s).twl = s.twl ∧ (loadCalSets s).cue = s.cue ∧ (loadCalSets s).mem = s.mem ∧ (loadCalSets s).lin = s.lin ∧ (loadCalSets s).gng = s.gng ∧ (loadCalSets s).sec = s.sec ∧ (loadCalSets s).flt = s.flt ∧ (loadCalSets s).thm = s.thm ∧ (loadCalSets s).trc = s.trc ∧ (loadCalSets s).bst = s.bst ∧ (loadCalSets s).out = s.out ∧ (loadCalSets s).free = s.free ∧ (loadCalSets s).pending = s.pending := by
  unfold loadCalSets
  (try dsimp only)
  (repeat' split) <;> (try simp)

@[simp] theorem acceptLane_frame (lane : Nat) (v : List Int) (s : State) :
    (acceptLane lane v s).sys = s.sys ∧ (acceptLane lane v s).pwr = s.pwr ∧ (acceptLane lane v s).hif = s.hif ∧ (acceptLane lane v s).rings = s.rings ∧ (acceptLane lane v s).conf = s.conf ∧ (acceptLane lane v s).ing = s.ing ∧ (acceptLane lane v s).pix = s.pix ∧ (acceptLane lane v s).gz = s.gz ∧ (acceptLane lane v s).lmp = s.lmp ∧ (acceptLane lane v s).dmk = s.dmk ∧ (acceptLane lane v s).od = s.od ∧ (acceptLane lane v s).tmg = s.tmg ∧ (acceptLane lane v s).pnl = s.pnl ∧ (acceptLane lane v s).twl = s.twl ∧ (acceptLane lane v s).cue = s.cue ∧ (acceptLane lane v s).mem = s.mem ∧ (acceptLane lane v s).gng = s.gng ∧ (acceptLane lane v s).sec = s.sec ∧ (acceptLane lane v s).flt = s.flt ∧ (acceptLane lane v s).thm = s.thm ∧ (acceptLane lane v s).trc = s.trc ∧ (acceptLane lane v s).bst = s.bst ∧ (acceptLane lane v s).out = s.out ∧ (acceptLane lane v s).free = s.free ∧ (acceptLane lane v s).pending = s.pending := by
  unfold acceptLane
  (try dsimp only)
  (repeat' split) <;> (try simp)

@[simp] theorem onJob_frame (lane : Nat) (f : CalJob → CalJob) (s : State) :
    (onJob lane f s).sys = s.sys ∧ (onJob lane f s).pwr = s.pwr ∧ (onJob lane f s).hif = s.hif ∧ (onJob lane f s).rings = s.rings ∧ (onJob lane f s).conf = s.conf ∧ (onJob lane f s).ing = s.ing ∧ (onJob lane f s).pix = s.pix ∧ (onJob lane f s).gz = s.gz ∧ (onJob lane f s).lmp = s.lmp ∧ (onJob lane f s).dmk = s.dmk ∧ (onJob lane f s).od = s.od ∧ (onJob lane f s).tmg = s.tmg ∧ (onJob lane f s).pnl = s.pnl ∧ (onJob lane f s).twl = s.twl ∧ (onJob lane f s).cue = s.cue ∧ (onJob lane f s).mem = s.mem ∧ (onJob lane f s).lin = s.lin ∧ (onJob lane f s).gng = s.gng ∧ (onJob lane f s).sec = s.sec ∧ (onJob lane f s).flt = s.flt ∧ (onJob lane f s).thm = s.thm ∧ (onJob lane f s).trc = s.trc ∧ (onJob lane f s).bst = s.bst ∧ (onJob lane f s).out = s.out ∧ (onJob lane f s).free = s.free ∧ (onJob lane f s).pending = s.pending := by
  unfold onJob
  (try dsimp only)
  (repeat' split) <;> (try simp)

@[simp] theorem rejectLane_frame (lane reason : Nat) (q : Option Nat) (s : State) :
    (rejectLane lane reason q s).sys = s.sys ∧ (rejectLane lane reason q s).pwr = s.pwr ∧ (rejectLane lane reason q s).conf = s.conf ∧ (rejectLane lane reason q s).ing = s.ing ∧ (rejectLane lane reason q s).pix = s.pix ∧ (rejectLane lane reason q s).gz = s.gz ∧ (rejectLane lane reason q s).lmp = s.lmp ∧ (rejectLane lane reason q s).dmk = s.dmk ∧ (rejectLane lane reason q s).od = s.od ∧ (rejectLane lane reason q s).tmg = s.tmg ∧ (rejectLane lane reason q s).pnl = s.pnl ∧ (rejectLane lane reason q s).twl = s.twl ∧ (rejectLane lane reason q s).cue = s.cue ∧ (rejectLane lane reason q s).mem = s.mem ∧ (rejectLane lane reason q s).lin = s.lin ∧ (rejectLane lane reason q s).gng = s.gng ∧ (rejectLane lane reason q s).sec = s.sec ∧ (rejectLane lane reason q s).flt = s.flt ∧ (rejectLane lane reason q s).thm = s.thm ∧ (rejectLane lane reason q s).trc = s.trc ∧ (rejectLane lane reason q s).bst = s.bst ∧ (rejectLane lane reason q s).pending = s.pending ∧ (rejectLane lane reason q s).hif.power = s.hif.power ∧ (rejectLane lane reason q s).hif.bme0 = s.hif.bme0 ∧ (rejectLane lane reason q s).hif.bme1 = s.hif.bme1 ∧ (rejectLane lane reason q s).hif.d3hot = s.hif.d3hot ∧ (rejectLane lane reason q s).rings.sqs = s.rings.sqs := by
  unfold rejectLane
  (try simp)
  (repeat' split) <;> (try simp)

@[simp] theorem measureLane_frame (lane : Nat) (m : CalMeasure) (j : CalJob) (s : State) :
    (measureLane lane m j s).sys = s.sys ∧ (measureLane lane m j s).pwr = s.pwr ∧ (measureLane lane m j s).conf = s.conf ∧ (measureLane lane m j s).ing = s.ing ∧ (measureLane lane m j s).pix = s.pix ∧ (measureLane lane m j s).gz = s.gz ∧ (measureLane lane m j s).lmp = s.lmp ∧ (measureLane lane m j s).dmk = s.dmk ∧ (measureLane lane m j s).od = s.od ∧ (measureLane lane m j s).tmg = s.tmg ∧ (measureLane lane m j s).pnl = s.pnl ∧ (measureLane lane m j s).twl = s.twl ∧ (measureLane lane m j s).cue = s.cue ∧ (measureLane lane m j s).mem = s.mem ∧ (measureLane lane m j s).gng = s.gng ∧ (measureLane lane m j s).sec = s.sec ∧ (measureLane lane m j s).flt = s.flt ∧ (measureLane lane m j s).thm = s.thm ∧ (measureLane lane m j s).trc = s.trc ∧ (measureLane lane m j s).bst = s.bst ∧ (measureLane lane m j s).pending = s.pending ∧ (measureLane lane m j s).hif.power = s.hif.power ∧ (measureLane lane m j s).hif.bme0 = s.hif.bme0 ∧ (measureLane lane m j s).hif.bme1 = s.hif.bme1 ∧ (measureLane lane m j s).hif.d3hot = s.hif.d3hot ∧ (measureLane lane m j s).rings.sqs = s.rings.sqs := by
  unfold measureLane
  (try simp)
  (repeat' split) <;> (try simp)

@[simp] theorem pollLane_frame (carried : Bool) (lane : Nat) (s : State) :
    (pollLane carried lane s).sys = s.sys ∧ (pollLane carried lane s).pwr = s.pwr ∧ (pollLane carried lane s).hif = s.hif ∧ (pollLane carried lane s).rings = s.rings ∧ (pollLane carried lane s).conf = s.conf ∧ (pollLane carried lane s).ing = s.ing ∧ (pollLane carried lane s).pix = s.pix ∧ (pollLane carried lane s).gz = s.gz ∧ (pollLane carried lane s).lmp = s.lmp ∧ (pollLane carried lane s).dmk = s.dmk ∧ (pollLane carried lane s).od = s.od ∧ (pollLane carried lane s).tmg = s.tmg ∧ (pollLane carried lane s).pnl = s.pnl ∧ (pollLane carried lane s).cue = s.cue ∧ (pollLane carried lane s).mem = s.mem ∧ (pollLane carried lane s).lin = s.lin ∧ (pollLane carried lane s).gng = s.gng ∧ (pollLane carried lane s).sec = s.sec ∧ (pollLane carried lane s).flt = s.flt ∧ (pollLane carried lane s).thm = s.thm ∧ (pollLane carried lane s).trc = s.trc ∧ (pollLane carried lane s).bst = s.bst ∧ (pollLane carried lane s).pending = s.pending := by
  unfold pollLane
  (try simp)
  (repeat' split) <;> (try simp)

@[simp] theorem runPolls_frame (carried : Bool) (s : State) :
    (runPolls carried s).sys = s.sys ∧ (runPolls carried s).pwr = s.pwr ∧ (runPolls carried s).hif = s.hif ∧ (runPolls carried s).rings = s.rings ∧ (runPolls carried s).conf = s.conf ∧ (runPolls carried s).ing = s.ing ∧ (runPolls carried s).pix = s.pix ∧ (runPolls carried s).gz = s.gz ∧ (runPolls carried s).lmp = s.lmp ∧ (runPolls carried s).dmk = s.dmk ∧ (runPolls carried s).od = s.od ∧ (runPolls carried s).tmg = s.tmg ∧ (runPolls carried s).pnl = s.pnl ∧ (runPolls carried s).cue = s.cue ∧ (runPolls carried s).mem = s.mem ∧ (runPolls carried s).lin = s.lin ∧ (runPolls carried s).gng = s.gng ∧ (runPolls carried s).sec = s.sec ∧ (runPolls carried s).flt = s.flt ∧ (runPolls carried s).thm = s.thm ∧ (runPolls carried s).trc = s.trc ∧ (runPolls carried s).bst = s.bst ∧ (runPolls carried s).pending = s.pending := by
  unfold runPolls
  (repeat' split) <;> (try simp)

@[simp] theorem junctionSample_frame (j : Int) (s : State) :
    (junctionSample j s).sys = s.sys ∧ (junctionSample j s).pwr = s.pwr ∧ (junctionSample j s).conf = s.conf ∧ (junctionSample j s).ing = s.ing ∧ (junctionSample j s).pix = s.pix ∧ (junctionSample j s).gz = s.gz ∧ (junctionSample j s).lmp = s.lmp ∧ (junctionSample j s).dmk = s.dmk ∧ (junctionSample j s).od = s.od ∧ (junctionSample j s).tmg = s.tmg ∧ (junctionSample j s).pnl = s.pnl ∧ (junctionSample j s).twl = s.twl ∧ (junctionSample j s).cue = s.cue ∧ (junctionSample j s).mem = s.mem ∧ (junctionSample j s).lin = s.lin ∧ (junctionSample j s).gng = s.gng ∧ (junctionSample j s).sec = s.sec ∧ (junctionSample j s).bst = s.bst ∧ (junctionSample j s).pending = s.pending ∧ (junctionSample j s).hif.power = s.hif.power ∧ (junctionSample j s).hif.d3hot = s.hif.d3hot := by
  unfold junctionSample
  (try dsimp only)
  (repeat' split) <;> (try simp (disch := (intros; (repeat' split) <;> (try simp))))

@[simp] theorem pollSensor_frame (k : Nat) (d : Option (Byte × Byte)) (s : State) :
    (pollSensor k d s).sys = s.sys ∧ (pollSensor k d s).pwr = s.pwr ∧ (pollSensor k d s).conf = s.conf ∧ (pollSensor k d s).ing = s.ing ∧ (pollSensor k d s).pix = s.pix ∧ (pollSensor k d s).gz = s.gz ∧ (pollSensor k d s).lmp = s.lmp ∧ (pollSensor k d s).dmk = s.dmk ∧ (pollSensor k d s).od = s.od ∧ (pollSensor k d s).tmg = s.tmg ∧ (pollSensor k d s).pnl = s.pnl ∧ (pollSensor k d s).twl = s.twl ∧ (pollSensor k d s).cue = s.cue ∧ (pollSensor k d s).mem = s.mem ∧ (pollSensor k d s).lin = s.lin ∧ (pollSensor k d s).cal = s.cal ∧ (pollSensor k d s).gng = s.gng ∧ (pollSensor k d s).sec = s.sec ∧ (pollSensor k d s).flt = s.flt ∧ (pollSensor k d s).trc = s.trc ∧ (pollSensor k d s).bst = s.bst ∧ (pollSensor k d s).free = s.free ∧ (pollSensor k d s).pending = s.pending ∧ (pollSensor k d s).hif.power = s.hif.power ∧ (pollSensor k d s).hif.bme0 = s.hif.bme0 ∧ (pollSensor k d s).hif.bme1 = s.hif.bme1 ∧ (pollSensor k d s).hif.d3hot = s.hif.d3hot ∧ (pollSensor k d s).rings.sqs = s.rings.sqs := by
  unfold pollSensor
  (try simp)
  (repeat' split) <;> (try simp)

@[simp] theorem dropSensor_frame (k : Nat) (s : State) :
    (dropSensor k s).sys = s.sys ∧ (dropSensor k s).pwr = s.pwr ∧ (dropSensor k s).conf = s.conf ∧ (dropSensor k s).ing = s.ing ∧ (dropSensor k s).pix = s.pix ∧ (dropSensor k s).gz = s.gz ∧ (dropSensor k s).lmp = s.lmp ∧ (dropSensor k s).dmk = s.dmk ∧ (dropSensor k s).od = s.od ∧ (dropSensor k s).tmg = s.tmg ∧ (dropSensor k s).pnl = s.pnl ∧ (dropSensor k s).twl = s.twl ∧ (dropSensor k s).cue = s.cue ∧ (dropSensor k s).mem = s.mem ∧ (dropSensor k s).lin = s.lin ∧ (dropSensor k s).cal = s.cal ∧ (dropSensor k s).gng = s.gng ∧ (dropSensor k s).sec = s.sec ∧ (dropSensor k s).flt = s.flt ∧ (dropSensor k s).trc = s.trc ∧ (dropSensor k s).bst = s.bst ∧ (dropSensor k s).free = s.free ∧ (dropSensor k s).pending = s.pending ∧ (dropSensor k s).hif.power = s.hif.power ∧ (dropSensor k s).hif.bme0 = s.hif.bme0 ∧ (dropSensor k s).hif.bme1 = s.hif.bme1 ∧ (dropSensor k s).hif.d3hot = s.hif.d3hot ∧ (dropSensor k s).rings.sqs = s.rings.sqs := by
  unfold dropSensor
  (try dsimp only)
  (repeat' split) <;> (try simp)

@[simp] theorem measurePower_frame (s : State) :
    (measurePower s).sys = s.sys ∧ (measurePower s).hif = s.hif ∧ (measurePower s).rings = s.rings ∧ (measurePower s).conf = s.conf ∧ (measurePower s).ing = s.ing ∧ (measurePower s).pix = s.pix ∧ (measurePower s).gz = s.gz ∧ (measurePower s).lmp = s.lmp ∧ (measurePower s).dmk = s.dmk ∧ (measurePower s).od = s.od ∧ (measurePower s).tmg = s.tmg ∧ (measurePower s).pnl = s.pnl ∧ (measurePower s).twl = s.twl ∧ (measurePower s).cue = s.cue ∧ (measurePower s).mem = s.mem ∧ (measurePower s).lin = s.lin ∧ (measurePower s).cal = s.cal ∧ (measurePower s).gng = s.gng ∧ (measurePower s).sec = s.sec ∧ (measurePower s).flt = s.flt ∧ (measurePower s).thm = s.thm ∧ (measurePower s).trc = s.trc ∧ (measurePower s).bst = s.bst ∧ (measurePower s).out = s.out ∧ (measurePower s).pending = s.pending ∧ (measurePower s).pwr.fall = s.pwr.fall := by
  unfold measurePower
  (try dsimp only)
  (repeat' split) <;> (try simp)

@[simp] theorem readBar0_frame (off : Nat) (s : State) :
    ((readBar0 off s).2).hif = s.hif ∧ ((readBar0 off s).2).rings = s.rings ∧ ((readBar0 off s).2).conf = s.conf ∧ ((readBar0 off s).2).ing = s.ing ∧ ((readBar0 off s).2).pix = s.pix ∧ ((readBar0 off s).2).gz = s.gz ∧ ((readBar0 off s).2).lmp = s.lmp ∧ ((readBar0 off s).2).dmk = s.dmk ∧ ((readBar0 off s).2).od = s.od ∧ ((readBar0 off s).2).tmg = s.tmg ∧ ((readBar0 off s).2).pnl = s.pnl ∧ ((readBar0 off s).2).twl = s.twl ∧ ((readBar0 off s).2).cue = s.cue ∧ ((readBar0 off s).2).mem = s.mem ∧ ((readBar0 off s).2).lin = s.lin ∧ ((readBar0 off s).2).cal = s.cal ∧ ((readBar0 off s).2).gng = s.gng ∧ ((readBar0 off s).2).sec = s.sec ∧ ((readBar0 off s).2).flt = s.flt ∧ ((readBar0 off s).2).thm = s.thm ∧ ((readBar0 off s).2).trc = s.trc ∧ ((readBar0 off s).2).bst = s.bst ∧ ((readBar0 off s).2).out = s.out ∧ ((readBar0 off s).2).pending = s.pending ∧ ((readBar0 off s).2).sys.mode = s.sys.mode ∧ ((readBar0 off s).2).sys.fe = s.sys.fe ∧ ((readBar0 off s).2).sys.transit = s.sys.transit ∧ ((readBar0 off s).2).sys.lock = s.sys.lock ∧ ((readBar0 off s).2).sys.serving = s.sys.serving ∧ ((readBar0 off s).2).sys.stage = s.sys.stage ∧ ((readBar0 off s).2).pwr.fall = s.pwr.fall := by
  unfold readBar0; (try dsimp only); (repeat' split) <;> simp

@[simp] theorem setGng_frame (p : Nat) (v : GngPort) (s : State) :
    (setGng p v s).sys = s.sys ∧ (setGng p v s).pwr = s.pwr ∧ (setGng p v s).hif = s.hif ∧ (setGng p v s).rings = s.rings ∧ (setGng p v s).conf = s.conf ∧ (setGng p v s).ing = s.ing ∧ (setGng p v s).pix = s.pix ∧ (setGng p v s).gz = s.gz ∧ (setGng p v s).lmp = s.lmp ∧ (setGng p v s).dmk = s.dmk ∧ (setGng p v s).od = s.od ∧ (setGng p v s).tmg = s.tmg ∧ (setGng p v s).pnl = s.pnl ∧ (setGng p v s).twl = s.twl ∧ (setGng p v s).cue = s.cue ∧ (setGng p v s).mem = s.mem ∧ (setGng p v s).lin = s.lin ∧ (setGng p v s).cal = s.cal ∧ (setGng p v s).sec = s.sec ∧ (setGng p v s).flt = s.flt ∧ (setGng p v s).thm = s.thm ∧ (setGng p v s).trc = s.trc ∧ (setGng p v s).bst = s.bst ∧ (setGng p v s).out = s.out ∧ (setGng p v s).free = s.free ∧ (setGng p v s).pending = s.pending := by
  unfold setGng
  (try dsimp only)
  (repeat' split) <;> (try simp)

@[simp] theorem seen_frame (p : Nat) (s : State) :
    (seen p s).sys = s.sys ∧ (seen p s).pwr = s.pwr ∧ (seen p s).conf = s.conf ∧ (seen p s).ing = s.ing ∧ (seen p s).pix = s.pix ∧ (seen p s).gz = s.gz ∧ (seen p s).lmp = s.lmp ∧ (seen p s).dmk = s.dmk ∧ (seen p s).od = s.od ∧ (seen p s).tmg = s.tmg ∧ (seen p s).pnl = s.pnl ∧ (seen p s).twl = s.twl ∧ (seen p s).cue = s.cue ∧ (seen p s).mem = s.mem ∧ (seen p s).lin = s.lin ∧ (seen p s).cal = s.cal ∧ (seen p s).gng = s.gng ∧ (seen p s).sec = s.sec ∧ (seen p s).flt = s.flt ∧ (seen p s).thm = s.thm ∧ (seen p s).bst = s.bst ∧ (seen p s).pending = s.pending ∧ (seen p s).hif.power = s.hif.power ∧ (seen p s).hif.bme0 = s.hif.bme0 ∧ (seen p s).hif.bme1 = s.hif.bme1 ∧ (seen p s).hif.d3hot = s.hif.d3hot ∧ (seen p s).rings.sqs = s.rings.sqs ∧ (seen p s).rings.cqs = s.rings.cqs ∧ (seen p s).rings.eq0 = s.rings.eq0 ∧ (seen p s).rings.eq1 = s.rings.eq1 := by
  unfold seen
  (try simp)
  (repeat' split) <;> (try simp)

@[simp] theorem sendHello_frame (ports : List Nat) (s : State) :
    (sendHello ports s).sys = s.sys ∧ (sendHello ports s).pwr = s.pwr ∧ (sendHello ports s).hif = s.hif ∧ (sendHello ports s).rings = s.rings ∧ (sendHello ports s).conf = s.conf ∧ (sendHello ports s).ing = s.ing ∧ (sendHello ports s).pix = s.pix ∧ (sendHello ports s).gz = s.gz ∧ (sendHello ports s).lmp = s.lmp ∧ (sendHello ports s).dmk = s.dmk ∧ (sendHello ports s).od = s.od ∧ (sendHello ports s).tmg = s.tmg ∧ (sendHello ports s).pnl = s.pnl ∧ (sendHello ports s).twl = s.twl ∧ (sendHello ports s).cue = s.cue ∧ (sendHello ports s).mem = s.mem ∧ (sendHello ports s).lin = s.lin ∧ (sendHello ports s).cal = s.cal ∧ (sendHello ports s).sec = s.sec ∧ (sendHello ports s).flt = s.flt ∧ (sendHello ports s).thm = s.thm ∧ (sendHello ports s).trc = s.trc ∧ (sendHello ports s).bst = s.bst ∧ (sendHello ports s).free = s.free ∧ (sendHello ports s).pending = s.pending := by
  unfold sendHello
  (repeat' split) <;> (try simp)

@[simp] theorem hearTile_frame (tile p : Nat) (s : State) :
    (hearTile tile p s).sys = s.sys ∧ (hearTile tile p s).pwr = s.pwr ∧ (hearTile tile p s).hif = s.hif ∧ (hearTile tile p s).rings = s.rings ∧ (hearTile tile p s).conf = s.conf ∧ (hearTile tile p s).ing = s.ing ∧ (hearTile tile p s).pix = s.pix ∧ (hearTile tile p s).gz = s.gz ∧ (hearTile tile p s).lmp = s.lmp ∧ (hearTile tile p s).dmk = s.dmk ∧ (hearTile tile p s).od = s.od ∧ (hearTile tile p s).tmg = s.tmg ∧ (hearTile tile p s).pnl = s.pnl ∧ (hearTile tile p s).twl = s.twl ∧ (hearTile tile p s).cue = s.cue ∧ (hearTile tile p s).mem = s.mem ∧ (hearTile tile p s).lin = s.lin ∧ (hearTile tile p s).cal = s.cal ∧ (hearTile tile p s).sec = s.sec ∧ (hearTile tile p s).flt = s.flt ∧ (hearTile tile p s).thm = s.thm ∧ (hearTile tile p s).trc = s.trc ∧ (hearTile tile p s).bst = s.bst ∧ (hearTile tile p s).out = s.out ∧ (hearTile tile p s).free = s.free ∧ (hearTile tile p s).pending = s.pending := by
  unfold hearTile
  (try dsimp only)
  (repeat' split) <;> (try simp)

@[simp] theorem takeWay_frame (w : Nat × HelloMsg) (s : State) :
    (takeWay w s).sys = s.sys ∧ (takeWay w s).pwr = s.pwr ∧ (takeWay w s).hif = s.hif ∧ (takeWay w s).rings = s.rings ∧ (takeWay w s).conf = s.conf ∧ (takeWay w s).ing = s.ing ∧ (takeWay w s).pix = s.pix ∧ (takeWay w s).gz = s.gz ∧ (takeWay w s).lmp = s.lmp ∧ (takeWay w s).dmk = s.dmk ∧ (takeWay w s).od = s.od ∧ (takeWay w s).tmg = s.tmg ∧ (takeWay w s).pnl = s.pnl ∧ (takeWay w s).twl = s.twl ∧ (takeWay w s).cue = s.cue ∧ (takeWay w s).mem = s.mem ∧ (takeWay w s).lin = s.lin ∧ (takeWay w s).cal = s.cal ∧ (takeWay w s).sec = s.sec ∧ (takeWay w s).flt = s.flt ∧ (takeWay w s).thm = s.thm ∧ (takeWay w s).trc = s.trc ∧ (takeWay w s).bst = s.bst ∧ (takeWay w s).out = s.out ∧ (takeWay w s).free = s.free ∧ (takeWay w s).pending = s.pending := by
  unfold takeWay
  (try dsimp only)
  (repeat' split) <;> (try simp)

@[simp] theorem ownTk_frame (role : Role) (s : State) :
    (ownTk role s).sys = s.sys ∧ (ownTk role s).pwr = s.pwr ∧ (ownTk role s).hif = s.hif ∧ (ownTk role s).rings = s.rings ∧ (ownTk role s).conf = s.conf ∧ (ownTk role s).ing = s.ing ∧ (ownTk role s).pix = s.pix ∧ (ownTk role s).gz = s.gz ∧ (ownTk role s).lmp = s.lmp ∧ (ownTk role s).dmk = s.dmk ∧ (ownTk role s).od = s.od ∧ (ownTk role s).tmg = s.tmg ∧ (ownTk role s).pnl = s.pnl ∧ (ownTk role s).twl = s.twl ∧ (ownTk role s).cue = s.cue ∧ (ownTk role s).mem = s.mem ∧ (ownTk role s).lin = s.lin ∧ (ownTk role s).cal = s.cal ∧ (ownTk role s).sec = s.sec ∧ (ownTk role s).flt = s.flt ∧ (ownTk role s).thm = s.thm ∧ (ownTk role s).trc = s.trc ∧ (ownTk role s).bst = s.bst ∧ (ownTk role s).out = s.out ∧ (ownTk role s).free = s.free ∧ (ownTk role s).pending = s.pending := by
  unfold ownTk
  (try dsimp only)
  (repeat' split) <;> (try simp)

@[simp] theorem loseTk_frame (s : State) :
    (loseTk s).sys = s.sys ∧ (loseTk s).pwr = s.pwr ∧ (loseTk s).hif = s.hif ∧ (loseTk s).rings = s.rings ∧ (loseTk s).conf = s.conf ∧ (loseTk s).ing = s.ing ∧ (loseTk s).pix = s.pix ∧ (loseTk s).gz = s.gz ∧ (loseTk s).lmp = s.lmp ∧ (loseTk s).dmk = s.dmk ∧ (loseTk s).od = s.od ∧ (loseTk s).tmg = s.tmg ∧ (loseTk s).pnl = s.pnl ∧ (loseTk s).twl = s.twl ∧ (loseTk s).cue = s.cue ∧ (loseTk s).mem = s.mem ∧ (loseTk s).lin = s.lin ∧ (loseTk s).cal = s.cal ∧ (loseTk s).sec = s.sec ∧ (loseTk s).flt = s.flt ∧ (loseTk s).thm = s.thm ∧ (loseTk s).trc = s.trc ∧ (loseTk s).bst = s.bst ∧ (loseTk s).out = s.out ∧ (loseTk s).free = s.free ∧ (loseTk s).pending = s.pending := by
  unfold loseTk
  (try dsimp only)
  (repeat' split) <;> (try simp)

@[simp] theorem postIsland_frame (s : State) :
    (postIsland s).sys = s.sys ∧ (postIsland s).pwr = s.pwr ∧ (postIsland s).conf = s.conf ∧ (postIsland s).ing = s.ing ∧ (postIsland s).pix = s.pix ∧ (postIsland s).gz = s.gz ∧ (postIsland s).lmp = s.lmp ∧ (postIsland s).dmk = s.dmk ∧ (postIsland s).od = s.od ∧ (postIsland s).tmg = s.tmg ∧ (postIsland s).pnl = s.pnl ∧ (postIsland s).twl = s.twl ∧ (postIsland s).cue = s.cue ∧ (postIsland s).mem = s.mem ∧ (postIsland s).lin = s.lin ∧ (postIsland s).cal = s.cal ∧ (postIsland s).sec = s.sec ∧ (postIsland s).flt = s.flt ∧ (postIsland s).thm = s.thm ∧ (postIsland s).trc = s.trc ∧ (postIsland s).bst = s.bst ∧ (postIsland s).free = s.free ∧ (postIsland s).pending = s.pending ∧ (postIsland s).hif.power = s.hif.power ∧ (postIsland s).hif.bme0 = s.hif.bme0 ∧ (postIsland s).hif.bme1 = s.hif.bme1 ∧ (postIsland s).hif.d3hot = s.hif.d3hot ∧ (postIsland s).rings.sqs = s.rings.sqs := by
  unfold postIsland
  (try simp)
  (repeat' split) <;> (try simp)

@[simp] theorem reroute_frame (s : State) :
    (reroute s).sys = s.sys ∧ (reroute s).pwr = s.pwr ∧ (reroute s).hif = s.hif ∧ (reroute s).rings = s.rings ∧ (reroute s).conf = s.conf ∧ (reroute s).ing = s.ing ∧ (reroute s).pix = s.pix ∧ (reroute s).gz = s.gz ∧ (reroute s).lmp = s.lmp ∧ (reroute s).dmk = s.dmk ∧ (reroute s).od = s.od ∧ (reroute s).tmg = s.tmg ∧ (reroute s).pnl = s.pnl ∧ (reroute s).twl = s.twl ∧ (reroute s).cue = s.cue ∧ (reroute s).mem = s.mem ∧ (reroute s).lin = s.lin ∧ (reroute s).cal = s.cal ∧ (reroute s).sec = s.sec ∧ (reroute s).flt = s.flt ∧ (reroute s).thm = s.thm ∧ (reroute s).trc = s.trc ∧ (reroute s).bst = s.bst ∧ (reroute s).out = s.out ∧ (reroute s).free = s.free ∧ (reroute s).pending = s.pending := by
  unfold reroute
  (try simp)
  (repeat' split) <;> (try simp)

@[simp] theorem electFrom_frame (p : Nat) (m : HelloMsg) (s : State) :
    (electFrom p m s).sys = s.sys ∧ (electFrom p m s).pwr = s.pwr ∧ (electFrom p m s).hif = s.hif ∧ (electFrom p m s).rings = s.rings ∧ (electFrom p m s).conf = s.conf ∧ (electFrom p m s).ing = s.ing ∧ (electFrom p m s).pix = s.pix ∧ (electFrom p m s).gz = s.gz ∧ (electFrom p m s).lmp = s.lmp ∧ (electFrom p m s).dmk = s.dmk ∧ (electFrom p m s).od = s.od ∧ (electFrom p m s).tmg = s.tmg ∧ (electFrom p m s).pnl = s.pnl ∧ (electFrom p m s).twl = s.twl ∧ (electFrom p m s).cue = s.cue ∧ (electFrom p m s).mem = s.mem ∧ (electFrom p m s).lin = s.lin ∧ (electFrom p m s).cal = s.cal ∧ (electFrom p m s).sec = s.sec ∧ (electFrom p m s).flt = s.flt ∧ (electFrom p m s).thm = s.thm ∧ (electFrom p m s).trc = s.trc ∧ (electFrom p m s).bst = s.bst ∧ (electFrom p m s).out = s.out ∧ (electFrom p m s).free = s.free ∧ (electFrom p m s).pending = s.pending := by
  unfold electFrom
  (try dsimp only)
  (repeat' split) <;> (try simp)

@[simp] theorem heardTk_frame (p : Nat) (before : Option Nat) (m : HelloMsg) (s : State) :
    (heardTk p before m s).sys = s.sys ∧ (heardTk p before m s).pwr = s.pwr ∧ (heardTk p before m s).hif = s.hif ∧ (heardTk p before m s).rings = s.rings ∧ (heardTk p before m s).conf = s.conf ∧ (heardTk p before m s).ing = s.ing ∧ (heardTk p before m s).pix = s.pix ∧ (heardTk p before m s).gz = s.gz ∧ (heardTk p before m s).lmp = s.lmp ∧ (heardTk p before m s).dmk = s.dmk ∧ (heardTk p before m s).od = s.od ∧ (heardTk p before m s).tmg = s.tmg ∧ (heardTk p before m s).pnl = s.pnl ∧ (heardTk p before m s).twl = s.twl ∧ (heardTk p before m s).cue = s.cue ∧ (heardTk p before m s).mem = s.mem ∧ (heardTk p before m s).lin = s.lin ∧ (heardTk p before m s).cal = s.cal ∧ (heardTk p before m s).sec = s.sec ∧ (heardTk p before m s).flt = s.flt ∧ (heardTk p before m s).thm = s.thm ∧ (heardTk p before m s).trc = s.trc ∧ (heardTk p before m s).bst = s.bst ∧ (heardTk p before m s).out = s.out ∧ (heardTk p before m s).free = s.free ∧ (heardTk p before m s).pending = s.pending := by
  unfold heardTk
  (try dsimp only)
  (repeat' split) <;> (try simp)

@[simp] theorem joinPart_frame (w : Nat × HelloMsg) (s : State) :
    (joinPart w s).sys = s.sys ∧ (joinPart w s).pwr = s.pwr ∧ (joinPart w s).hif = s.hif ∧ (joinPart w s).rings = s.rings ∧ (joinPart w s).conf = s.conf ∧ (joinPart w s).ing = s.ing ∧ (joinPart w s).pix = s.pix ∧ (joinPart w s).gz = s.gz ∧ (joinPart w s).lmp = s.lmp ∧ (joinPart w s).dmk = s.dmk ∧ (joinPart w s).od = s.od ∧ (joinPart w s).tmg = s.tmg ∧ (joinPart w s).pnl = s.pnl ∧ (joinPart w s).twl = s.twl ∧ (joinPart w s).cue = s.cue ∧ (joinPart w s).mem = s.mem ∧ (joinPart w s).lin = s.lin ∧ (joinPart w s).cal = s.cal ∧ (joinPart w s).sec = s.sec ∧ (joinPart w s).flt = s.flt ∧ (joinPart w s).thm = s.thm ∧ (joinPart w s).trc = s.trc ∧ (joinPart w s).bst = s.bst ∧ (joinPart w s).out = s.out ∧ (joinPart w s).free = s.free ∧ (joinPart w s).pending = s.pending := by
  unfold joinPart
  (try dsimp only)
  (repeat' split) <;> (try simp)

@[simp] theorem wayLost_frame (p : Nat) (s : State) :
    (wayLost p s).sys = s.sys ∧ (wayLost p s).pwr = s.pwr ∧ (wayLost p s).hif = s.hif ∧ (wayLost p s).rings = s.rings ∧ (wayLost p s).conf = s.conf ∧ (wayLost p s).ing = s.ing ∧ (wayLost p s).pix = s.pix ∧ (wayLost p s).gz = s.gz ∧ (wayLost p s).lmp = s.lmp ∧ (wayLost p s).dmk = s.dmk ∧ (wayLost p s).od = s.od ∧ (wayLost p s).tmg = s.tmg ∧ (wayLost p s).pnl = s.pnl ∧ (wayLost p s).twl = s.twl ∧ (wayLost p s).cue = s.cue ∧ (wayLost p s).mem = s.mem ∧ (wayLost p s).lin = s.lin ∧ (wayLost p s).cal = s.cal ∧ (wayLost p s).sec = s.sec ∧ (wayLost p s).flt = s.flt ∧ (wayLost p s).thm = s.thm ∧ (wayLost p s).trc = s.trc ∧ (wayLost p s).bst = s.bst ∧ (wayLost p s).out = s.out ∧ (wayLost p s).free = s.free ∧ (wayLost p s).pending = s.pending := by
  unfold wayLost
  (try dsimp only)
  (repeat' split) <;> (try simp (disch := (intros; (repeat' split) <;> (try simp))))

@[simp] theorem upPortLost_frame (p : Nat) (s : State) :
    (upPortLost p s).sys = s.sys ∧ (upPortLost p s).pwr = s.pwr ∧ (upPortLost p s).conf = s.conf ∧ (upPortLost p s).ing = s.ing ∧ (upPortLost p s).pix = s.pix ∧ (upPortLost p s).gz = s.gz ∧ (upPortLost p s).lmp = s.lmp ∧ (upPortLost p s).dmk = s.dmk ∧ (upPortLost p s).od = s.od ∧ (upPortLost p s).tmg = s.tmg ∧ (upPortLost p s).pnl = s.pnl ∧ (upPortLost p s).twl = s.twl ∧ (upPortLost p s).cue = s.cue ∧ (upPortLost p s).mem = s.mem ∧ (upPortLost p s).lin = s.lin ∧ (upPortLost p s).sec = s.sec ∧ (upPortLost p s).flt = s.flt ∧ (upPortLost p s).thm = s.thm ∧ (upPortLost p s).bst = s.bst ∧ (upPortLost p s).pending = s.pending ∧ (upPortLost p s).hif.power = s.hif.power := by
  unfold upPortLost
  (try dsimp only)
  (repeat' split) <;> (try simp)

@[simp] theorem enablePorts_frame (s : State) :
    (enablePorts s).sys = s.sys ∧ (enablePorts s).pwr = s.pwr ∧ (enablePorts s).conf = s.conf ∧ (enablePorts s).ing = s.ing ∧ (enablePorts s).pix = s.pix ∧ (enablePorts s).gz = s.gz ∧ (enablePorts s).lmp = s.lmp ∧ (enablePorts s).dmk = s.dmk ∧ (enablePorts s).od = s.od ∧ (enablePorts s).tmg = s.tmg ∧ (enablePorts s).pnl = s.pnl ∧ (enablePorts s).twl = s.twl ∧ (enablePorts s).cue = s.cue ∧ (enablePorts s).mem = s.mem ∧ (enablePorts s).lin = s.lin ∧ (enablePorts s).sec = s.sec ∧ (enablePorts s).flt = s.flt ∧ (enablePorts s).thm = s.thm ∧ (enablePorts s).bst = s.bst ∧ (enablePorts s).pending = s.pending ∧ (enablePorts s).hif.power = s.hif.power := by
  unfold enablePorts
  (try dsimp only)
  (repeat' split) <;> (try simp (disch := (intros; (repeat' split) <;> (try simp))))

@[simp] theorem checkHalo_frame (p : Nat) (sig : Nat) (s : State) :
    (checkHalo p sig s).sys = s.sys ∧ (checkHalo p sig s).pwr = s.pwr ∧ (checkHalo p sig s).conf = s.conf ∧ (checkHalo p sig s).ing = s.ing ∧ (checkHalo p sig s).pix = s.pix ∧ (checkHalo p sig s).gz = s.gz ∧ (checkHalo p sig s).lmp = s.lmp ∧ (checkHalo p sig s).dmk = s.dmk ∧ (checkHalo p sig s).od = s.od ∧ (checkHalo p sig s).tmg = s.tmg ∧ (checkHalo p sig s).pnl = s.pnl ∧ (checkHalo p sig s).twl = s.twl ∧ (checkHalo p sig s).cue = s.cue ∧ (checkHalo p sig s).mem = s.mem ∧ (checkHalo p sig s).lin = s.lin ∧ (checkHalo p sig s).cal = s.cal ∧ (checkHalo p sig s).sec = s.sec ∧ (checkHalo p sig s).flt = s.flt ∧ (checkHalo p sig s).thm = s.thm ∧ (checkHalo p sig s).trc = s.trc ∧ (checkHalo p sig s).bst = s.bst ∧ (checkHalo p sig s).free = s.free ∧ (checkHalo p sig s).pending = s.pending ∧ (checkHalo p sig s).hif.power = s.hif.power ∧ (checkHalo p sig s).hif.bme0 = s.hif.bme0 ∧ (checkHalo p sig s).hif.bme1 = s.hif.bme1 ∧ (checkHalo p sig s).hif.d3hot = s.hif.d3hot ∧ (checkHalo p sig s).rings.sqs = s.rings.sqs := by
  unfold checkHalo
  (try simp)
  (repeat' split) <;> (try simp)

@[simp] theorem checkHalos_frame (s : State) :
    (checkHalos s).sys = s.sys ∧ (checkHalos s).pwr = s.pwr ∧ (checkHalos s).conf = s.conf ∧ (checkHalos s).ing = s.ing ∧ (checkHalos s).pix = s.pix ∧ (checkHalos s).gz = s.gz ∧ (checkHalos s).lmp = s.lmp ∧ (checkHalos s).dmk = s.dmk ∧ (checkHalos s).od = s.od ∧ (checkHalos s).tmg = s.tmg ∧ (checkHalos s).pnl = s.pnl ∧ (checkHalos s).twl = s.twl ∧ (checkHalos s).cue = s.cue ∧ (checkHalos s).mem = s.mem ∧ (checkHalos s).lin = s.lin ∧ (checkHalos s).cal = s.cal ∧ (checkHalos s).sec = s.sec ∧ (checkHalos s).flt = s.flt ∧ (checkHalos s).thm = s.thm ∧ (checkHalos s).trc = s.trc ∧ (checkHalos s).bst = s.bst ∧ (checkHalos s).free = s.free ∧ (checkHalos s).pending = s.pending ∧ (checkHalos s).hif.power = s.hif.power ∧ (checkHalos s).hif.d3hot = s.hif.d3hot ∧ (checkHalos s).rings.sqs = s.rings.sqs := by
  unfold checkHalos
  (repeat' split) <;> (try simp (disch := (intros; (repeat' split) <;> (try simp))))

@[simp] theorem askMeas_frame (p : Nat) (s : State) :
    (askMeas p s).sys = s.sys ∧ (askMeas p s).pwr = s.pwr ∧ (askMeas p s).hif = s.hif ∧ (askMeas p s).rings = s.rings ∧ (askMeas p s).conf = s.conf ∧ (askMeas p s).ing = s.ing ∧ (askMeas p s).pix = s.pix ∧ (askMeas p s).gz = s.gz ∧ (askMeas p s).lmp = s.lmp ∧ (askMeas p s).dmk = s.dmk ∧ (askMeas p s).od = s.od ∧ (askMeas p s).tmg = s.tmg ∧ (askMeas p s).pnl = s.pnl ∧ (askMeas p s).twl = s.twl ∧ (askMeas p s).cue = s.cue ∧ (askMeas p s).mem = s.mem ∧ (askMeas p s).lin = s.lin ∧ (askMeas p s).cal = s.cal ∧ (askMeas p s).sec = s.sec ∧ (askMeas p s).flt = s.flt ∧ (askMeas p s).thm = s.thm ∧ (askMeas p s).trc = s.trc ∧ (askMeas p s).bst = s.bst ∧ (askMeas p s).pending = s.pending := by
  unfold askMeas
  (try dsimp only)
  (repeat' split) <;> (try simp)

@[simp] theorem portUp_frame (p src : Nat) (s : State) :
    (portUp p src s).sys = s.sys ∧ (portUp p src s).pwr = s.pwr ∧ (portUp p src s).conf = s.conf ∧ (portUp p src s).ing = s.ing ∧ (portUp p src s).pix = s.pix ∧ (portUp p src s).gz = s.gz ∧ (portUp p src s).lmp = s.lmp ∧ (portUp p src s).dmk = s.dmk ∧ (portUp p src s).od = s.od ∧ (portUp p src s).tmg = s.tmg ∧ (portUp p src s).pnl = s.pnl ∧ (portUp p src s).twl = s.twl ∧ (portUp p src s).cue = s.cue ∧ (portUp p src s).mem = s.mem ∧ (portUp p src s).lin = s.lin ∧ (portUp p src s).sec = s.sec ∧ (portUp p src s).flt = s.flt ∧ (portUp p src s).thm = s.thm ∧ (portUp p src s).bst = s.bst ∧ (portUp p src s).pending = s.pending ∧ (portUp p src s).hif.power = s.hif.power ∧ (portUp p src s).hif.d3hot = s.hif.d3hot := by
  unfold portUp
  (try dsimp only)
  (repeat' split) <;> (try simp)

@[simp] theorem wakeNeighbour_frame (p : Nat) (runs : Bool) (m : HelloMsg) (s : State) :
    (wakeNeighbour p runs m s).sys = s.sys ∧ (wakeNeighbour p runs m s).pwr = s.pwr ∧ (wakeNeighbour p runs m s).hif = s.hif ∧ (wakeNeighbour p runs m s).rings = s.rings ∧ (wakeNeighbour p runs m s).conf = s.conf ∧ (wakeNeighbour p runs m s).ing = s.ing ∧ (wakeNeighbour p runs m s).pix = s.pix ∧ (wakeNeighbour p runs m s).gz = s.gz ∧ (wakeNeighbour p runs m s).lmp = s.lmp ∧ (wakeNeighbour p runs m s).dmk = s.dmk ∧ (wakeNeighbour p runs m s).od = s.od ∧ (wakeNeighbour p runs m s).tmg = s.tmg ∧ (wakeNeighbour p runs m s).pnl = s.pnl ∧ (wakeNeighbour p runs m s).twl = s.twl ∧ (wakeNeighbour p runs m s).cue = s.cue ∧ (wakeNeighbour p runs m s).mem = s.mem ∧ (wakeNeighbour p runs m s).lin = s.lin ∧ (wakeNeighbour p runs m s).cal = s.cal ∧ (wakeNeighbour p runs m s).sec = s.sec ∧ (wakeNeighbour p runs m s).flt = s.flt ∧ (wakeNeighbour p runs m s).thm = s.thm ∧ (wakeNeighbour p runs m s).trc = s.trc ∧ (wakeNeighbour p runs m s).bst = s.bst ∧ (wakeNeighbour p runs m s).free = s.free ∧ (wakeNeighbour p runs m s).pending = s.pending := by
  unfold wakeNeighbour
  (repeat' split) <;> (try simp)

@[simp] theorem portDown_frame (p : Nat) (s : State) :
    (portDown p s).sys = s.sys ∧ (portDown p s).pwr = s.pwr ∧ (portDown p s).conf = s.conf ∧ (portDown p s).ing = s.ing ∧ (portDown p s).pix = s.pix ∧ (portDown p s).gz = s.gz ∧ (portDown p s).lmp = s.lmp ∧ (portDown p s).dmk = s.dmk ∧ (portDown p s).od = s.od ∧ (portDown p s).tmg = s.tmg ∧ (portDown p s).pnl = s.pnl ∧ (portDown p s).twl = s.twl ∧ (portDown p s).cue = s.cue ∧ (portDown p s).mem = s.mem ∧ (portDown p s).lin = s.lin ∧ (portDown p s).sec = s.sec ∧ (portDown p s).flt = s.flt ∧ (portDown p s).thm = s.thm ∧ (portDown p s).bst = s.bst ∧ (portDown p s).pending = s.pending ∧ (portDown p s).hif.power = s.hif.power := by
  unfold portDown
  (try simp)
  (repeat' split) <;> (try simp)

@[simp] theorem startTicks_frame (waits : Bool) (s : State) :
    (startTicks waits s).sys = s.sys ∧ (startTicks waits s).pwr = s.pwr ∧ (startTicks waits s).hif = s.hif ∧ (startTicks waits s).rings = s.rings ∧ (startTicks waits s).conf = s.conf ∧ (startTicks waits s).ing = s.ing ∧ (startTicks waits s).pix = s.pix ∧ (startTicks waits s).gz = s.gz ∧ (startTicks waits s).lmp = s.lmp ∧ (startTicks waits s).dmk = s.dmk ∧ (startTicks waits s).od = s.od ∧ (startTicks waits s).pnl = s.pnl ∧ (startTicks waits s).twl = s.twl ∧ (startTicks waits s).cue = s.cue ∧ (startTicks waits s).mem = s.mem ∧ (startTicks waits s).lin = s.lin ∧ (startTicks waits s).cal = s.cal ∧ (startTicks waits s).gng = s.gng ∧ (startTicks waits s).sec = s.sec ∧ (startTicks waits s).flt = s.flt ∧ (startTicks waits s).thm = s.thm ∧ (startTicks waits s).trc = s.trc ∧ (startTicks waits s).bst = s.bst ∧ (startTicks waits s).out = s.out ∧ (startTicks waits s).free = s.free ∧ (startTicks waits s).pending = s.pending := by
  unfold startTicks
  (try dsimp only)
  (repeat' split) <;> (try simp)

@[simp] theorem settleRole_frame (old : Conf) (s : State) :
    (settleRole old s).sys = s.sys ∧ (settleRole old s).pwr = s.pwr ∧ (settleRole old s).conf = s.conf ∧ (settleRole old s).ing = s.ing ∧ (settleRole old s).pix = s.pix ∧ (settleRole old s).gz = s.gz ∧ (settleRole old s).lmp = s.lmp ∧ (settleRole old s).dmk = s.dmk ∧ (settleRole old s).od = s.od ∧ (settleRole old s).tmg = s.tmg ∧ (settleRole old s).pnl = s.pnl ∧ (settleRole old s).twl = s.twl ∧ (settleRole old s).cue = s.cue ∧ (settleRole old s).mem = s.mem ∧ (settleRole old s).lin = s.lin ∧ (settleRole old s).cal = s.cal ∧ (settleRole old s).sec = s.sec ∧ (settleRole old s).flt = s.flt ∧ (settleRole old s).thm = s.thm ∧ (settleRole old s).trc = s.trc ∧ (settleRole old s).bst = s.bst ∧ (settleRole old s).free = s.free ∧ (settleRole old s).pending = s.pending ∧ (settleRole old s).hif.power = s.hif.power ∧ (settleRole old s).hif.bme0 = s.hif.bme0 ∧ (settleRole old s).hif.bme1 = s.hif.bme1 ∧ (settleRole old s).hif.d3hot = s.hif.d3hot ∧ (settleRole old s).rings.sqs = s.rings.sqs := by
  unfold settleRole
  (try simp)
  (repeat' split) <;> (try simp)

@[simp] theorem sendTicks_frame (ports : List Nat) (s : State) :
    (sendTicks ports s).sys = s.sys ∧ (sendTicks ports s).pwr = s.pwr ∧ (sendTicks ports s).hif = s.hif ∧ (sendTicks ports s).rings = s.rings ∧ (sendTicks ports s).conf = s.conf ∧ (sendTicks ports s).ing = s.ing ∧ (sendTicks ports s).pix = s.pix ∧ (sendTicks ports s).gz = s.gz ∧ (sendTicks ports s).lmp = s.lmp ∧ (sendTicks ports s).dmk = s.dmk ∧ (sendTicks ports s).od = s.od ∧ (sendTicks ports s).tmg = s.tmg ∧ (sendTicks ports s).pnl = s.pnl ∧ (sendTicks ports s).twl = s.twl ∧ (sendTicks ports s).cue = s.cue ∧ (sendTicks ports s).mem = s.mem ∧ (sendTicks ports s).lin = s.lin ∧ (sendTicks ports s).cal = s.cal ∧ (sendTicks ports s).gng = s.gng ∧ (sendTicks ports s).sec = s.sec ∧ (sendTicks ports s).flt = s.flt ∧ (sendTicks ports s).thm = s.thm ∧ (sendTicks ports s).trc = s.trc ∧ (sendTicks ports s).bst = s.bst ∧ (sendTicks ports s).free = s.free ∧ (sendTicks ports s).pending = s.pending := by
  unfold sendTicks
  (repeat' split) <;> (try simp)

@[simp] theorem tickOwn_frame (s : State) :
    (tickOwn s).sys = s.sys ∧ (tickOwn s).pwr = s.pwr ∧ (tickOwn s).hif = s.hif ∧ (tickOwn s).rings = s.rings ∧ (tickOwn s).conf = s.conf ∧ (tickOwn s).ing = s.ing ∧ (tickOwn s).pix = s.pix ∧ (tickOwn s).gz = s.gz ∧ (tickOwn s).lmp = s.lmp ∧ (tickOwn s).dmk = s.dmk ∧ (tickOwn s).od = s.od ∧ (tickOwn s).tmg = s.tmg ∧ (tickOwn s).pnl = s.pnl ∧ (tickOwn s).twl = s.twl ∧ (tickOwn s).cue = s.cue ∧ (tickOwn s).mem = s.mem ∧ (tickOwn s).lin = s.lin ∧ (tickOwn s).cal = s.cal ∧ (tickOwn s).gng = s.gng ∧ (tickOwn s).sec = s.sec ∧ (tickOwn s).flt = s.flt ∧ (tickOwn s).thm = s.thm ∧ (tickOwn s).trc = s.trc ∧ (tickOwn s).bst = s.bst ∧ (tickOwn s).free = s.free ∧ (tickOwn s).pending = s.pending := by
  unfold tickOwn
  (repeat' split) <;> (try simp)

@[simp] theorem flooded_keeps_sys (port type src seqNo : Nat) (payload : Bytes) (act : State → State) (s : State) (h : ∀ s, (act s).sys = s.sys) : (flooded port type src seqNo payload act s).sys = s.sys := by
  unfold flooded; dsimp only; (repeat' split) <;> simp [h]

@[simp] theorem flooded_keeps_pwr (port type src seqNo : Nat) (payload : Bytes) (act : State → State) (s : State) (h : ∀ s, (act s).pwr = s.pwr) : (flooded port type src seqNo payload act s).pwr = s.pwr := by
  unfold flooded; dsimp only; (repeat' split) <;> simp [h]

@[simp] theorem flooded_keeps_hif (port type src seqNo : Nat) (payload : Bytes) (act : State → State) (s : State) (h : ∀ s, (act s).hif = s.hif) : (flooded port type src seqNo payload act s).hif = s.hif := by
  unfold flooded; dsimp only; (repeat' split) <;> simp [h]

@[simp] theorem flooded_keeps_rings (port type src seqNo : Nat) (payload : Bytes) (act : State → State) (s : State) (h : ∀ s, (act s).rings = s.rings) : (flooded port type src seqNo payload act s).rings = s.rings := by
  unfold flooded; dsimp only; (repeat' split) <;> simp [h]

@[simp] theorem flooded_keeps_conf (port type src seqNo : Nat) (payload : Bytes) (act : State → State) (s : State) (h : ∀ s, (act s).conf = s.conf) : (flooded port type src seqNo payload act s).conf = s.conf := by
  unfold flooded; dsimp only; (repeat' split) <;> simp [h]

@[simp] theorem flooded_keeps_ing (port type src seqNo : Nat) (payload : Bytes) (act : State → State) (s : State) (h : ∀ s, (act s).ing = s.ing) : (flooded port type src seqNo payload act s).ing = s.ing := by
  unfold flooded; dsimp only; (repeat' split) <;> simp [h]

@[simp] theorem flooded_keeps_pix (port type src seqNo : Nat) (payload : Bytes) (act : State → State) (s : State) (h : ∀ s, (act s).pix = s.pix) : (flooded port type src seqNo payload act s).pix = s.pix := by
  unfold flooded; dsimp only; (repeat' split) <;> simp [h]

@[simp] theorem flooded_keeps_gz (port type src seqNo : Nat) (payload : Bytes) (act : State → State) (s : State) (h : ∀ s, (act s).gz = s.gz) : (flooded port type src seqNo payload act s).gz = s.gz := by
  unfold flooded; dsimp only; (repeat' split) <;> simp [h]

@[simp] theorem flooded_keeps_lmp (port type src seqNo : Nat) (payload : Bytes) (act : State → State) (s : State) (h : ∀ s, (act s).lmp = s.lmp) : (flooded port type src seqNo payload act s).lmp = s.lmp := by
  unfold flooded; dsimp only; (repeat' split) <;> simp [h]

@[simp] theorem flooded_keeps_dmk (port type src seqNo : Nat) (payload : Bytes) (act : State → State) (s : State) (h : ∀ s, (act s).dmk = s.dmk) : (flooded port type src seqNo payload act s).dmk = s.dmk := by
  unfold flooded; dsimp only; (repeat' split) <;> simp [h]

@[simp] theorem flooded_keeps_od (port type src seqNo : Nat) (payload : Bytes) (act : State → State) (s : State) (h : ∀ s, (act s).od = s.od) : (flooded port type src seqNo payload act s).od = s.od := by
  unfold flooded; dsimp only; (repeat' split) <;> simp [h]

@[simp] theorem flooded_keeps_tmg (port type src seqNo : Nat) (payload : Bytes) (act : State → State) (s : State) (h : ∀ s, (act s).tmg = s.tmg) : (flooded port type src seqNo payload act s).tmg = s.tmg := by
  unfold flooded; dsimp only; (repeat' split) <;> simp [h]

@[simp] theorem flooded_keeps_pnl (port type src seqNo : Nat) (payload : Bytes) (act : State → State) (s : State) (h : ∀ s, (act s).pnl = s.pnl) : (flooded port type src seqNo payload act s).pnl = s.pnl := by
  unfold flooded; dsimp only; (repeat' split) <;> simp [h]

@[simp] theorem flooded_keeps_twl (port type src seqNo : Nat) (payload : Bytes) (act : State → State) (s : State) (h : ∀ s, (act s).twl = s.twl) : (flooded port type src seqNo payload act s).twl = s.twl := by
  unfold flooded; dsimp only; (repeat' split) <;> simp [h]

@[simp] theorem flooded_keeps_cue (port type src seqNo : Nat) (payload : Bytes) (act : State → State) (s : State) (h : ∀ s, (act s).cue = s.cue) : (flooded port type src seqNo payload act s).cue = s.cue := by
  unfold flooded; dsimp only; (repeat' split) <;> simp [h]

@[simp] theorem flooded_keeps_mem (port type src seqNo : Nat) (payload : Bytes) (act : State → State) (s : State) (h : ∀ s, (act s).mem = s.mem) : (flooded port type src seqNo payload act s).mem = s.mem := by
  unfold flooded; dsimp only; (repeat' split) <;> simp [h]

@[simp] theorem flooded_keeps_lin (port type src seqNo : Nat) (payload : Bytes) (act : State → State) (s : State) (h : ∀ s, (act s).lin = s.lin) : (flooded port type src seqNo payload act s).lin = s.lin := by
  unfold flooded; dsimp only; (repeat' split) <;> simp [h]

@[simp] theorem flooded_keeps_cal (port type src seqNo : Nat) (payload : Bytes) (act : State → State) (s : State) (h : ∀ s, (act s).cal = s.cal) : (flooded port type src seqNo payload act s).cal = s.cal := by
  unfold flooded; dsimp only; (repeat' split) <;> simp [h]

@[simp] theorem flooded_keeps_sec (port type src seqNo : Nat) (payload : Bytes) (act : State → State) (s : State) (h : ∀ s, (act s).sec = s.sec) : (flooded port type src seqNo payload act s).sec = s.sec := by
  unfold flooded; dsimp only; (repeat' split) <;> simp [h]

@[simp] theorem flooded_keeps_flt (port type src seqNo : Nat) (payload : Bytes) (act : State → State) (s : State) (h : ∀ s, (act s).flt = s.flt) : (flooded port type src seqNo payload act s).flt = s.flt := by
  unfold flooded; dsimp only; (repeat' split) <;> simp [h]

@[simp] theorem flooded_keeps_thm (port type src seqNo : Nat) (payload : Bytes) (act : State → State) (s : State) (h : ∀ s, (act s).thm = s.thm) : (flooded port type src seqNo payload act s).thm = s.thm := by
  unfold flooded; dsimp only; (repeat' split) <;> simp [h]

@[simp] theorem flooded_keeps_trc (port type src seqNo : Nat) (payload : Bytes) (act : State → State) (s : State) (h : ∀ s, (act s).trc = s.trc) : (flooded port type src seqNo payload act s).trc = s.trc := by
  unfold flooded; dsimp only; (repeat' split) <;> simp [h]

@[simp] theorem flooded_keeps_bst (port type src seqNo : Nat) (payload : Bytes) (act : State → State) (s : State) (h : ∀ s, (act s).bst = s.bst) : (flooded port type src seqNo payload act s).bst = s.bst := by
  unfold flooded; dsimp only; (repeat' split) <;> simp [h]

@[simp] theorem flooded_keeps_free (port type src seqNo : Nat) (payload : Bytes) (act : State → State) (s : State) (h : ∀ s, (act s).free = s.free) : (flooded port type src seqNo payload act s).free = s.free := by
  unfold flooded; dsimp only; (repeat' split) <;> simp [h]

@[simp] theorem flooded_keeps_pending (port type src seqNo : Nat) (payload : Bytes) (act : State → State) (s : State) (h : ∀ s, (act s).pending = s.pending) : (flooded port type src seqNo payload act s).pending = s.pending := by
  unfold flooded; dsimp only; (repeat' split) <;> simp [h]

@[simp] theorem flooded_keeps_sys_mode (port type src seqNo : Nat) (payload : Bytes) (act : State → State) (s : State) (h : ∀ s, (act s).sys.mode = s.sys.mode) : (flooded port type src seqNo payload act s).sys.mode = s.sys.mode := by
  unfold flooded; dsimp only; (repeat' split) <;> simp [h]

@[simp] theorem flooded_keeps_sys_fe (port type src seqNo : Nat) (payload : Bytes) (act : State → State) (s : State) (h : ∀ s, (act s).sys.fe = s.sys.fe) : (flooded port type src seqNo payload act s).sys.fe = s.sys.fe := by
  unfold flooded; dsimp only; (repeat' split) <;> simp [h]

@[simp] theorem flooded_keeps_sys_transit (port type src seqNo : Nat) (payload : Bytes) (act : State → State) (s : State) (h : ∀ s, (act s).sys.transit = s.sys.transit) : (flooded port type src seqNo payload act s).sys.transit = s.sys.transit := by
  unfold flooded; dsimp only; (repeat' split) <;> simp [h]

@[simp] theorem flooded_keeps_sys_lock (port type src seqNo : Nat) (payload : Bytes) (act : State → State) (s : State) (h : ∀ s, (act s).sys.lock = s.sys.lock) : (flooded port type src seqNo payload act s).sys.lock = s.sys.lock := by
  unfold flooded; dsimp only; (repeat' split) <;> simp [h]

@[simp] theorem flooded_keeps_sys_serving (port type src seqNo : Nat) (payload : Bytes) (act : State → State) (s : State) (h : ∀ s, (act s).sys.serving = s.sys.serving) : (flooded port type src seqNo payload act s).sys.serving = s.sys.serving := by
  unfold flooded; dsimp only; (repeat' split) <;> simp [h]

@[simp] theorem flooded_keeps_sys_stage (port type src seqNo : Nat) (payload : Bytes) (act : State → State) (s : State) (h : ∀ s, (act s).sys.stage = s.sys.stage) : (flooded port type src seqNo payload act s).sys.stage = s.sys.stage := by
  unfold flooded; dsimp only; (repeat' split) <;> simp [h]

@[simp] theorem flooded_keeps_conf_regs (port type src seqNo : Nat) (payload : Bytes) (act : State → State) (s : State) (h : ∀ s, (act s).conf.regs = s.conf.regs) : (flooded port type src seqNo payload act s).conf.regs = s.conf.regs := by
  unfold flooded; dsimp only; (repeat' split) <;> simp [h]

@[simp] theorem flooded_keeps_conf_tables (port type src seqNo : Nat) (payload : Bytes) (act : State → State) (s : State) (h : ∀ s, (act s).conf.tables = s.conf.tables) : (flooded port type src seqNo payload act s).conf.tables = s.conf.tables := by
  unfold flooded; dsimp only; (repeat' split) <;> simp [h]

@[simp] theorem flooded_keeps_conf_setup (port type src seqNo : Nat) (payload : Bytes) (act : State → State) (s : State) (h : ∀ s, (act s).conf.setup = s.conf.setup) : (flooded port type src seqNo payload act s).conf.setup = s.conf.setup := by
  unfold flooded; dsimp only; (repeat' split) <;> simp [h]

@[simp] theorem flooded_keeps_conf_slots (port type src seqNo : Nat) (payload : Bytes) (act : State → State) (s : State) (h : ∀ s, (act s).conf.slots = s.conf.slots) : (flooded port type src seqNo payload act s).conf.slots = s.conf.slots := by
  unfold flooded; dsimp only; (repeat' split) <;> simp [h]

@[simp] theorem flooded_keeps_conf_live (port type src seqNo : Nat) (payload : Bytes) (act : State → State) (s : State) (h : ∀ s, (act s).conf.live = s.conf.live) : (flooded port type src seqNo payload act s).conf.live = s.conf.live := by
  unfold flooded; dsimp only; (repeat' split) <;> simp [h]

@[simp] theorem flooded_keeps_mem_bytes (port type src seqNo : Nat) (payload : Bytes) (act : State → State) (s : State) (h : ∀ s, (act s).mem.bytes = s.mem.bytes) : (flooded port type src seqNo payload act s).mem.bytes = s.mem.bytes := by
  unfold flooded; dsimp only; (repeat' split) <;> simp [h]

@[simp] theorem flooded_keeps_mem_written (port type src seqNo : Nat) (payload : Bytes) (act : State → State) (s : State) (h : ∀ s, (act s).mem.written = s.mem.written) : (flooded port type src seqNo payload act s).mem.written = s.mem.written := by
  unfold flooded; dsimp only; (repeat' split) <;> simp [h]

@[simp] theorem flooded_keeps_sec_fuses (port type src seqNo : Nat) (payload : Bytes) (act : State → State) (s : State) (h : ∀ s, (act s).sec.fuses = s.sec.fuses) : (flooded port type src seqNo payload act s).sec.fuses = s.sec.fuses := by
  unfold flooded; dsimp only; (repeat' split) <;> simp [h]

@[simp] theorem flooded_keeps_hif_power (port type src seqNo : Nat) (payload : Bytes) (act : State → State) (s : State) (h : ∀ s, (act s).hif.power = s.hif.power) : (flooded port type src seqNo payload act s).hif.power = s.hif.power := by
  unfold flooded; dsimp only; (repeat' split) <;> simp [h]

@[simp] theorem flooded_keeps_hif_bme0 (port type src seqNo : Nat) (payload : Bytes) (act : State → State) (s : State) (h : ∀ s, (act s).hif.bme0 = s.hif.bme0) : (flooded port type src seqNo payload act s).hif.bme0 = s.hif.bme0 := by
  unfold flooded; dsimp only; (repeat' split) <;> simp [h]

@[simp] theorem flooded_keeps_hif_bme1 (port type src seqNo : Nat) (payload : Bytes) (act : State → State) (s : State) (h : ∀ s, (act s).hif.bme1 = s.hif.bme1) : (flooded port type src seqNo payload act s).hif.bme1 = s.hif.bme1 := by
  unfold flooded; dsimp only; (repeat' split) <;> simp [h]

@[simp] theorem flooded_keeps_hif_d3hot (port type src seqNo : Nat) (payload : Bytes) (act : State → State) (s : State) (h : ∀ s, (act s).hif.d3hot = s.hif.d3hot) : (flooded port type src seqNo payload act s).hif.d3hot = s.hif.d3hot := by
  unfold flooded; dsimp only; (repeat' split) <;> simp [h]

@[simp] theorem flooded_keeps_pwr_fall (port type src seqNo : Nat) (payload : Bytes) (act : State → State) (s : State) (h : ∀ s, (act s).pwr.fall = s.pwr.fall) : (flooded port type src seqNo payload act s).pwr.fall = s.pwr.fall := by
  unfold flooded; dsimp only; (repeat' split) <;> simp [h]

@[simp] theorem flooded_keeps_tmg_running (port type src seqNo : Nat) (payload : Bytes) (act : State → State) (s : State) (h : ∀ s, (act s).tmg.running = s.tmg.running) : (flooded port type src seqNo payload act s).tmg.running = s.tmg.running := by
  unfold flooded; dsimp only; (repeat' split) <;> simp [h]

@[simp] theorem flooded_keeps_pnl_state (port type src seqNo : Nat) (payload : Bytes) (act : State → State) (s : State) (h : ∀ s, (act s).pnl.state = s.pnl.state) : (flooded port type src seqNo payload act s).pnl.state = s.pnl.state := by
  unfold flooded; dsimp only; (repeat' split) <;> simp [h]

@[simp] theorem flooded_keeps_rings_sqs (port type src seqNo : Nat) (payload : Bytes) (act : State → State) (s : State) (h : ∀ s, (act s).rings.sqs = s.rings.sqs) : (flooded port type src seqNo payload act s).rings.sqs = s.rings.sqs := by
  unfold flooded; dsimp only; (repeat' split) <;> simp [h]

@[simp] theorem flooded_keeps_rings_cqs (port type src seqNo : Nat) (payload : Bytes) (act : State → State) (s : State) (h : ∀ s, (act s).rings.cqs = s.rings.cqs) : (flooded port type src seqNo payload act s).rings.cqs = s.rings.cqs := by
  unfold flooded; dsimp only; (repeat' split) <;> simp [h]

@[simp] theorem flooded_keeps_rings_eq0 (port type src seqNo : Nat) (payload : Bytes) (act : State → State) (s : State) (h : ∀ s, (act s).rings.eq0 = s.rings.eq0) : (flooded port type src seqNo payload act s).rings.eq0 = s.rings.eq0 := by
  unfold flooded; dsimp only; (repeat' split) <;> simp [h]

@[simp] theorem flooded_keeps_rings_eq1 (port type src seqNo : Nat) (payload : Bytes) (act : State → State) (s : State) (h : ∀ s, (act s).rings.eq1 = s.rings.eq1) : (flooded port type src seqNo payload act s).rings.eq1 = s.rings.eq1 := by
  unfold flooded; dsimp only; (repeat' split) <;> simp [h]

@[simp] theorem flooded_keeps_lin_sram (port type src seqNo : Nat) (payload : Bytes) (act : State → State) (s : State) (h : ∀ s, (act s).lin.sram = s.lin.sram) : (flooded port type src seqNo payload act s).lin.sram = s.lin.sram := by
  unfold flooded; dsimp only; (repeat' split) <;> simp [h]

theorem flooded_sound (port type src seqNo : Nat) (payload : Bytes) (act : State → State) (s : State)
    (ha : ∀ t, PagesSound t.mem.bytes t.mem.written → PagesSound (act t).mem.bytes (act t).mem.written)
    (hs : PagesSound s.mem.bytes s.mem.written) :
    PagesSound (flooded port type src seqNo payload act s).mem.bytes (flooded port type src seqNo payload act s).mem.written := by
  unfold flooded; dsimp only; (repeat' split)
  · exact hs
  · simpa using hs
  · exact ha _ (by simpa using hs)

@[simp] theorem buildDigest_frame (s : State) :
    (buildDigest s).sys = s.sys ∧ (buildDigest s).pwr = s.pwr ∧ (buildDigest s).hif = s.hif ∧ (buildDigest s).rings = s.rings ∧ (buildDigest s).conf = s.conf ∧ (buildDigest s).ing = s.ing ∧ (buildDigest s).pix = s.pix ∧ (buildDigest s).gz = s.gz ∧ (buildDigest s).lmp = s.lmp ∧ (buildDigest s).dmk = s.dmk ∧ (buildDigest s).od = s.od ∧ (buildDigest s).tmg = s.tmg ∧ (buildDigest s).pnl = s.pnl ∧ (buildDigest s).twl = s.twl ∧ (buildDigest s).cue = s.cue ∧ (buildDigest s).mem = s.mem ∧ (buildDigest s).lin = s.lin ∧ (buildDigest s).cal = s.cal ∧ (buildDigest s).sec = s.sec ∧ (buildDigest s).flt = s.flt ∧ (buildDigest s).thm = s.thm ∧ (buildDigest s).trc = s.trc ∧ (buildDigest s).bst = s.bst ∧ (buildDigest s).free = s.free ∧ (buildDigest s).pending = s.pending := by
  unfold buildDigest
  (try dsimp only)
  (repeat' split) <;> (try simp)

@[simp] theorem compareDigest_frame (src fe value : Nat) (s : State) :
    (compareDigest src fe value s).sys = s.sys ∧ (compareDigest src fe value s).pwr = s.pwr ∧ (compareDigest src fe value s).conf = s.conf ∧ (compareDigest src fe value s).ing = s.ing ∧ (compareDigest src fe value s).pix = s.pix ∧ (compareDigest src fe value s).gz = s.gz ∧ (compareDigest src fe value s).lmp = s.lmp ∧ (compareDigest src fe value s).dmk = s.dmk ∧ (compareDigest src fe value s).od = s.od ∧ (compareDigest src fe value s).tmg = s.tmg ∧ (compareDigest src fe value s).pnl = s.pnl ∧ (compareDigest src fe value s).twl = s.twl ∧ (compareDigest src fe value s).cue = s.cue ∧ (compareDigest src fe value s).mem = s.mem ∧ (compareDigest src fe value s).lin = s.lin ∧ (compareDigest src fe value s).cal = s.cal ∧ (compareDigest src fe value s).sec = s.sec ∧ (compareDigest src fe value s).flt = s.flt ∧ (compareDigest src fe value s).thm = s.thm ∧ (compareDigest src fe value s).trc = s.trc ∧ (compareDigest src fe value s).bst = s.bst ∧ (compareDigest src fe value s).pending = s.pending ∧ (compareDigest src fe value s).hif.power = s.hif.power ∧ (compareDigest src fe value s).hif.bme0 = s.hif.bme0 ∧ (compareDigest src fe value s).hif.bme1 = s.hif.bme1 ∧ (compareDigest src fe value s).hif.d3hot = s.hif.d3hot ∧ (compareDigest src fe value s).rings.sqs = s.rings.sqs := by
  unfold compareDigest
  (try simp)
  (repeat' split) <;> (try simp)

@[simp] theorem setArm_frame (a : WallArm) (s : State) :
    (setArm a s).sys = s.sys ∧ (setArm a s).pwr = s.pwr ∧ (setArm a s).hif = s.hif ∧ (setArm a s).rings = s.rings ∧ (setArm a s).conf = s.conf ∧ (setArm a s).ing = s.ing ∧ (setArm a s).pix = s.pix ∧ (setArm a s).gz = s.gz ∧ (setArm a s).lmp = s.lmp ∧ (setArm a s).dmk = s.dmk ∧ (setArm a s).od = s.od ∧ (setArm a s).tmg = s.tmg ∧ (setArm a s).pnl = s.pnl ∧ (setArm a s).twl = s.twl ∧ (setArm a s).cue = s.cue ∧ (setArm a s).mem = s.mem ∧ (setArm a s).lin = s.lin ∧ (setArm a s).cal = s.cal ∧ (setArm a s).sec = s.sec ∧ (setArm a s).flt = s.flt ∧ (setArm a s).thm = s.thm ∧ (setArm a s).trc = s.trc ∧ (setArm a s).bst = s.bst ∧ (setArm a s).out = s.out ∧ (setArm a s).free = s.free ∧ (setArm a s).pending = s.pending := by
  unfold setArm
  (try dsimp only)
  (repeat' split) <;> (try simp)

@[simp] theorem joinArm_frame (id kind slots fe : Nat) (body : Bytes) (s : State) :
    (joinArm id kind slots fe body s).sys = s.sys ∧ (joinArm id kind slots fe body s).pwr = s.pwr ∧ (joinArm id kind slots fe body s).hif = s.hif ∧ (joinArm id kind slots fe body s).rings = s.rings ∧ (joinArm id kind slots fe body s).ing = s.ing ∧ (joinArm id kind slots fe body s).pix = s.pix ∧ (joinArm id kind slots fe body s).gz = s.gz ∧ (joinArm id kind slots fe body s).lmp = s.lmp ∧ (joinArm id kind slots fe body s).dmk = s.dmk ∧ (joinArm id kind slots fe body s).od = s.od ∧ (joinArm id kind slots fe body s).tmg = s.tmg ∧ (joinArm id kind slots fe body s).pnl = s.pnl ∧ (joinArm id kind slots fe body s).twl = s.twl ∧ (joinArm id kind slots fe body s).cue = s.cue ∧ (joinArm id kind slots fe body s).mem = s.mem ∧ (joinArm id kind slots fe body s).lin = s.lin ∧ (joinArm id kind slots fe body s).cal = s.cal ∧ (joinArm id kind slots fe body s).sec = s.sec ∧ (joinArm id kind slots fe body s).flt = s.flt ∧ (joinArm id kind slots fe body s).thm = s.thm ∧ (joinArm id kind slots fe body s).trc = s.trc ∧ (joinArm id kind slots fe body s).bst = s.bst ∧ (joinArm id kind slots fe body s).free = s.free ∧ (joinArm id kind slots fe body s).pending = s.pending := by
  unfold joinArm
  (try dsimp only)
  (repeat' split) <;> (try simp)

@[simp] theorem commitArm_frame (a : WallArm) (s : State) :
    (commitArm a s).sys = s.sys ∧ (commitArm a s).pwr = s.pwr ∧ (commitArm a s).conf = s.conf ∧ (commitArm a s).pix = s.pix ∧ (commitArm a s).gz = s.gz ∧ (commitArm a s).lmp = s.lmp ∧ (commitArm a s).dmk = s.dmk ∧ (commitArm a s).od = s.od ∧ (commitArm a s).tmg = s.tmg ∧ (commitArm a s).pnl = s.pnl ∧ (commitArm a s).twl = s.twl ∧ (commitArm a s).lin = s.lin ∧ (commitArm a s).cal = s.cal ∧ (commitArm a s).sec = s.sec ∧ (commitArm a s).flt = s.flt ∧ (commitArm a s).thm = s.thm ∧ (commitArm a s).bst = s.bst ∧ (commitArm a s).pending = s.pending ∧ (commitArm a s).hif.power = s.hif.power ∧ (commitArm a s).hif.d3hot = s.hif.d3hot ∧ (commitArm a s).rings.sqs = s.rings.sqs := by
  unfold commitArm
  (try simp)
  (repeat' split) <;> (try simp)

@[simp] theorem commitArm_sound (a : WallArm) (s : State) (hs : PagesSound s.mem.bytes s.mem.written) :
    PagesSound (commitArm a s).mem.bytes (commitArm a s).mem.written := by
  unfold commitArm
  (try simp [hs])
  (repeat' split) <;> (try simp [hs])

@[simp] theorem settleExchange_frame (s : State) :
    (settleExchange s).sys = s.sys ∧ (settleExchange s).pwr = s.pwr ∧ (settleExchange s).conf = s.conf ∧ (settleExchange s).pix = s.pix ∧ (settleExchange s).gz = s.gz ∧ (settleExchange s).lmp = s.lmp ∧ (settleExchange s).dmk = s.dmk ∧ (settleExchange s).od = s.od ∧ (settleExchange s).tmg = s.tmg ∧ (settleExchange s).pnl = s.pnl ∧ (settleExchange s).twl = s.twl ∧ (settleExchange s).lin = s.lin ∧ (settleExchange s).cal = s.cal ∧ (settleExchange s).sec = s.sec ∧ (settleExchange s).flt = s.flt ∧ (settleExchange s).thm = s.thm ∧ (settleExchange s).bst = s.bst ∧ (settleExchange s).pending = s.pending ∧ (settleExchange s).hif.power = s.hif.power ∧ (settleExchange s).hif.d3hot = s.hif.d3hot := by
  unfold settleExchange
  (try dsimp only)
  (repeat' split) <;> (try simp)

@[simp] theorem settleExchange_sound (s : State) (hs : PagesSound s.mem.bytes s.mem.written) :
    PagesSound (settleExchange s).mem.bytes (settleExchange s).mem.written := by
  unfold settleExchange
  (try dsimp only)
  (repeat' split) <;> (repeat' (first | assumption | with_reducible apply commitArm_sound | with_reducible apply writeMemOf_sound | with_reducible apply clearPages_sound | with_reducible apply empty_sound | with_reducible apply forAll_sound | with_reducible apply foldl_sound | (intro _) | split | simp))

@[simp] theorem decideArms_frame (s : State) :
    (decideArms s).sys = s.sys ∧ (decideArms s).pwr = s.pwr ∧ (decideArms s).ing = s.ing ∧ (decideArms s).pix = s.pix ∧ (decideArms s).gz = s.gz ∧ (decideArms s).lmp = s.lmp ∧ (decideArms s).dmk = s.dmk ∧ (decideArms s).od = s.od ∧ (decideArms s).tmg = s.tmg ∧ (decideArms s).pnl = s.pnl ∧ (decideArms s).twl = s.twl ∧ (decideArms s).cue = s.cue ∧ (decideArms s).mem = s.mem ∧ (decideArms s).lin = s.lin ∧ (decideArms s).cal = s.cal ∧ (decideArms s).sec = s.sec ∧ (decideArms s).flt = s.flt ∧ (decideArms s).thm = s.thm ∧ (decideArms s).bst = s.bst ∧ (decideArms s).pending = s.pending ∧ (decideArms s).conf.regs = s.conf.regs ∧ (decideArms s).conf.tables = s.conf.tables ∧ (decideArms s).hif.power = s.hif.power ∧ (decideArms s).hif.d3hot = s.hif.d3hot := by
  unfold decideArms
  (try dsimp only)
  (repeat' split) <;> (try simp)

@[simp] theorem loseArms_frame (s : State) :
    (loseArms s).sys = s.sys ∧ (loseArms s).pwr = s.pwr ∧ (loseArms s).ing = s.ing ∧ (loseArms s).pix = s.pix ∧ (loseArms s).gz = s.gz ∧ (loseArms s).lmp = s.lmp ∧ (loseArms s).dmk = s.dmk ∧ (loseArms s).od = s.od ∧ (loseArms s).tmg = s.tmg ∧ (loseArms s).pnl = s.pnl ∧ (loseArms s).twl = s.twl ∧ (loseArms s).cue = s.cue ∧ (loseArms s).mem = s.mem ∧ (loseArms s).lin = s.lin ∧ (loseArms s).cal = s.cal ∧ (loseArms s).sec = s.sec ∧ (loseArms s).flt = s.flt ∧ (loseArms s).thm = s.thm ∧ (loseArms s).trc = s.trc ∧ (loseArms s).bst = s.bst ∧ (loseArms s).free = s.free ∧ (loseArms s).pending = s.pending ∧ (loseArms s).conf.regs = s.conf.regs ∧ (loseArms s).conf.tables = s.conf.tables ∧ (loseArms s).hif.power = s.hif.power ∧ (loseArms s).hif.d3hot = s.hif.d3hot ∧ (loseArms s).rings.sqs = s.rings.sqs := by
  unfold loseArms
  (try dsimp only)
  (repeat' split) <;> (try simp)

end Sys2Proof.Laws
end

