-- ==== Sys2Proof/Laws/FramesC.lean ====
section
/-!
SUPPORT. What each function of a group leaves alone: resets, ticks, modes and the host link. One lemma a function: every part of the state that it does not
touch, and the fields of a touched part that it keeps; `_sound` says that it keeps module memory sound.
-/
namespace Sys2Proof.Laws
open Sys2Proof.Machine

@[simp] theorem freeAllPush_frame (s : State) :
    (freeAllPush s).sys = s.sys ∧ (freeAllPush s).pwr = s.pwr ∧ (freeAllPush s).hif = s.hif ∧ (freeAllPush s).rings = s.rings ∧ (freeAllPush s).conf = s.conf ∧ (freeAllPush s).pix = s.pix ∧ (freeAllPush s).gz = s.gz ∧ (freeAllPush s).lmp = s.lmp ∧ (freeAllPush s).dmk = s.dmk ∧ (freeAllPush s).od = s.od ∧ (freeAllPush s).tmg = s.tmg ∧ (freeAllPush s).pnl = s.pnl ∧ (freeAllPush s).twl = s.twl ∧ (freeAllPush s).cue = s.cue ∧ (freeAllPush s).lin = s.lin ∧ (freeAllPush s).cal = s.cal ∧ (freeAllPush s).gng = s.gng ∧ (freeAllPush s).sec = s.sec ∧ (freeAllPush s).flt = s.flt ∧ (freeAllPush s).thm = s.thm ∧ (freeAllPush s).trc = s.trc ∧ (freeAllPush s).bst = s.bst ∧ (freeAllPush s).out = s.out ∧ (freeAllPush s).free = s.free ∧ (freeAllPush s).pending = s.pending := by
  unfold freeAllPush
  (try dsimp only)
  (repeat' split) <;> (try simp)

@[simp] theorem freeAllPush_sound (s : State) (hs : PagesSound s.mem.bytes s.mem.written) :
    PagesSound (freeAllPush s).mem.bytes (freeAllPush s).mem.written := by
  unfold freeAllPush
  (try dsimp only)
  (repeat' split) <;> (repeat' (first | assumption | with_reducible apply freeSlot_sound | with_reducible apply writeMemOf_sound | with_reducible apply clearPages_sound | with_reducible apply empty_sound | with_reducible apply forAll_sound | with_reducible apply foldl_sound | (intro _) | split | simp))

@[simp] theorem resetIngest_frame (s : State) :
    (resetIngest s).sys = s.sys ∧ (resetIngest s).pwr = s.pwr ∧ (resetIngest s).hif = s.hif ∧ (resetIngest s).rings = s.rings ∧ (resetIngest s).conf = s.conf ∧ (resetIngest s).pix = s.pix ∧ (resetIngest s).gz = s.gz ∧ (resetIngest s).lmp = s.lmp ∧ (resetIngest s).dmk = s.dmk ∧ (resetIngest s).od = s.od ∧ (resetIngest s).tmg = s.tmg ∧ (resetIngest s).pnl = s.pnl ∧ (resetIngest s).twl = s.twl ∧ (resetIngest s).cue = s.cue ∧ (resetIngest s).lin = s.lin ∧ (resetIngest s).cal = s.cal ∧ (resetIngest s).gng = s.gng ∧ (resetIngest s).sec = s.sec ∧ (resetIngest s).flt = s.flt ∧ (resetIngest s).thm = s.thm ∧ (resetIngest s).trc = s.trc ∧ (resetIngest s).bst = s.bst ∧ (resetIngest s).out = s.out ∧ (resetIngest s).free = s.free ∧ (resetIngest s).pending = s.pending := by
  unfold resetIngest
  (try dsimp only)
  (repeat' split) <;> (try simp)

@[simp] theorem resetIngest_sound (s : State) (hs : PagesSound s.mem.bytes s.mem.written) :
    PagesSound (resetIngest s).mem.bytes (resetIngest s).mem.written := by
  unfold resetIngest
  (try dsimp only)
  (repeat' split) <;> (try simp [hs])

@[simp] theorem orphanPf0_frame (s : State) :
    (orphanPf0 s).sys = s.sys ∧ (orphanPf0 s).pwr = s.pwr ∧ (orphanPf0 s).hif = s.hif ∧ (orphanPf0 s).rings = s.rings ∧ (orphanPf0 s).conf = s.conf ∧ (orphanPf0 s).ing = s.ing ∧ (orphanPf0 s).pix = s.pix ∧ (orphanPf0 s).gz = s.gz ∧ (orphanPf0 s).lmp = s.lmp ∧ (orphanPf0 s).dmk = s.dmk ∧ (orphanPf0 s).od = s.od ∧ (orphanPf0 s).tmg = s.tmg ∧ (orphanPf0 s).pnl = s.pnl ∧ (orphanPf0 s).twl = s.twl ∧ (orphanPf0 s).mem = s.mem ∧ (orphanPf0 s).lin = s.lin ∧ (orphanPf0 s).sec = s.sec ∧ (orphanPf0 s).thm = s.thm ∧ (orphanPf0 s).trc = s.trc ∧ (orphanPf0 s).bst = s.bst ∧ (orphanPf0 s).out = s.out ∧ (orphanPf0 s).free = s.free ∧ (orphanPf0 s).pending = s.pending := by
  unfold orphanPf0
  (try dsimp only)
  (repeat' split) <;> (try simp)

@[simp] theorem resetMode_frame (s : State) :
    (resetMode s).pwr = s.pwr ∧ (resetMode s).hif = s.hif ∧ (resetMode s).rings = s.rings ∧ (resetMode s).conf = s.conf ∧ (resetMode s).ing = s.ing ∧ (resetMode s).pix = s.pix ∧ (resetMode s).gz = s.gz ∧ (resetMode s).lmp = s.lmp ∧ (resetMode s).dmk = s.dmk ∧ (resetMode s).od = s.od ∧ (resetMode s).tmg = s.tmg ∧ (resetMode s).pnl = s.pnl ∧ (resetMode s).twl = s.twl ∧ (resetMode s).cue = s.cue ∧ (resetMode s).mem = s.mem ∧ (resetMode s).lin = s.lin ∧ (resetMode s).cal = s.cal ∧ (resetMode s).gng = s.gng ∧ (resetMode s).sec = s.sec ∧ (resetMode s).flt = s.flt ∧ (resetMode s).thm = s.thm ∧ (resetMode s).trc = s.trc ∧ (resetMode s).bst = s.bst ∧ (resetMode s).out = s.out ∧ (resetMode s).free = s.free ∧ (resetMode s).pending = s.pending ∧ (resetMode s).sys.mode = s.sys.mode ∧ (resetMode s).sys.fe = s.sys.fe ∧ (resetMode s).sys.lock = s.sys.lock ∧ (resetMode s).sys.serving = s.sys.serving ∧ (resetMode s).sys.stage = s.sys.stage := by
  unfold resetMode
  (try simp)
  (repeat' split) <;> (try simp)

@[simp] theorem warmReset_frame (s : State) :
    (warmReset s).pix = s.pix ∧ (warmReset s).lmp = s.lmp ∧ (warmReset s).dmk = s.dmk ∧ (warmReset s).od = s.od ∧ (warmReset s).tmg = s.tmg ∧ (warmReset s).pnl = s.pnl ∧ (warmReset s).sec = s.sec ∧ (warmReset s).thm = s.thm ∧ (warmReset s).bst = s.bst ∧ (warmReset s).pending = s.pending ∧ (warmReset s).sys.mode = s.sys.mode ∧ (warmReset s).sys.fe = s.sys.fe ∧ (warmReset s).sys.serving = s.sys.serving ∧ (warmReset s).sys.stage = s.sys.stage ∧ (warmReset s).conf.regs = s.conf.regs ∧ (warmReset s).conf.tables = s.conf.tables ∧ (warmReset s).hif.power = s.hif.power ∧ (warmReset s).pwr.fall = s.pwr.fall ∧ (warmReset s).lin.sram = s.lin.sram := by
  unfold warmReset
  (try dsimp only)
  (repeat' split) <;> (try simp)

@[simp] theorem warmReset_sound (s : State) (hs : PagesSound s.mem.bytes s.mem.written) :
    PagesSound (warmReset s).mem.bytes (warmReset s).mem.written := by
  unfold warmReset
  (try dsimp only)
  (repeat' split) <;> (try simp [hs])

@[simp] theorem leaveLive_frame (s : State) :
    (leaveLive s).pwr = s.pwr ∧ (leaveLive s).conf = s.conf ∧ (leaveLive s).pix = s.pix ∧ (leaveLive s).gz = s.gz ∧ (leaveLive s).lmp = s.lmp ∧ (leaveLive s).dmk = s.dmk ∧ (leaveLive s).od = s.od ∧ (leaveLive s).tmg = s.tmg ∧ (leaveLive s).pnl = s.pnl ∧ (leaveLive s).twl = s.twl ∧ (leaveLive s).cue = s.cue ∧ (leaveLive s).mem = s.mem ∧ (leaveLive s).lin = s.lin ∧ (leaveLive s).cal = s.cal ∧ (leaveLive s).gng = s.gng ∧ (leaveLive s).sec = s.sec ∧ (leaveLive s).flt = s.flt ∧ (leaveLive s).thm = s.thm ∧ (leaveLive s).bst = s.bst ∧ (leaveLive s).pending = s.pending ∧ (leaveLive s).sys.mode = s.sys.mode ∧ (leaveLive s).sys.fe = s.sys.fe ∧ (leaveLive s).sys.lock = s.sys.lock ∧ (leaveLive s).sys.serving = s.sys.serving ∧ (leaveLive s).sys.stage = s.sys.stage ∧ (leaveLive s).hif.power = s.hif.power ∧ (leaveLive s).hif.bme0 = s.hif.bme0 ∧ (leaveLive s).hif.bme1 = s.hif.bme1 ∧ (leaveLive s).hif.d3hot = s.hif.d3hot ∧ (leaveLive s).rings.sqs = s.rings.sqs := by
  unfold leaveLive
  (try simp)
  (repeat' split) <;> (try simp)

@[simp] theorem resetPf1_frame (s : State) :
    (resetPf1 s).sys = s.sys ∧ (resetPf1 s).pwr = s.pwr ∧ (resetPf1 s).conf = s.conf ∧ (resetPf1 s).ing = s.ing ∧ (resetPf1 s).pix = s.pix ∧ (resetPf1 s).gz = s.gz ∧ (resetPf1 s).lmp = s.lmp ∧ (resetPf1 s).dmk = s.dmk ∧ (resetPf1 s).od = s.od ∧ (resetPf1 s).tmg = s.tmg ∧ (resetPf1 s).pnl = s.pnl ∧ (resetPf1 s).twl = s.twl ∧ (resetPf1 s).cue = s.cue ∧ (resetPf1 s).mem = s.mem ∧ (resetPf1 s).cal = s.cal ∧ (resetPf1 s).gng = s.gng ∧ (resetPf1 s).flt = s.flt ∧ (resetPf1 s).thm = s.thm ∧ (resetPf1 s).trc = s.trc ∧ (resetPf1 s).bst = s.bst ∧ (resetPf1 s).free = s.free ∧ (resetPf1 s).pending = s.pending ∧ (resetPf1 s).sec.fuses = s.sec.fuses ∧ (resetPf1 s).hif.power = s.hif.power ∧ (resetPf1 s).lin.sram = s.lin.sram := by
  unfold resetPf1
  (try dsimp only)
  (repeat' split) <;> (try simp)

@[simp] theorem restoreRegions_frame (s : State) :
    (restoreRegions s).sys = s.sys ∧ (restoreRegions s).pwr = s.pwr ∧ (restoreRegions s).hif = s.hif ∧ (restoreRegions s).rings = s.rings ∧ (restoreRegions s).conf = s.conf ∧ (restoreRegions s).ing = s.ing ∧ (restoreRegions s).pix = s.pix ∧ (restoreRegions s).gz = s.gz ∧ (restoreRegions s).lmp = s.lmp ∧ (restoreRegions s).dmk = s.dmk ∧ (restoreRegions s).od = s.od ∧ (restoreRegions s).tmg = s.tmg ∧ (restoreRegions s).pnl = s.pnl ∧ (restoreRegions s).twl = s.twl ∧ (restoreRegions s).cue = s.cue ∧ (restoreRegions s).lin = s.lin ∧ (restoreRegions s).cal = s.cal ∧ (restoreRegions s).gng = s.gng ∧ (restoreRegions s).sec = s.sec ∧ (restoreRegions s).flt = s.flt ∧ (restoreRegions s).thm = s.thm ∧ (restoreRegions s).trc = s.trc ∧ (restoreRegions s).bst = s.bst ∧ (restoreRegions s).out = s.out ∧ (restoreRegions s).free = s.free ∧ (restoreRegions s).pending = s.pending := by
  unfold restoreRegions
  (try dsimp only)
  (repeat' split) <;> (try simp)

@[simp] theorem restoreRegions_sound (s : State) (hs : PagesSound s.mem.bytes s.mem.written) :
    PagesSound (restoreRegions s).mem.bytes (restoreRegions s).mem.written := by
  unfold restoreRegions
  (try simp [hs])
  (repeat' split) <;> (try simp [hs])

@[simp] theorem cutStore_frame (s : State) :
    (cutStore s).sys = s.sys ∧ (cutStore s).pwr = s.pwr ∧ (cutStore s).hif = s.hif ∧ (cutStore s).rings = s.rings ∧ (cutStore s).conf = s.conf ∧ (cutStore s).ing = s.ing ∧ (cutStore s).pix = s.pix ∧ (cutStore s).gz = s.gz ∧ (cutStore s).lmp = s.lmp ∧ (cutStore s).dmk = s.dmk ∧ (cutStore s).od = s.od ∧ (cutStore s).tmg = s.tmg ∧ (cutStore s).pnl = s.pnl ∧ (cutStore s).twl = s.twl ∧ (cutStore s).cue = s.cue ∧ (cutStore s).mem = s.mem ∧ (cutStore s).cal = s.cal ∧ (cutStore s).gng = s.gng ∧ (cutStore s).sec = s.sec ∧ (cutStore s).flt = s.flt ∧ (cutStore s).thm = s.thm ∧ (cutStore s).trc = s.trc ∧ (cutStore s).bst = s.bst ∧ (cutStore s).out = s.out ∧ (cutStore s).pending = s.pending ∧ (cutStore s).lin.sram = s.lin.sram := by
  unfold cutStore
  (try simp)
  (repeat' split) <;> (try simp)

@[simp] theorem coldReset_frame (s0 : State) :
    (coldReset s0).bst = s0.bst ∧ (coldReset s0).out = s0.out ∧ (coldReset s0).pending = s0.pending ∧ (coldReset s0).sec.fuses = s0.sec.fuses := by
  unfold coldReset
  (try dsimp only)
  (repeat' split) <;> (try simp)

@[simp] theorem coldReset_sound (s0 : State) (hs : PagesSound s0.mem.bytes s0.mem.written) :
    PagesSound (coldReset s0).mem.bytes (coldReset s0).mem.written := by
  have h : (coldReset s0).mem = if s0.mem.retained then retainedMem s0.mem else {} := by simp [coldReset]
  rw [h]; split
  · exact retainedMem_sound hs
  · exact empty_sound

@[simp] theorem causeNext_frame (c : BootCause) (s : State) :
    (causeNext c s).pwr = s.pwr ∧ (causeNext c s).hif = s.hif ∧ (causeNext c s).rings = s.rings ∧ (causeNext c s).conf = s.conf ∧ (causeNext c s).ing = s.ing ∧ (causeNext c s).pix = s.pix ∧ (causeNext c s).gz = s.gz ∧ (causeNext c s).lmp = s.lmp ∧ (causeNext c s).dmk = s.dmk ∧ (causeNext c s).od = s.od ∧ (causeNext c s).tmg = s.tmg ∧ (causeNext c s).pnl = s.pnl ∧ (causeNext c s).twl = s.twl ∧ (causeNext c s).cue = s.cue ∧ (causeNext c s).mem = s.mem ∧ (causeNext c s).lin = s.lin ∧ (causeNext c s).cal = s.cal ∧ (causeNext c s).gng = s.gng ∧ (causeNext c s).sec = s.sec ∧ (causeNext c s).flt = s.flt ∧ (causeNext c s).thm = s.thm ∧ (causeNext c s).trc = s.trc ∧ (causeNext c s).bst = s.bst ∧ (causeNext c s).out = s.out ∧ (causeNext c s).free = s.free ∧ (causeNext c s).pending = s.pending ∧ (causeNext c s).sys.mode = s.sys.mode ∧ (causeNext c s).sys.fe = s.sys.fe ∧ (causeNext c s).sys.transit = s.sys.transit ∧ (causeNext c s).sys.lock = s.sys.lock ∧ (causeNext c s).sys.serving = s.sys.serving ∧ (causeNext c s).sys.stage = s.sys.stage := by
  unfold causeNext
  (try dsimp only)
  (repeat' split) <;> (try simp)

@[simp] theorem switchRows_frame (s : State) :
    (switchRows s).sys = s.sys ∧ (switchRows s).pwr = s.pwr ∧ (switchRows s).hif = s.hif ∧ (switchRows s).rings = s.rings ∧ (switchRows s).conf = s.conf ∧ (switchRows s).ing = s.ing ∧ (switchRows s).pix = s.pix ∧ (switchRows s).gz = s.gz ∧ (switchRows s).lmp = s.lmp ∧ (switchRows s).dmk = s.dmk ∧ (switchRows s).od = s.od ∧ (switchRows s).tmg = s.tmg ∧ (switchRows s).pnl = s.pnl ∧ (switchRows s).twl = s.twl ∧ (switchRows s).cue = s.cue ∧ (switchRows s).lin = s.lin ∧ (switchRows s).cal = s.cal ∧ (switchRows s).gng = s.gng ∧ (switchRows s).sec = s.sec ∧ (switchRows s).flt = s.flt ∧ (switchRows s).thm = s.thm ∧ (switchRows s).trc = s.trc ∧ (switchRows s).bst = s.bst ∧ (switchRows s).out = s.out ∧ (switchRows s).free = s.free ∧ (switchRows s).pending = s.pending ∧ (switchRows s).mem.bytes = s.mem.bytes ∧ (switchRows s).mem.written = s.mem.written := by
  unfold switchRows
  (try dsimp only)
  (repeat' split) <;> (try simp)

@[simp] theorem recallSpares_frame (s : State) :
    (recallSpares s).sys = s.sys ∧ (recallSpares s).pwr = s.pwr ∧ (recallSpares s).hif = s.hif ∧ (recallSpares s).rings = s.rings ∧ (recallSpares s).conf = s.conf ∧ (recallSpares s).ing = s.ing ∧ (recallSpares s).pix = s.pix ∧ (recallSpares s).gz = s.gz ∧ (recallSpares s).lmp = s.lmp ∧ (recallSpares s).dmk = s.dmk ∧ (recallSpares s).od = s.od ∧ (recallSpares s).tmg = s.tmg ∧ (recallSpares s).pnl = s.pnl ∧ (recallSpares s).cue = s.cue ∧ (recallSpares s).mem = s.mem ∧ (recallSpares s).lin = s.lin ∧ (recallSpares s).cal = s.cal ∧ (recallSpares s).gng = s.gng ∧ (recallSpares s).sec = s.sec ∧ (recallSpares s).thm = s.thm ∧ (recallSpares s).trc = s.trc ∧ (recallSpares s).bst = s.bst ∧ (recallSpares s).out = s.out ∧ (recallSpares s).free = s.free ∧ (recallSpares s).pending = s.pending := by
  unfold recallSpares
  (try simp)
  (repeat' split) <;> (try simp)

@[simp] theorem checkRetention_frame (s : State) :
    (checkRetention s).sys = s.sys ∧ (checkRetention s).pwr = s.pwr ∧ (checkRetention s).hif = s.hif ∧ (checkRetention s).rings = s.rings ∧ (checkRetention s).conf = s.conf ∧ (checkRetention s).ing = s.ing ∧ (checkRetention s).pix = s.pix ∧ (checkRetention s).gz = s.gz ∧ (checkRetention s).lmp = s.lmp ∧ (checkRetention s).dmk = s.dmk ∧ (checkRetention s).od = s.od ∧ (checkRetention s).tmg = s.tmg ∧ (checkRetention s).pnl = s.pnl ∧ (checkRetention s).twl = s.twl ∧ (checkRetention s).lin = s.lin ∧ (checkRetention s).cal = s.cal ∧ (checkRetention s).gng = s.gng ∧ (checkRetention s).flt = s.flt ∧ (checkRetention s).thm = s.thm ∧ (checkRetention s).trc = s.trc ∧ (checkRetention s).bst = s.bst ∧ (checkRetention s).out = s.out ∧ (checkRetention s).free = s.free ∧ (checkRetention s).pending = s.pending ∧ (checkRetention s).sec.fuses = s.sec.fuses := by
  unfold checkRetention
  (try simp)
  (repeat' split) <;> (try simp)

@[simp] theorem checkRetention_sound (s : State) (hs : PagesSound s.mem.bytes s.mem.written) :
    PagesSound (checkRetention s).mem.bytes (checkRetention s).mem.written := by
  unfold checkRetention
  (try simp [hs])
  (repeat' split) <;> (try simp [hs])

@[simp] theorem beginBoot_frame (s : State) :
    (beginBoot s).pwr = s.pwr ∧ (beginBoot s).conf = s.conf ∧ (beginBoot s).ing = s.ing ∧ (beginBoot s).pix = s.pix ∧ (beginBoot s).gz = s.gz ∧ (beginBoot s).lmp = s.lmp ∧ (beginBoot s).dmk = s.dmk ∧ (beginBoot s).od = s.od ∧ (beginBoot s).tmg = s.tmg ∧ (beginBoot s).pnl = s.pnl ∧ (beginBoot s).cal = s.cal ∧ (beginBoot s).gng = s.gng ∧ (beginBoot s).thm = s.thm ∧ (beginBoot s).bst = s.bst ∧ (beginBoot s).pending = s.pending ∧ (beginBoot s).sys.fe = s.sys.fe ∧ (beginBoot s).sys.lock = s.sys.lock ∧ (beginBoot s).sec.fuses = s.sec.fuses ∧ (beginBoot s).hif.power = s.hif.power ∧ (beginBoot s).hif.bme0 = s.hif.bme0 ∧ (beginBoot s).hif.bme1 = s.hif.bme1 ∧ (beginBoot s).hif.d3hot = s.hif.d3hot ∧ (beginBoot s).rings.sqs = s.rings.sqs := by
  unfold beginBoot
  (try dsimp only)
  (repeat' split) <;> (try simp)

@[simp] theorem beginBoot_sound (s : State) (hs : PagesSound s.mem.bytes s.mem.written) :
    PagesSound (beginBoot s).mem.bytes (beginBoot s).mem.written := by
  unfold beginBoot
  (try dsimp only)
  (repeat' split) <;> (try simp [hs])

@[simp] theorem freeBuffers_frame (s : State) :
    (freeBuffers s).sys = s.sys ∧ (freeBuffers s).pwr = s.pwr ∧ (freeBuffers s).hif = s.hif ∧ (freeBuffers s).rings = s.rings ∧ (freeBuffers s).conf = s.conf ∧ (freeBuffers s).ing = s.ing ∧ (freeBuffers s).pix = s.pix ∧ (freeBuffers s).gz = s.gz ∧ (freeBuffers s).lmp = s.lmp ∧ (freeBuffers s).dmk = s.dmk ∧ (freeBuffers s).od = s.od ∧ (freeBuffers s).tmg = s.tmg ∧ (freeBuffers s).pnl = s.pnl ∧ (freeBuffers s).twl = s.twl ∧ (freeBuffers s).lin = s.lin ∧ (freeBuffers s).cal = s.cal ∧ (freeBuffers s).gng = s.gng ∧ (freeBuffers s).sec = s.sec ∧ (freeBuffers s).flt = s.flt ∧ (freeBuffers s).thm = s.thm ∧ (freeBuffers s).trc = s.trc ∧ (freeBuffers s).bst = s.bst ∧ (freeBuffers s).out = s.out ∧ (freeBuffers s).free = s.free ∧ (freeBuffers s).pending = s.pending := by
  unfold freeBuffers
  (repeat' split) <;> (try simp)

@[simp] theorem freeBuffers_sound (s : State) (hs : PagesSound s.mem.bytes s.mem.written) :
    PagesSound (freeBuffers s).mem.bytes (freeBuffers s).mem.written := by
  unfold freeBuffers
  (repeat' split) <;> (repeat' (first | assumption | with_reducible apply dropBuffer_sound | with_reducible apply writeMemOf_sound | with_reducible apply clearPages_sound | with_reducible apply empty_sound | with_reducible apply forAll_sound | with_reducible apply foldl_sound | (intro _) | split | simp))

@[simp] theorem stopUnits_frame (s : State) :
    (stopUnits s).pix = s.pix ∧ (stopUnits s).lmp = s.lmp ∧ (stopUnits s).dmk = s.dmk ∧ (stopUnits s).od = s.od ∧ (stopUnits s).tmg = s.tmg ∧ (stopUnits s).pnl = s.pnl ∧ (stopUnits s).thm = s.thm ∧ (stopUnits s).bst = s.bst ∧ (stopUnits s).pending = s.pending ∧ (stopUnits s).sys.mode = s.sys.mode ∧ (stopUnits s).sys.fe = s.sys.fe ∧ (stopUnits s).sys.serving = s.sys.serving ∧ (stopUnits s).sys.stage = s.sys.stage ∧ (stopUnits s).conf.regs = s.conf.regs ∧ (stopUnits s).conf.tables = s.conf.tables ∧ (stopUnits s).sec.fuses = s.sec.fuses ∧ (stopUnits s).hif.power = s.hif.power ∧ (stopUnits s).pwr.fall = s.pwr.fall ∧ (stopUnits s).lin.sram = s.lin.sram := by
  unfold stopUnits
  (try dsimp only)
  (repeat' split) <;> (try simp)

@[simp] theorem stopUnits_sound (s : State) (hs : PagesSound s.mem.bytes s.mem.written) :
    PagesSound (stopUnits s).mem.bytes (stopUnits s).mem.written := by
  unfold stopUnits
  (try dsimp only)
  (repeat' split) <;> (try simp [hs])

@[simp] theorem dieReset_frame (s : State) :
    (dieReset s).od = s.od ∧ (dieReset s).thm = s.thm ∧ (dieReset s).bst = s.bst ∧ (dieReset s).pending = s.pending ∧ (dieReset s).sys.mode = s.sys.mode ∧ (dieReset s).sys.fe = s.sys.fe ∧ (dieReset s).sys.serving = s.sys.serving ∧ (dieReset s).sys.stage = s.sys.stage ∧ (dieReset s).conf.regs = s.conf.regs ∧ (dieReset s).conf.tables = s.conf.tables ∧ (dieReset s).sec.fuses = s.sec.fuses ∧ (dieReset s).pwr.fall = s.pwr.fall := by
  unfold dieReset
  (try dsimp only)
  (repeat' split) <;> (try simp)

@[simp] theorem dieReset_sound (s : State) (hs : PagesSound s.mem.bytes s.mem.written) :
    PagesSound (dieReset s).mem.bytes (dieReset s).mem.written := by
  unfold dieReset
  (try dsimp only)
  (repeat' split) <;> (try simp [hs])

@[simp] theorem awaitVin_frame (s : State) :
    (awaitVin s).pwr = s.pwr ∧ (awaitVin s).hif = s.hif ∧ (awaitVin s).rings = s.rings ∧ (awaitVin s).conf = s.conf ∧ (awaitVin s).ing = s.ing ∧ (awaitVin s).pix = s.pix ∧ (awaitVin s).gz = s.gz ∧ (awaitVin s).lmp = s.lmp ∧ (awaitVin s).dmk = s.dmk ∧ (awaitVin s).od = s.od ∧ (awaitVin s).tmg = s.tmg ∧ (awaitVin s).pnl = s.pnl ∧ (awaitVin s).twl = s.twl ∧ (awaitVin s).cue = s.cue ∧ (awaitVin s).mem = s.mem ∧ (awaitVin s).lin = s.lin ∧ (awaitVin s).cal = s.cal ∧ (awaitVin s).gng = s.gng ∧ (awaitVin s).sec = s.sec ∧ (awaitVin s).flt = s.flt ∧ (awaitVin s).thm = s.thm ∧ (awaitVin s).trc = s.trc ∧ (awaitVin s).bst = s.bst ∧ (awaitVin s).out = s.out ∧ (awaitVin s).free = s.free ∧ (awaitVin s).pending = s.pending ∧ (awaitVin s).sys.fe = s.sys.fe ∧ (awaitVin s).sys.lock = s.sys.lock := by
  unfold awaitVin
  (try dsimp only)
  (repeat' split) <;> (try simp)

@[simp] theorem bootEntered_frame (old : Mode) (s : State) :
    (bootEntered old s).sys = s.sys ∧ (bootEntered old s).pwr = s.pwr ∧ (bootEntered old s).conf = s.conf ∧ (bootEntered old s).ing = s.ing ∧ (bootEntered old s).pix = s.pix ∧ (bootEntered old s).gz = s.gz ∧ (bootEntered old s).lmp = s.lmp ∧ (bootEntered old s).dmk = s.dmk ∧ (bootEntered old s).od = s.od ∧ (bootEntered old s).tmg = s.tmg ∧ (bootEntered old s).pnl = s.pnl ∧ (bootEntered old s).twl = s.twl ∧ (bootEntered old s).cue = s.cue ∧ (bootEntered old s).mem = s.mem ∧ (bootEntered old s).lin = s.lin ∧ (bootEntered old s).cal = s.cal ∧ (bootEntered old s).gng = s.gng ∧ (bootEntered old s).sec = s.sec ∧ (bootEntered old s).flt = s.flt ∧ (bootEntered old s).thm = s.thm ∧ (bootEntered old s).trc = s.trc ∧ (bootEntered old s).bst = s.bst ∧ (bootEntered old s).free = s.free ∧ (bootEntered old s).pending = s.pending ∧ (bootEntered old s).hif.power = s.hif.power ∧ (bootEntered old s).hif.bme0 = s.hif.bme0 ∧ (bootEntered old s).hif.bme1 = s.hif.bme1 ∧ (bootEntered old s).hif.d3hot = s.hif.d3hot ∧ (bootEntered old s).rings.sqs = s.rings.sqs := by
  unfold bootEntered
  (repeat' split) <;> (try simp)

@[simp] theorem restartBoot_frame (s : State) :
    (restartBoot s).od = s.od ∧ (restartBoot s).thm = s.thm ∧ (restartBoot s).bst = s.bst ∧ (restartBoot s).pending = s.pending ∧ (restartBoot s).sys.fe = s.sys.fe ∧ (restartBoot s).conf.regs = s.conf.regs ∧ (restartBoot s).conf.tables = s.conf.tables ∧ (restartBoot s).sec.fuses = s.sec.fuses ∧ (restartBoot s).pwr.fall = s.pwr.fall := by
  unfold restartBoot
  (try simp)
  (repeat' split) <;> (try simp)

@[simp] theorem restartBoot_sound (s : State) (hs : PagesSound s.mem.bytes s.mem.written) :
    PagesSound (restartBoot s).mem.bytes (restartBoot s).mem.written := by
  unfold restartBoot
  (try simp [hs])
  (repeat' split) <;> (try simp [hs])

@[simp] theorem settleReset_frame (s : State) :
    (settleReset s).od = s.od ∧ (settleReset s).thm = s.thm ∧ (settleReset s).bst = s.bst ∧ (settleReset s).pending = s.pending ∧ (settleReset s).sys.fe = s.sys.fe ∧ (settleReset s).conf.regs = s.conf.regs ∧ (settleReset s).conf.tables = s.conf.tables ∧ (settleReset s).sec.fuses = s.sec.fuses ∧ (settleReset s).pwr.fall = s.pwr.fall := by
  unfold settleReset
  (try simp)
  (repeat' split) <;> (try simp)

@[simp] theorem settleReset_sound (s : State) (hs : PagesSound s.mem.bytes s.mem.written) :
    PagesSound (settleReset s).mem.bytes (settleReset s).mem.written := by
  unfold settleReset
  (try simp [hs])
  (repeat' split) <;> (try simp [hs])

@[simp] theorem resetDie_frame (reason : Nat) (s : State) :
    (resetDie reason s).od = s.od ∧ (resetDie reason s).thm = s.thm ∧ (resetDie reason s).bst = s.bst ∧ (resetDie reason s).pending = s.pending ∧ (resetDie reason s).sys.fe = s.sys.fe ∧ (resetDie reason s).conf.regs = s.conf.regs ∧ (resetDie reason s).conf.tables = s.conf.tables ∧ (resetDie reason s).sec.fuses = s.sec.fuses ∧ (resetDie reason s).pwr.fall = s.pwr.fall := by
  unfold resetDie
  (try dsimp only)
  (repeat' split) <;> (try simp)

@[simp] theorem resetDie_sound (reason : Nat) (s : State) (hs : PagesSound s.mem.bytes s.mem.written) :
    PagesSound (resetDie reason s).mem.bytes (resetDie reason s).mem.written := by
  unfold resetDie
  (try dsimp only)
  (repeat' split) <;> (try simp [hs])

@[simp] theorem watchdog_frame (reason : Nat) (s : State) :
    (watchdog reason s).od = s.od ∧ (watchdog reason s).thm = s.thm ∧ (watchdog reason s).bst = s.bst ∧ (watchdog reason s).pending = s.pending ∧ (watchdog reason s).sys.fe = s.sys.fe ∧ (watchdog reason s).conf.regs = s.conf.regs ∧ (watchdog reason s).conf.tables = s.conf.tables ∧ (watchdog reason s).sec.fuses = s.sec.fuses ∧ (watchdog reason s).pwr.fall = s.pwr.fall := by
  unfold watchdog
  (try simp)
  (repeat' split) <;> (try simp)

@[simp] theorem watchdog_sound (reason : Nat) (s : State) (hs : PagesSound s.mem.bytes s.mem.written) :
    PagesSound (watchdog reason s).mem.bytes (watchdog reason s).mem.written := by
  unfold watchdog
  (try simp [hs])
  (repeat' split) <;> (try simp [hs])

@[simp] theorem emptyPends_frame (s : State) :
    (emptyPends s).sys = s.sys ∧ (emptyPends s).pwr = s.pwr ∧ (emptyPends s).hif = s.hif ∧ (emptyPends s).conf = s.conf ∧ (emptyPends s).ing = s.ing ∧ (emptyPends s).pix = s.pix ∧ (emptyPends s).gz = s.gz ∧ (emptyPends s).lmp = s.lmp ∧ (emptyPends s).dmk = s.dmk ∧ (emptyPends s).od = s.od ∧ (emptyPends s).tmg = s.tmg ∧ (emptyPends s).pnl = s.pnl ∧ (emptyPends s).twl = s.twl ∧ (emptyPends s).cue = s.cue ∧ (emptyPends s).mem = s.mem ∧ (emptyPends s).lin = s.lin ∧ (emptyPends s).cal = s.cal ∧ (emptyPends s).gng = s.gng ∧ (emptyPends s).sec = s.sec ∧ (emptyPends s).flt = s.flt ∧ (emptyPends s).thm = s.thm ∧ (emptyPends s).trc = s.trc ∧ (emptyPends s).bst = s.bst ∧ (emptyPends s).out = s.out ∧ (emptyPends s).free = s.free ∧ (emptyPends s).pending = s.pending ∧ (emptyPends s).rings.sqs = s.rings.sqs ∧ (emptyPends s).rings.cqs = s.rings.cqs := by
  unfold emptyPends
  (try dsimp only)
  (repeat' split) <;> (try simp)

@[simp] theorem fallAsleep_frame (retain : Bool) (s : State) :
    (fallAsleep retain s).pwr = s.pwr ∧ (fallAsleep retain s).conf = s.conf ∧ (fallAsleep retain s).ing = s.ing ∧ (fallAsleep retain s).pix = s.pix ∧ (fallAsleep retain s).gz = s.gz ∧ (fallAsleep retain s).lmp = s.lmp ∧ (fallAsleep retain s).dmk = s.dmk ∧ (fallAsleep retain s).od = s.od ∧ (fallAsleep retain s).pnl = s.pnl ∧ (fallAsleep retain s).twl = s.twl ∧ (fallAsleep retain s).cue = s.cue ∧ (fallAsleep retain s).lin = s.lin ∧ (fallAsleep retain s).cal = s.cal ∧ (fallAsleep retain s).gng = s.gng ∧ (fallAsleep retain s).flt = s.flt ∧ (fallAsleep retain s).thm = s.thm ∧ (fallAsleep retain s).trc = s.trc ∧ (fallAsleep retain s).bst = s.bst ∧ (fallAsleep retain s).free = s.free ∧ (fallAsleep retain s).pending = s.pending ∧ (fallAsleep retain s).sys.fe = s.sys.fe ∧ (fallAsleep retain s).sys.lock = s.sys.lock ∧ (fallAsleep retain s).sys.stage = s.sys.stage ∧ (fallAsleep retain s).mem.bytes = s.mem.bytes ∧ (fallAsleep retain s).mem.written = s.mem.written ∧ (fallAsleep retain s).sec.fuses = s.sec.fuses ∧ (fallAsleep retain s).rings.sqs = s.rings.sqs := by
  unfold fallAsleep
  (try dsimp only)
  (repeat' split) <;> (try simp)

@[simp] theorem settleDormant_frame (s : State) :
    (settleDormant s).pwr = s.pwr ∧ (settleDormant s).conf = s.conf ∧ (settleDormant s).ing = s.ing ∧ (settleDormant s).pix = s.pix ∧ (settleDormant s).gz = s.gz ∧ (settleDormant s).lmp = s.lmp ∧ (settleDormant s).dmk = s.dmk ∧ (settleDormant s).od = s.od ∧ (settleDormant s).pnl = s.pnl ∧ (settleDormant s).twl = s.twl ∧ (settleDormant s).cue = s.cue ∧ (settleDormant s).lin = s.lin ∧ (settleDormant s).cal = s.cal ∧ (settleDormant s).gng = s.gng ∧ (settleDormant s).flt = s.flt ∧ (settleDormant s).thm = s.thm ∧ (settleDormant s).trc = s.trc ∧ (settleDormant s).bst = s.bst ∧ (settleDormant s).free = s.free ∧ (settleDormant s).pending = s.pending ∧ (settleDormant s).sys.fe = s.sys.fe ∧ (settleDormant s).sys.lock = s.sys.lock ∧ (settleDormant s).sys.stage = s.sys.stage ∧ (settleDormant s).mem.bytes = s.mem.bytes ∧ (settleDormant s).mem.written = s.mem.written ∧ (settleDormant s).sec.fuses = s.sec.fuses ∧ (settleDormant s).rings.sqs = s.rings.sqs := by
  unfold settleDormant
  (try simp)
  (repeat' split) <;> (try simp)

@[simp] theorem enterDormant_frame (t : Transit) (s : State) :
    (enterDormant t s).pwr = s.pwr ∧ (enterDormant t s).ing = s.ing ∧ (enterDormant t s).pix = s.pix ∧ (enterDormant t s).dmk = s.dmk ∧ (enterDormant t s).od = s.od ∧ (enterDormant t s).pnl = s.pnl ∧ (enterDormant t s).cue = s.cue ∧ (enterDormant t s).cal = s.cal ∧ (enterDormant t s).flt = s.flt ∧ (enterDormant t s).thm = s.thm ∧ (enterDormant t s).bst = s.bst ∧ (enterDormant t s).pending = s.pending ∧ (enterDormant t s).sys.fe = s.sys.fe ∧ (enterDormant t s).sys.lock = s.sys.lock ∧ (enterDormant t s).sys.stage = s.sys.stage ∧ (enterDormant t s).conf.regs = s.conf.regs ∧ (enterDormant t s).conf.tables = s.conf.tables ∧ (enterDormant t s).conf.live = s.conf.live ∧ (enterDormant t s).mem.bytes = s.mem.bytes ∧ (enterDormant t s).mem.written = s.mem.written ∧ (enterDormant t s).sec.fuses = s.sec.fuses ∧ (enterDormant t s).rings.sqs = s.rings.sqs := by
  unfold enterDormant
  (try dsimp only)
  (repeat' split) <;> (try simp)

@[simp] theorem hkFault_frame (pair cause : Nat) (s : State) :
    (hkFault pair cause s).od = s.od ∧ (hkFault pair cause s).thm = s.thm ∧ (hkFault pair cause s).bst = s.bst ∧ (hkFault pair cause s).pending = s.pending ∧ (hkFault pair cause s).sys.fe = s.sys.fe ∧ (hkFault pair cause s).conf.regs = s.conf.regs ∧ (hkFault pair cause s).conf.tables = s.conf.tables ∧ (hkFault pair cause s).sec.fuses = s.sec.fuses ∧ (hkFault pair cause s).pwr.fall = s.pwr.fall := by
  unfold hkFault
  (try simp)
  (repeat' split) <;> (try simp)

@[simp] theorem hkFault_sound (pair cause : Nat) (s : State) (hs : PagesSound s.mem.bytes s.mem.written) :
    PagesSound (hkFault pair cause s).mem.bytes (hkFault pair cause s).mem.written := by
  unfold hkFault
  (try simp [hs])
  (repeat' split) <;> (try simp [hs])

@[simp] theorem machineCheck_frame (s : State) :
    (machineCheck s).od = s.od ∧ (machineCheck s).thm = s.thm ∧ (machineCheck s).bst = s.bst ∧ (machineCheck s).pending = s.pending ∧ (machineCheck s).sys.fe = s.sys.fe ∧ (machineCheck s).conf.regs = s.conf.regs ∧ (machineCheck s).conf.tables = s.conf.tables ∧ (machineCheck s).sec.fuses = s.sec.fuses ∧ (machineCheck s).pwr.fall = s.pwr.fall := by
  unfold machineCheck
  (repeat' split) <;> (try simp)

@[simp] theorem machineCheck_sound (s : State) (hs : PagesSound s.mem.bytes s.mem.written) :
    PagesSound (machineCheck s).mem.bytes (machineCheck s).mem.written := by
  unfold machineCheck
  (repeat' split) <;> (try simp [hs])

@[simp] theorem listCheck_frame (l : Nat) (s : State) :
    (listCheck l s).od = s.od ∧ (listCheck l s).thm = s.thm ∧ (listCheck l s).bst = s.bst ∧ (listCheck l s).pending = s.pending ∧ (listCheck l s).sys.fe = s.sys.fe ∧ (listCheck l s).conf.regs = s.conf.regs ∧ (listCheck l s).conf.tables = s.conf.tables ∧ (listCheck l s).sec.fuses = s.sec.fuses ∧ (listCheck l s).pwr.fall = s.pwr.fall := by
  unfold listCheck
  (repeat' split) <;> (try simp)

@[simp] theorem listCheck_sound (l : Nat) (s : State) (hs : PagesSound s.mem.bytes s.mem.written) :
    PagesSound (listCheck l s).mem.bytes (listCheck l s).mem.written := by
  unfold listCheck
  (repeat' split) <;> (try simp [hs])

@[simp] theorem accLt_frame (s : State) :
    (accLt s).sys = s.sys ∧ (accLt s).pwr = s.pwr ∧ (accLt s).hif = s.hif ∧ (accLt s).rings = s.rings ∧ (accLt s).conf = s.conf ∧ (accLt s).ing = s.ing ∧ (accLt s).pix = s.pix ∧ (accLt s).gz = s.gz ∧ (accLt s).lmp = s.lmp ∧ (accLt s).dmk = s.dmk ∧ (accLt s).od = s.od ∧ (accLt s).pnl = s.pnl ∧ (accLt s).twl = s.twl ∧ (accLt s).cue = s.cue ∧ (accLt s).mem = s.mem ∧ (accLt s).lin = s.lin ∧ (accLt s).cal = s.cal ∧ (accLt s).gng = s.gng ∧ (accLt s).sec = s.sec ∧ (accLt s).flt = s.flt ∧ (accLt s).thm = s.thm ∧ (accLt s).trc = s.trc ∧ (accLt s).bst = s.bst ∧ (accLt s).out = s.out ∧ (accLt s).free = s.free ∧ (accLt s).pending = s.pending ∧ (accLt s).tmg.running = s.tmg.running := by
  unfold accLt
  (try dsimp only)
  (repeat' split) <;> (try simp)

@[simp] theorem bandMean_frame (s : State) :
    (bandMean s).sys = s.sys ∧ (bandMean s).pwr = s.pwr ∧ (bandMean s).hif = s.hif ∧ (bandMean s).rings = s.rings ∧ (bandMean s).conf = s.conf ∧ (bandMean s).ing = s.ing ∧ (bandMean s).pix = s.pix ∧ (bandMean s).gz = s.gz ∧ (bandMean s).lmp = s.lmp ∧ (bandMean s).dmk = s.dmk ∧ (bandMean s).od = s.od ∧ (bandMean s).pnl = s.pnl ∧ (bandMean s).twl = s.twl ∧ (bandMean s).cue = s.cue ∧ (bandMean s).mem = s.mem ∧ (bandMean s).lin = s.lin ∧ (bandMean s).cal = s.cal ∧ (bandMean s).gng = s.gng ∧ (bandMean s).sec = s.sec ∧ (bandMean s).flt = s.flt ∧ (bandMean s).thm = s.thm ∧ (bandMean s).trc = s.trc ∧ (bandMean s).bst = s.bst ∧ (bandMean s).out = s.out ∧ (bandMean s).free = s.free ∧ (bandMean s).pending = s.pending ∧ (bandMean s).tmg.running = s.tmg.running := by
  unfold bandMean
  (try simp)
  (repeat' split) <;> (try simp)

@[simp] theorem idleGates_frame (s : State) :
    (idleGates s).sys = s.sys ∧ (idleGates s).pwr = s.pwr ∧ (idleGates s).hif = s.hif ∧ (idleGates s).rings = s.rings ∧ (idleGates s).conf = s.conf ∧ (idleGates s).ing = s.ing ∧ (idleGates s).pix = s.pix ∧ (idleGates s).gz = s.gz ∧ (idleGates s).lmp = s.lmp ∧ (idleGates s).dmk = s.dmk ∧ (idleGates s).od = s.od ∧ (idleGates s).pnl = s.pnl ∧ (idleGates s).twl = s.twl ∧ (idleGates s).cue = s.cue ∧ (idleGates s).mem = s.mem ∧ (idleGates s).lin = s.lin ∧ (idleGates s).cal = s.cal ∧ (idleGates s).gng = s.gng ∧ (idleGates s).sec = s.sec ∧ (idleGates s).flt = s.flt ∧ (idleGates s).thm = s.thm ∧ (idleGates s).trc = s.trc ∧ (idleGates s).bst = s.bst ∧ (idleGates s).out = s.out ∧ (idleGates s).free = s.free ∧ (idleGates s).pending = s.pending ∧ (idleGates s).tmg.running = s.tmg.running := by
  unfold idleGates
  (try dsimp only)
  (repeat' split) <;> (try simp)

@[simp] theorem runGates_frame (s : State) :
    (runGates s).sys = s.sys ∧ (runGates s).pwr = s.pwr ∧ (runGates s).hif = s.hif ∧ (runGates s).rings = s.rings ∧ (runGates s).conf = s.conf ∧ (runGates s).ing = s.ing ∧ (runGates s).pix = s.pix ∧ (runGates s).gz = s.gz ∧ (runGates s).lmp = s.lmp ∧ (runGates s).dmk = s.dmk ∧ (runGates s).od = s.od ∧ (runGates s).pnl = s.pnl ∧ (runGates s).twl = s.twl ∧ (runGates s).cue = s.cue ∧ (runGates s).mem = s.mem ∧ (runGates s).lin = s.lin ∧ (runGates s).cal = s.cal ∧ (runGates s).gng = s.gng ∧ (runGates s).sec = s.sec ∧ (runGates s).flt = s.flt ∧ (runGates s).thm = s.thm ∧ (runGates s).trc = s.trc ∧ (runGates s).bst = s.bst ∧ (runGates s).free = s.free ∧ (runGates s).pending = s.pending ∧ (runGates s).tmg.running = s.tmg.running := by
  unfold runGates
  (try simp)
  (repeat' split) <;> (try simp)

@[simp] theorem portLine_frame (y : Nat) (b : LineBuf) (p : Nat × PortCfg) (s : State) :
    (portLine y b p s).sys = s.sys ∧ (portLine y b p s).pwr = s.pwr ∧ (portLine y b p s).hif = s.hif ∧ (portLine y b p s).rings = s.rings ∧ (portLine y b p s).conf = s.conf ∧ (portLine y b p s).ing = s.ing ∧ (portLine y b p s).pix = s.pix ∧ (portLine y b p s).gz = s.gz ∧ (portLine y b p s).lmp = s.lmp ∧ (portLine y b p s).dmk = s.dmk ∧ (portLine y b p s).od = s.od ∧ (portLine y b p s).tmg = s.tmg ∧ (portLine y b p s).pnl = s.pnl ∧ (portLine y b p s).cue = s.cue ∧ (portLine y b p s).mem = s.mem ∧ (portLine y b p s).lin = s.lin ∧ (portLine y b p s).cal = s.cal ∧ (portLine y b p s).gng = s.gng ∧ (portLine y b p s).sec = s.sec ∧ (portLine y b p s).flt = s.flt ∧ (portLine y b p s).thm = s.thm ∧ (portLine y b p s).trc = s.trc ∧ (portLine y b p s).bst = s.bst ∧ (portLine y b p s).free = s.free ∧ (portLine y b p s).pending = s.pending := by
  unfold portLine
  (try simp)
  (repeat' split) <;> (try simp)

@[simp] theorem writeHistory_frame (y : Nat) (b : LineBuf) (s : State) :
    (writeHistory y b s).sys = s.sys ∧ (writeHistory y b s).pwr = s.pwr ∧ (writeHistory y b s).hif = s.hif ∧ (writeHistory y b s).rings = s.rings ∧ (writeHistory y b s).conf = s.conf ∧ (writeHistory y b s).ing = s.ing ∧ (writeHistory y b s).pix = s.pix ∧ (writeHistory y b s).gz = s.gz ∧ (writeHistory y b s).lmp = s.lmp ∧ (writeHistory y b s).dmk = s.dmk ∧ (writeHistory y b s).od = s.od ∧ (writeHistory y b s).tmg = s.tmg ∧ (writeHistory y b s).pnl = s.pnl ∧ (writeHistory y b s).twl = s.twl ∧ (writeHistory y b s).cue = s.cue ∧ (writeHistory y b s).lin = s.lin ∧ (writeHistory y b s).cal = s.cal ∧ (writeHistory y b s).gng = s.gng ∧ (writeHistory y b s).sec = s.sec ∧ (writeHistory y b s).flt = s.flt ∧ (writeHistory y b s).thm = s.thm ∧ (writeHistory y b s).trc = s.trc ∧ (writeHistory y b s).bst = s.bst ∧ (writeHistory y b s).out = s.out ∧ (writeHistory y b s).free = s.free ∧ (writeHistory y b s).pending = s.pending := by
  unfold writeHistory
  (try dsimp only)
  (repeat' split) <;> (try simp)

@[simp] theorem writeHistory_sound (y : Nat) (b : LineBuf) (s : State) (hs : PagesSound s.mem.bytes s.mem.written) :
    PagesSound (writeHistory y b s).mem.bytes (writeHistory y b s).mem.written := by
  unfold writeHistory
  (try simp [hs])
  (repeat' split) <;> (try simp [hs])

@[simp] theorem countCodes_frame (y : Nat) (b : LineBuf) (s : State) :
    (countCodes y b s).sys = s.sys ∧ (countCodes y b s).pwr = s.pwr ∧ (countCodes y b s).hif = s.hif ∧ (countCodes y b s).rings = s.rings ∧ (countCodes y b s).conf = s.conf ∧ (countCodes y b s).ing = s.ing ∧ (countCodes y b s).pix = s.pix ∧ (countCodes y b s).gz = s.gz ∧ (countCodes y b s).lmp = s.lmp ∧ (countCodes y b s).dmk = s.dmk ∧ (countCodes y b s).od = s.od ∧ (countCodes y b s).pnl = s.pnl ∧ (countCodes y b s).twl = s.twl ∧ (countCodes y b s).cue = s.cue ∧ (countCodes y b s).mem = s.mem ∧ (countCodes y b s).lin = s.lin ∧ (countCodes y b s).cal = s.cal ∧ (countCodes y b s).gng = s.gng ∧ (countCodes y b s).sec = s.sec ∧ (countCodes y b s).flt = s.flt ∧ (countCodes y b s).thm = s.thm ∧ (countCodes y b s).trc = s.trc ∧ (countCodes y b s).bst = s.bst ∧ (countCodes y b s).out = s.out ∧ (countCodes y b s).free = s.free ∧ (countCodes y b s).pending = s.pending ∧ (countCodes y b s).tmg.running = s.tmg.running := by
  unfold countCodes
  (try dsimp only)
  (repeat' split) <;> (try simp)

@[simp] theorem sendDischarge_frame (s : State) :
    (sendDischarge s).sys = s.sys ∧ (sendDischarge s).pwr = s.pwr ∧ (sendDischarge s).hif = s.hif ∧ (sendDischarge s).rings = s.rings ∧ (sendDischarge s).conf = s.conf ∧ (sendDischarge s).ing = s.ing ∧ (sendDischarge s).pix = s.pix ∧ (sendDischarge s).gz = s.gz ∧ (sendDischarge s).lmp = s.lmp ∧ (sendDischarge s).dmk = s.dmk ∧ (sendDischarge s).od = s.od ∧ (sendDischarge s).tmg = s.tmg ∧ (sendDischarge s).pnl = s.pnl ∧ (sendDischarge s).cue = s.cue ∧ (sendDischarge s).mem = s.mem ∧ (sendDischarge s).lin = s.lin ∧ (sendDischarge s).cal = s.cal ∧ (sendDischarge s).gng = s.gng ∧ (sendDischarge s).sec = s.sec ∧ (sendDischarge s).flt = s.flt ∧ (sendDischarge s).thm = s.thm ∧ (sendDischarge s).trc = s.trc ∧ (sendDischarge s).bst = s.bst ∧ (sendDischarge s).free = s.free ∧ (sendDischarge s).pending = s.pending := by
  unfold sendDischarge
  (try dsimp only)
  (repeat' split) <;> (try simp)

@[simp] theorem dskGroup_frame (g : Nat) (s : State) :
    (dskGroup g s).sys = s.sys ∧ (dskGroup g s).pwr = s.pwr ∧ (dskGroup g s).hif = s.hif ∧ (dskGroup g s).rings = s.rings ∧ (dskGroup g s).conf = s.conf ∧ (dskGroup g s).ing = s.ing ∧ (dskGroup g s).pix = s.pix ∧ (dskGroup g s).gz = s.gz ∧ (dskGroup g s).lmp = s.lmp ∧ (dskGroup g s).dmk = s.dmk ∧ (dskGroup g s).od = s.od ∧ (dskGroup g s).tmg = s.tmg ∧ (dskGroup g s).pnl = s.pnl ∧ (dskGroup g s).cue = s.cue ∧ (dskGroup g s).mem = s.mem ∧ (dskGroup g s).lin = s.lin ∧ (dskGroup g s).cal = s.cal ∧ (dskGroup g s).gng = s.gng ∧ (dskGroup g s).sec = s.sec ∧ (dskGroup g s).flt = s.flt ∧ (dskGroup g s).thm = s.thm ∧ (dskGroup g s).trc = s.trc ∧ (dskGroup g s).bst = s.bst ∧ (dskGroup g s).free = s.free ∧ (dskGroup g s).pending = s.pending := by
  unfold dskGroup
  (try dsimp only)
  (repeat' split) <;> (try simp)

@[simp] theorem sendDsk_frame (s : State) :
    (sendDsk s).sys = s.sys ∧ (sendDsk s).pwr = s.pwr ∧ (sendDsk s).hif = s.hif ∧ (sendDsk s).rings = s.rings ∧ (sendDsk s).conf = s.conf ∧ (sendDsk s).ing = s.ing ∧ (sendDsk s).pix = s.pix ∧ (sendDsk s).gz = s.gz ∧ (sendDsk s).lmp = s.lmp ∧ (sendDsk s).dmk = s.dmk ∧ (sendDsk s).od = s.od ∧ (sendDsk s).tmg = s.tmg ∧ (sendDsk s).pnl = s.pnl ∧ (sendDsk s).cue = s.cue ∧ (sendDsk s).mem = s.mem ∧ (sendDsk s).lin = s.lin ∧ (sendDsk s).cal = s.cal ∧ (sendDsk s).gng = s.gng ∧ (sendDsk s).sec = s.sec ∧ (sendDsk s).flt = s.flt ∧ (sendDsk s).thm = s.thm ∧ (sendDsk s).trc = s.trc ∧ (sendDsk s).bst = s.bst ∧ (sendDsk s).free = s.free ∧ (sendDsk s).pending = s.pending := by
  unfold sendDsk
  (try dsimp only)
  (repeat' split) <;> (try simp)

@[simp] theorem emitSlot_frame (s : State) :
    (emitSlot s).sys = s.sys ∧ (emitSlot s).pwr = s.pwr ∧ (emitSlot s).hif = s.hif ∧ (emitSlot s).rings = s.rings ∧ (emitSlot s).conf = s.conf ∧ (emitSlot s).ing = s.ing ∧ (emitSlot s).gz = s.gz ∧ (emitSlot s).lmp = s.lmp ∧ (emitSlot s).dmk = s.dmk ∧ (emitSlot s).od = s.od ∧ (emitSlot s).pnl = s.pnl ∧ (emitSlot s).cue = s.cue ∧ (emitSlot s).lin = s.lin ∧ (emitSlot s).cal = s.cal ∧ (emitSlot s).gng = s.gng ∧ (emitSlot s).sec = s.sec ∧ (emitSlot s).flt = s.flt ∧ (emitSlot s).thm = s.thm ∧ (emitSlot s).trc = s.trc ∧ (emitSlot s).bst = s.bst ∧ (emitSlot s).free = s.free ∧ (emitSlot s).pending = s.pending ∧ (emitSlot s).tmg.running = s.tmg.running := by
  unfold emitSlot
  (try simp)
  (repeat' split) <;> (try simp)

@[simp] theorem emitSlot_sound (s : State) (hs : PagesSound s.mem.bytes s.mem.written) :
    PagesSound (emitSlot s).mem.bytes (emitSlot s).mem.written := by
  unfold emitSlot
  (try simp [hs])
  (repeat' split) <;> (try simp [hs])

@[simp] theorem echoSlot_frame (echo : List (Nat × Nat)) (s : State) :
    (echoSlot echo s).sys = s.sys ∧ (echoSlot echo s).pwr = s.pwr ∧ (echoSlot echo s).conf = s.conf ∧ (echoSlot echo s).ing = s.ing ∧ (echoSlot echo s).pix = s.pix ∧ (echoSlot echo s).gz = s.gz ∧ (echoSlot echo s).lmp = s.lmp ∧ (echoSlot echo s).dmk = s.dmk ∧ (echoSlot echo s).od = s.od ∧ (echoSlot echo s).tmg = s.tmg ∧ (echoSlot echo s).pnl = s.pnl ∧ (echoSlot echo s).cue = s.cue ∧ (echoSlot echo s).mem = s.mem ∧ (echoSlot echo s).cal = s.cal ∧ (echoSlot echo s).gng = s.gng ∧ (echoSlot echo s).sec = s.sec ∧ (echoSlot echo s).flt = s.flt ∧ (echoSlot echo s).thm = s.thm ∧ (echoSlot echo s).bst = s.bst ∧ (echoSlot echo s).pending = s.pending ∧ (echoSlot echo s).hif.power = s.hif.power ∧ (echoSlot echo s).hif.d3hot = s.hif.d3hot ∧ (echoSlot echo s).rings.sqs = s.rings.sqs := by
  unfold echoSlot
  (try dsimp only)
  (repeat' split) <;> (try simp (disch := (intros; (repeat' split) <;> (try simp))))

@[simp] theorem engineReads_frame (f : Frame) (y : Nat) (s : State) :
    (engineReads f y s).sys = s.sys ∧ (engineReads f y s).pwr = s.pwr ∧ (engineReads f y s).conf = s.conf ∧ (engineReads f y s).ing = s.ing ∧ (engineReads f y s).pix = s.pix ∧ (engineReads f y s).gz = s.gz ∧ (engineReads f y s).lmp = s.lmp ∧ (engineReads f y s).dmk = s.dmk ∧ (engineReads f y s).od = s.od ∧ (engineReads f y s).tmg = s.tmg ∧ (engineReads f y s).pnl = s.pnl ∧ (engineReads f y s).twl = s.twl ∧ (engineReads f y s).cue = s.cue ∧ (engineReads f y s).cal = s.cal ∧ (engineReads f y s).gng = s.gng ∧ (engineReads f y s).sec = s.sec ∧ (engineReads f y s).flt = s.flt ∧ (engineReads f y s).thm = s.thm ∧ (engineReads f y s).trc = s.trc ∧ (engineReads f y s).bst = s.bst ∧ (engineReads f y s).pending = s.pending ∧ (engineReads f y s).mem.bytes = s.mem.bytes ∧ (engineReads f y s).mem.written = s.mem.written ∧ (engineReads f y s).hif.power = s.hif.power ∧ (engineReads f y s).hif.d3hot = s.hif.d3hot ∧ (engineReads f y s).rings.sqs = s.rings.sqs := by
  unfold engineReads
  (try simp)
  (repeat' split) <;> (try simp)

@[simp] theorem zoneTicks_frame (s : State) :
    (zoneTicks s).sys = s.sys ∧ (zoneTicks s).pwr = s.pwr ∧ (zoneTicks s).conf = s.conf ∧ (zoneTicks s).ing = s.ing ∧ (zoneTicks s).pix = s.pix ∧ (zoneTicks s).dmk = s.dmk ∧ (zoneTicks s).od = s.od ∧ (zoneTicks s).tmg = s.tmg ∧ (zoneTicks s).pnl = s.pnl ∧ (zoneTicks s).twl = s.twl ∧ (zoneTicks s).cue = s.cue ∧ (zoneTicks s).mem = s.mem ∧ (zoneTicks s).lin = s.lin ∧ (zoneTicks s).cal = s.cal ∧ (zoneTicks s).sec = s.sec ∧ (zoneTicks s).flt = s.flt ∧ (zoneTicks s).thm = s.thm ∧ (zoneTicks s).bst = s.bst ∧ (zoneTicks s).pending = s.pending ∧ (zoneTicks s).hif.power = s.hif.power ∧ (zoneTicks s).hif.bme0 = s.hif.bme0 ∧ (zoneTicks s).hif.bme1 = s.hif.bme1 ∧ (zoneTicks s).hif.d3hot = s.hif.d3hot ∧ (zoneTicks s).rings.sqs = s.rings.sqs ∧ (zoneTicks s).rings.cqs = s.rings.cqs ∧ (zoneTicks s).rings.eq0 = s.rings.eq0 ∧ (zoneTicks s).rings.eq1 = s.rings.eq1 := by
  unfold zoneTicks
  (try simp)
  (repeat' split) <;> (try simp)

@[simp] theorem endSlot_frame (s : State) :
    (endSlot s).sys = s.sys ∧ (endSlot s).pwr = s.pwr ∧ (endSlot s).conf = s.conf ∧ (endSlot s).dmk = s.dmk ∧ (endSlot s).od = s.od ∧ (endSlot s).pnl = s.pnl ∧ (endSlot s).twl = s.twl ∧ (endSlot s).cue = s.cue ∧ (endSlot s).cal = s.cal ∧ (endSlot s).sec = s.sec ∧ (endSlot s).flt = s.flt ∧ (endSlot s).thm = s.thm ∧ (endSlot s).bst = s.bst ∧ (endSlot s).pending = s.pending ∧ (endSlot s).hif.power = s.hif.power ∧ (endSlot s).hif.d3hot = s.hif.d3hot ∧ (endSlot s).tmg.running = s.tmg.running ∧ (endSlot s).rings.sqs = s.rings.sqs := by
  unfold endSlot
  (try simp)
  (repeat' split) <;> (try simp)

@[simp] theorem endSlot_sound (s : State) (hs : PagesSound s.mem.bytes s.mem.written) :
    PagesSound (endSlot s).mem.bytes (endSlot s).mem.written := by
  unfold endSlot
  (try dsimp only)
  (repeat' split) <;> (repeat' (first | assumption | with_reducible apply judgeDue_sound | with_reducible apply writeMemOf_sound | with_reducible apply clearPages_sound | with_reducible apply empty_sound | with_reducible apply forAll_sound | with_reducible apply foldl_sound | (intro _) | split | simp))

@[simp] theorem lineMatches_frame (s : State) :
    (lineMatches s).sys = s.sys ∧ (lineMatches s).pwr = s.pwr ∧ (lineMatches s).conf = s.conf ∧ (lineMatches s).ing = s.ing ∧ (lineMatches s).pix = s.pix ∧ (lineMatches s).gz = s.gz ∧ (lineMatches s).lmp = s.lmp ∧ (lineMatches s).dmk = s.dmk ∧ (lineMatches s).od = s.od ∧ (lineMatches s).pnl = s.pnl ∧ (lineMatches s).twl = s.twl ∧ (lineMatches s).cue = s.cue ∧ (lineMatches s).mem = s.mem ∧ (lineMatches s).lin = s.lin ∧ (lineMatches s).cal = s.cal ∧ (lineMatches s).gng = s.gng ∧ (lineMatches s).sec = s.sec ∧ (lineMatches s).flt = s.flt ∧ (lineMatches s).thm = s.thm ∧ (lineMatches s).trc = s.trc ∧ (lineMatches s).bst = s.bst ∧ (lineMatches s).free = s.free ∧ (lineMatches s).pending = s.pending ∧ (lineMatches s).hif.power = s.hif.power ∧ (lineMatches s).hif.d3hot = s.hif.d3hot ∧ (lineMatches s).tmg.running = s.tmg.running ∧ (lineMatches s).rings.sqs = s.rings.sqs := by
  unfold lineMatches
  (try dsimp only)
  (repeat' split) <;> (try simp (disch := (intros; (repeat' split) <;> (try simp))))

@[simp] theorem postEcho_frame (s : State) :
    (postEcho s).sys = s.sys ∧ (postEcho s).pwr = s.pwr ∧ (postEcho s).conf = s.conf ∧ (postEcho s).ing = s.ing ∧ (postEcho s).pix = s.pix ∧ (postEcho s).gz = s.gz ∧ (postEcho s).lmp = s.lmp ∧ (postEcho s).dmk = s.dmk ∧ (postEcho s).od = s.od ∧ (postEcho s).tmg = s.tmg ∧ (postEcho s).pnl = s.pnl ∧ (postEcho s).cue = s.cue ∧ (postEcho s).mem = s.mem ∧ (postEcho s).lin = s.lin ∧ (postEcho s).cal = s.cal ∧ (postEcho s).gng = s.gng ∧ (postEcho s).sec = s.sec ∧ (postEcho s).flt = s.flt ∧ (postEcho s).thm = s.thm ∧ (postEcho s).trc = s.trc ∧ (postEcho s).bst = s.bst ∧ (postEcho s).free = s.free ∧ (postEcho s).pending = s.pending ∧ (postEcho s).hif.power = s.hif.power ∧ (postEcho s).hif.bme0 = s.hif.bme0 ∧ (postEcho s).hif.bme1 = s.hif.bme1 ∧ (postEcho s).hif.d3hot = s.hif.d3hot ∧ (postEcho s).rings.sqs = s.rings.sqs := by
  unfold postEcho
  (try simp)
  (repeat' split) <;> (try simp)

@[simp] theorem frameEvents_frame (s : State) :
    (frameEvents s).sys = s.sys ∧ (frameEvents s).pwr = s.pwr ∧ (frameEvents s).conf = s.conf ∧ (frameEvents s).ing = s.ing ∧ (frameEvents s).pix = s.pix ∧ (frameEvents s).gz = s.gz ∧ (frameEvents s).lmp = s.lmp ∧ (frameEvents s).dmk = s.dmk ∧ (frameEvents s).od = s.od ∧ (frameEvents s).tmg = s.tmg ∧ (frameEvents s).pnl = s.pnl ∧ (frameEvents s).cue = s.cue ∧ (frameEvents s).mem = s.mem ∧ (frameEvents s).lin = s.lin ∧ (frameEvents s).cal = s.cal ∧ (frameEvents s).gng = s.gng ∧ (frameEvents s).sec = s.sec ∧ (frameEvents s).flt = s.flt ∧ (frameEvents s).thm = s.thm ∧ (frameEvents s).trc = s.trc ∧ (frameEvents s).bst = s.bst ∧ (frameEvents s).free = s.free ∧ (frameEvents s).pending = s.pending ∧ (frameEvents s).hif.power = s.hif.power ∧ (frameEvents s).hif.bme0 = s.hif.bme0 ∧ (frameEvents s).hif.bme1 = s.hif.bme1 ∧ (frameEvents s).hif.d3hot = s.hif.d3hot ∧ (frameEvents s).rings.sqs = s.rings.sqs := by
  unfold frameEvents
  (try simp)
  (repeat' split) <;> (try simp)

@[simp] theorem updatesShown_frame (s : State) :
    (updatesShown s).sys = s.sys ∧ (updatesShown s).pwr = s.pwr ∧ (updatesShown s).conf = s.conf ∧ (updatesShown s).ing = s.ing ∧ (updatesShown s).pix = s.pix ∧ (updatesShown s).gz = s.gz ∧ (updatesShown s).lmp = s.lmp ∧ (updatesShown s).dmk = s.dmk ∧ (updatesShown s).od = s.od ∧ (updatesShown s).tmg = s.tmg ∧ (updatesShown s).pnl = s.pnl ∧ (updatesShown s).twl = s.twl ∧ (updatesShown s).mem = s.mem ∧ (updatesShown s).lin = s.lin ∧ (updatesShown s).cal = s.cal ∧ (updatesShown s).gng = s.gng ∧ (updatesShown s).sec = s.sec ∧ (updatesShown s).flt = s.flt ∧ (updatesShown s).thm = s.thm ∧ (updatesShown s).trc = s.trc ∧ (updatesShown s).bst = s.bst ∧ (updatesShown s).free = s.free ∧ (updatesShown s).pending = s.pending ∧ (updatesShown s).hif.power = s.hif.power ∧ (updatesShown s).hif.d3hot = s.hif.d3hot ∧ (updatesShown s).rings.sqs = s.rings.sqs := by
  unfold updatesShown
  (try dsimp only)
  (repeat' split) <;> (try simp)

@[simp] theorem countOff_frame (s : State) :
    (countOff s).sys = s.sys ∧ (countOff s).pwr = s.pwr ∧ (countOff s).hif = s.hif ∧ (countOff s).rings = s.rings ∧ (countOff s).conf = s.conf ∧ (countOff s).ing = s.ing ∧ (countOff s).pix = s.pix ∧ (countOff s).gz = s.gz ∧ (countOff s).lmp = s.lmp ∧ (countOff s).dmk = s.dmk ∧ (countOff s).tmg = s.tmg ∧ (countOff s).pnl = s.pnl ∧ (countOff s).twl = s.twl ∧ (countOff s).cue = s.cue ∧ (countOff s).mem = s.mem ∧ (countOff s).lin = s.lin ∧ (countOff s).cal = s.cal ∧ (countOff s).gng = s.gng ∧ (countOff s).sec = s.sec ∧ (countOff s).flt = s.flt ∧ (countOff s).thm = s.thm ∧ (countOff s).trc = s.trc ∧ (countOff s).bst = s.bst ∧ (countOff s).out = s.out ∧ (countOff s).free = s.free ∧ (countOff s).pending = s.pending := by
  unfold countOff
  (try dsimp only)
  (repeat' split) <;> (try simp)

@[simp] theorem scanEnd_frame (checkers : List CheckerView) (s : State) :
    (scanEnd checkers s).sys = s.sys ∧ (scanEnd checkers s).pwr = s.pwr ∧ (scanEnd checkers s).conf = s.conf ∧ (scanEnd checkers s).pix = s.pix ∧ (scanEnd checkers s).gz = s.gz ∧ (scanEnd checkers s).lmp = s.lmp ∧ (scanEnd checkers s).dmk = s.dmk ∧ (scanEnd checkers s).pnl = s.pnl ∧ (scanEnd checkers s).cal = s.cal ∧ (scanEnd checkers s).gng = s.gng ∧ (scanEnd checkers s).sec = s.sec ∧ (scanEnd checkers s).thm = s.thm ∧ (scanEnd checkers s).bst = s.bst ∧ (scanEnd checkers s).pending = s.pending ∧ (scanEnd checkers s).hif.power = s.hif.power ∧ (scanEnd checkers s).hif.d3hot = s.hif.d3hot ∧ (scanEnd checkers s).tmg.running = s.tmg.running ∧ (scanEnd checkers s).rings.sqs = s.rings.sqs := by
  unfold scanEnd
  (try dsimp only)
  (repeat' split) <;> (try simp)

@[simp] theorem scanEnd_sound (checkers : List CheckerView) (s : State) (hs : PagesSound s.mem.bytes s.mem.written) :
    PagesSound (scanEnd checkers s).mem.bytes (scanEnd checkers s).mem.written := by
  unfold scanEnd
  (try dsimp only)
  (repeat' split) <;> (try simp [hs])

@[simp] theorem quietGroup_frame (g : Nat) (s : State) :
    (quietGroup g s).sys = s.sys ∧ (quietGroup g s).pwr = s.pwr ∧ (quietGroup g s).hif = s.hif ∧ (quietGroup g s).rings = s.rings ∧ (quietGroup g s).conf = s.conf ∧ (quietGroup g s).ing = s.ing ∧ (quietGroup g s).pix = s.pix ∧ (quietGroup g s).gz = s.gz ∧ (quietGroup g s).lmp = s.lmp ∧ (quietGroup g s).dmk = s.dmk ∧ (quietGroup g s).od = s.od ∧ (quietGroup g s).tmg = s.tmg ∧ (quietGroup g s).pnl = s.pnl ∧ (quietGroup g s).cue = s.cue ∧ (quietGroup g s).mem = s.mem ∧ (quietGroup g s).lin = s.lin ∧ (quietGroup g s).cal = s.cal ∧ (quietGroup g s).gng = s.gng ∧ (quietGroup g s).sec = s.sec ∧ (quietGroup g s).flt = s.flt ∧ (quietGroup g s).thm = s.thm ∧ (quietGroup g s).trc = s.trc ∧ (quietGroup g s).bst = s.bst ∧ (quietGroup g s).free = s.free ∧ (quietGroup g s).pending = s.pending := by
  unfold quietGroup
  (try dsimp only)
  (repeat' split) <;> (try simp)

@[simp] theorem enterQuiet_frame (s : State) :
    (enterQuiet s).sys = s.sys ∧ (enterQuiet s).pwr = s.pwr ∧ (enterQuiet s).hif = s.hif ∧ (enterQuiet s).rings = s.rings ∧ (enterQuiet s).conf = s.conf ∧ (enterQuiet s).ing = s.ing ∧ (enterQuiet s).pix = s.pix ∧ (enterQuiet s).gz = s.gz ∧ (enterQuiet s).lmp = s.lmp ∧ (enterQuiet s).dmk = s.dmk ∧ (enterQuiet s).od = s.od ∧ (enterQuiet s).tmg = s.tmg ∧ (enterQuiet s).pnl = s.pnl ∧ (enterQuiet s).cue = s.cue ∧ (enterQuiet s).mem = s.mem ∧ (enterQuiet s).lin = s.lin ∧ (enterQuiet s).cal = s.cal ∧ (enterQuiet s).gng = s.gng ∧ (enterQuiet s).sec = s.sec ∧ (enterQuiet s).flt = s.flt ∧ (enterQuiet s).thm = s.thm ∧ (enterQuiet s).trc = s.trc ∧ (enterQuiet s).bst = s.bst ∧ (enterQuiet s).free = s.free ∧ (enterQuiet s).pending = s.pending := by
  unfold enterQuiet
  (try dsimp only)
  (repeat' split) <;> (try simp)

@[simp] theorem stopQuiet_frame (s : State) :
    (stopQuiet s).sys = s.sys ∧ (stopQuiet s).pwr = s.pwr ∧ (stopQuiet s).hif = s.hif ∧ (stopQuiet s).rings = s.rings ∧ (stopQuiet s).conf = s.conf ∧ (stopQuiet s).ing = s.ing ∧ (stopQuiet s).pix = s.pix ∧ (stopQuiet s).gz = s.gz ∧ (stopQuiet s).lmp = s.lmp ∧ (stopQuiet s).dmk = s.dmk ∧ (stopQuiet s).od = s.od ∧ (stopQuiet s).tmg = s.tmg ∧ (stopQuiet s).pnl = s.pnl ∧ (stopQuiet s).cue = s.cue ∧ (stopQuiet s).mem = s.mem ∧ (stopQuiet s).lin = s.lin ∧ (stopQuiet s).cal = s.cal ∧ (stopQuiet s).gng = s.gng ∧ (stopQuiet s).sec = s.sec ∧ (stopQuiet s).flt = s.flt ∧ (stopQuiet s).thm = s.thm ∧ (stopQuiet s).trc = s.trc ∧ (stopQuiet s).bst = s.bst ∧ (stopQuiet s).free = s.free ∧ (stopQuiet s).pending = s.pending := by
  unfold stopQuiet
  (repeat' split) <;> (try simp)

@[simp] theorem fixedQuietEnd_frame (s : State) :
    (fixedQuietEnd s).sys = s.sys ∧ (fixedQuietEnd s).pwr = s.pwr ∧ (fixedQuietEnd s).hif = s.hif ∧ (fixedQuietEnd s).rings = s.rings ∧ (fixedQuietEnd s).conf = s.conf ∧ (fixedQuietEnd s).ing = s.ing ∧ (fixedQuietEnd s).pix = s.pix ∧ (fixedQuietEnd s).gz = s.gz ∧ (fixedQuietEnd s).lmp = s.lmp ∧ (fixedQuietEnd s).dmk = s.dmk ∧ (fixedQuietEnd s).od = s.od ∧ (fixedQuietEnd s).tmg = s.tmg ∧ (fixedQuietEnd s).pnl = s.pnl ∧ (fixedQuietEnd s).cue = s.cue ∧ (fixedQuietEnd s).mem = s.mem ∧ (fixedQuietEnd s).lin = s.lin ∧ (fixedQuietEnd s).cal = s.cal ∧ (fixedQuietEnd s).gng = s.gng ∧ (fixedQuietEnd s).sec = s.sec ∧ (fixedQuietEnd s).flt = s.flt ∧ (fixedQuietEnd s).thm = s.thm ∧ (fixedQuietEnd s).trc = s.trc ∧ (fixedQuietEnd s).bst = s.bst ∧ (fixedQuietEnd s).free = s.free ∧ (fixedQuietEnd s).pending = s.pending := by
  unfold fixedQuietEnd
  (try dsimp only)
  (repeat' split) <;> (try simp)

@[simp] theorem openRows_frame (s : State) :
    (openRows s).sys = s.sys ∧ (openRows s).pwr = s.pwr ∧ (openRows s).hif = s.hif ∧ (openRows s).rings = s.rings ∧ (openRows s).conf = s.conf ∧ (openRows s).ing = s.ing ∧ (openRows s).pix = s.pix ∧ (openRows s).lmp = s.lmp ∧ (openRows s).dmk = s.dmk ∧ (openRows s).od = s.od ∧ (openRows s).tmg = s.tmg ∧ (openRows s).pnl = s.pnl ∧ (openRows s).twl = s.twl ∧ (openRows s).cue = s.cue ∧ (openRows s).mem = s.mem ∧ (openRows s).lin = s.lin ∧ (openRows s).cal = s.cal ∧ (openRows s).gng = s.gng ∧ (openRows s).sec = s.sec ∧ (openRows s).flt = s.flt ∧ (openRows s).thm = s.thm ∧ (openRows s).trc = s.trc ∧ (openRows s).bst = s.bst ∧ (openRows s).out = s.out ∧ (openRows s).free = s.free ∧ (openRows s).pending = s.pending := by
  unfold openRows
  (try dsimp only)
  (repeat' split) <;> (try simp)

@[simp] theorem wantPanel_frame (s : State) :
    (wantPanel s).sys = s.sys ∧ (wantPanel s).pwr = s.pwr ∧ (wantPanel s).conf = s.conf ∧ (wantPanel s).ing = s.ing ∧ (wantPanel s).pix = s.pix ∧ (wantPanel s).gz = s.gz ∧ (wantPanel s).lmp = s.lmp ∧ (wantPanel s).dmk = s.dmk ∧ (wantPanel s).od = s.od ∧ (wantPanel s).tmg = s.tmg ∧ (wantPanel s).twl = s.twl ∧ (wantPanel s).cue = s.cue ∧ (wantPanel s).mem = s.mem ∧ (wantPanel s).lin = s.lin ∧ (wantPanel s).cal = s.cal ∧ (wantPanel s).gng = s.gng ∧ (wantPanel s).sec = s.sec ∧ (wantPanel s).flt = s.flt ∧ (wantPanel s).thm = s.thm ∧ (wantPanel s).bst = s.bst ∧ (wantPanel s).pending = s.pending ∧ (wantPanel s).hif.power = s.hif.power ∧ (wantPanel s).hif.bme0 = s.hif.bme0 ∧ (wantPanel s).hif.bme1 = s.hif.bme1 ∧ (wantPanel s).hif.d3hot = s.hif.d3hot ∧ (wantPanel s).rings.sqs = s.rings.sqs ∧ (wantPanel s).rings.cqs = s.rings.cqs ∧ (wantPanel s).rings.eq0 = s.rings.eq0 ∧ (wantPanel s).rings.eq1 = s.rings.eq1 := by
  unfold wantPanel
  (try simp)
  (repeat' split) <;> (try simp)

@[simp] theorem markLatch_frame (s : State) :
    (markLatch s).pwr = s.pwr ∧ (markLatch s).conf = s.conf ∧ (markLatch s).pix = s.pix ∧ (markLatch s).gz = s.gz ∧ (markLatch s).lmp = s.lmp ∧ (markLatch s).dmk = s.dmk ∧ (markLatch s).od = s.od ∧ (markLatch s).tmg = s.tmg ∧ (markLatch s).pnl = s.pnl ∧ (markLatch s).twl = s.twl ∧ (markLatch s).cue = s.cue ∧ (markLatch s).mem = s.mem ∧ (markLatch s).lin = s.lin ∧ (markLatch s).cal = s.cal ∧ (markLatch s).gng = s.gng ∧ (markLatch s).sec = s.sec ∧ (markLatch s).flt = s.flt ∧ (markLatch s).thm = s.thm ∧ (markLatch s).bst = s.bst ∧ (markLatch s).pending = s.pending ∧ (markLatch s).sys.mode = s.sys.mode ∧ (markLatch s).sys.fe = s.sys.fe ∧ (markLatch s).sys.lock = s.sys.lock ∧ (markLatch s).sys.serving = s.sys.serving ∧ (markLatch s).sys.stage = s.sys.stage ∧ (markLatch s).hif.power = s.hif.power ∧ (markLatch s).hif.bme0 = s.hif.bme0 ∧ (markLatch s).hif.bme1 = s.hif.bme1 ∧ (markLatch s).hif.d3hot = s.hif.d3hot ∧ (markLatch s).rings.sqs = s.rings.sqs ∧ (markLatch s).rings.cqs = s.rings.cqs ∧ (markLatch s).rings.eq0 = s.rings.eq0 ∧ (markLatch s).rings.eq1 = s.rings.eq1 := by
  unfold markLatch
  (try dsimp only)
  (repeat' split) <;> (try simp)

@[simp] theorem latchNow_frame (full : Bool) (table : Rd) (s : State) :
    (latchNow full table s).thm = s.thm ∧ (latchNow full table s).bst = s.bst ∧ (latchNow full table s).pending = s.pending ∧ (latchNow full table s).sys.fe = s.sys.fe ∧ (latchNow full table s).conf.regs = s.conf.regs ∧ (latchNow full table s).conf.tables = s.conf.tables ∧ (latchNow full table s).sec.fuses = s.sec.fuses ∧ (latchNow full table s).pwr.fall = s.pwr.fall := by
  unfold latchNow
  (try simp)
  (repeat' split) <;> (try simp)

@[simp] theorem latchNow_sound (full : Bool) (table : Rd) (s : State) (hs : PagesSound s.mem.bytes s.mem.written) :
    PagesSound (latchNow full table s).mem.bytes (latchNow full table s).mem.written := by
  unfold latchNow
  (try simp [hs])
  (repeat' split) <;> (try simp [hs])

@[simp] theorem startLt_frame (table : Rd) (s : State) :
    (startLt table s).thm = s.thm ∧ (startLt table s).bst = s.bst ∧ (startLt table s).pending = s.pending ∧ (startLt table s).sys.fe = s.sys.fe ∧ (startLt table s).conf.regs = s.conf.regs ∧ (startLt table s).conf.tables = s.conf.tables ∧ (startLt table s).sec.fuses = s.sec.fuses ∧ (startLt table s).pwr.fall = s.pwr.fall := by
  unfold startLt
  (try dsimp only)
  (repeat' split) <;> (try simp)

@[simp] theorem startLt_sound (table : Rd) (s : State) (hs : PagesSound s.mem.bytes s.mem.written) :
    PagesSound (startLt table s).mem.bytes (startLt table s).mem.written := by
  unfold startLt
  (try dsimp only)
  (repeat' split) <;> (try simp [hs])

@[simp] theorem startPoints_frame (table : Rd) (s : State) :
    (startPoints table s).thm = s.thm ∧ (startPoints table s).bst = s.bst ∧ (startPoints table s).pending = s.pending ∧ (startPoints table s).sys.fe = s.sys.fe ∧ (startPoints table s).conf.regs = s.conf.regs ∧ (startPoints table s).conf.tables = s.conf.tables ∧ (startPoints table s).sec.fuses = s.sec.fuses ∧ (startPoints table s).pwr.fall = s.pwr.fall := by
  unfold startPoints
  (try simp)
  (repeat' split) <;> (try simp)

@[simp] theorem startPoints_sound (table : Rd) (s : State) (hs : PagesSound s.mem.bytes s.mem.written) :
    PagesSound (startPoints table s).mem.bytes (startPoints table s).mem.written := by
  unfold startPoints
  (try simp [hs])
  (repeat' split) <;> (try simp [hs])

@[simp] theorem followMarker_frame (table : Rd) (s : State) :
    (followMarker table s).thm = s.thm ∧ (followMarker table s).bst = s.bst ∧ (followMarker table s).pending = s.pending ∧ (followMarker table s).sys.fe = s.sys.fe ∧ (followMarker table s).conf.regs = s.conf.regs ∧ (followMarker table s).conf.tables = s.conf.tables ∧ (followMarker table s).sec.fuses = s.sec.fuses ∧ (followMarker table s).pwr.fall = s.pwr.fall := by
  unfold followMarker
  (try simp)
  (repeat' split) <;> (try simp)

@[simp] theorem followMarker_sound (table : Rd) (s : State) (hs : PagesSound s.mem.bytes s.mem.written) :
    PagesSound (followMarker table s).mem.bytes (followMarker table s).mem.written := by
  unfold followMarker
  (try simp [hs])
  (repeat' split) <;> (try simp [hs])

@[simp] theorem slotBegins_frame (env : LineEnv) (s : State) :
    (slotBegins env s).thm = s.thm ∧ (slotBegins env s).bst = s.bst ∧ (slotBegins env s).pending = s.pending ∧ (slotBegins env s).sys.fe = s.sys.fe ∧ (slotBegins env s).conf.regs = s.conf.regs ∧ (slotBegins env s).conf.tables = s.conf.tables ∧ (slotBegins env s).sec.fuses = s.sec.fuses ∧ (slotBegins env s).pwr.fall = s.pwr.fall := by
  unfold slotBegins
  (try dsimp only)
  (repeat' split) <;> (try simp)

@[simp] theorem slotBegins_sound (env : LineEnv) (s : State) (hs : PagesSound s.mem.bytes s.mem.written) :
    PagesSound (slotBegins env s).mem.bytes (slotBegins env s).mem.written := by
  unfold slotBegins; dsimp only
  simp only [runPolls_frame, runGates_frame]
  apply emitSlot_sound
  simp only [enterQuiet_frame, fixedQuietEnd_frame, beginReads_frame]
  apply spendSlots_sound
  simp only [stopQuiet_frame, runRecon_frame]
  apply startPoints_sound
  simp only [lineMatches_frame, takePolarity_frame]
  split
  · apply scanEnd_sound; simpa using hs
  · simpa using hs

@[simp] theorem lampTick_frame (s : State) :
    (lampTick s).sys = s.sys ∧ (lampTick s).pwr = s.pwr ∧ (lampTick s).hif = s.hif ∧ (lampTick s).rings = s.rings ∧ (lampTick s).conf = s.conf ∧ (lampTick s).ing = s.ing ∧ (lampTick s).pix = s.pix ∧ (lampTick s).gz = s.gz ∧ (lampTick s).dmk = s.dmk ∧ (lampTick s).od = s.od ∧ (lampTick s).tmg = s.tmg ∧ (lampTick s).pnl = s.pnl ∧ (lampTick s).twl = s.twl ∧ (lampTick s).cue = s.cue ∧ (lampTick s).mem = s.mem ∧ (lampTick s).lin = s.lin ∧ (lampTick s).cal = s.cal ∧ (lampTick s).gng = s.gng ∧ (lampTick s).sec = s.sec ∧ (lampTick s).flt = s.flt ∧ (lampTick s).thm = s.thm ∧ (lampTick s).trc = s.trc ∧ (lampTick s).bst = s.bst ∧ (lampTick s).pending = s.pending := by
  unfold lampTick
  (try dsimp only)
  (repeat' split) <;> (try simp)

@[simp] theorem nextSlot_frame (s : State) :
    (nextSlot s).sys = s.sys ∧ (nextSlot s).pwr = s.pwr ∧ (nextSlot s).hif = s.hif ∧ (nextSlot s).rings = s.rings ∧ (nextSlot s).conf = s.conf ∧ (nextSlot s).ing = s.ing ∧ (nextSlot s).pix = s.pix ∧ (nextSlot s).gz = s.gz ∧ (nextSlot s).lmp = s.lmp ∧ (nextSlot s).dmk = s.dmk ∧ (nextSlot s).od = s.od ∧ (nextSlot s).pnl = s.pnl ∧ (nextSlot s).cue = s.cue ∧ (nextSlot s).mem = s.mem ∧ (nextSlot s).lin = s.lin ∧ (nextSlot s).cal = s.cal ∧ (nextSlot s).gng = s.gng ∧ (nextSlot s).sec = s.sec ∧ (nextSlot s).flt = s.flt ∧ (nextSlot s).thm = s.thm ∧ (nextSlot s).trc = s.trc ∧ (nextSlot s).bst = s.bst ∧ (nextSlot s).out = s.out ∧ (nextSlot s).free = s.free ∧ (nextSlot s).pending = s.pending ∧ (nextSlot s).tmg.running = s.tmg.running := by
  unfold nextSlot
  (try dsimp only)
  (repeat' split) <;> (try simp)

@[simp] theorem freshTick_frame (s : State) :
    (freshTick s).sys = s.sys ∧ (freshTick s).pwr = s.pwr ∧ (freshTick s).hif = s.hif ∧ (freshTick s).rings = s.rings ∧ (freshTick s).conf = s.conf ∧ (freshTick s).ing = s.ing ∧ (freshTick s).pix = s.pix ∧ (freshTick s).gz = s.gz ∧ (freshTick s).lmp = s.lmp ∧ (freshTick s).dmk = s.dmk ∧ (freshTick s).od = s.od ∧ (freshTick s).pnl = s.pnl ∧ (freshTick s).cue = s.cue ∧ (freshTick s).mem = s.mem ∧ (freshTick s).lin = s.lin ∧ (freshTick s).cal = s.cal ∧ (freshTick s).sec = s.sec ∧ (freshTick s).flt = s.flt ∧ (freshTick s).thm = s.thm ∧ (freshTick s).trc = s.trc ∧ (freshTick s).bst = s.bst ∧ (freshTick s).out = s.out ∧ (freshTick s).free = s.free ∧ (freshTick s).pending = s.pending ∧ (freshTick s).tmg.running = s.tmg.running := by
  unfold freshTick
  (try simp)
  (repeat' split) <;> (try simp)

@[simp] theorem closeFrame_frame (s : State) :
    (closeFrame s).sys = s.sys ∧ (closeFrame s).pwr = s.pwr ∧ (closeFrame s).conf = s.conf ∧ (closeFrame s).ing = s.ing ∧ (closeFrame s).pix = s.pix ∧ (closeFrame s).tmg = s.tmg ∧ (closeFrame s).pnl = s.pnl ∧ (closeFrame s).cue = s.cue ∧ (closeFrame s).mem = s.mem ∧ (closeFrame s).lin = s.lin ∧ (closeFrame s).cal = s.cal ∧ (closeFrame s).sec = s.sec ∧ (closeFrame s).flt = s.flt ∧ (closeFrame s).thm = s.thm ∧ (closeFrame s).bst = s.bst ∧ (closeFrame s).pending = s.pending ∧ (closeFrame s).hif.power = s.hif.power ∧ (closeFrame s).hif.d3hot = s.hif.d3hot := by
  unfold closeFrame
  (try dsimp only)
  (repeat' split) <;> (try simp)

@[simp] theorem setCheckers_frame (s : State) :
    (setCheckers s).sys = s.sys ∧ (setCheckers s).pwr = s.pwr ∧ (setCheckers s).hif = s.hif ∧ (setCheckers s).rings = s.rings ∧ (setCheckers s).conf = s.conf ∧ (setCheckers s).ing = s.ing ∧ (setCheckers s).pix = s.pix ∧ (setCheckers s).gz = s.gz ∧ (setCheckers s).lmp = s.lmp ∧ (setCheckers s).dmk = s.dmk ∧ (setCheckers s).od = s.od ∧ (setCheckers s).tmg = s.tmg ∧ (setCheckers s).pnl = s.pnl ∧ (setCheckers s).twl = s.twl ∧ (setCheckers s).cue = s.cue ∧ (setCheckers s).mem = s.mem ∧ (setCheckers s).lin = s.lin ∧ (setCheckers s).cal = s.cal ∧ (setCheckers s).gng = s.gng ∧ (setCheckers s).sec = s.sec ∧ (setCheckers s).thm = s.thm ∧ (setCheckers s).trc = s.trc ∧ (setCheckers s).bst = s.bst ∧ (setCheckers s).out = s.out ∧ (setCheckers s).free = s.free ∧ (setCheckers s).pending = s.pending := by
  unfold setCheckers
  (try dsimp only)
  (repeat' split) <;> (try simp)

@[simp] theorem confEffects_frame (old : Conf) (n : Nat) (s : State) :
    (confEffects old n s).sys = s.sys ∧ (confEffects old n s).pwr = s.pwr ∧ (confEffects old n s).conf = s.conf ∧ (confEffects old n s).ing = s.ing ∧ (confEffects old n s).pix = s.pix ∧ (confEffects old n s).lmp = s.lmp ∧ (confEffects old n s).dmk = s.dmk ∧ (confEffects old n s).od = s.od ∧ (confEffects old n s).tmg = s.tmg ∧ (confEffects old n s).pnl = s.pnl ∧ (confEffects old n s).twl = s.twl ∧ (confEffects old n s).cue = s.cue ∧ (confEffects old n s).mem = s.mem ∧ (confEffects old n s).lin = s.lin ∧ (confEffects old n s).sec = s.sec ∧ (confEffects old n s).thm = s.thm ∧ (confEffects old n s).bst = s.bst ∧ (confEffects old n s).pending = s.pending ∧ (confEffects old n s).hif.power = s.hif.power := by
  unfold confEffects
  (try dsimp only)
  (repeat' split) <;> (try simp)

@[simp] theorem confEvents_frame (setup : Bool) (mask : List Nat) (cls : Nat) (s : State) :
    (confEvents setup mask cls s).sys = s.sys ∧ (confEvents setup mask cls s).pwr = s.pwr ∧ (confEvents setup mask cls s).conf = s.conf ∧ (confEvents setup mask cls s).ing = s.ing ∧ (confEvents setup mask cls s).pix = s.pix ∧ (confEvents setup mask cls s).gz = s.gz ∧ (confEvents setup mask cls s).lmp = s.lmp ∧ (confEvents setup mask cls s).dmk = s.dmk ∧ (confEvents setup mask cls s).od = s.od ∧ (confEvents setup mask cls s).tmg = s.tmg ∧ (confEvents setup mask cls s).pnl = s.pnl ∧ (confEvents setup mask cls s).twl = s.twl ∧ (confEvents setup mask cls s).cue = s.cue ∧ (confEvents setup mask cls s).mem = s.mem ∧ (confEvents setup mask cls s).lin = s.lin ∧ (confEvents setup mask cls s).cal = s.cal ∧ (confEvents setup mask cls s).gng = s.gng ∧ (confEvents setup mask cls s).sec = s.sec ∧ (confEvents setup mask cls s).flt = s.flt ∧ (confEvents setup mask cls s).thm = s.thm ∧ (confEvents setup mask cls s).trc = s.trc ∧ (confEvents setup mask cls s).bst = s.bst ∧ (confEvents setup mask cls s).free = s.free ∧ (confEvents setup mask cls s).pending = s.pending ∧ (confEvents setup mask cls s).hif.power = s.hif.power ∧ (confEvents setup mask cls s).hif.bme0 = s.hif.bme0 ∧ (confEvents setup mask cls s).hif.bme1 = s.hif.bme1 ∧ (confEvents setup mask cls s).hif.d3hot = s.hif.d3hot ∧ (confEvents setup mask cls s).rings.sqs = s.rings.sqs := by
  unfold confEvents
  (try simp)
  (repeat' split) <;> (try simp)

@[simp] theorem seamPanel_frame (s : State) :
    (seamPanel s).sys = s.sys ∧ (seamPanel s).pwr = s.pwr ∧ (seamPanel s).conf = s.conf ∧ (seamPanel s).ing = s.ing ∧ (seamPanel s).pix = s.pix ∧ (seamPanel s).gz = s.gz ∧ (seamPanel s).dmk = s.dmk ∧ (seamPanel s).od = s.od ∧ (seamPanel s).tmg = s.tmg ∧ (seamPanel s).cue = s.cue ∧ (seamPanel s).mem = s.mem ∧ (seamPanel s).lin = s.lin ∧ (seamPanel s).cal = s.cal ∧ (seamPanel s).gng = s.gng ∧ (seamPanel s).sec = s.sec ∧ (seamPanel s).flt = s.flt ∧ (seamPanel s).thm = s.thm ∧ (seamPanel s).bst = s.bst ∧ (seamPanel s).pending = s.pending ∧ (seamPanel s).hif.power = s.hif.power ∧ (seamPanel s).hif.bme0 = s.hif.bme0 ∧ (seamPanel s).hif.bme1 = s.hif.bme1 ∧ (seamPanel s).hif.d3hot = s.hif.d3hot ∧ (seamPanel s).rings.sqs = s.rings.sqs ∧ (seamPanel s).rings.cqs = s.rings.cqs ∧ (seamPanel s).rings.eq0 = s.rings.eq0 ∧ (seamPanel s).rings.eq1 = s.rings.eq1 := by
  unfold seamPanel
  (try simp)
  (repeat' split) <;> (try simp)

@[simp] theorem resetPhases_frame (s : State) :
    (resetPhases s).sys = s.sys ∧ (resetPhases s).pwr = s.pwr ∧ (resetPhases s).hif = s.hif ∧ (resetPhases s).rings = s.rings ∧ (resetPhases s).conf = s.conf ∧ (resetPhases s).ing = s.ing ∧ (resetPhases s).gz = s.gz ∧ (resetPhases s).lmp = s.lmp ∧ (resetPhases s).dmk = s.dmk ∧ (resetPhases s).od = s.od ∧ (resetPhases s).pnl = s.pnl ∧ (resetPhases s).twl = s.twl ∧ (resetPhases s).cue = s.cue ∧ (resetPhases s).mem = s.mem ∧ (resetPhases s).lin = s.lin ∧ (resetPhases s).cal = s.cal ∧ (resetPhases s).gng = s.gng ∧ (resetPhases s).sec = s.sec ∧ (resetPhases s).flt = s.flt ∧ (resetPhases s).thm = s.thm ∧ (resetPhases s).trc = s.trc ∧ (resetPhases s).bst = s.bst ∧ (resetPhases s).out = s.out ∧ (resetPhases s).free = s.free ∧ (resetPhases s).pending = s.pending ∧ (resetPhases s).tmg.running = s.tmg.running := by
  unfold resetPhases
  (try dsimp only)
  (repeat' split) <;> (try simp)

@[simp] theorem seamFull_frame (s : State) :
    (seamFull s).sys = s.sys ∧ (seamFull s).pwr = s.pwr ∧ (seamFull s).conf = s.conf ∧ (seamFull s).gz = s.gz ∧ (seamFull s).dmk = s.dmk ∧ (seamFull s).cue = s.cue ∧ (seamFull s).mem = s.mem ∧ (seamFull s).lin = s.lin ∧ (seamFull s).gng = s.gng ∧ (seamFull s).sec = s.sec ∧ (seamFull s).flt = s.flt ∧ (seamFull s).thm = s.thm ∧ (seamFull s).bst = s.bst ∧ (seamFull s).pending = s.pending ∧ (seamFull s).hif.power = s.hif.power ∧ (seamFull s).hif.d3hot = s.hif.d3hot ∧ (seamFull s).tmg.running = s.tmg.running := by
  unfold seamFull
  (try dsimp only)
  (repeat' split) <;> (try simp)

@[simp] theorem seamDone_frame (one : Bool) (s : State) :
    (seamDone one s).sys = s.sys ∧ (seamDone one s).pwr = s.pwr ∧ (seamDone one s).conf = s.conf ∧ (seamDone one s).ing = s.ing ∧ (seamDone one s).pix = s.pix ∧ (seamDone one s).gz = s.gz ∧ (seamDone one s).lmp = s.lmp ∧ (seamDone one s).dmk = s.dmk ∧ (seamDone one s).od = s.od ∧ (seamDone one s).pnl = s.pnl ∧ (seamDone one s).twl = s.twl ∧ (seamDone one s).cue = s.cue ∧ (seamDone one s).mem = s.mem ∧ (seamDone one s).lin = s.lin ∧ (seamDone one s).cal = s.cal ∧ (seamDone one s).gng = s.gng ∧ (seamDone one s).sec = s.sec ∧ (seamDone one s).flt = s.flt ∧ (seamDone one s).thm = s.thm ∧ (seamDone one s).trc = s.trc ∧ (seamDone one s).bst = s.bst ∧ (seamDone one s).free = s.free ∧ (seamDone one s).pending = s.pending ∧ (seamDone one s).hif.power = s.hif.power ∧ (seamDone one s).hif.bme0 = s.hif.bme0 ∧ (seamDone one s).hif.bme1 = s.hif.bme1 ∧ (seamDone one s).hif.d3hot = s.hif.d3hot ∧ (seamDone one s).tmg.running = s.tmg.running ∧ (seamDone one s).rings.sqs = s.rings.sqs := by
  unfold seamDone
  (try simp)
  (repeat' split) <;> (try simp)

@[simp] theorem seamEffects_frame (cls : SeamClass) (s : State) :
    (seamEffects cls s).sys = s.sys ∧ (seamEffects cls s).pwr = s.pwr ∧ (seamEffects cls s).conf = s.conf ∧ (seamEffects cls s).gz = s.gz ∧ (seamEffects cls s).dmk = s.dmk ∧ (seamEffects cls s).cue = s.cue ∧ (seamEffects cls s).mem = s.mem ∧ (seamEffects cls s).lin = s.lin ∧ (seamEffects cls s).gng = s.gng ∧ (seamEffects cls s).sec = s.sec ∧ (seamEffects cls s).flt = s.flt ∧ (seamEffects cls s).thm = s.thm ∧ (seamEffects cls s).bst = s.bst ∧ (seamEffects cls s).pending = s.pending ∧ (seamEffects cls s).hif.power = s.hif.power ∧ (seamEffects cls s).hif.d3hot = s.hif.d3hot ∧ (seamEffects cls s).tmg.running = s.tmg.running := by
  unfold seamEffects
  (try simp)
  (repeat' split) <;> (try simp)

@[simp] theorem applyChange_frame (n : Nat) (s : State) :
    (applyChange n s).sys = s.sys ∧ (applyChange n s).pwr = s.pwr ∧ (applyChange n s).dmk = s.dmk ∧ (applyChange n s).cue = s.cue ∧ (applyChange n s).lin = s.lin ∧ (applyChange n s).sec = s.sec ∧ (applyChange n s).thm = s.thm ∧ (applyChange n s).bst = s.bst ∧ (applyChange n s).pending = s.pending ∧ (applyChange n s).hif.power = s.hif.power ∧ (applyChange n s).tmg.running = s.tmg.running := by
  unfold applyChange
  (try simp)
  (repeat' split) <;> (try simp)

@[simp] theorem applyChange_sound (n : Nat) (s : State) (hs : PagesSound s.mem.bytes s.mem.written) :
    PagesSound (applyChange n s).mem.bytes (applyChange n s).mem.written := by
  unfold applyChange
  (try simp [hs])
  (repeat' split) <;> (try simp [hs])

@[simp] theorem holdFrame_frame (old : Mode) (s : State) :
    (holdFrame old s).sys = s.sys ∧ (holdFrame old s).pwr = s.pwr ∧ (holdFrame old s).hif = s.hif ∧ (holdFrame old s).rings = s.rings ∧ (holdFrame old s).conf = s.conf ∧ (holdFrame old s).pix = s.pix ∧ (holdFrame old s).gz = s.gz ∧ (holdFrame old s).lmp = s.lmp ∧ (holdFrame old s).dmk = s.dmk ∧ (holdFrame old s).od = s.od ∧ (holdFrame old s).tmg = s.tmg ∧ (holdFrame old s).pnl = s.pnl ∧ (holdFrame old s).twl = s.twl ∧ (holdFrame old s).cue = s.cue ∧ (holdFrame old s).mem = s.mem ∧ (holdFrame old s).lin = s.lin ∧ (holdFrame old s).cal = s.cal ∧ (holdFrame old s).gng = s.gng ∧ (holdFrame old s).sec = s.sec ∧ (holdFrame old s).flt = s.flt ∧ (holdFrame old s).thm = s.thm ∧ (holdFrame old s).trc = s.trc ∧ (holdFrame old s).bst = s.bst ∧ (holdFrame old s).out = s.out ∧ (holdFrame old s).free = s.free ∧ (holdFrame old s).pending = s.pending := by
  unfold holdFrame
  (try simp)
  (repeat' split) <;> (try simp)

@[simp] theorem turnMode_frame (m : Mode) (s : State) :
    (turnMode m s).pwr = s.pwr ∧ (turnMode m s).conf = s.conf ∧ (turnMode m s).pix = s.pix ∧ (turnMode m s).gz = s.gz ∧ (turnMode m s).lmp = s.lmp ∧ (turnMode m s).dmk = s.dmk ∧ (turnMode m s).pnl = s.pnl ∧ (turnMode m s).twl = s.twl ∧ (turnMode m s).mem = s.mem ∧ (turnMode m s).lin = s.lin ∧ (turnMode m s).cal = s.cal ∧ (turnMode m s).gng = s.gng ∧ (turnMode m s).sec = s.sec ∧ (turnMode m s).flt = s.flt ∧ (turnMode m s).thm = s.thm ∧ (turnMode m s).bst = s.bst ∧ (turnMode m s).pending = s.pending ∧ (turnMode m s).sys.fe = s.sys.fe ∧ (turnMode m s).sys.transit = s.sys.transit ∧ (turnMode m s).sys.lock = s.sys.lock ∧ (turnMode m s).sys.serving = s.sys.serving ∧ (turnMode m s).sys.stage = s.sys.stage ∧ (turnMode m s).hif.power = s.hif.power ∧ (turnMode m s).hif.d3hot = s.hif.d3hot ∧ (turnMode m s).tmg.running = s.tmg.running ∧ (turnMode m s).rings.sqs = s.rings.sqs := by
  unfold turnMode
  (try simp)
  (repeat' split) <;> (try simp)

@[simp] theorem doneArms_frame (n : Nat) (s : State) :
    (doneArms n s).sys = s.sys ∧ (doneArms n s).pwr = s.pwr ∧ (doneArms n s).hif = s.hif ∧ (doneArms n s).rings = s.rings ∧ (doneArms n s).conf = s.conf ∧ (doneArms n s).ing = s.ing ∧ (doneArms n s).pix = s.pix ∧ (doneArms n s).gz = s.gz ∧ (doneArms n s).lmp = s.lmp ∧ (doneArms n s).dmk = s.dmk ∧ (doneArms n s).od = s.od ∧ (doneArms n s).tmg = s.tmg ∧ (doneArms n s).pnl = s.pnl ∧ (doneArms n s).twl = s.twl ∧ (doneArms n s).mem = s.mem ∧ (doneArms n s).lin = s.lin ∧ (doneArms n s).cal = s.cal ∧ (doneArms n s).gng = s.gng ∧ (doneArms n s).sec = s.sec ∧ (doneArms n s).flt = s.flt ∧ (doneArms n s).thm = s.thm ∧ (doneArms n s).trc = s.trc ∧ (doneArms n s).bst = s.bst ∧ (doneArms n s).out = s.out ∧ (doneArms n s).free = s.free ∧ (doneArms n s).pending = s.pending := by
  unfold doneArms
  (try dsimp only)
  (repeat' split) <;> (try simp)

@[simp] theorem droppedLayers_frame (step : Nat) (is : List Nat) (s : State) :
    (droppedLayers step is s).sys = s.sys ∧ (droppedLayers step is s).pwr = s.pwr ∧ (droppedLayers step is s).conf = s.conf ∧ (droppedLayers step is s).ing = s.ing ∧ (droppedLayers step is s).pix = s.pix ∧ (droppedLayers step is s).gz = s.gz ∧ (droppedLayers step is s).lmp = s.lmp ∧ (droppedLayers step is s).dmk = s.dmk ∧ (droppedLayers step is s).od = s.od ∧ (droppedLayers step is s).tmg = s.tmg ∧ (droppedLayers step is s).pnl = s.pnl ∧ (droppedLayers step is s).twl = s.twl ∧ (droppedLayers step is s).cue = s.cue ∧ (droppedLayers step is s).mem = s.mem ∧ (droppedLayers step is s).lin = s.lin ∧ (droppedLayers step is s).cal = s.cal ∧ (droppedLayers step is s).gng = s.gng ∧ (droppedLayers step is s).sec = s.sec ∧ (droppedLayers step is s).flt = s.flt ∧ (droppedLayers step is s).thm = s.thm ∧ (droppedLayers step is s).trc = s.trc ∧ (droppedLayers step is s).bst = s.bst ∧ (droppedLayers step is s).free = s.free ∧ (droppedLayers step is s).pending = s.pending ∧ (droppedLayers step is s).hif.power = s.hif.power ∧ (droppedLayers step is s).hif.d3hot = s.hif.d3hot ∧ (droppedLayers step is s).rings.sqs = s.rings.sqs := by
  unfold droppedLayers
  (repeat' split) <;> (try simp)

@[simp] theorem cueBegins_frame (r : CueRun) (s : State) :
    (cueBegins r s).sys = s.sys ∧ (cueBegins r s).pwr = s.pwr ∧ (cueBegins r s).conf = s.conf ∧ (cueBegins r s).ing = s.ing ∧ (cueBegins r s).pix = s.pix ∧ (cueBegins r s).gz = s.gz ∧ (cueBegins r s).lmp = s.lmp ∧ (cueBegins r s).dmk = s.dmk ∧ (cueBegins r s).od = s.od ∧ (cueBegins r s).tmg = s.tmg ∧ (cueBegins r s).pnl = s.pnl ∧ (cueBegins r s).twl = s.twl ∧ (cueBegins r s).mem = s.mem ∧ (cueBegins r s).lin = s.lin ∧ (cueBegins r s).cal = s.cal ∧ (cueBegins r s).gng = s.gng ∧ (cueBegins r s).sec = s.sec ∧ (cueBegins r s).flt = s.flt ∧ (cueBegins r s).thm = s.thm ∧ (cueBegins r s).trc = s.trc ∧ (cueBegins r s).bst = s.bst ∧ (cueBegins r s).free = s.free ∧ (cueBegins r s).pending = s.pending ∧ (cueBegins r s).hif.power = s.hif.power ∧ (cueBegins r s).hif.d3hot = s.hif.d3hot ∧ (cueBegins r s).rings.sqs = s.rings.sqs := by
  unfold cueBegins
  (try simp)
  (repeat' split) <;> (try simp)

@[simp] theorem cueEnds_frame (r : CueRun) (m : Mode) (s : State) :
    (cueEnds r m s).pwr = s.pwr ∧ (cueEnds r m s).conf = s.conf ∧ (cueEnds r m s).pix = s.pix ∧ (cueEnds r m s).gz = s.gz ∧ (cueEnds r m s).lmp = s.lmp ∧ (cueEnds r m s).dmk = s.dmk ∧ (cueEnds r m s).pnl = s.pnl ∧ (cueEnds r m s).twl = s.twl ∧ (cueEnds r m s).mem = s.mem ∧ (cueEnds r m s).lin = s.lin ∧ (cueEnds r m s).cal = s.cal ∧ (cueEnds r m s).gng = s.gng ∧ (cueEnds r m s).sec = s.sec ∧ (cueEnds r m s).flt = s.flt ∧ (cueEnds r m s).thm = s.thm ∧ (cueEnds r m s).bst = s.bst ∧ (cueEnds r m s).pending = s.pending ∧ (cueEnds r m s).sys.fe = s.sys.fe ∧ (cueEnds r m s).sys.transit = s.sys.transit ∧ (cueEnds r m s).sys.lock = s.sys.lock ∧ (cueEnds r m s).sys.serving = s.sys.serving ∧ (cueEnds r m s).sys.stage = s.sys.stage ∧ (cueEnds r m s).hif.power = s.hif.power ∧ (cueEnds r m s).hif.d3hot = s.hif.d3hot ∧ (cueEnds r m s).tmg.running = s.tmg.running ∧ (cueEnds r m s).rings.sqs = s.rings.sqs := by
  unfold cueEnds
  (try simp)
  (repeat' split) <;> (try simp)

@[simp] theorem powerOnCue_frame (step : Nat) (s : State) :
    (powerOnCue step s).pwr = s.pwr ∧ (powerOnCue step s).hif = s.hif ∧ (powerOnCue step s).rings = s.rings ∧ (powerOnCue step s).conf = s.conf ∧ (powerOnCue step s).pix = s.pix ∧ (powerOnCue step s).gz = s.gz ∧ (powerOnCue step s).lmp = s.lmp ∧ (powerOnCue step s).dmk = s.dmk ∧ (powerOnCue step s).od = s.od ∧ (powerOnCue step s).tmg = s.tmg ∧ (powerOnCue step s).pnl = s.pnl ∧ (powerOnCue step s).twl = s.twl ∧ (powerOnCue step s).mem = s.mem ∧ (powerOnCue step s).lin = s.lin ∧ (powerOnCue step s).cal = s.cal ∧ (powerOnCue step s).gng = s.gng ∧ (powerOnCue step s).sec = s.sec ∧ (powerOnCue step s).flt = s.flt ∧ (powerOnCue step s).thm = s.thm ∧ (powerOnCue step s).trc = s.trc ∧ (powerOnCue step s).bst = s.bst ∧ (powerOnCue step s).out = s.out ∧ (powerOnCue step s).free = s.free ∧ (powerOnCue step s).pending = s.pending ∧ (powerOnCue step s).sys.mode = s.sys.mode ∧ (powerOnCue step s).sys.fe = s.sys.fe ∧ (powerOnCue step s).sys.transit = s.sys.transit ∧ (powerOnCue step s).sys.lock = s.sys.lock ∧ (powerOnCue step s).sys.serving = s.sys.serving := by
  unfold powerOnCue
  (try dsimp only)
  (repeat' split) <;> (try simp)

@[simp] theorem endTests_frame (s : State) :
    (endTests s).sys = s.sys ∧ (endTests s).pwr = s.pwr ∧ (endTests s).conf = s.conf ∧ (endTests s).ing = s.ing ∧ (endTests s).pix = s.pix ∧ (endTests s).gz = s.gz ∧ (endTests s).lmp = s.lmp ∧ (endTests s).dmk = s.dmk ∧ (endTests s).od = s.od ∧ (endTests s).tmg = s.tmg ∧ (endTests s).pnl = s.pnl ∧ (endTests s).cue = s.cue ∧ (endTests s).mem = s.mem ∧ (endTests s).lin = s.lin ∧ (endTests s).cal = s.cal ∧ (endTests s).gng = s.gng ∧ (endTests s).sec = s.sec ∧ (endTests s).flt = s.flt ∧ (endTests s).thm = s.thm ∧ (endTests s).bst = s.bst ∧ (endTests s).pending = s.pending ∧ (endTests s).hif.power = s.hif.power ∧ (endTests s).hif.bme0 = s.hif.bme0 ∧ (endTests s).hif.bme1 = s.hif.bme1 ∧ (endTests s).hif.d3hot = s.hif.d3hot ∧ (endTests s).rings.sqs = s.rings.sqs ∧ (endTests s).rings.cqs = s.rings.cqs ∧ (endTests s).rings.eq0 = s.rings.eq0 ∧ (endTests s).rings.eq1 = s.rings.eq1 := by
  unfold endTests
  (try simp)
  (repeat' split) <;> (try simp)

@[simp] theorem modeFt_frame (n : Nat) (s : State) :
    (modeFt n s).pwr = s.pwr ∧ (modeFt n s).conf = s.conf ∧ (modeFt n s).pix = s.pix ∧ (modeFt n s).gz = s.gz ∧ (modeFt n s).lmp = s.lmp ∧ (modeFt n s).dmk = s.dmk ∧ (modeFt n s).pnl = s.pnl ∧ (modeFt n s).mem = s.mem ∧ (modeFt n s).lin = s.lin ∧ (modeFt n s).cal = s.cal ∧ (modeFt n s).gng = s.gng ∧ (modeFt n s).sec = s.sec ∧ (modeFt n s).flt = s.flt ∧ (modeFt n s).thm = s.thm ∧ (modeFt n s).bst = s.bst ∧ (modeFt n s).pending = s.pending ∧ (modeFt n s).sys.fe = s.sys.fe ∧ (modeFt n s).sys.lock = s.sys.lock ∧ (modeFt n s).sys.serving = s.sys.serving ∧ (modeFt n s).hif.power = s.hif.power ∧ (modeFt n s).hif.d3hot = s.hif.d3hot ∧ (modeFt n s).tmg.running = s.tmg.running ∧ (modeFt n s).rings.sqs = s.rings.sqs := by
  unfold modeFt
  (try simp)
  (repeat' split) <;> (try simp)

@[simp] theorem cueAhead_frame (s : State) :
    (cueAhead s).sys = s.sys ∧ (cueAhead s).pwr = s.pwr ∧ (cueAhead s).conf = s.conf ∧ (cueAhead s).pix = s.pix ∧ (cueAhead s).gz = s.gz ∧ (cueAhead s).lmp = s.lmp ∧ (cueAhead s).dmk = s.dmk ∧ (cueAhead s).od = s.od ∧ (cueAhead s).tmg = s.tmg ∧ (cueAhead s).pnl = s.pnl ∧ (cueAhead s).twl = s.twl ∧ (cueAhead s).cue = s.cue ∧ (cueAhead s).mem = s.mem ∧ (cueAhead s).lin = s.lin ∧ (cueAhead s).cal = s.cal ∧ (cueAhead s).gng = s.gng ∧ (cueAhead s).sec = s.sec ∧ (cueAhead s).flt = s.flt ∧ (cueAhead s).thm = s.thm ∧ (cueAhead s).bst = s.bst ∧ (cueAhead s).pending = s.pending ∧ (cueAhead s).hif.power = s.hif.power ∧ (cueAhead s).hif.bme0 = s.hif.bme0 ∧ (cueAhead s).hif.bme1 = s.hif.bme1 ∧ (cueAhead s).hif.d3hot = s.hif.d3hot ∧ (cueAhead s).rings.sqs = s.rings.sqs := by
  unfold cueAhead
  (try simp)
  (repeat' split) <;> (try simp)

@[simp] theorem turnContent_frame (n : Nat) (s : State) :
    (turnContent n s).sys = s.sys ∧ (turnContent n s).pwr = s.pwr ∧ (turnContent n s).hif = s.hif ∧ (turnContent n s).rings = s.rings ∧ (turnContent n s).conf = s.conf ∧ (turnContent n s).pix = s.pix ∧ (turnContent n s).gz = s.gz ∧ (turnContent n s).lmp = s.lmp ∧ (turnContent n s).dmk = s.dmk ∧ (turnContent n s).od = s.od ∧ (turnContent n s).tmg = s.tmg ∧ (turnContent n s).pnl = s.pnl ∧ (turnContent n s).twl = s.twl ∧ (turnContent n s).cue = s.cue ∧ (turnContent n s).mem = s.mem ∧ (turnContent n s).lin = s.lin ∧ (turnContent n s).cal = s.cal ∧ (turnContent n s).gng = s.gng ∧ (turnContent n s).sec = s.sec ∧ (turnContent n s).flt = s.flt ∧ (turnContent n s).thm = s.thm ∧ (turnContent n s).trc = s.trc ∧ (turnContent n s).bst = s.bst ∧ (turnContent n s).out = s.out ∧ (turnContent n s).free = s.free ∧ (turnContent n s).pending = s.pending := by
  unfold turnContent
  (try simp)
  (repeat' split) <;> (try simp)

@[simp] theorem refitHold_frame (s : State) :
    (refitHold s).sys = s.sys ∧ (refitHold s).pwr = s.pwr ∧ (refitHold s).conf = s.conf ∧ (refitHold s).pix = s.pix ∧ (refitHold s).gz = s.gz ∧ (refitHold s).lmp = s.lmp ∧ (refitHold s).dmk = s.dmk ∧ (refitHold s).od = s.od ∧ (refitHold s).tmg = s.tmg ∧ (refitHold s).pnl = s.pnl ∧ (refitHold s).twl = s.twl ∧ (refitHold s).cue = s.cue ∧ (refitHold s).mem = s.mem ∧ (refitHold s).lin = s.lin ∧ (refitHold s).cal = s.cal ∧ (refitHold s).gng = s.gng ∧ (refitHold s).sec = s.sec ∧ (refitHold s).flt = s.flt ∧ (refitHold s).thm = s.thm ∧ (refitHold s).trc = s.trc ∧ (refitHold s).bst = s.bst ∧ (refitHold s).free = s.free ∧ (refitHold s).pending = s.pending ∧ (refitHold s).hif.power = s.hif.power ∧ (refitHold s).hif.d3hot = s.hif.d3hot ∧ (refitHold s).rings.sqs = s.rings.sqs := by
  unfold refitHold
  (try simp)
  (repeat' split) <;> (try simp)

@[simp] theorem scanBand_frame (held : Bool) (k : Nat) (s : State) :
    (scanBand held k s).sys = s.sys ∧ (scanBand held k s).pwr = s.pwr ∧ (scanBand held k s).hif = s.hif ∧ (scanBand held k s).rings = s.rings ∧ (scanBand held k s).conf = s.conf ∧ (scanBand held k s).ing = s.ing ∧ (scanBand held k s).gz = s.gz ∧ (scanBand held k s).lmp = s.lmp ∧ (scanBand held k s).dmk = s.dmk ∧ (scanBand held k s).od = s.od ∧ (scanBand held k s).pnl = s.pnl ∧ (scanBand held k s).twl = s.twl ∧ (scanBand held k s).cue = s.cue ∧ (scanBand held k s).mem = s.mem ∧ (scanBand held k s).lin = s.lin ∧ (scanBand held k s).cal = s.cal ∧ (scanBand held k s).gng = s.gng ∧ (scanBand held k s).sec = s.sec ∧ (scanBand held k s).flt = s.flt ∧ (scanBand held k s).thm = s.thm ∧ (scanBand held k s).trc = s.trc ∧ (scanBand held k s).bst = s.bst ∧ (scanBand held k s).out = s.out ∧ (scanBand held k s).free = s.free ∧ (scanBand held k s).pending = s.pending ∧ (scanBand held k s).tmg.running = s.tmg.running := by
  unfold scanBand
  (try dsimp only)
  (repeat' split) <;> (try simp)

@[simp] theorem scanFt_frame (clocks : Nat) (s : State) :
    (scanFt clocks s).sys = s.sys ∧ (scanFt clocks s).pwr = s.pwr ∧ (scanFt clocks s).hif = s.hif ∧ (scanFt clocks s).rings = s.rings ∧ (scanFt clocks s).conf = s.conf ∧ (scanFt clocks s).ing = s.ing ∧ (scanFt clocks s).gz = s.gz ∧ (scanFt clocks s).lmp = s.lmp ∧ (scanFt clocks s).dmk = s.dmk ∧ (scanFt clocks s).od = s.od ∧ (scanFt clocks s).pnl = s.pnl ∧ (scanFt clocks s).twl = s.twl ∧ (scanFt clocks s).mem = s.mem ∧ (scanFt clocks s).lin = s.lin ∧ (scanFt clocks s).cal = s.cal ∧ (scanFt clocks s).gng = s.gng ∧ (scanFt clocks s).sec = s.sec ∧ (scanFt clocks s).flt = s.flt ∧ (scanFt clocks s).thm = s.thm ∧ (scanFt clocks s).trc = s.trc ∧ (scanFt clocks s).bst = s.bst ∧ (scanFt clocks s).out = s.out ∧ (scanFt clocks s).pending = s.pending ∧ (scanFt clocks s).tmg.running = s.tmg.running := by
  unfold scanFt
  (try dsimp only)
  (repeat' split) <;> (try simp)

@[simp] theorem overdriveFt_frame (s : State) :
    (overdriveFt s).sys = s.sys ∧ (overdriveFt s).pwr = s.pwr ∧ (overdriveFt s).hif = s.hif ∧ (overdriveFt s).rings = s.rings ∧ (overdriveFt s).conf = s.conf ∧ (overdriveFt s).ing = s.ing ∧ (overdriveFt s).pix = s.pix ∧ (overdriveFt s).gz = s.gz ∧ (overdriveFt s).lmp = s.lmp ∧ (overdriveFt s).dmk = s.dmk ∧ (overdriveFt s).tmg = s.tmg ∧ (overdriveFt s).pnl = s.pnl ∧ (overdriveFt s).twl = s.twl ∧ (overdriveFt s).cue = s.cue ∧ (overdriveFt s).mem = s.mem ∧ (overdriveFt s).lin = s.lin ∧ (overdriveFt s).cal = s.cal ∧ (overdriveFt s).gng = s.gng ∧ (overdriveFt s).sec = s.sec ∧ (overdriveFt s).flt = s.flt ∧ (overdriveFt s).thm = s.thm ∧ (overdriveFt s).trc = s.trc ∧ (overdriveFt s).bst = s.bst ∧ (overdriveFt s).out = s.out ∧ (overdriveFt s).free = s.free ∧ (overdriveFt s).pending = s.pending := by
  unfold overdriveFt
  (try dsimp only)
  (repeat' split) <;> (try simp)

@[simp] theorem gauzeStart_frame (s : State) :
    (gauzeStart s).sys = s.sys ∧ (gauzeStart s).conf = s.conf ∧ (gauzeStart s).ing = s.ing ∧ (gauzeStart s).pix = s.pix ∧ (gauzeStart s).lmp = s.lmp ∧ (gauzeStart s).dmk = s.dmk ∧ (gauzeStart s).od = s.od ∧ (gauzeStart s).tmg = s.tmg ∧ (gauzeStart s).pnl = s.pnl ∧ (gauzeStart s).twl = s.twl ∧ (gauzeStart s).cue = s.cue ∧ (gauzeStart s).mem = s.mem ∧ (gauzeStart s).cal = s.cal ∧ (gauzeStart s).gng = s.gng ∧ (gauzeStart s).sec = s.sec ∧ (gauzeStart s).flt = s.flt ∧ (gauzeStart s).thm = s.thm ∧ (gauzeStart s).trc = s.trc ∧ (gauzeStart s).bst = s.bst ∧ (gauzeStart s).pending = s.pending ∧ (gauzeStart s).hif.power = s.hif.power ∧ (gauzeStart s).hif.d3hot = s.hif.d3hot ∧ (gauzeStart s).rings.sqs = s.rings.sqs := by
  unfold gauzeStart
  (try dsimp only)
  (repeat' split) <;> (try simp)

@[simp] theorem gauzeOff_frame (s : State) :
    (gauzeOff s).sys = s.sys ∧ (gauzeOff s).pwr = s.pwr ∧ (gauzeOff s).hif = s.hif ∧ (gauzeOff s).rings = s.rings ∧ (gauzeOff s).conf = s.conf ∧ (gauzeOff s).ing = s.ing ∧ (gauzeOff s).pix = s.pix ∧ (gauzeOff s).dmk = s.dmk ∧ (gauzeOff s).od = s.od ∧ (gauzeOff s).tmg = s.tmg ∧ (gauzeOff s).pnl = s.pnl ∧ (gauzeOff s).twl = s.twl ∧ (gauzeOff s).cue = s.cue ∧ (gauzeOff s).mem = s.mem ∧ (gauzeOff s).lin = s.lin ∧ (gauzeOff s).cal = s.cal ∧ (gauzeOff s).sec = s.sec ∧ (gauzeOff s).flt = s.flt ∧ (gauzeOff s).thm = s.thm ∧ (gauzeOff s).trc = s.trc ∧ (gauzeOff s).bst = s.bst ∧ (gauzeOff s).pending = s.pending := by
  unfold gauzeOff
  (repeat' split) <;> (try simp)

@[simp] theorem lampFt_frame (counted : Bool) (s : State) :
    (lampFt counted s).sys = s.sys ∧ (lampFt counted s).pwr = s.pwr ∧ (lampFt counted s).hif = s.hif ∧ (lampFt counted s).rings = s.rings ∧ (lampFt counted s).conf = s.conf ∧ (lampFt counted s).ing = s.ing ∧ (lampFt counted s).pix = s.pix ∧ (lampFt counted s).gz = s.gz ∧ (lampFt counted s).dmk = s.dmk ∧ (lampFt counted s).od = s.od ∧ (lampFt counted s).tmg = s.tmg ∧ (lampFt counted s).pnl = s.pnl ∧ (lampFt counted s).twl = s.twl ∧ (lampFt counted s).cue = s.cue ∧ (lampFt counted s).mem = s.mem ∧ (lampFt counted s).lin = s.lin ∧ (lampFt counted s).cal = s.cal ∧ (lampFt counted s).gng = s.gng ∧ (lampFt counted s).sec = s.sec ∧ (lampFt counted s).flt = s.flt ∧ (lampFt counted s).thm = s.thm ∧ (lampFt counted s).trc = s.trc ∧ (lampFt counted s).bst = s.bst ∧ (lampFt counted s).pending = s.pending := by
  unfold lampFt
  (try dsimp only)
  (repeat' split) <;> (try simp)

@[simp] theorem discardArms_frame (s : State) :
    (discardArms s).sys = s.sys ∧ (discardArms s).pwr = s.pwr ∧ (discardArms s).pix = s.pix ∧ (discardArms s).lmp = s.lmp ∧ (discardArms s).dmk = s.dmk ∧ (discardArms s).od = s.od ∧ (discardArms s).tmg = s.tmg ∧ (discardArms s).pnl = s.pnl ∧ (discardArms s).twl = s.twl ∧ (discardArms s).mem = s.mem ∧ (discardArms s).lin = s.lin ∧ (discardArms s).cal = s.cal ∧ (discardArms s).sec = s.sec ∧ (discardArms s).flt = s.flt ∧ (discardArms s).thm = s.thm ∧ (discardArms s).bst = s.bst ∧ (discardArms s).pending = s.pending ∧ (discardArms s).conf.regs = s.conf.regs ∧ (discardArms s).conf.tables = s.conf.tables ∧ (discardArms s).hif.power = s.hif.power ∧ (discardArms s).hif.d3hot = s.hif.d3hot := by
  unfold discardArms
  (try simp)
  (repeat' split) <;> (try simp)

@[simp] theorem adoptFt_frame (now : Bool) (old : Nat) (s : State) :
    (adoptFt now old s).sys = s.sys ∧ (adoptFt now old s).pwr = s.pwr ∧ (adoptFt now old s).pix = s.pix ∧ (adoptFt now old s).lmp = s.lmp ∧ (adoptFt now old s).dmk = s.dmk ∧ (adoptFt now old s).od = s.od ∧ (adoptFt now old s).pnl = s.pnl ∧ (adoptFt now old s).twl = s.twl ∧ (adoptFt now old s).mem = s.mem ∧ (adoptFt now old s).lin = s.lin ∧ (adoptFt now old s).cal = s.cal ∧ (adoptFt now old s).sec = s.sec ∧ (adoptFt now old s).flt = s.flt ∧ (adoptFt now old s).thm = s.thm ∧ (adoptFt now old s).bst = s.bst ∧ (adoptFt now old s).pending = s.pending ∧ (adoptFt now old s).conf.regs = s.conf.regs ∧ (adoptFt now old s).conf.tables = s.conf.tables ∧ (adoptFt now old s).hif.power = s.hif.power ∧ (adoptFt now old s).hif.d3hot = s.hif.d3hot ∧ (adoptFt now old s).tmg.running = s.tmg.running := by
  unfold adoptFt
  (try simp)
  (repeat' split) <;> (try simp)

@[simp] theorem lateStep_frame (s : State) :
    (lateStep s).sys = s.sys ∧ (lateStep s).pwr = s.pwr ∧ (lateStep s).conf = s.conf ∧ (lateStep s).pix = s.pix ∧ (lateStep s).gz = s.gz ∧ (lateStep s).lmp = s.lmp ∧ (lateStep s).dmk = s.dmk ∧ (lateStep s).od = s.od ∧ (lateStep s).tmg = s.tmg ∧ (lateStep s).pnl = s.pnl ∧ (lateStep s).twl = s.twl ∧ (lateStep s).lin = s.lin ∧ (lateStep s).cal = s.cal ∧ (lateStep s).gng = s.gng ∧ (lateStep s).flt = s.flt ∧ (lateStep s).thm = s.thm ∧ (lateStep s).bst = s.bst ∧ (lateStep s).pending = s.pending ∧ (lateStep s).mem.bytes = s.mem.bytes ∧ (lateStep s).mem.written = s.mem.written ∧ (lateStep s).sec.fuses = s.sec.fuses ∧ (lateStep s).hif.power = s.hif.power ∧ (lateStep s).hif.d3hot = s.hif.d3hot ∧ (lateStep s).rings.sqs = s.rings.sqs := by
  unfold lateStep
  (try simp)
  (repeat' split) <;> (try simp)

@[simp] theorem newFrame_frame (s : State) :
    (newFrame s).sys = s.sys ∧ (newFrame s).pwr = s.pwr ∧ (newFrame s).hif = s.hif ∧ (newFrame s).rings = s.rings ∧ (newFrame s).conf = s.conf ∧ (newFrame s).gz = s.gz ∧ (newFrame s).lmp = s.lmp ∧ (newFrame s).od = s.od ∧ (newFrame s).pnl = s.pnl ∧ (newFrame s).cue = s.cue ∧ (newFrame s).lin = s.lin ∧ (newFrame s).cal = s.cal ∧ (newFrame s).flt = s.flt ∧ (newFrame s).thm = s.thm ∧ (newFrame s).bst = s.bst ∧ (newFrame s).out = s.out ∧ (newFrame s).free = s.free ∧ (newFrame s).pending = s.pending ∧ (newFrame s).mem.bytes = s.mem.bytes ∧ (newFrame s).mem.written = s.mem.written ∧ (newFrame s).sec.fuses = s.sec.fuses ∧ (newFrame s).tmg.running = s.tmg.running := by
  unfold newFrame
  (try dsimp only)
  (repeat' split) <;> (try simp)

@[simp] theorem powerDown_frame (s : State) :
    (powerDown s).pwr = s.pwr ∧ (powerDown s).conf = s.conf ∧ (powerDown s).pix = s.pix ∧ (powerDown s).gz = s.gz ∧ (powerDown s).dmk = s.dmk ∧ (powerDown s).od = s.od ∧ (powerDown s).tmg = s.tmg ∧ (powerDown s).cue = s.cue ∧ (powerDown s).mem = s.mem ∧ (powerDown s).lin = s.lin ∧ (powerDown s).cal = s.cal ∧ (powerDown s).gng = s.gng ∧ (powerDown s).sec = s.sec ∧ (powerDown s).flt = s.flt ∧ (powerDown s).thm = s.thm ∧ (powerDown s).bst = s.bst ∧ (powerDown s).pending = s.pending ∧ (powerDown s).sys.mode = s.sys.mode ∧ (powerDown s).sys.fe = s.sys.fe ∧ (powerDown s).sys.lock = s.sys.lock ∧ (powerDown s).sys.serving = s.sys.serving ∧ (powerDown s).sys.stage = s.sys.stage ∧ (powerDown s).hif.power = s.hif.power ∧ (powerDown s).hif.d3hot = s.hif.d3hot ∧ (powerDown s).rings.sqs = s.rings.sqs := by
  unfold powerDown
  (try simp)
  (repeat' split) <;> (try simp)

@[simp] theorem linksFt_frame (s : State) :
    (linksFt s).sys = s.sys ∧ (linksFt s).pwr = s.pwr ∧ (linksFt s).ing = s.ing ∧ (linksFt s).pix = s.pix ∧ (linksFt s).gz = s.gz ∧ (linksFt s).lmp = s.lmp ∧ (linksFt s).dmk = s.dmk ∧ (linksFt s).od = s.od ∧ (linksFt s).tmg = s.tmg ∧ (linksFt s).pnl = s.pnl ∧ (linksFt s).twl = s.twl ∧ (linksFt s).cue = s.cue ∧ (linksFt s).mem = s.mem ∧ (linksFt s).sec = s.sec ∧ (linksFt s).thm = s.thm ∧ (linksFt s).bst = s.bst ∧ (linksFt s).pending = s.pending ∧ (linksFt s).conf.regs = s.conf.regs ∧ (linksFt s).conf.tables = s.conf.tables ∧ (linksFt s).hif.power = s.hif.power ∧ (linksFt s).hif.d3hot = s.hif.d3hot := by
  unfold linksFt
  (repeat' split) <;> (try simp)

@[simp] theorem beginFrame_frame (n clocks : Nat) (s : State) :
    (beginFrame n clocks s).dmk = s.dmk ∧ (beginFrame n clocks s).sec = s.sec ∧ (beginFrame n clocks s).thm = s.thm ∧ (beginFrame n clocks s).bst = s.bst ∧ (beginFrame n clocks s).pending = s.pending ∧ (beginFrame n clocks s).sys.lock = s.sys.lock ∧ (beginFrame n clocks s).sys.serving = s.sys.serving ∧ (beginFrame n clocks s).hif.power = s.hif.power ∧ (beginFrame n clocks s).tmg.running = s.tmg.running := by
  unfold beginFrame
  (try simp)
  (repeat' split) <;> (try simp)

@[simp] theorem beginFrame_sound (n clocks : Nat) (s : State) (hs : PagesSound s.mem.bytes s.mem.written) :
    PagesSound (beginFrame n clocks s).mem.bytes (beginFrame n clocks s).mem.written := by
  unfold beginFrame
  (try dsimp only)
  (repeat' split) <;> (try simp [hs])

@[simp] theorem sampleVin_frame (v : Nat) (s : State) :
    (sampleVin v s).sys = s.sys ∧ (sampleVin v s).hif = s.hif ∧ (sampleVin v s).rings = s.rings ∧ (sampleVin v s).conf = s.conf ∧ (sampleVin v s).ing = s.ing ∧ (sampleVin v s).pix = s.pix ∧ (sampleVin v s).gz = s.gz ∧ (sampleVin v s).lmp = s.lmp ∧ (sampleVin v s).dmk = s.dmk ∧ (sampleVin v s).od = s.od ∧ (sampleVin v s).tmg = s.tmg ∧ (sampleVin v s).pnl = s.pnl ∧ (sampleVin v s).twl = s.twl ∧ (sampleVin v s).cue = s.cue ∧ (sampleVin v s).mem = s.mem ∧ (sampleVin v s).lin = s.lin ∧ (sampleVin v s).cal = s.cal ∧ (sampleVin v s).gng = s.gng ∧ (sampleVin v s).sec = s.sec ∧ (sampleVin v s).flt = s.flt ∧ (sampleVin v s).thm = s.thm ∧ (sampleVin v s).trc = s.trc ∧ (sampleVin v s).bst = s.bst ∧ (sampleVin v s).out = s.out ∧ (sampleVin v s).free = s.free ∧ (sampleVin v s).pending = s.pending ∧ (sampleVin v s).pwr.fall = s.pwr.fall := by
  unfold sampleVin
  (try dsimp only)
  (repeat' split) <;> (try simp)

@[simp] theorem vinGoodSample_frame (s : State) :
    (vinGoodSample s).sys = s.sys ∧ (vinGoodSample s).hif = s.hif ∧ (vinGoodSample s).rings = s.rings ∧ (vinGoodSample s).conf = s.conf ∧ (vinGoodSample s).ing = s.ing ∧ (vinGoodSample s).pix = s.pix ∧ (vinGoodSample s).gz = s.gz ∧ (vinGoodSample s).lmp = s.lmp ∧ (vinGoodSample s).dmk = s.dmk ∧ (vinGoodSample s).od = s.od ∧ (vinGoodSample s).tmg = s.tmg ∧ (vinGoodSample s).pnl = s.pnl ∧ (vinGoodSample s).twl = s.twl ∧ (vinGoodSample s).cue = s.cue ∧ (vinGoodSample s).mem = s.mem ∧ (vinGoodSample s).lin = s.lin ∧ (vinGoodSample s).cal = s.cal ∧ (vinGoodSample s).gng = s.gng ∧ (vinGoodSample s).sec = s.sec ∧ (vinGoodSample s).flt = s.flt ∧ (vinGoodSample s).thm = s.thm ∧ (vinGoodSample s).trc = s.trc ∧ (vinGoodSample s).bst = s.bst ∧ (vinGoodSample s).out = s.out ∧ (vinGoodSample s).pending = s.pending ∧ (vinGoodSample s).pwr.fall = s.pwr.fall := by
  unfold vinGoodSample
  (try dsimp only)
  (repeat' split) <;> (try simp)

@[simp] theorem beginFall_frame (vin : Nat) (s : State) :
    (beginFall vin s).conf = s.conf ∧ (beginFall vin s).ing = s.ing ∧ (beginFall vin s).pix = s.pix ∧ (beginFall vin s).lmp = s.lmp ∧ (beginFall vin s).dmk = s.dmk ∧ (beginFall vin s).od = s.od ∧ (beginFall vin s).pnl = s.pnl ∧ (beginFall vin s).cue = s.cue ∧ (beginFall vin s).mem = s.mem ∧ (beginFall vin s).cal = s.cal ∧ (beginFall vin s).sec = s.sec ∧ (beginFall vin s).flt = s.flt ∧ (beginFall vin s).thm = s.thm ∧ (beginFall vin s).bst = s.bst ∧ (beginFall vin s).pending = s.pending ∧ (beginFall vin s).sys.mode = s.sys.mode ∧ (beginFall vin s).sys.fe = s.sys.fe ∧ (beginFall vin s).sys.lock = s.sys.lock ∧ (beginFall vin s).sys.stage = s.sys.stage ∧ (beginFall vin s).hif.power = s.hif.power ∧ (beginFall vin s).hif.bme0 = s.hif.bme0 ∧ (beginFall vin s).hif.bme1 = s.hif.bme1 ∧ (beginFall vin s).hif.d3hot = s.hif.d3hot ∧ (beginFall vin s).rings.sqs = s.rings.sqs := by
  unfold beginFall
  (try dsimp only)
  (repeat' split) <;> (try simp)

@[simp] theorem vinLost_frame (vin : Nat) (s : State) :
    (vinLost vin s).bst = s.bst ∧ (vinLost vin s).pending = s.pending ∧ (vinLost vin s).sec.fuses = s.sec.fuses := by
  unfold vinLost
  (try simp)
  (repeat' split) <;> (try simp)

@[simp] theorem vinLost_sound (vin : Nat) (s : State) (hs : PagesSound s.mem.bytes s.mem.written) :
    PagesSound (vinLost vin s).mem.bytes (vinLost vin s).mem.written := by
  unfold vinLost
  (try simp [hs])
  (repeat' split) <;> (try simp [hs])

@[simp] theorem dormantLoss_frame (s : State) :
    (dormantLoss s).bst = s.bst ∧ (dormantLoss s).pending = s.pending ∧ (dormantLoss s).sec.fuses = s.sec.fuses := by
  unfold dormantLoss
  (try dsimp only)
  (repeat' split) <;> (try simp)

@[simp] theorem dormantLoss_sound (s : State) (hs : PagesSound s.mem.bytes s.mem.written) :
    PagesSound (dormantLoss s).mem.bytes (dormantLoss s).mem.written := by
  unfold dormantLoss
  (try dsimp only)
  (repeat' split) <;> (try simp [hs])

@[simp] theorem imageFallback_frame (s : State) :
    (imageFallback s).sys = s.sys ∧ (imageFallback s).pwr = s.pwr ∧ (imageFallback s).conf = s.conf ∧ (imageFallback s).ing = s.ing ∧ (imageFallback s).pix = s.pix ∧ (imageFallback s).gz = s.gz ∧ (imageFallback s).lmp = s.lmp ∧ (imageFallback s).dmk = s.dmk ∧ (imageFallback s).od = s.od ∧ (imageFallback s).tmg = s.tmg ∧ (imageFallback s).pnl = s.pnl ∧ (imageFallback s).twl = s.twl ∧ (imageFallback s).cue = s.cue ∧ (imageFallback s).mem = s.mem ∧ (imageFallback s).lin = s.lin ∧ (imageFallback s).cal = s.cal ∧ (imageFallback s).gng = s.gng ∧ (imageFallback s).sec = s.sec ∧ (imageFallback s).flt = s.flt ∧ (imageFallback s).thm = s.thm ∧ (imageFallback s).trc = s.trc ∧ (imageFallback s).bst = s.bst ∧ (imageFallback s).pending = s.pending ∧ (imageFallback s).hif.power = s.hif.power ∧ (imageFallback s).hif.bme0 = s.hif.bme0 ∧ (imageFallback s).hif.bme1 = s.hif.bme1 ∧ (imageFallback s).hif.d3hot = s.hif.d3hot ∧ (imageFallback s).rings.sqs = s.rings.sqs := by
  unfold imageFallback
  (try dsimp only)
  (repeat' split) <;> (try simp)

@[simp] theorem applyProfile_frame (s : State) :
    (applyProfile s).sys = s.sys ∧ (applyProfile s).pwr = s.pwr ∧ (applyProfile s).ing = s.ing ∧ (applyProfile s).pix = s.pix ∧ (applyProfile s).gz = s.gz ∧ (applyProfile s).lmp = s.lmp ∧ (applyProfile s).od = s.od ∧ (applyProfile s).pnl = s.pnl ∧ (applyProfile s).twl = s.twl ∧ (applyProfile s).cue = s.cue ∧ (applyProfile s).mem = s.mem ∧ (applyProfile s).lin = s.lin ∧ (applyProfile s).cal = s.cal ∧ (applyProfile s).gng = s.gng ∧ (applyProfile s).sec = s.sec ∧ (applyProfile s).flt = s.flt ∧ (applyProfile s).thm = s.thm ∧ (applyProfile s).trc = s.trc ∧ (applyProfile s).bst = s.bst ∧ (applyProfile s).free = s.free ∧ (applyProfile s).pending = s.pending ∧ (applyProfile s).hif.power = s.hif.power ∧ (applyProfile s).hif.bme0 = s.hif.bme0 ∧ (applyProfile s).hif.bme1 = s.hif.bme1 ∧ (applyProfile s).hif.d3hot = s.hif.d3hot ∧ (applyProfile s).tmg.running = s.tmg.running ∧ (applyProfile s).rings.sqs = s.rings.sqs := by
  unfold applyProfile
  (try simp)
  (repeat' split) <;> (try simp)

@[simp] theorem recallDead_frame (s : State) :
    (recallDead s).sys = s.sys ∧ (recallDead s).pwr = s.pwr ∧ (recallDead s).conf = s.conf ∧ (recallDead s).ing = s.ing ∧ (recallDead s).pix = s.pix ∧ (recallDead s).lmp = s.lmp ∧ (recallDead s).dmk = s.dmk ∧ (recallDead s).od = s.od ∧ (recallDead s).tmg = s.tmg ∧ (recallDead s).pnl = s.pnl ∧ (recallDead s).twl = s.twl ∧ (recallDead s).cue = s.cue ∧ (recallDead s).mem = s.mem ∧ (recallDead s).lin = s.lin ∧ (recallDead s).cal = s.cal ∧ (recallDead s).gng = s.gng ∧ (recallDead s).sec = s.sec ∧ (recallDead s).flt = s.flt ∧ (recallDead s).thm = s.thm ∧ (recallDead s).trc = s.trc ∧ (recallDead s).bst = s.bst ∧ (recallDead s).free = s.free ∧ (recallDead s).pending = s.pending ∧ (recallDead s).hif.power = s.hif.power ∧ (recallDead s).hif.d3hot = s.hif.d3hot ∧ (recallDead s).rings.sqs = s.rings.sqs := by
  unfold recallDead
  (try dsimp only)
  (repeat' split) <;> (try simp)

@[simp] theorem recallGains_frame (s : State) :
    (recallGains s).sys = s.sys ∧ (recallGains s).pwr = s.pwr ∧ (recallGains s).hif = s.hif ∧ (recallGains s).rings = s.rings ∧ (recallGains s).conf = s.conf ∧ (recallGains s).ing = s.ing ∧ (recallGains s).pix = s.pix ∧ (recallGains s).lmp = s.lmp ∧ (recallGains s).dmk = s.dmk ∧ (recallGains s).od = s.od ∧ (recallGains s).tmg = s.tmg ∧ (recallGains s).pnl = s.pnl ∧ (recallGains s).twl = s.twl ∧ (recallGains s).cue = s.cue ∧ (recallGains s).mem = s.mem ∧ (recallGains s).lin = s.lin ∧ (recallGains s).cal = s.cal ∧ (recallGains s).gng = s.gng ∧ (recallGains s).sec = s.sec ∧ (recallGains s).flt = s.flt ∧ (recallGains s).thm = s.thm ∧ (recallGains s).trc = s.trc ∧ (recallGains s).bst = s.bst ∧ (recallGains s).out = s.out ∧ (recallGains s).free = s.free ∧ (recallGains s).pending = s.pending := by
  unfold recallGains
  (try dsimp only)
  (repeat' split) <;> (try simp)

@[simp] theorem bootPanel_frame (s : State) :
    (bootPanel s).sys = s.sys ∧ (bootPanel s).pwr = s.pwr ∧ (bootPanel s).conf = s.conf ∧ (bootPanel s).ing = s.ing ∧ (bootPanel s).pix = s.pix ∧ (bootPanel s).gz = s.gz ∧ (bootPanel s).lmp = s.lmp ∧ (bootPanel s).dmk = s.dmk ∧ (bootPanel s).od = s.od ∧ (bootPanel s).tmg = s.tmg ∧ (bootPanel s).twl = s.twl ∧ (bootPanel s).cue = s.cue ∧ (bootPanel s).mem = s.mem ∧ (bootPanel s).lin = s.lin ∧ (bootPanel s).cal = s.cal ∧ (bootPanel s).gng = s.gng ∧ (bootPanel s).sec = s.sec ∧ (bootPanel s).flt = s.flt ∧ (bootPanel s).thm = s.thm ∧ (bootPanel s).bst = s.bst ∧ (bootPanel s).pending = s.pending ∧ (bootPanel s).hif.power = s.hif.power ∧ (bootPanel s).hif.bme0 = s.hif.bme0 ∧ (bootPanel s).hif.bme1 = s.hif.bme1 ∧ (bootPanel s).hif.d3hot = s.hif.d3hot ∧ (bootPanel s).rings.sqs = s.rings.sqs ∧ (bootPanel s).rings.cqs = s.rings.cqs ∧ (bootPanel s).rings.eq0 = s.rings.eq0 ∧ (bootPanel s).rings.eq1 = s.rings.eq1 := by
  unfold bootPanel
  (try simp)
  (repeat' split) <;> (try simp)

@[simp] theorem showTrip_frame (s : State) :
    (showTrip s).sys = s.sys ∧ (showTrip s).conf = s.conf ∧ (showTrip s).ing = s.ing ∧ (showTrip s).pix = s.pix ∧ (showTrip s).gz = s.gz ∧ (showTrip s).lmp = s.lmp ∧ (showTrip s).dmk = s.dmk ∧ (showTrip s).od = s.od ∧ (showTrip s).tmg = s.tmg ∧ (showTrip s).pnl = s.pnl ∧ (showTrip s).twl = s.twl ∧ (showTrip s).cue = s.cue ∧ (showTrip s).mem = s.mem ∧ (showTrip s).lin = s.lin ∧ (showTrip s).cal = s.cal ∧ (showTrip s).gng = s.gng ∧ (showTrip s).sec = s.sec ∧ (showTrip s).flt = s.flt ∧ (showTrip s).thm = s.thm ∧ (showTrip s).trc = s.trc ∧ (showTrip s).bst = s.bst ∧ (showTrip s).free = s.free ∧ (showTrip s).pending = s.pending ∧ (showTrip s).hif.power = s.hif.power ∧ (showTrip s).hif.bme0 = s.hif.bme0 ∧ (showTrip s).hif.bme1 = s.hif.bme1 ∧ (showTrip s).hif.d3hot = s.hif.d3hot ∧ (showTrip s).pwr.fall = s.pwr.fall ∧ (showTrip s).rings.sqs = s.rings.sqs := by
  unfold showTrip
  (try simp)
  (repeat' split) <;> (try simp)

@[simp] theorem serveRings_frame (s : State) :
    (serveRings s).sys = s.sys ∧ (serveRings s).pwr = s.pwr ∧ (serveRings s).conf = s.conf ∧ (serveRings s).ing = s.ing ∧ (serveRings s).pix = s.pix ∧ (serveRings s).gz = s.gz ∧ (serveRings s).lmp = s.lmp ∧ (serveRings s).dmk = s.dmk ∧ (serveRings s).od = s.od ∧ (serveRings s).tmg = s.tmg ∧ (serveRings s).pnl = s.pnl ∧ (serveRings s).twl = s.twl ∧ (serveRings s).cue = s.cue ∧ (serveRings s).mem = s.mem ∧ (serveRings s).lin = s.lin ∧ (serveRings s).cal = s.cal ∧ (serveRings s).gng = s.gng ∧ (serveRings s).sec = s.sec ∧ (serveRings s).flt = s.flt ∧ (serveRings s).thm = s.thm ∧ (serveRings s).trc = s.trc ∧ (serveRings s).bst = s.bst ∧ (serveRings s).free = s.free ∧ (serveRings s).pending = s.pending ∧ (serveRings s).hif.power = s.hif.power ∧ (serveRings s).hif.d3hot = s.hif.d3hot := by
  unfold serveRings
  (try simp)
  (repeat' split) <;> (try simp)

@[simp] theorem startFirmware_frame (img : Bytes) (second : Bool) (s : State) :
    (startFirmware img second s).ing = s.ing ∧ (startFirmware img second s).pix = s.pix ∧ (startFirmware img second s).lmp = s.lmp ∧ (startFirmware img second s).od = s.od ∧ (startFirmware img second s).twl = s.twl ∧ (startFirmware img second s).cue = s.cue ∧ (startFirmware img second s).mem = s.mem ∧ (startFirmware img second s).gng = s.gng ∧ (startFirmware img second s).thm = s.thm ∧ (startFirmware img second s).bst = s.bst ∧ (startFirmware img second s).pending = s.pending ∧ (startFirmware img second s).sys.mode = s.sys.mode ∧ (startFirmware img second s).sys.fe = s.sys.fe ∧ (startFirmware img second s).sys.transit = s.sys.transit ∧ (startFirmware img second s).sys.lock = s.sys.lock ∧ (startFirmware img second s).sec.fuses = s.sec.fuses ∧ (startFirmware img second s).hif.power = s.hif.power ∧ (startFirmware img second s).hif.d3hot = s.hif.d3hot ∧ (startFirmware img second s).pwr.fall = s.pwr.fall ∧ (startFirmware img second s).tmg.running = s.tmg.running := by
  unfold startFirmware
  (try simp)
  (repeat' split) <;> (try simp)

@[simp] theorem startRecovery_frame (s : State) :
    (startRecovery s).conf = s.conf ∧ (startRecovery s).ing = s.ing ∧ (startRecovery s).pix = s.pix ∧ (startRecovery s).gz = s.gz ∧ (startRecovery s).lmp = s.lmp ∧ (startRecovery s).dmk = s.dmk ∧ (startRecovery s).od = s.od ∧ (startRecovery s).tmg = s.tmg ∧ (startRecovery s).pnl = s.pnl ∧ (startRecovery s).twl = s.twl ∧ (startRecovery s).cue = s.cue ∧ (startRecovery s).mem = s.mem ∧ (startRecovery s).cal = s.cal ∧ (startRecovery s).gng = s.gng ∧ (startRecovery s).flt = s.flt ∧ (startRecovery s).thm = s.thm ∧ (startRecovery s).bst = s.bst ∧ (startRecovery s).free = s.free ∧ (startRecovery s).pending = s.pending ∧ (startRecovery s).sys.mode = s.sys.mode ∧ (startRecovery s).sys.fe = s.sys.fe ∧ (startRecovery s).sys.transit = s.sys.transit ∧ (startRecovery s).sys.lock = s.sys.lock ∧ (startRecovery s).sec.fuses = s.sec.fuses ∧ (startRecovery s).hif.power = s.hif.power ∧ (startRecovery s).hif.d3hot = s.hif.d3hot ∧ (startRecovery s).pwr.fall = s.pwr.fall := by
  unfold startRecovery
  (try dsimp only)
  (repeat' split) <;> (try simp)

@[simp] theorem measureRom_frame (s : State) :
    (measureRom s).sys = s.sys ∧ (measureRom s).pwr = s.pwr ∧ (measureRom s).hif = s.hif ∧ (measureRom s).rings = s.rings ∧ (measureRom s).conf = s.conf ∧ (measureRom s).ing = s.ing ∧ (measureRom s).pix = s.pix ∧ (measureRom s).gz = s.gz ∧ (measureRom s).lmp = s.lmp ∧ (measureRom s).dmk = s.dmk ∧ (measureRom s).od = s.od ∧ (measureRom s).tmg = s.tmg ∧ (measureRom s).pnl = s.pnl ∧ (measureRom s).twl = s.twl ∧ (measureRom s).cue = s.cue ∧ (measureRom s).mem = s.mem ∧ (measureRom s).lin = s.lin ∧ (measureRom s).cal = s.cal ∧ (measureRom s).gng = s.gng ∧ (measureRom s).flt = s.flt ∧ (measureRom s).thm = s.thm ∧ (measureRom s).trc = s.trc ∧ (measureRom s).bst = s.bst ∧ (measureRom s).out = s.out ∧ (measureRom s).free = s.free ∧ (measureRom s).pending = s.pending ∧ (measureRom s).sec.fuses = s.sec.fuses := by
  unfold measureRom
  (try dsimp only)
  (repeat' split) <;> (try simp)

@[simp] theorem imageVerified_frame (s : State) :
    (imageVerified s).ing = s.ing ∧ (imageVerified s).pix = s.pix ∧ (imageVerified s).lmp = s.lmp ∧ (imageVerified s).od = s.od ∧ (imageVerified s).twl = s.twl ∧ (imageVerified s).cue = s.cue ∧ (imageVerified s).mem = s.mem ∧ (imageVerified s).gng = s.gng ∧ (imageVerified s).thm = s.thm ∧ (imageVerified s).bst = s.bst ∧ (imageVerified s).pending = s.pending ∧ (imageVerified s).sys.mode = s.sys.mode ∧ (imageVerified s).sys.fe = s.sys.fe ∧ (imageVerified s).sys.transit = s.sys.transit ∧ (imageVerified s).sys.lock = s.sys.lock ∧ (imageVerified s).sec.fuses = s.sec.fuses ∧ (imageVerified s).hif.power = s.hif.power ∧ (imageVerified s).hif.d3hot = s.hif.d3hot ∧ (imageVerified s).pwr.fall = s.pwr.fall ∧ (imageVerified s).tmg.running = s.tmg.running := by
  unfold imageVerified
  (try simp)
  (repeat' split) <;> (try simp)

@[simp] theorem saveTraining_frame (s : State) :
    (saveTraining s).sys = s.sys ∧ (saveTraining s).pwr = s.pwr ∧ (saveTraining s).hif = s.hif ∧ (saveTraining s).rings = s.rings ∧ (saveTraining s).conf = s.conf ∧ (saveTraining s).ing = s.ing ∧ (saveTraining s).pix = s.pix ∧ (saveTraining s).gz = s.gz ∧ (saveTraining s).lmp = s.lmp ∧ (saveTraining s).dmk = s.dmk ∧ (saveTraining s).od = s.od ∧ (saveTraining s).tmg = s.tmg ∧ (saveTraining s).pnl = s.pnl ∧ (saveTraining s).twl = s.twl ∧ (saveTraining s).cue = s.cue ∧ (saveTraining s).mem = s.mem ∧ (saveTraining s).cal = s.cal ∧ (saveTraining s).gng = s.gng ∧ (saveTraining s).sec = s.sec ∧ (saveTraining s).flt = s.flt ∧ (saveTraining s).thm = s.thm ∧ (saveTraining s).trc = s.trc ∧ (saveTraining s).bst = s.bst ∧ (saveTraining s).out = s.out ∧ (saveTraining s).pending = s.pending := by
  unfold saveTraining
  (try dsimp only)
  (repeat' split) <;> (try simp)

@[simp] theorem loadEntries_frame (d : Bytes) (l : List Nat) (s : State) :
    ((loadEntries d l s).2).sys = s.sys ∧ ((loadEntries d l s).2).pwr = s.pwr ∧ ((loadEntries d l s).2).conf = s.conf ∧ ((loadEntries d l s).2).ing = s.ing ∧ ((loadEntries d l s).2).pix = s.pix ∧ ((loadEntries d l s).2).gz = s.gz ∧ ((loadEntries d l s).2).lmp = s.lmp ∧ ((loadEntries d l s).2).dmk = s.dmk ∧ ((loadEntries d l s).2).od = s.od ∧ ((loadEntries d l s).2).tmg = s.tmg ∧ ((loadEntries d l s).2).pnl = s.pnl ∧ ((loadEntries d l s).2).twl = s.twl ∧ ((loadEntries d l s).2).lin = s.lin ∧ ((loadEntries d l s).2).cal = s.cal ∧ ((loadEntries d l s).2).gng = s.gng ∧ ((loadEntries d l s).2).flt = s.flt ∧ ((loadEntries d l s).2).thm = s.thm ∧ ((loadEntries d l s).2).trc = s.trc ∧ ((loadEntries d l s).2).bst = s.bst ∧ ((loadEntries d l s).2).free = s.free ∧ ((loadEntries d l s).2).pending = s.pending ∧ ((loadEntries d l s).2).sec.fuses = s.sec.fuses ∧ ((loadEntries d l s).2).hif.power = s.hif.power ∧ ((loadEntries d l s).2).hif.bme0 = s.hif.bme0 ∧ ((loadEntries d l s).2).hif.bme1 = s.hif.bme1 ∧ ((loadEntries d l s).2).hif.d3hot = s.hif.d3hot ∧ ((loadEntries d l s).2).rings.sqs = s.rings.sqs := by
  induction l generalizing s with
  | nil => simp [loadEntries]
  | cons e r ih => unfold loadEntries; dsimp only; (repeat' split) <;> simp [ih]

@[simp] theorem loadEntries_sound (d : Bytes) (l : List Nat) (s : State) (hs : PagesSound s.mem.bytes s.mem.written) :
    PagesSound ((loadEntries d l s).2).mem.bytes ((loadEntries d l s).2).mem.written := by
  induction l generalizing s with
  | nil => simpa [loadEntries] using hs
  | cons e r ih => unfold loadEntries; dsimp only; (repeat' split) <;> simp [hs, ih]

@[simp] theorem cueLoadFailed_frame (b : Nat) (d : Bytes) (s : State) :
    (cueLoadFailed b d s).sys = s.sys ∧ (cueLoadFailed b d s).pwr = s.pwr ∧ (cueLoadFailed b d s).conf = s.conf ∧ (cueLoadFailed b d s).ing = s.ing ∧ (cueLoadFailed b d s).pix = s.pix ∧ (cueLoadFailed b d s).gz = s.gz ∧ (cueLoadFailed b d s).dmk = s.dmk ∧ (cueLoadFailed b d s).od = s.od ∧ (cueLoadFailed b d s).tmg = s.tmg ∧ (cueLoadFailed b d s).lin = s.lin ∧ (cueLoadFailed b d s).cal = s.cal ∧ (cueLoadFailed b d s).gng = s.gng ∧ (cueLoadFailed b d s).sec = s.sec ∧ (cueLoadFailed b d s).flt = s.flt ∧ (cueLoadFailed b d s).thm = s.thm ∧ (cueLoadFailed b d s).bst = s.bst ∧ (cueLoadFailed b d s).pending = s.pending ∧ (cueLoadFailed b d s).hif.power = s.hif.power ∧ (cueLoadFailed b d s).hif.bme0 = s.hif.bme0 ∧ (cueLoadFailed b d s).hif.bme1 = s.hif.bme1 ∧ (cueLoadFailed b d s).hif.d3hot = s.hif.d3hot ∧ (cueLoadFailed b d s).rings.sqs = s.rings.sqs := by
  unfold cueLoadFailed
  (try dsimp only)
  (repeat' split) <;> (try simp)

@[simp] theorem cueLoadFailed_sound (b : Nat) (d : Bytes) (s : State) (hs : PagesSound s.mem.bytes s.mem.written) :
    PagesSound (cueLoadFailed b d s).mem.bytes (cueLoadFailed b d s).mem.written := by
  unfold cueLoadFailed; dsimp only
  simp only [beginPowerOff_frame, post_frame]
  exact forAll_sound _ _ _ (fun a s h => dropBuffer_sound a s h) hs

@[simp] theorem loadCue_frame (s : State) :
    (loadCue s).sys = s.sys ∧ (loadCue s).pwr = s.pwr ∧ (loadCue s).conf = s.conf ∧ (loadCue s).ing = s.ing ∧ (loadCue s).pix = s.pix ∧ (loadCue s).gz = s.gz ∧ (loadCue s).dmk = s.dmk ∧ (loadCue s).od = s.od ∧ (loadCue s).tmg = s.tmg ∧ (loadCue s).lin = s.lin ∧ (loadCue s).cal = s.cal ∧ (loadCue s).gng = s.gng ∧ (loadCue s).flt = s.flt ∧ (loadCue s).thm = s.thm ∧ (loadCue s).bst = s.bst ∧ (loadCue s).pending = s.pending ∧ (loadCue s).sec.fuses = s.sec.fuses ∧ (loadCue s).hif.power = s.hif.power ∧ (loadCue s).hif.bme0 = s.hif.bme0 ∧ (loadCue s).hif.bme1 = s.hif.bme1 ∧ (loadCue s).hif.d3hot = s.hif.d3hot ∧ (loadCue s).rings.sqs = s.rings.sqs := by
  unfold loadCue
  (try simp)
  (repeat' split) <;> (try simp)

@[simp] theorem loadCue_sound (s : State) (hs : PagesSound s.mem.bytes s.mem.written) :
    PagesSound (loadCue s).mem.bytes (loadCue s).mem.written := by
  unfold loadCue
  (try simp [hs])
  (repeat' split) <;> (try simp [hs])

@[simp] theorem beginDamask_frame (s : State) :
    (beginDamask s).sys = s.sys ∧ (beginDamask s).pwr = s.pwr ∧ (beginDamask s).hif = s.hif ∧ (beginDamask s).rings = s.rings ∧ (beginDamask s).conf = s.conf ∧ (beginDamask s).ing = s.ing ∧ (beginDamask s).pix = s.pix ∧ (beginDamask s).gz = s.gz ∧ (beginDamask s).lmp = s.lmp ∧ (beginDamask s).od = s.od ∧ (beginDamask s).tmg = s.tmg ∧ (beginDamask s).pnl = s.pnl ∧ (beginDamask s).twl = s.twl ∧ (beginDamask s).cue = s.cue ∧ (beginDamask s).mem = s.mem ∧ (beginDamask s).lin = s.lin ∧ (beginDamask s).cal = s.cal ∧ (beginDamask s).gng = s.gng ∧ (beginDamask s).sec = s.sec ∧ (beginDamask s).flt = s.flt ∧ (beginDamask s).thm = s.thm ∧ (beginDamask s).trc = s.trc ∧ (beginDamask s).bst = s.bst ∧ (beginDamask s).out = s.out ∧ (beginDamask s).free = s.free ∧ (beginDamask s).pending = s.pending := by
  unfold beginDamask
  (try simp)
  (repeat' split) <;> (try simp)

@[simp] theorem measureProfile_frame (s : State) :
    (measureProfile s).sys = s.sys ∧ (measureProfile s).pwr = s.pwr ∧ (measureProfile s).hif = s.hif ∧ (measureProfile s).rings = s.rings ∧ (measureProfile s).conf = s.conf ∧ (measureProfile s).ing = s.ing ∧ (measureProfile s).pix = s.pix ∧ (measureProfile s).gz = s.gz ∧ (measureProfile s).lmp = s.lmp ∧ (measureProfile s).dmk = s.dmk ∧ (measureProfile s).od = s.od ∧ (measureProfile s).tmg = s.tmg ∧ (measureProfile s).pnl = s.pnl ∧ (measureProfile s).twl = s.twl ∧ (measureProfile s).cue = s.cue ∧ (measureProfile s).mem = s.mem ∧ (measureProfile s).lin = s.lin ∧ (measureProfile s).cal = s.cal ∧ (measureProfile s).gng = s.gng ∧ (measureProfile s).flt = s.flt ∧ (measureProfile s).thm = s.thm ∧ (measureProfile s).trc = s.trc ∧ (measureProfile s).bst = s.bst ∧ (measureProfile s).out = s.out ∧ (measureProfile s).free = s.free ∧ (measureProfile s).pending = s.pending ∧ (measureProfile s).sec.fuses = s.sec.fuses := by
  unfold measureProfile
  (try simp)
  (repeat' split) <;> (try simp)

@[simp] theorem memoryTrained_frame (patternOk : Bool) (s : State) :
    (memoryTrained patternOk s).pwr = s.pwr ∧ (memoryTrained patternOk s).conf = s.conf ∧ (memoryTrained patternOk s).ing = s.ing ∧ (memoryTrained patternOk s).pix = s.pix ∧ (memoryTrained patternOk s).gz = s.gz ∧ (memoryTrained patternOk s).od = s.od ∧ (memoryTrained patternOk s).tmg = s.tmg ∧ (memoryTrained patternOk s).cal = s.cal ∧ (memoryTrained patternOk s).gng = s.gng ∧ (memoryTrained patternOk s).flt = s.flt ∧ (memoryTrained patternOk s).thm = s.thm ∧ (memoryTrained patternOk s).bst = s.bst ∧ (memoryTrained patternOk s).pending = s.pending ∧ (memoryTrained patternOk s).sys.mode = s.sys.mode ∧ (memoryTrained patternOk s).sys.fe = s.sys.fe ∧ (memoryTrained patternOk s).sys.transit = s.sys.transit ∧ (memoryTrained patternOk s).sys.lock = s.sys.lock ∧ (memoryTrained patternOk s).sys.serving = s.sys.serving ∧ (memoryTrained patternOk s).sec.fuses = s.sec.fuses ∧ (memoryTrained patternOk s).hif.power = s.hif.power ∧ (memoryTrained patternOk s).hif.bme0 = s.hif.bme0 ∧ (memoryTrained patternOk s).hif.bme1 = s.hif.bme1 ∧ (memoryTrained patternOk s).hif.d3hot = s.hif.d3hot ∧ (memoryTrained patternOk s).rings.sqs = s.rings.sqs := by
  unfold memoryTrained
  (try dsimp only)
  (repeat' split) <;> (try simp)

@[simp] theorem memoryTrained_sound (patternOk : Bool) (s : State) (hs : PagesSound s.mem.bytes s.mem.written) :
    PagesSound (memoryTrained patternOk s).mem.bytes (memoryTrained patternOk s).mem.written := by
  unfold memoryTrained
  (try dsimp only)
  (repeat' split) <;> (try simp [hs])

@[simp] theorem beginTicks_frame (s : State) :
    (beginTicks s).sys = s.sys ∧ (beginTicks s).pwr = s.pwr ∧ (beginTicks s).conf = s.conf ∧ (beginTicks s).ing = s.ing ∧ (beginTicks s).pix = s.pix ∧ (beginTicks s).gz = s.gz ∧ (beginTicks s).lmp = s.lmp ∧ (beginTicks s).dmk = s.dmk ∧ (beginTicks s).od = s.od ∧ (beginTicks s).pnl = s.pnl ∧ (beginTicks s).twl = s.twl ∧ (beginTicks s).cue = s.cue ∧ (beginTicks s).mem = s.mem ∧ (beginTicks s).lin = s.lin ∧ (beginTicks s).sec = s.sec ∧ (beginTicks s).flt = s.flt ∧ (beginTicks s).thm = s.thm ∧ (beginTicks s).bst = s.bst ∧ (beginTicks s).pending = s.pending ∧ (beginTicks s).hif.power = s.hif.power := by
  unfold beginTicks
  (try simp)
  (repeat' split) <;> (try simp)

@[simp] theorem bootDone_frame (s : State) :
    (bootDone s).pwr = s.pwr ∧ (bootDone s).conf = s.conf ∧ (bootDone s).ing = s.ing ∧ (bootDone s).pix = s.pix ∧ (bootDone s).gz = s.gz ∧ (bootDone s).lmp = s.lmp ∧ (bootDone s).dmk = s.dmk ∧ (bootDone s).pnl = s.pnl ∧ (bootDone s).twl = s.twl ∧ (bootDone s).cue = s.cue ∧ (bootDone s).mem = s.mem ∧ (bootDone s).lin = s.lin ∧ (bootDone s).sec = s.sec ∧ (bootDone s).flt = s.flt ∧ (bootDone s).thm = s.thm ∧ (bootDone s).bst = s.bst ∧ (bootDone s).pending = s.pending ∧ (bootDone s).sys.fe = s.sys.fe ∧ (bootDone s).sys.transit = s.sys.transit ∧ (bootDone s).sys.lock = s.sys.lock ∧ (bootDone s).sys.serving = s.sys.serving ∧ (bootDone s).hif.power = s.hif.power := by
  unfold bootDone
  (try simp)
  (repeat' split) <;> (try simp)

@[simp] theorem bootStep_frame (i : Instr) (s : State) :
    (bootStep i s).ing = s.ing ∧ (bootStep i s).pix = s.pix ∧ (bootStep i s).thm = s.thm ∧ (bootStep i s).bst = s.bst ∧ (bootStep i s).pending = s.pending ∧ (bootStep i s).sys.fe = s.sys.fe ∧ (bootStep i s).sys.transit = s.sys.transit ∧ (bootStep i s).sys.lock = s.sys.lock ∧ (bootStep i s).sec.fuses = s.sec.fuses ∧ (bootStep i s).hif.power = s.hif.power ∧ (bootStep i s).pwr.fall = s.pwr.fall := by
  unfold bootStep
  (repeat' split) <;> (try simp)

@[simp] theorem bootStep_sound (i : Instr) (s : State) (hs : PagesSound s.mem.bytes s.mem.written) :
    PagesSound (bootStep i s).mem.bytes (bootStep i s).mem.written := by
  unfold bootStep
  (repeat' split) <;> (try simp [hs])

@[simp] theorem endBootStep_frame (i : Instr) (s : State) :
    (endBootStep i s).ing = s.ing ∧ (endBootStep i s).pix = s.pix ∧ (endBootStep i s).thm = s.thm ∧ (endBootStep i s).bst = s.bst ∧ (endBootStep i s).pending = s.pending ∧ (endBootStep i s).sys.fe = s.sys.fe ∧ (endBootStep i s).sys.transit = s.sys.transit ∧ (endBootStep i s).sys.lock = s.sys.lock ∧ (endBootStep i s).sec.fuses = s.sec.fuses ∧ (endBootStep i s).hif.power = s.hif.power ∧ (endBootStep i s).pwr.fall = s.pwr.fall := by
  unfold endBootStep
  (try simp)
  (repeat' split) <;> (try simp)

@[simp] theorem endBootStep_sound (i : Instr) (s : State) (hs : PagesSound s.mem.bytes s.mem.written) :
    PagesSound (endBootStep i s).mem.bytes (endBootStep i s).mem.written := by
  unfold endBootStep
  (try simp [hs])
  (repeat' split) <;> (try simp [hs])

@[simp] theorem resumeBoot_frame (s : State) :
    (resumeBoot s).ing = s.ing ∧ (resumeBoot s).pix = s.pix ∧ (resumeBoot s).thm = s.thm ∧ (resumeBoot s).bst = s.bst ∧ (resumeBoot s).pending = s.pending ∧ (resumeBoot s).sys.fe = s.sys.fe ∧ (resumeBoot s).sys.transit = s.sys.transit ∧ (resumeBoot s).sys.lock = s.sys.lock ∧ (resumeBoot s).sec.fuses = s.sec.fuses ∧ (resumeBoot s).hif.power = s.hif.power ∧ (resumeBoot s).pwr.fall = s.pwr.fall := by
  unfold resumeBoot
  (try simp)
  (repeat' split) <;> (try simp)

@[simp] theorem resumeBoot_sound (s : State) (hs : PagesSound s.mem.bytes s.mem.written) :
    PagesSound (resumeBoot s).mem.bytes (resumeBoot s).mem.written := by
  unfold resumeBoot
  (try simp [hs])
  (repeat' split) <;> (try simp [hs])

@[simp] theorem wake_frame (src gpio port : Nat) (s : State) :
    (wake src gpio port s).bst = s.bst ∧ (wake src gpio port s).pending = s.pending ∧ (wake src gpio port s).sec.fuses = s.sec.fuses := by
  unfold wake
  (try simp)
  (repeat' split) <;> (try simp)

@[simp] theorem wake_sound (src gpio port : Nat) (s : State) (hs : PagesSound s.mem.bytes s.mem.written) :
    PagesSound (wake src gpio port s).mem.bytes (wake src gpio port s).mem.written := by
  unfold wake
  (try simp [hs])
  (repeat' split) <;> (try simp [hs])

@[simp] theorem exitBrace_frame (us : Nat) (s : State) :
    (exitBrace us s).conf = s.conf ∧ (exitBrace us s).ing = s.ing ∧ (exitBrace us s).pix = s.pix ∧ (exitBrace us s).gz = s.gz ∧ (exitBrace us s).lmp = s.lmp ∧ (exitBrace us s).dmk = s.dmk ∧ (exitBrace us s).od = s.od ∧ (exitBrace us s).tmg = s.tmg ∧ (exitBrace us s).pnl = s.pnl ∧ (exitBrace us s).twl = s.twl ∧ (exitBrace us s).cue = s.cue ∧ (exitBrace us s).mem = s.mem ∧ (exitBrace us s).lin = s.lin ∧ (exitBrace us s).cal = s.cal ∧ (exitBrace us s).gng = s.gng ∧ (exitBrace us s).sec = s.sec ∧ (exitBrace us s).thm = s.thm ∧ (exitBrace us s).trc = s.trc ∧ (exitBrace us s).bst = s.bst ∧ (exitBrace us s).free = s.free ∧ (exitBrace us s).pending = s.pending ∧ (exitBrace us s).sys.mode = s.sys.mode ∧ (exitBrace us s).sys.fe = s.sys.fe ∧ (exitBrace us s).sys.transit = s.sys.transit ∧ (exitBrace us s).sys.lock = s.sys.lock ∧ (exitBrace us s).sys.serving = s.sys.serving ∧ (exitBrace us s).sys.stage = s.sys.stage ∧ (exitBrace us s).hif.power = s.hif.power ∧ (exitBrace us s).hif.bme0 = s.hif.bme0 ∧ (exitBrace us s).hif.bme1 = s.hif.bme1 ∧ (exitBrace us s).hif.d3hot = s.hif.d3hot ∧ (exitBrace us s).pwr.fall = s.pwr.fall ∧ (exitBrace us s).rings.sqs = s.rings.sqs := by
  unfold exitBrace
  (try dsimp only)
  (repeat' split) <;> (try simp)

@[simp] theorem hkWrite_frame (a : Nat) (d : Bytes) (s : State) :
    (hkWrite a d s).od = s.od ∧ (hkWrite a d s).thm = s.thm ∧ (hkWrite a d s).bst = s.bst ∧ (hkWrite a d s).pending = s.pending ∧ (hkWrite a d s).sys.fe = s.sys.fe ∧ (hkWrite a d s).conf.regs = s.conf.regs ∧ (hkWrite a d s).conf.tables = s.conf.tables ∧ (hkWrite a d s).sec.fuses = s.sec.fuses ∧ (hkWrite a d s).pwr.fall = s.pwr.fall := by
  unfold hkWrite
  (repeat' split) <;> (try simp (disch := (intros; (repeat' split) <;> (try simp))))

@[simp] theorem hkWrite_sound (a : Nat) (d : Bytes) (s : State) (hs : PagesSound s.mem.bytes s.mem.written) :
    PagesSound (hkWrite a d s).mem.bytes (hkWrite a d s).mem.written := by
  unfold hkWrite
  (repeat' split) <;> (repeat' (first | assumption | with_reducible apply machineCheck_sound | with_reducible apply writeMem_sound | with_reducible apply writeMemOf_sound | with_reducible apply clearPages_sound | with_reducible apply empty_sound | with_reducible apply forAll_sound | with_reducible apply foldl_sound | (intro _) | split | simp))

@[simp] theorem loadMap_frame (d : Bytes) (s : State) :
    ((loadMap d s).1).od = s.od ∧ ((loadMap d s).1).thm = s.thm ∧ ((loadMap d s).1).bst = s.bst ∧ ((loadMap d s).1).pending = s.pending ∧ ((loadMap d s).1).sys.fe = s.sys.fe ∧ ((loadMap d s).1).conf.regs = s.conf.regs ∧ ((loadMap d s).1).conf.tables = s.conf.tables ∧ ((loadMap d s).1).sec.fuses = s.sec.fuses ∧ ((loadMap d s).1).pwr.fall = s.pwr.fall := by
  unfold loadMap; dsimp only; (repeat' split) <;> simp

@[simp] theorem loadMap_sound (d : Bytes) (s : State) (hs : PagesSound s.mem.bytes s.mem.written) :
    PagesSound ((loadMap d s).1).mem.bytes ((loadMap d s).1).mem.written := by
  unfold loadMap
  (try dsimp only)
  (repeat' split) <;> (repeat' (first | assumption | with_reducible apply hkWrite_sound | with_reducible apply writeMemOf_sound | with_reducible apply clearPages_sound | with_reducible apply empty_sound | with_reducible apply forAll_sound | with_reducible apply foldl_sound | (intro _) | split | simp))

@[simp] theorem acceptMode_frame (t : Mode) (retain : Bool) (s : State) :
    (acceptMode t retain s).pwr = s.pwr ∧ (acceptMode t retain s).conf = s.conf ∧ (acceptMode t retain s).pix = s.pix ∧ (acceptMode t retain s).gz = s.gz ∧ (acceptMode t retain s).lmp = s.lmp ∧ (acceptMode t retain s).dmk = s.dmk ∧ (acceptMode t retain s).od = s.od ∧ (acceptMode t retain s).tmg = s.tmg ∧ (acceptMode t retain s).pnl = s.pnl ∧ (acceptMode t retain s).cue = s.cue ∧ (acceptMode t retain s).mem = s.mem ∧ (acceptMode t retain s).lin = s.lin ∧ (acceptMode t retain s).cal = s.cal ∧ (acceptMode t retain s).gng = s.gng ∧ (acceptMode t retain s).sec = s.sec ∧ (acceptMode t retain s).flt = s.flt ∧ (acceptMode t retain s).thm = s.thm ∧ (acceptMode t retain s).bst = s.bst ∧ (acceptMode t retain s).pending = s.pending ∧ (acceptMode t retain s).sys.mode = s.sys.mode ∧ (acceptMode t retain s).sys.fe = s.sys.fe ∧ (acceptMode t retain s).sys.lock = s.sys.lock ∧ (acceptMode t retain s).sys.serving = s.sys.serving ∧ (acceptMode t retain s).sys.stage = s.sys.stage ∧ (acceptMode t retain s).hif.power = s.hif.power ∧ (acceptMode t retain s).hif.bme0 = s.hif.bme0 ∧ (acceptMode t retain s).hif.bme1 = s.hif.bme1 ∧ (acceptMode t retain s).hif.d3hot = s.hif.d3hot ∧ (acceptMode t retain s).rings.sqs = s.rings.sqs := by
  unfold acceptMode
  (try simp)
  (repeat' split) <;> (try simp)

@[simp] theorem engineClockLost_frame (e : Nat) (s : State) :
    (engineClockLost e s).sys = s.sys ∧ (engineClockLost e s).pwr = s.pwr ∧ (engineClockLost e s).conf = s.conf ∧ (engineClockLost e s).ing = s.ing ∧ (engineClockLost e s).pix = s.pix ∧ (engineClockLost e s).gz = s.gz ∧ (engineClockLost e s).lmp = s.lmp ∧ (engineClockLost e s).dmk = s.dmk ∧ (engineClockLost e s).od = s.od ∧ (engineClockLost e s).tmg = s.tmg ∧ (engineClockLost e s).pnl = s.pnl ∧ (engineClockLost e s).twl = s.twl ∧ (engineClockLost e s).cue = s.cue ∧ (engineClockLost e s).mem = s.mem ∧ (engineClockLost e s).cal = s.cal ∧ (engineClockLost e s).gng = s.gng ∧ (engineClockLost e s).sec = s.sec ∧ (engineClockLost e s).thm = s.thm ∧ (engineClockLost e s).trc = s.trc ∧ (engineClockLost e s).bst = s.bst ∧ (engineClockLost e s).pending = s.pending ∧ (engineClockLost e s).hif.power = s.hif.power ∧ (engineClockLost e s).hif.bme0 = s.hif.bme0 ∧ (engineClockLost e s).hif.bme1 = s.hif.bme1 ∧ (engineClockLost e s).hif.d3hot = s.hif.d3hot ∧ (engineClockLost e s).rings.sqs = s.rings.sqs := by
  unfold engineClockLost
  (try simp)
  (repeat' split) <;> (try simp)

@[simp] theorem clockLost_frame (d : Nat) (s : State) :
    (clockLost d s).od = s.od ∧ (clockLost d s).thm = s.thm ∧ (clockLost d s).bst = s.bst ∧ (clockLost d s).pending = s.pending ∧ (clockLost d s).sys.fe = s.sys.fe ∧ (clockLost d s).conf.regs = s.conf.regs ∧ (clockLost d s).conf.tables = s.conf.tables ∧ (clockLost d s).sec.fuses = s.sec.fuses ∧ (clockLost d s).pwr.fall = s.pwr.fall := by
  unfold clockLost
  (try simp)
  (repeat' split) <;> (try simp)

@[simp] theorem clockLost_sound (d : Nat) (s : State) (hs : PagesSound s.mem.bytes s.mem.written) :
    PagesSound (clockLost d s).mem.bytes (clockLost d s).mem.written := by
  unfold clockLost
  (try simp [hs])
  (repeat' split) <;> (try simp [hs])

@[simp] theorem commitEngine_frame (sq : Nat) (r : Running) (inst spare : Nat) (s : State) :
    (commitEngine sq r inst spare s).sys = s.sys ∧ (commitEngine sq r inst spare s).pwr = s.pwr ∧ (commitEngine sq r inst spare s).conf = s.conf ∧ (commitEngine sq r inst spare s).ing = s.ing ∧ (commitEngine sq r inst spare s).pix = s.pix ∧ (commitEngine sq r inst spare s).gz = s.gz ∧ (commitEngine sq r inst spare s).lmp = s.lmp ∧ (commitEngine sq r inst spare s).dmk = s.dmk ∧ (commitEngine sq r inst spare s).od = s.od ∧ (commitEngine sq r inst spare s).tmg = s.tmg ∧ (commitEngine sq r inst spare s).pnl = s.pnl ∧ (commitEngine sq r inst spare s).twl = s.twl ∧ (commitEngine sq r inst spare s).cue = s.cue ∧ (commitEngine sq r inst spare s).mem = s.mem ∧ (commitEngine sq r inst spare s).lin = s.lin ∧ (commitEngine sq r inst spare s).cal = s.cal ∧ (commitEngine sq r inst spare s).gng = s.gng ∧ (commitEngine sq r inst spare s).sec = s.sec ∧ (commitEngine sq r inst spare s).thm = s.thm ∧ (commitEngine sq r inst spare s).bst = s.bst ∧ (commitEngine sq r inst spare s).pending = s.pending ∧ (commitEngine sq r inst spare s).hif.power = s.hif.power ∧ (commitEngine sq r inst spare s).hif.bme0 = s.hif.bme0 ∧ (commitEngine sq r inst spare s).hif.bme1 = s.hif.bme1 ∧ (commitEngine sq r inst spare s).hif.d3hot = s.hif.d3hot := by
  unfold commitEngine
  (try simp)
  (repeat' split) <;> (try simp)

@[simp] theorem commitLane_frame (sq : Nat) (r : Running) (g lane : Nat) (s : State) :
    (commitLane sq r g lane s).sys = s.sys ∧ (commitLane sq r g lane s).pwr = s.pwr ∧ (commitLane sq r g lane s).conf = s.conf ∧ (commitLane sq r g lane s).ing = s.ing ∧ (commitLane sq r g lane s).pix = s.pix ∧ (commitLane sq r g lane s).gz = s.gz ∧ (commitLane sq r g lane s).lmp = s.lmp ∧ (commitLane sq r g lane s).dmk = s.dmk ∧ (commitLane sq r g lane s).od = s.od ∧ (commitLane sq r g lane s).tmg = s.tmg ∧ (commitLane sq r g lane s).pnl = s.pnl ∧ (commitLane sq r g lane s).cue = s.cue ∧ (commitLane sq r g lane s).mem = s.mem ∧ (commitLane sq r g lane s).cal = s.cal ∧ (commitLane sq r g lane s).gng = s.gng ∧ (commitLane sq r g lane s).sec = s.sec ∧ (commitLane sq r g lane s).flt = s.flt ∧ (commitLane sq r g lane s).thm = s.thm ∧ (commitLane sq r g lane s).bst = s.bst ∧ (commitLane sq r g lane s).pending = s.pending ∧ (commitLane sq r g lane s).hif.power = s.hif.power ∧ (commitLane sq r g lane s).hif.bme0 = s.hif.bme0 ∧ (commitLane sq r g lane s).hif.bme1 = s.hif.bme1 ∧ (commitLane sq r g lane s).hif.d3hot = s.hif.d3hot := by
  unfold commitLane
  (try simp)
  (repeat' split) <;> (try simp)

@[simp] theorem commitPair_frame (sq : Nat) (r : Running) (p spare : Nat) (s : State) :
    (commitPair sq r p spare s).sys = s.sys ∧ (commitPair sq r p spare s).pwr = s.pwr ∧ (commitPair sq r p spare s).conf = s.conf ∧ (commitPair sq r p spare s).ing = s.ing ∧ (commitPair sq r p spare s).pix = s.pix ∧ (commitPair sq r p spare s).gz = s.gz ∧ (commitPair sq r p spare s).lmp = s.lmp ∧ (commitPair sq r p spare s).dmk = s.dmk ∧ (commitPair sq r p spare s).od = s.od ∧ (commitPair sq r p spare s).tmg = s.tmg ∧ (commitPair sq r p spare s).pnl = s.pnl ∧ (commitPair sq r p spare s).twl = s.twl ∧ (commitPair sq r p spare s).cue = s.cue ∧ (commitPair sq r p spare s).mem = s.mem ∧ (commitPair sq r p spare s).cal = s.cal ∧ (commitPair sq r p spare s).gng = s.gng ∧ (commitPair sq r p spare s).sec = s.sec ∧ (commitPair sq r p spare s).thm = s.thm ∧ (commitPair sq r p spare s).bst = s.bst ∧ (commitPair sq r p spare s).pending = s.pending ∧ (commitPair sq r p spare s).hif.power = s.hif.power ∧ (commitPair sq r p spare s).hif.bme0 = s.hif.bme0 ∧ (commitPair sq r p spare s).hif.bme1 = s.hif.bme1 ∧ (commitPair sq r p spare s).hif.d3hot = s.hif.d3hot := by
  unfold commitPair
  (try simp)
  (repeat' split) <;> (try simp)

@[simp] theorem commitPage_frame (sq : Nat) (r : Running) (p spare : Nat) (s : State) :
    (commitPage sq r p spare s).sys = s.sys ∧ (commitPage sq r p spare s).pwr = s.pwr ∧ (commitPage sq r p spare s).conf = s.conf ∧ (commitPage sq r p spare s).ing = s.ing ∧ (commitPage sq r p spare s).pix = s.pix ∧ (commitPage sq r p spare s).gz = s.gz ∧ (commitPage sq r p spare s).lmp = s.lmp ∧ (commitPage sq r p spare s).dmk = s.dmk ∧ (commitPage sq r p spare s).od = s.od ∧ (commitPage sq r p spare s).tmg = s.tmg ∧ (commitPage sq r p spare s).pnl = s.pnl ∧ (commitPage sq r p spare s).twl = s.twl ∧ (commitPage sq r p spare s).cue = s.cue ∧ (commitPage sq r p spare s).cal = s.cal ∧ (commitPage sq r p spare s).gng = s.gng ∧ (commitPage sq r p spare s).sec = s.sec ∧ (commitPage sq r p spare s).flt = s.flt ∧ (commitPage sq r p spare s).thm = s.thm ∧ (commitPage sq r p spare s).pending = s.pending ∧ (commitPage sq r p spare s).mem.bytes = s.mem.bytes ∧ (commitPage sq r p spare s).mem.written = s.mem.written ∧ (commitPage sq r p spare s).hif.power = s.hif.power ∧ (commitPage sq r p spare s).hif.bme0 = s.hif.bme0 ∧ (commitPage sq r p spare s).hif.bme1 = s.hif.bme1 ∧ (commitPage sq r p spare s).hif.d3hot = s.hif.d3hot := by
  unfold commitPage
  (try simp)
  (repeat' split) <;> (try simp)

@[simp] theorem commitRow_frame (sq : Nat) (r : Running) (inst spare : Nat) (s : State) :
    (commitRow sq r inst spare s).sys = s.sys ∧ (commitRow sq r inst spare s).pwr = s.pwr ∧ (commitRow sq r inst spare s).conf = s.conf ∧ (commitRow sq r inst spare s).ing = s.ing ∧ (commitRow sq r inst spare s).pix = s.pix ∧ (commitRow sq r inst spare s).gz = s.gz ∧ (commitRow sq r inst spare s).lmp = s.lmp ∧ (commitRow sq r inst spare s).dmk = s.dmk ∧ (commitRow sq r inst spare s).od = s.od ∧ (commitRow sq r inst spare s).tmg = s.tmg ∧ (commitRow sq r inst spare s).pnl = s.pnl ∧ (commitRow sq r inst spare s).twl = s.twl ∧ (commitRow sq r inst spare s).cue = s.cue ∧ (commitRow sq r inst spare s).cal = s.cal ∧ (commitRow sq r inst spare s).gng = s.gng ∧ (commitRow sq r inst spare s).sec = s.sec ∧ (commitRow sq r inst spare s).flt = s.flt ∧ (commitRow sq r inst spare s).thm = s.thm ∧ (commitRow sq r inst spare s).bst = s.bst ∧ (commitRow sq r inst spare s).pending = s.pending ∧ (commitRow sq r inst spare s).mem.bytes = s.mem.bytes ∧ (commitRow sq r inst spare s).mem.written = s.mem.written ∧ (commitRow sq r inst spare s).hif.power = s.hif.power ∧ (commitRow sq r inst spare s).hif.bme0 = s.hif.bme0 ∧ (commitRow sq r inst spare s).hif.bme1 = s.hif.bme1 ∧ (commitRow sq r inst spare s).hif.d3hot = s.hif.d3hot := by
  unfold commitRow
  (try simp)
  (repeat' split) <;> (try simp)

@[simp] theorem resetHost_frame (s : State) :
    (resetHost s).pix = s.pix ∧ (resetHost s).lmp = s.lmp ∧ (resetHost s).dmk = s.dmk ∧ (resetHost s).od = s.od ∧ (resetHost s).tmg = s.tmg ∧ (resetHost s).pnl = s.pnl ∧ (resetHost s).thm = s.thm ∧ (resetHost s).bst = s.bst ∧ (resetHost s).pending = s.pending ∧ (resetHost s).sys.mode = s.sys.mode ∧ (resetHost s).sys.fe = s.sys.fe ∧ (resetHost s).sys.serving = s.sys.serving ∧ (resetHost s).sys.stage = s.sys.stage ∧ (resetHost s).conf.regs = s.conf.regs ∧ (resetHost s).conf.tables = s.conf.tables ∧ (resetHost s).sec.fuses = s.sec.fuses ∧ (resetHost s).pwr.fall = s.pwr.fall ∧ (resetHost s).lin.sram = s.lin.sram := by
  unfold resetHost
  (try dsimp only)
  (repeat' split) <;> (try simp)

@[simp] theorem resetHost_sound (s : State) (hs : PagesSound s.mem.bytes s.mem.written) :
    PagesSound (resetHost s).mem.bytes (resetHost s).mem.written := by
  unfold resetHost
  (try dsimp only)
  (repeat' split) <;> (try simp [hs])

@[simp] theorem setPerst_frame (v : Bool) (s : State) :
    (setPerst v s).sys = s.sys ∧ (setPerst v s).pwr = s.pwr ∧ (setPerst v s).rings = s.rings ∧ (setPerst v s).conf = s.conf ∧ (setPerst v s).ing = s.ing ∧ (setPerst v s).pix = s.pix ∧ (setPerst v s).gz = s.gz ∧ (setPerst v s).lmp = s.lmp ∧ (setPerst v s).dmk = s.dmk ∧ (setPerst v s).od = s.od ∧ (setPerst v s).tmg = s.tmg ∧ (setPerst v s).pnl = s.pnl ∧ (setPerst v s).twl = s.twl ∧ (setPerst v s).cue = s.cue ∧ (setPerst v s).mem = s.mem ∧ (setPerst v s).lin = s.lin ∧ (setPerst v s).cal = s.cal ∧ (setPerst v s).gng = s.gng ∧ (setPerst v s).sec = s.sec ∧ (setPerst v s).flt = s.flt ∧ (setPerst v s).thm = s.thm ∧ (setPerst v s).trc = s.trc ∧ (setPerst v s).bst = s.bst ∧ (setPerst v s).out = s.out ∧ (setPerst v s).free = s.free ∧ (setPerst v s).pending = s.pending ∧ (setPerst v s).hif.power = s.hif.power ∧ (setPerst v s).hif.bme0 = s.hif.bme0 ∧ (setPerst v s).hif.bme1 = s.hif.bme1 ∧ (setPerst v s).hif.d3hot = s.hif.d3hot := by
  unfold setPerst
  (try dsimp only)
  (repeat' split) <;> (try simp)

@[simp] theorem linkDegraded_frame (width : Nat) (bad : BitVec 16) (s : State) :
    (linkDegraded width bad s).sys = s.sys ∧ (linkDegraded width bad s).pwr = s.pwr ∧ (linkDegraded width bad s).conf = s.conf ∧ (linkDegraded width bad s).ing = s.ing ∧ (linkDegraded width bad s).pix = s.pix ∧ (linkDegraded width bad s).gz = s.gz ∧ (linkDegraded width bad s).lmp = s.lmp ∧ (linkDegraded width bad s).dmk = s.dmk ∧ (linkDegraded width bad s).od = s.od ∧ (linkDegraded width bad s).tmg = s.tmg ∧ (linkDegraded width bad s).pnl = s.pnl ∧ (linkDegraded width bad s).twl = s.twl ∧ (linkDegraded width bad s).cue = s.cue ∧ (linkDegraded width bad s).mem = s.mem ∧ (linkDegraded width bad s).lin = s.lin ∧ (linkDegraded width bad s).cal = s.cal ∧ (linkDegraded width bad s).gng = s.gng ∧ (linkDegraded width bad s).sec = s.sec ∧ (linkDegraded width bad s).flt = s.flt ∧ (linkDegraded width bad s).thm = s.thm ∧ (linkDegraded width bad s).trc = s.trc ∧ (linkDegraded width bad s).bst = s.bst ∧ (linkDegraded width bad s).free = s.free ∧ (linkDegraded width bad s).pending = s.pending ∧ (linkDegraded width bad s).hif.power = s.hif.power ∧ (linkDegraded width bad s).hif.bme0 = s.hif.bme0 ∧ (linkDegraded width bad s).hif.bme1 = s.hif.bme1 ∧ (linkDegraded width bad s).hif.d3hot = s.hif.d3hot ∧ (linkDegraded width bad s).rings.sqs = s.rings.sqs := by
  unfold linkDegraded
  (try simp)
  (repeat' split) <;> (try simp)

@[simp] theorem startLanes_frame (before : Hif) (s : State) :
    (startLanes before s).sys = s.sys ∧ (startLanes before s).pwr = s.pwr ∧ (startLanes before s).hif = s.hif ∧ (startLanes before s).rings = s.rings ∧ (startLanes before s).conf = s.conf ∧ (startLanes before s).ing = s.ing ∧ (startLanes before s).pix = s.pix ∧ (startLanes before s).gz = s.gz ∧ (startLanes before s).lmp = s.lmp ∧ (startLanes before s).dmk = s.dmk ∧ (startLanes before s).od = s.od ∧ (startLanes before s).tmg = s.tmg ∧ (startLanes before s).pnl = s.pnl ∧ (startLanes before s).twl = s.twl ∧ (startLanes before s).cue = s.cue ∧ (startLanes before s).mem = s.mem ∧ (startLanes before s).lin = s.lin ∧ (startLanes before s).gng = s.gng ∧ (startLanes before s).sec = s.sec ∧ (startLanes before s).flt = s.flt ∧ (startLanes before s).thm = s.thm ∧ (startLanes before s).trc = s.trc ∧ (startLanes before s).bst = s.bst ∧ (startLanes before s).out = s.out ∧ (startLanes before s).free = s.free ∧ (startLanes before s).pending = s.pending := by
  unfold startLanes
  (repeat' split) <;> (try simp)

@[simp] theorem stayInHold_frame (s : State) :
    (stayInHold s).pwr = s.pwr ∧ (stayInHold s).hif = s.hif ∧ (stayInHold s).rings = s.rings ∧ (stayInHold s).conf = s.conf ∧ (stayInHold s).ing = s.ing ∧ (stayInHold s).pix = s.pix ∧ (stayInHold s).gz = s.gz ∧ (stayInHold s).lmp = s.lmp ∧ (stayInHold s).dmk = s.dmk ∧ (stayInHold s).od = s.od ∧ (stayInHold s).tmg = s.tmg ∧ (stayInHold s).pnl = s.pnl ∧ (stayInHold s).twl = s.twl ∧ (stayInHold s).cue = s.cue ∧ (stayInHold s).mem = s.mem ∧ (stayInHold s).lin = s.lin ∧ (stayInHold s).cal = s.cal ∧ (stayInHold s).gng = s.gng ∧ (stayInHold s).sec = s.sec ∧ (stayInHold s).flt = s.flt ∧ (stayInHold s).thm = s.thm ∧ (stayInHold s).trc = s.trc ∧ (stayInHold s).bst = s.bst ∧ (stayInHold s).out = s.out ∧ (stayInHold s).free = s.free ∧ (stayInHold s).pending = s.pending ∧ (stayInHold s).sys.mode = s.sys.mode ∧ (stayInHold s).sys.fe = s.sys.fe ∧ (stayInHold s).sys.lock = s.sys.lock ∧ (stayInHold s).sys.serving = s.sys.serving ∧ (stayInHold s).sys.stage = s.sys.stage := by
  unfold stayInHold
  (try simp)
  (repeat' split) <;> (try simp)

@[simp] theorem enterD3hot_frame (pmeEn : Bool) (s : State) :
    (enterD3hot pmeEn s).pwr = s.pwr ∧ (enterD3hot pmeEn s).conf = s.conf ∧ (enterD3hot pmeEn s).pix = s.pix ∧ (enterD3hot pmeEn s).gz = s.gz ∧ (enterD3hot pmeEn s).lmp = s.lmp ∧ (enterD3hot pmeEn s).dmk = s.dmk ∧ (enterD3hot pmeEn s).od = s.od ∧ (enterD3hot pmeEn s).tmg = s.tmg ∧ (enterD3hot pmeEn s).pnl = s.pnl ∧ (enterD3hot pmeEn s).twl = s.twl ∧ (enterD3hot pmeEn s).cue = s.cue ∧ (enterD3hot pmeEn s).mem = s.mem ∧ (enterD3hot pmeEn s).lin = s.lin ∧ (enterD3hot pmeEn s).cal = s.cal ∧ (enterD3hot pmeEn s).gng = s.gng ∧ (enterD3hot pmeEn s).sec = s.sec ∧ (enterD3hot pmeEn s).flt = s.flt ∧ (enterD3hot pmeEn s).thm = s.thm ∧ (enterD3hot pmeEn s).bst = s.bst ∧ (enterD3hot pmeEn s).pending = s.pending ∧ (enterD3hot pmeEn s).sys.mode = s.sys.mode ∧ (enterD3hot pmeEn s).sys.fe = s.sys.fe ∧ (enterD3hot pmeEn s).sys.lock = s.sys.lock ∧ (enterD3hot pmeEn s).sys.serving = s.sys.serving ∧ (enterD3hot pmeEn s).sys.stage = s.sys.stage ∧ (enterD3hot pmeEn s).hif.power = s.hif.power ∧ (enterD3hot pmeEn s).hif.bme0 = s.hif.bme0 ∧ (enterD3hot pmeEn s).hif.bme1 = s.hif.bme1 ∧ (enterD3hot pmeEn s).rings.sqs = s.rings.sqs := by
  unfold enterD3hot
  (try dsimp only)
  (repeat' split) <;> (try simp)

@[simp] theorem answerRing_frame (s : State) :
    (answerRing s).pwr = s.pwr ∧ (answerRing s).rings = s.rings ∧ (answerRing s).conf = s.conf ∧ (answerRing s).ing = s.ing ∧ (answerRing s).pix = s.pix ∧ (answerRing s).gz = s.gz ∧ (answerRing s).lmp = s.lmp ∧ (answerRing s).dmk = s.dmk ∧ (answerRing s).od = s.od ∧ (answerRing s).tmg = s.tmg ∧ (answerRing s).pnl = s.pnl ∧ (answerRing s).cue = s.cue ∧ (answerRing s).mem = s.mem ∧ (answerRing s).lin = s.lin ∧ (answerRing s).cal = s.cal ∧ (answerRing s).gng = s.gng ∧ (answerRing s).sec = s.sec ∧ (answerRing s).flt = s.flt ∧ (answerRing s).thm = s.thm ∧ (answerRing s).trc = s.trc ∧ (answerRing s).bst = s.bst ∧ (answerRing s).free = s.free ∧ (answerRing s).pending = s.pending ∧ (answerRing s).sys.mode = s.sys.mode ∧ (answerRing s).sys.fe = s.sys.fe ∧ (answerRing s).sys.lock = s.sys.lock ∧ (answerRing s).sys.serving = s.sys.serving ∧ (answerRing s).sys.stage = s.sys.stage ∧ (answerRing s).hif.power = s.hif.power ∧ (answerRing s).hif.bme0 = s.hif.bme0 ∧ (answerRing s).hif.bme1 = s.hif.bme1 ∧ (answerRing s).hif.d3hot = s.hif.d3hot := by
  unfold answerRing
  (try simp)
  (repeat' split) <;> (try simp)

@[simp] theorem returnD0_frame (pmeEn : Bool) (s : State) :
    (returnD0 pmeEn s).pwr = s.pwr ∧ (returnD0 pmeEn s).conf = s.conf ∧ (returnD0 pmeEn s).ing = s.ing ∧ (returnD0 pmeEn s).pix = s.pix ∧ (returnD0 pmeEn s).gz = s.gz ∧ (returnD0 pmeEn s).lmp = s.lmp ∧ (returnD0 pmeEn s).dmk = s.dmk ∧ (returnD0 pmeEn s).od = s.od ∧ (returnD0 pmeEn s).tmg = s.tmg ∧ (returnD0 pmeEn s).pnl = s.pnl ∧ (returnD0 pmeEn s).cue = s.cue ∧ (returnD0 pmeEn s).mem = s.mem ∧ (returnD0 pmeEn s).lin = s.lin ∧ (returnD0 pmeEn s).cal = s.cal ∧ (returnD0 pmeEn s).gng = s.gng ∧ (returnD0 pmeEn s).sec = s.sec ∧ (returnD0 pmeEn s).flt = s.flt ∧ (returnD0 pmeEn s).thm = s.thm ∧ (returnD0 pmeEn s).trc = s.trc ∧ (returnD0 pmeEn s).bst = s.bst ∧ (returnD0 pmeEn s).free = s.free ∧ (returnD0 pmeEn s).pending = s.pending ∧ (returnD0 pmeEn s).sys.mode = s.sys.mode ∧ (returnD0 pmeEn s).sys.fe = s.sys.fe ∧ (returnD0 pmeEn s).sys.lock = s.sys.lock ∧ (returnD0 pmeEn s).sys.serving = s.sys.serving ∧ (returnD0 pmeEn s).sys.stage = s.sys.stage ∧ (returnD0 pmeEn s).hif.power = s.hif.power ∧ (returnD0 pmeEn s).rings.sqs = s.rings.sqs := by
  unfold returnD0
  (try dsimp only)
  (repeat' split) <;> (try simp)

@[simp] theorem writePm_frame (fn : Fn) (v : Word) (s : State) :
    (writePm fn v s).pwr = s.pwr ∧ (writePm fn v s).conf = s.conf ∧ (writePm fn v s).pix = s.pix ∧ (writePm fn v s).gz = s.gz ∧ (writePm fn v s).lmp = s.lmp ∧ (writePm fn v s).dmk = s.dmk ∧ (writePm fn v s).od = s.od ∧ (writePm fn v s).tmg = s.tmg ∧ (writePm fn v s).pnl = s.pnl ∧ (writePm fn v s).cue = s.cue ∧ (writePm fn v s).mem = s.mem ∧ (writePm fn v s).lin = s.lin ∧ (writePm fn v s).cal = s.cal ∧ (writePm fn v s).gng = s.gng ∧ (writePm fn v s).sec = s.sec ∧ (writePm fn v s).flt = s.flt ∧ (writePm fn v s).thm = s.thm ∧ (writePm fn v s).bst = s.bst ∧ (writePm fn v s).pending = s.pending ∧ (writePm fn v s).sys.mode = s.sys.mode ∧ (writePm fn v s).sys.fe = s.sys.fe ∧ (writePm fn v s).sys.lock = s.sys.lock ∧ (writePm fn v s).sys.serving = s.sys.serving ∧ (writePm fn v s).sys.stage = s.sys.stage ∧ (writePm fn v s).hif.power = s.hif.power ∧ (writePm fn v s).rings.sqs = s.rings.sqs := by
  unfold writePm
  (try simp)
  (repeat' split) <;> (try simp)

@[simp] theorem setEye_frame (lane : Nat) (e : EyeLane) (s : State) :
    (setEye lane e s).sys = s.sys ∧ (setEye lane e s).pwr = s.pwr ∧ (setEye lane e s).rings = s.rings ∧ (setEye lane e s).conf = s.conf ∧ (setEye lane e s).ing = s.ing ∧ (setEye lane e s).pix = s.pix ∧ (setEye lane e s).gz = s.gz ∧ (setEye lane e s).lmp = s.lmp ∧ (setEye lane e s).dmk = s.dmk ∧ (setEye lane e s).od = s.od ∧ (setEye lane e s).tmg = s.tmg ∧ (setEye lane e s).pnl = s.pnl ∧ (setEye lane e s).twl = s.twl ∧ (setEye lane e s).cue = s.cue ∧ (setEye lane e s).mem = s.mem ∧ (setEye lane e s).lin = s.lin ∧ (setEye lane e s).cal = s.cal ∧ (setEye lane e s).gng = s.gng ∧ (setEye lane e s).sec = s.sec ∧ (setEye lane e s).flt = s.flt ∧ (setEye lane e s).thm = s.thm ∧ (setEye lane e s).trc = s.trc ∧ (setEye lane e s).bst = s.bst ∧ (setEye lane e s).out = s.out ∧ (setEye lane e s).free = s.free ∧ (setEye lane e s).pending = s.pending ∧ (setEye lane e s).hif.power = s.hif.power ∧ (setEye lane e s).hif.bme0 = s.hif.bme0 ∧ (setEye lane e s).hif.bme1 = s.hif.bme1 ∧ (setEye lane e s).hif.d3hot = s.hif.d3hot := by
  unfold setEye
  (try dsimp only)
  (repeat' split) <;> (try simp)

@[simp] theorem resizeBar4_frame (log2Mib : Nat) (s : State) :
    (resizeBar4 log2Mib s).sys = s.sys ∧ (resizeBar4 log2Mib s).pwr = s.pwr ∧ (resizeBar4 log2Mib s).rings = s.rings ∧ (resizeBar4 log2Mib s).conf = s.conf ∧ (resizeBar4 log2Mib s).ing = s.ing ∧ (resizeBar4 log2Mib s).pix = s.pix ∧ (resizeBar4 log2Mib s).gz = s.gz ∧ (resizeBar4 log2Mib s).lmp = s.lmp ∧ (resizeBar4 log2Mib s).dmk = s.dmk ∧ (resizeBar4 log2Mib s).od = s.od ∧ (resizeBar4 log2Mib s).tmg = s.tmg ∧ (resizeBar4 log2Mib s).pnl = s.pnl ∧ (resizeBar4 log2Mib s).twl = s.twl ∧ (resizeBar4 log2Mib s).cue = s.cue ∧ (resizeBar4 log2Mib s).mem = s.mem ∧ (resizeBar4 log2Mib s).lin = s.lin ∧ (resizeBar4 log2Mib s).cal = s.cal ∧ (resizeBar4 log2Mib s).gng = s.gng ∧ (resizeBar4 log2Mib s).sec = s.sec ∧ (resizeBar4 log2Mib s).flt = s.flt ∧ (resizeBar4 log2Mib s).thm = s.thm ∧ (resizeBar4 log2Mib s).trc = s.trc ∧ (resizeBar4 log2Mib s).bst = s.bst ∧ (resizeBar4 log2Mib s).out = s.out ∧ (resizeBar4 log2Mib s).free = s.free ∧ (resizeBar4 log2Mib s).pending = s.pending ∧ (resizeBar4 log2Mib s).hif.power = s.hif.power ∧ (resizeBar4 log2Mib s).hif.bme0 = s.hif.bme0 ∧ (resizeBar4 log2Mib s).hif.bme1 = s.hif.bme1 ∧ (resizeBar4 log2Mib s).hif.d3hot = s.hif.d3hot := by
  unfold resizeBar4
  (try simp)
  (repeat' split) <;> (try simp)

@[simp] theorem refuseReserved_frame (a : Nat) (write : Bool) (s : State) :
    (refuseReserved a write s).sys = s.sys ∧ (refuseReserved a write s).pwr = s.pwr ∧ (refuseReserved a write s).conf = s.conf ∧ (refuseReserved a write s).ing = s.ing ∧ (refuseReserved a write s).pix = s.pix ∧ (refuseReserved a write s).gz = s.gz ∧ (refuseReserved a write s).lmp = s.lmp ∧ (refuseReserved a write s).dmk = s.dmk ∧ (refuseReserved a write s).od = s.od ∧ (refuseReserved a write s).tmg = s.tmg ∧ (refuseReserved a write s).pnl = s.pnl ∧ (refuseReserved a write s).twl = s.twl ∧ (refuseReserved a write s).cue = s.cue ∧ (refuseReserved a write s).lin = s.lin ∧ (refuseReserved a write s).cal = s.cal ∧ (refuseReserved a write s).gng = s.gng ∧ (refuseReserved a write s).sec = s.sec ∧ (refuseReserved a write s).flt = s.flt ∧ (refuseReserved a write s).thm = s.thm ∧ (refuseReserved a write s).trc = s.trc ∧ (refuseReserved a write s).bst = s.bst ∧ (refuseReserved a write s).free = s.free ∧ (refuseReserved a write s).pending = s.pending ∧ (refuseReserved a write s).mem.bytes = s.mem.bytes ∧ (refuseReserved a write s).mem.written = s.mem.written ∧ (refuseReserved a write s).hif.power = s.hif.power ∧ (refuseReserved a write s).hif.bme0 = s.hif.bme0 ∧ (refuseReserved a write s).hif.bme1 = s.hif.bme1 ∧ (refuseReserved a write s).hif.d3hot = s.hif.d3hot ∧ (refuseReserved a write s).rings.sqs = s.rings.sqs := by
  unfold refuseReserved
  (try dsimp only)
  (repeat' split) <;> (try simp)

@[simp] theorem readPiece_frame (p : Nat × Nat) (acc : Bytes × Bool × State) :
    ((readPiece p acc).2.2).sys = acc.2.2.sys ∧ ((readPiece p acc).2.2).pwr = acc.2.2.pwr ∧ ((readPiece p acc).2.2).conf = acc.2.2.conf ∧ ((readPiece p acc).2.2).ing = acc.2.2.ing ∧ ((readPiece p acc).2.2).pix = acc.2.2.pix ∧ ((readPiece p acc).2.2).gz = acc.2.2.gz ∧ ((readPiece p acc).2.2).lmp = acc.2.2.lmp ∧ ((readPiece p acc).2.2).dmk = acc.2.2.dmk ∧ ((readPiece p acc).2.2).od = acc.2.2.od ∧ ((readPiece p acc).2.2).tmg = acc.2.2.tmg ∧ ((readPiece p acc).2.2).pnl = acc.2.2.pnl ∧ ((readPiece p acc).2.2).twl = acc.2.2.twl ∧ ((readPiece p acc).2.2).cue = acc.2.2.cue ∧ ((readPiece p acc).2.2).cal = acc.2.2.cal ∧ ((readPiece p acc).2.2).gng = acc.2.2.gng ∧ ((readPiece p acc).2.2).flt = acc.2.2.flt ∧ ((readPiece p acc).2.2).thm = acc.2.2.thm ∧ ((readPiece p acc).2.2).bst = acc.2.2.bst ∧ ((readPiece p acc).2.2).pending = acc.2.2.pending ∧ ((readPiece p acc).2.2).mem.bytes = acc.2.2.mem.bytes ∧ ((readPiece p acc).2.2).mem.written = acc.2.2.mem.written ∧ ((readPiece p acc).2.2).sec.fuses = acc.2.2.sec.fuses ∧ ((readPiece p acc).2.2).hif.power = acc.2.2.hif.power ∧ ((readPiece p acc).2.2).hif.bme0 = acc.2.2.hif.bme0 ∧ ((readPiece p acc).2.2).hif.bme1 = acc.2.2.hif.bme1 ∧ ((readPiece p acc).2.2).hif.d3hot = acc.2.2.hif.d3hot ∧ ((readPiece p acc).2.2).rings.sqs = acc.2.2.rings.sqs := by
  obtain ⟨d, bad, s⟩ := acc
  unfold readPiece; dsimp only; (repeat' split) <;> simp

@[simp] theorem readPieces_frame (l : List (Nat × Nat)) (acc : Bytes × Bool × State) :
    ((readPieces l acc).2.2).sys = acc.2.2.sys ∧ ((readPieces l acc).2.2).pwr = acc.2.2.pwr ∧ ((readPieces l acc).2.2).conf = acc.2.2.conf ∧ ((readPieces l acc).2.2).ing = acc.2.2.ing ∧ ((readPieces l acc).2.2).pix = acc.2.2.pix ∧ ((readPieces l acc).2.2).gz = acc.2.2.gz ∧ ((readPieces l acc).2.2).lmp = acc.2.2.lmp ∧ ((readPieces l acc).2.2).dmk = acc.2.2.dmk ∧ ((readPieces l acc).2.2).od = acc.2.2.od ∧ ((readPieces l acc).2.2).tmg = acc.2.2.tmg ∧ ((readPieces l acc).2.2).pnl = acc.2.2.pnl ∧ ((readPieces l acc).2.2).twl = acc.2.2.twl ∧ ((readPieces l acc).2.2).cue = acc.2.2.cue ∧ ((readPieces l acc).2.2).cal = acc.2.2.cal ∧ ((readPieces l acc).2.2).gng = acc.2.2.gng ∧ ((readPieces l acc).2.2).flt = acc.2.2.flt ∧ ((readPieces l acc).2.2).thm = acc.2.2.thm ∧ ((readPieces l acc).2.2).bst = acc.2.2.bst ∧ ((readPieces l acc).2.2).pending = acc.2.2.pending ∧ ((readPieces l acc).2.2).mem.bytes = acc.2.2.mem.bytes ∧ ((readPieces l acc).2.2).mem.written = acc.2.2.mem.written ∧ ((readPieces l acc).2.2).sec.fuses = acc.2.2.sec.fuses ∧ ((readPieces l acc).2.2).hif.power = acc.2.2.hif.power ∧ ((readPieces l acc).2.2).hif.bme0 = acc.2.2.hif.bme0 ∧ ((readPieces l acc).2.2).hif.bme1 = acc.2.2.hif.bme1 ∧ ((readPieces l acc).2.2).hif.d3hot = acc.2.2.hif.d3hot ∧ ((readPieces l acc).2.2).rings.sqs = acc.2.2.rings.sqs := by
  induction l generalizing acc with
  | nil => simp [readPieces]
  | cons p r ih => simp [readPieces, ih]

@[simp] theorem readBar4_frame (a n : Nat) (s : State) :
    (readBar4 a n s).sys = s.sys ∧ (readBar4 a n s).pwr = s.pwr ∧ (readBar4 a n s).conf = s.conf ∧ (readBar4 a n s).ing = s.ing ∧ (readBar4 a n s).pix = s.pix ∧ (readBar4 a n s).gz = s.gz ∧ (readBar4 a n s).lmp = s.lmp ∧ (readBar4 a n s).dmk = s.dmk ∧ (readBar4 a n s).od = s.od ∧ (readBar4 a n s).tmg = s.tmg ∧ (readBar4 a n s).pnl = s.pnl ∧ (readBar4 a n s).twl = s.twl ∧ (readBar4 a n s).cue = s.cue ∧ (readBar4 a n s).cal = s.cal ∧ (readBar4 a n s).gng = s.gng ∧ (readBar4 a n s).flt = s.flt ∧ (readBar4 a n s).thm = s.thm ∧ (readBar4 a n s).bst = s.bst ∧ (readBar4 a n s).pending = s.pending ∧ (readBar4 a n s).mem.bytes = s.mem.bytes ∧ (readBar4 a n s).mem.written = s.mem.written ∧ (readBar4 a n s).sec.fuses = s.sec.fuses ∧ (readBar4 a n s).hif.power = s.hif.power ∧ (readBar4 a n s).hif.bme0 = s.hif.bme0 ∧ (readBar4 a n s).hif.bme1 = s.hif.bme1 ∧ (readBar4 a n s).hif.d3hot = s.hif.d3hot ∧ (readBar4 a n s).rings.sqs = s.rings.sqs := by
  unfold readBar4
  (try dsimp only)
  (repeat' split) <;> (try simp)

@[simp] theorem pushHeaderBytes_frame (slot off : Nat) (d : Bytes) (s : State) :
    (pushHeaderBytes slot off d s).sys = s.sys ∧ (pushHeaderBytes slot off d s).pwr = s.pwr ∧ (pushHeaderBytes slot off d s).conf = s.conf ∧ (pushHeaderBytes slot off d s).pix = s.pix ∧ (pushHeaderBytes slot off d s).gz = s.gz ∧ (pushHeaderBytes slot off d s).lmp = s.lmp ∧ (pushHeaderBytes slot off d s).dmk = s.dmk ∧ (pushHeaderBytes slot off d s).od = s.od ∧ (pushHeaderBytes slot off d s).tmg = s.tmg ∧ (pushHeaderBytes slot off d s).pnl = s.pnl ∧ (pushHeaderBytes slot off d s).twl = s.twl ∧ (pushHeaderBytes slot off d s).cue = s.cue ∧ (pushHeaderBytes slot off d s).cal = s.cal ∧ (pushHeaderBytes slot off d s).gng = s.gng ∧ (pushHeaderBytes slot off d s).flt = s.flt ∧ (pushHeaderBytes slot off d s).thm = s.thm ∧ (pushHeaderBytes slot off d s).trc = s.trc ∧ (pushHeaderBytes slot off d s).bst = s.bst ∧ (pushHeaderBytes slot off d s).pending = s.pending ∧ (pushHeaderBytes slot off d s).sec.fuses = s.sec.fuses ∧ (pushHeaderBytes slot off d s).hif.power = s.hif.power ∧ (pushHeaderBytes slot off d s).hif.d3hot = s.hif.d3hot ∧ (pushHeaderBytes slot off d s).rings.sqs = s.rings.sqs := by
  unfold pushHeaderBytes
  (try simp)
  (repeat' split) <;> (try simp)

@[simp] theorem pushHeaderBytes_sound (slot off : Nat) (d : Bytes) (s : State) (hs : PagesSound s.mem.bytes s.mem.written) :
    PagesSound (pushHeaderBytes slot off d s).mem.bytes (pushHeaderBytes slot off d s).mem.written := by
  unfold pushHeaderBytes
  (try simp [hs])
  (repeat' split) <;> (try simp [hs])

@[simp] theorem writePush_frame (a : Nat) (d : Bytes) (s : State) :
    (writePush a d s).sys = s.sys ∧ (writePush a d s).pwr = s.pwr ∧ (writePush a d s).conf = s.conf ∧ (writePush a d s).pix = s.pix ∧ (writePush a d s).gz = s.gz ∧ (writePush a d s).lmp = s.lmp ∧ (writePush a d s).dmk = s.dmk ∧ (writePush a d s).od = s.od ∧ (writePush a d s).tmg = s.tmg ∧ (writePush a d s).pnl = s.pnl ∧ (writePush a d s).twl = s.twl ∧ (writePush a d s).cue = s.cue ∧ (writePush a d s).cal = s.cal ∧ (writePush a d s).gng = s.gng ∧ (writePush a d s).flt = s.flt ∧ (writePush a d s).thm = s.thm ∧ (writePush a d s).bst = s.bst ∧ (writePush a d s).pending = s.pending ∧ (writePush a d s).sec.fuses = s.sec.fuses ∧ (writePush a d s).hif.power = s.hif.power ∧ (writePush a d s).hif.d3hot = s.hif.d3hot ∧ (writePush a d s).rings.sqs = s.rings.sqs := by
  unfold writePush
  (try simp)
  (repeat' split) <;> (try simp)

@[simp] theorem writePush_sound (a : Nat) (d : Bytes) (s : State) (hs : PagesSound s.mem.bytes s.mem.written) :
    PagesSound (writePush a d s).mem.bytes (writePush a d s).mem.written := by
  unfold writePush
  (try simp [hs])
  (repeat' split) <;> (try simp [hs])

@[simp] theorem writePiece_frame (a : Nat) (d : Bytes) (s : State) :
    (writePiece a d s).sys = s.sys ∧ (writePiece a d s).pwr = s.pwr ∧ (writePiece a d s).conf = s.conf ∧ (writePiece a d s).pix = s.pix ∧ (writePiece a d s).gz = s.gz ∧ (writePiece a d s).lmp = s.lmp ∧ (writePiece a d s).dmk = s.dmk ∧ (writePiece a d s).od = s.od ∧ (writePiece a d s).tmg = s.tmg ∧ (writePiece a d s).pnl = s.pnl ∧ (writePiece a d s).twl = s.twl ∧ (writePiece a d s).cue = s.cue ∧ (writePiece a d s).cal = s.cal ∧ (writePiece a d s).gng = s.gng ∧ (writePiece a d s).flt = s.flt ∧ (writePiece a d s).thm = s.thm ∧ (writePiece a d s).bst = s.bst ∧ (writePiece a d s).pending = s.pending ∧ (writePiece a d s).sec.fuses = s.sec.fuses ∧ (writePiece a d s).hif.power = s.hif.power ∧ (writePiece a d s).hif.d3hot = s.hif.d3hot ∧ (writePiece a d s).rings.sqs = s.rings.sqs := by
  unfold writePiece
  (repeat' split) <;> (try simp)

@[simp] theorem writePiece_sound (a : Nat) (d : Bytes) (s : State) (hs : PagesSound s.mem.bytes s.mem.written) :
    PagesSound (writePiece a d s).mem.bytes (writePiece a d s).mem.written := by
  unfold writePiece
  (repeat' split) <;> (try simp [hs])

@[simp] theorem writeBar4_frame (a : Nat) (d : Bytes) (s : State) :
    (writeBar4 a d s).sys = s.sys ∧ (writeBar4 a d s).pwr = s.pwr ∧ (writeBar4 a d s).conf = s.conf ∧ (writeBar4 a d s).pix = s.pix ∧ (writeBar4 a d s).gz = s.gz ∧ (writeBar4 a d s).lmp = s.lmp ∧ (writeBar4 a d s).dmk = s.dmk ∧ (writeBar4 a d s).od = s.od ∧ (writeBar4 a d s).tmg = s.tmg ∧ (writeBar4 a d s).pnl = s.pnl ∧ (writeBar4 a d s).twl = s.twl ∧ (writeBar4 a d s).cue = s.cue ∧ (writeBar4 a d s).cal = s.cal ∧ (writeBar4 a d s).gng = s.gng ∧ (writeBar4 a d s).flt = s.flt ∧ (writeBar4 a d s).thm = s.thm ∧ (writeBar4 a d s).bst = s.bst ∧ (writeBar4 a d s).pending = s.pending ∧ (writeBar4 a d s).sec.fuses = s.sec.fuses ∧ (writeBar4 a d s).hif.power = s.hif.power ∧ (writeBar4 a d s).hif.d3hot = s.hif.d3hot ∧ (writeBar4 a d s).rings.sqs = s.rings.sqs := by
  unfold writeBar4
  (repeat' split) <;> (try simp)

@[simp] theorem writeBar4_sound (a : Nat) (d : Bytes) (s : State) (hs : PagesSound s.mem.bytes s.mem.written) :
    PagesSound (writeBar4 a d s).mem.bytes (writeBar4 a d s).mem.written := by
  unfold writeBar4
  (repeat' split) <;> (repeat' (first | assumption | with_reducible apply writePiece_sound | with_reducible apply writeMemOf_sound | with_reducible apply clearPages_sound | with_reducible apply empty_sound | with_reducible apply forAll_sound | with_reducible apply foldl_sound | (intro _) | split | simp))

@[simp] theorem badSize_frame (fn : Fn) (off size : Nat) (write : Bool) (s : State) :
    (badSize fn off size write s).sys = s.sys ∧ (badSize fn off size write s).pwr = s.pwr ∧ (badSize fn off size write s).conf = s.conf ∧ (badSize fn off size write s).ing = s.ing ∧ (badSize fn off size write s).pix = s.pix ∧ (badSize fn off size write s).gz = s.gz ∧ (badSize fn off size write s).lmp = s.lmp ∧ (badSize fn off size write s).dmk = s.dmk ∧ (badSize fn off size write s).od = s.od ∧ (badSize fn off size write s).tmg = s.tmg ∧ (badSize fn off size write s).pnl = s.pnl ∧ (badSize fn off size write s).twl = s.twl ∧ (badSize fn off size write s).cue = s.cue ∧ (badSize fn off size write s).mem = s.mem ∧ (badSize fn off size write s).lin = s.lin ∧ (badSize fn off size write s).cal = s.cal ∧ (badSize fn off size write s).gng = s.gng ∧ (badSize fn off size write s).sec = s.sec ∧ (badSize fn off size write s).flt = s.flt ∧ (badSize fn off size write s).thm = s.thm ∧ (badSize fn off size write s).trc = s.trc ∧ (badSize fn off size write s).bst = s.bst ∧ (badSize fn off size write s).free = s.free ∧ (badSize fn off size write s).pending = s.pending ∧ (badSize fn off size write s).hif.power = s.hif.power ∧ (badSize fn off size write s).hif.bme0 = s.hif.bme0 ∧ (badSize fn off size write s).hif.bme1 = s.hif.bme1 ∧ (badSize fn off size write s).hif.d3hot = s.hif.d3hot ∧ (badSize fn off size write s).rings.sqs = s.rings.sqs := by
  unfold badSize
  (repeat' split) <;> (try simp)

@[simp] theorem writeRwl_frame (off : Nat) (v : Word) (s : State) :
    (writeRwl off v s).sys = s.sys ∧ (writeRwl off v s).pwr = s.pwr ∧ (writeRwl off v s).ing = s.ing ∧ (writeRwl off v s).pix = s.pix ∧ (writeRwl off v s).gz = s.gz ∧ (writeRwl off v s).lmp = s.lmp ∧ (writeRwl off v s).dmk = s.dmk ∧ (writeRwl off v s).od = s.od ∧ (writeRwl off v s).tmg = s.tmg ∧ (writeRwl off v s).pnl = s.pnl ∧ (writeRwl off v s).twl = s.twl ∧ (writeRwl off v s).cue = s.cue ∧ (writeRwl off v s).mem = s.mem ∧ (writeRwl off v s).lin = s.lin ∧ (writeRwl off v s).cal = s.cal ∧ (writeRwl off v s).gng = s.gng ∧ (writeRwl off v s).sec = s.sec ∧ (writeRwl off v s).flt = s.flt ∧ (writeRwl off v s).thm = s.thm ∧ (writeRwl off v s).trc = s.trc ∧ (writeRwl off v s).bst = s.bst ∧ (writeRwl off v s).free = s.free ∧ (writeRwl off v s).pending = s.pending ∧ (writeRwl off v s).conf.regs = s.conf.regs ∧ (writeRwl off v s).conf.tables = s.conf.tables ∧ (writeRwl off v s).conf.slots = s.conf.slots ∧ (writeRwl off v s).conf.live = s.conf.live ∧ (writeRwl off v s).hif.power = s.hif.power ∧ (writeRwl off v s).hif.bme0 = s.hif.bme0 ∧ (writeRwl off v s).hif.bme1 = s.hif.bme1 ∧ (writeRwl off v s).hif.d3hot = s.hif.d3hot ∧ (writeRwl off v s).rings.sqs = s.rings.sqs := by
  unfold writeRwl
  (try simp)
  (repeat' split) <;> (try simp)

@[simp] theorem writeLive_frame (off : Nat) (v : Word) (s : State) :
    (writeLive off v s).sys = s.sys ∧ (writeLive off v s).ing = s.ing ∧ (writeLive off v s).pix = s.pix ∧ (writeLive off v s).gz = s.gz ∧ (writeLive off v s).lmp = s.lmp ∧ (writeLive off v s).dmk = s.dmk ∧ (writeLive off v s).od = s.od ∧ (writeLive off v s).tmg = s.tmg ∧ (writeLive off v s).pnl = s.pnl ∧ (writeLive off v s).cue = s.cue ∧ (writeLive off v s).mem = s.mem ∧ (writeLive off v s).lin = s.lin ∧ (writeLive off v s).cal = s.cal ∧ (writeLive off v s).gng = s.gng ∧ (writeLive off v s).sec = s.sec ∧ (writeLive off v s).flt = s.flt ∧ (writeLive off v s).thm = s.thm ∧ (writeLive off v s).bst = s.bst ∧ (writeLive off v s).pending = s.pending ∧ (writeLive off v s).conf.regs = s.conf.regs ∧ (writeLive off v s).conf.tables = s.conf.tables ∧ (writeLive off v s).hif.power = s.hif.power ∧ (writeLive off v s).hif.bme0 = s.hif.bme0 ∧ (writeLive off v s).hif.bme1 = s.hif.bme1 ∧ (writeLive off v s).hif.d3hot = s.hif.d3hot ∧ (writeLive off v s).pwr.fall = s.pwr.fall ∧ (writeLive off v s).rings.sqs = s.rings.sqs ∧ (writeLive off v s).rings.cqs = s.rings.cqs ∧ (writeLive off v s).rings.eq0 = s.rings.eq0 ∧ (writeLive off v s).rings.eq1 = s.rings.eq1 := by
  unfold writeLive
  (try simp)
  (repeat' split) <;> (try simp)

@[simp] theorem writePwrStatus_frame (v : Word) (s : State) :
    (writePwrStatus v s).sys = s.sys ∧ (writePwrStatus v s).hif = s.hif ∧ (writePwrStatus v s).rings = s.rings ∧ (writePwrStatus v s).conf = s.conf ∧ (writePwrStatus v s).ing = s.ing ∧ (writePwrStatus v s).pix = s.pix ∧ (writePwrStatus v s).gz = s.gz ∧ (writePwrStatus v s).lmp = s.lmp ∧ (writePwrStatus v s).dmk = s.dmk ∧ (writePwrStatus v s).od = s.od ∧ (writePwrStatus v s).tmg = s.tmg ∧ (writePwrStatus v s).pnl = s.pnl ∧ (writePwrStatus v s).twl = s.twl ∧ (writePwrStatus v s).cue = s.cue ∧ (writePwrStatus v s).mem = s.mem ∧ (writePwrStatus v s).lin = s.lin ∧ (writePwrStatus v s).cal = s.cal ∧ (writePwrStatus v s).gng = s.gng ∧ (writePwrStatus v s).sec = s.sec ∧ (writePwrStatus v s).flt = s.flt ∧ (writePwrStatus v s).thm = s.thm ∧ (writePwrStatus v s).trc = s.trc ∧ (writePwrStatus v s).bst = s.bst ∧ (writePwrStatus v s).out = s.out ∧ (writePwrStatus v s).free = s.free ∧ (writePwrStatus v s).pending = s.pending ∧ (writePwrStatus v s).pwr.fall = s.pwr.fall := by
  unfold writePwrStatus
  (try dsimp only)
  (repeat' split) <;> (try simp)

@[simp] theorem writeReg_frame (off : Nat) (v : Word) (s : State) :
    (writeReg off v s).pix = s.pix ∧ (writeReg off v s).gz = s.gz ∧ (writeReg off v s).lmp = s.lmp ∧ (writeReg off v s).dmk = s.dmk ∧ (writeReg off v s).od = s.od ∧ (writeReg off v s).tmg = s.tmg ∧ (writeReg off v s).pnl = s.pnl ∧ (writeReg off v s).cue = s.cue ∧ (writeReg off v s).mem = s.mem ∧ (writeReg off v s).lin = s.lin ∧ (writeReg off v s).cal = s.cal ∧ (writeReg off v s).gng = s.gng ∧ (writeReg off v s).sec = s.sec ∧ (writeReg off v s).flt = s.flt ∧ (writeReg off v s).thm = s.thm ∧ (writeReg off v s).bst = s.bst ∧ (writeReg off v s).pending = s.pending ∧ (writeReg off v s).sys.mode = s.sys.mode ∧ (writeReg off v s).sys.fe = s.sys.fe ∧ (writeReg off v s).sys.transit = s.sys.transit ∧ (writeReg off v s).sys.serving = s.sys.serving ∧ (writeReg off v s).sys.stage = s.sys.stage ∧ (writeReg off v s).conf.regs = s.conf.regs ∧ (writeReg off v s).conf.tables = s.conf.tables ∧ (writeReg off v s).hif.power = s.hif.power ∧ (writeReg off v s).hif.d3hot = s.hif.d3hot ∧ (writeReg off v s).pwr.fall = s.pwr.fall := by
  unfold writeReg
  (try simp)
  (repeat' split) <;> (try simp)

@[simp] theorem writePf1_frame (off : Nat) (v : Word) (s : State) :
    (writePf1 off v s).pwr = s.pwr ∧ (writePf1 off v s).conf = s.conf ∧ (writePf1 off v s).pix = s.pix ∧ (writePf1 off v s).gz = s.gz ∧ (writePf1 off v s).lmp = s.lmp ∧ (writePf1 off v s).dmk = s.dmk ∧ (writePf1 off v s).od = s.od ∧ (writePf1 off v s).tmg = s.tmg ∧ (writePf1 off v s).pnl = s.pnl ∧ (writePf1 off v s).cue = s.cue ∧ (writePf1 off v s).mem = s.mem ∧ (writePf1 off v s).lin = s.lin ∧ (writePf1 off v s).cal = s.cal ∧ (writePf1 off v s).gng = s.gng ∧ (writePf1 off v s).sec = s.sec ∧ (writePf1 off v s).flt = s.flt ∧ (writePf1 off v s).thm = s.thm ∧ (writePf1 off v s).bst = s.bst ∧ (writePf1 off v s).pending = s.pending ∧ (writePf1 off v s).sys.mode = s.sys.mode ∧ (writePf1 off v s).sys.fe = s.sys.fe ∧ (writePf1 off v s).sys.lock = s.sys.lock ∧ (writePf1 off v s).sys.serving = s.sys.serving ∧ (writePf1 off v s).sys.stage = s.sys.stage ∧ (writePf1 off v s).hif.power = s.hif.power ∧ (writePf1 off v s).hif.d3hot = s.hif.d3hot := by
  unfold writePf1
  (try simp)
  (repeat' split) <;> (try simp)

@[simp] theorem writeBar0_frame (fn : Fn) (off : Nat) (v : Word) (s : State) :
    (writeBar0 fn off v s).pix = s.pix ∧ (writeBar0 fn off v s).gz = s.gz ∧ (writeBar0 fn off v s).lmp = s.lmp ∧ (writeBar0 fn off v s).dmk = s.dmk ∧ (writeBar0 fn off v s).od = s.od ∧ (writeBar0 fn off v s).tmg = s.tmg ∧ (writeBar0 fn off v s).pnl = s.pnl ∧ (writeBar0 fn off v s).cue = s.cue ∧ (writeBar0 fn off v s).mem = s.mem ∧ (writeBar0 fn off v s).lin = s.lin ∧ (writeBar0 fn off v s).cal = s.cal ∧ (writeBar0 fn off v s).gng = s.gng ∧ (writeBar0 fn off v s).sec = s.sec ∧ (writeBar0 fn off v s).flt = s.flt ∧ (writeBar0 fn off v s).thm = s.thm ∧ (writeBar0 fn off v s).bst = s.bst ∧ (writeBar0 fn off v s).pending = s.pending ∧ (writeBar0 fn off v s).sys.mode = s.sys.mode ∧ (writeBar0 fn off v s).sys.fe = s.sys.fe ∧ (writeBar0 fn off v s).sys.serving = s.sys.serving ∧ (writeBar0 fn off v s).sys.stage = s.sys.stage ∧ (writeBar0 fn off v s).conf.regs = s.conf.regs ∧ (writeBar0 fn off v s).conf.tables = s.conf.tables ∧ (writeBar0 fn off v s).hif.power = s.hif.power ∧ (writeBar0 fn off v s).hif.d3hot = s.hif.d3hot ∧ (writeBar0 fn off v s).pwr.fall = s.pwr.fall := by
  unfold writeBar0
  (repeat' split) <;> (try simp)

@[simp] theorem writeMsix_frame (off : Nat) (v : Word) (s : State) :
    (writeMsix off v s).sys = s.sys ∧ (writeMsix off v s).pwr = s.pwr ∧ (writeMsix off v s).conf = s.conf ∧ (writeMsix off v s).ing = s.ing ∧ (writeMsix off v s).pix = s.pix ∧ (writeMsix off v s).gz = s.gz ∧ (writeMsix off v s).lmp = s.lmp ∧ (writeMsix off v s).dmk = s.dmk ∧ (writeMsix off v s).od = s.od ∧ (writeMsix off v s).tmg = s.tmg ∧ (writeMsix off v s).pnl = s.pnl ∧ (writeMsix off v s).twl = s.twl ∧ (writeMsix off v s).cue = s.cue ∧ (writeMsix off v s).mem = s.mem ∧ (writeMsix off v s).lin = s.lin ∧ (writeMsix off v s).cal = s.cal ∧ (writeMsix off v s).gng = s.gng ∧ (writeMsix off v s).sec = s.sec ∧ (writeMsix off v s).flt = s.flt ∧ (writeMsix off v s).thm = s.thm ∧ (writeMsix off v s).trc = s.trc ∧ (writeMsix off v s).bst = s.bst ∧ (writeMsix off v s).free = s.free ∧ (writeMsix off v s).pending = s.pending := by
  unfold writeMsix
  simp

@[simp] theorem writeBar2_frame (off : Nat) (v : Word) (s : State) :
    (writeBar2 off v s).pwr = s.pwr ∧ (writeBar2 off v s).conf = s.conf ∧ (writeBar2 off v s).ing = s.ing ∧ (writeBar2 off v s).pix = s.pix ∧ (writeBar2 off v s).gz = s.gz ∧ (writeBar2 off v s).lmp = s.lmp ∧ (writeBar2 off v s).dmk = s.dmk ∧ (writeBar2 off v s).od = s.od ∧ (writeBar2 off v s).tmg = s.tmg ∧ (writeBar2 off v s).pnl = s.pnl ∧ (writeBar2 off v s).cue = s.cue ∧ (writeBar2 off v s).mem = s.mem ∧ (writeBar2 off v s).lin = s.lin ∧ (writeBar2 off v s).cal = s.cal ∧ (writeBar2 off v s).gng = s.gng ∧ (writeBar2 off v s).sec = s.sec ∧ (writeBar2 off v s).flt = s.flt ∧ (writeBar2 off v s).thm = s.thm ∧ (writeBar2 off v s).trc = s.trc ∧ (writeBar2 off v s).bst = s.bst ∧ (writeBar2 off v s).free = s.free ∧ (writeBar2 off v s).pending = s.pending ∧ (writeBar2 off v s).sys.mode = s.sys.mode ∧ (writeBar2 off v s).sys.fe = s.sys.fe ∧ (writeBar2 off v s).sys.lock = s.sys.lock ∧ (writeBar2 off v s).sys.serving = s.sys.serving ∧ (writeBar2 off v s).sys.stage = s.sys.stage := by
  unfold writeBar2
  (try simp)
  (repeat' split) <;> (try simp)

@[simp] theorem writeCfg_frame (fn : Fn) (r : CfgReg) (v : Word) (s : State) :
    (writeCfg fn r v s).pwr = s.pwr ∧ (writeCfg fn r v s).conf = s.conf ∧ (writeCfg fn r v s).pix = s.pix ∧ (writeCfg fn r v s).gz = s.gz ∧ (writeCfg fn r v s).lmp = s.lmp ∧ (writeCfg fn r v s).dmk = s.dmk ∧ (writeCfg fn r v s).od = s.od ∧ (writeCfg fn r v s).tmg = s.tmg ∧ (writeCfg fn r v s).pnl = s.pnl ∧ (writeCfg fn r v s).cue = s.cue ∧ (writeCfg fn r v s).mem = s.mem ∧ (writeCfg fn r v s).lin = s.lin ∧ (writeCfg fn r v s).cal = s.cal ∧ (writeCfg fn r v s).gng = s.gng ∧ (writeCfg fn r v s).sec = s.sec ∧ (writeCfg fn r v s).flt = s.flt ∧ (writeCfg fn r v s).thm = s.thm ∧ (writeCfg fn r v s).bst = s.bst ∧ (writeCfg fn r v s).pending = s.pending ∧ (writeCfg fn r v s).sys.mode = s.sys.mode ∧ (writeCfg fn r v s).sys.fe = s.sys.fe ∧ (writeCfg fn r v s).sys.lock = s.sys.lock ∧ (writeCfg fn r v s).sys.serving = s.sys.serving ∧ (writeCfg fn r v s).sys.stage = s.sys.stage ∧ (writeCfg fn r v s).hif.power = s.hif.power ∧ (writeCfg fn r v s).rings.sqs = s.rings.sqs := by
  unfold writeCfg
  (try simp)
  (repeat' split) <;> (try simp)

@[simp] theorem bar2Write_frame (off size : Nat) (v : Word) (poisoned : Bool) (s : State) :
    (bar2Write off size v poisoned s).pwr = s.pwr ∧ (bar2Write off size v poisoned s).conf = s.conf ∧ (bar2Write off size v poisoned s).ing = s.ing ∧ (bar2Write off size v poisoned s).pix = s.pix ∧ (bar2Write off size v poisoned s).gz = s.gz ∧ (bar2Write off size v poisoned s).lmp = s.lmp ∧ (bar2Write off size v poisoned s).dmk = s.dmk ∧ (bar2Write off size v poisoned s).od = s.od ∧ (bar2Write off size v poisoned s).tmg = s.tmg ∧ (bar2Write off size v poisoned s).pnl = s.pnl ∧ (bar2Write off size v poisoned s).cue = s.cue ∧ (bar2Write off size v poisoned s).mem = s.mem ∧ (bar2Write off size v poisoned s).lin = s.lin ∧ (bar2Write off size v poisoned s).cal = s.cal ∧ (bar2Write off size v poisoned s).gng = s.gng ∧ (bar2Write off size v poisoned s).sec = s.sec ∧ (bar2Write off size v poisoned s).flt = s.flt ∧ (bar2Write off size v poisoned s).thm = s.thm ∧ (bar2Write off size v poisoned s).trc = s.trc ∧ (bar2Write off size v poisoned s).bst = s.bst ∧ (bar2Write off size v poisoned s).pending = s.pending ∧ (bar2Write off size v poisoned s).sys.mode = s.sys.mode ∧ (bar2Write off size v poisoned s).sys.fe = s.sys.fe ∧ (bar2Write off size v poisoned s).sys.lock = s.sys.lock ∧ (bar2Write off size v poisoned s).sys.serving = s.sys.serving ∧ (bar2Write off size v poisoned s).sys.stage = s.sys.stage := by
  unfold bar2Write
  (try simp)
  (repeat' split) <;> (try simp)

@[simp] theorem bar2WriteWide_frame (off : Nat) (low high : Word) (poisoned : Bool) (s : State) :
    (bar2WriteWide off low high poisoned s).pwr = s.pwr ∧ (bar2WriteWide off low high poisoned s).conf = s.conf ∧ (bar2WriteWide off low high poisoned s).ing = s.ing ∧ (bar2WriteWide off low high poisoned s).pix = s.pix ∧ (bar2WriteWide off low high poisoned s).gz = s.gz ∧ (bar2WriteWide off low high poisoned s).lmp = s.lmp ∧ (bar2WriteWide off low high poisoned s).dmk = s.dmk ∧ (bar2WriteWide off low high poisoned s).od = s.od ∧ (bar2WriteWide off low high poisoned s).tmg = s.tmg ∧ (bar2WriteWide off low high poisoned s).pnl = s.pnl ∧ (bar2WriteWide off low high poisoned s).cue = s.cue ∧ (bar2WriteWide off low high poisoned s).mem = s.mem ∧ (bar2WriteWide off low high poisoned s).lin = s.lin ∧ (bar2WriteWide off low high poisoned s).cal = s.cal ∧ (bar2WriteWide off low high poisoned s).gng = s.gng ∧ (bar2WriteWide off low high poisoned s).sec = s.sec ∧ (bar2WriteWide off low high poisoned s).flt = s.flt ∧ (bar2WriteWide off low high poisoned s).thm = s.thm ∧ (bar2WriteWide off low high poisoned s).trc = s.trc ∧ (bar2WriteWide off low high poisoned s).bst = s.bst ∧ (bar2WriteWide off low high poisoned s).pending = s.pending ∧ (bar2WriteWide off low high poisoned s).sys.mode = s.sys.mode ∧ (bar2WriteWide off low high poisoned s).sys.fe = s.sys.fe ∧ (bar2WriteWide off low high poisoned s).sys.lock = s.sys.lock ∧ (bar2WriteWide off low high poisoned s).sys.serving = s.sys.serving ∧ (bar2WriteWide off low high poisoned s).sys.stage = s.sys.stage := by
  unfold bar2WriteWide
  (try simp)
  (repeat' split) <;> (try simp)

@[simp] theorem replyBar0_frame (fn : Fn) (off : Nat) (s : State) :
    (replyBar0 fn off s).hif = s.hif ∧ (replyBar0 fn off s).rings = s.rings ∧ (replyBar0 fn off s).conf = s.conf ∧ (replyBar0 fn off s).ing = s.ing ∧ (replyBar0 fn off s).pix = s.pix ∧ (replyBar0 fn off s).gz = s.gz ∧ (replyBar0 fn off s).lmp = s.lmp ∧ (replyBar0 fn off s).dmk = s.dmk ∧ (replyBar0 fn off s).od = s.od ∧ (replyBar0 fn off s).tmg = s.tmg ∧ (replyBar0 fn off s).pnl = s.pnl ∧ (replyBar0 fn off s).twl = s.twl ∧ (replyBar0 fn off s).cue = s.cue ∧ (replyBar0 fn off s).mem = s.mem ∧ (replyBar0 fn off s).lin = s.lin ∧ (replyBar0 fn off s).cal = s.cal ∧ (replyBar0 fn off s).gng = s.gng ∧ (replyBar0 fn off s).sec = s.sec ∧ (replyBar0 fn off s).flt = s.flt ∧ (replyBar0 fn off s).thm = s.thm ∧ (replyBar0 fn off s).trc = s.trc ∧ (replyBar0 fn off s).bst = s.bst ∧ (replyBar0 fn off s).pending = s.pending ∧ (replyBar0 fn off s).sys.mode = s.sys.mode ∧ (replyBar0 fn off s).sys.fe = s.sys.fe ∧ (replyBar0 fn off s).sys.transit = s.sys.transit ∧ (replyBar0 fn off s).sys.lock = s.sys.lock ∧ (replyBar0 fn off s).sys.serving = s.sys.serving ∧ (replyBar0 fn off s).sys.stage = s.sys.stage ∧ (replyBar0 fn off s).pwr.fall = s.pwr.fall := by
  unfold replyBar0
  (repeat' split) <;> (try simp)

@[simp] theorem bar2Read_frame (off size : Nat) (s : State) :
    (bar2Read off size s).sys = s.sys ∧ (bar2Read off size s).pwr = s.pwr ∧ (bar2Read off size s).conf = s.conf ∧ (bar2Read off size s).ing = s.ing ∧ (bar2Read off size s).pix = s.pix ∧ (bar2Read off size s).gz = s.gz ∧ (bar2Read off size s).lmp = s.lmp ∧ (bar2Read off size s).dmk = s.dmk ∧ (bar2Read off size s).od = s.od ∧ (bar2Read off size s).tmg = s.tmg ∧ (bar2Read off size s).pnl = s.pnl ∧ (bar2Read off size s).twl = s.twl ∧ (bar2Read off size s).cue = s.cue ∧ (bar2Read off size s).mem = s.mem ∧ (bar2Read off size s).lin = s.lin ∧ (bar2Read off size s).cal = s.cal ∧ (bar2Read off size s).gng = s.gng ∧ (bar2Read off size s).sec = s.sec ∧ (bar2Read off size s).flt = s.flt ∧ (bar2Read off size s).thm = s.thm ∧ (bar2Read off size s).trc = s.trc ∧ (bar2Read off size s).bst = s.bst ∧ (bar2Read off size s).free = s.free ∧ (bar2Read off size s).pending = s.pending ∧ (bar2Read off size s).hif.power = s.hif.power ∧ (bar2Read off size s).hif.bme0 = s.hif.bme0 ∧ (bar2Read off size s).hif.bme1 = s.hif.bme1 ∧ (bar2Read off size s).hif.d3hot = s.hif.d3hot ∧ (bar2Read off size s).rings.sqs = s.rings.sqs := by
  unfold bar2Read
  (try simp)
  (repeat' split) <;> (try simp)

@[simp] theorem bar2ReadWide_frame (off : Nat) (s : State) :
    (bar2ReadWide off s).sys = s.sys ∧ (bar2ReadWide off s).pwr = s.pwr ∧ (bar2ReadWide off s).conf = s.conf ∧ (bar2ReadWide off s).ing = s.ing ∧ (bar2ReadWide off s).pix = s.pix ∧ (bar2ReadWide off s).gz = s.gz ∧ (bar2ReadWide off s).lmp = s.lmp ∧ (bar2ReadWide off s).dmk = s.dmk ∧ (bar2ReadWide off s).od = s.od ∧ (bar2ReadWide off s).tmg = s.tmg ∧ (bar2ReadWide off s).pnl = s.pnl ∧ (bar2ReadWide off s).twl = s.twl ∧ (bar2ReadWide off s).cue = s.cue ∧ (bar2ReadWide off s).mem = s.mem ∧ (bar2ReadWide off s).lin = s.lin ∧ (bar2ReadWide off s).cal = s.cal ∧ (bar2ReadWide off s).gng = s.gng ∧ (bar2ReadWide off s).sec = s.sec ∧ (bar2ReadWide off s).flt = s.flt ∧ (bar2ReadWide off s).thm = s.thm ∧ (bar2ReadWide off s).trc = s.trc ∧ (bar2ReadWide off s).bst = s.bst ∧ (bar2ReadWide off s).free = s.free ∧ (bar2ReadWide off s).pending = s.pending ∧ (bar2ReadWide off s).hif.power = s.hif.power ∧ (bar2ReadWide off s).hif.bme0 = s.hif.bme0 ∧ (bar2ReadWide off s).hif.bme1 = s.hif.bme1 ∧ (bar2ReadWide off s).hif.d3hot = s.hif.d3hot ∧ (bar2ReadWide off s).rings.sqs = s.rings.sqs := by
  unfold bar2ReadWide
  (try simp)
  (repeat' split) <;> (try simp)

end Sys2Proof.Laws
end

