-- ==== Sys2Proof/Machine/Pins.lean ====
section
/-!
DEFINITION. The pins of the module in each of its power phases (R415, R424, Table 19.5): what each shows is a function of the
state.
-/
namespace Sys2Proof.Machine

/-- Columns of Table 19.5. -/
inductive PinPhase where
  | noVin | reset | running | dormant
  deriving DecidableEq, Repr

/-- How a pin stands: not driven at all, high-impedance, at a level, an input, or driven as the chapter of its unit defines. -/
inductive PinDrive where
  | undriven | highZ | level (high : Bool) | input | byUnit
  deriving DecidableEq, Repr

/-- The phase of a state: reset runs to the release of the die's reset; in DORMANT a loss of VIN leaves no VIN (R50, R415). -/
def pinPhase (s : State) : PinPhase :=
  if s.sys.mode = .dormant then (if s.sys.vinLost then .noVin else .dormant)
  else if s.sys.stage = .unpowered then .reset else .running

/-- HTX, the Twill lanes and references, Gingham TX and lamp LD. -/
def linkPins (s : State) : PinDrive := if pinPhase s = .running then .byUnit else .undriven

/-- The lanes of J9: undriven too while TRC_EN# is high (R426). -/
def tracePins (s : State) : PinDrive := if pinPhase s = .running && s.trc.enLow then .byUnit else .undriven

/-- An open-drain pin: asserted low or let go. -/
def openDrain (asserted : Bool) : PinDrive := if asserted then .level false else .highZ

/-- WAKE# (R62, R69). -/
def wakeDrive (s : State) : PinDrive :=
  match pinPhase s with
  | .running | .dormant => openDrain s.hif.wakePin
  | .noVin | .reset => .highZ

/-- CLKREQ#: asserted while the link needs its clock. L1.1 and L1.2 are L1 with CLKREQ# released (Table 3.3); the spec gives no
rule that tells them from L1, so that its level in L1 is a free value (log entry 3). -/
def clkreqDrive (s : State) : PinDrive :=
  match pinPhase s with
  | .running => openDrain (match s.hif.power with
    | .down | .l0 => true
    | .l1 => freeNow s % 2 = 1
    | .l2 => false)
  | .noVin | .reset | .dormant => .highZ

/-- The Twill back-channels (R252). -/
def backchannelPins (s : State) : PinDrive := if pinPhase s = .running then .byUnit else .highZ

/-- A GT output: high-impedance while VIO_GT is under 1.6 V (R228, R415). -/
def gtPin (s : State) (n : Nat) : PinDrive :=
  if pinPhase s = .running && s.tmg.vioGood then .level (s.tmg.gateLevels.getLsbD n) else .highZ

/-- A panel enable (R230, R232); its pull-down holds it low without VIN. -/
def penPin (s : State) (n : Nat) : PinDrive := .level (pinPhase s = .running && s.pnl.pens.getLsbD n)

/-- An event pin (R218): active or inactive at the polarity of EVPOL; the always-on domain holds it in DORMANT. -/
def evPinDrive (s : State) (n : Nat) : PinDrive :=
  match pinPhase s with
  | .running | .dormant => .level (s.tmg.evPins.getLsbD n = evActive s n)
  | .noVin | .reset => .level false

/-- A GPIO (R438). -/
def gpioDrive (s : State) (n : Nat) : PinDrive :=
  match pinPhase s with
  | .noVin => .highZ
  | .reset => .input
  | .running | .dormant =>
    if bit (fget s.conf SYS_GPIO_CFG_DIR) n then .level (bit (lget s.conf SYS_GPIO_OUT_OUT) n) else .input

/-- CON_TX: the console's output, high at rest (R425). -/
def consoleDrive (s : State) : PinDrive :=
  match pinPhase s with
  | .noVin => .highZ
  | .reset | .dormant => .level true
  | .running => .byUnit

/-- I3C_SCL and I3C_SDA: the bus controller's (R335). -/
def i3cPins (s : State) : PinDrive := if pinPhase s = .running then .byUnit else .highZ

/-- I3C_SCL's rate in kHz: 12.5 MHz while only I3C targets are configured, 400 kHz with any I²C target (R424). -/
def i3cRate (s : State) : Nat :=
  if (List.range 16).any (fun k => fbit s.conf (THM_SENSOR_EN k) && !(fbit s.conf (THM_SENSOR_BUS_I3C k))) then 400 else 12500

/-- AUX3V3 is present in BOOT and the running modes (R424). -/
def auxPresent (s : State) : Bool := pinPhase s = .running

end Sys2Proof.Machine
end

