-- ==== Sys2Proof/WellFormed.lean ====
section
/-!
DEFINITION. Which commands are well formed: every number that names a thing of the block names one that exists. A meaning
is total all the same; a command outside these ranges changes nothing or what its docstring says (log entry 8).
-/
namespace Sys2Proof

/-- Rings of a kind that a function has (Tables 4.1, 20.2). -/
def Fn.rings : Fn → Nat
  | .pf0 => 64
  | .pf1 => 8

/-- A command ring of PF0. -/
def okSq (n : Nat) : Bool := decide (n < 64)

/-- A command ring of PF1. -/
def okSq1 (n : Nat) : Bool := decide (n < 8)

/-- MSI-X vectors of a function (Table 3.5). -/
def Fn.vectors : Fn → Nat
  | .pf0 => 256
  | .pf1 => 32

/-- An offset lies inside its BAR: 16 MiB of BAR0, 64 KiB of BAR2 (Table 3.4). -/
def RegAddr.wf : RegAddr → Bool
  | .bar0 off => decide (off < 0x1000000)
  | .bar2 off => decide (off < 0x10000)
  | .bar2Wide off _ => decide (off < 0x10000)
  | .config _ => true

/-- A symbol error names one of a page's four codewords, a position in it, and a symbol of ten bits (R294). -/
def SymbolError.wf (e : SymbolError) : Bool := decide (e.word < 4) && decide (e.pos < 1023) && decide (e.value < 1024)

/-- A page that is read, and the 32 bits of its poison word (R294). -/
def PageRead.wf (r : PageRead) : Bool := r.errors.all SymbolError.wf && decide (r.flips < 2 ^ 32)

/-- The checks of a command's operands. -/
def Instr.wf : Instr → Bool
  | .linkTrained speed width _ _ => decide (1 ≤ speed ∧ speed ≤ 6) && [1, 2, 4, 8, 16].contains width
  | .l0pWidthChange width => [1, 2, 4, 8, 16].contains width.lanes
  | .marginingCommand lane _ => decide (lane < 16)
  | .eyeScanSweepDone lane rows _ => decide (lane < 24) && decide (rows.length ≤ 3)
  | .hostReadCompletion b _ => decide (b.layer < 4)
  | .msixUnmask fn (.vector v) => decide (v < fn.vectors)
  | .msixMask fn (.vector v) => decide (v < fn.vectors)
  | .bandDeadline b => decide (b.layer < 4)
  | .zoneRowTick row => decide (row < 512)
  | .weaverCutoff line stripe _ _ => decide (line < 65536) && decide (stripe < 192)
  | .evPinPulseEnd pin => decide (pin < 4)
  | .frame sq => okSq sq
  | .pushHeaderCommit slot header _ => decide (slot < 256) && decide (header.length = 32)
  | .pushPayloadWrite slot _ _ _ => decide (slot < 256)
  | .registerWrite _ offset _ _ _ => offset.wf
  | .registerRead _ offset _ => offset.wf
  | .sqEnable fn n _ => decide (n < fn.rings)
  | .sqDisable fn n => decide (n < fn.rings)
  | .sqErrorClear fn n => decide (n < fn.rings)
  | .cqEnable fn m _ => decide (m < fn.rings)
  | .cqDisable fn m => decide (m < fn.rings)
  | .submissionDoorbell fn n _ _ => decide (n < fn.rings)
  | .completionHeadDoorbell fn m _ _ => decide (m < fn.rings)
  | .eventHeadDoorbell fn ring _ _ => ring = .event || fn = .pf1
  | .holdoffExpiry (.cq fn m) => decide (m < fn.rings)
  | .setTable sq _ => okSq sq
  | .stageConfig sq _ => okSq sq
  | .armConfig sq => okSq sq
  | .armConfigCancel sq => okSq sq
  | .modeReq sq => okSq sq
  | .gpioWakeEdge pin _ => decide (pin < 8)
  | .linenRead sq => okSq1 sq
  | .linenWrite sq _ => okSq1 sq
  | .linenStore sq => okSq1 sq
  | .linenBracketOpen sq => okSq1 sq
  | .linenBracketClose sq => okSq1 sq
  | .linenBracketAbort sq => okSq1 sq
  | .memCopy sq _ => okSq sq
  | .memFill sq => okSq sq
  | .regionUpdateDone sq => okSq sq
  | .freeBuffer sq => okSq sq
  | .cueLoad sq _ => okSq sq
  | .cueStart sq => okSq sq
  | .cueStop sq => okSq sq
  | .zoneOverride sq _ => okSq sq
  | .zoneOverrideClear sq => okSq sq
  | .zoneRead sq => okSq sq
  | .calRun sq => okSq sq
  | .faultQuery fn sq => decide (sq < fn.rings)
  | .spareCommit sq => okSq sq
  | .traceCfg sq => okSq1 sq
  | .lifecycleAdvance sq _ => okSq1 sq
  | .debugToken sq _ => okSq1 sq
  | .debugRevoke sq => okSq1 sq
  | .measExtend sq _ => okSq1 sq
  | .svnCommit sq => okSq1 sq
  | .nbrMeasRead sq => okSq1 sq
  | .nbrPin sq _ => okSq1 sq
  | .fwUpdate sq _ => okSq1 sq
  | .keyErase sq => okSq1 sq
  | .ideKmKeyProg _ stream keySet key => decide (stream < 4) && decide (keySet < 2) && decide (key.length = 32)
  | .ideKmKSetGo _ stream keySet => decide (stream < 4) && decide (keySet < 2)
  | .ideKmKSetStop _ stream keySet => decide (stream < 4) && decide (keySet < 2)
  | .statisticsPassLine line stripe => decide (line < 65536) && decide (stripe < 192)
  | .zoneStatsMerge row stripe _ => decide (row < 512) && decide (stripe < 192)
  | .checkerSelfTestDone engine _ => decide (engine < 200)
  | .solverLockstepMismatch pair => decide (pair < 17)
  | .hkLockstepMismatch pair _ => decide (pair < 2)
  | .hkSelfTestDone pair _ => decide (pair < 2)
  | .dvmSample codes => decide (codes.length = 12)
  | .backchannelReply port _ _ _ => decide (port < 96)
  | .backchannelReplyTimeout port => decide (port < 96)
  | .trainingPingTimer port => decide (port < 96)
  | .trainingPhaseTimeout port _ => decide (port < 96)
  | .trainingRetryBackoff port => decide (port < 96)
  | .statusPollTimer port => decide (port < 96)
  | .lampReturnFrame lane chars => decide (lane < 32) && chars.all (fun c => decide (c < 1024))
  | .lampAnswerTimeout lane => decide (lane < 32)
  | .lampDiscovery lane => decide (lane < 32)
  | .panelSensorPoll readings => decide (readings.length = 16)
  | .adaptWindowEnd lane _ => decide (108 ≤ lane && lane < 132)
  | .calMeasurementDone lane _ => decide (lane < 132)
  | .ginghamPortBringup port _ => decide (port < 4)
  | .ginghamBringupTimeout port => decide (port < 4)
  | .ginghamRetryTimer port => decide (port < 4)
  | .ginghamPortDown port => decide (port < 4)
  | .hello port src _ => decide (port < 4) && decide (src < 64)
  | .latProbe port _ => decide (port < 4)
  | .latEcho port _ _ => decide (port < 4)
  | .tickMarker port => decide (port < 4)
  | .digest port src seqNo _ _ => decide (port < 4) && decide (src < 64) && decide (seqNo < 256)
  | .ginghamArm port src seqNo _ _ _ _ _ => decide (port < 4) && decide (src < 64) && decide (seqNo < 256)
  | .armAck port src seqNo _ _ _ => decide (port < 4) && decide (src < 64) && decide (seqNo < 256)
  | .armCommit port src seqNo _ => decide (port < 4) && decide (src < 64) && decide (seqNo < 256)
  | .armAbort port src seqNo _ => decide (port < 4) && decide (src < 64) && decide (seqNo < 256)
  | .haloTarget port _ _ _ => port = 1 || port = 3
  | .haloLevel port _ _ _ => port = 1 || port = 3
  | .measReq port nonce => decide (port < 4) && decide (nonce.length = 32)
  | .meas port nonce _ _ _ => decide (port < 4) && decide (nonce.length = 32)
  | .ginghamWake port => decide (port < 4)
  | .twillClockLossTimeout group => decide (group < 12)
  | .bar4Resize l => decide (l ≤ 17)
  | .pageCorrection page _ => page.wf
  | .pageUncorrectable page _ _ => page.wf
  | .scrubVisit errors flips => errors.all SymbolError.wf && decide (flips < 2 ^ 32)
  | _ => true

end Sys2Proof
end

