-- ==== Sys2Proof/Tests/Slice0.lean ====
section
/-!
SUPPORT. Tests: ill-formed commands that `WellFormed` refuses, worked examples of the spec, and for every statement of
Obligations.lean a concrete state and operands that meet the hypotheses of each of its clauses together. Expected values
come from the spec's tables and examples, named at each test.
-/
namespace Sys2Proof.Tests
open Sys2Proof Sys2Proof.Machine
-- one test after another: evaluated side by side they ask for more threads than the memory limit allows
set_option Elab.async false

/-! ## Small states -/

/-- A module in LIVE with its link up, both functions served and bus masters, FE 5, lifecycle OWNED. -/
def up : State := { State.reset with
  sys := { mode := .live, stage := .finished, serving := true, fe := 5 }
  hif := { power := .l0, perst := false, bme0 := true, bme1 := true, flit := true, speed := 6, width := 16, l0pWidth := 16 }
  sec := { fuses := { lifecycle := 1 } } }

/-- The 64 bytes of a descriptor: its opcode and the fields given as (offset, bytes, value). -/
def desc (op : Nat) (fs : List (Nat × Nat × Nat)) : Bytes :=
  fs.foldl (fun b f => b.take f.1 ++ toLE f.2.1 f.2.2 ++ b.drop (f.1 + f.2.1)) (BitVec.ofNat 8 op :: List.replicate 63 0)

/-- That descriptor as a ring's command, not begun. -/
def cmd (op : Nat) (fs : List (Nat × Nat × Nat)) : Running := { slot := 0, cq := 0, raw := desc op fs }

/-- Put a command on ring n of a function. -/
def on (fn : Fn) (n : Nat) (r : Running) (s : State) : State :=
  { s with rings := setSq fn n { enable := true, running := some r } s.rings }

/-- Bytes as a read of host memory gives them. -/
def got (n : Nat) : Rd := { ok := true, bytes := List.replicate n 0 }

/-- Set one RWL field in force. -/
def field (f : Fld) (v : Nat) (s : State) : State :=
  let w := (mget (BitVec.ofNat 32 f.reset) s.conf.regs f.off).toNat;
  let x := BitVec.ofNat 32 (w - bits w f.lo f.w * 2 ^ f.lo + v % 2 ^ f.w * 2 ^ f.lo);
  { s with conf := { s.conf with regs := mput (BitVec.ofNat 32 f.reset) f.off x s.conf.regs } }

/-- Set one live field. -/
def liveField (f : Fld) (v : Nat) (s : State) : State :=
  let w := (mget (BitVec.ofNat 32 f.reset) s.conf.live f.off).toNat;
  let x := BitVec.ofNat 32 (w - bits w f.lo f.w * 2 ^ f.lo + v % 2 ^ f.w * 2 ^ f.lo);
  { s with conf := { s.conf with live := mput (BitVec.ofNat 32 f.reset) f.off x s.conf.live } }

/-- Put bytes into a table in force. -/
def table (id off : Nat) (d : Bytes) (s : State) : State :=
  { s with conf := { s.conf with tables := mputs 0 (1048576 * id + off) d s.conf.tables } }

def inMode (m : Mode) (s : State) : State := { s with sys := { s.sys with mode := m } }

/-! ## Ill-formed commands, one for each check -/

theorem test_wf_link : (Instr.linkTrained 7 16 true 0).wf = false ∧ (Instr.linkTrained 6 3 true 0).wf = false ∧
    (Instr.l0pWidthChange ⟨true, 3⟩).wf = false ∧ (Instr.marginingCommand 16 true).wf = false ∧ (Instr.eyeScanSweepDone 24 [] []).wf = false ∧
    (Instr.eyeScanSweepDone 0 [[], [], [], []] []).wf = false ∧ (Instr.bar4Resize 18).wf = false ∧ (Instr.linkTrained 6 16 true 0).wf = true := by decide

theorem test_wf_rings : (Instr.sqEnable .pf1 8 0).wf = false ∧ (Instr.sqDisable .pf0 64).wf = false ∧ (Instr.sqErrorClear .pf1 8).wf = false ∧
    (Instr.cqEnable .pf0 64 0).wf = false ∧ (Instr.cqDisable .pf1 8).wf = false ∧ (Instr.submissionDoorbell .pf1 8 0 false).wf = false ∧
    (Instr.completionHeadDoorbell .pf0 64 0 false).wf = false ∧ (Instr.eventHeadDoorbell .pf0 .trace1 0 false).wf = false ∧
    (Instr.holdoffExpiry (.cq .pf1 8)).wf = false ∧ (Instr.msixUnmask .pf1 (.vector 32)).wf = false ∧ (Instr.msixMask .pf0 (.vector 256)).wf = false ∧
    (Instr.registerWrite .pf0 (.bar0 0x1000000) 4 0 false).wf = false ∧ (Instr.registerRead .pf0 (.bar0 0x1000000) 4).wf = false ∧ (Instr.sqEnable .pf0 63 0).wf = true := by decide

theorem test_wf_ingest : (Instr.hostReadCompletion ⟨5, 4, 0⟩ (got 0)).wf = false ∧ (Instr.bandDeadline ⟨4, 0⟩).wf = false ∧ (Instr.zoneRowTick 512).wf = false ∧
    (Instr.weaverCutoff 65536 0 true true).wf = false ∧ (Instr.weaverCutoff 0 192 true true).wf = false ∧ (Instr.evPinPulseEnd 4).wf = false ∧
    (Instr.pushHeaderCommit 256 (List.replicate 32 0) none).wf = false ∧ (Instr.pushHeaderCommit 0 [] none).wf = false ∧
    (Instr.pushPayloadWrite 256 0 [] none).wf = false ∧ (Instr.statisticsPassLine 65536 0).wf = false ∧ (Instr.statisticsPassLine 0 192).wf = false ∧
    (Instr.zoneStatsMerge 512 0 0).wf = false ∧ (Instr.zoneStatsMerge 0 192 0).wf = false := by decide

theorem test_wf_commands : (Instr.frame 64).wf = false ∧ (Instr.setTable 64 (got 0)).wf = false ∧ (Instr.stageConfig 64 (got 0)).wf = false ∧
    (Instr.armConfig 64).wf = false ∧ (Instr.armConfigCancel 64).wf = false ∧ (Instr.modeReq 64).wf = false ∧ (Instr.memCopy 64 (got 0)).wf = false ∧
    (Instr.memFill 64).wf = false ∧ (Instr.regionUpdateDone 64).wf = false ∧ (Instr.freeBuffer 64).wf = false ∧ (Instr.cueLoad 64 (got 0)).wf = false ∧
    (Instr.cueStart 64).wf = false ∧ (Instr.cueStop 64).wf = false ∧ (Instr.zoneOverride 64 (got 0)).wf = false ∧ (Instr.zoneOverrideClear 64).wf = false ∧
    (Instr.zoneRead 64).wf = false ∧ (Instr.calRun 64).wf = false ∧ (Instr.faultQuery .pf1 8).wf = false ∧ (Instr.spareCommit 64).wf = false ∧
    (Instr.gpioWakeEdge 8 true).wf = false ∧ (Instr.frame 63).wf = true := by decide

theorem test_wf_security : (Instr.linenRead 8).wf = false ∧ (Instr.linenWrite 8 (got 0)).wf = false ∧ (Instr.linenStore 8).wf = false ∧
    (Instr.linenBracketOpen 8).wf = false ∧ (Instr.linenBracketClose 8).wf = false ∧ (Instr.linenBracketAbort 8).wf = false ∧
    (Instr.traceCfg 8).wf = false ∧ (Instr.lifecycleAdvance 8 (got 0)).wf = false ∧ (Instr.debugToken 8 (got 0)).wf = false ∧ (Instr.debugRevoke 8).wf = false ∧
    (Instr.measExtend 8 (got 0)).wf = false ∧ (Instr.svnCommit 8).wf = false ∧ (Instr.nbrMeasRead 8).wf = false ∧ (Instr.nbrPin 8 (got 0)).wf = false ∧
    (Instr.fwUpdate 8 (got 0)).wf = false ∧ (Instr.keyErase 8).wf = false ∧ (Instr.ideKmKeyProg 0 4 0 (List.replicate 32 0)).wf = false ∧
    (Instr.ideKmKeyProg 0 0 2 (List.replicate 32 0)).wf = false ∧ (Instr.ideKmKeyProg 0 0 0 []).wf = false ∧ (Instr.ideKmKSetGo 0 4 0).wf = false ∧
    (Instr.ideKmKSetGo 0 0 2).wf = false ∧ (Instr.ideKmKSetStop 0 4 0).wf = false ∧ (Instr.ideKmKSetStop 0 0 2).wf = false ∧ (Instr.svnCommit 7).wf = true := by decide

/-- A poison word of 33 bits, a codeword that a page does not have, a symbol of 11 bits, and a doorbell beyond BAR2. -/
theorem test_wf_memory : (Instr.pageCorrection ⟨7, [], 2 ^ 32⟩ 0).wf = false ∧ (Instr.pageUncorrectable ⟨7, [⟨4, 3, 1⟩], 0⟩ 0 0).wf = false ∧
    (Instr.scrubVisit [⟨0, 3, 1024⟩] 0).wf = false ∧ (Instr.registerRead .pf0 (.bar2 0x10000) 4).wf = false ∧
    (Instr.pageCorrection ⟨7, [⟨0, 3, 1⟩], 0⟩ 0).wf = true := by decide

theorem test_wf_engines : (Instr.checkerSelfTestDone 200 true).wf = false ∧ (Instr.solverLockstepMismatch 17).wf = false ∧
    (Instr.hkLockstepMismatch 2 0).wf = false ∧ (Instr.hkSelfTestDone 2 true).wf = false ∧ (Instr.dvmSample []).wf = false ∧
    (Instr.backchannelReply 96 0 [] true).wf = false ∧ (Instr.backchannelReplyTimeout 96).wf = false ∧ (Instr.trainingPingTimer 96).wf = false ∧
    (Instr.trainingPhaseTimeout 96 0).wf = false ∧ (Instr.trainingRetryBackoff 96).wf = false ∧ (Instr.statusPollTimer 96).wf = false ∧
    (Instr.lampReturnFrame 32 []).wf = false ∧ (Instr.lampAnswerTimeout 32).wf = false ∧ (Instr.lampDiscovery 32).wf = false ∧
    (Instr.panelSensorPoll []).wf = false ∧ (Instr.adaptWindowEnd 107 ⟨0, 0, 0, [], 0⟩).wf = false ∧ (Instr.adaptWindowEnd 132 ⟨0, 0, 0, [], 0⟩).wf = false ∧
    (Instr.calMeasurementDone 132 .noReply).wf = false ∧ (Instr.twillClockLossTimeout 12).wf = false := by decide

theorem test_wf_wall : (Instr.ginghamPortBringup 4 .deskew).wf = false ∧ (Instr.ginghamBringupTimeout 4).wf = false ∧ (Instr.ginghamRetryTimer 4).wf = false ∧
    (Instr.ginghamPortDown 4).wf = false ∧ (Instr.hello 4 0 ⟨0, 0, 0, 0, 0, 0, true, 0⟩).wf = false ∧ (Instr.hello 0 64 ⟨0, 0, 0, 0, 0, 0, true, 0⟩).wf = false ∧
    (Instr.latProbe 4 0).wf = false ∧ (Instr.latEcho 4 0 0).wf = false ∧ (Instr.tickMarker 4).wf = false ∧ (Instr.digest 0 64 0 0 0).wf = false ∧
    (Instr.ginghamArm 0 0 256 0 0 0 0 []).wf = false ∧ (Instr.armAck 4 0 0 0 0 0).wf = false ∧ (Instr.armCommit 0 64 0 0).wf = false ∧
    (Instr.armAbort 0 0 256 0).wf = false ∧ (Instr.haloTarget 0 0 0 []).wf = false ∧ (Instr.haloLevel 2 0 0 []).wf = false ∧ (Instr.measReq 0 []).wf = false ∧
    (Instr.meas 4 (List.replicate 32 0) 0 [] []).wf = false ∧ (Instr.ginghamWake 4).wf = false ∧ (Instr.tickMarker 3).wf = true := by decide

/-! ## Worked examples of the spec -/

/-- Table 6.13: unpacked codes of the two layers. -/
theorem test_unpack : code14 10 600 = 9609 ∧ code14 10 512 = 8200 ∧ code14 10 300 = 4804 ∧ code14 8 0xFF = 16383 ∧
    code14 8 0x40 = 4112 ∧ code14 8 0x80 = 8224 := by decide +kernel

/-- Table 6.13: the overlay over the base. -/
theorem test_blend : blendLayer { blend := 1 } { r := 16383, g := 4112, b := 0, a := 8224 } { r := 9609, g := 8200, b := 4804, a := 0 } =
    { r := 13009, g := 6148, b := 2392, a := 0 } := by decide +kernel

/-- R133, Table 6.14: the red code at (1237, 402) by phase. -/
theorem test_dither : (List.range 4).map (fun p => dither up.conf 10 p 1237 402 0 10003) = [625, 626, 625, 625] := by decide +kernel

/-- Table 7.4: the percentile target. -/
theorem test_target : targetOf (field GZ_TARGET_PCT 62259 up).conf [200, 100, 150, 200, 180, 150, 60, 40] = 28945 := by decide +kernel

/-- Table 7.5: two iterations on a grid of 3 columns and 1 row. -/
theorem test_window_solve : jacobiN (field GZ_GRID_COLS 3 (field GZ_GRID_ROWS 1 (field GZ_SOLVER_RADIUS 1 (field GZ_SOLVER_GAIN 32768 (
    table 0x0502 222 (toLE 2 9830 ++ toLE 2 32768 ++ toLE 2 9830) up))))) 0 0 [[40000, 8000, 8000]] 2 [[40000, 8000, 8000]] =
    [[65535, 8000, 12200]] := by decide +kernel

/-- Table 7.6: filter, aging limit and cap. -/
theorem test_filter_and_cap : (let c := (field GZ_FILTER_A_UP 32768 (field GZ_FILTER_A_DOWN 8192 up)).conf
    temporal c 60000 65535 = 65535 ∧ temporal c 9000 8000 = 8750 ∧ temporal c 12000 12200 = 12200 ∧
      filtered c { committed := 60000, gain := 40960 } 65535 = 52428) ∧
    capScale 75000 0 (driveOf 52428 40960 + 8750 + 12200) 0 = 28416 ∧ (52428 * 28416 + 16384) / 32768 = 45465 ∧ driveOf 45465 40960 = 56831 := by
  decide +kernel

/-- Chapter 7's example: a pixel of linear red 3000 where the backlight is 23,871. -/
theorem test_compensation : (compensate 23871 0 3000).1 = 8236 := by decide +kernel

/-- R193: the body 0x61 0x07 0x80 0x9C gives +1, eight zeros and −100. -/
theorem test_residuals : (residuals 10 [0x61, 0x07, 0x80, 0x9C]).map (fun l => l.map (fun r => r % 256)) = some [1, 0, 0, 0, 0, 0, 0, 0, 0, 156] := by
  decide +kernel

/-- Chapter 9's example, step 9: the corrected value 8231. -/
theorem test_correction : correct (field (DMK_KNOTA_K1 0) 2048 (field (DMK_KNOTA_K2 0) 6144 (field (DMK_KNOTB_K3 0) 12288 (field (DMK_SCALE_S1 0) 32 (
    field (DMK_SCALE_S2 0) 24 (field (DMK_SCALE_S3 0) 16 up)))))).conf (fun m => if m = 1 then -20 else if m = 2 then 35 else -12) 0 8200 = 8231 := by
  decide +kernel

/-- Chapter 9's example: λ of P = 6990 µs. -/
theorem test_log_dwell : logDwell 6990 = 3252 := by decide +kernel

/-- Table 10.8: A of band 20 at the LTs around FE 901, and no slip where toggling drives A toward 0. -/
theorem test_dc_balance : (stepAcc { pi := false, mean := 1000, acc := 0 }).acc = 1000 ∧
    (stepAcc { pi := true, mean := 1000, acc := 131143000 }).acc = 131142000 ∧
    (let c := (field TMG_DC_EN 1 (field TMG_DC_LIMIT 2000 (field TMG_VRR_FIXED 0 up))).conf;
      wantsBalance c { pi := false, mean := 1000, acc := 131072000 } = true ∧ wantsBalance c { pi := false, mean := 1000, acc := 131071000 } = false ∧
        slips c { pi := false, mean := 1000, acc := 131143000 } = false) := by decide +kernel

/-- Chapter 11's example: the header of line 1237 of FE 5002, and the check values of R244 and R253. -/
theorem test_packet : toLE 8 (headerWord { line := 1237, fe := 5002, pol := true, inv := 3, lsOffset := 800, pack := 1 } 0 240) =
      [0xD5, 0x84, 0x36, 0x90, 0x01, 0x78, 0x10, 0x00] ∧ dibits 0xD5 = [1, 1, 1, 3] ∧
    crc32 [0x31, 0x32, 0x33, 0x34, 0x35, 0x36, 0x37, 0x38, 0x39] = 0xCBF43926 ∧
    crc16 [0x31, 0x32, 0x33, 0x34, 0x35, 0x36, 0x37, 0x38, 0x39] = 0x29B1 := by decide +kernel

/-- R320's example: byte 16 of a write at 0xC03F0 is the first of its row run. -/
theorem test_linen_wraps : wrapAt 0xC03F0 15 = 0xC03FF ∧ wrapAt 0xC03F0 16 = 0xC0000 := by decide +kernel

/-- Tables 15.3 and its text: both measurements of a lane and their means. -/
theorem test_calibration : twillTargets {} 1 ⟨6000, 24000, 41000, 58500, 3, -2⟩ = some [29, 2, -5, -4] ∧
    twillTargets {} 1 ⟨6100, 24050, 41100, 58400, 2, -1⟩ = some [30, 1, -4, -5] ∧
    (compareRuns 1 [29, 2, -5, -4] [30, 1, -4, -5]).toOption = some [30, 2, -4, -4] := by decide +kernel

/-- Chapter 3's example: BASE 128 and 130 of a 16 GiB window. -/
theorem test_bar4_window : (let s (b : Nat) := liveField HIF_BAR4_BASE_BASE b { up with hif := { up.hif with bar4Log2 := 34 } };
    bar4Addr (s 128) 0x123456000 = 0x923456000 ∧ bar4Addr (s 130) 0x123456000 = 0x923456000) := by decide +kernel

/-- Table 20.10: the entry for CUE_SIGNAL, which is live, is the first bad one. -/
theorem test_stage_list : firstBadEntry [] (listEntries (toLE 4 0x050018 ++ toLE 4 0x4E20 ++ toLE 4 0x0C0008 ++ toLE 4 0x1F4240 ++ toLE 4 0x0C000C ++ toLE 4 1) 3) 0
    = some 2 := by decide +kernel

/-- No row of the table gives bits, so no word spells a command. -/
theorem test_table_word_spells_no_command : decodeTableWord 8 0 = none := rfl

/-- R78: one slot stays empty, so t′ = h − 1 is the last that fits and no doorbell can fill all N slots. -/
theorem test_submission_doorbell_full : tailOk { enable := true, head := 5, tail := 9 } 4 = true ∧
    tailOk { enable := true, head := 5, tail := 4 } 5 = false := by decide +kernel

/-- R294, R295: with two parity symbols a codeword corrects one symbol, and an error located in a virtual symbol is uncorrectable. -/
theorem test_page_code : decode 4 0 [⟨0, 3, 0x155⟩, ⟨3, 100, 1⟩] 0 = .corrected [⟨0, 3, 0x155⟩, ⟨3, 100, 1⟩] ∧
    decode 4 0 [⟨2, 1, 7⟩] 0 = .failed ∧ decode 4 0 [] 0 = .clean := by decide +kernel

/-- R168: the return frame that the characters of a lane spell. -/
theorem test_lamp_characters : frameOf (code10s true (frameChars [0x81, 0x1F, 0xF7])) = some [0x81, 0x1F, 0xF7] := by decide +kernel

/-! ## States of the witnesses below -/

/-- `up` with one authenticated session open. -/
def inSession : State := { up with sec := { up.sec with sessions := [⟨3, true⟩] } }

/-- A byte of page 7 that is not 0, its page written, and a command in the queue. -/
def sound : State := { up with
  mem := { up.mem with bytes := [(4096 * 7, 1)], written := [(7, true)] }
  pending := [.poweredSecond] }

theorem sound_ok : MemSound sound := ⟨by decide +kernel, by decide +kernel, by decide +kernel⟩

/-- A tile at (1, 0) of a wall whose east port is up, with tile 2 known and slot 3 armed over the wall. -/
def walled : State := field GNG_CTRL_EN 1 (field GNG_CTRL_WALL_SLOTS 8 (field GNG_TILE_X 1 { up with
  gng := { ports := mput {} 1 { state := .up } [], heard := [(2, 1)], role := .timekeeper, tk := 1 } }))

/-- A module in BOOT at a given step. -/
def booting (st : BootStage) : State := { State.reset with sys := { stage := st } }

/-- `up` with ring 63 of PF0 enabled and one descriptor to fetch against completion ring 63. -/
def fetching : State := { up with rings := setCq 63 { enable := true } (setSq .pf0 63 { enable := true, cq := 63, tail := 1 } up.rings) }

/-- `up` with page 7 written and coded. -/
def paged : State := field MEM_CTRL_DEFAULT_T 1 { up with mem := { up.mem with written := [(7, true)] } }

/-- `up` with a cue region of 32 pages from page 16 on: buffers lie in pages 32 to 47. -/
def cued : State := field CUE_REGION_BASE_BASE 16 (field CUE_REGION_PAGES_PAGES 32 up)

/-- A cue list of one step that shows nothing: 32 bytes of header with 1 in STEPS, and 160 bytes of step. -/
def listed (b : Bytes) : State := { cued with
  cue := { cued.cue with buffers := [(4095, { page := 32, pages := 1, length := b.length })] }
  mem := { cued.mem with bytes := mputs 0 (4096 * 32) b cued.mem.bytes, written := [(32, true)] } }

/-- R281, R282: a list of one END step to LIVE passes the checks. -/
def endList : Bytes := toLE 32 1 ++ toLE 160 (3 + 2 * 256 ^ 3)

/-- `up` with engine 5 idle as a spare and engines 6 and 7 checking. -/
def spared : State := { up with flt := { up.flt with idle := [5], checkers := [6, 7] } }

/-- A Twill group 11 whose port 95 has logical lanes 0 to 3, and a spare lane for it. -/
def ported : State := field TWL_CTRL_EN 1 (table 0x0B00 (8 * 95) (toLE 4 0 ++ toLE 4 (11 + 3 * 128 + 5 * 512)) (
  field (TWL_GROUP_SPARE_EN 11) 1 (field (TWL_GROUP_SPARE_ADDR 11) 5 up)))

/-- The port that the layout of `ported` gives. -/
def cfg95 : PortCfg := { x0 := 0, ncol := 0, group := 11, lane0 := 0, width := 4, addr := 5, reverse := false }

/-- Port 95 in a given condition. -/
def port95 (p : Port) (s : State) : State := setPort 95 p s

/-- A panel whose steps 0 and 7 assert PEN2 and PEN3, with monitor 11 of step 7 from 100 to 200. -/
def paneled (p : Pnl) : State :=
  field (PNL_SEQ_EN 0) 1 (field (PNL_SEQ_EN 7) 1 (field (PNL_SEQ_PEN 7) 3 (field (PNL_SEQ_TIMEOUT 7) 5 (
  field (PNL_DVM_EN 11) 1 (field (PNL_DVM_STEP 11) 7 (field (PNL_DVM_LO 11) 100 (field (PNL_DVM_HI 11) 200 { up with pnl := p })))))))

/-- Lane 31 enabled, with a driver at position 15 that covers zone 0. -/
def lamped : State := field LMP_CTRL_EN 1 (field LMP_LANES_EN 0x80000000 (table 0x0600 (8 * (16 * 31 + 15)) [0, 0, 0, 0, 1, 1, 1, 0] up))

/-- Nine equal values: the means of one measurement of a receiver lane. -/
def nine (v : Int) : List Int := List.replicate 9 v

/-- Two zone rows of one column over 64 lines; Gauze runs for the frame in progress, with both rows delivered. -/
def gauzed : State := field GZ_CTRL_EN 1 (field TMG_ACTIVE_W 64 (field TMG_ACTIVE_H 64 (field GZ_GRID_COLS 1 (field GZ_GRID_ROWS 2 (
  table 0x0501 0 [0, 0, 32, 0] { up with
    gz := { opened := true, openFe := 5, delivered := [0, 1] }, ing := { up.ing with shown := some { contents := [{}] } } })))))

/-- A pulled layer of 64 lines in bands of 32, in the first frame shown; the engines reach line 32 in slot 40. -/
def pulled : Layer := { bandLines := 32, width := 8, height := 64, pitch0 := 64 }

/-- A frame of the host whose band 1 is in a given condition. -/
def pulling (b : BandStatus) : Frame := { host := true, scans := 1, contents := [{ layers := [pulled] }], bands := [(1, b)] }

/-- `up` with that frame on the panel. -/
def ingesting (b : BandStatus) : State :=
  field TMG_ACTIVE_W 64 (field TMG_ACTIVE_H 64 { up with ing := { up.ing with shown := some (pulling b) } })

/-- Four push slots of two pages; slot 0 is next. -/
def pushing : State := field ING_PUSH_CFG_SLOTS 4 (field ING_PUSH_CFG_SLOT_PAGES 2 { up with ing := { up.ing with pushFe := 4 } })

/-- A push header (Table 5.4) for layer 0, band 0 of the frame in progress, with a payload of 16 bytes. -/
def header : Bytes := toLE 4 0 ++ toLE 4 16 ++ toLE 8 5 ++ toLE 16 0

/-- `walled` with its east port in a given state. -/
def facing (g : GngState) : State := { walled with gng := { walled.gng with ports := [(1, { state := g })] } }

/-- A HELLO of a tile at (x, y). -/
def hi (x y : Nat) : HelloMsg := { x, y, fe := 5, timekeeper := 1, hops := 0, latency := 0, running := true, signature := 0 }


/-- A display of 64 by 128 in LIVE, its panel on, in a frame whose FT is fixed at slot 1000, with Gauze off. -/
def scanned : State := field TMG_ACTIVE_W 64 (field TMG_ACTIVE_H 128 (field TMG_VRR_FIXED 0 (field TMG_VERT_VSYNC 1 (field TMG_VERT_VBP 1 { up with
  tmg := { up.tmg with running := true, fresh := false, blind := false, latched := true, slot := 100, nextFt := some 1000, scanned := BitVec.allOnes 64 }
  pnl := { up.pnl with state := .on }
  ing := { up.ing with shown := some { contents := [{}] } } }))))

/-- `scanned` in the slot in which the engines begin line y. -/
def scanning (y : Nat) : State := { scanned with tmg := { scanned.tmg with slot := engineSlot scanned.conf y } }

/-- `scanned` in the slot before the one that emits line 33. -/
def emitting : State := { scanned with tmg := { scanned.tmg with slot := tVstart scanned.conf + 32 } }

/-- `scanned` in the slot before its FT. -/
def ticking : State := { scanned with tmg := { scanned.tmg with slot := 999 } }

/-- R241, Table 11.1: the layout's entry 95 as a port. -/
theorem test_port_of_the_layout : portCfg ported.conf 95 = some cfg95 := by decide +kernel

/-! ## A witness for every clause of every statement that has hypotheses -/

theorem test_hyps_StepRunsTheFrontCommand :
    (∃ (s : State), s.pending = []) :=
  ⟨up, by decide +kernel⟩

theorem test_hyps_CommandsStayInTheirParts :
    (∃ (i : Instr) (s : State) (t : State), exec i s = .next t) :=
  ⟨.poweredSecond, up, { up with lin := { up.lin with seconds := 1 } }, rfl⟩

theorem test_hyps_StepsKeepMemorySound :
    (∃ (s : State) (t : State), MemSound s ∧ step s = .next t) :=
  ⟨sound, _, sound_ok, rfl⟩

theorem test_hyps_FusesNeverGoBack :
    (∃ (s : State) (t : State), step s = .next t) :=
  ⟨{ up with pending := [.poweredSecond] }, _, rfl⟩

theorem test_hyps_EpochChangesOnlyAtFrameTicks :
    (∃ (i : Instr) (s : State) (t : State), exec i s = .next t ∧ i ≠ .frameTick) :=
  ⟨.poweredSecond, up, { up with lin := { up.lin with seconds := 1 } }, rfl, by decide +kernel⟩

theorem test_hyps_RunningModesTurnOnlyAtFrameTicks :
    (∃ (i : Instr) (s : State) (t : State), exec i s = .next t ∧ i ≠ .frameTick ∧ isRunning s = true ∧ isRunning t = true) :=
  ⟨.poweredSecond, up, { up with lin := { up.lin with seconds := 1 } }, rfl, by decide +kernel⟩

theorem test_hyps_EnablingARingStartsItEmpty :
    (∃ (fn : Fn) (n : Nat) (cfg : Word) (s : State), n < ringCount fn ∧ hostUp s = true ∧ (sqOf s.rings fn n).enable = false ∧
      enableFault s fn n (kindOf (wbits cfg 5 2)) (wbits cfg 7 6) = none) ∧
    (∃ (fn : Fn) (m : Nat) (_ : Word) (s : State), m < ringCount fn ∧ hostUp s = true ∧ (cqAt s.rings (cqKey fn m)).enable =
      false) ∧
    (∃ (fn : Fn) (_ : Word) (s : State), hostUp s = true ∧ (eqOf s.rings fn).enable = false) ∧
    (∃ (fn : Fn) (n : Nat) (p1 : Nat) (cfg : Word) (s : State), n < ringCount fn ∧ hostUp s = true ∧ (sqOf s.rings fn n).enable =
      false ∧ enableFault s fn n (kindOf (wbits cfg 5 2)) (wbits cfg 7 6) = some p1 ∧ canSend s fn = false ∧ (eqOf s.rings
      fn).pend.length < 256) :=
  ⟨⟨.pf0, 63, 0x1FA0#32, { up with rings := { up.rings with cqs := mput {} 63 { enable := true } [] } }, by decide +kernel⟩,
   ⟨.pf1, 7, 0, { up with hif := { up.hif with bme1 := false } }, by decide +kernel⟩,
   ⟨.pf0, 0, up, by decide +kernel⟩,
   ⟨.pf0, 0, 3, 0x60#32, { up with hif := { up.hif with bme0 := false } }, by decide +kernel⟩⟩

theorem test_hyps_DisablingARingKeepsItsWork :
    (∃ (fn : Fn) (n : Nat) (s : State), n < ringCount fn ∧ hostUp s = true ∧ (sqOf s.rings fn n).enable = true ∧ (fn = .pf1 ∨
      (sqOf s.rings fn n).kind ≠ .frame)) ∧
    (∃ (n : Nat) (k : Nat) (s : State), n < 64 ∧ hostUp s = true ∧ (sqOf s.rings .pf0 n).enable = true ∧ (sqOf s.rings .pf0
      n).kind = .frame ∧ (sqOf s.rings .pf0 n).running = none ∧ (∀ c ∈ s.ing.cands, c.sq = n → c.cq = k) ∧ (cqAt s.rings
      k).enable = false) ∧
    (∃ (fn : Fn) (n : Nat) (s : State), n < ringCount fn ∧ hostUp s = true) ∧
    (∃ (fn : Fn) (m : Nat) (s : State), m < ringCount fn ∧ hostUp s = true) ∧
    (∃ (_ : Fn) (s : State), hostUp s = true) :=
  ⟨⟨.pf1, 7, on .pf1 7 (cmd 0x84 []) up, by decide +kernel⟩,
   ⟨63, 63,
     { up with rings := setSq .pf0 63 { enable := true, kind := .frame } up.rings, ing := { up.ing with cands := [{ sq := 63, slot := 0, cq := 63, raw := desc 1 [] }] } },
     by decide +kernel⟩,
   ⟨.pf1, 7, up, by decide +kernel⟩,
   ⟨.pf0, 63, up, by decide +kernel⟩,
   ⟨.pf1, up, by decide +kernel⟩⟩

theorem test_hyps_DoorbellsMoveTheirRing :
    (∃ (fn : Fn) (n : Nat) (v : Word) (s : State), n < ringCount fn ∧ hostUp s = true ∧ (sqOf s.rings fn n).enable = true ∧
      v.toNat < 65536 ∧ tailOk (sqOf s.rings fn n) v.toNat = true) ∧
    (∃ (fn : Fn) (m : Nat) (v : Word) (s : State), m < ringCount fn ∧ hostUp s = true ∧ (cqAt s.rings (cqKey fn m)).enable = true
      ∧ v.toNat < 65536 ∧ headOk (cqAt s.rings (cqKey fn m)).log2 (cqAt s.rings (cqKey fn m)).head (cqAt s.rings (cqKey fn
      m)).tail v.toNat = true) ∧
    (∃ (v : Word) (s : State), hostUp s = true ∧ v.toNat < 65536 ∧ (eqOf s.rings .pf0).enable = true ∧ headOk (eqOf s.rings
      .pf0).log2 (eqOf s.rings .pf0).head (eqOf s.rings .pf0).tail v.toNat = true) ∧
    (∃ (w : HeadRing) (v : Word) (e : Eq) (s : State), hostUp s = true ∧ v.toNat < 65536 ∧ headRingOf s.rings .pf1 w = some e ∧
      e.enable = true ∧ headOk e.log2 e.head e.tail v.toNat = true) ∧
    (∃ (fn : Fn) (n : Nat) (v : Word) (s : State), n < ringCount fn ∧ hostUp s = true ∧ (sqOf s.rings fn n).enable = true ∧
      (65536 ≤ v.toNat ∨ tailOk (sqOf s.rings fn n) v.toNat = false) ∧ canSend s fn = false ∧ (eqOf s.rings fn).pend.length <
      256) :=
  ⟨⟨.pf0, 63, 15#32, { up with rings := { up.rings with sqs := mput {} 63 { enable := true } [] } }, by decide +kernel⟩,
   ⟨.pf1, 7, 3#32, { up with rings := { up.rings with cqs := mput {} 71 { enable := true, tail := 3 } [] } }, by decide +kernel⟩,
   ⟨3#32, { up with rings := { up.rings with eq0 := { enable := true, tail := 3 } } }, by decide +kernel⟩,
   ⟨.event, 3#32, { enable := true, tail := 3 }, { up with rings := { up.rings with eq1 := ({ enable := true, tail := 3 }) } },
     by decide +kernel⟩,
   ⟨.pf0, 63, 16#32,
     { up with rings := { up.rings with sqs := mput {} 63 { enable := true } [] }, hif := { up.hif with bme0 := false } },
     by decide +kernel⟩⟩

theorem test_hyps_SecurityCommandsInService :
    (∃ (sq : Nat) (target : Nat) (n : Nat) (data : Rd) (r : Running) (s : State), busMaster s .pf1 = true ∧ ready s .pf1 sq 0x80
      = some r ∧ fieldAt r.raw 0x18 4 % 4 = target ∧ fieldAt r.raw 0x28 4 = n ∧ data.ok = true ∧ n ≤ data.bytes.length) ∧
    (∃ (sq : Nat) (r : Running) (s : State), ready s .pf1 sq 0x84 = some r ∧ inService s = true) ∧
    (∃ (sq : Nat) (data : Rd) (r : Running) (s : State), busMaster s .pf1 = true ∧ ready s .pf1 sq 0x83 = some r ∧ inService s =
      true ∧ data.ok = true ∧ fieldAt r.raw 0x28 4 ≤ data.bytes.length) ∧
    (∃ (sq : Nat) (r : Running) (s : State), ready s .pf1 sq 0x84 = some r ∧ inService s = false) ∧
    (∃ (sq : Nat) (_ : Rd) (r : Running) (s : State), busMaster s .pf1 = true ∧ ready s .pf1 sq 0x83 = some r ∧ inService s =
      false) :=
  ⟨⟨7, 2, 256, got 256, cmd 0x80 [(0x18, 4, 2), (0x28, 4, 256)], on .pf1 7 (cmd 0x80 [(0x18, 4, 2), (0x28, 4, 256)]) up,
     by decide +kernel⟩,
   ⟨0, cmd 0x84 [], on .pf1 0 (cmd 0x84 []) up, by decide +kernel⟩,
   ⟨0, got 64, cmd 0x83 [(0x28, 4, 64)], on .pf1 0 (cmd 0x83 [(0x28, 4, 64)]) up, by decide +kernel⟩,
   ⟨0, cmd 0x84 [], on .pf1 0 (cmd 0x84 []) { up with sec := {} }, by decide +kernel⟩,
   ⟨0, got 64, cmd 0x83 [(0x28, 4, 64)], on .pf1 0 (cmd 0x83 [(0x28, 4, 64)]) { up with sec := {} }, by decide +kernel⟩⟩

theorem test_hyps_DebugTokensComeAndGo :
    (∃ (sq : Nat) (data : Rd) (r : Running) (s : State), busMaster s .pf1 = true ∧ ready s .pf1 sq 0x81 = some r ∧ inService s =
      true ∧ data.ok = true ∧ 128 ≤ data.bytes.length) ∧
    (∃ (sq : Nat) (r : Running) (s : State), ready s .pf1 sq 0x82 = some r) ∧
    (∃ (s : State), s.sec.tokenMinutes ≠ 0) :=
  ⟨⟨0, got 128, cmd 0x81 [], on .pf1 0 (cmd 0x81 []) up, by decide +kernel⟩,
   ⟨0, cmd 0x82 [], on .pf1 0 (cmd 0x82 []) up, by decide +kernel⟩,
   ⟨{ up with sec := { up.sec with tokenMinutes := 1 } }, by decide +kernel⟩⟩

theorem test_hyps_KeySlotsAreWrittenAndErased :
    (∃ (session : Nat) (keyId : Nat) (_ : Byte) (key : Bytes) (s : State), doeServed s = true ∧ sessionOf s session = some
      ⟨session, true⟩ ∧ inService s = true ∧ keyId < 64 ∧ key.length = 32) ∧
    (∃ (session : Nat) (keyId : Nat) (a : Bool) (s : State), doeServed s = true ∧ sessionOf s session = some ⟨session, a⟩ ∧ keyId
      < 64) ∧
    (∃ (sq : Nat) (r : Running) (s : State), ready s .pf1 sq 0x88 = some r) :=
  ⟨⟨3, 63, 1, List.replicate 32 7, inSession, by decide +kernel⟩,
   ⟨3, 63, true, inSession, by decide +kernel⟩,
   ⟨0, cmd 0x88 [(0x18, 4, 0xFF)], on .pf1 0 (cmd 0x88 [(0x18, 4, 0xFF)]) up, by decide +kernel⟩⟩

theorem test_hyps_SessionsAndStreams :
    (∃ (_ : Bool) (s : State), doeServed s = true ∧ s.sec.sessions.length < 4) ∧
    (∃ (session : Nat) (a : Bool) (s : State), doeServed s = true ∧ sessionOf s session = some ⟨session, a⟩) ∧
    (∃ (session : Nat) (stream : Nat) (a : Bool) (key : Bytes) (s : State), doeServed s = true ∧ sessionOf s session = some
      ⟨session, a⟩ ∧ s.hif.flit = true ∧ stream < 4 ∧ key.length = 32) ∧
    (∃ (session : Nat) (stream : Nat) (set : Nat) (a : Bool) (key : Bytes) (s : State), doeServed s = true ∧ sessionOf s session
      = some ⟨session, a⟩ ∧ s.hif.flit = true ∧ stream < 4 ∧ set < 2 ∧ (if set = 0 then (streamOf s stream).key0 else (streamOf s
      stream).key1) = some key) ∧
    (∃ (session : Nat) (stream : Nat) (set : Nat) (a : Bool) (s : State), doeServed s = true ∧ sessionOf s session = some
      ⟨session, a⟩ ∧ stream < 4 ∧ set < 2) :=
  ⟨⟨true, inSession, by decide +kernel⟩,
   ⟨3, true, inSession, by decide +kernel⟩,
   ⟨3, 3, true, List.replicate 32 7, inSession, by decide +kernel⟩,
   ⟨3, 3, 1, true, [1], { inSession with sec := { inSession.sec with streams := mput {} 3 { key1 := some [1] } [] } },
     by decide +kernel⟩,
   ⟨3, 3, 1, true, inSession, by decide +kernel⟩⟩

theorem test_hyps_SecurityReadsAnswer :
    (∃ (index : Nat) (s : State), doeServed s = true ∧ 1 ≤ index ∧ index ≤ 8) ∧
    (∃ (s : State), doeServed s = true) ∧
    (∃ (s : State), doeServed s = true) ∧
    (∃ (session : Nat) (a : Bool) (s : State), doeServed s = true ∧ sessionOf s session = some ⟨session, a⟩) ∧
    (∃ (sq : Nat) (r : Running) (s : State), busMaster s .pf1 = true ∧ ready s .pf1 sq 0x85 = some r ∧ (gngPort s (fieldAt r.raw
      0x18 4)).meas = none) ∧
    (∃ (sq : Nat) (r : Running) (m : Bytes × Byte × List Bytes × Bytes) (s : State), busMaster s .pf1 = true ∧ ready s .pf1 sq
      0x85 = some r ∧ (gngPort s (fieldAt r.raw 0x18 4)).meas = some m) ∧
    (∃ (sq : Nat) (data : Rd) (r : Running) (s : State), busMaster s .pf1 = true ∧ ready s .pf1 sq 0x86 = some r ∧ inService s =
      true ∧ data.ok = true ∧ 97 ≤ data.bytes.length) :=
  ⟨⟨8, up, by decide +kernel⟩,
   ⟨up, by decide +kernel⟩,
   ⟨up, by decide +kernel⟩,
   ⟨3, true, inSession, by decide +kernel⟩,
   ⟨0, cmd 0x85 [(0x18, 4, 3)], on .pf1 0 (cmd 0x85 [(0x18, 4, 3)]) up, by decide +kernel⟩,
   ⟨0, cmd 0x85 [(0x18, 4, 3)], ([], 0, [], []), on .pf1 0 (cmd 0x85 [(0x18, 4, 3)])
     { up with gng := { up.gng with ports := mput {} 3 { meas := some (([], 0, [], [])) } [] } }, by decide +kernel⟩,
   ⟨0, got 97, cmd 0x86 [(0x18, 4, 3)], on .pf1 0 (cmd 0x86 [(0x18, 4, 3)]) up, by decide +kernel⟩⟩

theorem test_hyps_LiveRegistersChangeAtOnce :
    (∃ (_ : Word) (s : State), hostUp s = true) ∧
    (∃ (_ : Word) (s : State), hostUp s = true) ∧
    (∃ (_ : Word) (s : State), hostUp s = true) ∧
    (∃ (_ : Word) (s : State), hostUp s = true) :=
  ⟨⟨1, up, by decide +kernel⟩,
   ⟨1, up, by decide +kernel⟩,
   ⟨1, up, by decide +kernel⟩,
   ⟨1, up, by decide +kernel⟩⟩

theorem test_hyps_AccessesOfTheWrongSizeAreReported :
    (∃ (_ : Fn) (off : Nat) (size : Nat) (_ : Word) (s : State), hostUp s = true ∧ dwordAccess off size = false) ∧
    (∃ (_ : Fn) (off : Nat) (size : Nat) (s : State), hostUp s = true ∧ dwordAccess off size = false) ∧
    (∃ (off : Nat) (size : Nat) (_ : Word) (s : State), hostUp s = true ∧ dwordAccess off size = false ∧ off < 0x8000) ∧
    (∃ (off : Nat) (_ : Nat) (_ : Word) (s : State), hostUp s = true ∧ 0x9020 ≤ off) ∧
    (∃ (_ : Fn) (_ : RegAddr) (_ : Nat) (_ : Word) (_ : Bool) (s : State), s.pwr.fall ≠ .idle) :=
  ⟨⟨.pf0, 2, 4, 1, up, by decide +kernel⟩,
   ⟨.pf1, 4, 8, up, by decide +kernel⟩,
   ⟨0x7FFE, 1, 1, up, by decide +kernel⟩,
   ⟨0x9020, 8, 1, up, by decide +kernel⟩,
   ⟨.pf0, .bar0 0, 4, 0, false, { up with pwr := { up.pwr with fall := .lampsOff } }, by decide +kernel⟩⟩

theorem test_hyps_LockedRwlWritesAreDropped :
    (∃ (off : Nat) (_ : Word) (s : State), hostUp s = true ∧ dwordAccess off 4 = true ∧ off / 0x10000 ≠ 0x02 ∧ off ≠ 0x000008 ∧
      off ≠ 0x15000c ∧ rwlMask off ≠ 0 ∧ liveMask off = 0 ∧ s.sys.lock = true) :=
  ⟨0x070004, 1, { up with sys := { up.sys with lock := true } }, by decide +kernel⟩

theorem test_hyps_RegisterReadsAnswer :
    (∃ (off : Nat) (s : State), hostUp s = true ∧ dwordAccess off 4 = true ∧ off / 0x10000 ≠ 0x02 ∧ off ≠ 0x150014 ∧ (pairs64
      s).find? (fun p => p.1 = off) = none ∧ (pairs64 s).find? (fun p => p.1 + 4 = off) = none) ∧
    (∃ (s : State), hostUp s = true) ∧
    (∃ (s : State), hostUp s = true) ∧
    (∃ (off : Nat) (s : State), hostUp s = true ∧ dwordAccess off 4 = true ∧ off / 0x10000 = 0x02) ∧
    (∃ (off : Nat) (s : State), hostUp s = true ∧ dwordAccess off 4 = true) ∧
    (∃ (off : Nat) (s : State), hostUp s = true ∧ dwordAccess off 4 = true ∧ (off < 0x8000 ∨ 0x9020 ≤ off)) ∧
    (∃ (d : Nat) (s : State), hostUp s = true ∧ d < 8) ∧
    (∃ (_ : Fn) (_ : CfgReg) (_ : Nat) (s : State), hostUp s = true ∧ s.sys.stage ≠ .unpowered ∧ s.sys.stage ≠ .image) ∧
    (∃ (_ : Fn) (_ : CfgReg) (_ : Nat) (_ : Word) (s : State), hostUp s = true ∧ (s.sys.stage = .unpowered ∨ s.sys.stage =
      .image)) :=
  ⟨⟨0x070004, up, by decide +kernel⟩,
   ⟨up, by decide +kernel⟩,
   ⟨up, by decide +kernel⟩,
   ⟨0x020000, up, by decide +kernel⟩,
   ⟨4, up, by decide +kernel⟩,
   ⟨0x9020, up, by decide +kernel⟩,
   ⟨7, up, by decide +kernel⟩,
   ⟨.pf1, .id, 4, up, by decide +kernel⟩,
   ⟨.pf0, .id, 4, 0, { up with sys := { up.sys with stage := .image } }, by decide +kernel⟩⟩

theorem test_hyps_TheSetupIsStagedUntilLock :
    (∃ (off : Nat) (_ : Word) (s : State), hostUp s = true ∧ dwordAccess off 4 = true ∧ off / 0x10000 ≠ 0x02 ∧ off ≠ 0x000008 ∧
      off ≠ 0x15000c ∧ rwlMask off ≠ 0 ∧ liveMask off = 0 ∧ s.sys.lock = false) ∧
    (∃ (v : Word) (s : State), hostUp s = true ∧ wbit v 0 = true ∧ s.sys.lock = false ∧ s.sys.stage ≠ .recovery ∧ validateArm
      (worldOf s) { s.conf with setup := { s.conf.setup with armed := some (s.sys.fe + 2) } } (s.sys.fe + 2) = none) ∧
    (∃ (v : Word) (f : Fail) (s : State), hostUp s = true ∧ wbit v 0 = true ∧ s.sys.lock = false ∧ s.sys.stage ≠ .recovery ∧
      validateArm (worldOf s) { s.conf with setup := { s.conf.setup with armed := some (s.sys.fe + 2) } } (s.sys.fe + 2) = some
      f) ∧
    (∃ (v : Word) (s : State), hostUp s = true ∧ (wbit v 0 = false ∨ s.sys.lock = true ∨ s.sys.stage = .recovery)) ∧
    (∃ (_ : Fn) (_ : Nat) (_ : Nat) (_ : Word) (s : State), hostUp s = true) :=
  ⟨⟨0x070004, 1, up, by decide +kernel⟩,
   ⟨1, up, by decide +kernel⟩,
   ⟨1, _, { up with conf := { up.conf with setup := { regs := [(0x090000, 1)] } } }, by decide +kernel, by decide +kernel,
     by decide +kernel, by decide +kernel, rfl⟩,
   ⟨1, { up with sys := { up.sys with lock := true } }, by decide +kernel⟩,
   ⟨.pf0, 2, 4, 1, up, by decide +kernel⟩⟩

theorem test_hyps_LinenBytesAreReadAndWritten :
    (∃ (sq : Nat) (r : Running) (s : State), busMaster s .pf1 = true ∧ ready s .pf1 sq 0x20 = some r) ∧
    (∃ (sq : Nat) (data : Rd) (r : Running) (s : State), s.pwr.fall = .idle ∧ busMaster s .pf1 = true ∧ ready s .pf1 sq 0x21 =
      some r ∧ fieldAt r.raw 0x28 4 = 0 ∧ firstDenied s (fieldAt r.raw 0x18 4) (fieldAt r.raw 0x1C 4) = none ∧ data.ok = true ∧
      fieldAt r.raw 0x1C 4 ≤ data.bytes.length ∧ fieldAt r.raw 0x1C 4 ≤ 1024) ∧
    (∃ (sq : Nat) (a : Nat) (_ : Rd) (r : Running) (s : State), s.pwr.fall = .idle ∧ busMaster s .pf1 = true ∧ ready s .pf1 sq
      0x21 = some r ∧ firstDenied s (fieldAt r.raw 0x18 4) (fieldAt r.raw 0x1C 4) = some a) :=
  ⟨⟨0, cmd 0x20 [(0x18, 4, 0xFFC00), (0x1C, 4, 1024)], on .pf1 0 (cmd 0x20 [(0x18, 4, 0xFFC00), (0x1C, 4, 1024)]) up,
     by decide +kernel⟩,
   ⟨0, got 1024, cmd 0x21 [(0x18, 4, 0xC0000), (0x1C, 4, 1024)], on .pf1 0 (cmd 0x21 [(0x18, 4, 0xC0000), (0x1C, 4, 1024)]) up,
     by decide +kernel⟩,
   ⟨0, 0xBFFFF, got 1, cmd 0x21 [(0x18, 4, 0xBFFFF), (0x1C, 4, 1)], on .pf1 0 (cmd 0x21 [(0x18, 4, 0xBFFFF), (0x1C, 4, 1)]) up,
     by decide +kernel⟩⟩

theorem test_hyps_BracketsApplyTogether :
    (∃ (sq : Nat) (r : Running) (s : State), ready s .pf1 sq 0x23 = some r ∧ s.lin.brackets.length < 4) ∧
    (∃ (sq : Nat) (data : Rd) (r : Running) (b : Bracket) (s : State), s.pwr.fall = .idle ∧ busMaster s .pf1 = true ∧ ready s
      .pf1 sq 0x21 = some r ∧ fieldAt r.raw 0x28 4 ≠ 0 ∧ firstDenied s (fieldAt r.raw 0x18 4) (fieldAt r.raw 0x1C 4) = none ∧
      s.lin.brackets.find? (fun c => c.id = fieldAt r.raw 0x28 4) = some b ∧ b.writes.length + fieldAt r.raw 0x1C 4 ≤ 256 ∧
      data.ok = true ∧ fieldAt r.raw 0x1C 4 ≤ data.bytes.length) ∧
    (∃ (sq : Nat) (r : Running) (b : Bracket) (s : State), ready s .pf1 sq 0x24 = some r ∧ bit (fieldAt r.raw 0x1C 4) 0 = false ∧
      s.lin.brackets.find? (fun c => c.id = fieldAt r.raw 0x18 4) = some b) ∧
    (∃ (sq : Nat) (r : Running) (b : Bracket) (s : State), ready s .pf1 sq 0x24 = some r ∧ bit (fieldAt r.raw 0x1C 4) 0 = true ∧
      s.lin.brackets.find? (fun c => c.id = fieldAt r.raw 0x18 4) = some b) :=
  ⟨⟨0, cmd 0x23 [], on .pf1 0 (cmd 0x23 []) { up with lin := { brackets := [⟨1, []⟩, ⟨2, []⟩, ⟨3, []⟩] } }, by decide +kernel⟩,
   ⟨0, got 256, cmd 0x21 [(0x18, 4, 0xC0000), (0x1C, 4, 256), (0x28, 4, 2)], ⟨2, []⟩, on .pf1 0 (cmd 0x21 [(0x18, 4, 0xC0000),
     (0x1C, 4, 256), (0x28, 4, 2)]) { up with lin := { brackets := [⟨1, []⟩, (⟨2, []⟩)] } }, by decide +kernel⟩,
   ⟨0, cmd 0x24 [(0x18, 4, 2)], ⟨2, [(0xC0000, 1)]⟩, on .pf1 0 (cmd 0x24 [(0x18, 4, 2)])
     { up with lin := { brackets := [⟨1, []⟩, (⟨2, [(0xC0000, 1)]⟩)] } }, by decide +kernel⟩,
   ⟨0, cmd 0x24 [(0x18, 4, 2), (0x1C, 4, 1)], ⟨2, [(0xC0000, 1)]⟩, on .pf1 0 (cmd 0x24 [(0x18, 4, 2), (0x1C, 4, 1)])
     { up with lin := { brackets := [⟨1, []⟩, (⟨2, [(0xC0000, 1)]⟩)] } }, by decide +kernel⟩⟩

theorem test_hyps_StoresBeginAndFreeze :
    (∃ (sq : Nat) (r : Running) (s : State), ready s .pf1 sq 0x22 = some r ∧ sq < 8 ∧ s.lin.recent = false ∧ s.lin.store = none) ∧
    (∃ (sq : Nat) (r : Running) (s : State), ready s .pf1 sq 0x22 = some r ∧ s.lin.recent = true ∧ s.lin.store = none) ∧
    (∃ (sq : Nat) (r : Running) (st : Store) (s : State), ready s .pf1 sq 0x22 = some r ∧ sq < 8 ∧ s.lin.store = some st ∧
      st.image = none) ∧
    (∃ (sq : Nat) (r : Running) (st : Store) (image : SMap Byte) (s : State), ready s .pf1 sq 0x22 = some r ∧ s.lin.store = some
      st ∧ st.image = some image) ∧
    (∃ (s : State), s.lin.delayed ≠ [] ∧ s.lin.store = none ∧ s.pwr.fall = .idle ∧ s.sys.mode ≠ .dormant) ∧
    (∃ (s : State), fbit s.conf LIN_CTRL_AUTO_EN = true ∧ isRunning s = true ∧ s.pwr.fall = .idle ∧ s.lin.store = none) ∧
    (∃ (st : Store) (s : State), s.lin.store = some st ∧ st.image = none) ∧
    (∃ (w0 : List Nat) (w1 : List Nat) (c : CommitCell) (s : State), commitWord s.lin = some c ∧ (if c.bank = 0 then w0 else w1)
      ≠ [] ∧ s.lin.store = none ∧ linenLives s = true) :=
  ⟨⟨7, cmd 0x22 [], on .pf1 7 (cmd 0x22 []) up, by decide +kernel⟩,
   ⟨7, cmd 0x22 [], on .pf1 7 (cmd 0x22 []) { up with lin := { recent := true } }, by decide +kernel⟩,
   ⟨7, cmd 0x22 [], { bank := 1 }, on .pf1 7 (cmd 0x22 []) { up with lin := { store := some ({ bank := 1 }) } },
     by decide +kernel⟩,
   ⟨7, cmd 0x22 [], { image := some [], bank := 1 }, [], on .pf1 7 (cmd 0x22 [])
     { up with lin := { store := some ({ image := some [], bank := 1 }) } }, by decide +kernel⟩,
   ⟨{ up with lin := { delayed := [7] } }, by decide +kernel⟩,
   ⟨field LIN_CTRL_AUTO_EN 1 up, by decide +kernel⟩,
   ⟨{ bank := 1 }, { up with lin := { store := some ({ bank := 1 }) } }, by decide +kernel⟩,
   ⟨[5], [], ⟨0, 1⟩, { up with lin := { cell0 := some ⟨0, 1⟩ } }, by decide +kernel⟩⟩

theorem test_hyps_StoresCommitWhole :
    (∃ (_ : Nat) (bank : Nat) (image : SMap Byte) (serves : List Nat) (s : State), s.lin.store = some
      { image := some image, bank, serves } ∧ bank < 2 ∧ s.lin.queued = none ∧ s.sys.transit = none ∧ (∀ a b, s.lin.cell0 = some
      a → s.lin.cell1 = some b → newer a.seqNo b.seqNo = true ∨ newer b.seqNo a.seqNo = true ∨ a.seqNo = b.seqNo)) ∧
    (∃ (_ : Nat) (bank : Nat) (_ : Nat) (image : SMap Byte) (serves : List Nat) (s : State), s.lin.store = some
      { image := some image, bank, serves } ∧ bank < 2 ∧ s.lin.queued = none ∧ s.sys.transit = none) :=
  ⟨⟨1, 0, [], [7],
     { up with lin := { cell0 := some ⟨0, 0xFFFFFFFF⟩, cell1 := some ⟨1, 0⟩, store := some { image := some [], bank := 0, serves := [7] } } },
     by decide +kernel, by decide +kernel, by decide +kernel, by decide +kernel,
     (fun a b ha hb => by cases ha; cases hb; decide +kernel)⟩,
   ⟨1, 1, 3, [], [7], { up with lin := { store := some { image := some [], bank := 1, serves := [7] } } }, by decide +kernel⟩⟩

theorem test_hyps_StagingChangesOneSet :
    (∃ (sq : Nat) (data : Rd) (r : Running) (d : Bytes) (s : State), ready s .pf0 sq 0x10 = some r ∧ (busMaster s .pf0 = true ∨
      fieldAt r.raw 0x34 4 = 1) ∧ (s.sys.lock = true → (slotOf s.conf (bits (fieldAt r.raw 0x18 4) 16 2)).armed = none) ∧
      tableData s r.raw data = .ok d ∧ crc32c d = fieldAt r.raw 0x30 4) ∧
    (∃ (sq : Nat) (data : Rd) (r : Running) (d : Bytes) (s : State), ready s .pf0 sq 0x10 = some r ∧ (busMaster s .pf0 = true ∨
      fieldAt r.raw 0x34 4 = 1) ∧ (s.sys.lock = true → (slotOf s.conf (bits (fieldAt r.raw 0x18 4) 16 2)).armed = none) ∧
      tableData s r.raw data = .ok d ∧ crc32c d ≠ fieldAt r.raw 0x30 4) ∧
    (∃ (sq : Nat) (data : Rd) (r : Running) (base : Slot) (s : State), busMaster s .pf0 = true ∧ ready s .pf0 sq 0x11 = some r ∧
      (slotOf s.conf (fieldAt r.raw 0x18 4 % 4)).armed = none ∧ data.ok = true ∧ 8 * fieldAt r.raw 0x28 4 ≤ data.bytes.length ∧
      base = (if bit (fieldAt r.raw 0x18 4) 8 then {} else slotOf s.conf (fieldAt r.raw 0x18 4 % 4)) ∧ firstBadEntry base.regs
      (listEntries data.bytes (fieldAt r.raw 0x28 4)) 0 = none) :=
  ⟨⟨0, got 4, cmd 0x10 [(0x18, 4, 0x30600), (0x28, 4, 4), (0x30, 4, crc32c (got 4).bytes)], (got 4).bytes, on .pf0 0 (cmd 0x10
     [(0x18, 4, 0x30600), (0x28, 4, 4), (0x30, 4, crc32c (got 4).bytes)]) { up with sys := { up.sys with lock := true } },
     by decide +kernel, by decide +kernel, by decide +kernel, rfl, by decide +kernel⟩,
   ⟨0, got 4, cmd 0x10 [(0x18, 4, 0x0600), (0x28, 4, 4)], (got 4).bytes, on .pf0 0 (cmd 0x10 [(0x18, 4, 0x0600), (0x28, 4, 4)])
     up, by decide +kernel, by decide +kernel, by decide +kernel, rfl, by decide +kernel⟩,
   ⟨0, { ok := true, bytes := toLE 4 0x070004 ++ toLE 4 1 }, cmd 0x11 [(0x18, 4, 3), (0x28, 4, 1)], {}, on .pf0 0 (cmd 0x11
     [(0x18, 4, 3), (0x28, 4, 1)]) up, by decide +kernel⟩⟩

theorem test_hyps_ArmsAndCancels :
    (∃ (sq : Nat) (n : Nat) (mask : List Nat) (r : Running) (s : State), ready s .pf0 sq 0x12 = some r ∧ mask = bitList (fieldAt
      r.raw 0x18 4 % 16) 4 ∧ bit (fieldAt r.raw 0x18 4) 8 = false ∧ (fbit s.conf GNG_CTRL_EN = false ∨ ∀ i ∈ mask, i ∉ wallSlots
      s.conf) ∧ (∀ a ∈ s.gng.arms, a.ring = none) ∧ armFe s.sys.fe (fieldAt r.raw 0x20 8) 2 = some n ∧ (∀ i ∈ mask, (slotOf
      s.conf i).armed = none) ∧ validateArm (worldOf s) (armSlots mask (some n) s.conf) n = none) ∧
    (∃ (sq : Nat) (r : Running) (s : State), ready s .pf0 sq 0x12 = some r ∧ bit (fieldAt r.raw 0x18 4) 8 = false ∧ (fbit s.conf
      GNG_CTRL_EN = false ∨ ∀ i ∈ bitList (fieldAt r.raw 0x18 4 % 16) 4, i ∉ wallSlots s.conf) ∧ (∀ a ∈ s.gng.arms, a.ring =
      none) ∧ fieldAt r.raw 0x20 8 ≠ 0 ∧ fieldAt r.raw 0x20 8 < s.sys.fe + 2) ∧
    (∃ (sq : Nat) (mask : List Nat) (r : Running) (s : State), ready s .pf0 sq 0x12 = some r ∧ bit (fieldAt r.raw 0x18 4) 8 =
      true ∧ mask = (bitList (fieldAt r.raw 0x18 4 % 16) 4).filter (fun i => (slotOf s.conf i).armed.isSome) ∧ s.gng.arms = [] ∧
      (∀ i ∈ mask, ∀ n, (slotOf s.conf i).armed = some n → s.sys.fe + 2 ≤ n) ∧ validateRest (worldOf s) (armSlots mask none
      s.conf) = none) ∧
    (∃ (s : State), ownFrameTick s = true ∧ s.gng.arms = []) :=
  ⟨⟨0, 7, [0, 3], cmd 0x12 [(0x18, 4, 0b1001)], on .pf0 0 (cmd 0x12 [(0x18, 4, 0b1001)]) up, by decide +kernel⟩,
   ⟨0, cmd 0x12 [(0x18, 4, 1), (0x20, 8, 6)], on .pf0 0 (cmd 0x12 [(0x18, 4, 1), (0x20, 8, 6)]) up, by decide +kernel⟩,
   ⟨0, [3], cmd 0x12 [(0x18, 4, 0x10F)], on .pf0 0 (cmd 0x12 [(0x18, 4, 0x10F)])
     { up with conf := setSlot 3 { armed := some 7 } up.conf }, by decide +kernel, by decide +kernel, by decide +kernel,
     by decide +kernel, (fun i hi n hn => by cases hi with | head => cases hn; decide +kernel | tail _ h => cases h),
     by decide +kernel⟩,
   ⟨{ up with tmg := { up.tmg with running := true, slot := 999, nextFt := some 1000 } }, by decide +kernel⟩⟩

theorem test_hyps_WallArmsExchange :
    (∃ (sq : Nat) (n : Nat) (mask : List Nat) (r : Running) (s : State), ready s .pf0 sq 0x12 = some r ∧ mask = bitList (fieldAt
      r.raw 0x18 4 % 16) 4 ∧ mask ≠ [] ∧ bit (fieldAt r.raw 0x18 4) 8 = false ∧ fbit s.conf GNG_CTRL_EN = true ∧ (∀ i ∈ mask, i ∈
      wallSlots s.conf) ∧ s.gng.arms = [] ∧ (∃ k ∈ partTiles s, k ≠ tileIndex s.conf) ∧ armFe s.sys.fe (fieldAt r.raw 0x20 8) 4 =
      some n ∧ (∀ i ∈ mask, (slotOf s.conf i).armed = none) ∧ validateArm (worldOf s) (armSlots mask (some n) s.conf) n = none) ∧
    (∃ (port : Nat) (src : Nat) (_ : Nat) (_ : Nat) (kind : Nat) (slots : Nat) (fe : Nat) (cls : Nat) (body : Bytes) (conf :
      Conf) (s : State), port ∈ upPorts s ∧ src ≠ tileIndex s.conf ∧ mget 0 s.gng.seqs (256 * 5 + src) = 0 ∧ judgeArm s kind
      slots fe body = (SUCCESS, cls, conf)) ∧
    (∃ (port : Nat) (src : Nat) (_ : Nat) (id : Nat) (cls : Nat) (sq : Nat) (a : WallArm) (r : Running) (s : State), port ∈
      upPorts s ∧ src ≠ tileIndex s.conf ∧ mget 0 s.gng.seqs (256 * 6 + src) = 0 ∧ s.gng.arms = [a] ∧ a.id = id ∧ a.kind = 0 ∧
      a.ring = some sq ∧ waitingOn s .pf0 sq 0x12 = some r ∧ a.acks = [(tileIndex s.conf, SUCCESS, cls)] ∧ (∀ k ∈ partTiles s, k
      = src ∨ k = tileIndex s.conf)) ∧
    (∃ (port : Nat) (src : Nat) (_ : Nat) (id : Nat) (a : WallArm) (s : State), port ∈ upPorts s ∧ src ≠ tileIndex s.conf ∧ mget
      0 s.gng.seqs (256 * 7 + src) = 0 ∧ armWith s id = some a ∧ a.kind = 0) ∧
    (∃ (port : Nat) (src : Nat) (_ : Nat) (id : Nat) (a : WallArm) (s : State), port ∈ upPorts s ∧ src ≠ tileIndex s.conf ∧ mget
      0 s.gng.seqs (256 * 8 + src) = 0 ∧ a ∈ s.gng.arms ∧ a.id = id ∧ (∀ b ∈ s.gng.arms, b.id = id → b = a) ∧ a.kind = 0 ∧ a.ring
      = none) :=
  ⟨⟨0, 9, [3], cmd 0x12 [(0x18, 4, 8)], on .pf0 0 (cmd 0x12 [(0x18, 4, 8)]) walled, by decide +kernel⟩,
   ⟨1, 2, 0, 0, 0, 8, 9, (judgeArm walled 0 8 9 []).2.1, [], (judgeArm walled 0 8 9 []).2.2, walled, by decide +kernel⟩,
   ⟨1, 2, 0, 0, 0, 0, { id := 0, kind := 0, slots := 8, fe := 9, ring := some 0, acks := [(1, SUCCESS, 0)] },
     { cmd 0x12 [(0x18, 4, 8)] with waiting := true }, on .pf0 0 ({ cmd 0x12 [(0x18, 4, 8)] with waiting := true })
     { walled with gng := { walled.gng with arms := [({ id := 0, kind := 0, slots := 8, fe := 9, ring := some 0, acks := [(1, SUCCESS, 0)] })] } },
     by decide +kernel⟩,
   ⟨1, 2, 0, 0, { id := (0), kind := 0, slots := 8, fe := 9 },
     { walled with gng := { walled.gng with arms := [({ id := (0), kind := 0, slots := 8, fe := 9 })] } }, by decide +kernel⟩,
   ⟨1, 2, 0, 0, { id := (0), kind := 0, slots := 8, fe := 9 },
     { walled with gng := { walled.gng with arms := [({ id := (0), kind := 0, slots := 8, fe := 9 })] } }, by decide +kernel⟩⟩

theorem test_hyps_BootGoesStepByStep :
    (∃ (_ : Nat) (s : State), s.sys.mode = .boot ∧ s.sys.stage = .unpowered ∧ s.pwr.fall = .idle ∧ s.pwr.inputOn = true) ∧
    (∃ (s : State), s.sys.mode = .boot ∧ s.sys.stage = .image ∧ s.pwr.fall = .idle ∧ s.sys.transit = none ∧ s.sys.bootHeld =
      false ∧ s.thm.junction < 1600) ∧
    (∃ (_ : Bool) (s : State), s.sys.mode = .boot ∧ s.sys.stage = .training ∧ s.pwr.fall = .idle ∧ s.sys.transit = none ∧
      s.sys.bootHeld = false) ∧
    (∃ (s : State), s.sys.mode = .boot ∧ s.sys.stage = .loaded ∧ s.pwr.fall = .idle ∧ s.sys.transit = none ∧ s.sys.bootHeld =
      false ∧ s.cue.powerOn = none ∧ fbit s.conf GNG_CTRL_EN = false) ∧
    (∃ (s : State), s.sys.mode = .boot ∧ s.sys.stage = .loaded ∧ s.pwr.fall = .idle ∧ s.sys.transit = none ∧ s.sys.bootHeld =
      false ∧ s.cue.powerOn = none ∧ fbit s.conf GNG_CTRL_EN = true) ∧
    (∃ (s : State), s.sys.mode = .boot ∧ s.sys.stage = .loaded ∧ s.pwr.fall = .idle ∧ s.sys.transit = none ∧ s.sys.bootHeld =
      false ∧ s.cue.powerOn.isSome = true ∧ s.pnl.state = .on ∧ fbit s.conf GNG_CTRL_EN = false) ∧
    (∃ (_ : Nat) (p : Profile) (s : State), profileUsed s = some p ∧ s.dmk.loading = true ∧ firmwareRuns s = true ∧ (∀ k,
      isPoisoned s k = false)) ∧
    (∃ (_ : Bool) (s : State), s.sys.mode = .boot ∧ s.pwr.fall = .idle ∧ s.sys.transit = none ∧ s.sys.bootHeld = true) ∧
    (∃ (_ : Bool) (s : State), s.sys.bootHeld = false ∧ s.thm.junction < 1600) ∧
    (∃ (_ : Nat) (s : State), s.dmk.loading = false) :=
  ⟨⟨1000, State.reset, by decide +kernel⟩,
   ⟨booting .image, by decide +kernel⟩,
   ⟨true, booting .training, by decide +kernel⟩,
   ⟨booting .loaded, by decide +kernel⟩,
   ⟨field GNG_CTRL_EN 1 (booting .loaded), by decide +kernel⟩,
   ⟨{ booting .loaded with cue := { powerOn := some 0 }, pnl := { state := .on } }, by decide +kernel⟩,
   ⟨1, {}, { up with dmk := { loading := true }, bst := { up.bst with profile := some {} } }, by decide +kernel,
     by decide +kernel, by decide +kernel, (fun _ => rfl)⟩,
   ⟨true, { booting .image with sys := { (booting .image).sys with bootHeld := true } }, by decide +kernel⟩,
   ⟨true, booting .image, by decide +kernel⟩,
   ⟨1, up, by decide +kernel⟩⟩

theorem test_hyps_BraceAndFall :
    (∃ (_ : Nat) (s : State), isRunning s = true ∧ s.sys.brace = false ∧ s.pwr.fall = .idle) ∧
    (∃ (_ : Nat) (s : State), isRunning s = true ∧ s.sys.brace = true ∧ s.pwr.fall = .idle ∧ s.pwr.inputOn = true) ∧
    (∃ (_ : Nat) (s : State), s.sys.mode ≠ .dormant ∧ (s.sys.mode ≠ .boot ∨ s.sys.stage ≠ .unpowered) ∧ s.pwr.fall = .idle) ∧
    (∃ (s : State), s.pwr.fall = .storing) ∧
    (∃ (s : State), (s.pwr.fall = .storing ∨ s.pwr.fall = .discharge)) ∧
    (∃ (s : State), s.pwr.fall ≠ .idle) :=
  ⟨⟨20000, up, by decide +kernel⟩,
   ⟨10, { up with sys := { up.sys with brace := true } }, by decide +kernel⟩,
   ⟨20000, up, by decide +kernel⟩,
   ⟨{ up with pwr := { up.pwr with fall := .storing } }, by decide +kernel⟩,
   ⟨{ up with pwr := { up.pwr with fall := .discharge } }, by decide +kernel⟩,
   ⟨{ up with pwr := { up.pwr with fall := .lampsOff } }, by decide +kernel⟩⟩

theorem test_hyps_TheSupplyIsWatched :
    (∃ (s : State), isRunning s = true ∧ s.pwr.fall = .idle) ∧
    (∃ (_ : Nat) (s : State), firmwareRuns s = true ∧ s.sys.brace = false) ∧
    (∃ (_ : Nat) (s : State), s.sys.mode = .boot ∧ s.sys.stage ≠ .unpowered ∧ s.pwr.fall = .idle) ∧
    (∃ (s : State), s.sys.mode = .dormant) :=
  ⟨⟨up, by decide +kernel⟩,
   ⟨500, up, by decide +kernel⟩,
   ⟨18000, booting .image, by decide +kernel⟩,
   ⟨inMode .dormant up, by decide +kernel⟩⟩

theorem test_hyps_ModeRequestsAreAnswered :
    (∃ (_ : Bool) (_ : Nat) (raw : Bytes), firstReserved raw (headerFields raw) 0 0x18 = none ∧ opcode raw = 0x13 ∧ firstReserved
      raw (bodyFields 0x13) 0x18 0x40 = none ∧ 5 < fieldAt raw 0x18 4 % 8) ∧
    (∃ (sq : Nat) (r : Running) (s : State), ready s .pf0 sq 0x13 = some r ∧ s.sys.transit = none ∧ s.sys.mode ≠ .boot ∧ modeOf
      (fieldAt r.raw 0x18 4 % 8) = s.sys.mode) ∧
    (∃ (sq : Nat) (r : Running) (s : State), ready s .pf0 sq 0x13 = some r ∧ s.sys.transit = none ∧ s.sys.mode ≠ .boot ∧ modeOf
      (fieldAt r.raw 0x18 4 % 8) ≠ s.sys.mode ∧ mayTurn s.sys.mode (modeOf (fieldAt r.raw 0x18 4 % 8)) = false) ∧
    (∃ (sq : Nat) (r : Running) (s : State), ready s .pf0 sq 0x13 = some r ∧ (s.sys.transit.isSome = true ∨ s.sys.mode = .boot)) ∧
    (∃ (m : Mode) (n : Mode), mayTurn m n = true) :=
  ⟨⟨false, 0, desc 0x13 [(0x18, 4, 6)], by decide +kernel⟩,
   ⟨63, cmd 0x13 [(0x18, 4, 2)], on .pf0 63 (cmd 0x13 [(0x18, 4, 2)]) up, by decide +kernel⟩,
   ⟨63, cmd 0x13 [(0x18, 4, 4)], on .pf0 63 (cmd 0x13 [(0x18, 4, 4)]) up, by decide +kernel⟩,
   ⟨63, cmd 0x13 [(0x18, 4, 3)], on .pf0 63 (cmd 0x13 [(0x18, 4, 3)])
     { booting .training with sys := { (booting .training).sys with serving := true }, hif := up.hif }, by decide +kernel⟩,
   ⟨.live, .hold, by decide +kernel⟩⟩

theorem test_hyps_ModesTurnAsTheTableSays :
    (∃ (sq : Nat) (m : Mode) (r : Running) (s : State), ready s .pf0 sq 0x13 = some r ∧ s.sys.transit = none ∧ s.sys.mode ≠ .boot
      ∧ m = modeOf (fieldAt r.raw 0x18 4 % 8) ∧ m ≠ s.sys.mode ∧ mayTurn s.sys.mode m = true) ∧
    (∃ (w : Transit) (s : State), ownFrameTick s = true ∧ s.sys.transit = some w ∧ w.target ≠ .dormant ∧ (s.sys.mode = .hold →
      w.target = .live → s.ing.coming.any Frame.host = true)) ∧
    (∃ (x : Transit) (s : State), s.sys.transit = some x ∧ x.target = .dormant ∧ x.step = 1 ∧ s.pnl.state = .off ∧ s.pwr.fall =
      .idle) ∧
    (∃ (pin : Nat) (_ : Bool) (s : State), s.sys.mode ≠ .dormant ∧ pin < 8) ∧
    (∃ (pin : Nat) (rising : Bool) (s : State), s.sys.mode = .dormant ∧ pin < 8 ∧ bit (fget s.conf SYS_GPIO_CFG_WAKE_EN) pin =
      true ∧ bit (fget s.conf SYS_GPIO_CFG_DIR) pin = false ∧ bit (fget s.conf SYS_GPIO_CFG_EDGE) pin = rising ∧ s.sys.vinLow =
      false) ∧
    (∃ (_ : Nat) (s : State), s.sys.mode = .dormant ∧ s.sys.vinLow = false) :=
  ⟨⟨0, .hold, cmd 0x13 [(0x18, 4, 0x103)], on .pf0 0 (cmd 0x13 [(0x18, 4, 0x103)]) up, by decide +kernel⟩,
   ⟨{ target := .hold },
     (let s := { up with tmg := { up.tmg with running := true, slot := 999, nextFt := some 1000 } }; { s with sys := { s.sys with transit := some ({ target := .hold }) } } : State),
     by decide +kernel⟩,
   ⟨{ target := .dormant, step := 1 }, { up with sys := { up.sys with transit := some ({ target := .dormant, step := 1 }) } },
     by decide +kernel⟩,
   ⟨7, true, up, by decide +kernel⟩,
   ⟨7, true, field SYS_GPIO_CFG_WAKE_EN 0x80 (field SYS_GPIO_CFG_DIR 0 (field SYS_GPIO_CFG_EDGE 0x80 (inMode .dormant up))),
     by decide +kernel⟩,
   ⟨3, inMode .dormant up, by decide +kernel⟩⟩

theorem test_hyps_HostResetsTakeWhatTheySay :
    (∃ (s : State), s.hif.perst = false) ∧
    (∃ (s : State), hostUp s = true) ∧
    (∃ (s : State), configurable s = true) ∧
    (∃ (s : State), configurable s = true) ∧
    (∃ (s : State), hostUp s = true) ∧
    (∃ (s : State), s.hif.perst = true ∧ s.sys.mode ≠ .dormant) ∧
    (∃ (s : State), s.hif.perst = true ∧ s.sys.mode = .dormant ∧ s.sys.vinLow = false) ∧
    (∃ (_ : Nat) (s : State), isRunning s = true ∧ s.sys.stage ≠ .unpowered ∧ s.pwr.fall = .idle ∧ s.sys.transit = none) :=
  ⟨⟨up, by decide +kernel⟩,
   ⟨up, by decide +kernel⟩,
   ⟨up, by decide +kernel⟩,
   ⟨up, by decide +kernel⟩,
   ⟨up, by decide +kernel⟩,
   ⟨State.reset, by decide +kernel⟩,
   ⟨inMode .dormant { State.reset with sys := { stage := .finished } }, by decide +kernel⟩,
   ⟨2, up, by decide +kernel⟩⟩

theorem test_hyps_LinkStatesFollowTheHost :
    (∃ (speed : Nat) (offer : Nat) (w : Nat) (flit : Bool) (bad : BitVec 16) (s : State), mayTrain s = true ∧ trainedWidth speed
      offer flit bad = some w) ∧
    (∃ (w : L0pChange) (s : State), hostUp s = true ∧ linkWidth w.lanes = true ∧ (w.own = false ∨ s.hif.l0pWidth ≤ min w.lanes
      s.hif.width ∨ mayNarrow s (min w.lanes s.hif.width) = true)) ∧
    (∃ (w : L0pChange) (s : State), hostUp s = true ∧ w.own = true ∧ min w.lanes s.hif.width < s.hif.l0pWidth ∧ mayNarrow s (min
      w.lanes s.hif.width) = false) ∧
    (∃ (s : State), s.hif.power = .l0 ∧ l1Enabled s = true ∧ linkBusy s = false ∧ l1Mode s = true) ∧
    (∃ (s : State), s.hif.power = .l1) ∧
    (∃ (s : State), hostUp s = true) ∧
    (∃ (_ : Bool) (s : State), configurable s = true) ∧
    (∃ (_ : Bool) (s : State), configurable s = true) ∧
    (∃ (i : Instr) (s : State), overLink i = true ∧ s.pwr.fall = .idle ∧ s.hif.power = .l1) ∧
    (∃ (s : State), s.hif.power = .l1) ∧
    (∃ (i : Instr) (s : State), overLink i = true ∧ (s.hif.power = .down ∨ s.hif.power = .l2 ∨ s.pwr.fall ≠ .idle)) :=
  ⟨⟨6, 16, 16, true, 0, { up with hif := { up.hif with power := .down } }, by decide +kernel⟩,
   ⟨⟨true, 8⟩, liveField HIF_LINK_POLICY_L0P_EN 1 (liveField HIF_LINK_POLICY_L0P_MIN 3 up), by decide +kernel⟩,
   ⟨⟨true, 8⟩, liveField HIF_LINK_POLICY_L0P_EN 0 up, by decide +kernel⟩,
   ⟨inMode .hold { up with hif := { up.hif with cfg0 := { up.hif.cfg0 with linkControl := 2 } } }, by decide +kernel⟩,
   ⟨{ up with hif := { up.hif with power := .l1 } }, by decide +kernel⟩,
   ⟨up, by decide +kernel⟩,
   ⟨true, up, by decide +kernel⟩,
   ⟨false, up, by decide +kernel⟩,
   ⟨.registerRead .pf0 (.bar0 0) 4, { up with hif := { up.hif with power := .l1 } }, by decide +kernel⟩,
   ⟨{ up with hif := { up.hif with power := .l1 } }, by decide +kernel⟩,
   ⟨.registerRead .pf0 (.bar0 0) 4, { up with hif := { up.hif with power := .l2 } }, by decide +kernel⟩⟩

theorem test_hyps_ConfigurationSpaceWrites :
    (∃ (s : State), configurable s = true) ∧
    (∃ (s : State), configurable s = true) ∧
    (∃ (s : State), configurable s = true) ∧
    (∃ (fn : Fn) (v : Nat) (s : State), hostUp s = true ∧ v < (match fn with | .pf0 => 256 | .pf1 => 32)) ∧
    (∃ (_ : Fn) (s : State), configurable s = true) ∧
    (∃ (_ : Fn) (s : State), configurable s = true) ∧
    (∃ (fn : Fn) (v : Nat) (s : State), hostUp s = true ∧ canSend s fn = true ∧ v < (match fn with | .pf0 => 256 | .pf1 => 32) ∧
      msixOn s.hif fn = true ∧ (match fn with | .pf0 => s.hif.fmask0 | .pf1 => s.hif.fmask1) = false ∧ mget false s.hif.pba (256
      * fnIdx fn + v) = true) ∧
    (∃ (_ : Fn) (s : State), configurable s = true) ∧
    (∃ (_ : Fn) (_ : Nat) (_ : Word) (s : State), configurable s = true) ∧
    (∃ (n : Nat) (s : State), configurable s = true ∧ 8 ≤ n ∧ n ≤ 17) ∧
    (∃ (lane : Nat) (_ : Bool) (s : State), configurable s = true ∧ lane < 16) ∧
    (∃ (lane : Nat) (_ : List (List Bool)) (_ : List (List Bool)) (s : State), scans s lane = true) ∧
    (∃ (fn : Fn) (m : Nat) (s : State), m < ringCount fn ∧ (cqAt s.rings (cqKey fn m)).hoDue = false) ∧
    (∃ (m : Nat) (s : State), m < 64 ∧ canSend s .pf0 = true ∧ (cqAt s.rings m).hoActive = true ∧ (cqAt s.rings m).hoDue = true ∧
      vectorOpen s.hif .pf0 (cqAt s.rings m).vector = true) :=
  ⟨⟨up, by decide +kernel⟩,
   ⟨up, by decide +kernel⟩,
   ⟨up, by decide +kernel⟩,
   ⟨.pf1, 31, up, by decide +kernel⟩,
   ⟨.pf1, up, by decide +kernel⟩,
   ⟨.pf0, up, by decide +kernel⟩,
   ⟨.pf0, 255, { up with hif := { up.hif with msixOn0 := true, pba := [(255, true)] } }, by decide +kernel⟩,
   ⟨.pf0, up, by decide +kernel⟩,
   ⟨.pf1, 4, 0xFFFFFFFF, up, by decide +kernel⟩,
   ⟨17, up, by decide +kernel⟩,
   ⟨15, true, up, by decide +kernel⟩,
   ⟨23, [[true]], [[false]], liveField HIF_LINK_POLICY_EYE_EN 1 up, by decide +kernel⟩,
   ⟨.pf1, 7, up, by decide +kernel⟩,
   ⟨63,
     { up with hif := { up.hif with msixOn0 := true, unmasked := [(5, true)] }, rings := setCq 63 { vector := 5, hoActive := true, hoDue := true, holdoff := 3 } up.rings },
     by decide +kernel⟩⟩

theorem test_hyps_DescriptorsAreFetchedAndRecordsWritten :
    (∃ (fn : Fn) (n : Nat) (data : Rd) (q : Sq) (s : State), canSend s fn = true ∧ arbiter s fn = some n ∧ q = sqOf s.rings fn n
      ∧ data.ok = true ∧ 64 ≤ data.bytes.length ∧ fetchCheck s fn q.kind (data.bytes.take 64) = none) ∧
    (∃ (fn : Fn) (n : Nat) (data : Rd) (q : Sq) (s : State), canSend s fn = true ∧ arbiter s fn = some n ∧ q = sqOf s.rings fn n
      ∧ (data.ok = false ∨ data.bytes.length < 64)) ∧
    (∃ (fn : Fn) (n : Nat) (st : Nat) (r0 : Nat) (data : Rd) (q : Sq) (s : State), canSend s fn = true ∧ arbiter s fn = some n ∧
      q = sqOf s.rings fn n ∧ data.ok = true ∧ 64 ≤ data.bytes.length ∧ fetchCheck s fn q.kind (data.bytes.take 64) = some (st,
      r0)) ∧
    (∃ (sq : Nat) (r : Running) (s : State), (sqOf s.rings .pf0 sq).running = some r ∧ opcode r.raw = 1 ∧ s.ing.cands.length < 8) ∧
    (∃ (fn : Fn) (m : Nat) (c : Cq) (r : Rec) (x : Sent), m < ringCount fn ∧ c = cqAt x.rings (cqKey fn m) ∧ c.store = [r] ∧
      c.enable = true ∧ cqFull c = false ∧ cqSelects c r = false) ∧
    (∃ (k : Nat) (_ : Nat) (x : Sent), cqFull (cqAt x.rings k) = true) ∧
    (∃ (sq : Nat) (m : Nat) (r : Running) (c : Cq) (s : State), ready s .pf0 sq 0x13 = some r ∧ s.sys.transit = none ∧ s.sys.mode
      ≠ .boot ∧ modeOf (fieldAt r.raw 0x18 4 % 8) = s.sys.mode ∧ canSend s .pf0 = true ∧ m < 64 ∧ r.cq = m ∧ c = cqAt s.rings m ∧
      c.store = [] ∧ c.enable = true ∧ cqFull c = false) ∧
    (∃ (fn : Fn) (_ : Nat) (m : Nat) (_ : Nat) (_ : List Nat) (r : Running) (c : Cq) (s : State), canSend s fn = true ∧ m <
      ringCount fn ∧ r.cq = cqKey fn m ∧ c = cqAt s.rings (cqKey fn m) ∧ c.store = [] ∧ c.enable = true ∧ cqFull c = false) ∧
    (∃ (n : Nat) (s : State), arbiter s .pf0 = some n) ∧
    (∃ (fn : Fn) (n : Nat) (s : State), fetchable s fn n = true ∧ n < ringCount fn) :=
  ⟨⟨.pf0, 63, ⟨desc 0x13 [(0x18, 4, 3)], true, .timeout⟩, sqOf fetching.rings .pf0 63, fetching, by decide +kernel⟩,
   ⟨.pf0, 63, ⟨[], true, .timeout⟩, sqOf fetching.rings .pf0 63, fetching, by decide +kernel⟩,
   ⟨.pf0, 63, BAD_PARAM, 0x18, ⟨desc 0x13 [(0x18, 4, 6)], true, .timeout⟩, sqOf fetching.rings .pf0 63, fetching,
     by decide +kernel⟩,
   ⟨0, cmd 1 [], on .pf0 0 (cmd 1 []) up, by decide +kernel⟩,
   ⟨.pf0, 63, { enable := true, tail := 15, head := 3, store := [{ type := 1, status := 0, sq := 0, slot := 0, tag := 0 }] },
     { type := 1, status := 0, sq := 0, slot := 0, tag := 0 },
     { sentOf up with rings := setCq 63 ({ enable := true, tail := 15, head := 3, store := [{ type := 1, status := 0, sq := 0, slot := 0, tag := 0 }] }) up.rings },
     by decide +kernel⟩,
   ⟨63, 1, { sentOf up with rings := setCq 63 { enable := true, head := 0, tail := 15 } up.rings }, by decide +kernel⟩,
   ⟨63, 0, cmd 0x13 [(0x18, 4, 2)], { base := 0x10000, log2 := 4, tail := 15, head := 3, enable := true }, on .pf0 63 (cmd 0x13
     [(0x18, 4, 2)])
     { up with rings := { up.rings with cqs := mput {} 0 ({ base := 0x10000, log2 := 4, tail := 15, head := 3, enable := true }) [] } },
     by decide +kernel⟩,
   ⟨.pf1, 7, 7, 5, [1, 2], { slot := 3, cq := 71, raw := desc 0x84 [] },
     { base := 0x10000, log2 := 4, tail := 15, head := 3, enable := true },
     { up with rings := { up.rings with cqs := mput {} 71 ({ base := 0x10000, log2 := 4, tail := 15, head := 3, enable := true }) [] } },
     by decide +kernel⟩,
   ⟨2,
     { up with rings := { setSq .pf0 2 { enable := true, kind := .frame, tail := 1 } (setSq .pf0 1 { enable := true, tail := 1 } up.rings) with cqs := mput {} 0 { enable := true } [] } },
     by decide +kernel⟩,
   ⟨.pf0, 1,
     { up with rings := { setSq .pf0 2 { enable := true, kind := .frame, tail := 1 } (setSq .pf0 1 { enable := true, tail := 1 } up.rings) with cqs := mput {} 0 { enable := true } [] } },
     by decide +kernel⟩⟩

theorem test_hyps_EventsAreWrittenHeldOrCounted :
    (∃ (fn : Fn) (_ : Ev) (e : Eq) (s : State), s.pwr.fall = .idle ∧ e = eqOf s.rings fn ∧ eventsFlow s fn = true ∧ eqFull e =
      false) ∧
    (∃ (fn : Fn) (_ : Ev) (e : Eq) (s : State), s.pwr.fall = .idle ∧ e = eqOf s.rings fn ∧ eventsFlow s fn = true ∧ eqFull e =
      true) ∧
    (∃ (fn : Fn) (_ : Ev) (e : Eq) (s : State), s.pwr.fall = .idle ∧ e = eqOf s.rings fn ∧ eventsFlow s fn = false ∧ s.hif.pmeEn
      = false) ∧
    (∃ (_ : Fn) (_ : Ev) (s : State), s.pwr.fall ≠ .idle) :=
  ⟨⟨.pf0, { code := 0x0101, sev := 1, fe := 5 }, { enable := true, tail := 15, head := 1 },
     { up with rings := { up.rings with eq0 := ({ enable := true, tail := 15, head := 1 }) } }, by decide +kernel⟩,
   ⟨.pf0, { code := 0x0101, sev := 1, fe := 5 }, { enable := true, tail := 15, head := 0 },
     { up with rings := { up.rings with eq0 := ({ enable := true, tail := 15, head := 0 }) } }, by decide +kernel⟩,
   ⟨.pf0, { code := 0x0101, sev := 1, fe := 5 }, eqOf up.rings .pf0, up, by decide +kernel⟩,
   ⟨.pf0, { code := 0x0101, sev := 1, fe := 5 }, { up with pwr := { up.pwr with fall := .lampsOff } }, by decide +kernel⟩⟩

theorem test_hyps_CopiesAndFillsMoveTheirBytes :
    (∃ (sq : Nat) (_ : Rd) (r : Running) (s : State), ready s .pf0 sq 0x30 = some r ∧ bit (fieldAt r.raw 0x18 4) 0 = false ∧ bit
      (fieldAt r.raw 0x18 4) 1 = false ∧ fieldAt r.raw 0x30 8 ≠ 0 ∧ rangeBad (fieldAt r.raw 0x20 8) (fieldAt r.raw 0x30 8) =
      false ∧ rangeBad (fieldAt r.raw 0x28 8) (fieldAt r.raw 0x30 8) = false ∧ readHalt s (fieldAt r.raw 0x20 8) (fieldAt r.raw
      0x30 8) = none ∧ writeHalt s (fieldAt r.raw 0x28 8) (fieldAt r.raw 0x30 8) = none ∧ regionUpdate s (fieldAt r.raw 0x28 8)
      (fieldAt r.raw 0x30 8) = none) ∧
    (∃ (sq : Nat) (data : Rd) (r : Running) (s : State), ready s .pf0 sq 0x30 = some r ∧ busMaster s .pf0 = true ∧ bit (fieldAt
      r.raw 0x18 4) 0 = true ∧ bit (fieldAt r.raw 0x18 4) 1 = false ∧ fieldAt r.raw 0x30 8 ≠ 0 ∧ fieldAt r.raw 0x20 8 + fieldAt
      r.raw 0x30 8 ≤ 2 ^ 64 ∧ rangeBad (fieldAt r.raw 0x28 8) (fieldAt r.raw 0x30 8) = false ∧ data.ok = true ∧ fieldAt r.raw
      0x30 8 ≤ data.bytes.length ∧ writeHalt s (fieldAt r.raw 0x28 8) (fieldAt r.raw 0x30 8) = none ∧ regionUpdate s (fieldAt
      r.raw 0x28 8) (fieldAt r.raw 0x30 8) = none) ∧
    (∃ (sq : Nat) (_ : Rd) (r : Running) (s : State), ready s .pf0 sq 0x30 = some r ∧ busMaster s .pf0 = true ∧ bit (fieldAt
      r.raw 0x18 4) 0 = false ∧ bit (fieldAt r.raw 0x18 4) 1 = true ∧ fieldAt r.raw 0x30 8 ≠ 0 ∧ fieldAt r.raw 0x28 8 + fieldAt
      r.raw 0x30 8 ≤ 2 ^ 64 ∧ rangeBad (fieldAt r.raw 0x20 8) (fieldAt r.raw 0x30 8) = false ∧ readHalt s (fieldAt r.raw 0x20 8)
      (fieldAt r.raw 0x30 8) = none) ∧
    (∃ (sq : Nat) (r : Running) (s : State), ready s .pf0 sq 0x31 = some r ∧ fieldAt r.raw 0x28 8 ≠ 0 ∧ rangeBad (fieldAt r.raw
      0x20 8) (fieldAt r.raw 0x28 8) = false ∧ writeHalt s (fieldAt r.raw 0x20 8) (fieldAt r.raw 0x28 8) = none ∧ regionUpdate s
      (fieldAt r.raw 0x20 8) (fieldAt r.raw 0x28 8) = none) ∧
    (∃ (sq : Nat) (r : Running) (ys : List Nat) (bands : BitVec 64) (s : State), ready s .pf0 sq 0x31 = some r ∧ fieldAt r.raw
      0x28 8 ≠ 0 ∧ rangeBad (fieldAt r.raw 0x20 8) (fieldAt r.raw 0x28 8) = false ∧ writeHalt s (fieldAt r.raw 0x20 8) (fieldAt
      r.raw 0x28 8) = none ∧ regionUpdate s (fieldAt r.raw 0x20 8) (fieldAt r.raw 0x28 8) = some (ys, bands) ∧ regionAhead s ys =
      false) ∧
    (∃ (sq : Nat) (_ : Rd) (r : Running) (ys : List Nat) (bands : BitVec 64) (s : State), ready s .pf0 sq 0x30 = some r ∧ bit
      (fieldAt r.raw 0x18 4) 0 = false ∧ bit (fieldAt r.raw 0x18 4) 1 = false ∧ fieldAt r.raw 0x30 8 ≠ 0 ∧ rangeBad (fieldAt
      r.raw 0x20 8) (fieldAt r.raw 0x30 8) = false ∧ rangeBad (fieldAt r.raw 0x28 8) (fieldAt r.raw 0x30 8) = false ∧ readHalt s
      (fieldAt r.raw 0x20 8) (fieldAt r.raw 0x30 8) = none ∧ writeHalt s (fieldAt r.raw 0x28 8) (fieldAt r.raw 0x30 8) = none ∧
      regionUpdate s (fieldAt r.raw 0x28 8) (fieldAt r.raw 0x30 8) = some (ys, bands) ∧ regionAhead s ys = false) ∧
    (∃ (sq : Nat) (r : Running) (ys : List Nat) (bands : BitVec 64) (s : State), ready s .pf0 sq 0x31 = some r ∧ regionUpdate s
      (fieldAt r.raw 0x20 8) (fieldAt r.raw 0x28 8) = some (ys, bands) ∧ regionAhead s ys = true) ∧
    (∃ (sq : Nat) (_ : Rd) (r : Running) (ys : List Nat) (bands : BitVec 64) (s : State), ready s .pf0 sq 0x30 = some r ∧ bit
      (fieldAt r.raw 0x18 4) 0 = false ∧ bit (fieldAt r.raw 0x18 4) 1 = false ∧ regionUpdate s (fieldAt r.raw 0x28 8) (fieldAt
      r.raw 0x30 8) = some (ys, bands) ∧ regionAhead s ys = true) ∧
    (∃ (sq : Nat) (data : Rd) (r : Running) (s : State), ready s .pf0 sq 0x30 = some r ∧ busMaster s .pf0 = true ∧ data.ok = true
      ∧ bit (fieldAt r.raw 0x18 4) 0 = true ∧ bit (fieldAt r.raw 0x18 4) 1 = true) ∧
    (∃ (sq : Nat) (_ : Rd) (r : Running) (s : State), ready s .pf0 sq 0x30 = some r ∧ bit (fieldAt r.raw 0x18 4) 0 = false ∧ bit
      (fieldAt r.raw 0x18 4) 1 = false ∧ fieldAt r.raw 0x30 8 = 0 ∧ regionUpdate s (fieldAt r.raw 0x28 8) (fieldAt r.raw 0x30 8)
      = none) ∧
    (∃ (sq : Nat) (r : Running) (s : State), ready s .pf0 sq 0x31 = some r ∧ fieldAt r.raw 0x28 8 = 0 ∧ regionUpdate s (fieldAt
      r.raw 0x20 8) (fieldAt r.raw 0x28 8) = none) ∧
    (∃ (sq : Nat) (op : Nat) (r : Running) (s : State), waitingOn s .pf0 sq op = some r ∧ (op = 0x30 ∨ op = 0x31) ∧ s.pwr.fall =
      .idle ∧ s.cue.updates.any (fun p => p.1 = sq) = true) :=
  ⟨⟨0, got 0, cmd 0x30 [(0x18, 4, 0), (0x20, 8, 0), (0x28, 8, 0x1ED3FFF000), (0x30, 8, 4096)], on .pf0 0 (cmd 0x30 [(0x18, 4, 0),
     (0x20, 8, 0), (0x28, 8, 0x1ED3FFF000), (0x30, 8, 4096)]) up, by decide +kernel⟩,
   ⟨0, got 8, cmd 0x30 [(0x18, 4, 1), (0x20, 8, 0), (0x28, 8, 0x1ED3FFF000), (0x30, 8, 8)], on .pf0 0 (cmd 0x30 [(0x18, 4, 1),
     (0x20, 8, 0), (0x28, 8, 0x1ED3FFF000), (0x30, 8, 8)]) up, by decide +kernel⟩,
   ⟨0, got 0, cmd 0x30 [(0x18, 4, 2), (0x20, 8, 0), (0x28, 8, 0xFFFFFFFFFFFFFFF8), (0x30, 8, 8)], on .pf0 0 (cmd 0x30 [(0x18, 4,
     2), (0x20, 8, 0), (0x28, 8, 0xFFFFFFFFFFFFFFF8), (0x30, 8, 8)]) up, by decide +kernel⟩,
   ⟨0, cmd 0x31 [(0x20, 8, 0x1ED3FFF000), (0x28, 8, 4096)], on .pf0 0 (cmd 0x31 [(0x20, 8, 0x1ED3FFF000), (0x28, 8, 4096)]) up,
     by decide +kernel⟩,
   ⟨0, cmd 0x31 [(0x20, 8, 0), (0x28, 8, 8)], [0, 1, 2], 7, on .pf0 0 (cmd 0x31 [(0x20, 8, 0), (0x28, 8, 8)]) (field TMG_ACTIVE_W
     64 (field TMG_ACTIVE_H 64 (inMode .hold
     { up with ing := { up.ing with shown := some { contents := [{ layers := [{ source := 2, width := 8, height := 1, pitch0 := 64 }] }] } } }))),
     by decide +kernel⟩,
   ⟨0, got 0, cmd 0x30 [(0x18, 4, 0), (0x20, 8, 4096), (0x28, 8, 0), (0x30, 8, 8)], [0, 1, 2], 7, on .pf0 0 (cmd 0x30 [(0x18, 4,
     0), (0x20, 8, 4096), (0x28, 8, 0), (0x30, 8, 8)]) (field TMG_ACTIVE_W 64 (field TMG_ACTIVE_H 64 (inMode .hold
     { up with ing := { up.ing with shown := some { contents := [{ layers := [{ source := 2, width := 8, height := 1, pitch0 := 64 }] }] } } }))),
     by decide +kernel⟩,
   ⟨0, cmd 0x31 [(0x20, 8, 0), (0x28, 8, 8)], [0, 1, 2], 7, on .pf0 0 (cmd 0x31 [(0x20, 8, 0), (0x28, 8, 8)])
     (let s := field TMG_ACTIVE_W 64 (field TMG_ACTIVE_H 64 (inMode .hold { up with ing := { up.ing with shown := some { contents := [{ layers := [{ source := 2, width := 8, height := 1, pitch0 := 64 }] }] } } })); { s with tmg := { s.tmg with running := true, scanned := 1 } } : State),
     by decide +kernel⟩,
   ⟨0, got 0, cmd 0x30 [(0x18, 4, 0), (0x20, 8, 4096), (0x28, 8, 0), (0x30, 8, 8)], [0, 1, 2], 7, on .pf0 0 (cmd 0x30 [(0x18, 4,
     0), (0x20, 8, 4096), (0x28, 8, 0), (0x30, 8, 8)])
     (let s := field TMG_ACTIVE_W 64 (field TMG_ACTIVE_H 64 (inMode .hold { up with ing := { up.ing with shown := some { contents := [{ layers := [{ source := 2, width := 8, height := 1, pitch0 := 64 }] }] } } })); { s with tmg := { s.tmg with running := true, scanned := 1 } } : State),
     by decide +kernel⟩,
   ⟨0, got 0, cmd 0x30 [(0x18, 4, 3), (0x20, 8, 0), (0x28, 8, 0), (0x30, 8, 8)], on .pf0 0 (cmd 0x30 [(0x18, 4, 3), (0x20, 8, 0),
     (0x28, 8, 0), (0x30, 8, 8)]) up, by decide +kernel⟩,
   ⟨0, got 0, cmd 0x30 [(0x18, 4, 0), (0x20, 8, 0), (0x28, 8, 0), (0x30, 8, 0)], on .pf0 0 (cmd 0x30 [(0x18, 4, 0), (0x20, 8, 0),
     (0x28, 8, 0), (0x30, 8, 0)]) up, by decide +kernel⟩,
   ⟨0, cmd 0x31 [], on .pf0 0 (cmd 0x31 []) up, by decide +kernel⟩,
   ⟨0, 0x31, { cmd 0x31 [] with waiting := true }, on .pf0 0 ({ cmd 0x31 [] with waiting := true })
     { up with cue := { up.cue with updates := [(0, { bands := 1 })] } }, by decide +kernel⟩⟩

theorem test_hyps_PagesAreWatchedPoisonedAndRetired :
    (∃ (p : PageRead) (fix : List SymbolError) (_ : Nat) (s : State), s.pwr.fall = .idle ∧ coded s p.page = true ∧ decodePage s p
      = .corrected fix ∧ s.mem.watch.any (fun e => e.1 = p.page) = false ∧ s.mem.watch.length < 4096) ∧
    (∃ (p : PageRead) (fix : List SymbolError) (_ : Nat) (s : State), s.pwr.fall = .idle ∧ coded s p.page = true ∧ decodePage s p
      = .corrected fix ∧ s.mem.watch.any (fun e => e.1 = p.page) = true ∧ s.mem.hard.contains p.page = false ∧
      s.mem.pending.contains p.page = false) ∧
    (∃ (p : PageRead) (q : Nat) (_ : Nat) (s : State), s.pwr.fall = .idle ∧ coded s p.page = true ∧ decodePage s p = .failed ∧ q
      ≠ 6 ∧ q ≠ 7 ∧ mget false s.mem.reported p.page = false) ∧
    (∃ (p : PageRead) (q : Nat) (_ : Nat) (s : State), s.pwr.fall = .idle ∧ coded s p.page = true ∧ decodePage s p = .failed ∧ q
      ≠ 6 ∧ q ≠ 7 ∧ mget false s.mem.reported p.page = true) ∧
    (∃ (p : PageRead) (owner : Nat) (s : State), s.pwr.fall = .idle ∧ coded s p.page = true ∧ decodePage s p = .failed ∧ owner <
      192) ∧
    (∃ (p : PageRead) (_ : Nat) (s : State), s.pwr.fall = .idle ∧ coded s p.page = true ∧ decodePage s p = .failed ∧ s.flt.hkOk =
      3) ∧
    (∃ (p : Nat) (sp : Nat) (s : State), s.mem.hard.contains p = true ∧ nextSpare s = some sp ∧ fbit s.conf FLT_POLICY_MEM_AUTO =
      true) ∧
    (∃ (p : Nat) (sp : Nat) (s : State), s.mem.hard.contains p = true ∧ nextSpare s = some sp ∧ fbit s.conf FLT_POLICY_MEM_AUTO =
      false) ∧
    (∃ (p : Nat) (s : State), s.mem.hard.contains p = true ∧ nextSpare s = none) :=
  ⟨⟨⟨7, [⟨0, 3, 1⟩], 0⟩, [⟨0, 3, 1⟩], 0, paged, by decide +kernel⟩,
   ⟨⟨7, [⟨0, 3, 1⟩], 0⟩, [⟨0, 3, 1⟩], 0, { paged with mem := { paged.mem with watch := [(7, 0)] } }, by decide +kernel⟩,
   ⟨⟨7, [], 65535⟩, 0, 191, paged, by decide +kernel⟩,
   ⟨⟨7, [], 65535⟩, 0, 191, { paged with mem := { paged.mem with reported := [(7, true)] } }, by decide +kernel⟩,
   ⟨⟨7, [], 65535⟩, 191, paged, by decide +kernel⟩,
   ⟨⟨7, [], 65535⟩, 0, paged, by decide +kernel⟩,
   ⟨7, 0x1ED8000, field FLT_POLICY_MEM_AUTO 1 { paged with mem := { paged.mem with hard := [7] } }, by decide +kernel⟩,
   ⟨7, 0x1ED8000, field FLT_POLICY_MEM_AUTO 0 { paged with mem := { paged.mem with hard := [7] } }, by decide +kernel⟩,
   ⟨7,
     { paged with mem := { paged.mem with hard := [7] }, bst := { paged.bst with retireLog := List.replicate 0x28000 (9, 0) } },
     by decide +kernel, by simp only [nextSpare, List.length_replicate]; decide +kernel⟩⟩

theorem test_hyps_TheScrubberAndSramRepair :
    (∃ (_ : List SymbolError) (_ : Nat) (s : State), fbit s.conf MEM_CTRL_SCRUB_EN = true ∧ s.sys.brace = false ∧ s.sys.mode ≠
      .dormant ∧ s.pwr.fall = .idle ∧ scrubbed s = none ∧ s.mem.scrubPage + 1 < 0x1F00000) ∧
    (∃ (_ : List SymbolError) (_ : Nat) (s : State), fbit s.conf MEM_CTRL_SCRUB_EN = true ∧ s.sys.brace = false ∧ s.sys.mode ≠
      .dormant ∧ s.pwr.fall = .idle ∧ scrubbed s = none ∧ 0x1F00000 ≤ s.mem.scrubPage + 1) ∧
    (∃ (_ : List SymbolError) (_ : Nat) (s : State), (fbit s.conf MEM_CTRL_SCRUB_EN = false ∨ s.sys.brace = true ∨ s.pwr.fall ≠
      .idle)) ∧
    (∃ (e : List SymbolError) (fix : List SymbolError) (flips : Nat) (p : Nat) (s : State), fbit s.conf MEM_CTRL_SCRUB_EN = true
      ∧ s.sys.brace = false ∧ s.sys.mode ≠ .dormant ∧ s.pwr.fall = .idle ∧ s.mem.scrubPage + 1 < 0x1F00000 ∧ scrubbed s = some p
      ∧ decodePage s ⟨p, e, flips⟩ = .corrected fix ∧ s.mem.watch.any (fun w => w.1 = p) = false ∧ s.mem.watch.length < 4096) ∧
    (∃ (e : List SymbolError) (flips : Nat) (p : Nat) (s : State), fbit s.conf MEM_CTRL_SCRUB_EN = true ∧ s.sys.brace = false ∧
      s.sys.mode ≠ .dormant ∧ s.pwr.fall = .idle ∧ s.mem.scrubPage + 1 < 0x1F00000 ∧ scrubbed s = some p ∧ decodePage s ⟨p, e,
      flips⟩ = .failed ∧ mget false s.mem.reported p = false) ∧
    (∃ (m : Nat) (row : Nat) (_ : Nat) (s : State), (mget 0 s.mem.sramFirst (sramRow m row) = 0 ∨ 86400 < s.lin.seconds + 1 -
      mget 0 s.mem.sramFirst (sramRow m row))) ∧
    (∃ (m : Nat) (row : Nat) (_ : Nat) (s : State), mget 0 s.mem.sramFirst (sramRow m row) ≠ 0 ∧ s.lin.seconds + 1 - mget 0
      s.mem.sramFirst (sramRow m row) ≤ 86400 ∧ mget 0 s.mem.sramUsed m < 4) ∧
    (∃ (m : Nat) (_ : Nat) (_ : Nat) (s : State), mget 0 s.mem.sramUsed m < 4) ∧
    (∃ (m : Nat) (_ : Nat) (s : State), (s.sys.mode = .service ∨ (fbit s.conf MEM_SRAM_TEST_EN = true ∧ isRunning s = true)) ∧
      mget 0 s.mem.sramUsed m < 4) ∧
    (∃ (m : Nat) (_ : Nat) (s : State), (s.sys.mode = .service ∨ (fbit s.conf MEM_SRAM_TEST_EN = true ∧ isRunning s = true)) ∧ 4
      ≤ mget 0 s.mem.sramUsed m) :=
  ⟨⟨[], 0, field MEM_CTRL_SCRUB_EN 1 { paged with mem := { paged.mem with scrubPage := 0x1EFFFFE } }, by decide +kernel⟩,
   ⟨[], 0, field MEM_CTRL_SCRUB_EN 1 { paged with mem := { paged.mem with scrubPage := 0x1EFFFFF } }, by decide +kernel⟩,
   ⟨[], 0, field MEM_CTRL_SCRUB_EN 0 paged, by decide +kernel⟩,
   ⟨[⟨0, 3, 1⟩], [⟨0, 3, 1⟩], 0, 7, field MEM_CTRL_SCRUB_EN 1 { paged with mem := { paged.mem with scrubPage := 7 } },
     by decide +kernel⟩,
   ⟨[], 65535, 7, field MEM_CTRL_SCRUB_EN 1 { paged with mem := { paged.mem with scrubPage := 7 } }, by decide +kernel⟩,
   ⟨3, 9, 0, up, by decide +kernel⟩,
   ⟨3, 9, 0,
     { up with mem := { up.mem with sramFirst := [(sramRow 3 9, 1)], sramUsed := [(3, 3)] }, lin := { up.lin with seconds := 86400 } },
     by decide +kernel⟩,
   ⟨3, 9, 0, { up with mem := { up.mem with sramUsed := [(3, 3)] }, lin := { up.lin with seconds := 86400 } }, by decide +kernel⟩,
   ⟨3, 9, inMode .service up, by decide +kernel⟩,
   ⟨3, 9, inMode .service { up with mem := { up.mem with sramUsed := [(3, 4)] }, lin := { up.lin with seconds := 86400 } },
     by decide +kernel⟩⟩

theorem test_hyps_CuesLoadStartAndStop :
    (∃ (sq : Nat) (data : Rd) (r : Running) (page : Nat) (pages : Nat) (s : State), s.sys.brace = false ∧ ready s .pf0 sq 0x40 =
      some r ∧ busMaster s .pf0 = true ∧ bit (fieldAt r.raw 0x1C 4) 0 = false ∧ fieldAt r.raw 0x18 4 ≤ 4095 ∧ bufferOf s (fieldAt
      r.raw 0x18 4) = none ∧ fieldAt r.raw 0x28 8 ≠ 0 ∧ pages = (fieldAt r.raw 0x28 8 + 4095) / 4096 ∧ ((cueRuns s).find?
      (fun x => pages ≤ x.2)).map Prod.fst = some page ∧ data.ok = true ∧ fieldAt r.raw 0x28 8 ≤ data.bytes.length) ∧
    (∃ (sq : Nat) (data : Rd) (r : Running) (page : Nat) (pages : Nat) (key : Bytes) (d : Bytes) (x : Bool) (s : State),
      openSealed key (data.bytes.take (fieldAt r.raw 0x28 8)) = .ok d ∧ s.sys.brace = false ∧ ready s .pf0 sq 0x40 = some r ∧
      busMaster s .pf0 = true ∧ bit (fieldAt r.raw 0x1C 4) 0 = true ∧ fieldAt r.raw 0x18 4 ≤ 4095 ∧ bufferOf s (fieldAt r.raw
      0x18 4) = none ∧ fieldAt r.raw 0x28 8 ≠ 0 ∧ pages = (fieldAt r.raw 0x28 8 + 4095) / 4096 ∧ ((cueRuns s).find?
      (fun x => pages ≤ x.2)).map Prod.fst = some page ∧ data.ok = true ∧ fieldAt r.raw 0x28 8 ≤ data.bytes.length ∧ inService s
      = true ∧ aget s.sec.keys (fieldAt r.raw 0x30 4) = some (key, x) ∧ d.length ≤ 4096 * pages) ∧
    (∃ (_ : Nat) (_ : Rd) (s : State), s.sys.brace = true) ∧
    (∃ (sq : Nat) (r : Running) (b : Buffer) (s : State), ready s .pf0 sq 0x32 = some r ∧ bufferOf s (fieldAt r.raw 0x18 4) =
      some b ∧ referenced s (fieldAt r.raw 0x18 4) = false) ∧
    (∃ (sq : Nat) (r : Running) (b : Buffer) (s : State), ready s .pf0 sq 0x32 = some r ∧ bufferOf s (fieldAt r.raw 0x18 4) =
      some b ∧ referenced s (fieldAt r.raw 0x18 4) = true) ∧
    (∃ (sq : Nat) (fe : Nat) (r : Running) (s : State), ready s .pf0 sq 0x41 = some r ∧ (fbit s.conf GNG_CTRL_EN && fbit s.conf
      GNG_CTRL_WALL_CUE) = false ∧ (∀ k, isPoisoned s k = false) ∧ startMode s = none ∧ startFault s ((r.raw.drop 0x18).take 40)
      = none ∧ armFe s.sys.fe (fieldAt r.raw 0x20 8) 2 = some fe ∧ (∀ a ∈ s.gng.arms, a.ring = none)) ∧
    (∃ (sq : Nat) (fe : Nat) (r : Running) (s : State), ready s .pf0 sq 0x42 = some r ∧ (fbit s.conf GNG_CTRL_EN && fbit s.conf
      GNG_CTRL_WALL_CUE) = false ∧ stopFault s ((r.raw.drop 0x18).take 40) = none ∧ armFe s.sys.fe (fieldAt r.raw 0x20 8) 2 =
      some fe ∧ (∀ a ∈ s.gng.arms, a.ring = none)) ∧
    (∃ (sq : Nat) (fe : Nat) (r : Running) (s : State), ready s .pf0 sq 0x41 = some r ∧ (fbit s.conf GNG_CTRL_EN && fbit s.conf
      GNG_CTRL_WALL_CUE) = true ∧ (∀ k, isPoisoned s k = false) ∧ startMode s = none ∧ startFault s ((r.raw.drop 0x18).take 40) =
      none ∧ armFe s.sys.fe (fieldAt r.raw 0x20 8) 4 = some fe ∧ s.gng.arms = [] ∧ (∃ k ∈ partTiles s, k ≠ tileIndex s.conf)) ∧
    (∃ (sq : Nat) (fe : Nat) (r : Running) (s : State), ready s .pf0 sq 0x42 = some r ∧ (fbit s.conf GNG_CTRL_EN && fbit s.conf
      GNG_CTRL_WALL_CUE) = true ∧ stopFault s ((r.raw.drop 0x18).take 40) = none ∧ armFe s.sys.fe (fieldAt r.raw 0x20 8) 4 = some
      fe ∧ s.gng.arms = [] ∧ (∃ k ∈ partTiles s, k ≠ tileIndex s.conf)) ∧
    (∃ (sq : Nat) (r : Running) (s : State), ready s .pf0 sq 0x41 = some r ∧ (∀ k, isPoisoned s k = false) ∧ (∀ a ∈ s.gng.arms,
      a.ring = none)) ∧
    (∃ (sq : Nat) (r : Running) (s : State), ready s .pf0 sq 0x42 = some r ∧ (∀ a ∈ s.gng.arms, a.ring = none) ∧ (fieldAt
      ((r.raw.drop 0x18).take 40) 0 4 % 8 = 2 ∨ fieldAt ((r.raw.drop 0x18).take 40) 0 4 % 8 = 3) ∧ s.sys.mode ≠ .cue ∧ s.cue.arm
      = none) :=
  ⟨⟨63, got 65536, cmd 0x40 [(0x18, 4, 4095), (0x1C, 4, 0), (0x20, 8, 0x1000), (0x28, 8, 65536), (0x30, 4, 2)], 32, 16, on .pf0
     63 (cmd 0x40 [(0x18, 4, 4095), (0x1C, 4, 0), (0x20, 8, 0x1000), (0x28, 8, 65536), (0x30, 4, 2)]) cued, by decide +kernel⟩,
   ⟨63, got 64, cmd 0x40 [(0x18, 4, 4095), (0x1C, 4, 1), (0x20, 8, 0x1000), (0x28, 8, 64), (0x30, 4, 2)], 32, 1, [1], [], false,
     on .pf0 63 (cmd 0x40 [(0x18, 4, 4095), (0x1C, 4, 1), (0x20, 8, 0x1000), (0x28, 8, 64), (0x30, 4, 2)])
     { cued with sec := { cued.sec with keys := [(2, ([1], false))] } }, rfl, by decide +kernel⟩,
   ⟨63, got 0, { up with sys := { up.sys with brace := true } }, by decide +kernel⟩,
   ⟨63, cmd 0x32 [(0x18, 4, 4095)], { page := 32, pages := 1, length := 192 }, on .pf0 63 (cmd 0x32 [(0x18, 4, 4095)]) (listed
     (List.replicate 192 0)), by decide +kernel⟩,
   ⟨63, cmd 0x32 [(0x18, 4, 4095)], { page := 32, pages := 1, length := 192 }, on .pf0 63 (cmd 0x32 [(0x18, 4, 4095)])
     { listed (List.replicate 192 0) with cue := { (listed (List.replicate 192 0)).cue with run := some { list := 4095, refs := [4095] } } },
     by decide +kernel⟩,
   ⟨63, 7, cmd 0x41 [(0x18, 4, 4095)], on .pf0 63 (cmd 0x41 [(0x18, 4, 4095)]) (listed endList), by decide +kernel,
     by decide +kernel, (fun _ => rfl), by decide +kernel⟩,
   ⟨63, 7, cmd 0x42 [(0x18, 4, 3)], on .pf0 63 (cmd 0x42 [(0x18, 4, 3)]) (inMode .cue up), by decide +kernel⟩,
   ⟨63, 9, cmd 0x41 [(0x18, 4, 4095)], on .pf0 63 (cmd 0x41 [(0x18, 4, 4095)])
     (let w := field GNG_CTRL_WALL_CUE 1 (field CUE_REGION_BASE_BASE 16 (field CUE_REGION_PAGES_PAGES 32 walled)); { w with cue := { w.cue with buffers := [(4095, { page := 32, pages := 1, length := endList.length })] }, mem := { w.mem with bytes := mputs 0 (4096 * 32) endList w.mem.bytes, written := [(32, true)] } } : State),
     by decide +kernel, by decide +kernel, (fun _ => rfl), by decide +kernel⟩,
   ⟨63, 9, cmd 0x42 [(0x18, 4, 3)], on .pf0 63 (cmd 0x42 [(0x18, 4, 3)]) (inMode .cue (field GNG_CTRL_WALL_CUE 1 walled)),
     by decide +kernel⟩,
   ⟨63, cmd 0x41 [(0x18, 4, 5)], on .pf0 63 (cmd 0x41 [(0x18, 4, 5)]) up, by decide +kernel, (fun _ => rfl), by decide +kernel⟩,
   ⟨63, cmd 0x42 [(0x18, 4, 3)], on .pf0 63 (cmd 0x42 [(0x18, 4, 3)]) up, by decide +kernel⟩⟩

theorem test_hyps_SparesAreCommitted :
    (∃ (sq : Nat) (e : Nat) (r : Running) (s : State), ready s .pf0 sq 0x71 = some r ∧ fieldAt r.raw 0x18 4 = 0 ∧ fieldAt r.raw
      0x1C 4 ≤ 191 ∧ ((fieldAt r.raw 0x20 4 = 0xFFFFFFFF ∧ s.flt.idle.head? = some e) ∨ (fieldAt r.raw 0x20 4 = e ∧ e ≠
      0xFFFFFFFF ∧ s.flt.idle.contains e = true)) ∧ s.flt.suspect.any (fun p => p.1 = fieldAt r.raw 0x1C 4) = false ∧
      s.flt.coming.any (fun m => m.stripe = fieldAt r.raw 0x1C 4) = false) ∧
    (∃ (sq : Nat) (r : Running) (s : State), ready s .pf0 sq 0x71 = some r ∧ fieldAt r.raw 0x18 4 = 0 ∧ fieldAt r.raw 0x1C 4 ≤
      191 ∧ fieldAt r.raw 0x20 4 = 0xFFFFFFFF ∧ s.flt.idle = [] ∧ s.flt.suspect.any (fun p => p.1 = fieldAt r.raw 0x1C 4) = false
      ∧ s.flt.coming.any (fun m => m.stripe = fieldAt r.raw 0x1C 4) = false) ∧
    (∃ (sq : Nat) (r : Running) (s : State), ready s .pf0 sq 0x71 = some r ∧ ((fieldAt r.raw 0x18 4 = 1 ∧ fieldAt r.raw 0x1C 4 ≤
      11 ∧ fieldAt r.raw 0x20 4 < 8 ∧ (groupAt s (fieldAt r.raw 0x1C 4)).spareUsed = true ∧ (groupAt s (fieldAt r.raw 0x1C
      4)).laneSpare = false ∧ ∃ q, portOfLane s.conf (fieldAt r.raw 0x1C 4) (fieldAt r.raw 0x20 4) = some q ∧ spareReaches s q.1
      q.2 = true) ∨ (fieldAt r.raw 0x18 4 = 2 ∧ (servingPairs s.flt).contains (fieldAt r.raw 0x1C 4) = true ∧ fieldAt r.raw 0x20
      4 = 0 ∧ s.flt.solverIdle = none) ∨ (fieldAt r.raw 0x18 4 = 3 ∧ fieldAt r.raw 0x1C 4 < dataPages ∧ fieldAt r.raw 0x20 4 = 0
      ∧ nextSpare s = none) ∨ (fieldAt r.raw 0x18 4 = 4 ∧ fieldAt r.raw 0x20 4 = 0 ∧ 4 ≤ mget 0 s.mem.sramUsed (fieldAt r.raw
      0x1C 4 / 65536)))) ∧
    (∃ (sq : Nat) (r : Running) (s : State), ready s .pf0 sq 0x71 = some r ∧ ((fieldAt r.raw 0x18 4 = 0 ∧ 191 < fieldAt r.raw
      0x1C 4) ∨ (fieldAt r.raw 0x18 4 = 1 ∧ 11 < fieldAt r.raw 0x1C 4) ∨ (fieldAt r.raw 0x18 4 = 2 ∧ (servingPairs
      s.flt).contains (fieldAt r.raw 0x1C 4) = false) ∨ (fieldAt r.raw 0x18 4 = 3 ∧ dataPages ≤ fieldAt r.raw 0x1C 4))) ∧
    (∃ (sq : Nat) (r : Running) (s : State), ready s .pf0 sq 0x71 = some r ∧ ((fieldAt r.raw 0x18 4 = 0 ∧ fieldAt r.raw 0x1C 4 ≤
      191 ∧ fieldAt r.raw 0x20 4 ≠ 0xFFFFFFFF ∧ s.flt.idle.contains (fieldAt r.raw 0x20 4) = false) ∨ (fieldAt r.raw 0x18 4 = 1 ∧
      fieldAt r.raw 0x1C 4 ≤ 11 ∧ (7 < fieldAt r.raw 0x20 4 ∨ portOfLane s.conf (fieldAt r.raw 0x1C 4) (fieldAt r.raw 0x20 4) =
      none ∨ ∃ q, portOfLane s.conf (fieldAt r.raw 0x1C 4) (fieldAt r.raw 0x20 4) = some q ∧ spareReaches s q.1 q.2 = false)) ∨
      (fieldAt r.raw 0x18 4 = 2 ∧ (servingPairs s.flt).contains (fieldAt r.raw 0x1C 4) = true ∧ fieldAt r.raw 0x20 4 ≠ 0) ∨
      (fieldAt r.raw 0x18 4 = 3 ∧ fieldAt r.raw 0x1C 4 < dataPages ∧ fieldAt r.raw 0x20 4 ≠ 0) ∨ (fieldAt r.raw 0x18 4 = 4 ∧
      fieldAt r.raw 0x20 4 ≠ 0))) ∧
    (∃ (sq : Nat) (n : Nat) (c : PortCfg) (r : Running) (s : State), ready s .pf0 sq 0x71 = some r ∧ fieldAt r.raw 0x18 4 = 1 ∧
      fieldAt r.raw 0x1C 4 ≤ 11 ∧ fieldAt r.raw 0x20 4 < 8 ∧ portOfLane s.conf (fieldAt r.raw 0x1C 4) (fieldAt r.raw 0x20 4) =
      some (n, c) ∧ c.group = fieldAt r.raw 0x1C 4 ∧ spareFits s n c = true) ∧
    (∃ (sq : Nat) (n : Nat) (c : PortCfg) (r : Running) (s : State), ready s .pf0 sq 0x71 = some r ∧ fieldAt r.raw 0x18 4 = 1 ∧
      fieldAt r.raw 0x1C 4 ≤ 11 ∧ fieldAt r.raw 0x20 4 < 8 ∧ portOfLane s.conf (fieldAt r.raw 0x1C 4) (fieldAt r.raw 0x20 4) =
      some (n, c) ∧ spareReaches s n c = true ∧ (groupAt s (fieldAt r.raw 0x1C 4)).spareUsed = true ∧ (groupAt s (fieldAt r.raw
      0x1C 4)).laneSpare = true ∧ (groupAt s (fieldAt r.raw 0x1C 4)).spareLane = fieldAt r.raw 0x20 4) ∧
    (∃ (sq : Nat) (k : Nat) (r : Running) (s : State), ready s .pf0 sq 0x71 = some r ∧ fieldAt r.raw 0x18 4 = 2 ∧ (servingPairs
      s.flt).contains (fieldAt r.raw 0x1C 4) = true ∧ fieldAt r.raw 0x20 4 = 0 ∧ s.flt.solverIdle = some k) ∧
    (∃ (sq : Nat) (k : Nat) (r : Running) (s : State), ready s .pf0 sq 0x71 = some r ∧ fieldAt r.raw 0x18 4 = 3 ∧ fieldAt r.raw
      0x1C 4 < dataPages ∧ fieldAt r.raw 0x20 4 = 0 ∧ nextSpare s = some k) ∧
    (∃ (sq : Nat) (r : Running) (s : State), ready s .pf0 sq 0x71 = some r ∧ fieldAt r.raw 0x18 4 = 4 ∧ fieldAt r.raw 0x20 4 = 0
      ∧ mget 0 s.mem.sramUsed (fieldAt r.raw 0x1C 4 / 65536) < 4) ∧
    (∃ (sq : Nat) (r : Running) (s : State), ready s .pf0 sq 0x71 = some r ∧ 4 < fieldAt r.raw 0x18 4) :=
  ⟨⟨0, 5, cmd 0x71 [(0x18, 4, 0), (0x1C, 4, 191), (0x20, 4, 0xFFFFFFFF)], on .pf0 0 (cmd 0x71 [(0x18, 4, 0), (0x1C, 4, 191),
     (0x20, 4, 0xFFFFFFFF)]) spared, by decide +kernel⟩,
   ⟨0, cmd 0x71 [(0x18, 4, 0), (0x1C, 4, 191), (0x20, 4, 0xFFFFFFFF)], on .pf0 0 (cmd 0x71 [(0x18, 4, 0), (0x1C, 4, 191), (0x20,
     4, 0xFFFFFFFF)]) up, by decide +kernel⟩,
   ⟨0, cmd 0x71 [(0x18, 4, 4), (0x1C, 4, 0x30009), (0x20, 4, 0)], on .pf0 0 (cmd 0x71 [(0x18, 4, 4), (0x1C, 4, 0x30009), (0x20,
     4, 0)]) { up with mem := { up.mem with sramUsed := [(3, 4)] } }, by decide +kernel, .inr (.inr (.inr (by decide +kernel)))⟩,
   ⟨0, cmd 0x71 [(0x18, 4, 3), (0x1C, 4, 0x1ED8000), (0x20, 4, 0)], on .pf0 0 (cmd 0x71 [(0x18, 4, 3), (0x1C, 4, 0x1ED8000),
     (0x20, 4, 0)]) up, by decide +kernel⟩,
   ⟨0, cmd 0x71 [(0x18, 4, 0), (0x1C, 4, 191), (0x20, 4, 7)], on .pf0 0 (cmd 0x71 [(0x18, 4, 0), (0x1C, 4, 191), (0x20, 4, 7)])
     up, by decide +kernel, .inl (by decide +kernel)⟩,
   ⟨0, 95, cfg95, cmd 0x71 [(0x18, 4, 1), (0x1C, 4, 11), (0x20, 4, 3)], on .pf0 0 (cmd 0x71 [(0x18, 4, 1), (0x1C, 4, 11), (0x20,
     4, 3)]) (port95 { spareIn := true } ported), by decide +kernel⟩,
   ⟨0, 95, cfg95, cmd 0x71 [(0x18, 4, 1), (0x1C, 4, 11), (0x20, 4, 3)], on .pf0 0 (cmd 0x71 [(0x18, 4, 1), (0x1C, 4, 11), (0x20,
     4, 3)]) (setGroup 11 { spareUsed := true, laneSpare := true, spareLane := 3 } (port95 { spareIn := true } ported)),
     by decide +kernel⟩,
   ⟨0, 16, cmd 0x71 [(0x18, 4, 2), (0x1C, 4, 15), (0x20, 4, 0)], on .pf0 0 (cmd 0x71 [(0x18, 4, 2), (0x1C, 4, 15), (0x20, 4, 0)])
     up, by decide +kernel⟩,
   ⟨0, 0x1ED8000, cmd 0x71 [(0x18, 4, 3), (0x1C, 4, 0x1ED7FFF), (0x20, 4, 0)], on .pf0 0 (cmd 0x71 [(0x18, 4, 3), (0x1C, 4,
     0x1ED7FFF), (0x20, 4, 0)]) up, by decide +kernel⟩,
   ⟨0, cmd 0x71 [(0x18, 4, 4), (0x1C, 4, 0x30009), (0x20, 4, 0)], on .pf0 0 (cmd 0x71 [(0x18, 4, 4), (0x1C, 4, 0x30009), (0x20,
     4, 0)]) { up with mem := { up.mem with sramUsed := [(3, 3)] } }, by decide +kernel⟩,
   ⟨0, cmd 0x71 [(0x18, 4, 5), (0x1C, 4, 0), (0x20, 4, 0)], on .pf0 0 (cmd 0x71 [(0x18, 4, 5), (0x1C, 4, 0), (0x20, 4, 0)]) up,
     by decide +kernel⟩⟩

theorem test_hyps_EnginesAndSolversAreChecked :
    (∃ (e : Nat) (s : State), s.flt.testing.contains e = true ∧ s.flt.suspect = none) ∧
    (∃ (e : Nat) (stripe : Nat) (line : Nat) (sp : Nat) (s : State), s.flt.testing.contains e = true ∧ s.flt.suspect = some
      (stripe, line) ∧ s.flt.pendingStripes.contains stripe = false ∧ s.flt.coming.any (fun m => m.stripe = stripe) = false ∧
      fbit s.conf FLT_POLICY_ENGINE_AUTO = true ∧ spareEngine s.flt = some sp) ∧
    (∃ (e : Nat) (s : State), s.flt.testing.contains e = true) ∧
    (∃ (e : Nat) (s : State), (((ascending (s.flt.idle ++ s.flt.checkers)).filter (s.flt.nextTest ≤ ·)).head? <|> (ascending
      (s.flt.idle ++ s.flt.checkers)).head?) = some e) ∧
    (∃ (e : Nat) (s : State), (((ascending (s.flt.idle ++ s.flt.checkers)).filter (s.flt.nextTest ≤ ·)).head? <|> (ascending
      (s.flt.idle ++ s.flt.checkers)).head?) = some e ∧ s.flt.checkers.contains e = false) ∧
    (∃ (e : Nat) (s : State), (((ascending (s.flt.idle ++ s.flt.checkers)).filter (s.flt.nextTest ≤ ·)).head? <|> (ascending
      (s.flt.idle ++ s.flt.checkers)).head?) = some e ∧ s.flt.checkers.contains e = true) ∧
    (∃ (p : Nat) (k : Nat) (s : State), (servingPairs s.flt).contains p = true ∧ fbit s.conf FLT_POLICY_SOLVER_AUTO = true ∧
      s.flt.solverIdle = some k) ∧
    (∃ (p : Nat) (s : State), (servingPairs s.flt).contains p = true ∧ fbit s.conf FLT_POLICY_SOLVER_AUTO = true ∧
      s.flt.solverIdle = none) ∧
    (∃ (p : Nat) (s : State), (servingPairs s.flt).contains p = true ∧ fbit s.conf FLT_POLICY_SOLVER_AUTO = false ∧
      s.flt.pendingPairs.contains p = false) ∧
    (∃ (fn : Fn) (sq : Nat) (slots : List Nat) (r : Running) (s : State), busMaster s fn = true ∧ ready s fn sq 0x70 = some r ∧
      slots = ((faultsNewestFirst s.lin.sram).drop (fieldAt r.raw 0x18 4)).take (fieldAt r.raw 0x1C 4)) :=
  ⟨⟨6, { spared with flt := { spared.flt with testing := [6] } }, by decide +kernel⟩,
   ⟨6, 191, 2159, 5, field FLT_POLICY_ENGINE_AUTO 1
     { spared with flt := { spared.flt with testing := [6], suspect := some (191, 2159) } }, by decide +kernel⟩,
   ⟨6, { spared with flt := { spared.flt with testing := [6] } }, by decide +kernel⟩,
   ⟨5, spared, by decide +kernel⟩,
   ⟨5, spared, by decide +kernel⟩,
   ⟨6, { spared with flt := { spared.flt with nextTest := 6 } }, by decide +kernel⟩,
   ⟨15, 16, field FLT_POLICY_SOLVER_AUTO 1 up, by decide +kernel⟩,
   ⟨15, field FLT_POLICY_SOLVER_AUTO 1 { up with flt := { up.flt with solverIdle := none } }, by decide +kernel⟩,
   ⟨15, field FLT_POLICY_SOLVER_AUTO 0 up, by decide +kernel⟩,
   ⟨.pf1, 0, [], cmd 0x70 [(0x1C, 4, 1)], on .pf1 0 (cmd 0x70 [(0x1C, 4, 1)]) up, by decide +kernel⟩⟩

theorem test_hyps_PairsAndClocksFailSafe :
    (∃ (p : Nat) (_ : Nat) (s : State), firmwareRuns s = true ∧ p < 2 ∧ s.flt.hkOk = 3) ∧
    (∃ (p : Nat) (_ : Nat) (s : State), s.pwr.fall = .idle ∧ s.sys.transit.any (fun x => x.target = .boot) = false ∧ firmwareRuns
      s = true ∧ p < 2 ∧ s.flt.hkOk = BitVec.ofNat 2 (2 ^ p)) ∧
    (∃ (p : Nat) (cause : Nat) (fe : Nat) (seconds : Nat) (s : State), aget s.flt.hkCause p = some (cause, fe, seconds)) ∧
    (∃ (p : Nat) (cause : Nat) (fe : Nat) (seconds : Nat) (s : State), aget s.flt.hkCause p = some (cause, fe, seconds)) ∧
    (∃ (g : Nat) (s : State), g < 12 ∧ dieRuns s = true ∧ s.flt.lostClocks.contains (200 + g) = false ∧ s.cal.jobs = []) ∧
    (∃ (d : Nat) (s : State), 216 ≤ d ∧ d ≤ 247 ∧ d ≠ 234 ∧ d ≠ 235 ∧ s.pwr.fall = .idle ∧ dieRuns s = true ∧ s.sys.transit.any
      (fun x => x.target = .boot) = false ∧ s.flt.lostClocks.contains d = false) ∧
    (∃ (d : Nat) (s : State), d < 200 ∧ dieRuns s = true ∧ s.flt.lostClocks.contains d = false) ∧
    (∃ (p : Nat) (s : State), p < 2 ∧ dieRuns s = true ∧ s.flt.lostClocks.contains (234 + p) = false ∧ s.flt.hkOk = 3) ∧
    (∃ (p : Nat) (s : State), p < 4 ∧ dieRuns s = true ∧ s.flt.lostClocks.contains (212 + p) = false ∧ (gngPort s p).state = .up) ∧
    (∃ (d : Nat) (s : State), s.flt.lostClocks.contains d = true) ∧
    (∃ (d : Nat) (s : State), (d < 200 ∨ 212 ≤ d ∨ (groupAt s (d - 200)).noClock = false)) ∧
    (∃ (g : Nat) (s : State), g < 12 ∧ (groupAt s g).noClock = true) ∧
    (∃ (g : Nat) (s : State), (groupAt s g).noClock = true) :=
  ⟨⟨1, 3, up, by decide +kernel⟩,
   ⟨1, 3, { up with flt := { up.flt with hkOk := 2 } }, by decide +kernel⟩,
   ⟨1, 3, 5, 9, { up with flt := { up.flt with hkCause := [(1, (3, 5, 9))] } }, by decide +kernel⟩,
   ⟨1, 3, 5, 9, { up with flt := { up.flt with hkCause := [(1, (3, 5, 9))] } }, by decide +kernel⟩,
   ⟨11, up, by decide +kernel⟩,
   ⟨247, up, by decide +kernel⟩,
   ⟨199, up, by decide +kernel⟩,
   ⟨1, up, by decide +kernel⟩,
   ⟨1, walled, by decide +kernel⟩,
   ⟨247, { up with flt := { up.flt with lostClocks := [247] } }, by decide +kernel⟩,
   ⟨211, up, by decide +kernel⟩,
   ⟨11, setGroup 11 { noClock := true } up, by decide +kernel⟩,
   ⟨11, setGroup 11 { noClock := true } up, by decide +kernel⟩⟩

theorem test_hyps_RailsRiseInOrderAndAreWatched :
    (∃ (codes : List Microvolts) (s : State), s.pnl.state = .on ∧ (∀ k ∈ checkedMonitors s, inside s k (dvmCode (codes.getD k 0))
      = true)) ∧
    (∃ (codes : List Microvolts) (k : Nat) (s : State), s.pnl.state = .on ∧ s.pnl.faulted.contains k = false ∧ (checkedMonitors
      s).filter
      (fun m => ((dvmCode (codes.getD m 0) :: samplesOf s m).take 4).length = 4 && ((dvmCode (codes.getD m 0) :: samplesOf s m).take 4).all (fun v => !(inside s m v)))
      = [k]) ∧
    (∃ (codes : List Microvolts) (ks : List Nat) (s : State), s.pnl.state = .poweringOff ∧ (∀ k ∈ ks, s.pnl.faulted.contains k =
      false) ∧ (checkedMonitors s).filter
      (fun m => ((dvmCode (codes.getD m 0) :: samplesOf s m).take 4).length = 4 && ((dvmCode (codes.getD m 0) :: samplesOf s m).take 4).all (fun v => !(inside s m v)))
      = ks) ∧
    (∃ (s : State), s.pnl.state = .poweringOn ∧ s.pnl.asserted = false ∧ s.pnl.step < 8 ∧ (monitorsOf s s.pnl.step).all (inWindow
      s) = false) ∧
    (∃ (s : State), s.pnl.state = .poweringOn ∧ s.pnl.asserted = false ∧ s.pnl.step < 8 ∧ (monitorsOf s s.pnl.step).all (inWindow
      s) = true ∧ usedStep s (s.pnl.step + 1) < 8) ∧
    (∃ (s : State), s.pnl.state = .poweringOn ∧ s.pnl.asserted = false ∧ s.pnl.step < 8 ∧ (monitors s).all (inWindow s) = true ∧
      usedStep s (s.pnl.step + 1) = 8) ∧
    (∃ (s : State), s.pnl.state = .poweringOn ∧ s.pnl.asserted = true ∧ s.pnl.step < 8 ∧ fget s.conf (PNL_SEQ_TIMEOUT s.pnl.step)
      ≠ 0) ∧
    (∃ (_ : Nat) (s : State), s.pnl.state = .training ∧ s.pnl.trained = true ∧ s.lmp.probing = []) :=
  ⟨⟨List.replicate 12 65934, paneled { state := .on, checkedSteps := 0x80 }, by decide +kernel⟩,
   ⟨List.replicate 12 0, 11, paneled { state := .on, checkedSteps := 0x80, dvm := [(11, { samples := [99, 201, 0] })] },
     by decide +kernel⟩,
   ⟨List.replicate 12 0, [11], paneled
     { state := .poweringOff, checkedSteps := 0x80, dvm := [(11, { samples := [99, 201, 0] })] }, by decide +kernel⟩,
   ⟨paneled { state := .poweringOn, step := 7 }, by decide +kernel⟩,
   ⟨paneled { state := .poweringOn, step := 0 }, by decide +kernel⟩,
   ⟨paneled { state := .poweringOn, step := 7, dvm := [(11, { samples := [100, 150, 200, 100] })] }, by decide +kernel⟩,
   ⟨paneled { state := .poweringOn, step := 7, asserted := true }, by decide +kernel⟩,
   ⟨100, paneled { state := .training, trained := true }, by decide +kernel⟩⟩

theorem test_hyps_RailsFallInReverse :
    (∃ (s : State), s.pnl.state = .poweringOff ∧ s.pnl.discharging = true ∧ s.sys.transit = none ∧ releaseOrder s ≠ []) ∧
    (∃ (k : Nat) (rest : List Nat) (s : State), s.pnl.state = .poweringOff ∧ s.pnl.discharging = false ∧ s.sys.transit = none ∧
      releaseOrder s = k :: rest ∧ rest ≠ []) ∧
    (∃ (k : Nat) (s : State), s.pnl.state = .poweringOff ∧ s.pnl.discharging = false ∧ s.sys.transit = none ∧ releaseOrder s =
      [k] ∧ (s.pnl.offReason = 0 ∨ s.pnl.offReason = 2 ∨ s.pnl.offReason = 3)) ∧
    (∃ (k : Nat) (s : State), s.pnl.state = .poweringOff ∧ s.pnl.discharging = false ∧ s.sys.transit = none ∧ releaseOrder s =
      [k] ∧ s.pnl.offReason = 1 ∧ s.pnl.restart = true ∧ usedStep s 0 < 8) ∧
    (∃ (s : State), s.pnl.state = .waiting ∧ usedStep s 0 < 8) ∧
    (∃ (s : State), s.pnl.state = .on) ∧
    (∃ (pin : Nat) (_ : State), pin < 4) :=
  ⟨⟨paneled { state := .poweringOff, discharging := true, checkedSteps := 0x81 }, by decide +kernel⟩,
   ⟨7, [0], paneled { state := .poweringOff, checkedSteps := 0x81 }, by decide +kernel⟩,
   ⟨0, paneled { state := .poweringOff, checkedSteps := 1, offReason := 2 }, by decide +kernel⟩,
   ⟨0, paneled { state := .poweringOff, checkedSteps := 1, offReason := 1, restart := true }, by decide +kernel⟩,
   ⟨paneled { state := .waiting }, by decide +kernel⟩,
   ⟨paneled { state := .on }, by decide +kernel⟩,
   ⟨3, up, by decide +kernel⟩⟩

theorem test_hyps_TwillPortsTrain :
    (∃ (s : State), s.pnl.state = .training ∧ s.twl.training = false ∧ s.pnl.trained = false ∧ mwf {} s.twl.groups = true ∧ (∃ q
      ∈ enabledPorts s.conf, (portAt s q.1).state ≠ .failed) ∧ (∀ q ∈ enabledPorts s.conf, (groupAt s q.2.group).noClock =
      false)) ∧
    (∃ (n : Nat) (k : Nat) (b : Bytes) (d : Bytes) (c : PortCfg) (s : State), (portAt s n).state = .phase 0 ∧ (portAt s n).wait =
      some (b, k) ∧ fieldAt b 1 1 = 0x01 ∧ portCfg s.conf n = some c ∧ (groupAt s c.group).wire = some n ∧ s.cal.jobs = [] ∧
      d.length = 4 ∧ covered s c d = true ∧ bit (fieldAt d 0 1) 0 = true) ∧
    (∃ (n : Nat) (k : Nat) (b : Bytes) (d : Bytes) (c : PortCfg) (s : State), (portAt s n).state = .phase 4 ∧ (portAt s n).wait =
      some (b, k) ∧ fieldAt b 1 1 = 0x06 ∧ portCfg s.conf n = some c ∧ (groupAt s c.group).wire = some n ∧ s.cal.jobs = [] ∧
      d.length = 0) ∧
    (∃ (n : Nat) (k : Nat) (ty : Nat) (ok : Bool) (b : Bytes) (d : Bytes) (c : PortCfg) (s : State), (portAt s n).wait = some (b,
      k + 1) ∧ portCfg s.conf n = some c ∧ (groupAt s c.group).wire = some n ∧ s.cal.jobs = [] ∧ (ok = false ∨ (ty, d.length) ≠
      replyOf (fieldAt b 1 1))) ∧
    (∃ (n : Nat) (k : Nat) (b : Bytes) (c : PortCfg) (s : State), (portAt s n).wait = some (b, k + 1) ∧ portCfg s.conf n = some c
      ∧ (groupAt s c.group).wire = some n) ∧
    (∃ (n : Nat) (b : Bytes) (c : PortCfg) (s : State), (portAt s n).state = .active ∧ (portAt s n).wait = some (b, 0) ∧ fieldAt
      b 1 1 = 0x07 ∧ portCfg s.conf n = some c ∧ (groupAt s c.group).wire = some n ∧ (groupAt s c.group).noClock = false) ∧
    (∃ (n : Nat) (c : PortCfg) (s : State), (portAt s n).state ∈ [PortState.phase 0, .phase 1, .phase 3] ∧ portCfg s.conf n =
      some c) ∧
    (∃ (n : Nat) (p : Nat) (_ : Nat) (s : State), (portAt s n).state = .phase p ∧ (portAt s n).tries < 3) ∧
    (∃ (n : Nat) (p : Nat) (_ : Nat) (c : PortCfg) (s : State), (portAt s n).state = .phase p ∧ ¬ (portAt s n).tries < 3 ∧
      (portAt s n).answered = false ∧ portCfg s.conf n = some c ∧ s.twl.training = false) ∧
    (∃ (n : Nat) (p : Nat) (k : Nat) (_ : Nat) (c : PortCfg) (s : State), (portAt s n).state = .phase p ∧ ¬ (portAt s n).tries <
      3 ∧ (portAt s n).answered = true ∧ portCfg s.conf n = some c ∧ (List.range c.width).filter
      (fun k => (mget {} (portAt s n).lanes k).bad) = [k] ∧ spareFits s n c = true ∧ fbit s.conf FLT_POLICY_TWILL_AUTO = true ∧
      (groupAt s c.group).noClock = false ∧ s.twl.training = false) ∧
    (∃ (n : Nat) (c : PortCfg) (s : State), (portAt s n).state = .backoff ∧ portCfg s.conf n = some c ∧ (groupAt s
      c.group).noClock = false) ∧
    (∃ (n : Nat) (c : PortCfg) (s : State), (portAt s n).state = .active ∧ (portAt s n).wait = none ∧ portCfg s.conf n = some c) :=
  ⟨⟨{ ported with pnl := { ported.pnl with state := .training } }, by decide +kernel, by decide +kernel, by decide +kernel,
     by decide +kernel, ⟨(95, cfg95), by decide +kernel, by decide +kernel⟩, by decide +kernel⟩,
   ⟨95, 2, bcBody 5 0x01 [], toLE 1 1 ++ toLE 1 255 ++ toLE 1 255 ++ toLE 1 255, cfg95, setGroup 11 { wire := some 95 } (port95
     { state := .phase 0, wait := some ((bcBody 5 0x01 []), 2) } ported), by decide +kernel⟩,
   ⟨95, 2, bcBody 5 0x06 [1], [], cfg95, setGroup 11 { wire := some 95 } (port95
     { state := .phase 4, wait := some ((bcBody 5 0x06 [1]), 2) } ported), by decide +kernel⟩,
   ⟨95, 1, 0x81, false, bcBody 5 0x01 [], [], cfg95, setGroup 11 { wire := some 95 } (port95
     { state := .phase 0, wait := some ((bcBody 5 0x01 []), 2) } ported), by decide +kernel⟩,
   ⟨95, 1, bcBody 5 0x01 [], cfg95, setGroup 11 { wire := some 95 } (port95
     { state := .phase 0, wait := some ((bcBody 5 0x01 []), 2) } ported), by decide +kernel⟩,
   ⟨95, bcBody 5 0x07 [], cfg95, setGroup 11 { wire := some 95 } (port95
     { state := .active, wait := some ((bcBody 5 0x07 []), 0) } ported), by decide +kernel⟩,
   ⟨95, cfg95, setGroup 11 { wire := some 95 } (port95 { state := .phase 1 } ported), by decide +kernel⟩,
   ⟨95, 4, 70, setGroup 11 { wire := some 95 } (port95 { state := .phase 4, tries := 2 } ported), by decide +kernel⟩,
   ⟨95, 0, 70, cfg95, setGroup 11 { wire := some 95 } (port95 { state := .phase 0, tries := 3 } ported), by decide +kernel⟩,
   ⟨95, 3, 3, 70, cfg95, field FLT_POLICY_TWILL_AUTO 1 (setGroup 11 { wire := some 95 } (port95
     { state := .phase 3, tries := 3, answered := true, spareIn := true, lanes := [(3, { bad := true })] } ported)),
     by decide +kernel⟩,
   ⟨95, cfg95, setGroup 11 { wire := some 95 } (port95 { state := .backoff } ported), by decide +kernel⟩,
   ⟨95, cfg95, setGroup 11 { wire := some 95 } (port95 { state := .active } ported), by decide +kernel⟩⟩

theorem test_hyps_TwillTestsRunInService :
    (∃ (v : Word) (s : State), hostUp s = true ∧ s.sys.mode = .service ∧ wbits v 8 2 = 0 ∧ wbits v 10 2 ≠ 0 ∧ wbit v 31 = false ∧
      s.twl.testPort = none) ∧
    (∃ (v : Word) (s : State), hostUp s = true ∧ s.sys.mode = .service ∧ wbits v 8 2 ≠ 0 ∧ wbits v 10 2 ≠ 0 ∧ wbit v 31 = false ∧
      inPattern s (wbits v 0 7) = true) ∧
    (∃ (v : Word) (s : State), hostUp s = true ∧ s.sys.mode ≠ .service ∧ wbits v 10 2 ≠ 0) ∧
    (∃ (v : Word) (l : Nat) (n : Nat) (c : PortCfg) (s : State), hostUp s = true ∧ s.sys.mode = .service ∧ wbits v 10 2 = 0 ∧
      wbit v 31 = true ∧ wbits v 8 2 ≠ 0 ∧ s.twl.testPort = none ∧ logicalOf s (wbits v 0 7) = some l ∧ portOfLane s.conf (wbits
      v 0 7 / 9) l = some (n, c) ∧ portCfg s.conf n = some c ∧ (portAt s n).state = .active) ∧
    (∃ (v : Word) (l : Nat) (n : Nat) (c : PortCfg) (s : State), hostUp s = true ∧ s.sys.mode = .service ∧ wbits v 10 2 = 0 ∧
      wbit v 31 = true ∧ wbits v 8 2 ≠ 0 ∧ wbits v 8 2 = lget s.conf TWL_TEST_PATTERN ∧ wbits v 0 7 = lget s.conf TWL_TEST_LANE ∧
      s.twl.testPort = some n ∧ logicalOf s (wbits v 0 7) = some l ∧ portCfg s.conf n = some c ∧ c.lane0 ≤ l ∧ l < c.lane0 +
      c.width ∧ c.group = wbits v 0 7 / 9) ∧
    (∃ (v : Word) (n : Nat) (c : PortCfg) (s : State), hostUp s = true ∧ wbits v 10 2 = 0 ∧ wbits v 8 2 = 0 ∧ s.twl.testPort =
      some n ∧ portCfg s.conf n = some c ∧ (groupAt s c.group).noClock = false) :=
  ⟨⟨BitVec.ofNat 32 (102 + 1024), inMode .service up, by decide +kernel⟩,
   ⟨BitVec.ofNat 32 (102 + 1024 + 256),
     (let s := liveField TWL_TEST_PATTERN 1 (liveField TWL_TEST_LANE 102 (inMode .service ported)); { s with twl := { s.twl with testPort := some 95, runs := [(102, .prbs 1 0 0 0 0)] } } : State),
     by decide +kernel⟩,
   ⟨BitVec.ofNat 32 (102 + 1024), up, by decide +kernel⟩,
   ⟨BitVec.ofNat 32 (102 + 256 + 2 ^ 31), 3, 95, cfg95, inMode .service (port95 { state := .active } ported), by decide +kernel⟩,
   ⟨BitVec.ofNat 32 (102 + 256 + 2 ^ 31), 3, 95, cfg95,
     (let s := liveField TWL_TEST_PATTERN 1 (liveField TWL_TEST_LANE 102 (inMode .service ported)); { s with twl := { s.twl with testPort := some 95 } } : State),
     by decide +kernel⟩,
   ⟨BitVec.ofNat 32 (2 ^ 31), 95, cfg95,
     (let s := liveField TWL_TEST_PATTERN 1 (liveField TWL_TEST_LANE 102 (inMode .service ported)); { s with twl := { s.twl with testPort := some 95 } } : State),
     by decide +kernel⟩⟩

theorem test_hyps_LampDriversAnswerOrAreLost :
    (∃ (l : Nat) (s : State), laneOn s.conf l = true ∧ s.pnl.state = .training ∧ s.pnl.trained = true ∧ aget s.lmp.probing l =
      none) ∧
    (∃ (_ : Nat) (cs : List Nat) (_ : State), (frameOf cs).filter frameGood = none) ∧
    (∃ (l : Nat) (cs : List Nat) (f : Bytes) (w : LampWait) (s : State), frameOf cs = some f ∧ frameGood f = true ∧ fieldAt
      (f.take (f.length - 4)) 1 1 = 0x81 ∧ (waitsOn s l).find?
      (fun x => x.type = 0x01 && x.pos = fieldAt (f.take (f.length - 4)) 0 1 % 16 && ((f.take (f.length - 4)).drop 8).length = 4 && leNat ((f.take (f.length - 4)).drop 8) = frameCrc x.frame)
      = some w) ∧
    (∃ (l : Nat) (cs : List Nat) (f : Bytes) (w : LampWait) (s : State), frameOf cs = some f ∧ frameGood f = true ∧ fieldAt
      (f.take (f.length - 4)) 1 1 = 0x81 ∧ (∀ x ∈ waitsOn s l, x.type = 0x01 → x.pos = w.pos → leNat ((f.take (f.length -
      4)).drop 8) ≠ frameCrc x.frame) ∧ fieldAt (f.take (f.length - 4)) 0 1 % 16 = w.pos ∧ (waitsOn s l).find?
      (fun x => x.type = 0x01 && x.pos = w.pos) = some w ∧ w.resent = false) ∧
    (∃ (l : Nat) (p : Nat) (cs : List Nat) (f : Bytes) (w : LampWait) (s : State), frameOf cs = some f ∧ frameGood f = true ∧
      fieldAt (f.take (f.length - 4)) 1 1 = 0x82 ∧ fieldAt (f.take (f.length - 4)) 0 1 % 16 = p ∧ (waitsOn s l).find?
      (fun x => x.type = 0x04 && x.pos = p) = some w ∧ ((f.take (f.length - 4)).drop 8).length = 32) ∧
    (∃ (l : Nat) (p : Nat) (cs : List Nat) (f : Bytes) (s : State), frameOf cs = some f ∧ frameGood f = true ∧ fieldAt (f.take
      (f.length - 4)) 1 1 = 0x83 ∧ fieldAt (f.take (f.length - 4)) 0 1 % 16 = p ∧ aget s.lmp.probing l = some p ∧ fieldAt
      ((f.take (f.length - 4)).drop 8) 0 1 = p ∧ p + 1 < 16) ∧
    (∃ (l : Nat) (p : Nat) (cs : List Nat) (f : Bytes) (w : LampWait) (s : State), frameOf cs = some f ∧ frameGood f = true ∧
      fieldAt (f.take (f.length - 4)) 1 1 = 0x83 ∧ fieldAt (f.take (f.length - 4)) 0 1 % 16 = p ∧ aget s.lmp.probing l = none ∧
      (waitsOn s l).find? (fun x => x.type = 0x03 && x.pos = p && x.again) = some w) ∧
    (∃ (l : Nat) (w : LampWait) (rest : List LampWait) (s : State), waitsOn s l = w :: rest ∧ w.type = 0x01 ∧ w.resent = false ∧
      driverLive s l w.pos = true ∧ (driverAt s l w.pos).misses < 2) ∧
    (∃ (l : Nat) (w : LampWait) (rest : List LampWait) (s : State), waitsOn s l = w :: rest ∧ w.type = 0x01 ∧ w.resent = true) ∧
    (∃ (l : Nat) (w : LampWait) (rest : List LampWait) (s : State), waitsOn s l = w :: rest ∧ w.type = 0x04 ∧ driverLive s l
      w.pos = true ∧ 2 ≤ (driverAt s l w.pos).misses) ∧
    (∃ (l : Nat) (w : LampWait) (rest : List LampWait) (s : State), waitsOn s l = w :: rest ∧ w.type = 0x03 ∧ w.again = false ∧
      aget s.lmp.probing l = some w.pos) ∧
    (∃ (l : Nat) (p : Nat) (s : State), l ∈ lanesLive s ∧ p < 16 ∧ (driverAt s l p).lost = true) :=
  ⟨⟨31, { lamped with pnl := { lamped.pnl with state := .training, trained := true } }, by decide +kernel⟩,
   ⟨31, code10s false (frameChars ((lampBytes 0 false 15 0x81 [0, 0, 0, 0]).set 8 1)), lamped, by decide +kernel⟩,
   ⟨31, code10s false (frameChars (lampBytes 0 false 15 0x81 (toLE 4 (frameCrc (lampBytes 5 false 15 0x01 [0, 0]))))), lampBytes
     0 false 15 0x81 (toLE 4 (frameCrc (lampBytes 5 false 15 0x01 [0, 0]))),
     { pos := 15, type := 0x01, frame := lampBytes 5 false 15 0x01 [0, 0] },
     { lamped with lmp := { lamped.lmp with waits := [(31, [({ pos := 15, type := 0x01, frame := lampBytes 5 false 15 0x01 [0, 0] })])] } },
     by decide +kernel⟩,
   ⟨31, code10s false (frameChars (lampBytes 0 false 15 0x81 [0, 0, 0, 0])), lampBytes 0 false 15 0x81 [0, 0, 0, 0],
     { pos := 15, type := 0x01, frame := lampBytes 5 false 15 0x01 [0, 0] },
     { lamped with lmp := { lamped.lmp with waits := [(31, [({ pos := 15, type := 0x01, frame := lampBytes 5 false 15 0x01 [0, 0] })])] } },
     by decide +kernel⟩,
   ⟨31, 14, code10s false (frameChars (lampBytes 0 false 14 0x82 (List.replicate 32 0))), lampBytes 0 false 14 0x82
     (List.replicate 32 0), { pos := 14, type := 0x04, frame := [] },
     { lamped with lmp := { lamped.lmp with waits := [(31, [({ pos := 14, type := 0x04, frame := [] })])] } }, by decide +kernel⟩,
   ⟨31, 14, code10s false (frameChars (lampBytes 0 false 14 0x83 (toLE 1 14))), lampBytes 0 false 14 0x83 (toLE 1 14),
     { lamped with lmp := { lamped.lmp with probing := [(31, 14)] } }, by decide +kernel⟩,
   ⟨31, 14, code10s false (frameChars (lampBytes 0 false 14 0x83 (toLE 1 14))), lampBytes 0 false 14 0x83 (toLE 1 14),
     { pos := 14, type := 0x03, frame := [], again := true },
     { lamped with lmp := { lamped.lmp with waits := [(31, [({ pos := 14, type := 0x03, frame := [], again := true })])] } },
     by decide +kernel⟩,
   ⟨31, { pos := 15, type := 0x01, frame := lampBytes 5 false 15 0x01 [0, 0] }, [],
     { lamped with lmp := { lamped.lmp with waits := [(31, [({ pos := 15, type := 0x01, frame := lampBytes 5 false 15 0x01 [0, 0] })])], drivers := [(16 * 31 + 15, { found := true, misses := 1 })] } },
     by decide +kernel⟩,
   ⟨31, { pos := 15, type := 0x01, frame := lampBytes 5 false 15 0x01 [0, 0], resent := true }, [],
     { lamped with lmp := { lamped.lmp with waits := [(31, [({ pos := 15, type := 0x01, frame := lampBytes 5 false 15 0x01 [0, 0], resent := true })])], drivers := [(16 * 31 + 15, { found := true, misses := 1 })] } },
     by decide +kernel⟩,
   ⟨31, { pos := 15, type := 0x04, frame := [] }, [],
     { lamped with lmp := { lamped.lmp with waits := [(31, [({ pos := 15, type := 0x04, frame := [] })])], drivers := [(16 * 31 + 15, { found := true, misses := 2 })] } },
     by decide +kernel⟩,
   ⟨31, { pos := 15, type := 0x03, frame := [] }, [],
     { lamped with lmp := { lamped.lmp with probing := [(31, 15)], waits := [(31, [({ pos := 15, type := 0x03, frame := [] })])] } },
     by decide +kernel⟩,
   ⟨31, 15, { lamped with lmp := { lamped.lmp with drivers := [(16 * 31 + 15, { found := true, lost := true })] } },
     by decide +kernel⟩⟩

theorem test_hyps_TemperaturesAreFollowed :
    (∃ (j : Int) (s : State), isRunning s = true ∧ s.sys.stage ≠ .unpowered ∧ s.pwr.fall = .idle ∧ s.sys.heldStep = none ∧ j <
      1792) ∧
    (∃ (j : Int) (s : State), isRunning s = true ∧ s.sys.stage ≠ .unpowered ∧ s.pwr.fall = .idle ∧ s.sys.heldStep = none ∧
      s.sys.transit = none ∧ 1792 ≤ j) ∧
    (∃ (s : State), s.sys.mode ≠ .dormant ∧ 16 * (fget s.conf THM_LIMIT_THROTTLE : Int) ≤ s.thm.junction ∧ 1200 < s.thm.clock) ∧
    (∃ (s : State), s.sys.mode ≠ .dormant ∧ s.thm.junction < 16 * (fget s.conf THM_LIMIT_THROTTLE : Int) - 80 ∧ s.thm.clock <
      1800) ∧
    (∃ (s : State), 16 * (fget s.conf THM_LIMIT_THROTTLE : Int) - 80 ≤ s.thm.junction ∧ s.thm.junction < 16 * (fget s.conf
      THM_LIMIT_THROTTLE : Int)) ∧
    (∃ (_ : List (Option (Byte × Byte))) (s : State), s.sys.mode ≠ .dormant) ∧
    (∃ (_ : List (Option (Byte × Byte))) (s : State), s.sys.mode = .dormant) :=
  ⟨⟨1791, up, by decide +kernel⟩,
   ⟨1792, up, by decide +kernel⟩,
   ⟨{ up with thm := { up.thm with junction := 16 * (fget up.conf THM_LIMIT_THROTTLE : Int) } }, by decide +kernel⟩,
   ⟨{ up with thm := { up.thm with junction := 16 * (fget up.conf THM_LIMIT_THROTTLE : Int) - 81, clock := 1700 } },
     by decide +kernel⟩,
   ⟨{ up with thm := { up.thm with junction := 16 * (fget up.conf THM_LIMIT_THROTTLE : Int) - 80 } }, by decide +kernel⟩,
   ⟨[some (0x01, 0x90)], up, by decide +kernel⟩,
   ⟨[], inMode .dormant up, by decide +kernel⟩⟩

theorem test_hyps_CalibrationMeasuresTwice :
    (∃ (sq : Nat) (r : Running) (j : CalJob) (s : State), ready s .pf0 sq 0x60 = some r ∧ fieldAt r.raw 0x18 4 ≤ 3 ∧
      s.cal.waiting = [] ∧ mayStart s { target := fieldAt r.raw 0x18 4, mask := fieldAt r.raw 0x1C 4, ring := some sq } = true ∧
      j = startedJob s { target := fieldAt r.raw 0x18 4, mask := fieldAt r.raw 0x1C 4, ring := some sq } ∧ j.lanes ≠ []) ∧
    (∃ (sq : Nat) (r : Running) (s : State), ready s .pf0 sq 0x60 = some r ∧ fieldAt r.raw 0x18 4 ≤ 3 ∧ s.cal.jobs = [] ∧
      s.cal.waiting = [] ∧ (startedJob s { target := fieldAt r.raw 0x18 4, mask := fieldAt r.raw 0x1C 4, ring := some sq }).lanes
      = []) ∧
    (∃ (sq : Nat) (r : Running) (j : CalJob) (s : State), ready s .pf0 sq 0x60 = some r ∧ fieldAt r.raw 0x18 4 ≤ 3 ∧ j =
      { target := fieldAt r.raw 0x18 4, mask := fieldAt r.raw 0x1C 4, ring := some sq } ∧ (∀ x ∈ s.cal.waiting ++ [j], mayStart s
      x = false)) ∧
    (∃ (lane : Nat) (m : CalMeasure) (j : CalJob) (v : List Int) (s : State), jobOf s lane = some j ∧ laneStays s lane = true ∧
      measureDue j lane m = true ∧ measured s lane m = .ok v ∧ mget [] j.first lane = [] ∧ (∀ x ∈ s.cal.jobs, x.lanes ≠ [])) ∧
    (∃ (lane : Nat) (m : CalMeasure) (j : CalJob) (a : List Int) (v : List Int) (r : List Int) (s : State), jobOf s lane = some j
      ∧ laneStays s lane = true ∧ measureDue j lane m = true ∧ measured s lane m = .ok v ∧ mget [] j.first lane = a ∧ a ≠ [] ∧
      compareRuns lane a v = .ok r ∧ (∀ x ∈ s.cal.jobs, x.lanes.filter (· ≠ lane) ≠ [])) ∧
    (∃ (lane : Nat) (m : CalMeasure) (j : CalJob) (a : List Int) (v : List Int) (reason : Nat) (q : Nat) (s : State), jobOf s
      lane = some j ∧ laneStays s lane = true ∧ measureDue j lane m = true ∧ measured s lane m = .ok v ∧ mget [] j.first lane = a
      ∧ a ≠ [] ∧ compareRuns lane a v = .error (reason, q) ∧ (∀ x ∈ s.cal.jobs, x.lanes.filter (· ≠ lane) ≠ [])) ∧
    (∃ (lane : Nat) (e : Nat) (m : CalMeasure) (j : CalJob) (s : State), jobOf s lane = some j ∧ laneStays s lane = true ∧
      measureDue j lane m = true ∧ measured s lane m = .error e ∧ (∀ x ∈ s.cal.jobs, x.lanes.filter (· ≠ lane) ≠ [])) ∧
    (∃ (lane : Nat) (n : Nat) (m : CalMeasure) (j : CalJob) (rr : Running) (a : List Int) (v : List Int) (r : List Int) (s :
      State), s.cal.jobs = [j] ∧ j.lanes.contains lane = true ∧ laneStays s lane = true ∧ measureDue j lane m = true ∧ measured s
      lane m = .ok v ∧ mget [] j.first lane = a ∧ a ≠ [] ∧ compareRuns lane a v = .ok r ∧ j.lanes.filter (· ≠ lane) = [] ∧ j.ring
      = some n ∧ waitingOn s .pf0 n 0x60 = some rr ∧ s.cal.waiting = []) ∧
    (∃ (lane : Nat) (w : AdaptWindow) (s : State), 108 ≤ lane ∧ lane < 132 ∧ carriesData s lane = true ∧ fget s.conf
      CAL_ADAPT_DENS ≤ w.density ∧ fget s.conf CAL_ADAPT_BAL ≤ w.balance) ∧
    (∃ (lane : Nat) (w : AdaptWindow) (s : State), 108 ≤ lane ∧ lane < 132 ∧ carriesData s lane = true ∧ (w.density < fget s.conf
      CAL_ADAPT_DENS ∨ w.balance < fget s.conf CAL_ADAPT_BAL)) ∧
    (∃ (lane : Nat) (_ : AdaptWindow) (s : State), carriesData s lane = false) :=
  ⟨⟨63, cmd 0x60 [(0x18, 4, 1)], startedJob up { target := 1, ring := some 63, mask := 0 }, on .pf0 63 (cmd 0x60 [(0x18, 4, 1)])
     up, by decide +kernel⟩,
   ⟨63, cmd 0x60 [(0x18, 4, 0)], on .pf0 63 (cmd 0x60 [(0x18, 4, 0)]) up, by decide +kernel⟩,
   ⟨63, cmd 0x60 [(0x18, 4, 3)], { target := 3, mask := 0, ring := some 63 }, on .pf0 63 (cmd 0x60 [(0x18, 4, 3)])
     { up with cal := { up.cal with jobs := [{ target := 1, lanes := [108, 123] }] } }, by decide +kernel⟩,
   ⟨123, .taps 3 (List.replicate 8 3), { target := 1, lanes := [108, 123], stages := [(123, .committed)] }, nine 3,
     { up with cal := { up.cal with jobs := [({ target := 1, lanes := [108, 123], stages := [(123, .committed)] })] } },
     by decide +kernel, by decide +kernel, by decide +kernel, rfl, by decide +kernel⟩,
   ⟨123, .taps 3 (List.replicate 8 3),
     { target := 1, lanes := [108, 123], first := [(123, nine 3)], stages := [(123, .committed)] }, nine 3, nine 3, nine 3,
     { up with cal := { up.cal with jobs := [({ target := 1, lanes := [108, 123], first := [(123, nine 3)], stages := [(123, .committed)] })] } },
     by decide +kernel, by decide +kernel, by decide +kernel, rfl, by decide +kernel, by decide +kernel, rfl, by decide +kernel⟩,
   ⟨123, .taps 6 (List.replicate 8 6),
     { target := 1, lanes := [108, 123], first := [(123, nine 3)], stages := [(123, .committed)] }, nine 3, nine 6, 0, 4,
     { up with cal := { up.cal with jobs := [({ target := 1, lanes := [108, 123], first := [(123, nine 3)], stages := [(123, .committed)] })] } },
     by decide +kernel, by decide +kernel, by decide +kernel, rfl, by decide +kernel, by decide +kernel, rfl, by decide +kernel⟩,
   ⟨123, 4, .frozen, { target := 1, lanes := [108, 123], windows := [(123, 100)] },
     { up with cal := { up.cal with jobs := [({ target := 1, lanes := [108, 123], windows := [(123, 100)] })] } },
     by decide +kernel, by decide +kernel, by decide +kernel, rfl, by decide +kernel⟩,
   ⟨123, 63, .taps 3 (List.replicate 8 3),
     { target := 1, ring := some 63, lanes := [123], first := [(123, nine 3)], stages := [(123, .committed)] },
     { cmd 0x60 [(0x18, 4, 1)] with waiting := true }, nine 3, nine 3, nine 3, on .pf0 63
     ({ cmd 0x60 [(0x18, 4, 1)] with waiting := true })
     { up with cal := { up.cal with jobs := [({ target := 1, ring := some 63, lanes := [123], first := [(123, nine 3)], stages := [(123, .committed)] })] } },
     by decide +kernel, by decide +kernel, by decide +kernel, by decide +kernel, rfl, by decide +kernel, by decide +kernel, rfl,
     by decide +kernel⟩,
   ⟨123, { density := 255, balance := 255, ctle := 0, dfe := [], resid := 0 }, up, by decide +kernel⟩,
   ⟨123, { density := 0, balance := 255, ctle := 0, dfe := [], resid := 0 }, up, by decide +kernel⟩,
   ⟨131, { density := 255, balance := 255, ctle := 0, dfe := [], resid := 0 }, up, by decide +kernel⟩⟩

theorem test_hyps_StatisticsAreGathered :
    (∃ (y : Nat) (k : Nat) (f : Frame) (c : Conf) (s : State), c = statsConf s ∧ statsFrame s = some f ∧ s.gz.opened = true ∧ y <
      tH c ∧ k < 192 ∧ (idleStripes s).contains k = false ∧ mget 0 s.gz.progress k = y ∧ landed s f y = true ∧ s.pwr.fall =
      .idle) ∧
    (∃ (y : Nat) (k : Nat) (s : State), ((idleStripes s).contains k = true ∨ mget 0 s.gz.progress k ≠ y)) ∧
    (∃ (row : Nat) (k : Nat) (fe : Nat) (c : Conf) (s : State), c = statsConf s ∧ row < gRows c ∧ k < 192 ∧ (idleStripes
      s).contains k = false ∧ rowOpen s row fe = true ∧ rowTop c (row + 1) ≤ mget 0 s.gz.progress k ∧ mget false s.gz.merged (192
      * row + k) = false ∧ mget 0 s.gz.merges row + 1 ≠ 192) ∧
    (∃ (row : Nat) (k : Nat) (fe : Nat) (c : Conf) (s : State), c = statsConf s ∧ row < gRows c ∧ k < 192 ∧ (idleStripes
      s).contains k = false ∧ rowOpen s row fe = true ∧ rowTop c (row + 1) ≤ mget 0 s.gz.progress k ∧ mget false s.gz.merged (192
      * row + k) = false ∧ mget 0 s.gz.merges row + 1 = 192) ∧
    (∃ (row : Nat) (k : Nat) (fe : Nat) (s : State), row < gRows (statsConf s) ∧ k < 192 ∧ (idleStripes s).contains k = false ∧
      rowOpen s row fe = false) ∧
    (∃ (row : Nat) (k : Nat) (fe : Nat) (s : State), ((idleStripes s).contains k = true ∨ (rowOpen s row fe = true ∧ (mget 0
      s.gz.progress k < rowTop (statsConf s) (row + 1) ∨ mget false s.gz.merged (192 * row + k) = true)))) ∧
    (∃ (p : Nat) (row : Nat) (_ : List Nat) (s : State), haloOn s p = true ∧ row < gRows s.conf) ∧
    (∃ (p : Nat) (fe : Nat) (row : Nat) (_ : List Nat) (s : State), haloOn s p = true ∧ row < gRows s.conf ∧ fe + 1 =
      s.gz.openFe) ∧
    (∃ (p : Nat) (row : Nat) (_ : List Nat) (s : State), haloOn s p = true ∧ row < gRows s.conf) ∧
    (∃ (p : Nat) (fe : Nat) (row : Nat) (_ : List Nat) (s : State), haloOn s p = true ∧ row < gRows s.conf ∧ fe + 1 = s.sys.fe) :=
  ⟨⟨63, 191, { contents := [{}] }, statsConf ({ gauzed with gz := { gauzed.gz with progress := [(191, 63)] } }),
     { gauzed with gz := { gauzed.gz with progress := [(191, 63)] } }, by decide +kernel⟩,
   ⟨63, 191, gauzed, by decide +kernel⟩,
   ⟨1, 191, 5, statsConf ({ gauzed with gz := { gauzed.gz with progress := [(191, 64)] } }),
     { gauzed with gz := { gauzed.gz with progress := [(191, 64)] } }, by decide +kernel⟩,
   ⟨1, 191, 5, statsConf ({ gauzed with gz := { gauzed.gz with progress := [(191, 64)], merges := [(1, 191)] } }),
     { gauzed with gz := { gauzed.gz with progress := [(191, 64)], merges := [(1, 191)] } }, by decide +kernel⟩,
   ⟨1, 191, 6, gauzed, by decide +kernel⟩,
   ⟨1, 191, 5, gauzed, by decide +kernel⟩,
   ⟨1, 1, [], field GNG_CTRL_HALO_E 1 { gauzed with gng := { gauzed.gng with ports := [(1, { state := .up })] } },
     by decide +kernel⟩,
   ⟨1, 4, 1, [], field GNG_CTRL_HALO_E 1 { gauzed with gng := { gauzed.gng with ports := [(1, { state := .up })] } },
     by decide +kernel⟩,
   ⟨1, 1, [], field GNG_CTRL_HALO_E 1 { gauzed with gng := { gauzed.gng with ports := [(1, { state := .up })] } },
     by decide +kernel⟩,
   ⟨1, 4, 1, [], field GNG_CTRL_HALO_E 1 { gauzed with gng := { gauzed.gng with ports := [(1, { state := .up })] } },
     by decide +kernel⟩⟩

theorem test_hyps_ZonesCommitAndTakeOverrides :
    (∃ (s : State), gauzeOn s = true ∧ s.gz.rowsDone < gRows s.conf ∧ commitReady s s.gz.rowsDone = true ∧ ringRoom s
      s.gz.rowsDone (runOf s.conf s.gz.rowsDone).2 = true) ∧
    (∃ (row : Nat) (s : State), gauzeOn s = true ∧ row < gRows s.conf) ∧
    (∃ (row : Nat) (s : State), row < s.gz.rowsDone) ∧
    (∃ (sq : Nat) (fe : Nat) (data : Rd) (r : Running) (s : State), ready s .pf0 sq 0x50 = some r ∧ busMaster s .pf0 = true ∧ bit
      (fieldAt r.raw 0x30 4) 0 = false ∧ zoneRangeBad s.conf (fieldAt r.raw 0x18 4) (fieldAt r.raw 0x1C 4) = none ∧ armFe
      s.sys.fe (fieldAt r.raw 0x28 8) 2 = some fe ∧ data.ok = true ∧ 2 * fieldAt r.raw 0x1C 4 ≤ data.bytes.length) ∧
    (∃ (sq : Nat) (fe : Nat) (r : Running) (s : State), ready s .pf0 sq 0x50 = some r ∧ bit (fieldAt r.raw 0x30 4) 0 = true ∧
      zoneRangeBad s.conf (fieldAt r.raw 0x18 4) (fieldAt r.raw 0x1C 4) = none ∧ armFe s.sys.fe (fieldAt r.raw 0x28 8) 2 = some
      fe) ∧
    (∃ (sq : Nat) (data : Rd) (r : Running) (s : State), ready s .pf0 sq 0x50 = some r ∧ busMaster s .pf0 = true ∧ bit (fieldAt
      r.raw 0x30 4) 0 = false ∧ zoneRangeBad s.conf (fieldAt r.raw 0x18 4) (fieldAt r.raw 0x1C 4) = none ∧ armFe s.sys.fe
      (fieldAt r.raw 0x28 8) 2 = none ∧ data.ok = true) ∧
    (∃ (sq : Nat) (r : Running) (s : State), ready s .pf0 sq 0x51 = some r ∧ zoneRangeBad s.conf (fieldAt r.raw 0x18 4) (fieldAt
      r.raw 0x1C 4) = none ∧ fieldAt r.raw 0x28 4 ≤ 2) ∧
    (∃ (_ : Nat) (o : Nat) (_ : Rd) (r : Running) (s : State), zoneRangeBad s.conf (fieldAt r.raw 0x18 4) (fieldAt r.raw 0x1C 4)
      = some o) ∧
    (∃ (sq : Nat) (r : Running) (s : State), ready s .pf0 sq 0x51 = some r ∧ zoneRangeBad s.conf (fieldAt r.raw 0x18 4) (fieldAt
      r.raw 0x1C 4) = none ∧ 2 < fieldAt r.raw 0x28 4) ∧
    (∃ (a : OverrideArm) (s : State), ownFrameTick s = true ∧ changeDue s = false ∧ s.gng.arms = [] ∧ s.gz.arms = [a] ∧ a.fe ≤
      s.sys.fe + 1) ∧
    (∃ (a : OverrideArm) (s : State), ownFrameTick s = true ∧ changeDue s = false ∧ s.gng.arms = [] ∧ s.gz.arms = [a] ∧ s.sys.fe
      + 1 < a.fe) :=
  ⟨⟨gauzed, by decide +kernel⟩,
   ⟨1, gauzed, by decide +kernel⟩,
   ⟨0, { gauzed with gz := { gauzed.gz with rowsDone := 1 } }, by decide +kernel⟩,
   ⟨63, 7, got 2, cmd 0x50 [(0x18, 4, 1), (0x1C, 4, 1), (0x28, 8, 7), (0x30, 4, 0)], on .pf0 63 (cmd 0x50 [(0x18, 4, 1), (0x1C,
     4, 1), (0x28, 8, 7), (0x30, 4, 0)]) gauzed, by decide +kernel⟩,
   ⟨63, 7, cmd 0x50 [(0x18, 4, 0), (0x1C, 4, 2), (0x28, 8, 0), (0x30, 4, 1)], on .pf0 63 (cmd 0x50 [(0x18, 4, 0), (0x1C, 4, 2),
     (0x28, 8, 0), (0x30, 4, 1)]) gauzed, by decide +kernel⟩,
   ⟨63, got 4, cmd 0x50 [(0x18, 4, 0), (0x1C, 4, 2), (0x28, 8, 6), (0x30, 4, 0)], on .pf0 63 (cmd 0x50 [(0x18, 4, 0), (0x1C, 4,
     2), (0x28, 8, 6), (0x30, 4, 0)]) gauzed, by decide +kernel⟩,
   ⟨63, cmd 0x51 [(0x18, 4, 1), (0x1C, 4, 1), (0x28, 4, 2)], on .pf0 63 (cmd 0x51 [(0x18, 4, 1), (0x1C, 4, 1), (0x28, 4, 2)])
     gauzed, by decide +kernel⟩,
   ⟨63, 0x1C, got 4, cmd 0x50 [(0x18, 4, 0), (0x1C, 4, 3), (0x28, 8, 7), (0x30, 4, 0)], on .pf0 63 (cmd 0x50 [(0x18, 4, 0),
     (0x1C, 4, 3), (0x28, 8, 7), (0x30, 4, 0)]) gauzed, by decide +kernel⟩,
   ⟨63, cmd 0x51 [(0x18, 4, 1), (0x1C, 4, 1), (0x28, 4, 3)], on .pf0 63 (cmd 0x51 [(0x18, 4, 1), (0x1C, 4, 1), (0x28, 4, 3)])
     gauzed, by decide +kernel⟩,
   ⟨{ fe := 6, first := 0, count := 2, levels := some [7, 9] },
     (let s := { gauzed with tmg := { up.tmg with running := true, slot := 999, nextFt := some 1000 } }; { s with gz := { s.gz with arms := [({ fe := 6, first := 0, count := 2, levels := some [7, 9] })] } } : State),
     by decide +kernel⟩,
   ⟨{ fe := 7, first := 0, count := 2, levels := none },
     (let s := { gauzed with tmg := { up.tmg with running := true, slot := 999, nextFt := some 1000 } }; { s with gz := { s.gz with arms := [({ fe := 7, first := 0, count := 2, levels := none })] } } : State),
     by decide +kernel⟩⟩

theorem test_hyps_BandsArePushedReadAndJudged :
    (∃ (slot : Nat) (h : Bytes) (stream : Option Nat) (s : State), hostUp s = true ∧ judgeHeader s slot (h.take 32) = none ∧
      streamOk s (fieldAt (h.take 32) 8 8) (bits (fieldAt (h.take 32) 2 1) 0 2) (secureStream s stream) = true ∧ isPoisoned s
      (slotAddr s.conf slot / 4096) = false) ∧
    (∃ (slot : Nat) (h : Bytes) (stream : Option Nat) (s : State), hostUp s = true ∧ judgeHeader s slot (h.take 32) = none ∧
      streamOk s (fieldAt (h.take 32) 8 8) (bits (fieldAt (h.take 32) 2 1) 0 2) (secureStream s stream) = false) ∧
    (∃ (slot : Nat) (h : Bytes) (_ : Option Nat) (d : PushDrop) (begins : Bool) (s : State), hostUp s = true ∧ judgeHeader s slot
      (h.take 32) = some (d, begins)) ∧
    (∃ (slot : Nat) (off : Nat) (d : Bytes) (stream : Option Nat) (s : State), hostUp s = true ∧ slot < pushSlots s.conf ∧
      (pushSlotOf s slot).used = true ∧ (pushSlotOf s slot).accepts = true ∧ off < (pushSlotOf s slot).len ∧ d.length ≤
      (pushSlotOf s slot).len - off ∧ streamOk s (pushSlotOf s slot).fe (pushSlotOf s slot).layer (secureStream s stream) = true
      ∧ (∀ p ∈ pagesOf (slotAddr s.conf slot + 4096 + off) d.length, isPoisoned s p = false)) ∧
    (∃ (slot : Nat) (off : Nat) (_ : Bytes) (stream : Option Nat) (s : State), hostUp s = true ∧ (pushSlots s.conf ≤ slot ∨
      (pushSlotOf s slot).accepts = false ∨ (pushSlotOf s slot).len ≤ off ∨ streamOk s (pushSlotOf s slot).fe (pushSlotOf s
      slot).layer (secureStream s stream) = false)) ∧
    (∃ (r : ReadRef) (data : Rd) (f : Frame) (l : Layer) (s : State), s.pwr.fall = .idle ∧ s.ing.owed.any (awaits r) = false ∧
      s.ing.shown = some f ∧ f.host = true ∧ f.fe = r.fe ∧ (frameBands f).find?
      (fun p => p.1 = r.layer && p.2.1 = r.band && p.2.2.source = 0) = some (r.layer, r.band, l) ∧ bandStatus f r.layer r.band =
      .reading ∧ readWhole l r.band data = true) ∧
    (∃ (r : ReadRef) (data : Rd) (f : Frame) (l : Layer) (s : State), s.pwr.fall = .idle ∧ s.ing.owed.any (awaits r) = false ∧
      s.ing.shown = some f ∧ f.host = true ∧ f.fe = r.fe ∧ (frameBands f).find?
      (fun p => p.1 = r.layer && p.2.1 = r.band && p.2.2.source = 0) = some (r.layer, r.band, l) ∧ bandStatus f r.layer r.band =
      .reading ∧ readWhole l r.band data = false) ∧
    (∃ (r : ReadRef) (_ : Rd) (f : Frame) (l : Layer) (s : State), s.pwr.fall = .idle ∧ s.ing.owed.any (awaits r) = false ∧
      s.ing.shown = some f ∧ f.host = true ∧ f.fe = r.fe ∧ (frameBands f).find?
      (fun p => p.1 = r.layer && p.2.1 = r.band && p.2.2.source = 0) = some (r.layer, r.band, l) ∧ bandStatus f r.layer r.band =
      .abandoned) ∧
    (∃ (r : BandRef) (f : Frame) (l : Layer) (s : State), s.ing.shown = some f ∧ (bandsDue s f).filter
      (fun p => p.1 = r.layer && p.2.1 = r.band) = [(r.layer, r.band, l)] ∧ l.source ≠ 1 ∧ bandStatus f r.layer r.band =
      .present) ∧
    (∃ (r : BandRef) (f : Frame) (l : Layer) (k : Nat) (p : PushSlot) (s : State), s.ing.shown = some f ∧ (bandsDue s f).filter
      (fun p => p.1 = r.layer && p.2.1 = r.band) = [(r.layer, r.band, l)] ∧ l.source = 1 ∧ slotFor s f r.layer r.band = some (k,
      p) ∧ slotPresent l r.band p = true) ∧
    (∃ (r : BandRef) (f : Frame) (l : Layer) (s : State), s.ing.shown = some f ∧ (bandsDue s f).filter
      (fun p => p.1 = r.layer && p.2.1 = r.band) = [(r.layer, r.band, l)] ∧ (l.source ≠ 1 → bandStatus f r.layer r.band ≠
      .present) ∧ (l.source = 1 → ∀ k p, slotFor s f r.layer r.band = some (k, p) → slotPresent l r.band p = false)) ∧
    (∃ (r : BandRef) (s : State), (∀ f, s.ing.shown = some f → (bandsDue s f).filter (fun p => p.1 = r.layer && p.2.1 = r.band) =
      [])) :=
  ⟨⟨0, header, none, pushing, by decide +kernel⟩,
   ⟨0, header, none,
     { pushing with ing := { pushing.ing with shown := some { host := true, fe := 5, contents := [{ layers := [{ pulled with source := 1, isProtected := true, stream := 3 }] }] } } },
     by decide +kernel⟩,
   ⟨1, header, none, .misplaced, false, pushing, by decide +kernel⟩,
   ⟨3, 8, List.replicate 8 0, none,
     { pushing with ing := { pushing.ing with push := [(3, { used := true, accepts := true, fe := 5, len := 16 })] } },
     by decide +kernel⟩,
   ⟨4, 0, [], none, pushing, by decide +kernel⟩,
   ⟨⟨0, 0, 1⟩, got 4096, pulling .reading, pulled, ingesting .reading, by decide +kernel⟩,
   ⟨⟨0, 0, 1⟩, got 0, pulling .reading, pulled, ingesting .reading, by decide +kernel⟩,
   ⟨⟨0, 0, 1⟩, got 4096, pulling .abandoned, pulled, ingesting .abandoned, by decide +kernel⟩,
   ⟨⟨0, 1⟩, pulling .present, pulled,
     (let s := ingesting .present; { s with tmg := { s.tmg with slot := engineSlot s.conf 32 } } : State), by decide +kernel⟩,
   ⟨⟨0, 1⟩, { host := true, scans := 1, contents := [{ layers := [{ pulled with source := 1 }] }] }, { pulled with source := 1 },
     3, { used := true, band := 1, complete := true, len := bandBytes pulled 1 },
     (let s := field TMG_ACTIVE_W 64 (field TMG_ACTIVE_H 64 { pushing with ing := { pushing.ing with shown := some { host := true, scans := 1, contents := [{ layers := [{ pulled with source := 1 }] }] }, push := [((3), ({ used := true, band := 1, complete := true, len := bandBytes pulled 1 }))] } }); { s with tmg := { s.tmg with slot := engineSlot s.conf 32 } } : State),
     by decide +kernel⟩,
   ⟨⟨0, 1⟩, pulling .reading, pulled,
     (let s := ingesting .reading; { s with tmg := { s.tmg with slot := engineSlot s.conf 32 } } : State), by decide +kernel,
     by decide +kernel, (fun _ => by decide +kernel), (fun h => absurd h (by decide +kernel))⟩,
   ⟨⟨0, 1⟩, ingesting .reading, (fun f h => by cases h; decide +kernel)⟩⟩

theorem test_hyps_Bar4ReachesModuleMemory :
    (∃ (off : Nat) (n : Nat) (s : State), hostUp s = true ∧ off + n ≤ 2 ^ s.hif.bar4Log2 ∧ (∀ p ∈ pagesOf (bar4Addr s off) n,
      reachOf s p = .plain ∧ isPoisoned s p = false)) ∧
    (∃ (off : Nat) (n : Nat) (s : State), hostUp s = true ∧ off + n ≤ 2 ^ s.hif.bar4Log2 ∧ (∀ p ∈ pagesOf (bar4Addr s off) n,
      reachOf s p ≠ .plain)) ∧
    (∃ (off : Nat) (n : Nat) (s : State), hostUp s = true ∧ off + n ≤ 2 ^ s.hif.bar4Log2 ∧ (∃ p ∈ pagesOf (bar4Addr s off) n,
      reachOf s p = .plain ∧ isPoisoned s p = true)) ∧
    (∃ (off : Nat) (d : Bytes) (s : State), hostUp s = true ∧ off + d.length ≤ 2 ^ s.hif.bar4Log2 ∧ (∀ p ∈ pagesOf (bar4Addr s
      off) d.length, reachOf s p = .plain ∧ isPoisoned s p = false)) ∧
    (∃ (off : Nat) (d : Bytes) (s : State), hostUp s = true ∧ off + d.length ≤ 2 ^ s.hif.bar4Log2 ∧ (∀ p ∈ pagesOf (bar4Addr s
      off) d.length, reachOf s p = .reserved ∨ reachOf s p = .guarded)) ∧
    (∃ (_ : Nat) (_ : Bytes) (s : State), hostUp s = true) ∧
    (∃ (_ : Nat) (_ : Nat) (_ : Bytes) (s : State), hostUp s = true) :=
  ⟨⟨0xFFFFFF8, 8, up, by decide +kernel⟩,
   ⟨0, 8, { up with mem := { up.mem with guarded := [(0, true)] } }, by decide +kernel⟩,
   ⟨0, 8, { up with mem := { up.mem with poison := [(0, 65535)] } }, by decide +kernel, by decide +kernel, ⟨0, by decide +kernel,
     by decide +kernel⟩⟩,
   ⟨0xFFFFFF8, (got 8).bytes, up, by decide +kernel⟩,
   ⟨0, (got 8).bytes, { up with mem := { up.mem with guarded := [(0, true)] } }, by decide +kernel⟩,
   ⟨0, (got 8).bytes, up, by decide +kernel⟩,
   ⟨0, 8, (got 8).bytes, up, by decide +kernel⟩⟩

theorem test_hyps_TicksMoveTheScan :
    (∃ (s : State), ownFrameTick s = true) ∧
    (∃ (s : State), (s.tmg.running = false ∨ s.tmg.nextFt ≠ some (s.tmg.slot + 1))) ∧
    (∃ (_ : LineEnv) (s : State), s.tmg.running = true ∧ s.tmg.fresh = false ∧ s.tmg.nextFt ≠ some (s.tmg.slot + 1)) ∧
    (∃ (_ : LineEnv) (s : State), s.tmg.running = true ∧ s.tmg.fresh = true ∧ s.tmg.nextFt ≠ some (s.tmg.slot + 1)) ∧
    (∃ (_ : LineEnv) (s : State), (s.tmg.running = false ∨ s.tmg.nextFt = some (s.tmg.slot + 1))) ∧
    (∃ (_ : Rd) (s : State), s.sys.mode = .live ∧ stopping s = false ∧ s.tmg.running = true ∧ s.tmg.fresh = false ∧ hasTiming
      s.conf = true ∧ tFixed s.conf = false ∧ fbit s.conf OD_CTRL_SETTLE_EN = true ∧ s.od.settle = false ∧ s.tmg.nextFt = none ∧
      s.tmg.settled = false ∧ s.tmg.slot = max (decisionSlot s.conf) (usSlots s.conf ((3 * s.od.pred + 1) / 2)) ∧ ownStarts s =
      true) ∧
    (∃ (_ : Rd) (s : State), (s.sys.mode ≠ .live ∨ s.tmg.running = false ∨ s.tmg.fresh = true ∨ tFixed s.conf = true ∨ fbit
      s.conf OD_CTRL_SETTLE_EN = false ∨ s.od.settle = true ∨ s.tmg.nextFt ≠ none ∨ s.tmg.settled = true ∨ ownStarts s = false ∨
      s.tmg.slot ≠ max (decisionSlot s.conf) (usSlots s.conf ((3 * s.od.pred + 1) / 2)))) ∧
    (∃ (s : State), s.tmg.running = true ∧ s.tmg.fresh = false ∧ fbit s.conf LMP_CTRL_EN = true ∧ 0 < cycleLines s.conf ∧
      s.lmp.ticks = cycleLines s.conf) ∧
    (∃ (s : State), (s.tmg.running = false ∨ s.tmg.fresh = true ∨ fbit s.conf LMP_CTRL_EN = false ∨ cycleLines s.conf = 0 ∨
      s.lmp.ticks ≠ cycleLines s.conf)) ∧
    (∃ (y : Nat) (k : Nat) (_ : Bool) (_ : Bool) (s : State), s.pwr.fall = .idle ∧ s.pix.lines.any (fun p => p.1 = y) = true ∧ k
      < 192 ∧ mget false s.pix.lite (65536 * k + y) = false) ∧
    (∃ (y : Nat) (k : Nat) (_ : Bool) (_ : Bool) (s : State), (s.pwr.fall ≠ .idle ∨ s.pix.lines.any (fun p => p.1 = y) = false ∨
      192 ≤ k ∨ mget false s.pix.lite (65536 * k + y) = true)) ∧
    (∃ (env : LineEnv) (y : Nat) (f : Frame) (s : State), steadyTick env s = true ∧ s.ing.shown = some f ∧ bandsDue s f = [] ∧
      engineLineNow s = some y ∧ lineOfSlot s.conf (s.tmg.slot + 1) ≠ some y ∧ fbit s.conf GZ_CTRL_EN = false ∧ noneBad s.mem =
      true ∧ idleStripes s = []) ∧
    (∃ (env : LineEnv) (y : Nat) (k : Nat) (b : LineBuf) (s : State), (∀ f, s.ing.shown = some f → bandsDue s f = []) ∧
      steadyTick env s = true ∧ (engineLineNow s = none ∨ (noneBad s.mem = true ∧ idleStripes s = [] ∧ engineLineNow s ≠ some y))
      ∧ s.ing.push = [] ∧ s.pnl.discharging = false ∧ fbit s.conf GZ_CTRL_EN = false ∧ lineOfSlot s.conf (s.tmg.slot + 1) = some
      y ∧ emits s y = true ∧ b = mget {} s.pix.lines y ∧ k = bandOfLine s.conf y ∧ (∀ j < 64, bandTop s.conf (j + 1) ≠ y)) ∧
    (∃ (k : Nat) (pi : Bool) (temporal : Bool) (s : State), ownFrameTick s = true ∧ changeDue s = false ∧ s.gng.arms = [] ∧
      s.sys.mode = .live ∧ s.sys.transit = none ∧ s.cue.coming = none ∧ s.cue.arm = none ∧ s.tmg.latched = true ∧ s.tmg.fresh =
      false ∧ s.pnl.state = .on ∧ islandBlind s = false ∧ hasTiming s.conf = true ∧ 0 < tVstart s.conf ∧ k < 64 ∧ pi = (if slips
      s.conf (dcBand s k) then (dcBand s k).pi else !(dcBand s k).pi) ∧ temporal = (fbit s.conf PIX_DITHER_TEMPORAL && !(isHeld s
      (frameClocks s)))) :=
  ⟨⟨{ up with tmg := { up.tmg with running := true, slot := 999, nextFt := some 1000 } }, by decide +kernel⟩,
   ⟨up, by decide +kernel⟩,
   ⟨{ table := got 0, pinEcho := [], checkers := [], linen := [] },
     { up with tmg := { up.tmg with running := true, fresh := false, slot := 998, nextFt := some 1000 } }, by decide +kernel⟩,
   ⟨{ table := got 0, pinEcho := [], checkers := [], linen := [] },
     { up with tmg := { up.tmg with running := true, fresh := true, slot := 998, nextFt := some 1000 } }, by decide +kernel⟩,
   ⟨{ table := got 0, pinEcho := [], checkers := [], linen := [] }, up, by decide +kernel⟩,
   ⟨got 0,
     (let s := field TMG_ACTIVE_W 64 (field TMG_ACTIVE_H 64 (field TMG_VRR_FIXED 0 (field OD_CTRL_SETTLE_EN 1 up))); { s with tmg := { s.tmg with running := true, fresh := false, slot := max (decisionSlot s.conf) (usSlots s.conf ((3 * s.od.pred + 1) / 2)) } } : State),
     by decide +kernel⟩,
   ⟨got 0, up, by decide +kernel⟩,
   ⟨field LMP_CYCLE_LINES 500
     { lamped with tmg := { lamped.tmg with running := true, fresh := false }, lmp := { lamped.lmp with ticks := 500 } },
     by decide +kernel⟩,
   ⟨up, by decide +kernel⟩,
   ⟨63, 191, true, true, { up with pix := { up.pix with lines := [(63, {})] } }, by decide +kernel⟩,
   ⟨63, 191, true, true, up, by decide +kernel⟩,
   ⟨{ table := got 0, pinEcho := [], checkers := [], linen := [] }, 40, { contents := [{}] }, scanning 40, by decide +kernel⟩,
   ⟨{ table := got 0, pinEcho := [], checkers := [], linen := [] }, 33, 16, {}, emitting,
     (fun f h => by cases h; decide +kernel), by decide +kernel⟩,
   ⟨63, false, true, ticking, by decide +kernel⟩⟩

theorem test_hyps_WallPortsComeUp :
    (∃ (p : Nat) (s : State), (gngPort s p).state = .lock) ∧
    (∃ (p : Nat) (s : State), (gngPort s p).state = .deskew) ∧
    (∃ (p : Nat) (_ : Nat) (s : State), ((gngPort s p).state = .probe ∨ (gngPort s p).state = .greeting ∨ (gngPort s p).state =
      .up)) ∧
    (∃ (p : Nat) (_ : Nat) (_ : Nat) (s : State), (gngPort s p).state = .probe) ∧
    (∃ (p : Nat) (_ : Nat) (_ : Nat) (s : State), (gngPort s p).state ≠ .probe) ∧
    (∃ (p : Nat) (_ : Nat) (m : HelloMsg) (s : State), (gngPort s p).state = .greeting ∧ faced s.conf p = ((m.x : Int), (m.y :
      Int))) ∧
    (∃ (p : Nat) (_ : Nat) (m : HelloMsg) (s : State), (gngPort s p).state = .greeting ∧ faced s.conf p ≠ ((m.x : Int), (m.y :
      Int))) ∧
    (∃ (p : Nat) (_ : Nat) (_ : HelloMsg) (s : State), (gngPort s p).state = .up) ∧
    (∃ (p : Nat) (_ : Nat) (_ : HelloMsg) (s : State), (gngPort s p).state ≠ .greeting ∧ (gngPort s p).state ≠ .up) ∧
    (∃ (p : Nat) (s : State), (gngPort s p).state ≠ .up ∧ (gngPort s p).state ≠ .disabled ∧ (gngPort s p).state ≠ .backoff) ∧
    (∃ (p : Nat) (s : State), (gngPort s p).state = .up) ∧
    (∃ (p : Nat) (s : State), (gngPort s p).state = .backoff) ∧
    (∃ (p : Nat) (s : State), (gngPort s p).state ≠ .backoff) :=
  ⟨⟨1, facing .lock, by decide +kernel⟩,
   ⟨1, facing .deskew, by decide +kernel⟩,
   ⟨1, 100, facing .up, by decide +kernel⟩,
   ⟨1, 60, 50, facing .probe, by decide +kernel⟩,
   ⟨1, 60, 50, facing .up, by decide +kernel⟩,
   ⟨1, 2, hi 2 0, facing .greeting, by decide +kernel⟩,
   ⟨1, 2, hi 2 1, facing .greeting, by decide +kernel⟩,
   ⟨1, 2, hi 2 0, facing .up, by decide +kernel⟩,
   ⟨1, 2, hi 2 0, facing .lock, by decide +kernel⟩,
   ⟨1, facing .probe, by decide +kernel⟩,
   ⟨1, facing .up, by decide +kernel⟩,
   ⟨1, facing .backoff, by decide +kernel⟩,
   ⟨1, facing .up, by decide +kernel⟩⟩

theorem test_hyps_TheWallKeepsTimeAndTrust :
    (∃ (p : Nat) (m : HelloMsg) (s : State), s.gng.role = .joining ∧ runningPart s = some (p, m)) ∧
    (∃ (s : State), s.gng.role = .joining ∧ runningPart s = none ∧ s.gng.tk ≠ tileIndex s.conf) ∧
    (∃ (s : State), s.gng.role = .joining ∧ runningPart s = none ∧ s.gng.tk = tileIndex s.conf ∧ eligible s = true) ∧
    (∃ (s : State), s.gng.role = .joining ∧ runningPart s = none ∧ s.gng.tk = tileIndex s.conf ∧ eligible s = false) ∧
    (∃ (s : State), s.gng.role ≠ .joining) ∧
    (∃ (p : Nat) (s : State), (follows s = true ∨ s.gng.adopt ≠ none) ∧ p = s.gng.upstream ∧ (upPorts s).contains p = true) ∧
    (∃ (p : Nat) (s : State), (p ≠ s.gng.upstream ∨ (upPorts s).contains p = false ∨ (follows s = false ∧ s.gng.adopt = none))) ∧
    (∃ (p : Nat) (src : Nat) (n : Nat) (fe : Nat) (v : Nat) (d : Nat) (s : State), (upPorts s).contains p = true ∧ src ≠
      tileIndex s.conf ∧ (mget 0 s.gng.seqs (256 * 0x04 + src) = 0 ∨ newerSeq n (mget 0 s.gng.seqs (256 * 0x04 + src) - 1) =
      true) ∧ s.gng.history.find? (fun h => h.1 = fe) = some (fe, d) ∧ d ≠ v) ∧
    (∃ (p : Nat) (src : Nat) (n : Nat) (fe : Nat) (v : Nat) (s : State), (upPorts s).contains p = true ∧ src ≠ tileIndex s.conf ∧
      (mget 0 s.gng.seqs (256 * 0x04 + src) = 0 ∨ newerSeq n (mget 0 s.gng.seqs (256 * 0x04 + src) - 1) = true) ∧
      s.gng.history.find? (fun h => h.1 = fe) = some (fe, v)) ∧
    (∃ (p : Nat) (src : Nat) (n : Nat) (fe : Nat) (_ : Nat) (s : State), (upPorts s).contains p = true ∧ src ≠ tileIndex s.conf ∧
      (mget 0 s.gng.seqs (256 * 0x04 + src) = 0 ∨ newerSeq n (mget 0 s.gng.seqs (256 * 0x04 + src) - 1) = true) ∧
      s.gng.history.find? (fun h => h.1 = fe) = none) ∧
    (∃ (p : Nat) (src : Nat) (n : Nat) (_ : Nat) (_ : Nat) (s : State), (upPorts s).contains p = true ∧ (src = tileIndex s.conf ∨
      (mget 0 s.gng.seqs (256 * 0x04 + src) ≠ 0 ∧ newerSeq n (mget 0 s.gng.seqs (256 * 0x04 + src) - 1) = false))) ∧
    (∃ (p : Nat) (_ : Nat) (_ : Nat) (_ : Nat) (_ : Nat) (s : State), (upPorts s).contains p = false) ∧
    (∃ (p : Nat) (_ : Bytes) (s : State), ((gngPort s p).state = .up ∨ (gngPort s p).state = .greeting)) ∧
    (∃ (p : Nat) (nonce : Bytes) (sig : Bytes) (life : Byte) (slots : List Bytes) (verified : Nat) (differ : Nat) (s : State),
      (upPorts s).contains p = true ∧ verified = (if mget [] s.sec.pins p = [] then 2 else b2n ((gngPort s p).nonce = some nonce
      && Config.ecdsaOk (mget [] s.sec.pins p) (measDigest nonce life slots) sig)) ∧ differ = ofBits ((bitList (fget s.conf
      GNG_CTRL_MEAS_MASK) 8).filter (fun k => slots.getD k [] ≠ measSlot s k))) :=
  ⟨⟨1, hi 2 0,
     { walled with gng := { walled.gng with role := .joining, ports := [(1, { state := .up, hello := some (2, hi 2 0) })] } },
     by decide +kernel⟩,
   ⟨{ walled with gng := { walled.gng with role := .joining, tk := 2 } }, by decide +kernel⟩,
   ⟨field GNG_CTRL_TK_ELIGIBLE 1 { walled with gng := { walled.gng with role := .joining } }, by decide +kernel⟩,
   ⟨field GNG_CTRL_TK_ELIGIBLE 0 { walled with gng := { walled.gng with role := .joining } }, by decide +kernel⟩,
   ⟨walled, by decide +kernel⟩,
   ⟨1, { walled with gng := { walled.gng with role := .follower, tk := 2, upstream := 1 } }, by decide +kernel⟩,
   ⟨2, { walled with gng := { walled.gng with role := .follower, tk := 2, upstream := 1 } }, by decide +kernel⟩,
   ⟨1, 63, 4, 5, 12, 11, { walled with gng := { walled.gng with history := [(5, 11)] } }, by decide +kernel⟩,
   ⟨1, 63, 4, 5, 11, { walled with gng := { walled.gng with history := [(5, 11)] } }, by decide +kernel⟩,
   ⟨1, 63, 4, 6, 11, { walled with gng := { walled.gng with history := [(5, 11)] } }, by decide +kernel⟩,
   ⟨1, 1, 4, 5, 11, { walled with gng := { walled.gng with history := [(5, 11)] } }, by decide +kernel⟩,
   ⟨2, 63, 4, 5, 11, { walled with gng := { walled.gng with history := [(5, 11)] } }, by decide +kernel⟩,
   ⟨1, [7], walled, by decide +kernel⟩,
   ⟨1, [7], [9], 1, [], _, _,
     { { walled with gng := { walled.gng with ports := [(1, { state := .up, nonce := some [7] })] } } with sec := { walled.sec with pins := [(1, [4])] } },
     by decide +kernel, rfl, rfl⟩⟩

theorem test_hyps_TraceIsGrantedAndFirmwareKept :
    (∃ (sq : Nat) (grant : Nat) (r : Running) (s : State), ready s .pf1 sq 0x78 = some r ∧ grant = min (fieldAt r.raw 0x18 4)
      (permitted s)) ∧
    (∃ (low : Bool) (s : State), s.sys.mode ≠ .dormant ∧ s.sys.stage ≠ .unpowered ∧ low ≠ s.trc.enLow) ∧
    (∃ (low : Bool) (s : State), (s.sys.mode = .dormant ∨ s.sys.stage = .unpowered ∨ low = s.trc.enLow)) ∧
    (∃ (sq : Nat) (data : Rd) (r : Running) (img : Bytes) (s : State), ready s .pf1 sq 0x87 = some r ∧ busMaster s .pf1 = true ∧
      s.sys.stage ≠ .recovery ∧ s.sys.imageB ≠ bit (fieldAt r.raw 0x18 4) 0 ∧ data.ok = true ∧ fieldAt r.raw 0x28 4 ≤
      data.bytes.length ∧ img = data.bytes.take (fieldAt r.raw 0x28 4)) ∧
    (∃ (sq : Nat) (data : Rd) (r : Running) (img : Bytes) (s : State), ready s .pf1 sq 0x87 = some r ∧ busMaster s .pf1 = true ∧
      s.sys.stage = .recovery ∧ data.ok = true ∧ fieldAt r.raw 0x28 4 ≤ data.bytes.length ∧ img = data.bytes.take (fieldAt r.raw
      0x28 4)) ∧
    (∃ (sq : Nat) (_ : Rd) (r : Running) (s : State), ready s .pf1 sq 0x87 = some r ∧ busMaster s .pf1 = true ∧ s.sys.stage ≠
      .recovery ∧ s.sys.imageB = bit (fieldAt r.raw 0x18 4) 0) ∧
    (∃ (sq : Nat) (n : Nat) (data : Rd) (r : Running) (s : State), ready s .pf1 sq 0x87 = some r ∧ busMaster s .pf1 = true ∧
      slotRuns s (bit (fieldAt r.raw 0x18 4) 0) = false ∧ n = fieldAt r.raw 0x28 4 ∧ (data.ok = false ∨ data.bytes.length < n)) :=
  ⟨⟨7, 1, cmd 0x78 [(0x18, 4, 2), (0x1C, 4, 0x7FF)], on .pf1 7 (cmd 0x78 [(0x18, 4, 2), (0x1C, 4, 0x7FF)]) up, by decide +kernel⟩,
   ⟨true, up, by decide +kernel⟩,
   ⟨false, up, by decide +kernel⟩,
   ⟨7, got 64, cmd 0x87 [(0x18, 4, 1), (0x28, 4, 64)], (got 64).bytes, on .pf1 7 (cmd 0x87 [(0x18, 4, 1), (0x28, 4, 64)]) up,
     by decide +kernel⟩,
   ⟨7, got 64, cmd 0x87 [(0x18, 4, 1), (0x28, 4, 64)], (got 64).bytes, on .pf1 7 (cmd 0x87 [(0x18, 4, 1), (0x28, 4, 64)])
     { up with sys := { up.sys with stage := .recovery } }, by decide +kernel⟩,
   ⟨7, got 64, cmd 0x87 [(0x18, 4, 0), (0x28, 4, 64)], on .pf1 7 (cmd 0x87 [(0x18, 4, 0), (0x28, 4, 64)]) up, by decide +kernel⟩,
   ⟨7, 64, got 63, cmd 0x87 [(0x18, 4, 1), (0x28, 4, 64)], on .pf1 7 (cmd 0x87 [(0x18, 4, 1), (0x28, 4, 64)]) up,
     by decide +kernel⟩⟩

end Sys2Proof.Tests
end

section
/-!
The rules that the statements on host accesses share: how each way of answering a command ends, when an access from the host
acts, and the frame of an event.
-/
namespace Sys2Proof.Proofs
open Sys2Proof.Machine Sys2Proof.Laws

/-! ## Each way of answering a command ends in a next state -/

theorem hostOp_next (f : State → State) (s : State) : ∃ t, hostOp f s = .next t := ⟨_, rfl⟩

theorem cfgOp_next (fn : Fn) (f : State → State) (s : State) : ∃ t, cfgOp fn f s = .next t := hostOp_next _ s

theorem msixOp_next (fn : Fn) (t : MsixTarget) (f : State → State) (s : State) : ∃ u, msixOp fn t f s = .next u := by
  cases t with
  | vector v => exact hostOp_next f s
  | enable => exact cfgOp_next fn f s
  | function => exact cfgOp_next fn f s

theorem runRing_next (fn : Fn) (n op : Nat) (f : Running → State → State) (s : State) :
    ∃ t, runRing fn n op f s = .next t := by
  cases h : ready s fn n op with
  | none => exact ⟨s, runRing_idle h⟩
  | some r => exact ⟨f r s, runRing_ready h⟩

theorem runHost_next (fn : Fn) (n op : Nat) (f : Running → State → State) (s : State) :
    ∃ t, runHost fn n op f s = .next t := runRing_next fn n op _ s

theorem runRead_next (fn : Fn) (n op : Nat) (d : Rd) (f : Running → State → State) (s : State) :
    ∃ t, runRead fn n op d f s = .next t := runHost_next fn n op _ s

/-! ## When an access from the host acts (R61, R73, R411) -/

theorem hostUp_iff {s : State} : hostUp s = true ↔ linkUp s = true ∧ s.pwr.fall = .idle := by
  simp [hostUp]

theorem power_of_hostUp {s : State} (h : hostUp s = true) : s.hif.power = .l0 := by
  simpa [linkUp] using (hostUp_iff.mp h).1

theorem hostOp_of_hostUp {f : State → State} {s : State} (h : hostUp s = true) : hostOp f s = .next (f s) :=
  hostOp_up (hostUp_iff.mp h).1 (hostUp_iff.mp h).2

theorem configurable_iff {s : State} :
    configurable s = true ↔ hostUp s = true ∧ s.sys.stage ≠ .unpowered ∧ s.sys.stage ≠ .image := by
  simp [configurable, and_assoc]

theorem cfgOp_of_configurable {fn : Fn} {f : State → State} {s : State} (h : configurable s = true) :
    cfgOp fn f s = .next (f s) := by
  obtain ⟨hup, hunpowered, himage⟩ := configurable_iff.mp h
  rw [cfgOp, hostOp_of_hostUp hup]
  simp [hunpowered, himage]

theorem cfgOp_fall {fn : Fn} {f : State → State} {s : State} (h : s.pwr.fall ≠ .idle) : cfgOp fn f s = .next s :=
  hostOp_fall h

/-! ## The frame of an event -/

theorem postTo_only (fn : Fn) (v : Ev) (s : State) : Only [.rings, .hif, .out] s (postTo fn v s) := by
  intro p hp
  cases p <;> simp [Part.same] at hp ⊢

end Sys2Proof.Proofs
end

section
/-!
Every command answers a next state: no command's meaning ends in a fault or a refusal.
-/
namespace Sys2Proof.Proofs
open Sys2Proof.Machine

/-- Settles O2: a command that runs from a ring, an access to a memory window and a change of MSI-X each answer through their
own operation; every other command names its next state outright. -/
theorem everyCommandAnswersANextState : Obligations.EveryCommandAnswersANextState := by
  intro i s
  cases i
  case setTable | stageConfig | memCopy | zoneOverride | lifecycleAdvance | debugToken | measExtend | nbrPin | fwUpdate =>
    unfold exec; apply runRead_next
  case linenRead | faultQuery | nbrMeasRead => apply runHost_next
  case armConfig | armConfigCancel | modeReq | linenStore | linenBracketOpen | linenBracketClose | linenBracketAbort | memFill
      | freeBuffer | cueStart | cueStop | zoneOverrideClear | zoneRead | calRun | spareCommit | traceCfg | debugRevoke
      | svnCommit | keyErase =>
    apply runRing_next
  case linenWrite sq d =>
    by_cases hfall : s.pwr.fall = .idle
    · simpa [exec, execLinenWrite, hfall] using runRead_next ..
    · simp [exec, execLinenWrite, hfall]
  case cueLoad sq d =>
    cases hbrace : s.sys.brace
    · simpa [exec, execCueLoad, hbrace] using runRead_next ..
    · simp [exec, execCueLoad, hbrace]
  case registerWrite fn a size v poisoned =>
    cases a with
    | bar0 | bar2 | bar2Wide => apply hostOp_next
    | config => apply cfgOp_next
  case registerRead fn a size =>
    cases a with
    | bar0 | bar2 | bar2Wide => apply hostOp_next
    | config => apply cfgOp_next
  case msixMask | msixUnmask => apply msixOp_next
  all_goals exact ⟨_, rfl⟩

end Sys2Proof.Proofs
end

section
/-!
Accesses to the registers that are refused: those of the wrong size or alignment (R6), and writes of locked fields (R11).
-/
namespace Sys2Proof.Proofs
open Sys2Proof.Machine Sys2Proof.Laws

theorem dwordAccess_iff (off size : Nat) : dwordAccess off size = true ↔ off % 4 = 0 ∧ size = 4 := by
  simp [dwordAccess]

/-! ## What each access is (Table 3.5) -/

theorem exec_registerWrite_bar0 (fn : Fn) (off size : Nat) (v : Word) (poisoned : Bool) (s : State) :
    exec (.registerWrite fn (.bar0 off) size v poisoned) s =
      hostOp (windowWrite fn off size poisoned (writeBar0 fn off v)) s := rfl

theorem exec_registerRead_bar0 (fn : Fn) (off size : Nat) (s : State) :
    exec (.registerRead fn (.bar0 off) size) s = hostOp (windowRead fn off size (replyBar0 fn off)) s := rfl

theorem exec_registerWrite_bar2 (off size : Nat) (v : Word) (poisoned : Bool) (s : State) :
    exec (.registerWrite .pf0 (.bar2 off) size v poisoned) s = hostOp (bar2Write off size v poisoned) s := rfl

theorem exec_registerRead_bar2 (off size : Nat) (s : State) :
    exec (.registerRead .pf0 (.bar2 off) size) s = hostOp (bar2Read off size) s := rfl

/-- In the fall a register access has no effect and no answer, whatever it names (R411). -/
theorem registerAccess_fall (fn : Fn) (a : RegAddr) (size : Nat) (v : Word) (poisoned : Bool) {s : State}
    (h : s.pwr.fall ≠ .idle) :
    exec (.registerWrite fn a size v poisoned) s = .next s ∧ exec (.registerRead fn a size) s = .next s := by
  cases a with
  | bar0 | bar2 | bar2Wide => constructor <;> apply hostOp_fall h
  | config => constructor <;> apply cfgOp_fall h

/-! ## The wrong size or alignment -/

section
variable {off size : Nat} (h : dwordAccess off size = false)
include h

theorem windowWrite_badSize (fn : Fn) (f : State → State) (s : State) :
    windowWrite fn off size false f s = badSize fn off size true s := by simp [windowWrite, h]

theorem windowRead_badSize (fn : Fn) (f : State → State) (s : State) :
    windowRead fn off size f s = emit [.readReply 0] (badSize fn off size false s) := by simp [windowRead, h]

theorem bar2Write_badSize (hoff : off < 0x8000) (v : Word) (s : State) :
    bar2Write off size v false s = badSize .pf0 off size true s := by simp [bar2Write, h, hoff]

theorem bar2Read_badSize (hoff : off < 0x8000) (s : State) :
    bar2Read off size s = emit [.readReply 0] (badSize .pf0 off size false s) := by simp [bar2Read, h, hoff]

end

/-! ## Past the MSI-X structures -/

theorem writeBar2_past {off : Nat} (hoff : 0x9020 ≤ off) (v : Word) (s : State) : writeBar2 off v s = s := by
  have hdoorbells : ¬ off < 0x200 := by omega
  have hhead : off ≠ 0x200 := by omega
  have htable : ¬ off < 0x9000 := by omega
  simp [writeBar2, hdoorbells, hhead, htable]

theorem readBar2_past {off : Nat} (hoff : 0x9020 ≤ off) (s : State) : readBar2 s off = 0 := by
  have htable : ¬ off < 0x9000 := by omega
  have hpending : ¬ off < 0x9020 := by omega
  simp [readBar2, htable, hpending]

theorem bar2Write_past {off : Nat} (hoff : 0x9020 ≤ off) (size : Nat) (v : Word) (s : State) :
    bar2Write off size v false s = s := by
  have hwindow : ¬ off < 0x8000 := by omega
  simp [bar2Write, hwindow, writeBar2_past hoff]

theorem bar2Read_past {off : Nat} (hoff : 0x9020 ≤ off) (size : Nat) (s : State) :
    bar2Read off size s = emit [.readReply 0] s := by
  have hwindow : ¬ off < 0x8000 := by omega
  simp [bar2Read, hwindow, readBar2_past hoff]

/-- Settles O18: an access that reaches the block is cut off before the register by its size or alignment, and one in the fall
does not reach it. -/
theorem accessesOfTheWrongSizeAreReported : Obligations.AccessesOfTheWrongSizeAreReported := by
  refine ⟨?bar0Write, ?bar0Read, ?bar2Doorbells, ?bar2Past, ?fall, ?event, dwordAccess_iff⟩
  case bar0Write =>
    intro fn off size v s hup hsize
    rw [exec_registerWrite_bar0, hostOp_of_hostUp hup, windowWrite_badSize hsize]; rfl
  case bar0Read =>
    intro fn off size s hup hsize
    rw [exec_registerRead_bar0, hostOp_of_hostUp hup, windowRead_badSize hsize]; rfl
  case bar2Doorbells =>
    intro off size v s hup hsize hoff
    rw [exec_registerWrite_bar2, exec_registerRead_bar2, hostOp_of_hostUp hup, hostOp_of_hostUp hup,
      bar2Write_badSize hsize hoff, bar2Read_badSize hsize hoff]
    exact ⟨rfl, rfl⟩
  case bar2Past =>
    intro off size v s hup hoff
    rw [exec_registerWrite_bar2, exec_registerRead_bar2, hostOp_of_hostUp hup, hostOp_of_hostUp hup,
      bar2Write_past hoff, bar2Read_past hoff]
    exact ⟨rfl, rfl⟩
  case fall => exact fun fn a size v poisoned s hfall => registerAccess_fall fn a size v poisoned hfall
  case event =>
    intro fn v s
    have hsqs : (postTo fn v s).rings.sqs = s.rings.sqs := by simp
    exact ⟨postTo_only fn v s, hsqs, postTo_cqs fn v s⟩

/-! ## Locked fields -/

/-- A register of RWL fields alone, outside the RING block, takes its writes through `writeRwl`. -/
theorem writeReg_rwl {off : Nat} (hring : off / 0x10000 ≠ 0x02) (hlock : off ≠ 0x000008) (hstatus : off ≠ 0x15000c)
    (hrwl : rwlMask off ≠ 0) (hlive : liveMask off = 0) (v : Word) (s : State) : writeReg off v s = writeRwl off v s := by
  simp [writeReg, hring, hlock, hstatus, hrwl, hlive]

theorem writeRwl_locked {s : State} (h : s.sys.lock = true) (off : Nat) (v : Word) :
    writeRwl off v s = post 0x0002 1 [off, v.toNat] s := by simp [writeRwl, h]

theorem windowWrite_dword {off : Nat} (h : dwordAccess off 4 = true) (fn : Fn) (f : State → State) (s : State) :
    windowWrite fn off 4 false f s = f s := by simp [windowWrite, h]

/-- Settles O19: after lock the write is one event and nothing else. -/
theorem lockedRwlWritesAreDropped : Obligations.LockedRwlWritesAreDropped := by
  intro off v s hup hsize hring hlockReg hstatus hrwl hlive hlock
  refine ⟨post 0x0002 1 [off, v.toNat] s, ?_, posts_post _ _ _ rfl rfl rfl rfl, postTo_only _ _ s⟩
  rw [exec_registerWrite_bar0, hostOp_of_hostUp hup, windowWrite_dword hsize, writeBar0,
    writeReg_rwl hring hlockReg hstatus hrwl hlive, writeRwl_locked hlock]

end Sys2Proof.Proofs
end

section
/-!
What each reset of the host's side takes and what it keeps (Table 3.10, R10, R42, R71): one fact for each part of the state
that a reset touches. The parts that it leaves alone are the frames of Laws.
-/
namespace Sys2Proof.Proofs
open Sys2Proof.Machine Sys2Proof.Laws

/-! ## Sending leaves PERST#, and tracing the whole interface, alone -/

@[simp] theorem signalEq_perst (fn : Fn) (x : Sent) : (signalEq fn x).hif.perst = x.hif.perst := by
  unfold signalEq holdMsix
  dsimp only
  split
  · rfl
  · split
    · rfl
    · split <;> rfl

@[simp] theorem writeEvent_perst (fn : Fn) (v : Ev) (x : Sent) : (writeEvent fn v x).hif.perst = x.hif.perst := by
  unfold writeEvent
  dsimp only
  split
  · rfl
  · split <;> simp

@[simp] theorem eventWake_perst (fn : Fn) (x : Sent) : (eventWake fn x).hif.perst = x.hif.perst := by
  unfold eventWake
  split
  · split
    · rfl
    · split <;> rfl
  · rfl

@[simp] theorem postTo_perst (fn : Fn) (v : Ev) (s : State) : (postTo fn v s).hif.perst = s.hif.perst := by
  unfold postTo
  split
  · rfl
  · split <;> simp

@[simp] theorem post_perst (code sev : Nat) (p : List Nat) (s : State) : (post code sev p s).hif.perst = s.hif.perst :=
  postTo_perst ..

@[simp] theorem postIf_perst (c : Bool) (code sev : Nat) (p : List Nat) (s : State) :
    (postIf c code sev p s).hif.perst = s.hif.perst := by
  unfold postIf
  split <;> simp

@[simp] theorem sendTrace_hif (r : TraceRec) (s : State) : (sendTrace r s).hif = s.hif := by
  simp [sendTrace, apply_ite State.hif]

@[simp] theorem trace1_hif (src : Nat) (s : State) : (trace1 src s).hif = s.hif := by
  simp [trace1, makeTrace, apply_ite State.hif]

@[simp] theorem startT0_hif (n : Nat) (s : State) : (startT0 n s).hif = s.hif := by
  unfold startT0
  split
  · rfl
  · simp [apply_ite State.hif]

@[simp] theorem startOnSpare_hif (n : Nat) (c : PortCfg) (s : State) : (startOnSpare n c s).hif = s.hif := by
  simp [startOnSpare, apply_ite State.hif]

@[simp] theorem trainPort_hif (initial : Bool) (n : Nat) (s : State) : (trainPort initial n s).hif = s.hif := by
  unfold trainPort
  split
  · rfl
  · simp [apply_ite State.hif]

@[simp] theorem stopTest_hif (s : State) : (stopTest s).hif = s.hif := by
  unfold stopTest
  split
  · simp
  · rfl

/-! ## A fold over keys keeps what each of its steps keeps -/

theorem forAll_keeps {α β : Type} (part : State → β) (l : List α) (f : α → State → State) (s : State)
    (h : ∀ a s, part (f a s) = part s) : part (forAll l f s) = part s := by
  unfold forAll
  induction l generalizing s with
  | nil => rfl
  | cons a l ih => rw [List.foldl_cons, ih, h]

/-! ## Streams (R71, R366) -/

@[simp] theorem streamState_sec (g : Nat) (x : Stream) (s : State) :
    (streamState g x s).sec = { s.sec with streams := mput {} g x s.sec.streams } := by
  simp [streamState, setStream]

@[simp] theorem streamState_perst (g : Nat) (x : Stream) (s : State) : (streamState g x s).hif.perst = s.hif.perst := by
  simp [streamState, setStream]

theorem streamOf_streamState (g k : Nat) (x : Stream) (s : State) :
    streamOf (streamState g x s) k = if k = g then x else streamOf s k := by
  simp [streamOf, mget_mput]

theorem streamOf_forAll_streamState (l : List Nat) (k : Nat) (s : State) :
    streamOf (forAll l (fun g t => streamState g {} t) s) k = if k ∈ l then {} else streamOf s k := by
  unfold forAll
  induction l generalizing s with
  | nil => simp
  | cons g l ih =>
    rw [List.foldl_cons, ih, streamOf_streamState]
    by_cases hk : k = g <;> simp [hk]

theorem streamOf_dropStreams {k : Nat} (hk : k < 4) (s : State) : streamOf (dropStreams s) k = {} := by
  simp [dropStreams, streamOf_forAll_streamState, hk]

@[simp] theorem dropStreams_sessions (s : State) : (dropStreams s).sec.sessions = s.sec.sessions :=
  forAll_keeps (fun s => s.sec.sessions) _ _ s (by simp)

@[simp] theorem dropStreams_token (s : State) : (dropStreams s).sec.token = s.sec.token :=
  forAll_keeps (fun s => s.sec.token) _ _ s (by simp)

@[simp] theorem dropStreams_perst (s : State) : (dropStreams s).hif.perst = s.hif.perst :=
  forAll_keeps (fun s => s.hif.perst) _ _ s (by simp)

/-! ## Rings and configuration space (Table 4.1, R66) -/

theorem sqOf_resetRings (fn g : Fn) (n : Nat) (r : Rings) :
    sqOf (resetRings fn r) g n =
      if 64 * fnIdx fn ≤ 64 * fnIdx g + n ∧ 64 * fnIdx g + n < 64 * fnIdx fn + 64 then {} else sqOf r g n := by
  cases fn <;> exact mget_mclear ..

theorem sqOf_resetRings_same (fn : Fn) {n : Nat} (hn : n < 64) (r : Rings) : sqOf (resetRings fn r) fn n = {} := by
  rw [sqOf_resetRings, if_pos (by omega)]

theorem sqOf_resetRings_pf1 {n : Nat} (hn : n < 64) (r : Rings) : sqOf (resetRings .pf1 r) .pf0 n = sqOf r .pf0 n := by
  rw [sqOf_resetRings, if_neg (by simp [fnIdx]; omega)]

@[simp] theorem resetConfigSpace_perst (fn : Fn) (h : Hif) : (resetConfigSpace fn h).perst = h.perst := by
  cases fn <;> rfl

/-! ## A warm reset of PF0 (R42, R431) -/

/-- LIVE is left for HOLD, unless a transition was accepted before. -/
theorem resetMode_transit {s : State} (hmode : s.sys.mode = .live) (htransit : s.sys.transit = none) :
    (resetMode s).sys.transit = some { target := .hold } := by
  simp [resetMode, beginTransit, hmode, htransit]

@[simp] theorem resetIngest_cands (s : State) : (resetIngest s).ing.cands = [] := rfl

@[simp] theorem warmReset_hif (s : State) : (warmReset s).hif = resetConfigSpace .pf0 s.hif := by simp [warmReset]
@[simp] theorem warmReset_conf (s : State) : (warmReset s).conf = resetConf s.conf := by simp [warmReset]
@[simp] theorem warmReset_lock (s : State) : (warmReset s).sys.lock = false := by simp [warmReset]
@[simp] theorem warmReset_cands (s : State) : (warmReset s).ing.cands = [] := by simp [warmReset]

@[simp] theorem warmReset_sqOf {n : Nat} (hn : n < 64) (s : State) : sqOf (warmReset s).rings .pf0 n = {} := by
  simp [warmReset, sqOf_resetRings_same .pf0 hn]

theorem warmReset_transit {s : State} (hmode : s.sys.mode = .live) (htransit : s.sys.transit = none) :
    (warmReset s).sys.transit = some { target := .hold } := by
  unfold warmReset
  exact resetMode_transit (by simpa using hmode) (by simpa using htransit)

/-! ## A reset of PF1 (R71, R379) -/

@[simp] theorem setLevel_keeps (n : Nat) (s : State) : (setLevel n s).sec.sessions = s.sec.sessions ∧
    (setLevel n s).sec.token = s.sec.token := by
  unfold setLevel
  split <;> simp [extendSlot]

@[simp] theorem downgrade_keeps (reason : Nat) (s : State) : (downgrade reason s).sec.sessions = s.sec.sessions ∧
    (downgrade reason s).sec.token = s.sec.token ∧ (downgrade reason s).hif.perst = s.hif.perst := by
  unfold downgrade
  split <;> simp

theorem revokeToken_takes (s : State) : (revokeToken s).sec.token = false ∧
    (revokeToken s).sec.sessions = s.sec.sessions ∧ (revokeToken s).hif.perst = s.hif.perst := by
  unfold revokeToken
  split
  · split <;> simp
  · rename_i hno; simpa using hno

@[simp] theorem resetPf1_sessions (s : State) : (resetPf1 s).sec.sessions = [] := by simp [resetPf1, revokeToken_takes]
@[simp] theorem resetPf1_token (s : State) : (resetPf1 s).sec.token = false := by simp [resetPf1, revokeToken_takes]
@[simp] theorem resetPf1_brackets (s : State) : (resetPf1 s).lin.brackets = [] := by simp [resetPf1]
@[simp] theorem resetPf1_perst (s : State) : (resetPf1 s).hif.perst = s.hif.perst := by simp [resetPf1, revokeToken_takes]

@[simp] theorem resetPf1_sqs (s : State) : (resetPf1 s).rings.sqs = (resetRings .pf1 s.rings).sqs := by simp [resetPf1]

theorem resetPf1_sqOf {n : Nat} (hn : n < 64) (s : State) : sqOf (resetPf1 s).rings .pf1 n = {} := by
  rw [sqOf_congr (resetPf1_sqs s), sqOf_resetRings_same .pf1 hn]

theorem resetPf1_sqOf_pf0 {n : Nat} (hn : n < 64) (s : State) : sqOf (resetPf1 s).rings .pf0 n = sqOf s.rings .pf0 n := by
  rw [sqOf_congr (resetPf1_sqs s), sqOf_resetRings_pf1 hn]

/-! ## What PERST# and a hot reset share (R42, R71) -/

@[simp] theorem resetHost_power (s : State) : (resetHost s).hif.power = .down := by simp [resetHost, linkOff]
@[simp] theorem resetHost_speed (s : State) : (resetHost s).hif.speed = 0 := by simp [resetHost, linkOff]
@[simp] theorem resetHost_perst (s : State) : (resetHost s).hif.perst = s.hif.perst := by simp [resetHost, linkOff]
@[simp] theorem resetHost_lock (s : State) : (resetHost s).sys.lock = false := by simp [resetHost]
@[simp] theorem resetHost_cands (s : State) : (resetHost s).ing.cands = [] := by simp [resetHost]
@[simp] theorem resetHost_conf (s : State) : (resetHost s).conf = resetConf s.conf := by simp [resetHost]
@[simp] theorem resetHost_sessions (s : State) : (resetHost s).sec.sessions = [] := by simp [resetHost]
@[simp] theorem resetHost_token (s : State) : (resetHost s).sec.token = false := by simp [resetHost]
@[simp] theorem resetHost_brackets (s : State) : (resetHost s).lin.brackets = [] := by simp [resetHost]

theorem resetHost_sqs (s : State) : (resetHost s).rings.sqs = (resetPf1 (warmReset s)).rings.sqs := by simp [resetHost]

theorem resetHost_sqOf_pf0 {n : Nat} (hn : n < 64) (s : State) : sqOf (resetHost s).rings .pf0 n = {} := by
  rw [sqOf_congr (resetHost_sqs s), resetPf1_sqOf_pf0 hn, warmReset_sqOf hn]

theorem resetHost_sqOf_pf1 {n : Nat} (hn : n < 64) (s : State) : sqOf (resetHost s).rings .pf1 n = {} := by
  rw [sqOf_congr (resetHost_sqs s), resetPf1_sqOf hn]

theorem resetHost_insecure {g : Nat} (hg : g < 4) (s : State) : (streamOf (resetHost s) g).secure = false := by
  have hstreams : (resetHost s).sec = (dropStreams (resetPf1 (warmReset s))).sec := by simp only [resetHost]
  have hdropped := streamOf_dropStreams hg (resetPf1 (warmReset s))
  rw [streamOf] at hdropped ⊢
  rw [hstreams, hdropped]

end Sys2Proof.Proofs
end

section
/-!
The two ways to BOOT that begin outside it: a wake, which begins BOOT at once, and a watchdog reset, which requests a store
and waits for it.
-/
namespace Sys2Proof.Proofs
open Sys2Proof.Machine Sys2Proof.Laws

/-! ## BOOT begins (R44, R439) -/

@[simp] theorem checkRetention_retained (s : State) :
    (checkRetention s).mem.retained = (s.mem.retained && (deviceRecord s.lin.sram 0x0103).isSome) := by
  unfold checkRetention
  cases hr : s.mem.retained <;> cases hd : deviceRecord s.lin.sram 0x0103 <;> simp [hr]

@[simp] theorem restoreRegions_retained (s : State) : (restoreRegions s).mem.retained = s.mem.retained := by
  unfold restoreRegions
  split <;> rfl

@[simp] theorem switchRows_retained (s : State) : (switchRows s).mem.retained = s.mem.retained := rfl

@[simp] theorem recallLinen_perst (s : State) : (recallLinen s).hif.perst = s.hif.perst := by
  unfold recallLinen
  split <;> simp

@[simp] theorem beginBoot_mode (s : State) : (beginBoot s).sys.mode = .boot := by simp [beginBoot]
@[simp] theorem beginBoot_stage (s : State) : (beginBoot s).sys.stage = .image := by simp [beginBoot]
@[simp] theorem beginBoot_perst (s : State) : (beginBoot s).hif.perst = s.hif.perst := by simp [beginBoot]

theorem beginBoot_cause (s : State) :
    (beginBoot s).sys.cause = { s.sys.nextCause with retained := (beginBoot s).mem.retained } := by simp [beginBoot]

theorem retained_of_beginBoot {s : State} (h : (beginBoot s).mem.retained = true) : s.mem.retained = true := by
  obtain ⟨hretained, -⟩ : s.mem.retained = true ∧ _ := by simpa [beginBoot] using h
  exact hretained

/-! ## A wake from DORMANT (R43, R439) -/

@[simp] theorem coldReset_sys (s : State) : (coldReset s).sys =
    { nextCause := s.sys.nextCause, cause := s.sys.cause, gpioPins := s.sys.gpioPins, vinLow := s.sys.vinLow } := by
  simp [coldReset]

@[simp] theorem coldReset_perst (s : State) : (coldReset s).hif.perst = s.hif.perst := by simp [coldReset]

@[simp] theorem coldReset_retained (s : State) : (coldReset s).mem.retained = s.mem.retained := by
  simp only [coldReset, cutStore_frame]
  cases h : s.mem.retained <;> simp [retainedMem]

@[simp] theorem bootEntered_perst (old : Mode) (s : State) : (bootEntered old s).hif.perst = s.hif.perst := post_perst ..

/-- At VIN good a wake begins BOOT with its trigger as the cause; memory is retained only where it was. -/
theorem wake_boots (src gpio port : Nat) {s : State} (hvin : s.sys.vinLow = false) :
    (wake src gpio port s).sys.mode = .boot ∧ (wake src gpio port s).sys.stage = .image ∧
      (wake src gpio port s).hif.perst = s.hif.perst ∧
      (wake src gpio port s).sys.cause =
        { cause := 2, wakeSrc := src, wakeGpio := gpio, wakePort := port, retained := (wake src gpio port s).mem.retained } ∧
      ((wake src gpio port s).mem.retained = true → s.mem.retained = true) := by
  unfold wake
  simp only [bootEntered_frame, coldReset_sys, causeNext, hvin, Bool.false_eq_true, if_false]
  refine ⟨beginBoot_mode _, beginBoot_stage _, by simp, by rw [beginBoot_cause]; simp, fun h => ?_⟩
  simpa using retained_of_beginBoot h

/-! ## A watchdog reset (R10, R326, R439) -/

@[simp] theorem countWear_store (bank : Nat) (s : State) : (countWear bank s).lin.store = s.lin.store := by
  unfold countWear
  dsimp only
  split <;> simp

@[simp] theorem foldZones_store (s : State) : (foldZones s).lin.store = s.lin.store := by simp [foldZones]
@[simp] theorem putOperating_store (s : State) : (putOperating s).lin.store = s.lin.store := rfl
@[simp] theorem flushBox_store (s : State) : (flushBox s).lin.store = s.lin.store := rfl

theorem beginStore_store (serves : List Nat) (s : State) : (beginStore serves s).lin.store.isSome = true := by
  simp [beginStore]

/-- Whoever asks, a store is under way afterwards (R326). -/
theorem requestStore_store (ring : Nat) (s : State) : (requestStore ring s).lin.store.isSome = true := by
  unfold requestStore
  split
  · exact beginStore_store ..
  · rename_i st hst
    split
    · split <;> simp [hst]
    · simp [hst]

/-- While a store is under way the watchdog's die reset waits for it (R326). -/
theorem settleReset_waits {s : State} (h : s.lin.store.isSome = true) : settleReset s = s := by
  obtain ⟨st, hst⟩ := Option.isSome_iff_exists.mp h
  simp [settleReset, hst]

/-- Before its die reset a watchdog reset is a store and an accepted transition to BOOT. -/
theorem resetDie_waits (reason : Nat) (s : State) :
    ∃ u : State, resetDie reason s = beginTransit .boot false u ∧ u.lin.store.isSome = true ∧
      u.sys = { s.sys with nextCause := { cause := 3, wdReason := reason } } ∧ u.conf = s.conf ∧ u.mem = s.mem := by
  have hstore := requestStore_store ownRequest (logFree 15 5 [reason] (causeNext { cause := 3, wdReason := reason } s))
  unfold resetDie
  dsimp only
  refine ⟨_, settleReset_waits ?_, ?_, ?_, ?_, ?_⟩
  · split <;> simpa using hstore
  · split <;> simpa using hstore
  all_goals split <;> simp [causeNext]

theorem watchdog_running (reason : Nat) {s : State} (hrun : isRunning s = true) (hstage : s.sys.stage ≠ .unpowered)
    (hfall : s.pwr.fall = .idle) (htransit : s.sys.transit = none) : watchdog reason s = resetDie reason s := by
  obtain ⟨hdormant, -⟩ : s.sys.mode ≠ .dormant ∧ s.sys.mode ≠ .boot := by simpa [isRunning] using hrun
  have hdie : dieRuns s = true := by simp [dieRuns, hdormant, hstage]
  simp [watchdog, htransit, hdie, hfall]

end Sys2Proof.Proofs
end

section
/-!
The statement on the resets of the host's side, from what each reset takes.
-/
namespace Sys2Proof.Proofs
open Sys2Proof.Machine Sys2Proof.Laws

theorem exec_perstAssert {s : State} (h : s.hif.perst = false) : exec .perstAssert s =
    .next (setPerst true { resetHost s with hif := keepL2 s.hif (resetHost s).hif }) := by
  simp [exec, execPerstAssert, h]

theorem exec_hotReset {s : State} (h : hostUp s = true) : exec .hotReset s = .next (resetHost s) := hostOp_of_hostUp h
theorem exec_flrPf0 {s : State} (h : configurable s = true) : exec .flrPf0 s = .next (warmReset s) := cfgOp_of_configurable h
theorem exec_flrPf1 {s : State} (h : configurable s = true) : exec .flrPf1 s = .next (resetPf1 s) := cfgOp_of_configurable h

theorem exec_linkDown {s : State} (h : hostUp s = true) :
    exec .linkDown s = .next { dropStreams s with hif := linkOff (dropStreams s).hif } := by
  simp only [exec, execLinkDown, hostOp_of_hostUp h]

/-- The link's pins and state once PERST# is released (R62, R73). -/
def perstReleased (s : State) : State :=
  { s with hif := { s.hif with
    perst := false
    wakePin := false
    power := if s.hif.power = .l2 then .down else s.hif.power } }

theorem exec_perstDeassert {s : State} (h : s.hif.perst = true) (hmode : s.sys.mode ≠ .dormant) :
    exec .perstDeassert s = .next (perstReleased s) := by
  simp [exec, execPerstDeassert, perstReleased, h, hmode]

theorem exec_perstDeassert_dormant {s : State} (h : s.hif.perst = true) (hmode : s.sys.mode = .dormant) :
    exec .perstDeassert s = .next (wake 1 0 0 (perstReleased s)) := by
  simp [exec, execPerstDeassert, perstReleased, h, hmode]

/-- What PERST# leaves of the link: nothing, but L2 stays with PME_En (log entry 143). -/
theorem keepL2_link (old h : Hif) :
    (old.power ≠ .l2 → (keepL2 old h).power = h.power) ∧ (keepL2 old h).speed = h.speed ∧
      (old.power = .l2 → (keepL2 old h).power = .l2 ∧ (keepL2 old h).pmeEn = old.pmeEn) := by
  unfold keepL2
  by_cases hpower : old.power = .l2 <;> simp [hpower]

theorem resetPf1_only (s : State) : Only [.rings, .hif, .lin, .sec, .out] s (resetPf1 s) := by
  intro p hp
  cases p <;> simp [Part.same] at hp ⊢

theorem linkDown_only (s : State) :
    Only [.rings, .hif, .sec, .out] s { dropStreams s with hif := linkOff (dropStreams s).hif } := by
  intro p hp
  cases p <;> simp [Part.same] at hp ⊢

/-- PERST# takes both functions, the streams and the link, and leaves the configuration in force. -/
theorem perstAssert_takes {s : State} (hperst : s.hif.perst = false) :
    ∃ t, exec .perstAssert s = .next t ∧ t.hif.perst = true ∧ (s.hif.power ≠ .l2 → t.hif.power = .down) ∧ t.hif.speed = 0 ∧
      (s.hif.power = .l2 → t.hif.power = .l2 ∧ t.hif.pmeEn = s.hif.pmeEn) ∧
      (∀ n < 64, sqOf t.rings .pf0 n = {}) ∧ (∀ n < 8, sqOf t.rings .pf1 n = {}) ∧ t.sys.lock = false ∧
      t.ing.cands = [] ∧ t.conf = resetConf s.conf ∧ t.sec = (resetHost s).sec ∧ t.lin.brackets = [] ∧
      t.sys.fe = s.sys.fe ∧ t.sys.mode = s.sys.mode := by
  obtain ⟨hdown, hspeed, hl2⟩ := keepL2_link s.hif (resetHost s).hif
  refine ⟨_, exec_perstAssert hperst, ?_⟩
  simp only [setPerst]
  exact ⟨trivial, fun h => (hdown h).trans (resetHost_power s), hspeed.trans (resetHost_speed s), hl2,
    fun n hn => resetHost_sqOf_pf0 hn s, fun n hn => resetHost_sqOf_pf1 (by omega) s, by simp⟩

/-- Settles O34: each reset is a named update of the state, whose parts are known one by one. -/
theorem hostResetsTakeWhatTheySay : Obligations.HostResetsTakeWhatTheySay := by
  refine ⟨?perst, ?hotReset, ?pf0, ?pf1, ?linkDown, ?released, ?wake, ?watchdog⟩
  case perst =>
    intro s hperst
    obtain ⟨t, hexec, hasserted, hdown, hspeed, hl2, hpf0, hpf1, hlock, hcands, hconf, hsec, hbrackets, hfe, hmode⟩ :=
      perstAssert_takes hperst
    refine ⟨t, hexec, hasserted, hdown, hspeed, hl2, hpf0, hpf1, hlock, hcands, ?_⟩
    have hsecure : ∀ g < 4, (streamOf t g).secure = false := fun g hg => by
      simpa [streamOf, hsec] using resetHost_insecure hg s
    simpa [hconf, hsec, hbrackets, hfe, hmode, resetConf] using hsecure
  case hotReset =>
    intro s hup
    refine ⟨_, exec_hotReset hup, resetHost_power s, resetHost_perst s, fun n hn => resetHost_sqOf_pf0 hn s,
      fun n hn => resetHost_sqOf_pf1 (by omega) s, resetHost_lock s, resetHost_cands s, ?_⟩
    have hsecure : ∀ g < 4, (streamOf (resetHost s) g).secure = false := fun g hg => resetHost_insecure hg s
    simpa [resetConf] using hsecure
  case pf0 =>
    intro s hup
    refine ⟨_, exec_flrPf0 hup, by simp, by simp [resetConfigSpace], by simp [resetConfigSpace], fun n hn => warmReset_sqOf hn s,
      warmReset_lock s, warmReset_cands s, ?_⟩
    simpa [resetConf] using warmReset_transit
  case pf1 =>
    intro s hup
    exact ⟨_, exec_flrPf1 hup, fun n hn => resetPf1_sqOf (by omega) s, fun n hn => resetPf1_sqOf_pf0 hn s,
      resetPf1_sessions s, resetPf1_token s, by simp, resetPf1_brackets s, by simp, resetPf1_only s⟩
  case linkDown =>
    intro s hup
    refine ⟨_, exec_linkDown hup, by simp [linkOff], by simp [linkOff], by simp [linkOff], fun g hg => ?_, by simp, by simp,
      linkDown_only s⟩
    have hdropped := streamOf_dropStreams hg s
    simp only [streamOf] at hdropped ⊢
    rw [hdropped]
  case released => exact fun s hperst hmode => exec_perstDeassert hperst hmode
  case wake =>
    intro s hperst hmode hvin
    obtain ⟨hboot, hstage, hreleased, hcause, hretained⟩ := wake_boots 1 0 0 (s := perstReleased s) hvin
    exact ⟨_, exec_perstDeassert_dormant hperst hmode, hreleased, hboot, hstage, hcause, hretained⟩
  case watchdog =>
    intro reason s hrun hstage hfall htransit
    obtain ⟨u, hdie, hstore, hsys, hconf, hmem⟩ := resetDie_waits (reason % 4) s
    refine ⟨_, rfl, ?_⟩
    rw [watchdog_running _ hrun hstage hfall htransit, hdie]
    simp [beginTransit, hstore, hsys, hconf, hmem]

end Sys2Proof.Proofs
end

section
/-!
How completion records reach their ring (R85, R86): one record written at the tail, and one posted to a ring with an empty
store that has room.
-/
namespace Sys2Proof.Proofs
open Sys2Proof.Machine Sys2Proof.Laws

/-! ## One record at the tail (R85) -/

/-- A record's bytes +0x00 to +0x1B, with the head of its submission ring (Table 4.6). -/
def recordBytes (r : Rec) (head : Nat) : Bytes :=
  toLE 4 (r.type + 256 * r.status + 65536 * r.sq) ++ toLE 4 (r.slot % 65536 + 65536 * head) ++ toLE 8 r.tag.toNat
    ++ toLE 4 r.r0 ++ toLE 4 r.r1 ++ toLE 4 r.r2

/-- A completion ring once its oldest record is written: the tail one on, the phase turned where it wraps. -/
def pastRecord (c : Cq) : Cq :=
  { c with
    store := c.store.tail
    tail := (c.tail + 1) % 2 ^ c.log2
    phase := if (c.tail + 1) % 2 ^ c.log2 = 0 then !c.phase else c.phase }

/-- The two writes of record `r` at completion ring `key`'s tail, as sent from `x`. -/
def recordSent (key : Nat) (r : Rec) (x : Sent) : List Output :=
  recordWrites (fnOfKey key) (cqAt x.rings key).base (cqAt x.rings key).tail (cqAt x.rings key).phase
    (recordBytes r (sqOf x.rings (fnOfKey key) r.sq).head) r.r3

theorem fnOfKey_cqKey {fn : Fn} {m : Nat} (hm : m < ringCount fn) : fnOfKey (cqKey fn m) = fn := by
  cases fn with
  | pf0 => exact if_pos (by simpa [cqKey, fnIdx, ringCount] using hm)
  | pf1 => exact if_neg (by simp [cqKey, fnIdx])

theorem signalCq_tail (k : Nat) (x : Sent) : (cqAt (signalCq k x).rings k).tail = (cqAt x.rings k).tail := by
  unfold signalCq
  dsimp only
  (repeat' split) <;> simp

section
variable {k : Nat} {r : Rec} {rest : List Rec} {x : Sent} (hstore : (cqAt x.rings k).store = r :: rest)
include hstore

theorem writeRecord_cons :
    writeRecord k x =
      let y : Sent := { x with rings := setCq k (pastRecord (cqAt x.rings k)) x.rings, out := recordSent k r x ++ x.out }
      if cqSelects (cqAt x.rings k) r then signalCq k y else y := by
  simp [writeRecord, hstore, pastRecord, recordSent, recordBytes]

/-- Whether or not it is selected for an interrupt, a record is written and leaves the store. -/
theorem writeRecord_writes :
    (cqAt (writeRecord k x).rings k).store = rest ∧
      (cqAt (writeRecord k x).rings k).tail = ((cqAt x.rings k).tail + 1) % 2 ^ (cqAt x.rings k).log2 ∧
      recordSent k r x ⊆ (writeRecord k x).out := by
  rw [writeRecord_cons hstore]
  dsimp only
  split
  · refine ⟨?_, ?_, fun o ho => (signalCq_out (List.suffix_refl _)).subset (List.mem_append_left _ ho)⟩
    · simp [signalCq_ring, pastRecord, hstore]
    · simp [signalCq_tail, pastRecord]
  · exact ⟨by simp [pastRecord, hstore], by simp [pastRecord], List.subset_append_left _ _⟩

end

/-! ## A store drained to its ring (R86) -/

/-- A full ring takes nothing. -/
theorem drainCq_full {k : Nat} {x : Sent} (h : cqFull (cqAt x.rings k) = true) (n : Nat) : drainCq k n x = x := by
  cases n <;> simp [drainCq, h]

/-- A ring with room takes the one record that its store holds. -/
theorem drainCq_single {k : Nat} {r : Rec} {x : Sent} (hstore : (cqAt x.rings k).store = [r])
    (henable : (cqAt x.rings k).enable = true) (hroom : cqFull (cqAt x.rings k) = false) :
    drainCq k 1 x = writeRecord k x := by
  simp [drainCq, hstore, henable, hroom]

/-! ## A record posted while its ring has room -/

@[simp] theorem canSend_trace1 (src : Nat) (s : State) (fn : Fn) : canSend (trace1 src s) fn = canSend s fn := by
  cases fn <;> simp [canSend, served, linkUp, busMaster]

/-- A record enters its ring's store and gives back its place (log entry 36). -/
def recordStored (key : Nat) (r : Rec) (s : State) : State :=
  { s with rings := setCq key { cqAt s.rings key with
      store := (cqAt s.rings key).store ++ [r]
      reserved := (cqAt s.rings key).reserved - 1 } s.rings }

theorem postRec_eq (key : Nat) (r : Rec) (s : State) : postRec key r s = flushCq key (trace1 0 (recordStored key r s)) := rfl

/-- The trace record of a completion leaves the stored record as it is. -/
theorem cqAt_trace1_recordStored (key : Nat) (r : Rec) (s : State) :
    cqAt (trace1 0 (recordStored key r s)).rings key = { cqAt s.rings key with
      store := (cqAt s.rings key).store ++ [r]
      reserved := (cqAt s.rings key).reserved - 1 } := by
  rw [cqAt_congr (r := (recordStored key r s).rings) (by simp)]
  exact cqAt_setCq_same ..

theorem sqOf_trace1_recordStored (key : Nat) (r : Rec) (s : State) (fn : Fn) (n : Nat) :
    sqOf (trace1 0 (recordStored key r s)).rings fn n = sqOf s.rings fn n :=
  sqOf_congr (by simp [recordStored]) fn n

/-- Where its ring is enabled with an empty store and a free entry, a posted record is written at the tail at once. -/
theorem postRec_writes {fn : Fn} {m : Nat} (r : Rec) {s : State} (hm : m < ringCount fn) (hsend : canSend s fn = true)
    (hstore : (cqAt s.rings (cqKey fn m)).store = []) (henable : (cqAt s.rings (cqKey fn m)).enable = true)
    (hroom : cqFull (cqAt s.rings (cqKey fn m)) = false) :
    (cqAt (postRec (cqKey fn m) r s).rings (cqKey fn m)).store = [] ∧
      (cqAt (postRec (cqKey fn m) r s).rings (cqKey fn m)).tail =
        ((cqAt s.rings (cqKey fn m)).tail + 1) % 2 ^ (cqAt s.rings (cqKey fn m)).log2 ∧
      recordSent (cqKey fn m) r (sentOf s) ⊆ (postRec (cqKey fn m) r s).out := by
  have hcq := cqAt_trace1_recordStored (cqKey fn m) r s
  have hsends : canSend (trace1 0 (recordStored (cqKey fn m) r s)) (fnOfKey (cqKey fn m)) = true := by
    rw [fnOfKey_cqKey hm, canSend_trace1]
    exact hsend
  have hsq := sqOf_trace1_recordStored (cqKey fn m) r s
  generalize hu : trace1 0 (recordStored (cqKey fn m) r s) = u at hcq hsends hsq
  have hsingle : (cqAt u.rings (cqKey fn m)).store = [r] := by simp [hcq, hstore]
  have hpost : postRec (cqKey fn m) r s = withSent u (writeRecord (cqKey fn m) (sentOf u)) := by
    rw [postRec_eq, hu, flushCq, if_pos hsends, hsingle, List.length_singleton, drainCq_single (r := r) hsingle]
    · simpa [hcq] using henable
    · simpa [hcq, cqFull] using hroom
  obtain ⟨hempty, htail, hsent⟩ := writeRecord_writes (x := sentOf u) hsingle
  rw [hpost]
  refine ⟨by simpa using hempty, by simpa [hcq] using htail, ?_⟩
  simpa [recordSent, hcq, hsq] using hsent

/-- The completing command's record is written with the head that its ring has (R85). -/
theorem finish_writes {fn : Fn} {m : Nat} (n st : Nat) (res : List Nat) {r : Running} {s : State} (hm : m < ringCount fn)
    (hcq : r.cq = cqKey fn m) (hsend : canSend s fn = true) (hstore : (cqAt s.rings (cqKey fn m)).store = [])
    (henable : (cqAt s.rings (cqKey fn m)).enable = true) (hroom : cqFull (cqAt s.rings (cqKey fn m)) = false) :
    (cqAt (finish fn n r st res s).rings (cqKey fn m)).store = [] ∧
      (cqAt (finish fn n r st res s).rings (cqKey fn m)).tail =
        ((cqAt s.rings (cqKey fn m)).tail + 1) % 2 ^ (cqAt s.rings (cqKey fn m)).log2 ∧
      recordSent (cqKey fn m) (cmdDone n r st res) (sentOf s) ⊆ (finish fn n r st res s).out := by
  have hring : cqAt (setRunning fn n none s).rings (cqKey fn m) = cqAt s.rings (cqKey fn m) := rfl
  have hhead : (sqOf (setRunning fn n none s).rings fn n).head = (sqOf s.rings fn n).head := by simp [setRunning]
  have hwrites := postRec_writes (cmdDone n r st res) (s := setRunning fn n none s) hm hsend (by rw [hring, hstore])
    (by rw [hring, henable]) (by rw [hring, hroom])
  have hfinish : finish fn n r st res s = postRec (cqKey fn m) (cmdDone n r st res) (setRunning fn n none s) := by
    rw [← hcq]; rfl
  have hsame : recordSent (cqKey fn m) (cmdDone n r st res) (sentOf (setRunning fn n none s)) =
      recordSent (cqKey fn m) (cmdDone n r st res) (sentOf s) := by
    simp [recordSent, fnOfKey_cqKey hm, cmdDone, hring, hhead]
  rwa [hring, hsame, ← hfinish] at hwrites

end Sys2Proof.Proofs
end

section
/-!
The fetch arbiter (R80): it serves a fetchable ring, the FRAME ring before all others and the others in the order of their
distance from the round robin's turn.
-/
namespace Sys2Proof.Proofs
open Sys2Proof.Machine

/-- How many rings the round robin passes before it comes to ring n. -/
def turnDistance (r : Rings) (fn : Fn) (n : Nat) : Nat :=
  (n + ringCount fn - turnOf r fn % ringCount fn) % ringCount fn

theorem ringCount_pos (fn : Fn) : 0 < ringCount fn := by cases fn <;> decide

theorem turnDistance_lt (r : Rings) (fn : Fn) (n : Nat) : turnDistance r fn n < ringCount fn :=
  Nat.mod_lt _ (ringCount_pos fn)

theorem turn_add_turnDistance {fn : Fn} {n : Nat} (hn : n < ringCount fn) (r : Rings) :
    (turnOf r fn + turnDistance r fn n) % ringCount fn = n := by
  cases fn <;> simp only [turnDistance, ringCount] at hn ⊢ <;> omega

theorem turnDistance_turn_add {fn : Fn} {i : Nat} (hi : i < ringCount fn) (r : Rings) :
    turnDistance r fn ((turnOf r fn + i) % ringCount fn) = i := by
  cases fn <;> simp only [turnDistance, ringCount] at hi ⊢ <;> omega

/-- The two tiers of the arbiter: a fetchable FRAME ring, else the fetchable ring that the round robin comes to first. -/
theorem arbiter_serves {s : State} {fn : Fn} {n : Nat} (h : arbiter s fn = some n) :
    fetchable s fn n = true ∧ n < ringCount fn ∧
      ((sqOf s.rings fn n).kind ≠ .frame → ∀ k < ringCount fn, fetchable s fn k = true →
        (sqOf s.rings fn k).kind ≠ .frame ∧ turnDistance s.rings fn n ≤ turnDistance s.rings fn k) := by
  simp only [arbiter, Option.orElse_eq_orElse, Option.orElse_eq_or, Option.or_eq_some_iff] at h
  rcases h with hframe | ⟨hnone, hrobin⟩
  · have hserved := List.find?_some hframe
    have hmem := List.mem_range.mp (List.mem_of_find?_eq_some hframe)
    obtain ⟨hkind, hfetch⟩ : (sqOf s.rings fn n).kind = .frame ∧ fetchable s fn n = true := by simpa using hserved
    exact ⟨hfetch, hmem, fun hno => absurd hkind hno⟩
  · rw [List.find?_map, Option.map_eq_some_iff] at hrobin
    obtain ⟨i, hfirst, rfl⟩ := hrobin
    obtain ⟨hfetch, hi, hbefore⟩ := List.find?_range_eq_some.mp hfirst
    rw [List.mem_range] at hi
    refine ⟨hfetch, Nat.mod_lt _ (ringCount_pos fn), fun _ k hk hkfetch => ⟨?_, ?_⟩⟩
    · have hno := List.find?_eq_none.mp hnone k (List.mem_range.mpr hk)
      simpa [hkfetch] using hno
    · rw [turnDistance_turn_add hi]
      refine Nat.le_of_not_lt fun hlt => ?_
      have hno := hbefore (turnDistance s.rings fn k) hlt
      simp [turn_add_turnDistance hk, hkfetch] at hno

/-- While a ring is fetchable the arbiter serves one. -/
theorem arbiter_isSome {s : State} {fn : Fn} {n : Nat} (h : fetchable s fn n = true) (hn : n < ringCount fn) :
    (arbiter s fn).isSome = true := by
  simp only [arbiter, Option.orElse_eq_orElse, Option.orElse_eq_or, Option.isSome_or, Bool.or_eq_true, List.find?_isSome,
    List.mem_map]
  exact .inr ⟨n, ⟨turnDistance s.rings fn n, List.mem_range.mpr (turnDistance_lt ..), turn_add_turnDistance hn s.rings⟩, h⟩

end Sys2Proof.Proofs
end

section
/-!
What a descriptor fetch does to its ring and to its completion ring (R81, R84, R86), and the statement on fetches and records.
-/
namespace Sys2Proof.Proofs
open Sys2Proof.Machine Sys2Proof.Laws

/-! ## The place that a fetch reserves (R86) -/

/-- The state in which ring n's fetch is under way: its turn is taken, its place reserved, the link asked for its width. -/
def fetchBegun (fn : Fn) (n : Nat) (s : State) : State :=
  let q := sqOf s.rings fn n
  let rings := if q.kind = .frame then s.rings else setTurn fn ((n + 1) % ringCount fn) s.rings
  askFullWidth (reserve (cqKey fn q.cq) 1 { s with rings })

/-- A fetch that ends there leaves ring n as `q` and posts the record `r`. -/
def fetchEnded (fn : Fn) (n : Nat) (q : Sq) (r : Rec) (s : State) : State :=
  postRec (cqKey fn (sqOf s.rings fn n).cq) r
    { fetchBegun fn n s with rings := setSq fn n q (fetchBegun fn n s).rings }

@[simp] theorem setTurn_cqs (fn : Fn) (n : Nat) (r : Rings) : (setTurn fn n r).cqs = r.cqs := by cases fn <;> rfl

theorem fetchBegun_cqAt (fn : Fn) (n : Nat) (s : State) :
    cqAt (fetchBegun fn n s).rings (cqKey fn (sqOf s.rings fn n).cq) =
      { cqAt s.rings (cqKey fn (sqOf s.rings fn n).cq) with
        reserved := (cqAt s.rings (cqKey fn (sqOf s.rings fn n).cq)).reserved + 1 } := by
  have hturn : ∀ k, cqAt (if (sqOf s.rings fn n).kind = .frame then s.rings
      else setTurn fn ((n + 1) % ringCount fn) s.rings) k = cqAt s.rings k :=
    fun k => cqAt_congr (by split <;> simp) k
  simp [fetchBegun, reserve, hturn]

section
variable {fn : Fn} {n : Nat} {data : Rd} {s : State}

/-! ## The three ends of a fetch (R81, R84) -/

theorem fetchFrom_short (h : data.ok = false ∨ data.bytes.length < 64) :
    fetchFrom fn n data s = fetchEnded fn n { sqOf s.rings fn n with error := true, stopped := true }
      { type := fetchType (sqOf s.rings fn n).kind, status := FETCH_ERROR, sq := n, slot := (sqOf s.rings fn n).head, tag := 0 }
      s := by
  have hshort : (!data.ok || data.bytes.length < 64) = true := by simpa using h
  rw [fetchFrom]
  simp only [hshort, if_true]
  rfl

section
variable (hok : data.ok = true) (hlen : 64 ≤ data.bytes.length)
include hok hlen

theorem fetchFrom_refused {st r0 : Nat}
    (hcheck : fetchCheck s fn (sqOf s.rings fn n).kind (data.bytes.take 64) = some (st, r0)) :
    fetchFrom fn n data s =
      fetchEnded fn n { sqOf s.rings fn n with head := ((sqOf s.rings fn n).head + 1) % 2 ^ (sqOf s.rings fn n).log2 }
        { type := fetchType (sqOf s.rings fn n).kind, status := st, sq := n, slot := (sqOf s.rings fn n).head
          tag := userTag (data.bytes.take 64), irq := hasIrq (data.bytes.take 64), r0 } s := by
  have hwhole : (!data.ok || data.bytes.length < 64) = false := by simp [hok, hlen]
  rw [fetchFrom]
  simp only [hwhole, hcheck, Bool.false_eq_true, if_false]
  rfl

theorem fetchFrom_good (hcheck : fetchCheck s fn (sqOf s.rings fn n).kind (data.bytes.take 64) = none) :
    fetchFrom fn n data s = { fetchBegun fn n s with
      rings := setSq fn n { sqOf s.rings fn n with
        head := ((sqOf s.rings fn n).head + 1) % 2 ^ (sqOf s.rings fn n).log2
        running := some { slot := (sqOf s.rings fn n).head, cq := cqKey fn (sqOf s.rings fn n).cq
                          raw := data.bytes.take 64 } } (fetchBegun fn n s).rings } := by
  have hwhole : (!data.ok || data.bytes.length < 64) = false := by simp [hok, hlen]
  rw [fetchFrom]
  simp only [hwhole, hcheck, Bool.false_eq_true, if_false]
  rfl

end

/-! ## A fetch that ends there -/

theorem postRec_sqs (key : Nat) (r : Rec) (u : State) : (postRec key r u).rings.sqs = u.rings.sqs := by simp

theorem fetchEnded_sqOf (q : Sq) (r : Rec) : sqOf (fetchEnded fn n q r s).rings fn n = q := by
  rw [fetchEnded, sqOf_congr (postRec_sqs ..)]
  exact sqOf_setSq_same ..

theorem fetchEnded_store (q : Sq) (r : Rec) (h : (cqAt s.rings (cqKey fn (sqOf s.rings fn n).cq)).enable = false) :
    (cqAt (fetchEnded fn n q r s).rings (cqKey fn (sqOf s.rings fn n).cq)).store =
      (cqAt s.rings (cqKey fn (sqOf s.rings fn n).cq)).store ++ [r] := by
  rw [fetchEnded, postRec_held _ _ (by simp [fetchBegun_cqAt, h])]
  simp [fetchBegun_cqAt]

/-! ## The command DESCRIPTOR_FETCH (R80) -/

theorem trace1_sqs (src : Nat) (u : State) : (trace1 src u).rings.sqs = u.rings.sqs := by simp
theorem trace1_cqs (src : Nat) (u : State) : (trace1 src u).rings.cqs = u.rings.cqs := by simp
theorem reportRead_rings : (reportRead fn data s).rings = s.rings := by simp
theorem reportRead_ok (h : data.ok = true) : reportRead fn data s = s := by simp [reportRead, h]

theorem exec_descriptorFetch (hsend : canSend s fn = true) (harb : arbiter s fn = some n) :
    exec (.descriptorFetch fn data) s = .next (trace1 0 (fetchFrom fn n data (reportRead fn data s))) := by
  simp [exec, execDescriptorFetch, hsend, harb]

theorem descriptorFetch_only :
    Only [.rings, .hif, .trc, .out, .free] s (trace1 0 (fetchFrom fn n data (reportRead fn data s))) := by
  intro p hp
  cases p <;> simp [Part.same] at hp ⊢

/-- A fetch that ends there leaves its ring as given and its record in the store of a disabled completion ring. -/
theorem descriptorFetch_ended {q : Sq} {r : Rec} (hsend : canSend s fn = true) (harb : arbiter s fn = some n)
    (hfetch : fetchFrom fn n data (reportRead fn data s) = fetchEnded fn n q r (reportRead fn data s)) :
    ∃ t, exec (.descriptorFetch fn data) s = .next t ∧ sqOf t.rings fn n = q ∧
      ((cqAt s.rings (cqKey fn (sqOf s.rings fn n).cq)).enable = false →
        (cqAt t.rings (cqKey fn (sqOf s.rings fn n).cq)).store =
          (cqAt s.rings (cqKey fn (sqOf s.rings fn n).cq)).store ++ [r]) ∧
      Only [.rings, .hif, .trc, .out, .free] s t := by
  refine ⟨_, exec_descriptorFetch hsend harb, ?_, fun henable => ?_, descriptorFetch_only⟩
  · rw [sqOf_congr (trace1_sqs ..), hfetch, fetchEnded_sqOf]
  · have hstore := fetchEnded_store (fn := fn) (n := n) (s := reportRead fn data s) q r
    rw [reportRead_rings] at hstore
    rw [cqAt_congr (trace1_cqs ..), hfetch, hstore henable]

end

/-! ## FRAME and MODE_REQ -/

theorem exec_frame {sq : Nat} {r : Running} {s : State} (hrun : (sqOf s.rings .pf0 sq).running = some r)
    (hop : opcode r.raw = 1) (hroom : s.ing.cands.length < 8) :
    exec (.frame sq) s = .next (setRunning .pf0 sq none
      { s with ing := { s.ing with cands := s.ing.cands ++ [{ sq, slot := r.slot, cq := r.cq, raw := r.raw }] } }) := by
  simp [exec, execFrame, hrun, hop, hroom]

/-- A request for the mode that the unit is in succeeds and changes no mode (R39). -/
theorem exec_modeReq_same {sq : Nat} {r : Running} {s : State} (hready : ready s .pf0 sq 0x13 = some r)
    (htransit : s.sys.transit = none) (hboot : s.sys.mode ≠ .boot) (hmode : modeOf (fieldAt r.raw 0x18 4 % 8) = s.sys.mode) :
    exec (.modeReq sq) s = .next (finish .pf0 sq r SUCCESS [modeNum s.sys.mode] s) := by
  simp only [exec, execModeReq, runRing_ready hready]
  simp [htransit, hboot, hmode]

/-- Settles O37: a fetch ends in one of three ways, and a record is written by one rule wherever it comes from. -/
theorem descriptorsAreFetchedAndRecordsWritten : Obligations.DescriptorsAreFetchedAndRecordsWritten := by
  refine ⟨?good, ?short, ?refused, ?frame, ?record, ?full, ?modeReq, ?finish, ?order, ?some⟩
  case good =>
    rintro fn n data q s hsend harb rfl hok hlen hcheck
    refine ⟨_, exec_descriptorFetch hsend harb, ?_, ?_, descriptorFetch_only⟩
    · rw [reportRead_ok hok, fetchFrom_good hok hlen hcheck, sqOf_congr (trace1_sqs ..)]
      exact sqOf_setSq_same ..
    · rw [reportRead_ok hok, fetchFrom_good hok hlen hcheck, cqAt_congr (trace1_cqs ..)]
      exact fetchBegun_cqAt fn n s
  case short =>
    rintro fn n data q s hsend harb rfl hshort
    have hfetch := fetchFrom_short (fn := fn) (n := n) (s := reportRead fn data s) hshort
    simp only [reportRead_rings] at hfetch
    exact descriptorFetch_ended hsend harb hfetch
  case refused =>
    rintro fn n st r0 data q s hsend harb rfl hok hlen hcheck
    refine descriptorFetch_ended hsend harb ?_
    rw [reportRead_ok hok, fetchFrom_refused hok hlen hcheck]
  case frame =>
    intro sq r s hrun hop hroom
    refine ⟨_, exec_frame hrun hop hroom, by simp [setRunning], rfl, ?_⟩
    intro p hp
    cases p <;> simp [Part.same, setRunning] at hp ⊢
  case record =>
    rintro fn m c r x hm rfl hstore henable hroom hselect
    have hwritten := writeRecord_cons hstore
    rw [if_neg (by simp [hselect])] at hwritten
    rw [drainCq_single hstore henable hroom, hwritten]
    refine ⟨?_, ?_⟩
    · simp [pastRecord, hstore]
    · simp [recordSent, recordWrites, recordBytes, fnOfKey_cqKey hm]
  case full => exact fun k n x hfull => drainCq_full hfull n
  case modeReq =>
    rintro sq m r c s hready htransit hboot hmode hsend hm hcq rfl hstore henable hroom
    have hkey : cqKey .pf0 m = m := by simp [cqKey, fnIdx]
    have hwrites := finish_writes (fn := .pf0) (m := m) sq SUCCESS [modeNum s.sys.mode] hm (by rw [hkey, hcq]) hsend
    simp only [hkey] at hwrites
    obtain ⟨hempty, htail, hsent⟩ := hwrites hstore henable hroom
    refine ⟨_, exec_modeReq_same hready htransit hboot hmode, by simp, hempty, htail, hsent ?_, hsent ?_⟩
    all_goals simp [recordSent, recordWrites, recordBytes, cmdDone, fnOfKey, hm]
  case finish =>
    rintro fn n m st res r c s hsend hm hcq rfl hstore henable hroom
    obtain ⟨hempty, htail, hsent⟩ := finish_writes n st res hm hcq hsend hstore henable hroom
    exact ⟨hempty, htail, hsent (by simp [recordSent, recordWrites, recordBytes, cmdDone, fnOfKey_cqKey hm])⟩
  case order =>
    intro n s harb
    obtain ⟨hfetch, hn, hfirst⟩ := arbiter_serves harb
    exact ⟨hfetch, hn, hfirst⟩
  case some => exact fun fn n s hfetch hn => arbiter_isSome hfetch hn

end Sys2Proof.Proofs
end

section
/-!
An access to module memory, cut at page boundaries: its pieces lie end to end in their pages, and reading them one after the
other reads the whole (R300).
-/
namespace Sys2Proof.Proofs
open Sys2Proof.Machine Sys2Proof.Laws

/-- The page of a piece is a page of the access. -/
theorem page_mem_of_piece {a n : Nat} {q : Nat × Nat} (h : q ∈ pieces a n) : q.1 / 4096 ∈ pagesOf a n := by
  obtain ⟨p, hp, rfl⟩ := List.mem_map.mp h
  obtain ⟨b, hlo, hhi, rfl⟩ := mem_pagesOf.mp hp
  refine mem_pagesOf.mpr ⟨max a (4096 * (b / 4096)), ?_, ?_, rfl⟩ <;> omega

/-- Every page of the access has a piece. -/
theorem piece_of_page {a n p : Nat} (h : p ∈ pagesOf a n) : ∃ q ∈ pieces a n, q.1 / 4096 = p := by
  refine ⟨_, List.mem_map.mpr ⟨p, h, rfl⟩, ?_⟩
  obtain ⟨b, hlo, hhi, rfl⟩ := mem_pagesOf.mp h
  dsimp only
  omega

/-- The first page of an access, before the pages of what follows it in the next page. -/
theorem pagesOf_step (a : Nat) {n : Nat} (hn : n ≠ 0) :
    pagesOf a n = a / 4096 :: pagesOf (a + min n (4096 - a % 4096)) (n - min n (4096 - a % 4096)) := by
  by_cases hfit : n ≤ 4096 - a % 4096
  · have hone : (a + n - 1) / 4096 - a / 4096 + 1 = 1 := by omega
    simp [pagesOf, hn, hone, Nat.min_eq_left hfit]
  · rw [Nat.min_eq_right (by omega)]
    have hrest : n - (4096 - a % 4096) ≠ 0 := by omega
    have hpage : (a + (4096 - a % 4096)) / 4096 = a / 4096 + 1 := by omega
    have hcount : (a + n - 1) / 4096 - a / 4096 + 1 =
        (a + (4096 - a % 4096) + (n - (4096 - a % 4096)) - 1) / 4096 - (a / 4096 + 1) + 1 + 1 := by omega
    rw [pagesOf, if_neg hn, pagesOf, if_neg hrest, hpage, hcount, List.range_succ_eq_map, List.map_cons, List.map_map]
    congr 1
    exact List.map_congr_left fun i _ => by simp only [Function.comp_apply]; omega

/-- The first piece runs to its page's end or the access's, and the others are those of the rest. -/
theorem pieces_step (a : Nat) {n : Nat} (hn : n ≠ 0) :
    pieces a n = (a, min n (4096 - a % 4096)) :: pieces (a + min n (4096 - a % 4096)) (n - min n (4096 - a % 4096)) := by
  rw [pieces, pagesOf_step a hn, List.map_cons, pieces]
  congr 1
  · ext <;> dsimp only <;> omega
  · refine List.map_congr_left fun p hp => ?_
    obtain ⟨b, hlo, hhi, rfl⟩ := mem_pagesOf.mp hp
    ext <;> dsimp only <;> omega

/-- Induction along the pieces of an access: a first piece inside one page, before the pieces of the rest. -/
theorem pieces_induction {P : Nat → Nat → List (Nat × Nat) → Prop} (nil : ∀ a, P a 0 [])
    (cons : ∀ a k m l, 0 < k → a % 4096 + k ≤ 4096 → P (a + k) m l → P a (k + m) ((a, k) :: l)) (a n : Nat) :
    P a n (pieces a n) := by
  induction n using Nat.strongRecOn generalizing a with
  | ind n ih =>
    by_cases hn : n = 0
    · subst hn; exact nil a
    · rw [pieces_step a hn]
      have hrest := cons a (min n (4096 - a % 4096)) _ _ (by omega) (by omega)
        (ih (n - min n (4096 - a % 4096)) (by omega) (a + min n (4096 - a % 4096)))
      rwa [show min n (4096 - a % 4096) + (n - min n (4096 - a % 4096)) = n by omega] at hrest

/-- The pieces are as long as the access. -/
theorem sum_pieces (a n : Nat) : ((pieces a n).map Prod.snd).sum = n := by
  refine pieces_induction (P := fun _ n l => (l.map Prod.snd).sum = n) (fun _ => rfl) ?_ a n
  intro a k m l _ _ ih
  simp [ih]

theorem mgets_add {α : Type} (d : α) (m : SMap α) (a k n : Nat) :
    mgets d m a (k + n) = mgets d m a k ++ mgets d m (a + k) n := by
  induction k generalizing a with
  | zero => simp [mgets]
  | succ k ih => rw [Nat.succ_add, mgets, ih, mgets, Nat.add_assoc, Nat.add_comm 1 k, List.cons_append]

/-- Reading the pieces reads the whole. -/
theorem flatMap_readMem_pieces (s : State) (a n : Nat) :
    (pieces a n).flatMap (fun q => readMem s q.1 q.2) = readMem s a n := by
  refine pieces_induction (P := fun a n l => l.flatMap (fun q => readMem s q.1 q.2) = readMem s a n) (fun _ => rfl) ?_ a n
  intro a k m l _ _ ih
  rw [List.flatMap_cons, ih, readMem, readMem, readMem, mgets_add]

end Sys2Proof.Proofs
end

section
/-!
BAR4 (R65): what one piece of an access does at the kind of page that it meets, and the statement on whole accesses.
-/
namespace Sys2Proof.Proofs
open Sys2Proof.Machine Sys2Proof.Laws

/-! ## Frames -/

theorem only_refl (ps : List Part) (s : State) : Only ps s s := fun p _ => by cases p <;> rfl

theorem only_trans {ps : List Part} {s t u : State} (hst : Only ps s t) (htu : Only ps t u) : Only ps s u := by
  intro p hp
  have h₁ := hst p hp
  have h₂ := htu p hp
  cases p <;> exact Eq.trans h₂ h₁

/-! ## What an access meets -/

/-- The kind of a page rests on the protected pages and the configuration alone. -/
theorem reachOf_congr {s t : State} (hguarded : t.mem.guarded = s.mem.guarded) (hconf : t.conf = s.conf) (p : Nat) :
    reachOf t p = reachOf s p := by
  simp [reachOf, isProtected, hguarded, hconf]

/-! ## Refusals (R293, R381) -/

/-- Between two states accesses were refused: they are counted and reported, and module memory is as it was. -/
def Refused (s t : State) : Prop :=
  t.mem = { s.mem with reservedPosted := t.mem.reservedPosted } ∧ Only [.hif, .rings, .mem, .sec, .trc, .out, .free] s t

theorem Refused.refl (s : State) : Refused s s := ⟨rfl, only_refl _ s⟩

theorem Refused.trans {s t u : State} (hst : Refused s t) (htu : Refused t u) : Refused s u := by
  obtain ⟨hmem₁, honly₁⟩ := hst
  obtain ⟨hmem₂, honly₂⟩ := htu
  exact ⟨by rw [hmem₂, hmem₁], only_trans honly₁ honly₂⟩

theorem Refused.reachOf {s t : State} (h : Refused s t) (p : Nat) : reachOf t p = reachOf s p := by
  obtain ⟨hmem, honly⟩ := h
  exact reachOf_congr (by rw [hmem]) (honly .conf (by decide)) p

theorem Refused.isPoisoned {s t : State} (h : Refused s t) (p : Nat) : isPoisoned t p = isPoisoned s p := by
  obtain ⟨hmem, -⟩ := h
  rw [Machine.isPoisoned, hmem]
  rfl

/-- A reply that follows a refusal changes nothing more. -/
theorem Refused.emit {s t : State} (h : Refused s t) (o : List Output) : Refused s (emit o t) := by
  refine h.trans ⟨rfl, fun p hp => ?_⟩
  cases p <;> simp [Part.same] at hp ⊢

theorem refuseReserved_mem (a : Nat) (write : Bool) (s : State) :
    (refuseReserved a write s).mem = { s.mem with reservedPosted := true } := by
  simp [refuseReserved]

theorem refuseReserved_refused (a : Nat) (write : Bool) (s : State) : Refused s (refuseReserved a write s) := by
  refine ⟨by rw [refuseReserved_mem], fun p hp => ?_⟩
  cases p <;> simp [Part.same] at hp ⊢

theorem refuseProtected_refused (page requester : Nat) (write : Bool) (s : State) :
    Refused s (refuseProtected true page requester write s) := by
  refine ⟨by simp, fun p hp => ?_⟩
  cases p <;> simp [Part.same] at hp ⊢

/-! ## One piece of a read -/

section
variable {q : Nat × Nat} {s : State}

theorem readPiece_plain (d : Bytes) (bad : Bool) (hplain : reachOf s (q.1 / 4096) = .plain)
    (hgood : isPoisoned s (q.1 / 4096) = false) :
    readPiece q (d, bad, s) = (d ++ readMem s q.1 q.2, bad, s) := by
  simp [readPiece, hplain, hgood]

theorem readPiece_poisoned (d : Bytes) (bad : Bool) (hplain : reachOf s (q.1 / 4096) = .plain)
    (hbad : isPoisoned s (q.1 / 4096) = true) :
    readPiece q (d, bad, s) = (d ++ readMem s q.1 q.2, true, uncorrectable (q.1 / 4096) 0 s) := by
  simp [readPiece, hplain, hbad]

/-- A piece outside plain memory reads as zeros. -/
theorem readPiece_refused (d : Bytes) (bad : Bool) (hreach : reachOf s (q.1 / 4096) ≠ .plain) :
    ∃ t, readPiece q (d, bad, s) = (d ++ List.replicate q.2 0, bad, t) ∧ Refused s t := by
  cases h : reachOf s (q.1 / 4096) with
  | reserved => exact ⟨refuseReserved q.1 false s, by simp only [readPiece, h], refuseReserved_refused _ _ s⟩
  | push => exact ⟨s, by simp only [readPiece, h], .refl s⟩
  | guarded =>
    exact ⟨refuseProtected true (q.1 / 4096) 0 false s, by simp only [readPiece, h], refuseProtected_refused _ _ _ s⟩
  | plain => exact absurd h hreach

/-- Whatever it meets, a piece reads as many bytes as it has. -/
theorem length_readPiece (acc : Bytes × Bool × State) : (readPiece q acc).1.length = acc.1.length + q.2 := by
  obtain ⟨d, bad, s⟩ := acc
  cases hreach : reachOf s (q.1 / 4096) with
  | reserved | push | guarded => simp [readPiece, hreach]
  | plain => cases hbad : isPoisoned s (q.1 / 4096) <;> simp [readPiece, hreach, hbad, readMem]

end

/-! ## Poison along a read (R305) -/

theorem uncorrectable_mem (p requester : Nat) (s : State) :
    (uncorrectable p requester s).mem = { s.mem with
      poison := mput 0 p 0xFFFFFFFF s.mem.poison
      raw := mput false p false s.mem.raw
      reported := mput false p true s.mem.reported
      uncorrectable := satAdd 0xFFFF s.mem.uncorrectable 1
      lastErr := 4096 * p } := by
  unfold uncorrectable
  dsimp only
  split <;> simp

/-- A page stays poisoned when another, or itself, is found uncorrectable. -/
theorem isPoisoned_uncorrectable {s : State} {k : Nat} (h : isPoisoned s k = true) (p requester : Nat) :
    isPoisoned (uncorrectable p requester s) k = true := by
  rw [isPoisoned, uncorrectable_mem]
  by_cases hk : k = p
  · have hset : 16 ≤ (bitList 0xFFFFFFFF 32).length := by decide
    simp [badPage, poisonWord, hk, hset]
  · simp only [badPage, poisonWord, mget_mput_other _ _ _ hk]
    exact h

/-- A piece of a read leaves the kind of every page as it was, and leaves poisoned pages poisoned. -/
theorem readPiece_keeps (q : Nat × Nat) (d : Bytes) (bad : Bool) (s : State) (k : Nat) :
    reachOf (readPiece q (d, bad, s)).2.2 k = reachOf s k ∧
      (isPoisoned s k = true → isPoisoned (readPiece q (d, bad, s)).2.2 k = true) ∧
      (bad = true → (readPiece q (d, bad, s)).2.1 = true) := by
  by_cases hplain : reachOf s (q.1 / 4096) = .plain
  · cases hbad : isPoisoned s (q.1 / 4096) with
    | false => rw [readPiece_plain d bad hplain hbad]; exact ⟨rfl, id, id⟩
    | true =>
      rw [readPiece_poisoned d bad hplain hbad]
      exact ⟨reachOf_congr (by rw [uncorrectable_mem]) (by simp) k, fun h => isPoisoned_uncorrectable h _ _, fun _ => rfl⟩
  · obtain ⟨t, hread, hrefused⟩ := readPiece_refused d bad hplain
    rw [hread]
    exact ⟨hrefused.reachOf k, (hrefused.isPoisoned k).trans, id⟩

/-! ## The pieces of a read -/

theorem readPieces_plain {l : List (Nat × Nat)} {s : State} (d : Bytes) (bad : Bool)
    (h : ∀ q ∈ l, reachOf s (q.1 / 4096) = .plain ∧ isPoisoned s (q.1 / 4096) = false) :
    readPieces l (d, bad, s) = (d ++ l.flatMap (fun q => readMem s q.1 q.2), bad, s) := by
  induction l generalizing d with
  | nil => simp [readPieces]
  | cons q l ih =>
    obtain ⟨hplain, hgood⟩ := h q List.mem_cons_self
    rw [readPieces, readPiece_plain d bad hplain hgood, ih _ fun r hr => h r (List.mem_cons_of_mem q hr)]
    simp

theorem readPieces_refused {l : List (Nat × Nat)} {s : State} (d : Bytes) (bad : Bool)
    (h : ∀ q ∈ l, reachOf s (q.1 / 4096) ≠ .plain) :
    ∃ t, readPieces l (d, bad, s) = (d ++ List.replicate (l.map Prod.snd).sum 0, bad, t) ∧ Refused s t := by
  induction l generalizing d s with
  | nil => exact ⟨s, by simp [readPieces], .refl s⟩
  | cons q l ih =>
    obtain ⟨t, hfirst, hst⟩ := readPiece_refused d bad (h q List.mem_cons_self)
    obtain ⟨u, hrest, htu⟩ := ih (s := t) (d ++ List.replicate q.2 0) fun r hr => by
      rw [hst.reachOf]
      exact h r (List.mem_cons_of_mem q hr)
    exact ⟨u, by rw [readPieces, hfirst, hrest]; simp, hst.trans htu⟩

theorem length_readPieces (l : List (Nat × Nat)) (acc : Bytes × Bool × State) :
    (readPieces l acc).1.length = acc.1.length + (l.map Prod.snd).sum := by
  induction l generalizing acc with
  | nil => rfl
  | cons q l ih => rw [readPieces, ih, length_readPiece, List.map_cons, List.sum_cons, Nat.add_assoc]

/-- Once one piece has met a poisoned page the reply is poisoned. -/
theorem readPieces_bad {l : List (Nat × Nat)} {acc : Bytes × Bool × State}
    (h : acc.2.1 = true ∨ ∃ q ∈ l, reachOf acc.2.2 (q.1 / 4096) = .plain ∧ isPoisoned acc.2.2 (q.1 / 4096) = true) :
    (readPieces l acc).2.1 = true := by
  induction l generalizing acc with
  | nil => simpa [readPieces] using h
  | cons q l ih =>
    obtain ⟨d, bad, s⟩ := acc
    rw [readPieces]
    refine ih ?_
    obtain hbad | ⟨r, hr, hplain, hpoison⟩ := h
    · exact .inl ((readPiece_keeps q d bad s 0).2.2 hbad)
    · obtain rfl | hrest := List.mem_cons.mp hr
      · rw [readPiece_poisoned d bad hplain hpoison]
        exact .inl rfl
      · obtain ⟨hreach, hkeep, -⟩ := readPiece_keeps q d bad s (r.1 / 4096)
        exact .inr ⟨r, hrest, hreach.trans hplain, hkeep hpoison⟩

/-! ## Whole reads -/

section
variable {a n : Nat} {s : State}

theorem readBar4_plain (h : ∀ p ∈ pagesOf a n, reachOf s p = .plain ∧ isPoisoned s p = false) :
    readBar4 a n s = emit [.bar4Reply (readMem s a n) false] s := by
  have hread := readPieces_plain [] false fun q hq => h _ (page_mem_of_piece hq)
  rw [List.nil_append, flatMap_readMem_pieces] at hread
  simp only [readBar4, hread]

theorem readBar4_refused (h : ∀ p ∈ pagesOf a n, reachOf s p ≠ .plain) :
    ∃ t, readBar4 a n s = emit [.bar4Reply (List.replicate n 0) false] t ∧ Refused s t := by
  obtain ⟨t, hread, hrefused⟩ := readPieces_refused [] false fun q hq => h _ (page_mem_of_piece hq)
  rw [List.nil_append, sum_pieces] at hread
  exact ⟨t, by simp only [readBar4, hread], hrefused⟩

theorem readBar4_poisoned (h : ∃ p ∈ pagesOf a n, reachOf s p = .plain ∧ isPoisoned s p = true) :
    ∃ d : Bytes, (readBar4 a n s).out.head? = some (.bar4Reply d true) ∧ d.length = n := by
  obtain ⟨p, hp, hpoisoned⟩ := h
  obtain ⟨q, hq, rfl⟩ := piece_of_page hp
  have hbad := readPieces_bad (acc := ([], false, s)) (.inr ⟨q, hq, hpoisoned⟩)
  refine ⟨(readPieces (pieces a n) ([], false, s)).1, by simp [readBar4, hbad], ?_⟩
  rw [length_readPieces, sum_pieces]
  exact Nat.zero_add n

theorem readBar4_only (a n : Nat) (s : State) :
    Only [.hif, .rings, .mem, .lin, .sec, .trc, .out, .free] s (readBar4 a n s) := by
  intro p hp
  cases p <;> simp [Part.same] at hp ⊢

end

/-! ## The pieces of a write (R300) -/

section
variable {s : State} (a : Nat) (d : Bytes)

theorem writePiece_plain (hplain : reachOf s (a / 4096) = .plain) (hgood : isPoisoned s (a / 4096) = false) :
    writePiece a d s = writeMem a d s := by
  simp [writePiece, hplain, writePage, hgood]

theorem writePiece_refused (h : reachOf s (a / 4096) = .reserved ∨ reachOf s (a / 4096) = .guarded) :
    Refused s (writePiece a d s) := by
  obtain h | h := h
  · simpa only [writePiece, h] using refuseReserved_refused _ _ s
  · simpa only [writePiece, h] using refuseProtected_refused _ _ _ s

theorem isWritten_writeMem (p : Nat) :
    isWritten (writeMem a d s) p = if p ∈ pagesOf a d.length then true else isWritten s p :=
  mget_mputAll_const false true ..

/-- A write poisons no page. -/
theorem isPoisoned_writeMem {p : Nat} (h : isPoisoned s p = false) : isPoisoned (writeMem a d s) p = false := by
  simp only [isPoisoned, badPage, poisonWord, writeMem, writeMemOf, mget_mputAll_const] at h ⊢
  split
  · simp
  · exact h

theorem reachOf_writeMem (p : Nat) : reachOf (writeMem a d s) p = reachOf s p := reachOf_congr rfl rfl p

theorem writeMem_only : Only [.mem] s (writeMem a d s) := by
  intro p hp
  cases p <;> simp [Part.same] at hp ⊢

end

/-- The pieces of a write that begins at module address `base`, each with its own bytes. -/
def writePieces (base : Nat) (d : Bytes) (l : List (Nat × Nat)) (s : State) : State :=
  forAll l (fun q s => writePiece q.1 ((d.drop (q.1 - base)).take q.2) s) s

theorem writeBar4_eq (a : Nat) (d : Bytes) (s : State) : writeBar4 a d s = writePieces a d (pieces a d.length) s := rfl

theorem writePieces_cons (base : Nat) (d : Bytes) (q : Nat × Nat) (l : List (Nat × Nat)) (s : State) :
    writePieces base d (q :: l) s = writePieces base d l (writePiece q.1 ((d.drop (q.1 - base)).take q.2) s) := rfl

theorem writePieces_refused (base : Nat) (d : Bytes) {l : List (Nat × Nat)} {s : State}
    (h : ∀ q ∈ l, reachOf s (q.1 / 4096) = .reserved ∨ reachOf s (q.1 / 4096) = .guarded) :
    Refused s (writePieces base d l s) := by
  induction l generalizing s with
  | nil => exact .refl s
  | cons q l ih =>
    rw [writePieces_cons]
    have hfirst := writePiece_refused q.1 ((d.drop (q.1 - base)).take q.2) (h q List.mem_cons_self)
    refine hfirst.trans (ih fun r hr => ?_)
    rw [hfirst.reachOf]
    exact h r (List.mem_cons_of_mem q hr)

/-- Between two states the bytes `d` from `base` on were written where they lie in the n bytes from `a` on, and nothing else. -/
def WroteRange (base : Nat) (d : Bytes) (a n : Nat) (s t : State) : Prop :=
  (∀ b, mget 0 t.mem.bytes b = if a ≤ b ∧ b < a + n then d.getD (b - base) 0 else mget 0 s.mem.bytes b) ∧
    (∀ p, isWritten t p = if p ∈ pagesOf a n then true else isWritten s p) ∧ Only [.mem] s t

/-- The pages of an access are those of its two parts. -/
theorem mem_pagesOf_add {a k m p : Nat} : p ∈ pagesOf a (k + m) ↔ p ∈ pagesOf a k ∨ p ∈ pagesOf (a + k) m := by
  simp only [mem_pagesOf]
  constructor
  · rintro ⟨b, hlo, hhi, rfl⟩
    by_cases hb : b < a + k
    · exact .inl ⟨b, hlo, hb, rfl⟩
    · exact .inr ⟨b, by omega, by omega, rfl⟩
  · rintro (⟨b, hlo, hhi, rfl⟩ | ⟨b, hlo, hhi, rfl⟩)
    · exact ⟨b, hlo, by omega, rfl⟩
    · exact ⟨b, by omega, by omega, rfl⟩

/-- Two tests with the same answer are one test of either. -/
theorem ite_ite_of_iff_or {α : Type} {p q r : Prop} [Decidable p] [Decidable q] [Decidable r] {x y : α} (h : r ↔ p ∨ q) :
    (if p then x else if q then x else y) = if r then x else y := by
  by_cases hp : p
  · rw [if_pos hp, if_pos (h.mpr (.inl hp))]
  · have hrq : r ↔ q := h.trans (or_iff_right hp)
    simp only [hp, if_false, hrq]

theorem WroteRange.trans {base a k m : Nat} {d : Bytes} {s t u : State} (hst : WroteRange base d a k s t)
    (htu : WroteRange base d (a + k) m t u) : WroteRange base d a (k + m) s u := by
  obtain ⟨hbytes₁, hpages₁, honly₁⟩ := hst
  obtain ⟨hbytes₂, hpages₂, honly₂⟩ := htu
  refine ⟨fun b => ?_, fun p => ?_, only_trans honly₁ honly₂⟩
  · rw [hbytes₂, hbytes₁]
    exact ite_ite_of_iff_or (by omega)
  · rw [hpages₂, hpages₁]
    exact ite_ite_of_iff_or (mem_pagesOf_add.trans or_comm)

/-- Writing a piece's own bytes writes its range. -/
theorem writeMem_wrote {base a k : Nat} {d : Bytes} (hbase : base ≤ a) (hlen : a - base + k ≤ d.length) (s : State) :
    WroteRange base d a k s (writeMem a ((d.drop (a - base)).take k) s) := by
  have hk : ((d.drop (a - base)).take k).length = k := by simp; omega
  refine ⟨fun b => ?_, fun p => ?_, writeMem_only a _⟩
  · rw [writeMem_byte, hk]
    split
    · rw [List.getD_eq_getElem?_getD, List.getElem?_take, if_pos (by omega), List.getElem?_drop,
        show a - base + (b - a) = b - base by omega, ← List.getD_eq_getElem?_getD]
    · rfl
  · rw [isWritten_writeMem, hk]

/-- Where it meets plain unpoisoned pages alone, a write puts each of its bytes at its place. -/
theorem writePieces_plain (base : Nat) (d : Bytes) (a n : Nat) (s : State) (hbase : base ≤ a) (hlen : a - base + n ≤ d.length)
    (h : ∀ p ∈ pagesOf a n, reachOf s p = .plain ∧ isPoisoned s p = false) :
    WroteRange base d a n s (writePieces base d (pieces a n) s) := by
  refine pieces_induction (P := fun a n l => ∀ s, base ≤ a → a - base + n ≤ d.length →
    (∀ p ∈ pagesOf a n, reachOf s p = .plain ∧ isPoisoned s p = false) → WroteRange base d a n s (writePieces base d l s))
    ?nil ?cons a n s hbase hlen h
  case nil =>
    intro a s _ _ _
    refine ⟨fun b => ?_, fun p => rfl, only_refl _ s⟩
    rw [if_neg (by omega)]
    rfl
  case cons =>
    intro a k m l hk hfits ih s hbase hlen hclean
    have hfirst : a / 4096 ∈ pagesOf a (k + m) := mem_pagesOf.mpr ⟨a, Nat.le_refl a, by omega, rfl⟩
    obtain ⟨hplain, hgood⟩ := hclean _ hfirst
    rw [writePieces_cons, writePiece_plain a _ hplain hgood]
    refine (writeMem_wrote hbase (by omega) s).trans (ih _ (by omega) (by omega) fun p hp => ?_)
    obtain ⟨hplain, hgood⟩ := hclean p (mem_pagesOf_add.mpr (.inr hp))
    exact ⟨(reachOf_writeMem a _ p).trans hplain, isPoisoned_writeMem a _ hgood⟩

/-! ## The commands -/

section
variable {off : Nat} {s : State} (hup : hostUp s = true)
include hup

theorem exec_bar4Read {n : Nat} (hwindow : off + n ≤ 2 ^ s.hif.bar4Log2) :
    exec (.bar4Read off n) s = .next (readBar4 (bar4Addr s off) n s) := by
  simp only [exec, execBar4Read, hostOp_of_hostUp hup, if_pos hwindow]

theorem exec_bar4Read_outside {n : Nat} (hwindow : 2 ^ s.hif.bar4Log2 < off + n) : exec (.bar4Read off n) s = .next s := by
  simp only [exec, execBar4Read, hostOp_of_hostUp hup, if_neg (Nat.not_le.mpr hwindow)]

theorem exec_bar4Write {d : Bytes} (hwindow : off + d.length ≤ 2 ^ s.hif.bar4Log2) :
    exec (.bar4Write off d false) s = .next (writeBar4 (bar4Addr s off) d s) := by
  simp only [exec, execBar4Write, hostOp_of_hostUp hup, Bool.false_eq_true, if_false, if_neg (Nat.not_lt.mpr hwindow)]

theorem exec_bar4Write_outside {d : Bytes} (hwindow : 2 ^ s.hif.bar4Log2 < off + d.length) :
    exec (.bar4Write off d false) s = .next s := by
  simp only [exec, execBar4Write, hostOp_of_hostUp hup, Bool.false_eq_true, if_false, if_pos hwindow]

theorem exec_bar4Write_poisoned (d : Bytes) : exec (.bar4Write off d true) s = .next (aer .pf0 AER_POISONED s) := by
  simp only [exec, execBar4Write, hostOp_of_hostUp hup, if_true]

end

/-- An error that AER reports touches configuration space, the link and the free values. -/
theorem aer_only (fn : Fn) (b : Nat) (s : State) : Only [.hif, .out, .free] s (aer fn b s) := by
  intro p hp
  cases p <;> simp [Part.same] at hp ⊢

/-- Settles O56: an access is its pieces, and each piece acts by the kind of its page. -/
theorem bar4ReachesModuleMemory : Obligations.Bar4ReachesModuleMemory := by
  refine ⟨?read, ?readRefused, ?readPoisoned, ?write, ?writeRefused, ?writePoisoned, ?outside⟩
  case read =>
    intro off n s hup hwindow hclean
    rw [exec_bar4Read hup hwindow, readBar4_plain hclean]
  case readRefused =>
    intro off n s hup hwindow hreach
    obtain ⟨t, hread, hrefused⟩ := readBar4_refused hreach
    obtain ⟨hmem, honly⟩ := hrefused.emit [.bar4Reply (List.replicate n 0) false]
    exact ⟨_, by rw [exec_bar4Read hup hwindow, hread], rfl, hmem, honly⟩
  case readPoisoned =>
    intro off n s hup hwindow hpoisoned
    obtain ⟨d, hreply, hlength⟩ := readBar4_poisoned hpoisoned
    exact ⟨_, d, exec_bar4Read hup hwindow, hreply, hlength, by simp, readBar4_only _ _ s⟩
  case write =>
    intro off d s hup hwindow hclean
    obtain ⟨hbytes, hpages, honly⟩ :=
      writePieces_plain _ d _ d.length s (Nat.le_refl _) (by simp) hclean
    refine ⟨_, (exec_bar4Write hup hwindow).trans (by rw [writeBar4_eq]), fun k hk => ?_, fun a ha => ?_, fun p hp => ?_, honly⟩
    · rw [hbytes, if_pos (by omega), Nat.add_sub_cancel_left]
    · rw [hbytes, if_neg (by omega)]
    · rw [hpages, if_pos hp]
  case writeRefused =>
    intro off d s hup hwindow hreach
    obtain ⟨hmem, honly⟩ := writePieces_refused (bar4Addr s off) d fun q hq => hreach _ (page_mem_of_piece hq)
    exact ⟨_, exec_bar4Write hup hwindow, hmem, honly⟩
  case writePoisoned =>
    intro off d s hup
    exact ⟨_, exec_bar4Write_poisoned hup d, rfl, aer_only _ _ s⟩
  case outside =>
    exact fun off n d s hup => ⟨exec_bar4Read_outside hup, exec_bar4Write_outside hup⟩

end Sys2Proof.Proofs
end

section
/-!
What sending records, events and messages leaves alone of the host interface: everything but the messages held, WAKE# and a
LINK_DEGRADED that is due.
-/
namespace Sys2Proof.Proofs
open Sys2Proof.Machine Sys2Proof.Laws

/-- The host interface without what sending may change: the pending bits, WAKE# and a LINK_DEGRADED due. -/
def linkView (h : Hif) : Hif := { h with pba := [], wakePin := false, degradedDue := none }

/-! ## Records and events on their rings (R85 to R89) -/

@[simp] theorem signalCq_linkView (k : Nat) (x : Sent) : linkView (signalCq k x).hif = linkView x.hif := by
  unfold signalCq
  dsimp only
  (repeat' split) <;> rfl

@[simp] theorem signalEq_linkView (fn : Fn) (x : Sent) : linkView (signalEq fn x).hif = linkView x.hif := by
  unfold signalEq
  dsimp only
  (repeat' split) <;> rfl

@[simp] theorem writeRecord_linkView (k : Nat) (x : Sent) : linkView (writeRecord k x).hif = linkView x.hif := by
  unfold writeRecord
  dsimp only
  split
  · rfl
  · split <;> simp

@[simp] theorem drainCq_linkView (k n : Nat) (x : Sent) : linkView (drainCq k n x).hif = linkView x.hif := by
  induction n generalizing x with
  | zero => rfl
  | succ n ih =>
    unfold drainCq
    dsimp only
    split
    · rw [ih, writeRecord_linkView]
    · rfl

@[simp] theorem writeEvent_linkView (fn : Fn) (v : Ev) (x : Sent) : linkView (writeEvent fn v x).hif = linkView x.hif := by
  unfold writeEvent
  dsimp only
  split
  · rfl
  · split <;> simp

@[simp] theorem drainEq_linkView (fn : Fn) (n : Nat) (x : Sent) : linkView (drainEq fn n x).hif = linkView x.hif := by
  induction n generalizing x with
  | zero => rfl
  | succ n ih =>
    unfold drainEq
    dsimp only
    split
    · rfl
    · split
      · rfl
      · rw [ih, writeEvent_linkView]

@[simp] theorem eventWake_linkView (fn : Fn) (x : Sent) : linkView (eventWake fn x).hif = linkView x.hif := by
  unfold eventWake
  (repeat' split) <;> rfl

/-! ## Flushing (R61, R440, R441) -/

@[simp] theorem flushCq_linkView (k : Nat) (s : State) : linkView (flushCq k s).hif = linkView s.hif := by
  unfold flushCq
  split <;> simp

@[simp] theorem flushEq_linkView (fn : Fn) (s : State) : linkView (flushEq fn s).hif = linkView s.hif := by
  unfold flushEq
  split <;> simp

@[simp] theorem flushTrace_hif (s : State) : (flushTrace s).hif = s.hif := by
  unfold flushTrace
  split <;> simp

@[simp] theorem sendPending_linkView (fn : Fn) (s : State) : linkView (sendPending fn s).hif = linkView s.hif := by
  unfold sendPending
  dsimp only
  split <;> rfl

@[simp] theorem flushAll_linkView (s : State) : linkView (flushAll s).hif = linkView s.hif := by
  have hrings : linkView (forAll (s.rings.cqs.map Prod.fst) flushCq s).hif = linkView s.hif :=
    forAll_keeps (fun s => linkView s.hif) _ _ s (by simp)
  simpa [flushAll, forAll] using hrings

/-! ## Posting (R86, R441) -/

@[simp] theorem postTo_linkView (fn : Fn) (v : Ev) (s : State) : linkView (postTo fn v s).hif = linkView s.hif := by
  unfold postTo
  split
  · rfl
  · split <;> simp

@[simp] theorem post_linkView (code sev : Nat) (p : List Nat) (s : State) :
    linkView (post code sev p s).hif = linkView s.hif := postTo_linkView ..

@[simp] theorem postIf_linkView (c : Bool) (code sev : Nat) (p : List Nat) (s : State) :
    linkView (postIf c code sev p s).hif = linkView s.hif := by
  unfold postIf
  split <;> simp

@[simp] theorem postRec_linkView (k : Nat) (r : Rec) (s : State) : linkView (postRec k r s).hif = linkView s.hif := by
  simp [postRec]

@[simp] theorem finish_linkView (fn : Fn) (n : Nat) (r : Running) (st : Nat) (res : List Nat) (s : State) :
    linkView (finish fn n r st res s).hif = linkView s.hif := by
  simp [finish, setRunning]

@[simp] theorem finishAll_linkView (fn : Fn) (l : List Nat) (op st : Nat) (res : List Nat) (s : State) :
    linkView (finishAll fn l op st res s).hif = linkView s.hif := by
  refine forAll_keeps (fun s => linkView s.hif) _ _ s fun n s => ?_
  split <;> simp

end Sys2Proof.Proofs
end

section
/-!
How the link's figures and power states change (R58 to R62, R69): one fact for each operation on the link.
-/
namespace Sys2Proof.Proofs
open Sys2Proof.Machine Sys2Proof.Laws

/-! ## Calibration runs leave the link alone, and an idle unit's rings (R342) -/

@[simp] theorem endRun_linkView (j : CalJob) (s : State) : linkView (endRun j s).hif = linkView s.hif := by
  have hposts : ∀ s : State, linkView (forAll (linksOf j.target) (fun l s =>
      post 0x0F01 0 [l, mget 0 j.accepted l, mget 0 j.rejected l] s) s).hif = linkView s.hif :=
    fun s => forAll_keeps (fun s => linkView s.hif) _ _ s (by simp)
  unfold endRun
  dsimp only
  split <;> simp [hposts]

@[simp] theorem startRuns_linkView (n : Nat) (s : State) : linkView (startRuns n s).hif = linkView s.hif := by
  induction n generalizing s with
  | zero => rfl
  | succ n ih =>
    unfold startRuns
    dsimp only
    split
    · rw [ih]
      split <;> simp
    · rfl

@[simp] theorem nextRuns_linkView (s : State) : linkView (nextRuns s).hif = linkView s.hif := startRuns_linkView ..

@[simp] theorem pruneRun_linkView (s : State) : linkView (pruneRun s).hif = linkView s.hif := by
  unfold pruneRun keepLanes settleRuns
  dsimp only
  split
  · rfl
  · rw [nextRuns_linkView]
    exact forAll_keeps (fun s => linkView s.hif) _ _ _ (by simp)

@[simp] theorem autoRun_linkView (link : Nat) (s : State) : linkView (autoRun link s).hif = linkView s.hif := by
  unfold autoRun
  split <;> simp

theorem pruneRun_of_idle {s : State} (h : s.cal.jobs = []) : pruneRun s = s := by
  simp only [pruneRun, keepLanes, settleRuns, h, List.map_nil, List.filter_nil, List.isEmpty_nil, if_true]
  rw [← h]

/-- A run that no command asked for ends without a completion. -/
theorem endRun_sqs {j : CalJob} (h : j.ring = none) (s : State) : (endRun j s).rings.sqs = s.rings.sqs := by
  simp [endRun, h]

/-- With no run waiting, the only run that an automatic request can start is its own. -/
theorem autoRun_sqs {s : State} (link : Nat) (h : s.cal.waiting = []) : (autoRun link s).rings.sqs = s.rings.sqs := by
  unfold autoRun
  split
  · simp only [h, nextRuns, List.nil_append, List.length_singleton, startRuns]
    split
    · rename_i j hj
      have hring : j.ring = none := by
        obtain rfl : j = { target := link } := by simpa using List.mem_of_find?_eq_some hj
        rfl
      split
      · exact endRun_sqs (j := startedJob _ j) hring _
      · rfl
    · rfl
  · rfl

/-! ## Training (R58, R70, R337) -/

@[simp] theorem linkDegraded_linkView (width : Nat) (bad : BitVec 16) (s : State) :
    linkView (linkDegraded width bad s).hif = linkView s.hif := by
  unfold linkDegraded
  split
  · rfl
  · split
    · simp
    · rfl

@[simp] theorem startLanes_waiting (before : Hif) (s : State) : (startLanes before s).cal.waiting = s.cal.waiting := by
  unfold startLanes
  split
  · exact forAll_keeps (fun s => s.cal.waiting) _ _ s fun _ _ => rfl
  · rfl

@[simp] theorem dropStreams_linkView (s : State) : linkView (dropStreams s).hif = linkView s.hif :=
  forAll_keeps (fun s => linkView s.hif) _ _ s (by simp [streamState, setStream])

/-- The unit once its link has trained at a width: the figures are taken, and receivers start (R58, R337). -/
def lanesTrained (speed w : Nat) (flit : Bool) (bad : BitVec 16) (s : State) : State :=
  startLanes s.hif { pruneRun s with hif := trained speed w flit bad (pruneRun s).hif }

/-- The same, with the streams dropped outside Flit mode (R70). -/
def trainedAt (speed w : Nat) (flit : Bool) (bad : BitVec 16) (s : State) : State :=
  if flit then lanesTrained speed w flit bad s else dropStreams (lanesTrained speed w flit bad s)

theorem exec_linkTrained {speed offer w : Nat} {flit : Bool} {bad : BitVec 16} {s : State} (hmay : mayTrain s = true)
    (hwidth : trainedWidth speed offer flit bad = some w) :
    exec (.linkTrained speed offer flit bad) s =
      .next (autoRun 1 (flushAll (linkDegraded w bad (trainedAt speed w flit bad s)))) := by
  simp only [exec, execLinkTrained, hmay, if_true, hwidth, trainedAt, lanesTrained]

theorem trainedAt_linkView (speed w : Nat) (flit : Bool) (bad : BitVec 16) (s : State) :
    linkView (trainedAt speed w flit bad s).hif = linkView (trained speed w flit bad (pruneRun s).hif) := by
  cases flit <;> simp [trainedAt, lanesTrained]

/-- A trained link takes its figures whatever goes out over it then. -/
theorem linkTrained_linkView (speed w : Nat) (flit : Bool) (bad : BitVec 16) (s : State) :
    linkView (autoRun 1 (flushAll (linkDegraded w bad (trainedAt speed w flit bad s)))).hif =
      linkView (trained speed w flit bad (pruneRun s).hif) := by
  simp [trainedAt_linkView]

theorem linkTrained_only (speed w : Nat) (flit : Bool) (bad : BitVec 16) (s : State) :
    Only [.hif, .rings, .cal, .sec, .trc, .out, .free] s
      (autoRun 1 (flushAll (linkDegraded w bad (trainedAt speed w flit bad s)))) := by
  intro p hp
  cases flit <;> cases p <;> simp [Part.same, trainedAt, lanesTrained] at hp ⊢

theorem linkTrained_sqs (speed w : Nat) (flit : Bool) (bad : BitVec 16) {s : State} (hjobs : s.cal.jobs = [])
    (hwaiting : s.cal.waiting = []) :
    (autoRun 1 (flushAll (linkDegraded w bad (trainedAt speed w flit bad s)))).rings.sqs = s.rings.sqs := by
  rw [autoRun_sqs 1 (by cases flit <;> simp [trainedAt, lanesTrained, pruneRun_of_idle hjobs, hwaiting])]
  cases flit <;> simp [trainedAt, lanesTrained, pruneRun_of_idle hjobs]

theorem linkTrained_sec (w : Nat) (bad : BitVec 16) (u : State) :
    (autoRun 1 (flushAll (linkDegraded w bad u))).sec = u.sec := by simp

theorem linkTrained_insecure (speed w : Nat) (bad : BitVec 16) (s : State) {g : Nat} (hg : g < 4) :
    (streamOf (autoRun 1 (flushAll (linkDegraded w bad (trainedAt speed w false bad s)))) g).secure = false := by
  rw [streamOf, linkTrained_sec, trainedAt, if_neg Bool.false_ne_true, ← streamOf, streamOf_dropStreams hg]

/-- The partner's offer, cut to what the lanes support, at the rates of Table 3.1. -/
theorem trainedWidth_eq_some_iff {speed offer w : Nat} {flit : Bool} {bad : BitVec 16} :
    trainedWidth speed offer flit bad = some w ↔
      linkWidth offer = true ∧ 1 ≤ speed ∧ speed ≤ 6 ∧ (flit = true ∨ speed ≠ 6) ∧
        ∃ v, widestWidth bad = some v ∧ w = min offer v := by
  simp only [trainedWidth]
  split
  · rename_i h
    simp only [Bool.and_eq_true, Bool.or_eq_true, decide_eq_true_eq, and_assoc] at h
    obtain ⟨hoffer, hlo, hhi, hflit⟩ := h
    simp only [hoffer, hlo, hhi, hflit, true_and]
    rw [Option.map_eq_some_iff]
    exact exists_congr fun v => and_congr_right fun _ => eq_comm
  · rename_i h
    simp only [Bool.and_eq_true, Bool.or_eq_true, decide_eq_true_eq, and_assoc] at h
    exact ⟨fun hnone => by simp at hnone, fun ⟨hoffer, hlo, hhi, hflit, _⟩ => absurd ⟨hoffer, hlo, hhi, hflit⟩ h⟩

end Sys2Proof.Proofs
end

section
/-!
The statement on the link: its power states, and what comes over it (Tables 3.1, 3.3 and 3.6).
-/
namespace Sys2Proof.Proofs
open Sys2Proof.Machine Sys2Proof.Laws

/-! ## Width (R59, R60) -/

section
variable {w : L0pChange} {s : State} (hup : hostUp s = true)
include hup

theorem exec_l0pWidthChange (hlanes : linkWidth w.lanes = true)
    (hmay : w.own = false ∨ s.hif.l0pWidth ≤ min w.lanes s.hif.width ∨ mayNarrow s (min w.lanes s.hif.width) = true) :
    exec (.l0pWidthChange w) s = .next { s with hif := { s.hif with
      l0pWidth := min w.lanes s.hif.width
      wantFull := s.hif.wantFull && decide (min w.lanes s.hif.width < s.hif.width) } } := by
  have hallowed : (w.own && min w.lanes s.hif.width < s.hif.l0pWidth && !(mayNarrow s (min w.lanes s.hif.width))) = false := by
    obtain h | h | h := hmay
    · simp [h]
    · simp [Nat.not_lt.mpr h]
    · simp [h]
  simp only [exec, execL0pWidthChange, hostOp_of_hostUp hup, hlanes, hallowed, Bool.not_true, Bool.or_false,
    Bool.false_eq_true, if_false]

theorem exec_l0pWidthChange_refused (hown : w.own = true) (hnarrow : min w.lanes s.hif.width < s.hif.l0pWidth)
    (hmay : mayNarrow s (min w.lanes s.hif.width) = false) : exec (.l0pWidthChange w) s = .next s := by
  have hrefused : (w.own && min w.lanes s.hif.width < s.hif.l0pWidth && !(mayNarrow s (min w.lanes s.hif.width))) = true := by
    simp only [hown, hnarrow, hmay, decide_true, Bool.not_false, Bool.and_self]
  simp only [exec, execL0pWidthChange, hostOp_of_hostUp hup, hrefused, Bool.or_true, if_true]

end

/-! ## L1 (R61) -/

theorem leaveL1_of_l1 {s : State} (h : s.hif.power = .l1) :
    leaveL1 s = flushAll { s with hif := { s.hif with power := .l0 } } := if_pos h

theorem leaveL1_only (s : State) : Only [.hif, .rings, .out] s (leaveL1 s) := by
  intro p hp
  cases p <;> simp [Part.same] at hp ⊢

theorem leaveL1_power {s : State} (h : s.hif.power = .l1) : (leaveL1 s).hif.power = .l0 := by simp [leaveL1_of_l1 h]

theorem leaveL1_sqs (s : State) : (leaveL1 s).rings.sqs = s.rings.sqs := by simp

/-! ## LIVE is left for HOLD (R62, R69) -/

@[simp] theorem postDone_linkView (s : State) : linkView (postDone s).hif = linkView s.hif := by
  unfold postDone
  split
  · split <;> simp
  · rfl

theorem postDone_out {l : List Output} {s : State} (h : l <:+ s.out) : l <:+ (postDone s).out := by
  unfold postDone
  split
  · split
    · exact postRec_out h
    · exact h
  · exact h

@[simp] theorem leaveLive_linkView (s : State) : linkView (leaveLive s).hif = linkView s.hif := by
  unfold leaveLive
  split
  · simp [lastScanKnown, beginTransit]
  · rfl

theorem leaveLive_out {l : List Output} {s : State} (h : l <:+ s.out) : l <:+ (leaveLive s).out := by
  unfold leaveLive
  split
  · exact postDone_out h
  · exact h

theorem leaveLive_transit {s : State} (hmode : s.sys.mode = .live) (htransit : s.sys.transit = none) :
    (leaveLive s).sys.transit = some { target := .hold } := by
  simp [leaveLive, beginTransit, hmode, htransit]

theorem leaveLive_of_not_live {s : State} (hmode : s.sys.mode ≠ .live) : leaveLive s = s := by simp [leaveLive, hmode]

/-! ## L2, D3hot and D0 (R62, R69) -/

/-- The link in L2, with PME_TO_Ack sent (R62). -/
def inL2 (s : State) : State := emit [.pmeToAck] { s with hif := { linkOff s.hif with power := .l2 } }

theorem exec_pmeTurnOff {s : State} (hup : hostUp s = true) : exec .pmeTurnOff s = .next (leaveLive (inL2 s)) := by
  simp only [exec, execPmeTurnOff, hostOp_of_hostUp hup, inL2]

theorem exec_d3hotEntry (pme : Bool) {s : State} (h : configurable s = true) :
    exec (.d3hotEntry pme) s = .next (enterD3hot pme s) := cfgOp_of_configurable h

theorem exec_d0Return (pme : Bool) {s : State} (h : configurable s = true) :
    exec (.d0Return pme) s = .next (returnD0 pme s) := cfgOp_of_configurable h

theorem enterD3hot_linkView (pme : Bool) (s : State) :
    linkView (enterD3hot pme s).hif = linkView { s.hif with d3hot := true, pmeEn := pme } := by simp [enterD3hot]

theorem stayInHold_of_live {s : State} (hmode : s.sys.mode = .live) : stayInHold s = s := by simp [stayInHold, hmode]

theorem enterD3hot_transit_of_live (pme : Bool) {s : State} (hmode : s.sys.mode = .live) (htransit : s.sys.transit = none) :
    (enterD3hot pme s).sys.transit = some { target := .hold } := by
  rw [enterD3hot, stayInHold_of_live]
  · exact leaveLive_transit hmode htransit
  · exact hmode

/-- A HOLD that was to become LIVE stays HOLD. -/
theorem enterD3hot_transit_of_hold (pme : Bool) {s : State} (hmode : s.sys.mode = .hold)
    (htarget : ∀ x, s.sys.transit = some x → x.target = .live) : (enterD3hot pme s).sys.transit = none := by
  rw [enterD3hot, leaveLive_of_not_live (by simp [hmode]), stayInHold]
  cases htransit : s.sys.transit with
  | none => simp [htransit]
  | some x => simp [hmode, htarget x htransit]

@[simp] theorem answerRing_link (s : State) : (answerRing s).hif = { s.hif with rung := false } := by
  unfold answerRing
  split
  · simp
  · rename_i h
    have hrung : s.hif.rung = false := by simpa using h
    rw [← hrung]

theorem returnD0_linkView (pme : Bool) (s : State) :
    linkView (returnD0 pme s).hif = linkView { s.hif with d3hot := false, pmeEn := pme, rung := false } := by
  have hflushed := flushAll_linkView { s with hif := { s.hif with d3hot := false, pmeEn := pme } }
  rw [returnD0, answerRing_link]
  exact congrArg (fun h : Hif => { h with rung := false }) hflushed

theorem returnD0_only (pme : Bool) (s : State) : Only [.sys, .hif, .rings, .twl, .out] s (returnD0 pme s) := by
  intro p hp
  cases p <;> simp [Part.same] at hp ⊢

/-- Where no doorbell rang meanwhile, the return to D0 only sends what was held. -/
theorem returnD0_of_not_rung (pme : Bool) {s : State} (h : s.hif.rung = false) :
    returnD0 pme s = flushAll { s with hif := { s.hif with d3hot := false, pmeEn := pme } } := by
  have hrung : (flushAll { s with hif := { s.hif with d3hot := false, pmeEn := pme } }).hif.rung = false :=
    (congrArg Hif.rung (flushAll_linkView _)).trans h
  simp [returnD0, answerRing, hrung]

theorem flushAll_only (h : Hif) (s : State) : Only [.hif, .rings, .out] s (flushAll { s with hif := h }) := by
  intro p hp
  cases p <;> simp [Part.same] at hp ⊢

/-! ## What comes over the link (Table 3.3) -/

/-- Every command that comes over the link acts on the state that its access finds. -/
theorem exec_eq_hostOp {i : Instr} (h : overLink i = true) : ∃ f, ∀ s, exec i s = hostOp f s := by
  cases i
  case registerRead fn a size => cases a <;> exact ⟨_, fun _ => rfl⟩
  case registerWrite fn a size v poisoned => cases a <;> exact ⟨_, fun _ => rfl⟩
  case msixMask fn t => cases t <;> exact ⟨_, fun _ => rfl⟩
  case msixUnmask fn t => cases t <;> exact ⟨_, fun _ => rfl⟩
  case hotReset | flrPf0 | flrPf1 | linkDown | l0pWidthChange | pmeTurnOff | d3hotEntry | d0Return | busMasterEnableSet
      | busMasterEnableClear | bar4Resize | marginingCommand | bar4Read | bar4Write | pushHeaderCommit | pushPayloadWrite
      | sysSetupLockWrite | hifBar4BaseWrite | sysGpioOutWrite | cueSignalWrite | pwrBraceWrite | sqEnable | sqDisable
      | sqErrorClear | cqEnable | cqDisable | eqEnable | eqDisable | submissionDoorbell | completionHeadDoorbell
      | eventHeadDoorbell | twillTestStart | twillTestStop | twillTestRead | twillErrorInject =>
    exact ⟨_, fun _ => rfl⟩
  all_goals exact absurd h Bool.false_ne_true

/-- Settles O35: each change of the link is a named update, of which sending keeps the view. -/
theorem linkStatesFollowTheHost : Obligations.LinkStatesFollowTheHost := by
  refine ⟨?trained, fun _ _ _ _ _ => trainedWidth_eq_some_iff, ?width, ?noWidth, ?idle, ?exit, ?l2, ?d3hot, ?d0, ?overLink, ?l1,
    ?silent⟩
  case trained =>
    intro speed offer w flit bad s hmay hwidth
    have hview := linkTrained_linkView speed w flit bad s
    refine ⟨_, exec_linkTrained hmay hwidth, congrArg Hif.power hview, congrArg Hif.speed hview, congrArg Hif.width hview,
      congrArg Hif.flit hview, congrArg Hif.l0pWidth hview, congrArg Hif.badLanes hview, congrArg Hif.degraded hview,
      linkTrained_sqs speed w flit bad, ?_, ?_, linkTrained_only speed w flit bad s⟩
    · rintro rfl
      simp [trainedAt, lanesTrained]
    · rintro rfl g hg
      exact linkTrained_insecure speed w bad s hg
  case width =>
    intro w s hup hlanes hmay
    exact ⟨_, exec_l0pWidthChange hup hlanes hmay, rfl, rfl, rfl, rfl, fun p hp => by cases p <;> simp [Part.same] at hp ⊢⟩
  case noWidth => exact fun w s hup hown hnarrow hmay => exec_l0pWidthChange_refused hup hown hnarrow hmay
  case idle =>
    intro s hpower henabled hbusy hmode
    simp [exec, execL1IdleExpiry, hpower, henabled, hbusy, hmode]
  case exit => exact fun s hl1 => ⟨_, rfl, leaveL1_power hl1, leaveL1_sqs s, leaveL1_only s⟩
  case l2 =>
    intro s hup
    have hview := leaveLive_linkView (inL2 s)
    have hack : .pmeToAck ∈ (leaveLive (inL2 s)).out := (leaveLive_out (List.suffix_refl _)).subset List.mem_cons_self
    exact ⟨_, exec_pmeTurnOff hup, hack, congrArg Hif.power hview, congrArg Hif.speed hview, congrArg Hif.width hview,
      by simp [inL2], fun hmode htransit => leaveLive_transit (s := inL2 s) hmode htransit, by simp [inL2]⟩
  case d3hot =>
    intro pme s hconf
    have hview := enterD3hot_linkView pme s
    exact ⟨_, exec_d3hotEntry pme hconf, congrArg Hif.d3hot hview, congrArg Hif.pmeEn hview, by simp,
      enterD3hot_transit_of_hold pme, enterD3hot_transit_of_live pme, by simp⟩
  case d0 =>
    intro pme s hconf
    have hview := returnD0_linkView pme s
    refine ⟨_, exec_d0Return pme hconf, congrArg Hif.d3hot hview, congrArg Hif.pmeEn hview, by simp, fun hrung => ?_,
      returnD0_only pme s⟩
    rw [returnD0_of_not_rung pme hrung]
    exact flushAll_only _ s
  case overLink =>
    intro i s hover hfall hl1
    obtain ⟨f, hexec⟩ := exec_eq_hostOp hover
    rw [hexec, hexec, hostOp_l1 hl1 hfall, hostOp_up (by simp [linkUp, leaveL1_power hl1]) (by simpa using hfall)]
  case l1 => exact fun s hl1 => ⟨by simp [linkUp, leaveL1_power hl1], leaveL1_sqs s, leaveL1_only s⟩
  case silent =>
    intro i s hover hsilent
    obtain ⟨f, hexec⟩ := exec_eq_hostOp hover
    rw [hexec]
    obtain h | h | h := hsilent
    · exact hostOp_down (.inl h)
    · exact hostOp_down (.inr h)
    · exact hostOp_fall h

end Sys2Proof.Proofs
end

section
/-!
The host's configuration writes (R63, R66, R88, R344, R440), each as the update of the state that it is.
-/
namespace Sys2Proof.Proofs
open Sys2Proof.Machine Sys2Proof.Laws

/-! ## Bits of MSI-X (R88) -/

/-- Vectors of a function's MSI-X table (Table 3.4). -/
def vectorCount : Fn → Nat
  | .pf0 => 256
  | .pf1 => 32

theorem vectorCount_le (fn : Fn) : vectorCount fn ≤ 256 := by cases fn <;> decide

/-- Function Mask of a function. -/
def functionMask (h : Hif) : Fn → Bool
  | .pf0 => h.fmask0
  | .pf1 => h.fmask1

theorem setMsix_vector {fn : Fn} {v : Nat} (hv : v < vectorCount fn) (b : Bool) (h : Hif) :
    setMsix fn (.vector v) b h = { h with unmasked := mput false (256 * fnIdx fn + v) b h.unmasked } := if_pos hv

theorem setMsix_enable (fn : Fn) (b : Bool) (h : Hif) :
    msixOn (setMsix fn .enable b h) fn = b ∧ (setMsix fn .enable b h).unmasked = h.unmasked := by
  cases fn <;> exact ⟨rfl, rfl⟩

theorem setMsix_function (fn : Fn) (b : Bool) (h : Hif) :
    functionMask (setMsix fn .function b h) fn = !b ∧ (setMsix fn .function b h).unmasked = h.unmasked ∧
      (setMsix fn .function b h).pba = h.pba := by
  cases fn <;> exact ⟨rfl, rfl, rfl⟩

theorem mask_vector (fn : Fn) (v : Nat) (s : State) :
    mask fn (.vector v) s = { s with hif := setMsix fn (.vector v) false s.hif } := by simp [mask]

theorem mask_function (fn : Fn) (s : State) :
    mask fn .function s = { s with hif := setMsix fn .function false s.hif } := by simp [mask]

theorem mask_enable (fn : Fn) (s : State) :
    mask fn .enable s = dropHeld fn { s with hif := setMsix fn .enable false s.hif } := by simp [mask]

theorem dropHeld_pba (fn : Fn) (s : State) {v : Nat} (hv : v < 256) :
    mget false (dropHeld fn s).hif.pba (256 * fnIdx fn + v) = false := by
  rw [dropHeld, mget_mclear, if_pos (by omega)]

/-- A view of the host interface fixes the bits of MSI-X. -/
theorem msix_of_linkView {h h' : Hif} (hview : linkView h = linkView h') (fn : Fn) :
    msixOn h fn = msixOn h' fn ∧ functionMask h fn = functionMask h' fn ∧ h.unmasked = h'.unmasked := by
  cases fn
  · exact ⟨(congrArg Hif.msixOn0 hview :), (congrArg Hif.fmask0 hview :), (congrArg Hif.unmasked hview :)⟩
  · exact ⟨(congrArg Hif.msixOn1 hview :), (congrArg Hif.fmask1 hview :), (congrArg Hif.unmasked hview :)⟩

theorem unmask_linkView (fn : Fn) (t : MsixTarget) (s : State) :
    linkView (unmask fn t s).hif = linkView (setMsix fn t true s.hif) := sendPending_linkView ..

/-! ## A pending message that has become open (R88) -/

theorem key_mem_of_mget {α : Type} {d : α} {m : SMap α} {k : Nat} (h : mget d m k ≠ d) : k ∈ m.map Prod.fst := by
  induction m with
  | nil => exact absurd rfl h
  | cons p m ih =>
    obtain ⟨j, v⟩ := p
    by_cases hj : j = k
    · simp [hj]
    · simp only [mget, hj, if_false] at h
      exact List.mem_cons_of_mem j (ih h)

/-- The pending vectors of a function that are open. -/
def pendingDue (fn : Fn) (s : State) : List Nat :=
  ((s.hif.pba.map Prod.fst).filter (fun k => k / 256 = fnIdx fn && vectorOpen s.hif fn (k % 256))).map (· % 256)

theorem sendPending_sent {fn : Fn} {s : State} (hsend : canSend s fn = true) :
    (sendPending fn s).out = ((pendingDue fn s).map (Output.msix fn)).reverse ++ s.out ∧
      (sendPending fn s).hif.pba =
        mkeep (fun k => !(k / 256 = fnIdx fn && (pendingDue fn s).contains (k % 256))) s.hif.pba := by
  rw [sendPending, if_pos hsend]
  exact ⟨rfl, rfl⟩

theorem key_div_mod (fn : Fn) {v : Nat} (hv : v < 256) :
    (256 * fnIdx fn + v) / 256 = fnIdx fn ∧ (256 * fnIdx fn + v) % 256 = v := by omega

theorem mem_pendingDue {fn : Fn} {v : Nat} {s : State} (hv : v < 256) (hopen : vectorOpen s.hif fn v = true)
    (hpending : mget false s.hif.pba (256 * fnIdx fn + v) = true) : v ∈ pendingDue fn s := by
  obtain ⟨hfn, hvector⟩ := key_div_mod fn hv
  have hkey : 256 * fnIdx fn + v ∈ s.hif.pba.map Prod.fst := key_mem_of_mget (d := false) (by simp [hpending])
  exact List.mem_map.mpr ⟨_, List.mem_filter.mpr ⟨hkey, by simp [hfn, hvector, hopen]⟩, hvector⟩

/-- A pending vector that is open goes out and is pending no more. -/
theorem sendPending_sends {fn : Fn} {v : Nat} {s : State} (hsend : canSend s fn = true) (hv : v < 256)
    (hopen : vectorOpen s.hif fn v = true) (hpending : mget false s.hif.pba (256 * fnIdx fn + v) = true) :
    .msix fn v ∈ (sendPending fn s).out ∧ mget false (sendPending fn s).hif.pba (256 * fnIdx fn + v) = false := by
  have hdue := mem_pendingDue hv hopen hpending
  obtain ⟨hfn, hvector⟩ := key_div_mod fn hv
  obtain ⟨hout, hpba⟩ := sendPending_sent hsend
  rw [hout, hpba, mget_mkeep, if_neg (by simp [hfn, hvector, hdue])]
  exact ⟨List.mem_append_left _ (List.mem_reverse.mpr (List.mem_map_of_mem hdue)), rfl⟩

theorem unmask_vector_sends {fn : Fn} {v : Nat} {s : State} (hsend : canSend s fn = true) (hv : v < vectorCount fn)
    (hon : msixOn s.hif fn = true) (hmask : functionMask s.hif fn = false)
    (hpending : mget false s.hif.pba (256 * fnIdx fn + v) = true) :
    .msix fn v ∈ (unmask fn (.vector v) s).out ∧ mget false (unmask fn (.vector v) s).hif.pba (256 * fnIdx fn + v) = false := by
  have hopen : vectorOpen (setMsix fn (.vector v) true s.hif) fn v = true := by
    rw [setMsix_vector hv]
    cases fn <;> simp_all [vectorOpen, msixOn, functionMask]
  refine sendPending_sends ?_ (Nat.lt_of_lt_of_le hv (vectorCount_le fn)) hopen ?_
  · rw [setMsix_vector hv]; exact hsend
  · rw [setMsix_vector hv]; exact hpending

theorem unmask_only (fn : Fn) (t : MsixTarget) (s : State) : Only [.hif, .rings, .out] s (unmask fn t s) := by
  intro p hp
  cases p <;> simp [Part.same] at hp ⊢

/-! ## The commands -/

section
variable {s : State}

theorem hif_only (h : Hif) : Only [.hif] s { s with hif := h } := by
  intro p hp
  cases p <;> simp [Part.same] at hp ⊢

theorem exec_msixMask_vector (hup : hostUp s = true) (fn : Fn) (v : Nat) :
    exec (.msixMask fn (.vector v)) s = .next (mask fn (.vector v) s) := hostOp_of_hostUp hup

theorem exec_msixUnmask_vector (hup : hostUp s = true) (fn : Fn) (v : Nat) :
    exec (.msixUnmask fn (.vector v)) s = .next (unmask fn (.vector v) s) := hostOp_of_hostUp hup

section
variable (hconf : configurable s = true)
include hconf

theorem exec_busMasterEnableSet_pf0 :
    exec (.busMasterEnableSet .pf0) s = .next (flushAll { s with hif := { s.hif with bme0 := true } }) := by
  simp only [exec, execBusMasterEnableSet, cfgOp_of_configurable hconf]

theorem exec_busMasterEnableSet_pf1 :
    exec (.busMasterEnableSet .pf1) s = .next (flushAll { s with hif := { s.hif with bme1 := true } }) := by
  simp only [exec, execBusMasterEnableSet, cfgOp_of_configurable hconf]

theorem exec_busMasterEnableClear :
    exec (.busMasterEnableClear .pf0) s = .next { s with hif := { s.hif with bme0 := false } } ∧
      exec (.busMasterEnableClear .pf1) s = .next { s with hif := { s.hif with bme1 := false } } := by
  simp only [exec, execBusMasterEnableClear, cfgOp_of_configurable hconf, and_self]

theorem exec_msixMask_function (fn : Fn) : exec (.msixMask fn .function) s = .next (mask fn .function s) :=
  cfgOp_of_configurable hconf

theorem exec_msixMask_enable (fn : Fn) : exec (.msixMask fn .enable) s = .next (mask fn .enable s) :=
  cfgOp_of_configurable hconf

theorem exec_msixUnmask_function (fn : Fn) : exec (.msixUnmask fn .function) s = .next (unmask fn .function s) :=
  cfgOp_of_configurable hconf

theorem exec_msixUnmask_enable (fn : Fn) : exec (.msixUnmask fn .enable) s = .next (unmask fn .enable s) :=
  cfgOp_of_configurable hconf

theorem exec_registerWrite_config (fn : Fn) (r : CfgReg) (size : Nat) (v : Word) (poisoned : Bool) :
    exec (.registerWrite fn (.config r) size v poisoned) s = .next (writeCfg fn r v s) := cfgOp_of_configurable hconf

theorem exec_bar4Resize {n : Nat} (hlo : 8 ≤ n) (hhi : n ≤ 17) :
    exec (.bar4Resize n) s = .next { s with hif := { s.hif with bar4Log2 := 20 + n } } := by
  simp [exec, execBar4Resize, cfgOp_of_configurable hconf, resizeBar4, hlo, hhi]

theorem exec_marginingCommand {lane : Nat} (hlane : lane < 16) (active : Bool) :
    exec (.marginingCommand lane active) s = .next (setEye lane { eyeOf s lane with margining := active } s) := by
  simp only [exec, execMarginingCommand, cfgOp_of_configurable hconf, if_pos hlane]

end

theorem exec_eyeScanSweepDone {lane : Nat} (h : scans s lane = true) (rows cols : List (List Bool)) :
    exec (.eyeScanSweepDone lane rows cols) s =
      .next (setEye lane { eyeOf s lane with sweep := some (eyeFigure rows, eyeFigure cols) } s) := by
  simp only [exec, execEyeScanSweepDone, h, if_true]

end

theorem cfgOf_setCfg (fn : Fn) (c : Cfg) (h : Hif) : cfgOf (setCfg fn c h) fn = c := by cases fn <;> rfl

theorem eyeOf_setEye (lane k : Nat) (e : EyeLane) (s : State) :
    eyeOf (setEye lane e s) k = if k = lane then e else eyeOf s k := mget_mput ({} : EyeLane) lane k e s.hif.eye

/-! ## Holdoffs (R88) -/

/-- A holdoff that ends with nothing selected sends nothing. -/
theorem exec_holdoffExpiry_idle {fn : Fn} {m : Nat} {s : State} (h : (cqAt s.rings (cqKey fn m)).hoDue = false) :
    exec (.holdoffExpiry (.cq fn m)) s = .next { s with
      rings := setCq (cqKey fn m) { cqAt s.rings (cqKey fn m) with hoActive := false } s.rings } := by
  simp only [exec, execHoldoffExpiry, h, Bool.and_false, Bool.false_eq_true, if_false]

/-- The state in which a completion ring's holdoff has ended and its record is about to be signalled. -/
def holdoffEnded (fn : Fn) (m : Nat) (c : Cq) (s : State) : State :=
  { s with rings := setCq (cqKey fn m) { c with hoActive := false, hoDue := false } s.rings }

/-- A ring with no holdoff running sends its message at once, and its holdoff begins. -/
theorem signalCq_sends {fn : Fn} {m : Nat} {c : Cq} {s : State} (hm : m < ringCount fn)
    (hcq : cqAt s.rings (cqKey fn m) = c) (hactive : c.hoActive = false) (hopen : vectorOpen s.hif fn c.vector = true) :
    signalCq (cqKey fn m) (sentOf s) = { sentOf s with
      rings := setCq (cqKey fn m) { c with hoActive := decide (c.holdoff ≠ 0) } s.rings
      out := .msix fn c.vector :: s.out } := by
  simp only [signalCq, sentOf, hcq, hactive, hopen, fnOfKey_cqKey hm, Bool.false_eq_true, if_false, if_true]

/-- One that ends with a record selected ends the holdoff and signals the ring. -/
theorem exec_holdoffExpiry_signals {fn : Fn} {m : Nat} {c : Cq} {s : State} (hm : m < ringCount fn)
    (hsend : canSend s fn = true) (hcq : cqAt s.rings (cqKey fn m) = c) (hactive : c.hoActive = true) (hdue : c.hoDue = true) :
    exec (.holdoffExpiry (.cq fn m)) s = .next (withSent (holdoffEnded fn m c s)
      (signalCq (cqKey fn m) (sentOf (holdoffEnded fn m c s)))) := by
  have hsends : canSend (holdoffEnded fn m c s) fn = true := hsend
  simp only [holdoffEnded] at hsends ⊢
  simp only [exec, execHoldoffExpiry, hcq, hactive, hdue, Bool.and_self, if_true, dueCq, fnOfKey_cqKey hm, hsends]

/-- One that ends with a record selected sends one message, and the next holdoff begins. -/
theorem exec_holdoffExpiry_due {fn : Fn} {m : Nat} {s : State} (hm : m < ringCount fn) (hsend : canSend s fn = true)
    (hactive : (cqAt s.rings (cqKey fn m)).hoActive = true) (hdue : (cqAt s.rings (cqKey fn m)).hoDue = true)
    (hopen : vectorOpen s.hif fn (cqAt s.rings (cqKey fn m)).vector = true) :
    ∃ t, exec (.holdoffExpiry (.cq fn m)) s = .next t ∧ t.out = .msix fn (cqAt s.rings (cqKey fn m)).vector :: s.out ∧
      (cqAt t.rings (cqKey fn m)).hoDue = false ∧
      (cqAt t.rings (cqKey fn m)).hoActive = decide ((cqAt s.rings (cqKey fn m)).holdoff ≠ 0) ∧ Only [.rings, .out] s t := by
  refine ⟨_, exec_holdoffExpiry_signals hm hsend rfl hactive hdue, ?_, ?_, ?_, fun p hp => ?_⟩
  all_goals rw [signalCq_sends (s := holdoffEnded fn m _ s) hm (cqAt_setCq_same ..) rfl hopen]
  · rfl
  · exact congrArg Cq.hoDue (cqAt_setCq_same ..)
  · exact congrArg Cq.hoActive (cqAt_setCq_same ..)
  · cases p <;> simp [Part.same, holdoffEnded, sentOf] at hp ⊢

/-- Settles O36: each configuration write is a named update, and what it lets through goes out by the rules of sending. -/
theorem configurationSpaceWrites : Obligations.ConfigurationSpaceWrites := by
  refine ⟨?setBme0, ?setBme1, fun s hconf => exec_busMasterEnableClear hconf, ?maskVector, ?maskFunction, ?maskEnable,
    ?unmaskVector, ?unmask, ?held, fun n s hconf hlo hhi => exec_bar4Resize hconf hlo hhi, ?margining, ?sweep,
    ?holdoffIdle, ?holdoffDue⟩
  case setBme0 =>
    intro s hconf
    have hview := flushAll_linkView { s with hif := { s.hif with bme0 := true } }
    exact ⟨_, exec_busMasterEnableSet_pf0 hconf, (congrArg Hif.bme0 hview :), (congrArg Hif.bme1 hview :), by simp,
      flushAll_only _ s⟩
  case setBme1 =>
    intro s hconf
    have hview := flushAll_linkView { s with hif := { s.hif with bme1 := true } }
    exact ⟨_, exec_busMasterEnableSet_pf1 hconf, (congrArg Hif.bme1 hview :), (congrArg Hif.bme0 hview :), by simp,
      flushAll_only _ s⟩
  case maskVector =>
    intro fn v s hup hv
    refine ⟨_, exec_msixMask_vector hup fn v, ?_, fun k hk => ?_, ?_⟩
    all_goals rw [mask_vector]
    · rw [setMsix_vector hv, mget_mput_same]
    · rw [setMsix_vector hv, mget_mput_other _ _ _ hk]
    · exact hif_only _
  case maskFunction =>
    intro fn s hconf
    obtain ⟨hmask, hunmasked, hpba⟩ := setMsix_function fn false s.hif
    refine ⟨_, (exec_msixMask_function hconf fn).trans (congrArg _ (mask_function fn s)), hmask, hunmasked, hpba, hif_only _⟩
  case maskEnable =>
    intro fn s hconf
    obtain ⟨hon, hunmasked⟩ := setMsix_enable fn false s.hif
    refine ⟨_, (exec_msixMask_enable hconf fn).trans (congrArg _ (mask_enable fn s)), ?_, hunmasked,
      fun v hv => dropHeld_pba fn _ hv, fun p hp => ?_⟩
    · cases fn <;> exact hon
    · cases p <;> simp [Part.same] at hp ⊢
  case unmaskVector =>
    intro fn v s hup hsend hv hon hmask hpending
    obtain ⟨-, -, hunmasked⟩ := msix_of_linkView (unmask_linkView fn (.vector v) s) fn
    obtain ⟨hsent, hcleared⟩ := unmask_vector_sends hsend hv hon hmask hpending
    refine ⟨_, exec_msixUnmask_vector hup fn v, ?_, hsent, hcleared, by simp, unmask_only fn _ s⟩
    rw [hunmasked, setMsix_vector hv, mget_mput_same]
  case unmask =>
    intro fn s hconf
    obtain ⟨hon, -, hunmaskedOn⟩ := msix_of_linkView (unmask_linkView fn .enable s) fn
    obtain ⟨-, hmask, hunmaskedMask⟩ := msix_of_linkView (unmask_linkView fn .function s) fn
    obtain ⟨honSet, hsameOn⟩ := setMsix_enable fn true s.hif
    obtain ⟨hmaskSet, hsameMask, -⟩ := setMsix_function fn true s.hif
    exact ⟨_, _, exec_msixUnmask_enable hconf fn, hon.trans honSet, unmask_only fn _ s, exec_msixUnmask_function hconf fn,
      hmask.trans hmaskSet, hunmaskedOn.trans hsameOn, hunmaskedMask.trans hsameMask, unmask_only fn _ s⟩
  case held =>
    intro fn size v s hconf
    refine ⟨_, _, exec_registerWrite_config hconf .., ?_, hif_only _, exec_registerWrite_config hconf .., ?_, hif_only _⟩
    · exact congrArg Cfg.deviceControl (cfgOf_setCfg ..)
    · exact congrArg Cfg.aerUnc (cfgOf_setCfg ..)
  case margining =>
    intro lane active s hconf hlane
    refine ⟨_, exec_marginingCommand hconf hlane active, ?_, fun k hk => ?_, hif_only _⟩
    · rw [eyeOf_setEye, if_pos rfl]
    · rw [eyeOf_setEye, if_neg hk]
  case sweep =>
    intro lane rows cols s hscans
    refine ⟨_, exec_eyeScanSweepDone hscans rows cols, ?_, fun k hk => ?_, hif_only _⟩
    · rw [eyeOf_setEye, if_pos rfl]
    · rw [eyeOf_setEye, if_neg hk]
  case holdoffIdle =>
    intro fn m s hm hdue
    refine ⟨_, exec_holdoffExpiry_idle hdue, cqAt_setCq_same .., rfl, fun p hp => ?_⟩
    cases p <;> simp [Part.same] at hp ⊢
  case holdoffDue =>
    intro m s hm hsend hactive hdue hopen
    have hkey : cqKey .pf0 m = m := by simp [cqKey, fnIdx]
    have hsends := exec_holdoffExpiry_due (fn := .pf0) (m := m) hm hsend
    simp only [hkey] at hsends
    exact hsends hactive hdue hopen

end Sys2Proof.Proofs
end

section
/-!
What sending leaves of a ring (R85 to R89, R441): the registers that the host sets up, its head, and the places reserved.
-/
namespace Sys2Proof.Proofs
open Sys2Proof.Machine Sys2Proof.Laws

/-- A completion ring without what sending may change: tail, phase, stored records and messages held. -/
def cqSetup (c : Cq) : Cq :=
  { c with tail := 0, phase := true, store := [], hoActive := false, hoDue := false, held := false }

/-- An event ring without what sending may change. -/
def eqSetup (e : Eq) : Eq :=
  { e with tail := 0, phase := true, lost := 0, lostRun := 0, pend := [], pendLost := 0, hoActive := false, hoDue := false
           held := false }

/-- A completion ring whose set-up stays is set up in the ring map as before. -/
theorem cqSetup_setCq {k : Nat} {c : Cq} {r : Rings} (h : cqSetup c = cqSetup (cqAt r k)) (j : Nat) :
    cqSetup (cqAt (setCq k c r) j) = cqSetup (cqAt r j) := by
  rw [cqAt_setCq]
  split
  · rename_i hj; rw [hj, h]
  · rfl

theorem signalCq_cqSetup (k j : Nat) (x : Sent) : cqSetup (cqAt (signalCq k x).rings j) = cqSetup (cqAt x.rings j) := by
  unfold signalCq
  dsimp only
  split
  · exact cqSetup_setCq (by rfl) j
  · split
    · exact cqSetup_setCq (by rfl) j
    · split
      · exact cqSetup_setCq (by rfl) j
      · rfl

theorem writeRecord_cqSetup (k j : Nat) (x : Sent) : cqSetup (cqAt (writeRecord k x).rings j) = cqSetup (cqAt x.rings j) := by
  cases hstore : (cqAt x.rings k).store with
  | nil => simp [writeRecord, hstore]
  | cons r rest =>
    rw [writeRecord_cons hstore]
    dsimp only
    split
    · rw [signalCq_cqSetup]; exact cqSetup_setCq (by rfl) j
    · exact cqSetup_setCq (by rfl) j

theorem drainCq_cqSetup (k n j : Nat) (x : Sent) : cqSetup (cqAt (drainCq k n x).rings j) = cqSetup (cqAt x.rings j) := by
  induction n generalizing x with
  | zero => rfl
  | succ n ih =>
    unfold drainCq
    dsimp only
    split
    · rw [ih, writeRecord_cqSetup]
    · rfl

theorem flushCq_cqSetup (k j : Nat) (s : State) : cqSetup (cqAt (flushCq k s).rings j) = cqSetup (cqAt s.rings j) := by
  unfold flushCq
  split
  · exact drainCq_cqSetup ..
  · rfl

theorem signalEq_eqSetup (fn : Fn) (x : Sent) : eqSetup (eqOf (signalEq fn x).rings fn) = eqSetup (eqOf x.rings fn) := by
  unfold signalEq
  dsimp only
  (repeat' split) <;> simp [eqSetup]

theorem writeEvent_eqSetup (fn : Fn) (v : Ev) (x : Sent) :
    eqSetup (eqOf (writeEvent fn v x).rings fn) = eqSetup (eqOf x.rings fn) := by
  unfold writeEvent
  dsimp only
  split
  · simp [eqSetup]
  · split
    · rw [signalEq_eqSetup]; simp [eqSetup]
    · simp [eqSetup]

theorem drainEq_eqSetup (fn : Fn) (n : Nat) (x : Sent) :
    eqSetup (eqOf (drainEq fn n x).rings fn) = eqSetup (eqOf x.rings fn) := by
  induction n generalizing x with
  | zero => rfl
  | succ n ih =>
    unfold drainEq
    dsimp only
    split
    · rfl
    · split
      · rfl
      · rw [ih, writeEvent_eqSetup]; simp [eqSetup]

theorem flushEq_eqSetup (fn : Fn) (s : State) : eqSetup (eqOf (flushEq fn s).rings fn) = eqSetup (eqOf s.rings fn) := by
  unfold flushEq
  split
  · exact drainEq_eqSetup ..
  · rfl

/-! ## Frames of the rings -/

theorem rings_only (r : Rings) (s : State) : Only [.rings] s { s with rings := r } := by
  intro p hp
  cases p <;> simp [Part.same] at hp ⊢

theorem flushCq_only (k : Nat) (r : Rings) (s : State) : Only [.rings, .hif, .out] s (flushCq k { s with rings := r }) := by
  intro p hp
  cases p <;> simp [Part.same] at hp ⊢

theorem flushEq_only (fn : Fn) (r : Rings) (s : State) : Only [.rings, .hif, .out] s (flushEq fn { s with rings := r }) := by
  intro p hp
  cases p <;> simp [Part.same] at hp ⊢

/-- An event about a function's ring is held with its FE and operands while the function may not send (R441). -/
theorem postFn_held {fn : Fn} {r : Rings} {s : State} (code sev : Nat) (l : List Nat) (hup : hostUp s = true)
    (hheld : canSend s fn = false) (hroom : (eqOf s.rings fn).pend.length < 256) (hsame : eqOf r fn = eqOf s.rings fn) :
    (eqOf (postFn fn code sev l { s with rings := r }).rings fn).pend = (eqOf s.rings fn).pend ++
      [{ code, sev, fe := s.sys.fe, p0 := l.getD 0 0, p1 := l.getD 1 0, p2 := l.getD 2 0 }] := by
  have hflow : eventsFlow { s with rings := r } fn = false := eventsFlow_off hheld
  rw [← hsame] at hroom ⊢
  exact postTo_held (s := { s with rings := r }) _ (hostUp_iff.mp hup).2 hflow hroom

theorem only_mono {ps qs : List Part} {s t : State} (hsub : ps ⊆ qs) (h : Only ps s t) : Only qs s t :=
  fun p hp => h p fun hmem => hp (hsub hmem)

theorem canSend_rings (r : Rings) (s : State) (fn : Fn) : canSend { s with rings := r } fn = canSend s fn := rfl

/-- A ring's number in its map tells it from every other of its kind. -/
theorem sqOf_setSq_other {fn g : Fn} {n m : Nat} (h : 64 * fnIdx g + m ≠ 64 * fnIdx fn + n) (q : Sq) (r : Rings) :
    sqOf (setSq fn n q r) g m = sqOf r g m := by
  rw [sqOf_setSq, if_neg h]

end Sys2Proof.Proofs
end

section
/-!
Enabling a ring (R75, R76, R86, R441, Tables 4.2 and 4.3): a write of ENABLE to a ring's CFG register while it is 0.
-/
namespace Sys2Proof.Proofs
open Sys2Proof.Machine Sys2Proof.Laws

/-! ## ENABLE, bit 31 of every ring's CFG register -/

theorem wbit_eq_getLsbD (v : Word) (i : Nat) : wbit v i = v.getLsbD i := by
  simp [wbit, bit, BitVec.getLsbD, Nat.testBit_eq_decide_div_mod_eq]

theorem wbit_withEnable (cfg : Word) : wbit (cfg ||| 0x80000000#32) 31 = true := by
  simp [wbit_eq_getLsbD]

theorem wbit_withEnable_below {i : Nat} (hi : i < 31) (cfg : Word) : wbit (cfg ||| 0x80000000#32) i = wbit cfg i := by
  have hclear : (0x80000000#32).getLsbD i = false := by
    rw [BitVec.getLsbD_ofNat, show (0x80000000 : Nat) = 2 ^ 31 from rfl, Nat.testBit_two_pow_of_ne (by omega), Bool.and_false]
  rw [wbit_eq_getLsbD, wbit_eq_getLsbD, BitVec.getLsbD_or, hclear, Bool.or_false]

/-- The fields of a CFG register lie below ENABLE. -/
theorem wbits_withEnable {lo w : Nat} (h : lo + w ≤ 31) (cfg : Word) : wbits (cfg ||| 0x80000000#32) lo w = wbits cfg lo w := by
  refine Nat.eq_of_testBit_eq fun i => ?_
  simp only [wbits, bits, Nat.testBit_mod_two_pow, Nat.testBit_div_two_pow]
  by_cases hi : i < w
  · have hbit := wbit_withEnable_below (i := i + lo) (by omega) cfg
    rw [wbit_eq_getLsbD, wbit_eq_getLsbD] at hbit
    simpa [hi, BitVec.getLsbD] using hbit
  · simp [hi]

/-! ## Submission rings (R75) -/

/-- A disabled submission ring with the fields of a value written to its CFG register (Table 4.2). -/
def sqConfigured (cfg : Word) (q : Sq) : Sq :=
  { q with
    error := q.error && !(wbit cfg 30), log2 := ringLog2 (wbits cfg 0 5), kind := kindOf (wbits cfg 5 2), cq := wbits cfg 7 6 }

/-- The same ring as it starts. -/
def sqStarted (cfg : Word) (q : Sq) : Sq := { sqConfigured cfg q with enable := true, head := 0, tail := 0, stopped := false }

theorem sqConfigured_withEnable (cfg : Word) (q : Sq) : sqConfigured (cfg ||| 0x80000000#32) q = sqConfigured cfg q := by
  simp only [sqConfigured, wbit_withEnable_below (show 30 < 31 by decide), wbits_withEnable (show 0 + 5 ≤ 31 by decide),
    wbits_withEnable (show 5 + 2 ≤ 31 by decide), wbits_withEnable (show 7 + 6 ≤ 31 by decide)]

section
variable {fn : Fn} {n : Nat} {cfg : Word} {s : State} (hn : n < ringCount fn) (hup : hostUp s = true)
  (hoff : (sqOf s.rings fn n).enable = false)
include hn hup hoff

theorem exec_sqEnable_starts (hrules : enableFault s fn n (kindOf (wbits cfg 5 2)) (wbits cfg 7 6) = none) :
    exec (.sqEnable fn n cfg) s = .next { s with rings := setSq fn n (sqStarted cfg (sqOf s.rings fn n)) s.rings } := by
  rw [sqStarted, ← sqConfigured_withEnable]
  rw [← wbits_withEnable (show 5 + 2 ≤ 31 by decide), ← wbits_withEnable (show 7 + 6 ≤ 31 by decide)] at hrules
  simp only [exec, execSqEnable, hostOp_of_hostUp hup, hn, if_true, writeSqCfg, hoff, Bool.false_eq_true, if_false,
    wbit_withEnable, hrules, sqConfigured]

theorem exec_sqEnable_refused {p1 : Nat} (hrules : enableFault s fn n (kindOf (wbits cfg 5 2)) (wbits cfg 7 6) = some p1) :
    exec (.sqEnable fn n cfg) s =
      .next (postFn fn 0x0202 1 [n, p1] { s with rings := setSq fn n (sqConfigured cfg (sqOf s.rings fn n)) s.rings }) := by
  rw [← sqConfigured_withEnable]
  rw [← wbits_withEnable (show 5 + 2 ≤ 31 by decide), ← wbits_withEnable (show 7 + 6 ≤ 31 by decide)] at hrules
  simp only [exec, execSqEnable, hostOp_of_hostUp hup, hn, if_true, writeSqCfg, hoff, Bool.false_eq_true, if_false,
    wbit_withEnable, hrules, sqConfigured]

end

/-! ## Completion rings (R76, R86) -/

/-- A completion ring as it starts with the fields of a value written to its CFG register (Table 4.3). -/
def cqStarted (fn : Fn) (cfg : Word) (c : Cq) : Cq :=
  { c with
    log2 := ringLog2 (wbits cfg 0 5), vector := if fn = .pf1 then min 31 (wbits cfg 5 8) else wbits cfg 5 8,
    irqMode := min 2 (wbits cfg 13 2), holdoff := wbits cfg 16 8,
    enable := true, head := 0, tail := 0, phase := true, held := false }

theorem exec_cqEnable_starts {fn : Fn} {m : Nat} {s : State} (hm : m < ringCount fn) (hup : hostUp s = true)
    (hoff : (cqAt s.rings (cqKey fn m)).enable = false) (cfg : Word) :
    exec (.cqEnable fn m cfg) s = .next (flushCq (cqKey fn m)
      { s with rings := setCq (cqKey fn m) (cqStarted fn cfg (cqAt s.rings (cqKey fn m))) s.rings }) := by
  simp only [exec, execCqEnable, hostOp_of_hostUp hup, hm, if_true, writeCqCfg, hoff, Bool.false_eq_true, if_false,
    wbit_withEnable, cqStarted, wbits_withEnable (show 0 + 5 ≤ 31 by decide), wbits_withEnable (show 5 + 8 ≤ 31 by decide),
    wbits_withEnable (show 13 + 2 ≤ 31 by decide), wbits_withEnable (show 16 + 8 ≤ 31 by decide)]

/-! ## Event rings (R76, R441) -/

/-- An event ring as it starts with the fields of a value written to its CFG register (Table 4.3). -/
def eqStarted (fn : Fn) (cfg : Word) (e : Eq) : Eq :=
  { e with
    log2 := ringLog2 (wbits cfg 0 5), vector := if fn = .pf1 then min 31 (wbits cfg 5 8) else wbits cfg 5 8,
    irqMode := min 2 (wbits cfg 13 2), holdoff := wbits cfg 16 8,
    enable := true, head := 0, tail := 0, phase := true, lost := 0, held := false }

theorem eqCfg_starts {fn : Fn} {e : Eq} (hoff : e.enable = false) (cfg : Word) :
    eqCfg fn (cfg ||| 0x80000000#32) e = (eqStarted fn cfg e, true) := by
  simp only [eqCfg, hoff, Bool.false_eq_true, if_false, wbit_withEnable, if_true, eqStarted,
    wbits_withEnable (show 0 + 5 ≤ 31 by decide), wbits_withEnable (show 5 + 8 ≤ 31 by decide),
    wbits_withEnable (show 13 + 2 ≤ 31 by decide), wbits_withEnable (show 16 + 8 ≤ 31 by decide)]

theorem exec_eqEnable_starts {fn : Fn} {s : State} (hup : hostUp s = true) (hoff : (eqOf s.rings fn).enable = false)
    (cfg : Word) :
    exec (.eqEnable fn cfg) s =
      .next (flushEq fn { s with rings := setEq fn (eqStarted fn cfg (eqOf s.rings fn)) s.rings }) := by
  simp only [exec, execEqEnable, hostOp_of_hostUp hup, writeEqCfg, eqCfg_starts hoff, if_true]

/-! ## The statement -/

/-- Settles O9: a ring starts as its register is written, and what goes out at once leaves its set-up alone. -/
theorem enablingARingStartsItEmpty : Obligations.EnablingARingStartsItEmpty := by
  refine ⟨?submission, ?completion, ?event, ?refused⟩
  case submission =>
    intro fn n cfg s hn hup hoff hrules
    exact ⟨_, exec_sqEnable_starts hn hup hoff hrules, sqOf_setSq_same .., fun g m hne => sqOf_setSq_other hne .., rfl, rfl, rfl,
      rings_only _ s⟩
  case completion =>
    intro fn m cfg s hm hup hoff
    have hsetup := flushCq_cqSetup (cqKey fn m) (cqKey fn m)
      { s with rings := setCq (cqKey fn m) (cqStarted fn cfg (cqAt s.rings (cqKey fn m))) s.rings }
    rw [cqAt_setCq_same] at hsetup
    refine ⟨_, exec_cqEnable_starts hm hup hoff cfg, (congrArg Cq.enable hsetup :), (congrArg Cq.head hsetup :),
      (congrArg Cq.base hsetup :), (congrArg Cq.log2 hsetup :), (congrArg Cq.vector hsetup :), (congrArg Cq.irqMode hsetup :),
      (congrArg Cq.holdoff hsetup :), fun hheld => ?_, (congrArg Cq.reserved hsetup :), by simp, flushCq_only _ _ s⟩
    rw [flushCq_off (by rw [fnOfKey_cqKey hm, canSend_rings, hheld]), cqAt_setCq_same]
    exact ⟨rfl, rfl, rfl⟩
  case event =>
    intro fn cfg s hup hoff
    have hsetup := flushEq_eqSetup fn { s with rings := setEq fn (eqStarted fn cfg (eqOf s.rings fn)) s.rings }
    rw [eqOf_setEq] at hsetup
    refine ⟨_, exec_eqEnable_starts hup hoff cfg, (congrArg Eq.enable hsetup :), (congrArg Eq.head hsetup :),
      (congrArg Eq.base hsetup :), (congrArg Eq.log2 hsetup :), (congrArg Eq.vector hsetup :), (congrArg Eq.irqMode hsetup :),
      (congrArg Eq.holdoff hsetup :), fun hheld => ?_, by simp, by simp, flushEq_only _ _ s⟩
    rw [flushEq_off (eventsFlow_off (by rw [canSend_rings, hheld])), eqOf_setEq]
    exact ⟨rfl, rfl, rfl, rfl⟩
  case refused =>
    intro fn n p1 cfg s hn hup hoff hrules hheld hroom
    refine ⟨_, exec_sqEnable_refused hn hup hoff hrules, ?_, ?_⟩
    · rw [postFn, sqOf_congr (r := setSq fn n (sqConfigured cfg (sqOf s.rings fn n)) s.rings) (by simp), sqOf_setSq_same]
      exact hoff
    · exact postFn_held 0x0202 1 [n, p1] hup hheld hroom (eqOf_setSq ..)

end Sys2Proof.Proofs
end
section
/-!
Disabling a ring (R76, R434): its registers stop it, and what it has begun goes on.
-/
namespace Sys2Proof.Proofs
open Sys2Proof.Machine Sys2Proof.Laws

/-- A submission ring once ENABLE is cleared. -/
def sqDisabled (q : Sq) : Sq := { q with enable := false, stopped := false }

theorem exec_sqDisable {fn : Fn} {n : Nat} {s : State} (hn : n < ringCount fn) (hup : hostUp s = true)
    (hon : (sqOf s.rings fn n).enable = true) : exec (.sqDisable fn n) s = .next (disableSq fn n s) := by
  simp [exec, execSqDisable, hostOp_of_hostUp hup, hn, hon]

theorem disableSq_command {fn : Fn} {n : Nat} {s : State} (h : fn = .pf1 ∨ (sqOf s.rings fn n).kind ≠ .frame) :
    disableSq fn n s = { s with rings := setSq fn n (sqDisabled (sqOf s.rings fn n)) s.rings } := by
  have hno : (decide (fn = .pf0) && decide ((sqOf s.rings fn n).kind = .frame)) = false := by
    rcases h with rfl | h
    · rfl
    · simp [h]
  simp only [disableSq, hno, Bool.false_eq_true, if_false, sqDisabled]

/-- The unit once FRAME ring n is disabled and its candidates are gone, before they complete. -/
def frameRingStopped (n : Nat) (s : State) : State :=
  { s with
    rings := setSq .pf0 n (sqDisabled (sqOf s.rings .pf0 n)) s.rings
    ing := { s.ing with cands := s.ing.cands.filter (fun c => c.sq ≠ n) } }

/-- With no descriptor fetched and waiting, the FRAME ring's candidates complete in their order. -/
theorem disableSq_frameRing {n : Nat} {s : State} (hkind : (sqOf s.rings .pf0 n).kind = .frame)
    (hidle : (sqOf s.rings .pf0 n).running = none) :
    disableSq .pf0 n s = forAll (s.ing.cands.filter (fun c => c.sq = n))
      (fun c s => postRec c.cq (frameDone ABORTED [] c) s) (frameRingStopped n s) := by
  simp [disableSq, hkind, hidle, frameRingStopped, sqDisabled, candDone, frameDone]

theorem postRecs_sqs (f : Cand → Rec) (l : List Cand) (s : State) :
    (forAll l (fun c s => postRec c.cq (f c) s) s).rings.sqs = s.rings.sqs :=
  forAll_keeps (fun s => s.rings.sqs) _ _ s fun c s => postRec_sqs c.cq (f c) s

theorem postRecs_only (f : Cand → Rec) (l : List Cand) (s : State) :
    Only [.rings, .hif, .trc, .out, .free] s (forAll l (fun c s => postRec c.cq (f c) s) s) := by
  intro p hp
  cases p <;> simp [Part.same] at hp ⊢

theorem frameRingStopped_only (n : Nat) (s : State) : Only [.rings, .ing] s (frameRingStopped n s) := by
  intro p hp
  cases p <;> simp [Part.same, frameRingStopped] at hp ⊢

theorem exec_sqErrorClear {fn : Fn} {n : Nat} {s : State} (hn : n < ringCount fn) (hup : hostUp s = true) :
    exec (.sqErrorClear fn n) s =
      .next { s with rings := setSq fn n { sqOf s.rings fn n with error := false } s.rings } := by
  simp [exec, execSqErrorClear, hostOp_of_hostUp hup, hn]

theorem exec_cqDisable {fn : Fn} {m : Nat} {s : State} (hm : m < ringCount fn) (hup : hostUp s = true) :
    exec (.cqDisable fn m) s =
      .next { s with rings := setCq (cqKey fn m) { cqAt s.rings (cqKey fn m) with enable := false } s.rings } := by
  simp [exec, execCqDisable, hostOp_of_hostUp hup, hm]

theorem exec_eqDisable {s : State} (hup : hostUp s = true) (fn : Fn) :
    exec (.eqDisable fn) s = .next { s with rings := setEq fn { eqOf s.rings fn with enable := false } s.rings } := by
  simp [exec, execEqDisable, hostOp_of_hostUp hup]

/-- Settles O10: each clearing of ENABLE is one change of one ring's registers, after which a FRAME ring's candidates complete. -/
theorem disablingARingKeepsItsWork : Obligations.DisablingARingKeepsItsWork := by
  refine ⟨?command, ?frameRing, ?errorClear, ?completion, ?event⟩
  case command =>
    intro fn n s hn hup hon hcommand
    exact ⟨_, (exec_sqDisable hn hup hon).trans (congrArg _ (disableSq_command hcommand)), sqOf_setSq_same ..,
      fun g m hne => sqOf_setSq_other hne .., rings_only _ s⟩
  case frameRing =>
    intro n k s hn hup hon hkind hidle hall henable
    have hsqs : (disableSq .pf0 n s).rings.sqs = (frameRingStopped n s).rings.sqs := by
      rw [disableSq_frameRing hkind hidle, postRecs_sqs]
    have honly : Only [.rings, .hif, .ing, .trc, .out, .free] s (disableSq .pf0 n s) := by
      rw [disableSq_frameRing hkind hidle]
      exact only_trans (only_mono (by decide) (frameRingStopped_only n s)) (only_mono (by decide) (postRecs_only _ _ _))
    refine ⟨_, exec_sqDisable hn hup hon, ?_, ?_, ?_, fun g m hne => ?_, honly⟩
    · rw [sqOf_congr hsqs]; exact sqOf_setSq_same ..
    · rw [disableSq_frameRing hkind hidle]; simp [frameRingStopped]
    · rw [disableSq_frameRing hkind hidle]
      refine forAll_postRec_held k (frameDone ABORTED []) _ (frameRingStopped n s) (fun c hc => ?_) henable
      obtain ⟨hmem, hsq⟩ := List.mem_filter.mp hc
      exact hall c hmem (by simpa using hsq)
    · rw [sqOf_congr hsqs]; exact sqOf_setSq_other (by simpa [fnIdx] using hne) ..
  case errorClear =>
    intro fn n s hn hup
    exact ⟨_, exec_sqErrorClear hn hup, sqOf_setSq_same .., fun g m hne => sqOf_setSq_other hne .., rfl, rings_only _ s⟩
  case completion =>
    intro fn m s hm hup
    refine ⟨_, exec_cqDisable hm hup, cqAt_setCq_same .., fun k hk => ?_, rfl, rings_only _ s⟩
    exact (cqAt_setCq ..).trans (if_neg hk)
  case event =>
    intro fn s hup
    obtain ⟨hsqs, hcqs, -⟩ := setEq_parts fn { eqOf s.rings fn with enable := false } s.rings
    exact ⟨_, exec_eqDisable hup fn, eqOf_setEq .., hsqs, hcqs, rings_only _ s⟩

end Sys2Proof.Proofs
end
section
/-!
Doorbells (R78, R79, R386): an acceptable one moves its ring, and what goes out then leaves every head and tail of the submission
and completion rings alone.
-/
namespace Sys2Proof.Proofs
open Sys2Proof.Machine Sys2Proof.Laws

theorem no_upper_bits {v : Word} (hv : v.toNat < 65536) : v.toNat / 65536 = 0 ∧ v.toNat % 65536 = v.toNat :=
  ⟨Nat.div_eq_of_lt hv, Nat.mod_eq_of_lt hv⟩

/-! ## The commands -/

section
variable {fn : Fn} {n : Nat} {s : State} (hup : hostUp s = true) (v : Word)
include hup

theorem exec_submissionDoorbell (hn : n < ringCount fn) :
    exec (.submissionDoorbell fn n v false) s = .next (trace1 0 (ringSubmission fn n v s)) := by
  simp [exec, execSubmissionDoorbell, hostOp_of_hostUp hup, Nat.not_le.mpr hn]

theorem exec_completionHeadDoorbell (hn : n < ringCount fn) :
    exec (.completionHeadDoorbell fn n v false) s = .next (trace1 0 (ringCompletion fn n v s)) := by
  simp [exec, execCompletionHeadDoorbell, hostOp_of_hostUp hup, Nat.not_le.mpr hn]

theorem exec_eventHeadDoorbell (w : HeadRing) :
    exec (.eventHeadDoorbell fn w v false) s = .next (trace1 0 (ringHead fn w v s)) := by
  simp [exec, execEventHeadDoorbell, hostOp_of_hostUp hup]

end

/-! ## Submission doorbells (R78) -/

/-- An acceptable doorbell moves the tail alone of the rings; a frame descriptor that it adds in HOLD may begin the turn to
LIVE, or wait for that (Table 2.4). -/
theorem ringSubmission_moves {fn : Fn} {n : Nat} {v : Word} {s : State} (hv : v.toNat < 65536)
    (hon : (sqOf s.rings fn n).enable = true) (hok : tailOk (sqOf s.rings fn n) v.toNat = true) :
    (ringSubmission fn n v s).rings = setSq fn n { sqOf s.rings fn n with tail := v.toNat, stopped := false } s.rings ∧
      Only [.rings, .hif, .sys, .twl, .out] s (ringSubmission fn n v s) := by
  obtain ⟨hhigh, hlow⟩ := no_upper_bits hv
  have hgood : (decide (v.toNat / 65536 ≠ 0) || !(sqOf s.rings fn n).enable || !(tailOk (sqOf s.rings fn n) v.toNat)) = false := by
    simp [hhigh, hon, hok]
  simp only [ringSubmission, hlow, hgood, Bool.false_eq_true, if_false]
  split
  · split
    · exact ⟨by simp, fun p hp => by cases p <;> simp [Part.same] at hp ⊢⟩
    · exact ⟨rfl, fun p hp => by cases p <;> simp [Part.same] at hp ⊢⟩
  · exact ⟨rfl, only_mono (by decide) (rings_only _ s)⟩

theorem ringSubmission_refused {fn : Fn} {n : Nat} {v : Word} {s : State} (hon : (sqOf s.rings fn n).enable = true)
    (hbad : 65536 ≤ v.toNat ∨ tailOk (sqOf s.rings fn n) v.toNat = false) :
    ringSubmission fn n v s =
      badDoorbell fn (8 * n) v { s with rings := setSq fn n { sqOf s.rings fn n with error := true } s.rings } := by
  have hrefused : (decide (v.toNat / 65536 ≠ 0) || !(sqOf s.rings fn n).enable
      || !(tailOk (sqOf s.rings fn n) (v.toNat % 65536))) = true := by
    by_cases hv : v.toNat < 65536
    · have htail : tailOk (sqOf s.rings fn n) v.toNat = false := hbad.resolve_left (by omega)
      simp [(no_upper_bits hv).2, htail]
    · have hhigh : v.toNat / 65536 ≠ 0 := by omega
      simp [hhigh]
  simp only [ringSubmission, hrefused, if_true]
  rw [hon, Bool.or_true]

/-! ## Head doorbells (R79) -/

theorem ringCompletion_moves {fn : Fn} {m : Nat} {v : Word} {s : State} (hv : v.toNat < 65536)
    (hon : (cqAt s.rings (cqKey fn m)).enable = true)
    (hok : headOk (cqAt s.rings (cqKey fn m)).log2 (cqAt s.rings (cqKey fn m)).head (cqAt s.rings (cqKey fn m)).tail v.toNat = true) :
    ringCompletion fn m v s = flushCq (cqKey fn m)
      { s with rings := setCq (cqKey fn m) { cqAt s.rings (cqKey fn m) with head := v.toNat } s.rings } := by
  simp [ringCompletion, (no_upper_bits hv).1, hon, hok]

theorem ringHead_moves {fn : Fn} {w : HeadRing} {v : Word} {e : Eq} {s : State} (hv : v.toNat < 65536)
    (hring : headRingOf s.rings fn w = some e) (hon : e.enable = true) (hok : headOk e.log2 e.head e.tail v.toNat = true) :
    ringHead fn w v s =
      if w = .event then flushEq fn { s with rings := setHeadRing fn w { e with head := v.toNat } s.rings }
      else { s with rings := setHeadRing fn w { e with head := v.toNat } s.rings } := by
  simp [ringHead, hring, (no_upper_bits hv).1, hon, hok]

theorem ringHead_keeps (fn : Fn) (w : HeadRing) (v : Word) (s : State) :
    (ringHead fn w v s).rings.sqs = s.rings.sqs ∧ (ringHead fn w v s).rings.cqs = s.rings.cqs := by
  unfold ringHead
  split
  · exact ⟨rfl, rfl⟩
  · dsimp only
    split
    · simp [badDoorbell, postFn]
    · split <;> cases w <;> simp [setHeadRing]

/-! ## The trace record of a doorbell moves no head (R386) -/

theorem traceRing_head (second : Bool) (r : TraceRec) (x : Sent) :
    (traceRing second r x).rings.t1.head = x.rings.t1.head ∧ (traceRing second r x).rings.t2.head = x.rings.t2.head := by
  cases second with
  | false => cases hfull : eqFull x.rings.t1 <;> simp [traceRing, hfull]
  | true => cases hfull : eqFull x.rings.t2 <;> simp [traceRing, hfull]

theorem sendTrace_head (r : TraceRec) (s : State) :
    (sendTrace r s).rings.t1.head = s.rings.t1.head ∧ (sendTrace r s).rings.t2.head = s.rings.t2.head := by
  unfold sendTrace
  dsimp only
  generalize (if decide (r.level = 2) = true then s.rings.t2 else s.rings.t1) = e
  by_cases hon : e.enable = true
  · by_cases hsend : canSend s .pf1 = true
    · simp [hon, hsend, traceRing_head]
    · simp [hon, hsend]
  · simp [hon]

theorem trace1_head (src : Nat) (s : State) :
    (trace1 src s).rings.t1.head = s.rings.t1.head ∧ (trace1 src s).rings.t2.head = s.rings.t2.head := by
  unfold trace1 makeTrace
  dsimp only
  split
  · split
    · exact sendTrace_head ..
    · exact ⟨rfl, rfl⟩
  · exact ⟨rfl, rfl⟩

theorem eqOf_trace1 (src : Nat) (s : State) (fn : Fn) : eqOf (trace1 src s).rings fn = eqOf s.rings fn := by
  cases fn <;> simp [eqOf]

/-- A trace record leaves the head of the ring that a head doorbell moves. -/
theorem headRingOf_trace1 {fn : Fn} {w : HeadRing} {e : Eq} {s : State} (h : headRingOf s.rings fn w = some e) (src : Nat) :
    ∃ f, headRingOf (trace1 src s).rings fn w = some f ∧ f.head = e.head := by
  obtain ⟨h1, h2⟩ := trace1_head src s
  cases w with
  | event => exact ⟨_, rfl, by rw [eqOf_trace1]; exact congrArg Eq.head (Option.some.inj h)⟩
  | trace1 =>
    cases fn with
    | pf0 => cases h
    | pf1 => exact ⟨_, rfl, h1.trans (congrArg Eq.head (Option.some.inj h))⟩
  | trace2 =>
    cases fn with
    | pf0 => cases h
    | pf1 => exact ⟨_, rfl, h2.trans (congrArg Eq.head (Option.some.inj h))⟩

/-- A moved head is where the doorbell put it, whatever held events are written then. -/
theorem ringHead_head {fn : Fn} {w : HeadRing} {v : Word} {e : Eq} {s : State} (hv : v.toNat < 65536)
    (hring : headRingOf s.rings fn w = some e) (hon : e.enable = true) (hok : headOk e.log2 e.head e.tail v.toNat = true) :
    ∃ f, headRingOf (ringHead fn w v s).rings fn w = some f ∧ f.head = v.toNat := by
  rw [ringHead_moves hv hring hon hok]
  cases w with
  | event => exact ⟨_, rfl, by simp [setHeadRing]⟩
  | trace1 =>
    cases fn with
    | pf0 => cases hring
    | pf1 => exact ⟨_, rfl, rfl⟩
  | trace2 =>
    cases fn with
    | pf0 => cases hring
    | pf1 => exact ⟨_, rfl, rfl⟩

theorem trace1_only (src : Nat) (s : State) : Only [.rings, .out, .free, .trc] s (trace1 src s) := by
  intro p hp
  cases p <;> simp [Part.same] at hp ⊢

theorem eventHeadDoorbell_moves {fn : Fn} {w : HeadRing} {v : Word} {e : Eq} {s : State} (hup : hostUp s = true)
    (hv : v.toNat < 65536) (hring : headRingOf s.rings fn w = some e) (hon : e.enable = true)
    (hok : headOk e.log2 e.head e.tail v.toNat = true) :
    ∃ (t : State) (f : Eq), exec (.eventHeadDoorbell fn w v false) s = .next t ∧ headRingOf t.rings fn w = some f ∧
      f.head = v.toNat ∧ t.rings.sqs = s.rings.sqs ∧ t.rings.cqs = s.rings.cqs ∧ Only [.rings, .hif, .out, .free, .trc] s t := by
  obtain ⟨g, hg, hghead⟩ := ringHead_head hv hring hon hok
  obtain ⟨f, hf, hfhead⟩ := headRingOf_trace1 hg 0
  obtain ⟨hsqs, hcqs⟩ := ringHead_keeps fn w v s
  refine ⟨_, f, exec_eventHeadDoorbell hup v w, hf, hfhead.trans hghead, (trace1_sqs ..).trans hsqs, (trace1_cqs ..).trans hcqs, ?_⟩
  intro p hp
  cases p <;> simp [Part.same] at hp ⊢

/-- Settles O11: a doorbell that is acceptable moves its ring and then only sends, and one that is not marks the ring. -/
theorem doorbellsMoveTheirRing : Obligations.DoorbellsMoveTheirRing := by
  refine ⟨?submission, ?completion, ?event, ?head, ?refused⟩
  case submission =>
    intro fn n v s hn hup hon hv hok
    obtain ⟨hrings, honly⟩ := ringSubmission_moves hv hon hok
    have hsqs := (trace1_sqs 0 (ringSubmission fn n v s)).trans (congrArg Rings.sqs hrings)
    refine ⟨_, exec_submissionDoorbell hup v hn, ?_, fun g m hne => ?_, only_trans (only_mono (by decide) honly) (only_mono (by decide) (trace1_only _ _))⟩
    · rw [sqOf_congr hsqs, sqOf_setSq_same]
    · rw [sqOf_congr hsqs, sqOf_setSq_other hne]
  case completion =>
    intro fn m v s hm hup hon hv hok
    have hmoves := ringCompletion_moves hv hon hok
    refine ⟨_, exec_completionHeadDoorbell hup v hm, ?_, fun k hk => ?_, ?_, ?_⟩
    · rw [cqAt_congr (trace1_cqs ..), hmoves]; simp
    · rw [cqAt_congr (trace1_cqs ..), hmoves, flushCq_other _ hk]
      exact (cqAt_setCq ..).trans (if_neg hk)
    · rw [trace1_sqs, hmoves]; simp
    · rw [hmoves]
      exact only_trans (only_mono (by decide) (flushCq_only _ _ s)) (only_mono (by decide) (trace1_only _ _))
  case event =>
    intro v s hup hv hon hok
    obtain ⟨t, f, hexec, hring, hhead, hsqs, hcqs, honly⟩ := eventHeadDoorbell_moves (fn := .pf0) (w := .event) hup hv rfl hon hok
    exact ⟨t, hexec, (congrArg Eq.head (Option.some.inj hring)).trans hhead, hsqs, hcqs, honly⟩
  case head => exact fun w v e s hup hv hring hon hok => eventHeadDoorbell_moves hup hv hring hon hok
  case refused =>
    intro fn n v s hn hup hon hbad hheld hroom
    have hrefused := ringSubmission_refused hon hbad
    have hsqs : (trace1 0 (ringSubmission fn n v s)).rings.sqs =
        (setSq fn n { sqOf s.rings fn n with error := true } s.rings).sqs := by
      rw [trace1_sqs, hrefused]; simp
    refine ⟨_, exec_submissionDoorbell hup v hn, ?_, fun g m hne => ?_, ?_⟩
    · rw [sqOf_congr hsqs, sqOf_setSq_same]
    · rw [sqOf_congr hsqs, sqOf_setSq_other hne]
    · rw [eqOf_trace1, hrefused, badDoorbell]
      exact postFn_held 0x0201 1 [doorbellOffset fn (8 * n), v.toNat] hup hheld hroom (eqOf_setSq ..)

end Sys2Proof.Proofs
end
section
/-!
How an event reaches its ring (R89, R441, Table 4.9): written at the tail, dropped and counted while the ring is full, held
while the ring cannot be written.
-/
namespace Sys2Proof.Proofs
open Sys2Proof.Machine Sys2Proof.Laws

theorem eqFull_iff (e : Eq) : eqFull e = true ↔ (e.tail + 1) % 2 ^ e.log2 = e.head := by
  simp [eqFull]

/-- An event's bytes +0x00 to +0x1B, with the events dropped before it (Table 4.9). -/
def eventBytes (v : Ev) (dropped : Nat) : Bytes :=
  toLE 4 (5 + 256 * v.sev + 65536 * 0x7F) ++ toLE 4 (v.code + 65536 * min 0xFFFF dropped) ++ toLE 8 v.fe ++ toLE 4 v.p0
    ++ toLE 4 v.p1 ++ toLE 4 v.p2

/-- An event ring once an event is written: the tail one on, the phase turned where it wraps, the dropped events reported. -/
def pastEvent (e : Eq) : Eq :=
  { e with
    tail := (e.tail + 1) % 2 ^ e.log2
    phase := if (e.tail + 1) % 2 ^ e.log2 = 0 then !e.phase else e.phase
    lost := satAdd 0xFFFFFFFF e.lost e.pendLost
    lostRun := 0
    pendLost := 0 }

/-- The two writes of an event at an event ring's tail. -/
def eventSent (fn : Fn) (v : Ev) (e : Eq) : List Output :=
  recordWrites fn e.base e.tail e.phase (eventBytes v (e.lostRun + e.pendLost)) 0

/-- The unit's interface with the event written, before its interrupt. -/
def eventWritten (fn : Fn) (v : Ev) (x : Sent) : Sent :=
  { x with rings := setEq fn (pastEvent (eqOf x.rings fn)) x.rings, out := eventSent fn v (eqOf x.rings fn) ++ x.out }

section
variable {fn : Fn} {x : Sent} (v : Ev)

theorem writeEvent_room (hroom : eqFull (eqOf x.rings fn) = false) :
    writeEvent fn v x =
      if (eqOf x.rings fn).irqMode = 1 || ((eqOf x.rings fn).irqMode = 2 && decide (1 ≤ v.sev))
      then signalEq fn (eventWritten fn v x) else eventWritten fn v x := by
  simp [writeEvent, hroom, eventWritten, eventSent, eventBytes, pastEvent]

theorem writeEvent_full (hfull : eqFull (eqOf x.rings fn) = true) :
    writeEvent fn v x = { x with rings := setEq fn { eqOf x.rings fn with
      lost := satAdd 0xFFFFFFFF (eqOf x.rings fn).lost 1, lostRun := (eqOf x.rings fn).lostRun + 1 } x.rings } := by
  simp [writeEvent, hfull]

end

/-- An interrupt moves neither the tail nor the phase, and reports no lost events. -/
theorem signalEq_place (fn : Fn) (x : Sent) :
    (eqOf (signalEq fn x).rings fn).tail = (eqOf x.rings fn).tail ∧
      (eqOf (signalEq fn x).rings fn).phase = (eqOf x.rings fn).phase ∧
      (eqOf (signalEq fn x).rings fn).lostRun = (eqOf x.rings fn).lostRun := by
  unfold signalEq
  dsimp only
  (repeat' split) <;> simp

/-- Whether or not it is selected for an interrupt, an event with room is written at the tail. -/
theorem writeEvent_writes {fn : Fn} {x : Sent} (v : Ev) (hroom : eqFull (eqOf x.rings fn) = false) :
    (eqOf (writeEvent fn v x).rings fn).tail = (pastEvent (eqOf x.rings fn)).tail ∧
      (eqOf (writeEvent fn v x).rings fn).lostRun = 0 ∧
      (eqOf (writeEvent fn v x).rings fn).phase = (pastEvent (eqOf x.rings fn)).phase ∧
      eventSent fn v (eqOf x.rings fn) ⊆ (writeEvent fn v x).out := by
  have hring : eqOf (eventWritten fn v x).rings fn = pastEvent (eqOf x.rings fn) := eqOf_setEq ..
  have hsent : eventSent fn v (eqOf x.rings fn) ⊆ (eventWritten fn v x).out := List.subset_append_left _ _
  rw [writeEvent_room v hroom]
  split
  · obtain ⟨htail, hphase, hlost⟩ := signalEq_place fn (eventWritten fn v x)
    rw [htail, hphase, hlost, hring]
    exact ⟨rfl, rfl, rfl, fun o ho => (signalEq_out (List.suffix_refl _)).subset (hsent ho)⟩
  · rw [hring]
    exact ⟨rfl, rfl, rfl, hsent⟩

/-! ## Posting -/

theorem postTo_flows {fn : Fn} {s : State} (hfall : s.pwr.fall = .idle) (hflow : eventsFlow s fn = true) (v : Ev) :
    postTo fn v s = withSent s (writeEvent fn v (sentOf s)) := by
  simp [postTo, hfall, hflow]

/-- While no power-management event is enabled, an event that cannot be written is held and nothing else happens. -/
theorem postTo_holds {fn : Fn} {s : State} (hfall : s.pwr.fall = .idle) (hflow : eventsFlow s fn = false)
    (hpme : s.hif.pmeEn = false) (v : Ev) :
    postTo fn v s = { s with rings := setEq fn (holdEvent v (eqOf s.rings fn)) s.rings } := by
  simp [postTo, hfall, hflow, eventWake, hpme, sentOf, withSent]

theorem postTo_fall {s : State} (hfall : s.pwr.fall ≠ .idle) (fn : Fn) (v : Ev) : postTo fn v s = s := by
  simp [postTo, hfall]

/-- Settles O38: an event is written where its ring has room, dropped where it is full, and held where it cannot be written. -/
theorem eventsAreWrittenHeldOrCounted : Obligations.EventsAreWrittenHeldOrCounted := by
  refine ⟨eqFull_iff, ?written, ?dropped, ?held, fun fn v s hfall => postTo_fall hfall fn v⟩
  case written =>
    rintro fn v e s hfall rfl hflow hroom
    obtain ⟨htail, hlost, hphase, hsent⟩ := writeEvent_writes (fn := fn) (x := sentOf s) v hroom
    rw [postTo_flows hfall hflow]
    refine ⟨htail, hlost, hphase, hsent ?_, hsent ?_⟩
    all_goals simp [eventSent, recordWrites, eventBytes, sentOf]
  case dropped =>
    rintro fn v e s hfall rfl hflow hfull
    rw [postTo_flows hfall hflow, writeEvent_full (fn := fn) (x := sentOf s) v hfull]
    exact ⟨eqOf_setEq .., rfl⟩
  case held =>
    rintro fn v e s hfall rfl hflow hpme
    rw [postTo_holds hfall hflow hpme]
    exact ⟨eqOf_setEq .., rfl⟩

end Sys2Proof.Proofs
end
section
/-!
Staged sets as lists (R92): what an entry reads as after one is put, and after a run of bytes is.
-/
namespace Sys2Proof.Proofs
open Sys2Proof.Machine Sys2Proof.Laws

theorem aget_cons {α : Type} (p : Nat × α) (m : List (Nat × α)) (j : Nat) :
    aget (p :: m) j = if p.1 = j then some p.2 else aget m j := by
  by_cases h : p.1 = j <;> simp [aget, h]

theorem aget_aput {α : Type} (k : Nat) (v : α) (m : List (Nat × α)) (j : Nat) :
    aget (aput k v m) j = if k = j then some v else aget m j := by
  induction m with
  | nil => simp only [aput, aget_cons]
  | cons p r ih =>
    obtain ⟨i, w⟩ := p
    simp only [aput]
    split
    · simp only [aget_cons]
    · split
      · rename_i _ hi
        simp only [aget_cons, hi]
        by_cases h : k = j <;> simp [h]
      · rename_i _ hi
        simp only [aget_cons, ih]
        by_cases h : i = j
        · have hk : k ≠ j := fun e => hi (h.trans e.symm)
          simp [h, hk]
        · simp [h]

/-- A run of values put from key k on is read at its keys, and no other key changes. -/
theorem aget_aputAll_keyed {α : Type} (l : List α) (k : Nat) (m : List (Nat × α)) (j : Nat) :
    aget (aputAll (keyed k l) m) j = if k ≤ j then (l[j - k]?).or (aget m j) else aget m j := by
  induction l generalizing k m with
  | nil => simp [keyed, aputAll]
  | cons v l ih =>
    have hstep : aputAll (keyed k (v :: l)) m = aputAll (keyed (k + 1) l) (aput k v m) := rfl
    rw [hstep, ih, aget_aput]
    rcases Nat.lt_trichotomy k j with hlt | rfl | hgt
    · obtain ⟨i, rfl⟩ : ∃ i, j = k + 1 + i := ⟨j - (k + 1), by omega⟩
      rw [if_pos (by omega), if_neg (by omega), if_pos (by omega), show k + 1 + i - k = i + 1 by omega,
        show k + 1 + i - (k + 1) = i by omega, List.getElem?_cons_succ]
    · rw [if_neg (Nat.not_succ_le_self k), if_pos rfl, if_pos (Nat.le_refl k), Nat.sub_self, List.getElem?_cons_zero, Option.some_or]
    · rw [if_neg (by omega), if_neg (by omega), if_neg (by omega)]

end Sys2Proof.Proofs
end

section
/-!
The setup set and its lock (R91, R433, R437), and poisoned register writes (R72).
-/
namespace Sys2Proof.Proofs
open Sys2Proof.Machine Sys2Proof.Laws

/-! ## Staging before lock (R91) -/

/-- The setup set with an RWL write added. -/
def rwlStaged (off : Nat) (v : Word) (c : Conf) : Conf :=
  { c with setup := { c.setup with regs := aput off (v &&& BitVec.ofNat 32 (rwlMask off)) c.setup.regs } }

theorem writeRwl_staged {s : State} (h : s.sys.lock = false) (off : Nat) (v : Word) :
    writeRwl off v s = { s with conf := rwlStaged off v s.conf } := by
  simp [writeRwl, h, rwlStaged]

theorem conf_only (c : Conf) (s : State) : Only [.conf] s { s with conf := c } := by
  intro p hp
  cases p <;> simp [Part.same] at hp ⊢

/-! ## LOCK (R437) -/

/-- The configuration with the setup set armed for F + 2. -/
def setupArmed (s : State) : Conf := { s.conf with setup := { s.conf.setup with armed := some (s.sys.fe + 2) } }

/-- The unit locked with its setup set rejected and emptied. -/
def setupRejected (s : State) : State :=
  { s with sys := { s.sys with lock := true, rejected := true }, conf := { s.conf with setup := {} } }

theorem exec_sysSetupLockWrite {s : State} (hup : hostUp s = true) (v : Word) :
    exec (.sysSetupLockWrite v) s = .next (writeLock v s) := by
  simp only [exec, execSysSetupLockWrite, hostOp_of_hostUp hup]

section
variable {v : Word} {s : State}

theorem writeLock_locks (hset : wbit v 0 = true) (hlock : s.sys.lock = false) (hstage : s.sys.stage ≠ .recovery) :
    writeLock v s = lockSetup s := by
  simp [writeLock, hset, hlock, hstage]

theorem writeLock_idle (h : wbit v 0 = false ∨ s.sys.lock = true ∨ s.sys.stage = .recovery) : writeLock v s = s := by
  rcases h with h | h | h <;> simp [writeLock, h]

theorem lockSetup_arms (h : validateArm (worldOf s) (setupArmed s) (s.sys.fe + 2) = none) :
    lockSetup s = { s with sys := { s.sys with lock := true, rejected := false }, conf := setupArmed s } := by
  rw [setupArmed] at h
  simp only [lockSetup, h, setupArmed]

theorem lockSetup_rejects {f : Fail} (h : validateArm (worldOf s) (setupArmed s) (s.sys.fe + 2) = some f) :
    lockSetup s = post 0x0005 2 [f.status, f.r0, f.r1] (setupRejected s) := by
  rw [setupArmed] at h
  simp only [lockSetup, h, setupRejected]

end

theorem setupRejected_only (s : State) : Only [.sys, .conf] s (setupRejected s) := by
  intro p hp
  cases p <;> simp [Part.same, setupRejected] at hp ⊢

/-! ## Poisoned writes (R72) -/

theorem aer_status (fn : Fn) (b : Nat) (s : State) :
    (cfgOf (aer fn b s).hif fn).aerUnc = (cfgOf s.hif fn).aerUnc ||| BitVec.ofNat 32 (2 ^ b) := by
  have hcfg : cfgOf (aer fn b s).hif fn = aerNoted b (freeNow s) (cfgOf s.hif fn) := cfgOf_setCfg ..
  rw [hcfg, aerNoted]

/-- Settles O21: a write before lock puts one entry into the setup set, LOCK acts once by one validation, and a poisoned write is
an AER report. -/
theorem theSetupIsStagedUntilLock : Obligations.TheSetupIsStagedUntilLock := by
  refine ⟨?staged, ?armed, ?rejected, ?idle, ?poisoned⟩
  case staged =>
    intro off v s hup hsize hring hlockReg hstatus hrwl hlive hlock
    refine ⟨{ s with conf := rwlStaged off v s.conf }, ?_, ?_, rfl, rfl, rfl, conf_only _ s⟩
    · rw [exec_registerWrite_bar0, hostOp_of_hostUp hup, windowWrite_dword hsize, writeBar0,
        writeReg_rwl hring hlockReg hstatus hrwl hlive, writeRwl_staged hlock]
    · exact (aget_aput ..).trans (if_pos rfl)
  case armed =>
    intro v s hup hset hlock hstage hvalid
    rw [exec_sysSetupLockWrite hup, writeLock_locks hset hlock hstage, lockSetup_arms hvalid]; rfl
  case rejected =>
    intro v f s hup hset hlock hstage hfail
    refine ⟨_, exec_sysSetupLockWrite hup v, ?_⟩
    rw [writeLock_locks hset hlock hstage, lockSetup_rejects hfail]
    refine ⟨posts_post _ _ _ rfl rfl rfl rfl, by simp [setupRejected], by simp [setupRejected], by simp [setupRejected],
      by simp [setupRejected], ?_⟩
    exact only_trans (only_mono (by decide) (setupRejected_only s)) (only_mono (by decide) (postTo_only _ _ (setupRejected s)))
  case idle =>
    intro v s hup hidle
    rw [exec_sysSetupLockWrite hup, writeLock_idle hidle]
  case poisoned =>
    intro fn off size v s hup
    refine ⟨?_, ?_, aer_only _ _ s, ?_⟩
    · rw [exec_registerWrite_bar0, hostOp_of_hostUp hup]; rfl
    · rintro rfl
      rw [exec_registerWrite_bar2, hostOp_of_hostUp hup]; rfl
    · rw [aer_status, BitVec.getLsbD_or, show (BitVec.ofNat 32 (2 ^ AER_POISONED)).getLsbD AER_POISONED = true by decide,
        Bool.or_true]

end Sys2Proof.Proofs
end
section
/-!
The commands of staging (R92, R436, R440, R442): SET_TABLE and STAGE_CONFIG.
-/
namespace Sys2Proof.Proofs
open Sys2Proof.Machine Sys2Proof.Laws

theorem opcode_of_ready {s : State} {fn : Fn} {n op : Nat} {r : Running} (h : ready s fn n op = some r) :
    opcode r.raw = op := by
  unfold ready at h
  split at h
  · split at h
    · rename_i hready
      obtain rfl := Option.some.inj h
      simp only [Bool.and_eq_true, decide_eq_true_eq] at hready
      obtain ⟨⟨⟨⟨hop, -⟩, -⟩, -⟩, -⟩ := hready
      exact hop
    · cases h
  · cases h

/-- A command completes and what it changed of the configuration stands. -/
theorem finish_conf_only (fn : Fn) (n : Nat) (r : Running) (st : Nat) (res : List Nat) (c : Conf) (s : State) :
    Only [.rings, .hif, .conf, .trc, .out, .free] s (finish fn n r st res { s with conf := c }) := by
  intro p hp
  cases p <;> simp [Part.same] at hp ⊢

theorem finish_only (fn : Fn) (n : Nat) (r : Running) (st : Nat) (res : List Nat) (s : State) :
    Only [.rings, .hif, .trc, .out, .free] s (finish fn n r st res s) := by
  intro p hp
  cases p <;> simp [Part.same] at hp ⊢

theorem finish_conf (fn : Fn) (n : Nat) (r : Running) (st : Nat) (res : List Nat) (s : State) :
    (finish fn n r st res s).conf = s.conf := by simp

/-! ## SET_TABLE -/

section
variable {sq : Nat} {data : Rd} {r : Running} {d : Bytes} {s : State} (hready : ready s .pf0 sq 0x10 = some r)
  (hmay : busMaster s .pf0 = true ∨ fieldAt r.raw 0x34 4 = 1)
  (hunarmed : s.sys.lock = true → (slotOf s.conf (bits (fieldAt r.raw 0x18 4) 16 2)).armed = none)
  (hdata : tableData s r.raw data = .ok d)
include hready hmay hunarmed hdata

/-- A table from module memory needs no Bus Master Enable, and one from host memory is there once its read has not failed. -/
theorem exec_setTable :
    exec (.setTable sq data) s = .next (if crc32c d ≠ fieldAt r.raw 0x30 4 then finish .pf0 sq r CRC_MISMATCH [] s
      else finish .pf0 sq r SUCCESS [d.length]
        { s with conf := stageBytes s (bits (fieldAt r.raw 0x18 4) 16 2) (fieldAt r.raw 0x18 2) (fieldAt r.raw 0x2C 4) d }) := by
  have hopcode := opcode_of_ready hready
  have hfree : (s.sys.lock && (slotOf s.conf (bits (fieldAt r.raw 0x18 4) 16 2)).armed.isSome) = false := by
    cases hlock : s.sys.lock with
    | false => rfl
    | true => simp [hunarmed hlock]
  by_cases hsource : fieldAt r.raw 0x34 4 = 1
  · have hmodule : usesHost r.raw = false := by simp [usesHost, readsHost, hopcode, hsource]
    simp only [exec, execSetTable, runRead_module hready hmodule, hfree, Bool.false_eq_true, if_false, hdata]
  · have hok : data.ok = true := by
      cases hread : data.ok with
      | true => rfl
      | false => simp [tableData, hsource, hread] at hdata
    simp only [exec, execSetTable, runRead_ready (hmay.resolve_right hsource) hready hok, hfree, Bool.false_eq_true, if_false, hdata]

end

/-- The table of the set that SET_TABLE writes, with the bytes put at an offset of table `id`. -/
def tableStaged (s : State) (n id off : Nat) (d : Bytes) : List (Nat × Byte) :=
  aputAll (keyed (1048576 * id + off) d) (stageTarget s n).tbl

theorem stageBytes_setup {s : State} (hlock : s.sys.lock = false) (n id off : Nat) (d : Bytes) :
    stageBytes s n id off d = { s.conf with setup := { s.conf.setup with tbl := tableStaged s n id off d } } := by
  simp [stageBytes, tableStaged, stageTarget, hlock]

theorem stageBytes_slot {s : State} (hlock : s.sys.lock = true) (n id off : Nat) (d : Bytes) :
    stageBytes s n id off d = setSlot n { slotOf s.conf n with tbl := tableStaged s n id off d } s.conf := by
  simp [stageBytes, tableStaged, stageTarget, hlock]

/-! ## STAGE_CONFIG -/

/-- The set that a list of entries is staged on: an empty one with CLEAR, else the slot as it is. -/
def stageBase (r : Running) (c : Conf) : Slot :=
  if bit (fieldAt r.raw 0x18 4) 8 then {} else slotOf c (fieldAt r.raw 0x18 4 % 4)

/-- That set with the entries of the list. -/
def slotStaged (r : Running) (data : Rd) (c : Conf) : Slot :=
  { stageBase r c with regs := aputAll (listEntries data.bytes (fieldAt r.raw 0x28 4)) (stageBase r c).regs }

theorem exec_stageConfig {sq : Nat} {data : Rd} {r : Running} {s : State} (hbus : busMaster s .pf0 = true)
    (hready : ready s .pf0 sq 0x11 = some r) (hunarmed : (slotOf s.conf (fieldAt r.raw 0x18 4 % 4)).armed = none)
    (hok : data.ok = true) (hlen : 8 * fieldAt r.raw 0x28 4 ≤ data.bytes.length)
    (hgood : firstBadEntry (stageBase r s.conf).regs (listEntries data.bytes (fieldAt r.raw 0x28 4)) 0 = none) :
    exec (.stageConfig sq data) s = .next (finish .pf0 sq r SUCCESS [(slotStaged r data s.conf).regs.length]
      { s with conf := setSlot (fieldAt r.raw 0x18 4 % 4) (slotStaged r data s.conf) s.conf }) := by
  have hwhole : (!data.ok || decide (data.bytes.length < 8 * fieldAt r.raw 0x28 4)) = false := by simp [hok, hlen]
  rw [stageBase] at hgood
  simp only [exec, execStageConfig, runRead_ready hbus hready hok, hunarmed, Option.isSome_none, hwhole, Bool.false_eq_true, if_false,
    hgood, slotStaged, stageBase]

/-- Settles O26: each of the two commands, where nothing refuses it, changes one staged set and completes. -/
theorem stagingChangesOneSet : Obligations.StagingChangesOneSet := by
  refine ⟨?table, ?crc, ?config⟩
  case table =>
    intro sq data r d s hready hmay hunarmed hdata hcrc
    have hexec := exec_setTable hready hmay hunarmed hdata
    rw [if_neg (Classical.not_not.mpr hcrc)] at hexec
    refine ⟨_, tableStaged s (bits (fieldAt r.raw 0x18 4) 16 2) (fieldAt r.raw 0x18 2) (fieldAt r.raw 0x2C 4) d, hexec,
      finish_completed _ _ _ _ _ rfl, fun j => aget_aputAll_keyed .., fun hlock => ?_, fun hlock => ?_, finish_conf_only _ _ _ _ _ _ s⟩
    · rw [finish_conf]; exact stageBytes_setup hlock ..
    · rw [finish_conf]; exact stageBytes_slot hlock ..
  case crc =>
    intro sq data r d s hready hmay hunarmed hdata hcrc
    have hexec := exec_setTable hready hmay hunarmed hdata
    rw [if_pos hcrc] at hexec
    exact ⟨_, hexec, finish_completed _ _ _ _ _ rfl, finish_only _ _ _ _ _ s⟩
  case config =>
    rintro sq data r base s hbus hready hunarmed hok hlen rfl hgood
    exact ⟨_, exec_stageConfig hbus hready hunarmed hok hlen hgood, finish_completed _ _ _ _ _ rfl, finish_conf ..,
      finish_conf_only _ _ _ _ _ _ s⟩

end Sys2Proof.Proofs
end
section
/-!
Arming and cancelling staged slots outside a wall (R92): ARM_CONFIG and its cancel while no exchange of a wall arm waits.
-/
namespace Sys2Proof.Proofs
open Sys2Proof.Machine Sys2Proof.Laws

/-! ## Slots -/

theorem slotOf_setSlot (i j : Nat) (sl : Slot) (c : Conf) : slotOf (setSlot i sl c) j = if j = i then sl else slotOf c j :=
  mget_mput ..

/-- Arming a mask gives its slots the FE and leaves every other slot. -/
theorem slotOf_armSlots (mask : List Nat) (fe : Option Nat) (c : Conf) (j : Nat) :
    slotOf (armSlots mask fe c) j = if j ∈ mask then { slotOf c j with armed := fe } else slotOf c j := by
  induction mask generalizing c with
  | nil => rfl
  | cons i l ih =>
    have hstep : armSlots (i :: l) fe c = armSlots l fe (setSlot i { slotOf c i with armed := fe } c) := rfl
    rw [hstep, ih, slotOf_setSlot]
    by_cases hji : j = i
    · subst hji; by_cases hjl : j ∈ l <;> simp [hjl]
    · simp [hji]

theorem armSlots_same (mask : List Nat) (fe : Option Nat) (c : Conf) :
    (armSlots mask fe c).live = c.live ∧ (armSlots mask fe c).setup = c.setup := by
  induction mask generalizing c with
  | nil => exact ⟨rfl, rfl⟩
  | cons i l ih => exact ih (setSlot i { slotOf c i with armed := fe } c)

/-- All that arming or disarming a mask does. -/
theorem armSlots_changes (mask : List Nat) (fe : Option Nat) (c : Conf) :
    (∀ i ∈ mask, slotOf (armSlots mask fe c) i = { slotOf c i with armed := fe }) ∧
      (∀ i, i ∉ mask → slotOf (armSlots mask fe c) i = slotOf c i) ∧ (armSlots mask fe c).regs = c.regs ∧
      (armSlots mask fe c).tables = c.tables ∧ (armSlots mask fe c).live = c.live ∧ (armSlots mask fe c).setup = c.setup := by
  obtain ⟨hregs, htables⟩ := armSlots_keeps mask fe c
  obtain ⟨hlive, hsetup⟩ := armSlots_same mask fe c
  exact ⟨fun i hi => (slotOf_armSlots ..).trans (if_pos hi), fun i hi => (slotOf_armSlots ..).trans (if_neg hi),
    hregs, htables, hlive, hsetup⟩

/-! ## ARM_CONFIG -/

theorem filter_waiting_idle {l : List WallArm} (f : WallArm → Bool) (h : ∀ a ∈ l, a.ring = none) :
    l.filter (fun a => a.ring.isSome && f a) = [] :=
  List.filter_eq_nil_iff.mpr fun a ha => by simp [h a ha]

/-- No command of an exchange waits: acknowledgements settle nothing. -/
theorem settleExchange_idle {s : State} (h : ∀ a ∈ s.gng.arms, a.ring = none) : settleExchange s = s := by
  rw [settleExchange, filter_waiting_idle _ h]
  rfl

/-- Slots of which none is a wall slot, or with Gingham off, are armed by this tile alone. -/
theorem arm_outside_wall {c : Conf} {mask : List Nat} (h : fbit c GNG_CTRL_EN = false ∨ ∀ i ∈ mask, i ∉ wallSlots c) :
    (fbit c GNG_CTRL_EN && !(mask.filter (fun i => (wallSlots c).contains i)).isEmpty) = false := by
  rcases h with h | h
  · simp [h]
  · have hnone : mask.filter (fun i => (wallSlots c).contains i) = [] :=
      List.filter_eq_nil_iff.mpr fun i hi => by simpa using h i hi
    rw [hnone]
    simp

section
variable {sq : Nat} {r : Running} {s : State} (hready : ready s .pf0 sq 0x12 = some r)
include hready

theorem exec_armConfig (hplain : bit (fieldAt r.raw 0x18 4) 8 = false) :
    exec (.armConfig sq) s = .next (settleExchange (armConfig sq r s)) := by
  simp only [exec, execArmConfig, runRing_ready hready, hplain, Bool.false_eq_true, if_false]

theorem exec_armConfigCancel (hcancel : bit (fieldAt r.raw 0x18 4) 8 = true) :
    exec (.armConfigCancel sq) s = .next (cancelConfig sq r s) := by
  simp only [exec, execArmConfigCancel, runRing_ready hready, hcancel, if_true]

end

section
variable {r : Running} {s : State}
  (houtside : fbit s.conf GNG_CTRL_EN = false ∨ ∀ i ∈ bitList (fieldAt r.raw 0x18 4 % 16) 4, i ∉ wallSlots s.conf)
include houtside

theorem armConfig_late (sq : Nat) (hlate : armFe s.sys.fe (fieldAt r.raw 0x20 8) 2 = none) :
    armConfig sq r s = finish .pf0 sq r ARM_LATE [] s := by
  simp only [armConfig, arm_outside_wall houtside, Bool.false_and, Bool.false_eq_true, if_false, hlate]

theorem armConfig_arms (sq : Nat) {n : Nat} (hfe : armFe s.sys.fe (fieldAt r.raw 0x20 8) 2 = some n)
    (hunarmed : ∀ i ∈ bitList (fieldAt r.raw 0x18 4 % 16) 4, (slotOf s.conf i).armed = none)
    (hvalid : validateArm (worldOf s) (armSlots (bitList (fieldAt r.raw 0x18 4 % 16) 4) (some n) s.conf) n = none) :
    armConfig sq r s = finish .pf0 sq r SUCCESS
      (classNum (armClass (armSlots (bitList (fieldAt r.raw 0x18 4 % 16) 4) (some n) s.conf) n) :: lohi n)
      { s with conf := armSlots (bitList (fieldAt r.raw 0x18 4 % 16) 4) (some n) s.conf } := by
  have hfree : (bitList (fieldAt r.raw 0x18 4 % 16) 4).any (fun i => (slotOf s.conf i).armed.isSome) = false :=
    List.any_eq_false.mpr fun i hi => by simp [hunarmed i hi]
  simp only [armConfig, arm_outside_wall houtside, Bool.false_and, Bool.false_eq_true, if_false, hfe, hfree, hvalid]

end

theorem armFe_late {f fe lead : Nat} (hfe : fe ≠ 0) (hlate : fe < f + lead) : armFe f fe lead = none := by
  simp [armFe, hfe, Nat.not_le.mpr hlate]

/-! ## The cancel -/

/-- Armed slots of a cancel's mask. -/
def cancelMask (r : Running) (c : Conf) : List Nat :=
  (bitList (fieldAt r.raw 0x18 4 % 16) 4).filter (fun i => (slotOf c i).armed.isSome)

/-- Without wall arms a cancel in time disarms its slots, where any is armed, and completes with them. -/
theorem cancelConfig_disarms (sq : Nat) {r : Running} {s : State} (harms : s.gng.arms = [])
    (htime : ∀ i ∈ cancelMask r s.conf, ∀ n, (slotOf s.conf i).armed = some n → s.sys.fe + 2 ≤ n)
    (hvalid : validateRest (worldOf s) (armSlots (cancelMask r s.conf) none s.conf) = none) :
    cancelConfig sq r s = finish .pf0 sq r SUCCESS [ofBits (cancelMask r s.conf)]
      { s with conf := armSlots (cancelMask r s.conf) none s.conf } := by
  have hwalls : wallArmsOf s (cancelMask r s.conf) = [] := by simp [wallArmsOf, harms]
  unfold cancelConfig
  dsimp only
  rw [← cancelMask, hwalls]
  by_cases hempty : cancelMask r s.conf = []
  · rw [hempty]
    rfl
  · have hhere : ¬ (cancelMask r s.conf).isEmpty = true := by simpa using hempty
    rw [if_neg hhere, if_neg, List.flatMap_nil, List.append_nil, hvalid]
    · rfl
    · rw [Bool.not_eq_true]
      refine List.any_eq_false.mpr fun i hi => ?_
      cases harmed : (slotOf s.conf i).armed with
      | none => simp
      | some n => simp [htime i hi n harmed]

end Sys2Proof.Proofs
end
section
/-!
The wall's arms through a frame tick (R356, R357): what a frame's end and its beginning do on the links leaves the arms, and the frame's
end leaves the timekeeper to adopt.
-/
namespace Sys2Proof.Proofs
open Sys2Proof.Machine Sys2Proof.Laws

@[simp] theorem forAll_arms {α : Type} (l : List α) (f : α → State → State) (s : State)
    (h : ∀ a s, (f a s).gng.arms = s.gng.arms) : (forAll l f s).gng.arms = s.gng.arms :=
  forAll_keeps (fun s => s.gng.arms) l f s h

@[simp] theorem forAll_adopt {α : Type} (l : List α) (f : α → State → State) (s : State)
    (h : ∀ a s, (f a s).gng.adopt = s.gng.adopt) : (forAll l f s).gng.adopt = s.gng.adopt :=
  forAll_keeps (fun s => s.gng.adopt) l f s h

/-! ## Gauze's halos, and the frame's end -/

@[simp] theorem gngSend_wall (ports : List Nat) (type flood : Nat) (payload : Bytes) (s : State) :
    (gngSend ports type flood payload s).gng.arms = s.gng.arms ∧ (gngSend ports type flood payload s).gng.adopt = s.gng.adopt :=
  ⟨rfl, rfl⟩

@[simp] theorem gngFlood_wall (type : Nat) (payload : Bytes) (s : State) :
    (gngFlood type payload s).gng.arms = s.gng.arms ∧ (gngFlood type payload s).gng.adopt = s.gng.adopt := ⟨rfl, rfl⟩

@[simp] theorem sendHaloLevel_wall (r0 r1 : Nat) (s : State) :
    (sendHaloLevel r0 r1 s).gng.arms = s.gng.arms ∧ (sendHaloLevel r0 r1 s).gng.adopt = s.gng.adopt := by
  simp [sendHaloLevel]

@[simp] theorem reconRow_wall (r : Nat) (s : State) :
    (reconRow r s).gng.arms = s.gng.arms ∧ (reconRow r s).gng.adopt = s.gng.adopt := ⟨rfl, rfl⟩

@[simp] theorem runRecon_wall (s : State) :
    (runRecon s).gng.arms = s.gng.arms ∧ (runRecon s).gng.adopt = s.gng.adopt := by
  simp [runRecon]

@[simp] theorem finalRows_wall (rows : List Nat) (s : State) :
    (finalRows rows s).gng.arms = s.gng.arms ∧ (finalRows rows s).gng.adopt = s.gng.adopt := by
  unfold finalRows; split <;> simp

@[simp] theorem commitRun_wall (a b : Nat) (forced : Bool) (s : State) :
    (commitRun a b forced s).gng.arms = s.gng.arms ∧ (commitRun a b forced s).gng.adopt = s.gng.adopt := by
  simp [commitRun]

@[simp] theorem commitAllMax_wall (s : State) :
    (commitAllMax s).gng.arms = s.gng.arms ∧ (commitAllMax s).gng.adopt = s.gng.adopt := by
  simp [commitAllMax]

@[simp] theorem forceUpTo_wall (i n : Nat) (s : State) :
    (forceUpTo i n s).gng.arms = s.gng.arms ∧ (forceUpTo i n s).gng.adopt = s.gng.adopt := by
  induction n generalizing s with
  | zero => exact ⟨rfl, rfl⟩
  | succ n ih =>
    simp only [forceUpTo]
    split <;> simp [ih]

@[simp] theorem zoneTicks_wall (s : State) :
    (zoneTicks s).gng.arms = s.gng.arms ∧ (zoneTicks s).gng.adopt = s.gng.adopt := by
  unfold zoneTicks
  (repeat' split) <;> simp

@[simp] theorem gauzeOff_wall (s : State) :
    (gauzeOff s).gng.arms = s.gng.arms ∧ (gauzeOff s).gng.adopt = s.gng.adopt := by
  unfold gauzeOff; split <;> simp

theorem endSlot_wall (s : State) : (endSlot s).gng.arms = s.gng.arms ∧ (endSlot s).gng.adopt = s.gng.adopt := by
  unfold endSlot
  dsimp only
  constructor <;> (repeat' split) <;> simp

@[simp] theorem postIsland_wall (s : State) :
    (postIsland s).gng.arms = s.gng.arms ∧ (postIsland s).gng.adopt = s.gng.adopt := by
  unfold postIsland; split <;> simp

theorem closeFrame_wall (s : State) : (closeFrame s).gng.arms = s.gng.arms ∧ (closeFrame s).gng.adopt = s.gng.adopt := by
  unfold closeFrame
  dsimp only
  split <;> simp

/-! ## The part and its ports, and the effects of a change -/

@[simp] theorem setGng_arms (p : Nat) (v : GngPort) (s : State) : (setGng p v s).gng.arms = s.gng.arms := rfl

@[simp] theorem ownTk_arms (role : Role) (s : State) : (ownTk role s).gng.arms = s.gng.arms := rfl

@[simp] theorem takeWay_arms (w : Nat × HelloMsg) (s : State) : (takeWay w s).gng.arms = s.gng.arms := rfl

@[simp] theorem joinPart_arms (w : Nat × HelloMsg) (s : State) : (joinPart w s).gng.arms = s.gng.arms := rfl

@[simp] theorem loseTk_arms (s : State) : (loseTk s).gng.arms = s.gng.arms := rfl

@[simp] theorem electFrom_arms (p : Nat) (m : HelloMsg) (s : State) : (electFrom p m s).gng.arms = s.gng.arms := by
  unfold electFrom; split <;> simp

@[simp] theorem heardTk_arms (p : Nat) (before : Option Nat) (m : HelloMsg) (s : State) :
    (heardTk p before m s).gng.arms = s.gng.arms := by
  unfold heardTk
  (repeat' split) <;> simp

@[simp] theorem wayLost_arms (p : Nat) (s : State) : (wayLost p s).gng.arms = s.gng.arms := by
  unfold wayLost
  split
  · refine (forAll_arms _ _ _ fun q s => ?_).trans (ownTk_arms _ s)
    split <;> simp
  · (repeat' split) <;> simp

@[simp] theorem reroute_arms (s : State) : (reroute s).gng.arms = s.gng.arms := by
  unfold reroute
  (repeat' split) <;> simp

@[simp] theorem upPortLost_arms (p : Nat) (s : State) : (upPortLost p s).gng.arms = s.gng.arms := by
  simp [upPortLost]

@[simp] theorem enablePorts_arms (s : State) : (enablePorts s).gng.arms = s.gng.arms := by
  refine forAll_arms _ _ _ fun p s => ?_
  dsimp only
  (repeat' split) <;> simp

@[simp] theorem settleRole_arms (old : Conf) (s : State) : (settleRole old s).gng.arms = s.gng.arms := by
  unfold settleRole
  (repeat' split) <;> simp

@[simp] theorem confEffects_arms (old : Conf) (n : Nat) (s : State) : (confEffects old n s).gng.arms = s.gng.arms := by
  unfold confEffects
  dsimp only
  (repeat' split) <;> simp

theorem applyChange_arms (n : Nat) (s : State) : (applyChange n s).gng.arms = s.gng.arms := by
  unfold applyChange
  dsimp only
  (repeat' split) <;> simp

/-! ## The links at the frame tick -/

@[simp] theorem checkHalo_arms (p sig : Nat) (s : State) : (checkHalo p sig s).gng.arms = s.gng.arms := by
  unfold checkHalo
  dsimp only
  split <;> simp

@[simp] theorem checkHalos_arms (s : State) : (checkHalos s).gng.arms = s.gng.arms := by
  refine forAll_arms _ _ _ fun p s => ?_
  split <;> simp

@[simp] theorem buildDigest_arms (s : State) : (buildDigest s).gng.arms = s.gng.arms := by
  unfold buildDigest
  split <;> simp

end Sys2Proof.Proofs
end
section
/-!
The frame tick and the configuration (R92, R93): where no arm of the wall waits, no other timekeeper is adopted and no reset comes, what
is due is in force after it.
-/
namespace Sys2Proof.Proofs
open Sys2Proof.Machine Sys2Proof.Laws

/-! ## A reset to BOOT that comes -/

/-- A transition to BOOT has been accepted. -/
def bootComes (s : State) : Bool := s.sys.transit.any (fun w => w.target = .boot)

theorem settleReset_not_coming {s : State} (h : bootComes s = false) : settleReset s = s := by
  have hnone : s.sys.transit.any (fun t => t.target = .boot && (1 ≤ t.step || !s.tmg.running)) = false := by
    rw [bootComes] at h
    cases ht : s.sys.transit with
    | none => rfl
    | some t => rw [ht] at h; simp_all
  simp [settleReset, hnone]

theorem bootComes_congr {s t : State} (h : t.sys.transit = s.sys.transit) : bootComes t = bootComes s := by
  rw [bootComes, h, bootComes]

@[simp] theorem powerDown_bootComes (s : State) : bootComes (powerDown s) = bootComes s := by
  unfold powerDown
  dsimp only
  split
  · rfl
  · rename_i t ht
    (repeat' split) <;> simp [bootComes, ht]

@[simp] theorem turnMode_transit (m : Mode) (s : State) : (turnMode m s).sys.transit = s.sys.transit := by
  unfold turnMode
  dsimp only
  (repeat' split) <;> simp

@[simp] theorem cueEnds_transit (r : CueRun) (m : Mode) (s : State) : (cueEnds r m s).sys.transit = s.sys.transit := by
  unfold cueEnds
  dsimp only
  split <;> simp

@[simp] theorem powerOnCue_transit (step : Nat) (s : State) : (powerOnCue step s).sys.transit = s.sys.transit := by
  unfold powerOnCue
  dsimp only
  split <;> simp

theorem doneArms_bootComes (n : Nat) (s : State) : bootComes (doneArms n s) = bootComes s := bootComes_congr (by simp)

/-- Leaving LIVE for a host that has gone asks for HOLD, so that no reset comes by it. -/
theorem leaveLive_bootComes {s : State} (h : bootComes s = false) : bootComes (leaveLive s) = false := by
  unfold leaveLive
  split
  · simp [bootComes, beginTransit]
  · exact h

/-- The turn of a mode ends a transition or leaves it waiting. -/
theorem modeFt_bootComes {s : State} (n : Nat) (h : bootComes s = false) : bootComes (modeFt n s) = false := by
  have hleave (t : State) (ht : bootComes t = false) : bootComes (if t.hif.d3hot then leaveLive t else t) = false := by
    split
    · exact leaveLive_bootComes ht
    · exact ht
  rw [bootComes] at h
  unfold modeFt
  refine hleave _ ?_
  rw [doneArms_bootComes, bootComes]
  (repeat' split) <;> simp [h]

/-! ## What is due comes into force -/

theorem committedConf_idle {s : State} (h : s.gng.arms = []) : committedConf s = s.conf := by
  rw [committedConf, h]; rfl

/-- The configuration at a frame is made of the configuration and its staged sets alone. -/
theorem confAt_congr {s t : State} (hs : s.gng.arms = []) (ht : t.gng.arms = []) (hconf : t.conf = s.conf) (n : Nat) :
    confAt t n = confAt s n := by
  simp only [confAt, committedConf_idle hs, committedConf_idle ht, hconf]

theorem applyChange_due {s : State} {n : Nat} (harms : s.gng.arms = [])
    (hdue : (!(dueSlots s.conf n).isEmpty || setupDue s.conf n) = true) : (applyChange n s).conf = confAt s n := by
  have hthere : ((dueSlots s.conf n).isEmpty && !setupDue s.conf n) = false := by
    revert hdue
    cases (dueSlots s.conf n).isEmpty <;> cases setupDue s.conf n <;> simp
  simp only [applyChange, committedConf_idle harms, hthere, Bool.false_eq_true, if_false]
  simp

theorem applyChange_not_due {s : State} {n : Nat} (harms : s.gng.arms = [])
    (hdue : (!(dueSlots s.conf n).isEmpty || setupDue s.conf n) = false) : applyChange n s = s := by
  obtain ⟨hslots, hsetup⟩ := Bool.or_eq_false_iff.mp hdue
  have hnone : ((dueSlots s.conf n).isEmpty && !setupDue s.conf n) = true := by
    rw [hsetup, Bool.not_false, Bool.and_true]
    simpa using hslots
  simp only [applyChange, committedConf_idle harms, hnone, if_true]

theorem mget_emptied (l : List Nat) (m : SMap Slot) (j : Nat) :
    mget {} (l.foldl (fun m i => mput {} i {} m) m) j = if j ∈ l then {} else mget {} m j := by
  induction l generalizing m with
  | nil => rfl
  | cons i l ih =>
    rw [List.foldl_cons, ih, mget_mput]
    by_cases hl : j ∈ l <;> by_cases hi : j = i <;> simp [hl, hi]

theorem confAt_empties {s : State} {n i : Nat} (harms : s.gng.arms = []) (hi : i < 4)
    (hdue : (slotOf s.conf i).armed.any (· ≤ n) = true) : slotOf (confAt s n) i = {} := by
  have hmem : i ∈ dueSlots s.conf n := List.mem_filter.mpr ⟨List.mem_range.mpr hi, hdue⟩
  refine (mget_emptied (dueSlots (committedConf s) n) s.conf.slots i).trans (if_pos ?_)
  rwa [committedConf_idle harms]

/-! ## The frame's end and beginning -/

theorem decideArms_idle {s : State} (h : s.gng.arms = []) : decideArms s = s := by
  rw [decideArms, h]; rfl

theorem loseArms_idle {s : State} (h : s.gng.arms = []) : (loseArms s).conf = s.conf := by
  rw [loseArms, h]; rfl

theorem adoptsNow_none {s : State} (h : s.gng.adopt = none) : adoptsNow s = false := by
  rw [adoptsNow, h]; rfl

theorem nextFe_none {s : State} (h : s.gng.adopt = none) : nextFe s = s.sys.fe + 1 := by
  rw [nextFe, adoptsNow_none h, h]

/-- The state of the frame that begins, before its change: its FE, and no seam yet. -/
def atFrame (n : Nat) (s : State) : State :=
  { s with sys := { s.sys with fe := n }, tmg := { s.tmg with seam := false, seamOne := false } }

section
variable {s : State} (n clocks : Nat) (harms : s.gng.arms = []) (hadopt : s.gng.adopt = none)
include harms hadopt

/-- What the frame's beginning leaves of its change: configuration, FE and arms, and that no reset comes. -/
theorem beginFrame_change : (beginFrame n clocks s).conf = (applyChange n (atFrame n s)).conf ∧
    (beginFrame n clocks s).sys.fe = n ∧ (beginFrame n clocks s).gng.arms = [] ∧
    (bootComes s = false → bootComes (beginFrame n clocks s) = false) := by
  have hsame : decideArms (adoptFt (adoptsNow s) s.sys.fe (atFrame n s)) = atFrame n s := by
    rw [adoptsNow_none hadopt]
    exact decideArms_idle harms
  have hchange : (applyChange n (atFrame n s)).gng.arms = [] := (applyChange_arms n (atFrame n s)).trans harms
  have hfe : (applyChange n (atFrame n s)).sys.fe = n := by simp [atFrame]
  have hcomes (h : bootComes s = false) : bootComes (modeFt n (powerDown (applyChange n (atFrame n s)))) = false := by
    refine modeFt_bootComes n ?_
    rw [powerDown_bootComes, ← h]
    exact bootComes_congr (by simp [atFrame])
  generalize hafter : applyChange n (atFrame n s) = s2 at hchange hfe hcomes ⊢
  unfold atFrame at hsame hafter
  unfold beginFrame
  dsimp only
  rw [hsame, hafter]
  refine ⟨?_, ?_, ?_, fun h => (bootComes_congr (s := modeFt n (powerDown s2)) ?_).trans (hcomes h)⟩ <;>
    (repeat' split) <;> simp [hchange, hfe]

end

/-! ## The frame tick -/

/-- The frame that ends is closed: what its last slot still had to do is done. -/
def frameClosed (s : State) : State := closeFrame (lateStep (endSlot s))

theorem frameClosed_same (s : State) : (frameClosed s).conf = s.conf ∧ (frameClosed s).sys = s.sys ∧
    (frameClosed s).gng.arms = s.gng.arms ∧ (frameClosed s).gng.adopt = s.gng.adopt := by
  simp [frameClosed, closeFrame_wall, endSlot_wall]

/-- The links' part of a frame tick, with no arm of the wall. -/
theorem linksFt_conf {s : State} (harms : s.gng.arms = []) : (linksFt s).conf = s.conf := by
  rw [linksFt, loseArms_idle (by simp [harms])]
  simp

/-- What remains of a frame tick after its links keeps the configuration, and the FE and the transition. -/
def frameGoesOn (s : State) : State :=
  let s3 := lineMatches (takePolarity (accLt (cueAhead (newFrame (trace1 5 (postReleases (releaseStaging (settleFrees s))))))))
  runPolls false (runGates (emitSlot (fixedQuietEnd (beginReads (stopQuiet s3)))))

theorem frameGoesOn_same (s : State) : (frameGoesOn s).conf = s.conf ∧ (frameGoesOn s).sys = s.sys := by
  simp [frameGoesOn]

theorem exec_frameTick {s : State} (h : (s.tmg.running && s.tmg.nextFt = some (s.tmg.slot + 1)) = true) :
    exec .frameTick s = .next (settleReset (frameGoesOn (linksFt (beginFrame (nextFe (frameClosed s)) (frameClocks s) (frameClosed s))))) := by
  simp only [exec, execFrameTick, h, if_true, frameClosed, frameGoesOn]

/-- A frame tick of this tile's own, with no arm of the wall: the FE goes on by one, and a change is applied to a state with the
configuration before it. -/
theorem exec_frameTick_own {s : State} (hown : ownFrameTick s = true) (harms : s.gng.arms = []) :
    ∃ s0 t, s0.conf = s.conf ∧ s0.gng.arms = [] ∧ exec .frameTick s = .next t ∧ t.sys.fe = s.sys.fe + 1 ∧
      t.conf = (applyChange (s.sys.fe + 1) s0).conf := by
  obtain ⟨⟨⟨hrun, htick⟩, hadopt⟩, hboot⟩ : ((s.tmg.running = true ∧ s.tmg.nextFt = some (s.tmg.slot + 1)) ∧ s.gng.adopt = none) ∧
      bootComes s = false := by
    simpa [ownFrameTick, bootComes] using hown
  obtain ⟨hconf, hsys, harmsClosed, hadoptClosed⟩ := frameClosed_same s
  rw [harms] at harmsClosed
  rw [hadopt] at hadoptClosed
  obtain ⟨hchange, hfe, hidle, hcomes⟩ := beginFrame_change (s.sys.fe + 1) (frameClocks s) harmsClosed hadoptClosed
  have hbegun := exec_frameTick (s := s) (by simp [hrun, htick])
  rw [nextFe_none hadoptClosed, hsys] at hbegun
  generalize beginFrame (s.sys.fe + 1) (frameClocks s) (frameClosed s) = b at hchange hfe hidle hcomes hbegun
  obtain ⟨hgoConf, hgoSys⟩ := frameGoesOn_same (linksFt b)
  have hstay : bootComes (frameGoesOn (linksFt b)) = false := by
    rw [bootComes_congr (s := b) (by rw [hgoSys]; simp)]
    exact hcomes ((bootComes_congr (by rw [hsys])).trans hboot)
  rw [settleReset_not_coming hstay] at hbegun
  refine ⟨atFrame (s.sys.fe + 1) (frameClosed s), _, hconf, harmsClosed, hbegun, ?_, ?_⟩
  · rw [hgoSys, ← hfe]; simp
  · rw [hgoConf, linksFt_conf hidle, hchange]

/-- Settles O27: a command outside a wall arms or disarms its slots by one validation, and the frame tick that begins an armed set's FE
applies it. -/
theorem armsAndCancels : Obligations.ArmsAndCancels := by
  refine ⟨?arms, ?late, ?cancels, ?tick⟩
  case arms =>
    rintro sq n mask r s hready rfl hplain houtside hidle hfe hunarmed hvalid
    obtain ⟨hin, hout, hregs, htables, hlive, hsetup⟩ := armSlots_changes (bitList (fieldAt r.raw 0x18 4 % 16) 4) (some n) s.conf
    have hexec := exec_armConfig hready hplain
    rw [armConfig_arms houtside sq hfe hunarmed hvalid, settleExchange_idle (by simpa using hidle)] at hexec
    refine ⟨_, hexec, finish_completed _ _ _ _ _ rfl, ?_⟩
    rw [finish_conf]
    exact ⟨hin, hout, hregs, htables, hlive, hsetup, finish_conf_only _ _ _ _ _ _ s⟩
  case late =>
    intro sq r s hready hplain houtside hidle hfe hlate
    have hexec := exec_armConfig hready hplain
    rw [armConfig_late houtside sq (armFe_late hfe hlate), settleExchange_idle (by simpa using hidle)] at hexec
    exact ⟨_, hexec, finish_completed _ _ _ _ _ rfl, finish_only _ _ _ _ _ s⟩
  case cancels =>
    rintro sq mask r s hready hcancel rfl harms htime hvalid
    obtain ⟨hin, hout, hregs, htables, hlive, hsetup⟩ := armSlots_changes (cancelMask r s.conf) none s.conf
    have hexec := exec_armConfigCancel hready hcancel
    rw [cancelConfig_disarms sq harms htime hvalid] at hexec
    refine ⟨_, hexec, finish_completed _ _ _ _ _ rfl, ?_⟩
    rw [finish_conf]
    exact ⟨hin, hout, hregs, htables, hlive, hsetup, only_mono (by decide) (finish_conf_only _ _ _ _ _ _ s)⟩
  case tick =>
    intro s hown harms
    obtain ⟨s0, t, hsame, hidle, hexec, hfe, hconf⟩ := exec_frameTick_own hown harms
    refine ⟨t, hexec, hfe, fun hdue => ?_, fun hdue => ?_⟩ <;> rw [changeDue, ← hsame] at hdue
    · rw [applyChange_due hidle hdue, confAt_congr harms hidle hsame] at hconf
      exact ⟨hconf, fun i hi harmed => hconf ▸ confAt_empties harms hi harmed⟩
    · rw [hconf, applyChange_not_due hidle hdue, hsame]

end Sys2Proof.Proofs
end

section
/-!
Push slots (R109 to R112): what a header and a payload write do to the slot that they name and to module memory.
-/
namespace Sys2Proof.Proofs
open Sys2Proof.Machine Sys2Proof.Laws

/-! ## Reading the slots -/

theorem pushSlotOf_setPush (k j : Nat) (p : PushSlot) (s : State) :
    pushSlotOf (setPush k p s) j = if j = k then p else pushSlotOf s j := mget_mput ..

@[simp] theorem pushSlotOf_setPush_same (k : Nat) (p : PushSlot) (s : State) : pushSlotOf (setPush k p s) k = p := by
  simp [pushSlotOf_setPush]

theorem pushSlotOf_setPush_other {k j : Nat} (h : j ≠ k) (p : PushSlot) (s : State) :
    pushSlotOf (setPush k p s) j = pushSlotOf s j := by
  simp [pushSlotOf_setPush, h]

theorem pushSlotOf_residence (s : State) (k : Nat) : pushSlotOf (residence s) k = pushSlotOf s k := by simp [pushSlotOf]

theorem pushSlotOf_writePages (a : Nat) (d : Bytes) (s : State) (k : Nat) :
    pushSlotOf (writePages a d s) k = pushSlotOf s k := by
  simp [pushSlotOf]

theorem pushSlotOf_postIf (c : Bool) (code sev : Nat) (p : List Nat) (s : State) (k : Nat) :
    pushSlotOf (postIf c code sev p s) k = pushSlotOf s k := by
  simp [pushSlotOf]

theorem pushSlotOf_trace1 (src : Nat) (s : State) (k : Nat) : pushSlotOf (trace1 src s) k = pushSlotOf s k := by
  simp [pushSlotOf]

/-! ## The guard on a slot of a protected layer (R380) -/

theorem guardOne_cases (slot : Nat) (s : State) : guardOne slot s = s ∨
    guardOne slot s = residence (setPush slot { pushSlotOf s slot with guarded := true }
      { s with mem := guardPages (slotAddr s.conf slot / 4096) (pushPages s.conf) true s.mem }) := by
  unfold guardOne
  dsimp only
  split
  · split
    · exact .inr rfl
    · exact .inl rfl
  · exact .inl rfl

theorem guardOne_ing (slot : Nat) (s : State) :
    (guardOne slot s).ing = { s.ing with push := (guardOne slot s).ing.push } := by
  obtain h | h := guardOne_cases slot s
  · rw [h]
  · rw [h]
    simp only [residence_frame]
    rfl

theorem guardOne_other {slot k : Nat} (hk : k ≠ slot) (s : State) : pushSlotOf (guardOne slot s) k = pushSlotOf s k := by
  obtain h | h := guardOne_cases slot s
  · rw [h]
  · rw [h, pushSlotOf_residence, pushSlotOf_setPush_other hk]
    rfl

theorem guardOne_slot (slot : Nat) (s : State) : pushSlotOf (guardOne slot s) slot =
    { pushSlotOf s slot with guarded := (pushSlotOf (guardOne slot s) slot).guarded } := by
  obtain h | h := guardOne_cases slot s
  · rw [h]
  · have hslot : pushSlotOf (guardOne slot s) slot = { pushSlotOf s slot with guarded := true } := by
      rw [h, pushSlotOf_residence, pushSlotOf_setPush_same]
    rw [hslot]

/-- Guarding pages poisons none. -/
theorem guardOne_isPoisoned (slot : Nat) (s : State) (p : Nat) : isPoisoned (guardOne slot s) p = isPoisoned s p := by
  obtain h | h := guardOne_cases slot s
  · rw [h]
  · rw [h, isPoisoned]
    simp only [residence_frame]
    rfl

/-! ## A host write to pages that are not poisoned (R300) -/

theorem isPoisoned_writeMem_clean {a : Nat} {d : Bytes} {s : State} (h : ∀ p ∈ pagesOf a d.length, isPoisoned s p = false)
    (p : Nat) : isPoisoned (writeMem a d s) p = isPoisoned s p := by
  by_cases hp : p ∈ pagesOf a d.length
  · rw [h p hp, isPoisoned_writeMem a d (h p hp)]
  · have hraw : mget false (writeMem a d s).mem.raw p = mget false s.mem.raw p := by
      simp [writeMem, writeMemOf, mget_mputAll_const, hp]
    have hword : poisonWord (writeMem a d s).mem p = poisonWord s.mem p := by
      simp [poisonWord, writeMem, writeMemOf, mget_mputAll_const, hp]
    rw [isPoisoned, isPoisoned, badPage, badPage, hraw, hword]

/-- Between two states the n bytes from `a` on of a write `d` that begins at `base` landed, and no page's poison changed. -/
def Landed (base : Nat) (d : Bytes) (a n : Nat) (s t : State) : Prop :=
  WroteRange base d a n s t ∧ ∀ p, isPoisoned t p = isPoisoned s p

theorem writePages_landed (a : Nat) (d : Bytes) (s : State) (h : ∀ p ∈ pagesOf a d.length, isPoisoned s p = false) :
    Landed a d a d.length s (writePages a d s) := by
  refine pieces_induction (P := fun b n l => ∀ s, a ≤ b → b - a + n ≤ d.length →
    (∀ p ∈ pagesOf b n, isPoisoned s p = false) →
    Landed a d b n s (forAll l (fun q s => writePage q.1 ((d.drop (q.1 - a)).take q.2) s) s))
    ?nil ?cons a d.length s (Nat.le_refl a) (by simp) h
  case nil =>
    intro b s _ _ _
    refine ⟨⟨fun c => ?_, fun p => rfl, only_refl _ s⟩, fun p => rfl⟩
    rw [if_neg (by omega)]
    rfl
  case cons =>
    intro b k m l hk hfits ih s hbase hlen hclean
    have hk' : ((d.drop (b - a)).take k).length = k := by simp; omega
    have hfirst : writePage b ((d.drop (b - a)).take k) s = writeMem b ((d.drop (b - a)).take k) s := by
      simp [writePage, hclean _ (mem_pagesOf.mpr ⟨b, Nat.le_refl b, by omega, rfl⟩)]
    have hpoison := isPoisoned_writeMem_clean (a := b) (d := (d.drop (b - a)).take k) (s := s) fun p hp =>
      hclean p (mem_pagesOf_add.mpr (.inl (hk' ▸ hp)))
    obtain ⟨hwrote, hkept⟩ := ih (writeMem b ((d.drop (b - a)).take k) s) (by omega) (by omega) fun p hp =>
      (hpoison p).trans (hclean p (mem_pagesOf_add.mpr (.inr hp)))
    have hstep : Landed a d b (k + m) s (forAll l (fun q s => writePage q.1 ((d.drop (q.1 - a)).take q.2) s)
        (writeMem b ((d.drop (b - a)).take k) s)) :=
      ⟨(writeMem_wrote hbase (by omega) s).trans hwrote, fun p => (hkept p).trans (hpoison p)⟩
    rwa [← hfirst] at hstep

/-- The bytes of a write that landed stand at their places, and every other byte is as it was. -/
theorem Landed.bytes {a : Nat} {d : Bytes} {s t : State} (h : Landed a d a d.length s t) :
    (∀ k < d.length, mget 0 t.mem.bytes (a + k) = d.getD k 0) ∧
      ∀ b, b < a ∨ a + d.length ≤ b → mget 0 t.mem.bytes b = mget 0 s.mem.bytes b := by
  obtain ⟨⟨hbytes, -, -⟩, -⟩ := h
  refine ⟨fun k hk => ?_, fun b hb => ?_⟩
  · rw [hbytes, if_pos (by omega), Nat.add_sub_cancel_left]
  · rw [hbytes, if_neg (by omega)]

/-! ## Headers (R110, Table 5.4) -/

theorem exec_pushHeaderCommit {s : State} (hup : hostUp s = true) (slot : Nat) (h : Bytes) (stream : Option Nat) :
    exec (.pushHeaderCommit slot h stream) s = .next (commitHeader slot (h.take 32) stream s) := hostOp_of_hostUp hup

/-- What an accepted header makes of its slot. -/
def openedSlot (h : Bytes) (stream : Option Nat) : PushSlot :=
  { used := true, accepts := decide (0 < fieldAt h 4 4), layer := bits (fieldAt h 2 1) 0 2, band := fieldAt h 0 2
    fe := fieldAt h 8 8, len := fieldAt h 4 4, crcEn := bit (fieldAt h 2 1) 2, crc := fieldAt h 0x10 4
    onStream := stream, complete := decide (fieldAt h 4 4 = 0) }

/-- The state in which a slot has opened and its header has not yet landed. -/
def slotOpened (slot : Nat) (h : Bytes) (stream : Option Nat) (s : State) : State :=
  setPush slot (openedSlot h stream)
    { s with ing := { s.ing with pushNext := (slot + 1) % max 1 (pushSlots s.conf), resync := false } }

theorem acceptHeader_eq (slot : Nat) (h : Bytes) (stream : Option Nat) (s : State) :
    acceptHeader slot h stream s = guardOne slot (writePages (slotAddr s.conf slot) h (slotOpened slot h stream s)) := rfl

/-- The state in which a header that Table 5.4 drops is counted and its slot is closed. -/
def headerDropped (slot : Nat) (d : PushDrop) (begins : Bool) (s : State) : State :=
  closeSlot slot { s with ing := { countDrop d s.ing with resync := s.ing.resync || begins } }

section
variable {slot : Nat} {h : Bytes} {s : State} (stream : Option Nat)

theorem commitHeader_accepts (hjudge : judgeHeader s slot h = none)
    (hstream : streamOk s (fieldAt h 8 8) (bits (fieldAt h 2 1) 0 2) (secureStream s stream) = true) :
    commitHeader slot h stream s = acceptHeader slot h (secureStream s stream) s := by
  simp [commitHeader, hjudge, hstream]

theorem commitHeader_strayed (hjudge : judgeHeader s slot h = none)
    (hstream : streamOk s (fieldAt h 8 8) (bits (fieldAt h 2 1) 0 2) (secureStream s stream) = false) :
    commitHeader slot h stream s = closeSlot slot s := by
  simp [commitHeader, hjudge, hstream]

theorem commitHeader_drops {d : PushDrop} {begins : Bool} (hjudge : judgeHeader s slot h = some (d, begins)) :
    commitHeader slot h stream s = postIf (begins && !s.ing.resync) 0x0302 1
      [fieldAt h 8 4, fieldAt h 0 2, bits (fieldAt h 2 1) 0 2] (headerDropped slot d begins s) := by
  simp [commitHeader, hjudge, headerDropped]

/-- A header lies in the first page of its slot. -/
theorem page_of_header (hlen : h.length ≤ 32) {p : Nat} (hp : p ∈ pagesOf (slotAddr s.conf slot) h.length) :
    p = slotAddr s.conf slot / 4096 := by
  obtain ⟨b, hlo, hhi, rfl⟩ := mem_pagesOf.mp hp
  have haligned : slotAddr s.conf slot % 4096 = 0 := by simp [slotAddr]
  omega

theorem acceptHeader_landed (hlen : h.length ≤ 32) (hgood : isPoisoned s (slotAddr s.conf slot / 4096) = false) :
    Landed (slotAddr s.conf slot) h (slotAddr s.conf slot) h.length (slotOpened slot h stream s)
      (writePages (slotAddr s.conf slot) h (slotOpened slot h stream s)) :=
  writePages_landed _ h _ fun _ hp => page_of_header hlen hp ▸ hgood

theorem acceptHeader_bytes (hlen : h.length ≤ 32) (hgood : isPoisoned s (slotAddr s.conf slot / 4096) = false) :
    (∀ k < h.length, mget 0 (acceptHeader slot h stream s).mem.bytes (slotAddr s.conf slot + k) = h.getD k 0) ∧
      ∀ a, a < slotAddr s.conf slot ∨ slotAddr s.conf slot + h.length ≤ a →
        mget 0 (acceptHeader slot h stream s).mem.bytes a = mget 0 s.mem.bytes a := by
  simpa [acceptHeader_eq, slotOpened] using (acceptHeader_landed stream hlen hgood).bytes

theorem acceptHeader_ing : (acceptHeader slot h stream s).ing = { s.ing with
    pushNext := (slot + 1) % max 1 (pushSlots s.conf)
    resync := false
    push := (acceptHeader slot h stream s).ing.push } := by
  rw [acceptHeader_eq, guardOne_ing]
  simp only [writePages_frame]
  rfl

theorem acceptHeader_slot : pushSlotOf (acceptHeader slot h stream s) slot =
    { openedSlot h stream with guarded := (pushSlotOf (acceptHeader slot h stream s) slot).guarded } := by
  rw [acceptHeader_eq, guardOne_slot, pushSlotOf_writePages, slotOpened, pushSlotOf_setPush_same]

theorem acceptHeader_other {k : Nat} (hk : k ≠ slot) : pushSlotOf (acceptHeader slot h stream s) k = pushSlotOf s k := by
  rw [acceptHeader_eq, guardOne_other hk, pushSlotOf_writePages, slotOpened,
    pushSlotOf_setPush_other hk]
  rfl

theorem acceptHeader_only :
    Only [.hif, .rings, .ing, .mem, .lin, .sec, .out, .free] s (acceptHeader slot h stream s) := by
  intro p hp
  cases p <;> simp [Part.same] at hp ⊢

end

/-! ## Headers that are dropped (Table 5.4) -/

section
variable (slot : Nat) (d : PushDrop) (begins : Bool) (s : State)

/-- Counting a dropped header moves no slot. -/
theorem pushSlotOf_counted (k : Nat) :
    pushSlotOf { s with ing := { countDrop d s.ing with resync := s.ing.resync || begins } } k = pushSlotOf s k := by
  cases d <;> rfl

theorem headerDropped_slot : pushSlotOf (headerDropped slot d begins s) slot = { pushSlotOf s slot with accepts := false } := by
  rw [headerDropped, closeSlot, pushSlotOf_setPush_same, pushSlotOf_counted]

theorem headerDropped_other {k : Nat} (hk : k ≠ slot) : pushSlotOf (headerDropped slot d begins s) k = pushSlotOf s k := by
  rw [headerDropped, closeSlot, pushSlotOf_setPush_other hk, pushSlotOf_counted]

theorem headerDropped_only (c : Bool) (code sev : Nat) (l : List Nat) :
    Only [.ing, .rings, .hif, .out] s (postIf c code sev l (headerDropped slot d begins s)) := by
  intro p hp
  cases p <;> simp [Part.same, headerDropped] at hp ⊢

end

theorem posts_postIf {s u : State} (c : Bool) (code sev : Nat) (p : List Nat) (hfall : u.pwr.fall = s.pwr.fall)
    (hflow : eventsFlow u .pf0 = eventsFlow s .pf0) (hring : eqOf u.rings .pf0 = eqOf s.rings .pf0) (hfe : u.sys.fe = s.sys.fe) :
    Posts s (postIf c code sev p u) (if c then [event s code sev p] else []) := by
  unfold postIf
  split
  · exact posts_post code sev p hfall hflow hring hfe
  · exact posts_nil hring

/-! ## Payload (R109, R111) -/

theorem exec_pushPayloadWrite {s : State} (hup : hostUp s = true) (slot off : Nat) (d : Bytes) (stream : Option Nat) :
    exec (.pushPayloadWrite slot off d stream) s = .next (pushPayload slot off d stream s) := hostOp_of_hostUp hup

/-- The state in which payload bytes have landed and their slot has counted them. -/
def payloadLanded (slot off : Nat) (d : Bytes) (stream : Option Nat) (s : State) : State :=
  guardOne slot (setPush slot
    { pushSlotOf s slot with
      count := (pushSlotOf s slot).count + d.length
      onStream := if (pushSlotOf s slot).onStream = secureStream s stream then secureStream s stream else none }
    (writePages (slotAddr s.conf slot + 4096 + off) d s))

/-- The payload in a slot is sound: no CRC is asked, or it can be read and agrees (R111). -/
def payloadSound (slot : Nat) (s : State) : Bool :=
  !(pushSlotOf s slot).crcEn ||
    ((firstPoisoned s (slotAddr s.conf slot + 4096) (pushSlotOf s slot).len).isNone &&
      crc32c (readMem s (slotAddr s.conf slot + 4096) (pushSlotOf s slot).len) = (pushSlotOf s slot).crc)

section
variable (slot : Nat) (s : State)

theorem completeSlot_slot : pushSlotOf (completeSlot slot s) slot =
    { pushSlotOf s slot with accepts := false, complete := payloadSound slot s } := by
  rw [completeSlot]
  dsimp only
  rw [pushSlotOf_trace1, pushSlotOf_setPush_same]
  rfl

theorem completeSlot_other {k : Nat} (hk : k ≠ slot) : pushSlotOf (completeSlot slot s) k = pushSlotOf s k := by
  rw [completeSlot]
  dsimp only
  rw [pushSlotOf_trace1, pushSlotOf_setPush_other hk]
  split <;> simp [pushSlotOf]

/-- A slot whose payload has come whole completes; another waits for the rest. -/
def payloadJudged : State :=
  if (pushSlotOf s slot).len ≤ (pushSlotOf s slot).count then completeSlot slot s else s

theorem payloadJudged_keeps : (pushSlotOf (payloadJudged slot s) slot).used = (pushSlotOf s slot).used ∧
    (pushSlotOf (payloadJudged slot s) slot).count = (pushSlotOf s slot).count := by
  unfold payloadJudged
  split
  · rw [completeSlot_slot]
    exact ⟨rfl, rfl⟩
  · exact ⟨rfl, rfl⟩

theorem payloadJudged_other {k : Nat} (hk : k ≠ slot) : pushSlotOf (payloadJudged slot s) k = pushSlotOf s k := by
  unfold payloadJudged
  split
  · exact completeSlot_other slot s hk
  · rfl

theorem payloadJudged_bytes : (payloadJudged slot s).mem.bytes = s.mem.bytes := by
  unfold payloadJudged
  split <;> simp

theorem readMem_payloadJudged (a n : Nat) : readMem (payloadJudged slot s) a n = readMem s a n := by
  rw [readMem, payloadJudged_bytes, readMem]

end

theorem droppedBytes_clean {a n : Nat} {s : State} (h : ∀ p ∈ pagesOf a n, isPoisoned s p = false) : droppedBytes s a n = 0 := by
  have hnone : (pieces a n).filter (fun p => isPoisoned s (p.1 / 4096) && p.2 < 4096) = [] :=
    List.filter_eq_nil_iff.mpr fun q hq => by simp [h _ (page_mem_of_piece hq)]
  rw [droppedBytes, hnone]
  rfl

section
variable {slot off : Nat} {d : Bytes} {s : State} (stream : Option Nat)

theorem payloadLanded_slot : pushSlotOf (payloadLanded slot off d stream s) slot =
    { pushSlotOf s slot with
      count := (pushSlotOf s slot).count + d.length
      onStream := (pushSlotOf (payloadLanded slot off d stream s) slot).onStream
      guarded := (pushSlotOf (payloadLanded slot off d stream s) slot).guarded } := by
  rw [payloadLanded, guardOne_slot, pushSlotOf_setPush_same]

theorem pushPayload_accepted (hslot : slot < pushSlots s.conf) (hused : (pushSlotOf s slot).used = true)
    (haccepts : (pushSlotOf s slot).accepts = true) (hoff : off < (pushSlotOf s slot).len)
    (hlen : d.length ≤ (pushSlotOf s slot).len - off)
    (hstream : streamOk s (pushSlotOf s slot).fe (pushSlotOf s slot).layer (secureStream s stream) = true)
    (hclean : ∀ p ∈ pagesOf (slotAddr s.conf slot + 4096 + off) d.length, isPoisoned s p = false) :
    pushPayload slot off d stream s = payloadJudged slot (payloadLanded slot off d stream s) := by
  rw [payloadJudged, payloadLanded_slot]
  simp [pushPayload, payloadLanded, hslot, hused, haccepts, hoff, hstream, List.take_of_length_le hlen,
    droppedBytes_clean hclean]

theorem payloadLanded_other {k : Nat} (hk : k ≠ slot) : pushSlotOf (payloadLanded slot off d stream s) k = pushSlotOf s k := by
  rw [payloadLanded, guardOne_other hk, pushSlotOf_setPush_other hk, pushSlotOf_writePages]

@[simp] theorem payloadLanded_conf : (payloadLanded slot off d stream s).conf = s.conf := by simp [payloadLanded]

section
variable (hclean : ∀ p ∈ pagesOf (slotAddr s.conf slot + 4096 + off) d.length, isPoisoned s p = false)
include hclean

theorem payloadLanded_bytes :
    (∀ k < d.length, mget 0 (payloadLanded slot off d stream s).mem.bytes (slotAddr s.conf slot + 4096 + off + k) = d.getD k 0) ∧
      ∀ a, a < slotAddr s.conf slot + 4096 + off ∨ slotAddr s.conf slot + 4096 + off + d.length ≤ a →
        mget 0 (payloadLanded slot off d stream s).mem.bytes a = mget 0 s.mem.bytes a := by
  simpa [payloadLanded] using (writePages_landed _ d s hclean).bytes

/-- Bytes that land poison no page of the payload. -/
theorem payloadLanded_firstPoisoned (a n : Nat) : firstPoisoned (payloadLanded slot off d stream s) a n = firstPoisoned s a n := by
  have hsame : ∀ p, isPoisoned (payloadLanded slot off d stream s) p = isPoisoned s p := fun p =>
    (guardOne_isPoisoned slot _ p).trans ((writePages_landed _ d s hclean).2 p)
  simp only [firstPoisoned, funext hsame]

/-- The payload that is judged is the one before the write with the bytes that landed. -/
theorem payloadSound_payloadLanded : payloadSound slot (payloadLanded slot off d stream s) = true ↔
    (pushSlotOf s slot).crcEn = false ∨
      (firstPoisoned s (slotAddr s.conf slot + 4096) (pushSlotOf s slot).len = none ∧
        crc32c (readMem (payloadLanded slot off d stream s) (slotAddr s.conf slot + 4096) (pushSlotOf s slot).len) =
          (pushSlotOf s slot).crc) := by
  rw [payloadSound, payloadLanded_slot]
  simp [payloadLanded_firstPoisoned stream hclean]

end

theorem pushPayload_only : Only [.hif, .rings, .ing, .mem, .lin, .sec, .trc, .out, .free] s (pushPayload slot off d stream s) := by
  intro p hp
  cases p <;> simp [Part.same] at hp ⊢

end

/-! ## Payload that a slot does not take (R111, R116) -/

/-- Between two states a payload write was refused: at most the streams of slots are marked, and the refusal is reported. -/
def PayloadRefused (s t : State) : Prop :=
  t.ing = { s.ing with push := t.ing.push } ∧
    (∀ k, pushSlotOf t k = { pushSlotOf s k with onStream := (pushSlotOf t k).onStream }) ∧
    Only [.hif, .rings, .ing, .sec, .trc, .out, .free] s t

theorem PayloadRefused.refl (s : State) : PayloadRefused s s := ⟨rfl, fun _ => rfl, only_refl _ s⟩

theorem payloadRefused_marked (slot : Nat) (s : State) :
    PayloadRefused s (setPush slot { pushSlotOf s slot with onStream := none } s) := by
  refine ⟨rfl, fun k => ?_, fun p hp => ?_⟩
  · rw [pushSlotOf_setPush]
    split
    next hk => rw [hk]
    next => rfl
  · cases p <;> simp [Part.same] at hp ⊢

theorem PayloadRefused.report {s t : State} (h : PayloadRefused s t) (page requester : Nat) (write : Bool) :
    PayloadRefused s (refuseProtected true page requester write t) := by
  obtain ⟨hing, hslots, honly⟩ := h
  have hsame : (refuseProtected true page requester write t).ing = t.ing := by simp
  refine ⟨by rw [hsame]; exact hing, fun k => ?_, only_trans honly fun p hp => ?_⟩
  · simp only [pushSlotOf, hsame]
    exact hslots k
  · cases p <;> simp [Part.same] at hp ⊢

theorem pushPayload_refused {slot off : Nat} {d : Bytes} {stream : Option Nat} {s : State}
    (h : pushSlots s.conf ≤ slot ∨ (pushSlotOf s slot).accepts = false ∨ (pushSlotOf s slot).len ≤ off ∨
      streamOk s (pushSlotOf s slot).fe (pushSlotOf s slot).layer (secureStream s stream) = false) :
    PayloadRefused s (pushPayload slot off d stream s) := by
  have hshut : ¬ (slot < pushSlots s.conf && (pushSlotOf s slot).accepts && off < (pushSlotOf s slot).len &&
      streamOk s (pushSlotOf s slot).fe (pushSlotOf s slot).layer (secureStream s stream)) = true := by
    simp only [Bool.and_eq_true, decide_eq_true_eq]
    rintro ⟨⟨⟨hslot, haccepts⟩, hoff⟩, hstream⟩
    simp [haccepts, hstream] at h
    omega
  rw [pushPayload]
  dsimp only
  rw [if_neg hshut]
  have hmarked : ∀ c : Bool, PayloadRefused s (if c then setPush slot { pushSlotOf s slot with onStream := none } s else s) := by
    rintro (_ | _)
    · exact .refl s
    · exact payloadRefused_marked slot s
  split
  · exact (hmarked _).report _ _ _
  · exact hmarked _

end Sys2Proof.Proofs
end

section
/-!
Band reads (R103, R105, R107): the frame whose reads end, the band that the unit reads next, and the records and events that
follow.
-/
namespace Sys2Proof.Proofs
open Sys2Proof.Machine Sys2Proof.Laws

/-! ## The status of a band (R102) -/

@[simp] theorem bandStatus_setBand_same (i b : Nat) (v : BandStatus) (f : Frame) : bandStatus (setBand i b v f) i b = v :=
  mget_mput_same ..

/-! ## The band that the unit reads next (R103) -/

theorem mem_insertBy {α : Type} {key : α → Nat} {x y : α} {l : List α} (h : y ∈ insertBy key x l) : y = x ∨ y ∈ l := by
  induction l with
  | nil => simpa [insertBy] using h
  | cons z l ih =>
    rw [insertBy] at h
    split at h
    · simpa using h
    · obtain rfl | hrest := List.mem_cons.mp h
      · exact .inr List.mem_cons_self
      · exact (ih hrest).imp_right (List.mem_cons_of_mem z)

theorem mem_sortBy {α : Type} {key : α → Nat} {y : α} {l : List α} (h : y ∈ sortBy key l) : y ∈ l := by
  induction l with
  | nil => exact h
  | cons x l ih =>
    obtain rfl | hrest := mem_insertBy h
    · exact List.mem_cons_self
    · exact List.mem_cons_of_mem x (ih hrest)

/-- The band read next is one of the frame's pulled bands whose reads have not begun. -/
theorem nextRead_idle {s : State} {c : Conf} {left : Option Nat} {slot : Nat} {f : Frame} {p : Nat × Nat × Layer}
    (h : nextRead s c left slot f = some p) :
    p ∈ frameBands f ∧ p.2.2.source = 0 ∧ bandStatus f p.1 p.2.1 = .idle := by
  have hp := mem_sortBy (List.mem_of_head? h)
  simp only [List.mem_filter, Bool.and_eq_true, decide_eq_true_eq] at hp
  obtain ⟨hmem, ⟨⟨hsource, hidle⟩, -⟩, -⟩ := hp
  exact ⟨hmem, hsource, hidle⟩

/-- Between two frames the reads of at most one band began, a pulled band of the first. -/
def ReadBegins (f g : Frame) : Prop :=
  g = f ∨ ∃ p ∈ frameBands f, p.2.2.source = 0 ∧ bandStatus f p.1 p.2.1 = .idle ∧ g = setBand p.1 p.2.1 .reading f

theorem beginReads_shown {f : Frame} {s : State} (h : s.ing.shown = some f) :
    ∃ g, (beginReads s).ing.shown = some g ∧ ReadBegins f g := by
  unfold beginReads
  split
  · exact ⟨f, h, .inl rfl⟩
  · split
    next p f' hnext =>
      simp only [h, Option.bind_some] at hnext
      split at hnext
      · obtain ⟨q, hread, hq⟩ := Option.map_eq_some_iff.mp hnext
        obtain ⟨rfl, rfl⟩ := Prod.mk.inj hq
        obtain ⟨hmem, hsource, hidle⟩ := nextRead_idle hread
        exact ⟨_, by simp, .inr ⟨q, hmem, hsource, hidle, rfl⟩⟩
      · cases hnext
    next => split <;> exact ⟨f, by simp [h], .inl rfl⟩

section
variable {f g : Frame} (h : ReadBegins f g)
include h

/-- Reads begin only where none had: every other status stays. -/
theorem ReadBegins.bandStatus_eq {i b : Nat} (hbegun : bandStatus f i b ≠ .idle) : bandStatus g i b = bandStatus f i b := by
  obtain rfl | ⟨p, -, -, hidle, rfl⟩ := h
  · rfl
  · have hkey : bandKey i b ≠ bandKey p.1 p.2.1 := fun hkey => hbegun (by rw [bandStatus, hkey]; exact hidle)
    simp only [bandStatus, setBand, mget_mput, if_neg hkey]

theorem ReadBegins.readsLeft_eq : readsLeft g = readsLeft f := by
  obtain rfl | ⟨p, hmem, hsource, hidle, rfl⟩ := h
  · rfl
  · have hbefore : readsLeft f = true := List.any_eq_true.mpr ⟨p, hmem, by simp [hsource, hidle]⟩
    have hafter : readsLeft (setBand p.1 p.2.1 .reading f) = true :=
      List.any_eq_true.mpr ⟨p, hmem, by simp [hsource]⟩
    rw [hbefore, hafter]

theorem ReadBegins.parts : g = { f with bands := g.bands } := by
  obtain rfl | ⟨p, -, -, -, rfl⟩ := h <;> rfl

end

/-! ## RELEASED (R105) -/

theorem markReleased_parts (f : Frame) : markReleased f = { f with released := (markReleased f).released } := by
  unfold markReleased
  split <;> rfl

theorem bandStatus_markReleased (f : Frame) (i b : Nat) : bandStatus (markReleased f) i b = bandStatus f i b := by
  rw [markReleased_parts]
  rfl

theorem readsLeft_markReleased (f : Frame) : readsLeft (markReleased f) = readsLeft f := by
  rw [markReleased_parts]
  rfl

theorem markReleased_iff {f : Frame} (hhost : f.host = true) (hwaits : f.released = false) :
    (markReleased f).released = true ↔ readsLeft f = false := by
  cases hleft : readsLeft f <;> simp [markReleased, releaseDue, hhost, hwaits, hleft]

theorem postReleases_ing (s : State) : (postReleases s).ing = { s.ing with
    owed := (s.ing.owed.map markReleased).filter (fun f => !f.released)
    prev := s.ing.prev.map markReleased
    shown := s.ing.shown.map markReleased
    coming := s.ing.coming.map markReleased } := by
  simp [postReleases]

/-- What the end of a band's reads leaves to see in its frame once RELEASED is judged and the next reads have begun. -/
theorem ReadBegins.outcome {f g : Frame} (h : ReadBegins (markReleased f) g) (hhost : f.host = true) {i b : Nat}
    (hended : bandStatus f i b ≠ .idle) : bandStatus g i b = bandStatus f i b ∧ g.contents = f.contents ∧
      g.substituted = f.substituted ∧ (f.released = false → (g.released = true ↔ readsLeft g = false)) := by
  have hparts : g.contents = f.contents ∧ g.substituted = f.substituted ∧ g.released = (markReleased f).released := by
    rw [h.parts, markReleased_parts]
    exact ⟨rfl, rfl, rfl⟩
  obtain ⟨hcontents, hsubstituted, hreleased⟩ := hparts
  refine ⟨?_, hcontents, hsubstituted, fun hwaits => ?_⟩
  · rw [h.bandStatus_eq (by rwa [bandStatus_markReleased]), bandStatus_markReleased]
  · rw [hreleased, h.readsLeft_eq, readsLeft_markReleased]
    exact markReleased_iff hhost hwaits

/-! ## What the reads brought (R103, R107) -/

section
variable {r : ReadRef} {data : Rd} {f : Frame} {l : Layer}
  (hband : (frameBands f).find? (fun p => p.1 = r.layer && p.2.1 = r.band && p.2.2.source = 0) = some (r.layer, r.band, l))
include hband

theorem bandRead_present (hreading : bandStatus f r.layer r.band = .reading) (hwhole : readWhole l r.band data = true) :
    bandRead r data f = setBand r.layer r.band .present (onOwn (stageBand r.layer l r.band data.bytes) f) := by
  simp [bandRead, hband, hreading, hwhole]

theorem bandRead_failed (hreading : bandStatus f r.layer r.band = .reading) (hshort : readWhole l r.band data = false) :
    bandRead r data f = setBand r.layer r.band .failed { f with pullError := true } := by
  simp [bandRead, hband, hreading, hshort]

theorem bandRead_abandoned (habandoned : bandStatus f r.layer r.band = .abandoned) :
    bandRead r data f =
      setBand r.layer r.band .substituted { f with pullError := f.pullError || !readWhole l r.band data } := by
  cases hwhole : readWhole l r.band data <;> simp [bandRead, hband, habandoned, hwhole]

end

theorem onOwn_parts (g : Content → Content) (f : Frame) : onOwn g f = { f with contents := (onOwn g f).contents } := by
  unfold onOwn
  split <;> rfl

/-! ## PULL_ERROR (R107) -/

/-- The events of a band's reads: PULL_ERROR for the first read of the frame that fails. -/
def pullErrors (r : ReadRef) (before after : Frame) (s : State) : List Ev :=
  if after.pullError && !before.pullError then [{ event s 0x0304 2 [r.layer, r.band, DMA_ERROR] with fe := r.fe }] else []

/-- A failed read reports in configuration space, which does not stop events. -/
theorem eventsFlow_reportRead (data : Rd) (i : Ing) (s : State) :
    eventsFlow (reportRead .pf0 data { s with ing := i }) .pf0 = eventsFlow s .pf0 := by
  simp [eventsFlow, canSend, served, linkUp, busMaster]

theorem pullError_posts {s u : State} (r : ReadRef) (before after : Frame) (hfall : u.pwr.fall = s.pwr.fall)
    (hflow : eventsFlow u .pf0 = eventsFlow s .pf0) (hring : eqOf u.rings .pf0 = eqOf s.rings .pf0) :
    Posts s (pullError r before after u) (pullErrors r before after s) := by
  unfold pullError pullErrors
  split
  · intro hidle hheld hroom
    rw [postFe, postTo_held _ (hfall.trans hidle) (hflow.trans hheld) (by rw [hring]; simp at hroom; omega), hring]
    rfl
  · exact posts_nil hring

theorem posts_congr {s t u : State} {l : List Ev} (h : Posts s t l) (hring : eqOf u.rings .pf0 = eqOf t.rings .pf0) :
    Posts s u l := by
  intro hidle hheld hroom
  rw [hring]
  exact h hidle hheld hroom

theorem postReleases_eq0 (s : State) : (postReleases s).rings.eq0 = s.rings.eq0 := by simp [postReleases]

/-! ## The command HOST_READ_COMPLETION -/

/-- The state when a band's reads have brought what they brought, before anything follows from it. -/
def readsEnded (r : ReadRef) (data : Rd) (s : State) : State :=
  { s with ing := { s.ing with
      owed := s.ing.owed.map (fun x => if awaits r x then bandRead r data x else x)
      shown := s.ing.shown.map (fun x => if awaits r x then bandRead r data x else x)
      coming := s.ing.coming.map (fun x => if awaits r x then bandRead r data x else x) } }

section
variable {r : ReadRef} {data : Rd} {f : Frame} {s : State} (hfall : s.pwr.fall = .idle)
  (howed : s.ing.owed.any (awaits r) = false) (hshown : s.ing.shown = some f) (hawaits : awaits r f = true)
include howed hshown hawaits

theorem awaiting_shown : awaiting r s.ing = some f := by
  have hnone : s.ing.owed.find? (awaits r) = none := List.find?_eq_none.mpr (by simpa using howed)
  simp [awaiting, List.find?_append, hnone, hshown, hawaits]

include hfall

theorem exec_hostReadCompletion : exec (.hostReadCompletion r data) s = .next (trace1 1 (beginReads (postReleases
    (pullError r f (bandRead r data f) (reportRead .pf0 data (readsEnded r data s)))))) := by
  simp only [exec, execHostReadCompletion, hfall, if_true, awaiting_shown howed hshown hawaits, hawaits]
  rfl

/-- The reads of a band of the frame being scanned end. -/
theorem hostReadCompletion_ends : ∃ (t : State) (g : Frame), exec (.hostReadCompletion r data) s = .next t ∧
    t.ing.shown = some g ∧ ReadBegins (markReleased (bandRead r data f)) g ∧
    Posts s t (pullErrors r f (bandRead r data f) s) ∧ Only [.ing, .rings, .hif, .trc, .out, .free] s t := by
  have hended : (postReleases (pullError r f (bandRead r data f)
      (reportRead .pf0 data (readsEnded r data s)))).ing.shown = some (markReleased (bandRead r data f)) := by
    simp [postReleases_ing, readsEnded, hshown, hawaits]
  obtain ⟨g, hg, hbegins⟩ := beginReads_shown hended
  refine ⟨_, g, exec_hostReadCompletion hfall howed hshown hawaits, by simpa using hg, hbegins, ?_, ?_⟩
  · have hposts := pullError_posts (s := s) (u := reportRead .pf0 data (readsEnded r data s)) r f (bandRead r data f)
      (by simp [readsEnded]) (eventsFlow_reportRead ..) (by simp [readsEnded])
    exact posts_congr hposts (by simp [eqOf, postReleases_eq0])
  · intro p hp
    cases p <;> simp [Part.same, readsEnded] at hp ⊢

end

theorem awaits_of_status {r : ReadRef} {f : Frame} (hhost : f.host = true) (hfe : f.fe = r.fe)
    (h : bandStatus f r.layer r.band = .reading ∨ bandStatus f r.layer r.band = .abandoned) : awaits r f = true := by
  obtain h | h := h <;> simp [awaits, hhost, hfe, h]

end Sys2Proof.Proofs
end

section
/-!
Deadlines of bands (R102, R112, R113): what a band that is present shows, and what stands in for one that is not.
-/
namespace Sys2Proof.Proofs
open Sys2Proof.Machine Sys2Proof.Laws

/-! ## One substituted line (R113) -/

/-- A frame shows at line y what the frame before it showed there, or black where that one showed nothing. -/
def ShowsBefore (prev : Option Frame) (f : Frame) (y : Nat) : Prop :=
  (∀ ct, prev.bind (fun q => lineContent q y) = some ct → lineContent f y = some ct) ∧
    (prev.bind (fun q => lineContent q y) = none → mget 0 f.lineFrom y = 2 ^ 32)

section
variable (prev : Option Frame) (f : Frame) (y : Nat)

/-- A line is black, or points at a content that stands among the frame's, or was appended to them. -/
theorem substitute_cases :
    prev.bind (fun q => lineContent q y) = none ∧
      substitute prev f y = { f with lineFrom := mput 0 y (2 ^ 32) f.lineFrom } ∨
    ∃ ct l n, prev.bind (fun q => lineContent q y) = some ct ∧ (f.contents ++ l)[n]? = some ct ∧
      substitute prev f y = { f with contents := f.contents ++ l, lineFrom := mput 0 y n f.lineFrom } := by
  unfold substitute
  split
  next ct hct =>
    refine .inr ⟨ct, ?_⟩
    split
    next i hi =>
      obtain ⟨hlt, hget, -⟩ := List.idxOf?_eq_some_iff.mp hi
      exact ⟨[], i + 1, hct, by simpa [List.getElem?_eq_some_iff] using ⟨hlt, hget⟩, by simp⟩
    next => exact ⟨[ct], f.contents.length, hct, by simp, rfl⟩
  next hnone => exact .inl ⟨hnone, rfl⟩

theorem substitute_substituted : (substitute prev f y).substituted = f.substituted := by
  obtain ⟨-, h⟩ | ⟨ct, l, n, -, -, h⟩ := substitute_cases prev f y <;> rw [h]

theorem substitute_shows : ShowsBefore prev (substitute prev f y) y := by
  obtain ⟨hnone, h⟩ | ⟨ct, l, n, hct, hget, h⟩ := substitute_cases prev f y
  · rw [h]
    exact ⟨fun ct hct => by simp [hnone] at hct, fun _ => by simp⟩
  · rw [h]
    refine ⟨fun ct' hct' => ?_, fun hnone => by simp [hct] at hnone⟩
    obtain rfl : ct = ct' := Option.some.inj (hct.symm.trans hct')
    simpa [lineContent] using hget

theorem substitute_other {z : Nat} (hz : z ≠ y) : mget 0 (substitute prev f y).lineFrom z = mget 0 f.lineFrom z := by
  obtain ⟨-, h⟩ | ⟨ct, l, n, -, -, h⟩ := substitute_cases prev f y <;> rw [h] <;> simp only [mget_mput, if_neg hz]

/-- Contents are only ever appended, so that a line shows on what it showed. -/
theorem substitute_lineContent {z : Nat} (hz : z ≠ y) {ct : Content} (h : lineContent f z = some ct) :
    lineContent (substitute prev f y) z = some ct := by
  rw [lineContent, substitute_other prev f y hz]
  obtain ⟨hlt, -⟩ := List.getElem?_eq_some_iff.mp h
  obtain ⟨-, hsub⟩ | ⟨ct', l, n, -, -, hsub⟩ := substitute_cases prev f y
  · rw [hsub]
    exact h
  · rw [hsub]
    exact (List.getElem?_append_left hlt).trans h

theorem ShowsBefore.after_line {f : Frame} {z : Nat} (h : ShowsBefore prev f z) (y : Nat) :
    ShowsBefore prev (substitute prev f y) z := by
  by_cases hz : z = y
  · exact hz ▸ substitute_shows prev f y
  · obtain ⟨hshows, hblack⟩ := h
    exact ⟨fun ct hct => substitute_lineContent prev f y hz (hshows ct hct),
      fun hnone => (substitute_other prev f y hz).trans (hblack hnone)⟩

end

/-! ## Several lines -/

section
variable (prev : Option Frame)

theorem foldl_substitute_substituted (ys : List Nat) (f : Frame) :
    (ys.foldl (substitute prev) f).substituted = f.substituted := by
  induction ys generalizing f with
  | nil => rfl
  | cons y ys ih => rw [List.foldl_cons, ih, substitute_substituted]

theorem foldl_substitute_other {z : Nat} {ys : List Nat} (hz : z ∉ ys) (f : Frame) :
    mget 0 (ys.foldl (substitute prev) f).lineFrom z = mget 0 f.lineFrom z := by
  induction ys generalizing f with
  | nil => rfl
  | cons y ys ih =>
    obtain ⟨hy, hys⟩ := List.ne_and_not_mem_of_not_mem_cons hz
    rw [List.foldl_cons, ih hys, substitute_other prev f y hy]

theorem ShowsBefore.after_lines {z : Nat} (ys : List Nat) {f : Frame} (h : ShowsBefore prev f z) :
    ShowsBefore prev (ys.foldl (substitute prev) f) z := by
  induction ys generalizing f with
  | nil => exact h
  | cons y ys ih => exact ih (h.after_line prev y)

theorem foldl_substitute_shows {z : Nat} {ys : List Nat} (hz : z ∈ ys) (f : Frame) :
    ShowsBefore prev (ys.foldl (substitute prev) f) z := by
  induction ys generalizing f with
  | nil => cases hz
  | cons y ys ih =>
    obtain rfl | hys := List.mem_cons.mp hz
    · exact (substitute_shows prev f z).after_lines prev ys
    · exact ih hys _

end

/-! ## A band that is not present (R113) -/

/-- The panel lines of a band. -/
def bandLines (l : Layer) (b : Nat) : List Nat :=
  (List.range ((bandRows l b).2 - (bandRows l b).1)).map (fun k => l.dstY + (bandRows l b).1 + k)

theorem mem_bandLines {l : Layer} {b y : Nat} :
    y ∈ bandLines l b ↔ l.dstY + (bandRows l b).1 ≤ y ∧ y < l.dstY + (bandRows l b).2 := by
  simp only [bandLines, List.mem_map, List.mem_range]
  constructor
  · rintro ⟨k, hk, rfl⟩
    omega
  · rintro ⟨hlo, hhi⟩
    exact ⟨y - (l.dstY + (bandRows l b).1), by omega, by omega⟩

theorem substituteBand_eq (prev : Option Frame) (l : Layer) (b : Nat) (f : Frame) :
    substituteBand prev l b f = (bandLines l b).foldl (substitute prev) { f with substituted := f.substituted + 1 } := rfl

/-- The frame scanned once a band of it was missing at its deadline. -/
def missedFrame (prev : Option Frame) (i b : Nat) (l : Layer) (f : Frame) : Frame :=
  setBand i b (if bandStatus f i b = .reading then .abandoned else .substituted) (substituteBand prev l b f)

section
variable (prev : Option Frame) (i b : Nat) (l : Layer) (f : Frame)

theorem missedFrame_shows {y : Nat} (hlo : l.dstY + (bandRows l b).1 ≤ y) (hhi : y < l.dstY + (bandRows l b).2) :
    ShowsBefore prev (missedFrame prev i b l f) y :=
  foldl_substitute_shows prev (mem_bandLines.mpr ⟨hlo, hhi⟩) { f with substituted := f.substituted + 1 }

theorem missedFrame_other {y : Nat} (h : y < l.dstY + (bandRows l b).1 ∨ l.dstY + (bandRows l b).2 ≤ y) :
    mget 0 (missedFrame prev i b l f).lineFrom y = mget 0 f.lineFrom y :=
  foldl_substitute_other prev (fun hmem => by have := mem_bandLines.mp hmem; omega) { f with substituted := f.substituted + 1 }

theorem missedFrame_substituted : (missedFrame prev i b l f).substituted = f.substituted + 1 := by
  show (substituteBand prev l b f).substituted = _
  rw [substituteBand_eq, foldl_substitute_substituted]

theorem missBand_ing (s : State) : (missBand i b l f s).ing.shown = some (markReleased (missedFrame s.ing.prev i b l f)) ∧
    (missBand i b l f s).ing.underruns = s.ing.underruns + 1 ∧
    (missBand i b l f s).ing.firstUnder = (if s.ing.underruns = 0 then b else s.ing.firstUnder) := by
  simp [missBand, postReleases_ing, missedFrame]

theorem pulsePins_underrun {s : State} (hdormant : s.sys.mode ≠ .dormant) (hboot : s.sys.mode ≠ .boot) :
    (pulsePins [3] s).tmg.evPins.getLsbD 3 = true := by
  have hpin : (BitVec.ofNat 4 (ofBits [3])).getLsbD 3 = true := by decide
  simp only [pulsePins, hdormant, hboot, decide_false, Bool.or_false, Bool.false_eq_true, if_false, emit, BitVec.getLsbD_or,
    hpin, Bool.or_true]

theorem missBand_pin {s : State} (hdormant : s.sys.mode ≠ .dormant) (hboot : s.sys.mode ≠ .boot) :
    (missBand i b l f s).tmg.evPins.getLsbD 3 = true := by
  simp only [missBand, postReleases_frame]
  exact pulsePins_underrun (by simpa using hdormant) (by simpa using hboot)

end

/-! ## Slots whose band is done with (R112) -/

theorem freeSlot_ing (k : Nat) (s : State) : (freeSlot k s).ing =
    { s.ing with push := (freeSlot k s).ing.push, pushFree := (freeSlot k s).ing.pushFree } := by
  unfold freeSlot
  dsimp only
  split <;> rfl

theorem freeSlots_ing (n : Nat) (s : State) : (freeSlots n s).ing =
    { s.ing with push := (freeSlots n s).ing.push, pushFree := (freeSlots n s).ing.pushFree } := by
  induction n generalizing s with
  | zero => rfl
  | succ n ih =>
    rw [freeSlots]
    dsimp only
    split
    · rw [ih, freeSlot_ing]
    · rfl

theorem spendSlot_ing (k : Nat) (s : State) : (spendSlot k s).ing =
    { s.ing with push := (spendSlot k s).ing.push, pushFree := (spendSlot k s).ing.pushFree } :=
  freeSlots_ing _ (setPush k { pushSlotOf s k with spent := true } s)

/-! ## The judgement of one band -/

section
variable {i b : Nat} {l : Layer} {f : Frame} {s : State}

theorem judgeBand_pulled (hsource : l.source ≠ 1) (hpresent : bandStatus f i b = .present) :
    judgeBand i b l f s = showBand i b f s := by
  simp [judgeBand, hsource, hpresent]

theorem judgeBand_pushed {k : Nat} {p : PushSlot} (hsource : l.source = 1) (hslot : slotFor s f i b = some (k, p))
    (hpresent : slotPresent l b p = true) : judgeBand i b l f s =
      setPush k { p with readTo := some (engineSlot s.conf (l.dstY + (bandRows l b).2)) }
        (showBand i b (stagePush (slotAddr s.conf k + 4096) i b l s f) (badStaging (slotAddr s.conf k + 4096) p.len s)) := by
  simp [judgeBand, hsource, hslot, hpresent]

/-- A band that is not present is missed, and the slot that held it, if any, is done with. -/
theorem judgeBand_missed (hpulled : l.source ≠ 1 → bandStatus f i b ≠ .present)
    (hpushed : l.source = 1 → ∀ k p, slotFor s f i b = some (k, p) → slotPresent l b p = false) :
    judgeBand i b l f s = missBand i b l f s ∨ ∃ k, judgeBand i b l f s = spendSlot k (missBand i b l f s) := by
  by_cases hsource : l.source = 1
  · cases hslot : slotFor s f i b with
    | none => exact .inl (by simp [judgeBand, hsource, hslot])
    | some q => exact .inr ⟨q.1, by simp [judgeBand, hsource, hslot, hpushed hsource q.1 q.2 hslot]⟩
  · exact .inl (by simp [judgeBand, hsource, hpulled hsource])

/-- Whatever becomes of its slot, a band that is not present is missed once. -/
theorem judgeBand_missed_ing (hpulled : l.source ≠ 1 → bandStatus f i b ≠ .present)
    (hpushed : l.source = 1 → ∀ k p, slotFor s f i b = some (k, p) → slotPresent l b p = false) :
    (judgeBand i b l f s).ing.shown = some (markReleased (missedFrame s.ing.prev i b l f)) ∧
      (judgeBand i b l f s).ing.underruns = s.ing.underruns + 1 ∧
      (judgeBand i b l f s).ing.firstUnder = (if s.ing.underruns = 0 then b else s.ing.firstUnder) ∧
      (judgeBand i b l f s).tmg = (missBand i b l f s).tmg := by
  obtain ⟨hshown, hunderruns, hfirst⟩ := missBand_ing i b l f s
  obtain h | ⟨k, h⟩ := judgeBand_missed hpulled hpushed
  · rw [h]
    exact ⟨hshown, hunderruns, hfirst, rfl⟩
  · rw [h, spendSlot_ing]
    exact ⟨hshown, hunderruns, hfirst, by simp⟩

end

/-! ## The command BAND_DEADLINE -/

theorem exec_bandDeadline {r : BandRef} {f : Frame} {l : Layer} {s : State} (hshown : s.ing.shown = some f)
    (hdue : (bandsDue s f).filter (fun p => p.1 = r.layer && p.2.1 = r.band) = [(r.layer, r.band, l)]) :
    exec (.bandDeadline r) s = .next (judgeBand r.layer r.band l f s) := by
  simp only [exec, execBandDeadline, hshown, hdue]
  simp [forAll, judgeDue, hshown]

theorem exec_bandDeadline_idle {r : BandRef} {s : State}
    (hnone : ∀ f, s.ing.shown = some f → (bandsDue s f).filter (fun p => p.1 = r.layer && p.2.1 = r.band) = []) :
    exec (.bandDeadline r) s = .next s := by
  cases hshown : s.ing.shown with
  | none => simp [exec, execBandDeadline, hshown]
  | some f =>
    simp only [exec, execBandDeadline, hshown, hnone f hshown]
    rfl

end Sys2Proof.Proofs
end

section
/-!
The statement on ingest: bands are pushed, read, and judged at their deadlines.
-/
namespace Sys2Proof.Proofs
open Sys2Proof.Machine Sys2Proof.Laws

/-- Settles O55: each command acts on one slot or one band of one frame, by the lemmas on the outcomes that it can have. -/
theorem bandsArePushedReadAndJudged : Obligations.BandsArePushedReadAndJudged := by
  refine ⟨?accepts, ?strays, ?drops, ?lands, ?refuses, ?present, ?fails, ?discards, ?pulled, ?pushed, ?missed, ?idle⟩
  case accepts =>
    intro slot h stream s hup hjudge hstream hgood
    have hexec := exec_pushHeaderCommit hup slot h stream
    rw [commitHeader_accepts stream hjudge hstream] at hexec
    have hslot := acceptHeader_slot (slot := slot) (h := h.take 32) (s := s) (secureStream s stream)
    obtain ⟨hbytes, hrest⟩ := acceptHeader_bytes (secureStream s stream) (List.length_take_le 32 h) hgood
    refine ⟨_, hexec, ?_, ?_, ?_, ?_, ?_, ?_, ?_, ?_, ?_, ?_, acceptHeader_ing _, fun k => acceptHeader_other _, hbytes, hrest,
      acceptHeader_only _⟩
    all_goals rw [hslot]; rfl
  case strays =>
    intro slot h stream s hup hjudge hstream
    rw [exec_pushHeaderCommit hup, commitHeader_strayed stream hjudge hstream]
    rfl
  case drops =>
    intro slot h stream d begins s hup hjudge
    have hexec := exec_pushHeaderCommit hup slot h stream
    rw [commitHeader_drops stream hjudge] at hexec
    refine ⟨_, hexec, ?_, fun k hk => ?_, ?_, posts_postIf _ _ _ _ rfl rfl rfl rfl, headerDropped_only _ _ _ _ _ _ _ _⟩
    · rw [pushSlotOf_postIf, headerDropped_slot]
    · rw [pushSlotOf_postIf, headerDropped_other _ _ _ _ hk]
    · simp only [postIf_frame]
      rfl
  case lands =>
    intro slot off d stream s hup hslot hused haccepts hoff hlen hstream hclean
    have hexec := exec_pushPayloadWrite hup slot off d stream
    have honly := pushPayload_only (slot := slot) (off := off) (d := d) (s := s) stream
    rw [pushPayload_accepted stream hslot hused haccepts hoff hlen hstream hclean] at hexec honly
    have hsound := payloadSound_payloadLanded stream hclean
    obtain ⟨hbytes, hrest⟩ := payloadLanded_bytes stream hclean
    have hlanded := payloadLanded_slot (slot := slot) (off := off) (d := d) (s := s) stream
    have hothers := fun k (hk : k ≠ slot) => payloadLanded_other (off := off) (d := d) (s := s) stream hk
    generalize payloadLanded slot off d stream s = u at hexec honly hsound hbytes hrest hlanded hothers
    obtain ⟨hkeptUsed, hkeptCount⟩ := payloadJudged_keeps slot u
    refine ⟨_, hexec, ?_, ?_, fun hpart => ?_, fun hwhole => ?_, ?_, ?_, fun k hk => ?_, honly⟩
    · rw [hkeptUsed, hlanded]
      exact hused
    · rw [hkeptCount, hlanded]
    · rw [payloadJudged, if_neg (by rw [hlanded]; exact Nat.not_le.mpr hpart), hlanded]
      exact ⟨haccepts, rfl⟩
    · rw [readMem_payloadJudged, payloadJudged, if_pos (by rw [hlanded]; exact hwhole), completeSlot_slot]
      exact ⟨rfl, hsound⟩
    · rw [payloadJudged_bytes]
      exact hbytes
    · rw [payloadJudged_bytes]
      exact hrest
    · rw [payloadJudged_other slot u hk, hothers k hk]
  case refuses =>
    intro slot off d stream s hup hrefused
    exact ⟨_, exec_pushPayloadWrite hup .., pushPayload_refused hrefused⟩
  case present =>
    intro r data f l s hfall howed hshown hhost hfe hband hreading hwhole
    have hawaits := awaits_of_status hhost hfe (.inl hreading)
    obtain ⟨t, g, hexec, hg, hbegins, hposts, honly⟩ := hostReadCompletion_ends (data := data) hfall howed hshown hawaits
    rw [bandRead_present hband hreading hwhole, onOwn_parts] at hbegins hposts
    obtain ⟨hstatus, hcontents, hsubstituted, hreleased⟩ :=
      hbegins.outcome hhost (i := r.layer) (b := r.band) (by simp)
    refine ⟨t, g, hexec, hg, hstatus.trans (by simp), hcontents, hsubstituted, hreleased, ?_, honly⟩
    simpa [pullErrors, setBand] using hposts
  case fails =>
    intro r data f l s hfall howed hshown hhost hfe hband hreading hshort
    have hawaits := awaits_of_status hhost hfe (.inl hreading)
    obtain ⟨t, g, hexec, hg, hbegins, hposts, honly⟩ := hostReadCompletion_ends (data := data) hfall howed hshown hawaits
    rw [bandRead_failed hband hreading hshort] at hbegins hposts
    obtain ⟨hstatus, hcontents, hsubstituted, hreleased⟩ :=
      hbegins.outcome hhost (i := r.layer) (b := r.band) (by simp)
    refine ⟨t, g, hexec, hg, hstatus.trans (by simp), hcontents, hsubstituted, hreleased, ?_, honly⟩
    cases herror : f.pullError <;> simpa [pullErrors, setBand, herror] using hposts
  case discards =>
    intro r data f l s hfall howed hshown hhost hfe hband habandoned
    have hawaits := awaits_of_status hhost hfe (.inr habandoned)
    obtain ⟨t, g, hexec, hg, hbegins, -, honly⟩ := hostReadCompletion_ends (data := data) hfall howed hshown hawaits
    rw [bandRead_abandoned hband habandoned] at hbegins
    obtain ⟨hstatus, hcontents, hsubstituted, hreleased⟩ :=
      hbegins.outcome hhost (i := r.layer) (b := r.band) (by simp)
    exact ⟨t, g, hexec, hg, hstatus.trans (by simp), hcontents, hsubstituted, hreleased, honly⟩
  case pulled =>
    intro r f l s hshown hdue hsource hpresent
    have hexec := exec_bandDeadline hshown hdue
    rw [judgeBand_pulled hsource hpresent] at hexec
    refine ⟨_, setBand r.layer r.band .shown f, hexec, by simp [showBand], by simp, rfl, by simp [showBand], ?_⟩
    intro p hp
    cases p <;> simp [Part.same] at hp ⊢
  case pushed =>
    intro r f l k p s hshown hdue hsource hslot hpresent
    have hexec := exec_bandDeadline hshown hdue
    rw [judgeBand_pushed hsource hslot hpresent] at hexec
    refine ⟨_, setBand r.layer r.band .shown (stagePush (slotAddr s.conf k + 4096) r.layer r.band l s f), hexec,
      by simp [showBand, setPush], by simp, rfl, ?_, by simp [showBand, setPush], by simp, fun j hj => ?_, by simp, ?_⟩
    · rw [stagePush, onOwn_parts]
      rfl
    · rw [pushSlotOf_setPush_other hj]
      simp [pushSlotOf, showBand]
    · intro q hq
      cases q <;> simp [Part.same] at hq ⊢
  case missed =>
    intro r f l s hshown hdue hpulled hpushed
    obtain ⟨hframe, hunderruns, hfirst, htmg⟩ := judgeBand_missed_ing (s := s) hpulled hpushed
    refine ⟨_, _, exec_bandDeadline hshown hdue, hframe, ?_, fun y hlo hhi => ?_, fun y hy => ?_, ?_, hunderruns, hfirst,
      fun hdormant hboot => ?_, ?_⟩
    · rw [bandStatus_markReleased, missedFrame, bandStatus_setBand_same]
    · rw [markReleased_parts]
      exact missedFrame_shows s.ing.prev r.layer r.band l f hlo hhi
    · rw [markReleased_parts]
      exact missedFrame_other s.ing.prev r.layer r.band l f hy
    · rw [markReleased_parts]
      exact missedFrame_substituted s.ing.prev r.layer r.band l f
    · rw [htmg]
      exact missBand_pin _ _ _ _ hdormant hboot
    · intro p hp
      cases p <;> simp [Part.same] at hp ⊢
  case idle => exact fun r s => exec_bandDeadline_idle

end Sys2Proof.Proofs
end

section
/-!
Gauze's statistics (R142 to R150): what a line's pass adds to the scratchpads, and what a stripe's merge adds to the bank.
-/
namespace Sys2Proof.Proofs
open Sys2Proof.Machine Sys2Proof.Laws

/-! ## Folds that write one key for each element -/

/-- Counting the elements of a list under their keys adds to each key the number of its elements. -/
theorem mget_count {α : Type} (key : α → Nat) (l : List α) (m : SMap Nat) (i : Nat) :
    mget 0 (l.foldl (fun m x => mput 0 (key x) (mget 0 m (key x) + 1) m) m) i = mget 0 m i + l.countP (fun x => key x = i) := by
  induction l generalizing m with
  | nil => rfl
  | cons x l ih =>
    rw [List.foldl_cons, ih, mget_mput, List.countP_cons]
    by_cases hi : i = key x
    · subst hi
      simp only [if_true, decide_true]
      omega
    · have hne : ¬ key x = i := fun h => hi h.symm
      simp [hi, hne]

section
variable {α : Type} (key : α → Nat) (v : α → Nat → Nat)

/-- A fold that writes each key from what the key holds changes no other key. -/
theorem mget_foldl_update_other {l : List α} {i : Nat} (hi : ∀ x ∈ l, key x ≠ i) (m : SMap Nat) :
    mget 0 (l.foldl (fun m x => mput 0 (key x) (v x (mget 0 m (key x))) m) m) i = mget 0 m i := by
  induction l generalizing m with
  | nil => rfl
  | cons x l ih =>
    rw [List.foldl_cons, ih fun y hy => hi y (List.mem_cons_of_mem x hy)]
    exact mget_mput_other 0 _ m (hi x List.mem_cons_self).symm

/-- Such a fold whose keys all differ writes each key once. -/
theorem mget_foldl_update {l : List α} (hl : (l.map key).Nodup) {x : α} (hx : x ∈ l) (m : SMap Nat) :
    mget 0 (l.foldl (fun m x => mput 0 (key x) (v x (mget 0 m (key x))) m) m) (key x) = v x (mget 0 m (key x)) := by
  induction l generalizing m with
  | nil => cases hx
  | cons y l ih =>
    obtain ⟨hfirst, hrest⟩ := List.nodup_cons.mp hl
    rw [List.foldl_cons]
    rcases List.mem_cons.mp hx with rfl | hx
    · rw [mget_foldl_update_other key v fun z hz hkey => hfirst (List.mem_map.mpr ⟨z, hz, hkey⟩), mget_mput_same]
    · have hne : key x ≠ key y := fun hkey => hfirst (hkey ▸ List.mem_map_of_mem hx)
      rw [ih hrest hx, mget_mput_other 0 _ m hne]

end

/-! ## Keys of the scratchpads and of the bank -/

theorem scratchKey_inj {z z' st st' b b' : Nat} (hst : st < 192) (hst' : st' < 192) (hb : b < 8) (hb' : b' < 8) :
    scratchKey z st b = scratchKey z' st' b' ↔ z = z' ∧ st = st' ∧ b = b' := by
  unfold scratchKey
  omega

theorem demandBin_lt (c : Conf) (d : Nat) : demandBin c d < 8 := by
  have hle : ((List.range 8).filter (fun k => demandEdge c k ≤ d)).length ≤ 8 := by
    simpa using List.length_filter_le (fun k => demandEdge c k ≤ d) (List.range 8)
  unfold demandBin
  omega

theorem nodup_eraseDups (l : List Nat) : l.eraseDups.Nodup := by
  induction hn : l.length using Nat.strongRecOn generalizing l with
  | ind n ih =>
    cases l with
    | nil => simp
    | cons a l =>
      rw [List.eraseDups_cons, List.nodup_cons]
      refine ⟨by simp, ih _ ?_ _ rfl⟩
      have hle := List.length_filter_le (fun b => !b == a) l
      simp only [List.length_cons] at hn
      omega

theorem nodup_stripeZones (c : Conf) (k : Nat) : (stripeZones c k).Nodup := nodup_eraseDups _

/-! ## A line's pass (R142, R143) -/

/-- The bin of the scratchpad in which stripe k counts pixel (x, y). -/
def pixelBin (c : Conf) (m : Mem) (f : Frame) (y k x : Nat) : Nat :=
  scratchKey (zoneRowOf c y * gCols c + zoneColOf c x) k (demandBin c (demandAt c m f x y))

section
variable {s : State} {f : Frame} {y : Nat} (k : Nat)

theorem passLine_off_grid (hy : y % 2 ^ fget (statsConf s) GZ_GRID_DECIM ≠ 0) : passLine s f y k = s.gz.scratch := by
  simp [passLine, hy]

theorem passLine_on_grid (hy : y % 2 ^ fget (statsConf s) GZ_GRID_DECIM = 0) :
    passLine s f y k = ((stripeCols (statsConf s) k).filter (fun x => x % 2 ^ fget (statsConf s) GZ_GRID_DECIM = 0)).foldl
      (fun m x => mput 0 (pixelBin (statsConf s) s.mem f y k x) (mget 0 m (pixelBin (statsConf s) s.mem f y k x) + 1) m)
      s.gz.scratch := by
  simp [passLine, hy, pixelBin]

/-- A stripe counts in its own histograms. -/
theorem passLine_other {z st b : Nat} (hk : k < 192) (hst : st < 192) (hne : st ≠ k) (hb : b < 8) :
    mget 0 (passLine s f y k) (scratchKey z st b) = mget 0 s.gz.scratch (scratchKey z st b) := by
  by_cases hy : y % 2 ^ fget (statsConf s) GZ_GRID_DECIM = 0
  · rw [passLine_on_grid k hy, mget_foldl_update_other _ (fun _ n => n + 1)]
    intro x _ hkey
    exact hne ((scratchKey_inj hk hst (demandBin_lt _ _) hb).mp hkey).2.1.symm
  · rw [passLine_off_grid k hy]

/-- A line of the grid adds to each bin the pixels of the grid that lie in its zone and have its demand. -/
theorem passLine_counts (z : Nat) {b : Nat} (hk : k < 192) (hb : b < 8) (hy : y % 2 ^ fget (statsConf s) GZ_GRID_DECIM = 0) :
    mget 0 (passLine s f y k) (scratchKey z k b) = mget 0 s.gz.scratch (scratchKey z k b) +
      ((stripeCols (statsConf s) k).filter (fun x => x % 2 ^ fget (statsConf s) GZ_GRID_DECIM = 0
        && zoneRowOf (statsConf s) y * gCols (statsConf s) + zoneColOf (statsConf s) x = z
        && demandBin (statsConf s) (demandAt (statsConf s) s.mem f x y) = b)).length := by
  rw [passLine_on_grid k hy, mget_count, List.countP_eq_length_filter, List.filter_filter]
  congr 3
  funext x
  rw [Bool.eq_iff_iff]
  simp only [pixelBin, scratchKey_inj hk hk (demandBin_lt _ _) hb, Bool.and_eq_true, decide_eq_true_eq, true_and]
  constructor
  · rintro ⟨⟨hzone, hbin⟩, hgrid⟩
    exact ⟨⟨hgrid, hzone⟩, hbin⟩
  · rintro ⟨⟨hgrid, hzone⟩, hbin⟩
    exact ⟨⟨hzone, hbin⟩, hgrid⟩

end

/-! ## A stripe's merge (R144) -/

/-- A stripe's histograms of a row, emptied as they are merged. -/
def scratchWithout (c : Conf) (row stripe : Nat) (m : SMap Nat) : SMap Nat :=
  mkeep (fun k => !((stripeZones c stripe).any (fun j => k / 8 = 192 * (row * gCols c + j) + stripe))) m

theorem scratchWithout_empty {c : Conf} {stripe j b : Nat} (row : Nat) (hj : j ∈ stripeZones c stripe) (hb : b < 8)
    (m : SMap Nat) : mget 0 (scratchWithout c row stripe m) (scratchKey (row * gCols c + j) stripe b) = 0 := by
  have hkey : scratchKey (row * gCols c + j) stripe b / 8 = 192 * (row * gCols c + j) + stripe := by
    unfold scratchKey
    omega
  have hany : (stripeZones c stripe).any
      (fun i => scratchKey (row * gCols c + j) stripe b / 8 = 192 * (row * gCols c + i) + stripe) = true :=
    List.any_eq_true.mpr ⟨j, hj, decide_eq_true hkey⟩
  rw [scratchWithout, mget_mkeep, hany]
  rfl

/-- The bins that a merge of one row writes: zone column and bin. -/
def stripeBins (c : Conf) (stripe : Nat) : List (Nat × Nat) :=
  (stripeZones c stripe).flatMap (fun j => (List.range 8).map (fun b => (j, b)))

theorem mem_stripeBins {c : Conf} {stripe : Nat} {p : Nat × Nat} :
    p ∈ stripeBins c stripe ↔ p.1 ∈ stripeZones c stripe ∧ p.2 < 8 := by
  simp only [stripeBins, List.mem_flatMap, List.mem_map, List.mem_range]
  constructor
  · rintro ⟨j, hj, b, hb, rfl⟩
    exact ⟨hj, hb⟩
  · rintro ⟨hj, hb⟩
    exact ⟨p.1, hj, p.2, hb, rfl⟩

/-- The key in the bank of a bin of a zone column in a row. -/
def bankKey (c : Conf) (row : Nat) (p : Nat × Nat) : Nat := 8 * (row * gCols c + p.1) + p.2

theorem bankKey_inj {c : Conf} {row : Nat} {p q : Nat × Nat} (hp : p.2 < 8) (hq : q.2 < 8) :
    bankKey c row p = bankKey c row q ↔ p.1 = q.1 ∧ p.2 = q.2 := by
  unfold bankKey
  omega

/-- No two of a merge's bins share a key. -/
theorem nodup_bankKeys (c : Conf) (row stripe : Nat) : ((stripeBins c stripe).map (bankKey c row)).Nodup := by
  refine List.pairwise_map.mpr (List.pairwise_flatMap.mpr ⟨fun j _ => ?_, ?_⟩)
  · refine List.pairwise_map.mpr (List.nodup_range.imp_of_mem fun {b b'} hb hb' hne hkey => hne ?_)
    exact ((bankKey_inj (List.mem_range.mp hb) (List.mem_range.mp hb')).mp hkey).2
  · refine (nodup_stripeZones c stripe).imp fun {j j'} hne p hp q hq hkey => hne ?_
    obtain ⟨b, hb, rfl⟩ := List.mem_map.mp hp
    obtain ⟨b', hb', rfl⟩ := List.mem_map.mp hq
    exact ((bankKey_inj (List.mem_range.mp hb) (List.mem_range.mp hb')).mp hkey).1

/-- What a merge leaves in a bin that held n. -/
def mergedBin (c : Conf) (g : Gz) (row stripe : Nat) (p : Nat × Nat) (n : Nat) : Nat :=
  satAdd 65535 n (mget 0 g.scratch (scratchKey (row * gCols c + p.1) stripe p.2))

/-- A merge writes each bin of each zone that the stripe meets. -/
theorem mergeStripe_eq (c : Conf) (g : Gz) (row stripe : Nat) : mergeStripe c g row stripe =
    (stripeBins c stripe).foldl (fun bank p =>
      mput 0 (bankKey c row p) (mergedBin c g row stripe p (mget 0 bank (bankKey c row p))) bank) g.bank := by
  simp only [mergeStripe, stripeBins, bankKey, mergedBin, List.foldl_flatMap, List.foldl_map]

theorem mergeStripe_adds {c : Conf} {stripe j b : Nat} (g : Gz) (row : Nat) (hj : j ∈ stripeZones c stripe) (hb : b < 8) :
    mget 0 (mergeStripe c g row stripe) (8 * (row * gCols c + j) + b) = min 65535
      (mget 0 g.bank (8 * (row * gCols c + j) + b) + mget 0 g.scratch (scratchKey (row * gCols c + j) stripe b)) := by
  rw [mergeStripe_eq]
  exact mget_foldl_update (bankKey c row) (mergedBin c g row stripe) (nodup_bankKeys c row stripe)
    (x := (j, b)) (mem_stripeBins.mpr ⟨hj, hb⟩) g.bank

theorem mergeStripe_other {c : Conf} {row stripe z b : Nat} (g : Gz) (hb : b < 8)
    (hz : ∀ j ∈ stripeZones c stripe, z ≠ row * gCols c + j) :
    mget 0 (mergeStripe c g row stripe) (8 * z + b) = mget 0 g.bank (8 * z + b) := by
  rw [mergeStripe_eq]
  refine mget_foldl_update_other (bankKey c row) (mergedBin c g row stripe) (fun p hp hkey => ?_) g.bank
  obtain ⟨hzone, hbin⟩ := mem_stripeBins.mp hp
  unfold bankKey at hkey
  exact hz p.1 hzone (by omega)

/-! ## A row's delivery (R148, R150) -/

/-- The predictor reads targets and bank and changes neither. -/
theorem predict_keeps (c : Conf) (g : Gz) :
    (predict c g).targets = g.targets ∧ (predict c g).bank = g.bank ∧ (predict c g).statsLate = g.statsLate := by
  unfold predict
  dsimp only
  (repeat' split) <;> exact ⟨rfl, rfl, rfl⟩

theorem deliverRow_gz (row : Nat) (s : State) : (deliverRow row s).gz.targets = rowTargets (statsConf s) s.gz row ∧
    (deliverRow row s).gz.bank = s.gz.bank ∧ (deliverRow row s).gz.statsLate = s.gz.statsLate := by
  have hsent (t : State) : (sendHaloTarget (statsConf s) row t).gz = t.gz := by simp
  simp only [deliverRow, hsent]
  split
  · exact predict_keeps ..
  · exact ⟨rfl, rfl, rfl⟩

section
variable (c : Conf) (g : Gz) (row : Nat)

theorem rowTargets_row {j : Nat} (hj : j < gCols c) :
    mget 0 (rowTargets c g row) (row * gCols c + j) = targetOf c (zoneBins g.bank (row * gCols c + j)) := by
  simp [rowTargets, mget_mputs, hj]

theorem rowTargets_other {z : Nat} (hz : z < row * gCols c ∨ (row + 1) * gCols c ≤ z) :
    mget 0 (rowTargets c g row) z = mget 0 g.targets z := by
  have hlen : (row + 1) * gCols c = row * gCols c + gCols c := Nat.succ_mul ..
  simp only [rowTargets, mget_mputs, List.length_map, List.length_range]
  exact if_neg (by omega)

end

/-! ## Halo rows (R359) -/

/-- A row of halo values fills its own places, each value stored as itself plus 1. -/
theorem mget_putHalo {h d : Nat} (p row : Nat) (vs : List Nat) (m : SMap Nat) (hd : d < (vs.take h).length) :
    mget 0 (putHalo p row (vs.take h) m) (haloKey p row d) = vs.getD d 0 % 65536 + 1 := by
  have hkey : haloKey p row d = haloKey p row 0 + d := by simp [haloKey]
  have hlen : d < ((vs.take h).map (fun v => v % 65536 + 1)).length := by rwa [List.length_map]
  obtain ⟨hh, hvs⟩ := Nat.lt_min.mp (List.length_take ▸ hd)
  rw [putHalo, mget_mputs, hkey, if_pos ⟨Nat.le_add_right .., Nat.add_lt_add_left hlen _⟩]
  simp [hh, hvs]

end Sys2Proof.Proofs
end

section
/-!
Statistics (R142 to R150) and halo messages (R359) as commands.
-/
namespace Sys2Proof.Proofs
open Sys2Proof.Machine Sys2Proof.Laws

theorem gz_only (g : Gz) (s : State) : Only [.gz] s { s with gz := g } := by
  intro p hp
  cases p <;> simp [Part.same] at hp ⊢

/-! ## STATISTICS_PASS_LINE -/

theorem exec_statisticsPassLine {y k : Nat} {f : Frame} {s : State} (hframe : statsFrame s = some f) (hopened : s.gz.opened = true)
    (hy : y < tH (statsConf s)) (hk : k < 192) (hruns : (idleStripes s).contains k = false) (hnext : mget 0 s.gz.progress k = y)
    (hlanded : landed s f y = true) (hfall : s.pwr.fall = .idle) :
    exec (.statisticsPassLine y k) s = .next { s with gz := { s.gz with
      scratch := passLine s (passFrame s f y) y k, progress := mput 0 k (y + 1) s.gz.progress } } := by
  simp only [exec, execStatisticsPassLine, hframe, hopened, hy, hk, hruns, hnext, hlanded, hfall, decide_true, Bool.not_false,
    Bool.and_self, if_true]

theorem exec_statisticsPassLine_idle {y k : Nat} {s : State}
    (h : (idleStripes s).contains k = true ∨ mget 0 s.gz.progress k ≠ y) : exec (.statisticsPassLine y k) s = .next s := by
  simp only [exec, execStatisticsPassLine]
  split
  · rcases h with hidle | hnext
    · simp only [hidle, Bool.not_true, Bool.and_false, Bool.false_and, Bool.false_eq_true, if_false]
    · simp [hnext]
  · rfl

/-! ## ZONE_STATS_MERGE -/

/-- A stripe's merge of a row that is open, before the row's delivery. -/
def stripeMerged (row stripe : Nat) (s : State) : State :=
  { s with gz := { s.gz with
    bank := mergeStripe (statsConf s) s.gz row stripe
    scratch := scratchWithout (statsConf s) row stripe s.gz.scratch
    merges := mput 0 row (mget 0 s.gz.merges row + 1) s.gz.merges
    merged := mput false (192 * row + stripe) true s.gz.merged } }

section
variable {row k fe : Nat} {s : State} (hrow : row < gRows (statsConf s)) (hk : k < 192)
  (hruns : (idleStripes s).contains k = false)
include hrow hk hruns

theorem exec_zoneStatsMerge_open (hopen : rowOpen s row fe = true)
    (hpassed : rowTop (statsConf s) (row + 1) ≤ mget 0 s.gz.progress k)
    (hfirst : mget false s.gz.merged (192 * row + k) = false) : exec (.zoneStatsMerge row k fe) s =
      .next (if mget 0 s.gz.merges row + 1 = 192 then deliverRow row (stripeMerged row k s) else stripeMerged row k s) := by
  have hgrid : ¬ gRows (statsConf s) ≤ row := by omega
  have hstripe : ¬ 192 ≤ k := by omega
  simp only [exec, execZoneStatsMerge, hgrid, hstripe, hruns, hopen, hpassed, hfirst, decide_false, Bool.or_self,
    Bool.false_eq_true, if_false, if_true, decide_true, Bool.not_false, Bool.and_self]
  rfl

theorem exec_zoneStatsMerge_closed (hclosed : rowOpen s row fe = false) : exec (.zoneStatsMerge row k fe) s =
    .next { s with gz := { s.gz with
      scratch := if fe = s.gz.openFe then scratchWithout (statsConf s) row k s.gz.scratch else s.gz.scratch
      statsLate := satAdd 255 s.gz.statsLate (stripeZones (statsConf s) k).length } } := by
  have hgrid : ¬ gRows (statsConf s) ≤ row := by omega
  have hstripe : ¬ 192 ≤ k := by omega
  simp only [exec, execZoneStatsMerge, hgrid, hstripe, hruns, hclosed, decide_false, Bool.or_self, Bool.false_eq_true, if_false]
  rfl

end

/-- A merge before the row's last line, or a second one, changes nothing, nor does an engine that does not run. -/
theorem exec_zoneStatsMerge_idle {row k fe : Nat} {s : State}
    (h : (idleStripes s).contains k = true ∨ (rowOpen s row fe = true ∧
      (mget 0 s.gz.progress k < rowTop (statsConf s) (row + 1) ∨ mget false s.gz.merged (192 * row + k) = true))) :
    exec (.zoneStatsMerge row k fe) s = .next s := by
  simp only [exec, execZoneStatsMerge]
  rcases h with hidle | ⟨hopen, hlines | hmerged⟩
  · simp only [hidle, Bool.or_true, if_true]
  · have hnot : ¬ rowTop (statsConf s) (row + 1) ≤ mget 0 s.gz.progress k := by omega
    simp [hopen, hnot]
  · simp [hopen, hmerged]

theorem deliverRow_only (row stripe : Nat) (s : State) : Only [.gz, .gng, .out] s (deliverRow row (stripeMerged row stripe s)) := by
  intro p hp
  cases p <;> simp [Part.same, stripeMerged] at hp ⊢

/-! ## HALO_TARGET and HALO_LEVEL -/

section
variable {p row : Nat} {s : State} (hon : haloOn s p = true)
include hon

theorem exec_haloTarget (hrow : row < gRows s.conf) (ts : List Nat) : exec (.haloTarget p s.gz.openFe row ts) s =
    .next (seen p { s with gz := { s.gz with
      haloTarget := putHalo p row (ts.take (fget s.conf GZ_SOLVER_RADIUS)) s.gz.haloTarget } }) := by
  simp [exec, execHaloTarget, hon, hrow]

theorem exec_haloTarget_prev {fe : Nat} (hrow : row < gRows s.conf) (hfe : fe + 1 = s.gz.openFe) (ts : List Nat) :
    exec (.haloTarget p fe row ts) s = .next (seen p { s with gz := { s.gz with
      haloTargetPrev := putHalo p row (ts.take (fget s.conf GZ_SOLVER_RADIUS)) s.gz.haloTargetPrev } }) := by
  have hne : fe ≠ s.gz.openFe := by omega
  simp [exec, execHaloTarget, hon, hrow, hfe, hne]

theorem exec_haloLevel (hrow : row < gRows s.conf) (ls : List Nat) : exec (.haloLevel p s.sys.fe row [ls]) s =
    .next (seen p { s with gz := { s.gz with
      haloLevel := putHalo p row (ls.take (fget s.conf GZ_SOLVER_RADIUS)) s.gz.haloLevel } }) := by
  simp [exec, execHaloLevel, keyed, hon, hrow]

theorem exec_haloLevel_prev {fe : Nat} (hrow : row < gRows s.conf) (hfe : fe + 1 = s.sys.fe) (ls : List Nat) :
    exec (.haloLevel p fe row [ls]) s = .next (seen p { s with gz := { s.gz with
      haloLevelPrev := putHalo p row (ls.take (fget s.conf GZ_SOLVER_RADIUS)) s.gz.haloLevelPrev } }) := by
  have hne : fe ≠ s.sys.fe := by omega
  simp [exec, execHaloLevel, keyed, hon, hrow, hfe, hne]

end

theorem seen_gz (p : Nat) (s : State) : (seen p s).gz = s.gz := by simp

theorem seen_only (p : Nat) (g : Gz) (s : State) :
    Only [.gz, .rings, .hif, .trc, .out, .free] s (seen p { s with gz := g }) := by
  intro q hq
  cases q <;> simp [Part.same] at hq ⊢

/-- Settles O53: a pass and a merge each write their own keys of one sparse map, and a halo message writes its own row. -/
theorem statisticsAreGathered : Obligations.StatisticsAreGathered := by
  refine ⟨?passes, ?waits, ?merges, ?delivers, ?late, ?again, ?target, ?targetPrev, ?level, ?levelPrev⟩
  case passes =>
    rintro y k f c s rfl hframe hopened hy hk hruns hnext hlanded hfall
    exact ⟨_, exec_statisticsPassLine hframe hopened hy hk hruns hnext hlanded hfall,
      fun z st b hst hne hb => passLine_other k hk hst hne hb, fun hoff => passLine_off_grid k hoff,
      fun hon z b hb => passLine_counts k z hk hb hon, rfl, gz_only _ s⟩
  case waits => exact fun y k s => exec_statisticsPassLine_idle
  case merges =>
    rintro row k fe c s rfl hrow hk hruns hopen hpassed hfirst hnotLast
    have hexec := exec_zoneStatsMerge_open hrow hk hruns hopen hpassed hfirst
    rw [if_neg hnotLast] at hexec
    exact ⟨_, hexec, mget_mput_same 0 row (mget 0 s.gz.merges row + 1) s.gz.merges,
      mget_mput_same false (192 * row + k) true s.gz.merged,
      fun j hj b hb => mergeStripe_adds s.gz row hj hb, fun z b hb hz => mergeStripe_other s.gz hb hz,
      fun j hj b hb => scratchWithout_empty row hj hb s.gz.scratch, rfl, rfl, gz_only _ s⟩
  case delivers =>
    rintro row k fe c s rfl hrow hk hruns hopen hpassed hfirst hlast
    have hexec := exec_zoneStatsMerge_open hrow hk hruns hopen hpassed hfirst
    rw [if_pos hlast] at hexec
    obtain ⟨htargets, hbank, hlate⟩ := deliverRow_gz row (stripeMerged row k s)
    refine ⟨_, hexec, fun j hj => ?_, fun z hz => ?_, hlate, deliverRow_only row k s⟩
    · rw [htargets, hbank]
      exact rowTargets_row (statsConf s) _ row hj
    · rw [htargets]
      exact rowTargets_other (statsConf s) _ row hz
  case late =>
    intro row k fe s hrow hk hruns hclosed
    exact ⟨_, exec_zoneStatsMerge_closed hrow hk hruns hclosed, rfl, rfl, rfl, gz_only _ s⟩
  case again => exact fun row k fe s => exec_zoneStatsMerge_idle
  case target =>
    intro p row ts s hon hrow
    refine ⟨_, exec_haloTarget hon hrow ts, fun d hd => ?_, ?_, seen_only p _ s⟩ <;> rw [seen_gz]
    exact mget_putHalo p row ts _ hd
  case targetPrev =>
    intro p fe row ts s hon hrow hfe
    refine ⟨_, exec_haloTarget_prev hon hrow hfe ts, fun d hd => ?_, ?_, seen_only p _ s⟩ <;> rw [seen_gz]
    exact mget_putHalo p row ts _ hd
  case level =>
    intro p row ls s hon hrow
    refine ⟨_, exec_haloLevel hon hrow ls, fun d hd => ?_, ?_, seen_only p _ s⟩ <;> rw [seen_gz]
    exact mget_putHalo p row ls _ hd
  case levelPrev =>
    intro p fe row ls s hon hrow hfe
    refine ⟨_, exec_haloLevel_prev hon hrow hfe ls, fun d hd => ?_, ?_, seen_only p _ s⟩ <;> rw [seen_gz]
    exact mget_putHalo p row ls _ hd

end Sys2Proof.Proofs
end

section
/-!
Overrides and a zone table that is not in canonical form (R157, R166): the frame tick maps every entry of the table and drops those
that become the default, so that a second entry of the same zone comes to be read.
-/
namespace Sys2Proof.Proofs
open Sys2Proof.Machine

/-- The slot before a frame tick, with an override of zone 0 armed for a later FE. Zone 5 stands twice in the table: its first entry
differs from the default only in the drive gain, which the frame tick sets back to the default's, and its second entry, which is not
read before that, holds an override. -/
def doubledZone : State := { State.reset with
  tmg := { State.reset.tmg with running := true, slot := 999, nextFt := some 1000 }
  gz := { State.reset.gz with
    zones := [(5, { gain := 40000 }), (5, { override := some 3 })]
    arms := [{ fe := 9, first := 0, count := 1, levels := none }] } }

/-- The override of a zone in the state that a command answers. -/
def overrideIn (z : Nat) : Answer → Option Nat
  | .next t => (zoneAt t.gz z).override
  | _ => none

theorem doubledZone_ticks : ownFrameTick doubledZone = true ∧ changeDue doubledZone = false := by decide +kernel

theorem doubledZone_before : (zoneAt doubledZone.gz 5).override = none := rfl

theorem doubledZone_after : overrideIn 5 (exec .frameTick doubledZone) = some 3 := by decide +kernel

/-- Refutes O54: its last clause, that a frame tick before an armed override's FE changes no zone's override, fails where the zone
table lists a zone twice. The statement has no premise that the table is in canonical form (`mwf`), which excludes this. -/
theorem not_zonesCommitAndTakeOverrides : ¬ Obligations.ZonesCommitAndTakeOverrides := by
  intro h
  obtain ⟨-, -, -, -, -, -, -, -, -, -, hwaits⟩ := h
  obtain ⟨hown, hdue⟩ := doubledZone_ticks
  obtain ⟨t, hexec, -, hsame⟩ := hwaits _ doubledZone hown hdue rfl rfl (by decide)
  have hafter := doubledZone_after
  rw [hexec] at hafter
  have hshown : (zoneAt t.gz 5).override = some 3 := hafter
  rw [hsame 5, doubledZone_before] at hshown
  cases hshown

end Sys2Proof.Proofs
end

section
/-!
The rules of the lamp links' state (R173, R174, R182 to R185): what a lane's drivers and waiting frames read as after each
operation, what leaves on a lane, and which zones a report names.
-/
namespace Sys2Proof.Proofs
open Sys2Proof Sys2Proof.Machine Sys2Proof.Laws

/-! ## Folds over keys -/

theorem forAll_preserves {α : Type} {P : State → Prop} {f : α → State → State} (h : ∀ a s, P s → P (f a s)) (l : List α)
    {s : State} (hs : P s) : P (forAll l f s) := by
  induction l generalizing s with
  | nil => exact hs
  | cons a l ih => exact ih (h a s hs)

/-- What the step of one key brings about, and every step keeps, holds after the fold over a list with that key. -/
theorem forAll_reaches {α : Type} {I P : State → Prop} {f : α → State → State} {a : α} {l : List α} {s : State} (hmem : a ∈ l)
    (hs : I s) (hkeeps : ∀ b s, I s → I (f b s)) (hreaches : ∀ s, I s → P (f a s)) (hstays : ∀ b s, P s → P (f b s)) :
    P (forAll l f s) := by
  obtain ⟨before, after, rfl⟩ := List.append_of_mem hmem
  have hsplit : forAll (before ++ a :: after) f s = forAll after f (f a (forAll before f s)) := by simp [forAll]
  rw [hsplit]
  exact forAll_preserves hstays after (hreaches _ (forAll_preserves hkeeps before hs))

theorem forAll_only {α : Type} {ps : List Part} {f : α → State → State} (h : ∀ a s, Only ps s (f a s)) (l : List α) (s : State) :
    Only ps s (forAll l f s) :=
  forAll_preserves (P := Only ps s) (fun a u hu => only_trans hu (h a u)) l (only_refl ps s)

/-! ## Drivers and waiting frames -/

theorem driverAt_congr {s t : State} (h : t.lmp.drivers = s.lmp.drivers) (l p : Nat) : driverAt t l p = driverAt s l p := by
  rw [driverAt, h, driverAt]

theorem waitsOn_congr {s t : State} (h : t.lmp.waits = s.lmp.waits) (l : Nat) : waitsOn t l = waitsOn s l := by
  rw [waitsOn, h, waitsOn]

section
variable (l m p q : Nat) (d : Driver) (w : LampWait) (frame : Bytes) (s : State)

@[simp] theorem setDriver_lmp : (setDriver l p d s).lmp = { s.lmp with drivers := mput {} (16 * l + p) d s.lmp.drivers } := rfl

@[simp] theorem driverAt_setDriver_same : driverAt (setDriver l p d s) l p = d := mget_mput_same ..

@[simp] theorem waitsOn_setDriver : waitsOn (setDriver l p d s) m = waitsOn s m := rfl

theorem setDriver_only : Only [.lmp] s (setDriver l p d s) := by
  intro part hpart
  cases part <;> simp [Part.same] at hpart ⊢

@[simp] theorem await_lmp : (await l w s).lmp = { s.lmp with waits := mput [] l (waitsOn s l ++ [w]) s.lmp.waits } := rfl

@[simp] theorem waitsOn_await_same : waitsOn (await l w s) l = waitsOn s l ++ [w] := mget_mput_same ..

@[simp] theorem driverAt_await : driverAt (await l w s) m q = driverAt s m q := rfl

theorem mem_waitsOn_await {x : LampWait} (h : x ∈ waitsOn s m) : x ∈ waitsOn (await l w s) m := by
  by_cases hm : m = l
  · subst hm
    simp [h]
  · rwa [show waitsOn (await l w s) m = waitsOn s m from mget_mput_other _ _ _ hm]

@[simp] theorem dropWait_lmp : (dropWait l w s).lmp = { s.lmp with waits := mput [] l ((waitsOn s l).erase w) s.lmp.waits } := rfl

@[simp] theorem waitsOn_dropWait_same : waitsOn (dropWait l w s) l = (waitsOn s l).erase w := mget_mput_same ..

@[simp] theorem driverAt_dropWait : driverAt (dropWait l w s) m q = driverAt s m q := rfl

theorem dropWait_only : Only [.lmp] s (dropWait l w s) := by
  intro part hpart
  cases part <;> simp [Part.same] at hpart ⊢

/-- Taking a frame off the list of a lane counts among the parts of what follows it. -/
theorem only_after_dropWait {l : Nat} {w : LampWait} {s t : State} {ps : List Part} (hlmp : .lmp ∈ ps)
    (h : Only ps (dropWait l w s) t) : Only ps s t :=
  only_trans (only_mono (by simpa using hlmp) (dropWait_only l w s)) h

/-! ## Frames that leave (R173) -/

@[simp] theorem lampOut_out : (lampOut l frame s).out =
    .lampChars l (code10s (freeNow s % 2 = 1) (frameChars frame)) :: s.out := rfl

@[simp] theorem waitsOn_lampOut : waitsOn (lampOut l frame s) m = waitsOn s m := rfl

@[simp] theorem driverAt_lampOut : driverAt (lampOut l frame s) m q = driverAt s m q := rfl

/-! ## ASSIGN and STATUS_REQ (R174, R182, R183) -/

variable (again : Bool)

@[simp] theorem sendAssign_out : (sendAssign l p again s).out =
    .lampChars l (code10s (freeNow s % 2 = 1) (frameChars (lampBytes s.sys.fe true 0 0x03 (toLE 1 p)))) :: s.out := by
  cases again <;> rfl

theorem sendAssign_sends : ∃ rd, .lampChars l (code10s rd (frameChars (lampBytes s.sys.fe true 0 0x03 (toLE 1 p)))) ∈
    (sendAssign l p again s).out :=
  ⟨_, sendAssign_out l p s again ▸ List.mem_cons_self⟩

@[simp] theorem sendAssign_drivers : (sendAssign l p again s).lmp.drivers = s.lmp.drivers := by
  cases again <;> rfl

@[simp] theorem driverAt_sendAssign : driverAt (sendAssign l p again s) m q = driverAt s m q := driverAt_congr (by simp) ..

theorem waitsOn_sendAssign : waitsOn (sendAssign l p again s) m = waitsOn
    (await l { pos := p, type := 0x03, frame := lampBytes s.sys.fe true 0 0x03 (toLE 1 p), again, fe := s.sys.fe } s) m := by
  cases again <;> rfl

@[simp] theorem sendAssign_probing : aget (sendAssign l p false s).lmp.probing l = some p :=
  (aget_aput ..).trans (if_pos rfl)

theorem sendAssign_only : Only [.lmp, .out, .free] s (sendAssign l p again s) := by
  intro part hpart
  cases part <;> simp [Part.same] at hpart ⊢

@[simp] theorem sendStatusReq_out : (sendStatusReq l p again s).out =
    .lampChars l (code10s (freeNow s % 2 = 1) (frameChars (lampBytes s.sys.fe false p 0x04 []))) :: s.out := rfl

@[simp] theorem sendStatusReq_drivers : (sendStatusReq l p again s).lmp.drivers = s.lmp.drivers := rfl

theorem waitsOn_sendStatusReq : waitsOn (sendStatusReq l p again s) m = waitsOn
    (await l { pos := p, type := 0x04, frame := lampBytes s.sys.fe false p 0x04 [], again, fe := s.sys.fe } s) m := rfl

theorem sendStatusReq_only : Only [.lmp, .out, .free] s (sendStatusReq l p again s) := by
  intro part hpart
  cases part <;> simp [Part.same] at hpart ⊢

/-! ## What discovery sends a driver that it found (R176, R182) -/

theorem welcome_only : Only [.out, .free] s (welcome l p s) := by
  intro part hpart
  cases part <;> simp [Part.same] at hpart ⊢

@[simp] theorem driverAt_welcome : driverAt (welcome l p s) m q = driverAt s m q := driverAt_congr (by simp) m q

@[simp] theorem waitsOn_welcome : waitsOn (welcome l p s) m = waitsOn s m := waitsOn_congr (by simp) m

theorem welcome_unmapped (h : (driverBox s.conf l p).present = false) :
    welcome l p s = lampOut l (lampBytes s.sys.fe false p 0x06 []) s := by
  simp [welcome, h, lampTo]

end

/-! ## Zones reported dead or alive (R164) -/

theorem aget_foldl_aput {α : Type} (zs : List Nat) (v : α) (m : List (Nat × α)) (z : Nat) :
    aget (zs.foldl (fun m z => aput z v m) m) z = if z ∈ zs then some v else aget m z := by
  induction zs generalizing m with
  | nil => simp
  | cons y zs ih =>
    rw [List.foldl_cons, ih, aget_aput]
    by_cases hy : y = z
    · simp [hy]
    · simp [hy, Ne.symm hy]

@[simp] theorem driverAt_reportZones (zs : List Nat) (v : Bool) (s : State) (l p : Nat) :
    driverAt (reportZones zs v s) l p = driverAt s l p := driverAt_congr (by simp) l p

theorem reportZones_reports (zs : List Nat) (v : Bool) (s : State) (z : Nat) :
    aget (reportZones zs v s).gz.reports z = if z ∈ zs then some v else aget s.gz.reports z := aget_foldl_aput ..

/-- Zones of the channels that `pick` picks. -/
def channelZones (zs : List Nat) (pick : Nat → Bool) : List Nat := ((keyed 0 zs).filter (fun z => pick z.1)).map Prod.snd

theorem mem_keyed {α : Type} (l : List α) (k i : Nat) (z : α) : (i, z) ∈ keyed k l ↔ k ≤ i ∧ l[i - k]? = some z := by
  induction l generalizing k with
  | nil => simp [keyed]
  | cons v l ih =>
    rw [keyed, List.mem_cons, ih]
    obtain hlt | rfl | hgt := Nat.lt_trichotomy i k
    · simp [Nat.not_le.mpr hlt, Nat.ne_of_lt hlt, show ¬ k + 1 ≤ i by omega]
    · simp only [Prod.mk.injEq, true_and, Nat.not_succ_le_self, false_and, or_false, Nat.le_refl, Nat.sub_self,
        List.getElem?_cons_zero, Option.some.injEq]
      exact eq_comm
    · simp [Nat.ne_of_gt hgt, Nat.le_of_lt hgt, show k + 1 ≤ i from hgt, show i - k = i - (k + 1) + 1 by omega]

/-- Where every channel lights its own zone, a zone is picked just where its channel is. -/
theorem mem_channelZones {zs : List Nat} (hown : zs.Nodup) {c : Nat} (hc : c < zs.length) (pick : Nat → Bool) :
    zs.getD c 0 ∈ channelZones zs pick ↔ pick c = true := by
  have hget : zs[c]? = some (zs.getD c 0) := by simp [hc]
  simp only [channelZones, List.mem_map, List.mem_filter, Prod.exists, exists_eq_right, mem_keyed, Nat.zero_le,
    true_and, Nat.sub_zero]
  constructor
  · rintro ⟨i, hi, hpick⟩
    rwa [(List.getElem?_inj hc hown).mp (hget.trans hi.symm)]
  · exact fun hpick => ⟨c, hget, hpick⟩

/-! ## Bits of a field -/

theorem leNat_lt (b : Bytes) : leNat b < 256 ^ b.length := by
  induction b with
  | nil => simp [leNat]
  | cons x b ih =>
    have hx := x.isLt
    rw [leNat, List.length_cons, Nat.pow_succ]
    omega

theorem fieldAt_lt (b : Bytes) (off n : Nat) : fieldAt b off n < 256 ^ n :=
  Nat.lt_of_lt_of_le (leNat_lt _) (Nat.pow_le_pow_right (by decide) (List.length_take_le ..))

/-- A field of n bytes has no bit past them. -/
theorem bit_fieldAt_past {n c : Nat} (h : 8 * n ≤ c) (b : Bytes) (off : Nat) : bit (fieldAt b off n) c = false := by
  have hlt : fieldAt b off n < 2 ^ c :=
    calc fieldAt b off n < 256 ^ n := fieldAt_lt b off n
      _ = 2 ^ (8 * n) := (Nat.pow_mul 2 8 n).symm
      _ ≤ 2 ^ c := Nat.pow_le_pow_right (by decide) h
  simp [bit, Nat.div_eq_of_lt hlt]

end Sys2Proof.Proofs
end

section
/-!
Answers of the lamp drivers and their absence (R174, R182 to R185): a miss, a loss, a STATUS, and the end of discovery.
-/
namespace Sys2Proof.Proofs
open Sys2Proof Sys2Proof.Machine Sys2Proof.Laws

/-! ## A miss, and the third (R183) -/

/-- A miss changes nothing of the lamp links but the drivers. -/
theorem countMiss_lmp (l p : Nat) (s : State) :
    (countMiss l p s).lmp = { s.lmp with drivers := (countMiss l p s).lmp.drivers } := by
  simp only [countMiss]
  (repeat' split) <;> simp

theorem countMiss_only (l p : Nat) (s : State) : Only [.lmp, .gz, .lin, .rings, .hif, .trc, .out, .free] s (countMiss l p s) := by
  intro part hpart
  cases part <;> simp [Part.same] at hpart ⊢

@[simp] theorem waitsOn_countMiss (l p : Nat) (s : State) (m : Nat) : waitsOn (countMiss l p s) m = waitsOn s m :=
  waitsOn_congr (by rw [countMiss_lmp]) m

@[simp] theorem countMiss_echoMiss (l p : Nat) (s : State) : (countMiss l p s).lmp.echoMiss = s.lmp.echoMiss := by
  rw [countMiss_lmp]

/-- A driver is lost, and its zones are reported dead. -/
def driverLost (l p : Nat) (s : State) : State :=
  reportZones (boxZones s.conf (driverBox s.conf l p)) true
    (setDriver l p { driverAt s l p with lost := true, misses := 3, silent := true } s)

theorem logFault_lin_congr {s t : State} (hfe : t.sys.fe = s.sys.fe) (hlin : t.lin = s.lin) (cls outcome inst : Nat)
    (d : List Nat) : (logFault cls outcome inst d t).lin = (logFault cls outcome inst d s).lin := by
  simp only [logFault, logFaultAt, setSram, hfe, hlin]

section
variable {l p : Nat} {s : State} (hlive : driverLive s l p = true)
include hlive

theorem countMiss_live : countMiss l p s = if 2 ≤ (driverAt s l p).misses then
    logFault 7 (freeNow (driverLost l p s) % 7) l [p] (skipFree 1 (post 0x0602 2 [l, p] (trace1 4 (driverLost l p s))))
    else setDriver l p { driverAt s l p with misses := (driverAt s l p).misses + 1 } s := by
  obtain ⟨hfound, hlost⟩ : (driverAt s l p).found = true ∧ (driverAt s l p).lost = false := by simpa [driverLive] using hlive
  simp only [countMiss, hfound, hlost, Bool.not_true, Bool.or_self, Bool.false_eq_true, if_false, driverLost]

theorem countMiss_counts (hmisses : (driverAt s l p).misses < 2) :
    countMiss l p s = setDriver l p { driverAt s l p with misses := (driverAt s l p).misses + 1 } s := by
  rw [countMiss_live hlive, if_neg (Nat.not_le.mpr hmisses)]

/-- The third miss in a row: the driver is lost, its zones are dead, and one event and one fault record say so. -/
theorem countMiss_loses (hmisses : 2 ≤ (driverAt s l p).misses) :
    (driverAt (countMiss l p s) l p).lost = true ∧
    (∀ z ∈ boxZones s.conf (driverBox s.conf l p), aget (countMiss l p s).gz.reports z = some true) ∧
    Posts s (countMiss l p s) [event s 0x0602 2 [l, p]] ∧ ∃ outcome, Logs s (countMiss l p s) 7 outcome l [p] := by
  rw [countMiss_live hlive, if_pos hmisses]
  refine ⟨?_, fun z hz => ?_, ?_, _, logFault_lin_congr (by simp [driverLost]) (by simp [driverLost]) ..⟩
  · rw [driverAt_congr (s := driverLost l p s) (by simp), driverLost, driverAt_reportZones, driverAt_setDriver_same]
  · have hreports := reportZones_reports (boxZones s.conf (driverBox s.conf l p)) true
      (setDriver l p { driverAt s l p with lost := true, misses := 3, silent := true } s) z
    simpa [driverLost, hz] using hreports
  · refine posts_congr (posts_post (u := trace1 4 (driverLost l p s)) 0x0602 2 [l, p] ?_ ?_ ?_ ?_) ?_ <;>
      simp [driverLost, eventsFlow, canSend, served, linkUp, busMaster, eqOf]

end

theorem countUnechoed_counts (fe l p : Nat) (s : State) : ∃ u ∈ (countUnechoed fe l p s).lmp.unechoed, u.1 = fe := by
  simp only [countUnechoed]
  split
  next hany =>
    obtain ⟨u, hu, hfe⟩ := List.any_eq_true.mp hany
    refine ⟨_, List.mem_map_of_mem hu, ?_⟩
    simp [of_decide_eq_true hfe]
  next => exact ⟨_, List.mem_append_right _ (List.mem_singleton_self _), rfl⟩

/-! ## An answer that is missing or wrong (R185) -/

/-- ECHO_MISS counts one. -/
def echoMissed (s : State) : State := { s with lmp := { s.lmp with echoMiss := satAdd 0xFFFF s.lmp.echoMiss 1 } }

theorem waitsOn_echoMissed (s : State) (l : Nat) : waitsOn (echoMissed s) l = waitsOn s l := rfl

section
variable (l : Nat) {w : LampWait} (s : State)

theorem missed_only (w : LampWait) : Only [.lmp, .gz, .lin, .rings, .hif, .trc, .out, .free] s (missed l w s) := by
  intro part hpart
  cases part <;> simp [Part.same] at hpart ⊢

theorem missed_status (htype : w.type = 0x04) : missed l w s = countMiss l w.pos s := by
  simp [missed, htype]

theorem missed_levels_first (htype : w.type = 0x01) (hfirst : w.resent = false) : missed l w s =
    await l { w with resent := true } (lampOut l w.frame (countMiss l w.pos (echoMissed s))) := by
  simp [missed, htype, hfirst, echoMissed]

/-- A LEVELS frame's first miss is counted, and the frame leaves once more. -/
theorem missed_levels_resends (htype : w.type = 0x01) (hfirst : w.resent = false) :
    (missed l w s).lmp.echoMiss = satAdd 0xFFFF s.lmp.echoMiss 1 ∧
    waitsOn (missed l w s) l = waitsOn s l ++ [{ w with resent := true }] ∧
    ∃ rd, (missed l w s).out = .lampChars l (code10s rd (frameChars w.frame)) :: (countMiss l w.pos (echoMissed s)).out := by
  rw [missed_levels_first l s htype hfirst]
  exact ⟨countMiss_echoMiss .., by simp [waitsOn_echoMissed], _, rfl⟩

theorem missed_levels_counts (htype : w.type = 0x01) (hfirst : w.resent = false) (hlive : driverLive s l w.pos = true)
    (hmisses : (driverAt s l w.pos).misses < 2) : missed l w s = await l { w with resent := true } (lampOut l w.frame
      (setDriver l w.pos { driverAt s l w.pos with misses := (driverAt s l w.pos).misses + 1 } (echoMissed s))) := by
  rw [missed_levels_first l s htype hfirst, countMiss_counts (s := echoMissed s) hlive hmisses]
  rfl

theorem resent_only (d : Driver) : Only [.lmp, .out, .free] s
    (await l { w with resent := true } (lampOut l w.frame (setDriver l w.pos d (echoMissed s)))) := by
  intro part hpart
  cases part <;> simp [Part.same, echoMissed] at hpart ⊢

/-- A LEVELS frame's second miss is counted, and counts against its frame's FE. -/
theorem missed_levels_again (htype : w.type = 0x01) (hagain : w.resent = true) :
    (missed l w s).lmp.echoMiss = satAdd 0xFFFF s.lmp.echoMiss 1 ∧ waitsOn (missed l w s) l = waitsOn s l ∧
    ∃ u ∈ (missed l w s).lmp.unechoed, u.1 = w.fe := by
  have hmissed : missed l w s = countUnechoed w.fe l w.pos (countMiss l w.pos (echoMissed s)) := by
    simp [missed, htype, hagain, echoMissed]
  rw [hmissed]
  exact ⟨countMiss_echoMiss .., waitsOn_countMiss .., countUnechoed_counts ..⟩

end

/-! ## STATUS (R183 to R185) -/

/-- Channels of a driver that lights `n` zones which a STATUS reports failed. -/
def failedChannels (d : Bytes) (n : Nat) : List Nat := (bitList (fieldAt d 2 30) 240).filter (· < n)

theorem failedChannels_contains {n c : Nat} (hc : c < n) (d : Bytes) :
    (failedChannels d n).contains c = bit (fieldAt d 2 30) c := by
  by_cases hpast : c < 240
  · cases hbit : bit (fieldAt d 2 30) c <;> simp [failedChannels, bitList, hc, hpast, hbit]
  · simp [failedChannels, bitList, hpast, bit_fieldAt_past (n := 30) (Nat.not_lt.mp hpast)]

/-- What a STATUS changes before its flags are posted. -/
def statusTaken (l : Nat) (w : LampWait) (d : Bytes) (s : State) : State :=
  let zs := boxZones s.conf (driverBox s.conf l w.pos)
  let failed := failedChannels d zs.length
  let s1 := setDriver l w.pos { driverAt s l w.pos with misses := 0, lost := false, silent := false, failed } s
  let s2 := reportZones (channelZones zs (fun c => failed.contains c)) true s1
  if (driverAt s l w.pos).silent then reportZones (channelZones zs (fun c => !(failed.contains c))) false s2 else s2

section
variable (l : Nat) (w : LampWait) (d : Bytes) (s : State)

theorem gotLampStatus_eq : gotLampStatus l w d s =
    postIf (decide (fieldAt d 0 1 % 8 ≠ 0)) 0x0604 1 [l, w.pos, fieldAt d 0 1 % 8] (statusTaken l w d s) := by
  simp only [postIf, decide_eq_true_eq]
  rfl

theorem statusTaken_lmp : (statusTaken l w d s).lmp = (setDriver l w.pos { driverAt s l w.pos with
    misses := 0, lost := false, silent := false, failed := failedChannels d (boxZones s.conf (driverBox s.conf l w.pos)).length }
    s).lmp := by
  simp only [statusTaken]
  split <;> rfl

theorem statusTaken_only : Only [.lmp, .gz] s (statusTaken l w d s) := by
  simp only [statusTaken]
  intro part hpart
  cases part <;> simp [Part.same] at hpart ⊢

/-- Failed channels are reported dead, and the others of a driver that was lost alive. -/
theorem statusTaken_reports (hown : (boxZones s.conf (driverBox s.conf l w.pos)).Nodup) {c : Nat}
    (hc : c < (boxZones s.conf (driverBox s.conf l w.pos)).length) :
    (bit (fieldAt d 2 30) c = true →
      aget (statusTaken l w d s).gz.reports ((boxZones s.conf (driverBox s.conf l w.pos)).getD c 0) = some true) ∧
    (bit (fieldAt d 2 30) c = false → (driverAt s l w.pos).silent = true →
      aget (statusTaken l w d s).gz.reports ((boxZones s.conf (driverBox s.conf l w.pos)).getD c 0) = some false) := by
  simp only [statusTaken]
  generalize boxZones s.conf (driverBox s.conf l w.pos) = zs at hown hc ⊢
  have hdead := mem_channelZones hown hc (fun c => (failedChannels d zs.length).contains c)
  have halive := mem_channelZones hown hc (fun c => !((failedChannels d zs.length).contains c))
  rw [failedChannels_contains hc] at hdead halive
  constructor
  · intro hbit
    split <;> simp only [reportZones_reports, hdead, halive, hbit, Bool.not_true, Bool.false_eq_true, if_true, if_false]
  · intro hbit hsilent
    simp only [hsilent, if_true, reportZones_reports, halive, hbit, Bool.not_false]

/-- The driver that sent a STATUS is found, and has missed nothing. -/
theorem driverAt_gotLampStatus : driverAt (gotLampStatus l w d s) l w.pos = { driverAt s l w.pos with
    misses := 0, lost := false, silent := false
    failed := failedChannels d (boxZones s.conf (driverBox s.conf l w.pos)).length } := by
  rw [gotLampStatus_eq, driverAt_congr (s := statusTaken l w d s) (by simp)]
  exact (driverAt_congr (congrArg Lmp.drivers (statusTaken_lmp l w d s)) l w.pos).trans (driverAt_setDriver_same ..)

theorem waitsOn_gotLampStatus (m : Nat) : waitsOn (gotLampStatus l w d s) m = waitsOn s m := by
  rw [gotLampStatus_eq, waitsOn_congr (s := statusTaken l w d s) (by simp)]
  exact waitsOn_congr (by rw [statusTaken_lmp, setDriver_lmp]) m

theorem gotLampStatus_gz : (gotLampStatus l w d s).gz = (statusTaken l w d s).gz := by simp [gotLampStatus_eq]

theorem gotLampStatus_posts : Posts s (gotLampStatus l w d s)
    (if fieldAt d 0 1 % 8 = 0 then [] else [event s 0x0604 1 [l, w.pos, fieldAt d 0 1 % 8]]) := by
  have honly := statusTaken_only l w d s
  have hrings : (statusTaken l w d s).rings = s.rings := honly .rings (by decide)
  have hhif : (statusTaken l w d s).hif = s.hif := honly .hif (by decide)
  have hsys : (statusTaken l w d s).sys = s.sys := honly .sys (by decide)
  have hposts := posts_postIf (s := s) (u := statusTaken l w d s) (decide (fieldAt d 0 1 % 8 ≠ 0)) 0x0604 1
    [l, w.pos, fieldAt d 0 1 % 8] (congrArg Pwr.fall (honly .pwr (by decide)))
    (by simp only [eventsFlow, canSend, served, linkUp, busMaster, hrings, hhif, hsys]) (by rw [hrings]) (by rw [hsys])
  simpa [gotLampStatus_eq] using hposts

theorem gotLampStatus_only : Only [.lmp, .gz, .rings, .hif, .out] s (gotLampStatus l w d s) := by
  intro part hpart
  cases part <;> simp [Part.same] at hpart ⊢

end

/-! ## A driver is found in discovery (R182) -/

/-- A driver takes its position, and the next position is asked. -/
theorem driverFound_next {p : Nat} (hp : p + 1 < 16) (l : Nat) (s : State) :
    (driverAt (driverFound l p s) l p).found = true ∧ aget (driverFound l p s).lmp.probing l = some (p + 1) ∧
    (∃ rd, .lampChars l (code10s rd (frameChars (lampBytes s.sys.fe true 0 0x03 (toLE 1 (p + 1))))) ∈ (driverFound l p s).out) ∧
    Only [.lmp, .out, .free] s (driverFound l p s) := by
  have hnext : driverFound l p s = sendAssign l (p + 1) false (setDriver l p { found := true } s) := by
    simp only [driverFound, hp, if_true]
  rw [hnext, driverAt_sendAssign, driverAt_setDriver_same]
  exact ⟨rfl, sendAssign_probing .., sendAssign_sends l (p + 1) (setDriver l p _ s) false,
    only_trans (only_mono (by decide) (setDriver_only l p _ s)) (sendAssign_only l (p + 1) _ false)⟩

/-! ## Discovery ends (R182) -/

/-- Positions of a lane that the map places and discovery did not find. -/
def missingOn (s : State) (l : Nat) : List Nat :=
  (List.range 16).filter (fun p => (driverBox s.conf l p).present && !((foundOn s l).contains p))

theorem mem_missingOn {s : State} {l p : Nat} (hp : p < 16) (hpresent : (driverBox s.conf l p).present = true)
    (hunfound : (driverAt s l p).found = false) : p ∈ missingOn s l := by
  simp [missingOn, foundOn, hp, hpresent, hunfound]

/-- A lane whose discovery has ended: every driver found is welcomed, and the zones of the missing ones are reported dead. -/
def laneFound (l : Nat) (s : State) : State :=
  let s1 := forAll (foundOn s l) (welcome l) s
  reportZones ((missingOn s l).flatMap (fun p => boxZones s.conf (driverBox s.conf l p))) true
    { s1 with lmp := { s1.lmp with probing := s1.lmp.probing.filter (fun x => x.1 ≠ l) } }

section
variable (l : Nat) (s : State)

theorem endDiscovery_eq : endDiscovery l s = post 0x0601 0 [l, (foundOn s l).length, (missingOn s l).length]
    (trace1 4 (laneFound l s)) := by
  have hconf : (forAll (foundOn s l) (welcome l) s).conf = s.conf := by simp
  rw [laneFound, missingOn, ← hconf]
  rfl

theorem endDiscovery_probing : aget (endDiscovery l s).lmp.probing l = none := by
  simp [endDiscovery_eq, laneFound, aget]

theorem endDiscovery_reports {p : Nat} (hp : p ∈ missingOn s l) {z : Nat} (hz : z ∈ boxZones s.conf (driverBox s.conf l p)) :
    aget (endDiscovery l s).gz.reports z = some true := by
  have hmem : z ∈ (missingOn s l).flatMap (fun p => boxZones s.conf (driverBox s.conf l p)) := List.mem_flatMap.mpr ⟨p, hp, hz⟩
  have hgz : (endDiscovery l s).gz = (laneFound l s).gz := by simp [endDiscovery_eq]
  rw [hgz]
  exact (reportZones_reports ..).trans (if_pos hmem)

theorem endDiscovery_posts : Posts s (endDiscovery l s) [event s 0x0601 0 [l, (foundOn s l).length, (missingOn s l).length]] := by
  rw [endDiscovery_eq]
  refine posts_post _ _ _ ?_ ?_ ?_ ?_ <;> simp [laneFound, eventsFlow, canSend, served, linkUp, busMaster, eqOf]

theorem endDiscovery_only : Only [.lmp, .gz, .rings, .hif, .trc, .out, .free] s (endDiscovery l s) := by
  intro part hpart
  cases part <;> simp [Part.same] at hpart ⊢

end

end Sys2Proof.Proofs
end

section
/-!
The lamp links' commands (R168, R173, R174, R182 to R185), and the statement on them.
-/
namespace Sys2Proof.Proofs
open Sys2Proof Sys2Proof.Machine Sys2Proof.Laws

/-! ## LAMP_DISCOVERY -/

/-- A lane before discovery: no driver found, no answer awaited. -/
def laneEmptied (l : Nat) (s : State) : State :=
  { s with lmp := { s.lmp with drivers := mclear (16 * l) (16 * l + 16) s.lmp.drivers, waits := mput [] l [] s.lmp.waits } }

section
variable (l : Nat) {p : Nat} (hp : p < 16) (s : State)

@[simp] theorem waitsOn_laneEmptied : waitsOn (laneEmptied l s) l = [] := mget_mput_same [] l [] s.lmp.waits

include hp

theorem driverAt_laneEmptied : driverAt (laneEmptied l s) l p = {} :=
  (mget_mclear ..).trans (if_pos (by omega))

theorem driverAt_laneEmptied_other {m : Nat} (hm : m ≠ l) : driverAt (laneEmptied l s) m p = driverAt s m p :=
  (mget_mclear ..).trans (if_neg (by omega))

end

theorem laneEmptied_only (l : Nat) (s : State) : Only [.lmp, .out, .free] s (laneEmptied l s) := by
  intro part hpart
  cases part <;> simp [Part.same, laneEmptied] at hpart ⊢

theorem exec_lampDiscovery {l : Nat} {s : State} (hon : laneOn s.conf l = true) (hstate : s.pnl.state = .training)
    (htrained : s.pnl.trained = true) (hidle : aget s.lmp.probing l = none) :
    exec (.lampDiscovery l) s = .next (sendAssign l 0 false (laneEmptied l s)) := by
  simp only [exec, execLampDiscovery, hon, hstate, htrained, hidle, decide_true, Option.isNone_none, Bool.and_self, if_true]
  rfl

/-! ## LAMP_RETURN_FRAME -/

theorem exec_lampReturnFrame_bad {cs : List Nat} (h : (frameOf cs).filter frameGood = none) (l : Nat) (s : State) :
    exec (.lampReturnFrame l cs) s = .next { s with lmp := { s.lmp with crcRet := satAdd 0xFFFF s.lmp.crcRet 1 } } := by
  simp only [exec, execLampReturnFrame, h]

theorem exec_lampReturnFrame {cs : List Nat} {f : Bytes} {k : Nat} (hframe : frameOf cs = some f) (hgood : frameGood f = true)
    (htype : fieldAt (f.take (f.length - 4)) 1 1 = k) (l : Nat) (s : State) : exec (.lampReturnFrame l cs) s =
      .next (gotReturn l k (fieldAt (f.take (f.length - 4)) 0 1 % 16) ((f.take (f.length - 4)).drop 8) s) := by
  simp only [exec, execLampReturnFrame, hframe, Option.filter_some, hgood, if_true, htype]

section
variable {l p : Nat} {d : Bytes} {w : LampWait} {s : State}

/-- The frame that a search for a type and a position finds has them. -/
theorem kind_of_find {k : Nat} {ws : List LampWait} (h : ws.find? (fun x => x.type = k && x.pos = p) = some w) :
    w.type = k ∧ w.pos = p := by
  simpa using List.find?_some h

theorem gotReturn_echo (hecho : (waitsOn s l).find?
      (fun x => x.type = 0x01 && x.pos = p && d.length = 4 && leNat d = frameCrc x.frame) = some w) :
    gotReturn l 0x81 p d s = answered l p (dropWait l w s) := by
  simp only [gotReturn, hecho]

/-- An ECHO that bears the CRC of no frame awaited of its driver is a miss of the oldest of them. -/
theorem gotReturn_strayEcho (hstray : ∀ x ∈ waitsOn s l, x.type = 0x01 → x.pos = p → leNat d ≠ frameCrc x.frame)
    (hfirst : (waitsOn s l).find? (fun x => x.type = 0x01 && x.pos = p) = some w) :
    gotReturn l 0x81 p d s = missed l w (dropWait l w s) := by
  have hnone : (waitsOn s l).find? (fun x => x.type = 0x01 && x.pos = p && d.length = 4 && leNat d = frameCrc x.frame) = none := by
    simp only [List.find?_eq_none, Bool.and_eq_true, decide_eq_true_eq]
    rintro x hx ⟨⟨⟨htype, hpos⟩, -⟩, hcrc⟩
    exact hstray x hx htype hpos hcrc
  simp only [gotReturn, hnone, hfirst]

theorem gotReturn_status (hw : (waitsOn s l).find? (fun x => x.type = 0x04 && x.pos = p) = some w) (hlen : d.length = 32) :
    gotReturn l 0x82 p d s = gotLampStatus l w d (dropWait l w s) := by
  simp only [gotReturn, hw, hlen, if_true]

theorem gotReturn_found (hprobing : aget s.lmp.probing l = some p) (hd : fieldAt d 0 1 = p) :
    ∃ u, gotReturn l 0x83 p d s = driverFound l p u ∧ (u = s ∨ ∃ w, u = dropWait l w s) := by
  simp only [gotReturn, hprobing, hd, decide_true, Bool.and_self, if_true]
  split
  next w _ => exact ⟨_, rfl, .inr ⟨w, rfl⟩⟩
  next => exact ⟨_, rfl, .inl rfl⟩

theorem gotReturn_again (hidle : aget s.lmp.probing l = none)
    (hw : (waitsOn s l).find? (fun x => x.type = 0x03 && x.pos = p && x.again) = some w) : gotReturn l 0x83 p d s =
      welcome l p (setDriver l p { driverAt s l p with lost := false, misses := 0 } (dropWait l w s)) := by
  simp only [gotReturn, hidle, hw]
  rfl

end

/-! ## LAMP_ANSWER_TIMEOUT -/

section
variable {l : Nat} {w : LampWait} {rest : List LampWait} {s : State} (hwaits : waitsOn s l = w :: rest)
include hwaits

theorem waitsOn_dropOldest : waitsOn (dropWait l w s) l = rest := by
  rw [waitsOn_dropWait_same, hwaits, List.erase_cons_head]

theorem exec_lampAnswerTimeout (h : w.type ≠ 0x03) :
    exec (.lampAnswerTimeout l) s = .next (missed l w (dropWait l w s)) := by
  simp only [exec, execLampAnswerTimeout, hwaits, h, decide_false, Bool.false_and, Bool.false_eq_true, if_false]

theorem exec_lampAnswerTimeout_ends (htype : w.type = 0x03) (hfirst : w.again = false)
    (hprobing : aget s.lmp.probing l = some w.pos) :
    exec (.lampAnswerTimeout l) s = .next (endDiscovery l (dropWait l w s)) := by
  simp only [exec, execLampAnswerTimeout, hwaits, htype, hfirst, hprobing, decide_true, Bool.not_false, Bool.and_self, if_true]

end

/-! ## LAMP_REDISCOVER_TIMER -/

/-- A lost position is asked again: ASSIGN and STATUS_REQ. -/
def askAgain (l p : Nat) (s : State) : State := sendStatusReq l p true (sendAssign l p true s)

/-- The lost positions of a lane are asked again. -/
def askLost (l : Nat) (s : State) : State := forAll ((List.range 16).filter (fun p => (driverAt s l p).lost)) (askAgain l) s

theorem exec_lampRediscoverTimer (s : State) : exec .lampRediscoverTimer s = .next (forAll (lanesLive s) askLost s) := rfl

/-- ASSIGN and STATUS_REQ of frame `fe` have left for a position, and its STATUS is awaited. -/
def AskedAgain (fe l p : Nat) (t : State) : Prop :=
  (∃ rd, .lampChars l (code10s rd (frameChars (lampBytes fe true 0 0x03 (toLE 1 p)))) ∈ t.out) ∧
  (∃ rd, .lampChars l (code10s rd (frameChars (lampBytes fe false p 0x04 []))) ∈ t.out) ∧
  ∃ w ∈ waitsOn t l, w.type = 0x04 ∧ w.pos = p ∧ w.again = true

theorem askAgain_only (l p : Nat) (s : State) : Only [.lmp, .out, .free] s (askAgain l p s) :=
  only_trans (sendAssign_only l p s true) (sendStatusReq_only l p _ true)

theorem askLost_only (l : Nat) (s : State) : Only [.lmp, .out, .free] s (askLost l s) := forAll_only (askAgain_only l) _ s

theorem askAgain_drivers (l p : Nat) (s : State) : (askAgain l p s).lmp.drivers = s.lmp.drivers := by simp [askAgain]

theorem askLost_drivers (l : Nat) (s : State) : (askLost l s).lmp.drivers = s.lmp.drivers :=
  forAll_keeps (fun s => s.lmp.drivers) _ _ s (askAgain_drivers l)

theorem askAgain_sys (l p : Nat) (s : State) : (askAgain l p s).sys = s.sys := by simp [askAgain]

theorem askLost_sys (l : Nat) (s : State) : (askLost l s).sys = s.sys := forAll_keeps State.sys _ _ s (askAgain_sys l)

theorem mem_waitsOn_askAgain {m : Nat} {s : State} {w : LampWait} (h : w ∈ waitsOn s m) (l p : Nat) :
    w ∈ waitsOn (askAgain l p s) m := by
  rw [askAgain, waitsOn_sendStatusReq]
  apply mem_waitsOn_await
  rw [waitsOn_sendAssign]
  exact mem_waitsOn_await _ _ _ _ h

theorem askAgain_asks (l p : Nat) (s : State) : AskedAgain s.sys.fe l p (askAgain l p s) := by
  have hsys : (sendAssign l p true s).sys = s.sys := by simp
  have hout := sendStatusReq_out l p (sendAssign l p true s) true
  rw [hsys, sendAssign_out] at hout
  rw [AskedAgain, askAgain, hout, waitsOn_sendStatusReq, waitsOn_await_same]
  exact ⟨⟨_, List.mem_cons_of_mem _ List.mem_cons_self⟩, ⟨_, List.mem_cons_self⟩, _,
    List.mem_append_right _ (List.mem_singleton_self _), rfl, rfl, rfl⟩

theorem AskedAgain.after_askAgain {fe l p : Nat} {t : State} (h : AskedAgain fe l p t) (m q : Nat) :
    AskedAgain fe l p (askAgain m q t) := by
  have hout : ∀ x ∈ t.out, x ∈ (askAgain m q t).out := fun x hx => by simp [askAgain, hx]
  obtain ⟨⟨rd₁, hassign⟩, ⟨rd₂, hrequest⟩, w, hw, hkind⟩ := h
  exact ⟨⟨rd₁, hout _ hassign⟩, ⟨rd₂, hout _ hrequest⟩, w, mem_waitsOn_askAgain hw m q, hkind⟩

theorem AskedAgain.after_askLost {fe l p : Nat} {t : State} (h : AskedAgain fe l p t) (m : Nat) : AskedAgain fe l p (askLost m t) :=
  forAll_preserves (fun q _ hu => hu.after_askAgain m q) _ h

theorem askLost_asks {l p : Nat} {s : State} (hp : p < 16) (hlost : (driverAt s l p).lost = true) :
    AskedAgain s.sys.fe l p (askLost l s) :=
  forAll_reaches (I := fun u => u.sys = s.sys) (List.mem_filter.mpr ⟨List.mem_range.mpr hp, hlost⟩) rfl
    (fun q u hu => (askAgain_sys l q u).trans hu) (fun u hu => hu ▸ askAgain_asks l p u) (fun q _ hu => hu.after_askAgain l q)

/-- Every lost position of a lane that sends is asked again. -/
theorem lampRediscoverTimer_asks {l p : Nat} {s : State} (hl : l ∈ lanesLive s) (hp : p < 16)
    (hlost : (driverAt s l p).lost = true) : AskedAgain s.sys.fe l p (forAll (lanesLive s) askLost s) := by
  refine forAll_reaches (I := fun u => u.sys = s.sys ∧ u.lmp.drivers = s.lmp.drivers) hl ⟨rfl, rfl⟩ ?_ ?_
    (fun m _ hu => hu.after_askLost m)
  · exact fun m u ⟨hsys, hdrivers⟩ => ⟨(askLost_sys m u).trans hsys, (askLost_drivers m u).trans hdrivers⟩
  · rintro u ⟨hsys, hdrivers⟩
    rw [← hsys]
    exact askLost_asks hp (by rw [driverAt_congr hdrivers, hlost])

/-- Settles O50: each command is brought to the operations on drivers, waiting frames and zone reports that it makes, whose
rules say what reads as what; the right echo of a LEVELS frame and a stray one are told apart by the CRC search. -/
theorem lampDriversAnswerOrAreLost : Obligations.LampDriversAnswerOrAreLost := by
  refine ⟨?discovery, ?badCrc, ?echo, ?strayEcho, ?status, ?found, ?foundAgain, ?levelsMissed, ?levelsUnechoed, ?lost,
    ?discoveryEnds, ?rediscovery⟩
  case discovery =>
    intro l s hon hstate htrained hidle
    refine ⟨_, _, exec_lampDiscovery hon hstate htrained hidle, sendAssign_probing .., fun p hp => ?_, ?_, fun m p hm hp => ?_,
      sendAssign_out .., ?_⟩
    · rw [driverAt_sendAssign, driverAt_laneEmptied l hp]
    · rw [waitsOn_sendAssign, waitsOn_await_same, waitsOn_laneEmptied]
      rfl
    · rw [driverAt_sendAssign, driverAt_laneEmptied_other l hp s hm]
    · exact only_trans (laneEmptied_only l s) (sendAssign_only l 0 _ false)
  case badCrc => exact fun l cs s hbad => exec_lampReturnFrame_bad hbad l s
  case echo =>
    intro l cs f w s hframe hgood htype hecho
    obtain ⟨-, hpos⟩ : w.type = 0x01 ∧ w.pos = fieldAt (f.take (f.length - 4)) 0 1 % 16 := by
      have hfound := List.find?_some hecho
      simp only [Bool.and_eq_true, decide_eq_true_eq] at hfound
      obtain ⟨⟨hkind, -⟩, -⟩ := hfound
      exact hkind
    refine ⟨_, (exec_lampReturnFrame hframe hgood htype l s).trans (congrArg _ (gotReturn_echo hecho)), ?_, ?_, rfl, ?_⟩
    · exact (waitsOn_setDriver ..).trans (waitsOn_dropWait_same ..)
    · rw [← hpos]
      exact driverAt_setDriver_same ..
    · exact only_trans (dropWait_only l w s) (setDriver_only l _ _ _)
  case strayEcho =>
    intro l cs f w s hframe hgood htype hstray hpos hfirst hresent
    obtain ⟨hlevels, -⟩ := kind_of_find hfirst
    obtain ⟨hcount, hwaits, rd, hout⟩ := missed_levels_resends l (dropWait l w s) hlevels hresent
    have hexec := exec_lampReturnFrame hframe hgood htype l s
    rw [hpos, gotReturn_strayEcho hstray hfirst] at hexec
    refine ⟨_, rd, hexec, hcount, hwaits.trans (congrArg (· ++ _) (waitsOn_dropWait_same ..)), ?_, ?_⟩
    · exact hout ▸ List.mem_cons_self
    · exact only_after_dropWait (by decide) (missed_only l _ w)
  case status =>
    rintro l _ cs f w s hframe hgood htype rfl hw hlen
    have hexec := exec_lampReturnFrame hframe hgood htype l s
    rw [gotReturn_status hw hlen] at hexec
    obtain ⟨-, hpos⟩ := kind_of_find hw
    rw [← hpos]
    have hdriver := driverAt_gotLampStatus l w ((f.take (f.length - 4)).drop 8) (dropWait l w s)
    refine ⟨_, hexec, by rw [hdriver], by rw [hdriver], by rw [hdriver],
      (waitsOn_gotLampStatus ..).trans (waitsOn_dropWait_same ..), fun c hc hown => ?_, ?_, ?_⟩
    · rw [gotLampStatus_gz]
      exact statusTaken_reports l w _ (dropWait l w s) hown hc
    · exact gotLampStatus_posts l w _ (dropWait l w s)
    · exact only_after_dropWait (by decide) (gotLampStatus_only l w _ _)
  case found =>
    rintro l p cs f s hframe hgood htype hpos hprobing hd hnext
    have hexec := exec_lampReturnFrame hframe hgood htype l s
    obtain ⟨u, hfound, hu⟩ := gotReturn_found hprobing hd
    have honly : Only [.lmp, .out, .free] s u := by
      obtain rfl | ⟨w, rfl⟩ := hu
      · exact only_refl _ _
      · exact only_mono (by decide) (dropWait_only l w s)
    have hsys : u.sys = s.sys := honly .sys (by decide)
    rw [hpos, hfound] at hexec
    obtain ⟨hdriver, hprobes, ⟨rd, hout⟩, hrest⟩ := driverFound_next hnext l u
    rw [hsys] at hout
    exact ⟨_, rd, hexec, hdriver, hprobes, hout, only_trans honly hrest⟩
  case foundAgain =>
    rintro l p cs f w s hframe hgood htype hpos hidle hw
    have hexec := exec_lampReturnFrame hframe hgood htype l s
    rw [hpos, gotReturn_again hidle hw] at hexec
    refine ⟨_, hexec, ?_, ?_, fun hunmapped => ?_, ?_⟩
    · rw [driverAt_welcome, driverAt_setDriver_same]
    · rw [waitsOn_welcome, waitsOn_setDriver, waitsOn_dropWait_same]
    · rw [welcome_unmapped]
      · exact ⟨_, List.mem_cons_self⟩
      · exact hunmapped
    · exact only_after_dropWait (by decide)
        (only_trans (only_mono (by decide) (setDriver_only l p _ _)) (only_mono (by decide) (welcome_only l p _)))
  case levelsMissed =>
    intro l w rest s hwaits htype hresent hlive hmisses
    have hexec := exec_lampAnswerTimeout hwaits (by simp [htype])
    rw [missed_levels_counts l (dropWait l w s) htype hresent hlive hmisses] at hexec
    refine ⟨_, _, hexec, rfl, ?_, ?_, lampOut_out .., ?_⟩
    · rw [driverAt_await, driverAt_lampOut, driverAt_setDriver_same, driverAt_dropWait]
    · rw [waitsOn_await_same, waitsOn_lampOut, waitsOn_setDriver, waitsOn_echoMissed, waitsOn_dropOldest hwaits]
    · exact only_after_dropWait (by decide) (resent_only l _ _)
  case levelsUnechoed =>
    intro l w rest s hwaits htype hresent
    obtain ⟨hcount, hrest, hunechoed⟩ := missed_levels_again l (dropWait l w s) htype hresent
    exact ⟨_, exec_lampAnswerTimeout hwaits (by simp [htype]), hcount, hrest.trans (waitsOn_dropOldest hwaits), hunechoed,
      only_after_dropWait (by decide) (missed_only l _ w)⟩
  case lost =>
    intro l w rest s hwaits htype hlive hmisses
    have hexec := exec_lampAnswerTimeout hwaits (by simp [htype])
    rw [missed_status l _ htype] at hexec
    obtain ⟨hlost, hzones, hposts, outcome, hlogs⟩ := countMiss_loses (s := dropWait l w s) hlive hmisses
    exact ⟨_, outcome, hexec, hlost, (waitsOn_countMiss ..).trans (waitsOn_dropOldest hwaits), hzones, hposts,
      Eq.trans hlogs (logFault_lin_congr (s := s) (t := dropWait l w s) rfl rfl ..),
      only_after_dropWait (by decide) (countMiss_only l w.pos _)⟩
  case discoveryEnds =>
    intro l w rest s hwaits htype hfirst hprobing
    refine ⟨_, exec_lampAnswerTimeout_ends hwaits htype hfirst hprobing, endDiscovery_probing .., ?_,
      endDiscovery_posts l (dropWait l w s), only_after_dropWait (by decide) (endDiscovery_only l _)⟩
    exact fun p hp hpresent hunfound z hz =>
      endDiscovery_reports l (dropWait l w s) (mem_missingOn hp hpresent hunfound) hz
  case rediscovery =>
    intro l p s hl hp hlost
    obtain ⟨hassign, hrequest, hawaits⟩ := lampRediscoverTimer_asks hl hp hlost
    exact ⟨_, exec_lampRediscoverTimer s, hassign, hrequest, hawaits, forAll_only askLost_only _ s⟩

end Sys2Proof.Proofs
end

section
/-!
The rails' monitors and steps (R229 to R231): what a sample leaves in the monitors, and how a step of the power-on sequence
completes.
-/
namespace Sys2Proof.Proofs
open Sys2Proof Sys2Proof.Machine Sys2Proof.Laws

/-! ## Monitors (R229) -/

/-- A fold that writes each key below n from what the key holds. -/
theorem mget_foldl_range {α : Type} [DecidableEq α] (d : α) (f : Nat → α → α) (n : Nat) (m : SMap α) (k : Nat) :
    mget d ((List.range n).foldl (fun m k => mput d k (f k (mget d m k)) m) m) k =
      if k < n then f k (mget d m k) else mget d m k := by
  induction n with
  | zero => rfl
  | succ n ih =>
    rw [List.range_succ, List.foldl_append, List.foldl_cons, List.foldl_nil, mget_mput]
    by_cases hk : k = n
    · subst hk
      rw [if_pos rfl, ih, if_neg (Nat.lt_irrefl k), if_pos (Nat.lt_succ_self k)]
    · rw [if_neg hk, ih]
      simp only [Nat.lt_succ_iff_lt_or_eq, hk, or_false]

/-- A monitor when it has taken a sample. -/
def takeSample (codes : List Microvolts) (k : Nat) (d : Dvm) : Dvm :=
  { samples := (dvmCode (codes.getD k 0) :: d.samples).take 4 }

/-- The monitors when every one has taken its sample; irreducible, so that nothing runs the fold to compare two states. -/
@[irreducible] def sampledDvm (codes : List Microvolts) (s : State) : SMap Dvm :=
  (List.range 12).foldl (fun m k => mput {} k (takeSample codes k (mget {} m k)) m) s.pnl.dvm

/-- The state when every monitor has taken its sample. -/
def sampled (codes : List Microvolts) (s : State) : State := { s with pnl := { s.pnl with dvm := sampledDvm codes s } }

theorem samplesOf_sampled (codes : List Microvolts) (s : State) {k : Nat} (hk : k < 12) :
    samplesOf (sampled codes s) k = (dvmCode (codes.getD k 0) :: samplesOf s k).take 4 := by
  rw [samplesOf, sampled, sampledDvm, mget_foldl_range, if_pos hk]
  rfl

theorem lt_of_mem_checkedMonitors {s : State} {k : Nat} (h : k ∈ checkedMonitors s) : k < 12 := by
  simp only [checkedMonitors, monitors, List.mem_filter, List.mem_range] at h
  exact h.1.1

theorem nodup_checkedMonitors (s : State) : (checkedMonitors s).Nodup := (List.nodup_range.filter _).filter _

/-- The checked monitors that a sample finds out of window (R233). -/
def failing (codes : List Microvolts) (s : State) : List Nat :=
  (checkedMonitors s).filter (fun m => ((dvmCode (codes.getD m 0) :: samplesOf s m).take 4).length = 4
    && ((dvmCode (codes.getD m 0) :: samplesOf s m).take 4).all (fun v => !(inside s m v)))

theorem mem_checkedMonitors_of_failing {codes : List Microvolts} {s : State} {k : Nat} (h : k ∈ failing codes s) :
    k ∈ checkedMonitors s := (List.mem_filter.mp h).1

theorem outOfWindow_sampled (codes : List Microvolts) (s : State) :
    (checkedMonitors (sampled codes s)).filter (outOfWindow (sampled codes s)) = failing codes s := by
  refine List.filter_congr fun m hm => ?_
  rw [outOfWindow, samplesOf_sampled codes s (lt_of_mem_checkedMonitors hm)]
  rfl

/-- A sample inside its window keeps its monitor from being out of window. -/
theorem failing_eq_nil {codes : List Microvolts} {s : State}
    (h : ∀ k ∈ checkedMonitors s, inside s k (dvmCode (codes.getD k 0)) = true) : failing codes s = [] := by
  refine List.filter_eq_nil_iff.mpr fun k hk => ?_
  have hin : ((dvmCode (codes.getD k 0) :: samplesOf s k).take 4).all (fun v => !(inside s k v)) = false :=
    List.all_eq_false.mpr ⟨_, List.mem_cons_self, by rw [h k hk]; decide⟩
  rw [hin, Bool.and_false]
  exact Bool.false_ne_true

theorem pnl_only (p : Pnl) (s : State) : Only [.pnl] s { s with pnl := p } := by
  intro part hpart
  cases part <;> simp [Part.same] at hpart ⊢

theorem skipFree_only (n : Nat) (s : State) : Only [.free] s (skipFree n s) := by
  intro part hpart
  cases part <;> simp [Part.same] at hpart ⊢

theorem sampled_only (codes : List Microvolts) (s : State) : Only [.pnl] s (sampled codes s) := pnl_only _ s

/-! ## Steps of the power-on sequence (R230, R231) -/

theorem railsReady_of_state {s : State} (h : s.pnl.state ≠ .poweringOn) : railsReady s = s := by
  simp [railsReady, h]

theorem railsReady_of_step {s : State} (h : s.pnl.step < 8) : railsReady s = s := by
  simp [railsReady, Nat.ne_of_lt h]

/-- With every step done and every monitor in window panel-on begins, unless BOOT waits for VIN good (R231, R49). -/
theorem railsReady_last {s : State} (hstate : s.pnl.state = .poweringOn) (hstep : s.pnl.step = 8)
    (hin : (monitors s).all (inWindow s) = true) : (railsReady s).pnl.state =
      if s.sys.mode = .boot ∧ s.sys.bootHeld = true then .poweringOn else .training := by
  by_cases hheld : s.sys.mode = .boot ∧ s.sys.bootHeld = true
  · simp [railsReady, hheld, hstate]
  · have hfree : (decide (s.sys.mode = .boot) && s.sys.bootHeld) = false := by simpa using hheld
    simp [railsReady, hstate, hstep, hin, hheld, hfree]

theorem railsReady_step (s : State) : (railsReady s).pnl.step = s.pnl.step := by
  unfold railsReady
  split <;> rfl

theorem railsReady_only (s : State) : Only [.pnl] s (railsReady s) := by
  intro part hpart
  cases part <;> simp [Part.same] at hpart ⊢

@[simp] theorem setPens_pnl (v : BitVec 8) (s : State) : (setPens v s).pnl = { s.pnl with pens := v } := by
  unfold setPens
  split
  next h => rw [h]
  next => rfl

theorem setPens_only (v : BitVec 8) (s : State) : Only [.pnl, .out] s (setPens v s) := by
  intro part hpart
  cases part <;> simp [Part.same] at hpart ⊢

/-- The state when the step in progress is done, and the next used one begins. -/
def stepDone (s : State) : State :=
  { s with pnl := { s.pnl with step := usedStep s (s.pnl.step + 1), asserted := false
                               checkedSteps := s.pnl.checkedSteps ||| BitVec.ofNat 8 (2 ^ s.pnl.step) } }

theorem completeStep_of_state {s : State} (h : s.pnl.state ≠ .poweringOn) : completeStep s = s := by
  simp [completeStep, h, railsReady_of_state]

section
variable {s : State} (hstep : s.pnl.step < 8)
include hstep

theorem completeStep_waits (hout : (monitorsOf s s.pnl.step).all (inWindow s) = false) : completeStep s = s := by
  simp only [completeStep, hout, Bool.and_false, Bool.false_eq_true, if_false]
  exact railsReady_of_step hstep

theorem completeStep_done (hstate : s.pnl.state = .poweringOn) (hasserted : s.pnl.asserted = true)
    (hin : (monitorsOf s s.pnl.step).all (inWindow s) = true) : completeStep s = railsReady (stepDone s) := by
  rw [completeStep]
  exact if_pos (by simp [hstate, hasserted, hstep, hin])

end

/-- A step's monitors are among the enabled ones. -/
theorem monitorsOf_inWindow {s : State} (h : (monitors s).all (inWindow s) = true) (k : Nat) :
    (monitorsOf s k).all (inWindow s) = true :=
  List.all_eq_true.mpr fun m hm => List.all_eq_true.mp h m (List.mem_filter.mp hm).1

/-- The state when the enable of the step in progress has been asserted (R230 item 2). -/
def enableAsserted (s : State) : State :=
  setPens (s.pnl.pens ||| BitVec.ofNat 8 (2 ^ fget s.conf (PNL_SEQ_PEN s.pnl.step)))
    { s with pnl := { s.pnl with asserted := true } }

theorem enableAsserted_pnl (s : State) : (enableAsserted s).pnl = { s.pnl with
    asserted := true, pens := s.pnl.pens ||| BitVec.ofNat 8 (2 ^ fget s.conf (PNL_SEQ_PEN s.pnl.step)) } := setPens_pnl ..

theorem enableAsserted_only (s : State) : Only [.pnl, .out] s (enableAsserted s) :=
  only_trans (only_mono (by decide) (pnl_only _ s)) (setPens_only _ _)

/-- Whether monitors are in window rests on the configuration and their samples alone. -/
theorem inWindow_congr {s t : State} (hconf : t.conf = s.conf) (hdvm : t.pnl.dvm = s.pnl.dvm) : inWindow t = inWindow s := by
  have hinside : inside t = inside s := by
    funext k v
    rw [inside, hconf, inside]
  funext k
  rw [inWindow, hinside, samplesOf, hdvm, inWindow, samplesOf]

theorem monitors_congr {s t : State} (hconf : t.conf = s.conf) : monitors t = monitors s := by
  rw [monitors, hconf, monitors]

theorem monitorsOf_congr {s t : State} (hconf : t.conf = s.conf) (k : Nat) : monitorsOf t k = monitorsOf s k := by
  rw [monitorsOf, monitors_congr hconf, hconf, monitorsOf]

theorem usedStep_congr {s t : State} (hconf : t.conf = s.conf) (k : Nat) : usedStep t k = usedStep s k := by
  rw [usedStep, hconf, usedStep]

theorem enableAsserted_conf (s : State) : (enableAsserted s).conf = s.conf := by simp [enableAsserted]

theorem inWindow_enableAsserted (s : State) : inWindow (enableAsserted s) = inWindow s :=
  inWindow_congr (enableAsserted_conf s) (by rw [enableAsserted_pnl])

end Sys2Proof.Proofs
end

section
/-!
Rail faults and the power-off sequence that they begin or find in progress (R232, R233).
-/
namespace Sys2Proof.Proofs
open Sys2Proof Sys2Proof.Machine Sys2Proof.Laws

/-! ## Events in a row -/

/-- Posting an event leaves what the host has set up of its ring. -/
theorem postTo_eqSetup (fn : Fn) (v : Ev) (s : State) : eqSetup (eqOf (postTo fn v s).rings fn) = eqSetup (eqOf s.rings fn) := by
  unfold postTo
  split
  · rfl
  · split
    · simp [writeEvent_eqSetup]
    · have hheld : eqSetup (holdEvent v (eqOf s.rings fn)) = eqSetup (eqOf s.rings fn) := by
        unfold holdEvent
        split <;> rfl
      rw [← hheld]
      unfold eventWake
      (repeat' split) <;> simp

theorem eventsFlow_congr {s t : State} {fn : Fn} (heq : eqSetup (eqOf t.rings fn) = eqSetup (eqOf s.rings fn))
    (hsend : canSend t fn = canSend s fn) : eventsFlow t fn = eventsFlow s fn := by
  have henable : (eqSetup (eqOf t.rings fn)).enable = (eqSetup (eqOf s.rings fn)).enable := by rw [heq]
  change (eqOf t.rings fn).enable = (eqOf s.rings fn).enable at henable
  rw [eventsFlow, henable, hsend, eventsFlow]

/-- Events posted after others come after them. -/
theorem posts_append {s t u : State} {l m : List Ev} (hst : Posts s t l) (htu : Posts t u m) (hfall : t.pwr.fall = s.pwr.fall)
    (hflow : eventsFlow t .pf0 = eventsFlow s .pf0) : Posts s u (l ++ m) := by
  intro hidle hheld hroom
  rw [List.length_append] at hroom
  have hpend := hst hidle hheld (by omega)
  rw [htu (hfall.trans hidle) (hflow.trans hheld) (by rw [hpend, List.length_append]; omega), hpend, List.append_assoc]

/-! ## A power-off begins (R232) -/

/-- The panel's state when its power-off begins. -/
theorem beginPowerOff_pnl {s : State} (h : railsLive s = true) (reason : Nat) (restart : Bool) :
    (beginPowerOff reason restart s).pnl = { s.pnl with
      state := .poweringOff, discharging := true, offReason := reason, restart, trained := false, faulted := [] } := by
  have hlive : ¬ (s.pnl.state = .off ∨ s.pnl.state = .waiting ∨ s.pnl.state = .faultOff) := by
    rintro (hstate | hstate | hstate) <;> simp [railsLive, hstate] at h
  have hbegins : (s.pnl.state = .off || s.pnl.state = .waiting || s.pnl.state = .faultOff) = false := by
    simpa [not_or, and_assoc] using hlive
  simp only [beginPowerOff, hbegins, Bool.false_eq_true, if_false]
  split <;> simp

/-! ## A rail fault (R233) -/

/-- PNL_RETRY_COUNT allows one more power-on. -/
def retriesLeft (s : State) : Bool := decide (s.pnl.retries + 1 ≤ fget s.conf PNL_RETRY_COUNT)

/-- The panel's state when a rail fault is noted. -/
def faultNoted (mon step : Nat) (s : State) : Pnl :=
  { s.pnl with faultDvm := if mon = 0xFF then 15 else mon, faultStep := step
               retries := if retriesLeft s then s.pnl.retries + 1 else s.pnl.retries }

/-- The state when a rail fault has been noted, reported and recorded, before the power-off. -/
def faultReported (mon sample step : Nat) (s : State) : State :=
  let s1 := post 0x0A03 3 [mon, sample, step] { s with pnl := faultNoted mon step s }
  logFault 8 (freeNow s1 % 7) mon [sample, step] (skipFree 1 s1)

/-- The state when a rail fault has been taken: its monitor joins those that are not taken again. -/
def faultTaken (mon : Nat) (s : State) : State := { s with pnl := { s.pnl with faulted := s.pnl.faulted ++ [mon] } }

section
variable (mon sample step : Nat) (s : State)

theorem railFault_eq : railFault mon sample step s =
    faultTaken mon (railOff (retriesLeft s) (faultReported mon sample step s)) := by
  unfold railFault faultTaken faultReported faultNoted retriesLeft
  with_reducible rfl

@[simp] theorem faultReported_pnl : (faultReported mon sample step s).pnl = faultNoted mon step s := by
  simp [faultReported]

theorem faultReported_only : Only [.pnl, .rings, .hif, .lin, .out, .free] s (faultReported mon sample step s) := by
  intro part hpart
  cases part <;> simp [Part.same, faultReported] at hpart ⊢

/-- A rail fault posts its event and no other. -/
theorem railFault_posts : Posts s (railFault mon sample step s) [event s 0x0A03 3 [mon, sample, step]] := by
  refine posts_congr (posts_post (u := { s with pnl := faultNoted mon step s }) 0x0A03 3 [mon, sample, step] rfl rfl rfl rfl) ?_
  simp [railFault_eq, faultTaken, faultReported, eqOf]

theorem eventsFlow_railFault : eventsFlow (railFault mon sample step s) .pf0 = eventsFlow s .pf0 := by
  refine eventsFlow_congr ?_ (by simp [canSend, served, linkUp, busMaster])
  have hring : eqOf (railFault mon sample step s).rings .pf0 =
      eqOf (post 0x0A03 3 [mon, sample, step] { s with pnl := faultNoted mon step s }).rings .pf0 := by
    simp [railFault_eq, faultTaken, faultReported, eqOf]
  rw [hring]
  exact postTo_eqSetup ..

/-- A rail fault while no power-off runs begins one. -/
theorem railFault_begins (hlive : railsLive s = true) (hstate : s.pnl.state ≠ .poweringOff) :
    (railFault mon sample step s).pnl = { faultNoted mon step s with
      state := .poweringOff, discharging := true, offReason := 2, restart := retriesLeft s, trained := false
      faulted := [mon] } := by
  have hstate' : (faultReported mon sample step s).pnl.state ≠ .poweringOff := by simpa [faultNoted] using hstate
  have hlive' : railsLive (faultReported mon sample step s) = true := by simpa [railsLive, faultNoted] using hlive
  have hbegins : railOff (retriesLeft s) (faultReported mon sample step s) =
      beginPowerOff 2 (retriesLeft s) (faultReported mon sample step s) := if_pos hstate'
  rw [railFault_eq, hbegins]
  simp only [faultTaken, beginPowerOff_pnl hlive', faultReported_pnl, List.nil_append]

theorem railFault_only :
    Only [.hif, .rings, .lmp, .pnl, .twl, .lin, .trc, .out, .free] s (railFault mon sample step s) := by
  intro part hpart
  cases part <;> simp [Part.same] at hpart ⊢

end

section
variable {s : State} (hstate : s.pnl.state = .poweringOff)
include hstate

/-- A rail fault in a power-off in progress takes the place of its reason, or leaves it. -/
theorem railOff_goesOn (restart : Bool) : railOff restart s =
    if s.pnl.offReason = 0 then s
    else if s.pnl.offReason = 3 then (if s.pnl.faulted.isEmpty then lampsOff s else s)
    else if s.pnl.offReason = 2 then { s with pnl := { s.pnl with restart } }
    else lampsOff { s with pnl := { s.pnl with offReason := 2, restart } } := by
  rw [railOff, if_neg fun h => h hstate]

theorem railOff_goesOn_pnl (restart : Bool) : (railOff restart s).pnl = { s.pnl with
    offReason := (railOff restart s).pnl.offReason, restart := (railOff restart s).pnl.restart } := by
  rw [railOff_goesOn hstate]
  (repeat' split) <;> simp

theorem railOff_goesOn_only (restart : Bool) : Only [.pnl, .out, .free] s (railOff restart s) := by
  rw [railOff_goesOn hstate]
  intro part hpart
  cases part <;> simp [Part.same] at hpart ⊢

/-- A rail fault while a power-off runs leaves the sequence where it stands. -/
theorem railFault_goesOn (mon sample step : Nat) : (railFault mon sample step s).pnl = { faultNoted mon step s with
    offReason := (railFault mon sample step s).pnl.offReason
    restart := (railFault mon sample step s).pnl.restart
    faulted := s.pnl.faulted ++ [mon] } := by
  have hpnl := railOff_goesOn_pnl (s := faultReported mon sample step s) (by simpa [faultNoted] using hstate) (retriesLeft s)
  rw [railFault_eq]
  rw [faultReported_pnl] at hpnl
  simp only [faultTaken]
  rw [hpnl]
  rfl

theorem railFault_goesOn_only (mon sample step : Nat) :
    Only [.hif, .rings, .pnl, .lin, .lmp, .out, .free] s (railFault mon sample step s) := by
  have hstate' : (faultReported mon sample step s).pnl.state = .poweringOff := by simpa [faultNoted] using hstate
  rw [railFault_eq]
  exact only_trans (only_mono (by decide) (faultReported_only mon sample step s))
    (only_trans (only_mono (by decide) (railOff_goesOn_only hstate' _)) (only_mono (by decide) (pnl_only _ _)))

end

end Sys2Proof.Proofs
end

section
/-!
The commands of the power-on sequence and of the monitors (R229 to R231, R233), and the statement on them.
-/
namespace Sys2Proof.Proofs
open Sys2Proof Sys2Proof.Machine Sys2Proof.Laws

/-! ## Monitors out of window (R233) -/

/-- The last sample of a monitor, as its rail fault reports it. -/
def lastSample (s : State) (k : Nat) : Nat := (samplesOf s k).headD 0

/-- The step of a monitor, as its rail fault reports it. -/
def stepOf (s : State) (k : Nat) : Nat := fget s.conf (PNL_DVM_STEP k)

theorem checkRail_faults {k : Nat} {s : State} (hlive : railsLive s = true) (hchecked : k ∈ checkedMonitors s)
    (hnew : s.pnl.faulted.contains k = false) : checkRail k s = railFault k (lastSample s k) (stepOf s k) s :=
  if_pos (by simp only [hlive, List.contains_iff_mem.mpr hchecked, hnew, Bool.not_false, Bool.and_self])

theorem checkedMonitors_congr {s t : State} (hconf : t.conf = s.conf) (hsteps : t.pnl.checkedSteps = s.pnl.checkedSteps) :
    checkedMonitors t = checkedMonitors s := by
  rw [checkedMonitors, monitors_congr hconf, hconf, hsteps, checkedMonitors]

/-- Monitors `ks` found out of window in a power-off in progress have been taken, one after the other. -/
structure FaultsTaken (ks : List Nat) (s t : State) : Prop where
  state : t.pnl.state = .poweringOff
  faulted : t.pnl.faulted = s.pnl.faulted ++ ks
  newest : ∀ k, ks.getLast? = some k → t.pnl.faultDvm = k ∧ t.pnl.faultStep = stepOf s k
  checkedSteps : t.pnl.checkedSteps = s.pnl.checkedSteps
  dvm : t.pnl.dvm = s.pnl.dvm
  posts : Posts s t (ks.map (fun k => event s 0x0A03 3 [k, lastSample s k, stepOf s k]))
  flow : eventsFlow t .pf0 = eventsFlow s .pf0
  only : Only [.hif, .rings, .pnl, .lin, .lmp, .out, .free] s t

theorem FaultsTaken.nil {s : State} (hstate : s.pnl.state = .poweringOff) : FaultsTaken [] s s where
  state := hstate
  faulted := (List.append_nil _).symm
  newest := by simp
  checkedSteps := rfl
  dvm := rfl
  posts := posts_nil rfl
  flow := rfl
  only := only_refl _ s

/-- One more monitor is taken. -/
theorem FaultsTaken.append {ks : List Nat} {k : Nat} {s t : State} (h : FaultsTaken ks s t) (hchecked : k ∈ checkedMonitors s)
    (hnew : s.pnl.faulted.contains k = false) (hother : k ∉ ks) : FaultsTaken (ks ++ [k]) s (checkRail k t) := by
  have hconf : t.conf = s.conf := h.only .conf (by decide)
  have hsys : t.sys = s.sys := h.only .sys (by decide)
  have hpwr : t.pwr = s.pwr := h.only .pwr (by decide)
  have hlast : lastSample t k = lastSample s k := by rw [lastSample, samplesOf, h.dvm, lastSample, samplesOf]
  have hstep : stepOf t k = stepOf s k := by rw [stepOf, hconf, stepOf]
  have hmonitor : k ≠ 0xFF := by have := lt_of_mem_checkedMonitors hchecked; omega
  have hfault : checkRail k t = railFault k (lastSample s k) (stepOf s k) t := by
    rw [← hlast, ← hstep]
    refine checkRail_faults (by simp [railsLive, h.state]) ?_ ?_
    · rwa [checkedMonitors_congr hconf h.checkedSteps]
    · simpa [h.faulted, hother] using hnew
  have hevent : event s 0x0A03 3 [k, lastSample s k, stepOf s k] = event t 0x0A03 3 [k, lastSample s k, stepOf s k] := by
    rw [event, ← hsys, event]
  have hpnl := railFault_goesOn h.state k (lastSample s k) (stepOf s k)
  rw [hfault]
  refine ⟨?_, ?_, ?_, ?_, ?_, ?_, (eventsFlow_railFault ..).trans h.flow,
    only_trans h.only (railFault_goesOn_only h.state _ _ _)⟩
  · rw [hpnl]; exact h.state
  · rw [hpnl]; simp [h.faulted]
  · rw [hpnl]
    intro j hj
    obtain rfl : k = j := by simpa using hj
    exact ⟨if_neg hmonitor, rfl⟩
  · rw [hpnl]; exact h.checkedSteps
  · rw [hpnl]; exact h.dvm
  · rw [List.map_append, List.map_singleton, hevent]
    exact posts_append h.posts (railFault_posts _ _ _ _) (congrArg Pwr.fall hpwr) h.flow

/-- Checked monitors, none of them taken before, are taken in order. -/
theorem FaultsTaken.appendAll {done ks : List Nat} {s t : State} (h : FaultsTaken done s t) (hnodup : (done ++ ks).Nodup)
    (hchecked : ∀ k ∈ ks, k ∈ checkedMonitors s) (hnew : ∀ k ∈ ks, s.pnl.faulted.contains k = false) :
    FaultsTaken (done ++ ks) s (forAll ks checkRail t) := by
  induction ks generalizing done t with
  | nil => rwa [List.append_nil]
  | cons k ks ih =>
    obtain ⟨-, -, hdisjoint⟩ := List.nodup_append.mp hnodup
    have hnext := h.append (hchecked k List.mem_cons_self) (hnew k List.mem_cons_self)
      fun hk => hdisjoint k hk k List.mem_cons_self rfl
    rw [List.append_cons] at hnodup ⊢
    exact ih hnext hnodup (fun m hm => hchecked m (List.mem_cons_of_mem k hm)) (fun m hm => hnew m (List.mem_cons_of_mem k hm))

/-! ## The commands -/

/-- While the panel is not powering on a sample is taken, and what it finds out of window is a rail fault. -/
theorem exec_dvmSample {codes : List Microvolts} {s : State} (hstate : s.pnl.state ≠ .poweringOn) :
    exec (.dvmSample codes) s = .next (forAll (failing codes s) checkRail (sampled codes s)) := by
  have hidle : completeStep (sampled codes s) = sampled codes s := completeStep_of_state hstate
  have hexec : exec (.dvmSample codes) s = .next (forAll ((checkedMonitors (completeStep (sampled codes s))).filter
      (outOfWindow (completeStep (sampled codes s)))) checkRail (completeStep (sampled codes s))) := by
    unfold sampled sampledDvm
    rfl
  rw [hexec, hidle, outOfWindow_sampled]

section
variable (codes : List Microvolts) (s : State)

theorem lastSample_sampled {k : Nat} (hk : k < 12) : lastSample (sampled codes s) k = dvmCode (codes.getD k 0) := by
  rw [lastSample, samplesOf_sampled codes s hk, List.take_succ_cons, List.headD_cons]

theorem sampled_pnl : (sampled codes s).pnl = { s.pnl with dvm := (sampled codes s).pnl.dvm } := by
  rw [sampled]

theorem stepOf_sampled : stepOf (sampled codes s) = stepOf s := rfl

theorem checkedMonitors_sampled : checkedMonitors (sampled codes s) = checkedMonitors s := checkedMonitors_congr rfl rfl

theorem event_sampled (code sev : Nat) (p : List Nat) : event (sampled codes s) code sev p = event s code sev p := rfl

/-- Samples post nothing. -/
theorem posts_of_sampled {t : State} {l : List Ev} (h : Posts (sampled codes s) t l) : Posts s t l := h

end

/-- The one monitor that a sample finds out of window while no power-off runs is a rail fault. -/
theorem exec_dvmSample_fault {codes : List Microvolts} {k : Nat} {s : State} (hon : s.pnl.state = .on)
    (hnew : s.pnl.faulted.contains k = false) (hfailing : failing codes s = [k]) :
    exec (.dvmSample codes) s = .next (railFault k (dvmCode (codes.getD k 0)) (stepOf s k) (sampled codes s)) := by
  have hchecked : k ∈ checkedMonitors s := mem_checkedMonitors_of_failing (hfailing ▸ List.mem_singleton_self k)
  have hone : forAll [k] checkRail (sampled codes s) = checkRail k (sampled codes s) := rfl
  rw [exec_dvmSample (by simp [hon]), hfailing, hone, checkRail_faults,
    lastSample_sampled codes s (lt_of_mem_checkedMonitors hchecked), stepOf_sampled]
  · rw [railsLive, sampled_pnl]
    simp [hon]
  · rwa [checkedMonitors_sampled]
  · rwa [sampled_pnl]

/-- What a sample finds out of window in a power-off in progress is taken in order. -/
theorem dvmSample_taken {codes : List Microvolts} {s : State} (hstate : s.pnl.state = .poweringOff)
    (hnew : ∀ k ∈ failing codes s, s.pnl.faulted.contains k = false) :
    FaultsTaken (failing codes s) (sampled codes s) (forAll (failing codes s) checkRail (sampled codes s)) := by
  refine (FaultsTaken.nil ?_).appendAll (done := []) ?_ ?_ ?_
  · rwa [sampled_pnl]
  · exact (nodup_checkedMonitors s).filter _
  · rw [checkedMonitors_sampled]
    exact fun k hk => mem_checkedMonitors_of_failing hk
  · rwa [sampled_pnl]

theorem exec_powerOnStepDelay {s : State} (hstate : s.pnl.state = .poweringOn) (hasserted : s.pnl.asserted = false)
    (hstep : s.pnl.step < 8) : exec .powerOnStepDelay s = .next (completeStep (enableAsserted s)) := by
  have hexec : exec .powerOnStepDelay s = execPowerOnStepDelay s := rfl
  rw [hexec, execPowerOnStepDelay, if_pos (by simp [hstate, hasserted, hstep]), enableAsserted]

section
variable {s : State} (hstep : s.pnl.step < 8)
include hstep

theorem completeStep_enableAsserted_waits (hout : (monitorsOf s s.pnl.step).all (inWindow s) = false) :
    completeStep (enableAsserted s) = enableAsserted s := by
  apply completeStep_waits <;> rw [enableAsserted_pnl]
  · exact hstep
  · rwa [inWindow_enableAsserted, monitorsOf_congr (enableAsserted_conf s)]

theorem completeStep_enableAsserted_done (hstate : s.pnl.state = .poweringOn)
    (hin : (monitorsOf s s.pnl.step).all (inWindow s) = true) :
    completeStep (enableAsserted s) = railsReady (stepDone (enableAsserted s)) := by
  apply completeStep_done <;> rw [enableAsserted_pnl]
  · exact hstep
  · exact hstate
  · rwa [inWindow_enableAsserted, monitorsOf_congr (enableAsserted_conf s)]

end

/-- The panel's state when the step in progress has asserted its enable and is done. -/
theorem stepDone_enableAsserted_pnl {s : State} (hasserted : s.pnl.asserted = false) :
    (stepDone (enableAsserted s)).pnl = { s.pnl with
      step := usedStep s (s.pnl.step + 1)
      pens := s.pnl.pens ||| BitVec.ofNat 8 (2 ^ fget s.conf (PNL_SEQ_PEN s.pnl.step))
      checkedSteps := s.pnl.checkedSteps ||| BitVec.ofNat 8 (2 ^ s.pnl.step) } := by
  rw [stepDone, enableAsserted_pnl, usedStep_congr (enableAsserted_conf s), ← hasserted]

theorem stepDone_enableAsserted_only (s : State) : Only [.pnl, .out] s (stepDone (enableAsserted s)) :=
  only_trans (enableAsserted_only s) (only_mono (by decide) (pnl_only _ _))

theorem exec_powerOnStepTimeout {s : State} (hstate : s.pnl.state = .poweringOn) (hasserted : s.pnl.asserted = true)
    (hstep : s.pnl.step < 8) (htimeout : fget s.conf (PNL_SEQ_TIMEOUT s.pnl.step) ≠ 0) :
    exec .powerOnStepTimeout s = .next (railFault 0xFF (freeNow s % 4096) s.pnl.step (skipFree 1 s)) := by
  have hexec : exec .powerOnStepTimeout s = execPowerOnStepTimeout s := rfl
  rw [hexec, execPowerOnStepTimeout, if_pos (by simp [hstate, hasserted, hstep, htimeout])]

/-- The state when panel-on completes, before it is traced and reported (R231 item 4). -/
def panelComplete (s : State) : State :=
  { s with pnl := { s.pnl with state := .on }, lmp := { s.lmp with darkFrames := fget s.conf PNL_ON_DARK_FRAMES } }

theorem exec_panelOnDelay {s : State} (hstate : s.pnl.state = .training) (htrained : s.pnl.trained = true)
    (hprobing : s.lmp.probing = []) (ms : Nat) :
    exec (.panelOnDelay ms) s = .next (post 0x0A01 0 [ms] (trace1 5 (panelComplete s))) := by
  have hexec : exec (.panelOnDelay ms) s = execPanelOnDelay ms s := rfl
  rw [hexec, execPanelOnDelay, if_pos (by simp [hstate, htrained, hprobing]), panelComplete]

/-- Settles O46: a sample outside its window while the panel is up begins the power-off, and in a power-off each monitor is taken
after the ones before it; a step of the power-on sequence waits or is done, and the last one ends the sequence. -/
theorem railsRiseInOrderAndAreWatched : Obligations.RailsRiseInOrderAndAreWatched := by
  refine ⟨?inWindow, ?fault, ?faultInPowerOff, ?asserted, ?done, ?last, ?timeout, ?panelOn⟩
  case inWindow =>
    intro codes s hon hin
    have hexec := exec_dvmSample (codes := codes) (s := s) (by simp [hon])
    rw [failing_eq_nil hin] at hexec
    exact ⟨_, hexec, sampled_pnl codes s, fun k hk => samplesOf_sampled codes s hk, sampled_only codes s⟩
  case fault =>
    intro codes k s hon hnew hfailing
    have hpnl := railFault_begins k (dvmCode (codes.getD k 0)) (stepOf s k) (sampled codes s)
      (by rw [railsLive, sampled_pnl]; simp [hon]) (by rw [sampled_pnl]; simp [hon])
    have hchecked : k ∈ checkedMonitors s := mem_checkedMonitors_of_failing (hfailing ▸ List.mem_singleton_self k)
    have hmonitor : k ≠ 0xFF := by have := lt_of_mem_checkedMonitors hchecked; omega
    refine ⟨_, exec_dvmSample_fault hon hnew hfailing, ?_⟩
    rw [hpnl]
    refine ⟨rfl, rfl, rfl, rfl, if_neg hmonitor, rfl, rfl, ?_, ?_⟩
    · exact posts_of_sampled codes s (railFault_posts _ _ _ _)
    · exact only_trans (only_mono (by decide) (sampled_only codes s)) (railFault_only _ _ _ _)
  case faultInPowerOff =>
    rintro codes _ s hstate hnew rfl
    have htaken := dvmSample_taken hstate hnew
    refine ⟨_, exec_dvmSample (by simp [hstate]), htaken.state, htaken.faulted, htaken.newest, ?_,
      only_trans (only_mono (by decide) (sampled_only codes s)) htaken.only⟩
    have hevent : ∀ k ∈ failing codes s, event s 0x0A03 3 [k, dvmCode (codes.getD k 0), stepOf s k] =
        event (sampled codes s) 0x0A03 3 [k, lastSample (sampled codes s) k, stepOf (sampled codes s) k] := fun k hk => by
      rw [lastSample_sampled codes s (lt_of_mem_checkedMonitors (mem_checkedMonitors_of_failing hk)), event_sampled, stepOf_sampled]
    have hevents := List.map_congr_left hevent
    exact hevents ▸ posts_of_sampled codes s htaken.posts
  case asserted =>
    intro s hstate hasserted hstep hout
    refine ⟨_, exec_powerOnStepDelay hstate hasserted hstep, ?_⟩
    rw [completeStep_enableAsserted_waits hstep hout]
    exact ⟨enableAsserted_pnl s, enableAsserted_only s⟩
  case done =>
    intro s hstate hasserted hstep hin hnext
    have hpnl := stepDone_enableAsserted_pnl hasserted
    refine ⟨_, exec_powerOnStepDelay hstate hasserted hstep, ?_⟩
    rw [completeStep_enableAsserted_done hstep hstate hin, railsReady_of_step (by rwa [hpnl])]
    exact ⟨hpnl, stepDone_enableAsserted_only s⟩
  case last =>
    intro s hstate hasserted hstep hin hnext
    have hpnl := stepDone_enableAsserted_pnl hasserted
    have hconf : (stepDone (enableAsserted s)).conf = s.conf := stepDone_enableAsserted_only s .conf (by decide)
    have hsys : (stepDone (enableAsserted s)).sys = s.sys := stepDone_enableAsserted_only s .sys (by decide)
    refine ⟨_, exec_powerOnStepDelay hstate hasserted hstep, ?_⟩
    rw [completeStep_enableAsserted_done hstep hstate (monitorsOf_inWindow hin _), railsReady_last, railsReady_step, hpnl, hsys]
    · exact ⟨rfl, hnext, only_trans (stepDone_enableAsserted_only s) (only_mono (by decide) (railsReady_only _))⟩
    · rwa [hpnl]
    · rwa [hpnl]
    · rwa [monitors_congr hconf, inWindow_congr hconf (by rw [hpnl])]
  case timeout =>
    intro s hstate hasserted hstep htimeout
    have hpnl := railFault_begins 0xFF (freeNow s % 4096) s.pnl.step (skipFree 1 s) (by simp [railsLive, hstate])
      (by simp [hstate])
    refine ⟨_, freeNow s % 4096, exec_powerOnStepTimeout hstate hasserted hstep htimeout, ?_⟩
    rw [hpnl]
    exact ⟨rfl, rfl, rfl, railFault_posts 0xFF _ _ (skipFree 1 s),
      only_trans (only_mono (by decide) (skipFree_only 1 s)) (railFault_only _ _ _ (skipFree 1 s))⟩
  case panelOn =>
    intro ms s hstate htrained hprobing
    refine ⟨_, exec_panelOnDelay hstate htrained hprobing ms, ?_, ?_, ?_, ?_⟩
    · simp [panelComplete]
    · simp [panelComplete]
    · refine posts_post _ _ _ ?_ ?_ ?_ ?_ <;> simp [panelComplete, eventsFlow, canSend, served, linkUp, busMaster, eqOf]
    · intro part hpart
      cases part <;> simp [Part.same, panelComplete] at hpart ⊢

end Sys2Proof.Proofs
end

section
/-!
The power-off sequence (R232, R233, R54, R223): the discharge period's end, the release of the enables, and what follows the
last of them.
-/
namespace Sys2Proof.Proofs
open Sys2Proof Sys2Proof.Machine Sys2Proof.Laws

/-! ## The discharge period ends (R223) -/

/-- What holds of the default and of every value that a map over a sparse map makes holds of every read. -/
theorem mget_mmap_forall {α : Type} [DecidableEq α] {P : α → Prop} {d : α} {f : Nat → α → α} (hd : P d)
    (hf : ∀ i v, P (f i v)) (m : SMap α) (k : Nat) : P (mget d (mmap d f m) k) := by
  induction m with
  | nil => exact hd
  | cons p r ih =>
    rw [mmap]
    split
    · exact ih
    · rw [mget]
      split
      · exact hf ..
      · exact ih

theorem clearAccumulators_acc (s : State) (k : Nat) : (mget {} (clearAccumulators s).tmg.bands k).acc = 0 :=
  mget_mmap_forall (P := fun b => b.acc = 0) rfl (fun _ _ => rfl) s.tmg.bands k

theorem clearAccumulators_only (s : State) : Only [.tmg] s (clearAccumulators s) := by
  intro part hpart
  cases part <;> simp [Part.same] at hpart ⊢

/-- The state when the discharge period has ended and enables are still to be released. -/
def discharged (s : State) : State := clearAccumulators { s with pnl := { s.pnl with discharging := false } }

theorem discharged_pnl (s : State) : (discharged s).pnl = { s.pnl with discharging := false } := by simp [discharged]

theorem discharged_only (s : State) : Only [.pnl, .tmg] s (discharged s) :=
  only_trans (only_mono (by decide) (pnl_only _ s)) (only_mono (by decide) (clearAccumulators_only _))

theorem releaseOrder_discharged (s : State) : releaseOrder (discharged s) = releaseOrder s := by
  rw [releaseOrder, discharged_pnl, releaseOrder]

theorem endDischarge_releases {s : State} (hstate : s.pnl.state = .poweringOff) (hdischarging : s.pnl.discharging = true)
    (horder : releaseOrder s ≠ []) : endDischarge s = discharged s := by
  have hmore : ¬ (releaseOrder (discharged s)).isEmpty = true := by simpa [releaseOrder_discharged] using horder
  rw [endDischarge, if_pos (by simp [hstate, hdischarging])]
  exact if_neg hmore

/-! ## Enables are released in reverse order (R232 item 3) -/

theorem releaseStep_pnl (k : Nat) (s : State) : (releaseStep k s).pnl = { s.pnl with
    pens := s.pnl.pens &&& ~~~(BitVec.ofNat 8 (2 ^ fget s.conf (PNL_SEQ_PEN k)))
    checkedSteps := s.pnl.checkedSteps &&& ~~~(BitVec.ofNat 8 (2 ^ k))
    asserted := s.pnl.asserted && s.pnl.step ≠ k } := setPens_pnl ..

theorem releaseStep_only (k : Nat) (s : State) : Only [.pnl, .out] s (releaseStep k s) :=
  only_trans (only_mono (by decide) (pnl_only _ s)) (setPens_only _ _)

section
variable {s : State} {k : Nat} (hstate : s.pnl.state = .poweringOff) (hdischarged : s.pnl.discharging = false)
include hstate hdischarged

theorem releaseEnable_next {rest : List Nat} (horder : releaseOrder s = k :: rest) (hrest : rest ≠ []) :
    releaseEnable s = releaseStep k s := by
  rw [releaseEnable, if_pos (by simp [hstate, hdischarged]), horder]
  exact if_neg (by simpa using hrest)

theorem releaseEnable_last (horder : releaseOrder s = [k]) : releaseEnable s = endPowerOff (releaseStep k s) := by
  rw [releaseEnable, if_pos (by simp [hstate, hdischarged]), horder]
  rfl

end

/-! ## The panel is off (R232 item 4) -/

/-- The state when the last enable has been released and PANEL_OFF posted. -/
def panelOff (s : State) : State :=
  post 0x0A02 0 [offCode s] (trace1 5 (skipFree (if s.pnl.offReason < 4 then 0 else 1)
    (setPens 0 { s with pnl := { s.pnl with state := .off, checkedSteps := 0, asserted := false } })))

theorem endPowerOff_eq (s : State) : endPowerOff s =
    if s.pnl.offReason = 2 then
      { panelOff s with pnl := { (panelOff s).pnl with state := if s.pnl.restart then .waiting else .faultOff } }
    else if (s.pnl.offReason = 1 && s.pnl.restart) || (s.pnl.offReason = 4 && s.pnl.wanted) then beginPowerOn (panelOff s)
    else panelOff s := by
  unfold endPowerOff panelOff
  with_reducible rfl

@[simp] theorem panelOff_pnl (s : State) : (panelOff s).pnl =
    { s.pnl with state := .off, checkedSteps := 0, asserted := false, pens := 0 } := by simp [panelOff]

theorem panelOff_conf (s : State) : (panelOff s).conf = s.conf := by simp [panelOff]

theorem panelOff_only (s : State) : Only [.pnl, .trc, .rings, .hif, .out, .free] s (panelOff s) := by
  intro part hpart
  cases part <;> simp [Part.same, panelOff] at hpart ⊢

theorem offCode_of_lt {s : State} (h : s.pnl.offReason < 4) : offCode s = s.pnl.offReason := if_pos h

theorem panelOff_posts {s : State} (h : s.pnl.offReason < 4) : Posts s (panelOff s) [event s 0x0A02 0 [s.pnl.offReason]] := by
  rw [panelOff, offCode_of_lt h]
  refine posts_post _ _ _ ?_ ?_ ?_ ?_ <;> simp [eventsFlow, canSend, served, linkUp, busMaster, eqOf]

/-- The release of the last enable and the end of the power-off post PANEL_OFF and nothing else. -/
theorem panelOff_releaseStep_posts {s : State} (h : s.pnl.offReason < 4) (k : Nat) :
    Posts s (panelOff (releaseStep k s)) [event s 0x0A02 0 [s.pnl.offReason]] := by
  have hreason : (releaseStep k s).pnl.offReason = s.pnl.offReason := by rw [releaseStep_pnl]
  have hevent : event (releaseStep k s) 0x0A02 0 [s.pnl.offReason] = event s 0x0A02 0 [s.pnl.offReason] := by simp [event]
  have hposts := panelOff_posts (s := releaseStep k s) (by rwa [hreason])
  rw [hreason, hevent] at hposts
  refine posts_append (t := releaseStep k s) (l := []) (posts_nil ?_) hposts ?_ ?_ <;>
    simp [eventsFlow, canSend, served, linkUp, busMaster]

theorem panelOff_releaseStep_only (k : Nat) (s : State) :
    Only [.pnl, .trc, .rings, .hif, .out, .free] s (panelOff (releaseStep k s)) :=
  only_trans (only_mono (by decide) (releaseStep_only k s)) (panelOff_only _)

/-- The power-on sequence begins with its first used step. -/
theorem beginPowerOn_pnl {s : State} (hused : usedStep s 0 < 8) : (beginPowerOn s).pnl = { s.pnl with
    state := .poweringOn, step := usedStep s 0, asserted := false, checkedSteps := 0, trained := false, discharging := false
    faulted := [], pens := 0 } := by
  rw [beginPowerOn, railsReady_of_step] <;> simp [hused]

theorem beginPowerOn_eq0 (s : State) : eqOf (beginPowerOn s).rings .pf0 = eqOf s.rings .pf0 := by simp [eqOf]

theorem beginPowerOn_only (s : State) : Only [.pnl, .trc, .rings, .hif, .out, .free] s (beginPowerOn s) := by
  intro part hpart
  cases part <;> simp [Part.same] at hpart ⊢

/-- After the power-off of DORMANT, of a rail fault or of a watchdog reset the panel stays off, waiting for its retry if it has
one (R233). -/
theorem endPowerOff_stays {s : State} (h : s.pnl.offReason = 0 ∨ s.pnl.offReason = 2 ∨ s.pnl.offReason = 3) :
    endPowerOff s = { panelOff s with pnl := { (panelOff s).pnl with
      state := if s.pnl.offReason = 2 then (if s.pnl.restart then .waiting else .faultOff) else .off } } := by
  rw [endPowerOff_eq]
  have hoff : panelOff s = { panelOff s with pnl := { (panelOff s).pnl with state := .off } } := by
    have hstate : (panelOff s).pnl.state = .off := by simp
    rw [← hstate]
  rcases h with h | h | h
  · simpa [h] using hoff
  · simp [h]
  · simpa [h] using hoff

/-- After a seam's power-off the power-on sequence begins (R54). -/
theorem endPowerOff_restarts {s : State} (h : s.pnl.offReason = 1) (hrestart : s.pnl.restart = true) :
    endPowerOff s = beginPowerOn (panelOff s) := by
  simp [endPowerOff_eq, h, hrestart]

end Sys2Proof.Proofs
end

section
/-!
The commands of the power-off sequence, of the gate supply and of the event pins, and the statement on them (R232, R233, R421,
R218).
-/
namespace Sys2Proof.Proofs
open Sys2Proof Sys2Proof.Machine Sys2Proof.Laws

/-- With no transition under way the end of a power-off settles no reset. -/
theorem settleReset_none {s t : State} (hsys : t.sys = s.sys) (h : s.sys.transit = none) : settleReset t = t :=
  settleReset_not_coming (by rw [bootComes, hsys, h]; rfl)

theorem exec_dischargePeriodEnd {s : State} (htransit : s.sys.transit = none) :
    exec .dischargePeriodEnd s = .next (endDischarge s) :=
  congrArg Host.Outcome.next (settleReset_none (by simp) htransit)

theorem exec_panelEnableRelease {s : State} (htransit : s.sys.transit = none) :
    exec .panelEnableRelease s = .next (releaseEnable s) :=
  congrArg Host.Outcome.next (settleReset_none (by simp) htransit)

theorem exec_railRetryDelay {s : State} (hstate : s.pnl.state = .waiting) :
    exec .railRetryDelay s = .next (beginPowerOn s) := congrArg Host.Outcome.next (if_pos hstate)

theorem exec_railRetryReset {s : State} (hstate : s.pnl.state = .on) :
    exec .railRetryReset s = .next { s with pnl := { s.pnl with retries := 0 } } := congrArg Host.Outcome.next (if_pos hstate)

theorem tmg_only (t : Tmg) (s : State) : Only [.tmg] s { s with tmg := t } := by
  intro part hpart
  cases part <;> simp [Part.same] at hpart ⊢

/-! ## Event pins (R218) -/

/-- One bit of a 4-bit register is cleared, and the others stay. -/
theorem getLsbD_clear {pin i : Nat} (hi : i < 4) (v : BitVec 4) :
    (v &&& ~~~(BitVec.ofNat 4 (2 ^ pin))).getLsbD i = (v.getLsbD i && i ≠ pin) := by
  have hbit : (BitVec.ofNat 4 (2 ^ pin)).getLsbD i = decide (pin = i) := by
    rw [BitVec.getLsbD_ofNat, Nat.testBit_two_pow, decide_eq_true hi, Bool.true_and]
  rw [BitVec.getLsbD_and, BitVec.getLsbD_not, hbit, decide_eq_true hi, Bool.true_and]
  simp [eq_comm]

/-- The state when a pulse of a pin has ended. -/
def pulseEnded (pin : Nat) (s : State) : State :=
  emit [.evPin pin (!(s.tmg.evPol.getLsbD pin))]
    { s with tmg := { s.tmg with evPins := s.tmg.evPins &&& ~~~(BitVec.ofNat 4 (2 ^ pin)) } }

theorem exec_evPinPulseEnd (pin : Nat) (s : State) :
    exec (.evPinPulseEnd pin) s = .next (if s.tmg.evPins.getLsbD pin then pulseEnded pin s else s) := rfl

theorem pulseEnded_only (pin : Nat) (s : State) : Only [.tmg, .out] s (pulseEnded pin s) := by
  intro part hpart
  cases part <;> simp [Part.same, pulseEnded] at hpart ⊢

/-- Settles O47: with no transition under way a command of the power-off sequence is the operation on the rails that it names, and
what follows the last enable's release turns on the reason of the power-off. -/
theorem railsFallInReverse : Obligations.RailsFallInReverse := by
  refine ⟨?discharge, ?release, ?off, ?seam, ?retry, ?retriesCleared, ?gateSupply, ?pulse⟩
  case discharge =>
    intro s hstate hdischarging htransit horder
    refine ⟨_, exec_dischargePeriodEnd htransit, ?_⟩
    rw [endDischarge_releases hstate hdischarging horder]
    exact ⟨discharged_pnl s, clearAccumulators_acc _, discharged_only s⟩
  case release =>
    intro k rest s hstate hdischarged htransit horder hrest
    refine ⟨_, exec_panelEnableRelease htransit, ?_⟩
    rw [releaseEnable_next hstate hdischarged horder hrest]
    exact ⟨releaseStep_pnl k s, releaseStep_only k s⟩
  case off =>
    intro k s hstate hdischarged htransit horder hreason
    have hlast := releaseStep_pnl k s
    have hlt : s.pnl.offReason < 4 := by omega
    refine ⟨_, exec_panelEnableRelease htransit, ?_⟩
    rw [releaseEnable_last hstate hdischarged horder, endPowerOff_stays (by rwa [hlast]), panelOff_pnl, hlast]
    exact ⟨rfl, rfl, rfl, posts_congr (panelOff_releaseStep_posts hlt k) rfl,
      only_trans (panelOff_releaseStep_only k s) (only_mono (by decide) (pnl_only _ _))⟩
  case seam =>
    intro k s hstate hdischarged htransit horder hreason hrestart hused
    have hlast := releaseStep_pnl k s
    have hposts := panelOff_releaseStep_posts (by omega : s.pnl.offReason < 4) k
    rw [hreason] at hposts
    have hsteps : usedStep (panelOff (releaseStep k s)) 0 = usedStep s 0 := usedStep_congr (by simp [panelOff_conf]) 0
    refine ⟨_, exec_panelEnableRelease htransit, ?_⟩
    rw [releaseEnable_last hstate hdischarged horder, endPowerOff_restarts (by rwa [hlast]) (by rwa [hlast]),
      beginPowerOn_pnl (by rwa [hsteps]), hsteps]
    exact ⟨rfl, rfl, rfl, rfl, posts_congr hposts (beginPowerOn_eq0 _),
      only_trans (panelOff_releaseStep_only k s) (beginPowerOn_only _)⟩
  case retry =>
    intro s hstate hused
    refine ⟨_, exec_railRetryDelay hstate, ?_⟩
    rw [beginPowerOn_pnl hused]
    exact ⟨rfl, rfl, rfl, rfl, rfl, beginPowerOn_only s⟩
  case retriesCleared => exact fun s hon => exec_railRetryReset hon
  case gateSupply =>
    intro mV s
    refine ⟨_, rfl, ?_, rfl, tmg_only _ s⟩
    simp only [Bool.and_eq_true, decide_eq_true_eq, Bool.not_eq_true', Bool.and_eq_false_iff, decide_eq_false_iff_not]
    omega
  case pulse =>
    intro pin s hpin
    refine ⟨_, exec_evPinPulseEnd pin s, ?_⟩
    cases hactive : s.tmg.evPins.getLsbD pin with
    | true => exact ⟨fun i hi => getLsbD_clear hi _, rfl, fun _ => List.mem_cons_self, pulseEnded_only pin s⟩
    | false =>
      refine ⟨fun i hi => ?_, rfl, by simp, only_refl _ s⟩
      by_cases hpin : i = pin
      · simp [hpin, hactive]
      · simp [hpin]

end Sys2Proof.Proofs
end

section
/-!
The rules of the Twill ports' state (R252, R253, R261): what ports and groups read as after each operation, which operations only
move frames and lanes, and when a frame goes out on the wire of its group.
-/
namespace Sys2Proof.Proofs
open Sys2Proof Sys2Proof.Machine Sys2Proof.Laws

/-! ## Ports and groups -/

section
variable (n g : Nat) (p : Port) (v : Group) (s : State)

@[simp] theorem portAt_setPort_same : portAt (setPort n p s) n = p := mget_mput_same ..

theorem portAt_setPort_other {m n : Nat} (h : m ≠ n) (p : Port) (s : State) : portAt (setPort n p s) m = portAt s m :=
  mget_mput_other _ _ _ h

@[simp] theorem portAt_setGroup : portAt (setGroup g v s) n = portAt s n := rfl

@[simp] theorem groupAt_setPort : groupAt (setPort n p s) g = groupAt s g := rfl

@[simp] theorem groupAt_setGroup_same : groupAt (setGroup g v s) g = v := mget_mput_same ..

theorem groupAt_setGroup_other {g h : Nat} (hg : h ≠ g) (v : Group) (s : State) :
    groupAt (setGroup g v s) h = groupAt s h := mget_mput_other _ _ _ hg

end

/-- A group but for its wire and its reference. -/
def groupSetup (v : Group) : Group := { v with wire := none, queue := [], reference := false }

/-- Between two states Twill may have moved frames and lanes: every port, what is set up of every group, and the training under
way are the same. -/
structure WiresOnly (s t : State) : Prop where
  port : ∀ n, portAt t n = portAt s n
  group : ∀ g, groupSetup (groupAt t g) = groupSetup (groupAt s g)
  training : t.twl.training = s.twl.training

/-- Between two states one port has been set, and every other port is the same. -/
structure PortPut (n : Nat) (p : Port) (s t : State) : Prop where
  same : portAt t n = p
  other : ∀ m, m ≠ n → portAt t m = portAt s m

/-- Between two states Twill has set a port, and else only moved frames and lanes. -/
structure PortSet (n : Nat) (p : Port) (s t : State) : Prop extends PortPut n p s t where
  group : ∀ g, groupSetup (groupAt t g) = groupSetup (groupAt s g)
  training : t.twl.training = s.twl.training

section
variable {s t u : State} {n g : Nat} {p q : Port}

theorem WiresOnly.refl (s : State) : WiresOnly s s := ⟨fun _ => rfl, fun _ => rfl, rfl⟩

theorem WiresOnly.trans (hst : WiresOnly s t) (htu : WiresOnly t u) : WiresOnly s u :=
  ⟨fun n => (htu.port n).trans (hst.port n), fun g => (htu.group g).trans (hst.group g), htu.training.trans hst.training⟩

theorem WiresOnly.of_twl (h : t.twl = s.twl) : WiresOnly s t :=
  ⟨fun n => by rw [portAt, h, portAt], fun g => by rw [groupAt, h, groupAt], by rw [h]⟩

theorem PortPut.kept (hst : PortPut n p s t) (htu : ∀ m, portAt u m = portAt t m) : PortPut n p s u :=
  ⟨(htu n).trans hst.same, fun m hm => (htu m).trans (hst.other m hm)⟩

theorem PortSet.wires (hst : PortSet n p s t) (htu : WiresOnly t u) : PortSet n p s u :=
  ⟨hst.kept htu.port, fun g => (htu.group g).trans (hst.group g), htu.training.trans hst.training⟩

theorem PortSet.trans (hst : PortSet n p s t) (htu : PortSet n q t u) : PortSet n q s u :=
  ⟨⟨htu.same, fun m hm => (htu.other m hm).trans (hst.other m hm)⟩, fun g => (htu.group g).trans (hst.group g),
    htu.training.trans hst.training⟩

theorem WiresOnly.sets (hst : WiresOnly s t) (htu : PortSet n p t u) : PortSet n p s u :=
  ⟨⟨htu.same, fun m hm => (htu.other m hm).trans (hst.port m)⟩, fun g => (htu.group g).trans (hst.group g),
    htu.training.trans hst.training⟩

theorem setPort_sets (n : Nat) (p : Port) (s : State) : PortSet n p s (setPort n p s) :=
  ⟨⟨portAt_setPort_same .., fun _ hm => portAt_setPort_other hm ..⟩, fun _ => rfl, rfl⟩

/-- The clock of a group and the use of its spare are set up. -/
theorem setup_of_groupSetup {v w : Group} (h : groupSetup v = groupSetup w) :
    v.noClock = w.noClock ∧ v.spareUsed = w.spareUsed ∧ v.spareLane = w.spareLane := by
  simp only [groupSetup, Group.mk.injEq] at h
  simp only [h, and_self]

theorem setGroup_wires {v : Group} (h : groupSetup v = groupSetup (groupAt s g)) : WiresOnly s (setGroup g v s) := by
  refine ⟨fun _ => rfl, fun k => ?_, rfl⟩
  by_cases hk : k = g
  · rw [hk, groupAt_setGroup_same, h]
  · rw [groupAt_setGroup_other hk]

theorem emit_wires (o : List Output) (s : State) : WiresOnly s (emit o s) := .of_twl rfl

theorem forAll_wires {α : Type} {f : α → State → State} (h : ∀ a s, WiresOnly s (f a s)) (l : List α) (s : State) :
    WiresOnly s (forAll l f s) := forAll_preserves (P := WiresOnly s) (fun a u hu => hu.trans (h a u)) l (.refl s)

end

/-! ## Lanes -/

section
variable (n g : Nat) (c : PortCfg) (s : State)

theorem setRun_wires (lane : Nat) (run : LaneRun) (s : State) : WiresOnly s (setRun lane run s) := by
  unfold setRun
  split
  · exact .refl s
  · exact ⟨fun _ => rfl, fun _ => rfl, rfl⟩

theorem startReference_wires : WiresOnly s (startReference g s) := by
  unfold startReference
  split
  · exact .refl s
  · exact (setGroup_wires (g := g) (v := { groupAt s g with reference := true }) rfl).trans
      ((emit_wires _ _).trans (forAll_wires (fun l => setRun_wires l .idle) _ _))

theorem idleLanes_wires : WiresOnly s (idleLanes c s) :=
  (startReference_wires c.group s).trans (forAll_wires (fun l => setRun_wires l _) _ _)

theorem trainLanes_wires : WiresOnly s (trainLanes n c s) :=
  forAll_wires (fun l u => WiresOnly.trans (t := skipFree 1 u) (.of_twl rfl) (setRun_wires l _ _)) _ s

theorem lanesFollow_wires : WiresOnly s (lanesFollow g s) := by
  unfold lanesFollow
  split
  · exact forAll_wires (fun l => setRun_wires l _) _ s
  · exact .refl s

theorem liveLanes_wires : WiresOnly s (liveLanes c s) :=
  (forAll_wires (fun l => setRun_wires l _) _ s).trans (lanesFollow_wires c.group _)

theorem idleFree_wires : WiresOnly s (idleFree g s) := by
  unfold idleFree
  split
  · exact forAll_wires (fun l => setRun_wires l _) _ s
  · exact .refl s

/-! ## The wire of a group (R252, R261) -/

theorem sendPattern_wires (lane pattern kind burst k : Nat) (s : State) :
    WiresOnly s (sendPattern lane pattern kind burst k s) :=
  WiresOnly.trans (t := skipFree 1 s) (.of_twl rfl) (setRun_wires lane _ _)

theorem patternDue_wires (body : Bytes) (s : State) : WiresOnly s (patternDue body s) := by
  unfold patternDue
  split
  · split
    · exact WiresOnly.trans (t := { s with twl := { s.twl with testRun := none } }) ⟨fun _ => rfl, fun _ => rfl, rfl⟩
        (sendPattern_wires ..)
    · exact .refl s
  · exact .refl s

theorem patternDue_other {body : Bytes} (h : fieldAt body 1 1 ≠ 0x09) (s : State) : patternDue body s = s := by
  unfold patternDue
  split
  · rw [if_neg h]
  · rfl

theorem wireNext_wires : WiresOnly s (wireNext g s) := by
  have hmoved : ∀ wire queue, WiresOnly s (setGroup g { groupAt s g with wire, queue } s) := fun _ _ => setGroup_wires rfl
  unfold wireNext
  dsimp only
  split
  · exact .refl s
  · split
    · split
      · exact (hmoved _ _).trans ((emit_wires _ _).trans (patternDue_wires _ _))
      · exact .refl s
    · split
      · exact hmoved _ _
      · exact .refl s

theorem wireOf_wires : WiresOnly s (wireOf n s) := by
  unfold wireOf
  split
  · exact wireNext_wires _ s
  · exact .refl s

end

theorem wireNext_busy {g : Nat} {s : State} (h : wireFree s g = false) : wireNext g s = s := by
  simp [wireNext, h]

/-- The only frame that waits for a free wire goes out. -/
theorem wireNext_sends {g n k : Nat} {b : Bytes} {s : State} (hfree : wireFree s g = true) (hqueue : (groupAt s g).queue = [n])
    (hwait : (portAt s n).wait = some (b, k)) : wireNext g s = patternDue b (emit [.backchannel g (bcWire b)]
      (setGroup g { groupAt s g with wire := some n, queue := [] } s)) := by
  simp [wireNext, hfree, hqueue, hwait]

/-! ## A frame is sent (R253) -/

@[simp] theorem bcBody_type (dst type : Nat) (payload : Bytes) : fieldAt (bcBody dst type payload) 1 1 = type % 256 := by
  simp [bcBody, fieldAt, toLE, leNat]

/-- A frame of a port waits for its group's wire. -/
def frameQueued (n : Nat) (c : PortCfg) (body : Bytes) (s : State) : State :=
  let gr := groupAt s c.group
  setGroup c.group { gr with wire := if gr.wire = some n then none else gr.wire, queue := gr.queue.filter (· ≠ n) ++ [n] }
    (setPort n { portAt s n with wait := some (body, 2) } s)

theorem frameQueued_sets (n : Nat) (c : PortCfg) (body : Bytes) (s : State) :
    PortSet n { portAt s n with wait := some (body, 2) } s (frameQueued n c body s) :=
  (setPort_sets n _ s).wires (setGroup_wires rfl)

theorem bcSend_only (n type : Nat) (payload : Bytes) (s : State) : Only [.twl, .out, .free] s (bcSend n type payload s) := by
  intro part hpart
  cases part <;> simp [Part.same] at hpart ⊢

theorem wireOf_only (n : Nat) (s : State) : Only [.twl, .out, .free] s (wireOf n s) := by
  intro part hpart
  cases part <;> simp [Part.same] at hpart ⊢

section
variable {n m type : Nat} {payload : Bytes} {c : PortCfg} {s : State} (hcfg : portCfg s.conf n = some c)
include hcfg

theorem bcSend_eq : bcSend n type payload s = wireNext c.group (frameQueued n c (bcBody c.addr type payload) s) := by
  simp only [bcSend, hcfg]
  rfl

theorem bcSend_sets : PortSet n { portAt s n with wait := some (bcBody c.addr type payload, 2) } s (bcSend n type payload s) := by
  rw [bcSend_eq hcfg]
  exact (frameQueued_sets n c _ s).wires (wireNext_wires _ _)

/-- On a wire that nobody holds or waits for, a frame goes out at once. -/
theorem bcSend_out (htype : type % 256 ≠ 0x09) (hwire : (groupAt s c.group).wire = none) (hqueue : (groupAt s c.group).queue = []) :
    (bcSend n type payload s).out = .backchannel c.group (bcWire (bcBody c.addr type payload)) :: s.out := by
  have hgroup : groupAt (frameQueued n c (bcBody c.addr type payload) s) c.group =
      { groupAt s c.group with wire := none, queue := [n] } := by simp [frameQueued, hwire, hqueue]
  rw [bcSend_eq hcfg, wireNext_sends (b := bcBody c.addr type payload) (k := 2) (n := n), patternDue_other (by rwa [bcBody_type])]
  · rfl
  · simp only [wireFree, hgroup]
  · rw [hgroup]
  · rw [(frameQueued_sets n c _ s).same]

/-- While another port's exchange holds the wire, a frame waits. -/
theorem bcSend_waits (hm : m ≠ n) (hwire : (groupAt s c.group).wire = some m) (hwait : (portAt s m).wait.isSome = true) :
    (bcSend n type payload s).out = s.out := by
  have hgroup : (groupAt (frameQueued n c (bcBody c.addr type payload) s) c.group).wire = some m := by
    simp [frameQueued, hwire, hm]
  rw [bcSend_eq hcfg, wireNext_busy]
  · rfl
  · simp only [wireFree, hgroup, (frameQueued_sets n c _ s).other m hm]
    simpa using hwait

end

end Sys2Proof.Proofs
end

section
/-!
Training of Twill ports (R255 to R261): a port begins at T0, with a PING or a SPARE_MAP, backs off, and fails; and training ends.
-/
namespace Sys2Proof.Proofs
open Sys2Proof Sys2Proof.Machine Sys2Proof.Laws

section
variable {s t : State} {n src code sev : Nat} {p : Port} {l : List Nat} {c : PortCfg}

theorem trace1_wires : WiresOnly s (trace1 src s) := .of_twl (by simp)

theorem post_wires : WiresOnly s (post code sev l s) := .of_twl (by simp)

/-! ## A port begins at T0 (Table 11.5) -/

/-- A port in T0. -/
def beginning (p : Port) : Port := { p with state := .phase 0, answered := false, lanes := [], phase := 0, reason := 0 }

/-- A port that begins T0 with a frame. -/
def begun (body : Bytes) (p : Port) : Port := { beginning p with wait := some (body, 2) }

/-- The frame that T0 begins with. -/
def firstFrame (s : State) (c : PortCfg) (initial : Bool) : Bytes :=
  if initial && holdsSpare s c then bcBody c.addr 0x0C (toLE 1 ((groupAt s c.group).spareLane - c.lane0)) else bcBody c.addr 0x01 []

section
variable (hcfg : portCfg s.conf n = some c) (hclock : (groupAt s c.group).noClock = false)
include hcfg hclock

theorem startT0_sets : PortSet n (begun (bcBody c.addr 0x01 []) (portAt s n)) s (startT0 n s) := by
  have hidle := (setPort_sets n { beginning (portAt s n) with wait := none } s).wires
    ((trace1_wires (src := 6)).trans (idleLanes_wires c _))
  have hsend := bcSend_sets (type := 0x01) (payload := []) (c := c) (by simpa using hcfg)
    (s := idleLanes c (trace1 6 (setPort n { beginning (portAt s n) with wait := none } s)))
  rw [hidle.same] at hsend
  simp only [startT0, hcfg, hclock, Bool.false_eq_true, if_false]
  exact hidle.trans hsend

theorem startOnSpare_sets : PortSet n (begun (bcBody c.addr 0x0C (toLE 1 ((groupAt s c.group).spareLane - c.lane0))) (portAt s n))
    s (startOnSpare n c s) := by
  have hidle := (setPort_sets n (beginning (portAt s n)) s).wires ((trace1_wires (src := 6)).trans (idleLanes_wires c _))
  have hsend := bcSend_sets (type := 0x0C) (payload := toLE 1 ((groupAt s c.group).spareLane - c.lane0)) (c := c)
    (by simpa using hcfg) (s := idleLanes c (trace1 6 (setPort n (beginning (portAt s n)) s)))
  rw [hidle.same] at hsend
  simp only [startOnSpare, hclock, Bool.false_eq_true, if_false, sendSpareMap]
  exact hidle.trans hsend

theorem trainPort_sets (initial : Bool) : PortSet n (begun (firstFrame s c initial) { portAt s n with tries := 0, initial })
    s (trainPort initial n s) := by
  have hset := setPort_sets n { portAt s n with tries := 0, initial } s
  have hconf : portCfg (setPort n { portAt s n with tries := 0, initial } s).conf n = some c := hcfg
  simp only [trainPort, hcfg, firstFrame]
  rw [show holdsSpare (setPort n { portAt s n with tries := 0, initial } s) c = holdsSpare s c from rfl]
  split
  · have hstart := startOnSpare_sets hconf hclock
    rw [hset.same] at hstart
    exact hset.trans hstart
  · have hstart := startT0_sets hconf hclock
    rw [hset.same] at hstart
    exact hset.trans hstart

end

theorem startT0_only (n : Nat) (s : State) : Only [.rings, .hif, .twl, .trc, .out, .free] s (startT0 n s) := by
  intro part hpart
  cases part <;> simp [Part.same] at hpart ⊢

/-! ## The end of training (R260) -/

theorem endTraining_idle (h : s.twl.training = false) (ms : Option Nat) : endTraining ms s = s := by
  simp [endTraining, h]

theorem endTraining_unfinished {q : Nat × PortCfg} (hq : q ∈ enabledPorts s.conf) (hphase : (portAt s q.1).state = .phase 0)
    (ms : Option Nat) : endTraining ms s = s := by
  have hall : (enabledPorts s.conf).all (fun p => (portAt s p.1).state = .active || (portAt s p.1).state = .failed) = false :=
    List.all_eq_false.mpr ⟨q, hq, by simp [hphase]⟩
  simp only [endTraining, hall, Bool.and_false, Bool.false_eq_true, if_false]

/-- The end of training leaves every port as it was. -/
theorem endTraining_port (ms : Option Nat) (s : State) (n : Nat) : portAt (endTraining ms s) n = portAt s n := by
  unfold endTraining
  split
  · cases ms <;> simp [portAt]
  · rfl

theorem endTraining_only (ms : Option Nat) (s : State) : Only [.rings, .hif, .pnl, .twl, .out, .free] s (endTraining ms s) := by
  intro part hpart
  cases part <;> simp [Part.same] at hpart ⊢

/-! ## A phase that fails (R258) -/

/-- A port that backs off and counts the try. -/
def backedOff (phase reason : Nat) (p : Port) : Port :=
  { p with state := .backoff, tries := p.tries + 1, wait := none, phase, reason }

theorem failPhase_retries {phase reason : Nat} (h : (portAt s n).tries < 3) :
    PortSet n (backedOff phase reason (portAt s n)) s (failPhase n phase reason s) ∧
    Only [.rings, .hif, .twl, .trc, .out, .free] s (failPhase n phase reason s) := by
  simp only [failPhase, h, if_true]
  refine ⟨(setPort_sets n (backedOff phase reason (portAt s n)) s).wires trace1_wires, fun part hpart => ?_⟩
  cases part <;> simp [Part.same] at hpart ⊢

theorem failPhase_last {phase reason : Nat} (h : ¬ (portAt s n).tries < 3) :
    failPhase n phase reason s = lastAttempt n phase reason s := by
  simp only [failPhase, h, if_false]

/-- The record of a port whose partner did not answer. -/
def silentLogged (n : Nat) (c : PortCfg) (reason : Nat) (s : State) : State :=
  logFault 5 4 n [c.group, freeNow s % 2 ^ 32, reason] (skipFree 1 s)

theorem silentLogged_only (n : Nat) (c : PortCfg) (reason : Nat) (s : State) :
    Only [.lin, .free] s (silentLogged n c reason s) := by
  intro part hpart
  cases part <;> simp [Part.same, silentLogged] at hpart ⊢

/-- A partner that did not answer leaves no lane to replace. -/
theorem lastAttempt_silent {phase reason : Nat} (hcfg : portCfg s.conf n = some c) (hsilent : (portAt s n).answered = false) :
    lastAttempt n phase reason s = portFailed n phase reason (silentLogged n c reason s) := by
  simp only [lastAttempt, hcfg, hsilent, silentLogged]

theorem lastAttempt_spare {phase reason k : Nat} (hcfg : portCfg s.conf n = some c) (hanswered : (portAt s n).answered = true)
    (hbad : (List.range c.width).filter (fun k => (mget {} (portAt s n).lanes k).bad) = [k]) (hfits : spareFits s n c = true)
    (hauto : fbit s.conf FLT_POLICY_TWILL_AUTO = true) : lastAttempt n phase reason s =
      useSpare n c (c.lane0 + k) (logFault 5 2 n [c.group, c.lane0 + k, reason] s) := by
  simp only [lastAttempt, hcfg, hanswered, hbad, hfits, hauto, if_true]

/-! ## A port is FAILED (R258, R260) -/

/-- A port that is FAILED. -/
def failedAt (phase reason : Nat) (p : Port) : Port := { p with state := .failed, wait := none, phase, reason }

/-- A port has failed, before that is posted. -/
def failedQuietly (n phase reason : Nat) (s : State) : State :=
  let s1 := setPort n (failedAt phase reason (portAt s n)) s
  trace1 6 (match portCfg s.conf n with | some c => lanesFollow c.group s1 | none => s1)

theorem portFailed_eq (n phase reason : Nat) (s : State) :
    portFailed n phase reason s = post 0x0B02 2 [n, phase, reason] (failedQuietly n phase reason s) := rfl

theorem portFailed_sets (n phase reason : Nat) (s : State) :
    PortSet n (failedAt phase reason (portAt s n)) s (portFailed n phase reason s) := by
  rw [portFailed_eq, failedQuietly]
  refine (setPort_sets n _ s).wires (WiresOnly.trans ?_ (trace1_wires.trans post_wires))
  split
  · exact lanesFollow_wires _ _
  · exact .refl _

theorem portFailed_posts (n phase reason : Nat) (s : State) :
    Posts s (portFailed n phase reason s) [event s 0x0B02 2 [n, phase, reason]] := by
  rw [portFailed_eq]
  refine posts_post _ _ _ ?_ ?_ ?_ ?_ <;> simp only [failedQuietly] <;> split <;>
    simp [eventsFlow, canSend, served, linkUp, busMaster, eqOf]

end

end Sys2Proof.Proofs
end

section
/-!
The spare of a group, replies of a partner and their absence (R253, R254, R257, R259, Tables 11.4 and 11.5).
-/
namespace Sys2Proof.Proofs
open Sys2Proof Sys2Proof.Machine Sys2Proof.Laws

/-! ## The spare (R259, R400) -/

/-- A group's spare has been brought in for a logical lane. -/
def spareBrought (c : PortCfg) (l : Nat) (s : State) : State :=
  setGroup c.group { groupAt s c.group with spareUsed := true, spareLane := l, pending := none } s

/-- A port whose lane the spare replaces, before it trains on it. -/
def spareAnnounced (n : Nat) (c : PortCfg) (l : Nat) (s : State) : State :=
  post 0x0B03 1 [c.group, l, n] (setPort n { portAt s n with tries := 0 } (spareBrought c l s))

/-- A port trains on the spare, before SPARES says so. -/
def spareTrains (n : Nat) (c : PortCfg) (l : Nat) (s : State) : State :=
  lanesFollow c.group (startOnSpare n c (spareAnnounced n c l s))

section
variable (n l : Nat) (c : PortCfg) (s : State)

@[simp] theorem spareBrought_training : (spareBrought c l s).twl.training = s.twl.training := rfl

@[simp] theorem portAt_spareBrought : portAt (spareBrought c l s) n = portAt s n := rfl

theorem useSpare_eq : useSpare n c l s = putSpares (spareTrains n c l s) := rfl

theorem useSpare_wires : WiresOnly (spareTrains n c l s) (useSpare n c l s) := .of_twl (by simp [useSpare_eq])

theorem spareTrains_sets {n : Nat} (hcfg : portCfg s.conf n = some c) (hclock : (groupAt s c.group).noClock = false) :
    PortSet n (begun (bcBody c.addr 0x0C (toLE 1 (l - c.lane0))) { portAt s n with tries := 0 })
      (spareBrought c l s) (spareTrains n c l s) := by
  have hannounced : PortSet n { portAt s n with tries := 0 } (spareBrought c l s) (spareAnnounced n c l s) :=
    (setPort_sets n _ _).wires post_wires
  have hgroup : groupAt (spareAnnounced n c l s) c.group =
      { groupAt s c.group with spareUsed := true, spareLane := l, pending := none } := by
    simp [spareAnnounced, spareBrought, groupAt, setPort, setGroup]
  have hstart := startOnSpare_sets (n := n) (c := c) (s := spareAnnounced n c l s) (by simpa [spareAnnounced, spareBrought] using hcfg)
    (by rw [hgroup]; exact hclock)
  rw [hannounced.same, hgroup] at hstart
  exact (hannounced.trans hstart).wires (lanesFollow_wires _ _)

theorem useSpare_posts : Posts s (useSpare n c l s) [event s 0x0B03 1 [c.group, l, n]] := by
  have hposts : Posts s (spareAnnounced n c l s) [event s 0x0B03 1 [c.group, l, n]] := posts_post _ _ _ rfl rfl rfl rfl
  exact posts_congr hposts (by simp [useSpare_eq, spareTrains, eqOf])

theorem spareTrains_lin : (spareTrains n c l s).lin = s.lin := by simp [spareTrains, spareAnnounced, spareBrought]

theorem spareTrains_flt : (spareTrains n c l s).flt = s.flt := by simp [spareTrains, spareAnnounced, spareBrought]

end

/-- SPARES tells what is retired and which lanes the spares replace. -/
theorem sparesPayload_congr {s t : State} (hflt : t.flt = s.flt)
    (hgroup : ∀ g, groupSetup (groupAt t g) = groupSetup (groupAt s g)) : sparesPayload t = sparesPayload s := by
  have hused : ∀ g, (mget {} t.twl.groups g).spareUsed = (mget {} s.twl.groups g).spareUsed :=
    fun g => (setup_of_groupSetup (hgroup g)).2.1
  have hlane : ∀ g, (mget {} t.twl.groups g).spareLane = (mget {} s.twl.groups g).spareLane :=
    fun g => (setup_of_groupSetup (hgroup g)).2.2
  simp only [sparesPayload, hflt, hused, hlane]

theorem putSpares_lin_congr {s t : State} (hpayload : sparesPayload t = sparesPayload s) (hlin : t.lin = s.lin) :
    (putSpares t).lin = (putSpares s).lin := by
  simp only [putSpares, writeDevice, setSram, hpayload, hlin]

section
variable {n l : Nat} {c : PortCfg} {s : State}

/-- The spare is in, and the port trains on it. -/
theorem useSpare_sets (hcfg : portCfg s.conf n = some c) (hclock : (groupAt s c.group).noClock = false) :
    PortSet n (begun (bcBody c.addr 0x0C (toLE 1 (l - c.lane0))) { portAt s n with tries := 0 })
      (spareBrought c l s) (useSpare n c l s) :=
  (spareTrains_sets l c s hcfg hclock).wires (useSpare_wires ..)

theorem spare_of_spareBrought {v : Group} (h : groupSetup v = groupSetup (groupAt (spareBrought c l s) c.group)) :
    v.spareUsed = true ∧ v.spareLane = l := by
  rw [spareBrought, groupAt_setGroup_same] at h
  exact (setup_of_groupSetup h).2

/-- SPARES tells what is retired after the spare is in. -/
theorem useSpare_spares {t : State} (hwires : WiresOnly (useSpare n c l s) t) (hlin : t.lin = (useSpare n c l s).lin)
    (hflt : t.flt = s.flt) : t.lin = (putSpares { s with flt := t.flt, twl := t.twl }).lin := by
  have hgroup := fun g => (((useSpare_wires n l c s).trans hwires).group g).symm
  rw [hlin, useSpare_eq]
  exact putSpares_lin_congr (sparesPayload_congr (s := { s with flt := t.flt, twl := t.twl })
    ((spareTrains_flt ..).trans hflt.symm) hgroup) (spareTrains_lin ..)

end

/-! ## Replies (R253, R255, R257) -/

section
variable {s : State} {n k ty : Nat} {b d : Bytes} {c : PortCfg}

/-- A port whose ready partner has answered in T0. -/
def ponged (d : Bytes) (p : Port) : Port :=
  { p with wait := none, spareIn := bit (fieldAt d 0 1) 2, answered := true, state := .phase 1 }

/-- A PONG of a ready partner whose capabilities cover the port begins T1. -/
theorem gotReply_pong (hphase : (portAt s n).state = .phase 0) (htype : fieldAt b 1 1 = 0x01) (hcovered : covered s c d = true)
    (hready : bit (fieldAt d 0 1) 0 = true) : PortPut n (ponged d (portAt s n)) s (gotReply n c b d s) ∧
      (gotReply n c b d s).cal = s.cal := by
  have hreply : gotReply n c b d s = trainLanes n c (trace1 6 (setPort n (ponged d (portAt s n)) s)) := by
    simp [gotReply, hphase, htype, gotPong, hcovered, hready, ponged]
  rw [hreply]
  exact ⟨((setPort_sets n _ s).wires (trace1_wires.trans (trainLanes_wires n c _))).toPortPut, by simp⟩

/-- A port whose partner has taken LINK_UP. -/
def linkedUp (b : Bytes) (p : Port) : Port :=
  { p with wait := none, state := .active, tries := 0, initial := false, precode := bit (fieldAt b 3 1) 0 }

/-- The ACK of LINK_UP ends a port's training. -/
theorem gotReply_up (hphase : (portAt s n).state = .phase 4) (htype : fieldAt b 1 1 = 0x06) :
    PortPut n (linkedUp b (portAt s n)) s (gotReply n c b d s) ∧ (gotReply n c b d s).cal = s.cal := by
  have hreply : gotReply n c b d s =
      endTraining none (liveLanes c (trace1 6 (setPort n (linkedUp b (portAt s n)) s))) := by
    simp [gotReply, hphase, htype, gotAck, linkedUp]
  rw [hreply]
  exact ⟨((setPort_sets n _ s).wires (trace1_wires.trans (liveLanes_wires c _))).kept (endTraining_port none _), by simp⟩

section
variable (hwait : (portAt s n).wait = some (b, k)) (hcfg : portCfg s.conf n = some c) (hwire : (groupAt s c.group).wire = some n)
include hwait hcfg hwire

theorem partnerReply_good (hreply : (ty, d.length) = replyOf (fieldAt b 1 1)) (hstats : ty ≠ 0x88) (heq : ty ≠ 0x82) :
    partnerReply n ty d true s = wireNext c.group (endTraining none (gotReply n c b d s)) := by
  simp [partnerReply, hwait, hcfg, onWire, hwire, hreply, hstats, heq]

/-- What a valid reply sets of its port stands when the wire has gone on. -/
theorem partnerReply_puts {p : Port} (hreply : (ty, d.length) = replyOf (fieldAt b 1 1)) (hstats : ty ≠ 0x88) (heq : ty ≠ 0x82)
    (hput : PortPut n p s (gotReply n c b d s)) (hcal : (gotReply n c b d s).cal = s.cal) :
    PortPut n p s (partnerReply n ty d true s) ∧ (partnerReply n ty d true s).cal = s.cal := by
  rw [partnerReply_good hwait hcfg hwire hreply hstats heq]
  exact ⟨(hput.kept (endTraining_port none _)).kept (wireNext_wires c.group _).port, by simpa using hcal⟩

theorem partnerReply_bad {ok : Bool} (h : ok = false ∨ (ty, d.length) ≠ replyOf (fieldAt b 1 1)) :
    partnerReply n ty d ok s = replyTimeout n s := by
  simp only [partnerReply, hwait, hcfg, onWire, hwire, decide_true, Bool.not_true, Bool.false_eq_true, if_false]
  rw [if_neg]
  rcases h with hcrc | hreply
  · simp [hcrc]
  · simp [hreply]

end

/-! ## No reply (R253, R254) -/

theorem replyTimeout_repeats (hwait : (portAt s n).wait = some (b, k + 1)) (hcfg : portCfg s.conf n = some c)
    (hwire : (groupAt s c.group).wire = some n) :
    replyTimeout n s = emit [.backchannel c.group (bcWire b)] (setPort n { portAt s n with wait := some (b, k) } s) := by
  simp [replyTimeout, hwait, hcfg, onWire, hwire]

theorem replyTimeout_ends (hwait : (portAt s n).wait = some (b, 0)) (hcfg : portCfg s.conf n = some c)
    (hwire : (groupAt s c.group).wire = some n) :
    replyTimeout n s = wireNext c.group (endTraining none (noReply n c b s)) := by
  simp [replyTimeout, hwait, hcfg, onWire, hwire]

/-- A partner that answers no STATUS_POLL is lost. -/
def partnerLost (n : Nat) (s : State) : State := post 0x0B06 2 [n] (setPort n { portAt s n with wait := none } s)

theorem noReply_poll (hactive : (portAt s n).state = .active) (htype : fieldAt b 1 1 = 0x07) :
    noReply n c b s = trainPort false n (partnerLost n s) := by
  simp [noReply, hactive, htype, partnerLost]

theorem partnerLost_sets (n : Nat) (s : State) : PortSet n { portAt s n with wait := none } s (partnerLost n s) :=
  (setPort_sets n _ s).wires post_wires

/-- A port whose partner is lost trains again, from a PING. -/
theorem partnerLost_trains (hcfg : portCfg s.conf n = some c) (hclock : (groupAt s c.group).noClock = false) :
    PortSet n (begun (bcBody c.addr 0x01 []) { portAt s n with wait := none, tries := 0, initial := false }) s
      (trainPort false n (partnerLost n s)) := by
  have hlost := partnerLost_sets n s
  have hclock' : (groupAt (partnerLost n s) c.group).noClock = false := by
    rw [(setup_of_groupSetup (hlost.group c.group)).1, hclock]
  have htrain := trainPort_sets (c := c) (by simpa [partnerLost] using hcfg) hclock' false
  rw [hlost.same] at htrain
  exact hlost.trans htrain

theorem partnerLost_posts (n : Nat) (s : State) : Posts s (trainPort false n (partnerLost n s)) [event s 0x0B06 2 [n]] := by
  have hposts : Posts s (partnerLost n s) [event s 0x0B06 2 [n]] := posts_post _ _ _ rfl rfl rfl rfl
  exact posts_congr hposts (by simp [eqOf])

end

end Sys2Proof.Proofs
end

section
/-!
Panel-on trains every enabled port at once (R255, R259, R260).
-/
namespace Sys2Proof.Proofs
open Sys2Proof Sys2Proof.Machine Sys2Proof.Laws

/-! ## Any port that trains -/

/-- Training a port sets that port, whatever its layout and its clock. -/
theorem trainPort_touches (initial : Bool) (n : Nat) (s : State) : ∃ p, PortSet n p s (trainPort initial n s) := by
  cases hcfg : portCfg s.conf n with
  | none =>
    simp only [trainPort, hcfg]
    exact ⟨_, ⟨rfl, fun _ _ => rfl⟩, fun _ => rfl, rfl⟩
  | some c =>
    cases hclock : (groupAt s c.group).noClock with
    | false => exact ⟨_, trainPort_sets hcfg hclock initial⟩
    | true =>
      have hset := setPort_sets n { portAt s n with tries := 0, initial } s
      have hconf : portCfg (setPort n { portAt s n with tries := 0, initial } s).conf n = some c := hcfg
      have hclock' : (groupAt (setPort n { portAt s n with tries := 0, initial } s) c.group).noClock = true := hclock
      simp only [trainPort, hcfg, startOnSpare, startT0, hconf, hclock', if_true]
      split <;> exact ⟨_, hset.trans (setPort_sets ..)⟩

theorem trainPort_only (initial : Bool) (n : Nat) (s : State) :
    Only [.twl, .trc, .rings, .hif, .out, .free] s (trainPort initial n s) := by
  intro part hpart
  cases part <;> simp [Part.same] at hpart ⊢

/-- The frame that T0 begins with rests on what is set up of the group. -/
theorem firstFrame_congr {s t : State} {c : PortCfg} (h : groupSetup (groupAt t c.group) = groupSetup (groupAt s c.group))
    (initial : Bool) : firstFrame t c initial = firstFrame s c initial := by
  obtain ⟨-, hused, hlane⟩ := setup_of_groupSetup h
  have hholds : holdsSpare t c = holdsSpare s c := by rw [holdsSpare, hused, hlane, holdsSpare]
  rw [firstFrame, hholds, hlane, firstFrame]

theorem portCfg_of_enabled {conf : Conf} {q : Nat × PortCfg} (h : q ∈ enabledPorts conf) : portCfg conf q.1 = some q.2 := by
  unfold enabledPorts at h
  split at h
  · obtain ⟨n, -, hn⟩ := List.mem_filterMap.mp h
    obtain ⟨c, hc, rfl⟩ := Option.map_eq_some_iff.mp hn
    exact hc
  · cases h

/-! ## Training of all ports (R255) -/

/-- Twill as training of all ports begins: no port but the FAILED ones is known, and no frame is out. -/
def trainingBegun (s : State) : State :=
  { s with twl := { s.twl with
      ports := s.twl.ports.filter (fun p => p.2.state = .failed), training := true
      groups := mmap {} (fun _ g => { g with wire := none, queue := [] }) s.twl.groups } }

/-- The lanes that carry no port idle. -/
def trainingReady (s : State) : State :=
  forAll ((enabledPorts s.conf).map (fun p => p.2.group)).eraseDups idleFree (trainingBegun s)

/-- Every enabled port that is not FAILED trains. -/
def allTrain (s : State) : State :=
  forAll ((enabledPorts s.conf).filter (fun p => (portAt s p.1).state ≠ .failed)) (fun p t => trainPort true p.1 t) (trainingReady s)

theorem trainAll_eq (s : State) : trainAll s = endTraining (some 0) (allTrain s) := rfl

section
variable {s : State} {n : Nat} {c : PortCfg}

/-- An entry that a filter of a map's values keeps, and that was read before, is read after. -/
theorem mget_filter_value {α : Type} {d : α} {f : α → Bool} {m : SMap α} {k : Nat} (h : f (mget d m k) = true) :
    mget d (m.filter (fun p => f p.2)) k = mget d m k := by
  induction m with
  | nil => rfl
  | cons p r ih =>
    obtain ⟨j, w⟩ := p
    by_cases hj : j = k
    · have hw : f w = true := by simpa [mget, hj] using h
      simp [hw, mget, hj]
    · have hr : mget d ((j, w) :: r) k = mget d r k := by simp [mget, hj]
      rw [hr] at h ⊢
      rw [List.filter_cons]
      split
      · simpa [mget, hj] using ih h
      · exact ih h

theorem trainingReady_wires (s : State) : WiresOnly (trainingBegun s) (trainingReady s) := forAll_wires idleFree_wires _ _

theorem portAt_trainingReady (h : (portAt s n).state = .failed) : portAt (trainingReady s) n = portAt s n := by
  rw [(trainingReady_wires s).port]
  exact mget_filter_value (f := fun p : Port => decide (p.state = .failed)) (decide_eq_true h)

theorem groupAt_trainingReady (hgroups : mwf {} s.twl.groups = true) (g : Nat) :
    groupSetup (groupAt (trainingReady s) g) = groupSetup (groupAt s g) := by
  rw [(trainingReady_wires s).group]
  exact (congrArg groupSetup (mget_mmap {} (fun _ (v : Group) => { v with wire := none, queue := [] }) s.twl.groups g
    (fun _ => rfl) (mwf_rising {} hgroups))).trans rfl

theorem trainingReady_only (s : State) : Only [.twl, .trc, .rings, .hif, .out, .free] s (trainingReady s) := by
  refine only_trans (t := trainingBegun s) (fun part hpart => ?_) (forAll_only (fun g u part hpart => ?_) _ _)
  · cases part <;> simp [Part.same, trainingBegun] at hpart ⊢
  · cases part <;> simp [Part.same] at hpart ⊢

theorem allTrain_only (s : State) : Only [.twl, .trc, .rings, .hif, .out, .free] s (allTrain s) :=
  only_trans (trainingReady_only s)
    (forAll_only (f := fun (p : Nat × PortCfg) t => trainPort true p.1 t) (fun p u => trainPort_only true p.1 u) _ _)

theorem allTrain_training (s : State) : (allTrain s).twl.training = true := by
  refine forAll_preserves (P := fun u => u.twl.training = true) (fun p u hu => ?_) _ (trainingReady_wires s).training
  obtain ⟨_, hset⟩ := trainPort_touches true p.1 u
  exact hset.training.trans hu

/-- A FAILED port stays as it is. -/
theorem allTrain_failed (h : (portAt s n).state = .failed) : portAt (allTrain s) n = portAt s n := by
  have hother : ∀ p ∈ (enabledPorts s.conf).filter (fun p => (portAt s p.1).state ≠ .failed), n ≠ p.1 := by
    rintro p hp rfl
    simp [h] at hp
  rw [← portAt_trainingReady h, allTrain]
  generalize trainingReady s = u
  revert hother
  generalize (enabledPorts s.conf).filter (fun p => (portAt s p.1).state ≠ .failed) = ps
  intro hother
  induction ps generalizing u with
  | nil => rfl
  | cons p ps ih =>
    obtain ⟨_, hset⟩ := trainPort_touches true p.1 u
    exact (ih _ fun q hq => hother q (List.mem_cons_of_mem _ hq)).trans (hset.other n (hother p List.mem_cons_self))

/-- A port trains from its first frame, in a layout and groups like those of `s`. -/
structure TrainsIn (s : State) (n : Nat) (c : PortCfg) (t : State) : Prop where
  conf : t.conf = s.conf
  group : ∀ g, groupSetup (groupAt t g) = groupSetup (groupAt s g)
  state : (portAt t n).state = .phase 0
  wait : (portAt t n).wait = some (firstFrame s c true, 2)

theorem trainPort_trainsIn {u : State} (hcfg : portCfg s.conf n = some c) (hclock : (groupAt s c.group).noClock = false)
    (hconf : u.conf = s.conf) (hgroup : ∀ g, groupSetup (groupAt u g) = groupSetup (groupAt s g)) :
    TrainsIn s n c (trainPort true n u) := by
  have hset := trainPort_sets (by rwa [hconf]) (by rwa [(setup_of_groupSetup (hgroup c.group)).1]) true
  refine ⟨by simpa using hconf, fun g => (hset.group g).trans (hgroup g), by rw [hset.same]; rfl, ?_⟩
  rw [hset.same, firstFrame_congr (hgroup c.group)]
  rfl

/-- Every enabled port that is not FAILED trains from its first frame. -/
theorem allTrain_trains {q : Nat × PortCfg} (hgroups : mwf {} s.twl.groups = true) (hq : q ∈ enabledPorts s.conf)
    (hfailed : (portAt s q.1).state ≠ .failed) (hclock : (groupAt s q.2.group).noClock = false) :
    TrainsIn s q.1 q.2 (allTrain s) := by
  have hcfg := portCfg_of_enabled hq
  refine forAll_reaches (a := q) (I := fun u => u.conf = s.conf ∧ ∀ g, groupSetup (groupAt u g) = groupSetup (groupAt s g))
    (by simpa using ⟨hq, hfailed⟩) ⟨trainingReady_only s .conf (by decide), groupAt_trainingReady hgroups⟩ ?_ ?_ ?_
  · rintro p u ⟨hconf, hgroup⟩
    obtain ⟨_, hset⟩ := trainPort_touches true p.1 u
    exact ⟨by simpa using hconf, fun g => (hset.group g).trans (hgroup g)⟩
  · rintro u ⟨hconf, hgroup⟩
    exact trainPort_trainsIn hcfg hclock hconf hgroup
  · intro p u hu
    by_cases hp : p.1 = q.1
    · rw [hp]
      exact trainPort_trainsIn hcfg hclock hu.conf hu.group
    · obtain ⟨_, hset⟩ := trainPort_touches true p.1 u
      have hport := hset.other q.1 (Ne.symm hp)
      exact ⟨by simpa using hu.conf, fun g => (hset.group g).trans (hu.group g), by rw [hport, hu.state], by rw [hport, hu.wait]⟩

end

end Sys2Proof.Proofs
end

section
/-!
The commands of Twill training (R253 to R261), and the statement on them.
-/
namespace Sys2Proof.Proofs
open Sys2Proof Sys2Proof.Machine Sys2Proof.Laws

section
variable {s : State} {n p : Nat}

theorem exec_twillTraining (hstate : s.pnl.state = .training) (hidle : s.twl.training = false) (huntrained : s.pnl.trained = false) :
    exec .twillTraining s = .next (endTraining (some 0) (allTrain s)) := by
  simp [exec, execTwillTraining, hstate, hidle, huntrained, trainAll_eq]

theorem exec_trainingPingTimer (hstate : (portAt s n).state ∈ [PortState.phase 0, .phase 1, .phase 3]) :
    exec (.trainingPingTimer n) s = .next (bcSend n 0x01 [] s) :=
  congrArg Host.Outcome.next (if_pos (List.contains_iff_mem.mpr hstate))

theorem exec_trainingPhaseTimeout (hphase : (portAt s n).state = .phase p) (ms : Nat) : exec (.trainingPhaseTimeout n ms) s =
    .next (wireOf n (endTraining (some ms) (failPhase n p (timeoutReason p) s))) := by
  simp only [exec, execTrainingPhaseTimeout, hphase]

theorem exec_trainingRetryBackoff (hstate : (portAt s n).state = .backoff) :
    exec (.trainingRetryBackoff n) s = .next (startT0 n s) := congrArg Host.Outcome.next (if_pos hstate)

theorem exec_statusPollTimer (hstate : (portAt s n).state = .active) (hwait : (portAt s n).wait = none) :
    exec (.statusPollTimer n) s = .next (bcSend n 0x07 [] s) :=
  congrArg Host.Outcome.next (if_pos (by simp [hstate, hwait]))

/-- With no calibration run in progress the lanes of a port are in none. -/
theorem runPolls_of_idle {s : State} (h : s.cal.jobs = []) (carried : Bool) : runPolls carried s = s := by
  simp [runPolls, h, forAll]

section
variable {ty : Nat} {d : Bytes} {ok : Bool} (hjobs : s.cal.jobs = []) (hcal : (partnerReply n ty d ok s).cal = s.cal)
include hjobs hcal

/-- With no calibration run in progress a partner's reply calls for one only where it brings its port up. -/
theorem exec_backchannelReply : exec (.backchannelReply n ty d ok) s = .next
    (if (portAt s n).state ≠ .active ∧ (portAt (partnerReply n ty d ok s) n).state = .active
      then autoRun 0 (partnerReply n ty d ok s) else partnerReply n ty d ok s) := by
  have hreply : (partnerReply n ty d ok s).cal.jobs = [] := by rw [hcal, hjobs]
  simp [exec, execBackchannelReply, pruneRun_of_idle hjobs, pruneRun_of_idle hreply, runPolls_of_idle hreply]

/-- What a reply sets of its port stands when the calibration has been asked for. -/
theorem exec_backchannelReply_puts {p : Port} (hput : PortPut n p s (partnerReply n ty d ok s)) :
    ∃ t, exec (.backchannelReply n ty d ok) s = .next t ∧ PortPut n p s t ∧
      Only [.rings, .hif, .pnl, .twl, .lin, .cal, .trc, .out, .free] s t := by
  refine ⟨_, exec_backchannelReply hjobs hcal, ?_, fun part hpart => ?_⟩
  · split
    · exact hput.kept (WiresOnly.of_twl (by simp)).port
    · exact hput
  · split <;> cases part <;> simp [Part.same] at hpart ⊢

end

end

theorem logFault_only (cls outcome inst : Nat) (d : List Nat) (s : State) : Only [.lin] s (logFault cls outcome inst d s) := by
  intro part hpart
  cases part <;> simp [Part.same] at hpart ⊢

/-- A record in the fault log goes before the event that follows it. -/
theorem posts_event_after_lin {s u t : State} {code sev : Nat} {l : List Nat} (h : Only [.lin, .free] s u)
    (hposts : Posts u t [event u code sev l]) : Posts s t [event s code sev l] := by
  have hrings : u.rings = s.rings := h .rings (by decide)
  have hhif : u.hif = s.hif := h .hif (by decide)
  have hsys : u.sys = s.sys := h .sys (by decide)
  have hpwr : u.pwr = s.pwr := h .pwr (by decide)
  have hflow : eventsFlow u .pf0 = eventsFlow s .pf0 := by
    simp only [eventsFlow, canSend, served, linkUp, busMaster, hrings, hhif, hsys]
  simpa only [Posts, event, hrings, hsys, hpwr, hflow] using hposts

/-- Settles O48: each command is brought to the operations on ports and wires that it makes; what these set of a port and what they
only move on lanes and wires says what every port reads as. -/
theorem twillPortsTrain : Obligations.TwillPortsTrain := by
  refine ⟨?panelOn, ?pong, ?linkUp, ?badReply, ?repeats, ?lost, ?ping, ?retries, ?failed, ?spare, ?backoff, ?poll⟩
  case panelOn =>
    rintro s hstate hidle huntrained hgroups ⟨q, hq, hqok⟩ hclocks
    have htrains := fun q hq hok => allTrain_trains hgroups hq hok (hclocks q hq)
    have hconf : (allTrain s).conf = s.conf := (htrains q hq hqok).conf
    rw [exec_twillTraining hstate hidle huntrained,
      endTraining_unfinished (q := q) (by rwa [hconf]) (htrains q hq hqok).state]
    refine ⟨_, rfl, allTrain_training s, fun q hq hok => ⟨(htrains q hq hok).state, ?_⟩, fun q hq h => allTrain_failed h,
      allTrain_only s⟩
    rw [(htrains q hq hok).wait, firstFrame, Bool.true_and]
  case pong =>
    intro n k b d c s hphase hwait htype hcfg hwire hjobs hlen hcovered hready
    obtain ⟨hput, hcal⟩ := gotReply_pong hphase htype hcovered hready
    obtain ⟨hput, hcal⟩ := partnerReply_puts (ty := 0x81) hwait hcfg hwire (by rw [htype, hlen]; rfl) (by decide) (by decide)
      hput hcal
    obtain ⟨t, hexec, hput, honly⟩ := exec_backchannelReply_puts hjobs hcal hput
    exact ⟨t, hexec, hput.same, hput.other, honly⟩
  case linkUp =>
    intro n k b d c s hphase hwait htype hcfg hwire hjobs hlen
    obtain ⟨hput, hcal⟩ := gotReply_up hphase htype
    obtain ⟨hput, hcal⟩ := partnerReply_puts (ty := 0x80) hwait hcfg hwire (by rw [htype, hlen]; rfl) (by decide) (by decide)
      hput hcal
    obtain ⟨t, hexec, hput, honly⟩ := exec_backchannelReply_puts hjobs hcal hput
    exact ⟨t, hexec, hput.same, hput.other, honly⟩
  case badReply =>
    intro n k ty ok b d c s hwait hcfg hwire hjobs hbad
    have hreply := (partnerReply_bad hwait hcfg hwire hbad).trans (replyTimeout_repeats hwait hcfg hwire)
    rw [exec_backchannelReply hjobs (by rw [hreply]; rfl), hreply, if_neg]
    · exact congrArg Host.Outcome.next (replyTimeout_repeats hwait hcfg hwire).symm
    · rintro ⟨hstate, hactive⟩
      rw [(emit_wires _ _).port, portAt_setPort_same] at hactive
      exact hstate hactive
  case repeats =>
    intro n k b c s hwait hcfg hwire
    refine ⟨_, congrArg Host.Outcome.next (replyTimeout_repeats hwait hcfg hwire), portAt_setPort_same .., rfl,
      fun m hm => portAt_setPort_other hm .., fun part hpart => ?_⟩
    cases part <;> simp [Part.same] at hpart ⊢
  case lost =>
    intro n b c s hactive hwait htype hcfg hwire hclock
    have hset := partnerLost_trains hcfg hclock
    have hput := (hset.kept (endTraining_port none _)).kept (wireNext_wires c.group _).port
    refine ⟨_, congrArg Host.Outcome.next (replyTimeout_ends hwait hcfg hwire), ?_⟩
    rw [noReply_poll hactive htype, hput.same]
    refine ⟨rfl, rfl, rfl, rfl, hput.other, fun hidle => ?_, fun part hpart => ?_⟩
    · rw [endTraining_idle (hset.training.trans hidle)]
      exact posts_congr (partnerLost_posts n s) (by simp [eqOf])
    · cases part <;> simp [Part.same, partnerLost] at hpart ⊢
  case ping =>
    intro n c s hstate hcfg
    have hset := bcSend_sets (type := 0x01) (payload := []) hcfg
    exact ⟨_, exec_trainingPingTimer hstate, hset.same, hset.other, bcSend_out hcfg (by decide), fun m => bcSend_waits hcfg,
      bcSend_only n 0x01 [] s⟩
  case retries =>
    intro n p ms s hphase htries
    obtain ⟨hset, honly⟩ := failPhase_retries (phase := p) (reason := timeoutReason p) htries
    have hput := (hset.kept (endTraining_port (some ms) _)).kept (wireOf_wires n _).port
    refine ⟨_, exec_trainingPhaseTimeout hphase ms, ?_⟩
    rw [hput.same]
    exact ⟨rfl, rfl, rfl, rfl, rfl, hput.other, only_trans (only_mono (by decide) honly)
      (only_trans (only_mono (by decide) (endTraining_only (some ms) _)) (only_mono (by decide) (wireOf_only n _)))⟩
  case failed =>
    intro n p ms c s hphase htries hsilent hcfg hidle
    have hlogged := silentLogged_only n c (timeoutReason p) s
    have hwires : WiresOnly s (silentLogged n c (timeoutReason p) s) := .of_twl (hlogged .twl (by decide))
    have hset := hwires.sets (portFailed_sets n p (timeoutReason p) (silentLogged n c (timeoutReason p) s))
    have hposts := posts_event_after_lin hlogged (portFailed_posts n p (timeoutReason p) _)
    have hexec := exec_trainingPhaseTimeout hphase ms
    rw [failPhase_last htries, lastAttempt_silent hcfg hsilent, endTraining_idle (hset.training.trans hidle)] at hexec
    have hend := hset.wires (wireOf_wires n _)
    refine ⟨_, freeNow s % 2 ^ 32, hexec, by simp only [hend.same, failedAt], posts_congr hposts (by simp [eqOf]), ?_, hend.other,
      fun part hpart => ?_⟩
    · exact Eq.trans (by simp [silentLogged]) (logFault_lin_congr (s := s) (t := skipFree 1 s) rfl rfl ..)
    · cases part <;> simp [Part.same, silentLogged] at hpart ⊢
  case spare =>
    intro n p k ms c s hphase htries hanswered hcfg hbad hfits hauto hclock hidle
    have hlogged := logFault_only 5 2 n [c.group, c.lane0 + k, timeoutReason p] s
    have hwires : WiresOnly s (logFault 5 2 n [c.group, c.lane0 + k, timeoutReason p] s) := .of_twl (hlogged .twl (by decide))
    have hposts := posts_event_after_lin (only_mono (by decide) hlogged) (useSpare_posts n (c.lane0 + k) c _)
    have hexec := exec_trainingPhaseTimeout hphase ms
    rw [failPhase_last htries, lastAttempt_spare hcfg hanswered hbad hfits hauto] at hexec
    have hset := useSpare_sets (l := c.lane0 + k) (s := logFault 5 2 n [c.group, c.lane0 + k, timeoutReason p] s)
      (by simpa using hcfg) (by rwa [(setup_of_groupSetup (hwires.group c.group)).1])
    rw [endTraining_idle (by rw [hset.training, spareBrought_training, hwires.training, hidle])] at hexec
    have hend := hset.wires (wireOf_wires n _)
    obtain ⟨hused, hlane⟩ := spare_of_spareBrought (hend.group c.group)
    refine ⟨_, hexec, by simp only [hend.same, begun, beginning], by simp only [hend.same, begun, beginning], ?_, hused, hlane,
      posts_congr hposts (by simp [eqOf]), useSpare_spares (wireOf_wires n _) (by simp) (by simp),
      fun m hm => by rw [hend.other m hm, portAt_spareBrought, hwires.port], fun part hpart => ?_⟩
    · simp only [hend.same, begun, Nat.add_sub_cancel_left]
    · cases part <;> simp [Part.same] at hpart ⊢
  case backoff =>
    intro n c s hstate hcfg hclock
    have hset := startT0_sets hcfg hclock
    refine ⟨_, exec_trainingRetryBackoff hstate, ?_⟩
    rw [hset.same]
    exact ⟨rfl, rfl, rfl, hset.other, startT0_only n s⟩
  case poll =>
    intro n c s hstate hwait hcfg
    have hset := bcSend_sets (type := 0x07) (payload := []) hcfg
    exact ⟨_, exec_statusPollTimer hstate hwait, hset.same, hset.other, bcSend_out hcfg (by decide), bcSend_only n 0x07 [] s⟩

end Sys2Proof.Proofs
end

section
/-!
A pattern test on a port whose own frame holds the wire of its group (R261, R266).
-/
namespace Sys2Proof.Proofs
open Sys2Proof.Machine

/-- The only port of the layout of `polledPort`: one lane of group 0. -/
def onePort : PortCfg := { x0 := 0, ncol := 0, group := 0, lane0 := 0, width := 1, addr := 0, reverse := false }

/-- A module in SERVICE with one Twill port, which is ACTIVE and awaits the reply to its STATUS_POLL: its frame holds its group's
wire. -/
def polledPort : State := { State.reset with
  sys := { State.reset.sys with mode := .service }
  hif := { State.reset.hif with power := .l0 }
  conf := { State.reset.conf with regs := [(0x0b0000, 0x6a9)], tables := [(1048576 * 0x0B00 + 4, 0x80)] }
  twl := { State.reset.twl with
    ports := [(0, { state := .active, wait := some (bcBody 0 0x07 [], 2) })]
    groups := [(0, { wire := some 0 })] } }

/-- A write of TWL_TEST that starts pattern 1 on lane 0. -/
def startPattern1 : Word := 0x80000100

/-- The pattern that waits for PRBS_CHECK in the state that a command answers. -/
def testRunIn : Answer → Option (Nat × Nat × Nat × Nat × Nat)
  | .next t => t.twl.testRun
  | _ => none

theorem polledPort_up : hostUp polledPort = true := by decide +kernel

theorem polledPort_layout : logicalOf polledPort (wbits startPattern1 0 7) = some 0 ∧
    portOfLane polledPort.conf (wbits startPattern1 0 7 / 9) 0 = some (0, onePort) ∧
    portCfg polledPort.conf 0 = some onePort := by decide +kernel

theorem polledPort_waits : wireFree polledPort onePort.group = false := by decide +kernel

/-- PRBS_CHECK takes the place of the port's own frame on the wire, and the pattern starts at once. -/
theorem polledPort_tested : testRunIn (exec (.twillTestStart startPattern1) polledPort) = none := by decide +kernel

/-- Refutes O49: its clause on the start of a test says that the pattern waits whenever the group's wire is not free, but where the
frame that holds the wire is the port's own, PRBS_CHECK replaces it and goes out at once. The premise lacks that another port
holds the wire. -/
theorem not_twillTestsRunInService : ¬ Obligations.TwillTestsRunInService := by
  intro h
  obtain ⟨-, -, -, hstart, -, -⟩ := h
  obtain ⟨hlogical, hport, hcfg⟩ := polledPort_layout
  obtain ⟨t, seed, hexec, -, -, -, -, hwaits, -⟩ := hstart startPattern1 0 0 onePort polledPort polledPort_up rfl (by decide)
    (by decide) (by decide) rfl hlogical hport hcfg rfl
  have htested := polledPort_tested
  rw [hexec] at htested
  have hnone : t.twl.testRun = none := htested
  rw [hwaits polledPort_waits] at hnone
  cases hnone

end Sys2Proof.Proofs
end

section
/-!
Cue buffers (R277, R279, R382): what a load comes to, what a loaded buffer and a freed one leave in module memory, and the two
commands on them.
-/
namespace Sys2Proof.Proofs
open Sys2Proof.Machine Sys2Proof.Laws

theorem bufferOf_congr {s t : State} (h : t.cue.buffers = s.cue.buffers) (b : Nat) : bufferOf t b = bufferOf s b := by
  rw [bufferOf, h, bufferOf]

theorem bufferOf_finish (fn : Fn) (n : Nat) (r : Running) (st : Nat) (res : List Nat) (s : State) (b : Nat) :
    bufferOf (finish fn n r st res s) b = bufferOf s b := bufferOf_congr (by simp) b

/-- A command that completes after a change leaves the parts that the change left, but for those of its record. -/
theorem finish_only_after {ps qs : List Part} {s u : State} {fn : Fn} {n : Nat} {r : Running} {st : Nat} {res : List Nat}
    (h : Only ps s u) (hps : ps ⊆ qs) (hrecord : [.rings, .hif, .trc, .out, .free] ⊆ qs) : Only qs s (finish fn n r st res u) :=
  only_trans (only_mono hps h) (only_mono hrecord (finish_only fn n r st res u))

/-! ## The plan of a load -/

section
variable {s : State} {b len page pages : Nat} {data : Rd} (hb : b ≤ 4095) (hfree : bufferOf s b = none) (hlen : len ≠ 0)
  (hpages : pages = (len + 4095) / 4096)
  (hrun : ((cueRuns s).find? (fun x => pages ≤ x.2)).map Prod.fst = some page)
  (hok : data.ok = true) (hdata : len ≤ data.bytes.length)
include hb hfree hlen hpages hrun hok hdata

/-- A plain source goes as it is into the first free run that fits. -/
theorem loadPlan_plain (keyId : Nat) : loadPlan s b len false keyId data = .ok (page, pages, data.bytes.take len) := by
  subst hpages
  obtain ⟨⟨p, n⟩, hfind, rfl⟩ := Option.map_eq_some_iff.mp hrun
  simp [loadPlan, Nat.not_lt.mpr hb, hfree, hlen, hfind, hok, Nat.not_lt.mpr hdata]

/-- A sealed source that opens under the key that it names goes there as its plain bytes. -/
theorem loadPlan_sealed {keyId : Nat} {key d : Bytes} {x : Bool} (hservice : inService s = true)
    (hkey : aget s.sec.keys keyId = some (key, x)) (hopen : openSealed key (data.bytes.take len) = .ok d)
    (hfits : d.length ≤ 4096 * pages) : loadPlan s b len true keyId data = .ok (page, pages, d) := by
  subst hpages
  obtain ⟨⟨p, n⟩, hfind, rfl⟩ := Option.map_eq_some_iff.mp hrun
  simp [loadPlan, Nat.not_lt.mpr hb, hfree, hlen, hfind, hok, Nat.not_lt.mpr hdata, hservice, hkey, hopen,
    List.take_of_length_le hfits]

end

/-! ## A buffer in its pages -/

@[simp] theorem residence_cqs (s : State) : (residence s).rings.cqs = s.rings.cqs := by
  unfold residence downgrade
  (repeat' split) <;> simp

section
variable (b page pages : Nat) (isSealed : Bool) (len : Nat) (d : Bytes) (s : State)

theorem bufferOf_placeBuffer :
    bufferOf (placeBuffer b page pages isSealed len d s) b = some { page, pages, length := len, isSealed } := by
  simp [bufferOf, placeBuffer, aget_aput]

theorem placeBuffer_cqs : (placeBuffer b page pages isSealed len d s).rings.cqs = s.rings.cqs := by
  simp [placeBuffer]

/-- The bytes of a loaded buffer are its contents and zeros. -/
theorem placeBuffer_bytes : (placeBuffer b page pages isSealed len d s).mem.bytes =
    (writeMem (4096 * page) (d ++ List.replicate (4096 * pages - d.length) 0) s).mem.bytes := by
  cases isSealed <;> simp [placeBuffer]

variable {d} (hfits : d.length ≤ 4096 * pages)
include hfits

theorem placeBuffer_byte (a : Nat) : mget 0 (placeBuffer b page pages isSealed len d s).mem.bytes a =
    if 4096 * page ≤ a ∧ a < 4096 * (page + pages) then d.getD (a - 4096 * page) 0 else mget 0 s.mem.bytes a := by
  have hlength : (d ++ List.replicate (4096 * pages - d.length) 0).length = 4096 * pages := by simp; omega
  rw [placeBuffer_bytes, writeMem_byte, hlength, ← Nat.mul_add]
  congr 1
  by_cases h : a - 4096 * page < d.length
  · rw [List.getD_append _ _ _ _ h]
  · rw [List.getD_append_right _ _ _ _ (Nat.not_lt.mp h), List.getD_eq_default d _ (Nat.not_lt.mp h)]
    simp only [List.getD_eq_getElem?_getD, List.getElem?_replicate]
    split <;> rfl

end

theorem placeBuffer_only {b page pages len : Nat} {isSealed : Bool} {d : Bytes} {s : State} :
    Only [.rings, .hif, .mem, .cue, .sec, .out] s (placeBuffer b page pages isSealed len d s) := by
  intro p hp
  cases p <;> simp [Part.same] at hp ⊢

theorem placeBuffer_protects (b page pages len : Nat) (d : Bytes) (s : State) {p : Nat} (hfrom : page ≤ p) (hto : p < page + pages) :
    isProtected (placeBuffer b page pages true len d s) p = true := by
  have hguarded : mget false (placeBuffer b page pages true len d s).mem.guarded p = true := by
    have hin : p - page < pages := by omega
    simp [placeBuffer, guardPages, mget_mputs, hfrom, hto, hin]
  simp [isProtected, hguarded]

section
variable {s : State} {b : Nat}

theorem bufferOf_dropBuffer : bufferOf (dropBuffer b s) b = none := by
  unfold dropBuffer
  split
  · simp [bufferOf, aget]
  · assumption

/-- A freed buffer's pages read as zero, and no other byte changes. -/
theorem dropBuffer_byte {u : Buffer} (h : bufferOf s b = some u) (a : Nat) : mget 0 (dropBuffer b s).mem.bytes a =
    if 4096 * u.page ≤ a ∧ a < 4096 * (u.page + u.pages) then 0 else mget 0 s.mem.bytes a := by
  have hbytes : (dropBuffer b s).mem.bytes = (clearPages u.page u.pages s.mem).bytes := by
    simp only [dropBuffer, h]
    split <;> simp
  rw [hbytes, clearPages_byte]

theorem dropBuffer_only : Only [.mem, .cue] s (dropBuffer b s) := by
  intro p hp
  cases p <;> simp [Part.same] at hp ⊢

/-- Freeing a buffer changes nothing of the cue but the buffers. -/
theorem dropBuffer_cue : (dropBuffer b s).cue.run = s.cue.run ∧ (dropBuffer b s).cue.arm = s.cue.arm := by
  unfold dropBuffer
  split <;> exact ⟨rfl, rfl⟩

end

/-! ## CUE_LOAD and FREE_BUFFER -/

/-- What CUE_LOAD does with a plan that holds: the buffer stands in its pages, zero beyond its contents, and the command completes. -/
theorem cueLoad_loads {sq page pages : Nat} {data : Rd} {r : Running} {d : Bytes} {isSealed : Bool} {s : State}
    (hbrace : s.sys.brace = false) (hready : ready s .pf0 sq 0x40 = some r) (hbus : busMaster s .pf0 = true) (hok : data.ok = true)
    (hsealed : bit (fieldAt r.raw 0x1C 4) 0 = isSealed) (hfits : d.length ≤ 4096 * pages)
    (hplan : loadPlan s (fieldAt r.raw 0x18 4) (fieldAt r.raw 0x28 8) isSealed (fieldAt r.raw 0x30 4) data = .ok (page, pages, d)) :
    ∃ t, exec (.cueLoad sq data) s = .next t ∧ Completed s t .pf0 sq r SUCCESS (lohi (4096 * page) ++ [pages]) ∧
      bufferOf t (fieldAt r.raw 0x18 4) = some { page, pages, length := fieldAt r.raw 0x28 8, isSealed } ∧
      (∀ k < 4096 * pages, mget 0 t.mem.bytes (4096 * page + k) = d.getD k 0) ∧
      (∀ a, a < 4096 * page ∨ 4096 * (page + pages) ≤ a → mget 0 t.mem.bytes a = mget 0 s.mem.bytes a) ∧
      (isSealed = true → ∀ p, page ≤ p → p < page + pages → isProtected t p = true) ∧
      Only [.rings, .hif, .mem, .cue, .sec, .trc, .out, .free] s t := by
  have hexec : exec (.cueLoad sq data) s = .next (finish .pf0 sq r SUCCESS (lohi (4096 * page) ++ [pages])
      (placeBuffer (fieldAt r.raw 0x18 4) page pages isSealed (fieldAt r.raw 0x28 8) d s)) := by
    simp only [exec, execCueLoad, hbrace, Bool.false_eq_true, if_false, runRead_ready hbus hready hok, hsealed, hplan]
  refine ⟨_, hexec, finish_completed _ _ _ _ _ (placeBuffer_cqs ..), ?buffer, fun k hk => ?inside, fun a ha => ?outside,
    fun hs p hfrom hto => ?guarded, ?only⟩
  case buffer => rw [bufferOf_finish, bufferOf_placeBuffer]
  case inside =>
    simp only [finish_frame, placeBuffer_byte _ _ _ _ _ _ hfits]
    rw [if_pos (by omega), Nat.add_sub_cancel_left]
  case outside =>
    simp only [finish_frame, placeBuffer_byte _ _ _ _ _ _ hfits]
    rw [if_neg (by omega)]
  case guarded =>
    subst hs
    have hplaced := placeBuffer_protects (fieldAt r.raw 0x18 4) page pages (fieldAt r.raw 0x28 8) d s hfrom hto
    simpa only [isProtected, finish_frame] using hplaced
  case only =>
    exact finish_only_after placeBuffer_only (by decide) (by decide)

section
variable {sq : Nat} {r : Running} {b : Buffer} {s : State} (hready : ready s .pf0 sq 0x32 = some r)
  (hbuffer : bufferOf s (fieldAt r.raw 0x18 4) = some b)
include hready hbuffer

theorem exec_freeBuffer_free (hfree : referenced s (fieldAt r.raw 0x18 4) = false) :
    exec (.freeBuffer sq) s = .next (finish .pf0 sq r SUCCESS [1] (dropBuffer (fieldAt r.raw 0x18 4) s)) := by
  simp only [exec, execFreeBuffer, runRing_ready hready, hbuffer, hfree, Bool.false_eq_true, if_false]

theorem exec_freeBuffer_deferred (hheld : referenced s (fieldAt r.raw 0x18 4) = true) :
    exec (.freeBuffer sq) s = .next (finish .pf0 sq r SUCCESS [0]
      { s with cue := { s.cue with buffers := aput (fieldAt r.raw 0x18 4) { b with deferred := true } s.cue.buffers } }) := by
  simp only [exec, execFreeBuffer, runRing_ready hready, hbuffer, hheld, if_true]

end

end Sys2Proof.Proofs
end

section
/-!
CUE_START and CUE_STOP (R287, R288, R358): a refusal, an arm of this tile alone, and the beginning of a wall's exchange, each proved
once for both commands, and the statement on cues.
-/
namespace Sys2Proof.Proofs
open Sys2Proof.Machine Sys2Proof.Laws

/-! ## The commands as cue commands -/

/-- A list with no poisoned page is read without a machine check. -/
theorem listCheck_clean {s : State} (h : ∀ k, isPoisoned s k = false) (l : Nat) : listCheck l s = s := by
  unfold listCheck
  split
  · rw [List.find?_eq_none.mpr fun p _ => by simp [h p]]
  · rfl

theorem exec_cueStart {sq : Nat} {r : Running} {s : State} (hready : ready s .pf0 sq 0x41 = some r)
    (hclean : ∀ k, isPoisoned s k = false) : exec (.cueStart sq) s = .next (settleExchange (cueCommand sq 1 r s)) := by
  simp only [exec, execCueStart, runRing_ready hready, listCheck_clean hclean]

theorem exec_cueStop {sq : Nat} {r : Running} {s : State} (hready : ready s .pf0 sq 0x42 = some r) :
    exec (.cueStop sq) s = .next (settleExchange (cueCommand sq 2 r s)) := by
  simp only [exec, execCueStop, runRing_ready hready]

theorem cueFault_start {s : State} {body : Bytes} (hmode : startMode s = none) (hbody : startFault s body = none) :
    cueFault s 1 body = none := by
  simp [cueFault, hmode, hbody]

theorem cueFault_startMode {s : State} {st : Nat} (hmode : startMode s = some st) (body : Bytes) : cueFault s 1 body = some (st, 0) := by
  simp [cueFault, hmode]

theorem cueFault_stop (s : State) (body : Bytes) : cueFault s 2 body = stopFault s body := rfl

/-- In any mode but CUE a stop with nothing armed is refused. -/
theorem stopFault_mode {s : State} {body : Bytes} (htarget : fieldAt body 0 4 % 8 = 2 ∨ fieldAt body 0 4 % 8 = 3)
    (hmode : s.sys.mode ≠ .cue) (harm : s.cue.arm = none) : stopFault s body = some (MODE_INVALID, 0) := by
  rcases htarget with h | h <;> simp [stopFault, h, hmode, harm]

/-! ## Arming -/

/-- The arm that a body asks for at an FE: kind 1 CUE_START, 2 CUE_STOP. -/
def cueArm (kind fe : Nat) (body : Bytes) : CueArm :=
  if kind = 1 then .start fe (fieldAt body 0 4) (fieldAt body 4 4)
  else .stop fe (if fieldAt body 0 4 % 8 = 2 then .live else .hold)

/-- Frees that take place leave what runs and what is armed, and complete nothing. -/
theorem settleFrees_keeps (s : State) : (settleFrees s).cue.run = s.cue.run ∧ (settleFrees s).cue.arm = s.cue.arm ∧
    (settleFrees s).rings.cqs = s.rings.cqs := by
  refine ⟨forAll_keeps (fun s => s.cue.run) _ _ s fun b s => ?_, forAll_keeps (fun s => s.cue.arm) _ _ s fun b s => ?_,
    forAll_keeps (fun s => s.rings.cqs) _ _ s fun b s => ?_⟩ <;> dsimp only <;> split <;> simp [dropBuffer_cue]

theorem settleFrees_only (s : State) : Only [.rings, .hif, .cue, .mem, .out] s (settleFrees s) := by
  intro p hp
  cases p <;> simp [Part.same] at hp ⊢

/-- Deciding the coming frame anew leaves the run of the frame in progress. -/
theorem decideAgain_run (s : State) : (decideAgain s).cue.run = s.cue.run := by
  unfold decideAgain
  dsimp only
  (repeat' split) <;> simp

theorem decideAgain_idle {s : State} (h : s.cue.coming = none) : decideAgain s = s := by
  simp [decideAgain, h]

/-- Has the step point acted on the arm in place (R288)? -/
def armDue (s : State) : Bool :=
  match s.cue.arm with
  | some (.start n _ _) => decide (n ≤ nextFe s)
  | some (.stop n _) => decide (n ≤ nextFe s)
  | none => false

/-- The state in which a new arm is put: where the one before it had acted, the coming frame is decided anew. -/
def armBase (s : State) : State := if armDue s then decideAgain s else s

theorem armBase_run (s : State) : (armBase s).cue.run = s.cue.run := by
  unfold armBase
  split
  · exact decideAgain_run s
  · rfl

theorem armBase_idle {s : State} (h : s.cue.coming = none) : armBase s = s := by
  rw [armBase, decideAgain_idle h, ite_self]

/-- A new arm, before the frees that it allows. -/
def putArm (a : CueArm) (s : State) : State := { armBase s with cue := { (armBase s).cue with arm := some a } }

theorem putArm_only {a : CueArm} {s : State} (h : s.cue.coming = none) : Only [.cue] s (putArm a s) := by
  intro p hp
  cases p <;> simp [Part.same, putArm, armBase_idle h] at hp ⊢

section
variable (kind fe : Nat) (body : Bytes)

theorem armCue_eq (s : State) : armCue kind fe body s = settleFrees (putArm (cueArm kind fe body) s) := rfl

theorem armCue_arms (s : State) : (armCue kind fe body s).cue.run = s.cue.run ∧
    (armCue kind fe body s).cue.arm = some (cueArm kind fe body) := by
  obtain ⟨hrun, harm, -⟩ := settleFrees_keeps (putArm (cueArm kind fe body) s)
  rw [armCue_eq, hrun, harm]
  exact ⟨armBase_run s, rfl⟩

/-- With no frame of a cue to come, an arm completes nothing and stays within the cue, its buffers and their events. -/
theorem armCue_keeps {s : State} (h : s.cue.coming = none) : (armCue kind fe body s).rings.cqs = s.rings.cqs ∧
    Only [.rings, .hif, .cue, .mem, .out] s (armCue kind fe body s) := by
  obtain ⟨-, -, hcqs⟩ := settleFrees_keeps (putArm (cueArm kind fe body) s)
  rw [armCue_eq, hcqs]
  refine ⟨?_, only_trans (only_mono (by decide) (putArm_only h)) (settleFrees_only _)⟩
  rw [putArm, armBase_idle h]

end

/-! ## What a cue command comes to -/

/-- Is CUE_START or CUE_STOP carried by the wall (R358)? -/
def wallCue (c : Conf) : Bool := fbit c GNG_CTRL_EN && fbit c GNG_CTRL_WALL_CUE

/-- An exchange that awaits some tile's answer is not settled. -/
theorem settleExchange_waits {t : State} {a : WallArm} (harms : t.gng.arms = [a]) {k : Nat} (hpart : k ∈ partTiles t)
    (hack : ackOf a k = none) : settleExchange t = t := by
  unfold settleExchange
  rw [List.filter_eq_nil_iff.mpr fun b hb => ?_]
  · rfl
  · obtain rfl : b = a := by simpa [harms] using hb
    rw [Bool.and_eq_true, List.all_eq_true]
    rintro ⟨-, hall⟩
    simpa [hack] using hall k hpart

/-- The wall arm of a cue command, as its originator begins it: acknowledged by this tile alone. -/
def ownArm (sq kind fe : Nat) (body : Bytes) (s : State) : WallArm :=
  { id := nextArmId s, kind, slots := 0, fe, body, ring := some sq, acks := [(tileIndex s.conf, SUCCESS, 0)] }

section
variable (sq kind fe : Nat) (r : Running) (body : Bytes) {s : State}

theorem ackOf_ownArm {k : Nat} (hk : k ≠ tileIndex s.conf) : ackOf (ownArm sq kind fe body s) k = none := by
  simp [ackOf, ownArm, hk.symm]

theorem beginWallArm_arms (h : s.gng.arms = []) :
    (beginWallArm sq r kind 0 fe 0 body s).gng.arms = [ownArm sq kind fe body s] := by
  simp [beginWallArm, ownArm, h]

theorem partTiles_beginWallArm : partTiles (beginWallArm sq r kind 0 fe 0 body s) = partTiles s := rfl

theorem beginWallArm_out : (beginWallArm sq r kind 0 fe 0 body s).out =
    ((upPorts s).map fun p => .gngFrame p (gngWire (gngBytes s 0x05 1 (armPayload (nextArmId s) kind 0 fe body)))).reverse ++ s.out :=
  rfl

theorem beginWallArm_only : Only [.rings, .gng, .out] s (beginWallArm sq r kind 0 fe 0 body s) := by
  intro p hp
  have hhif : (beginWallArm sq r kind 0 fe 0 body s).hif = s.hif := rfl
  cases p <;> simp [Part.same, hhif] at hp ⊢

end

section
variable {sq kind : Nat} {r : Running} {s : State}

/-- A command that breaks a rule completes with its status and changes nothing else. -/
theorem cueCommand_refused {st r0 : Nat} (hidle : ∀ a ∈ s.gng.arms, a.ring = none)
    (hfault : cueFault s kind (wallBody r.raw) = some (st, r0)) :
    Completed s (settleExchange (cueCommand sq kind r s)) .pf0 sq r st [r0] ∧
      Only [.rings, .hif, .trc, .out, .free] s (settleExchange (cueCommand sq kind r s)) := by
  have hrefused : cueCommand sq kind r s = finish .pf0 sq r st [r0] s := by simp only [cueCommand, hfault]
  rw [hrefused, settleExchange_idle (by simpa using hidle)]
  exact ⟨finish_completed _ _ _ _ _ rfl, finish_only _ _ _ _ _ s⟩

variable {fe : Nat} (hfault : cueFault s kind (wallBody r.raw) = none)
include hfault

/-- Outside a wall the command arms at once, and what runs goes on. -/
theorem cueCommand_arms (hwall : wallCue s.conf = false) (hfe : armFe s.sys.fe (fieldAt r.raw 0x20 8) 2 = some fe)
    (hidle : ∀ a ∈ s.gng.arms, a.ring = none) :
    (sqOf (settleExchange (cueCommand sq kind r s)).rings .pf0 sq).running = none ∧
      (settleExchange (cueCommand sq kind r s)).cue.run = s.cue.run ∧
      (settleExchange (cueCommand sq kind r s)).cue.arm = some (cueArm kind fe (wallBody r.raw)) ∧
      (s.cue.coming = none → Completed s (settleExchange (cueCommand sq kind r s)) .pf0 sq r SUCCESS (lohi fe) ∧
        Only [.rings, .hif, .cue, .mem, .gng, .trc, .out, .free] s (settleExchange (cueCommand sq kind r s))) := by
  have harms : cueCommand sq kind r s = finish .pf0 sq r SUCCESS (lohi fe) (armCue kind fe (wallBody r.raw) s) := by
    rw [wallCue] at hwall
    simp only [cueCommand, hfault, hwall, Bool.false_eq_true, if_false, hfe]
  rw [harms, settleExchange_idle (by simpa using hidle)]
  obtain ⟨hrun, harm⟩ := armCue_arms kind fe (wallBody r.raw) s
  refine ⟨finish_running .., by simpa using hrun, by simpa using harm, fun hcoming => ?_⟩
  obtain ⟨hcqs, honly⟩ := armCue_keeps kind fe (wallBody r.raw) hcoming
  exact ⟨finish_completed _ _ _ _ _ hcqs, finish_only_after honly (by decide) (by decide)⟩

/-- In a wall the command floods its ARM and waits for the other tiles, and no cue is armed. -/
theorem cueCommand_waits (hwall : wallCue s.conf = true) (hfe : armFe s.sys.fe (fieldAt r.raw 0x20 8) 4 = some fe)
    (hnone : s.gng.arms = []) (hother : ∃ k ∈ partTiles s, k ≠ tileIndex s.conf) :
    Waits (settleExchange (cueCommand sq kind r s)) .pf0 sq r (nextArmId s) ∧
      (settleExchange (cueCommand sq kind r s)).cue = s.cue ∧
      (∀ p ∈ upPorts s, .gngFrame p (gngWire (gngBytes s 0x05 1 (armPayload (nextArmId s) kind 0 fe (wallBody r.raw)))) ∈
        (settleExchange (cueCommand sq kind r s)).out) ∧
      Only [.rings, .gng, .out] s (settleExchange (cueCommand sq kind r s)) := by
  have hbegins : cueCommand sq kind r s = beginWallArm sq r kind 0 fe 0 (wallBody r.raw) s := by
    rw [wallCue] at hwall
    simp only [cueCommand, hfault, hwall, if_true, hfe]
  obtain ⟨k, hpart, hk⟩ := hother
  have hwaits := settleExchange_waits (beginWallArm_arms sq kind fe r (wallBody r.raw) hnone)
    ((partTiles_beginWallArm ..).symm ▸ hpart) (ackOf_ownArm sq kind fe (wallBody r.raw) hk)
  rw [hbegins, hwaits, beginWallArm_out]
  exact ⟨holdRunning_running .., by simp,
    fun p hp => List.mem_append_left _ (List.mem_reverse.mpr (List.mem_map_of_mem hp)), beginWallArm_only sq kind fe r _⟩

end

/-! ## The statement -/

/-- Settles O42: a load stands by its plan, a free by whether anything refers to the buffer, and CUE_START and CUE_STOP are one cue
command that is refused, arms, or begins an exchange. -/
theorem cuesLoadStartAndStop : Obligations.CuesLoadStartAndStop := by
  refine ⟨?plain, ?opened, ?brace, ?free, ?deferred, ?start, ?stop, ?wallStart, ?wallStop, ?startRefused, ?stopRefused⟩
  case plain =>
    intro sq data r page pages s hbrace hready hbus hsealed hb hfree hlen hpages hrun hok hdata
    have hplan := loadPlan_plain hb hfree hlen hpages hrun hok hdata (fieldAt r.raw 0x30 4)
    have hfits : (data.bytes.take (fieldAt r.raw 0x28 8)).length ≤ 4096 * pages := by rw [List.length_take]; omega
    obtain ⟨t, hexec, hdone, hbuffer, hin, hout, -, honly⟩ := cueLoad_loads hbrace hready hbus hok hsealed hfits hplan
    exact ⟨t, hexec, hdone, hbuffer, hin, hout, honly⟩
  case opened =>
    intro sq data r page pages key d x s hbrace hready hbus hsealed hb hfree hlen hpages hrun hok hdata hservice hkey hopen hfits
    have hplan := loadPlan_sealed hb hfree hlen hpages hrun hok hdata hservice hkey hopen hfits
    obtain ⟨t, hexec, hdone, hbuffer, hin, -, hguarded, honly⟩ := cueLoad_loads hbrace hready hbus hok hsealed hfits hplan
    exact ⟨t, hexec, hdone, hbuffer, hin, hguarded rfl, honly⟩
  case brace =>
    intro sq data s hbrace
    simp only [exec, execCueLoad, hbrace, if_true]
  case free =>
    intro sq r b s hready hbuffer hfree
    refine ⟨_, exec_freeBuffer_free hready hbuffer hfree, finish_completed _ _ _ _ _ (by simp), ?_, fun a hfrom hto => ?_,
      fun a ha => ?_, finish_only_after dropBuffer_only (by decide) (by decide)⟩
    · rw [bufferOf_finish, bufferOf_dropBuffer]
    · simp only [finish_frame, dropBuffer_byte hbuffer, hfrom, hto, and_self, if_true]
    · simp only [finish_frame, dropBuffer_byte hbuffer]
      rw [if_neg (by omega)]
  case deferred =>
    intro sq r b s hready hbuffer hheld
    refine ⟨_, exec_freeBuffer_deferred hready hbuffer hheld, finish_completed _ _ _ _ _ rfl, ?_, fun p hp => ?_⟩
    · rw [bufferOf_finish, bufferOf, aget_aput, if_pos rfl]
    · cases p <;> simp [Part.same] at hp ⊢
  case start =>
    intro sq fe r s hready hwall hclean hmode hbody hfe hidle
    exact ⟨_, exec_cueStart hready hclean, cueCommand_arms (cueFault_start hmode hbody) hwall hfe hidle⟩
  case stop =>
    intro sq fe r s hready hwall hbody hfe hidle
    exact ⟨_, exec_cueStop hready, cueCommand_arms ((cueFault_stop ..).trans hbody) hwall hfe hidle⟩
  case wallStart =>
    intro sq fe r s hready hwall hclean hmode hbody hfe hnone hother
    exact ⟨_, exec_cueStart hready hclean, cueCommand_waits (cueFault_start hmode hbody) hwall hfe hnone hother⟩
  case wallStop =>
    intro sq fe r s hready hwall hbody hfe hnone hother
    exact ⟨_, exec_cueStop hready, cueCommand_waits ((cueFault_stop ..).trans hbody) hwall hfe hnone hother⟩
  case startRefused =>
    intro sq r s hready hclean hidle
    refine ⟨fun hbusy => ?_, fun hno hmode => ?_⟩
    · have hmode : startMode s = some MODE_BUSY := by simp [startMode, hbusy]
      exact ⟨_, exec_cueStart hready hclean, cueCommand_refused hidle (cueFault_startMode hmode _)⟩
    · have hmode : startMode s = some MODE_INVALID := by rcases hmode with h | h <;> simp [startMode, hno, h]
      exact ⟨_, exec_cueStart hready hclean, cueCommand_refused hidle (cueFault_startMode hmode _)⟩
  case stopRefused =>
    intro sq r s hready hidle htarget hmode harm
    exact ⟨_, exec_cueStop hready, cueCommand_refused hidle ((cueFault_stop ..).trans (stopFault_mode htarget hmode harm))⟩

end Sys2Proof.Proofs
end

section
/-!
The parts that every command leaves alone: each command stays in the parts of its row of `touches`. The commands are taken
family by family, the way they reach the block.
-/
namespace Sys2Proof.Proofs
open Sys2Proof.Machine Sys2Proof.Laws

/-! ## Every next state of an answer -/

/-- Every next state that an answer names has a property. -/
def AllNext (a : Answer) (P : State → Prop) : Prop := ∀ t, a = .next t → P t

section
variable {P : State → Prop} {s : State} {fn : Fn} {n op : Nat} {f : Running → State → State}

theorem allNext_next {t : State} (h : P t) : AllNext (.next t) P := by
  rintro u ⟨⟩; exact h

theorem allNext_runRing (hidle : P s) (hrun : ∀ r, P (f r s)) : AllNext (runRing fn n op f s) P := by
  unfold runRing
  split
  · exact allNext_next (hrun _)
  · exact allNext_next hidle

theorem allNext_runHost (hidle : P s) (hrun : ∀ r, P (f r s)) : AllNext (runHost fn n op f s) P := by
  refine allNext_runRing hidle fun r => ?_
  split
  · exact hidle
  · exact hrun r

/-- A command that reads host memory runs on the state in which a failed read of it has been reported, or on the state as it is. -/
theorem allNext_runRead {d : Rd} (hidle : P s) (hrun : ∀ r, P (f r s)) (hread : ∀ r, P (f r (reportRead fn d s))) :
    AllNext (runRead fn n op d f s) P := by
  refine allNext_runHost hidle fun r => ?_
  split
  · exact hread r
  · exact hrun r

end

/-! ## Staying in a list of parts -/

section
variable {ps : List Part} {s : State} {fn : Fn}

theorem only_of_unlisted {t : State} (h : ∀ p, ps.contains p = false → p.same s t) : Only ps s t :=
  fun p hp => h p (by simpa using hp)

theorem subset_of_all {qs : List Part} (h : qs.all ps.contains = true) : qs ⊆ ps := fun p hp => by
  simpa using List.all_eq_true.mp h p hp

theorem reportRead_only (d : Rd) (s : State) : Only [.hif, .out, .free] s (reportRead fn d s) := by
  refine only_of_unlisted fun p hp => ?_
  cases p <;> cases hp <;> simp [Part.same]

theorem runRead_only {n op : Nat} {d : Rd} {f : Running → State → State} (hread : [.hif, .out, .free].all ps.contains = true)
    (h : ∀ r u, Only ps u (f r u)) : AllNext (runRead fn n op d f s) (Only ps s) :=
  allNext_runRead (only_refl ps s) (fun r => h r s) fun r =>
    only_trans (only_mono (subset_of_all hread) (reportRead_only d s)) (h r _)

theorem hostOp_only {f : State → State} (hlink : [.hif, .rings, .out].all ps.contains = true) (h : ∀ u, Only ps u (f u)) :
    AllNext (hostOp f s) (Only ps s) := by
  have hl1 : Only ps s (f (leaveL1 s)) := only_trans (only_mono (subset_of_all hlink) (leaveL1_only s)) (h _)
  refine allNext_next ?_
  split
  · exact only_refl ps s
  · split
    · exact h s
    · exact hl1
    all_goals exact only_refl ps s

theorem cfgOp_only {f : State → State} (hlink : [.hif, .rings, .out].all ps.contains = true) (h : ∀ u, Only ps u (f u)) :
    AllNext (cfgOp fn f s) (Only ps s) := by
  refine hostOp_only hlink fun u => ?_
  split
  · have hemit : Only [.hif, .rings, .out] u (emit [.retryStatus fn] u) := by
      refine only_of_unlisted fun p hp => ?_
      cases p <;> cases hp <;> simp [Part.same]
    exact only_mono (subset_of_all hlink) hemit
  · exact h u

theorem msixOp_only {m : MsixTarget} {f : State → State} (hlink : [.hif, .rings, .out].all ps.contains = true)
    (h : ∀ u, Only ps u (f u)) : AllNext (msixOp fn m f s) (Only ps s) := by
  cases m with
  | vector v => exact hostOp_only hlink h
  | enable => exact cfgOp_only hlink h
  | function => exact cfgOp_only hlink h

end

/-! ## The parts that a command leaves alone -/

/-- The function on whose rings a command runs. -/
def ringOf : Instr → Option Fn
  | .setTable .. | .stageConfig .. | .armConfig .. | .armConfigCancel .. | .modeReq .. | .memCopy .. | .memFill .. | .freeBuffer ..
  | .cueLoad .. | .cueStart .. | .cueStop .. | .zoneOverride .. | .zoneOverrideClear .. | .zoneRead .. | .calRun ..
  | .spareCommit .. => some .pf0
  | .linenRead .. | .linenWrite .. | .linenStore .. | .linenBracketOpen .. | .linenBracketClose .. | .linenBracketAbort ..
  | .traceCfg .. | .lifecycleAdvance .. | .debugToken .. | .debugRevoke .. | .measExtend .. | .svnCommit .. | .nbrMeasRead ..
  | .nbrPin .. | .fwUpdate .. | .keyErase .. => some .pf1
  | .faultQuery fn _ => some fn
  | _ => none

theorem exec_only_of_ring_pf0 {i : Instr} (h : ringOf i = some .pf0) (s : State) : AllNext (exec i s) (Only (touches i) s) := by
  cases i
  case' setTable | stageConfig | memCopy | zoneOverride => unfold exec; refine runRead_only (by rfl) fun r u => ?_
  case' faultQuery => unfold exec; refine allNext_runHost (only_refl _ _) fun r => ?_
  case' armConfig | armConfigCancel | modeReq | memFill | freeBuffer | cueStart | cueStop | zoneOverrideClear | zoneRead | calRun
      | spareCommit =>
    unfold exec; refine allNext_runRing (only_refl _ _) fun r => ?_
  case' memFill | freeBuffer | stageConfig => dsimp only
  case' memCopy => dsimp only; generalize (if bit _ 1 then none else regionUpdate u _ _) = region
  case' cueLoad =>
    simp only [exec, execCueLoad]
    split
    · exact allNext_next (only_refl _ _)
    refine runRead_only (by rfl) fun r u => ?_
  all_goals cases h <;> (repeat' split) <;> refine only_of_unlisted fun p hp => ?_ <;> cases p <;> cases hp <;> simp [Part.same]

theorem exec_only_of_ring_pf1 {i : Instr} (h : ringOf i = some .pf1) (s : State) : AllNext (exec i s) (Only (touches i) s) := by
  cases i
  case' lifecycleAdvance | debugToken | measExtend | nbrPin | fwUpdate => unfold exec; refine runRead_only (by rfl) fun r u => ?_
  case' linenRead | faultQuery | nbrMeasRead => unfold exec; refine allNext_runHost (only_refl _ _) fun r => ?_
  case' linenStore | linenBracketOpen | linenBracketClose | linenBracketAbort | traceCfg | debugRevoke | svnCommit | keyErase =>
    unfold exec; refine allNext_runRing (only_refl _ _) fun r => ?_
  case' nbrMeasRead | lifecycleAdvance => dsimp only
  case' linenWrite sq d =>
    simp only [exec, execLinenWrite]
    split
    on_goal 1 => refine allNext_next ?_
    on_goal 2 => refine runRead_only (by rfl) fun r u => ?_
  all_goals cases h <;> (repeat' split) <;> refine only_of_unlisted fun p hp => ?_ <;> cases p <;> cases hp <;> simp [Part.same]

theorem exec_only_of_overLink {i : Instr} (h : overLink i = true) (s : State) : AllNext (exec i s) (Only (touches i) s) := by
  cases i
  case' registerWrite fn a size v poisoned => cases a
  case' registerRead fn a size => cases a
  case' registerWrite.config | registerRead.config | flrPf0 | flrPf1 | d3hotEntry | d0Return | busMasterEnableSet
      | marginingCommand | busMasterEnableClear | bar4Resize => unfold exec; refine cfgOp_only (by rfl) fun u => ?_
  case' msixMask | msixUnmask => unfold exec; refine msixOp_only (by rfl) fun u => ?_
  case' registerWrite.bar0 | registerWrite.bar2 | registerWrite.bar2Wide =>
    simp only [exec, execRegisterWrite]; refine hostOp_only (by rfl) fun u => ?_
  case' registerRead.bar0 | registerRead.bar2 | registerRead.bar2Wide =>
    simp only [exec, execRegisterRead]; refine hostOp_only (by rfl) fun u => ?_
  case' registerWrite.bar0 => rw [windowWrite]
  case' registerRead.bar0 => rw [windowRead]
  case' hotReset | linkDown | l0pWidthChange | pmeTurnOff | pushHeaderCommit | pushPayloadWrite | bar4Read
      | bar4Write | sysSetupLockWrite | hifBar4BaseWrite | sysGpioOutWrite | cueSignalWrite | pwrBraceWrite | sqEnable | sqDisable
      | sqErrorClear | cqEnable | cqDisable | eqEnable | eqDisable | submissionDoorbell | completionHeadDoorbell
      | eventHeadDoorbell | twillTestStart | twillTestStop | twillTestRead | twillErrorInject =>
    unfold exec; refine hostOp_only (by rfl) fun u => ?_
  all_goals cases h <;> (repeat' split) <;> refine only_of_unlisted fun p hp => ?_ <;> cases p <;> cases hp <;> simp [Part.same]

/-- The load of the map names the state it leaves, whose frame is that of `loadMap`. -/
theorem exec_damaskLoadDone_only (ms : Nat) (s : State) :
    AllNext (exec (.damaskLoadDone ms) s) (Only (touches (.damaskLoadDone ms)) s) := by
  refine allNext_next ?_
  split
  case h_2 => exact only_refl _ s
  case h_1 p hused =>
    have hload := loadMap_frame p.damask s
    split
    · generalize loadMap p.damask s = m at hload
      obtain ⟨s1, written, bad, first⟩ := m
      dsimp only at hload
      refine only_of_unlisted fun p hp => ?_
      cases p <;> cases hp <;> simp [Part.same, hload]
    · exact only_refl _ s

theorem seenTrace_only (p : Nat) (s : State) : Only [.rings, .hif, .trc, .out, .free] s (seen p s) := by
  refine only_of_unlisted fun q hq => ?_
  cases q <;> cases hq <;> simp [Part.same]

/-- A flooded message changes, besides what it does here, the wall's own state and what is sent. -/
theorem flooded_only {ps : List Part} {port type src seqNo : Nat} {payload : Bytes} {act : State → State} {s : State}
    (hwall : [.gng, .out].all ps.contains = true) (hact : ∀ u, Only ps u (act u)) :
    Only ps s (flooded port type src seqNo payload act s) := by
  have hbefore : Only [.gng, .out] s (flooded port type src seqNo payload id s) := by
    refine only_of_unlisted fun p hp => ?_
    cases p <;> cases hp <;> simp [Part.same]
  have hsame : flooded port type src seqNo payload act s = flooded port type src seqNo payload id s ∨
      flooded port type src seqNo payload act s = act (flooded port type src seqNo payload id s) := by
    unfold flooded
    dsimp only
    split
    · exact .inl rfl
    · split
      · exact .inl rfl
      · exact .inr rfl
  have h := only_mono (subset_of_all hwall) hbefore
  rcases hsame with heq | heq <;> rw [heq]
  · exact h
  · exact only_trans h (hact _)

section
variable {i : Instr} (hlink : overLink i = false) (hring : ringOf i = none)
include hlink hring

theorem exec_only_of_sys (hsys : (touches i).contains .sys = true) (s : State) : AllNext (exec i s) (Only (touches i) s) := by
  cases i
  case damaskLoadDone ms => exact exec_damaskLoadDone_only ms s
  all_goals cases hlink <;> cases hring <;> cases hsys <;> refine allNext_next ?_ <;> (repeat' split) <;>
    refine only_of_unlisted fun p hp => ?_ <;> cases p <;> cases hp <;> simp [Part.same]

section
variable (hsys : (touches i).contains .sys = false)
include hsys

theorem exec_only_of_gng (hgng : (touches i).contains .gng = true) (s : State) : AllNext (exec i s) (Only (touches i) s) := by
  cases i
  case' armAck | armCommit =>
    refine allNext_next (only_trans (flooded_only ?_ fun u => ?_) (only_mono (subset_of_all (by rfl)) (seenTrace_only _ _)))
    rfl
  all_goals cases hlink <;> cases hring <;> cases hsys <;> cases hgng
  any_goals refine allNext_next ?_
  all_goals (repeat' split) <;> refine only_of_unlisted fun p hp => ?_ <;> cases p <;> cases hp <;> simp [Part.same]

theorem exec_only_of_lin (hgng : (touches i).contains .gng = false) (hlin : (touches i).contains .lin = true) (s : State) :
    AllNext (exec i s) (Only (touches i) s) := by
  cases i <;> cases hlink <;> cases hring <;> cases hsys <;> cases hgng <;> cases hlin <;> refine allNext_next ?_ <;>
    (repeat' split) <;> refine only_of_unlisted fun p hp => ?_ <;> cases p <;> cases hp <;> simp [Part.same]

theorem exec_only_of_hif (hgng : (touches i).contains .gng = false) (hlin : (touches i).contains .lin = false)
    (hhif : (touches i).contains .hif = true) (s : State) : AllNext (exec i s) (Only (touches i) s) := by
  cases i <;> cases hlink <;> cases hring <;> cases hsys <;> cases hgng <;> cases hlin <;> cases hhif <;>
    refine allNext_next ?_ <;> (repeat' split) <;> refine only_of_unlisted fun p hp => ?_ <;> cases p <;> cases hp <;>
    simp [Part.same]

theorem exec_only_of_few (hgng : (touches i).contains .gng = false) (hlin : (touches i).contains .lin = false)
    (hhif : (touches i).contains .hif = false) (s : State) : AllNext (exec i s) (Only (touches i) s) := by
  cases i <;> cases hlink <;> cases hring <;> cases hsys <;> cases hgng <;> cases hlin <;> cases hhif <;>
    refine allNext_next ?_ <;> (repeat' split) <;> refine only_of_unlisted fun p hp => ?_ <;> cases p <;> cases hp <;>
    simp [Part.same]

end

end

/-- Each command stays in the parts of its row. -/
theorem exec_only (i : Instr) (s : State) : AllNext (exec i s) (Only (touches i) s) := by
  cases hlink : overLink i
  case true => exact exec_only_of_overLink hlink s
  cases hring : ringOf i
  case some fn =>
    cases fn with
    | pf0 => exact exec_only_of_ring_pf0 hring s
    | pf1 => exact exec_only_of_ring_pf1 hring s
  cases hsys : (touches i).contains .sys
  case true => exact exec_only_of_sys hlink hring hsys s
  cases hgng : (touches i).contains .gng
  case true => exact exec_only_of_gng hlink hring hsys hgng s
  cases hlin : (touches i).contains .lin
  case true => exact exec_only_of_lin hlink hring hsys hgng hlin s
  cases hhif : (touches i).contains .hif
  case true => exact exec_only_of_hif hlink hring hsys hgng hlin hhif s
  case false => exact exec_only_of_few hlink hring hsys hgng hlin hhif s

theorem queue_untouched (i : Instr) : (touches i).contains .pending = false := by cases i <;> rfl

/-- Settles O3: each command stays in the parts of its row, and no row names the queue. -/
theorem commandsStayInTheirParts : Obligations.CommandsStayInTheirParts := by
  intro i s t h
  have honly := exec_only i s t h
  have hqueue : .pending ∉ touches i := by simpa using queue_untouched i
  exact ⟨honly, honly .pending hqueue⟩

end Sys2Proof.Proofs
end

section
/-!
What every step keeps: module memory stays sound (R298), and the fuses only go forward (R365, R371). A command whose row of
`touches` does not name the part keeps it for that reason.
-/
namespace Sys2Proof.Proofs
open Sys2Proof.Machine Sys2Proof.Laws

/-! ## Module memory stays sound (R298) -/

theorem runRead_memSound {fn : Fn} {n op : Nat} {d : Rd} {f : Running → State → State} {s : State} (hs : MemSound s)
    (h : ∀ r u, MemSound u → MemSound (f r u)) : AllNext (runRead fn n op d f s) MemSound :=
  allNext_runRead hs (fun r => h r s hs) fun r => h r _ (by simpa [MemSound] using hs)

section
variable {s : State} (hs : MemSound s)
include hs

theorem memSound_of_untouched {i : Instr} (hmem : (touches i).contains .mem = false) : AllNext (exec i s) MemSound := by
  intro t h
  have hsame : t.mem = s.mem := exec_only i s t h .mem (by simpa using hmem)
  unfold MemSound
  rwa [hsame]

/-- A flooded message is traced, and what it does here keeps memory sound. -/
theorem seen_flooded_memSound {port type src seqNo : Nat} {payload : Bytes} {act : State → State}
    (hact : ∀ u, MemSound u → MemSound (act u)) : MemSound (seen port (flooded port type src seqNo payload act s)) := by
  have hflooded := flooded_sound port type src seqNo payload act s hact hs
  simpa [MemSound] using hflooded

theorem exec_lineTick_memSound (env : LineEnv) : AllNext (exec (.lineTick env) s) MemSound := by
  refine allNext_next ?_
  split
  · exact hs
  · split
    · simpa [MemSound] using hs
    · refine slotBegins_sound env _ ?_
      have hended := endSlot_sound _ (followMarker_sound env.table s hs)
      simpa using hended

theorem exec_frameTick_memSound : AllNext (exec .frameTick s) MemSound := by
  refine allNext_next ?_
  split
  · refine settleReset_sound _ ?_
    simp only [runPolls_frame, runGates_frame]
    refine emitSlot_sound _ ?_
    simp only [fixedQuietEnd_frame, beginReads_frame, stopQuiet_frame, lineMatches_frame, takePolarity_frame, accLt_frame,
      cueAhead_frame, newFrame_frame, trace1_frame, postReleases_frame]
    refine releaseStaging_sound _ (settleFrees_sound _ ?_)
    simp only [linksFt_frame]
    refine beginFrame_sound _ _ _ ?_
    simp only [closeFrame_frame, lateStep_frame]
    exact endSlot_sound s hs
  · exact hs

/-- Each command keeps module memory sound: most leave it alone, and what the others do to it has its own lemma in Laws. -/
theorem exec_memSound (i : Instr) : AllNext (exec i s) MemSound := by
  cases hmem : (touches i).contains .mem
  case false => exact memSound_of_untouched hs hmem
  case true =>
    cases i
    case lineTick env => exact exec_lineTick_memSound hs env
    case frameTick => exact exec_frameTick_memSound hs
    case bandDeadline =>
      refine allNext_next ?_
      split
      · exact forAll_sound _ _ _ (fun p u hu => judgeDue_sound p u hu) hs
      · exact hs
    case cueStart =>
      unfold exec
      exact allNext_runRing hs fun r => settleExchange_sound _ (cueCommand_sound _ 1 r _ (listCheck_sound _ _ hs))
    case' armAck | armCommit => refine allNext_next (seen_flooded_memSound hs fun u hu => ?_)
    case' setTable | memCopy | lifecycleAdvance | fwUpdate => unfold exec; refine runRead_memSound hs fun r u hu => ?_
    case' memCopy => dsimp only; generalize (if bit _ 1 then none else regionUpdate _ _ _) = region
    case' armConfig | memFill | freeBuffer | cueStop | spareCommit => unfold exec; refine allNext_runRing hs fun r => ?_
    case' cueLoad =>
      simp only [exec, execCueLoad]
      split
      · exact allNext_next hs
      refine runRead_memSound hs fun r u hu => ?_
    all_goals cases hmem
    any_goals refine allNext_next ?_
    all_goals (try dsimp only); (repeat' split) <;> simp_all [MemSound]
end

/-! ## A step -/

/-- What holds of every state a step starts from and of every next state of its front command holds after the step. -/
theorem step_reaches {P : State → Prop} {s t : State} (hidle : P s)
    (hexec : ∀ (i : Instr) (rest : List Instr), AllNext (exec i { s with pending := rest }) P) (h : step s = .next t) : P t := by
  unfold step at h
  split at h
  · cases h
    exact hidle
  · exact hexec _ _ t h

/-- Settles O1: `step` is this case split. -/
theorem stepRunsTheFrontCommand : Obligations.StepRunsTheFrontCommand :=
  ⟨fun _ _ _ => rfl, fun s h => by rw [step, h]⟩

/-- Settles O4: each command keeps memory sound, and a step is one command. -/
theorem stepsKeepMemorySound : Obligations.StepsKeepMemorySound := fun s _ hs h =>
  step_reaches hs (fun i rest => exec_memSound (s := { s with pending := rest }) hs i) h

theorem mgets_nil {α : Type} (d : α) (k n : Nat) : mgets d [] k n = List.replicate n d := by
  induction n generalizing k with
  | zero => rfl
  | succ n ih => rw [mgets, ih, List.replicate_succ]; rfl

/-- Settles O5: at reset neither map lists anything. -/
theorem resetMemoryIsSound : Obligations.ResetMemoryIsSound := 
  ⟨empty_sound, fun a n => mgets_nil 0 a n⟩

/-! ## The fuses only go forward (R365, R371) -/

theorem fusesForward_refl (f : Fuses) : FusesForward f f := ⟨le_rfl, le_rfl⟩

section
variable {s : State}

theorem fusesForward_of_eq {t : State} (h : t.sec.fuses = s.sec.fuses) : FusesForward s.sec.fuses t.sec.fuses :=
  h ▸ fusesForward_refl _

theorem fusesForward_of_untouched {i : Instr} (hsec : (touches i).contains .sec = false) :
    AllNext (exec i s) (fun t => FusesForward s.sec.fuses t.sec.fuses) := by
  intro t h
  have hsame : t.sec = s.sec := exec_only i s t h .sec (by simpa using hsec)
  exact fusesForward_of_eq (congrArg Sec.fuses hsame)

theorem runRead_fusesForward {fn : Fn} {n op : Nat} {d : Rd} {f : Running → State → State}
    (h : ∀ r u, FusesForward u.sec.fuses (f r u).sec.fuses) :
    AllNext (runRead fn n op d f s) (fun t => FusesForward s.sec.fuses t.sec.fuses) :=
  allNext_runRead (fusesForward_refl _) (fun r => h r s) fun r => by simpa using h r (reportRead fn d s)

/-- A lifecycle transition writes the state's fuse, and in the one to OWNED the owner's (R366). -/
theorem advance_fuses (new : Nat) (hash : Bytes) (cosign : Bool) (s : State) :
    (advance_ new hash cosign s).sec.fuses =
      if new = 1 then { s.sec.fuses with lifecycle := new, ownerHash := hash, cosign }
      else { s.sec.fuses with lifecycle := new } := by
  unfold advance_
  dsimp only
  simp only [post_frame]
  (repeat' split) <;> simp

theorem advance_fusesForward {new : Nat} (hash : Bytes) (cosign : Bool) (h : lifecycleStep s.sec.fuses.lifecycle new = true) :
    FusesForward s.sec.fuses (advance_ new hash cosign s).sec.fuses := by
  have hle : s.sec.fuses.lifecycle ≤ new := by simp [lifecycleStep] at h; omega
  rw [advance_fuses]
  split <;> exact ⟨hle, le_rfl⟩

theorem afterTransfer_memCopy_fuses (raw : Bytes) (d : Rd) (s : State) :
    (afterTransfer s (memCopy raw d s)).sec.fuses = s.sec.fuses := by
  unfold memCopy
  simp only [afterTransfer_ite, afterTransfer_bad, afterTransfer_ran]
  simp [apply_ite Sec.fuses]

theorem exec_lifecycleAdvance_fusesForward (sq : Nat) (d : Rd) :
    AllNext (exec (.lifecycleAdvance sq d) s) (fun t => FusesForward s.sec.fuses t.sec.fuses) := by
  unfold exec
  refine runRead_fusesForward fun r u => ?_
  dsimp only
  repeat' split
  case h_2.isTrue hstep =>
    simp only [Bool.and_eq_true] at hstep
    simpa using advance_fusesForward _ _ hstep.2
  all_goals exact fusesForward_of_eq (by simp)

theorem exec_svnCommit_fusesForward (sq : Nat) :
    AllNext (exec (.svnCommit sq) s) (fun t => FusesForward s.sec.fuses t.sec.fuses) := by
  unfold exec
  refine allNext_runRing (fusesForward_refl _) fun r => ?_
  split
  · exact fusesForward_of_eq (by simp)
  · exact ⟨by simp, by simp⟩

/-- Each command takes the fuses forward: the lifecycle only by a step of Table 17.2, and the minimum version only by a maximum. -/
theorem exec_fusesForward (i : Instr) : AllNext (exec i s) (fun t => FusesForward s.sec.fuses t.sec.fuses) := by
  cases hsec : (touches i).contains .sec
  case false => exact fusesForward_of_untouched hsec
  case true =>
    cases i
    case lifecycleAdvance sq d => exact exec_lifecycleAdvance_fusesForward sq d
    case svnCommit sq => exact exec_svnCommit_fusesForward sq
    case' memCopy | debugToken | measExtend | nbrPin | fwUpdate => unfold exec; refine runRead_fusesForward fun r u => ?_
    case' memCopy => dsimp only; generalize (if bit _ 1 then none else regionUpdate _ _ _) = region
    case' memFill | cueStart | traceCfg | debugRevoke | keyErase =>
      unfold exec; refine allNext_runRing (fusesForward_refl _) fun r => ?_
    case' cueLoad =>
      simp only [exec, execCueLoad]
      split
      · exact allNext_next (fusesForward_refl _)
      refine runRead_fusesForward fun r u => ?_
    all_goals cases hsec
    any_goals refine allNext_next ?_
    all_goals (try dsimp only); (repeat' split) <;> refine fusesForward_of_eq ?_ <;> simp [afterTransfer_memCopy_fuses]

end

/-- Settles O6: each command takes the fuses forward, and a step is one command. -/
theorem fusesNeverGoBack : Obligations.FusesNeverGoBack := fun s _ h =>
  step_reaches (P := fun t => FusesForward s.sec.fuses t.sec.fuses) (fusesForward_refl _) (fun i _ => exec_fusesForward i) h

end Sys2Proof.Proofs
end

section
/-!
MEM_COPY, MEM_FILL and the region updates of the hold frame (R313, R273, R274): the outcome of a transfer that nothing stops, and
how it ends with and without a region.
-/
namespace Sys2Proof.Proofs
open Sys2Proof.Machine Sys2Proof.Laws

/-! ## Bytes -/

theorem getD_mgets {α : Type} (d e : α) (m : SMap α) {k n i : Nat} (hi : i < n) : (mgets d m k n).getD i e = mget d m (k + i) := by
  induction n generalizing k i with
  | zero => omega
  | succ n ih =>
    cases i with
    | zero => rfl
    | succ i => simpa [mgets, Nat.add_right_comm, Nat.add_assoc] using ih (k := k + 1) (Nat.lt_of_succ_lt_succ hi)

section
variable {a n : Nat} {s : State}

/-- A fill with 0 that covers whole pages clears them: every byte of the range reads 0 all the same (R302). -/
theorem fillMem_byte (a n pattern : Nat) (s : State) (b : Nat) : mget 0 (fillMem a n pattern s).mem.bytes b =
    if a ≤ b ∧ b < a + n then BitVec.ofNat 8 (pattern / 256 ^ (b % 8)) else mget 0 s.mem.bytes b := by
  unfold fillMem
  dsimp only
  split
  · rename_i h
    obtain ⟨rfl, hpages⟩ : pattern = 0 ∧ (a + 4095) / 4096 < (a + n) / 4096 := by simpa using h
    have hzero : ∀ i m : Nat, (List.replicate m (0 : Byte)).getD i 0 = 0 := fun i m => by
      rw [List.getD_eq_getElem?_getD, List.getElem?_replicate]
      split <;> rfl
    simp only [clearPages_byte, writeMem_byte, List.length_replicate, hzero, Nat.zero_div]
    (repeat' split) <;> first | rfl | omega
  · rw [writeMem_byte, List.length_map, List.length_range]
    split
    · rename_i h
      rw [List.getD_eq_getElem?_getD, List.getElem?_map, List.getElem?_range (by omega)]
      simp [fillByte, Nat.add_sub_of_le h.1]
    · rfl

theorem fillMem_only (a n pattern : Nat) (s : State) : Only [.mem] s (fillMem a n pattern s) := by
  refine only_of_unlisted fun p hp => ?_
  cases p <;> cases hp <;> simp [Part.same]

end

theorem emit_only (o : List Output) (s : State) : Only [.out] s (emit o s) := by
  refine only_of_unlisted fun p hp => ?_
  cases p <;> cases hp <;> simp [Part.same]

/-! ## Transfers that nothing stops -/

section
variable {raw : Bytes} {data : Rd} {s : State}

theorem cutHalt_none {a n : Nat} (h : writeHalt s a n = none) : cutHalt s a n none = none := by
  simp [cutHalt, h, sooner]

section
variable (htoHost : bit (fieldAt raw 0x18 4) 1 = false) (hlen : fieldAt raw 0x30 8 ≠ 0)
  (hdst : rangeBad (fieldAt raw 0x28 8) (fieldAt raw 0x30 8) = false)
  (hwrite : writeHalt s (fieldAt raw 0x28 8) (fieldAt raw 0x30 8) = none)
include htoHost hlen hdst hwrite

theorem memCopy_module (hfromHost : bit (fieldAt raw 0x18 4) 0 = false)
    (hsrc : rangeBad (fieldAt raw 0x20 8) (fieldAt raw 0x30 8) = false)
    (hread : readHalt s (fieldAt raw 0x20 8) (fieldAt raw 0x30 8) = none) :
    memCopy raw data s = .ran (writeMem (fieldAt raw 0x28 8) (readMem s (fieldAt raw 0x20 8) (fieldAt raw 0x30 8)) s) SUCCESS
      (lohi (fieldAt raw 0x30 8)) := by
  simp [memCopy, hfromHost, htoHost, hlen, hsrc, hdst, hread, hwrite, sooner, cutHalt, haltResult, haltEffects]

theorem memCopy_fromHost (hfromHost : bit (fieldAt raw 0x18 4) 0 = true)
    (hsrc : fieldAt raw 0x20 8 + fieldAt raw 0x30 8 ≤ 2 ^ 64) (hok : data.ok = true) (hall : fieldAt raw 0x30 8 ≤ data.bytes.length) :
    memCopy raw data s =
      .ran (writeMem (fieldAt raw 0x28 8) (data.bytes.take (fieldAt raw 0x30 8)) s) SUCCESS (lohi (fieldAt raw 0x30 8)) := by
  have hhost : hostBad (fieldAt raw 0x20 8) (fieldAt raw 0x30 8) = false := by simpa [hostBad] using hsrc
  simp [memCopy, hfromHost, htoHost, hlen, hhost, hdst, hok, hall, hwrite, sooner, cutHalt, haltResult, haltEffects]

end

theorem memCopy_toHost (hfromHost : bit (fieldAt raw 0x18 4) 0 = false) (htoHost : bit (fieldAt raw 0x18 4) 1 = true)
    (hlen : fieldAt raw 0x30 8 ≠ 0) (hdst : fieldAt raw 0x28 8 + fieldAt raw 0x30 8 ≤ 2 ^ 64)
    (hsrc : rangeBad (fieldAt raw 0x20 8) (fieldAt raw 0x30 8) = false)
    (hread : readHalt s (fieldAt raw 0x20 8) (fieldAt raw 0x30 8) = none) :
    memCopy raw data s =
      .ran (emit [.hostWrite .pf0 (fieldAt raw 0x28 8) (readMem s (fieldAt raw 0x20 8) (fieldAt raw 0x30 8))] s) SUCCESS
        (lohi (fieldAt raw 0x30 8)) := by
  have hhost : hostBad (fieldAt raw 0x28 8) (fieldAt raw 0x30 8) = false := by simpa [hostBad] using hdst
  simp [memCopy, hfromHost, htoHost, hlen, hhost, hsrc, hread, haltResult, haltEffects]

theorem memFill_ran (hlen : fieldAt raw 0x28 8 ≠ 0) (hdst : rangeBad (fieldAt raw 0x20 8) (fieldAt raw 0x28 8) = false)
    (hwrite : writeHalt s (fieldAt raw 0x20 8) (fieldAt raw 0x28 8) = none) :
    memFill raw s =
      .ran (fillMem (fieldAt raw 0x20 8) (fieldAt raw 0x28 8) (fieldAt raw 0x30 8) s) SUCCESS (lohi (fieldAt raw 0x28 8)) := by
  simp [memFill, hlen, hdst, hwrite, cutHalt, sooner, haltResult, haltEffects]

theorem memCopy_bad_hosts (hfromHost : bit (fieldAt raw 0x18 4) 0 = true) (htoHost : bit (fieldAt raw 0x18 4) 1 = true) :
    memCopy raw data s = .bad 0x18 := by simp [memCopy, hfromHost, htoHost]

theorem memCopy_bad_empty (hfromHost : bit (fieldAt raw 0x18 4) 0 = false) (hlen : fieldAt raw 0x30 8 = 0) :
    memCopy raw data s = .bad 0x30 := by simp [memCopy, hfromHost, hlen]

theorem memFill_bad_empty (hlen : fieldAt raw 0x28 8 = 0) : memFill raw s = .bad 0x28 := by simp [memFill, hlen]

end

/-! ## How a transfer runs on its ring -/

/-- A transfer on its ring, given the region it updates: it waits while a refresh has yet to begin the region's lines (R274). -/
def transferOn (sq : Nat) (r : Running) (region : Option (List Nat × BitVec 64)) (x : Transfer) (s : State) : State :=
  match region with
  | some (ys, _) => if regionAhead s ys then s else endTransfer sq r region x s
  | none => endTransfer sq r none x s

/-- The region that a MEM_COPY updates: none where it writes the host. -/
def copyRegion (raw : Bytes) (s : State) : Option (List Nat × BitVec 64) :=
  if bit (fieldAt raw 0x18 4) 1 then none else regionUpdate s (fieldAt raw 0x28 8) (fieldAt raw 0x30 8)

section
variable {sq : Nat} {data : Rd} {r : Running} {s : State}

theorem exec_memFill_eq (sq : Nat) (s : State) : exec (.memFill sq) s = runRing .pf0 sq 0x31 (fun r s =>
    transferOn sq r (regionUpdate s (fieldAt r.raw 0x20 8) (fieldAt r.raw 0x28 8)) (memFill r.raw s) s) s := rfl

theorem exec_memCopy_eq (sq : Nat) (data : Rd) (s : State) : exec (.memCopy sq data) s =
    runRead .pf0 sq 0x30 data (fun r s => transferOn sq r (copyRegion r.raw s) (memCopy r.raw data s) s) s := rfl

theorem exec_memFill (hready : ready s .pf0 sq 0x31 = some r) : exec (.memFill sq) s =
    .next (transferOn sq r (regionUpdate s (fieldAt r.raw 0x20 8) (fieldAt r.raw 0x28 8)) (memFill r.raw s) s) := by
  rw [exec_memFill_eq, runRing_ready hready]

theorem exec_memCopy_module (hready : ready s .pf0 sq 0x30 = some r) (hfromHost : bit (fieldAt r.raw 0x18 4) 0 = false)
    (htoHost : bit (fieldAt r.raw 0x18 4) 1 = false) :
    exec (.memCopy sq data) s = .next (transferOn sq r (copyRegion r.raw s) (memCopy r.raw data s) s) := by
  rw [exec_memCopy_eq, runRead_module hready (by simp [usesHost, readsHost, opcode_of_ready hready, hfromHost, htoHost])]

theorem exec_memCopy_toHost (hready : ready s .pf0 sq 0x30 = some r) (hbus : busMaster s .pf0 = true)
    (hfromHost : bit (fieldAt r.raw 0x18 4) 0 = false) :
    exec (.memCopy sq data) s = .next (transferOn sq r (copyRegion r.raw s) (memCopy r.raw data s) s) := by
  have hno : readsHost r.raw = false := by simp [readsHost, opcode_of_ready hready, hfromHost]
  rw [exec_memCopy_eq, runRead_any hbus hready, if_neg (by simp [hno])]

theorem exec_memCopy_ok (hready : ready s .pf0 sq 0x30 = some r) (hbus : busMaster s .pf0 = true) (hok : data.ok = true) :
    exec (.memCopy sq data) s = .next (transferOn sq r (copyRegion r.raw s) (memCopy r.raw data s) s) := by
  rw [exec_memCopy_eq, runRead_ready hbus hready hok]

theorem copyRegion_of_module {raw : Bytes} (htoHost : bit (fieldAt raw 0x18 4) 1 = false) :
    copyRegion raw s = regionUpdate s (fieldAt raw 0x28 8) (fieldAt raw 0x30 8) := by simp [copyRegion, htoHost]

theorem copyRegion_toHost {raw : Bytes} (htoHost : bit (fieldAt raw 0x18 4) 1 = true) : copyRegion raw s = none := by
  simp [copyRegion, htoHost]

variable {t : State} {st : Nat} {res : List Nat}

/-- Without a region a transfer completes. -/
theorem transferOn_none_ran : transferOn sq r none (.ran t st res) s = finish .pf0 sq r st res t := rfl

theorem transferOn_none_bad (r0 : Nat) : transferOn sq r none (.bad r0) s = finish .pf0 sq r BAD_PARAM [r0] s := rfl

theorem transferOn_ahead {ys : List Nat} {bands : BitVec 64} {x : Transfer} (hahead : regionAhead s ys = true) :
    transferOn sq r (some (ys, bands)) x s = s := by simp [transferOn, hahead]

/-- A region update waits, its bands barred. -/
theorem transferOn_region {ys : List Nat} {bands : BitVec 64} (hahead : regionAhead s ys = false) :
    transferOn sq r (some (ys, bands)) (.ran t st res) s = holdRunning .pf0 sq r 0 { t with cue := { t.cue with
      barred := t.cue.barred ||| bands, updates := mput { bands := 0 } sq { bands, status := st, res } t.cue.updates } } := by
  simp [transferOn, hahead, endTransfer]

theorem transferOn_region_only {ys : List Nat} {bands : BitVec 64} (ht : Only [.mem] s t) (hahead : regionAhead s ys = false) :
    Only [.rings, .mem, .cue] s (transferOn sq r (some (ys, bands)) (.ran t st res) s) := by
  rw [transferOn_region hahead]
  refine only_trans (only_mono (by decide) ht) (only_of_unlisted fun p hp => ?_)
  cases p <;> cases hp <;> simp [Part.same]

/-- A transfer that wrote memory alone, without a region, completes and touches nothing else. -/
theorem transferOn_none_completes (ht : Only [.mem] s t) :
    Completed s (transferOn sq r none (.ran t st res) s) .pf0 sq r st res ∧
      Only [.rings, .hif, .mem, .trc, .out, .free] s (transferOn sq r none (.ran t st res) s) := by
  have hrings : t.rings = s.rings := ht .rings (by decide)
  exact ⟨finish_completed _ _ _ _ _ (by rw [hrings]), finish_only_after ht (by decide) (by decide)⟩

theorem transferOn_none_bad_completes (r0 : Nat) :
    Completed s (transferOn sq r none (.bad r0) s) .pf0 sq r BAD_PARAM [r0] ∧
      Only [.rings, .hif, .trc, .out, .free] s (transferOn sq r none (.bad r0) s) :=
  ⟨finish_completed _ _ _ _ _ rfl, finish_only _ _ _ _ _ _⟩

/-- After a region update has been begun the ring waits; memory is as the transfer left it, and no band is dirty yet. -/
theorem transferOn_region_waits {ys : List Nat} {bands : BitVec 64} (ht : Only [.mem] s t) (hahead : regionAhead s ys = false) :
    Waits (transferOn sq r (some (ys, bands)) (.ran t st res) s) .pf0 sq r 0 ∧
      (transferOn sq r (some (ys, bands)) (.ran t st res) s).cue.barred = s.cue.barred ||| bands ∧
      (transferOn sq r (some (ys, bands)) (.ran t st res) s).cue.dirty = s.cue.dirty ∧
      (transferOn sq r (some (ys, bands)) (.ran t st res) s).mem = t.mem := by
  have hcue : t.cue = s.cue := ht .cue (by decide)
  rw [transferOn_region hahead]
  exact ⟨holdRunning_running .., by simp [hcue], by simp [hcue], by simp⟩

theorem transferOn_none_mem : (transferOn sq r none (.ran t st res) s).mem = t.mem := by simp [transferOn_none_ran]

end

/-! ## What a copy leaves in memory -/

theorem writeMem_readMem_byte {src dst n : Nat} {s : State} {k : Nat} (hk : k < n) :
    mget 0 (writeMem dst (readMem s src n) s).mem.bytes (dst + k) = mget 0 s.mem.bytes (src + k) := by
  have hlen : (readMem s src n).length = n := length_mgets ..
  rw [writeMem_byte, if_pos (by omega), Nat.add_sub_cancel_left]
  exact getD_mgets 0 0 _ hk

theorem writeMem_readMem_other {src dst n : Nat} {s : State} {a : Nat} (ha : a < dst ∨ dst + n ≤ a) :
    mget 0 (writeMem dst (readMem s src n) s).mem.bytes a = mget 0 s.mem.bytes a := by
  have hlen : (readMem s src n).length = n := length_mgets ..
  rw [writeMem_byte, if_neg (by omega)]

theorem writeMem_take_byte {d : Bytes} {dst n : Nat} {s : State} (hall : n ≤ d.length) {k : Nat} (hk : k < n) :
    mget 0 (writeMem dst (d.take n) s).mem.bytes (dst + k) = d.getD k 0 := by
  rw [writeMem_byte, List.length_take, if_pos (by omega), Nat.add_sub_cancel_left, List.getD_eq_getElem?_getD,
    List.getElem?_take_of_lt hk, List.getD_eq_getElem?_getD]

theorem writeMem_take_other {d : Bytes} {dst n : Nat} {s : State} {a : Nat} (ha : a < dst ∨ dst + n ≤ a) :
    mget 0 (writeMem dst (d.take n) s).mem.bytes a = mget 0 s.mem.bytes a := by
  rw [writeMem_byte, List.length_take, if_neg (by omega)]

/-! ## The end of a region update -/

theorem exec_regionUpdateDone {sq op : Nat} {r : Running} {s : State} (hwaits : waitingOn s .pf0 sq op = some r)
    (hop : op = 0x30 ∨ op = 0x31) (hfall : s.pwr.fall = .idle) (hupdate : s.cue.updates.any (fun p => p.1 = sq) = true) :
    exec (.regionUpdateDone sq) s = .next (finish .pf0 sq r (mget { bands := 0 } s.cue.updates sq).status
      (mget { bands := 0 } s.cue.updates sq).res (endUpdate sq s)) := by
  have hrun : (sqOf s.rings .pf0 sq).running = some r ∧ opcode r.raw = op := by
    unfold waitingOn at hwaits
    split at hwaits
    · rename_i hrunning
      split at hwaits
      · rename_i hop
        cases hwaits
        exact ⟨hrunning, by simp at hop; exact hop.1⟩
      · cases hwaits
    · cases hwaits
  simp only [exec, execRegionUpdateDone, hrun.1, hrun.2, hwaits]
  rw [if_pos (by simpa [hfall, hupdate] using hop)]

theorem endUpdate_only (n : Nat) (s : State) : Only [.cue] s (endUpdate n s) := by
  refine only_of_unlisted fun p hp => ?_
  cases p <;> cases hp <;> simp [Part.same]

theorem endUpdate_dirty (n : Nat) (s : State) : (endUpdate n s).cue.dirty =
    if (mget { bands := 0 } s.cue.updates n).tracked then s.cue.dirty ||| (mget { bands := 0 } s.cue.updates n).bands
    else s.cue.dirty := by
  unfold endUpdate
  dsimp only
  split <;> rfl

/-! ## The statement -/

/-- Settles O39: each transfer runs on its ring by `transferOn`, which completes it, leaves it waiting, or does not begin it. -/
theorem copiesAndFillsMoveTheirBytes : Obligations.CopiesAndFillsMoveTheirBytes := by
  refine ⟨?copy, ?fromHost, ?toHost, ?fill, ?fillRegion, ?copyRegion, ?fillAhead, ?copyAhead, ?hosts, ?copyEmpty, ?fillEmpty, ?done⟩
  case copy =>
    intro sq data r s hready hfrom hto hlen hsrc hdst hread hwrite hregion
    obtain ⟨hdone, honly⟩ := transferOn_none_completes (sq := sq) (r := r) (st := SUCCESS) (res := lohi (fieldAt r.raw 0x30 8))
      (writeMem_only (s := s) (fieldAt r.raw 0x28 8) (d := readMem s (fieldAt r.raw 0x20 8) (fieldAt r.raw 0x30 8)))
    refine ⟨_, exec_memCopy_module hready hfrom hto, ?_⟩
    rw [copyRegion_of_module hto, hregion, memCopy_module hto hlen hdst hwrite hfrom hsrc hread]
    refine ⟨hdone, fun k hk => ?_, fun a ha => ?_, honly⟩ <;> rw [transferOn_none_mem]
    · exact writeMem_readMem_byte hk
    · exact writeMem_readMem_other ha
  case fromHost =>
    intro sq data r s hready hbus hfrom hto hlen hsrc hdst hok hall hwrite hregion
    obtain ⟨hdone, honly⟩ := transferOn_none_completes (sq := sq) (r := r) (st := SUCCESS) (res := lohi (fieldAt r.raw 0x30 8))
      (writeMem_only (s := s) (fieldAt r.raw 0x28 8) (d := data.bytes.take (fieldAt r.raw 0x30 8)))
    refine ⟨_, exec_memCopy_ok hready hbus hok, ?_⟩
    rw [copyRegion_of_module hto, hregion, memCopy_fromHost hto hlen hdst hwrite hfrom hsrc hok hall]
    refine ⟨hdone, fun k hk => ?_, fun a ha => ?_, honly⟩ <;> rw [transferOn_none_mem]
    · exact writeMem_take_byte hall hk
    · exact writeMem_take_other ha
  case toHost =>
    intro sq data r s hready hbus hfrom hto hlen hdst hsrc hread
    refine ⟨_, exec_memCopy_toHost hready hbus hfrom, ?_⟩
    rw [copyRegion_toHost hto, memCopy_toHost hfrom hto hlen hdst hsrc hread, transferOn_none_ran]
    refine ⟨finish_completed _ _ _ _ _ (by simp), ?_, finish_only_after (emit_only _ s) (by decide) (by decide)⟩
    exact (finish_out (List.suffix_rfl)).subset (by simp [emit])
  case fill =>
    intro sq r s hready hlen hdst hwrite hregion
    obtain ⟨hdone, honly⟩ := transferOn_none_completes (sq := sq) (r := r) (st := SUCCESS) (res := lohi (fieldAt r.raw 0x28 8))
      (fillMem_only (fieldAt r.raw 0x20 8) (fieldAt r.raw 0x28 8) (fieldAt r.raw 0x30 8) s)
    refine ⟨_, exec_memFill hready, ?_⟩
    rw [hregion, memFill_ran hlen hdst hwrite]
    refine ⟨hdone, fun a hfrom hto => ?_, fun a ha => ?_, honly⟩ <;> rw [transferOn_none_mem, fillMem_byte]
    · rw [if_pos ⟨hfrom, hto⟩]
    · rw [if_neg (by omega)]
  case fillRegion =>
    intro sq r ys bands s hready hlen hdst hwrite hregion hahead
    have ht := fillMem_only (fieldAt r.raw 0x20 8) (fieldAt r.raw 0x28 8) (fieldAt r.raw 0x30 8) s
    obtain ⟨hwaits, hbarred, hdirty, hmem⟩ := transferOn_region_waits (sq := sq) (r := r) (st := SUCCESS)
      (res := lohi (fieldAt r.raw 0x28 8)) (bands := bands) ht hahead
    refine ⟨_, exec_memFill hready, ?_⟩
    rw [hregion, memFill_ran hlen hdst hwrite]
    refine ⟨hwaits, hbarred, hdirty, fun a hfrom hto => ?_, transferOn_region_only ht hahead⟩
    rw [hmem, fillMem_byte, if_pos ⟨hfrom, hto⟩]
  case copyRegion =>
    intro sq data r ys bands s hready hfrom hto hlen hsrc hdst hread hwrite hregion hahead
    have ht : Only [.mem] s (writeMem (fieldAt r.raw 0x28 8) (readMem s (fieldAt r.raw 0x20 8) (fieldAt r.raw 0x30 8)) s) :=
      writeMem_only _ _
    obtain ⟨hwaits, hbarred, hdirty, hmem⟩ := transferOn_region_waits (sq := sq) (r := r) (st := SUCCESS)
      (res := lohi (fieldAt r.raw 0x30 8)) (bands := bands) ht hahead
    refine ⟨_, exec_memCopy_module hready hfrom hto, ?_⟩
    rw [copyRegion_of_module hto, hregion, memCopy_module hto hlen hdst hwrite hfrom hsrc hread]
    refine ⟨hwaits, hbarred, hdirty, fun k hk => ?_, fun a ha => ?_, transferOn_region_only ht hahead⟩ <;> rw [hmem]
    · exact writeMem_readMem_byte hk
    · exact writeMem_readMem_other ha
  case fillAhead =>
    intro sq r ys bands s hready hregion hahead
    rw [exec_memFill hready, hregion, transferOn_ahead hahead]
  case copyAhead =>
    intro sq data r ys bands s hready hfrom hto hregion hahead
    rw [exec_memCopy_module hready hfrom hto, copyRegion_of_module hto, hregion, transferOn_ahead hahead]
  case hosts =>
    intro sq data r s hready hbus hok hfrom hto
    refine ⟨_, exec_memCopy_ok hready hbus hok, ?_⟩
    rw [copyRegion_toHost hto, memCopy_bad_hosts hfrom hto]
    exact transferOn_none_bad_completes _
  case copyEmpty =>
    intro sq data r s hready hfrom hto hlen hregion
    refine ⟨_, exec_memCopy_module hready hfrom hto, ?_⟩
    rw [copyRegion_of_module hto, hregion, memCopy_bad_empty hfrom hlen]
    exact transferOn_none_bad_completes _
  case fillEmpty =>
    intro sq r s hready hlen hregion
    refine ⟨_, exec_memFill hready, ?_⟩
    rw [hregion, memFill_bad_empty hlen]
    exact transferOn_none_bad_completes _
  case done =>
    intro sq op r s hwaits hop hfall hupdate
    refine ⟨_, exec_regionUpdateDone hwaits hop hfall hupdate, finish_completed _ _ _ _ _ (by simp), ?_,
      finish_only_after (endUpdate_only sq s) (by decide) (by decide)⟩
    simpa using endUpdate_dirty sq s

end Sys2Proof.Proofs
end

section
/-!
Errors of module memory and of the on-chip SRAM (R304 to R311, R314 to R317): what a correction, an uncorrectable decode, a
retirement, a visit of the scrubber and a repaired row leave in memory, post and log.
-/
namespace Sys2Proof.Proofs
open Sys2Proof.Machine Sys2Proof.Laws

/-! ## Events one after the other -/

@[simp] theorem eventsFlow_post (c v : Nat) (p : List Nat) (s : State) : eventsFlow (post c v p s) .pf0 = eventsFlow s .pf0 :=
  eventsFlow_congr (postTo_eqSetup ..) (by simp [canSend, served, linkUp, busMaster])

/-- A second event right after a first. -/
theorem posts_post_post {s u : State} (c v d x : Nat) (p q : List Nat) (hfall : u.pwr.fall = s.pwr.fall)
    (hflow : eventsFlow u .pf0 = eventsFlow s .pf0) (hring : eqOf u.rings .pf0 = eqOf s.rings .pf0) (hfe : u.sys.fe = s.sys.fe) :
    Posts s (post d x q (post c v p u)) [event s c v p, event s d x q] := by
  have hevent : event (post c v p u) d x q = event s d x q := by simp [event, hfe]
  have hsecond : Posts (post c v p u) (post d x q (post c v p u)) [event s d x q] := hevent ▸ posts_post d x q rfl rfl rfl rfl
  exact posts_append (posts_post c v p hfall hflow hring hfe) hsecond (by simp [hfall]) (by rw [eventsFlow_post, hflow])

section
variable {s t : State} {l : List Ev} (h : Posts s t l)
include h

theorem posts_logFault (cls outcome inst : Nat) (d : List Nat) : Posts s (logFault cls outcome inst d t) l :=
  posts_congr h (by simp)

theorem posts_putSpares : Posts s (putSpares t) l := posts_congr h (by simp)

theorem posts_skipFree (n : Nat) : Posts s (skipFree n t) l := posts_congr h rfl

end

/-! ## Corrections (R304, R307) -/

theorem flipPage_keeps (p : Nat) (l : List SymbolError) (m : Mem) : flipPage p l m = { m with bytes := (flipPage p l m).bytes } := by
  unfold flipPage
  split <;> rfl

theorem exec_pageCorrection {r : PageRead} {fix : List SymbolError} {s : State} (q : Nat) (hfall : s.pwr.fall = .idle)
    (hcoded : coded s r.page = true) (hdecode : decodePage s r = .corrected fix) :
    exec (.pageCorrection r q) s = .next (writeBack r fix s) := by
  simp [exec, execPageCorrection, hfall, hcoded, hdecode]

theorem writeBack_only (r : PageRead) (fix : List SymbolError) (s : State) :
    Only [.mem, .trc, .rings, .hif, .out, .free] s (writeBack r fix s) := by
  refine only_of_unlisted fun p hp => ?_
  cases p <;> cases hp <;> simp [Part.same]

theorem writeBack_mem (r : PageRead) (fix : List SymbolError) (s : State) : (writeBack r fix s).mem =
    watchCorrection r.page { flipPage r.page (r.errors ++ fix) s.mem with corrected := satAdd 0xFFFF s.mem.corrected 1 } := by
  have hkeeps : (flipPage r.page (r.errors ++ fix) s.mem).corrected = s.mem.corrected := by rw [flipPage_keeps]
  simp [writeBack, corrected, hkeeps]

section
variable {p : Nat} {m : Mem}

theorem watchCorrection_new (hnew : m.watch.any (fun e => e.1 = p) = false) (hroom : m.watch.length < 4096) :
    watchCorrection p m = { m with watch := m.watch ++ [(p, m.pass)] } := by
  simp only [watchCorrection, hnew, Bool.false_eq_true, if_false, enterWatch, hroom, if_true]

theorem watchCorrection_watched (hwatched : m.watch.any (fun e => e.1 = p) = true) (hhard : m.hard.contains p = false)
    (hpending : m.pending.contains p = false) : watchCorrection p m = { m with hard := m.hard ++ [p] } := by
  simp only [watchCorrection, hwatched, hhard, hpending, Bool.or_self, Bool.false_eq_true, if_false, if_true]

end

theorem writeBack_mem_new {r : PageRead} {fix : List SymbolError} {s : State}
    (hnew : s.mem.watch.any (fun e => e.1 = r.page) = false) (hroom : s.mem.watch.length < 4096) :
    (writeBack r fix s).mem = { flipPage r.page (r.errors ++ fix) s.mem with
      corrected := satAdd 0xFFFF s.mem.corrected 1, watch := s.mem.watch ++ [(r.page, s.mem.pass)] } := by
  rw [writeBack_mem, flipPage_keeps]
  exact watchCorrection_new hnew hroom

theorem writeBack_mem_watched {r : PageRead} {fix : List SymbolError} {s : State}
    (hwatched : s.mem.watch.any (fun e => e.1 = r.page) = true) (hhard : s.mem.hard.contains r.page = false)
    (hpending : s.mem.pending.contains r.page = false) :
    (writeBack r fix s).mem = { flipPage r.page (r.errors ++ fix) s.mem with
      corrected := satAdd 0xFFFF s.mem.corrected 1, hard := s.mem.hard ++ [r.page] } := by
  rw [writeBack_mem, flipPage_keeps]
  exact watchCorrection_watched hwatched hhard hpending

/-! ## Uncorrectable decodes (R305, R306) -/

/-- A stripe whose engine's fetch failed is trapped. -/
def trapStripe (stripe : Nat) (s : State) : State :=
  skipFree 1 { s with flt := { s.flt with
    trapped := if s.flt.trapped.contains stripe then s.flt.trapped else s.flt.trapped ++ [stripe] } }

theorem mem_trapStripe (stripe : Nat) (s : State) : stripe ∈ (trapStripe stripe s).flt.trapped := by
  simp only [trapStripe, skipFree]
  split
  case isTrue h => simpa using h
  case isFalse => simp

theorem trapStripe_only (stripe : Nat) (s : State) : Only [.flt, .free] s (trapStripe stripe s) := by
  refine only_of_unlisted fun p hp => ?_
  cases p <;> cases hp <;> rfl

/-- The poison word of a page that failed its decode. -/
theorem badPage_poisoned {m : Mem} {p : Nat} (h : poisonWord m p = 0xFFFFFFFF) : badPage m p = true := by
  have hbits : (bitList 0xFFFFFFFF 32).length = 32 := by decide
  simp [badPage, h, hbits]

theorem badPage_congr {m m' : Mem} {p : Nat} (hraw : mget false m'.raw p = mget false m.raw p)
    (hpoison : mget 0 m'.poison p = mget 0 m.poison p) : badPage m' p = badPage m p := by
  unfold badPage poisonWord
  rw [hraw, hpoison]

section
variable (r : PageRead) (q : Nat) (s : State)

theorem badDecode_mem : (badDecode r q s).mem = { flipPage r.page r.errors s.mem with
    poison := mput 0 r.page 0xFFFFFFFF s.mem.poison
    raw := mput false r.page false s.mem.raw
    reported := mput false r.page true s.mem.reported
    uncorrectable := satAdd 0xFFFF s.mem.uncorrectable 1
    lastErr := 4096 * r.page } := by
  rw [badDecode, uncorrectable_mem, flipPage_keeps]

theorem isPoisoned_badDecode_same : isPoisoned (badDecode r q s) r.page = true := by
  refine badPage_poisoned ?_
  simp [poisonWord, badDecode_mem]

theorem isPoisoned_badDecode_other {p : Nat} (h : p ≠ r.page) : isPoisoned (badDecode r q s) p = isPoisoned s p := by
  rw [isPoisoned, isPoisoned, badDecode_mem]
  exact badPage_congr (by simp only [mget_mput_other _ _ _ h]) (by simp only [mget_mput_other _ _ _ h])

theorem badDecode_only : Only [.mem, .lin, .rings, .hif, .out, .free] s (badDecode r q s) := by
  refine only_of_unlisted fun p hp => ?_
  cases p <;> cases hp <;> simp [Part.same]

variable {r q s}

/-- The first report of a page's failure. -/
theorem badDecode_reports (hfirst : mget false s.mem.reported r.page = false) :
    Posts s (badDecode r q s) [event s 0x0D01 2 [r.page, q, (regionOf s.conf r.page).getD 0xFF]] ∧
      ∃ outcome, Logs s (badDecode r q s) 9 outcome q [r.page] := by
  have hreported : mget false (flipPage r.page r.errors s.mem).reported r.page = false := by rw [flipPage_keeps]; exact hfirst
  unfold badDecode uncorrectable
  simp only [hreported, Bool.not_false, if_true]
  refine ⟨?_, _, logFault_lin_congr (by simp [skipFree]) (by simp [skipFree]) _ _ _ _⟩
  refine posts_logFault (posts_skipFree ?_ 1) _ _ _ _
  exact posts_post _ _ _ rfl rfl rfl rfl

/-- A failure that has been reported is only counted. -/
theorem badDecode_again (hagain : mget false s.mem.reported r.page = true) : Only [.mem] s (badDecode r q s) := by
  have hreported : mget false (flipPage r.page r.errors s.mem).reported r.page = true := by rw [flipPage_keeps]; exact hagain
  unfold badDecode uncorrectable
  simp only [hreported, Bool.not_true, Bool.false_eq_true, if_false]
  refine only_of_unlisted fun p hp => ?_
  cases p <;> cases hp <;> rfl

section
variable (hfall : s.pwr.fall = .idle) (hcoded : coded s r.page = true) (hdecode : decodePage s r = .failed)
include hfall hcoded hdecode

theorem exec_pageUncorrectable (hengine : q ≠ 6) (hpair : q ≠ 7) (owner : Nat) :
    exec (.pageUncorrectable r q owner) s = .next (badDecode r q s) := by
  simp [exec, execPageUncorrectable, hfall, hcoded, hdecode, hengine, hpair]

/-- An engine's fetch that fails traps the stripe. -/
theorem exec_pageUncorrectable_engine {owner : Nat} (howner : owner < 192) : exec (.pageUncorrectable r 6 owner) s =
    .next (callEngine owner (freeNow (badDecode r 6 s) % 65536) (trapStripe owner (badDecode r 6 s))) := by
  simp only [exec, execPageUncorrectable, hfall, hcoded, hdecode, howner, decide_true, Bool.and_self, if_true, trapStripe]

theorem exec_pageUncorrectable_pair (owner : Nat) :
    exec (.pageUncorrectable r 7 owner) s = .next (hkFault (owner % 2) 1 (badDecode r 7 s)) := by
  simp [exec, execPageUncorrectable, hfall, hcoded, hdecode]

end

end

theorem callEngine_only (stripe line : Nat) (s : State) : Only [.flt, .lin, .rings, .hif, .out] s (callEngine stripe line s) := by
  refine only_of_unlisted fun p hp => ?_
  cases p <;> cases hp <;> simp [Part.same]

/-- What becomes of a stripe's engine leaves the list of trapped stripes alone. -/
theorem callEngine_trapped (stripe line : Nat) (s : State) : (callEngine stripe line s).flt.trapped = s.flt.trapped := by
  have hguarantee : ∀ u : State, (updateGuarantee u).flt.trapped = u.flt.trapped := fun u => by
    unfold updateGuarantee
    dsimp only
    (repeat' split) <;> simp
  unfold callEngine
  (repeat' split) <;> simp [hguarantee, takeEngine, leaveTest]

/-- While both housekeeping pairs serve, the one that halts leaves the other to take over (R396). -/
theorem hkFault_takeover {p cause : Nat} {s : State} (hp : p < 2) (hboth : s.flt.hkOk = 3) :
    hkFault p cause s = { s with flt := { s.flt with
      hkOk := BitVec.ofNat 2 (2 ^ (1 - p))
      hkCause := aput p (cause, s.sys.fe, s.lin.seconds) s.flt.hkCause
      takeovers := satAdd 0xFF s.flt.takeovers 1 } } := by
  have hpair : p = 0 ∨ p = 1 := by omega
  rcases hpair with rfl | rfl <;> simp [hkFault, hboth]

/-! ## Retirement (R308 to R310) -/

section
variable {p sp : Nat} {s : State} (hhard : s.mem.hard.contains p = true)
include hhard

theorem exec_pageRetire_auto (hspare : nextSpare s = some sp) (hauto : fbit s.conf FLT_POLICY_MEM_AUTO = true) :
    exec (.pageRetire p) s = .next (retireTo p sp s) := by
  simp only [exec, execPageRetire, hhard, hspare, hauto, if_true]

theorem exec_pageRetire_manual (hspare : nextSpare s = some sp) (hauto : fbit s.conf FLT_POLICY_MEM_AUTO = false) :
    exec (.pageRetire p) s = .next (logFault 10 3 0 [p, 0] (post 0x1203 2 [3, p] (post 0x0D02 1 [p, 0, 0] { s with
      mem := { s.mem with hard := s.mem.hard.filter (· ≠ p), pending := s.mem.pending ++ [p] } }))) := by
  simp only [exec, execPageRetire, hhard, hspare, hauto, if_true, Bool.false_eq_true, if_false]

theorem exec_pageRetire_exhausted (hspare : nextSpare s = none) : exec (.pageRetire p) s = .next (spareExhausted p s) := by
  simp only [exec, execPageRetire, hhard, hspare, if_true]

end

/-- Rewriting SPARES after a record: what the two leave of Linen follows from the faults and lanes they see. -/
theorem logsSpares_of_putSpares {s u t : State} {cls outcome inst : Nat} {d : List Nat} (ht : t = putSpares (logFault cls outcome inst d u))
    (hfe : u.sys.fe = s.sys.fe) (hlin : u.lin = s.lin) : LogsSpares s t cls outcome inst d := by
  have hlogged := logFault_lin_congr hfe hlin cls outcome inst d
  subst ht
  have htwl : (putSpares (logFault cls outcome inst d u)).twl = (logFault cls outcome inst d u).twl := by simp
  have hgroup : ∀ g, groupSetup (groupAt (logFault cls outcome inst d u) g) = groupSetup (groupAt { logFault cls outcome inst d s with
      flt := (putSpares (logFault cls outcome inst d u)).flt, twl := (putSpares (logFault cls outcome inst d u)).twl } g) := fun g => by
    simp only [groupAt, htwl]
  unfold LogsSpares
  refine putSpares_lin_congr ?_ ?_
  · exact sparesPayload_congr (by simp) hgroup
  · simpa only using hlogged

section
variable (p sp : Nat) (s : State)

theorem retireTo_posts : Posts s (retireTo p sp s) [event s 0x0D02 1 [p, 1, sp]] := by
  refine posts_putSpares (posts_logFault ?_ _ _ _ _)
  exact posts_post _ _ _ rfl rfl rfl rfl

theorem retireTo_logs : LogsSpares s (retireTo p sp s) 10 2 0 [p, sp] :=
  logsSpares_of_putSpares (by rw [retireTo]) (by simp) (by simp)

theorem retireTo_only : Only [.mem, .bst, .lin, .rings, .hif, .out] s (retireTo p sp s) := by
  refine only_of_unlisted fun p hp => ?_
  cases p <;> cases hp <;> simp [Part.same]

theorem spareExhausted_logs : Logs s (spareExhausted p s) 10 4 0 [p, 0] := by
  have hlin : ∀ u : State, (updateGuarantee u).lin = u.lin := fun u => by simp
  rw [Logs, spareExhausted, hlin]
  exact logFault_lin_congr (by simp) (by simp) _ _ _ _

theorem spareExhausted_only : Only [.mem, .lin, .flt, .rings, .hif, .out] s (spareExhausted p s) := by
  refine only_of_unlisted fun p hp => ?_
  cases p <;> cases hp <;> simp [Part.same]

end

/-! ## The scrubber (R311, R307) -/

theorem nextVisit_inside {m : Mem} (h : m.scrubPage + 1 < 0x1F00000) : nextVisit m = { m with scrubPage := m.scrubPage + 1 } := by
  rw [nextVisit, if_pos h]

/-- After the last page the next pass begins, and the watch keeps what is younger than four passes. -/
theorem nextVisit_last {m : Mem} (h : 0x1F00000 ≤ m.scrubPage + 1) :
    (nextVisit m).scrubPage = 0 ∧ (nextVisit m).pass = (m.pass + 1) % 65536 ∧
      ∀ w ∈ (nextVisit m).watch, w ∈ m.watch ∧ ((nextVisit m).pass + 65536 - w.2) % 65536 < 4 := by
  rw [nextVisit, if_neg (by omega)]
  refine ⟨rfl, rfl, fun w hw => ?_⟩
  obtain ⟨hmem, hage⟩ := List.mem_filter.mp hw
  exact ⟨hmem, of_decide_eq_true hage⟩

section
variable {e : List SymbolError} {flips : Nat} {s : State}

theorem exec_scrubVisit_idle (h : fbit s.conf MEM_CTRL_SCRUB_EN = false ∨ s.sys.brace = true ∨ s.pwr.fall ≠ .idle) :
    exec (.scrubVisit e flips) s = .next s := by
  rcases h with h | h | h <;> simp [exec, execScrubVisit, h]

variable (hen : fbit s.conf MEM_CTRL_SCRUB_EN = true) (hbrace : s.sys.brace = false) (hmode : s.sys.mode ≠ .dormant)
  (hfall : s.pwr.fall = .idle)
include hen hbrace hmode hfall

theorem exec_scrubVisit_empty (hnone : scrubbed s = none) :
    exec (.scrubVisit e flips) s = .next { s with mem := nextVisit s.mem } := by
  simp [exec, execScrubVisit, hen, hbrace, hmode, hfall, hnone]

theorem exec_scrubVisit_page {p : Nat} (hpage : scrubbed s = some p) : exec (.scrubVisit e flips) s =
    .next { scrub ⟨p, e, flips⟩ s with mem := nextVisit (scrub ⟨p, e, flips⟩ s).mem } := by
  simp [exec, execScrubVisit, hen, hbrace, hmode, hfall, hpage]

end

theorem nextVisit_only {s t : State} {l : List Part} (h : Only (.mem :: l) s t) :
    Only (.mem :: l) s { t with mem := nextVisit t.mem } := by
  intro p hp
  cases p
  case mem => exact absurd List.mem_cons_self hp
  all_goals exact h _ hp

/-! ## Rows of the on-chip SRAM (R314 to R317) -/

section
variable {m row : Nat}

theorem repairRow_spare {s : State} (hspare : mget 0 s.mem.sramUsed m < 4) :
    repairRow m row s = switchRow m row (mget 0 s.mem.sramUsed m + 1) s := by
  rw [repairRow, if_pos hspare]

theorem repairRow_full {s : State} (hfull : 4 ≤ mget 0 s.mem.sramUsed m) : repairRow m row s =
    logFault 12 4 m [row, 0] { s with mem := { s.mem with sramNoSpare := mput false m true s.mem.sramNoSpare } } := by
  rw [repairRow, if_neg (by omega)]

theorem switchRow_mem (used : Nat) (s : State) : (switchRow m row used s).mem = { s.mem with
    sramUsed := mput 0 m used s.mem.sramUsed
    sramRepaired := satAdd 0xFF s.mem.sramRepaired 1
    sramFirst := mput 0 (sramRow m row) 0 s.mem.sramFirst } := by
  simp [switchRow]

theorem switchRow_sets (used : Nat) (s : State) :
    mget 0 (switchRow m row used s).mem.sramUsed m = used ∧
      (switchRow m row used s).mem.sramRepaired = satAdd 0xFF s.mem.sramRepaired 1 ∧
      (switchRow m row used s).mem.bytes = s.mem.bytes ∧ (switchRow m row used s).mem.written = s.mem.written := by
  rw [switchRow_mem]
  exact ⟨by simp only [mget_mput_same], rfl, rfl, rfl⟩

theorem switchRow_only (used : Nat) (s : State) : Only [.mem, .lin, .rings, .hif, .out] s (switchRow m row used s) := by
  refine only_of_unlisted fun p hp => ?_
  cases p <;> cases hp <;> simp [Part.same]

theorem switchRow_posts {s u : State} (used : Nat) (hfall : u.pwr.fall = s.pwr.fall) (hflow : eventsFlow u .pf0 = eventsFlow s .pf0)
    (hring : eqOf u.rings .pf0 = eqOf s.rings .pf0) (hfe : u.sys.fe = s.sys.fe) :
    Posts s (switchRow m row used u) [event s 0x0D06 1 [m, row, 4 - used]] := by
  have hkept : ∀ w : State, eventsFlow (addRepair m row w) .pf0 = eventsFlow w .pf0 := fun w =>
    eventsFlow_congr (by simp) (by simp [canSend, served, linkUp, busMaster])
  refine posts_putSpares (posts_logFault ?_ _ _ _ _)
  exact posts_post _ _ _ (by simp [hfall]) (by rw [hkept]; exact hflow) (by simp [hring]) (by simp [hfe])

/-- What a correction of a word leaves before a row is judged: the count, and a trace record. -/
def countedCorrection (s : State) : State :=
  trace1 8 { s with mem := { s.mem with sramCorrected := satAdd 0xFFFF s.mem.sramCorrected 1 } }

theorem countedCorrection_mem (s : State) :
    (countedCorrection s).mem = { s.mem with sramCorrected := satAdd 0xFFFF s.mem.sramCorrected 1 } := by
  simp [countedCorrection]

theorem countedCorrection_only (s : State) : Only [.mem, .trc, .rings, .hif, .out, .free] s (countedCorrection s) := by
  refine only_of_unlisted fun p hp => ?_
  cases p <;> cases hp <;> simp [Part.same, countedCorrection]

theorem countedCorrection_flow (s : State) : eventsFlow (countedCorrection s) .pf0 = eventsFlow s .pf0 :=
  eventsFlow_congr (by simp [countedCorrection, eqOf]) (by simp [canSend, served, linkUp, busMaster, countedCorrection])

section
variable {s : State} (w : Nat)

/-- The first correction of a row within a day is only remembered. -/
theorem exec_sramCorrection_first (h : mget 0 s.mem.sramFirst (sramRow m row) = 0 ∨
    86400 < s.lin.seconds + 1 - mget 0 s.mem.sramFirst (sramRow m row)) :
    exec (.sramCorrection m row w false) s = .next { countedCorrection s with mem := { (countedCorrection s).mem with
      sramFirst := mput 0 (sramRow m row) (s.lin.seconds + 1) s.mem.sramFirst } } := by
  have hfirst : (decide (mget 0 s.mem.sramFirst (sramRow m row) ≠ 0) &&
      decide (s.lin.seconds + 1 - mget 0 s.mem.sramFirst (sramRow m row) ≤ 86400)) = false := by
    rw [Bool.and_eq_false_iff, decide_eq_false_iff_not, decide_eq_false_iff_not]
    omega
  have hkept : (countedCorrection s).mem.sramFirst = s.mem.sramFirst := by rw [countedCorrection_mem]
  rw [← hkept]
  simp only [exec, execSramCorrection, Bool.false_eq_true, if_false, hfirst, countedCorrection]

/-- The second one repairs the row. -/
theorem exec_sramCorrection_second (hseen : mget 0 s.mem.sramFirst (sramRow m row) ≠ 0)
    (hday : s.lin.seconds + 1 - mget 0 s.mem.sramFirst (sramRow m row) ≤ 86400) :
    exec (.sramCorrection m row w false) s = .next (repairRow m row (countedCorrection s)) := by
  simp only [exec, execSramCorrection, Bool.false_eq_true, if_false, hseen, hday, ne_eq, not_false_eq_true, decide_true, Bool.and_self,
    if_true, countedCorrection]

/-- A word that does not correct: reported, logged, and the bitmap bits it held are lost. -/
def lostWord (m row w : Nat) (s : State) : State :=
  bitmapLost m row w (logFault 11 (freeNow s % 7) m [row, w] (skipFree 1 (post 0x0D05 3 [m, row, w] s)))

theorem exec_sramCorrection_double (s : State) :
    exec (.sramCorrection m row w true) s = .next (repairRow m row (lostWord m row w s)) := rfl

theorem lostWord_mem (s : State) :
    (lostWord m row w s).mem.bytes = s.mem.bytes ∧ (lostWord m row w s).mem.sramUsed = s.mem.sramUsed := by
  unfold lostWord bitmapLost
  split <;> simp [skipFree, markWritten]

theorem lostWord_only (s : State) : Only [.mem, .lin, .rings, .hif, .out, .free] s (lostWord m row w s) := by
  refine only_of_unlisted fun p hp => ?_
  cases p <;> cases hp <;> simp [Part.same, lostWord, skipFree]

theorem lostWord_posts (s : State) : Posts s (lostWord m row w s) [event s 0x0D05 3 [m, row, w]] := by
  have hlost : ∀ u : State, (bitmapLost m row w u).rings = u.rings := fun u => by simp
  refine posts_congr (posts_logFault (posts_skipFree (posts_post (u := s) 0x0D05 3 [m, row, w] rfl rfl rfl rfl) 1) 11 (freeNow s % 7) m
    [row, w]) ?_
  rw [lostWord, hlost]

theorem lostWord_flow (s : State) : eventsFlow (lostWord m row w s) .pf0 = eventsFlow s .pf0 := by
  have hskip : ∀ u : State, eventsFlow (skipFree 1 u) .pf0 = eventsFlow u .pf0 := fun _ => rfl
  have hrest : ∀ (u : State) (o : Nat), eventsFlow (bitmapLost m row w (logFault 11 o m [row, w] u)) .pf0 = eventsFlow u .pf0 :=
    fun u o => eventsFlow_congr (by simp) (by simp [canSend, served, linkUp, busMaster])
  rw [lostWord, hrest, hskip, eventsFlow_post]

end

/-- The word and the row that is repaired for it are reported one after the other. -/
theorem lostWord_switchRow_posts (w used : Nat) (s : State) : Posts s (switchRow m row used (lostWord m row w s))
    [event s 0x0D05 3 [m, row, w], event s 0x0D06 1 [m, row, 4 - used]] := by
  have hevent : event (lostWord m row w s) 0x0D06 1 [m, row, 4 - used] = event s 0x0D06 1 [m, row, 4 - used] := by
    simp [event, lostWord, skipFree]
  have hsecond : Posts (lostWord m row w s) (switchRow m row used (lostWord m row w s)) [event s 0x0D06 1 [m, row, 4 - used]] :=
    hevent ▸ switchRow_posts used rfl rfl rfl rfl
  exact posts_append (lostWord_posts w s) hsecond (by simp [lostWord, skipFree]) (lostWord_flow w s)

theorem exec_sramTestWindow_failed {s : State}
    (h : s.sys.mode = .service ∨ (fbit s.conf MEM_SRAM_TEST_EN = true ∧ isRunning s = true)) :
    exec (.sramTestWindow (some (m, row))) s = .next (repairRow m row s) := by
  have hopen : (decide (s.sys.mode = .service) || (fbit s.conf MEM_SRAM_TEST_EN && isRunning s)) = true := by simpa using h
  simp only [exec, execSramTestWindow, hopen, if_true]

end

/-! ## The statements -/

/-- Settles O40: a correction, an uncorrectable decode and a retirement are each one named change of memory. -/
theorem pagesAreWatchedPoisonedAndRetired : Obligations.PagesAreWatchedPoisonedAndRetired := by
  refine ⟨?watched, ?hard, ?poisoned, ?again, ?engine, ?pair, ?retired, ?pending, ?exhausted⟩
  case watched =>
    intro r fix q s hfall hcoded hdecode hnew hroom
    exact ⟨_, exec_pageCorrection q hfall hcoded hdecode, writeBack_mem_new hnew hroom, writeBack_only _ _ _⟩
  case hard =>
    intro r fix q s hfall hcoded hdecode hwatched hhard hpending
    exact ⟨_, exec_pageCorrection q hfall hcoded hdecode, writeBack_mem_watched hwatched hhard hpending, writeBack_only _ _ _⟩
  case poisoned =>
    intro r q owner s hfall hcoded hdecode hengine hpair hfirst
    obtain ⟨hposts, outcome, hlogs⟩ := badDecode_reports (q := q) hfirst
    exact ⟨_, outcome, exec_pageUncorrectable hfall hcoded hdecode hengine hpair owner, isPoisoned_badDecode_same ..,
      fun p hp => isPoisoned_badDecode_other r q s hp, by rw [badDecode_mem], by rw [badDecode_mem], by rw [badDecode_mem], hposts,
      hlogs, badDecode_only _ _ _⟩
  case again =>
    intro r q owner s hfall hcoded hdecode hengine hpair hagain
    exact ⟨_, exec_pageUncorrectable hfall hcoded hdecode hengine hpair owner, isPoisoned_badDecode_same ..,
      by rw [badDecode_mem], badDecode_again hagain⟩
  case engine =>
    intro r owner s hfall hcoded hdecode howner
    have hmem : (trapStripe owner (badDecode r 6 s)).mem = (badDecode r 6 s).mem := rfl
    have hcalled : ∀ line, (callEngine owner line (trapStripe owner (badDecode r 6 s))).mem = (badDecode r 6 s).mem := fun line => by
      simp [hmem]
    refine ⟨_, exec_pageUncorrectable_engine hfall hcoded hdecode howner, ?_, by rw [callEngine_trapped]; exact mem_trapStripe ..,
      by rw [hcalled, badDecode_mem], ?_⟩
    · rw [isPoisoned, hcalled]
      exact isPoisoned_badDecode_same r 6 s
    · exact only_trans (only_trans (only_mono (by decide) (badDecode_only r 6 s)) (only_mono (by decide) (trapStripe_only owner _)))
        (only_mono (by decide) (callEngine_only _ _ _))
  case pair =>
    intro r owner s hfall hcoded hdecode hboth
    have hboth' : (badDecode r 7 s).flt = s.flt := by simp
    refine ⟨_, exec_pageUncorrectable_pair hfall hcoded hdecode owner, ?_⟩
    rw [hkFault_takeover (Nat.mod_lt _ (by decide)) (hboth'.symm ▸ hboth)]
    refine ⟨isPoisoned_badDecode_same r 7 s, ?_, by simp, by simp [badDecode_mem], ?_⟩
    · have hpair : owner % 2 = 0 ∨ owner % 2 = 1 := by omega
      rcases hpair with h | h <;> simp [h]
    · refine only_trans (only_mono (by decide) (badDecode_only r 7 s)) (only_of_unlisted fun p hp => ?_)
      cases p <;> cases hp <;> rfl
  case retired =>
    intro p sp s hhard hspare hauto
    exact ⟨_, exec_pageRetire_auto hhard hspare hauto, by simp [retireTo], by simp [retireTo], by simp [retireTo],
      by simp [retireTo], retireTo_posts p sp s, retireTo_logs p sp s, retireTo_only p sp s⟩
  case pending =>
    intro p sp s hhard hspare hauto
    refine ⟨_, exec_pageRetire_manual hhard hspare hauto, by simp, ?_, ?_, ?_⟩
    · refine posts_logFault ?_ _ _ _ _
      exact posts_post_post _ _ _ _ _ _ rfl rfl rfl rfl
    · exact logFault_lin_congr (by simp) (by simp) _ _ _ _
    · refine only_of_unlisted fun p hp => ?_
      cases p <;> cases hp <;> simp [Part.same]
  case exhausted =>
    intro p s hhard hspare
    exact ⟨_, exec_pageRetire_exhausted hhard hspare, by simp [spareExhausted], spareExhausted_logs p s, spareExhausted_only p s⟩

/-- Settles O41: a visit takes what its read finds and goes on to the next page; a row goes to a spare while there is one. -/
theorem theScrubberAndSramRepair : Obligations.TheScrubberAndSramRepair := by
  refine ⟨?empty, ?last, ?off, ?corrected, ?failed, ?first, ?second, ?double, ?test, ?noSpare, ?passed⟩
  case empty =>
    intro e flips s hen hbrace hmode hfall hnone hinside
    refine ⟨_, exec_scrubVisit_empty hen hbrace hmode hfall hnone, nextVisit_inside hinside, nextVisit_only (only_refl _ _)⟩
  case last =>
    intro e flips s hen hbrace hmode hfall hnone hlast
    obtain ⟨hpage, hpass, hwatch⟩ := nextVisit_last hlast
    exact ⟨_, exec_scrubVisit_empty hen hbrace hmode hfall hnone, hpage, hpass, hwatch, by simp, nextVisit_only (only_refl _ _)⟩
  case off =>
    intro e flips s h
    exact exec_scrubVisit_idle h
  case corrected =>
    intro e fix flips p s hen hbrace hmode hfall hinside hpage hdecode hnew hroom
    have hscrub : scrub ⟨p, e, flips⟩ s = writeBack ⟨p, e, flips⟩ fix s := by simp only [scrub, hdecode]
    refine ⟨_, exec_scrubVisit_page hen hbrace hmode hfall hpage, ?_, nextVisit_only (hscrub ▸ writeBack_only _ _ _)⟩
    rw [hscrub, writeBack_mem_new hnew hroom, flipPage_keeps]
    exact nextVisit_inside hinside
  case failed =>
    intro e flips p s hen hbrace hmode hfall hinside hpage hdecode hfirst
    have hscrub : scrub ⟨p, e, flips⟩ s = badDecode ⟨p, e, flips⟩ 8 s := by simp only [scrub, hdecode]
    obtain ⟨hposts, outcome, hlogs⟩ := badDecode_reports (r := ⟨p, e, flips⟩) (q := 8) hfirst
    have hpages : (badDecode ⟨p, e, flips⟩ 8 s).mem.scrubPage = s.mem.scrubPage := by rw [badDecode_mem, flipPage_keeps]
    have hvisit := nextVisit_inside (hpages.symm ▸ hinside)
    refine ⟨_, outcome, exec_scrubVisit_page hen hbrace hmode hfall hpage, ?_⟩
    have honly := nextVisit_only (badDecode_only ⟨p, e, flips⟩ 8 s)
    rw [hvisit, hpages] at honly
    rw [hscrub, hvisit, hpages]
    exact ⟨isPoisoned_badDecode_same ⟨p, e, flips⟩ 8 s, rfl, hposts, hlogs, honly⟩
  case first =>
    intro m row w s h
    refine ⟨_, exec_sramCorrection_first w h, by rw [countedCorrection_mem], ?_⟩
    exact only_trans (countedCorrection_only s) (only_of_unlisted fun p hp => by cases p <;> cases hp <;> rfl)
  case second =>
    intro m row w s hseen hday hspare
    have hused : (countedCorrection s).mem.sramUsed = s.mem.sramUsed := by rw [countedCorrection_mem]
    refine ⟨_, exec_sramCorrection_second w hseen hday, ?_⟩
    rw [repairRow_spare (by rwa [hused]), hused]
    obtain ⟨hnow, hrepaired, hbytes, hwritten⟩ := switchRow_sets (m := m) (row := row) (mget 0 s.mem.sramUsed m + 1) (countedCorrection s)
    rw [countedCorrection_mem] at hrepaired hbytes hwritten
    refine ⟨hnow, hrepaired, hbytes, hwritten, ?_, ?_⟩
    · rw [show 3 - mget 0 s.mem.sramUsed m = 4 - (mget 0 s.mem.sramUsed m + 1) by omega]
      exact switchRow_posts _ (by simp [countedCorrection]) (countedCorrection_flow s) (by simp [countedCorrection, eqOf])
        (by simp [countedCorrection])
    · exact only_trans (only_mono (by decide) (countedCorrection_only s)) (only_mono (by decide) (switchRow_only _ _))
  case double =>
    intro m row w s hspare
    obtain ⟨hbytes, hused⟩ := lostWord_mem (m := m) (row := row) w s
    refine ⟨_, exec_sramCorrection_double w s, ?_⟩
    rw [repairRow_spare (by rwa [hused]), hused]
    obtain ⟨hnow, -, hkept, -⟩ := switchRow_sets (m := m) (row := row) (mget 0 s.mem.sramUsed m + 1) (lostWord m row w s)
    refine ⟨hnow, hkept.trans hbytes, ?_, ?_⟩
    · rw [show 3 - mget 0 s.mem.sramUsed m = 4 - (mget 0 s.mem.sramUsed m + 1) by omega]
      exact lostWord_switchRow_posts w _ s
    · exact only_trans (lostWord_only w s) (only_mono (by decide) (switchRow_only _ _))
  case test =>
    intro m row s hopen hspare
    refine ⟨_, exec_sramTestWindow_failed hopen, ?_⟩
    rw [repairRow_spare hspare]
    obtain ⟨hnow, -, hbytes, -⟩ := switchRow_sets (m := m) (row := row) (mget 0 s.mem.sramUsed m + 1) s
    refine ⟨hnow, hbytes, ?_, switchRow_only _ _⟩
    rw [show 3 - mget 0 s.mem.sramUsed m = 4 - (mget 0 s.mem.sramUsed m + 1) by omega]
    exact switchRow_posts _ rfl rfl rfl rfl
  case noSpare =>
    intro m row s hopen hfull
    refine ⟨_, exec_sramTestWindow_failed hopen, ?_⟩
    rw [repairRow_full hfull]
    refine ⟨by simp, by exact logFault_lin_congr (by simp) (by simp) _ _ _ _, ?_⟩
    refine only_of_unlisted fun p hp => ?_
    cases p <;> cases hp <;> simp [Part.same]
  case passed =>
    intro s
    simp [exec, execSramTestWindow]

end Sys2Proof.Proofs
end

section
/-!
Host access to the Linen store and its brackets (R319, R320, R332): the bytes that a wrapping write changes, what a denied one
leaves, and the writes that a bracket holds.
-/
namespace Sys2Proof.Proofs
open Sys2Proof.Machine Sys2Proof.Laws

/-! ## Wrapping writes -/

theorem mget_mputAll_other {α : Type} [DecidableEq α] (d : α) {l : List (Nat × α)} {a : Nat} (m : SMap α) (h : ∀ p ∈ l, a ≠ p.1) :
    mget d (mputAll d l m) a = mget d m a := by
  induction l generalizing m with
  | nil => rfl
  | cons p l ih =>
    rw [mputAll, ih _ fun q hq => h q (List.mem_cons_of_mem _ hq), mget_mput_other _ _ _ (h p List.mem_cons_self)]

/-- Writes of a list at keys that differ: key `f (i + j)` holds value j. -/
theorem mget_mputAll_keyed {α : Type} [DecidableEq α] (d : α) (f : Nat → Nat) {l : List α} {i n : Nat} (m : SMap α)
    (hinj : ∀ j k, j < n → k < n → f j = f k → j = k) (hlen : i + l.length ≤ n) {k : Nat} (hk : i ≤ k) (hkl : k < i + l.length) :
    mget d (mputAll d ((keyed i l).map (fun p => (f p.1, p.2))) m) (f k) = l.getD (k - i) d := by
  induction l generalizing i m with
  | nil => simp at hkl; omega
  | cons v l ih =>
    rw [List.length_cons] at hlen hkl
    rw [keyed, List.map_cons, mputAll]
    rcases Nat.eq_or_lt_of_le hk with rfl | hlt
    · rw [mget_mputAll_other, mget_mput_same, Nat.sub_self]
      · rfl
      · intro p hp hsame
        obtain ⟨⟨j, w⟩, hj, rfl⟩ := List.mem_map.mp hp
        have hrange := (mem_keyed l (i + 1) j w).mp hj
        obtain ⟨hlow, hget⟩ := hrange
        have hhigh := (List.getElem?_eq_some_iff.mp hget).1
        have := hinj i j (by omega) (by omega) hsame
        omega
    · rw [ih _ (by omega) hlt (by omega), show k - i = (k - (i + 1)) + 1 by omega]
      rfl

theorem wrapAt_inj {o j k : Nat} (hj : j < 1024) (hk : k < 1024) (h : wrapAt o j = wrapAt o k) : j = k := by
  unfold wrapAt at h
  omega

section
variable {o : Nat} {d : Bytes} {s : State}

/-- Byte k of a wrapping write lands at its place (R320). -/
theorem landBytes_byte (hlen : d.length ≤ 1024) {k : Nat} (hk : k < d.length) :
    mget 0 (landBytes o d s).lin.sram (wrapAt o k) = d.getD k 0 :=
  mget_mputAll_keyed 0 (wrapAt o) s.lin.sram (fun _ _ hi hj => wrapAt_inj hi hj) (by omega) (Nat.zero_le k) (by omega)

theorem landBytes_other {a : Nat} (h : ∀ k < d.length, a ≠ wrapAt o k) : mget 0 (landBytes o d s).lin.sram a = mget 0 s.lin.sram a := by
  refine mget_mputAll_other _ _ fun p hp => ?_
  obtain ⟨⟨j, w⟩, hj, rfl⟩ := List.mem_map.mp hp
  obtain ⟨-, hget⟩ := (mem_keyed d 0 j w).mp hj
  exact h j (by simpa using (List.getElem?_eq_some_iff.mp hget).1)

end

theorem lin_only (l : Lin) (s : State) : Only [.lin] s { s with lin := l } := by
  refine only_of_unlisted fun p hp => ?_
  cases p <;> cases hp <;> rfl

theorem denyHost_only (s : State) : Only [.rings, .lin, .trc, .out, .free] s (denyHost s) := by
  refine only_of_unlisted fun p hp => ?_
  cases p <;> cases hp <;> simp [Part.same, denyHost]

/-! ## The commands -/

section
variable {sq : Nat} {data : Rd} {r : Running} {s : State}

theorem exec_linenRead (hbus : busMaster s .pf1 = true) (hready : ready s .pf1 sq 0x20 = some r) :
    exec (.linenRead sq) s = .next (finish .pf1 sq r SUCCESS [fieldAt r.raw 0x1C 4]
      (emit [.hostWrite .pf1 (fieldAt r.raw 0x20 8) ((List.range (fieldAt r.raw 0x1C 4)).map
        (fun k => mget 0 s.lin.sram (wrapAt (fieldAt r.raw 0x18 4) k)))] s)) := by
  have hexec : exec (.linenRead sq) s = runHost .pf1 sq 0x20 (fun r s => finish .pf1 sq r SUCCESS [fieldAt r.raw 0x1C 4]
      (emit [.hostWrite .pf1 (fieldAt r.raw 0x20 8) ((List.range (fieldAt r.raw 0x1C 4)).map
        (fun k => mget 0 s.lin.sram (wrapAt (fieldAt r.raw 0x18 4) k)))] s)) s := rfl
  rw [hexec, runHost_ready hbus hready]

section
variable (hfall : s.pwr.fall = .idle) (hbus : busMaster s .pf1 = true) (hready : ready s .pf1 sq 0x21 = some r)
include hfall hbus hready

theorem exec_linenWrite : exec (.linenWrite sq data) s =
    .next (linenWrite sq r data (if readsHost r.raw then reportRead .pf1 data s else s)) := by
  have hexec : exec (.linenWrite sq data) s = if s.pwr.fall ≠ .idle then .next (fallWrite sq data s)
      else runRead .pf1 sq 0x21 data (fun r s => linenWrite sq r data s) s := rfl
  rw [hexec, if_neg (by simp [hfall]), runRead_any hbus hready]

theorem exec_linenWrite_ok (hok : data.ok = true) : exec (.linenWrite sq data) s = .next (linenWrite sq r data s) := by
  have hread : reportRead .pf1 data s = s := by simp [reportRead, hok]
  rw [exec_linenWrite hfall hbus hready, hread, ite_self]

end

theorem linenWrite_denied {a : Nat} (h : firstDenied s (fieldAt r.raw 0x18 4) (fieldAt r.raw 0x1C 4) = some a) :
    linenWrite sq r data s = finish .pf1 sq r NOT_PERMITTED [a] (denyHost s) := by
  rw [linenWrite, h]

section
variable (hfree : firstDenied s (fieldAt r.raw 0x18 4) (fieldAt r.raw 0x1C 4) = none) (hok : data.ok = true)
  (hall : fieldAt r.raw 0x1C 4 ≤ data.bytes.length)
include hfree hok hall

theorem linenWrite_direct (hid : fieldAt r.raw 0x28 4 = 0) : linenWrite sq r data s =
    finish .pf1 sq r SUCCESS [fieldAt r.raw 0x1C 4] (landBytes (fieldAt r.raw 0x18 4) (data.bytes.take (fieldAt r.raw 0x1C 4)) s) := by
  simp [linenWrite, hfree, hid, hok, hall]

/-- The brackets with a write held by one of them. -/
def heldWrite (id : Nat) (w : List (Nat × Byte)) (l : List Bracket) : List Bracket :=
  l.map (fun c => if c.id = id then { c with writes := c.writes ++ w } else c)

theorem linenWrite_held {b : Bracket} (hid : fieldAt r.raw 0x28 4 ≠ 0)
    (hfind : s.lin.brackets.find? (fun c => c.id = fieldAt r.raw 0x28 4) = some b) (hroom : b.writes.length + fieldAt r.raw 0x1C 4 ≤ 256) :
    linenWrite sq r data s = finish .pf1 sq r SUCCESS [fieldAt r.raw 0x1C 4] { s with lin := { s.lin with
      brackets := heldWrite (fieldAt r.raw 0x28 4)
        (wrapRun (fieldAt r.raw 0x18 4) (data.bytes.take (fieldAt r.raw 0x1C 4))) s.lin.brackets } } := by
  simp [linenWrite, hfree, hid, hfind, Nat.not_lt.mpr hroom, hok, hall, heldWrite]

end

end

theorem firstDenied_congr {s t : State} (h : t.lin = s.lin) (o n : Nat) : firstDenied t o n = firstDenied s o n := by
  rw [firstDenied, h, firstDenied]

/-- What a command that reads the host meets: a read that fails is reported, and nothing else changes. -/
def metRead (r : Running) (data : Rd) (s : State) : State := if readsHost r.raw then reportRead .pf1 data s else s

theorem metRead_only (r : Running) (data : Rd) (s : State) : Only [.hif, .out, .free] s (metRead r data s) := by
  unfold metRead
  split
  · exact reportRead_only _ _
  · exact only_refl _ _

/-! ## Brackets (R332) -/

/-- The identifiers that an opened bracket may get, in the order in which they are tried. -/
def bracketIds (s : State) : List Nat := (List.range 5).map (fun k => (freeNow s + k) % (2 ^ 32 - 1) + 1)

theorem bracketIds_nodup (s : State) : (bracketIds s).Nodup := by
  refine List.nodup_range.map_on fun j hj k hk hsame => ?_
  rw [List.mem_range] at hj hk
  omega

/-- No open bracket has the identifier. -/
def unusedId (s : State) (i : Nat) : Bool := !(s.lin.brackets.any (fun b => b.id = i))

/-- Four brackets cannot hold all five identifiers. -/
theorem exists_free_bracketId {s : State} (hroom : s.lin.brackets.length < 4) :
    ∃ i ∈ bracketIds s, unusedId s i = true := by
  by_contra hnone
  have hsub : bracketIds s ⊆ s.lin.brackets.map Bracket.id := fun i hi => by
    by_contra hfree
    exact hnone ⟨i, hi, by simpa [unusedId] using fun b hb hid => hfree (List.mem_map.mpr ⟨b, hb, hid⟩)⟩
  have hlen := ((bracketIds_nodup s).subperm hsub).length_le
  rw [List.length_map, bracketIds, List.length_map, List.length_range] at hlen
  omega

theorem newBracketId_fresh {s : State} (hroom : s.lin.brackets.length < 4) :
    newBracketId s ≠ 0 ∧ ∀ b ∈ s.lin.brackets, b.id ≠ newBracketId s := by
  obtain ⟨i, hi, hfree⟩ := exists_free_bracketId hroom
  obtain ⟨j, hj⟩ := Option.isSome_iff_exists.mp ((List.find?_isSome (p := unusedId s)).mpr ⟨i, hi, hfree⟩)
  have hnew : newBracketId s = j := congrArg (Option.getD · 1) hj
  rw [hnew]
  obtain ⟨k, -, hk⟩ := List.mem_map.mp (List.mem_of_find?_eq_some hj)
  refine ⟨by omega, fun b hb hid => ?_⟩
  have hunused := List.find?_some hj
  rw [unusedId, Bool.not_eq_true', List.any_eq_false] at hunused
  exact hunused b hb (by simpa using hid)

section
variable {sq : Nat} {r : Running} {s : State}

theorem exec_linenBracketOpen (hready : ready s .pf1 sq 0x23 = some r) (hroom : s.lin.brackets.length < 4) :
    exec (.linenBracketOpen sq) s = .next (finish .pf1 sq r SUCCESS [newBracketId s] { s with
      lin := { s.lin with brackets := s.lin.brackets ++ [{ id := newBracketId s }] }, free := s.free + 1 }) := by
  have hexec : exec (.linenBracketOpen sq) s = runRing .pf1 sq 0x23 (fun r s =>
      if 4 ≤ s.lin.brackets.length then finish .pf1 sq r RESOURCE_BUSY [] s
      else finish .pf1 sq r SUCCESS [newBracketId s] { s with
        lin := { s.lin with brackets := s.lin.brackets ++ [{ id := newBracketId s }] }, free := s.free + 1 }) s := rfl
  rw [hexec, runRing_ready hready, if_neg (by omega)]

section
variable (hready : ready s .pf1 sq 0x24 = some r)
include hready

theorem exec_linenBracketClose (hclose : bit (fieldAt r.raw 0x1C 4) 0 = false) :
    exec (.linenBracketClose sq) s = .next (closeBracket sq r true s) := by
  have hexec : exec (.linenBracketClose sq) s =
      runRing .pf1 sq 0x24 (fun r s => if bit (fieldAt r.raw 0x1C 4) 0 then s else closeBracket sq r true s) s := rfl
  rw [hexec, runRing_ready hready, hclose, if_neg Bool.false_ne_true]

theorem exec_linenBracketAbort (habort : bit (fieldAt r.raw 0x1C 4) 0 = true) :
    exec (.linenBracketAbort sq) s = .next (closeBracket sq r false s) := by
  have hexec : exec (.linenBracketAbort sq) s =
      runRing .pf1 sq 0x24 (fun r s => if bit (fieldAt r.raw 0x1C 4) 0 then closeBracket sq r false s else s) s := rfl
  rw [hexec, runRing_ready hready, habort, if_pos rfl]

end

/-- The Linen store after a bracket is closed, with the writes that are applied. -/
def closedLin (id : Nat) (w : List (Nat × Byte)) (l : Lin) : Lin :=
  { l with brackets := l.brackets.filter (fun c => c.id ≠ id), sram := mputAll 0 w l.sram }

theorem closeBracket_found {b : Bracket} (h : s.lin.brackets.find? (fun c => c.id = fieldAt r.raw 0x18 4) = some b) (apply_ : Bool) :
    closeBracket sq r apply_ s = finish .pf1 sq r SUCCESS [((if apply_ then b.writes else []).map Prod.fst).eraseDups.length]
      { s with lin := closedLin (fieldAt r.raw 0x18 4) (if apply_ then b.writes else []) s.lin } := by
  unfold closeBracket
  simp only [h]
  rfl

end

/-! ## The statements -/

/-- Settles O22: a read sends the row run; a write lands whole or, where a byte of it is denied, not at all. -/
theorem linenBytesAreReadAndWritten : Obligations.LinenBytesAreReadAndWritten := by
  refine ⟨?read, ?written, ?denied⟩
  case read =>
    intro sq r s hbus hready
    refine ⟨_, exec_linenRead hbus hready, finish_completed _ _ _ _ _ (by simp), ?_,
      finish_only_after (emit_only _ s) (by decide) (by decide)⟩
    exact (finish_out List.suffix_rfl).subset (by simp [emit])
  case written =>
    intro sq data r s hfall hbus hready hid hfree hok hall hrow
    have hlen : (data.bytes.take (fieldAt r.raw 0x1C 4)).length = fieldAt r.raw 0x1C 4 := by rw [List.length_take]; omega
    refine ⟨_, exec_linenWrite_ok hfall hbus hready hok, ?_⟩
    rw [linenWrite_direct hfree hok hall hid]
    simp only [finish_frame]
    refine ⟨finish_completed _ _ _ _ _ (by simp [landBytes, setSram]), fun k hk => ?_, fun a ha => ?_, rfl,
      finish_only_after (lin_only _ s) (by decide) (by decide)⟩
    · rw [landBytes_byte (by omega) (by omega), List.getD_eq_getElem?_getD, List.getElem?_take_of_lt hk, List.getD_eq_getElem?_getD]
    · exact landBytes_other fun k hk => ha k (by omega)
  case denied =>
    intro sq a data r s hfall hbus hready hdenied
    have hmet := metRead_only r data s
    have hlin : (metRead r data s).lin = s.lin := hmet .lin (by decide)
    have hrings : (metRead r data s).rings = s.rings := hmet .rings (by decide)
    refine ⟨_, exec_linenWrite hfall hbus hready, ?_⟩
    rw [← metRead, linenWrite_denied ((firstDenied_congr hlin _ _).trans hdenied)]
    refine ⟨finish_completed _ _ _ _ _ (by simp [denyHost, hrings]), by simp [denyHost, hlin], ?_⟩
    exact only_trans (only_mono (by decide) hmet) (finish_only_after (denyHost_only _) (by decide) (by decide))

/-- Settles O23: an open bracket holds its writes; closing it applies all of them, and aborting it none. -/
theorem bracketsApplyTogether : Obligations.BracketsApplyTogether := by
  refine ⟨?opened, ?held, ?closed, ?aborted⟩
  case opened =>
    intro sq r s hready hroom
    obtain ⟨hid, hfresh⟩ := newBracketId_fresh hroom
    refine ⟨_, _, exec_linenBracketOpen hready hroom, finish_completed _ _ _ _ _ rfl, hid, hfresh, by simp, ?_⟩
    refine finish_only_after (ps := [.lin, .free]) (only_of_unlisted fun p hp => ?_) (by decide) (by decide)
    cases p <;> cases hp <;> rfl
  case held =>
    intro sq data r b s hfall hbus hready hid hfree hfind hroom hok hall
    refine ⟨_, exec_linenWrite_ok hfall hbus hready hok, ?_⟩
    rw [linenWrite_held hfree hok hall hid hfind hroom]
    exact ⟨finish_completed _ _ _ _ _ rfl, by simp, by simp only [finish_frame, heldWrite],
      finish_only_after (lin_only _ s) (by decide) (by decide)⟩
  case closed =>
    intro sq r b s hready hclose hfind
    refine ⟨_, exec_linenBracketClose hready hclose, ?_⟩
    rw [closeBracket_found hfind]
    exact ⟨finish_completed _ _ _ _ _ rfl, by simp only [finish_frame]; rfl, finish_only_after (lin_only _ s) (by decide) (by decide)⟩
  case aborted =>
    intro sq r b s hready habort hfind
    refine ⟨_, exec_linenBracketAbort hready habort, ?_⟩
    rw [closeBracket_found hfind]
    exact ⟨finish_completed _ _ _ _ _ rfl, by simp only [finish_frame]; rfl, finish_only_after (lin_only _ s) (by decide) (by decide)⟩

end Sys2Proof.Proofs
end

section
/-!
Stores of the Linen store (R325 to R329, R331): how a store begins with its fold, whom it serves, how its image freezes, and what
its end leaves in the banks and the commit cells.
-/
namespace Sys2Proof.Proofs
open Sys2Proof.Machine Sys2Proof.Laws

/-! ## The beginning of a store (R325, R326) -/

/-- What a request and the fold of a store share with what the store serves. -/
def storeView (l : Lin) : Option Store × List Nat × Bool × Nat := (l.store, l.delayed, l.recent, l.margins)

theorem countWear_storeView (bank : Nat) (s : State) : storeView (countWear bank s).lin = storeView s.lin := by
  unfold countWear
  split <;> simp [storeView]

theorem foldZones_storeView (s : State) : storeView (foldZones s).lin = storeView s.lin := by simp [storeView, foldZones]

/-- The store that a request begins. -/
def newStore (serves : List Nat) (s : State) : Store :=
  { bank := storeBank s.lin, serves := (serves ++ s.lin.delayed).filter (· < ownRequest) }

theorem beginStore_storeView (serves : List Nat) (s : State) :
    storeView (beginStore serves s).lin = (some (newStore serves s), [], s.lin.recent, s.lin.margins) := by
  have hbox : ∀ u : State, storeView (trace1 9 (flushBox (putOperating u))).lin = storeView u.lin := fun u => by
    simp [storeView, flushBox, putOperating, writeDevice, setSram]
  unfold beginStore
  dsimp only
  rw [hbox, foldZones_storeView, countWear_storeView]
  rfl

theorem beginStore_sets (serves : List Nat) (s : State) :
    (beginStore serves s).lin.store = some (newStore serves s) ∧ (beginStore serves s).lin.delayed = [] ∧
      (beginStore serves s).lin.recent = s.lin.recent ∧ (beginStore serves s).lin.margins = s.lin.margins := by
  have hview := beginStore_storeView serves s
  simpa [storeView] using hview

theorem beginStore_only (serves : List Nat) (s : State) :
    Only [.rings, .hif, .gz, .lin, .trc, .out, .free] s (beginStore serves s) := by
  refine only_of_unlisted fun p hp => ?_
  cases p <;> cases hp <;> simp [Part.same]

theorem newStore_own {s : State} : newStore [ownRequest] s = newStore [] s := by simp [newStore]

theorem newStore_ring {sq : Nat} {s : State} (hsq : sq < 8) :
    newStore [sq] s = { bank := storeBank s.lin, serves := sq :: s.lin.delayed.filter (· < 64) } := by
  have hring : sq < 64 := by omega
  simp [newStore, ownRequest, hring]
  rfl

/-! ## Requests (R326, R329) -/

section
variable {ring : Nat} {s : State}

theorem requestStore_begins (h : s.lin.store = none) : requestStore ring s = beginStore [ring] s := by rw [requestStore, h]

theorem requestStore_joins {st : Store} (h : s.lin.store = some st) (himage : st.image = none) (hring : ring < ownRequest) :
    requestStore ring s = { s with lin := { s.lin with store := some { st with serves := st.serves ++ [ring] } } } := by
  simp [requestStore, h, himage, hring]

theorem requestStore_queues {st : Store} {image : SMap Byte} (h : s.lin.store = some st) (himage : st.image = some image) :
    requestStore ring s = { s with lin := { s.lin with queued := some (s.lin.queued.getD [] ++ [ring]) } } := by
  simp [requestStore, h, himage]

variable {sq : Nat} {r : Running} (hready : ready s .pf1 sq 0x22 = some r)
include hready

theorem exec_linenStore : exec (.linenStore sq) s = .next (
    if s.lin.recent && s.lin.store.isNone then { holdRunning .pf1 sq r 0 s with lin := { s.lin with delayed := s.lin.delayed ++ [sq] } }
    else requestStore sq (holdRunning .pf1 sq r 0 s)) := by
  have hexec : exec (.linenStore sq) s = runRing .pf1 sq 0x22 (fun r s =>
      if s.lin.recent && s.lin.store.isNone then
        { holdRunning .pf1 sq r 0 s with lin := { s.lin with delayed := s.lin.delayed ++ [sq] } }
      else requestStore sq (holdRunning .pf1 sq r 0 s)) s := rfl
  rw [hexec, runRing_ready hready]

theorem exec_linenStore_delayed (hrecent : s.lin.recent = true) (hnone : s.lin.store = none) : exec (.linenStore sq) s =
    .next { holdRunning .pf1 sq r 0 s with lin := { s.lin with delayed := s.lin.delayed ++ [sq] } } := by
  rw [exec_linenStore hready, if_pos (by simp [hrecent, hnone])]

theorem exec_linenStore_requested (h : s.lin.recent = false ∨ s.lin.store.isSome = true) :
    exec (.linenStore sq) s = .next (requestStore sq (holdRunning .pf1 sq r 0 s)) := by
  rw [exec_linenStore hready, if_neg]
  rcases h with h | h
  · simp [h]
  · obtain ⟨st, hst⟩ := Option.isSome_iff_exists.mp h
    simp [hst]

end

theorem holdRunning_only (fn : Fn) (n : Nat) (r : Running) (a : Nat) (s : State) : Only [.rings] s (holdRunning fn n r a s) := by
  refine only_of_unlisted fun p hp => ?_
  cases p <;> cases hp <;> simp [Part.same]

theorem holdRunning_lin (fn : Fn) (n : Nat) (r : Running) (a : Nat) (s : State) : (holdRunning fn n r a s).lin = s.lin := by simp

/-- A ring that waits still waits where the maps of the rings stay. -/
theorem waits_of_sqs {t : State} {fn : Fn} {n : Nat} {r : Running} {a : Nat} {s : State}
    (h : t.rings.sqs = (holdRunning fn n r a s).rings.sqs) : Waits t fn n r a := by
  rw [Waits, sqOf_congr h]
  exact holdRunning_running fn n r a s

theorem post_only (c v : Nat) (p : List Nat) (s : State) : Only [.rings, .hif, .out] s (post c v p s) :=
  postTo_only _ _ _

/-! ## Expiries, the freeze and margin reads -/

section
variable {s : State}

theorem exec_linenStoreDelayExpiry (hdelayed : s.lin.delayed ≠ []) (hnone : s.lin.store = none) (hfall : s.pwr.fall = .idle)
    (hmode : s.sys.mode ≠ .dormant) :
    exec .linenStoreDelayExpiry s = .next (beginStore [] { s with lin := { s.lin with recent := false } }) := by
  simp only [exec, execLinenStoreDelayExpiry]
  cases hlist : s.lin.delayed with
  | nil => exact absurd hlist hdelayed
  | cons n l => simp [hnone, hfall, hmode]

theorem exec_linenStoreInterval (hauto : fbit s.conf LIN_CTRL_AUTO_EN = true) (hrunning : isRunning s = true)
    (hfall : s.pwr.fall = .idle) : exec .linenStoreInterval s = .next (requestStore ownRequest s) := by
  simp [exec, execLinenStoreInterval, hauto, hrunning, hfall]

theorem exec_linenFreeze {st : Store} (h : s.lin.store = some st) (himage : st.image = none) :
    exec .linenFreeze s = .next { s with lin := { s.lin with store := some { st with image := some s.lin.sram } } } := by
  simp [exec, execLinenFreeze, h, himage]

theorem exec_linenMarginRead {w0 w1 : List Nat} {c : CommitCell} (hword : commitWord s.lin = some c)
    (hweak : (if c.bank = 0 then w0 else w1) ≠ []) (hnone : s.lin.store = none) (hlives : linenLives s = true) :
    exec (.linenMarginRead w0 w1) s = .next (post 0x0E04 1 [c.bank, (if c.bank = 0 then w0 else w1).length]
      (beginStore [ownRequest] { s with lin := { s.lin with margins := s.lin.margins + 1 } })) := by
  simp only [exec, execLinenMarginRead, hword]
  rw [if_neg (by simp [hweak, hnone, hlives]), requestStore_begins]
  exact hnone

end

/-! ## The end of a store (R325, R328) -/

/-- Of two sequence numbers one step apart the later one is the newer one. -/
theorem newer_succ (a : Nat) : newer ((a + 1) % 4294967296) a = true ∧ newer a ((a + 1) % 4294967296) = false := by
  simp only [newer, Bool.and_eq_true, Bool.and_eq_false_iff, decide_eq_true_eq, decide_eq_false_iff_not]
  omega

theorem newer_asymm {a b : Nat} (h : newer a b = true) : newer b a = false := by
  simp only [newer, Bool.and_eq_true, Bool.and_eq_false_iff, decide_eq_true_eq, decide_eq_false_iff_not] at h ⊢
  omega

theorem newer_self (a : Nat) : newer a a = false := by
  simp only [newer, Bool.and_eq_false_iff, decide_eq_false_iff_not]
  omega

/-- The cell that a commit writes becomes the commit word. -/
theorem commitWord_writeCell {bank : Nat} {l : Lin} (h : ∀ a b, l.cell0 = some a → l.cell1 = some b →
    newer a.seqNo b.seqNo = true ∨ newer b.seqNo a.seqNo = true ∨ a.seqNo = b.seqNo) :
    commitWord (writeCell bank l) =
      some { bank, seqNo := match commitWord l with | some c => (c.seqNo + 1) % 2 ^ 32 | none => 1 } := by
  cases h0 : l.cell0 with
  | none =>
    cases h1 : l.cell1 with
    | none => simp [commitWord, writeCell, h0, h1]
    | some b => simp [commitWord, writeCell, h0, h1, newer_succ]
  | some a =>
    cases h1 : l.cell1 with
    | none => simp [commitWord, writeCell, h0, h1, newer_succ]
    | some b =>
      rcases h a b h0 h1 with hab | hba | heq
      · simp [commitWord, writeCell, h0, h1, hab, newer_asymm hab, newer_succ]
      · simp [commitWord, writeCell, h0, h1, hba, newer_asymm hba, newer_succ]
      · simp [commitWord, writeCell, h0, h1, heq, newer_self, newer_succ]

theorem writeCell_keeps (bank : Nat) (l : Lin) :
    writeCell bank l = { l with cell0 := (writeCell bank l).cell0, cell1 := (writeCell bank l).cell1 } := by
  unfold writeCell
  dsimp only
  (repeat' split) <;> rfl

theorem programBank_keeps (bank : Nat) (image : SMap Byte) (failed : Option Nat) (l : Lin) : programBank bank image failed l =
    { l with bank0 := (programBank bank image failed l).bank0, bad0 := (programBank bank image failed l).bad0
             bank1 := (programBank bank image failed l).bank1, bad1 := (programBank bank image failed l).bad1 } := by
  unfold programBank
  split <;> rfl

theorem programBank_zero (image : SMap Byte) (failed : Option Nat) (l : Lin) :
    programBank 0 image failed l = { l with bank0 := image, bad0 := failed.toList } := rfl

theorem programBank_one (image : SMap Byte) (failed : Option Nat) (l : Lin) :
    programBank 1 image failed l = { l with bank1 := image, bad1 := failed.toList } := rfl

theorem finishAll_only (fn : Fn) (l : List Nat) (op st : Nat) (res : List Nat) (s : State) :
    Only [.rings, .hif, .trc, .out, .free] s (finishAll fn l op st res s) := by
  refine forAll_only (fun n u => ?_) _ _
  split
  · exact finish_only _ _ _ _ _ _
  · exact only_refl _ _

theorem finishAll_single {fn : Fn} {n op st : Nat} {res : List Nat} {r : Running} {s : State} (h : waitingOn s fn n op = some r) :
    finishAll fn [n] op st res s = finish fn n r st res s := by
  simp [finishAll, forAll, h]

theorem waitingOn_congr {s t : State} (h : t.rings.sqs = s.rings.sqs) (fn : Fn) (n op : Nat) :
    waitingOn t fn n op = waitingOn s fn n op := by
  rw [waitingOn, sqOf_congr h, waitingOn]

/-- The one LINEN_STORE that a store served completes with it. -/
theorem endServed_completes {serves : List Nat} {status : Nat} {res : List Nat} {s u : State} (hsqs : u.rings.sqs = s.rings.sqs)
    (hcqs : u.rings.cqs = s.rings.cqs) (n : Nat) (r : Running) (hone : serves = [n]) (hwaits : waitingOn s .pf1 n 0x22 = some r) :
    Completed s (endServed serves status res u) .pf1 n r status res := by
  subst hone
  rw [endServed, finishAll_single ((waitingOn_congr hsqs ..).trans hwaits)]
  exact finish_completed _ _ _ _ _ hcqs

theorem endServed_eq0 (l : List Nat) (status : Nat) (res : List Nat) (s : State) :
    (endServed l status res s).rings.eq0 = s.rings.eq0 :=
  forAll_keeps (fun u => u.rings.eq0) _ _ _ fun n u => by split <;> simp

theorem nextStore_none {s : State} (h : s.lin.queued = none) : nextStore s = s := by rw [nextStore, h]

theorem settleDormant_none {s : State} (h : s.sys.transit = none) : settleDormant s = s := by rw [settleDormant, h]

/-- A store's end outside every reset and every change to DORMANT. -/
theorem exec_linenStoreCommit {us : Nat} {failed : Option Nat} {s : State} (htransit : s.sys.transit = none) :
    exec (.linenStoreCommit us failed) s = .next (commitStore us failed s) := by
  have hsys : (commitStore us failed s).sys = s.sys := by simp
  have hexec : exec (.linenStoreCommit us failed) s = .next (settleDormant (settleReset (commitStore us failed s))) := rfl
  rw [hexec, settleReset_none hsys htransit, settleDormant_none (by rw [hsys]; exact htransit)]

section
variable {us bank : Nat} {image : SMap Byte} {serves : List Nat} {s : State}

/-- The Linen store with an image in its bank, the page that failed marked, and no store in progress. -/
def programmed (bank : Nat) (image : SMap Byte) (failed : Option Nat) (l : Lin) : Lin :=
  programBank bank image failed { l with store := none }

/-- What a committed store leaves. -/
def committed (us bank : Nat) (image : SMap Byte) (l : Lin) : Lin :=
  writeCell bank { programmed bank image none l with lastUs := us % 4096, recent := true }

omit us in
theorem programmed_parts (failed : Option Nat) (l : Lin) : (programmed bank image failed l).store = none ∧
    (programmed bank image failed l).sram = l.sram ∧ (programmed bank image failed l).queued = l.queued ∧
      (programmed bank image failed l).cell0 = l.cell0 ∧ (programmed bank image failed l).cell1 = l.cell1 := by
  rw [programmed, programBank_keeps]
  exact ⟨rfl, rfl, rfl, rfl, rfl⟩

/-- The bank written holds the image, and the other one stays. -/
theorem programmed_banks (failed : Option Nat) (l : Lin) :
    (bank = 0 → (programmed bank image failed l).bank0 = image ∧ (programmed bank image failed l).bad0 = failed.toList ∧
      (programmed bank image failed l).bank1 = l.bank1) ∧
    (bank = 1 → (programmed bank image failed l).bank1 = image ∧ (programmed bank image failed l).bad1 = failed.toList ∧
      (programmed bank image failed l).bank0 = l.bank0) :=
  ⟨fun h => h ▸ ⟨rfl, rfl, rfl⟩, fun h => h ▸ ⟨rfl, rfl, rfl⟩⟩

/-- But for the commit cells and the time of the store, a committed store is the programmed bank. -/
theorem committed_parts (l : Lin) : (committed us bank image l).store = none ∧ (committed us bank image l).sram = l.sram ∧
    (committed us bank image l).queued = l.queued := by
  obtain ⟨hstore, hsram, hqueued, -, -⟩ := programmed_parts (bank := bank) (image := image) none l
  rw [committed, writeCell_keeps]
  exact ⟨hstore, hsram, hqueued⟩

theorem committed_banks (l : Lin) :
    (bank = 0 → (committed us bank image l).bank0 = image ∧ (committed us bank image l).bad0 = [] ∧
      (committed us bank image l).bank1 = l.bank1) ∧
    (bank = 1 → (committed us bank image l).bank1 = image ∧ (committed us bank image l).bad1 = [] ∧
      (committed us bank image l).bank0 = l.bank0) := by
  rw [committed, writeCell_keeps]
  exact programmed_banks none l

theorem commitWord_congr {l m : Lin} (h0 : m.cell0 = l.cell0) (h1 : m.cell1 = l.cell1) : commitWord m = commitWord l := by
  rw [commitWord, h0, h1, commitWord]

theorem commitWord_committed {l : Lin} (h : ∀ a b, l.cell0 = some a → l.cell1 = some b →
    newer a.seqNo b.seqNo = true ∨ newer b.seqNo a.seqNo = true ∨ a.seqNo = b.seqNo) :
    commitWord (committed us bank image l) =
      some { bank, seqNo := match commitWord l with | some c => (c.seqNo + 1) % 2 ^ 32 | none => 1 } := by
  obtain ⟨-, -, -, h0, h1⟩ := programmed_parts (bank := bank) (image := image) none l
  have hword : commitWord { programmed bank image none l with lastUs := us % 4096, recent := true } = commitWord l :=
    commitWord_congr h0 h1
  rw [committed, commitWord_writeCell, hword]
  intro a b ha hb
  exact h a b (h0.symm.trans ha) (h1.symm.trans hb)

variable (hstore : s.lin.store = some { image := some image, bank, serves }) (hqueued : s.lin.queued = none)
include hstore hqueued

theorem commitStore_ends : commitStore us none s =
    endServed serves SUCCESS [us, bank] { s with lin := committed us bank image s.lin } := by
  have hnext : (committed us bank image s.lin).queued = none := by
    obtain ⟨-, -, hkept⟩ := committed_parts (us := us) (bank := bank) (image := image) s.lin
    exact hkept.trans hqueued
  simp only [commitStore, hstore]
  exact nextStore_none (by simp only [endServed_frame]; exact hnext)

theorem commitStore_fails (p : Nat) : commitStore us (some p) s =
    endServed serves RESOURCE_BUSY [] (post 0x0E03 2 [bank, p] { s with lin := programmed bank image (some p) s.lin }) := by
  have hnext : (programmed bank image (some p) s.lin).queued = none := by
    obtain ⟨-, -, hkept, -, -⟩ := programmed_parts (bank := bank) (image := image) (some p) s.lin
    exact hkept.trans hqueued
  simp only [commitStore, hstore]
  exact nextStore_none (by simp only [endServed_frame, post_frame]; exact hnext)

end

/-! ## The statements -/

/-- Settles O24: a store begins by `beginStore`, which fixes its bank and whom it serves; a freeze fixes the image alone. -/
theorem storesBeginAndFreeze : Obligations.StoresBeginAndFreeze := by
  refine ⟨?begins, ?delayed, ?joins, ?queues, ?expiry, ?interval, ?freeze, ?margin, ?second⟩
  case begins =>
    intro sq r s hready hsq hrecent hnone
    have hlin := holdRunning_lin .pf1 sq r 0 s
    obtain ⟨hstore, hdelayed, -, -⟩ := beginStore_sets [sq] (holdRunning .pf1 sq r 0 s)
    refine ⟨_, exec_linenStore_requested hready (.inl hrecent), ?_⟩
    rw [requestStore_begins (by rw [hlin]; exact hnone)]
    refine ⟨waits_of_sqs (s := s) (by simp), ?_, hdelayed, only_trans (only_mono (by decide) (holdRunning_only _ _ _ _ _)) (beginStore_only _ _)⟩
    rw [hstore, newStore_ring hsq, hlin]
  case delayed =>
    intro sq r s hready hrecent hnone
    exact ⟨_, exec_linenStore_delayed hready hrecent hnone, holdRunning_running .., rfl,
      only_trans (only_mono (by decide) (holdRunning_only .pf1 sq r 0 s)) (only_mono (by decide) (lin_only _ _))⟩
  case joins =>
    intro sq r st s hready hsq hstore himage
    have hlin := holdRunning_lin .pf1 sq r 0 s
    refine ⟨_, exec_linenStore_requested hready (.inr (by simp [hstore])), ?_⟩
    rw [requestStore_joins (by rw [hlin]; exact hstore) himage (Nat.lt_trans hsq (by decide)), hlin]
    exact ⟨holdRunning_running .., rfl,
      only_trans (only_mono (by decide) (holdRunning_only .pf1 sq r 0 s)) (only_mono (by decide) (lin_only _ _))⟩
  case queues =>
    intro sq r st image s hready hstore himage
    have hlin := holdRunning_lin .pf1 sq r 0 s
    refine ⟨_, exec_linenStore_requested hready (.inr (by simp [hstore])), ?_⟩
    rw [requestStore_queues (by rw [hlin]; exact hstore) himage, hlin]
    exact ⟨holdRunning_running .., rfl,
      only_trans (only_mono (by decide) (holdRunning_only .pf1 sq r 0 s)) (only_mono (by decide) (lin_only _ _))⟩
  case expiry =>
    intro s hdelayed hnone hfall hmode
    obtain ⟨hstore, hnow, hrecent, -⟩ := beginStore_sets [] { s with lin := { s.lin with recent := false } }
    exact ⟨_, exec_linenStoreDelayExpiry hdelayed hnone hfall hmode, hrecent, hstore, hnow,
      only_trans (only_mono (by decide) (lin_only _ s)) (beginStore_only _ _)⟩
  case interval =>
    intro s hauto hrunning hfall hnone
    obtain ⟨hstore, -, -, -⟩ := beginStore_sets [ownRequest] s
    refine ⟨_, exec_linenStoreInterval hauto hrunning hfall, ?_⟩
    rw [requestStore_begins hnone]
    exact ⟨hstore.trans (by rw [newStore_own]; rfl), beginStore_only _ _⟩
  case freeze =>
    intro st s hstore himage
    exact exec_linenFreeze hstore himage
  case margin =>
    intro w0 w1 c s hword hweak hnone hlives
    obtain ⟨hstore, -, -, hmargins⟩ := beginStore_sets [ownRequest] { s with lin := { s.lin with margins := s.lin.margins + 1 } }
    refine ⟨_, exec_linenMarginRead hword hweak hnone hlives, ?_⟩
    simp only [post_frame]
    refine ⟨hmargins, hstore.trans (by rw [newStore_own]; rfl), ?_⟩
    exact only_trans (only_trans (only_mono (by decide) (lin_only _ s)) (beginStore_only _ _)) (only_mono (by decide) (post_only _ _ _ _))
  case second =>
    intro s
    rfl

/-- Settles O25: a store's end is `committed` or `programmed`, and the LINEN_STORE that it served completes after it. -/
theorem storesCommitWhole : Obligations.StoresCommitWhole := by
  refine ⟨?ends, ?fails⟩
  case ends =>
    intro us bank image serves s hstore hbank hqueued htransit hcells
    refine ⟨_, exec_linenStoreCommit htransit, ?_⟩
    rw [commitStore_ends hstore hqueued]
    obtain ⟨hended, hsram, -⟩ := committed_parts (us := us) (bank := bank) (image := image) s.lin
    obtain ⟨hbank0, hbank1⟩ := committed_banks (us := us) (bank := bank) (image := image) s.lin
    simp only [endServed_frame]
    exact ⟨hended, commitWord_committed hcells, hbank0, hbank1, hsram, endServed_completes rfl rfl,
      only_trans (only_mono (by decide) (lin_only _ s)) (only_mono (by decide) (finishAll_only _ _ _ _ _ _))⟩
  case fails =>
    intro us bank p image serves s hstore hbank hqueued htransit
    refine ⟨_, exec_linenStoreCommit htransit, ?_⟩
    rw [commitStore_fails hstore hqueued]
    obtain ⟨hended, hsram, -, h0, h1⟩ := programmed_parts (bank := bank) (image := image) (some p) s.lin
    obtain ⟨hbank0, hbank1⟩ := programmed_banks (bank := bank) (image := image) (some p) s.lin
    simp only [endServed_frame, post_frame]
    refine ⟨hended, commitWord_congr h0 h1, fun h => ?_, fun h => ?_, hsram, ?_, endServed_completes (by simp) (by simp), ?_⟩
    · obtain ⟨-, -, hother⟩ := hbank0 h
      exact hother
    · obtain ⟨-, -, hother⟩ := hbank1 h
      exact hother
    · refine posts_congr ?_ (endServed_eq0 ..)
      exact posts_post _ _ _ rfl rfl rfl rfl
    · exact only_trans (only_trans (only_mono (by decide) (lin_only _ s)) (only_mono (by decide) (post_only _ _ _ _)))
        (only_mono (by decide) (finishAll_only _ _ _ _ _ _))

end Sys2Proof.Proofs
end

section
/-!
The security unit (R365 to R379): lifecycle transitions, the minimum version, measurements, debug tokens, content keys, SPDM
sessions and IDE streams.
-/
namespace Sys2Proof.Proofs
open Sys2Proof.Machine Sys2Proof.Laws

theorem sec_only (x : Sec) (s : State) : Only [.sec] s { s with sec := x } := by
  refine only_of_unlisted fun p hp => ?_
  cases p <;> cases hp <;> rfl

/-! ## A lifecycle transition (R365, R366) -/

section
variable (new : Nat) (hash : Bytes) (cosign : Bool) (s : State)

/-- The state whose fuses a transition has written, before its other effects. -/
def fused (s : State) : State :=
  { s with sec := { s.sec with fuses := if new = 1 then { s.sec.fuses with lifecycle := new, ownerHash := hash, cosign }
                                        else { s.sec.fuses with lifecycle := new } } }

/-- The effects at once of the state that is entered. -/
def enteredState (s : State) : State := if new = 2 then setLinenLock true s else if new = 3 then enterReturned s else s

/-- A grant of D2 that is no longer permitted ends. -/
def lowered (s : State) : State := if s.sec.level = 2 && permitted s < 2 then setLevel 1 s else s

theorem advance_eq : advance_ new hash cosign s =
    post 0x1101 1 [s.sec.fuses.lifecycle, new] (lowered (enteredState new (fused new hash cosign s))) := by
  simp only [advance_, lowered, enteredState, fused]

theorem advance_cqs : (advance_ new hash cosign s).rings.cqs = s.rings.cqs := by
  have hstream : ∀ u : State, (dropStreams u).rings.cqs = u.rings.cqs := fun u =>
    forAll_keeps (fun v => v.rings.cqs) _ _ u fun g v => by simp [streamState, setStream]
  have hlowered : ∀ u : State, (lowered u).rings.cqs = u.rings.cqs := fun u => by
    unfold lowered
    split <;> simp
  have hentered : ∀ u : State, (enteredState new u).rings.cqs = u.rings.cqs := fun u => by
    unfold enteredState
    (repeat' split) <;> simp [enterReturned, hstream]
  rw [advance_eq, post_cqs, hlowered, hentered]
  rfl

theorem advance_only : Only [.hif, .rings, .ing, .mem, .lin, .sec, .bst, .out] s (advance_ new hash cosign s) := by
  refine only_of_unlisted fun p hp => ?_
  cases p <;> cases hp <;> simp [Part.same]

end

theorem lowered_keeps (s : State) : (lowered s).sec.sessions = s.sec.sessions ∧ (lowered s).sec.keys = s.sec.keys := by
  unfold lowered setLevel
  (repeat' split) <;> simp [extendSlot]

theorem enterReturned_empty (s : State) : (enterReturned s).sec.sessions = [] ∧
    ∀ k, mget ([], false) (enterReturned s).sec.keys k = ([], false) := by
  have hkeys : ∀ u : State, (dropStreams u).sec.keys = u.sec.keys := fun u =>
    forAll_keeps (fun v => v.sec.keys) _ _ u fun g v => by simp
  refine ⟨by simp [enterReturned], fun k => ?_⟩
  simp [enterReturned, hkeys, eraseKeys, mget_mkeep]

/-- RETURNED holds neither sessions nor content keys (R366). -/
theorem advance_returned (hash : Bytes) (cosign : Bool) (s : State) : (advance_ 3 hash cosign s).sec.sessions = [] ∧
    ∀ k, mget ([], false) (advance_ 3 hash cosign s).sec.keys k = ([], false) := by
  have hentered : enteredState 3 (fused 3 hash cosign s) = enterReturned (fused 3 hash cosign s) := rfl
  obtain ⟨hsessions, hkeys⟩ := enterReturned_empty (fused 3 hash cosign s)
  obtain ⟨hlow, hlowKeys⟩ := lowered_keeps (enterReturned (fused 3 hash cosign s))
  simp only [advance_eq, post_frame, hentered, hlow, hlowKeys]
  exact ⟨hsessions, hkeys⟩

section
variable {sq target n : Nat} {data : Rd} {r : Running} {s : State}

/-- The owner's or the module's authority has authorized the step to `target`, and Table 17.2 holds it. -/
def Authorized (s : State) (d : Bytes) (target : Nat) (hash : Bytes) (cosign : Bool) : Prop :=
  Config.authorization s.sec.fuses.lifecycle s.sec.fuses.ownerHash d = some (target, s.sec.fuses.serial, hash, cosign) ∧
    lifecycleStep s.sec.fuses.lifecycle target = true

variable (hbus : busMaster s .pf1 = true) (hready : ready s .pf1 sq 0x80 = some r) (hok : data.ok = true)
  (hall : fieldAt r.raw 0x28 4 ≤ data.bytes.length)
include hbus hready hok hall

theorem exec_lifecycleAdvance_granted {hash : Bytes} {cosign : Bool}
    (h : Authorized s (data.bytes.take (fieldAt r.raw 0x28 4)) (fieldAt r.raw 0x18 4 % 4) hash cosign) :
    exec (.lifecycleAdvance sq data) s =
      .next (finish .pf1 sq r SUCCESS [fieldAt r.raw 0x18 4 % 4] (advance_ (fieldAt r.raw 0x18 4 % 4) hash cosign s)) := by
  obtain ⟨hauth, hstep⟩ := h
  simp only [exec, execLifecycleAdvance]
  rw [runRead_ready hbus hready hok]
  simp [hok, Nat.not_lt.mpr hall, hauth, hstep]

theorem exec_lifecycleAdvance_refused
    (h : ∀ hash cosign, ¬ Authorized s (data.bytes.take (fieldAt r.raw 0x28 4)) (fieldAt r.raw 0x18 4 % 4) hash cosign) :
    exec (.lifecycleAdvance sq data) s = .next (finish .pf1 sq r NOT_PERMITTED [] s) := by
  simp only [exec, execLifecycleAdvance]
  rw [runRead_ready hbus hready hok, if_neg (by simp [hok, hall])]
  cases hauth : Config.authorization s.sec.fuses.lifecycle s.sec.fuses.ownerHash (data.bytes.take (fieldAt r.raw 0x28 4)) with
  | none => rfl
  | some x =>
    obtain ⟨t, serial, hash, cosign⟩ := x
    dsimp only
    rw [if_neg]
    intro hgranted
    simp only [Bool.and_eq_true, decide_eq_true_eq] at hgranted
    obtain ⟨⟨rfl, rfl⟩, hstep⟩ := hgranted
    exact h hash cosign ⟨hauth, hstep⟩

end

/-! ## Measurements and the minimum version (R370, R371) -/

theorem measSlot_extendSlot (k j : Nat) (d : Bytes) (s : State) :
    measSlot (extendSlot k d s) j = if j = k then Config.sha384 (measSlot s k ++ d) else measSlot s j := by
  simp [measSlot, extendSlot, mget_mput]

theorem extendSlot_only (k : Nat) (d : Bytes) (s : State) : Only [.sec] s (extendSlot k d s) := sec_only _ s

section
variable {sq : Nat} {data : Rd} {r : Running} {s : State}

theorem exec_svnCommit (hready : ready s .pf1 sq 0x84 = some r) (hservice : inService s = true) :
    exec (.svnCommit sq) s = .next (finish .pf1 sq r SUCCESS [max s.sec.fuses.svnMin s.sec.imageSvn]
      { s with sec := { s.sec with fuses := { s.sec.fuses with svnMin := max s.sec.fuses.svnMin s.sec.imageSvn } } }) := by
  simp only [exec, execSvnCommit]
  rw [runRing_ready hready, hservice, if_neg (by decide)]

theorem exec_svnCommit_refused (hready : ready s .pf1 sq 0x84 = some r) (hservice : inService s = false) :
    exec (.svnCommit sq) s = .next (finish .pf1 sq r NOT_PERMITTED [] s) := by
  simp only [exec, execSvnCommit]
  rw [runRing_ready hready, hservice, if_pos (by decide)]

theorem inService_metRead : inService (metRead r data s) = inService s := by
  have hsec : (metRead r data s).sec = s.sec := metRead_only r data s .sec (by decide)
  rw [inService, hsec, inService]

section
variable (hbus : busMaster s .pf1 = true) (hready : ready s .pf1 sq 0x83 = some r)
include hbus hready

theorem exec_measExtend (hservice : inService s = true) (hok : data.ok = true) (hall : fieldAt r.raw 0x28 4 ≤ data.bytes.length) :
    exec (.measExtend sq data) s =
      .next (finish .pf1 sq r SUCCESS [] (extendSlot 7 (data.bytes.take (fieldAt r.raw 0x28 4)) s)) := by
  simp only [exec, execMeasExtend]
  rw [runRead_ready hbus hready hok]
  simp only [hservice, hok, Bool.not_true, Bool.false_or, decide_eq_true_eq, Nat.not_lt.mpr hall, if_false, Bool.false_eq_true]

theorem exec_measExtend_refused (hservice : inService s = false) :
    exec (.measExtend sq data) s = .next (finish .pf1 sq r NOT_PERMITTED [] (metRead r data s)) := by
  have hrefused : inService (metRead r data s) = false := inService_metRead.trans hservice
  simp only [exec, execMeasExtend]
  rw [runRead_any hbus hready, ← metRead, hrefused, if_pos (by decide)]

end

/-! ## Debug tokens (R379) -/

theorem exec_debugToken (hbus : busMaster s .pf1 = true) (hready : ready s .pf1 sq 0x81 = some r) (hservice : inService s = true)
    (hok : data.ok = true) (hall : 128 ≤ data.bytes.length) : exec (.debugToken sq data) s = .next (
      if tokenOk s data.bytes then finish .pf1 sq r SUCCESS [2]
        { s with sec := { s.sec with token := true, tokenMinutes := fieldAt data.bytes 4 4 } }
      else finish .pf1 sq r NOT_PERMITTED [] s) := by
  simp only [exec, execDebugToken]
  rw [runRead_ready hbus hready hok]
  simp only [hservice, hok, Bool.not_true, Bool.false_or, decide_eq_true_eq, Nat.not_lt.mpr hall, if_false, Bool.false_eq_true]

theorem exec_debugRevoke (hready : ready s .pf1 sq 0x82 = some r) :
    exec (.debugRevoke sq) s = .next (finish .pf1 sq r SUCCESS [] (revokeToken s)) := by
  simp only [exec, execDebugRevoke]
  rw [runRing_ready hready]

end

theorem revokeToken_only (s : State) : Only [.rings, .hif, .sec, .out] s (revokeToken s) := by
  refine only_of_unlisted fun p hp => ?_
  cases p <;> cases hp <;> simp [Part.same]

/-! ## Replies of PF1's DOE mailbox (R373) -/

section
variable {d : Bytes} {s t : State}

theorem doeOk_only (d : Bytes) (s : State) : Only [.out] s (doeOk d s) := emit_only _ s

theorem doeOk_only_after {ps : List Part} (h : Only ps s t) (hout : [.out] ⊆ ps) : Only ps s (doeOk d t) :=
  only_trans h (only_mono hout (doeOk_only d t))

@[simp] theorem doeOk_keeps (d : Bytes) (s : State) : (doeOk d s).sec = s.sec ∧ (doeOk d s).bst = s.bst := ⟨rfl, rfl⟩

theorem streamOf_doeOk (d : Bytes) (s : State) (g : Nat) : streamOf (doeOk d s) g = streamOf s g := rfl

end

/-! ## Content keys (R375, R376, R378) -/

theorem eraseKeys_key (keep : Nat → Bool) (s : State) (k : Nat) :
    mget ([], false) (eraseKeys keep s).sec.keys k = if keep k then mget ([], false) s.sec.keys k else ([], false) := mget_mkeep ..

theorem eraseKeys_copy (keep : Nat → Bool) (s : State) (k : Nat) :
    mget ([], []) (eraseKeys keep s).bst.keyTable k = if keep k then mget ([], []) s.bst.keyTable k else ([], []) := mget_mkeep ..

theorem eraseKeys_only (keep : Nat → Bool) (s : State) : Only [.sec, .bst] s (eraseKeys keep s) := by
  refine only_of_unlisted fun p hp => ?_
  cases p <;> cases hp <;> rfl

/-- The key table after an import: a persistent key has a copy there, and another one has none. -/
def importedTable (keyId : Nat) (persist : Bool) (key : Bytes) (s : State) : SMap (Bytes × Bytes) :=
  if persist then mput ([], []) keyId (key, storageKey s.sec.fuses) s.bst.keyTable else mkeep (· ≠ keyId) s.bst.keyTable

/-- The unit with a key imported. -/
def imported (keyId : Nat) (persist : Bool) (key : Bytes) (s : State) : State :=
  { s with sec := { s.sec with keys := mput ([], false) keyId (key, persist) s.sec.keys }
           bst := { s.bst with keyTable := importedTable keyId persist key s } }

theorem imported_only (keyId : Nat) (persist : Bool) (key : Bytes) (s : State) :
    Only [.sec, .bst] s (imported keyId persist key s) := by
  refine only_of_unlisted fun p hp => ?_
  cases p <;> cases hp <;> rfl

section
variable {session keyId : Nat} {flags : Byte} {key : Bytes} {s : State}

theorem exec_keyImport (hserved : doeServed s = true) (hsession : sessionOf s session = some ⟨session, true⟩)
    (hservice : inService s = true) (hid : keyId < 64) (hkey : key.length = 32) :
    exec (.keyImport session keyId flags key) s = .next (doeOk [] (imported keyId (flags.getLsbD 0) key s)) := by
  have hslot : ¬ 63 < keyId := by omega
  simp [exec, execKeyImport, hserved, hsession, hservice, hslot, hkey, imported, importedTable]

theorem exec_keySlotErase {a : Bool} (hserved : doeServed s = true) (hsession : sessionOf s session = some ⟨session, a⟩)
    (hid : keyId < 64) : exec (.keySlotErase session keyId) s = .next (doeOk [] (eraseKeys (· ≠ keyId) s)) := by
  have hslot : ¬ 63 < keyId := by omega
  simp [exec, execKeySlotErase, hserved, hsession, hslot]

theorem exec_keyErase {sq : Nat} {r : Running} (hready : ready s .pf1 sq 0x88 = some r) : exec (.keyErase sq) s = .next
    (finish .pf1 sq r SUCCESS [] (eraseKeys (fun i => fieldAt r.raw 0x18 4 ≠ 0xFF && i ≠ fieldAt r.raw 0x18 4) s)) := by
  simp only [exec, execKeyErase]
  rw [runRing_ready hready]

end

/-! ## Sessions and streams (R373, R377) -/

theorem streamOf_setStream (g k : Nat) (x : Stream) (s : State) :
    streamOf (setStream g x s) k = if k = g then x else streamOf s k := by
  simp [streamOf, setStream, mget_mput]

theorem setStream_only (g : Nat) (x : Stream) (s : State) : Only [.sec] s (setStream g x s) := sec_only _ s

theorem streamState_only (g : Nat) (x : Stream) (s : State) : Only [.rings, .hif, .sec, .out] s (streamState g x s) := by
  refine only_of_unlisted fun p hp => ?_
  cases p <;> cases hp <;> simp [Part.same]

theorem residence_only (s : State) : Only [.rings, .hif, .sec, .out] s (residence s) := by
  refine only_of_unlisted fun p hp => ?_
  cases p <;> cases hp <;> simp [Part.same]

theorem streamOf_residence (s : State) (g : Nat) : streamOf (residence s) g = streamOf s g := by
  have hkept : (residence s).sec.streams = s.sec.streams := by
    unfold residence downgrade setLevel
    (repeat' split) <;> simp [extendSlot]
  rw [streamOf, hkept, streamOf]

/-- The session is gone. -/
theorem sessionOf_ended (session : Nat) (s : State) : sessionOf (doeOk [] { s with
    sec := { s.sec with sessions := s.sec.sessions.filter (fun x => x.id ≠ session) } }) session = none := by
  simp [sessionOf, doeOk, emit]

section
variable {session stream set : Nat} {a : Bool} {key : Bytes} {s : State} (hserved : doeServed s = true)
include hserved

theorem exec_spdmKeyExchange (hroom : s.sec.sessions.length < 4) : exec (.spdmKeyExchange a) s = .next
    (doeOk (toLE 2 s.sec.nextSession ++ Config.ecdsaSign (aliasKey s).1 (Config.sha384 (Config.spdmTranscript s.free))) { s with
      free := s.free + 1
      sec := { s.sec with sessions := s.sec.sessions ++ [⟨s.sec.nextSession, a⟩], nextSession := s.sec.nextSession + 1 } }) := by
  simp [exec, execSpdmKeyExchange, hserved, Nat.not_le.mpr hroom]

variable (hsession : sessionOf s session = some ⟨session, a⟩)
include hsession

theorem exec_endSession : exec (.endSession session) s = .next (doeOk [] { s with
    sec := { s.sec with sessions := s.sec.sessions.filter (fun x => x.id ≠ session) } }) := by
  simp [exec, execEndSession, hserved, hsession]

theorem exec_ideKmKeyProg (hflit : s.hif.flit = true) (hstream : stream < 4) (hset : set < 2) (hkey : key.length = 32) :
    exec (.ideKmKeyProg session stream set key) s = .next (doeOk [] (setStream stream
      (if set = 0 then { streamOf s stream with key0 := some key } else { streamOf s stream with key1 := some key }) s)) := by
  simp [exec, execIdeKmKeyProg, hserved, hsession, hflit, show ¬ 3 < stream by omega, show ¬ 1 < set by omega, hkey]

theorem exec_ideKmKSetGo (hflit : s.hif.flit = true) (hstream : stream < 4) (hset : set < 2)
    (hkey : (if set = 0 then (streamOf s stream).key0 else (streamOf s stream).key1) = some key) :
    exec (.ideKmKSetGo session stream set) s = .next (doeOk [] (residence
      (streamState stream { streamOf s stream with secure := true, active := set } s))) := by
  simp [exec, execIdeKmKSetGo, hserved, hsession, hflit, show ¬ 3 < stream by omega, show ¬ 1 < set by omega, hkey]

/-- A stream without the keys of a key set, and out of the secure state where that set is the active one. -/
def stopped (set : Nat) (x : Stream) : Stream :=
  { (if set = 0 then { x with key0 := none } else { x with key1 := none }) with secure := x.secure && x.active ≠ set }

theorem exec_ideKmKSetStop (hstream : stream < 4) (hset : set < 2) : exec (.ideKmKSetStop session stream set) s =
    .next (doeOk [] (streamState stream (stopped set (streamOf s stream)) s)) := by
  simp [exec, execIdeKmKSetStop, hserved, hsession, show ¬ 3 < stream by omega, show ¬ 1 < set by omega, stopped]

theorem exec_ideKmQuery : exec (.ideKmQuery session) s = .next { s with
    out := .doeReply (0 :: 4 :: (List.range 4).map (fun g => BitVec.ofNat 8 (b2n (streamOf s g).secure))) :: s.out } := by
  simp [exec, execIdeKmQuery, hserved, hsession, doeOk, emit]

end

/-! ## Measurement records (R373) -/

/-- The header of a record of one block, whose value has n bytes. -/
def blockHeader (s : State) (i : Nat) : Bytes :=
  toLE 1 1 ++ toLE 3 (measBlock s i).length ++ (toLE 1 i ++ [1] ++ toLE 2 ((measurement s i).length + 3) ++
    toLE 1 (128 * b2n (i = 9) + Config.measType i % 128) ++ toLE 2 (measurement s i).length)

theorem blockHeader_length (s : State) (i : Nat) : (blockHeader s i).length = 11 := by simp [blockHeader]

theorem measRecord_single (s : State) (i : Nat) : measRecord s [i] = blockHeader s i ++ measurement s i := by
  simp [measRecord, blockHeader, measBlock]

theorem exec_spdmGetMeasurements {index : Nat} {s : State} (hserved : doeServed s = true) (hlow : 1 ≤ index) (hhigh : index ≤ 9) :
    exec (.spdmGetMeasurements index) s =
      .next { s with out := .doeReply (0 :: (blockHeader s index ++ measurement s index)) :: s.out } := by
  simp only [exec, execSpdmGetMeasurements, hserved, Bool.not_true, Bool.false_eq_true, if_false, show index ≠ 0 by omega,
    show index ≠ 0xFF by omega, show ¬ 9 < index by omega, measRecord_single]
  rfl

/-! ## Measurements of the neighbours (R374) -/

section
variable {sq : Nat} {data : Rd} {r : Running} {s : State} (hbus : busMaster s .pf1 = true)
include hbus

theorem exec_nbrMeasRead_none (hready : ready s .pf1 sq 0x85 = some r) (hnone : (gngPort s (fieldAt r.raw 0x18 4)).meas = none) :
    exec (.nbrMeasRead sq) s = .next (finish .pf1 sq r SUCCESS [0] s) := by
  simp only [exec, execNbrMeasRead]
  rw [runHost_ready hbus hready]
  simp only [hnone]

theorem exec_nbrMeasRead {m : Bytes × Byte × List Bytes × Bytes} (hready : ready s .pf1 sq 0x85 = some r)
    (hmeas : (gngPort s (fieldAt r.raw 0x18 4)).meas = some m) : exec (.nbrMeasRead sq) s = .next (finish .pf1 sq r SUCCESS
      [(measPayload m ++ toLE 1 (gngPort s (fieldAt r.raw 0x18 4)).verified).length]
      (emit [.hostWrite .pf1 (fieldAt r.raw 0x20 8) (measPayload m ++ toLE 1 (gngPort s (fieldAt r.raw 0x18 4)).verified)] s)) := by
  simp only [exec, execNbrMeasRead]
  rw [runHost_ready hbus hready]
  simp only [hmeas]

theorem exec_nbrPin (hready : ready s .pf1 sq 0x86 = some r) (hservice : inService s = true) (hok : data.ok = true)
    (hall : 97 ≤ data.bytes.length) : exec (.nbrPin sq data) s = .next (finish .pf1 sq r SUCCESS []
      { s with sec := { s.sec with pins := mput [] (fieldAt r.raw 0x18 4) (data.bytes.take 97) s.sec.pins } }) := by
  simp only [exec, execNbrPin]
  rw [runRead_ready hbus hready hok]
  simp only [hservice, hok, Bool.not_true, Bool.false_or, decide_eq_true_eq, Nat.not_lt.mpr hall, if_false, Bool.false_eq_true]

end

/-! ## The statements -/

/-- Settles O12: each command is one named change of the security unit, or none. -/
theorem securityCommandsInService : Obligations.SecurityCommandsInService := by
  refine ⟨?lifecycle, ?svn, ?extend, ?svnRefused, ?extendRefused⟩
  case lifecycle =>
    rintro sq _ _ data r s hbus hready rfl rfl hok hall
    by_cases h : ∃ hash cosign, Authorized s (data.bytes.take (fieldAt r.raw 0x28 4)) (fieldAt r.raw 0x18 4 % 4) hash cosign
    · obtain ⟨hash, cosign, hgranted⟩ := h
      refine ⟨_, exec_lifecycleAdvance_granted hbus hready hok hall hgranted, fun h' c' hauth hstep => ?_, fun hrefused => ?_,
        finish_only_after (advance_only _ _ _ s) (by decide) (by decide)⟩
      · obtain ⟨rfl, rfl⟩ : hash = h' ∧ cosign = c' := by simpa [hgranted.1] using hauth
        simp only [finish_frame, advance_fuses]
        refine ⟨?_, ?_, ?_, fun hone => ?_, fun hother => ?_, fun hthree => ?_, finish_completed _ _ _ _ _ (advance_cqs ..)⟩
        · split <;> rfl
        · split <;> rfl
        · split <;> rfl
        · rw [if_pos hone]
          exact ⟨rfl, rfl⟩
        · rw [if_neg hother]
          exact ⟨rfl, rfl⟩
        · rw [hthree]
          exact advance_returned hash cosign s
      · obtain ⟨hauth, hstep⟩ := hgranted
        rcases hrefused with hno | hno
        · exact absurd hauth (hno hash cosign)
        · exact absurd hstep (by simp [hno])
    · have hno : ∀ hash cosign, ¬ Authorized s (data.bytes.take (fieldAt r.raw 0x28 4)) (fieldAt r.raw 0x18 4 % 4) hash cosign :=
        fun hash cosign hgranted => h ⟨hash, cosign, hgranted⟩
      refine ⟨_, exec_lifecycleAdvance_refused hbus hready hok hall hno, fun hash cosign hauth hstep => ?_, fun _ => ?_,
        only_mono (by decide) (finish_only _ _ _ _ _ _)⟩
      · exact absurd ⟨hauth, hstep⟩ (hno hash cosign)
      · exact ⟨finish_completed _ _ _ _ _ rfl, by simp, by simp⟩
  case svn =>
    intro sq r s hready hservice
    exact ⟨_, exec_svnCommit hready hservice, by simp, by simp, finish_only_after (sec_only _ s) (by decide) (by decide)⟩
  case extend =>
    intro sq data r s hbus hready hservice hok hall
    refine ⟨_, exec_measExtend hbus hready hservice hok hall, ?_, fun k hk => ?_, by simp, by simp,
      finish_only_after (extendSlot_only 7 _ s) (by decide) (by decide)⟩
    · simpa [measSlot] using measSlot_extendSlot 7 7 (data.bytes.take (fieldAt r.raw 0x28 4)) s
    · simpa [measSlot, hk] using measSlot_extendSlot 7 k (data.bytes.take (fieldAt r.raw 0x28 4)) s
  case svnRefused =>
    intro sq r s hready hservice
    exact ⟨_, exec_svnCommit_refused hready hservice, finish_completed _ _ _ _ _ rfl, finish_only _ _ _ _ _ _⟩
  case extendRefused =>
    intro sq data r s hbus hready hservice
    have hrings : (metRead r data s).rings = s.rings := metRead_only r data s .rings (by decide)
    exact ⟨_, exec_measExtend_refused hbus hready hservice, finish_completed _ _ _ _ _ (by rw [hrings]),
      finish_only_after (metRead_only r data s) (by decide) (by decide)⟩

/-- Settles O13: a valid token comes into force, and a revocation or its expiry ends it. -/
theorem debugTokensComeAndGo : Obligations.DebugTokensComeAndGo := by
  refine ⟨?comes, ?revoked, ?expires⟩
  case comes =>
    intro sq data r s hbus hready hservice hok hall
    refine ⟨_, exec_debugToken hbus hready hservice hok hall, fun h => ?_, fun h => ?_, ?_⟩
    · rw [h, if_pos rfl]
      exact ⟨by simp, finish_completed _ _ _ _ _ rfl⟩
    · rw [h, if_neg Bool.false_ne_true]
      exact ⟨by simp, finish_completed _ _ _ _ _ rfl⟩
    · split
      · exact finish_only_after (sec_only _ s) (by decide) (by decide)
      · exact only_mono (by decide) (finish_only _ _ _ _ _ _)
  case revoked =>
    intro sq r s hready
    obtain ⟨htoken, -, -⟩ := revokeToken_takes s
    exact ⟨_, exec_debugRevoke hready, by simpa using htoken, by simp, by simp,
      finish_only_after (revokeToken_only s) (by decide) (by decide)⟩
  case expires =>
    intro s hminutes
    obtain ⟨htoken, -, -⟩ := revokeToken_takes s
    exact ⟨_, by simp only [exec, execDebugTokenExpiry, ne_eq, hminutes, not_false_eq_true, if_true], htoken, by simp,
      revokeToken_only s⟩

/-- Settles O14: an import and the erasures act on a slot and on its copy. -/
theorem keySlotsAreWrittenAndErased : Obligations.KeySlotsAreWrittenAndErased := by
  refine ⟨?imports, ?slot, ?erase⟩
  case imports =>
    intro session keyId flags key s hserved hsession hservice hid hkey
    refine ⟨_, exec_keyImport hserved hsession hservice hid hkey, ?_, fun k hk => ?_, fun h => ?_, fun h => ?_,
      doeOk_only_after (only_mono (by decide) (imported_only _ _ _ s)) (by decide)⟩
    · exact mget_mput_same ..
    · exact mget_mput_other _ _ _ hk
    · simp [imported, importedTable, h]
    · simp only [doeOk_keeps, imported, importedTable, h, Bool.false_eq_true, if_false, mget_mkeep]
      simp
  case slot =>
    intro session keyId a s hserved hsession hid
    refine ⟨_, exec_keySlotErase hserved hsession hid, ?_, ?_, fun k hk => ?_,
      doeOk_only_after (only_mono (by decide) (eraseKeys_only _ s)) (by decide)⟩
    · simp [eraseKeys_key]
    · simp [eraseKeys_copy]
    · simp [eraseKeys_key, hk]
  case erase =>
    intro sq r s hready
    refine ⟨_, exec_keyErase hready, fun k => ?_, by simp, finish_only_after (eraseKeys_only _ s) (by decide) (by decide)⟩
    simp only [finish_frame, eraseKeys_key]
    by_cases hall : fieldAt r.raw 0x18 4 = 0xFF <;> by_cases hk : k = fieldAt r.raw 0x18 4 <;> simp [hall, hk]

/-- Settles O15: a session is listed under the next identifier until it ends; a stream changes alone. -/
theorem sessionsAndStreams : Obligations.SessionsAndStreams := by
  refine ⟨?begins, ?ends, ?keys, ?go, ?stop⟩
  case begins =>
    intro a s hserved hroom
    refine ⟨_, _, exec_spdmKeyExchange hserved hroom, rfl, rfl, ?_⟩
    refine only_of_unlisted fun p hp => ?_
    cases p <;> cases hp <;> rfl
  case ends =>
    intro session a s hserved hsession
    exact ⟨_, exec_endSession hserved hsession, sessionOf_ended session s,
      doeOk_only_after (only_mono (by decide) (sec_only _ s)) (by decide)⟩
  case keys =>
    intro session stream a key s hserved hsession hflit hstream hkey
    refine ⟨_, _, exec_ideKmKeyProg hserved hsession hflit hstream (by decide) hkey,
      exec_ideKmKeyProg hserved hsession hflit hstream (by decide) hkey, ?_, ?_, fun g hg => ?_,
      doeOk_only_after (only_mono (by decide) (setStream_only _ _ s)) (by decide), fun g hg => ?_,
      doeOk_only_after (only_mono (by decide) (setStream_only _ _ s)) (by decide)⟩
    · simp [streamOf_doeOk, streamOf_setStream]
    · simp [streamOf_doeOk, streamOf_setStream]
    · simp [streamOf_doeOk, streamOf_setStream, hg]
    · simp [streamOf_doeOk, streamOf_setStream, hg]
  case go =>
    intro session stream set a key s hserved hsession hflit hstream hset hkey
    refine ⟨_, exec_ideKmKSetGo hserved hsession hflit hstream hset hkey, ?_, fun g hg => ?_, ?_⟩
    · simp [streamOf_doeOk, streamOf_residence, streamOf_streamState]
    · simp [streamOf_doeOk, streamOf_residence, streamOf_streamState, hg]
    · exact doeOk_only_after (only_trans (streamState_only _ _ s) (residence_only _)) (by decide)
  case stop =>
    intro session stream set a s hserved hsession hstream hset
    refine ⟨_, exec_ideKmKSetStop hserved hsession hstream hset, ?_, ?_, ?_, fun g hg => ?_,
      doeOk_only_after (streamState_only _ _ s) (by decide)⟩
    · simp [streamOf_doeOk, streamOf_streamState, stopped]
    · by_cases h : set = 0 <;> simp [streamOf_doeOk, streamOf_streamState, stopped, h]
    · by_cases h : set = 0 <;> simp [streamOf_doeOk, streamOf_streamState, stopped, h]
    · simp [streamOf_doeOk, streamOf_streamState, hg]

/-- Settles O16: each read is one reply or one write to the host, and a pin is one entry of the pins. -/
theorem securityReadsAnswer : Obligations.SecurityReadsAnswer := by
  refine ⟨?slot, ?state, ?lists, ?query, ?noMeas, ?meas, ?pin⟩
  case slot =>
    intro index s hserved hlow hhigh
    refine ⟨_, blockHeader_length s index, ?_⟩
    rw [exec_spdmGetMeasurements hserved hlow (by omega), measurement, if_neg (by omega)]
  case state =>
    intro s hserved
    refine ⟨_, blockHeader_length s 9, ?_⟩
    rw [exec_spdmGetMeasurements hserved (by decide) (by decide), measurement, if_pos rfl, List.append_assoc]
  case lists =>
    intro s hserved
    constructor <;> simp [exec, execSpdmGetMeasurements, hserved, doeOk, emit]
  case query =>
    intro session a s hserved hsession
    exact exec_ideKmQuery hserved hsession
  case noMeas =>
    intro sq r s hbus hready hnone
    exact ⟨_, exec_nbrMeasRead_none hbus hready hnone, finish_completed _ _ _ _ _ rfl, finish_only _ _ _ _ _ _⟩
  case meas =>
    intro sq r m s hbus hready hmeas
    refine ⟨_, exec_nbrMeasRead hbus hready hmeas, ?_, by simp, finish_only_after (emit_only _ s) (by decide) (by decide)⟩
    exact (finish_out List.suffix_rfl).subset (by simp [emit])
  case pin =>
    intro sq data r s hbus hready hservice hok hall
    refine ⟨_, exec_nbrPin hbus hready hservice hok hall, ?_, fun k hk => ?_, by simp,
      finish_only_after (sec_only _ s) (by decide) (by decide)⟩
    · simp
    · simp [mget_mput, hk]

end Sys2Proof.Proofs
end

section
/-!
Live registers (R434, R438): what a write leaves in the register's live bits, and that it leaves the other registers alone.
-/
namespace Sys2Proof.Proofs
open Sys2Proof.Machine Sys2Proof.Laws

/-- What a key reads as, under one default, after a write under another one. -/
theorem mget_mput_default {α : Type} [DecidableEq α] (d e : α) (k j : Nat) (v : α) (m : SMap α) :
    mget e (mput d k v m) j = if j = k then (if v = d then e else v) else mget e m j := by
  unfold mput
  split
  case isTrue =>
    rw [mget_filter e (fun i => decide (i ≠ k)) m j]
    by_cases hj : j = k <;> simp [hj]
  case isFalse => exact mget_aput e k j v m

/-- The live bits that a register takes from a word written. -/
def liveWord (off : Nat) (v : Word) : Word := normLive off (v &&& BitVec.ofNat 32 (liveMask off))

/-- A field reads what was written where the registers' two reset words agree in it. -/
theorem lget_putLive {f : Fld} (v : Word) (c : Conf) (hreset : wbits (BitVec.ofNat 32 f.reset) f.lo f.w =
    wbits (resetWord f.off &&& BitVec.ofNat 32 (liveMask f.off)) f.lo f.w) :
    lget (putLive f.off v c) f = wbits (liveWord f.off v) f.lo f.w := by
  simp only [lget, putLive, mget_mput_default, if_true]
  split
  case isTrue h => rw [hreset, ← h, liveWord]
  case isFalse => rfl

theorem liveNow_putLive_other {off other : Nat} (h : other ≠ off) (v : Word) (c : Conf) :
    liveNow (putLive off v c) other = liveNow c other := by
  simp only [liveNow, putLive, mget_mput_default, if_neg h]

/-- The lowest bits of a word that a mask keeps. -/
theorem wbits_mask {k : Nat} (hk : k ≤ 32) (v : Word) : wbits (v &&& BitVec.ofNat 32 (2 ^ k - 1)) 0 k = wbits v 0 k := by
  have hlt : 2 ^ k - 1 < 2 ^ 32 := by
    have := Nat.pow_le_pow_right (by decide : 0 < 2) hk
    omega
  rw [wbits, BitVec.toNat_and, BitVec.toNat_ofNat, Nat.mod_eq_of_lt hlt, Nat.and_two_pow_sub_one_eq_mod, wbits, bits, bits]
  simp

/-- CAP takes the nearest value in its range (Table 2.7). -/
theorem wbits_clampCap (w : Word) : wbits (clampField 0 7 10 100 w) 0 7 = max 10 (min 100 (wbits w 0 7)) := by
  have hw := w.isLt
  simp only [clampField, setBits, wbits, bits, BitVec.toNat_ofNat, Nat.pow_zero, Nat.div_one, Nat.mul_one]
  omega

/-- A write that the host makes to a live register and that changes nothing else. -/
theorem live_write_changes {f : Fld} {x : Nat} {v : Word} {s t : State}
    (hreset : wbits (BitVec.ofNat 32 f.reset) f.lo f.w = wbits (resetWord f.off &&& BitVec.ofNat 32 (liveMask f.off)) f.lo f.w)
    (hword : wbits (liveWord f.off v) f.lo f.w = x) (hconf : t.conf = putLive f.off v s.conf) :
    lget t.conf f = x ∧ (∀ off, off ≠ f.off → liveNow t.conf off = liveNow s.conf off) ∧
      t.conf.regs = s.conf.regs ∧ t.conf.tables = s.conf.tables := by
  rw [hconf]
  exact ⟨(lget_putLive v s.conf hreset).trans hword, fun off hoff => liveNow_putLive_other hoff v s.conf, rfl, rfl⟩

/-! ## The live bits of each register (Table 20.3) -/

theorem bar4Base_word (v : Word) : wbits (liveWord 0x010008 v) 0 9 = wbits v 0 9 := by
  have hmask : liveMask 0x010008 = 2 ^ 9 - 1 := by decide +kernel
  rw [liveWord, hmask]
  exact wbits_mask (by decide) v

theorem gpioOut_word (v : Word) : wbits (liveWord 0x000020 v) 0 8 = wbits v 0 8 := by
  have hmask : liveMask 0x000020 = 2 ^ 8 - 1 := by decide +kernel
  rw [liveWord, hmask]
  exact wbits_mask (by decide) v

theorem signal_word (v : Word) : wbits (liveWord 0x0c000c v) 0 32 = v.toNat := by
  have hmask : liveMask 0x0c000c = 2 ^ 32 - 1 := by decide +kernel
  have hv := v.isLt
  rw [liveWord, hmask]
  refine (wbits_mask (by decide) v).trans ?_
  simp only [wbits, bits, Nat.pow_zero, Nat.div_one]
  omega

theorem brace_word (v : Word) : wbits (liveWord 0x150004 v) 0 7 = max 10 (min 100 (wbits v 0 7)) := by
  have hmask : liveMask 0x150004 = 2 ^ 7 - 1 := by decide +kernel
  have hnorm : ∀ w : Word, normLive 0x150004 w = clampField 0 7 10 100 w := fun w => rfl
  rw [liveWord, hmask, hnorm, wbits_clampCap, wbits_mask (by decide)]

section
variable {v : Word} {s : State} (hup : hostUp s = true)
include hup

theorem exec_hifBar4BaseWrite : exec (.hifBar4BaseWrite v) s = .next { s with conf := putLive 0x010008 v s.conf } :=
  hostOp_of_hostUp (f := fun s => { s with conf := putLive 0x010008 v s.conf }) hup

theorem exec_sysGpioOutWrite : exec (.sysGpioOutWrite v) s = .next { s with conf := putLive 0x000020 v s.conf } :=
  hostOp_of_hostUp (f := fun s => { s with conf := putLive 0x000020 v s.conf }) hup

theorem exec_cueSignalWrite : exec (.cueSignalWrite v) s = .next { s with conf := putLive 0x0c000c v s.conf } :=
  hostOp_of_hostUp (f := fun s => { s with conf := putLive 0x0c000c v s.conf }) hup

theorem exec_pwrBraceWrite : exec (.pwrBraceWrite v) s = .next (writeBrace v s) := hostOp_of_hostUp (f := writeBrace v) hup

end

/-! ## The statement -/

/-- Settles O17: each register takes its live bits by `putLive`, and no other entry of the live registers moves. -/
theorem liveRegistersChangeAtOnce : Obligations.LiveRegistersChangeAtOnce := by
  refine ⟨?bar4, ?gpio, ?signal, ?brace⟩
  case bar4 =>
    intro v s hup
    obtain ⟨hfield, hother, hregs, htables⟩ := live_write_changes (f := HIF_BAR4_BASE_BASE) (s := s)
      (t := { s with conf := putLive 0x010008 v s.conf }) (by decide +kernel) (bar4Base_word v) rfl
    exact ⟨_, exec_hifBar4BaseWrite hup, hfield, hother, hregs, htables, conf_only _ s⟩
  case gpio =>
    intro v s hup
    obtain ⟨hfield, hother, hregs, htables⟩ := live_write_changes (f := SYS_GPIO_OUT_OUT) (s := s)
      (t := { s with conf := putLive 0x000020 v s.conf }) (by decide +kernel) (gpioOut_word v) rfl
    exact ⟨_, exec_sysGpioOutWrite hup, hfield, hother, hregs, htables, conf_only _ s⟩
  case signal =>
    intro v s hup
    obtain ⟨hfield, hother, hregs, htables⟩ := live_write_changes (f := CUE_SIGNAL_SIGNAL) (s := s)
      (t := { s with conf := putLive 0x0c000c v s.conf }) (by decide +kernel) (signal_word v) rfl
    exact ⟨_, exec_cueSignalWrite hup, hfield, hother, hregs, htables, conf_only _ s⟩
  case brace =>
    intro v s hup
    obtain ⟨hfield, hother, hregs, htables⟩ := live_write_changes (f := PWR_BRACE_CAP) (s := s) (t := writeBrace v s)
      (by decide +kernel) (brace_word v) rfl
    refine ⟨_, exec_pwrBraceWrite hup, hfield, rfl, hother, hregs, htables, only_of_unlisted fun p hp => ?_⟩
    cases p <;> cases hp <;> rfl

end Sys2Proof.Proofs
end

section
/-!
Observation and firmware (R369, R378, R384, R426): TRACE_CFG, the lanes of J9 and FW_UPDATE.
-/
namespace Sys2Proof.Proofs
open Sys2Proof.Machine Sys2Proof.Laws

/-! ## The level granted (R384) -/

theorem setLevel_only (n : Nat) (s : State) : Only [.sec] s (setLevel n s) := by
  refine only_of_unlisted fun p hp => ?_
  cases p <;> cases hp <;> simp [Part.same]

theorem setLevel_sec (n : Nat) (s : State) : (setLevel n s).sec = { s.sec with level := n, slots := (setLevel n s).sec.slots } := by
  unfold setLevel
  split
  case isTrue h => rw [h]
  case isFalse => rfl

/-- A change of the level extends slot 6, and no other slot. -/
theorem measSlot_setLevel (n k : Nat) (s : State) : measSlot (setLevel n s) k =
    if k = 6 ∧ n ≠ s.sec.level then Config.sha384 (measSlot s 6 ++ toLE 1 n) else measSlot s k := by
  unfold setLevel
  split
  case isTrue h => simp [h]
  case isFalse h =>
    rw [measSlot_extendSlot]
    by_cases hk : k = 6 <;> simp [hk, h, measSlot]

/-- The unit after TRACE_CFG, before the completion. -/
def traced (grant : Nat) (sources : BitVec 11) (s : State) : State := setLevel grant { s with sec := { s.sec with sources } }

theorem measSlot_traced (grant k : Nat) (sources : BitVec 11) (s : State) : measSlot (traced grant sources s) k =
    if k = 6 ∧ grant ≠ s.sec.level then Config.sha384 (measSlot s 6 ++ toLE 1 grant) else measSlot s k :=
  measSlot_setLevel grant k { s with sec := { s.sec with sources } }

theorem measSlot_finish (fn : Fn) (n : Nat) (r : Running) (st : Nat) (res : List Nat) (s : State) (k : Nat) :
    measSlot (finish fn n r st res s) k = measSlot s k := by simp [measSlot]

section
variable {sq : Nat} {r : Running} {s : State}

theorem exec_traceCfg (hready : ready s .pf1 sq 0x78 = some r) : exec (.traceCfg sq) s =
    .next (finish .pf1 sq r SUCCESS [min (fieldAt r.raw 0x18 4) (permitted s)]
      (traced (min (fieldAt r.raw 0x18 4) (permitted s)) (BitVec.ofNat 11 (fieldAt r.raw 0x1C 4)) s)) := by
  simp only [exec, execTraceCfg]
  rw [runRing_ready hready, traced]

end

/-! ## The lanes of J9 (R426) -/

theorem exec_trcEnChange_runs {low : Bool} {s : State} (hmode : s.sys.mode ≠ .dormant) (hstage : s.sys.stage ≠ .unpowered)
    (hlow : low ≠ s.trc.enLow) : exec (.trcEnChange low) s = .next { s with
      trc := { s.trc with enLow := low }
      out := .traceIdle (if low then traceComma else []) :: s.out } := by
  simp [exec, execTrcEnChange, hmode, hstage, hlow, emit]

theorem exec_trcEnChange_quiet {low : Bool} {s : State} (h : s.sys.mode = .dormant ∨ s.sys.stage = .unpowered ∨ low = s.trc.enLow) :
    exec (.trcEnChange low) s = .next { s with trc := { s.trc with enLow := low } } := by
  rcases h with h | h | h <;> simp [exec, execTrcEnChange, h]

/-! ## Firmware slots (R369, R378) -/

/-- The boot flash with a slot written. -/
def writtenSlot (second : Bool) (kept : Option Bytes) (b : Bst) : Bst :=
  if second then { b with imageB := kept } else { b with imageA := kept }

theorem writtenSlot_sets (second : Bool) (kept : Option Bytes) (b : Bst) :
    (if second then (writtenSlot second kept b).imageB else (writtenSlot second kept b).imageA) = kept ∧
      (if second then (writtenSlot second kept b).imageA = b.imageA else (writtenSlot second kept b).imageB = b.imageB) ∧
      (writtenSlot second kept b).retireLog = b.retireLog := by
  cases second <;> exact ⟨rfl, rfl, rfl⟩

theorem bst_only (b : Bst) (s : State) : Only [.bst] s { s with bst := b } := by
  refine only_of_unlisted fun p hp => ?_
  cases p <;> cases hp <;> rfl

/-- What a slot holds after an image was written: an image that verifies, or none. -/
def keptImage (s : State) (img : Bytes) : Option Bytes := if (imageFault s.sec.fuses img).isNone then some img else none

/-- A FW_UPDATE that has written its slot. -/
def updated (sq : Nat) (r : Running) (img : Bytes) (s : State) : State :=
  finish .pf1 sq r SUCCESS [b2n (imageFault s.sec.fuses img).isNone]
    { s with bst := writtenSlot (bit (fieldAt r.raw 0x18 4) 0) (keptImage s img) s.bst }

theorem updated_bst (sq : Nat) (r : Running) (img : Bytes) (s : State) :
    (updated sq r img s).bst = writtenSlot (bit (fieldAt r.raw 0x18 4) 0) (keptImage s img) s.bst := by simp [updated]

theorem updated_only (sq : Nat) (r : Running) (img : Bytes) (s : State) :
    Only [.bst, .rings, .hif, .trc, .out, .free] s (updated sq r img s) :=
  finish_only_after (bst_only _ s) (by decide) (by decide)

theorem slotRuns_metRead (r : Running) (data : Rd) (second : Bool) (s : State) : slotRuns (metRead r data s) second = slotRuns s second := by
  have hsys : (metRead r data s).sys = s.sys := metRead_only r data s .sys (by decide)
  rw [slotRuns, hsys, slotRuns]

section
variable {sq : Nat} {data : Rd} {r : Running} {s : State} (hready : ready s .pf1 sq 0x87 = some r) (hbus : busMaster s .pf1 = true)
include hready hbus

theorem exec_fwUpdate_written (hslot : slotRuns s (bit (fieldAt r.raw 0x18 4) 0) = false) (hok : data.ok = true)
    (hall : fieldAt r.raw 0x28 4 ≤ data.bytes.length) : exec (.fwUpdate sq data) s = .next (
      if (imageFault s.sec.fuses (data.bytes.take (fieldAt r.raw 0x28 4))).isNone && s.sys.stage = .recovery then
        resetDie 3 (updated sq r (data.bytes.take (fieldAt r.raw 0x28 4)) s)
      else updated sq r (data.bytes.take (fieldAt r.raw 0x28 4)) s) := by
  simp only [exec, execFwUpdate]
  rw [runRead_ready hbus hready hok]
  simp only [hslot, hok, Bool.false_eq_true, if_false, Bool.not_true, Bool.false_or, decide_eq_true_eq, Nat.not_lt.mpr hall]
  rfl

theorem exec_fwUpdate_busy (hslot : slotRuns s (bit (fieldAt r.raw 0x18 4) 0) = true) :
    exec (.fwUpdate sq data) s = .next (finish .pf1 sq r RESOURCE_BUSY [] (metRead r data s)) := by
  simp only [exec, execFwUpdate]
  rw [runRead_any hbus hready, ← metRead, slotRuns_metRead, hslot, if_pos rfl]

theorem exec_fwUpdate_unread (hslot : slotRuns s (bit (fieldAt r.raw 0x18 4) 0) = false)
    (hbad : data.ok = false ∨ data.bytes.length < fieldAt r.raw 0x28 4) : exec (.fwUpdate sq data) s =
    .next (finish .pf1 sq r DMA_ERROR [min (fieldAt r.raw 0x28 4) data.bytes.length] (metRead r data s)) := by
  simp only [exec, execFwUpdate]
  rw [runRead_any hbus hready, ← metRead, slotRuns_metRead, hslot, if_neg Bool.false_ne_true, if_pos (by simpa using hbad)]

end

/-- The monitor ends with a watchdog reset, which keeps what was written. -/
theorem resetDie_cause (reason : Nat) (s : State) : (resetDie reason s).sys.nextCause.cause = 3 := by
  obtain ⟨u, heq, -, hsys, -, -⟩ := resetDie_waits reason s
  rw [heq, beginTransit, hsys]

theorem resetDie_bst (reason : Nat) (s : State) : (resetDie reason s).bst = s.bst := by
  simp only [resetDie_frame]

/-! ## The statement -/

/-- Settles O60: each command is one named change of the security unit, of the trace lanes or of the boot flash. -/
theorem traceIsGrantedAndFirmwareKept : Obligations.TraceIsGrantedAndFirmwareKept := by
  refine ⟨?trace, ?starts, ?quiet, ?written, ?recovery, ?busy, ?unread⟩
  case trace =>
    rintro sq _ r s hready rfl
    refine ⟨_, exec_traceCfg hready, finish_completed _ _ _ _ _ (by simp [traced]), ?_, fun k hk => ?_, ?_,
      finish_only_after (only_trans (sec_only _ s) (setLevel_only _ _)) (by decide) (by decide)⟩
    · simp only [finish_frame]
      exact setLevel_sec _ _
    · rw [measSlot_finish, measSlot_traced, if_neg (by simp [hk])]
    · rw [measSlot_finish, measSlot_traced]
      by_cases h : min (fieldAt r.raw 0x18 4) (permitted s) = s.sec.level <;> simp [h]
  case starts =>
    intro low s hmode hstage hlow
    exact exec_trcEnChange_runs hmode hstage hlow
  case quiet =>
    intro low s h
    exact exec_trcEnChange_quiet h
  case written =>
    rintro sq data r _ s hready hbus hstage hslot hok hall rfl
    have hfree : slotRuns s (bit (fieldAt r.raw 0x18 4) 0) = false := by simp [slotRuns, hslot]
    obtain ⟨hset, hother, hlog⟩ := writtenSlot_sets (bit (fieldAt r.raw 0x18 4) 0)
      (keptImage s (data.bytes.take (fieldAt r.raw 0x28 4))) s.bst
    refine ⟨_, (exec_fwUpdate_written hready hbus hfree hok hall).trans (congrArg _ (if_neg (by simp [hstage]))), ?_⟩
    refine ⟨finish_completed _ _ _ _ _ rfl, ?_, ?_, ?_, updated_only _ _ _ s⟩ <;> rw [updated_bst]
    · exact hset
    · exact hother
    · exact hlog
  case recovery =>
    rintro sq data r _ s hready hbus hstage hok hall rfl
    have hfree : slotRuns s (bit (fieldAt r.raw 0x18 4) 0) = false := by simp [slotRuns, hstage]
    obtain ⟨hset, hother, -⟩ := writtenSlot_sets (bit (fieldAt r.raw 0x18 4) 0)
      (keptImage s (data.bytes.take (fieldAt r.raw 0x28 4))) s.bst
    have hexec := exec_fwUpdate_written hready hbus hfree hok hall
    rw [hstage] at hexec
    cases hfault : imageFault s.sec.fuses (data.bytes.take (fieldAt r.raw 0x28 4)) with
    | none =>
      rw [hfault, if_pos (by simp)] at hexec
      refine ⟨_, hexec, ?_, ?_, fun _ => .inl (resetDie_cause _ _), fun h => absurd rfl h⟩ <;> rw [resetDie_bst, updated_bst]
      · rw [hset, keptImage, hfault]
      · exact hother
    | some c =>
      rw [hfault, if_neg (by simp)] at hexec
      refine ⟨_, hexec, ?_, ?_, fun h => absurd h (by simp), fun _ => ⟨?_, updated_only _ _ _ s⟩⟩
      · rw [updated_bst, hset, keptImage, hfault]
      · rw [updated_bst]
        exact hother
      · rw [updated, hfault]
        exact finish_completed _ _ _ _ _ rfl
  case busy =>
    intro sq data r s hready hbus hstage hslot
    have hrings : (metRead r data s).rings = s.rings := metRead_only r data s .rings (by decide)
    exact ⟨_, exec_fwUpdate_busy hready hbus (by simp [slotRuns, hstage, hslot]), finish_completed _ _ _ _ _ (by rw [hrings]),
      finish_only_after (metRead_only r data s) (by decide) (by decide)⟩
  case unread =>
    rintro sq _ data r s hready hbus hslot rfl hbad
    have hrings : (metRead r data s).rings = s.rings := metRead_only r data s .rings (by decide)
    exact ⟨_, exec_fwUpdate_unread hready hbus hslot hbad, finish_completed _ _ _ _ _ (by rw [hrings]),
      finish_only_after (metRead_only r data s) (by decide) (by decide)⟩

end Sys2Proof.Proofs
end

section
/-!
The supply and the temperatures (R333 to R336, R404, R408, R410): what trips, measurements and dips of the supply leave, what a
junction sample and a round of sensor polls leave in the thermal unit, and how the engine clock steps.
-/
namespace Sys2Proof.Proofs
open Sys2Proof.Machine Sys2Proof.Laws

/-! ## The supply (R408, R410) -/

/-- The fall is under way, the host is no longer served, and the input switch is as it was. -/
theorem beginFall_supply (vin : Nat) (s : State) : (beginFall vin s).pwr.fall = .storing ∧ (beginFall vin s).sys.serving = false ∧
    (beginFall vin s).pwr.inputOn = s.pwr.inputOn ∧ (beginFall vin s).pwr.ovpLatch = s.pwr.ovpLatch := by
  simp [beginFall, sampleVin, dropBrackets, emptyPends]

section
variable {s : State}

/-- What an overvoltage trip leaves of the input switch. -/
def tripped (s : State) : State := skipFree 1 { s with pwr := { s.pwr with inputOn := false, ovpLatch := true } }

theorem exec_vinOvervoltageTrip_running (hrunning : isRunning s = true) (hfall : s.pwr.fall = .idle) :
    exec .vinOvervoltageTrip s = .next (beginFall (freeNow s % fget s.conf PWR_VIN_THRESH_RESET) (tripped s)) := by
  obtain ⟨hdormant, hboot⟩ : s.sys.mode ≠ .dormant ∧ s.sys.mode ≠ .boot := by simpa [isRunning] using hrunning
  simp [exec, execVinOvervoltageTrip, vinLost, tripped, skipFree, hdormant, hboot, hfall]

theorem exec_holdupMeasurement {mJ : Nat} (hruns : firmwareRuns s = true) (hbrace : s.sys.brace = false) :
    exec (.holdupMeasurement mJ) s = .next (postIf (decide (mJ < 120)) 0x1504 2 [mJ]
      { s with pwr := { s.pwr with holdup := min 0xFFFF mJ, holdupOk := decide (120 ≤ mJ) } }) := by
  simp [exec, execHoldupMeasurement, hruns, hbrace]

theorem postIf_only (c : Bool) (code sev : Nat) (p : List Nat) (s : State) : Only [.rings, .hif, .out] s (postIf c code sev p s) := by
  unfold postIf
  split
  · exact post_only _ _ _ _
  · exact only_refl _ _

/-- BOOT with its next step held back by a dip of VIN. -/
def dipped (vin : Nat) (s : State) : State :=
  { sampleVin vin s with sys := { s.sys with vinLow := true, bootHeld := true } }

theorem exec_vinDipBeforeRunning {vin : Nat} (hmode : s.sys.mode = .boot) (hstage : s.sys.stage ≠ .unpowered)
    (hfall : s.pwr.fall = .idle) : exec (.vinDipBeforeRunning vin) s = .next (updateGuarantee (dipped vin s)) := by
  have hstage' : (sampleVin vin s).sys.stage ≠ .unpowered := hstage
  simp only [exec, execVinDipBeforeRunning, hmode, hfall, decide_true, Bool.and_self, if_true]
  exact congrArg _ (if_neg hstage')

end

theorem updateGuarantee_only (s : State) : Only [.flt, .rings, .hif, .out] s (updateGuarantee s) := by
  refine only_of_unlisted fun p hp => ?_
  cases p <;> cases hp <;> simp [Part.same]

/-! ## The junction (R334) -/

theorem updateGuarantee_same {s : State} (h : bit (guaranteeWord s) 0 = s.flt.holds) : updateGuarantee s = s := by
  rw [updateGuarantee, if_pos h]

/-- WARN after a sample: set at the limit, and kept until 5 °C below it. -/
def warned (j : Int) (s : State) : Bool :=
  decide (16 * (fget s.conf THM_LIMIT_WARN : Int) ≤ j) || (s.thm.warn && decide (16 * (fget s.conf THM_LIMIT_WARN : Int) - 80 < j))

/-- A sample's effect on the thermal unit, with its report. -/
def sampledJunction (j : Int) (s : State) : State :=
  postIf (decide (16 * (fget s.conf THM_LIMIT_WARN : Int) ≤ j) && !s.thm.warn) 0x1401 1 [sfield 16 j]
    { s with thm := { s.thm with junction := j, warn := warned j s } }

/-- The automatic runs that a sample begins (R342). -/
def thermalRuns (j : Int) (s : State) : State :=
  forAll [0, 1, 2] (fun l t => match aget t.cal.lastTemp l with
    | some v => if 8 * fget t.conf CAL_CTRL_DT < (j - v).natAbs then thermalRun l t else t
    | none => t) s

theorem junctionSample_eq (j : Int) (s : State) : junctionSample j s = updateGuarantee (thermalRuns j (sampledJunction j s)) := by
  have hsampled : sampledJunction j s =
      if 16 * (fget s.conf THM_LIMIT_WARN : Int) ≤ j && !s.thm.warn then
        post 0x1401 1 [sfield 16 j] { s with thm := { s.thm with junction := j, warn := true } }
      else if j ≤ 16 * (fget s.conf THM_LIMIT_WARN : Int) - 80 then { s with thm := { s.thm with junction := j, warn := false } }
      else { s with thm := { s.thm with junction := j } } := by
    unfold sampledJunction postIf warned
    have hkept : ∀ b : Bool, s.thm.warn = b → { s.thm with junction := j, warn := b } = { s.thm with junction := j } := fun b hb => by
      rw [← hb]
    by_cases hlimit : 16 * (fget s.conf THM_LIMIT_WARN : Int) ≤ j
    · have hhigh : ¬ j ≤ 16 * (fget s.conf THM_LIMIT_WARN : Int) - 80 := by omega
      cases hwarn : s.thm.warn <;> simp [hlimit, hhigh, hkept _ hwarn]
    · by_cases hlow : j ≤ 16 * (fget s.conf THM_LIMIT_WARN : Int) - 80
      · simp [hlimit, hlow, Int.not_lt.mpr hlow]
      · simp [hlimit, hlow, Int.not_le.mp hlow]
  rw [hsampled]
  rfl

theorem thermalRuns_thm (j : Int) (s : State) : (thermalRuns j s).thm = s.thm :=
  forAll_keeps (fun u => u.thm) _ _ s fun l u => by (repeat' split) <;> simp

/-- No run begins while the junction is near where each link was calibrated. -/
theorem thermalRuns_near {j : Int} {s : State} (h : ∀ l v, aget s.cal.lastTemp l = some v → (j - v).natAbs ≤ 8 * fget s.conf CAL_CTRL_DT) :
    thermalRuns j s = s := by
  have hone : ∀ l, (match aget s.cal.lastTemp l with
      | some v => if 8 * fget s.conf CAL_CTRL_DT < (j - v).natAbs then thermalRun l s else s
      | none => s) = s := fun l => by
    cases hlast : aget s.cal.lastTemp l with
    | none => rfl
    | some v => exact if_neg (Nat.not_lt.mpr (h l v hlast))
  simp only [thermalRuns, forAll, List.foldl_cons, List.foldl_nil, hone]

theorem sampledJunction_only (j : Int) (s : State) : Only [.thm, .rings, .hif, .out] s (sampledJunction j s) := by
  refine only_of_unlisted fun p hp => ?_
  cases p <;> cases hp <;> simp [Part.same, sampledJunction]

theorem junctionSample_only (j : Int) (s : State) : Only [.thm, .cal, .flt, .rings, .hif, .trc, .out, .free] s (junctionSample j s) := by
  refine only_of_unlisted fun p hp => ?_
  cases p <;> cases hp <;> simp [Part.same]

section
variable {j : Int} {s : State} (hrunning : isRunning s = true) (hstage : s.sys.stage ≠ .unpowered) (hfall : s.pwr.fall = .idle)
  (hheld : s.sys.heldStep = none)
include hrunning hstage hfall hheld

theorem exec_thermalSample : exec (.thermalSample j) s = .next (
    if 1792 ≤ j && !(s.sys.transit.any (fun t => t.target = .boot)) then
      watchdog 2 (logFree 14 5 [sfield 16 j % 2 ^ 32] (junctionSample j s))
    else junctionSample j s) := by
  obtain ⟨hdormant, -⟩ : s.sys.mode ≠ .dormant ∧ s.sys.mode ≠ .boot := by simpa [isRunning] using hrunning
  have hresumed : resumeBoot (junctionSample j s) = junctionSample j s := by simp [resumeBoot, hheld]
  simp [exec, execThermalSample, hdormant, hstage, hfall, hresumed]

end

/-! ## The engine clock (R334) -/

section
variable {s : State} {c : Nat}

/-- The clock after a step. -/
def nextClock (s : State) : Nat :=
  if 16 * (fget s.conf THM_LIMIT_THROTTLE : Int) ≤ s.thm.junction then max 1200 (s.thm.clock - 100)
  else if s.thm.junction < 16 * (fget s.conf THM_LIMIT_THROTTLE : Int) - 80 then min 1800 (s.thm.clock + 100)
  else s.thm.clock

theorem exec_engineClockStep_changes (hmode : s.sys.mode ≠ .dormant) (hnext : nextClock s = c) (hc : c ≠ s.thm.clock) :
    exec .engineClockStep s = .next (post 0x1402 1 [c, sfield 16 s.thm.junction] { s with thm := { s.thm with clock := c } }) := by
  subst hnext
  simp only [exec, execEngineClockStep, hmode, if_false]
  exact congrArg _ (if_neg hc)

theorem exec_engineClockStep_stays (hnext : nextClock s = s.thm.clock) : exec .engineClockStep s = .next s := by
  simp only [exec, execEngineClockStep]
  split
  · rfl
  · exact congrArg _ (if_pos hnext)

theorem clockStep_leaves : Posts s (post 0x1402 1 [c, sfield 16 s.thm.junction] { s with thm := { s.thm with clock := c } })
      [event s 0x1402 1 [c, sfield 16 s.thm.junction]] ∧
    Only [.thm, .rings, .hif, .out] s (post 0x1402 1 [c, sfield 16 s.thm.junction] { s with thm := { s.thm with clock := c } }) := by
  refine ⟨posts_post _ _ _ rfl rfl rfl rfl, only_of_unlisted fun p hp => ?_⟩
  cases p <;> cases hp <;> simp [Part.same]

end

/-! ## Panel sensors (R335, R336) -/

/-- A sensor after a poll that gave nothing usable: the third in a row makes it invalid. -/
def badPoll (x : Sensor) : Sensor := { x with valid := x.valid && decide (x.bad < 2), bad := min 3 (x.bad + 1) }

/-- A sensor after a poll. -/
def polledSensor (s : State) (k : Nat) (d : Option (Byte × Byte)) : Sensor :=
  match d with
  | none => badPoll (mget {} s.thm.sensors k)
  | some (hi, lo) =>
    if (sensorValue s k hi lo).2 then { valid := true, bad := 0, reading := (sensorValue s k hi lo).1 }
    else badPoll (mget {} s.thm.sensors k)

/-- A sensor after its part of a round. -/
def nextSensor (rs : List (Option (Byte × Byte))) (s : State) (k : Nat) : Sensor :=
  if fbit s.conf (THM_SENSOR_EN k) then polledSensor s k (rs.getD k none) else {}

/-- A sensor's part of a round of polls. -/
def roundOf (rs : List (Option (Byte × Byte))) (k : Nat) (s : State) : State :=
  if fbit s.conf (THM_SENSOR_EN k) then pollSensor k (rs.getD k none) (emit [sensorRead s.conf k] s) else dropSensor k s

theorem badPoll_of_third {x : Sensor} (hvalid : x.valid = true) (hbad : 2 ≤ x.bad) : badPoll x = { x with valid := false, bad := 3 } := by
  simp only [badPoll, hvalid, Nat.not_lt.mpr hbad, decide_false, Bool.and_false, Nat.min_eq_left (by omega : 3 ≤ x.bad + 1)]

theorem badPoll_of_early {x : Sensor} (h : (x.valid && decide (2 ≤ x.bad)) = false) : badPoll x = { x with bad := min 3 (x.bad + 1) } := by
  have hvalid : (x.valid && decide (x.bad < 2)) = x.valid := by
    cases hv : x.valid
    · rfl
    · simpa [hv] using h
  rw [badPoll, hvalid]

theorem pollSensor_thm (k : Nat) (d : Option (Byte × Byte)) (s : State) :
    (pollSensor k d s).thm = { s.thm with sensors := mput {} k (polledSensor s k d) s.thm.sensors } := by
  have hbad : ∀ x : Sensor, x = mget {} s.thm.sensors k →
      (if x.valid && decide (2 ≤ x.bad) then post 0x1403 1 [k, 1] { s with thm := { s.thm with
          sensors := mput {} k { x with valid := false, bad := 3 } s.thm.sensors } }
        else { s with thm := { s.thm with sensors := mput {} k { x with bad := min 3 (x.bad + 1) } s.thm.sensors } }).thm =
      { s.thm with sensors := mput {} k (badPoll x) s.thm.sensors } := by
    intro x _
    split
    case isTrue h =>
      obtain ⟨hvalid, hsecond⟩ : x.valid = true ∧ 2 ≤ x.bad := by simpa using h
      rw [badPoll_of_third hvalid hsecond]
      simp
    case isFalse h => rw [badPoll_of_early (by simpa using h)]
  match d with
  | none => exact hbad _ rfl
  | some (hi, lo) =>
    unfold pollSensor polledSensor
    dsimp only
    cases hok : (sensorValue s k hi lo).2
    · simp only [Bool.not_false, if_true, Bool.false_eq_true, if_false]
      exact hbad _ rfl
    · simp only [Bool.not_true, Bool.false_eq_true, if_false, if_true]
      split <;> simp

theorem roundOf_thm (rs : List (Option (Byte × Byte))) (k : Nat) (s : State) :
    (roundOf rs k s).thm = { s.thm with sensors := mput {} k (nextSensor rs s k) s.thm.sensors } := by
  unfold roundOf nextSensor
  split
  · rw [pollSensor_thm]
    rfl
  · simp [dropSensor]

theorem roundOf_only (rs : List (Option (Byte × Byte))) (k : Nat) (s : State) : Only [.thm, .rings, .hif, .out] s (roundOf rs k s) := by
  unfold roundOf
  refine only_of_unlisted fun p hp => ?_
  split <;> cases p <;> cases hp <;> simp [Part.same]

theorem nextSensor_congr {rs : List (Option (Byte × Byte))} {s t : State} {k : Nat} (hconf : t.conf = s.conf)
    (hsensor : mget {} t.thm.sensors k = mget {} s.thm.sensors k) : nextSensor rs t k = nextSensor rs s k := by
  have hvalue : ∀ hi lo, sensorValue t k hi lo = sensorValue s k hi lo := fun hi lo => by simp only [sensorValue, hconf]
  have hpolled : ∀ d, polledSensor t k d = polledSensor s k d := fun d => by
    cases d with
    | none => simp only [polledSensor, hsensor]
    | some p => simp only [polledSensor, hsensor, hvalue]
  rw [nextSensor, hconf, hpolled, nextSensor]

section
variable (rs : List (Option (Byte × Byte)))

/-- A round over a list of sensors: each of them once, and the rest of the thermal unit stays. -/
theorem round_thm {l : List Nat} (hl : l.Nodup) (s : State) :
    (forAll l (roundOf rs) s).thm = { s.thm with sensors := (forAll l (roundOf rs) s).thm.sensors } ∧
      ∀ k, mget {} (forAll l (roundOf rs) s).thm.sensors k = if k ∈ l then nextSensor rs s k else mget {} s.thm.sensors k := by
  induction l generalizing s with
  | nil => exact ⟨rfl, fun k => by simp [forAll]⟩
  | cons a l ih =>
    obtain ⟨ha, hl⟩ := List.nodup_cons.mp hl
    obtain ⟨hrest, hread⟩ := ih hl (roundOf rs a s)
    have hthm := roundOf_thm rs a s
    have hconf : (roundOf rs a s).conf = s.conf := roundOf_only rs a s .conf (by decide)
    have hcons : forAll (a :: l) (roundOf rs) s = forAll l (roundOf rs) (roundOf rs a s) := rfl
    refine ⟨by rw [hcons, hrest, hthm], fun k => ?_⟩
    have hkept : k ≠ a → mget {} (roundOf rs a s).thm.sensors k = mget {} s.thm.sensors k := fun hk => by
      rw [hthm]
      exact mget_mput_other _ _ _ hk
    rw [hcons, hread]
    by_cases hk : k = a
    · subst hk
      rw [if_neg ha, if_pos List.mem_cons_self, hthm]
      exact mget_mput_same ..
    · by_cases hmem : k ∈ l
      · rw [if_pos hmem, if_pos (List.mem_cons_of_mem _ hmem), nextSensor_congr hconf (hkept hk)]
      · rw [if_neg hmem, if_neg (by simp [hk, hmem]), hkept hk]

theorem postIf_out {l : List Output} (c : Bool) (code sev : Nat) (p : List Nat) {s : State} (h : l <:+ s.out) :
    l <:+ (postIf c code sev p s).out := by
  unfold postIf
  split
  · exact post_out h
  · exact h

theorem pollSensor_out {l : List Output} (k : Nat) (d : Option (Byte × Byte)) {s : State} (h : l <:+ s.out) :
    l <:+ (pollSensor k d s).out := by
  unfold pollSensor
  dsimp only
  (repeat' split) <;> first | exact post_out h | exact h

theorem roundOf_out {l : List Output} (k : Nat) {s : State} (h : l <:+ s.out) : l <:+ (roundOf rs k s).out := by
  unfold roundOf
  split
  · exact pollSensor_out _ _ (emit_suffix h)
  · exact postIf_out _ _ _ _ h

/-- Every enabled sensor of the round is read. -/
theorem round_reads {l : List Nat} {k : Nat} (hk : k ∈ l) (s : State) (hen : fbit s.conf (THM_SENSOR_EN k) = true) :
    sensorRead s.conf k ∈ (forAll l (roundOf rs) s).out := by
  have hkept : ∀ (l : List Nat) (u : State), u.out <:+ (forAll l (roundOf rs) u).out := fun l => by
    induction l with
    | nil => exact fun u => List.suffix_rfl
    | cons a l ih => exact fun u => (roundOf_out rs a List.suffix_rfl).trans (ih (roundOf rs a u))
  induction l generalizing s with
  | nil => cases hk
  | cons a l ih =>
    have hconf : (roundOf rs a s).conf = s.conf := roundOf_only rs a s .conf (by decide)
    rcases List.mem_cons.mp hk with rfl | hmem
    · refine (hkept l (roundOf rs k s)).subset ?_
      rw [roundOf, if_pos hen]
      exact (pollSensor_out _ _ List.suffix_rfl).subset (by simp [emit])
    · exact hconf ▸ ih hmem (roundOf rs a s) (hconf.symm ▸ hen)

theorem dropSensor_flow (k : Nat) (s : State) : eventsFlow (dropSensor k s) .pf0 = eventsFlow s .pf0 := by
  unfold dropSensor postIf
  split
  · exact eventsFlow_post ..
  · rfl

/-- Where no sensor of the round is enabled, each one that was valid is reported. -/
theorem round_posts {l : List Nat} (hl : l.Nodup) (s : State) (hoff : ∀ k ∈ l, fbit s.conf (THM_SENSOR_EN k) = false) :
    Posts s (forAll l (roundOf rs) s)
      ((l.filter (fun k => (mget {} s.thm.sensors k).valid)).map (fun k => event s 0x1403 1 [k, 1])) := by
  induction l generalizing s with
  | nil => exact posts_nil rfl
  | cons a l ih =>
    obtain ⟨ha, hl⟩ := List.nodup_cons.mp hl
    have hround : roundOf rs a s = dropSensor a s := by simp [roundOf, hoff a List.mem_cons_self]
    have hfirst : Posts s (roundOf rs a s) (if (mget {} s.thm.sensors a).valid then [event s 0x1403 1 [a, 1]] else []) :=
      hround ▸ posts_postIf _ 0x1403 1 [a, 1] rfl rfl rfl rfl
    have hrest := ih hl (roundOf rs a s) fun k hk => by
      rw [roundOf_only rs a s .conf (by decide)]
      exact hoff k (List.mem_cons_of_mem _ hk)
    have hevent : ∀ k, event (roundOf rs a s) 0x1403 1 [k, 1] = event s 0x1403 1 [k, 1] := fun k => by
      rw [event, roundOf_only rs a s .sys (by decide), event]
    have hvalid : l.filter (fun k => (mget {} (roundOf rs a s).thm.sensors k).valid) =
        l.filter (fun k => (mget {} s.thm.sensors k).valid) := List.filter_congr fun k hk => by
      rw [roundOf_thm]
      exact congrArg Sensor.valid (mget_mput_other _ _ _ fun h => ha (h ▸ hk))
    have hall := posts_append hfirst hrest (by rw [roundOf_only rs a s .pwr (by decide)]) (by rw [hround, dropSensor_flow])
    simp only [hvalid, hevent] at hall
    have hcons : forAll (a :: l) (roundOf rs) s = forAll l (roundOf rs) (roundOf rs a s) := rfl
    rw [hcons, List.filter_cons]
    split at hall <;> rename_i h <;> simpa [h] using hall

end

/-- The state after a whole round, with the field computed anew. -/
def polledAll (rs : List (Option (Byte × Byte))) (s : State) : State :=
  { forAll (List.range 16) (roundOf rs) s with thm := { (forAll (List.range 16) (roundOf rs) s).thm with
    field := (List.range 16).map (cellValue (forAll (List.range 16) (roundOf rs) s)) } }

theorem exec_panelSensorPoll {rs : List (Option (Byte × Byte))} {s : State} (hmode : s.sys.mode ≠ .dormant) :
    exec (.panelSensorPoll rs) s = .next (polledAll rs s) := by
  simp only [exec, execPanelSensorPoll, hmode, if_false]
  rfl

theorem polledAll_only (rs : List (Option (Byte × Byte))) (s : State) : Only [.thm, .rings, .hif, .out] s (polledAll rs s) := by
  have hround : Only [.thm, .rings, .hif, .out] s (forAll (List.range 16) (roundOf rs) s) := forAll_only (roundOf_only rs) _ _
  refine only_trans hround (only_of_unlisted fun p hp => ?_)
  cases p <;> cases hp <;> rfl

/-- The field's cells follow the sensors as the round left them. -/
theorem polledAll_field (rs : List (Option (Byte × Byte))) (s : State) :
    (polledAll rs s).thm.field = (List.range 16).map (cellValue (polledAll rs s)) := by
  have hmean : ∀ cell, cellMean (polledAll rs s) cell = cellMean (forAll (List.range 16) (roundOf rs) s) cell := fun cell => rfl
  refine List.map_congr_left fun cell _ => ?_
  unfold cellValue
  simp only [hmean]
  rfl

/-! ## The statements -/

/-- Settles O31: the trip, the switch, the measurement, the dip and the loss are each one named change of the supply. -/
theorem theSupplyIsWatched : Obligations.TheSupplyIsWatched := by
  refine ⟨?trip, ?close, ?holdup, ?dip, ?loss⟩
  case trip =>
    intro s hrunning hfall
    obtain ⟨hstoring, hserving, hinput, hlatch⟩ :=
      beginFall_supply (freeNow s % fget s.conf PWR_VIN_THRESH_RESET) (tripped s)
    exact ⟨_, exec_vinOvervoltageTrip_running hrunning hfall, hinput, hlatch, hstoring, hserving, by simp [tripped, skipFree]⟩
  case close =>
    intro s
    rfl
  case holdup =>
    intro mJ s hruns hbrace
    refine ⟨_, exec_holdupMeasurement hruns hbrace, by simp, ?_, ?_⟩
    · simpa using posts_postIf (s := s) (decide (mJ < 120)) 0x1504 2 [mJ]
        (u := { s with pwr := { s.pwr with holdup := min 0xFFFF mJ, holdupOk := decide (120 ≤ mJ) } }) rfl rfl rfl rfl
    · refine only_of_unlisted fun p hp => ?_
      cases p <;> cases hp <;> simp [Part.same]
  case dip =>
    intro vin s hmode hstage hfall
    refine ⟨_, exec_vinDipBeforeRunning hmode hstage hfall, by simp [dipped], by simp [dipped], by simp [dipped], by simp [dipped, hmode],
      by simp [dipped, sampleVin], only_of_unlisted fun p hp => ?_⟩
    cases p <;> cases hp <;> simp [Part.same, dipped, sampleVin]
  case loss =>
    intro s hmode
    simp [exec, execDormantVinLoss, hmode, dormantLoss]

/-- Settles O51: a sample, a clock step and a round of polls each leave the thermal unit as one equation says. -/
theorem temperaturesAreFollowed : Obligations.TemperaturesAreFollowed := by
  refine ⟨?sample, ?hot, ?slower, ?faster, ?steady, ?panel, ?dormant⟩
  case sample =>
    intro j s hrunning hstage hfall hheld hj
    have hexec := exec_thermalSample (j := j) hrunning hstage hfall hheld
    rw [if_neg (by simp [Int.not_le.mpr hj])] at hexec
    refine ⟨_, hexec, ?_, fun hnear hholds => ?_, junctionSample_only j s⟩
    · simp [junctionSample_eq, thermalRuns_thm, sampledJunction, warned]
    · have hruns : thermalRuns j (sampledJunction j s) = sampledJunction j s := thermalRuns_near fun l v hlast => by
        have hconf : (sampledJunction j s).conf = s.conf := sampledJunction_only j s .conf (by decide)
        have hcal : (sampledJunction j s).cal = s.cal := sampledJunction_only j s .cal (by decide)
        rw [hconf]
        exact hnear l v (hcal ▸ hlast)
      have hsame : junctionSample j s = sampledJunction j s := by
        rw [junctionSample_eq, hruns]
        exact updateGuarantee_same (by simpa [sampledJunction, guaranteeWord] using hholds)
      rw [hsame]
      refine ⟨?_, sampledJunction_only j s⟩
      simpa [sampledJunction] using posts_postIf (s := s) (decide (16 * (fget s.conf THM_LIMIT_WARN : Int) ≤ j) && !s.thm.warn) 0x1401 1 [sfield 16 j]
        (u := { s with thm := { s.thm with junction := j, warn := warned j s } }) rfl rfl rfl rfl
  case hot =>
    intro j s hrunning hstage hfall hheld htransit hj
    have hexec := exec_thermalSample (j := j) hrunning hstage hfall hheld
    have hsys : (logFree 14 5 [sfield 16 j % 2 ^ 32] (junctionSample j s)).sys = s.sys := by simp
    have hwatchdog := watchdog_running 2 (s := logFree 14 5 [sfield 16 j % 2 ^ 32] (junctionSample j s))
      (by simpa [isRunning] using hrunning) (by simpa using hstage) (by simpa using hfall) (by simpa using htransit)
    obtain ⟨u, hreset, hstore, husys, huconf, -⟩ := resetDie_waits 2 (logFree 14 5 [sfield 16 j % 2 ^ 32] (junctionSample j s))
    rw [if_pos (by simp [hj, htransit]), hwatchdog, hreset] at hexec
    exact ⟨_, hexec, by simp [beginTransit, husys], by simp [beginTransit], by simpa using hstore, by simp [huconf]⟩
  case slower =>
    intro s hmode hlimit hclock
    have hnext : nextClock s = max 1200 (s.thm.clock - 100) := if_pos hlimit
    exact ⟨_, exec_engineClockStep_changes hmode hnext (by omega), by simp, clockStep_leaves⟩
  case faster =>
    intro s hmode hlimit hclock
    have hnext : nextClock s = min 1800 (s.thm.clock + 100) := by rw [nextClock, if_neg (by omega), if_pos hlimit]
    exact ⟨_, exec_engineClockStep_changes hmode hnext (by omega), by simp, clockStep_leaves⟩
  case steady =>
    intro s hlow hhigh
    exact exec_engineClockStep_stays (by rw [nextClock, if_neg (by omega), if_neg (by omega)])
  case panel =>
    intro rs s hmode
    have hnodup : (List.range 16).Nodup := List.nodup_range
    obtain ⟨hthm, hsensors⟩ := round_thm rs hnodup s
    have hsensor : ∀ k < 16, mget {} (polledAll rs s).thm.sensors k = nextSensor rs s k := fun k hk =>
      (hsensors k).trans (if_pos (List.mem_range.mpr hk))
    have hround : (forAll (List.range 16) (roundOf rs) s).thm.junction = s.thm.junction := by rw [hthm]
    have hjunction : (polledAll rs s).thm.junction = s.thm.junction := hround
    refine ⟨_, exec_panelSensorPoll hmode, fun k hk hoff => ?_, fun hoff => ?_, fun k hk hen => ?_, fun k hk hi lo hen hd hgood => ?_,
      fun k hk hen hbad => ?_, polledAll_field rs s, hjunction, polledAll_only rs s⟩
    · rw [hsensor k hk, nextSensor, hoff, if_neg Bool.false_ne_true]
    · exact round_posts rs hnodup s fun k hk => hoff k (List.mem_range.mp hk)
    · exact round_reads rs (List.mem_range.mpr hk) s hen
    · rw [hsensor k hk, nextSensor, if_pos hen, hd, polledSensor, if_pos hgood]
    · rw [hsensor k hk, nextSensor, if_pos hen]
      rcases hbad with hd | ⟨hi, lo, hd, hout⟩
      · rw [hd]
        rfl
      · rw [hd, polledSensor, if_neg (by simp [hout])]
        rfl
  case dormant =>
    intro rs s hmode
    constructor <;> simp [exec, execEngineClockStep, execPanelSensorPoll, hmode]

end Sys2Proof.Proofs
end

section
/-!
Engines, solver pairs and the fault log's query (R388, R392 to R395, R400, R401): what the end of a self-test, a spare's own
test, a solver mismatch and FAULT_QUERY leave.
-/
namespace Sys2Proof.Proofs
open Sys2Proof.Machine Sys2Proof.Laws

/-! ## The SPARES record (R400) -/

/-- What SPARES tells of the fault unit. -/
def sparesView (f : Flt) : List Nat × BitVec 17 × Nat := (f.retired, f.solverRetired, hkRetired f)

theorem sparesPayload_of_view {s t : State} (hflt : sparesView t.flt = sparesView s.flt) (htwl : t.twl = s.twl) :
    sparesPayload t = sparesPayload s := by
  simp only [sparesView, Prod.mk.injEq] at hflt
  obtain ⟨hretired, hsolver, hpairs⟩ := hflt
  simp only [sparesPayload, hretired, hsolver, hpairs, htwl]

/-- A record and SPARES after it, told from the state that they left. -/
theorem logsSpares_of_view {s u t : State} {cls outcome inst : Nat} {d : List Nat}
    (hlin : t.lin = (putSpares (logFault cls outcome inst d u)).lin) (hu : u.lin = s.lin) (hfe : u.sys.fe = s.sys.fe)
    (hflt : sparesView t.flt = sparesView u.flt) (htwl : t.twl = u.twl) : LogsSpares s t cls outcome inst d := by
  have hlogged := logFault_lin_congr hfe hu cls outcome inst d
  have hview : sparesPayload (logFault cls outcome inst d u) =
      sparesPayload { logFault cls outcome inst d s with flt := t.flt, twl := t.twl } :=
    sparesPayload_of_view (by simpa using hflt.symm) (by simpa using htwl.symm)
  rw [LogsSpares, hlin]
  refine putSpares_lin_congr hview ?_
  simpa only using hlogged

/-- What was recorded after changes elsewhere was recorded after the state before them. -/
theorem logsSpares_of_start {s u t : State} {cls outcome inst : Nat} {d : List Nat} (h : LogsSpares u t cls outcome inst d)
    (hu : u.lin = s.lin) (hfe : u.sys.fe = s.sys.fe) : LogsSpares s t cls outcome inst d := by
  have hlogged := logFault_lin_congr hfe hu cls outcome inst d
  rw [LogsSpares, h]
  refine putSpares_lin_congr (sparesPayload_of_view rfl rfl) ?_
  simpa only using hlogged

theorem updateGuarantee_flt (s : State) : (updateGuarantee s).flt = { s.flt with holds := (updateGuarantee s).flt.holds } := by
  unfold updateGuarantee
  dsimp only
  (repeat' split) <;> simp

/-! ## Checkers and idle spares (R392, R394) -/

/-- The fault unit with a checker retired. -/
def withoutChecker (e : Nat) (f : Flt) : Flt :=
  { leaveTest e f with
    checkers := match f.idle.head? with
      | some i => f.checkers.map (fun c => if c = e then i else c)
      | none => f.checkers.filter (· ≠ e)
    idle := f.idle.drop 1, retired := f.retired ++ [e] }

section
variable (e : Nat) (s : State)

theorem retireChecker_eq : retireChecker e s = updateGuarantee (putSpares
    (logFree 1 6 [e, s.flt.idle.head?.getD 0xFFFFFFFF] { s with flt := withoutChecker e s.flt })) := by
  unfold retireChecker withoutChecker
  cases s.flt.idle.head? <;> rfl

theorem retireChecker_flt : (retireChecker e s).flt = { withoutChecker e s.flt with holds := (retireChecker e s).flt.holds } := by
  rw [retireChecker_eq, updateGuarantee_flt]
  simp [logFree, skipFree]

theorem retireChecker_logs : LogsSpares s (retireChecker e s) 1 6 (freeNow s % 65536) [e, s.flt.idle.head?.getD 0xFFFFFFFF] := by
  refine logsSpares_of_view (u := skipFree 1 { s with flt := withoutChecker e s.flt }) ?_ rfl rfl ?_ ?_
  · rw [retireChecker_eq]
    simp only [updateGuarantee_frame]
    rfl
  · rw [retireChecker_flt]
    rfl
  · rw [retireChecker_eq]
    simp [logFree, skipFree]

theorem retireChecker_only : Only [.flt, .lin, .rings, .hif, .out, .free] s (retireChecker e s) := by
  refine only_of_unlisted fun p hp => ?_
  cases p <;> cases hp <;> simp [Part.same]

/-- The fault unit with an idle spare retired. -/
def withoutIdle (e : Nat) (f : Flt) : Flt := { f with idle := f.idle.filter (· ≠ e), retired := f.retired ++ [e] }

theorem retireIdle_eq : retireIdle e s = putSpares (logFree 1 6 [e, 0xFFFFFFFF] { s with flt := withoutIdle e s.flt }) := rfl

theorem retireIdle_flt : (retireIdle e s).flt = withoutIdle e s.flt := by
  rw [retireIdle_eq]
  simp [logFree, skipFree]

theorem retireIdle_logs : LogsSpares s (retireIdle e s) 1 6 (freeNow s % 65536) [e, 0xFFFFFFFF] := by
  refine logsSpares_of_view (u := skipFree 1 { s with flt := withoutIdle e s.flt }) ?_ rfl rfl ?_ ?_
  · rw [retireIdle_eq]
    rfl
  · rw [retireIdle_flt]
    rfl
  · rw [retireIdle_eq]
    simp [logFree, skipFree]

theorem retireIdle_only : Only [.flt, .lin, .free] s (retireIdle e s) := by
  refine only_of_unlisted fun p hp => ?_
  cases p <;> cases hp <;> simp [Part.same]

end

/-- The spare that a stripe is promised. -/
def promised (stripe line sp : Nat) (s : State) : EngineMove :=
  { stripe, spare := sp, line, fe := s.sys.fe, seconds := s.lin.seconds }

section
variable {stripe line sp : Nat} {s : State} (hpending : s.flt.pendingStripes.contains stripe = false)
  (hcoming : s.flt.coming.any (fun m => m.stripe = stripe) = false) (hauto : fbit s.conf FLT_POLICY_ENGINE_AUTO = true)
  (hspare : spareEngine s.flt = some sp)
include hpending hcoming hauto hspare

theorem callEngine_promises : callEngine stripe line s = updateGuarantee { s with flt := { takeEngine sp s.flt with
    coming := s.flt.coming ++ [promised stripe line sp s] } } := by
  simp only [callEngine, hpending, hcoming, Bool.or_self, Bool.false_eq_true, if_false, hauto, if_true, hspare]
  rfl

theorem callEngine_promises_flt : (callEngine stripe line s).flt.coming = s.flt.coming ++ [promised stripe line sp s] ∧
    (callEngine stripe line s).flt.engineOf = s.flt.engineOf ∧ (s.flt.suspect = none → (callEngine stripe line s).flt.suspect = none) ∧
    (callEngine stripe line s).flt.lostClocks = s.flt.lostClocks := by
  rw [callEngine_promises hpending hcoming hauto hspare, updateGuarantee_flt]
  refine ⟨rfl, rfl, fun h => ?_, rfl⟩
  simp [takeEngine, leaveTest, h]

theorem callEngine_promises_only : Only [.flt, .rings, .hif, .out] s (callEngine stripe line s) := by
  rw [callEngine_promises hpending hcoming hauto hspare]
  refine only_of_unlisted fun p hp => ?_
  cases p <;> cases hp <;> simp [Part.same]

end

section
variable {e : Nat} {s : State}

/-- The fault unit with a checker's self-test over, and its suspect judged. -/
def tested (e : Nat) (s : State) : State :=
  { s with flt := { s.flt with testing := s.flt.testing.filter (· ≠ e), suspect := none } }

theorem flt_only (f : Flt) (s : State) : Only [.flt] s { s with flt := f } := by
  refine only_of_unlisted fun p hp => ?_
  cases p <;> cases hp <;> rfl

section
variable (htesting : s.flt.testing.contains e = true)
include htesting

theorem exec_checkerSelfTestDone_fail : exec (.checkerSelfTestDone e false) s = .next (retireChecker e (tested e s)) := by
  simp only [exec, execCheckerSelfTestDone, htesting, if_true, Bool.false_eq_true, if_false, tested, clearSuspect]
  cases h : s.flt.suspect with
  | none => rfl
  | some p => rfl

theorem exec_checkerSelfTestDone_pass (hnone : s.flt.suspect = none) : exec (.checkerSelfTestDone e true) s =
    .next { s with flt := { s.flt with testing := s.flt.testing.filter (· ≠ e) } } := by
  simp only [exec, execCheckerSelfTestDone, htesting, if_true, hnone]

theorem exec_checkerSelfTestDone_finds {stripe line : Nat} (hsuspect : s.flt.suspect = some (stripe, line)) :
    exec (.checkerSelfTestDone e true) s = .next (callEngine stripe line (tested e s)) := by
  simp only [exec, execCheckerSelfTestDone, htesting, if_true, hsuspect, tested, clearSuspect]

end

section
variable (hnext : (((ascending (s.flt.idle ++ s.flt.checkers)).filter (s.flt.nextTest ≤ ·)).head? <|>
  (ascending (s.flt.idle ++ s.flt.checkers)).head?) = some e)
include hnext

theorem exec_spareSelfTestTimer {pass : Bool} : exec (.spareSelfTestTimer pass) s = .next (
    if pass then { s with flt := { s.flt with nextTest := e + 1 } }
    else if s.flt.checkers.contains e then retireChecker e { s with flt := { s.flt with nextTest := e + 1 } }
    else retireIdle e { s with flt := { s.flt with nextTest := e + 1 } }) := by
  simp only [exec, execSpareSelfTestTimer, hnext]

end

end

/-! ## Solver pairs (R395) -/

section
variable {p : Nat} {s : State}

/-- The solver with a pair failed in the run under way. -/
def pairFailed (p : Nat) (s : State) : State :=
  { s with gz := { s.gz with failedPairs := s.gz.failedPairs ++ [p], runPairs := some (s.gz.runPairs.getD s.flt.solverSplit) } }

/-- The pair retired, its replacement k or none (0xFF), before it is recorded. -/
def pairReplaced (p k : Nat) (s : State) : State :=
  post 0x1204 3 [p, k, s.gz.rowsDone] { pairFailed p s with flt := retirePair p s.flt }

/-- The pair left to the host, before it is recorded. -/
def pairPending (p : Nat) (s : State) : State :=
  post 0x1203 2 [2, p] (post 0x1204 3 [p, 0xFF, s.gz.rowsDone]
    { pairFailed p s with flt := { s.flt with pendingPairs := s.flt.pendingPairs ++ [p] } })

variable (hserves : (servingPairs s.flt).contains p = true)
include hserves

theorem exec_solverLockstepMismatch_replaced (hauto : fbit s.conf FLT_POLICY_SOLVER_AUTO = true) {k : Nat}
    (hidle : s.flt.solverIdle = some k) : exec (.solverLockstepMismatch p) s =
      .next (putSpares (logFault 2 2 p [s.gz.rowsDone, k] (pairReplaced p k s))) := by
  simp only [exec, execSolverLockstepMismatch, hserves, if_true, hauto, Bool.not_true, Bool.false_eq_true, if_false, hidle]
  rfl

theorem exec_solverLockstepMismatch_alone (hauto : fbit s.conf FLT_POLICY_SOLVER_AUTO = true) (hidle : s.flt.solverIdle = none) :
    exec (.solverLockstepMismatch p) s =
      .next (putSpares (logFault 2 4 p [s.gz.rowsDone, 0xFFFFFFFF] (pairReplaced p 0xFF s))) := by
  simp only [exec, execSolverLockstepMismatch, hserves, if_true, hauto, Bool.not_true, Bool.false_eq_true, if_false, hidle]
  rfl

theorem exec_solverLockstepMismatch_waits (hauto : fbit s.conf FLT_POLICY_SOLVER_AUTO = false)
    (hfirst : s.flt.pendingPairs.contains p = false) : exec (.solverLockstepMismatch p) s =
      .next (logFault 2 3 p [s.gz.rowsDone, 0xFFFFFFFF] (pairPending p s)) := by
  simp only [exec, execSolverLockstepMismatch, hserves, if_true, hauto, Bool.not_false, hfirst, Bool.false_eq_true, if_false]
  rfl

end

section
variable (p k outcome : Nat) (d : List Nat) (s : State)

theorem pairReplaced_recorded :
    (putSpares (logFault 2 outcome p d (pairReplaced p k s))).flt = retirePair p s.flt ∧
    (putSpares (logFault 2 outcome p d (pairReplaced p k s))).gz = (pairFailed p s).gz ∧
    Posts s (putSpares (logFault 2 outcome p d (pairReplaced p k s))) [event s 0x1204 3 [p, k, s.gz.rowsDone]] ∧
    LogsSpares s (putSpares (logFault 2 outcome p d (pairReplaced p k s))) 2 outcome p d ∧
    Only [.flt, .gz, .lin, .rings, .hif, .out] s (putSpares (logFault 2 outcome p d (pairReplaced p k s))) := by
  refine ⟨by simp [pairReplaced], by simp [pairReplaced], ?_, ?_, only_of_unlisted fun q hq => ?_⟩
  · refine posts_putSpares (posts_logFault ?_ _ _ _ _)
    exact posts_post _ _ _ rfl rfl rfl rfl
  · exact logsSpares_of_view rfl (by simp [pairReplaced, pairFailed]) (by simp [pairReplaced, pairFailed]) (by simp) (by simp)
  · cases q <;> cases hq <;> simp [Part.same, pairReplaced, pairFailed]

theorem pairPending_recorded :
    (logFault 2 outcome p d (pairPending p s)).flt = { s.flt with pendingPairs := s.flt.pendingPairs ++ [p] } ∧
    (logFault 2 outcome p d (pairPending p s)).gz = (pairFailed p s).gz ∧
    Posts s (logFault 2 outcome p d (pairPending p s)) [event s 0x1204 3 [p, 0xFF, s.gz.rowsDone], event s 0x1203 2 [2, p]] ∧
    Logs s (logFault 2 outcome p d (pairPending p s)) 2 outcome p d ∧
    Only [.flt, .gz, .lin, .rings, .hif, .out] s (logFault 2 outcome p d (pairPending p s)) := by
  refine ⟨by simp [pairPending], by simp [pairPending], ?_, ?_, only_of_unlisted fun q hq => ?_⟩
  · refine posts_logFault ?_ _ _ _ _
    exact posts_post_post _ _ _ _ _ _ rfl rfl rfl rfl
  · exact logFault_lin_congr (by simp [pairPending, pairFailed]) (by simp [pairPending, pairFailed]) _ _ _ _
  · cases q <;> cases hq <;> simp [Part.same, pairPending, pairFailed]

end

theorem exec_faultQuery {fn : Fn} {sq : Nat} {r : Running} {s : State} (hbus : busMaster s fn = true)
    (hready : ready s fn sq 0x70 = some r) {slots : List Nat}
    (hslots : slots = ((faultsNewestFirst s.lin.sram).drop (fieldAt r.raw 0x18 4)).take (fieldAt r.raw 0x1C 4)) :
    exec (.faultQuery fn sq) s = .next (finish fn sq r SUCCESS [slots.length, guaranteeWord s] (emit [.hostWrite fn
      (fieldAt r.raw 0x20 8) (slots.flatMap (fun k => mgets 0 s.lin.sram (0x88000 + 64 * k) 64))] s)) := by
  subst hslots
  simp only [exec, execFaultQuery]
  rw [runHost_ready hbus hready]

/-! ## The statement -/

/-- Settles O44: each outcome is a change of the fault unit, with the record and the events that go with it. -/
theorem enginesAndSolversAreChecked : Obligations.EnginesAndSolversAreChecked := by
  refine ⟨?passed, ?found, ?failed, ?timer, ?idle, ?checker, ?replaced, ?alone, ?waits, ?query⟩
  case passed =>
    intro e s htesting hnone
    exact ⟨_, exec_checkerSelfTestDone_pass htesting hnone, rfl, flt_only _ s⟩
  case found =>
    intro e stripe line sp s htesting hsuspect hpending hcoming hauto hspare
    obtain ⟨hpromise, hmap, hjudged, -⟩ := callEngine_promises_flt (line := line) (s := tested e s) hpending hcoming hauto hspare
    exact ⟨_, exec_checkerSelfTestDone_finds htesting hsuspect, hjudged rfl, hpromise, hmap,
      only_trans (only_mono (by decide) (flt_only _ s)) (callEngine_promises_only (s := tested e s) hpending hcoming hauto hspare)⟩
  case failed =>
    intro e s htesting
    have hflt := retireChecker_flt e (tested e s)
    refine ⟨_, _, _, exec_checkerSelfTestDone_fail htesting, ?_, ?_, ?_, ?_, rfl, logsSpares_of_start (retireChecker_logs e (tested e s)) rfl rfl,
      only_trans (only_mono (by decide) (flt_only _ s)) (retireChecker_only e (tested e s))⟩ <;> rw [hflt]
    · rfl
    · rfl
    · simp [withoutChecker, leaveTest, tested]
    · rfl
  case timer =>
    intro e s hnext
    exact exec_spareSelfTestTimer hnext
  case idle =>
    intro e s hnext hother
    have hexec := exec_spareSelfTestTimer hnext (pass := false)
    rw [if_neg Bool.false_ne_true, hother, if_neg Bool.false_ne_true] at hexec
    have hflt := retireIdle_flt e { s with flt := { s.flt with nextTest := e + 1 } }
    refine ⟨_, _, hexec, ?_, ?_, ?_, logsSpares_of_start (retireIdle_logs e { s with flt := { s.flt with nextTest := e + 1 } }) rfl rfl,
      only_trans (only_mono (by decide) (flt_only _ s)) (retireIdle_only e _)⟩ <;> rw [hflt] <;> rfl
  case checker =>
    intro e s hnext hmember
    have hexec := exec_spareSelfTestTimer hnext (pass := false)
    rw [if_neg Bool.false_ne_true, hmember, if_pos rfl] at hexec
    have hflt := retireChecker_flt e { s with flt := { s.flt with nextTest := e + 1 } }
    refine ⟨_, _, _, hexec, ?_, ?_, rfl, logsSpares_of_start (retireChecker_logs e { s with flt := { s.flt with nextTest := e + 1 } }) rfl rfl,
      only_trans (only_mono (by decide) (flt_only _ s)) (retireChecker_only e _)⟩ <;> rw [hflt] <;> rfl
  case replaced =>
    intro p k s hserves hauto hidle
    exact ⟨_, exec_solverLockstepMismatch_replaced hserves hauto hidle, pairReplaced_recorded p k 2 _ s⟩
  case alone =>
    intro p s hserves hauto hidle
    exact ⟨_, exec_solverLockstepMismatch_alone hserves hauto hidle, pairReplaced_recorded p 0xFF 4 _ s⟩
  case waits =>
    intro p s hserves hauto hfirst
    exact ⟨_, exec_solverLockstepMismatch_waits hserves hauto hfirst, pairPending_recorded p 3 _ s⟩
  case query =>
    intro fn sq slots r s hbus hready hslots
    refine ⟨_, exec_faultQuery hbus hready hslots, finish_completed _ _ _ _ _ (by simp), ?_,
      finish_only_after (emit_only _ s) (by decide) (by decide)⟩
    exact (finish_out List.suffix_rfl).subset (by simp [emit])

end Sys2Proof.Proofs
end

section
/-!
SPARE_COMMIT (R402, Table 18.5): an engine, a Twill lane, a solver pair, a page or an SRAM row goes onto a spare.
-/
namespace Sys2Proof.Proofs
open Sys2Proof.Machine Sys2Proof.Laws

/-! ## What a group's port leaves of the other groups -/

/-- Between two states every group but `g` is the same. -/
def OtherGroups (g : Nat) (s t : State) : Prop := ∀ k, k ≠ g → groupAt t k = groupAt s k

section
variable {g : Nat} {s t u : State}

theorem OtherGroups.refl (s : State) : OtherGroups g s s := fun _ _ => rfl

theorem OtherGroups.trans (hst : OtherGroups g s t) (htu : OtherGroups g t u) : OtherGroups g s u :=
  fun k hk => (htu k hk).trans (hst k hk)

theorem OtherGroups.of_groups (h : t.twl.groups = s.twl.groups) : OtherGroups g s t := fun k _ => by rw [groupAt, h, groupAt]

theorem setGroup_others (v : Group) (s : State) : OtherGroups g s (setGroup g v s) := fun _ hk => groupAt_setGroup_other hk v s

theorem setRun_groups (lane : Nat) (run : LaneRun) (s : State) : (setRun lane run s).twl.groups = s.twl.groups := by
  unfold setRun
  split <;> rfl

theorem forAll_groups (run : LaneRun) (l : List Nat) (s : State) :
    (forAll l (fun n => setRun n run) s).twl.groups = s.twl.groups :=
  forAll_keeps (fun u => u.twl.groups) _ _ s fun n u => setRun_groups n run u

theorem startReference_others (s : State) : OtherGroups g s (startReference g s) := by
  unfold startReference
  split
  · exact .refl s
  · exact (setGroup_others (g := g) { groupAt s g with reference := true } s).trans
      (.of_groups (forAll_groups .idle _ _))

theorem idleLanes_others (c : PortCfg) (s : State) : OtherGroups c.group s (idleLanes c s) :=
  (startReference_others s).trans (.of_groups (forAll_groups .idle _ _))

theorem lanesFollow_groups (k : Nat) (s : State) : (lanesFollow k s).twl.groups = s.twl.groups := by
  unfold lanesFollow
  split
  · exact forAll_groups (liveRun s) _ s
  · rfl

theorem patternDue_groups (body : Bytes) (s : State) : (patternDue body s).twl.groups = s.twl.groups := by
  unfold patternDue
  split
  · split
    · exact setRun_groups ..
    · rfl
  · rfl

theorem wireNext_others (s : State) : OtherGroups g s (wireNext g s) := by
  unfold wireNext
  dsimp only
  split
  · exact .refl s
  · split
    · split
      · exact (setGroup_others _ s).trans (.of_groups (patternDue_groups _ _))
      · exact .refl s
    · split
      · exact setGroup_others _ s
      · exact .refl s

theorem bcSend_others {n : Nat} {c : PortCfg} (hcfg : portCfg s.conf n = some c) (type : Nat) (payload : Bytes) :
    OtherGroups c.group s (bcSend n type payload s) := by
  rw [bcSend_eq hcfg]
  exact (setGroup_others _ (setPort n _ s)).trans (wireNext_others _)

end

/-! ## A port that trains on its group's spare -/

section
variable {n l : Nat} {c : PortCfg} {s : State}

theorem startOnSpare_others (hcfg : portCfg s.conf n = some c) : OtherGroups c.group s (startOnSpare n c s) := by
  unfold startOnSpare
  dsimp only
  split
  · exact .of_groups rfl
  · refine OtherGroups.trans (t := idleLanes c (trace1 6 (setPort n (beginning (portAt s n)) s))) ?_ (bcSend_others (by simpa using hcfg) _ _)
    exact OtherGroups.trans (t := trace1 6 (setPort n (beginning (portAt s n)) s)) (.of_groups (by simp [setPort])) (idleLanes_others c _)

theorem startOnSpare_touches (hcfg : portCfg s.conf n = some c) : ∃ p, PortSet n p s (startOnSpare n c s) := by
  cases hclock : (groupAt s c.group).noClock with
  | false => exact ⟨_, startOnSpare_sets hcfg hclock⟩
  | true =>
    simp only [startOnSpare, hclock, if_true]
    exact ⟨_, setPort_sets ..⟩

theorem useSpare_touches (hcfg : portCfg s.conf n = some c) : ∃ p, PortSet n p (spareBrought c l s) (useSpare n c l s) := by
  have hannounced : PortSet n { portAt s n with tries := 0 } (spareBrought c l s) (spareAnnounced n c l s) :=
    (setPort_sets n _ _).wires post_wires
  obtain ⟨p, hstart⟩ := startOnSpare_touches (n := n) (c := c) (s := spareAnnounced n c l s)
    (by simpa [spareAnnounced, spareBrought] using hcfg)
  exact ⟨p, ((hannounced.trans hstart).wires (lanesFollow_wires _ _)).wires (useSpare_wires ..)⟩

theorem useSpare_others (hcfg : portCfg s.conf n = some c) : OtherGroups c.group s (useSpare n c l s) := by
  have hannounced : OtherGroups c.group s (spareAnnounced n c l s) :=
    OtherGroups.trans (t := spareBrought c l s) (setGroup_others _ s) (.of_groups (by simp [spareAnnounced, setPort]))
  refine (hannounced.trans (startOnSpare_others (n := n) ?_)).trans (.of_groups ?_)
  · simpa [spareAnnounced, spareBrought] using hcfg
  · calc (useSpare n c l s).twl.groups = (spareTrains n c l s).twl.groups := by simp [useSpare_eq]
      _ = _ := lanesFollow_groups _ _

theorem useSpare_cqs (n l : Nat) (c : PortCfg) (s : State) : (useSpare n c l s).rings.cqs = s.rings.cqs := by
  have hannounced : (spareAnnounced n c l s).rings.cqs = s.rings.cqs := by simp [spareAnnounced, spareBrought, setPort, setGroup]
  simp [useSpare_eq, spareTrains, hannounced]

theorem useSpare_only (n l : Nat) (c : PortCfg) (s : State) :
    Only [.rings, .hif, .lin, .twl, .trc, .out, .free] s (useSpare n c l s) := by
  refine only_of_unlisted fun p hp => ?_
  cases p <;> cases hp <;> simp [Part.same]

end

/-! ## What SPARE_COMMIT runs for each class -/

section
variable {sq : Nat} {r : Running} {s : State}

theorem finished {a : Answer} {st : Nat} {res : List Nat} (h : a = .next (finish .pf0 sq r st res s)) :
    ∃ t, a = .next t ∧ Completed s t .pf0 sq r st res ∧ Only [.rings, .hif, .trc, .out, .free] s t :=
  ⟨_, h, finish_completed _ _ _ _ _ rfl, finish_only _ _ _ _ _ s⟩

variable (hready : ready s .pf0 sq 0x71 = some r)
include hready

theorem exec_spareCommit_engine (h : fieldAt r.raw 0x18 4 = 0) :
    exec (.spareCommit sq) s = .next (commitEngine sq r (fieldAt r.raw 0x1C 4) (fieldAt r.raw 0x20 4) s) := by
  simp only [exec, execSpareCommit, runRing_ready hready, h]

theorem exec_spareCommit_lane (h : fieldAt r.raw 0x18 4 = 1) :
    exec (.spareCommit sq) s = .next (commitLane sq r (fieldAt r.raw 0x1C 4) (fieldAt r.raw 0x20 4) s) := by
  simp only [exec, execSpareCommit, runRing_ready hready, h]

theorem exec_spareCommit_pair (h : fieldAt r.raw 0x18 4 = 2) :
    exec (.spareCommit sq) s = .next (commitPair sq r (fieldAt r.raw 0x1C 4) (fieldAt r.raw 0x20 4) s) := by
  simp only [exec, execSpareCommit, runRing_ready hready, h]

theorem exec_spareCommit_page (h : fieldAt r.raw 0x18 4 = 3) :
    exec (.spareCommit sq) s = .next (commitPage sq r (fieldAt r.raw 0x1C 4) (fieldAt r.raw 0x20 4) s) := by
  simp only [exec, execSpareCommit, runRing_ready hready, h]

theorem exec_spareCommit_row (h : fieldAt r.raw 0x18 4 = 4) :
    exec (.spareCommit sq) s = .next (commitRow sq r (fieldAt r.raw 0x1C 4) (fieldAt r.raw 0x20 4) s) := by
  simp only [exec, execSpareCommit, runRing_ready hready, h]

theorem exec_spareCommit_other (h : 4 < fieldAt r.raw 0x18 4) :
    exec (.spareCommit sq) s = .next (finish .pf0 sq r BAD_PARAM [0x18] s) := by
  simp only [exec, execSpareCommit, runRing_ready hready]
  obtain ⟨k, hk⟩ : ∃ k, fieldAt r.raw 0x18 4 = k + 5 := ⟨fieldAt r.raw 0x18 4 - 5, by omega⟩
  simp only [hk]

end

/-! ## An engine for a stripe -/

section
variable {sq inst spare : Nat} {r : Running} {s : State}

theorem commitEngine_range (h : 191 < inst) : commitEngine sq r inst spare s = finish .pf0 sq r BAD_PARAM [0x1C] s := by
  simp only [commitEngine, if_pos h]

section
variable (hinst : inst ≤ 191)
include hinst

theorem commitEngine_stranger (hany : spare ≠ 0xFFFFFFFF) (hidle : s.flt.idle.contains spare = false) :
    commitEngine sq r inst spare s = finish .pf0 sq r BAD_PARAM [0x20] s := by
  simp only [commitEngine]
  rw [if_neg (by omega), if_pos (by simpa [hany] using hidle)]

variable (hsuspect : s.flt.suspect.any (fun p => p.1 = inst) = false) (hcoming : s.flt.coming.any (fun m => m.stripe = inst) = false)
include hsuspect hcoming

theorem commitEngine_none (hspare : spare = 0xFFFFFFFF) (hidle : s.flt.idle = []) :
    commitEngine sq r inst spare s = finish .pf0 sq r RESOURCE_BUSY [] s := by
  simp only [commitEngine, hspare, hidle, hsuspect, hcoming]
  rw [if_neg (by omega)]
  rfl

/-- The engine takes the stripe at the next FT, where the command completes. -/
theorem commitEngine_holds {e : Nat} (hspare : (spare = 0xFFFFFFFF ∧ s.flt.idle.head? = some e) ∨
      (spare = e ∧ e ≠ 0xFFFFFFFF ∧ s.flt.idle.contains e = true)) :
    commitEngine sq r inst spare s = holdRunning .pf0 sq r inst { s with flt := { takeEngine e s.flt with
      coming := (takeEngine e s.flt).coming ++ [{ stripe := inst, spare := e, fe := s.sys.fe, seconds := s.lin.seconds, ring := some sq
                                                  exchange := !(s.flt.pendingStripes.contains inst) }] } } := by
  simp only [commitEngine, hsuspect, hcoming]
  rw [if_neg (by omega)]
  rcases hspare with ⟨hany, hhead⟩ | ⟨rfl, hone, hidle⟩
  · simp [hany, hhead]
  · have hfind : s.flt.idle.find? (fun x => decide (x = spare)) = some spare := by
      have hsome : (s.flt.idle.find? (fun x => decide (x = spare))).isSome = true := by
        simpa [List.find?_isSome] using hidle
      obtain ⟨x, hx⟩ := Option.isSome_iff_exists.mp hsome
      rw [hx, of_decide_eq_true (List.find?_some (p := fun x => decide (x = spare)) hx)]
    simp only [hone, hfind, hidle, ne_eq, not_false_eq_true, decide_true, Bool.not_true, Bool.and_false, Bool.false_eq_true, if_false,
      Bool.or_self]

end

end

/-! ## A Twill lane (R259 to R261) -/

/-- The exchange of a lane has been recorded: its port, which starts afresh in service, keeps the reason it failed for. -/
def laneLogged (n g lane : Nat) (s : State) : State :=
  logFault 5 2 n [g, lane, if (portAt s n).state = .failed then (portAt s n).reason else freeNow s % 7]
    (skipFree 1 (setPort n { portAt s n with initial := false } s))

/-- A group with no spare in use. -/
def spareReleased (g : Nat) (s : State) : State :=
  setGroup g { groupAt s g with spareUsed := false, laneSpare := false, pending := none } s

/-- The lane whose place the spare had taken serves again. -/
def laneBack (n g : Nat) (s : State) : State := putSpares (lanesFollow g (trainPort false n (spareReleased g s)))

/-- Is the lane that the spare replaces still good, so that it can be a spare itself? -/
def laneGood (g lane n : Nat) (s : State) : Bool :=
  decide ((groupAt s g).pending ≠ some lane) && decide ((portAt s n).state ≠ .failed)

/-- The spare serves a lane; what it replaced is a spare itself where it was still good. -/
def laneOnto (good : Bool) (n g lane : Nat) (c : PortCfg) (s : State) : State :=
  setGroup g { groupAt (useSpare n c lane s) g with laneSpare := good } (useSpare n c lane s)

section
variable {sq g lane n : Nat} {c : PortCfg} {r : Running} {s : State}

theorem commitLane_range (h : 11 < g) : commitLane sq r g lane s = finish .pf0 sq r BAD_PARAM [0x1C] s := by
  have hg : ¬ g ≤ 11 := by omega
  simp [commitLane, hg, h]

section
variable (hg : g ≤ 11)
include hg

theorem commitLane_unserved (h : 7 < lane ∨ portOfLane s.conf g lane = none) :
    commitLane sq r g lane s = finish .pf0 sq r BAD_PARAM [0x20] s := by
  have hnone : (if g ≤ 11 && decide (lane < 8) then portOfLane s.conf g lane else none) = none := by
    rcases h with hlane | hport
    · rw [if_neg (by simp; omega)]
    · rw [hport, ite_self]
  simp only [commitLane]
  rw [hnone]
  simp only [if_neg (Nat.not_lt.mpr hg)]

variable (hlane : lane < 8) (hport : portOfLane s.conf g lane = some (n, c))
include hlane hport

theorem commitLane_unreached (h : spareReaches s n c = false) :
    commitLane sq r g lane s = finish .pf0 sq r BAD_PARAM [0x20] s := by
  simp [commitLane, hg, hlane, hport, h]

variable (hreach : spareReaches s n c = true)
include hreach

theorem commitLane_busy (hused : (groupAt s g).spareUsed = true) (hspare : (groupAt s g).laneSpare = false) :
    commitLane sq r g lane s = finish .pf0 sq r RESOURCE_BUSY [] s := by
  simp [commitLane, hg, hlane, hport, hreach, hused, hspare]

theorem commitLane_onto (hunused : (groupAt s g).spareUsed = false) :
    commitLane sq r g lane s = finish .pf0 sq r SUCCESS [n] (laneOnto (laneGood g lane n s) n g lane c (laneLogged n g lane s)) := by
  simp only [commitLane, hg, hlane, hport, hreach, hunused, decide_true, Bool.and_true, Bool.false_and, if_true,
    Bool.not_true, Bool.false_eq_true, if_false]
  rfl

theorem commitLane_back (hused : (groupAt s g).spareUsed = true) (hspare : (groupAt s g).laneSpare = true)
    (hsame : (groupAt s g).spareLane = lane) :
    commitLane sq r g lane s = finish .pf0 sq r SUCCESS [n] (laneBack n g (laneLogged n g lane s)) := by
  simp only [commitLane, hg, hlane, hport, hreach, hused, hspare, hsame, decide_true, Bool.and_true, if_true,
    Bool.not_true, Bool.false_eq_true, if_false]
  rfl

end

theorem portOfLane_enabled (h : portOfLane s.conf g lane = some (n, c)) : portCfg s.conf n = some c ∧ c.group = g := by
  have hserves := List.find?_some h
  simp only [Bool.and_eq_true, decide_eq_true_eq] at hserves
  exact ⟨portCfg_of_enabled (List.mem_of_find?_eq_some h), hserves.1.1⟩

theorem laneLogged_twl : (laneLogged n g lane s).twl = (setPort n { portAt s n with initial := false } s).twl := by
  simp [laneLogged]

theorem laneLogged_groupAt (k : Nat) : groupAt (laneLogged n g lane s) k = groupAt s k := by
  rw [groupAt, laneLogged_twl]
  rfl

theorem laneLogged_portAt {m : Nat} (hm : m ≠ n) : portAt (laneLogged n g lane s) m = portAt s m := by
  rw [portAt, laneLogged_twl]
  exact portAt_setPort_other hm _ s

theorem laneLogged_conf : (laneLogged n g lane s).conf = s.conf := by simp [laneLogged]

theorem laneLogged_only : Only [.rings, .hif, .lin, .twl, .trc, .out, .free] s (laneLogged n g lane s) := by
  refine only_of_unlisted fun p hp => ?_
  cases p <;> cases hp <;> simp [Part.same, laneLogged]

theorem laneBack_only : Only [.rings, .hif, .lin, .twl, .trc, .out, .free] s (laneBack n g s) := by
  refine only_of_unlisted fun p hp => ?_
  cases p <;> cases hp <;> simp [Part.same, laneBack, spareReleased]

theorem laneBack_sets (n g : Nat) (s : State) : ∃ p, PortSet n p (spareReleased g s) (laneBack n g s) := by
  obtain ⟨p, htrain⟩ := trainPort_touches false n (spareReleased g s)
  exact ⟨p, (htrain.wires (lanesFollow_wires g _)).wires (.of_twl (by simp [laneBack]))⟩

theorem laneBack_port {m : Nat} (hm : m ≠ n) : portAt (laneBack n g s) m = portAt s m := by
  obtain ⟨p, hset⟩ := laneBack_sets n g s
  exact hset.other m hm

theorem laneBack_group : (groupAt (laneBack n g s) g).spareUsed = false ∧ (groupAt (laneBack n g s) g).laneSpare = false := by
  obtain ⟨p, hset⟩ := laneBack_sets n g s
  have hgroup := hset.group g
  rw [spareReleased, groupAt_setGroup_same] at hgroup
  simp only [groupSetup, Group.mk.injEq] at hgroup
  simp only [hgroup, and_self]

theorem laneOnto_only (good : Bool) : Only [.rings, .hif, .lin, .twl, .trc, .out, .free] s (laneOnto good n g lane c s) := by
  refine only_of_unlisted fun p hp => ?_
  cases p <;> cases hp <;> simp [Part.same, laneOnto]

theorem laneOnto_others (good : Bool) (hcfg : portCfg s.conf n = some c) (hg : c.group = g) {k : Nat} (hk : k ≠ g) :
    groupAt (laneOnto good n g lane c s) k = groupAt s k := by
  subst hg
  exact (groupAt_setGroup_other hk _ _).trans (useSpare_others hcfg k hk)

theorem laneOnto_port (good : Bool) (hcfg : portCfg s.conf n = some c) {m : Nat} (hm : m ≠ n) :
    portAt (laneOnto good n g lane c s) m = portAt s m := by
  obtain ⟨p, hset⟩ := useSpare_touches (l := lane) hcfg
  exact hset.other m hm

theorem laneOnto_group (good : Bool) (hcfg : portCfg s.conf n = some c) (hg : c.group = g) :
    (groupAt (laneOnto good n g lane c s) g).spareUsed = true ∧ (groupAt (laneOnto good n g lane c s) g).spareLane = lane ∧
      (groupAt (laneOnto good n g lane c s) g).laneSpare = good := by
  subst hg
  obtain ⟨p, hset⟩ := useSpare_touches (l := lane) hcfg
  obtain ⟨hused, hlane⟩ := spare_of_spareBrought (hset.group c.group)
  simp only [laneOnto, groupAt_setGroup_same]
  exact ⟨hused, hlane, trivial⟩

end


/-! ## A solver pair, a page and an SRAM row (R395, R308, R315) -/

section
variable {sq p spare : Nat} {r : Running} {s : State}

theorem commitPair_range (h : (servingPairs s.flt).contains p = false) :
    commitPair sq r p spare s = finish .pf0 sq r BAD_PARAM [0x1C] s := by
  simp only [commitPair, h, Bool.not_false, if_true]

theorem commitPair_spare (h : (servingPairs s.flt).contains p = true) (hspare : spare ≠ 0) :
    commitPair sq r p spare s = finish .pf0 sq r BAD_PARAM [0x20] s := by
  simp only [commitPair, h, Bool.not_true, Bool.false_eq_true, if_false, if_pos hspare]

theorem commitPair_none (h : (servingPairs s.flt).contains p = true) (hidle : s.flt.solverIdle = none) :
    commitPair sq r p 0 s = finish .pf0 sq r RESOURCE_BUSY [] s := by
  simp only [commitPair, h, hidle]
  rfl

/-- The idle pair `k` takes the place of another, which is retired where it was pending, and else is the idle one. -/
def pairOut (p k : Nat) (f : Flt) : Flt :=
  if f.pendingPairs.contains p then retirePair p f
  else { f with solverIdle := some p, solverSplit := splitWithout p (some k) f.solverSplit }

/-- A pair has been exchanged, and the exchange recorded. -/
def pairExchanged (p k : Nat) (s : State) : State :=
  putSpares (logFault 2 2 p [freeNow s % 512, k] (skipFree 1 { s with flt := pairOut p k s.flt }))

theorem commitPair_exchanges {k : Nat} (h : (servingPairs s.flt).contains p = true) (hidle : s.flt.solverIdle = some k) :
    commitPair sq r p 0 s = finish .pf0 sq r SUCCESS [k] (pairExchanged p k s) := by
  simp only [commitPair, h, hidle, pairExchanged, pairOut, Bool.not_true, Bool.false_eq_true, if_false, ne_eq, not_true_eq_false]

theorem pairExchanged_idle (k : Nat) : (pairExchanged p k s).flt.solverIdle =
    if s.flt.pendingPairs.contains p then none else some p := by
  have hflt : (pairExchanged p k s).flt = pairOut p k s.flt := by simp [pairExchanged]
  rw [hflt, pairOut]
  split <;> rfl

theorem pairExchanged_only (k : Nat) : Only [.rings, .hif, .lin, .flt, .trc, .out, .free] s (pairExchanged p k s) := by
  refine only_of_unlisted fun p hp => ?_
  cases p <;> cases hp <;> simp [Part.same, pairExchanged]

theorem commitPage_range (h : dataPages ≤ p) : commitPage sq r p spare s = finish .pf0 sq r BAD_PARAM [0x1C] s := by
  simp only [commitPage, if_pos h]

theorem commitPage_spare (h : p < dataPages) (hspare : spare ≠ 0) :
    commitPage sq r p spare s = finish .pf0 sq r BAD_PARAM [0x20] s := by
  simp only [commitPage, if_neg (Nat.not_le.mpr h), if_pos hspare]

theorem commitPage_none (h : p < dataPages) (hnext : nextSpare s = none) :
    commitPage sq r p 0 s = finish .pf0 sq r RESOURCE_BUSY [] s := by
  simp [commitPage, Nat.not_le.mpr h, hnext]

theorem commitPage_retires {k : Nat} (h : p < dataPages) (hnext : nextSpare s = some k) :
    commitPage sq r p 0 s = finish .pf0 sq r SUCCESS [k] (retireTo p k s) := by
  simp [commitPage, Nat.not_le.mpr h, hnext]

theorem retireTo_sets (p k : Nat) (s : State) :
    (retireTo p k s).bst = { s.bst with retireLog := s.bst.retireLog ++ [(p, k)] } ∧ (retireTo p k s).mem.bytes = s.mem.bytes ∧
      (retireTo p k s).mem.retired = mput 0 p k s.mem.retired := by
  simp [retireTo]

theorem commitRow_spare (hspare : spare ≠ 0) : commitRow sq r p spare s = finish .pf0 sq r BAD_PARAM [0x20] s := by
  simp only [commitRow, if_pos hspare]

theorem commitRow_none (hused : 4 ≤ mget 0 s.mem.sramUsed (p / 65536)) :
    commitRow sq r p 0 s = finish .pf0 sq r RESOURCE_BUSY [] s := by
  simp [commitRow, hused]

theorem commitRow_exchanges (hused : mget 0 s.mem.sramUsed (p / 65536) < 4) :
    commitRow sq r p 0 s = finish .pf0 sq r SUCCESS [4 - mget 0 s.mem.sramUsed (p / 65536)]
      (switchRow (p / 65536) (p % 65536) (mget 0 s.mem.sramUsed (p / 65536)) s) := by
  simp [commitRow, Nat.not_le.mpr hused, exchangeRow]

end

/-- Settles O43: each class of spare is committed, or refused with the parameter that is wrong. -/
theorem sparesAreCommitted : Obligations.SparesAreCommitted := by
  refine ⟨?_, ?_, ?_, ?_, ?_, ?_, ?_, ?_, ?_, ?_, ?_⟩
  case refine_1 =>
    intro sq e r s hready hclass hinst hspare hsuspect hcoming
    refine ⟨_, by rw [exec_spareCommit_engine hready hclass, commitEngine_holds hinst hsuspect hcoming hspare],
      holdRunning_running .., ?_, ?_, ?_, only_trans (only_mono (by decide) (flt_only _ s))
        (only_mono (by decide) (holdRunning_only _ _ _ _ _))⟩
    all_goals simp [takeEngine, leaveTest]
  case refine_2 =>
    intro sq r s hready hclass hinst hany hidle hsuspect hcoming
    exact finished (by rw [exec_spareCommit_engine hready hclass, commitEngine_none hinst hsuspect hcoming hany hidle])
  case refine_3 =>
    rintro sq r s hready (⟨hclass, hg, hlane, hused, hspare, ⟨n, c⟩, hport, hreach⟩ | ⟨hclass, hserves, hspare, hidle⟩ |
      ⟨hclass, hpage, hspare, hnext⟩ | ⟨hclass, hspare, hfull⟩)
    · exact finished (by rw [exec_spareCommit_lane hready hclass, commitLane_busy hg hlane hport hreach hused hspare])
    · exact finished (by rw [exec_spareCommit_pair hready hclass, hspare, commitPair_none hserves hidle])
    · exact finished (by rw [exec_spareCommit_page hready hclass, hspare, commitPage_none hpage hnext])
    · exact finished (by rw [exec_spareCommit_row hready hclass, hspare, commitRow_none hfull])
  case refine_4 =>
    rintro sq r s hready (⟨hclass, hinst⟩ | ⟨hclass, hg⟩ | ⟨hclass, hserves⟩ | ⟨hclass, hpage⟩)
    · exact finished (by rw [exec_spareCommit_engine hready hclass, commitEngine_range hinst])
    · exact finished (by rw [exec_spareCommit_lane hready hclass, commitLane_range hg])
    · exact finished (by rw [exec_spareCommit_pair hready hclass, commitPair_range hserves])
    · exact finished (by rw [exec_spareCommit_page hready hclass, commitPage_range hpage])
  case refine_5 =>
    rintro sq r s hready (⟨hclass, hinst, hany, hidle⟩ | ⟨hclass, hg, hlane⟩ | ⟨hclass, hserves, hspare⟩ | ⟨hclass, hpage, hspare⟩ |
      ⟨hclass, hspare⟩)
    · exact finished (by rw [exec_spareCommit_engine hready hclass, commitEngine_stranger hinst hany hidle])
    · refine finished ((exec_spareCommit_lane hready hclass).trans (congrArg _ ?_))
      by_cases hserved : 7 < fieldAt r.raw 0x20 4 ∨ portOfLane s.conf (fieldAt r.raw 0x1C 4) (fieldAt r.raw 0x20 4) = none
      · exact commitLane_unserved hg hserved
      · obtain ⟨hlane8, hport⟩ := not_or.mp hserved
        obtain hwide | hnone | ⟨q, hq, hreach⟩ := hlane
        · exact absurd hwide hlane8
        · exact absurd hnone hport
        · exact commitLane_unreached hg (by omega) hq hreach
    · exact finished (by rw [exec_spareCommit_pair hready hclass, commitPair_spare hserves hspare])
    · exact finished (by rw [exec_spareCommit_page hready hclass, commitPage_spare hpage hspare])
    · exact finished (by rw [exec_spareCommit_row hready hclass, commitRow_spare hspare])
  case refine_6 =>
    intro sq n c r s hready hclass hg hlane hport hgroup hfits
    obtain ⟨hcfg, -⟩ := portOfLane_enabled hport
    simp only [spareFits, Bool.and_eq_true, Bool.not_eq_true', hgroup] at hfits
    obtain ⟨hreach, hunused⟩ := hfits
    have hcfg' : portCfg (laneLogged n (fieldAt r.raw 0x1C 4) (fieldAt r.raw 0x20 4) s).conf n = some c := by rw [laneLogged_conf, hcfg]
    obtain ⟨hused, hserves, hgood⟩ := laneOnto_group (lane := fieldAt r.raw 0x20 4)
      (laneGood (fieldAt r.raw 0x1C 4) (fieldAt r.raw 0x20 4) n s)
      hcfg' hgroup
    refine ⟨_, by rw [exec_spareCommit_lane hready hclass, commitLane_onto hg hlane hport hreach hunused],
      finish_completed _ _ _ _ _ (by simp [laneOnto, laneLogged, setGroup, useSpare_cqs]), ?_, ?_, ?_, fun g hne => ?_, fun m hne => ?_,
      finish_only_after (only_trans laneLogged_only (laneOnto_only _)) (by decide) (by decide)⟩
    · simpa [groupAt] using hused
    · simpa [groupAt] using hserves
    · simpa [groupAt, laneGood] using hgood
    · have hother := laneOnto_others (lane := fieldAt r.raw 0x20 4)
        (laneGood (fieldAt r.raw 0x1C 4) (fieldAt r.raw 0x20 4) n s)
        hcfg' hgroup hne
      rw [laneLogged_groupAt] at hother
      simpa [groupAt] using hother
    · have hother := laneOnto_port (g := fieldAt r.raw 0x1C 4) (lane := fieldAt r.raw 0x20 4)
        (laneGood (fieldAt r.raw 0x1C 4) (fieldAt r.raw 0x20 4) n s)
        hcfg' hne
      rw [laneLogged_portAt hne] at hother
      simpa [portAt] using hother
  case refine_7 =>
    intro sq n c r s hready hclass hg hlane hport hreach hused hspare hsame
    obtain ⟨hfree, hgood⟩ := laneBack_group (n := n) (g := fieldAt r.raw 0x1C 4)
      (s := laneLogged n (fieldAt r.raw 0x1C 4) (fieldAt r.raw 0x20 4) s)
    refine ⟨_, by rw [exec_spareCommit_lane hready hclass, commitLane_back hg hlane hport hreach hused hspare hsame],
      finish_completed _ _ _ _ _ ?_, ?_, ?_, fun m hne => ?_,
      finish_only_after (only_trans laneLogged_only laneBack_only) (by decide) (by decide)⟩
    · simp [laneBack, laneLogged, spareReleased]
    · simpa [groupAt] using hfree
    · simpa [groupAt] using hgood
    · have hother := laneBack_port (g := fieldAt r.raw 0x1C 4)
        (s := laneLogged n (fieldAt r.raw 0x1C 4) (fieldAt r.raw 0x20 4) s) hne
      rw [laneLogged_portAt hne] at hother
      simpa [portAt] using hother
  case refine_8 =>
    intro sq k r s hready hclass hserves hspare hidle
    refine ⟨_, by rw [exec_spareCommit_pair hready hclass, hspare, commitPair_exchanges hserves hidle],
      finish_completed _ _ _ _ _ (by simp [pairExchanged]), ?_, finish_only_after (pairExchanged_only k) (by decide) (by decide)⟩
    simpa using pairExchanged_idle (p := fieldAt r.raw 0x1C 4) (s := s) k
  case refine_9 =>
    intro sq k r s hready hclass hpage hspare hnext
    obtain ⟨hlog, -, hretired⟩ := retireTo_sets (fieldAt r.raw 0x1C 4) k s
    refine ⟨_, by rw [exec_spareCommit_page hready hclass, hspare, commitPage_retires hpage hnext],
      finish_completed _ _ _ _ _ (by simp [retireTo]), ?_, ?_, ?_, finish_only_after (retireTo_only _ _ s) (by decide) (by decide)⟩
    · simpa using hlog
    · simp
    · simpa using hretired
  case refine_10 =>
    intro sq r s hready hclass hspare hused
    obtain ⟨hcount, -⟩ := switchRow_sets (m := fieldAt r.raw 0x1C 4 / 65536) (row := fieldAt r.raw 0x1C 4 % 65536)
      (mget 0 s.mem.sramUsed (fieldAt r.raw 0x1C 4 / 65536)) s
    refine ⟨_, by rw [exec_spareCommit_row hready hclass, hspare, commitRow_exchanges hused],
      finish_completed _ _ _ _ _ (by simp [switchRow]), ?_, ?_, finish_only_after (switchRow_only _ _) (by decide) (by decide)⟩
    · simpa using hcount
    · simp
  case refine_11 =>
    intro sq r s hready hclass
    exact finished (exec_spareCommit_other hready hclass)

end Sys2Proof.Proofs
end

section
/-!
The rules of Gingham's state (R345 to R364): what a port reads as after each operation, which operations leave every port as it
was, and which only add to the events that wait for the host.
-/
namespace Sys2Proof.Proofs
open Sys2Proof.Machine Sys2Proof.Laws

/-! ## Ports -/

section
variable {p q : Nat} {v : GngPort} {s t u : State}

@[simp] theorem gngPort_setGng_same (p : Nat) (v : GngPort) (s : State) : gngPort (setGng p v s) p = v := mget_mput_same ..

theorem gngPort_setGng_other (h : q ≠ p) (v : GngPort) (s : State) : gngPort (setGng p v s) q = gngPort s q :=
  mget_mput_other _ _ _ h

/-- Between two states every Gingham port is the same. -/
def PortsKept (s t : State) : Prop := ∀ q, gngPort t q = gngPort s q

/-- Between two states one Gingham port has been set, and every other port is the same. -/
structure GngSet (p : Nat) (v : GngPort) (s t : State) : Prop where
  same : gngPort t p = v
  other : ∀ q, q ≠ p → gngPort t q = gngPort s q

theorem PortsKept.refl (s : State) : PortsKept s s := fun _ => rfl

theorem PortsKept.trans (hst : PortsKept s t) (htu : PortsKept t u) : PortsKept s u := fun q => (htu q).trans (hst q)

theorem PortsKept.of_gng (h : t.gng = s.gng) : PortsKept s t := fun q => by rw [gngPort, h, gngPort]

theorem PortsKept.of_ports (h : t.gng.ports = s.gng.ports) : PortsKept s t := fun q => by rw [gngPort, h, gngPort]

theorem PortsKept.forAll {α : Type} {f : α → State → State} (h : ∀ a s, PortsKept s (f a s)) (l : List α) (s : State) :
    PortsKept s (forAll l f s) := forAll_preserves (P := PortsKept s) (fun a u hu => hu.trans (h a u)) l (.refl s)

theorem PortsKept.upPorts (h : PortsKept s t) : upPorts t = upPorts s := by
  simp only [Machine.upPorts, h _]

theorem GngSet.of_setGng (p : Nat) (v : GngPort) (s : State) : GngSet p v s (setGng p v s) :=
  ⟨gngPort_setGng_same p v s, fun _ hq => gngPort_setGng_other hq v s⟩

theorem GngSet.kept (hst : GngSet p v s t) (htu : PortsKept t u) : GngSet p v s u :=
  ⟨(htu p).trans hst.same, fun q hq => (htu q).trans (hst.other q hq)⟩

theorem GngSet.trans {w : GngPort} (hst : GngSet p v s t) (htu : GngSet p w t u) : GngSet p w s u :=
  ⟨htu.same, fun q hq => (htu.other q hq).trans (hst.other q hq)⟩

end

/-! ## What leaves every port as it was -/

section
variable (p : Nat) (m : HelloMsg) (s : State)

theorem seen_gng : (seen p s).gng = s.gng := by
  unfold seen
  split <;> simp

theorem seen_kept : PortsKept s (seen p s) := .of_gng (seen_gng p s)

theorem gngSend_kept (ports : List Nat) (type flood : Nat) (payload : Bytes) : PortsKept s (gngSend ports type flood payload s) :=
  fun _ => rfl

theorem sendHello_kept (ports : List Nat) : PortsKept s (sendHello ports s) := .forAll (fun p t => gngSend_kept t [p] 1 0 _) _ _

theorem hearTile_ports (tile : Nat) : (hearTile tile p s).gng.ports = s.gng.ports := by
  unfold hearTile
  split <;> rfl

theorem reroute_ports : (reroute s).gng.ports = s.gng.ports := by
  unfold reroute
  (repeat' split) <;> rfl

theorem electFrom_ports : (electFrom p m s).gng.ports = s.gng.ports := by
  unfold electFrom
  split <;> rfl

theorem heardTk_ports (before : Option Nat) : (heardTk p before m s).gng.ports = s.gng.ports := by
  unfold heardTk
  (repeat' split) <;> simp only [electFrom_ports]

theorem wayLost_ports : (wayLost p s).gng.ports = s.gng.ports := by
  unfold wayLost
  split
  · refine forAll_keeps (fun s => s.gng.ports) _ _ (ownTk .joining s) fun q u => ?_
    split
    · exact heardTk_ports ..
    · rfl
  · (repeat' split) <;> rfl

theorem upPortLost_kept : PortsKept s (upPortLost p s) := by
  refine .of_ports ?_
  simp only [upPortLost, pruneRun_frame, reroute_ports, wayLost_ports]
  simp

theorem wakeNeighbour_kept (runs : Bool) : PortsKept s (wakeNeighbour p runs m s) := by
  unfold wakeNeighbour
  split
  · exact gngSend_kept s [p] 0x0D 0 []
  · exact .refl s

end

/-! ## Events that wait for the host -/

/-- Between two states the events that wait on PF0's ring, while it cannot be written, have only been added to. -/
structure EventsGrow (s t : State) : Prop where
  fall : t.pwr.fall = s.pwr.fall
  flow : eventsFlow t .pf0 = eventsFlow s .pf0
  pend : eventsFlow s .pf0 = false → (eqOf s.rings .pf0).pend <+: (eqOf t.rings .pf0).pend

section
variable {s t u : State}

theorem EventsGrow.refl (s : State) : EventsGrow s s := ⟨rfl, rfl, fun _ => List.prefix_rfl⟩

theorem EventsGrow.trans (hst : EventsGrow s t) (htu : EventsGrow t u) : EventsGrow s u :=
  ⟨htu.fall.trans hst.fall, htu.flow.trans hst.flow, fun h => (hst.pend h).trans (htu.pend (hst.flow.trans h))⟩

/-- What leaves the ring and what decides whether it can be written adds no event. -/
theorem EventsGrow.of_ring (hfall : t.pwr.fall = s.pwr.fall) (hflow : eventsFlow t .pf0 = eventsFlow s .pf0)
    (hring : eqOf t.rings .pf0 = eqOf s.rings .pf0) : EventsGrow s t := ⟨hfall, hflow, fun _ => by rw [hring]⟩

theorem EventsGrow.of_cal {x : Cal} (h : EventsGrow { s with cal := x } t) : EventsGrow s t := ⟨h.fall, h.flow, h.pend⟩

theorem EventsGrow.of_gng {x : Gng} (h : EventsGrow { s with gng := x } t) : EventsGrow s t := ⟨h.fall, h.flow, h.pend⟩

theorem EventsGrow.forAll {α : Type} {f : α → State → State} (h : ∀ a s, EventsGrow s (f a s)) (l : List α) (s : State) :
    EventsGrow s (forAll l f s) := forAll_preserves (P := EventsGrow s) (fun a u hu => hu.trans (h a u)) l (.refl s)

theorem eventWake_rings (fn : Fn) (x : Sent) : (eventWake fn x).rings = x.rings := by
  unfold eventWake
  (repeat' split) <;> rfl

theorem post_grows (c v : Nat) (l : List Nat) (s : State) : EventsGrow s (post c v l s) := by
  refine ⟨by simp, eventsFlow_post c v l s, fun hflow => ?_⟩
  by_cases hfall : s.pwr.fall = .idle
  case neg => rw [post, postTo_fall hfall]
  case pos =>
    have hring : eqOf (post c v l s).rings .pf0 = holdEvent (event s c v l) (eqOf s.rings .pf0) := by
      simp only [post, postTo, hfall, hflow, ne_eq, not_true_eq_false, if_false, Bool.false_eq_true, withSent, eventWake_rings]
      exact eqOf_setEq ..
    rw [hring, holdEvent]
    split
    · exact List.prefix_append ..
    · exact List.prefix_rfl

/-- An event that was posted waits on the ring. -/
theorem post_waits {c v : Nat} {l : List Nat} (hfall : s.pwr.fall = .idle) (hflow : eventsFlow s .pf0 = false)
    (hroom : (eqOf s.rings .pf0).pend.length < 256) : event s c v l ∈ (eqOf (post c v l s).rings .pf0).pend := by
  rw [posts_post c v l rfl rfl rfl rfl hfall hflow (by simpa using hroom)]
  simp

theorem EventsGrow.mem {e : Ev} (h : EventsGrow s t) (hflow : eventsFlow s .pf0 = false) (he : e ∈ (eqOf s.rings .pf0).pend) :
    e ∈ (eqOf t.rings .pf0).pend := (h.pend hflow).subset he

theorem finish_grows (fn : Fn) (n : Nat) (r : Running) (st : Nat) (res : List Nat) (s : State) :
    EventsGrow s (finish fn n r st res s) := by
  have hring : eqOf (finish fn n r st res s).rings .pf0 = eqOf s.rings .pf0 := by simp [eqOf]
  refine .of_ring (by simp) ?_ hring
  simp [eventsFlow, hring, canSend, served, linkUp, busMaster]

theorem trace1_grows (src : Nat) (s : State) : EventsGrow s (trace1 src s) := by
  have hring : eqOf (trace1 src s).rings .pf0 = eqOf s.rings .pf0 := by simp [eqOf]
  refine .of_ring (by simp) ?_ hring
  simp [eventsFlow, hring, canSend, served, linkUp, busMaster]

theorem seen_grows (p : Nat) (s : State) : EventsGrow s (seen p s) := by
  unfold seen
  split
  · exact .refl s
  · exact trace1_grows 7 s

theorem finishAll_grows (l : List Nat) (op st : Nat) (res : List Nat) (s : State) : EventsGrow s (finishAll .pf0 l op st res s) := by
  refine .forAll (fun n u => ?_) l s
  split
  · exact finish_grows ..
  · exact .refl u

theorem endRun_grows (j : CalJob) (s : State) : EventsGrow s (endRun j s) := by
  have hposts : ∀ u : State, EventsGrow u (Machine.forAll (linksOf j.target) (fun l s =>
      post 0x0F01 0 [l, mget 0 j.accepted l, mget 0 j.rejected l] s) u) := fun u => .forAll (fun l u => post_grows ..) _ u
  unfold endRun
  dsimp only
  split
  · exact .of_cal ((hposts _).trans (finishAll_grows ..))
  · exact .of_cal (hposts _)

theorem startRuns_grows (n : Nat) (s : State) : EventsGrow s (startRuns n s) := by
  induction n generalizing s with
  | zero => exact .refl s
  | succ n ih =>
    unfold startRuns
    dsimp only
    split
    · refine EventsGrow.trans ?_ (ih _)
      split
      · exact .of_cal (endRun_grows _ _)
      · exact .of_ring rfl rfl rfl
    · exact .refl s

theorem pruneRun_grows (s : State) : EventsGrow s (pruneRun s) := by
  unfold pruneRun keepLanes settleRuns
  dsimp only
  split
  · exact .of_ring rfl rfl rfl
  · exact .of_cal (EventsGrow.trans (.forAll endRun_grows _ _) (startRuns_grows ..))

theorem autoRun_grows (link : Nat) (s : State) : EventsGrow s (autoRun link s) := by
  unfold autoRun
  split
  · exact .of_cal (startRuns_grows ..)
  · exact .refl s

theorem checkHalo_grows (p sig : Nat) (s : State) : EventsGrow s (checkHalo p sig s) := by
  unfold checkHalo
  dsimp only
  split
  · exact .of_gng (post_grows ..)
  · exact .of_ring rfl rfl rfl

end

end Sys2Proof.Proofs
end

section
/-!
Gingham ports come up, greet, go down and start again (R345, R348, R362, Table 16.2).
-/
namespace Sys2Proof.Proofs
open Sys2Proof.Machine Sys2Proof.Laws

/-! ## Frames of this tile's own -/

section
variable {p : Nat} {l : List Nat} {s : State}

theorem gngSend_sends (hp : p ∈ l) (type flood : Nat) (payload : Bytes) (s : State) :
    .gngFrame p (gngWire (gngBytes s type flood payload)) ∈ (gngSend l type flood payload s).out := by
  refine List.mem_append_left _ (List.mem_reverse.mpr (List.mem_map.mpr ⟨p, hp, rfl⟩))

theorem gngSend_out (l : List Nat) (type flood : Nat) (payload : Bytes) (s : State) :
    s.out <:+ (gngSend l type flood payload s).out := List.suffix_append ..

theorem seen_out (p : Nat) (s : State) : s.out <:+ (seen p s).out := by
  unfold seen
  split
  · exact List.suffix_rfl
  · exact trace1_out List.suffix_rfl

/-- The frame that carries a tile's HELLO. -/
def helloBytes (s : State) : Bytes := gngBytes s 0x01 0 (helloPayload s)

theorem helloBytes_type (s : State) : fieldAt (helloBytes s) 0 1 = 0x01 := by
  simp [helloBytes, gngBytes, fieldAt, toLE, leNat]

theorem helloBytes_payload (s : State) : ((helloBytes s).drop 8).take 25 = helloPayload s := by
  have hlength : (helloPayload s).length = 25 := by simp [helloPayload]
  have hheader : ∀ a b : Bytes, a.length = 8 → ((a ++ helloPayload s ++ b).drop 8).take 25 = helloPayload s := by
    intro a b ha
    rw [List.append_assoc, List.drop_left' ha, List.take_left' hlength]
  exact hheader _ _ (by simp)

theorem helloPayload_gngSend (l : List Nat) (type flood : Nat) (payload : Bytes) (s : State) :
    helloPayload (gngSend l type flood payload s) = helloPayload s := rfl

theorem sendHello_out (l : List Nat) (s : State) : s.out <:+ (sendHello l s).out :=
  forAll_preserves (P := fun u => s.out <:+ u.out) (fun p u hu => hu.trans (gngSend_out [p] 1 0 _ u)) l List.suffix_rfl

/-- Every port that is asked for greets with this tile's HELLO. -/
theorem sendHello_sends (hp : p ∈ l) (s : State) :
    ∃ b, .gngFrame p (gngWire b) ∈ (sendHello l s).out ∧ fieldAt b 0 1 = 0x01 ∧ (b.drop 8).take 25 = helloPayload s := by
  induction l generalizing s with
  | nil => cases hp
  | cons k l ih =>
    have hrest : sendHello (k :: l) s = sendHello l (gngSend [k] 1 0 (helloPayload s) s) := rfl
    rw [hrest]
    rcases List.mem_cons.mp hp with rfl | hp
    · exact ⟨helloBytes s, (sendHello_out l _).subset (gngSend_sends (List.mem_singleton_self p) 1 0 _ s), helloBytes_type s,
        helloBytes_payload s⟩
    · obtain ⟨b, hsent, htype, hpayload⟩ := ih hp (gngSend [k] 1 0 (helloPayload s) s)
      exact ⟨b, hsent, htype, hpayload⟩

end

/-! ## A port that comes up -/

section
variable (p src sig : Nat) (m : HelloMsg) (s : State)

theorem askMeas_sets : GngSet p { gngPort s p with nonce := some (freshNonce s) } s (askMeas p s) :=
  (GngSet.of_setGng p _ s).kept fun _ => rfl

theorem checkHalo_sets : ∃ off, GngSet p { gngPort s p with haloOff := off } s (checkHalo p sig s) := by
  refine ⟨((p = 1 && fbit s.conf GNG_CTRL_HALO_E) || (p = 3 && fbit s.conf GNG_CTRL_HALO_W)) && sig ≠ gridSignature s.conf,
    (GngSet.of_setGng p _ s).kept ?_⟩
  unfold checkHalo
  dsimp only
  split
  · exact .of_gng (by simp)
  · exact .refl _

theorem portUp_sets : ∃ n, GngSet p { gngPort s p with state := .up, nonce := some n } s (portUp p src s) := by
  have hup := (GngSet.of_setGng p { gngPort s p with state := .up } s).kept
    (u := post 0x1004 0 [p, 0, src] (setGng p { gngPort s p with state := .up } s)) (.of_gng (by simp))
  have hasked := hup.trans (askMeas_sets p (post 0x1004 0 [p, 0, src] (setGng p { gngPort s p with state := .up } s)))
  rw [hup.same] at hasked
  refine ⟨_, hasked.kept (.of_ports ?_)⟩
  simp [portUp, hearTile_ports]

theorem portUp_grows : EventsGrow (post 0x1004 0 [p, 0, src] (setGng p { gngPort s p with state := .up } s)) (portUp p src s) := by
  refine EventsGrow.trans (.of_ring ?_ ?_ ?_) (autoRun_grows 2 _)
  · simp
  · simp [eventsFlow, canSend, served, linkUp, busMaster]
  · simp

/-- The neighbour's HELLO is known. -/
def greeted (s : State) : State := setGng p { gngPort s p with hello := some (src, m) } s

/-- What a HELLO that has been taken says of the timekeeper, and of a neighbour to wake. -/
def heardHello (before : Option Nat) (runs : Bool) (s : State) : State := wakeNeighbour p runs m (reroute (heardTk p before m s))

theorem heardHello_kept (before : Option Nat) (runs : Bool) : PortsKept s (heardHello p m before runs s) :=
  (PortsKept.of_ports (t := reroute (heardTk p before m s)) (by rw [reroute_ports, heardTk_ports])).trans (wakeNeighbour_kept p m _ runs)

theorem heardHello_grows (before : Option Nat) (runs : Bool) : EventsGrow s (heardHello p m before runs s) := by
  refine .of_ring ?_ ?_ ?_
  · simp [heardHello]
  · simp [heardHello, eventsFlow, canSend, served, linkUp, busMaster]
  · simp [heardHello]

end

section
variable {p src : Nat} {m : HelloMsg} {s : State}

theorem exec_hello_comesUp (hgreeting : (gngPort s p).state = .greeting) (hfaced : faced s.conf p = ((m.x : Int), (m.y : Int))) :
    exec (.hello p src m) s = .next (seen p (heardHello p m none (tileRuns s)
      (checkHalo p m.signature (portUp p src (greeted p src m s))))) := by
  simp only [exec, execHello]
  rw [if_pos hgreeting, if_pos hfaced]
  rfl

theorem exec_hello_stranger (hgreeting : (gngPort s p).state = .greeting) (hfaced : faced s.conf p ≠ ((m.x : Int), (m.y : Int))) :
    exec (.hello p src m) s = .next (seen p (post 0x1004 0 [p, 1, src]
      (setGng p { gngPort s p with state := .backoff, hello := none } s))) := by
  simp only [exec, execHello]
  rw [if_pos hgreeting, if_neg hfaced]

/-- A HELLO on a port that is up: its neighbour is known anew, and a lost timekeeper is left before another is elected. -/
def helloAgain (p src : Nat) (m : HelloMsg) (s : State) : State :=
  let s1 := checkHalo p m.signature (hearTile src p (greeted p src m s))
  if (gngPort s p).hello.map (fun h => h.2.timekeeper) ≠ some m.timekeeper && !(nearFe s m) then s1 else reroute s1

theorem exec_hello_again (hup : (gngPort s p).state = .up) :
    exec (.hello p src m) s = .next (seen p (heardHello p m ((gngPort s p).hello.map (fun h => h.2.timekeeper)) (tileRuns s)
      (helloAgain p src m s))) := by
  simp only [exec, execHello]
  rw [if_neg (by simp [hup]), if_pos hup]
  rfl

theorem helloAgain_sets : ∃ off, GngSet p { gngPort s p with hello := some (src, m), haloOff := off } s (helloAgain p src m s) := by
  have hknown := (GngSet.of_setGng p { gngPort s p with hello := some (src, m) } s).kept
    (u := hearTile src p (greeted p src m s)) (.of_ports (hearTile_ports ..))
  obtain ⟨off, hhalo⟩ := checkHalo_sets p m.signature (hearTile src p (greeted p src m s))
  rw [hknown.same] at hhalo
  refine ⟨off, (hknown.trans hhalo).kept ?_⟩
  unfold helloAgain
  dsimp only
  split
  · exact .refl _
  · exact .of_ports (reroute_ports _)

theorem helloAgain_only : Only [.gng, .cal, .rings, .hif, .trc, .out, .free] s (helloAgain p src m s) := by
  have hhalo : Only [.gng, .cal, .rings, .hif, .trc, .out, .free] s (checkHalo p m.signature (hearTile src p (greeted p src m s))) := by
    refine only_of_unlisted fun q hq => ?_
    cases q <;> cases hq <;> simp [Part.same, greeted, setGng]
  unfold helloAgain
  dsimp only
  split
  · exact hhalo
  · refine only_trans hhalo (only_of_unlisted fun q hq => ?_)
    cases q <;> cases hq <;> simp [Part.same]

theorem exec_hello_unheard (hgreeting : (gngPort s p).state ≠ .greeting) (hup : (gngPort s p).state ≠ .up) :
    exec (.hello p src m) s = .next (seen p s) := by
  simp only [exec, execHello, hgreeting, hup, if_false]

end

/-! ## A port that goes down -/

section
variable {p : Nat} {s : State}

/-- A port that waits 10 ms to start again. -/
def waiting (p : Nat) (s : State) : State :=
  setGng p { gngPort s p with state := .backoff, hello := none, haloOff := false, nonce := none } s

theorem portDown_starting (hup : (gngPort s p).state ≠ .up) (hon : (gngPort s p).state ≠ .disabled)
    (hidle : (gngPort s p).state ≠ .backoff) : portDown p s = trace1 7 (waiting p s) := by
  simp [portDown, hup, hon, hidle, waiting]

theorem portDown_up (hup : (gngPort s p).state = .up) : portDown p s = trace1 7 (upPortLost p (waiting p s)) := by
  simp [portDown, hup, waiting]

theorem exec_portDown_up (hup : (gngPort s p).state = .up) :
    exec (.ginghamPortDown p) s = .next (trace1 7 (upPortLost p (waiting p s))) := by
  simp only [exec, execGinghamPortDown, portDown_up hup]

theorem waiting_sets (p : Nat) (s : State) :
    GngSet p { gngPort s p with state := .backoff, hello := none, haloOff := false, nonce := none } s (waiting p s) := .of_setGng p _ s

theorem post_kept (c v : Nat) (l : List Nat) (s : State) : PortsKept s (post c v l s) := .of_gng (by simp)

theorem trace1_kept (src : Nat) (s : State) : PortsKept s (trace1 src s) := .of_gng (by simp)

/-- A lost port has been told, and the tiles heard on it are forgotten. -/
def portForgotten (p : Nat) (s : State) : State :=
  post 0x1003 2 [p] { s with gng := { s.gng with
    heard := s.gng.heard.filter (fun t => t.2 ≠ p), heardBefore := s.gng.heardBefore.filter (fun t => t.2 ≠ p) } }

theorem upPortLost_eq (p : Nat) (s : State) : upPortLost p s = pruneRun (reroute (wayLost p (portForgotten p s))) := rfl

theorem portForgotten_gng (p : Nat) (s : State) : (portForgotten p s).gng = { s.gng with
    heard := s.gng.heard.filter (fun t => t.2 ≠ p), heardBefore := s.gng.heardBefore.filter (fun t => t.2 ≠ p) } := by
  simp [portForgotten]

theorem upPortLost_grows (p : Nat) (s : State) : EventsGrow (portForgotten p s) (upPortLost p s) := by
  refine EventsGrow.trans (.of_ring ?_ ?_ ?_) (pruneRun_grows (reroute (wayLost p (portForgotten p s))))
  · simp
  · simp [eventsFlow, canSend, served, linkUp, busMaster]
  · simp

theorem upPorts_waiting : upPorts (waiting p s) = (upPorts s).filter (· ≠ p) := by
  have hstate : ∀ q, decide ((gngPort (waiting p s) q).state = .up) = (decide (q ≠ p) && decide ((gngPort s q).state = .up)) := by
    intro q
    by_cases hq : q = p
    · rw [hq, (waiting_sets p s).same]
      simp
    · simp [(waiting_sets p s).other q hq, hq]
  simp only [upPorts, hstate, List.filter_filter]

/-- A tile that reaches its timekeeper over the port that went down only becomes an island (R351, R362). -/
theorem reroute_island (hfollows : follows s = true) (hadopt : s.gng.adopt = none) (hway : wayTo s s.gng.tk = none) :
    reroute s = loseTk s := by
  simp [reroute, hfollows, hadopt, hway]

theorem reroute_settled (h : follows s = false) : reroute s = s := by
  simp [reroute, h]

theorem wayLost_settled (hrole : s.gng.role ≠ .joining) (hadopt : s.gng.adopt = none) : wayLost p s = s := by
  simp [wayLost, hrole, hadopt]

theorem heardTk_joining (q : Nat) (before : Option Nat) (m : HelloMsg) (h : s.gng.role = .joining) :
    (heardTk q before m s).gng.role = .joining := by
  rw [heardTk, if_pos h, electFrom]
  (repeat' split) <;> exact h

theorem wayLost_joining (h : s.gng.role = .joining) : (wayLost p s).gng.role = .joining := by
  rw [wayLost, if_pos h]
  refine forAll_preserves (P := fun u => u.gng.role = .joining) (fun q u hu => ?_) _ rfl
  split
  · exact heardTk_joining _ _ _ hu
  · exact hu

theorem wayLost_alone (h : s.gng.role = .joining) (hports : upPorts s = []) : (wayLost p s).gng.tk = tileIndex s.conf := by
  rw [wayLost, if_pos h, hports]
  rfl

theorem wayTo_none {tk : Nat} (h : ∀ q ∈ upPorts s, ∀ m, (gngPort s q).hello = some m → m.2.timekeeper ≠ tk ∨ 63 ≤ m.2.hops) :
    wayTo s tk = none := by
  have hnone : (upPorts s).filterMap (fun p => (gngPort s p).hello.bind (fun h =>
      if h.2.timekeeper = tk && h.2.hops < 63 then some (p, h.2) else none)) = [] := by
    refine List.filterMap_eq_nil_iff.mpr fun q hq => ?_
    cases hhello : (gngPort s q).hello with
    | none => rfl
    | some m =>
      rw [Option.bind_some, if_neg]
      have := h q hq m hhello
      simp only [Bool.and_eq_true, decide_eq_true_eq]
      omega
  rw [wayTo, hnone]
  rfl

end

/-! ## Bring-up (R348) -/

section
variable {p us rt turn : Nat} {s : State}

theorem exec_bringup_lock (h : (gngPort s p).state = .lock) : exec (.ginghamPortBringup p .symbolLock) s =
    .next (trace1 7 (setGng p { gngPort s p with state := .deskew } s)) := by
  simp only [exec, execGinghamPortBringup, h]

theorem exec_bringup_deskew (h : (gngPort s p).state = .deskew) : exec (.ginghamPortBringup p .deskew) s =
    .next (trace1 7 (gngSend [p] 0x02 0 [] (setGng p { gngPort s p with state := .probe } s))) := by
  simp only [exec, execGinghamPortBringup, h]

theorem exec_bringup_lock_idle (h : (gngPort s p).state ≠ .lock) : exec (.ginghamPortBringup p .symbolLock) s = .next s := by
  simp only [exec, execGinghamPortBringup]
  split
  case h_1 hlock => exact absurd hlock h
  case h_2 hstep _ => cases hstep
  case h_3 => rfl

theorem exec_bringup_deskew_idle (h : (gngPort s p).state ≠ .deskew) : exec (.ginghamPortBringup p .deskew) s = .next s := by
  simp only [exec, execGinghamPortBringup]
  split
  case h_1 hstep _ => cases hstep
  case h_2 hdeskew => exact absurd hdeskew h
  case h_3 => rfl

theorem exec_latProbe (h : (gngPort s p).state = .probe ∨ (gngPort s p).state = .greeting ∨ (gngPort s p).state = .up) :
    exec (.latProbe p us) s = .next (seen p (gngSend [p] 0x03 0 (toLE 4 us) s)) := by
  simp only [exec, execLatProbe]
  rw [if_pos]
  simpa using h

/-- A port whose latency the probe has measured. -/
def probed (p rt turn : Nat) (s : State) : State :=
  setGng p { gngPort s p with state := .greeting, latency := (rt - turn) / 2 % 65536 } s

theorem exec_latEcho (h : (gngPort s p).state = .probe) :
    exec (.latEcho p rt turn) s = .next (seen p (sendHello [p] (probed p rt turn s))) := by
  simp only [exec, execLatEcho]
  rw [if_pos h]
  rfl

theorem exec_latEcho_late (h : (gngPort s p).state ≠ .probe) : exec (.latEcho p rt turn) s = .next (seen p s) := by
  simp only [exec, execLatEcho, if_neg h]

theorem exec_retryTimer (h : (gngPort s p).state = .backoff) :
    exec (.ginghamRetryTimer p) s = .next (setGng p { gngPort s p with state := .lock } s) := by
  simp only [exec, execGinghamRetryTimer, if_pos h]

theorem exec_retryTimer_idle (h : (gngPort s p).state ≠ .backoff) : exec (.ginghamRetryTimer p) s = .next s := by
  simp only [exec, execGinghamRetryTimer, if_neg h]

end

theorem greets_only (p src : Nat) (m : HelloMsg) (s : State) : Only [.gng, .cal, .rings, .hif, .trc, .out, .free] s
    (checkHalo p m.signature (portUp p src (greeted p src m s))) := by
  refine only_of_unlisted fun q hq => ?_
  cases q <;> cases hq <;> simp [Part.same, greeted, setGng]

theorem heardHello_only (p : Nat) (m : HelloMsg) (before : Option Nat) (runs : Bool) (s : State) :
    Only [.gng, .cal, .rings, .hif, .trc, .out, .free] s (heardHello p m before runs s) := by
  refine only_of_unlisted fun q hq => ?_
  cases q <;> cases hq <;> simp [Part.same, heardHello]

theorem seen_ring (p : Nat) (s : State) : eqOf (seen p s).rings .pf0 = eqOf s.rings .pf0 := by
  unfold seen
  split
  · rfl
  · simp [eqOf]

theorem sendHello_only (l : List Nat) (s : State) : Only [.gng, .out] s (sendHello l s) := by
  refine only_of_unlisted fun q hq => ?_
  cases q <;> cases hq <;> simp [Part.same]

theorem seen_onlyWall (p : Nat) (s : State) : Only [.gng, .rings, .hif, .trc, .out, .free] s (seen p s) := by
  refine only_of_unlisted fun q hq => ?_
  cases q <;> cases hq <;> simp [Part.same]

theorem trace1_onlyWall (src : Nat) (s : State) : Only [.gng, .rings, .hif, .trc, .out, .free] s (trace1 src s) := by
  refine only_of_unlisted fun q hq => ?_
  cases q <;> cases hq <;> simp [Part.same]

theorem gng_only (x : Gng) (s : State) : Only [.gng] s { s with gng := x } := by
  refine only_of_unlisted fun q hq => ?_
  cases q <;> cases hq <;> rfl

theorem setGng_only (p : Nat) (v : GngPort) (s : State) : Only [.gng] s (setGng p v s) := gng_only _ s

theorem gngSend_only (l : List Nat) (type flood : Nat) (payload : Bytes) (s : State) :
    Only [.gng, .out] s (gngSend l type flood payload s) := by
  refine only_of_unlisted fun q hq => ?_
  cases q <;> cases hq <;> rfl

theorem upPortLost_only (p : Nat) (s : State) : Only [.gng, .cal, .rings, .hif, .trc, .out, .free] s (upPortLost p s) := by
  refine only_of_unlisted fun q hq => ?_
  cases q <;> cases hq <;> simp [Part.same]

/-- The tile as an up port goes down: what is left decides whether it still follows (R351, R362). -/
theorem upPortLost_gng {p : Nat} {s t : State} (ht : t = portForgotten p (waiting p s)) :
    (follows s = true → s.gng.adopt = none → (∀ q ∈ upPorts s, q ≠ p → ∀ h, (gngPort s q).hello = some h →
        h.2.timekeeper ≠ s.gng.tk ∨ 63 ≤ h.2.hops) → reroute (wayLost p t) = loseTk t) ∧
      (follows s = false → s.gng.role ≠ .joining → s.gng.adopt = none → reroute (wayLost p t) = t) ∧
      (s.gng.role = .joining → (reroute (wayLost p t)).gng.role = .joining ∧
        ((∀ q ∈ upPorts s, q = p) → (reroute (wayLost p t)).gng.tk = tileIndex s.conf)) := by
  have hgng : t.gng = { (waiting p s).gng with
      heard := s.gng.heard.filter (fun x => x.2 ≠ p), heardBefore := s.gng.heardBefore.filter (fun x => x.2 ≠ p) } := by
    rw [ht, portForgotten_gng]
    rfl
  have hconf : t.conf = s.conf := by rw [ht]; simp [portForgotten, waiting, setGng]
  have hrole : t.gng.role = s.gng.role := by rw [hgng]; rfl
  have hadopts : t.gng.adopt = s.gng.adopt := by rw [hgng]; rfl
  have htk : t.gng.tk = s.gng.tk := by rw [hgng]; rfl
  have hports : PortsKept (waiting p s) t := .of_ports (by rw [hgng])
  have hup : upPorts t = (upPorts s).filter (· ≠ p) := by rw [hports.upPorts, upPorts_waiting]
  have hfollow : follows t = follows s := by simp only [follows, hrole, htk, hconf]
  refine ⟨fun hfollows hadopt hways => ?_, fun hfollows hjoining hadopt => ?_, fun hjoining => ⟨?_, fun halone => ?_⟩⟩
  · have hjoining : t.gng.role ≠ .joining := by
      rw [hrole]
      intro h
      simp [follows, h] at hfollows
    rw [wayLost_settled hjoining (hadopts.trans hadopt)]
    refine reroute_island (hfollow.trans hfollows) (hadopts.trans hadopt) (wayTo_none fun q hq m hm => ?_)
    rw [hup, List.mem_filter] at hq
    obtain ⟨hq, hne⟩ := hq
    rw [hports q, (waiting_sets p s).other q (by simpa using hne)] at hm
    rw [htk]
    exact hways q hq (by simpa using hne) m hm
  · rw [wayLost_settled (by rwa [hrole]) (hadopts.trans hadopt), reroute_settled (hfollow.trans hfollows)]
  · have hlost := wayLost_joining (p := p) (hrole.trans hjoining)
    rw [reroute_settled (by simp [follows, hlost])]
    exact hlost
  · have hlost := wayLost_joining (p := p) (hrole.trans hjoining)
    rw [reroute_settled (by simp [follows, hlost]), wayLost_alone (hrole.trans hjoining), hconf]
    rw [hup, List.filter_eq_nil_iff]
    simpa using halone

/-- Settles O58: each step of bring-up sets its own port, and a tile that loses its last way becomes an island. -/
theorem wallPortsComeUp : Obligations.WallPortsComeUp := by
  refine ⟨?lock, ?deskew, fun p s => ⟨exec_bringup_lock_idle, exec_bringup_deskew_idle⟩, ?probe, ?echo,
    fun p rt turn s => exec_latEcho_late, ?greet, ?stranger, ?again, fun p src m s => exec_hello_unheard, ?timer, ?timeout, ?down, ?retry,
    fun p s => exec_retryTimer_idle⟩
  case lock =>
    intro p s hlock
    have hset := (GngSet.of_setGng p { gngPort s p with state := .deskew } s).kept (trace1_kept 7 _)
    exact ⟨_, exec_bringup_lock hlock, hset.same, hset.other,
      only_trans (only_mono (by decide) (setGng_only p _ s)) (trace1_onlyWall 7 _)⟩
  case deskew =>
    intro p s hdeskew
    have hset := ((GngSet.of_setGng p { gngPort s p with state := .probe } s).kept (gngSend_kept _ [p] 0x02 0 [])).kept (trace1_kept 7 _)
    exact ⟨_, exec_bringup_deskew hdeskew, hset.same,
      (trace1_out List.suffix_rfl).subset (gngSend_sends (List.mem_singleton_self p) 0x02 0 [] _), hset.other,
      only_trans (only_mono (by decide) (only_trans (only_mono (by decide) (setGng_only p _ s)) (gngSend_only [p] 0x02 0 [] _)))
        (trace1_onlyWall 7 _)⟩
  case probe =>
    intro p us s hlive
    exact ⟨_, exec_latProbe hlive, (seen_out p _).subset (gngSend_sends (List.mem_singleton_self p) 0x03 0 _ s),
      (gngSend_kept s [p] 0x03 0 _).trans (seen_kept p _),
      only_trans (only_mono (by decide) (gngSend_only [p] 0x03 0 _ s)) (seen_onlyWall p _)⟩
  case echo =>
    intro p rt turn s hprobe
    have hset := ((GngSet.of_setGng p _ s).kept (sendHello_kept (probed p rt turn s) [p])).kept (seen_kept p _)
    exact ⟨_, exec_latEcho hprobe, hset.same, (seen_out p _).subset (gngSend_sends (List.mem_singleton_self p) 0x01 0 _ _), hset.other,
      only_trans (only_mono (by decide) (only_trans (only_mono (by decide) (setGng_only p _ s)) (sendHello_only [p] _)))
        (seen_onlyWall p _)⟩
  case greet =>
    intro p src m s hgreeting hfaced
    obtain ⟨n, hup⟩ := portUp_sets p src (greeted p src m s)
    obtain ⟨off, hhalo⟩ := checkHalo_sets p m.signature (portUp p src (greeted p src m s))
    have hknown : GngSet p { gngPort s p with hello := some (src, m) } s (greeted p src m s) := .of_setGng p _ s
    have hset := ((hknown.trans hup).trans hhalo).kept ((heardHello_kept p m _ none (tileRuns s)).trans (seen_kept p _))
    rw [hup.same, hknown.same] at hset
    refine ⟨_, exec_hello_comesUp hgreeting hfaced, by rw [hset.same], by rw [hset.same], by rw [hset.same]; rfl, hset.other,
      fun hfall hflow hroom => ?_, only_trans (only_trans (greets_only p src m s) ?_) (only_mono (by decide) (seen_onlyWall p _))⟩
    · refine EventsGrow.mem ((((portUp_grows p src _).trans (checkHalo_grows ..)).trans (heardHello_grows ..)).trans (seen_grows ..))
        ?_ ?_
      · rw [eventsFlow_post]
        exact hflow
      · exact post_waits (s := setGng p _ _) hfall hflow hroom
    · exact heardHello_only p m none (tileRuns s) _
  case stranger =>
    intro p src m s hgreeting hfaced
    have hset := ((GngSet.of_setGng p { gngPort s p with state := .backoff, hello := none } s).kept
      (post_kept 0x1004 0 [p, 1, src] _)).kept (seen_kept p _)
    have hposts : Posts s (post 0x1004 0 [p, 1, src] (setGng p { gngPort s p with state := .backoff, hello := none } s))
        [event s 0x1004 0 [p, 1, src]] := posts_post _ _ _ rfl rfl rfl rfl
    exact ⟨_, exec_hello_stranger hgreeting hfaced, hset.same, hset.other, posts_congr hposts (seen_ring p _),
      only_trans (only_mono (by decide) (only_trans (only_mono (by decide) (setGng_only p _ s))
        (only_mono (qs := [.gng, .rings, .hif, .out]) (by decide) (post_only _ _ _ _)))) (seen_onlyWall p _)⟩
  case again =>
    intro p src m s hup
    obtain ⟨off, hagain⟩ := helloAgain_sets (p := p) (src := src) (m := m) (s := s)
    have hset := hagain.kept ((heardHello_kept p m _ ((gngPort s p).hello.map (fun h => h.2.timekeeper)) (tileRuns s)).trans
      (seen_kept p _))
    refine ⟨_, exec_hello_again hup, by rw [hset.same]; exact hup, by rw [hset.same], hset.other, only_trans
      (only_trans helloAgain_only (heardHello_only p m _ (tileRuns s) _)) (only_mono (by decide) (seen_onlyWall p _))⟩
  case timer =>
    intro s
    refine ⟨_, rfl, fun p hp hlive => sendHello_sends ?_ s, sendHello_kept s _, sendHello_only _ s⟩
    simpa [hp] using hlive
  case timeout =>
    intro p s hup hon hidle
    have hset := (waiting_sets p s).kept (trace1_kept 7 _)
    refine ⟨_, ?_, by rw [hset.same], hset.other, only_trans (only_mono (by decide) (setGng_only p _ s)) (trace1_onlyWall 7 _)⟩
    simp only [exec, execGinghamBringupTimeout]
    rw [if_neg hup, portDown_starting hup hon hidle]
  case down =>
    intro p s hup
    have hset := ((waiting_sets p s).kept (upPortLost_kept p _)).kept (trace1_kept 7 _)
    obtain ⟨hisland, hstays, hjoins⟩ := upPortLost_gng (p := p) (s := s) rfl
    have hgng : (trace1 7 (upPortLost p (waiting p s))).gng = (reroute (wayLost p (portForgotten p (waiting p s)))).gng := by
      simp [upPortLost_eq]
    refine ⟨by simp only [exec, execGinghamBringupTimeout, if_pos hup], _, exec_portDown_up hup, by rw [hset.same],
      by rw [hset.same], hset.other, fun hfall hflow hroom => ?_, ?_, ?_, ?_, ?_⟩
    · refine EventsGrow.mem ((upPortLost_grows p (waiting p s)).trans (trace1_grows 7 _)) ?_ ?_
      · rw [portForgotten, eventsFlow_post]
        exact hflow
      · exact post_waits (s := { waiting p s with gng := _ }) hfall hflow hroom
    · intro hfollows hadopt hways
      rw [hgng, hisland hfollows hadopt hways]
      simp only [loseTk, ownTk, portForgotten_gng]
      exact ⟨trivial, by simp [portForgotten, waiting, setGng], trivial, rfl⟩
    · intro hfollows hjoining hadopt
      rw [hgng, hstays hfollows hjoining hadopt, portForgotten_gng]
      exact ⟨rfl, rfl⟩
    · rw [hgng]
      exact hjoins
    · exact only_trans (only_trans (only_mono (by decide) (setGng_only p _ s)) (upPortLost_only p _))
        (only_mono (by decide) (trace1_onlyWall 7 _))
  case retry =>
    intro p s hidle
    have hset := GngSet.of_setGng p { gngPort s p with state := .lock } s
    exact ⟨_, exec_retryTimer hidle, hset.same, hset.other, setGng_only p _ s⟩

end Sys2Proof.Proofs
end

section
/-!
The wall's timekeeper, its floods, digests and measurements (R349 to R355, R361, R374).
-/
namespace Sys2Proof.Proofs
open Sys2Proof.Machine Sys2Proof.Laws

/-! ## A flooded frame (R349) -/

/-- A frame of another tile that is new here has been noted and forwarded on every other up port, before it is acted on. -/
def forwarded (port type src seqNo : Nat) (payload : Bytes) (s : State) : State :=
  hearTile src port (emit (((upPorts s).filter (· ≠ port)).map
      (fun p => Output.gngFrame p (gngWire (floodBytes type src seqNo payload)))).reverse
    { s with gng := { s.gng with seqs := mput 0 (256 * type + src) (seqNo % 256 + 1) s.gng.seqs } })

section
variable {port type src seqNo : Nat} {payload : Bytes} {s : State} (act : State → State)

theorem flooded_new (hport : (upPorts s).contains port = true) (hsrc : src ≠ tileIndex s.conf)
    (hnew : mget 0 s.gng.seqs (256 * type + src) = 0 ∨ newerSeq seqNo (mget 0 s.gng.seqs (256 * type + src) - 1) = true) :
    flooded port type src seqNo payload act s = act (forwarded port type src seqNo payload s) := by
  simp only [flooded]
  rw [if_neg (by simpa using hport), if_neg]
  · rfl
  · rcases hnew with h | h <;> simp [hsrc, h]

theorem flooded_dropped (hport : (upPorts s).contains port = true) (hold : src = tileIndex s.conf ∨
      (mget 0 s.gng.seqs (256 * type + src) ≠ 0 ∧ newerSeq seqNo (mget 0 s.gng.seqs (256 * type + src) - 1) = false)) :
    flooded port type src seqNo payload act s = hearTile src port s := by
  simp only [flooded]
  rw [if_neg (by simpa using hport), if_pos]
  rcases hold with h | ⟨hheld, hseq⟩
  · simp [h]
  · simp [hheld, hseq]

theorem flooded_elsewhere (hport : (upPorts s).contains port = false) : flooded port type src seqNo payload act s = s := by
  simp only [flooded]
  rw [if_pos (by rw [hport]; rfl)]

end

section
variable (port type src seqNo : Nat) (payload : Bytes) (s : State)

theorem forwarded_sends {q : Nat} (hq : q ∈ upPorts s) (hne : q ≠ port) :
    .gngFrame q (gngWire (floodBytes type src seqNo payload)) ∈ (forwarded port type src seqNo payload s).out := by
  have hout : (forwarded port type src seqNo payload s).out = (((upPorts s).filter (· ≠ port)).map
      (fun p => Output.gngFrame p (gngWire (floodBytes type src seqNo payload)))).reverse ++ s.out := by simp [forwarded]
  rw [hout]
  refine List.mem_append_left _ (List.mem_reverse.mpr (List.mem_map.mpr ⟨q, ?_, rfl⟩))
  simpa [hq] using hne

/-- A frame that passes leaves Gingham but for what it has heard and the numbers it has seen. -/
theorem forwarded_gng : ∃ heard, (forwarded port type src seqNo payload s).gng = { s.gng with
    seqs := mput 0 (256 * type + src) (seqNo % 256 + 1) s.gng.seqs, heard } := by
  unfold forwarded hearTile
  split
  · exact ⟨_, rfl⟩
  · exact ⟨_, rfl⟩

theorem forwarded_kept : PortsKept s (forwarded port type src seqNo payload s) := by
  obtain ⟨heard, hgng⟩ := forwarded_gng port type src seqNo payload s
  exact .of_ports (by rw [hgng])

theorem forwarded_only : Only [.gng, .out] s (forwarded port type src seqNo payload s) := by
  refine only_of_unlisted fun q hq => ?_
  cases q <;> cases hq <;> simp [Part.same, forwarded]

end

/-! ## A digest that arrives (R354, R355, R361) -/

/-- Between two states only the nonces asked with have changed on the Gingham ports. -/
def NoncesOnly (s t : State) : Prop := ∀ q, gngPort t q = { gngPort s q with nonce := (gngPort t q).nonce }

section
variable {s t u : State}

theorem NoncesOnly.of_kept (h : PortsKept s t) : NoncesOnly s t := fun q => by rw [h q]

theorem NoncesOnly.trans (hst : NoncesOnly s t) (htu : NoncesOnly t u) : NoncesOnly s u := fun q => by
  rw [htu q, hst q]

theorem askMeas_nonces (p : Nat) (s : State) : NoncesOnly s (askMeas p s) := fun q => by
  by_cases hq : q = p
  · rw [hq, (askMeas_sets p s).same]
  · rw [(askMeas_sets p s).other q hq]

theorem askAll_nonces (l : List Nat) (s : State) : NoncesOnly s (forAll l askMeas s) :=
  forAll_preserves (P := NoncesOnly s) (fun p u hu => hu.trans (askMeas_nonces p u)) l (.of_kept (.refl s))

theorem askMeas_asks (p q : Nat) (s : State) (h : (gngPort s q).nonce.isSome = true ∨ q = p) :
    (gngPort (askMeas p s) q).nonce.isSome = true := by
  by_cases hq : q = p
  · rw [hq, (askMeas_sets p s).same]
    rfl
  · rw [(askMeas_sets p s).other q hq]
    exact h.resolve_right hq

/-- Every port that is asked has a nonce outstanding. -/
theorem askAll_asks {l : List Nat} {q : Nat} (hq : q ∈ l) (s : State) : (gngPort (forAll l askMeas s) q).nonce.isSome = true := by
  induction l generalizing s with
  | nil => cases hq
  | cons p l ih =>
    rcases List.mem_cons.mp hq with rfl | hq
    · exact forAll_preserves (P := fun u => (gngPort u q).nonce.isSome = true) (fun r u hu => askMeas_asks r q u (.inl hu)) l
        (askMeas_asks q q s (.inr rfl))
    · exact ih hq (askMeas p s)

end

section
variable {src fe d v : Nat} {s : State}

/-- The tile's SKEW bit is set. -/
def skewed (src : Nat) (s : State) : State :=
  { s with gng := { s.gng with skew := s.gng.skew ||| BitVec.ofNat 64 (2 ^ src) } }

/-- The tile's SKEW bit is clear. -/
def unskewed (src : Nat) (s : State) : State :=
  { s with gng := { s.gng with skew := s.gng.skew &&& ~~~(BitVec.ofNat 64 (2 ^ src)) } }

/-- The first tile that differs is reported, and asked for its measurements where it is a neighbour. -/
def skewTold (src fe v : Nat) (s : State) : State :=
  forAll ((upPorts s).filter (fun p => (gngPort s p).hello.any (fun n => n.1 = src))) askMeas
    (postFe 0x1001 2 fe [src, v % 2 ^ 32] (skewed src s))

theorem compareDigest_none (h : s.gng.history.find? (fun h => h.1 = fe) = none) : compareDigest src fe v s = s := by
  simp [compareDigest, h]

section
variable (h : s.gng.history.find? (fun h => h.1 = fe) = some (fe, d)) (hne : d ≠ v)
include h hne

theorem compareDigest_first (hskew : s.gng.skew = 0) : compareDigest src fe v s = skewTold src fe v s := by
  simp only [compareDigest, h]
  rw [if_pos hne, if_pos hskew]
  rfl

theorem compareDigest_more (hskew : s.gng.skew ≠ 0) : compareDigest src fe v s = skewed src s := by
  simp only [compareDigest, h]
  rw [if_pos hne, if_neg hskew]
  rfl

end

section
variable (h : s.gng.history.find? (fun h => h.1 = fe) = some (fe, v))
include h

theorem compareDigest_last (hlast : s.gng.skew ≠ 0 ∧ (unskewed src s).gng.skew = 0) :
    compareDigest src fe v s = post 0x1002 0 [] (unskewed src s) := by
  simp only [compareDigest, h]
  rw [if_neg (by simp), if_pos (by simpa [unskewed] using hlast)]
  rfl

theorem compareDigest_agrees (hlast : ¬ (s.gng.skew ≠ 0 ∧ (unskewed src s).gng.skew = 0)) :
    compareDigest src fe v s = unskewed src s := by
  simp only [compareDigest, h]
  rw [if_neg (by simp), if_neg (by simpa [unskewed] using hlast)]
  rfl

end

end

theorem exec_digest (p src n fe v : Nat) (s : State) : exec (.digest p src n fe v) s =
    .next (seen p (flooded p 0x04 src n (toLE 8 fe ++ toLE 8 v) (compareDigest src fe v) s)) := rfl

theorem postFe_kept (c v fe : Nat) (l : List Nat) (s : State) : PortsKept s (postFe c v fe l s) := .of_gng (by simp)

theorem posts_postFe {s u : State} (c v fe : Nat) (l : List Nat) (hfall : u.pwr.fall = s.pwr.fall)
    (hflow : eventsFlow u .pf0 = eventsFlow s .pf0) (hring : eqOf u.rings .pf0 = eqOf s.rings .pf0) :
    Posts s (postFe c v fe l u) [{ event s c v l with fe }] := by
  intro hidle hheld hroom
  rw [postFe, postTo_held _ (hfall.trans hidle) (hflow.trans hheld) (by rw [hring]; simp at hroom; omega), hring]
  rfl


section
variable (src fe v : Nat) (s : State)

theorem askAll_keeps (l : List Nat) (s : State) : (forAll l askMeas s).gng.skew = s.gng.skew ∧
    (forAll l askMeas s).gng.arms = s.gng.arms ∧ (forAll l askMeas s).rings = s.rings :=
  ⟨forAll_keeps (fun u => u.gng.skew) _ _ s fun _ _ => rfl, forAll_keeps (fun u => u.gng.arms) _ _ s fun _ _ => rfl,
    forAll_keeps (fun u => u.rings) _ _ s fun _ _ => rfl⟩

theorem skewTold_gng : (skewTold src fe v s).gng.skew = s.gng.skew ||| BitVec.ofNat 64 (2 ^ src) ∧
    (skewTold src fe v s).gng.arms = s.gng.arms := by
  obtain ⟨hskew, harms, -⟩ := askAll_keeps ((upPorts s).filter (fun p => (gngPort s p).hello.any (fun n => n.1 = src)))
    (postFe 0x1001 2 fe [src, v % 2 ^ 32] (skewed src s))
  simp only [skewTold, hskew, harms, postFe_frame]
  exact ⟨rfl, rfl⟩

theorem skewTold_nonces : NoncesOnly s (skewTold src fe v s) :=
  NoncesOnly.trans (t := skewed src s) (.of_kept fun _ => rfl) (.trans (.of_kept (postFe_kept 0x1001 2 fe [src, v % 2 ^ 32] _)) (askAll_nonces _ _))

theorem skewTold_asks {q : Nat} (hq : q ∈ upPorts s) (hsrc : (gngPort s q).hello.any (fun n => n.1 = src) = true) :
    (gngPort (skewTold src fe v s) q).nonce.isSome = true := askAll_asks (List.mem_filter.mpr ⟨hq, hsrc⟩) _

theorem askMeas_only (p : Nat) (s : State) : Only [.gng, .out, .free] s (askMeas p s) := by
  refine only_of_unlisted fun q hq => ?_
  cases q <;> cases hq <;> simp [Part.same]

theorem postFe_only (c v fe : Nat) (l : List Nat) (s : State) : Only [.rings, .hif, .out] s (postFe c v fe l s) := postTo_only _ _ _

theorem skewTold_only : Only [.gng, .rings, .hif, .trc, .out, .free] s (skewTold src fe v s) :=
  only_trans (only_trans (only_mono (by decide) (gng_only _ s)) (only_mono (by decide) (postFe_only 0x1001 2 fe _ (skewed src s))))
    (only_mono (by decide) (forAll_only askMeas_only _ _))

end

/-! ## The role that a tile takes (R350, R351) -/

section
variable {s : State} (hjoining : s.gng.role = .joining)
include hjoining

theorem exec_joinTimeout_joins {w : Nat × HelloMsg} (hpart : runningPart s = some w) :
    exec .ginghamJoinTimeout s = .next (startTicks (hasTiming s.conf) (joinPart w s)) := by
  simp only [exec, execGinghamJoinTimeout, if_pos hjoining, hpart]

variable (hpart : runningPart s = none)
include hpart

theorem exec_joinTimeout_follows (htk : s.gng.tk ≠ tileIndex s.conf) : exec .ginghamJoinTimeout s =
    .next (startTicks (hasTiming s.conf) { s with gng := { s.gng with role := .follower } }) := by
  simp only [exec, execGinghamJoinTimeout, if_pos hjoining, hpart, if_pos htk]

variable (htk : s.gng.tk = tileIndex s.conf)
include htk

theorem exec_joinTimeout_keeps (heligible : eligible s = true) :
    exec .ginghamJoinTimeout s = .next (startTicks false (ownTk .timekeeper s)) := by
  simp only [exec, execGinghamJoinTimeout, if_pos hjoining, hpart]
  rw [if_neg (not_not_intro htk), if_pos heligible]

theorem exec_joinTimeout_island (heligible : eligible s = false) : exec .ginghamJoinTimeout s =
    .next (startTicks false (post 0x1005 2 [(partTiles s).length, tileIndex s.conf] (ownTk .island s))) := by
  simp only [exec, execGinghamJoinTimeout, if_pos hjoining, hpart]
  rw [if_neg (not_not_intro htk), if_neg (by simp [heligible])]
  rfl

end

theorem startTicks_only (waits : Bool) (s : State) : Only [.gng, .tmg] s (startTicks waits s) := by
  refine only_of_unlisted fun q hq => ?_
  cases q <;> cases hq <;> rfl

/-! ## Markers and measurements (R353, R361, R374) -/

/-- A marker has been forwarded, and taken where the active scan will have ended at its FT. -/
def markerTaken (port : Nat) (s : State) : State :=
  let s1 := sendTicks ((upPorts s).filter (· ≠ port)) s
  if s.tmg.nextFt.isNone && hasTiming s.conf && (s.tmg.fresh || tVstart s.conf + tH s.conf ≤ ftOfMarker s) then
    { s1 with gng := { s1.gng with marked := true } }
  else s1

section
variable {p : Nat} {s : State}

theorem exec_tickMarker_mine (hfollows : follows s = true ∨ s.gng.adopt ≠ none) (hway : p = s.gng.upstream)
    (hup : (upPorts s).contains p = true) : exec (.tickMarker p) s = .next (seen p (markerTaken p s)) := by
  have hmine : (!(ownStarts s) && p = s.gng.upstream && (upPorts s).contains p) = true := by
    rw [hup, ownStarts]
    rcases hfollows with h | h
    · simp [h, hway]
    · simp [Option.isNone_eq_false_iff.mpr (Option.isSome_iff_ne_none.mpr h), hway]
  simp only [exec, execTickMarker]
  rw [if_pos hmine]
  rfl

theorem exec_tickMarker_other (h : p ≠ s.gng.upstream ∨ (upPorts s).contains p = false ∨
    (follows s = false ∧ s.gng.adopt = none)) : exec (.tickMarker p) s = .next (seen p s) := by
  have hother : (!(ownStarts s) && p = s.gng.upstream && (upPorts s).contains p) = false := by
    rcases h with h | h | ⟨hown, hadopt⟩
    · simp [h]
    · simp only [h, Bool.and_false]
    · simp [ownStarts, hown, hadopt]
  simp only [exec, execTickMarker]
  rw [if_neg (by rw [hother]; exact Bool.false_ne_true)]

theorem markerTaken_sends {q : Nat} (hq : q ∈ upPorts s) (hne : q ≠ p) : .gngTick q tickLevels ∈ (markerTaken p s).out := by
  have hsent : .gngTick q tickLevels ∈ (sendTicks ((upPorts s).filter (· ≠ p)) s).out :=
    List.mem_append_left _ (List.mem_reverse.mpr (List.mem_map.mpr ⟨q, by simpa [hq] using hne, rfl⟩))
  unfold markerTaken
  dsimp only
  split <;> exact hsent

theorem markerTaken_marks (hnext : s.tmg.nextFt = none) (htiming : hasTiming s.conf = true)
    (hscan : s.tmg.fresh = true ∨ tVstart s.conf + tH s.conf ≤ ftOfMarker s) : (markerTaken p s).gng.marked = true := by
  unfold markerTaken
  dsimp only
  rw [if_pos]
  rcases hscan with h | h <;> simp [hnext, htiming, h]

theorem markerTaken_gng : (markerTaken p s).gng = { s.gng with marked := (markerTaken p s).gng.marked } := by
  unfold markerTaken
  dsimp only
  split <;> rfl

theorem markerTaken_only : Only [.gng, .out] s (markerTaken p s) := by
  unfold markerTaken
  dsimp only
  split <;> refine only_of_unlisted fun q hq => ?_ <;> cases q <;> cases hq <;> rfl

/-- What a neighbour is told of this tile: life cycle, measurements, and the signature of both under its nonce. -/
def measAnswer (nonce : Bytes) (s : State) : Bytes :=
  measPayload (nonce, BitVec.ofNat 8 s.sec.fuses.lifecycle, (List.range 8).map (measSlot s),
    Config.ecdsaSign (deviceKey s).1 (measDigest nonce (BitVec.ofNat 8 s.sec.fuses.lifecycle) ((List.range 8).map (measSlot s))))

theorem exec_measReq_live (nonce : Bytes) (h : (gngPort s p).state = .up ∨ (gngPort s p).state = .greeting) :
    exec (.measReq p nonce) s = .next (seen p (gngSend [p] 0x0C 0 (measAnswer nonce s) s)) := by
  simp only [exec, execMeasReq]
  rw [if_pos]
  · rfl
  · rcases h with h | h <;> simp [h]

theorem exec_measReq_off (nonce : Bytes) (hup : (gngPort s p).state ≠ .up) (hgreeting : (gngPort s p).state ≠ .greeting) :
    exec (.measReq p nonce) s = .next (seen p s) := by
  simp only [exec, execMeasReq]
  rw [if_neg]
  simp [hup, hgreeting]

/-- A neighbour's measurements have been taken, and judged. -/
def measTaken (p verified differ : Nat) (meas : Bytes × Byte × List Bytes × Bytes) (s : State) : State :=
  postIf (verified = 0 || differ ≠ 0) 0x1105 2 [p, verified, differ]
    (setGng p { gngPort s p with meas := some meas, verified, nonce := none } s)

theorem exec_meas_taken {nonce sig : Bytes} {life : Byte} {slots : List Bytes} {verified differ : Nat}
    (hup : (upPorts s).contains p = true) (hverified : verified = (if mget [] s.sec.pins p = [] then 2
      else b2n ((gngPort s p).nonce = some nonce && Config.ecdsaOk (mget [] s.sec.pins p) (measDigest nonce life slots) sig)))
    (hdiffer : differ = ofBits ((bitList (fget s.conf GNG_CTRL_MEAS_MASK) 8).filter (fun k => slots.getD k [] ≠ measSlot s k))) :
    exec (.meas p nonce life slots sig) s = .next (seen p (measTaken p verified differ (nonce, life, slots, sig) s)) := by
  simp only [exec, execMeas]
  rw [if_pos hup, ← hverified, ← hdiffer]
  rfl

theorem exec_meas_off (nonce sig : Bytes) (life : Byte) (slots : List Bytes) (h : (upPorts s).contains p = false) :
    exec (.meas p nonce life slots sig) s = .next (seen p s) := by
  simp only [exec, execMeas]
  rw [if_neg (by rw [h]; exact Bool.false_ne_true)]

end


section
variable {p src n fe v d : Nat} {s : State} (hport : (upPorts s).contains p = true) (hsrc : src ≠ tileIndex s.conf)
  (hnew : mget 0 s.gng.seqs (256 * 0x04 + src) = 0 ∨ newerSeq n (mget 0 s.gng.seqs (256 * 0x04 + src) - 1) = true)

/-- A digest of another tile has been forwarded, before it is compared. -/
def digestPassed (p src n fe v : Nat) (s : State) : State := forwarded p 0x04 src n (toLE 8 fe ++ toLE 8 v) s

include hport hsrc hnew in
theorem exec_digest_new : exec (.digest p src n fe v) s = .next (seen p (compareDigest src fe v (digestPassed p src n fe v s))) := by
  rw [exec_digest, flooded_new _ hport hsrc hnew]
  rfl

theorem digestPassed_gng : (digestPassed p src n fe v s).gng.skew = s.gng.skew ∧
    (digestPassed p src n fe v s).gng.arms = s.gng.arms ∧ (digestPassed p src n fe v s).gng.history = s.gng.history := by
  obtain ⟨heard, hgng⟩ := forwarded_gng p 0x04 src n (toLE 8 fe ++ toLE 8 v) s
  simp only [digestPassed, hgng, and_self]

theorem digestPassed_kept : PortsKept s (digestPassed p src n fe v s) := forwarded_kept _ _ _ _ _ s

theorem digestPassed_quiet : (digestPassed p src n fe v s).pwr.fall = s.pwr.fall ∧
    eventsFlow (digestPassed p src n fe v s) .pf0 = eventsFlow s .pf0 ∧ (digestPassed p src n fe v s).rings = s.rings ∧
    (digestPassed p src n fe v s).sys = s.sys := by
  simp [digestPassed, forwarded, eventsFlow, canSend, served, linkUp, busMaster]

theorem digestPassed_only : Only [.gng, .rings, .hif, .trc, .out, .free] s (digestPassed p src n fe v s) :=
  only_mono (by decide) (forwarded_only _ _ _ _ _ s)

theorem digestPassed_sends {q : Nat} (hq : q ∈ upPorts s) (hne : q ≠ p) :
    .gngFrame q (gngWire (floodBytes 0x04 src n (toLE 8 fe ++ toLE 8 v))) ∈ (digestPassed p src n fe v s).out :=
  forwarded_sends _ _ _ _ _ s hq hne

/-- What an answer to a digest may send does not take back what was forwarded. -/
theorem skewTold_out : s.out <:+ (skewTold src fe v s).out :=
  forAll_preserves (P := fun u : State => s.out <:+ u.out) (f := askMeas)
    (fun p u hu => hu.trans (gngSend_out [p] 0x0B 0 (freshNonce u) _)) _ (postTo_out (s := skewed src s) List.suffix_rfl)

theorem skewTold_posts {u : State} (hfall : u.pwr.fall = s.pwr.fall) (hflow : eventsFlow u .pf0 = eventsFlow s .pf0)
    (hring : u.rings = s.rings) :
    Posts s (skewTold src fe v u) [{ event s 0x1001 2 [src, v % 2 ^ 32] with fe }] := by
  obtain ⟨-, -, hrings⟩ := askAll_keeps ((upPorts u).filter (fun p => (gngPort u p).hello.any (fun n => n.1 = src)))
    (postFe 0x1001 2 fe [src, v % 2 ^ 32] (skewed src u))
  refine posts_congr (posts_postFe (u := skewed src u) 0x1001 2 fe [src, v % 2 ^ 32] hfall hflow (by rw [← hring]; rfl)) ?_
  rw [skewTold, hrings]

end

/-- Settles O59: a tile takes its role once, its way's marker alone, and every digest and measurement as the rules judge them. -/
theorem theWallKeepsTimeAndTrust : Obligations.TheWallKeepsTimeAndTrust := by
  refine ⟨?joins, ?follows, ?keeps, ?island, ?settled, ?marker, fun p s => exec_tickMarker_other, ?differs, ?agrees, ?unknown, ?old,
    ?elsewhere, ?asked, ?judged, fun p nonce sig life slots s => ⟨exec_meas_off nonce sig life slots, exec_measReq_off nonce⟩⟩
  case joins =>
    intro p m s hjoining hpart
    refine ⟨_, exec_joinTimeout_joins hjoining hpart, rfl, rfl, rfl, rfl, rfl, ?_,
      only_trans (only_mono (by decide) (gng_only _ s)) (startTicks_only _ _)⟩
    cases hasTiming s.conf <;> rfl
  case follows =>
    intro s hjoining hpart htk
    refine ⟨_, exec_joinTimeout_follows hjoining hpart htk, rfl, ?_,
      only_trans (only_mono (by decide) (gng_only _ s)) (startTicks_only _ _)⟩
    cases hasTiming s.conf <;> rfl
  case keeps =>
    intro s hjoining hpart htk heligible
    refine ⟨_, exec_joinTimeout_keeps hjoining hpart htk heligible, ?_, rfl,
      only_trans (only_mono (by decide) (gng_only _ s)) (startTicks_only _ _)⟩
    simp only [startTicks, ownTk, htk]
  case island =>
    intro s hjoining hpart htk heligible
    have hposts : Posts s (post 0x1005 2 [(partTiles s).length, tileIndex s.conf] (ownTk .island s))
        [event s 0x1005 2 [(partTiles s).length, tileIndex s.conf]] := posts_post _ _ _ rfl rfl rfl rfl
    refine ⟨_, exec_joinTimeout_island hjoining hpart htk heligible, ?_, rfl, rfl, hposts, ?_⟩
    · simp [startTicks, ownTk]
    · exact only_trans (only_trans (only_mono (by decide) (gng_only _ s)) (only_mono (by decide) (post_only _ _ _ _)))
        (only_mono (by decide) (startTicks_only _ _))
  case settled =>
    intro s hjoining
    simp only [exec, execGinghamJoinTimeout, if_neg hjoining]
  case marker =>
    intro p s hfollows hway hup
    refine ⟨_, exec_tickMarker_mine hfollows hway hup, fun q hq hne => (seen_out p _).subset (markerTaken_sends hq hne),
      fun hnext htiming hscan => ?_, ?_, only_trans (only_mono (by decide) markerTaken_only) (seen_onlyWall p _)⟩
    · rw [seen_gng]
      exact markerTaken_marks hnext htiming hscan
    · rw [seen_gng]
      exact markerTaken_gng
  case differs =>
    intro p src n fe v d s hport hsrc hnew hhistory hne
    obtain ⟨hskew, harms, hheld⟩ := digestPassed_gng (p := p) (src := src) (n := n) (fe := fe) (v := v) (s := s)
    obtain ⟨hfall, hflow, hring, hsys⟩ := digestPassed_quiet (p := p) (src := src) (n := n) (fe := fe) (v := v) (s := s)
    have hkept := digestPassed_kept (p := p) (src := src) (n := n) (fe := fe) (v := v) (s := s)
    rw [← hheld] at hhistory
    by_cases hfirst : s.gng.skew = 0
    case pos =>
      obtain ⟨hset, hsame⟩ := skewTold_gng src fe v (digestPassed p src n fe v s)
      have hnonces := ((NoncesOnly.of_kept hkept).trans (skewTold_nonces src fe v _)).trans (.of_kept (seen_kept p _))
      have hexec := exec_digest_new (fe := fe) (v := v) hport hsrc hnew
      rw [compareDigest_first hhistory hne (hskew.trans hfirst)] at hexec
      refine ⟨_, hexec, ?_, ?_, fun q hq hother => ?_, fun _ q hq hask => ?_, hnonces, ?_, ?_⟩
      · rw [seen_gng, hset, hskew]
      · rw [seen_gng, hsame, harms]
      · exact (seen_out p _).subset (skewTold_out.subset (digestPassed_sends hq hother))
      · rw [seen_kept p _ q]
        exact skewTold_asks src fe v _ (by rw [hkept.upPorts]; exact hq) (by rw [hkept q]; exact hask)
      · rw [if_pos hfirst]
        exact posts_congr (skewTold_posts hfall hflow hring) (seen_ring p _)
      · exact only_trans (only_trans digestPassed_only (skewTold_only src fe v _)) (seen_onlyWall p _)
    case neg =>
      have hexec := exec_digest_new (fe := fe) (v := v) hport hsrc hnew
      rw [compareDigest_more hhistory hne (by rw [hskew]; exact hfirst)] at hexec
      refine ⟨_, hexec, ?_, ?_, fun q hq hother => ?_, fun h => absurd h hfirst, ?_, ?_, ?_⟩
      · rw [seen_gng, skewed, hskew]
      · rw [seen_gng, skewed, harms]
      · exact (seen_out p _).subset (digestPassed_sends hq hother)
      · exact NoncesOnly.of_kept ((hkept.trans (u := skewed src _) fun _ => rfl).trans (seen_kept p _))
      · rw [if_neg hfirst]
        exact posts_nil ((seen_ring p _).trans (by rw [← hring]; rfl))
      · exact only_trans (only_trans digestPassed_only (only_mono (by decide) (gng_only _ _))) (seen_onlyWall p _)
  case agrees =>
    intro p src n fe v s hport hsrc hnew hhistory
    obtain ⟨hskew, harms, hheld⟩ := digestPassed_gng (p := p) (src := src) (n := n) (fe := fe) (v := v) (s := s)
    obtain ⟨hfall, hflow, hring, hsys⟩ := digestPassed_quiet (p := p) (src := src) (n := n) (fe := fe) (v := v) (s := s)
    have hkept := digestPassed_kept (p := p) (src := src) (n := n) (fe := fe) (v := v) (s := s)
    have hclear := hkept.trans (u := unskewed src (digestPassed p src n fe v s)) fun _ => rfl
    have honly := only_trans (digestPassed_only (p := p) (src := src) (n := n) (fe := fe) (v := v) (s := s))
      (only_mono (by decide) (gng_only (unskewed src (digestPassed p src n fe v s)).gng _))
    rw [← hheld] at hhistory
    have hexec := exec_digest_new (fe := fe) (v := v) hport hsrc hnew
    have hset : (unskewed src (digestPassed p src n fe v s)).gng.skew = s.gng.skew &&& ~~~(BitVec.ofNat 64 (2 ^ src)) := by
      rw [unskewed, hskew]
    by_cases hlast : (digestPassed p src n fe v s).gng.skew ≠ 0 ∧ (unskewed src (digestPassed p src n fe v s)).gng.skew = 0
    case pos =>
      rw [compareDigest_last hhistory hlast] at hexec
      have hgng : (seen p (post 0x1002 0 [] (unskewed src (digestPassed p src n fe v s)))).gng =
          (unskewed src (digestPassed p src n fe v s)).gng := by rw [seen_gng]; simp
      refine ⟨_, hexec, by rw [hgng, hset], by rw [hgng]; exact harms,
        (hclear.trans (post_kept 0x1002 0 [] _)).trans (seen_kept p _), ?_, ?_⟩
      · rw [hgng, if_pos (by rw [← hskew]; exact hlast)]
        exact posts_congr (posts_post (u := unskewed src _) 0x1002 0 [] hfall hflow (by rw [← hring]; rfl) (by rw [← hsys]; rfl))
          (seen_ring p _)
      · exact only_trans (only_trans honly (only_mono (by decide) (post_only _ _ _ _))) (seen_onlyWall p _)
    case neg =>
      rw [compareDigest_agrees hhistory hlast] at hexec
      refine ⟨_, hexec, by rw [seen_gng, hset], by rw [seen_gng]; exact harms, hclear.trans (seen_kept p _), ?_,
        only_trans honly (seen_onlyWall p _)⟩
      rw [seen_gng, if_neg (by rw [← hskew]; exact hlast)]
      exact posts_nil ((seen_ring p _).trans (by rw [← hring]; rfl))
  case unknown =>
    intro p src n fe v s hport hsrc hnew hhistory
    obtain ⟨hskew, -, hheld⟩ := digestPassed_gng (p := p) (src := src) (n := n) (fe := fe) (v := v) (s := s)
    have hexec := exec_digest_new (fe := fe) (v := v) hport hsrc hnew
    rw [compareDigest_none (by rw [hheld]; exact hhistory)] at hexec
    refine ⟨_, hexec, by rw [seen_gng, hskew], digestPassed_kept.trans (seen_kept p _),
      fun q hq hother => (seen_out p _).subset (digestPassed_sends hq hother), only_trans digestPassed_only (seen_onlyWall p _)⟩
  case old =>
    intro p src n fe v s hport hold
    rw [exec_digest, flooded_dropped _ hport hold]
  case elsewhere =>
    intro p src n fe v s hport
    rw [exec_digest, flooded_elsewhere _ hport]
  case asked =>
    intro p nonce s hlive
    exact ⟨_, exec_measReq_live nonce hlive, (seen_out p _).subset (gngSend_sends (List.mem_singleton_self p) 0x0C 0 _ s),
      (gngSend_kept s [p] 0x0C 0 _).trans (seen_kept p _),
      only_trans (only_mono (by decide) (gngSend_only [p] 0x0C 0 _ s)) (seen_onlyWall p _)⟩
  case judged =>
    intro p nonce sig life slots verified differ s hup hverified hdiffer
    have hset := ((GngSet.of_setGng p { gngPort s p with meas := some (nonce, life, slots, sig), verified, nonce := none } s).kept
      (u := measTaken p verified differ (nonce, life, slots, sig) s) (.of_gng (by simp [measTaken]))).kept (seen_kept p _)
    refine ⟨_, exec_meas_taken hup hverified hdiffer, hset.same, hset.other, ?_, ?_⟩
    · have hposts := posts_postIf (s := s) (u := setGng p { gngPort s p with meas := some (nonce, life, slots, sig), verified, nonce := none } s)
        (verified = 0 || differ ≠ 0) 0x1105 2 [p, verified, differ] rfl rfl rfl rfl
      refine posts_congr ?_ (seen_ring p _)
      simpa [measTaken] using hposts
    · exact only_trans (only_trans (only_mono (by decide) (setGng_only p _ s))
        (only_mono (qs := [.gng, .rings, .hif, .trc, .out, .free]) (by decide) (postIf_only _ _ _ _ _))) (seen_onlyWall p _)

end Sys2Proof.Proofs
end

section
/-!
The wall's arm exchange (R349, R356, R357): ARM, acknowledgements, commit and abort.
-/
namespace Sys2Proof.Proofs
open Sys2Proof.Machine Sys2Proof.Laws

/-! ## Disarming twice is disarming once -/

section
variable {α : Type} {d u v w : α} {j k : Nat} {m : SMap α}

theorem mem_aput {p : Nat × α} (h : p ∈ aput k v m) : p = (k, v) ∨ p ∈ m := by
  induction m with
  | nil => exact .inl (List.mem_singleton.mp h)
  | cons q r ih =>
    obtain ⟨i, x⟩ := q
    simp only [aput] at h
    split at h
    · exact List.mem_cons.mp h
    · split at h
      · exact (List.mem_cons.mp h).imp_right (List.mem_cons_of_mem _)
      · rcases List.mem_cons.mp h with rfl | h
        · exact .inr List.mem_cons_self
        · exact (ih h).imp_right (List.mem_cons_of_mem _)

theorem aput_again : aput k v (aput k v m) = aput k v m := by
  induction m with
  | nil => simp [aput]
  | cons q r ih =>
    obtain ⟨i, x⟩ := q
    by_cases hlt : k < i
    · simp [aput, hlt]
    · by_cases heq : i = k
      · simp [aput, heq]
      · simp [aput, hlt, heq, ih]

/-- A pair that stands where it would be put is found there, past smaller keys only. -/
theorem aput_fixed_cons {i : Nat} {x : α} {r : SMap α} (h : aput k u ((i, x) :: r) = (i, x) :: r) :
    (i = k ∧ x = u) ∨ (i < k ∧ aput k u r = r) := by
  by_cases hlt : k < i
  · have := congrArg List.length h
    simp [aput, hlt] at this
  · by_cases heq : i = k
    · simp only [aput, heq, Nat.lt_irrefl, if_false, if_true, List.cons.injEq, Prod.mk.injEq, true_and] at h
      exact .inl ⟨heq, h.1.symm⟩
    · simp only [aput, hlt, heq, if_false, List.cons.injEq, true_and] at h
      exact .inr ⟨by omega, h⟩

theorem aput_fixed_aput (hne : j ≠ k) (h : aput k u m = m) : aput k u (aput j w m) = aput j w m := by
  induction m with
  | nil => cases h
  | cons q r ih =>
    obtain ⟨i, x⟩ := q
    rcases aput_fixed_cons h with ⟨rfl, rfl⟩ | ⟨hlt, hr⟩
    · by_cases hj : j < i
      · simp [aput, hj, hne, Nat.not_lt.mpr (Nat.le_of_lt hj)]
      · simp [aput, hj, hne.symm]
    · have hki : ¬ k < i := by omega
      have hik : i ≠ k := by omega
      by_cases hj : j < i
      · have hkj : ¬ k < j := by omega
        simp [aput, hj, hkj, hne, hki, hik, hr]
      · by_cases heq : i = j
        · have hkj : ¬ k < j := by omega
          simp [aput, heq, hkj, hne, hr]
        · simp [aput, hj, heq, hki, hik, ih hr]

theorem aput_fixed_filter (hne : j ≠ k) (h : aput k u m = m) :
    aput k u (m.filter (fun p => p.1 ≠ j)) = m.filter (fun p => p.1 ≠ j) := by
  induction m with
  | nil => cases h
  | cons q r ih =>
    obtain ⟨i, x⟩ := q
    rcases aput_fixed_cons h with ⟨rfl, rfl⟩ | ⟨hlt, hr⟩
    · simp [aput, hne.symm]
    · have hki : ¬ k < i := by omega
      have hik : i ≠ k := by omega
      by_cases heq : i = j
      · simpa [heq] using ih hr
      · simpa [heq, aput, hki, hik] using ih hr

variable [DecidableEq α]

theorem mput_again : mput d k v (mput d k v m) = mput d k v m := by
  unfold mput
  split
  · simp
  · exact aput_again

/-- What a key reads as can be put again after another key has been put. -/
theorem mput_fixed_mput (hne : j ≠ k) (h : mput d k u m = m) : mput d k u (mput d j w m) = mput d j w m := by
  by_cases hu : u = d
  · simp only [mput, if_pos hu, List.filter_eq_self] at h ⊢
    intro p hp
    split at hp
    · exact h p (List.mem_of_mem_filter hp)
    · rcases mem_aput hp with rfl | hp
      · simpa using hne
      · exact h p hp
  · simp only [mput, if_neg hu] at h ⊢
    split
    · exact aput_fixed_filter hne h
    · exact aput_fixed_aput hne h

end

/-- A slot that arming for an FE, or disarming, leaves as it is. -/
def SlotFixed (fe : Option Nat) (c : Conf) (i : Nat) : Prop := setSlot i { slotOf c i with armed := fe } c = c

section
variable {fe : Option Nat} {c : Conf} {i j : Nat}

theorem setSlot_fixes : SlotFixed fe (setSlot i { slotOf c i with armed := fe } c) i := by
  rw [SlotFixed, slotOf_setSlot, if_pos rfl]
  simp only [setSlot, mput_again]

theorem setSlot_keeps_fixed (h : SlotFixed fe c i) : SlotFixed fe (setSlot j { slotOf c j with armed := fe } c) i := by
  by_cases hj : j = i
  · rw [hj]
    exact setSlot_fixes
  · rw [SlotFixed, slotOf_setSlot, if_neg (Ne.symm hj)]
    have hput : mput {} i { slotOf c i with armed := fe } c.slots = c.slots := congrArg Conf.slots h
    simp only [setSlot, mput_fixed_mput hj hput]

theorem armSlots_keeps_fixed (mask : List Nat) (h : SlotFixed fe c i) : SlotFixed fe (armSlots mask fe c) i := by
  induction mask generalizing c with
  | nil => exact h
  | cons j mask ih => exact ih (setSlot_keeps_fixed h)

theorem armSlots_fixes {mask : List Nat} (hi : i ∈ mask) (c : Conf) : SlotFixed fe (armSlots mask fe c) i := by
  induction mask generalizing c with
  | nil => cases hi
  | cons j mask ih =>
    rcases List.mem_cons.mp hi with rfl | hi
    · exact armSlots_keeps_fixed mask setSlot_fixes
    · exact ih hi _

theorem armSlots_of_fixed {mask : List Nat} (h : ∀ i ∈ mask, SlotFixed fe c i) : armSlots mask fe c = c := by
  induction mask with
  | nil => rfl
  | cons j mask ih =>
    have hj : setSlot j { slotOf c j with armed := fe } c = c := h j List.mem_cons_self
    rw [armSlots, List.foldl_cons, hj]
    exact ih fun i hi => h i (List.mem_cons_of_mem _ hi)

theorem armSlots_again (mask : List Nat) (fe : Option Nat) (c : Conf) :
    armSlots mask fe (armSlots mask fe c) = armSlots mask fe c := armSlots_of_fixed fun _ hi => armSlots_fixes hi c

theorem tileIndex_armSlots (mask : List Nat) (fe : Option Nat) (c : Conf) : tileIndex (armSlots mask fe c) = tileIndex c := by
  simp only [tileIndex, fget, (armSlots_keeps mask fe c).1]

end

/-! ## What the wall hears -/

section
variable {p : Nat} {l : List Nat} {s : State}

theorem gngFlood_sends (hp : p ∈ upPorts s) (type : Nat) (payload : Bytes) :
    .gngFrame p (gngWire (gngBytes s type 1 payload)) ∈ (gngFlood type payload s).out := gngSend_sends hp type 1 payload s

theorem gngBytes_congr {t : State} (htile : tileIndex t.conf = tileIndex s.conf) (hseq : t.gng.mySeq = s.gng.mySeq)
    (type flood : Nat) (payload : Bytes) : gngBytes t type flood payload = gngBytes s type flood payload := by
  simp only [gngBytes, htile, hseq]

theorem mem_partTiles {k : Nat} (h : k ∈ partTiles s) :
    k = tileIndex s.conf ∨ ∃ q, (k, q) ∈ s.gng.heard ∨ (k, q) ∈ s.gng.heardBefore := by
  have hmem := mem_sortBy h
  simp only [List.mem_eraseDups, List.mem_cons, List.mem_filter, List.mem_map, List.mem_append] at hmem
  rcases hmem with hown | ⟨⟨⟨k', q⟩, hheard, rfl⟩, -⟩
  · exact .inl hown
  · exact .inr ⟨q, hheard⟩

end


theorem mem_insertBy_of_mem {α : Type} (key : α → Nat) {x y : α} {l : List α} (h : y = x ∨ y ∈ l) : y ∈ insertBy key x l := by
  induction l with
  | nil => simpa [insertBy] using h
  | cons z l ih =>
    rw [insertBy]
    split
    · simpa using h
    · rcases h with rfl | h
      · exact List.mem_cons_of_mem _ (ih (.inl rfl))
      · rcases List.mem_cons.mp h with rfl | h
        · exact List.mem_cons_self
        · exact List.mem_cons_of_mem _ (ih (.inr h))

theorem mem_sortBy_of_mem {α : Type} (key : α → Nat) {y : α} {l : List α} (h : y ∈ l) : y ∈ sortBy key l := by
  induction l with
  | nil => cases h
  | cons x l ih => exact mem_insertBy_of_mem key ((List.mem_cons.mp h).imp_right ih)

theorem partTiles_of_heard {s : State} {k q : Nat} (h : (k, q) ∈ s.gng.heard ∨ (k, q) ∈ s.gng.heardBefore) : k ∈ partTiles s := by
  refine mem_sortBy_of_mem _ (List.mem_eraseDups.mpr ?_)
  by_cases hk : k = tileIndex s.conf
  · exact List.mem_cons.mpr (.inl hk)
  · refine List.mem_cons_of_mem _ (List.mem_filter.mpr ⟨List.mem_map.mpr ⟨(k, q), List.mem_append.mpr h, rfl⟩, by simpa using hk⟩)

/-! ## ARM_CONFIG of wall slots (R356 step 1) -/

section
variable {sq n : Nat} {r : Running} {s : State}

/-- The slots of a mask have been armed for an FE. -/
def slotsArmed (mask : List Nat) (n : Nat) (s : State) : State := { s with conf := armSlots mask (some n) s.conf }

theorem armConfig_wall {mask : List Nat} (hmask : mask = bitList (fieldAt r.raw 0x18 4 % 16) 4) (hsome : mask ≠ [])
    (hon : fbit s.conf GNG_CTRL_EN = true) (hwall : ∀ i ∈ mask, i ∈ wallSlots s.conf)
    (hfe : armFe s.sys.fe (fieldAt r.raw 0x20 8) 4 = some n) (hunarmed : ∀ i ∈ mask, (slotOf s.conf i).armed = none)
    (hvalid : validateArm (worldOf s) (armSlots mask (some n) s.conf) n = none) :
    armConfig sq r s = beginWallArm sq r 0 (fieldAt r.raw 0x18 4 % 16) n (classNum (armClass (armSlots mask (some n) s.conf) n)) []
      (slotsArmed mask n s) := by
  have hall : mask.filter (fun i => (wallSlots s.conf).contains i) = mask :=
    List.filter_eq_self.mpr fun i hi => by simpa using hwall i hi
  have hfree : mask.any (fun i => (slotOf s.conf i).armed.isSome) = false := by
    rw [List.any_eq_false]
    intro i hi
    simp [hunarmed i hi]
  have hkept : mask.isEmpty = false := by simpa using hsome
  simp only [armConfig, ← hmask, hall, hon, hkept, hfe, hfree, hvalid, Bool.not_false, Bool.and_self, Bool.true_and, ne_eq,
    not_true_eq_false, decide_false, Bool.false_eq_true, if_false, if_true]
  rfl

theorem beginWallArm_frames (kind mask fe cls : Nat) (body : Bytes) {p : Nat} (hp : p ∈ upPorts s) :
    .gngFrame p (gngWire (gngBytes s 0x05 1 (armPayload (nextArmId s) kind mask fe body))) ∈
      (beginWallArm sq r kind mask fe cls body s).out :=
  gngFlood_sends (s := { s with gng := { s.gng with arms := _, nextId := _ } }) hp 0x05 _

theorem beginWallArm_parts (kind mask fe cls : Nat) (body : Bytes) (s : State) :
    Only [.rings, .gng, .out] s (beginWallArm sq r kind mask fe cls body s) := by
  have hhif : (beginWallArm sq r kind mask fe cls body s).hif = s.hif := rfl
  refine only_of_unlisted fun p hp => ?_
  cases p <;> cases hp <;> simp [Part.same, hhif]

theorem settleExchange_begun {k mask fe cls : Nat} (harms : s.gng.arms = []) (hpart : k ∈ partTiles s) (hk : k ≠ tileIndex s.conf) :
    settleExchange (beginWallArm sq r 0 mask fe cls [] s) = beginWallArm sq r 0 mask fe cls [] s := by
  refine settleExchange_waits (a := { id := nextArmId s, kind := 0, slots := mask, fe, body := [], ring := some sq
                                      acks := [(tileIndex s.conf, SUCCESS, cls)] }) ?_ (k := k) hpart ?_
  · simp [beginWallArm, harms]
  · simp [ackOf, hk.symm]

end

/-! ## A tile joins an exchange (R356 step 2) -/

theorem judgeArm_gng (s : State) (g : Gng) (o : List Output) (kind slots fe : Nat) (body : Bytes) :
    judgeArm { s with gng := g, out := o } kind slots fe body = judgeArm s kind slots fe body := rfl

theorem judgeArm_tile {s : State} {kind slots fe st cls : Nat} {body : Bytes} {conf : Conf}
    (h : judgeArm s kind slots fe body = (st, cls, conf)) : tileIndex conf = tileIndex s.conf := by
  unfold judgeArm at h
  dsimp only at h
  (repeat' split at h) <;> obtain ⟨-, -, rfl⟩ := Prod.mk.inj h |>.imp_right Prod.mk.inj
  all_goals simp [tileIndex_armSlots]


theorem slotsArmed_wall (mask : List Nat) (n : Nat) (s : State) : tileIndex (slotsArmed mask n s).conf = tileIndex s.conf ∧
    partTiles (slotsArmed mask n s) = partTiles s ∧ nextArmId (slotsArmed mask n s) = nextArmId s := by
  simp only [partTiles, nextArmId, slotsArmed, tileIndex_armSlots, and_self]

/-- A tile has armed what another asked for. -/
def armNoted (id kind slots fe : Nat) (body : Bytes) (conf : Conf) (s : State) : State :=
  { s with conf, gng := { s.gng with arms := s.gng.arms ++ [{ id, kind, slots, fe, body }] } }

/-- A tile that can arm what another asks for holds the arm, and acknowledges. -/
def armHeld (id kind slots fe cls : Nat) (body : Bytes) (conf : Conf) (s : State) : State :=
  gngFlood 0x06 (toLE 4 id ++ toLE 1 SUCCESS ++ toLE 1 cls) (armNoted id kind slots fe body conf s)

theorem joinArm_holds {id kind slots fe cls : Nat} {body : Bytes} {conf : Conf} {s : State}
    (h : judgeArm s kind slots fe body = (SUCCESS, cls, conf)) : joinArm id kind slots fe body s = armHeld id kind slots fe cls body conf s := by
  simp only [joinArm, h, if_true]
  rfl

theorem armHeld_only (id kind slots fe cls : Nat) (body : Bytes) (conf : Conf) (s : State) :
    Only [.conf, .gng, .out] s (armHeld id kind slots fe cls body conf s) := by
  refine only_of_unlisted fun p hp => ?_
  cases p <;> cases hp <;> rfl

theorem seen_conf (p : Nat) (s : State) : (seen p s).conf = s.conf := by simp

section
variable {port type src q : Nat} {payload : Bytes} {s : State} (act : State → State)

/-- The first frame of its type that a source sends is never dropped (R349). -/
theorem flooded_first (hport : port ∈ upPorts s) (hsrc : src ≠ tileIndex s.conf) (hseq : mget 0 s.gng.seqs (256 * type + src) = 0) :
    flooded port type src q payload act s = act (forwarded port type src q payload s) :=
  flooded_new act (by simpa using hport) hsrc (.inl hseq)

theorem forwarded_conf (port type src q : Nat) (payload : Bytes) (s : State) : (forwarded port type src q payload s).conf = s.conf := by
  simp [forwarded]

theorem forwarded_arms (port type src q : Nat) (payload : Bytes) (s : State) :
    (forwarded port type src q payload s).gng.arms = s.gng.arms ∧ (forwarded port type src q payload s).gng.mySeq = s.gng.mySeq := by
  obtain ⟨heard, hgng⟩ := forwarded_gng port type src q payload s
  simp only [hgng, and_self]

theorem forwarded_rings (port type src q : Nat) (payload : Bytes) (s : State) :
    (forwarded port type src q payload s).rings = s.rings := by simp [forwarded]

theorem forwarded_upPorts (port type src q : Nat) (payload : Bytes) (s : State) :
    upPorts (forwarded port type src q payload s) = upPorts s := (forwarded_kept port type src q payload s).upPorts

theorem forwarded_judge (port type src q : Nat) (payload : Bytes) (s : State) (kind slots fe : Nat) (body : Bytes) :
    judgeArm (forwarded port type src q payload s) kind slots fe body = judgeArm s kind slots fe body := by
  unfold forwarded hearTile
  split <;> rfl

theorem forwarded_heard (port type src q : Nat) (payload : Bytes) (s : State) {x : Nat × Nat}
    (h : x ∈ (forwarded port type src q payload s).gng.heard) : x = (src, port) ∨ x ∈ s.gng.heard := by
  unfold forwarded hearTile at h
  split at h
  · exact .inr h
  · exact (List.mem_append.mp h).symm.imp_left List.mem_singleton.mp

theorem forwarded_heardBefore (port type src q : Nat) (payload : Bytes) (s : State) :
    (forwarded port type src q payload s).gng.heardBefore = s.gng.heardBefore := by
  obtain ⟨heard, hgng⟩ := forwarded_gng port type src q payload s
  rw [hgng]

/-- The part that a frame is heard from gains its source at most. -/
theorem forwarded_parts (port type src q : Nat) (payload : Bytes) (s : State) {k : Nat}
    (h : k ∈ partTiles (forwarded port type src q payload s)) : k = src ∨ k = tileIndex s.conf ∨ k ∈ partTiles s := by
  rcases mem_partTiles h with hown | ⟨r, hheard⟩
  · rw [forwarded_conf] at hown
    exact .inr (.inl hown)
  · rw [forwarded_heardBefore] at hheard
    rcases hheard with hnow | hbefore
    · rcases forwarded_heard port type src q payload s hnow with heq | hold
      · exact .inl (congrArg Prod.fst heq)
      · exact .inr (.inr (partTiles_of_heard (.inl hold)))
    · exact .inr (.inr (partTiles_of_heard (.inr hbefore)))

end

/-! ## The last acknowledgement commits (R356 step 3) -/

section
variable {a : WallArm} {sq : Nat} {r : Running} {s : State}

/-- An exchange that every tile of the part has acknowledged, with its class, is committed by its originator. -/
def exchangeCommitted (a : WallArm) (cls : Nat) (s : State) : State :=
  finishAll .pf0 a.ring.toList (armOpcode a) SUCCESS (cls :: lohi a.fe) (commitArm a (gngFlood 0x07 (toLE 4 a.id) s))

theorem settleExchange_commits {cls : Nat} (harms : s.gng.arms = [a]) (hkind : a.kind = 0) (hring : a.ring.isSome = true)
    (hall : ∀ k ∈ partTiles s, ∃ c, ackOf a k = some (SUCCESS, c)) (hcls : a.acks.foldl (fun m k => max m k.2.2) 0 = cls) :
    settleExchange s = exchangeCommitted a cls s := by
  have hsettled : ∀ f : WallArm → Bool, f a = true → s.gng.arms.filter f = [a] := fun f hf => by
    rw [harms, List.filter_singleton, hf]
    rfl
  unfold settleExchange
  rw [hsettled _ ?_]
  · simp only [forAll, List.foldl_cons, List.foldl_nil, hcls, hkind, if_true]
    rfl
  · rw [hring, Bool.true_and, List.all_eq_true]
    intro k hk
    obtain ⟨c, hc⟩ := hall k hk
    simp [hc]

theorem commitArm_staged (hkind : a.kind = 0) (s : State) : commitArm a s = setArm { a with committed := true, ring := none } s := by
  rw [commitArm, if_pos hkind]

/-- An acknowledgement that is noted. -/
def acked (a : WallArm) (src cls : Nat) : WallArm := { a with acks := a.acks ++ [(src, SUCCESS, cls)] }

theorem setArm_only (s : State) : Only [.gng] s (setArm a s) := gng_only _ s

theorem setArm_single {b : WallArm} (harms : s.gng.arms = [a]) (hid : b.id = a.id) : (setArm b s).gng.arms = [b] := by
  simp [setArm, harms, hid]

theorem exchangeCommitted_done {cls : Nat} {t : State} (hkind : a.kind = 0) (hring : a.ring = some sq) (harms : t.gng.arms = [a])
    (hrings : t.rings = s.rings) (hwaits : waitingOn s .pf0 sq 0x12 = some r) :
    Completed s (exchangeCommitted a cls t) .pf0 sq r SUCCESS (cls :: lohi a.fe) ∧
      (∀ b ∈ (exchangeCommitted a cls t).gng.arms, b.committed = true) ∧ (exchangeCommitted a cls t).conf = t.conf ∧
      (∀ p ∈ upPorts t, .gngFrame p (gngWire (gngBytes t 0x07 1 (toLE 4 a.id))) ∈ (exchangeCommitted a cls t).out) := by
  have hopcode : armOpcode a = 0x12 := if_pos hkind
  have hkept : (commitArm a (gngFlood 0x07 (toLE 4 a.id) t)).rings = s.rings := by
    rw [commitArm_staged hkind]
    exact hrings
  have hfinish : exchangeCommitted a cls t =
      finish .pf0 sq r SUCCESS (cls :: lohi a.fe) (commitArm a (gngFlood 0x07 (toLE 4 a.id) t)) := by
    rw [exchangeCommitted, hopcode, hring]
    exact finishAll_single ((waitingOn_congr (congrArg Rings.sqs hkept) ..).trans hwaits)
  rw [hfinish, commitArm_staged hkind]
  refine ⟨finish_completed _ _ _ _ _ (congrArg Rings.cqs (by rw [← hkept, commitArm_staged hkind])), ?_, ?_, fun p hp => ?_⟩
  · have hcommitted := setArm_single (s := gngFlood 0x07 (toLE 4 a.id) t) (b := { a with committed := true, ring := none }) harms rfl
    simp [hcommitted]
  · rw [finish_conf]
    rfl
  · exact (finish_out List.suffix_rfl).subset (gngFlood_sends hp 0x07 (toLE 4 a.id))

end

/-- What an acknowledgement of another tile does. -/
def ackHeard (id src status cls : Nat) (s : State) : State :=
  match armWith s id with
  | some a =>
    if a.ring.isSome && (ackOf a src).isNone then settleExchange (setArm { a with acks := a.acks ++ [(src, status, cls)] } s) else s
  | none => s

/-- What a commit of another tile does. -/
def commitHeard (id : Nat) (s : State) : State :=
  match armWith s id with
  | some a => commitArm a s
  | none => s

theorem commitHeard_found {id : Nat} {a : WallArm} {s : State} (h : armWith s id = some a) : commitHeard id s = commitArm a s := by
  simp only [commitHeard, h]

theorem ackHeard_notes {id src cls : Nat} {a : WallArm} {s : State} (harms : s.gng.arms = [a]) (hid : a.id = id)
    (hring : a.ring.isSome = true) (hnone : ackOf a src = none) :
    ackHeard id src SUCCESS cls s = settleExchange (setArm (acked a src cls) s) := by
  have hfound : armWith s id = some a := by simp [armWith, harms, hid]
  simp only [ackHeard, hfound, hring, hnone, Option.isNone_none, Bool.and_self, if_true]
  rfl

/-! ## An abort (R357) -/

/-- An arm is dropped once and for all: dropping it again changes nothing. -/
theorem dropWallArm_again (a : WallArm) (s : State) : dropWallArm a (dropWallArm a s) = dropWallArm a s := by
  have hconf : (dropWallArm a (dropWallArm a s)).conf = (dropWallArm a s).conf := by
    simp only [dropWallArm]
    split
    · exact armSlots_again _ _ _
    · rfl
  have harms : (dropWallArm a (dropWallArm a s)).gng = (dropWallArm a s).gng := by simp [dropWallArm]
  rw [show dropWallArm a (dropWallArm a s) = { dropWallArm a s with
    gng := (dropWallArm a (dropWallArm a s)).gng, conf := (dropWallArm a (dropWallArm a s)).conf } from rfl, hconf, harms]

theorem endArms_same {a : WallArm} {l : List WallArm} (tile : Nat) (hring : a.ring = none) (hsome : l ≠ []) (hall : ∀ b ∈ l, b = a)
    (s : State) : endArms l tile s = dropWallArm a s := by
  have hdrop : ∀ u : State, endArms [a] tile u = dropWallArm a u := fun u => by simp [endArms, forAll, hring, finishAll]
  induction l generalizing s with
  | nil => exact absurd rfl hsome
  | cons b l ih =>
    obtain rfl : b = a := hall b List.mem_cons_self
    have hcons : endArms (b :: l) tile s = endArms l tile (dropWallArm b s) := congrArg (endArms l tile) (hdrop s)
    rw [hcons]
    cases l with
    | nil => rfl
    | cons c l => rw [ih (by simp) (fun x hx => hall x (List.mem_cons_of_mem _ hx)), dropWallArm_again]

theorem dropWallArm_only (a : WallArm) (s : State) : Only [.conf, .gng] s (dropWallArm a s) := by
  refine only_of_unlisted fun p hp => ?_
  cases p <;> cases hp <;> rfl

/-- Settles O28: an exchange is armed, held, committed and dropped by id, on what each tile has acknowledged. -/
theorem wallArmsExchange : Obligations.WallArmsExchange := by
  refine ⟨?begins, ?holds, ?commits, ?committed, ?aborted⟩
  case begins =>
    intro sq n mask r s hready hmask hsome hplain hon hwall harms ⟨k, hpart, hk⟩ hfe hunarmed hvalid
    obtain ⟨htile, hparts, hid⟩ := slotsArmed_wall mask n s
    have hexec := exec_armConfig hready hplain
    rw [armConfig_wall hmask hsome hon hwall hfe hunarmed hvalid,
      settleExchange_begun (s := slotsArmed mask n s) harms (hparts.symm ▸ hpart) (by rwa [htile])] at hexec
    refine ⟨_, hexec, ?_, rfl, rfl, fun p hp => ?_, only_trans (only_mono (by decide) (conf_only _ s))
      (only_mono (by decide) (beginWallArm_parts _ _ _ _ _ _))⟩
    · rw [← hid]
      exact holdRunning_running ..
    · rw [← hid, ← gngBytes_congr (t := slotsArmed mask n s) htile rfl]
      exact beginWallArm_frames _ _ _ _ _ hp
  case holds =>
    intro port src q id kind slots fe cls body conf s hport hsrc hseq hjudge
    have hexec : exec (.ginghamArm port src q id kind slots fe body) s = .next (seen port (armHeld id kind slots fe cls body conf
        (forwarded port 0x05 src q (armPayload id kind slots fe body) s))) := by
      have hflood := flooded_first (type := 0x05) (payload := armPayload id kind slots fe body) (q := q)
        (joinArm id kind slots fe body) hport hsrc hseq
      rw [joinArm_holds (by rw [forwarded_judge]; exact hjudge)] at hflood
      simp only [exec, execGinghamArm, hflood]
    obtain ⟨harms, hmine⟩ := forwarded_arms port 0x05 src q (armPayload id kind slots fe body) s
    have hports := forwarded_upPorts port 0x05 src q (armPayload id kind slots fe body) s
    refine ⟨_, hexec, by rw [seen_conf]; rfl, by rw [seen_gng, ← harms]; rfl, fun p hp hne => ?_, fun p hp => ?_,
      only_trans (only_trans (only_mono (by decide) (forwarded_only _ _ _ _ _ s)) (only_mono (by decide) (armHeld_only _ _ _ _ _ _ _ _)))
        (only_mono (by decide) (seen_onlyWall port _))⟩
    · exact (seen_out port _).subset ((gngSend_out _ _ _ _ _).subset (forwarded_sends port 0x05 src q _ s hp hne))
    · rw [← gngBytes_congr (t := armNoted id kind slots fe body conf (forwarded port 0x05 src q (armPayload id kind slots fe body) s))
        (judgeArm_tile hjudge) hmine]
      exact (seen_out port _).subset (gngFlood_sends (s := armNoted id kind slots fe body conf _) (hports ▸ hp) 0x06 _)
  case commits =>
    intro port src q id cls sq a r s hport hsrc hseq harms hid hkind hring hwaits hacks hpart
    obtain ⟨hsame, hmine⟩ := forwarded_arms port 0x06 src q (toLE 4 id ++ toLE 1 SUCCESS ++ toLE 1 cls) s
    have hports := forwarded_upPorts port 0x06 src q (toLE 4 id ++ toLE 1 SUCCESS ++ toLE 1 cls) s
    have hrings := forwarded_rings port 0x06 src q (toLE 4 id ++ toLE 1 SUCCESS ++ toLE 1 cls) s
    have hconf := forwarded_conf port 0x06 src q (toLE 4 id ++ toLE 1 SUCCESS ++ toLE 1 cls) s
    have hparts := fun k => forwarded_parts port 0x06 src q (toLE 4 id ++ toLE 1 SUCCESS ++ toLE 1 cls) s (k := k)
    have hflood := flooded_first (type := 0x06) (payload := toLE 4 id ++ toLE 1 SUCCESS ++ toLE 1 cls) (q := q)
      (ackHeard id src SUCCESS cls) hport hsrc hseq
    generalize forwarded port 0x06 src q (toLE 4 id ++ toLE 1 SUCCESS ++ toLE 1 cls) s = u at *
    rw [harms] at hsame
    have hnone : ackOf a src = none := by simp [ackOf, hacks, hsrc.symm]
    rw [ackHeard_notes hsame hid (by rw [hring]; rfl) hnone] at hflood
    have harmed : (setArm (acked a src cls) u).gng.arms = [acked a src cls] := setArm_single hsame rfl
    have hall : ∀ k ∈ partTiles (setArm (acked a src cls) u), ∃ c, ackOf (acked a src cls) k = some (SUCCESS, c) := by
      intro k hk
      by_cases hown : k = tileIndex s.conf
      · exact ⟨cls, by simp [ackOf, acked, hacks, hown]⟩
      · obtain rfl : k = src := by
          rcases hparts k hk with h | h | h
          · exact h
          · exact absurd h hown
          · exact (hpart k h).resolve_right hown
        exact ⟨cls, by simp [ackOf, acked, hacks, hsrc.symm]⟩
    rw [settleExchange_commits (cls := cls) harmed hkind (by simp [acked, hring]) hall (by simp [acked, hacks])] at hflood
    have hexec : exec (.armAck port src q id SUCCESS cls) s =
        .next (seen port (exchangeCommitted (acked a src cls) cls (setArm (acked a src cls) u))) := by
      rw [← hflood]
      rfl
    obtain ⟨hdone, hcommitted, hkept, hframes⟩ := exchangeCommitted_done (s := s) (cls := cls) (a := acked a src cls)
      (t := setArm (acked a src cls) u) hkind hring harmed hrings hwaits
    refine ⟨_, hexec, Completed.after hdone (by simp) (by simp), by rw [seen_gng]; exact hcommitted, fun p hp => ?_, ?_⟩
    · rw [← gngBytes_congr (t := setArm (acked a src cls) u) (congrArg tileIndex hconf) hmine]
      exact (seen_out port _).subset (hframes p (by rw [← hports] at hp; exact hp))
    · rw [seen_conf, hkept]
      exact hconf
  case committed =>
    intro port src q id a s hport hsrc hseq harm hkind
    obtain ⟨hsame, -⟩ := forwarded_arms port 0x07 src q (toLE 4 id) s
    have hflood := flooded_first (type := 0x07) (payload := toLE 4 id) (q := q) (commitHeard id) hport hsrc hseq
    have honly := forwarded_only port 0x07 src q (toLE 4 id) s
    generalize forwarded port 0x07 src q (toLE 4 id) s = u at *
    rw [commitHeard_found (by rw [armWith, hsame]; exact harm), commitArm_staged hkind] at hflood
    refine ⟨seen port (setArm { a with committed := true, ring := none } u), ?_, ?_,
      only_trans (only_trans (only_mono (by decide) honly) (only_mono (by decide) (setArm_only u))) (only_mono (by decide) (seen_onlyWall port _))⟩
    · rw [← hflood]
      rfl
    · rw [seen_gng, ← hsame]
      rfl
  case aborted =>
    intro port src q id a s hport hsrc hseq harm hid hsame hkind hring
    obtain ⟨hkept, -⟩ := forwarded_arms port 0x08 src q (toLE 4 id) s
    have hconf := forwarded_conf port 0x08 src q (toLE 4 id) s
    have hflood := flooded_first (type := 0x08) (payload := toLE 4 id) (q := q)
      (fun s => endArms (s.gng.arms.filter (fun a => a.id = id)) src s) hport hsrc hseq
    have honly := forwarded_only port 0x08 src q (toLE 4 id) s
    generalize forwarded port 0x08 src q (toLE 4 id) s = u at *
    rw [hkept, endArms_same (a := a) src hring (List.ne_nil_of_mem (List.mem_filter.mpr ⟨harm, by simpa using hid⟩))
      (fun b hb => hsame b (List.mem_of_mem_filter hb) (by simpa using List.of_mem_filter hb))] at hflood
    refine ⟨seen port (dropWallArm a u), ?_, ?_, ?_,
      only_trans (only_trans (only_mono (by decide) honly) (only_mono (by decide) (dropWallArm_only a u)))
        (only_mono (by decide) (seen_onlyWall port _))⟩
    · rw [← hflood]
      rfl
    · rw [seen_gng, ← hkept]
      rfl
    · rw [seen_conf, dropWallArm, if_pos hkind, hconf]

end Sys2Proof.Proofs
end

section
/-!
Housekeeping pairs and clock domains that fail (R23, R396, R397, Table 18.2).
-/
namespace Sys2Proof.Proofs
open Sys2Proof.Machine Sys2Proof.Laws

/-! ## A watchdog reset to come (R10) -/

section
variable {s : State} {reason : Nat}

theorem watchdog_dies (hdie : dieRuns s = true) (hfall : s.pwr.fall = .idle)
    (htransit : s.sys.transit.any (fun x => x.target = .boot) = false) : watchdog reason s = resetDie reason s := by
  simp [watchdog, htransit, hdie, hfall]

theorem resetDie_comes (reason : Nat) (s : State) :
    (resetDie reason s).sys.nextCause = { cause := 3, wdReason := reason } ∧ (resetDie reason s).sys.mode = s.sys.mode ∧
      (resetDie reason s).sys.transit.any (fun x => x.target = .boot) = true ∧ (resetDie reason s).lin.store.isSome = true ∧
      (resetDie reason s).conf = s.conf ∧ (resetDie reason s).mem = s.mem := by
  obtain ⟨u, hdie, hstore, hsys, hconf, hmem⟩ := resetDie_waits reason s
  rw [hdie]
  simp [beginTransit, hstore, hsys, hconf, hmem]

end

theorem dieRuns_of_firmware {s : State} (h : firmwareRuns s = true) : dieRuns s = true := by
  simp only [firmwareRuns, Bool.and_eq_true, decide_eq_true_eq, List.contains_iff_mem, List.mem_cons, List.not_mem_nil, or_false] at h
  obtain ⟨⟨hmode, -⟩, hstage⟩ := h
  have hpowered : s.sys.stage ≠ .unpowered := by
    intro hstop
    simp [hstop] at hstage
  simp [dieRuns, hmode, hpowered]

/-! ## Housekeeping pairs (R396) -/

section
variable {p cause fe seconds : Nat} {s : State}

/-- The fault unit with a pair halted. -/
def pairHalted (p cause : Nat) (s : State) : State :=
  { s with flt := { s.flt with hkOk := s.flt.hkOk &&& ~~~(BitVec.ofNat 2 (2 ^ p))
                               hkCause := aput p (cause, s.sys.fe, s.lin.seconds) s.flt.hkCause } }

/-- The last pair that serves takes the die with it. -/
theorem hkFault_last (hp : p < 2) (hlast : s.flt.hkOk = BitVec.ofNat 2 (2 ^ p)) :
    hkFault p cause s = watchdog 1 (logFault 3 5 p [cause] (pairHalted p cause s)) := by
  have hserves : s.flt.hkOk.getLsbD p = true ∧ s.flt.hkOk &&& ~~~(BitVec.ofNat 2 (2 ^ p)) = 0 := by
    have hpair : p = 0 ∨ p = 1 := by omega
    rcases hpair with rfl | rfl <;> simp [hlast]
  simp only [hkFault, hserves.1, hserves.2, pairHalted, Bool.not_true, Bool.false_eq_true, if_false, if_true]

theorem exec_mismatch (h : firmwareRuns s = true) : exec (.hkLockstepMismatch p cause) s = .next (hkFault p cause s) := by
  simp only [exec, execHkLockstepMismatch, dieRuns_of_firmware h, if_true]

/-- The fault unit once a pair's self-test is over. -/
def pairTested (p : Nat) (f : Flt) : Flt := { f with hkCause := f.hkCause.filter (fun x => x.1 ≠ p) }

/-- A pair that passes its self-test serves again. -/
def pairServes (p : Nat) (f : Flt) : Flt := { pairTested p f with hkOk := f.hkOk ||| BitVec.ofNat 2 (2 ^ p) }

section
variable (h : aget s.flt.hkCause p = some (cause, fe, seconds))
include h

theorem exec_hkSelfTest_pass : exec (.hkSelfTestDone p true) s =
    .next (logFaultAt fe seconds 3 1 p [cause] (post 0x1205 3 [p, cause, 0] { s with flt := pairServes p s.flt })) := by
  simp only [exec, execHkSelfTestDone, h, if_true, pairServes, pairTested]

theorem exec_hkSelfTest_fail : exec (.hkSelfTestDone p false) s =
    .next (putSpares (logFaultAt fe seconds 3 6 p [cause] (post 0x1205 3 [p, cause, 1] { s with flt := pairTested p s.flt }))) := by
  simp only [exec, execHkSelfTestDone, h, Bool.false_eq_true, if_false, pairTested]

end

theorem posts_logFaultAt {t : State} {l : List Ev} (h : Posts s t l) (fe seconds cls outcome inst : Nat) (d : List Nat) :
    Posts s (logFaultAt fe seconds cls outcome inst d t) l := posts_congr h (by simp)

theorem logFaultAt_lin_congr {t : State} (hlin : t.lin = s.lin) (fe seconds cls outcome inst : Nat) (d : List Nat) :
    (logFaultAt fe seconds cls outcome inst d t).lin = (logFaultAt fe seconds cls outcome inst d s).lin := by
  simp only [logFaultAt, setSram, hlin]

end

/-! ## A clock that is lost (R397) -/

section
variable (d : Nat) (s : State)

/-- A domain has lost its clock, and that is told. -/
def clockNoted (s : State) : State := post 0x1206 3 [d] { s with flt := { s.flt with lostClocks := s.flt.lostClocks ++ [d] } }

/-- The loss has been recorded, with an outcome that the spec leaves open. -/
def clockLogged (s : State) : State := logFault 4 (freeNow (clockNoted d s) % 7) d [] (skipFree 1 (clockNoted d s))

theorem clockLogged_keeps : (clockLogged d s).flt = { s.flt with lostClocks := s.flt.lostClocks ++ [d] } ∧
    (clockLogged d s).twl = s.twl ∧ (clockLogged d s).conf = s.conf ∧ (clockLogged d s).cal = s.cal ∧
    (clockLogged d s).gng = s.gng ∧ (clockLogged d s).sys = s.sys := by
  simp [clockLogged, clockNoted]

theorem logFault_seconds (cls outcome inst : Nat) (l : List Nat) (s : State) :
    (logFault cls outcome inst l s).lin.seconds = s.lin.seconds := by
  simp only [logFault, logFaultAt, setSram]

theorem clockLogged_seconds : (clockLogged d s).lin.seconds = s.lin.seconds := by
  rw [clockLogged, logFault_seconds]
  simp [clockNoted, skipFree]

theorem clockLogged_posts : Posts s (clockLogged d s) [event s 0x1206 3 [d]] := by
  refine posts_logFault (posts_skipFree ?_ 1) _ _ _ _
  exact posts_post _ _ _ rfl rfl rfl rfl

theorem clockLogged_logs : Logs s (clockLogged d s) 4 (freeNow (clockNoted d s) % 7) d [] :=
  logFault_lin_congr (by simp [clockNoted]) (by simp [clockNoted]) _ _ _ _

theorem clockLogged_only : Only [.flt, .lin, .rings, .hif, .out, .free] s (clockLogged d s) := by
  refine only_of_unlisted fun q hq => ?_
  cases q <;> cases hq <;> simp [Part.same, clockLogged, clockNoted]

end

section
variable {d : Nat} {s : State}

theorem exec_clockLoss_known (h : s.flt.lostClocks.contains d = true) : exec (.clockLoss d) s = .next s := by
  simp only [exec, execClockLoss]
  rw [if_pos (by simp only [h, Bool.or_true, Bool.true_or])]

variable (hdie : dieRuns s = true) (hlost : s.flt.lostClocks.contains d = false)
include hdie hlost

/-- A domain that something can replace is recorded and replaced. -/
theorem exec_clockLoss_served (hserved : d < 216 ∨ d = 234 ∨ d = 235) :
    exec (.clockLoss d) s = .next (clockLost d (clockLogged d s)) := by
  have hresets : (decide (216 ≤ d) && decide (d ≠ 234) && decide (d ≠ 235) && decide (s.pwr.fall = .idle)) = false := by
    rcases hserved with h | h | h
    · simp [Nat.not_le.mpr h]
    · simp [h]
    · simp [h]
  have hknown : (decide (247 < d) || s.flt.lostClocks.contains d || !(dieRuns s)) = false := by
    simp only [hlost, hdie, Bool.not_true, Bool.or_false, decide_eq_false_iff_not]
    omega
  simp only [exec, execClockLoss]
  rw [if_neg (by rw [hknown]; exact Bool.false_ne_true), hresets]
  simp only [Bool.false_eq_true, if_false, clockLogged, clockNoted]

/-- A domain that nothing can replace resets the die. -/
theorem exec_clockLoss_resets (hlow : 216 ≤ d) (hhigh : d ≤ 247) (ha : d ≠ 234) (hb : d ≠ 235) (hfall : s.pwr.fall = .idle) :
    exec (.clockLoss d) s = .next (watchdog 0 (logFault 4 5 d [] (clockNoted d s))) := by
  have hresets : (decide (216 ≤ d) && decide (d ≠ 234) && decide (d ≠ 235) && decide (s.pwr.fall = .idle)) = true := by
    simp [hlow, ha, hb, hfall]
  have hknown : (decide (247 < d) || s.flt.lostClocks.contains d || !(dieRuns s)) = false := by
    simp only [hlost, hdie, Bool.not_true, Bool.or_false, decide_eq_false_iff_not]
    omega
  have hclock : ∀ u : State, clockLost d u = watchdog 0 u := fun u => by
    rw [clockLost, if_neg (by omega), if_neg (by omega), if_neg (by omega), if_neg (by simp [ha, hb])]
  simp only [exec, execClockLoss]
  rw [if_neg (by rw [hknown]; exact Bool.false_ne_true), hresets, hclock]
  simp only [if_true, clockNoted]

end

/-! ## A Twill group without its clock -/

/-- A port that leaves service until its group's clock is back. -/
def clockStopped (n : Nat) (s : State) : State :=
  if (portAt s n).state = .failed || (portAt s n).state = .unused then s
  else setPort n { portAt s n with state := .backoff, wait := none, tries := 0 } s

/-- A group without its clock, before its ports leave service. -/
def clockless (g : Nat) (s : State) : State :=
  setGroup g { groupAt s g with noClock := true, quiet := false, stopDue := false, wire := none, queue := [] } s

section
variable {g n : Nat} {s : State}

theorem groupClockLost_eq (g : Nat) (s : State) : groupClockLost g s =
    forAll ((enabledPorts s.conf).filter (fun p => p.2.group = g)) (fun p => clockStopped p.1) (clockless g s) := rfl

theorem clockStopped_waits {m : Nat} (h : (portAt s n).state = .active ∨ (portAt s n).state = .backoff) :
    (portAt (clockStopped m s) n).state = (if n = m then .backoff else (portAt s n).state) := by
  unfold clockStopped
  by_cases hn : n = m
  · subst hn
    rcases h with h | h <;> simp [h]
  · rw [if_neg hn]
    split
    · rfl
    · rw [portAt_setPort_other hn]

theorem groupClockLost_port {q : Nat × PortCfg} (hq : q ∈ enabledPorts s.conf) (hg : q.2.group = g)
    (hactive : (portAt s q.1).state = .active) : (portAt (groupClockLost g s) q.1).state = .backoff := by
  have hstops : ∀ (l : List (Nat × PortCfg)) (u : State), q ∈ l → (portAt u q.1).state = .active ∨ (portAt u q.1).state = .backoff →
      (portAt (forAll l (fun p => clockStopped p.1) u) q.1).state = .backoff := by
    intro l
    induction l with
    | nil => intro u hmem; cases hmem
    | cons p l ih =>
      intro u hmem hstate
      have hstep := clockStopped_waits (m := p.1) hstate
      by_cases hp : q.1 = p.1
      · rw [if_pos hp] at hstep
        refine forAll_preserves (P := fun v => (portAt v q.1).state = .backoff) (fun r v hv => ?_) l hstep
        rw [clockStopped_waits (.inr hv), hv, ite_self]
      · rw [if_neg hp] at hstep
        refine ih (clockStopped p.1 u) ?_ (by rw [hstep]; exact hstate)
        exact (List.mem_cons.mp hmem).resolve_left fun h => hp (congrArg Prod.fst h)
  exact hstops _ (clockless g s) (List.mem_filter.mpr ⟨hq, decide_eq_true hg⟩) (.inl hactive)

theorem groupClockLost_clock (g : Nat) (s : State) : (groupAt (groupClockLost g s) g).noClock = true := by
  rw [groupClockLost_eq, forAll_keeps (fun u => groupAt u g) _ _ _ fun p u => ?_]
  · rw [clockless, groupAt_setGroup_same]
  · unfold clockStopped
    split <;> rfl

theorem groupClockLost_only (g : Nat) (s : State) : Only [.twl] s (groupClockLost g s) := by
  refine only_of_unlisted fun q hq => ?_
  cases q <;> cases hq <;> simp [Part.same]

/-- The clock is back, and the ports that waited for it train. -/
theorem groupClockBack_clock (h : (groupAt s g).noClock = true) : (groupAt (groupClockBack g s) g).noClock = false := by
  rw [groupClockBack, if_pos h]
  refine forAll_preserves (P := fun u => (groupAt u g).noClock = false) (fun p u hu => ?_) _ ?_
  · split
    · obtain ⟨q, htrain⟩ := trainPort_touches (portAt u p.1).initial p.1 u
      rw [(setup_of_groupSetup (htrain.group g)).1, hu]
    · exact hu
  · rw [groupAt_setGroup_same]

theorem exec_clockReturn_ready (h : d < 200 ∨ 212 ≤ d ∨ (groupAt s (d - 200)).noClock = false) :
    exec (.clockReturn d) s = .next { s with flt := { s.flt with lostClocks := s.flt.lostClocks.filter (· ≠ d) } } := by
  simp only [exec, execClockReturn]
  split
  · rename_i hgroup
    simp only [Bool.and_eq_true, decide_eq_true_eq] at hgroup
    rw [groupClockBack, if_neg]
    have hclock : (groupAt s (d - 200)).noClock = false := by
      rcases h with h | h | h
      · omega
      · omega
      · exact h
    simpa [groupAt] using hclock
  · rfl

theorem exec_clockReturn_group (hg : g < 12) : exec (.clockReturn (200 + g)) s =
    .next (groupClockBack g { s with flt := { s.flt with lostClocks := s.flt.lostClocks.filter (· ≠ 200 + g) } }) := by
  simp only [exec, execClockReturn]
  rw [if_pos (by simp; omega), Nat.add_sub_cancel_left]

end

/-! ## A clock that stays away (R397, R399) -/

/-- A port that waited for its group's clock has failed, with a record. -/
def clockFailed (g n : Nat) (s : State) : State :=
  if (portAt s n).state = .backoff then
    portFailed n (Config.freeValue (s.free + 0) % 5) (Config.freeValue (s.free + 1) % 7)
      (logFault 5 (Config.freeValue (s.free + 2) % 7) n [g, Config.freeValue (s.free + 3) % 2 ^ 32,
        Config.freeValue (s.free + 1) % 7] (skipFree 4 s))
  else s

section
variable {g n : Nat} {s : State}

theorem exec_clockTimeout (h : (groupAt s g).noClock = true) : exec (.twillClockLossTimeout g) s =
    .next (endTraining none (forAll ((enabledPorts s.conf).filter (fun p => p.2.group = g)) (fun p => clockFailed g p.1) s)) := by
  simp only [exec, execTwillClockLossTimeout]
  rw [if_pos h]
  rfl

theorem clockFailed_elsewhere {m : Nat} (hm : m ≠ n) : portAt (clockFailed g n s) m = portAt s m := by
  unfold clockFailed
  split
  · rw [(portFailed_sets n _ _ _).other m hm]
    simp [portAt]
  · rfl

theorem clockFailed_other {m : Nat} (h : (portAt s m).state ≠ .backoff) : portAt (clockFailed g n s) m = portAt s m := by
  by_cases hm : m = n
  · rw [clockFailed, if_neg (hm ▸ h)]
  · exact clockFailed_elsewhere hm

theorem clockFailed_fails (h : (portAt s n).state = .backoff) : (portAt (clockFailed g n s) n).state = .failed := by
  rw [clockFailed, if_pos h, (portFailed_sets n _ _ _).same]
  rfl

theorem clockFailed_clock (k : Nat) : (groupAt (clockFailed g n s) k).noClock = (groupAt s k).noClock := by
  unfold clockFailed
  split
  · rw [(setup_of_groupSetup ((portFailed_sets n _ _ _).group k)).1]
    simp [groupAt]
  · rfl

theorem clockFailed_only (g n : Nat) (s : State) :
    Only [.twl, .pnl, .lin, .trc, .rings, .hif, .out, .free] s (clockFailed g n s) := by
  unfold clockFailed
  split
  · refine only_of_unlisted fun q hq => ?_
    cases q <;> cases hq <;> simp [Part.same]
  · exact only_refl _ s

theorem clockFailed_all {l : List (Nat × PortCfg)} {q : Nat × PortCfg} (hq : q ∈ l) (h : (portAt s q.1).state = .backoff) :
    (portAt (forAll l (fun p => clockFailed g p.1) s) q.1).state = .failed := by
  have hstays : ∀ (u : State) (m : Nat), (portAt u m).state = .failed → ∀ p, (portAt (clockFailed g p u) m).state = .failed :=
    fun u m hu p => by rw [clockFailed_other (by simp [hu]), hu]
  induction l generalizing s with
  | nil => cases hq
  | cons p l ih =>
    by_cases hp : q.1 = p.1
    · refine forAll_preserves (P := fun u => (portAt u q.1).state = .failed) (fun r u hu => hstays u q.1 hu r.1) l ?_
      change (portAt (clockFailed g p.1 s) q.1).state = .failed
      rw [← hp]
      exact clockFailed_fails h
    · have hmem := (List.mem_cons.mp hq).resolve_left fun heq => hp (congrArg Prod.fst heq)
      exact ih (s := clockFailed g p.1 s) hmem (by rw [clockFailed_elsewhere hp, h])

end


/-! ## An engine, a pair and a port without a clock -/

section
variable {d : Nat} {s : State}

theorem engineClockLost_spare (h : s.flt.idle.contains d = true ∨ s.flt.checkers.contains d = true) :
    (engineClockLost d s).flt.retired = s.flt.retired ++ [d] ∧ (engineClockLost d s).flt.lostClocks = s.flt.lostClocks ∧
      Only [.flt, .lin, .rings, .hif, .out, .free] s (engineClockLost d s) := by
  unfold engineClockLost
  cases hchecker : s.flt.checkers.contains d with
  | true =>
    rw [if_pos rfl, retireChecker_flt]
    exact ⟨rfl, rfl, retireChecker_only d s⟩
  | false =>
    have hidle := h.resolve_right (by rw [hchecker]; exact Bool.false_ne_true)
    rw [if_neg Bool.false_ne_true, if_pos hidle, retireIdle_flt]
    exact ⟨rfl, rfl, only_mono (by decide) (retireIdle_only d s)⟩

theorem engineClockLost_active {i : Nat} (hidle : s.flt.idle.contains d = false) (hchecker : s.flt.checkers.contains d = false)
    (hserves : (List.range 192).find? (fun i => engineOf s i = d && !(s.flt.unserved.contains i)) = some i) :
    engineClockLost d s = callEngine i (freeNow s % 65536) (skipFree 1 s) := by
  rw [engineClockLost, hidle, hchecker, if_neg Bool.false_ne_true, if_neg Bool.false_ne_true, hserves]

theorem skipFree_flt (n : Nat) (s : State) : (skipFree n s).flt = s.flt := rfl

theorem skipFree_conf (n : Nat) (s : State) : (skipFree n s).conf = s.conf := rfl

theorem endTraining_clock (g : Nat) (s : State) : (groupAt (endTraining none s) g).noClock = (groupAt s g).noClock := by
  unfold endTraining
  split
  · simp [groupAt]
  · rfl

end

/-- Settles O45: a pair or a domain that something replaces is replaced, and the die is reset for any other. -/
theorem pairsAndClocksFailSafe : Obligations.PairsAndClocksFailSafe := by
  refine ⟨?takeover, ?last, ?passes, ?fails, ?group, ?resets, ?engine, ?pair, ?port, fun d s => exec_clockLoss_known,
    fun d s => exec_clockReturn_ready, ?back, ?timeout⟩
  case takeover =>
    intro p cause s hruns hp hboth
    refine ⟨_, exec_mismatch hruns, ?_, ?_⟩ <;> rw [hkFault_takeover hp hboth]
    exact flt_only _ s
  case last =>
    intro p cause s hfall htransit hruns hp hlast
    have hexec := exec_mismatch (p := p) (cause := cause) hruns
    rw [hkFault_last hp hlast, watchdog_dies] at hexec
    · obtain ⟨hcause, hmode, hboot, hstore, hconf, hmem⟩ := resetDie_comes 1 (logFault 3 5 p [cause] (pairHalted p cause s))
      refine ⟨_, hexec, hcause, ?_, hboot, hstore, ?_, ?_⟩
      · rw [hmode]; simp [pairHalted]
      · rw [hconf]; simp [pairHalted]
      · rw [hmem]; simp [pairHalted]
    · simpa [dieRuns, pairHalted] using dieRuns_of_firmware hruns
    · simpa [pairHalted] using hfall
    · simpa [pairHalted] using htransit
  case passes =>
    intro p cause fe seconds s hhalted
    refine ⟨_, exec_hkSelfTest_pass hhalted, by simp [pairServes, pairTested], ?_, ?_, ?_⟩
    · exact posts_logFaultAt (posts_post (u := { s with flt := pairServes p s.flt }) 0x1205 3 [p, cause, 0] rfl rfl rfl rfl) _ _ _ _ _ _
    · exact logFaultAt_lin_congr (by simp) _ _ _ _ _ _
    · refine only_of_unlisted fun q hq => ?_
      cases q <;> cases hq <;> simp [Part.same]
  case fails =>
    intro p cause fe seconds s hhalted
    refine ⟨_, exec_hkSelfTest_fail hhalted, by simp [pairTested], ?_, ?_, ?_⟩
    · exact posts_putSpares (posts_logFaultAt (posts_post (u := { s with flt := pairTested p s.flt }) 0x1205 3 [p, cause, 1]
        rfl rfl rfl rfl) _ _ _ _ _ _)
    · have hlin := logFaultAt_lin_congr (s := s) (t := post 0x1205 3 [p, cause, 1] { s with flt := pairTested p s.flt }) (by simp)
        fe seconds 3 6 p [cause]
      refine putSpares_lin_congr (sparesPayload_of_view ?_ ?_) ?_
      · simp
      · simp
      · simpa only using hlin
    · refine only_of_unlisted fun q hq => ?_
      cases q <;> cases hq <;> simp [Part.same]
  case group =>
    intro g s hg hdie hlost hjobs
    obtain ⟨hflt, htwl, hconf, hcal, -, -⟩ := clockLogged_keeps (200 + g) s
    have hexec := exec_clockLoss_served hdie hlost (.inl (by omega))
    have hdomain : clockLost (200 + g) (clockLogged (200 + g) s) = groupClockLost g (clockLogged (200 + g) s) := by
      rw [clockLost, if_neg (by omega), if_pos (by omega), Nat.add_sub_cancel_left, pruneRun_of_idle]
      simpa [hcal] using hjobs
    rw [hdomain] at hexec
    refine ⟨_, freeNow (clockNoted (200 + g) s) % 7, hexec, ?_, groupClockLost_clock _ _, fun q hq hgroup hactive => ?_, ?_, ?_, ?_⟩
    · simpa using hflt
    · refine groupClockLost_port (by rw [hconf]; exact hq) hgroup ?_
      rw [portAt, htwl]
      exact hactive
    · exact posts_congr (clockLogged_posts (200 + g) s) (by simp)
    · have hlogs := clockLogged_logs (200 + g) s
      simpa [Logs] using hlogs
    · exact only_trans (only_mono (by decide) (clockLogged_only (200 + g) s)) (only_mono (by decide) (groupClockLost_only g _))
  case resets =>
    intro d s hlow hhigh ha hb hfall hdie htransit hlost
    have hexec := exec_clockLoss_resets hdie hlost hlow hhigh ha hb hfall
    rw [watchdog_dies] at hexec
    · obtain ⟨hcause, hmode, hboot, hstore, hconf, hmem⟩ := resetDie_comes 0 (logFault 4 5 d [] (clockNoted d s))
      refine ⟨_, hexec, hcause, ?_, hboot, hstore, ?_, ?_⟩
      · rw [hmode]; simp [clockNoted]
      · rw [hconf]; simp [clockNoted]
      · rw [hmem]; simp [clockNoted]
    · simpa [dieRuns, clockNoted] using hdie
    · simpa [clockNoted] using hfall
    · simpa [clockNoted] using htransit
  case engine =>
    intro d s hd hdie hlost
    obtain ⟨hflt, -, hconf, -, -, hsys⟩ := clockLogged_keeps d s
    have hdomain : clockLost d (clockLogged d s) = engineClockLost d (clockLogged d s) := by rw [clockLost, if_pos hd]
    have hexec := exec_clockLoss_served hdie hlost (.inl (by omega))
    rw [hdomain] at hexec
    refine ⟨fun hspare => ?_, fun i sp hidle hchecker hserves hpending hcoming hauto hspare => ?_⟩
    · obtain ⟨hretired, hclocks, honly⟩ := engineClockLost_spare (d := d) (s := clockLogged d s) (by rw [hflt]; exact hspare)
      rw [hflt] at hretired hclocks
      exact ⟨_, hexec, hretired, hclocks, only_trans (clockLogged_only d s) honly⟩
    · rw [engineClockLost_active (i := i) (by rw [hflt]; exact hidle) (by rw [hflt]; exact hchecker)
        (by simp only [engineOf, hflt]; exact hserves)] at hexec
      have hskipped : (skipFree 1 (clockLogged d s)).flt = (clockLogged d s).flt := skipFree_flt 1 _
      have hpend : (skipFree 1 (clockLogged d s)).flt.pendingStripes.contains i = false := by rw [hskipped, hflt]; exact hpending
      have hcome : (skipFree 1 (clockLogged d s)).flt.coming.any (fun m => m.stripe = i) = false := by rw [hskipped, hflt]; exact hcoming
      have hpolicy : fbit (skipFree 1 (clockLogged d s)).conf FLT_POLICY_ENGINE_AUTO = true := by
        rw [skipFree_conf, hconf, hauto]
      have hfree : spareEngine (skipFree 1 (clockLogged d s)).flt = some sp := by rw [hskipped, hflt]; exact hspare
      obtain ⟨hcame, -, -, hclocks⟩ := callEngine_promises_flt (line := freeNow (clockLogged d s) % 65536) hpend hcome hpolicy hfree
      have honly := callEngine_promises_only (line := freeNow (clockLogged d s) % 65536) hpend hcome hpolicy hfree
      refine ⟨_, freeNow (clockLogged d s) % 65536, hexec, ?_, ?_, only_trans (only_trans (clockLogged_only d s)
        (only_mono (by decide) (skipFree_only 1 _))) (only_mono (by decide) honly)⟩
      · rw [hcame, hskipped, hflt, promised]
        simp [clockLogged_seconds, hsys, skipFree]
      · rw [hclocks, hskipped, hflt]
  case pair =>
    intro p s hp hdie hlost hboth
    obtain ⟨hflt, -⟩ := clockLogged_keeps (234 + p) s
    have hexec := exec_clockLoss_served hdie hlost (by omega)
    have hdomain : clockLost (234 + p) (clockLogged (234 + p) s) =
        hkFault p (freeNow (clockLogged (234 + p) s) % 3) (skipFree 1 (clockLogged (234 + p) s)) := by
      rw [clockLost, if_neg (by omega), if_neg (by omega), if_neg (by omega), if_pos, Nat.add_sub_cancel_left]
      have hpair : p = 0 ∨ p = 1 := by omega
      rcases hpair with rfl | rfl <;> rfl
    have hskipped : (skipFree 1 (clockLogged (234 + p) s)).flt = (clockLogged (234 + p) s).flt := skipFree_flt 1 _
    rw [hdomain, hkFault_takeover hp (by rw [hskipped, hflt]; exact hboth)] at hexec
    refine ⟨_, hexec, rfl, by rw [hskipped, hflt], ?_⟩
    exact only_trans (only_trans (clockLogged_only (234 + p) s) (only_mono (by decide) (skipFree_only 1 _)))
      (only_mono (by decide) (flt_only _ _))
  case port =>
    intro p s hp hdie hlost hup
    obtain ⟨hflt, -, -, -, hgng, -⟩ := clockLogged_keeps (212 + p) s
    have hexec := exec_clockLoss_served hdie hlost (.inl (by omega))
    have hup' : (gngPort (clockLogged (212 + p) s) p).state = .up := by
      rw [gngPort, hgng]
      exact hup
    have hdomain : clockLost (212 + p) (clockLogged (212 + p) s) = portDown p (clockLogged (212 + p) s) := by
      rw [clockLost, if_neg (by omega), if_neg (by omega), if_pos (by omega), Nat.add_sub_cancel_left]
    rw [hdomain, portDown_up hup'] at hexec
    have hset := ((waiting_sets p _).kept (upPortLost_kept p (waiting p (clockLogged (212 + p) s)))).kept (trace1_kept 7 _)
    refine ⟨_, hexec, by rw [hset.same], ?_⟩
    have hkept : (trace1 7 (upPortLost p (waiting p (clockLogged (212 + p) s)))).flt = (clockLogged (212 + p) s).flt := by
      simp [waiting, setGng]
    rw [hkept, hflt]
  case back =>
    intro g s hg hclock
    refine ⟨_, exec_clockReturn_group hg, groupClockBack_clock hclock, by simp, ?_⟩
    refine only_of_unlisted fun q hq => ?_
    cases q <;> cases hq <;> simp [Part.same]
  case timeout =>
    intro g s hclock
    have hexec := exec_clockTimeout hclock
    refine ⟨_, hexec, ?_, fun q hq hgroup hwaits => ?_, fun m hm => ?_, ?_⟩
    · have hkept := forAll_keeps (fun u => (groupAt u g).noClock) ((enabledPorts s.conf).filter (fun p => p.2.group = g))
        (fun p => clockFailed g p.1) s fun p u => clockFailed_clock g
      rw [endTraining_clock]
      exact hkept.trans hclock
    · rw [endTraining_port]
      exact clockFailed_all (List.mem_filter.mpr ⟨hq, decide_eq_true hgroup⟩) hwaits
    · rw [endTraining_port]
      refine forAll_preserves (P := fun u => portAt u m = portAt s m) (fun p u hu => ?_) _ rfl
      rw [clockFailed_other (by rw [hu]; exact hm), hu]
    · exact only_trans (forAll_only (fun p : Nat × PortCfg => clockFailed_only g p.1) _ s) (only_mono (by decide) (endTraining_only none _))

end Sys2Proof.Proofs
end

section
/-!
Calibration runs and receiver adaptation (R337 to R340, R342, Tables 15.1 and 15.4).
-/
namespace Sys2Proof.Proofs
open Sys2Proof.Machine Sys2Proof.Laws

theorem cal_only (x : Cal) (s : State) : Only [.cal] s { s with cal := x } := by
  refine only_of_unlisted fun p hp => ?_
  cases p <;> cases hp <;> rfl

/-! ## CAL_RUN (R342) -/

section
variable {sq : Nat} {r : Running} {s : State}

/-- The run that CAL_RUN asks for. -/
def askedRun (sq : Nat) (r : Running) : CalJob := { target := fieldAt r.raw 0x18 4, mask := fieldAt r.raw 0x1C 4, ring := some sq }

/-- The command waits, and its run with the others. -/
def runAsked (sq : Nat) (r : Running) (s : State) : State :=
  holdRunning .pf0 sq r 0 { s with cal := { s.cal with waiting := s.cal.waiting ++ [askedRun sq r] } }

theorem exec_calRun (hready : ready s .pf0 sq 0x60 = some r) (htarget : fieldAt r.raw 0x18 4 ≤ 3) :
    exec (.calRun sq) s = .next (nextRuns (runAsked sq r s)) := by
  simp only [exec, execCalRun, runRing_ready hready, if_neg (Nat.not_lt.mpr htarget)]
  rfl

theorem runAsked_waiting : (runAsked sq r s).cal.waiting = s.cal.waiting ++ [askedRun sq r] := rfl

theorem runAsked_mayStart (j : CalJob) : mayStart (runAsked sq r s) j = mayStart s j := rfl

theorem runAsked_only : Only [.rings, .cal] s (runAsked sq r s) :=
  only_trans (only_mono (by decide) (cal_only _ s)) (only_mono (by decide) (holdRunning_only _ _ _ _ _))

theorem nextRuns_none (h : s.cal.waiting.find? (mayStart s) = none) : nextRuns s = s := by
  unfold nextRuns
  cases hlength : s.cal.waiting.length with
  | zero => rfl
  | succ k => simp only [startRuns, h]

/-- A run has started. -/
def runStarted (j : CalJob) (s : State) : State :=
  { s with cal := { s.cal with waiting := s.cal.waiting.erase j, jobs := s.cal.jobs ++ [startedJob s j] } }

theorem nextRuns_single {j : CalJob} (hwaiting : s.cal.waiting = [j]) (hstart : mayStart s j = true) : nextRuns s =
    if (startedJob s j).lanes.isEmpty then endRun (startedJob s j) (runStarted j s) else runStarted j s := by
  have hfound : [j].find? (mayStart s) = some j := by simp [hstart]
  simp only [nextRuns, hwaiting, List.length_singleton, startRuns, hfound]
  rw [← hwaiting]
  rfl

end

/-! ## A run's end (R342) -/

section
variable {s : State} {j : CalJob}

theorem settleRuns_none (h : ∀ x ∈ s.cal.jobs, x.lanes ≠ []) : settleRuns s = s := by
  have hended : s.cal.jobs.filter (fun j => j.lanes.isEmpty) = [] :=
    List.filter_eq_nil_iff.mpr fun x hx => by simpa using h x hx
  simp only [settleRuns, hended, List.isEmpty_nil, if_true]

/-- A run has ended, and that is told for each of its links. -/
def runTold (j : CalJob) (s : State) : State :=
  forAll (linksOf j.target) (fun l s => post 0x0F01 0 [l, mget 0 j.accepted l, mget 0 j.rejected l] s)
    { s with cal := { s.cal with jobs := s.cal.jobs.erase j, accepted := min 255 (linkSum j.accepted), rejected := min 255 (linkSum j.rejected) } }

theorem endRun_ring {n : Nat} (h : j.ring = some n) : endRun j s =
    finishAll .pf0 [n] 0x60 SUCCESS [linkSum j.accepted, linkSum j.rejected] (runTold j s) := by
  simp only [endRun, h]
  rfl

theorem runTold_keeps (j : CalJob) (s : State) : (runTold j s).rings.cqs = s.rings.cqs ∧ (runTold j s).rings.sqs = s.rings.sqs ∧
    (runTold j s).cal = { s.cal with jobs := s.cal.jobs.erase j, accepted := min 255 (linkSum j.accepted), rejected := min 255 (linkSum j.rejected) } :=
  ⟨forAll_keeps (fun u => u.rings.cqs) _ _ _ fun l u => by simp, forAll_keeps (fun u => u.rings.sqs) _ _ _ fun l u => by simp,
    forAll_keeps (fun u => u.cal) _ _ _ fun l u => by simp⟩

theorem runTold_only (j : CalJob) (s : State) : Only [.rings, .hif, .cal, .out] s (runTold j s) :=
  only_trans (only_mono (by decide) (cal_only _ s))
    (only_mono (by decide) (forAll_only (fun l u => post_only 0x0F01 0 [l, mget 0 j.accepted l, mget 0 j.rejected l] u) _ _))

/-- The run's CAL_RUN completes with what was accepted and rejected. -/
theorem endRun_completes {n : Nat} {rr : Running} {t : State} (hring : j.ring = some n) (hcqs : s.rings.cqs = t.rings.cqs)
    (hwaits : waitingOn s .pf0 n 0x60 = some rr) :
    Completed t (endRun j s) .pf0 n rr SUCCESS [linkSum j.accepted, linkSum j.rejected] ∧
      (endRun j s).cal = (runTold j s).cal ∧ Only [.rings, .hif, .cal, .trc, .out, .free] s (endRun j s) := by
  obtain ⟨hkeptCqs, hkeptSqs, -⟩ := runTold_keeps j s
  rw [endRun_ring hring, finishAll_single ((waitingOn_congr hkeptSqs ..).trans hwaits)]
  exact ⟨finish_completed _ _ _ _ _ (hkeptCqs.trans hcqs), by simp, finish_only_after (runTold_only j s) (by decide) (by decide)⟩

end

/-- A run that is alone ends with its last lane. -/
theorem settleRuns_single {n : Nat} (hjobs : s.cal.jobs = [j]) (hlanes : j.lanes = []) (hring : j.ring = some n)
    (hwaiting : s.cal.waiting = []) : settleRuns s = endRun j s := by
  have hended : s.cal.jobs.filter (fun j => j.lanes.isEmpty) = [j] := by simp [hjobs, hlanes]
  have hnext : (endRun j s).cal.waiting = [] := by
    have hkept : (endRun j s).cal = (runTold j s).cal := by
      rw [endRun_ring hring]
      simp
    rw [hkept, (runTold_keeps j s).2.2]
    exact hwaiting
  simp only [settleRuns, hended, List.isEmpty_cons, Bool.false_eq_true, if_false]
  exact nextRuns_none (by rw [show (forAll [j] endRun s).cal.waiting = [] from hnext]; rfl)

/-! ## A lane's measurements (R338, R339) -/

section
variable {lane : Nat} {m : CalMeasure} {j : CalJob} {v a x : List Int} {s : State}

theorem exec_measurementDone (hjob : jobOf s lane = some j) (hstays : laneStays s lane = true) (hdue : measureDue j lane m = true) :
    exec (.calMeasurementDone lane m) s = .next (settleRuns (measureLane lane m j s)) := by
  simp only [exec, execCalMeasurementDone, hjob, hstays, hdue, Bool.and_self, if_true]

/-- A lane's first measurement is kept, and the lane waits for its second. -/
def firstKept (lane : Nat) (v : List Int) (j : CalJob) : CalJob :=
  { j with first := mput [] lane v j.first, stages := mput .waiting lane .waiting j.stages }

/-- The quality figure of a Twill lane's run has been taken (R344). -/
def residNoted (lane : Nat) (v : List Int) (s : State) : State :=
  if lane < 108 then { s with cal := { s.cal with resid := mput 0 lane (twillResid (tapsOf s lane) v) s.cal.resid } } else s

theorem residNoted_keeps (lane : Nat) (v : List Int) (s : State) : (residNoted lane v s).cal.jobs = s.cal.jobs ∧
    (residNoted lane v s).cal.sets = s.cal.sets ∧ (residNoted lane v s).cal.waiting = s.cal.waiting ∧
    (residNoted lane v s).cal.lastTemp = s.cal.lastTemp ∧ (residNoted lane v s).cal.rejLanes = s.cal.rejLanes ∧
    (residNoted lane v s).cal.taps = s.cal.taps ∧ (residNoted lane v s).conf = s.conf ∧ (residNoted lane v s).thm = s.thm ∧
    (residNoted lane v s).hif = s.hif ∧ (residNoted lane v s).rings = s.rings := by
  unfold residNoted
  split <;> simp

theorem residNoted_quiet (lane : Nat) (v : List Int) (s : State) : (residNoted lane v s).pwr.fall = s.pwr.fall ∧
    eventsFlow (residNoted lane v s) .pf0 = eventsFlow s .pf0 ∧ eqOf (residNoted lane v s).rings .pf0 = eqOf s.rings .pf0 ∧
    (residNoted lane v s).sys.fe = s.sys.fe := by
  unfold residNoted
  split <;> exact ⟨rfl, rfl, rfl, rfl⟩

theorem residNoted_only (lane : Nat) (v : List Int) (s : State) : Only [.cal] s (residNoted lane v s) := by
  unfold residNoted
  split
  · exact cal_only _ s
  · exact only_refl _ s

/-- A lane's run has been accepted, before runs that it ends are. -/
def laneAccepted (lane : Nat) (x v : List Int) (s : State) : State :=
  acceptLane lane x (onJob lane (doneLane lane true) (residNoted lane v s))

theorem measureLane_fails {e : Nat} (h : measured s lane m = .error e) : measureLane lane m j s = rejectLane lane e none s := by
  simp only [measureLane, h]

section
variable (h : measured s lane m = .ok v)
include h

theorem measureLane_first (hfirst : mget [] j.first lane = []) :
    measureLane lane m j s = onJob lane (firstKept lane v) s := by
  simp only [measureLane, h, hfirst]
  rfl

variable (ha : mget [] j.first lane = a) (hsome : a ≠ [])
include ha hsome

theorem measureLane_accepts (hcompare : compareRuns lane a v = .ok x) :
    measureLane lane m j s = laneAccepted lane x v s := by
  cases a with
  | nil => exact absurd rfl hsome
  | cons q l =>
    simp only [measureLane, h, ha, hcompare]
    rfl

theorem measureLane_rejects {reason q : Nat} (hcompare : compareRuns lane a v = .error (reason, q)) :
    measureLane lane m j s = rejectLane lane reason (some q) (residNoted lane v s) := by
  cases a with
  | nil => exact absurd rfl hsome
  | cons q l =>
    simp only [measureLane, h, ha, hcompare]
    rfl

end

/-- The runs once a lane has left its own, accepted or not. -/
def lanesDone (lane : Nat) (ok : Bool) (l : List CalJob) : List CalJob :=
  l.map (fun x => if x.lanes.contains lane then doneLane lane ok x else x)

theorem lanesDone_left {ok : Bool} {l : List CalJob} (h : ∀ x ∈ l, x.lanes.filter (· ≠ lane) ≠ []) :
    ∀ x ∈ lanesDone lane ok l, x.lanes ≠ [] := by
  intro x hx
  obtain ⟨y, hy, rfl⟩ := List.mem_map.mp hx
  have hleft := h y hy
  split
  · exact hleft
  · intro hnone
    rw [hnone] at hleft
    exact hleft rfl

/-- A lane's new entry. -/
def laneEntry (lane : Nat) (x : List Int) (s : State) : SMap CalEntry :=
  aput (256 * nearestSet s.conf s.thm.junction + lane) { temp := s.thm.junction, rate := rateOf s lane, vals := x } s.cal.sets

theorem acceptLane_cal (lane : Nat) (x : List Int) (s : State) : (acceptLane lane x s).cal = { s.cal with
    sets := laneEntry lane x s
    lastTemp := aput (linkOf lane) s.thm.junction s.cal.lastTemp
    rejLanes := mput false lane false s.cal.rejLanes
    goalTemp := some s.thm.junction } := rfl

theorem acceptLane_rings (lane : Nat) (x : List Int) (s : State) : (acceptLane lane x s).rings = s.rings := by simp

theorem acceptLane_only (lane : Nat) (x : List Int) (s : State) : Only [.cal, .lin] s (acceptLane lane x s) := by
  refine only_of_unlisted fun p hp => ?_
  cases p <;> cases hp <;> simp [Part.same]

theorem onJob_only (f : CalJob → CalJob) (s : State) : Only [.cal] s (onJob lane f s) := cal_only _ s

theorem laneAccepted_cal (lane : Nat) (x v : List Int) (s : State) :
    (laneAccepted lane x v s).cal.jobs = lanesDone lane true s.cal.jobs ∧ (laneAccepted lane x v s).cal.sets = laneEntry lane x s ∧
      (laneAccepted lane x v s).cal.lastTemp = aput (linkOf lane) s.thm.junction s.cal.lastTemp ∧
      (laneAccepted lane x v s).cal.goalTemp = some s.thm.junction ∧
      (laneAccepted lane x v s).cal.rejLanes = mput false lane false s.cal.rejLanes ∧
      (laneAccepted lane x v s).cal.taps = s.cal.taps ∧ (laneAccepted lane x v s).cal.waiting = s.cal.waiting ∧
      (laneAccepted lane x v s).rings = s.rings := by
  obtain ⟨hjobs, hsets, hwaiting, htemp, hrejected, htaps, hconf, hthm, hhif, hrings⟩ := residNoted_keeps lane v s
  refine ⟨?_, ?_, ?_, ?_, ?_, ?_, ?_, ?_⟩
  · rw [laneAccepted, acceptLane_cal]
    simp only [onJob, hjobs, lanesDone]
  · rw [laneAccepted, acceptLane_cal]
    simp only [onJob, laneEntry, rateOf, hsets, hconf, hthm, hhif]
  · rw [laneAccepted, acceptLane_cal]
    simp only [onJob, htemp, hthm]
  · rw [laneAccepted, acceptLane_cal]
    simp only [onJob, hthm]
  · rw [laneAccepted, acceptLane_cal]
    simp only [onJob, hrejected]
  · rw [laneAccepted, acceptLane_cal]
    simp only [onJob, htaps]
  · rw [laneAccepted, acceptLane_cal]
    simp only [onJob, hwaiting]
  · rw [laneAccepted, acceptLane_rings, onJob, hrings]

theorem laneAccepted_only (lane : Nat) (x v : List Int) (s : State) : Only [.cal, .lin] s (laneAccepted lane x v s) :=
  only_trans (only_trans (only_mono (by decide) (residNoted_only lane v s)) (only_mono (by decide) (onJob_only _ _)))
    (acceptLane_only lane x _)

/-- A lane's run has been rejected, before that is told. -/
def laneRejected (lane : Nat) (s : State) : State :=
  { s with cal := { s.cal with jobs := lanesDone lane false s.cal.jobs, rejLanes := mput false lane true s.cal.rejLanes } }

theorem laneRejected_marks (lane : Nat) (s : State) : mget false (laneRejected lane s).cal.rejLanes lane = true :=
  mget_mput_same false lane true s.cal.rejLanes

theorem rejectLane_quantity (lane reason q : Nat) (s : State) :
    rejectLane lane reason (some q) s = post 0x0F02 1 [lane, reason, q] (laneRejected lane s) := rfl

theorem rejectLane_open (lane reason : Nat) (s : State) : rejectLane lane reason none s =
    post 0x0F02 1 [lane, reason, freeNow (laneRejected lane s) % 2 ^ 32] (skipFree 1 (laneRejected lane s)) := rfl

theorem laneRejected_only (lane : Nat) (s : State) : Only [.cal] s (laneRejected lane s) := cal_only _ s

end

/-! ## Receivers (R337) -/

section
variable {lane : Nat} {w : AdaptWindow} {s : State}

/-- A receiver at a window's end. -/
def receiverSet (lane : Nat) (x : Rx) (s : State) : State := { s with cal := { s.cal with rx := mput {} lane x s.cal.rx } }

theorem exec_windowEnd_good (hlow : 108 ≤ lane) (hhigh : lane < 132) (hcarries : carriesData s lane = true)
    (hdense : fget s.conf CAL_ADAPT_DENS ≤ w.density) (hbalanced : fget s.conf CAL_ADAPT_BAL ≤ w.balance) :
    exec (.adaptWindowEnd lane w) s = .next (onJob lane (windowSeen lane true) (receiverSet lane
      { ctle := w.ctle, dfe := (List.range 8).map (fun i => w.dfe.getD i 0), frozen := false, resid := w.resid } s)) := by
  simp only [exec, execAdaptWindowEnd, hlow, hhigh, hcarries, hdense, hbalanced, decide_true, Bool.and_self, if_true]
  rfl

theorem exec_windowEnd_frozen (hlow : 108 ≤ lane) (hhigh : lane < 132) (hcarries : carriesData s lane = true)
    (hpoor : w.density < fget s.conf CAL_ADAPT_DENS ∨ w.balance < fget s.conf CAL_ADAPT_BAL) :
    exec (.adaptWindowEnd lane w) s = .next (onJob lane (windowSeen lane false)
      (receiverSet lane { mget {} s.cal.rx lane with frozen := true } s)) := by
  have hbad : (decide (fget s.conf CAL_ADAPT_DENS ≤ w.density) && decide (fget s.conf CAL_ADAPT_BAL ≤ w.balance)) = false := by
    rcases hpoor with h | h <;> simp [Nat.not_le.mpr h]
  simp only [exec, execAdaptWindowEnd, hlow, hhigh, hcarries, hbad, decide_true, Bool.and_self, if_true, Bool.false_eq_true, if_false]
  rfl

theorem exec_windowEnd_idle (hcarries : carriesData s lane = false) : exec (.adaptWindowEnd lane w) s = .next s := by
  simp only [exec, execAdaptWindowEnd, hcarries, Bool.and_false, Bool.false_eq_true, if_false]

theorem receiverSet_same (x : Rx) : mget {} (receiverSet lane x s).cal.rx lane = x := mget_mput_same ..

theorem receiverSet_other (x : Rx) {l : Nat} (h : l ≠ lane) : mget {} (receiverSet lane x s).cal.rx l = mget {} s.cal.rx l :=
  mget_mput_other _ _ _ h

theorem windowSeen_good (lane : Nat) (j : CalJob) : windowSeen lane true j =
    if mget .waiting j.stages lane = .waiting then { j with stages := mput .waiting lane .committed j.stages } else j := by
  unfold windowSeen
  by_cases h : mget .waiting j.stages lane = .waiting <;> simp [h]

theorem windowSeen_frozen (lane : Nat) (j : CalJob) : windowSeen lane false j =
    if mget .waiting j.stages lane = .waiting then
      { j with windows := mput 0 lane (min 100 (mget 0 j.windows lane + 1)) j.windows } else j := by
  unfold windowSeen
  by_cases h : mget .waiting j.stages lane = .waiting <;> simp [h]

end


/-- Settles O52: a lane's two measurements are kept, accepted or rejected, and the run that they end is ended. -/
theorem calibrationMeasuresTwice : Obligations.CalibrationMeasuresTwice := by
  refine ⟨?begins, ?empty, ?waits, ?first, ?accepts, ?rejects, ?fails, ?ends, ?window, ?frozen, fun lane w s => exec_windowEnd_idle⟩
  case begins =>
    rintro sq r j s hready htarget hwaiting hstart rfl hlanes
    have hnone : (startedJob (runAsked sq r s) (askedRun sq r)).lanes.isEmpty = false := List.isEmpty_eq_false_iff.mpr hlanes
    have hexec := exec_calRun hready htarget
    rw [nextRuns_single (j := askedRun sq r) (by rw [runAsked_waiting, hwaiting]; rfl) (by rw [runAsked_mayStart]; exact hstart),
      hnone, if_neg Bool.false_ne_true] at hexec
    refine ⟨_, hexec, holdRunning_running .., ?_, only_trans runAsked_only (only_mono (by decide) (cal_only _ _))⟩
    simp only [runStarted, runAsked_waiting, hwaiting, List.nil_append, List.erase_cons_head]
    rw [← hwaiting]
    rfl
  case empty =>
    intro sq r s hready htarget hjobs hwaiting hlanes
    have hnone : (startedJob (runAsked sq r s) (askedRun sq r)).lanes.isEmpty = true := List.isEmpty_iff.mpr hlanes
    have hstart : mayStart s (askedRun sq r) = true := by
      have hlanes' : (startedJob s (askedRun sq r)).lanes = [] := hlanes
      simp only [mayStart, hlanes', List.all_nil, Bool.and_true]
      rfl
    have hexec := exec_calRun hready htarget
    rw [nextRuns_single (j := askedRun sq r) (by rw [runAsked_waiting, hwaiting]; rfl) (by rw [runAsked_mayStart]; exact hstart),
      hnone, if_pos rfl] at hexec
    have hwaits : waitingOn (runStarted (askedRun sq r) (runAsked sq r s)) .pf0 sq 0x60 = some { r with waiting := true, arg := 0 } := by
      simp [waitingOn, runStarted, runAsked, opcode_of_ready hready]
    obtain ⟨hdone, hcal, honly⟩ := endRun_completes (j := startedJob (runAsked sq r s) (askedRun sq r)) (t := s) rfl
      (by simp [runStarted, runAsked]) hwaits
    refine ⟨_, hexec, hdone, ?_, ?_, ?_⟩
    · rw [hcal, (runTold_keeps _ _).2.2]
      simp [runStarted, runAsked, hjobs]
    · rw [hcal, (runTold_keeps _ _).2.2]
      simp [runStarted, runAsked]
    · exact only_trans (only_trans (only_mono (by decide) runAsked_only) (only_mono (by decide) (cal_only _ _)))
        (only_mono (by decide) honly)
  case waits =>
    rintro sq r j s hready htarget rfl hblocked
    have hexec := exec_calRun hready htarget
    have hnone : (runAsked sq r s).cal.waiting.find? (mayStart (runAsked sq r s)) = none :=
      List.find?_eq_none.mpr fun x hx => by
        rw [runAsked_mayStart]
        simpa using hblocked x hx
    rw [nextRuns_none hnone] at hexec
    exact ⟨_, hexec, holdRunning_running .., rfl, runAsked_only⟩
  case first =>
    intro lane m j v s hjob hstays hdue hmeasured hfirst hlanes
    have hexec := exec_measurementDone hjob hstays hdue
    rw [measureLane_first hmeasured hfirst, settleRuns_none] at hexec
    · exact ⟨_, hexec, rfl, onJob_only _ s⟩
    · intro x hx
      obtain ⟨y, hy, rfl⟩ := List.mem_map.mp hx
      have hkept := hlanes y hy
      split <;> exact hkept
  case accepts =>
    intro lane m j a v x s hjob hstays hdue hmeasured ha hsome hcompare hleft
    obtain ⟨hjobs, hsets, htemp, hgoal, hrejected, htaps, -, -⟩ := laneAccepted_cal lane x v s
    have hexec := exec_measurementDone hjob hstays hdue
    rw [measureLane_accepts hmeasured ha hsome hcompare, settleRuns_none
      (s := laneAccepted lane x v s) (by rw [hjobs]; exact lanesDone_left hleft)] at hexec
    exact ⟨_, hexec, hjobs, hsets, htemp, hgoal, hrejected, htaps, only_mono (by decide) (laneAccepted_only lane x v s)⟩
  case rejects =>
    intro lane m j a v reason q s hjob hstays hdue hmeasured ha hsome hcompare hleft
    obtain ⟨hjobs, hsets, -, -, hrejected, -⟩ := residNoted_keeps lane v s
    have hexec := exec_measurementDone hjob hstays hdue
    have hpost : (post 0x0F02 1 [lane, reason, q] (laneRejected lane (residNoted lane v s))).cal =
      (laneRejected lane (residNoted lane v s)).cal := by simp
    have hdone : (laneRejected lane (residNoted lane v s)).cal.jobs = lanesDone lane false s.cal.jobs := by simp only [laneRejected, hjobs]
    rw [measureLane_rejects hmeasured ha hsome hcompare, rejectLane_quantity, settleRuns_none] at hexec
    · refine ⟨_, hexec, by rw [hpost, hdone]; rfl, by rw [hpost]; exact hsets, by rw [hpost]; exact laneRejected_marks .., ?_, ?_⟩
      · obtain ⟨hfall, hflow, hring, hfe⟩ := residNoted_quiet lane v s
        exact posts_post (u := laneRejected lane (residNoted lane v s)) _ _ _ hfall hflow hring hfe
      · exact only_trans (only_trans (only_mono (by decide) (residNoted_only lane v s)) (only_mono (by decide) (laneRejected_only lane _)))
          (only_mono (by decide) (post_only _ _ _ _))
    · rw [hpost, hdone]
      exact lanesDone_left hleft
  case fails =>
    intro lane e m j s hjob hstays hdue hmeasured hleft
    have hexec := exec_measurementDone hjob hstays hdue
    have hpost : ∀ q, (post 0x0F02 1 [lane, e, q] (skipFree 1 (laneRejected lane s))).cal = (laneRejected lane s).cal := fun q => by
      simp [skipFree]
    rw [measureLane_fails hmeasured, rejectLane_open, settleRuns_none] at hexec
    · refine ⟨_, freeNow (laneRejected lane s) % 2 ^ 32, hexec, by rw [hpost]; rfl, by rw [hpost]; rfl,
        by rw [hpost]; exact laneRejected_marks .., posts_post (u := skipFree 1 (laneRejected lane s)) _ _ _ rfl rfl rfl rfl, ?_⟩
      exact only_trans (only_trans (only_mono (by decide) (laneRejected_only lane s)) (only_mono (by decide) (skipFree_only 1 _)))
        (only_mono (by decide) (post_only _ _ _ _))
    · rw [hpost]
      exact lanesDone_left hleft
  case ends =>
    intro lane n m j rr a v x s hjobs hcovers hstays hdue hmeasured ha hsome hcompare hlast hring hwaits hwaiting
    obtain ⟨hdone, hsets, -, -, -, -, hnext, hrings⟩ := laneAccepted_cal lane x v s
    have hjob : jobOf s lane = some j := by
      rw [jobOf, hjobs]
      exact List.find?_cons_of_pos (p := fun x : CalJob => x.lanes.contains lane) hcovers
    have hended : (laneAccepted lane x v s).cal.jobs = [doneLane lane true j] := by
      rw [hdone, hjobs]
      simp only [lanesDone, List.map_cons, List.map_nil, hcovers, if_true]
    have hexec := exec_measurementDone hjob hstays hdue
    rw [measureLane_accepts hmeasured ha hsome hcompare, settleRuns_single hended hlast hring (hnext.trans hwaiting)] at hexec
    obtain ⟨hcomplete, hcal, honly⟩ := endRun_completes (j := doneLane lane true j) (s := laneAccepted lane x v s) (t := s) hring
      (by rw [hrings]) ((waitingOn_congr (by rw [hrings]) ..).trans hwaits)
    obtain ⟨-, -, htold⟩ := runTold_keeps (doneLane lane true j) (laneAccepted lane x v s)
    refine ⟨_, hexec, ?_, hcomplete, ?_, only_trans (only_mono (by decide) (laneAccepted_only lane x v s)) (only_mono (by decide) honly)⟩
    · rw [hcal, htold, hended]
      simp
    · rw [hcal, htold]
      exact hsets
  case window =>
    intro lane w s hlow hhigh hcarries hdense hbalanced
    refine ⟨_, exec_windowEnd_good hlow hhigh hcarries hdense hbalanced, receiverSet_same _, fun l hl => receiverSet_other _ hl, ?_,
      only_trans (cal_only _ s) (onJob_only _ _)⟩
    simp only [onJob, windowSeen_good]
    rfl
  case frozen =>
    intro lane w s hlow hhigh hcarries hpoor
    refine ⟨_, exec_windowEnd_frozen hlow hhigh hcarries hpoor, receiverSet_same _, fun l hl => receiverSet_other _ hl, ?_,
      only_trans (cal_only _ s) (onJob_only _ _)⟩
    simp only [onJob, windowSeen_frozen]
    rfl

end Sys2Proof.Proofs
end
